-- ==== Sys2Proof/Word.lean ====
section
/-! DEFINITION. Words, bytes and sparse tables: the plain data types every other file is written over. -/

namespace Sys2Proof

/-- A byte of a register, request, response or memory. -/
abbrev Byte := BitVec 8

/-- A 32-bit register word. -/
abbrev Word := BitVec 32

/-- A 64-bit register or field. -/
abbrev DWord := BitVec 64

/-- A byte string: a request body, a response body, key material, a list segment. -/
abbrev Bytes := List Byte

/-- Sparse memory: strictly rising addresses, no zero byte listed; an unlisted address reads as 0. -/
abbrev Mem := List (Nat × Byte)

/-- A sparse table by number: strictly rising keys. -/
abbrev Tab (α : Type) := List (Nat × α)

end Sys2Proof
end

