-- ==== Sys2Proof/Syntax.lean ====
section
/-! DEFINITION. The commands of the block: one constructor of Instr per row of spec/opcode_table.json, with the row's operands. -/

namespace Sys2Proof

/-- A PCIe function: PF p (0-3: link and half, R274) or VF by its global index (R229). -/
inductive Fn where
  | pf (p : Nat)
  | vf (n : Nat)
  deriving DecidableEq, Repr

/-- A mailbox: mailbox m of PF p, or the one mailbox of a VF (R264). -/
inductive Mb where
  | pf (p m : Nat)
  | vf (n : Nat)
  deriving DecidableEq, Repr

/-- The 64-bit tag of an Understory transaction, field by field (chapter 01, Tags). -/
structure FabricTag where
  master : Nat
  worldU : Bool
  priv : Bool
  owner : Nat
  ctx : Nat
  opclass : Nat
  seq : Nat
  parityOk : Bool
  deriving DecidableEq, Repr

/-- What a fabric transaction asks of its target. -/
inductive Access where
  | read (addr len : Nat)
  | write (addr : Nat) (data : Bytes)
  | fetch (addr len : Nat)
  deriving DecidableEq, Repr

/-- The window a register write arrives through (R236) or the internal master that issues it. A request to a running TDI's BARs that lacks the TEE bit is a plain one (R235). -/
inductive RegPort where
  | pfBar0 (p : Nat)
  | pfBar2 (p : Nat)
  | vfBar0 (n : Nat)
  | vfBar2 (n : Nat)
  | vfPlain (n : Nat) (bar2 : Bool)
  | internal (tag : FabricTag)
  deriving DecidableEq, Repr

/-- What a read of host memory was issued for (R252, R258, R283, R89). -/
inductive HostRead where
  | sq (fn : Fn) (qid : Nat)
  | ctx (c elem off : Nat) (dst segment : Bool) (addr : Nat)
  | blob (mb : Mb) (addr : Nat)
  | jrBuffer (addr : Nat)
  | frame (fn : Fn) (ring : Nat) (addr : Nat)
  deriving DecidableEq, Repr

/-- What an engine offers the arbiter at the end of its work (R278): its own result, computed by the meaning, or the failure it met. -/
inductive EngineResult where
  | final
  | unitFailure
  | checkFailed
  | addressFault (dst : Bool) (elem off : Nat)
  deriving DecidableEq, Repr

/-- A request in a PF's DOE mailbox (R233): discovery or an SPDM message. -/
inductive DoeRequest where
  | discovery (index : Nat)
  | spdm (secured : Bool) (msg : Bytes)
  deriving DecidableEq, Repr

/-- A TDISP message (R235). -/
inductive TdispMsg where
  | lock (stream : Nat)
  | start
  | stop
  | query
  deriving DecidableEq, Repr

/-- What a health check of a bank reports: raw samples of the open window for the tests to judge, or a parity failure (R210). -/
inductive HealthFault where
  | samples (raw : List Nat)
  | parity
  deriving DecidableEq, Repr

/-- One instruction of a core and what it writes (R347, R359): the integer register, the CSR it names, vector registers, vector CSRs as a side effect; its bits. -/
structure CoreStep where
  addr : DWord
  len : Nat
  nextPc : DWord
  wrote : Option (Nat × DWord)
  csr : Option (Nat × DWord)
  vec : List (Nat × List (BitVec 8)) := []
  vset : List (Nat × DWord) := []
  insn : Nat := 0
  deriving DecidableEq, Repr

/-- A debug access under an enable (R490). -/
inductive DebugAccess where
  | fabric (addr data : Nat) (write : Bool)
  | halt (core : Nat)
  | resume (core : Nat)
  | step (core : Nat)
  | readReg (core reg : Nat)
  | writeReg (core reg : Nat) (value : DWord)
  | trace (core : Nat)
  | gate (addr data : Nat) (write : Bool)
  deriving DecidableEq, Repr

/-- An access that waits for a stand to wake from DOZE (R582). -/
inductive HeldAccess where
  | job (ctx : Nat)
  | key (slot : Nat)
  | gate (core : Nat)
  | fabric (tag : FabricTag) (target : Nat) (acc : Access)
  deriving DecidableEq, Repr

/-- Who waits for Seedbank bits (R58, R132, R196, R221). -/
inductive Waiter where
  | mailbox (mb : Mb)
  | context (ctx : Nat)
  | port (stand master : Nat)
  | gate (ticket : Nat)
  | start
  deriving DecidableEq, Repr

/-- The rows of spec/opcode_table.json, in its order. -/
inductive Instr where
  /-- POWER_ON (R576): VDD_HW passes its power-on threshold and a cold start begins. -/
  | powerOn
  /-- MAIN_POWER_LOST (R573): VDD_HW falls below its threshold and the device enters BACKUP with only the backup domain running. -/
  | mainPowerLost
  /-- RESET_N (R576): RESET_N held low for at least 10 µs drives FB_ALIVE low and causes a cold start at its rising edge. -/
  | resetN (low : Bool)
  /-- PERST_ASSERT (R232): PERST# asserted on one link returns that link's functions to reset and voids their contexts. -/
  | perstAssert (link : Nat)
  /-- PERST_BOTH_LINKS (R576): PERST# asserted on both links together for 100 µs causes a cold start in QUARANTINE, or otherwise resets each link. -/
  | perstBothLinks
  /-- LINK_DOWN (R232): DL_Down or a hot reset on a link resets all functions of that link. -/
  | linkDown (link : Nat)
  /-- PF_FLR (R232): A PF function-level reset resets the PF and every VF below it. -/
  | pfFlr (p : Nat)
  /-- VF_FLR (R397): An FLR or removal of a VF resets it, as a forced reset when it holds work. -/
  | vfFlr (n : Nat)
  /-- BUS_MASTER_ENABLE_CLEAR (R232): Clearing Bus Master Enable puts the function's queues in ERROR with cause BME and voids its contexts. -/
  | busMasterEnableClear (fn : Fn)
  /-- D3HOT_ENTRY (R578): A function entering D3hot stops fetching and holds its output writes, completions and messages. -/
  | d3hotEntry (fn : Fn)
  /-- D0_RETURN (R578): A function returning to D0 releases whatever waited, in original order. -/
  | d0Return (fn : Fn)
  /-- START_STAGE_DONE (R445): A cold-start stage completes and the next stage begins. -/
  | startStageDone (ok : Bool)
  /-- START_STAGE_TIMEOUT (R446): A start stage exceeds its maximum or no working mode is reached within 2 s, so the start fails. -/
  | startStageTimeout
  /-- COLD_START_AFTER_ORDER (R46): The device performs the cold start it ordered within 100 ms after a life-cycle transition or recovery commit. -/
  | coldStartAfterOrder
  /-- FABRIC_TRANSACTION (R435): A tagged fabric transaction reaches its target's ACU and is judged part by part before the target acts. -/
  | fabricTransaction (tag : FabricTag) (target : Nat) (acc : Access)
  /-- REGISTER_WRITE (R7): A write to a register that has no row of its own acts by its access code and change class. -/
  | registerWrite (at_ : RegPort) (off : Nat) (bytes : Nat) (value : Nat)
  /-- KEY_GENERATE (R58): Generates a key into a slot of the caller's owner. -/
  | keyGenerate (mb : Mb)
  /-- KEY_IMPORT (R59): Imports a wrapped or public key into a new record. -/
  | keyImport (mb : Mb)
  /-- KEY_EXPORT (R61): Exports a key wrapped, raw or as public material. -/
  | keyExport (mb : Mb)
  /-- KEY_DERIVE (R57): Derives a key by SP 800-108 from a parent or the owner root. -/
  | keyDerive (mb : Mb)
  /-- KEY_DESTROY (R82): Marks a key REVOKING and begins its drain and destruction. -/
  | keyDestroy (mb : Mb)
  /-- KEY_REPLACE (R82): Revokes a key and regenerates new material in the same slots. -/
  | keyReplace (mb : Mb)
  /-- KEY_GET_ATTR (R87): Returns the first 64 bytes of a key record. -/
  | keyGetAttr (mb : Mb)
  /-- KEY_SET_ATTR (R88): Clears attribute bits, lowers uses or changes policy under the rules of R88. -/
  | keySetAttr (mb : Mb)
  /-- STORE_COMMIT (R78): Sets the commit interval and optionally forces a commit. -/
  | storeCommit (mb : Mb)
  /-- STORE_STATUS (R87): Returns store state, journal sequence numbers and occupancy. -/
  | storeStatus (mb : Mb)
  /-- STORE_RECOVER (R80): Starts store recovery from the journal and turns the journal ring to input. -/
  | storeRecover (mb : Mb)
  /-- COUNTER_CREATE (R85): Allocates a secure counter at 0. -/
  | counterCreate (mb : Mb)
  /-- COUNTER_INC (R86): Adds a step to a secure counter, durably or against a ceiling. -/
  | counterInc (mb : Mb)
  /-- COUNTER_READ (R87): Returns a secure counter's value. -/
  | counterRead (mb : Mb)
  /-- COUNTER_DESTROY (R85): Frees a secure counter. -/
  | counterDestroy (mb : Mb)
  /-- DRAIN_LIMIT_EXPIRY (R82): The drain limit passes and leases still held end with KEY_REVOKED before the key is overwritten. -/
  | drainLimitExpiry (slot : Nat)
  /-- KEY_DRAIN_DONE (R82): The last lease of a REVOKING key is released and its copies are overwritten and the generation incremented. -/
  | keyDrainDone (slot : Nat)
  /-- SAPWOOD_LOAD_DONE (R64): A cold record is verified, unsealed, re-masked and written into Sapwood entries. -/
  | sapwoodLoadDone (slot : Nat) (ok : Bool)
  /-- COPPICE_STEP (R68): A coppice period elapses and an entry's shares are re-masked with fresh bits. -/
  | coppiceStep (slot : Nat)
  /-- JOURNAL_BLOCK_WRITE (R75): The device writes a journal or page block to the journal ring. -/
  | journalBlockWrite
  /-- JOURNAL_PAGE_SWEEP (R75): A page due in the 86,400 s sweep is captured again as a page block. -/
  | journalPageSweep (page : Nat)
  /-- COMMIT_PERIODIC (R78): The commit interval elapses and a periodic commit is started. -/
  | commitPeriodic
  /-- COMMIT_BUCKET_REFILL (R78): A commit token is added to the bucket and a waiting on-demand commit may start. -/
  | commitBucketRefill
  /-- COMMIT_DONE (R77): A commit record is written to the COMMIT partition, covering waiting changes. -/
  | commitDone (ok : Bool)
  /-- OWNER_CREATE (R111): Creates a PENDING owner with quotas and a fresh root. -/
  | ownerCreate (mb : Mb)
  /-- OWNER_SEAL (R111): Names the admin policy, draws the domain ID and makes the owner ACTIVE. -/
  | ownerSeal (mb : Mb)
  /-- OWNER_QUERY (R123): Returns the owner entry without its root. -/
  | ownerQuery (mb : Mb)
  /-- OWNER_SET_QUOTA (R94): Sets an owner's quotas. -/
  | ownerSetQuota (mb : Mb)
  /-- OWNER_SUSPEND (R93): Suspends an ACTIVE owner, or resumes a suspended one with RESUME. -/
  | ownerSuspend (mb : Mb)
  /-- OWNER_DELETE (R96): Destroys every key and object of an owner and frees its entry. -/
  | ownerDelete (mb : Mb)
  /-- OWNER_EVIDENCE (R112): Writes signed evidence of the owner entry, policies and credentials. -/
  | ownerEvidence (mb : Mb)
  /-- CRED_ADD (R98): Registers a custodian's public key. -/
  | credAdd (mb : Mb)
  /-- CRED_REVOKE (R98): Revokes a credential and withdraws its approvals. -/
  | credRevoke (mb : Mb)
  /-- POLICY_CREATE (R100): Creates a quorum policy. -/
  | policyCreate (mb : Mb)
  /-- POLICY_MODIFY (R100): Changes a policy and cancels its other open approvals. -/
  | policyModify (mb : Mb)
  /-- POLICY_QUERY (R123): Returns a policy record. -/
  | policyQuery (mb : Mb)
  /-- QUORUM_OPEN (R103): Checks and holds a designated request and opens an approval. -/
  | quorumOpen (mb : Mb)
  /-- QUORUM_APPROVE (R105): Verifies one custodian signature over an open approval. -/
  | quorumApprove (mb : Mb)
  /-- QUORUM_EXECUTE (R107): Runs the held request once M approvals are present. -/
  | quorumExecute (mb : Mb)
  /-- QUORUM_CANCEL (R109): Releases an open approval. -/
  | quorumCancel (mb : Mb)
  /-- REPLICA_PREPARE (R114): Returns a signed prepare blob on the destination. -/
  | replicaPrepare (mb : Mb)
  /-- REPLICA_EXPORT (R115): Builds and seals a replica image for a verified destination. -/
  | replicaExport (mb : Mb)
  /-- REPLICA_APPLY (R116): Installs a replica image into the owner. -/
  | replicaApply (mb : Mb)
  /-- OWNER_BACKUP (R119): Writes an image of the owner wrapped under a backup KEK. -/
  | ownerBackup (mb : Mb)
  /-- OWNER_RESTORE (R120): Installs a backup image with no member index. -/
  | ownerRestore (mb : Mb)
  /-- STORE_REBASE (R121): Empties a FAILED store and sets it READY with a new floor. -/
  | storeRebase (mb : Mb)
  /-- LANE_SENTINEL (R126): At cycle 0 of each lane frame a sentinel block is issued and compared with its answer. -/
  | laneSentinel (lane : Nat) (ok : Bool)
  /-- LANE_CONTEXT_PREPARE (R127): In a maintenance slot a lane prepares a key context from a delivered key. -/
  | laneContextPrepare (lane : Nat) (slot : Nat)
  /-- CHECKER_MISMATCH (R148): A checker recomputation differs and lane and checker become SUSPECT and start known-answer tests. -/
  | checkerMismatch (stand : Nat) (lane : Nat)
  /-- CHECKER_KAT_DONE (R148): The known-answer tests of lane and checker end and the outcome table is applied. -/
  | checkerKatDone (stand : Nat) (laneOk : Bool) (checkerOk : Bool)
  /-- CHECKER_RESEED (R217): Every 4,096 cycles the checker selection sequence is seeded with 64 bits. -/
  | checkerReseed (stand : Nat)
  /-- LANE_FAILURE (R150): A lane detects a failure, becomes ISOLATED and reports a UNIT fault. -/
  | laneFailure (lane : Nat) (cause : Nat)
  /-- SPARE_LANE_KAT_DONE (R155): The spare lane passes or fails its tests and takes the failed lane's place. -/
  | spareLaneKatDone (lane : Nat) (ok : Bool)
  /-- HUC_BLOCK_DONE (R142): A HUC block slot of 3.2 µs ends and the next queued request is served. -/
  | hucBlockDone (stand : Nat)
  /-- HUC_FAILURE (R536): A HUC fails, becomes ISOLATED and its requests move to another HUC. -/
  | hucFailure (stand : Nat)
  /-- ENGINE_END (R278): An engine finishes a context's operation and offers its final result to the arbiter. -/
  | engineEnd (ctx : Nat) (e : EngineResult)
  /-- DEADLINE_EXPIRY (R280): A context's deadline reaches its tick and TIMEOUT is offered to the arbiter. -/
  | deadlineExpiry (ctx : Nat)
  /-- CONTEXT_WAIT_SATISFIED (R277): Every wait of a LEASING context is met and it enters RUNNING, taking any invocation value. -/
  | contextWaitSatisfied (ctx : Nat)
  /-- CONTEXT_DRAINED (R277): A DRAINING or VOIDED context finishes stopping engines and overwriting keys and moves on. -/
  | contextDrained (ctx : Nat)
  /-- COMPLETION_POST (R253): A completion entry is written at the CQ tail once there is room. -/
  | completionPost (ctx : Nat)
  /-- DGE_CTRL_CONFIG (R161): A DGE_CTRL write sets algorithm fields and claims slot 0 if unclaimed. -/
  | dgeCtrlConfig (g : Nat) (master : Nat) (value : DWord)
  /-- ABORT (R168): Clears the DGE slot's message, result, expectation and error and sets it IDLE. -/
  | dgeAbort (g : Nat) (master : Nat)
  /-- KEY_CLR (R170): Zeroises the DGE slot's key and releases its lease. -/
  | dgeKeyClr (g : Nat) (master : Nat)
  /-- RELEASE (R161): Frees the DGE slot 0 claim when the slot is IDLE or DONE. -/
  | dgeRelease0 (g : Nat) (master : Nat)
  /-- SAVE (R172): Writes a 512-byte image of DGE slot 0. -/
  | dgeSave (g : Nat) (master : Nat)
  /-- RESTORE (R174): Reads and checks a saved image into DGE slot 0. -/
  | dgeRestore (g : Nat) (master : Nat)
  /-- DGE_SAVE_DONE (R175): A save or restore finishes and SAVE_BUSY clears. -/
  | dgeSaveDone (g : Nat)
  /-- DGE_DATA (R163): A full message word enters the DGE FIFO. -/
  | dgeData (g : Nat) (master : Nat) (value : DWord)
  /-- DGE_LASTW (R165): The final word enters and the message moves to FINISHING. -/
  | dgeLastw (g : Nat) (master : Nat) (value : DWord)
  /-- DGE_KEYDATA (R169): A raw key word is loaded into the DGE slot. -/
  | dgeKeydata (g : Nat) (master : Nat) (value : DWord)
  /-- DGE_KEYHANDLE (R169): A key handle is written and the key requested from the Sapwood controller. -/
  | dgeKeyhandle (g : Nat) (master : Nat) (value : DWord)
  /-- DGE_KEY_LOADED (R169): Key shares arrive and ipad and opad values are formed. -/
  | dgeKeyLoaded (g : Nat)
  /-- DGE_MESSAGE_DONE (R165): A message's last compression ends, the result or verdict is written and the slot is DONE. -/
  | dgeMessageDone (g : Nat)
  /-- DGE_FAULT (R178): A DGE fails, becomes ISOLATED and reports a UNIT fault. -/
  | dgeFault (g : Nat)
  /-- WMA_GO (R181): A core issues a WMA command block to a unit of its stand. -/
  | wmaGo (core rs1 unit : Nat)
  /-- WMA_WAIT (R182): The core stalls until its last WMA command ends and returns its status. -/
  | wmaWait (core rd : Nat)
  /-- WMA_CMD_START (R184): A command reaches the queue head and is validated or refused with WMA_EFAIL. -/
  | wmaCmdStart (unit : Nat)
  /-- WMA_CMD_DONE (R186): A running WMA command completes after exactly T cycles. -/
  | wmaCmdDone (unit : Nat)
  /-- WMA_FAULT (R190): A WMA fails, becomes ISOLATED and ends its commands with WMA_EFAULT. -/
  | wmaFault (unit : Nat)
  /-- SEEDBANK_HEALTH_FAIL (R210): A health test or parity check fails and the bank is isolated. -/
  | seedbankHealthFail (bank : Nat) (found : HealthFault)
  /-- SEEDBANK_WINDOW_CLOSE (R209): An adaptive-proportion window closes and its conditioned bits are released. -/
  | seedbankWindowClose (bank : Nat) (samples : List Nat)
  /-- SEEDBANK_FREQ_GATE (R224): A frequency gate closes and the bank mean and spread are checked. -/
  | seedbankFreqGate (bank : Nat) (freqs : List Nat)
  /-- SEEDBANK_STARTUP_DONE (R212): A bank's 4,096-sample start-up test ends and it delivers or is isolated. -/
  | seedbankStartupDone (bank : Nat) (samples : List Nat)
  /-- SEEDBANK_CONFIG (R226): Reconfigures the conditioning of named banks one at a time. -/
  | seedbankConfig (mb : Mb)
  /-- SEEDBANK_STATUS (R226): Returns bank states and output counts. -/
  | seedbankStatus (mb : Mb)
  /-- SEEDBANK_GAUGE_UPDATE (R227): Each second the Warden forms each bank's temperature and ageing figures. -/
  | seedbankGaugeUpdate (bank : Nat) (temp : Nat) (agePpm : Int)
  /-- SBK_PORT_REQ (R220): A master requests words from the Seedbank software port. -/
  | sbkPortReq (stand : Nat) (master : Nat) (addr : Nat) (count : Nat)
  /-- SBK_PORT_CANCEL (R222): A write with CANCEL withdraws the writer's request. -/
  | sbkPortCancel (stand : Nat) (master : Nat)
  /-- SBK_PORT_REQUEST_DONE (R221): The port holds all requested words and writes them in one burst. -/
  | sbkPortRequestDone (stand : Nat)
  /-- QUEUE_CREATE (R245): Creates a queue pair. -/
  | queueCreate (mb : Mb)
  /-- QUEUE_DESTROY (R246): Stops a queue, lets its contexts post and makes it ABSENT. -/
  | queueDestroy (mb : Mb)
  /-- QUEUE_QUERY (R245): Returns a queue's state and indices. -/
  | queueQuery (mb : Mb)
  /-- QMG_SQ_TAIL (R250): An SQ tail doorbell hands new entries to the device. -/
  | qmgSqTail (fn : Fn) (qid : Nat) (index : Nat)
  /-- QMG_CQ_HEAD (R250): A CQ head doorbell releases CQ slots to the device. -/
  | qmgCqHead (fn : Fn) (qid : Nat) (index : Nat)
  /-- SQ_FETCH (R251): The device issues a read of up to 8 SQ entries when credit allows. -/
  | sqFetch (fn : Fn) (qid : Nat)
  /-- CQ_COAL_TIMER (R255): COAL_US passes since the oldest unsignalled entry and the CQ vector is raised. -/
  | cqCoalTimer (fn : Fn) (qid : Nat)
  /-- MSIX_UNMASK (R244): Clearing a vector mask sends its pending message. -/
  | msixUnmask (fn : Fn) (vec : Nat)
  /-- JRING_SETUP (R258): Sets up or moves the journal ring. -/
  | jringSetup (mb : Mb)
  /-- JRING_STOP (R642): Stops the journal ring. -/
  | jringStop (mb : Mb)
  /-- QMG_JR_POST (R259): The host posts journal ring buffers. -/
  | qmgJrPost (p : Nat) (index : Nat)
  /-- QMG_JR_EVHEAD (R259): The host releases journal event ring entries. -/
  | qmgJrEvhead (p : Nat) (index : Nat)
  /-- QMG_JR_ACK (R260): The host acknowledges a durable journal block's SEQ. -/
  | qmgJrAck (p : Nat) (seq : DWord)
  /-- JRING_INPUT_BLOCK (R261): During recovery the device reads and checks a posted journal block. -/
  | jringInputBlock
  /-- DOE_REQUEST (R233): An SPDM or discovery request arrives in a PF DOE mailbox. -/
  | doeRequest (p : Nat) (req : DoeRequest)
  /-- IDE_TLP_FAIL (R234): A TLP fails its IDE integrity check and its stream goes Insecure. -/
  | ideTlpFail (link : Nat) (stream : Nat)
  /-- TDISP_MESSAGE (R235): A TDISP message changes a VF TDI's state. -/
  | tdispMessage (n : Nat) (m : TdispMsg)
  /-- PFM_DOORBELL (R265): A PF mailbox doorbell with GO submits a request. -/
  | pfmDoorbell (p m : Nat) (go : Bool) (token : Nat)
  /-- VFM_DOORBELL (R265): A VF mailbox doorbell with GO submits a request. -/
  | vfmDoorbell (n : Nat) (go : Bool) (token : Nat)
  /-- MAILBOX_ACCEPT (R269): The Warden copies a request and checks it in the order of R269. -/
  | mailboxAccept (mb : Mb)
  /-- MAILBOX_DEADLINE_EXPIRY (R281): A mailbox command's deadline passes before its first state change and it ends with TIMEOUT. -/
  | mailboxDeadlineExpiry (mb : Mb)
  /-- DEVICE_IDENTIFY (R273): Returns part, levels, device reference and mode. -/
  | deviceIdentify (mb : Mb)
  /-- DEVICE_STATUS (R273): Returns mode registers, free contexts and checkpoint epoch. -/
  | deviceStatus (mb : Mb)
  /-- DEVICE_EVIDENCE (R449): Writes signed device evidence. -/
  | deviceEvidence (mb : Mb)
  /-- REQID_QUERY (R273): Returns the record state of a request ID. -/
  | reqidQuery (mb : Mb)
  /-- CHECKPOINT_EPOCH (R451): The active Warden pair writes a checkpoint epoch ending in its marker. -/
  | checkpointEpoch
  /-- WARDEN_HEARTBEAT (R450): The active pair sends the Heartwood its 1 ms heartbeat. -/
  | wardenHeartbeat
  /-- WARDEN_FAILOVER (R286): The standby pair takes over after a lockstep mismatch or lost heartbeat. -/
  | wardenFailover
  /-- STANDBY_RESUMED (R287): The new active pair resumes from the last epoch and answers interrupted commands INDETERMINATE. -/
  | standbyResumed
  /-- STANDBY_RESUME_TIMEOUT (R453): The standby does not resume within 10 ms and a trusted restart is ordered. -/
  | standbyResumeTimeout
  /-- HEARTBEAT_TIMEOUT (R453): The heartbeat has been missing for 20 ms with no failover and a trusted restart is ordered. -/
  | heartbeatTimeout
  /-- PAIR_RELOAD_DONE (R452): A reset pair loaded with its image reads an epoch and becomes standby. -/
  | pairReloadDone (ok : Bool)
  /-- GCM_ENC (R298): A queue entry encrypts with AES-GCM under a device or host IV. -/
  | gcmEnc (ctx : Nat)
  /-- GCM_DEC (R299): A queue entry decrypts and verifies with AES-GCM. -/
  | gcmDec (ctx : Nat)
  /-- GMAC_GEN (R300): A queue entry generates a GMAC tag. -/
  | gmacGen (ctx : Nat)
  /-- GMAC_VER (R300): A queue entry verifies a GMAC tag. -/
  | gmacVer (ctx : Nat)
  /-- CTR (R301): A queue entry encrypts or decrypts in counter mode. -/
  | ctr (ctx : Nat)
  /-- CMAC_GEN (R302): A queue entry computes an AES-CMAC. -/
  | cmacGen (ctx : Nat)
  /-- CMAC_VER (R302): A queue entry verifies an AES-CMAC. -/
  | cmacVer (ctx : Nat)
  /-- HASH (R304): A queue entry computes a digest on a world-U DGE. -/
  | hash (ctx : Nat)
  /-- HMAC_GEN (R304): A queue entry computes an HMAC. -/
  | hmacGen (ctx : Nat)
  /-- HMAC_VER (R304): A queue entry verifies an HMAC. -/
  | hmacVer (ctx : Nat)
  /-- WRAP (R305): A queue entry wraps data by KW, KWP, TKW, OAEP or ML-KEM. -/
  | wrap (ctx : Nat)
  /-- UNWRAP (R305): A queue entry unwraps data and checks its integrity. -/
  | unwrap (ctx : Nat)
  /-- SIGN (R306): A queue entry signs a message or digest. -/
  | sign (ctx : Nat)
  /-- VERIFY (R306): A queue entry verifies a signature. -/
  | verify (ctx : Nat)
  /-- AGREE (R307): A queue entry computes a shared secret. -/
  | agree (ctx : Nat)
  /-- DERIVE (R308): A queue entry derives output bytes by SP 800-108. -/
  | derive (ctx : Nat)
  /-- RANDOM (R309): A queue entry fills its destination with conditioned random bytes. -/
  | random (ctx : Nat)
  /-- TALLY (R310): A queue entry forms an exact decimal total of a ledger batch with its HMAC. -/
  | tally (ctx : Nat)
  /-- PIN_XLATE (R311): A queue entry translates a PIN block between formats and keys. -/
  | pinXlate (ctx : Nat)
  /-- LEGACY_MAC (R313): A queue entry computes or verifies an ISO 9797-1 algorithm 3 MAC. -/
  | legacyMac (ctx : Nat)
  /-- FRAME_RECEIVE (R321): A frame received on a port is classified, verified and forwarded. -/
  | frameReceive (port : Nat) (frame : Bytes)
  /-- FRAME_TX_CLASSIFY (R329): A frame for a protecting SecY is classified to its SA and takes a PN. -/
  | frameTxClassify (port : Nat)
  /-- FRAME_RELEASE (R336): A frame's MACsec pass ends at its fixed release time and it leaves. -/
  | frameRelease (pos : Nat)
  /-- FRAME_RING_TX (R341): A transmit ring entry is consumed and its frame sent or refused. -/
  | frameRingTx (fn : Fn) (ring : Nat)
  /-- ETH_LINK_UP (R342): A port's link comes up and LINK_UP is posted. -/
  | ethLinkUp (port : Nat)
  /-- ETH_LINK_DOWN (R342): A port's link goes down and LINK_DOWN is posted. -/
  | ethLinkDown (port : Nat)
  /-- PORT_CONFIG (R343): Sets a port position's mode and PHY and retrains its links. -/
  | portConfig (mb : Mb)
  /-- PORT_SET (R343): Sets a port's CLEAR, MTU and forwarding destinations. -/
  | portSet (mb : Mb)
  /-- PORT_STATUS (R343): Returns a port's status and FEC counts. -/
  | portStatus (mb : Mb)
  /-- PORT_RETRAIN (R339): Retrains one port. -/
  | portRetrain (mb : Mb)
  /-- SECY_CREATE (R323): Creates a SecY on a port. -/
  | secyCreate (mb : Mb)
  /-- SECY_SET (R343): Changes SecY fields from the next classification. -/
  | secySet (mb : Mb)
  /-- SECY_DESTROY (R332): Removes every SC of the SecY and frees it. -/
  | secyDestroy (mb : Mb)
  /-- SC_ADD (R332): Adds a receive secure channel. -/
  | scAdd (mb : Mb)
  /-- SC_REMOVE (R332): Removes an SC and its SAs. -/
  | scRemove (mb : Mb)
  /-- SA_ADD (R328): Binds a key to a new secure association. -/
  | saAdd (mb : Mb)
  /-- SA_REMOVE (R332): Stops an SA taking frames and removes it after its frames drain. -/
  | saRemove (mb : Mb)
  /-- SA_DRAINED (R332): The last frame of a removed SA leaves its lane and its lease is released. -/
  | saDrained (sa : Nat)
  /-- SA_SWITCH (R330): Names the transmit SC's encoding AN. -/
  | saSwitch (mb : Mb)
  /-- SA_SET (R331): Enables or disables a receive SA or raises its lowest PN. -/
  | saSet (mb : Mb)
  /-- MACSEC_STATS (R345): Returns MACsec counters of a SecY, SC or SA. -/
  | macsecStats (mb : Mb)
  /-- FRAME_RING_CREATE (R340): Creates a receive, transmit or event frame ring. -/
  | frameRingCreate (mb : Mb)
  /-- INSTRUCTION (R359): A core completes an instruction and the hardware-loop rule is applied. -/
  | instruction (core : Nat) (i : CoreStep)
  /-- TRAP (R351): An instruction raises an exception, taken in M-mode. -/
  | trap (core : Nat) (cause : DWord) (tval : DWord)
  /-- INTERRUPT_TAKEN (R353): A pending enabled interrupt is taken in M-mode. -/
  | interruptTaken (core : Nat)
  /-- MRET (R354): Returns from M-mode, taking a pending interrupt before the first instruction. -/
  | mret (core : Nat)
  /-- WFI (R355): Waits for an interrupt in M-mode, or traps in U-mode. -/
  | wfi (core : Nat)
  /-- GATE_CALL (R363): A glade core queues a gate request to its stand's service cores. -/
  | gateCall (core rd rs1 rs2 : Nat)
  /-- GATE_RET (R364): A service core writes a gate response and sets the call's DONE bit. -/
  | gateRet (core rs1 rs2 : Nat)
  /-- GATE_TAKE (R372): A service core takes the oldest gate queue entry into its bank. -/
  | gateTake (core : Nat) (addr : Nat)
  /-- MGATE_CANCEL (R373): Cancels an outstanding gate call and frees its index. -/
  | mgateCancel (core : Nat) (mask : Nat)
  /-- GATE_RANDOM (R371): A gate call writes random bytes for the caller. -/
  | gateRandom (ticket : Nat)
  /-- GATE_COUNTER_CREATE (R371): A gate call creates a secure counter for the caller's owner. -/
  | gateCounterCreate (ticket : Nat)
  /-- GATE_COUNTER_INC (R371): A gate call increments a secure counter. -/
  | gateCounterInc (ticket : Nat)
  /-- GATE_COUNTER_READ (R371): A gate call reads a secure counter. -/
  | gateCounterRead (ticket : Nat)
  /-- KEY_OP (R371): A gate call runs a service-core operation class as a queue entry would. -/
  | keyOp (ticket : Nat)
  /-- KEY_INFO (R371): A gate call returns a key's state, type, purpose and attributes. -/
  | keyInfo (ticket : Nat)
  /-- YIELD (R367): An applet gives up its slice. -/
  | yield (core : Nat)
  /-- EXIT (R367): An applet ends with an exit code. -/
  | exit (core : Nat)
  /-- TIME (R367): Returns µs since Canopy power-good. -/
  | time (core : Nat)
  /-- WAIT (R367): Waits for a gate call to complete or a notification. -/
  | wait (core : Nat)
  /-- DGE_ACQUIRE (R368): Asks the monitor for DGE1 slot 0. -/
  | dgeAcquire (core : Nat)
  /-- DGE_RELEASE (R368): Gives back DGE1 slot 0, aborting and clearing it. -/
  | dgeRelease (core : Nat)
  /-- NOTIFY_RETURN (R370): Returns from a notification upcall. -/
  | notifyReturn (core : Nat)
  /-- SELF (R367): Returns the applet's owner, slot, instance and core. -/
  | self (core : Nat)
  /-- APPLET_SLICE_END (R366): An applet's 1 ms slice ends and the monitor switches applets. -/
  | appletSliceEnd (core : Nat)
  /-- SCRUB (R375): The Warden orders a glade core scrub and owner change. -/
  | scrub (core : Nat) (owner : Nat)
  /-- SCRUB_DONE (R375): The scrub finishes, mowner is set and the core restarts. -/
  | scrubDone (core : Nat)
  /-- CORE_FAILURE (R376): A core fails, becomes ISOLATED and its applets FAULTED. -/
  | coreFailure (core : Nat)
  /-- BANK_TEST_DONE (R531): The failed position's bank passes or fails its march test. -/
  | bankTestDone (core : Nat) (ok : Bool)
  /-- SPARE_CORE_BOOT_DONE (R530): The spare core boots its image, self-tests and takes the position. -/
  | spareCoreBootDone (core : Nat) (ok : Bool)
  /-- WATCHDOG_KICK (R528): M-mode code restarts the core watchdog. -/
  | watchdogKick (core : Nat)
  /-- WATCHDOG_EXPIRY (R528): A core watchdog expires and the core is scrubbed and restarted. -/
  | watchdogExpiry (core : Nat)
  /-- APPLET_TRUST (R379): Sets or clears an owner's applet trust slot. -/
  | appletTrust (mb : Mb)
  /-- APPLET_LOAD (R378): Checks and loads a signed applet package. -/
  | appletLoad (mb : Mb)
  /-- APPLET_START (R382): Starts an applet instance on a glade core. -/
  | appletStart (mb : Mb)
  /-- APPLET_STOP (R382): Requests an applet stop and forces it after the grace time. -/
  | appletStop (mb : Mb)
  /-- APPLET_STOP_GRACE_EXPIRY (R382): The stop grace time passes and the applet is stopped by force. -/
  | appletStopGraceExpiry (inst : Nat)
  /-- APPLET_UNLOAD (R382): Frees an applet's region and quota. -/
  | appletUnload (mb : Mb)
  /-- APPLET_QUERY (R381): Returns an applet instance's state and fault details. -/
  | appletQuery (mb : Mb)
  /-- GLADE_STATUS (R381): Returns a glade core's owner and slots. -/
  | gladeStatus (mb : Mb)
  /-- VF_BIND (R385): Binds a VF to an owner. -/
  | vfBind (mb : Mb)
  /-- VF_UNBIND (R387): Destroys a VF's queues and grants and clears its binding. -/
  | vfUnbind (mb : Mb)
  /-- VF_QUERY (R409): Returns a VF's binding, state and allotment. -/
  | vfQuery (mb : Mb)
  /-- VF_SET_LIMITS (R389): Sets a function's queue count and context credit. -/
  | vfSetLimits (mb : Mb)
  /-- VF_GRANT (R390): Grants a unit-tree node to a function. -/
  | vfGrant (mb : Mb)
  /-- VF_REVOKE (R393): Revokes a function's grant. -/
  | vfRevoke (mb : Mb)
  /-- VF_GRANTS (R409): Lists a function's grants. -/
  | vfGrants (mb : Mb)
  /-- VF_QUIESCE (R395): Stops a VF's intake and waits for its contexts to post. -/
  | vfQuiesce (mb : Mb)
  /-- VF_QUIESCE_COMPLETE (R396): The quiesced VF holds no context and the command completes. -/
  | vfQuiesceComplete (n : Nat)
  /-- VF_RESUME (R396): Makes a quiesced VF's queues and mailbox active again. -/
  | vfResume (mb : Mb)
  /-- VF_FREEZE (R400): Stops a VF and suspends its unstarted contexts. -/
  | vfFreeze (mb : Mb)
  /-- VF_FREEZE_COMPLETE (R401): The frozen VF holds no context and the command completes. -/
  | vfFreezeComplete (n : Nat)
  /-- VF_THAW (R401): Re-admits suspended entries and reactivates a frozen VF. -/
  | vfThaw (mb : Mb)
  /-- VF_PREPARE (R403): Prepares a destination VF and returns a signed blob. -/
  | vfPrepare (mb : Mb)
  /-- VF_SAVE (R404): Saves a frozen VF as a sealed image under a token. -/
  | vfSave (mb : Mb)
  /-- VF_RESTORE (R406): Installs a VF image on the destination. -/
  | vfRestore (mb : Mb)
  /-- WORLDMAP_WRITE (R420): Writes a pending world map copy. -/
  | worldmapWrite (mb : Mb)
  /-- WORLDMAP_READ (R420): Returns the world map in force or pending. -/
  | worldmapRead (mb : Mb)
  /-- ACU_COMMIT (R431): Commits all shadowed region fields of an ACU together. -/
  | acuCommit (acu : Nat)
  /-- IMAGE_STAGE (R459): Checks and writes a firmware bundle into a slot. -/
  | imageStage (mb : Mb)
  /-- IMAGE_QUERY (R458): Returns slot records and device SVN. -/
  | imageQuery (mb : Mb)
  /-- UPDATE_APPLY (R460): Begins a live update and enters MAINTENANCE. -/
  | updateApply (mb : Mb)
  /-- UPDATE_STATUS (R458): Returns update progress. -/
  | updateStatus (mb : Mb)
  /-- UPDATE_ABANDON (R464): Abandons a running update and reverts switched components. -/
  | updateAbandon (mb : Mb)
  /-- IMAGE_COMMIT (R465): Makes a slot preferred and raises the device SVN. -/
  | imageCommit (mb : Mb)
  /-- WARDEN_HANDOVER (R461): Swaps the Warden pairs with the running image. -/
  | wardenHandover (mb : Mb)
  /-- HANDOVER_STEP_DONE (R461): A step of a Warden handover completes and the next begins. -/
  | handoverStepDone (ok : Bool)
  /-- PROBATION_END (R461): The 1,000 ms probation ends and the old pair is loaded with the new image. -/
  | probationEnd
  /-- SERVICE_CORE_SWITCHED (R462): A service core boots the new service image and rejoins its queues. -/
  | serviceCoreSwitched (core : Nat) (ok : Bool)
  /-- GLADE_MONITOR_SWITCHED (R463): A glade core boots the new monitor and restores its applets. -/
  | gladeMonitorSwitched (core : Nat) (ok : Bool)
  /-- CALIBRATE (R467): Writes and applies sensor calibration records. -/
  | calibrate (mb : Mb)
  /-- CAL_QUERY (R458): Returns a calibration record. -/
  | calQuery (mb : Mb)
  /-- HWD_RESTART_REQ (R453): The Warden firmware requests a trusted restart. -/
  | hwdRestartReq (reason : Nat)
  /-- RESTART_STAGE_DONE (R454): A trusted-restart stage completes. -/
  | restartStageDone
  /-- RESTART_TIMEOUT (R456): A trusted restart misses stage 0x27 within 2 s and fails. -/
  | restartTimeout
  /-- LC_NONCE (R477): Draws a new outstanding nonce. -/
  | lcNonce (mb : Mb)
  /-- LC_TRANSITION (R479): Checks authority and programs a life-cycle transition. -/
  | lcTransition (mb : Mb)
  /-- LC_RESUME (R482): Completes a journalled transition from INVALID. -/
  | lcResume (mb : Mb)
  /-- LC_ANCHOR_REFRESH (R478): Rewrites the estate anchor from the estate policy. -/
  | lcAnchorRefresh (mb : Mb)
  /-- DEBUG_GRANT (R484): Grants debug enables from a DEBUG statement. -/
  | debugGrant (mb : Mb)
  /-- DEBUG_STATUS (R491): Returns GBL_DEBUG. -/
  | debugStatus (mb : Mb)
  /-- DEBUG_REVOKE (R487): Clears every debug enable. -/
  | debugRevoke (mb : Mb)
  /-- HWD_DBG_CTRL_NEW (R477): A write of NEW draws a new debug nonce. -/
  | hwdDbgCtrlNew
  /-- HWD_DBG_CTRL_REVOKE (R487): A write of REVOKE clears every enable. -/
  | hwdDbgCtrlRevoke
  /-- TAP_RESET (R615): TRST_N low or five TMS-high clocks reset the TAP. -/
  | tapReset
  /-- EXTEST (R489): Drives the boundary register while RESET_N is low. -/
  | extest (bits : Nat)
  /-- SAMPLE_PRELOAD (R489): Samples or preloads the boundary register. -/
  | samplePreload (bits : Nat)
  /-- IDCODE (R489): Shifts out the device identity word. -/
  | idcode
  /-- CLAMP (R489): Clamps outputs while RESET_N is low. -/
  | clamp
  /-- HIGHZ (R489): Places outputs in high impedance while RESET_N is low. -/
  | highz
  /-- BYPASS (R489): Selects the one-bit bypass register. -/
  | bypass
  /-- DBG_NONCE (R489): Shifts out the outstanding nonce. -/
  | dbgNonce
  /-- DBG_TOKEN (R489): Loads a debug statement that is judged on its last word. -/
  | dbgToken (statement : Bytes)
  /-- DBG_ACCESS (R490): Makes a fabric, core-debug or gate access under an enable. -/
  | dbgAccess (a : DebugAccess)
  /-- DBG_STATUS (R489): Shifts out GBL_DEBUG. -/
  | dbgStatus
  /-- TP_SCAN (R489): Runs a test-port instruction in BLANK or TEST. -/
  | tpScan (instr : Nat)
  /-- LOOKOUT_EVENT (R498): A Lookout source records an event and trips when N events fall within its window. -/
  | lookoutEvent (source t : Nat) (value : Int)
  /-- LOOKOUT_RESET (R500): Once its record is programmed a RESET response causes a cold start. -/
  | lookoutReset
  /-- MESH_CHECK (R496): Every 10 µs a fresh pattern is driven through each Thicket mesh and compared. -/
  | meshCheck (mesh t : Nat) (fails : Bool)
  /-- LOOP_CHECK (R499): Every 0.977 ms the backup domain checks the loops and lid inputs. -/
  | loopCheck (t : Nat) (fails lidHigh : List Bool)
  /-- SOURCE_REARM (R498): A tripped source rearms after a full window with no event. -/
  | sourceRearm (source : Nat)
  /-- FREEZE_HOLD_EXPIRY (R501): HOLD_S seconds pass without event and the source's FREEZE hold ends. -/
  | freezeHoldExpiry (source : Nat)
  /-- SECONDS_TICK (R504): The backup-domain seconds counter advances. -/
  | secondsTick
  /-- SECONDS_FLOOR_WRITE (R506): Every 3,600 s SECONDS_FLOOR is written to the LKO partition. -/
  | secondsFloorWrite
  /-- SVOUT_RAMP_END (R507): SVOUT's soft start ends and the output is judged. -/
  | svoutRampEnd (ok : Bool)
  /-- SVOUT_RETRY_TIMER (R507): 10 ms after a failed attempt a new soft start begins. -/
  | svoutRetryTimer
  /-- SVOUT_COLLAPSE (R507): SVOUT falls or stays at its limit for 100 µs while on. -/
  | svoutCollapse
  /-- LOOKOUT_CONFIG (R514): Writes and commits Lookout source configuration. -/
  | lookoutConfig (mb : Mb)
  /-- LOOKOUT_QUERY (R514): Returns a source's configuration and status. -/
  | lookoutQuery (mb : Mb)
  /-- LOOKOUT_RELEASE (R501): Releases a source's FREEZE hold. -/
  | lookoutRelease (mb : Mb)
  /-- SVOUT_CTRL (R507): Switches SVOUT on or off. -/
  | svoutCtrl (mb : Mb)
  /-- FAULT_REPORT (R516): A fault report arrives at Firebreak and is classed and reacted to. -/
  | faultReport (source : Nat) (unit : Nat)
  /-- FIREBREAK_SELF_CHECK (R522): A Firebreak parity or copy mismatch runs the QUARANTINE reaction. -/
  | firebreakSelfCheck
  /-- SERVICE_FAULT_CLEAR (R520): 60 s after the last transient SERVICE fault of a kind its bit clears. -/
  | serviceFaultClear (kind : Nat)
  /-- PLL_RELOCK_ATTEMPT (R520): Every 10 ms an unlocked PLL is relocked. -/
  | pllRelockAttempt (pll : Nat) (locked : Bool)
  /-- FB_ALIVE_TOGGLE (R525): A heartbeat half-period ends and FB_ALIVE toggles. -/
  | fbAliveToggle
  /-- HBM_ERROR (R537): An uncorrectable HBM error remaps or poisons the page. -/
  | hbmError (addr : Nat) (master : Nat)
  /-- WEAR_INDEX_UPDATE (R542): Hourly the Warden forms each stand's wear index. -/
  | wearIndexUpdate (stand : Nat)
  /-- FIREBREAK_QUERY (R544): Returns Firebreak status and counters. -/
  | firebreakQuery (mb : Mb)
  /-- FIREBREAK_CONFIG (R544): Sets the watchdog period and wear warning level. -/
  | firebreakConfig (mb : Mb)
  /-- FIREBREAK_INJECT (R543): Injects a fault report in FACTORY-TEST. -/
  | firebreakInject (mb : Mb)
  /-- FBK_INJECT_GO (R543): A write of GO to FBK_INJECT injects a fault in FACTORY-TEST. -/
  | fbkInjectGo (p : Nat) (source unit : Nat)
  /-- FORCE_LOW (R543): A write of FORCE_LOW holds FB_ALIVE low in FACTORY-TEST. -/
  | forceLow (p : Nat) (on : Bool)
  /-- LOG_RECORD_QUEUE (R550): A log record arrives at the Heartwood and is queued or dropped. -/
  | logRecordQueue (code origin : Nat) (arg : Bytes)
  /-- LOG_RECORD_PROGRAMMED (R550): A queued record is programmed with its SEQ and chain value. -/
  | logRecordProgrammed
  /-- LOG_PAGE_OPEN (R554): The writer opens the next ring page, reclaiming the oldest if needed. -/
  | logPageOpen
  /-- TRL_VECTOR_SEND (R569): At most once per ms PF vector 10 is sent for critical records, LOW or GAP. -/
  | trlVectorSend (p : Nat)
  /-- LOG_STATUS (R568): Returns log status and sequence numbers. -/
  | logStatus (mb : Mb)
  /-- LOG_EXPORT (R557): Exports log records in SEQ order. -/
  | logExport (mb : Mb)
  /-- LOG_ACK (R558): Acknowledges log records up to a SEQ. -/
  | logAck (mb : Mb)
  /-- LOG_CLEAR (R556): Clears the log, carrying persistent records. -/
  | logClear (mb : Mb)
  /-- METER_FLUSH (R562): Every FLUSH_S the changed meter records are journalled. -/
  | meterFlush
  /-- METER_STATUS (R568): Returns the open period and UTC offset. -/
  | meterStatus (mb : Mb)
  /-- METER_CLOSE (R564): Closes the open billing period and captures every meter. -/
  | meterClose (mb : Mb)
  /-- METER_READ (R565): Returns owners' usage for the last closed period. -/
  | meterRead (mb : Mb)
  /-- METER_SET_UTC (R567): Sets the UTC offset and logs TIME_SET. -/
  | meterSetUtc (mb : Mb)
  /-- METER_CONFIG (R562): Sets the meter flush interval. -/
  | meterConfig (mb : Mb)
  /-- DOZE_ENTRY (R580): A stand idle for IDLE_US is cleared of keys and power-gated. -/
  | dozeEntry (stand : Nat)
  /-- STAND_WAKE (R582): An access to a gated stand is held and the stand begins to wake. -/
  | standWake (stand : Nat) (acc : HeldAccess)
  /-- STAND_WAKE_DONE (R582): The stand is powered and clocked and the held access proceeds. -/
  | standWakeDone (stand : Nat)
  /-- POWER_WATCH (R583): Requests WATCH entry through the abort points. -/
  | powerWatch (mb : Mb)
  /-- POWER_CONFIG (R598): Sets DOZE idle time and stand enables. -/
  | powerConfig (mb : Mb)
  /-- WATCH_ABORT_POINT (R585): WATCH entry reaches an abort point and is abandoned if a wake is pending. -/
  | watchAbortPoint (point : Nat)
  /-- WATCH_ENTRY_TIMEOUT (R585): AP2 is not reached within WAIT_MS and the entry is abandoned. -/
  | watchEntryTimeout
  /-- WAKE_IN (R588): A qualifying rising edge on WAKE_IN is latched as a wake. -/
  | wakeIn
  /-- I2C_ADDRESS_MATCH (R589): The clockless comparator matches the target address, acknowledges and starts the island oscillator. -/
  | i2cAddressMatch (addr : Nat)
  /-- WAKE_TIMER (R588): The seconds counter reaches the WATCH wake time. -/
  | wakeTimer
  /-- WAKE_STEP_DONE (R591): A step of the wake from WATCH completes. -/
  | wakeStepDone
  /-- WAKE_TIMEOUT (R594): A wake not finished within 1,000 ms fails and a cold start is ordered. -/
  | wakeTimeout
  /-- I2C_TIMEOUT (R612): SCL held low over 25 ms resets the target interface. -/
  | i2cTimeout
  /-- SET_ENDPOINT_ID (R595): Assigns the MCTP endpoint ID. -/
  | setEndpointId (eid : Nat)
  /-- GET_ENDPOINT_ID (R595): Returns the MCTP endpoint ID. -/
  | getEndpointId
  /-- GET_ENDPOINT_UUID (R595): Returns the endpoint UUID. -/
  | getEndpointUuid
  /-- GET_MCTP_VERSION_SUPPORT (R595): Returns supported MCTP versions. -/
  | getMctpVersionSupport
  /-- GET_MESSAGE_TYPE_SUPPORT (R595): Returns supported message types. -/
  | getMessageTypeSupport
  /-- GET_VENDOR_DEFINED_MSG_SUPPORT (R595): Returns vendor-defined message support. -/
  | getVendorDefinedMsgSupport
  /-- GET_STATUS (R597): Returns part, mode, power state and heartbeat status over MCTP. -/
  | getStatus
  /-- GET_SENSORS (R597): Returns the Lookout readings over MCTP. -/
  | getSensors
  /-- GET_STANDS (R597): Returns per-stand temperature, wear and lanes over MCTP. -/
  | getStands
  /-- GET_LOG_TAIL (R597): Returns the newest log records over MCTP. -/
  | getLogTail (count : Nat)
  /-- SPDM_OVER_MCTP (R596): An SPDM message arrives over MCTP. -/
  | spdmOverMctp (msg : Bytes)
  /-- KCW_ASSIGN (R619): Assigns a compatibility window to a PF or VF. -/
  | kcwAssign (mb : Mb)
  /-- KCW_RELEASE (R635): Resets and unassigns a window. -/
  | kcwRelease (mb : Mb)
  /-- KCW_MAP (R629): Maps a Knarox key number to handles and computes its KCV. -/
  | kcwMap (mb : Mb)
  /-- KCW_QUERY (R635): Returns a window's assignment and status. -/
  | kcwQuery (mb : Mb)
  /-- KCW_DATA (R624): An input word is taken, or dropped with OVERRUN. -/
  | kcwData (w : Nat) (value : Word)
  /-- KCW_RESET (R630): A window reset voids its command and destroys expire-at-reset keys. -/
  | kcwReset (w : Nat)
  /-- KCW_IDENT (R626): Returns the Knarox identity words. -/
  | kcwIdent (w : Nat)
  /-- KCW_ENCRYPT (R626): Encrypts window input in ECB or CBC on the HUC. -/
  | kcwEncrypt (w : Nat)
  /-- KCW_DECRYPT (R626): Decrypts window input in ECB or CBC on the HUC. -/
  | kcwDecrypt (w : Nat)
  /-- KCW_MAC_GEN (R626): Computes a legacy MAC of window input. -/
  | kcwMacGen (w : Nat)
  /-- KCW_MAC_VER (R626): Verifies a legacy MAC of window input. -/
  | kcwMacVer (w : Nat)
  /-- KCW_PIN_XLATE (R626): Translates a PIN block through the window. -/
  | kcwPinXlate (w : Nat)
  /-- KCW_RANDOM (R626): Returns random bytes through the window. -/
  | kcwRandom (w : Nat)
  /-- KCW_KEY_CHECK (R626): Returns a mapped key's check value. -/
  | kcwKeyCheck (w : Nat)
  /-- KCW_USE_QUERY (R626): Returns a mapped key's remaining uses. -/
  | kcwUseQuery (w : Nat)
  /-- KCW_GENERATE_KEY (R632): Knarox key generation ends at once with FUNC_UNSUPPORTED. -/
  | kcwGenerateKey (w : Nat)
  /-- KCW_LOAD_COMPONENTS (R632): Knarox clear component load ends with FUNC_UNSUPPORTED. -/
  | kcwLoadComponents (w : Nat)
  /-- KCW_IMPORT_KEY (R632): Knarox key import ends with FUNC_UNSUPPORTED. -/
  | kcwImportKey (w : Nat)
  /-- KCW_EXPORT_KEY (R632): Knarox key export ends with FUNC_UNSUPPORTED. -/
  | kcwExportKey (w : Nat)
  /-- KCW_DELETE_KEY (R632): Knarox key register delete ends with FUNC_UNSUPPORTED. -/
  | kcwDeleteKey (w : Nat)
  /-- KCW_SET_CLOCK (R632): Knarox set card clock ends with FUNC_UNSUPPORTED. -/
  | kcwSetClock (w : Nat)
  /-- ENTROPY_WAIT_EXPIRY (R58): A wait of 10 ms for Seedbank bits runs out and the waiting generation, message, piece or call ends with ENTROPY_UNAVAILABLE. -/
  | entropyWaitExpiry (who : Waiter)
  /-- HOST_READ_COMPLETION (R252): A completion for a device read of host memory arrives, carrying SQ entries, list segments, AUX, blobs or source data, or an error, poisoned or refused-translation answer. -/
  | hostReadCompletion (r : HostRead) (data : Bytes) (ok : Bool)
  /-- PCIE_COMPLETION_TIMEOUT (R284): A device read of host memory receives no completion in time, and the queue goes to ERROR or the context ends with GATHER_FAULT. -/
  | pcieCompletionTimeout (r : HostRead)
  /-- PERST_DEASSERT (R610): PERST# of a link is deasserted and the link is allowed to enter Detect, at once or 2 ms after Canopy power-good. -/
  | perstDeassert (link : Nat)
  /-- PCIE_LINK_UP (R610): A host link finishes training and its configuration space answers, with GBL_LINK giving speed, width and FLIT. -/
  | pcieLinkUp (p : Nat) (speed width : Nat) (flit : Bool)
  /-- VF_ENABLE_SET (R385): The host sets VF Enable on a PF and its VFs become enabled, so they can be bound. -/
  | vfEnableSet (p : Nat)
  /-- BUS_MASTER_ENABLE_SET (R641): The host sets Bus Master Enable again and the function may create and serve queues while queues left in ERROR with cause BME stay there. -/
  | busMasterEnableSet (fn : Fn)
  /-- ATS_INVALIDATE_REQUEST (R230): An ATS Invalidate Request arrives from the host and the named entries of the address translation cache are invalidated and answered. -/
  | atsInvalidateRequest (fn : Fn) (addr : DWord) (len : Nat)
  /-- BACKUP_DOMAIN_LOSS (R506): With main power absent, VBAT falls below its retention level or the crystal stops for more than 2 s, the backup domain flags its own loss, and its latch slots and configuration copy become void. -/
  | backupDomainLoss
  deriving DecidableEq, Repr

end Sys2Proof
end

