-- ==== Sys2Proof/Decode.lean ====
section
/-! DEFINITION. The command a word spells by the bits of spec/opcode_table.json. No row of the table gives bits, so no word spells a command. -/

namespace Sys2Proof

/-- The rows of the opcode table that give bits: width, mask, pattern and the command. There are none. -/
def tableRows : List (Nat × Nat × Nat × Instr) := []

/-- The command a word of nbits bits spells, if any row gives bits for it. -/
def decodeTableWord (nbits w : Nat) : Option Instr :=
  (tableRows.find? (fun r => r.1 == nbits && w &&& r.2.1 == r.2.2.1)).map (fun r => r.2.2.2)

end Sys2Proof
end

