-- ==== Sys2Proof/Machine/Bytes.lean ====
section
/-! DEFINITION. Byte strings, sparse tables and sparse memory: the named operations every meaning uses. -/

namespace Sys2Proof.Machine

/-- The little-endian number a byte string spells (R5). -/
def leNat : Bytes → Nat
  | [] => 0
  | b :: r => b.toNat + 256 * leNat r

/-- The n little-endian bytes of a number, modulo 256^n (R5). -/
def leBytes : Nat → Nat → Bytes
  | 0, _ => []
  | n + 1, v => BitVec.ofNat 8 v :: leBytes n (v / 256)

/-- The big-endian number a byte string spells. -/
def beNat (b : Bytes) : Nat := leNat b.reverse

/-- The n big-endian bytes of a number. -/
def beBytes (n v : Nat) : Bytes := (leBytes n v).reverse

/-- The len bytes at an offset. -/
def slice (b : Bytes) (off len : Nat) : Bytes := (b.drop off).take len

/-- The little-endian field of len bytes at an offset; bytes past the end read as 0. -/
def fld (b : Bytes) (off len : Nat) : Nat := leNat (slice b off len)

/-- A string cut or padded with zero bytes to n. -/
def padTo (n : Nat) (b : Bytes) : Bytes := b.take n ++ List.replicate (n - b.length) 0

/-- One bit of a number. -/
def bitOf (v k : Nat) : Bool := v / 2 ^ k % 2 == 1

/-- Bits hi down to lo of a number. -/
def bits (v hi lo : Nat) : Nat := v / 2 ^ lo % 2 ^ (hi + 1 - lo)

/-- A Bool as the number a register bit shows. -/
def b2n (b : Bool) : Nat := if b then 1 else 0

/-- Look a key up in a sparse table. -/
def tget {α : Type} : Tab α → Nat → Option α
  | [], _ => none
  | (k, v) :: r, j => if k = j then some v else tget r j

/-- Look a key up, with the value an absent key has. -/
def tgetD {α : Type} (t : Tab α) (k : Nat) (d : α) : α := (tget t k).getD d

/-- Put a value under a key, keeping the keys rising. -/
def tset {α : Type} : Tab α → Nat → α → Tab α
  | [], j, x => [(j, x)]
  | (k, v) :: r, j, x =>
    if k = j then (j, x) :: r else if j < k then (j, x) :: (k, v) :: r else (k, v) :: tset r j x

/-- Put a number into a rising list. -/
def insertUp (x : Nat) : List Nat → List Nat
  | [] => [x]
  | y :: r => if x ≤ y then x :: y :: r else y :: insertUp x r

/-- Remove a key. -/
def tdel {α : Type} (t : Tab α) (j : Nat) : Tab α := t.filter (fun p => p.1 != j)

/-- Change the value under a key, if it is present. -/
def tmod {α : Type} (t : Tab α) (j : Nat) (f : α → α) : Tab α :=
  match tget t j with
  | none => t
  | some x => tset t j (f x)

/-- Change every value of a table. -/
def tmap {α β : Type} (t : Tab α) (f : Nat → α → β) : Tab β := t.map (fun p => (p.1, f p.1 p.2))

/-- The byte at an address; an unlisted address reads 0. -/
def memRead : Mem → Nat → Byte
  | [], _ => 0
  | (k, v) :: r, a => if k = a then v else memRead r a

/-- Store a byte, keeping the canonical form: rising addresses, no zero listed. -/
def memWrite : Mem → Nat → Byte → Mem
  | [], a, b => if b = 0 then [] else [(a, b)]
  | (k, v) :: r, a, b =>
    if k = a then (if b = 0 then r else (a, b) :: r)
    else if a < k then (if b = 0 then (k, v) :: r else (a, b) :: (k, v) :: r)
    else (k, v) :: memWrite r a b

/-- The n bytes from an address. -/
def memReadN (m : Mem) : Nat → Nat → Bytes
  | _, 0 => []
  | a, n + 1 => memRead m a :: memReadN m (a + 1) n

/-- Store a byte string from an address. -/
def memWriteN (m : Mem) : Nat → Bytes → Mem
  | _, [] => m
  | a, b :: r => memWriteN (memWrite m a b) (a + 1) r

/-- The canonical form of a memory. -/
def memWf : Mem → Bool
  | [] => true
  | [(_, v)] => v != 0
  | (k, v) :: (k', v') :: r => v != 0 && decide (k < k') && memWf ((k', v') :: r)

/-- The byte at index i of a layout of (offset, size, value) fields; uncovered bytes are 0. -/
def layByte (fs : List (Nat × Nat × Nat)) (i : Nat) : Byte :=
  match fs with
  | [] => 0
  | (o, n, v) :: r => if o ≤ i ∧ i < o + n then BitVec.ofNat 8 (v / 256 ^ (i - o)) else layByte r i

/-- A string of n bytes laid out from (offset, size, value) fields, little-endian (R5). -/
def layout (n : Nat) (fs : List (Nat × Nat × Nat)) : Bytes := (List.range n).map (layByte fs)

/-- A count that stops at a maximum. -/
def satInc (max v : Nat) : Nat := if v < max then v + 1 else max

/-- Add to a list if absent. -/
def addNew {α : Type} [DecidableEq α] (l : List α) (x : α) : List α := if x ∈ l then l else l ++ [x]

/-- Remove every occurrence. -/
def without {α : Type} [DecidableEq α] (l : List α) (x : α) : List α := l.filter (fun y => decide (y ≠ x))

/-- A register of 64 bits after n bytes at byte offset k of it are written with v. -/
def setBytes (old k n v : Nat) : Nat :=
  let b := leBytes 8 old
  leNat (b.take k ++ leBytes n v ++ b.drop (k + n))

/-- An internal write has a width its register takes: 32 bits, or 64 bits of a 64-bit register, aligned (log entry 138). -/
def isWord (x n : Nat) : Bool := n == 4 && x % 4 == 0
def isDouble (x n : Nat) : Bool := n == 8 && x % 8 == 0
def isHalf (x n : Nat) : Bool := isWord x n || isDouble x n

end Sys2Proof.Machine
end

