-- ==== Sys2Proof/Machine/Hash.lean ====
section
/-! DEFINITION. The compression functions of FIPS 180-4 and FIPS 202 that the digest engines compute (R158). -/

namespace Sys2Proof.Machine

/-- Byte-wise exclusive or. -/
def xorBytes (a b : Bytes) : Bytes := List.zipWith (· ^^^ ·) a b

/-- A number above 1 without a divisor between 2 and itself. -/
def isPrime (n : Nat) : Bool := decide (2 ≤ n) && ((List.range n).drop 2).all (fun d => n % d != 0)

/-- The first n primes. -/
def primes (n : Nat) : List Nat := ((List.range 410).filter isPrime).take n

/-- The integer k-th root of a number below 2^(k * bits). -/
def rootOf (k bits v : Nat) : Nat :=
  (List.range bits).reverse.foldl (fun r i => if (r + 2 ^ i) ^ k ≤ v then r + 2 ^ i else r) 0

/-- The first w bits of the fractional part of the k-th root of p. -/
def rootFrac (k w p : Nat) : BitVec w := BitVec.ofNat w (rootOf k (w + 5) (p * 2 ^ (k * w)))

/-- The words of a big-endian byte string. -/
def beWords (w : Nat) (b : Bytes) : List (BitVec w) :=
  (List.range (b.length / (w / 8))).map (fun i => BitVec.ofNat w (beNat ((b.drop (w / 8 * i)).take (w / 8))))

/-- The big-endian bytes of words. -/
def ofBeWords {w : Nat} (ws : List (BitVec w)) : Bytes := (ws.map (fun x => beBytes (w / 8) x.toNat)).flatten

/-- A function of three rotations, the third a shift where `sh` says so (FIPS 180-4, section 4.1). -/
def rot3 {w : Nat} (sh : Bool) (a b c : Nat) (x : BitVec w) : BitVec w :=
  x.rotateRight a ^^^ x.rotateRight b ^^^ (if sh then x >>> c else x.rotateRight c)

/-- The four rotation functions of a word size: Σ0, Σ1, σ0, σ1. -/
def shaBig0 {w : Nat} (x : BitVec w) : BitVec w := if w = 32 then rot3 false 2 13 22 x else rot3 false 28 34 39 x
def shaBig1 {w : Nat} (x : BitVec w) : BitVec w := if w = 32 then rot3 false 6 11 25 x else rot3 false 14 18 41 x
def shaSmall0 {w : Nat} (x : BitVec w) : BitVec w := if w = 32 then rot3 true 7 18 3 x else rot3 true 1 8 7 x
def shaSmall1 {w : Nat} (x : BitVec w) : BitVec w := if w = 32 then rot3 true 17 19 10 x else rot3 true 19 61 6 x

/-- The message schedule, newest word first, grown by n words. -/
def shaSchedule {w : Nat} : Nat → List (BitVec w) → List (BitVec w)
  | 0, ws => ws
  | n + 1, ws => shaSchedule n ((shaSmall1 (ws.getD 1 0) + ws.getD 6 0 + shaSmall0 (ws.getD 14 0) + ws.getD 15 0) :: ws)

/-- One round of SHA-2 on its eight working words. -/
def shaRound {w : Nat} (v : List (BitVec w)) (kw : BitVec w × BitVec w) : List (BitVec w) :=
  let g (i : Nat) : BitVec w := v.getD i 0
  let t1 := g 7 + shaBig1 (g 4) + ((g 4 &&& g 5) ^^^ (~~~ g 4 &&& g 6)) + kw.1 + kw.2
  let t2 := shaBig0 (g 0) + ((g 0 &&& g 1) ^^^ (g 0 &&& g 2) ^^^ (g 1 &&& g 2))
  [t1 + t2, g 0, g 1, g 2, g 3 + t1, g 4, g 5, g 6]

/-- The compression of SHA-2 with 32-bit or 64-bit words. -/
def sha2 (w : Nat) (chain blk : Bytes) : Bytes :=
  let n := if w = 32 then 64 else 80
  let ks := (primes n).map (rootFrac 3 w)
  let ws := (shaSchedule (n - 16) (beWords w blk).reverse).reverse
  let h := beWords w chain
  ofBeWords (List.zipWith (· + ·) h ((ks.zip ws).foldl shaRound h))

/-- The initial hash value of SHA-224, SHA-256, SHA-384 and SHA-512. -/
def sha2Iv (alg : Nat) : Bytes :=
  match alg with
  | 1 => ofBeWords (((primes 16).drop 8).map (fun p => (rootFrac 2 64 p).setWidth 32))
  | 2 => ofBeWords ((primes 8).map (rootFrac 2 32))
  | 3 => ofBeWords (((primes 16).drop 8).map (rootFrac 2 64))
  | _ => ofBeWords ((primes 8).map (rootFrac 2 64))

/-- Bit t of the round constants of Keccak: the output of its shift register (FIPS 202, algorithm 5). -/
def keccakBit (t : Nat) : Bool :=
  bitOf ((List.range (t % 255)).foldl (fun r _ => if 128 ≤ r then (2 * r) ^^^ 0x171 else 2 * r) 1) 0

/-- The round constant of round i. -/
def keccakConst (i : Nat) : DWord :=
  (List.range 7).foldl (fun c j => if keccakBit (7 * i + j) then c ||| BitVec.ofNat 64 (2 ^ (2 ^ j - 1)) else c) 0

/-- The rotation of each lane, lane x + 5y at that place (FIPS 202, algorithm 2). -/
def keccakOffsets : List Nat :=
  ((List.range 24).foldl (fun (p : (Nat × Nat) × List Nat) t =>
    ((p.1.2, (2 * p.1.1 + 3 * p.1.2) % 5), p.2.set (p.1.1 + 5 * p.1.2) ((t + 1) * (t + 2) / 2 % 64))) ((1, 0), List.replicate 25 0)).2

/-- One round of Keccak-f[1600]. -/
def keccakRound (a : List DWord) (i : Nat) : List DWord :=
  let g (l : List DWord) (x y : Nat) : DWord := l.getD (x % 5 + 5 * (y % 5)) 0
  let c := (List.range 5).map (fun x => g a x 0 ^^^ g a x 1 ^^^ g a x 2 ^^^ g a x 3 ^^^ g a x 4)
  let th := (List.range 25).map (fun k => a.getD k 0 ^^^ c.getD ((k + 4) % 5) 0 ^^^ (c.getD ((k % 5 + 1) % 5) 0).rotateLeft 1)
  let ro := (List.range 25).map (fun k => (th.getD k 0).rotateLeft (keccakOffsets.getD k 0))
  let pi := (List.range 25).map (fun k => g ro (k % 5 + 3 * (k / 5)) (k % 5))
  let ch := (List.range 25).map (fun k => g pi (k % 5) (k / 5) ^^^ (~~~ g pi (k % 5 + 1) (k / 5) &&& g pi (k % 5 + 2) (k / 5)))
  ch.set 0 (ch.getD 0 0 ^^^ keccakConst i)

/-- Keccak-f[1600] of a 200-byte state. -/
def keccakF (st : Bytes) : Bytes :=
  let a := (List.range 25).map (fun i => BitVec.ofNat 64 (fld st (8 * i) 8))
  (((List.range 24).foldl keccakRound a).map (fun x => leBytes 8 x.toNat)).flatten

/-- Bytes of an algorithm's chaining state (R172). -/
def chainLen (alg : Nat) : Nat := if alg ≤ 2 then 32 else if alg ≤ 4 then 64 else 200

/-- The initial chaining state of an algorithm of R158. -/
def hashIv (alg : Nat) : Bytes := if alg ≤ 4 then sha2Iv alg else List.replicate 200 0

/-- One compression of an algorithm of R158. -/
def compress (alg : Nat) (c blk : Bytes) : Bytes :=
  if alg ≤ 2 then sha2 32 c blk else if alg ≤ 4 then sha2 64 c blk else keccakF (xorBytes c (padTo 200 blk))

end Sys2Proof.Machine
end

