-- ==== Sys2Proof/Machine/Aes.lean ====
section
/-! DEFINITION. The block ciphers of lanes and hardened unwrap cores: AES (FIPS 197), TDEA (SP 800-67), multiplication in the field of GHASH (SP 800-38D), and the key-wrap modes of SP 800-38F (R125, R127, R140, R142). -/

namespace Sys2Proof.Machine

/-- Multiplication in GF(2^8) of AES. -/
def gf8 (a b : Nat) : Nat :=
  ((List.range 8).foldl (fun (p : Nat × Nat) i =>
    (if bitOf b i then p.1 ^^^ p.2 else p.1, if 128 ≤ p.2 then (2 * p.2) ^^^ 0x11B else 2 * p.2)) (0, a)).1

/-- A byte of a table of sixteen rows. -/
def boxAt (rows : List Nat) (b : Nat) : Nat := rows.getD (b / 16) 0 / 256 ^ (15 - b % 16) % 256

/-- The S-box of FIPS 197, figure 7, by rows from the left. -/
def aesSbox : List Nat := [
  0x637C777BF26B6FC53001672BFED7AB76, 0xCA82C97DFA5947F0ADD4A2AF9CA472C0, 0xB7FD9326363FF7CC34A5E5F171D83115,
  0x04C723C31896059A071280E2EB27B275, 0x09832C1A1B6E5AA0523BD6B329E32F84, 0x53D100ED20FCB15B6ACBBE394A4C58CF,
  0xD0EFAAFB434D338545F9027F503C9FA8, 0x51A3408F929D38F5BCB6DA2110FFF3D2, 0xCD0C13EC5F974417C4A77E3D645D1973,
  0x60814FDC222A908846EEB814DE5E0BDB, 0xE0323A0A4906245CC2D3AC629195E479, 0xE7C8376D8DD54EA96C56F4EA657AAE08,
  0xBA78252E1CA6B4C6E8DD741F4BBD8B8A, 0x703EB5664803F60E613557B986C11D9E, 0xE1F8981169D98E949B1E87E9CE5528DF,
  0x8CA1890DBFE6426841992D0FB054BB16]

/-- Its inverse, figure 14. -/
def aesSboxInv : List Nat := [
  0x52096AD53036A538BF40A39E81F3D7FB, 0x7CE339829B2FFF87348E4344C4DEE9CB, 0x547B9432A6C2233DEE4C950B42FAC34E,
  0x082EA16628D924B2765BA2496D8BD125, 0x72F8F66486689816D4A45CCC5D65B692, 0x6C704850FDEDB9DA5E154657A78D9D84,
  0x90D8AB008CBCD30AF7E45805B8B34506, 0xD02C1E8FCA3F0F02C1AFBD0301138A6B, 0x3A9111414F67DCEA97F2CFCEF0B4E673,
  0x96AC7422E7AD3585E2F937E81C75DF6E, 0x47F11A711D29C5896FB7620EAA18BE1B, 0xFC563E4BC6D279209ADBC0FE78CD5AF4,
  0x1FDDA8338807C731B11210592780EC5F, 0x60517FA919B54A0D2DE57A9F93C99CEF, 0xA0E03B4DAE2AF5B0C8EBBB3C83539961,
  0x172B047EBA77D626E169146355210C7D]

/-- The words of the expanded key, newest first, grown by n words. -/
def aesExpand (nk : Nat) : Nat → Nat → List (List Nat) → List (List Nat)
  | 0, _, ws => ws
  | n + 1, i, ws =>
    let t := ws.getD 0 []
    let sub (w : List Nat) : List Nat := w.map (fun b => boxAt aesSbox b)
    let rcon := (List.range (i / nk - 1)).foldl (fun r _ => gf8 2 r) 1
    let t := if i % nk = 0 then List.zipWith (· ^^^ ·) (sub (t.drop 1 ++ t.take 1)) [rcon, 0, 0, 0] else if 6 < nk && i % nk == 4 then sub t else t
    aesExpand nk n (i + 1) (List.zipWith (· ^^^ ·) (ws.getD (nk - 1) []) t :: ws)

/-- The round keys of a 16-byte or 32-byte key. -/
def aesKeys (key : Bytes) : List (List Nat) :=
  let nk := key.length / 4
  let w := ((List.range nk).map (fun i => ((key.drop (4 * i)).take 4).map (·.toNat))).reverse
  let ws := (aesExpand nk (4 * (nk + 7) - nk) nk w).reverse
  (List.range (nk + 7)).map (fun r => ((ws.drop (4 * r)).take 4).flatten)

/-- One column times a circulant matrix. -/
def aesMix (m : List Nat) (st : List Nat) : List Nat :=
  (List.range 16).map (fun i => (List.range 4).foldl (fun v j => v ^^^ gf8 (m.getD ((j + 4 - i % 4) % 4) 0) (st.getD (i / 4 * 4 + j) 0)) 0)

/-- Bytes moved by rows: byte i comes from column i/4 + k times its row. -/
def aesShift (k : Nat) (st : List Nat) : List Nat := (List.range 16).map (fun i => st.getD ((i + 4 * k * (i % 4)) % 16) 0)

/-- AES of one block under a key of 16 or 32 bytes. -/
def aes (key blk : Bytes) : Bytes :=
  let ks := aesKeys key
  let n := ks.length - 1
  let add (st k : List Nat) : List Nat := List.zipWith (· ^^^ ·) st k
  let sub (st : List Nat) : List Nat := st.map (fun b => boxAt aesSbox b)
  let st := ((ks.drop 1).take (n - 1)).foldl (fun st k => add (aesMix [2, 3, 1, 1] (aesShift 1 (sub st))) k) (add ((padTo 16 blk).map (·.toNat)) (ks.getD 0 []))
  (add (aesShift 1 (sub st)) (ks.getD n [])).map (BitVec.ofNat 8)

/-- The inverse of AES. -/
def aesInv (key blk : Bytes) : Bytes :=
  let ks := (aesKeys key).reverse
  let n := ks.length - 1
  let add (st k : List Nat) : List Nat := List.zipWith (· ^^^ ·) st k
  let sub (st : List Nat) : List Nat := st.map (fun b => boxAt aesSboxInv b)
  let st := ((ks.drop 1).take (n - 1)).foldl (fun st k => aesMix [14, 11, 13, 9] (add (sub (aesShift 3 st)) k)) (add ((padTo 16 blk).map (·.toNat)) (ks.getD 0 []))
  (add (sub (aesShift 3 st)) (ks.getD n [])).map (BitVec.ofNat 8)

/-- Multiplication in the field of GHASH; bit 0 of a block is its leftmost. -/
def gmul (x y : Bytes) : Bytes :=
  let a := beNat (padTo 16 x)
  beBytes 16 ((List.range 128).foldl (fun (p : Nat × Nat) i =>
    (if bitOf a (127 - i) then p.1 ^^^ p.2 else p.1, if p.2 % 2 = 1 then (p.2 / 2) ^^^ (0xE1 * 2 ^ 120) else p.2 / 2)) (0, beNat (padTo 16 y))).1

/-- The bits of a number of n bits, most significant first. -/
def toBits (n v : Nat) : List Bool := (List.range n).map (fun i => bitOf v (n - 1 - i))

/-- The number bits spell, most significant first. -/
def ofBits (l : List Bool) : Nat := l.foldl (fun v b => 2 * v + b2n b) 0

/-- The bits at the places of a table, counted from 1. -/
def pick (t : List Nat) (l : List Bool) : List Bool := t.map (fun i => l.getD (i - 1) false)

/-- The initial permutation of DES, its inverse, and the expansion of a half. -/
def desIp : List Nat := ([58, 60, 62, 64, 57, 59, 61, 63].map (fun a => (List.range 8).map (fun i => a - 8 * i))).flatten
def desFp : List Nat := (List.range 64).map (fun i => desIp.findIdx (· == i + 1) + 1)
def desE : List Nat := ((List.range 8).map (fun i => (List.range 6).map (fun j => (4 * i + j + 31) % 32 + 1))).flatten

/-- The permutation of a half, and the two permuted choices of the key. -/
def desP : List Nat := [16, 7, 20, 21, 29, 12, 28, 17, 1, 15, 23, 26, 5, 18, 31, 10, 2, 8, 24, 14, 32, 27, 3, 9, 19, 13, 30, 6, 22, 11, 4, 25]
def desC1 : List Nat :=
  ((List.range 28).map (fun i => 57 + i / 8 - 8 * (i % 8))) ++ ((List.range 24).map (fun i => 63 - i / 8 - 8 * (i % 8))) ++ [28, 20, 12, 4]
def desC2 : List Nat := [14, 17, 11, 24, 1, 5, 3, 28, 15, 6, 21, 10, 23, 19, 12, 4, 26, 8, 16, 7, 27, 20, 13, 2] ++
  [41, 52, 31, 37, 47, 55, 30, 40, 51, 45, 33, 48, 44, 49, 39, 56, 34, 53, 46, 42, 50, 36, 29, 32]

/-- The eight S-boxes, rows of 16 digits from the left. -/
def desBoxes : List Nat := [
  0xE4D12FB83A6C5907_0F74E2D1A6CB9538_41E8D62BFC973A50_FC8249175B3EA06D,
  0xF18E6B34972DC05A_3D47F28EC01A69B5_0E7BA4D158C6932F_D8A13F42B67C05E9,
  0xA09E63F51DC7B428_D709346A285ECBF1_D6498F30B12C5AE7_1AD069874FE3B52C,
  0x7DE3069A1285BC4F_D8B56F03472C1AE9_A690CB7DF13E5284_3F06A1D8945BC72E,
  0x2C417AB6853FD0E9_EB2C47D150FA3986_421BAD78F9C5630E_B8C71E2D6F09A453,
  0xC1AF92680D34E75B_AF427C9561DE0B38_9EF528C3704A1DB6_432C95FABE17608D,
  0x4B2EF08D3C975A61_D0B7491AE35C2F86_14BDC37EAF680592_6BD814A7950FE23C,
  0xD2846FB1A93E50C7_1FD8A374C56B0E92_7B419CE206ADF358_21E74A8DFC90356B]

/-- The sixteen round keys of a DES key. -/
def desKeys (key : Bytes) : List (List Bool) :=
  let cd := pick desC1 (toBits 64 (beNat key))
  let rot (n : Nat) (l : List Bool) : List Bool := l.drop n ++ l.take n
  [1, 2, 4, 6, 8, 10, 12, 14, 15, 17, 19, 21, 23, 25, 27, 28].map (fun n => pick desC2 (rot n (cd.take 28) ++ rot n (cd.drop 28)))

/-- The cipher function of DES. -/
def desF (r k : List Bool) : List Bool :=
  let x := List.zipWith (· ^^ ·) (pick desE r) k
  pick desP (((List.range 8).map (fun i =>
    let b := (x.drop (6 * i)).take 6
    let row := ofBits [b.getD 0 false, b.getD 5 false]
    let col := ofBits ((b.drop 1).take 4)
    toBits 4 (desBoxes.getD i 0 / 16 ^ (63 - (16 * row + col)) % 16))).flatten)

/-- DES of one block, or its inverse. -/
def des (inv : Bool) (key blk : Bytes) : Bytes :=
  let ks := if inv then (desKeys key).reverse else desKeys key
  let b := pick desIp (toBits 64 (beNat (padTo 8 blk)))
  let (l, r) := ks.foldl (fun (p : List Bool × List Bool) k => (p.2, List.zipWith (· ^^ ·) p.1 (desF p.2 k))) (b.take 32, b.drop 32)
  beBytes 8 (ofBits (pick desFp (r ++ l)))

/-- The three DES keys of a TDEA key; one of 16 bytes uses its first half again. -/
def tdeaParts (key : Bytes) : Bytes × Bytes × Bytes :=
  (key.take 8, (key.drop 8).take 8, if key.length ≤ 16 then key.take 8 else (key.drop 16).take 8)

/-- TDEA of one block. -/
def tdea (key blk : Bytes) : Bytes := let (a, b, c) := tdeaParts key; des false c (des true b (des false a blk))

/-- The inverse of TDEA. -/
def tdeaInv (key blk : Bytes) : Bytes := let (a, b, c) := tdeaParts key; des true a (des false b (des true c blk))

/-- Byte strings cut into semiblocks of h bytes. -/
def semis (h : Nat) (d : Bytes) : List Bytes := (List.range (d.length / h)).map (fun i => (d.drop (h * i)).take h)

/-- The wrapping function W of SP 800-38F over semiblocks of h bytes: six passes, one block operation each (R142). -/
def wrapW (h : Nat) (enc : Bytes → Bytes) (a d : Bytes) : Bytes :=
  let n := d.length / h
  let (a, r) := (List.range (6 * n)).foldl (fun (p : Bytes × List Bytes) t =>
    let b := enc (p.1 ++ p.2.headD [])
    (xorBytes (b.take h) (beBytes h (t + 1)), p.2.drop 1 ++ [b.drop h])) (a, semis h d)
  a ++ r.flatten

/-- Its inverse: the first semiblock and the rest. -/
def unwrapW (h : Nat) (dec : Bytes → Bytes) (d : Bytes) : Bytes × Bytes :=
  let n := d.length / h - 1
  let (a, r) := (List.range (6 * n)).foldl (fun (p : Bytes × List Bytes) t =>
    let b := dec (xorBytes p.1 (beBytes h (6 * n - t)) ++ p.2.getLast?.getD [])
    (b.take h, b.drop h :: p.2.dropLast)) (d.take h, semis h (d.drop h))
  (a, r.flatten)

/-- The integrity value of KW (h = 8) and TKW (h = 4). -/
def wrapIv (h : Nat) : Bytes := List.replicate h 0xA6

/-- KW or TKW. -/
def kwWrap (h : Nat) (enc : Bytes → Bytes) (d : Bytes) : Bytes := wrapW h enc (wrapIv h) d

/-- KW or TKW undone: nothing unless the integrity value comes back. -/
def kwUnwrap (h : Nat) (dec : Bytes → Bytes) (d : Bytes) : Option Bytes :=
  let (a, r) := unwrapW h dec d
  if a = wrapIv h then some r else none

/-- KWP. -/
def kwpWrap (enc : Bytes → Bytes) (d : Bytes) : Bytes :=
  let a := [0xA6, 0x59, 0x59, 0xA6] ++ beBytes 4 d.length
  let d := padTo ((d.length + 7) / 8 * 8) d
  if d.length = 8 then enc (a ++ d) else wrapW 8 enc a d

/-- KWP undone: nothing unless prefix, length and padding come back. -/
def kwpUnwrap (dec : Bytes → Bytes) (d : Bytes) : Option Bytes :=
  let (a, r) := if d.length = 16 then (let b := dec d; (b.take 8, b.drop 8)) else unwrapW 8 dec d
  let n := beNat (a.drop 4)
  if a.take 4 = [0xA6, 0x59, 0x59, 0xA6] && decide (n ≤ r.length ∧ r.length < n + 8) && (r.drop n).all (· == 0) then some (r.take n) else none

end Sys2Proof.Machine
end

