-- ==== Sys2Proof/Config.lean ====
section
/-! DEFINITION. What the spec leaves open and what outside standards define: opaque constants, so that no proof can rest on a value of theirs. -/

namespace Sys2Proof.Config

/-- The outside standards' functions the device computes. Each is an uninterpreted function of its inputs. -/
inductive Prim where
  | wrap           -- wrapping mechanism: code, KEK, data
  | unwrap
  | sign           -- signature: mechanism, key, message, randomness
  | agree          -- shared secret: curve, private, public
  | encap          -- ML-KEM and OAEP
  | keyPair        -- public half of a generated private key
  | pubKey
  | seal           -- sealed image or journal block under a device key
  | unseal
  | mac            -- device-internal MACs, hashes and key derivations
  | puf            -- the device root secret of an enrolment
  | deviceId       -- device identity strings
  | reading        -- a present raw sensor code judged under a calibration record
  | spdm           -- an SPDM responder's answer
  deriving DecidableEq, Repr

/-- The value (little-endian number of the output string) of an outside standard's function on its inputs. -/
opaque prim (p : Prim) (inputs : List Bytes) : Nat

/-- The verdict of an outside standard's verification (a signature, a seal, a certificate) on its inputs. -/
opaque verdict (p : Prim) (inputs : List Bytes) : Bool

/-- How many of n items, from position pos on, a checker's selection sequence picks; each with probability 1/64 (R146, R217). -/
opaque selections (seed pos n : Nat) : Nat

/-- Random bits and every value the spec calls undefined: the n-th value drawn in a run. -/
opaque freeValue (n : Nat) : Nat

end Sys2Proof.Config
end

