-- ==== Sys2Proof/Machine/TypesCare.lean ====
section
/-! DEFINITION. State of the device-wide services: operating mode (02), Firebreak, spares and wear (19), tree-ring log and metering (20), power and wake (21), straps and pins (22), compatibility windows (23). -/

namespace Sys2Proof.Machine

/-- GBL_MODE (chapter 02). GBL_MODE_COND and GBL_SEEDLING_WHY are functions of the conditions that the other parts of State hold (R40, R644). -/
structure ModeState where
  mode : Nat := 0                  -- GBL_MODE.MODE; 0 until the start has chosen one
  prev : Nat := 0
  count : BitVec 8 := 0
  chosen : Bool := false           -- the start has chosen a mode (R644)
  deriving DecidableEq, Repr

/-- Firebreak's record of its last UNIT, SERVICE or FATAL report (FBK_LAST). -/
structure FbkLast where
  source : Nat := 0
  cls : Nat := 0
  injected : Bool := false
  unit : Nat := 0
  seconds : Nat := 0
  deriving DecidableEq, Repr

/-- Firebreak (R516-R527, R537, R542-R544). -/
structure Firebreak where
  fatal : Bool := false
  self : Bool := false
  fatalSrc : Nat := 0
  level : Bool := false            -- FB_ALIVE
  running : Bool := false
  backupClk : Bool := false        -- FBK_ALIVE.SOURCE
  halves : Nat := 0                -- half-periods counted, for the 16 and 17 alternation of WATCH
  forceLow : Bool := false
  service : BitVec 8 := 0          -- FBK_SERVICE.KINDS
  serviceAt : Tab Nat := []        -- seconds of the last fault per kind
  last : FbkLast := {}
  counts : Tab Nat := []           -- FBK_COUNT per class
  injSource : Nat := 0
  injUnit : Nat := 0xFFF
  wdtMs : Nat := 100
  warnPct : Nat := 80
  wear : Tab (Nat × Bool) := []    -- FBK_WEAR: WEAR_PCT, WARN
  lines : List Nat := []           -- interrupt lines raised to the Warden, newest first
  lostPlls : List Nat := []        -- PLLs unlocked under source 0x1B
  remap : List (Nat × Nat) := []   -- HBM remap table: page, reserve page index
  poisoned : List Nat := []
  wdAt : Tab Nat := []             -- µs at which each core's watchdog count began; absent = at Canopy power-good
  wdTimes : Tab (List Nat) := []   -- seconds of each core's expiries in the last 600 s
  deriving DecidableEq, Repr

/-- STATE byte of a COMMIT page (R539). -/
inductive PageState where
  | spare | ring | retired
  deriving DecidableEq, Repr

/-- The COMMIT partition (R539-R541). -/
structure CommitPart where
  ring : List Nat := List.range 512
  spares : List Nat := (List.range 128).map (· + 512)
  erase : Tab Nat := []            -- ERASE_COUNT per page
  first : Tab Nat := []            -- FIRST_COMMIT per page
  cur : Nat := 0                   -- position in the ring of the current page
  slot : Nat := 0                  -- next free slot of the current page
  last : Option Nat := none        -- page holding the newest record
  stopped : Bool := false          -- no free slot remains in any usable page
  deriving DecidableEq, Repr

/-- A log record before it has a sequence number (R546). -/
structure LogRec where
  code : Nat
  flags : Nat := 0
  origin : Nat := 1
  arg : Bytes := []
  deriving DecidableEq, Repr

/-- A record as programmed (R546-R548). -/
structure StoredRec where
  seq : Nat
  record : LogRec
  check : Bytes := []
  torn : Bytes := []               -- what a slot cut short by power loss reads as; its record is none of R559
  deriving DecidableEq, Repr

/-- A TRL page opened for records (R549). -/
structure TrlPage where
  num : Nat
  firstSeq : Nat
  recs : List StoredRec := []      -- oldest first, at most 64
  deriving DecidableEq, Repr

/-- Counts of one rate-limited code in the present window (R552). -/
structure RateCount where
  accepted : Nat := 0
  suppressed : Nat := 0
  deriving DecidableEq, Repr

/-- The tree-ring log (R546-R559, R569). -/
structure TrLog where
  queue : List LogRec := []        -- waiting to be programmed, oldest first
  blocked : List LogRec := []      -- critical records whose producers wait
  pages : List TrlPage := [{ num := 0, firstSeq := 1 }]  -- opened ring pages, oldest first
  erased : List Nat := (List.range 255).map (· + 1)      -- erased ring pages, in ring order
  spares : List Nat := (List.range 64).map (· + 256)
  eraseCount : Tab Nat := []
  nextSeq : Nat := 1
  lastCheck : Bytes := []
  acked : Nat := 0
  crit : Nat := 0
  lost : Nat := 0
  rates : Tab RateCount := []
  vecDue : List Nat := []          -- PFs whose vector 10 is due
  deriving DecidableEq, Repr

/-- An owner's meter record: the eight counters of R560, modulo 2^64. -/
structure Meter where
  c : List Nat := [0, 0, 0, 0, 0, 0, 0, 0]
  reused : Bool := false
  deleted : Bool := false
  deriving DecidableEq, Repr

/-- Usage metering (R560-R567). -/
structure Metering where
  live : Tab Meter := []           -- by owner
  dirty : List Nat := []           -- owners changed since the last flush
  capPrev : Tab Meter := []        -- capture of the period before the last closed
  capLast : Tab Meter := []        -- capture of the last closed period
  areaB : Bool := false            -- the next capture goes to area B
  period : Nat := 1
  opened : Nat := 0
  utc : Int := 0
  flushS : Nat := 60
  deriving DecidableEq, Repr

/-- Power states (R579): ACTIVE and DOZE are `active`, told apart by `dozed`. -/
inductive PwrState where
  | active | watch | backup
  deriving DecidableEq, Repr

/-- A POWER_WATCH entry in progress or the sleep it led to (R583-R594). -/
structure WatchEntry where
  mb : Mb
  mask : Nat
  afterS : Nat
  waitMs : Nat
  ap : Nat := 0                    -- the abort point to be reached next
  deriving DecidableEq, Repr

/-- Power, clocks, reset and wake (R571-R599). -/
structure Power where
  state : PwrState := .active
  resetLow : Bool := false         -- RESET_N held low
  canopyGood : Bool := false
  cause : Nat := 0                 -- PWR_RESET_CAUSE.CAUSE
  backupUsed : Bool := false
  goodAt : Nat := 0                -- µs at Canopy power-good, where mtime starts (R349)
  orderedCold : Option Nat := none -- a cold start ordered within 100 ms, with its cause
  dozed : BitVec 8 := 0
  gatedAt : Tab Nat := []          -- µs at which each gated stand was gated
  waking : Tab (List HeldAccess) := []  -- stands waking from DOZE and what they hold
  idleUs : Nat := 0x3E8
  enable : BitVec 8 := 0xFF
  wakes : Tab Nat := []            -- PWR_DOZE_WAKES
  entry : Option WatchEntry := none
  entered : Option WatchEntry := none  -- the request that led to the present WATCH or wake
  pendingWakes : BitVec 6 := 0     -- bit c - 1 = source c
  lastSource : Nat := 0            -- PWR_WAKE_LAST
  lastAborted : Bool := false
  lastAp : Nat := 0
  lastPending : BitVec 6 := 0
  wakeCount : BitVec 8 := 0
  wakeTime : Nat := 0
  slept : Nat := 0
  ap3Seconds : Nat := 0
  wakeStep : Nat := 0              -- step of R591 running; 0 = none
  meshOk : Bool := false           -- MESH_C has passed its check of this wake (R494)
  quiet : Bool := false            -- host links held in Detect.Quiet
  perstLatched : List Nat := []
  sclHeld : Bool := false
  eid : Nat := 0
  sessions : Nat := 0              -- SPDM sessions over MCTP
  mctpOut : Bytes := []            -- last management response
  spdmWait : List Bytes := []      -- SPDM messages over MCTP waiting for a restart or failover to end
  straps : Nat := 0                -- I2C_ADR in [1:0], BIFUR in [3:2], as latched
  strapPins : Nat := 0             -- as the board drives them
  deriving DecidableEq, Repr

/-- Where a compatibility window is live (R619). -/
inductive KcwAssign where
  | none
  | pf (p owner : Nat)
  | vf (n : Nat)
  deriving DecidableEq, Repr

/-- What a window is doing (R624, R630). -/
inductive KcwPhase where
  | idle | input | wait | running | resetting
  deriving DecidableEq, Repr

/-- An entry of a window's key map (R629). -/
structure KcwEntry where
  first : DWord := 0
  second : DWord := 0
  kcv : Bytes := []
  deriving DecidableEq, Repr

/-- A compatibility window (R619-R630). -/
structure Kcw where
  assign : KcwAssign := .none
  stand : Nat := 0
  phase : KcwPhase := .idle
  cmd : Word := 0                  -- KCW_CMD as captured
  done : Bool := false
  error : Bool := false
  overrun : Bool := false
  swrIgn : Bool := false
  drq : Bool := false
  kstat : Nat := 0
  len : Nat := 0
  keyno : Nat := 0
  keyno2 : Nat := 0
  iv : Tab Word := []
  capLen : Nat := 0                -- LEN, KEY and IV as captured by KCW_CMD
  capKey : Nat := 0
  capKey2 : Nat := 0
  capIv : Tab Word := []
  words : List Word := []          -- input words taken
  code : Nat := 0
  rlen : Nat := 0
  rbuf : Bytes := []
  errcnt : Nat := 0
  ctx : Option Nat := none
  map : Tab KcwEntry := []
  drain : List Nat := []           -- slots a reset is destroying and waits for (R630)
  resetSeq : Nat := 0              -- the entry whose commit a reset waits for
  destroyed : Nat := 0             -- keys destroyed by the reset in progress
  releasing : Bool := false        -- the reset is that of KCW_RELEASE (R635)
  deriving DecidableEq, Repr

end Sys2Proof.Machine
end

