-- ==== Sys2Proof/Machine/TypesHost.lean ====
section
/-! DEFINITION. State of the host interface (chapter 09) and of mailboxes and command contexts (chapter 10). -/

namespace Sys2Proof.Machine

/-- The part of a function's state that its configuration space, BARs and MSI-X table hold (R229, R232, R237-R244, R275, R578). -/
structure FnState where
  enabled : Bool := false          -- configured by its link (PF) or VF Enable (VF)
  busMaster : Bool := false
  d3hot : Bool := false
  relaxedEn : Bool := false
  accessErr : Nat := 0             -- FN_ACCESS_ERR, saturating at 65,535
  dbErr : Nat := 0                 -- DB_ERR
  events : BitVec 32 := 0          -- GBL_EVENT or GBL_VF_EVENT
  unmasked : List Nat := []        -- MSI-X vectors whose Mask bit is 0 (PCIe resets it to 1, log entry 92)
  maskAll : Bool := false          -- Function Mask
  pendingVec : List Nat := []      -- MSI-X pending bits
  msix : Tab Bytes := []           -- address and data of MSI-X table entries, 12 bytes each
  credit : Nat := 0                -- GBL_FN_CREDIT.GRANT
  heldMsgs : List Nat := []        -- messages waiting for D0 (R578)
  deriving DecidableEq, Repr

/-- STATE of QMG_QSTAT. -/
inductive QState where
  | absent | active | paused | error
  deriving DecidableEq, Repr

/-- CAUSE of QMG_QSTAT. -/
inductive QCause where
  | none | dbRange | fetchFault | cqFault | bme | mode
  deriving DecidableEq, Repr

/-- A queue pair (R245-R256). -/
structure Queue where
  state : QState := .absent
  cause : QCause := .none
  sqLog2 : Nat := 4
  cqLog2 : Nat := 4
  vector : Nat := 0
  coalCount : Nat := 0
  coalUs : Nat := 0
  relaxed : Bool := false
  sqAddr : Nat := 0
  cqAddr : Nat := 0
  defDeadline : Nat := 0
  sqTail : Nat := 0
  sqHead : Nat := 0                -- fetch head
  cqTail : Nat := 0
  cqHead : Nat := 0
  phase : Bool := true
  unreleased : Nat := 0            -- CQ slots written and not yet released through QMG_CQ_HEAD (R253)
  unsignalled : Nat := 0
  reading : List Nat := []         -- slots of reads issued and not yet answered
  fetched : List (Nat × Nat × Bytes) := []  -- entries fetched and not yet admitted: order number, deadline in µs, entry
  nextNo : Nat := 0                -- order number of the next entry fetched
  liveNos : List Nat := []         -- order numbers admitted and not yet posted
  held : Nat := 0                  -- contexts admitted and not yet posted
  destroying : Option Mb := none   -- QUEUE_DESTROY waiting on this mailbox
  posted : Nat := 0                -- posted since QUEUE_DESTROY was accepted
  deriving DecidableEq, Repr

/-- STATE of QMG_JR_STATUS. -/
inductive JrState where
  | off | output | input | error
  deriving DecidableEq, Repr

/-- One block held for the journal ring until acknowledged; its bytes are those of its entry in the journal history. -/
structure JrBlock where
  seq : Nat
  written : Bool := false
  deriving DecidableEq, Repr

/-- The journal ring (R258-R262, R642). -/
structure JRing where
  state : JrState := .off
  pf : Nat := 0
  ringAddr : Nat := 0
  evtAddr : Nat := 0
  log2 : Nat := 6
  head : Nat := 0
  tail : Nat := 0
  evTail : Nat := 0
  evHead : Nat := 0
  evHeld : Nat := 0                -- events written and not yet released through QMG_JR_EVHEAD
  phase : Bool := true
  blocks : List JrBlock := []      -- blocks above the contiguous acknowledged SEQ, oldest first
  acked : List Nat := []           -- acknowledged out of order
  ackedSeq : Nat := 0              -- contiguous acknowledged SEQ
  stalled : Bool := false
  ackShadow : Tab DWord := []      -- QMG_JR_ACK as last written, per PF
  deriving DecidableEq, Repr

/-- A host link half (R228, R610). -/
structure Link where
  up : Bool := false
  perst : Bool := true             -- PERST# asserted
  speed : Nat := 0
  width : Nat := 0
  flit : Bool := false
  deriving DecidableEq, Repr

/-- One translation held by a link's ATC (R230). -/
structure AtcEntry where
  fn : Fn
  addr : Nat
  len : Nat
  deriving DecidableEq, Repr

/-- A VF's TDI state (R235). -/
inductive Tdi where
  | unlocked | locked | run | error
  deriving DecidableEq, Repr

/-- An IDE stream (R234): the key sets delivered, each key and IV in two shares, numbered by key set in bit 0 and, above it, direction and sub-stream; the key set in use. -/
structure IdeStream where
  secure : Bool := false
  keys : Tab (Bytes × Bytes) := []
  inUse : Option Nat := none
  deriving DecidableEq, Repr

/-- Everything of chapter 09 that is not per context or per mailbox. -/
structure HostIf where
  fns : Tab FnState := []
  queues : Tab Queue := []         -- key 256 * function key + QID
  links : Tab Link := []           -- by PF number
  jring : JRing := {}
  atc : List AtcEntry := []
  spdm : Tab Nat := []             -- SPDM sessions open per PF
  doeBusy : List Nat := []         -- PFs whose DOE shows Busy
  doeWait : List (Nat × DoeRequest) := []  -- DOE requests waiting for a trusted restart to end
  doeResp : Tab Bytes := []        -- last DOE response per PF
  ide : Tab IdeStream := []        -- key 32 * link + stream
  tdis : Tab Tdi := []             -- by VF
  tdiStream : Tab Nat := []        -- bound IDE stream of a locked TDI
  mem : Mem := []                  -- host memory as the device has read and written it
  msgs : List (Fn × Nat) := []     -- MSI-X messages sent, newest first
  coalDue : List Nat := []         -- queue keys whose coalescing timer runs
  refused : List (Nat × Nat) := [] -- 4 KiB host pages whose translation the host has refused to a function: its key and the page (log entry 14)
  deriving DecidableEq, Repr

/-- STATE of a mailbox (R264). -/
inductive MbState where
  | idle | busy | done
  deriving DecidableEq, Repr

/-- A request as the Warden copied it (R267). -/
structure Req where
  opcode : Nat := 0
  bodyLen : Nat := 0
  reqId : Nat := 0
  deadlineMs : Nat := 0
  agent : Nat := 0
  body : Bytes := []
  deriving DecidableEq, Repr

/-- A response before its header is written (R268). -/
structure Resp where
  status : Nat := 0
  info : Nat := 0
  body : Bytes := []
  detail : Nat := 0
  deriving DecidableEq, Repr

/-- State of a request record (R271). -/
inductive RecState where
  | inProgress | done | indeterminate
  deriving DecidableEq, Repr

/-- What an accepted command that has made its changes still waits for before it is answered. -/
inductive MbWait where
  | none
  | commit (seq : Nat) (resp : Resp)
  | commitNow (seq : Nat)
  | recover
  | commitWrite (seq addr : Nat) (data : Bytes) (resp : Resp)
  | queueDrain (qkey : Nat)
  | vfIdle (n : Nat) (freeze : Bool)
  | ethGone (kind id : Nat) (resp : Resp)   -- until an SA (0), SC (1) or SecY (2) is gone (R332)
  | watch
  | logClear (resp : Resp)
  | drainKey (slots : List Nat) (resp : Resp)
  | applet (inst : Nat)
  | seedbank
  | window (w : Nat)
  | rerun (resp : Resp)
  | handover
  | restarted                      -- until interrupted destructions are complete; answered INDETERMINATE then (R287)
  deriving DecidableEq, Repr

/-- A request record (R271). The model keeps the hashed text in place of its SHA-256 (log entry 5). -/
structure MbRec where
  reqId : Nat
  hashed : Bytes
  digest : Option Bytes := none    -- for a record a migration image carried: the hash itself (R405)
  state : RecState
  opcode : Nat
  resp : Resp := {}
  ctx : Nat := 0xFFFF              -- the context its response names
  result : Option MbWait := none   -- what is written under this request once it has changed state (R287)
  quorum : Option Nat := none      -- opcode of the held request a QUORUM_EXECUTE has begun to run (R107)
  deriving DecidableEq, Repr

/-- A key that a mailbox's command uses under a lease, and whether a HUC has been asked for it (R70, R145, R274). -/
structure MbJob where
  slot : Nat
  gen : Nat
  huc : Bool := false
  deriving DecidableEq, Repr

/-- A mailbox (R264-R271). -/
structure Mbox where
  state : MbState := .idle
  accepted : Bool := false
  respLen : Nat := 0
  token : Nat := 0
  buf : Mem := []                  -- request buffer
  resp : Bytes := []               -- response buffer: the last response
  high : Option Nat := none
  recs : List MbRec := []          -- oldest first
  cur : Option Req := none         -- the accepted command
  inner : Option (Nat × Req) := none  -- the held request QUORUM_EXECUTE runs, with its approval
  rank8 : Bool := false            -- the accepted command has made its first state change (R281)
  wait : MbWait := .none
  job : Option MbJob := none
  since : Nat := 0                 -- seconds counter when the command was accepted (R106)
  mode : Nat := 0                  -- mode in which it was accepted (R44)
  logHead : Nat := 0               -- TRL_HEAD when it was accepted (R557)
  ctx : Nat := 0xFFFF
  deriving DecidableEq, Repr

/-- States of a command context (R276). -/
inductive CtxState where
  | free | admitted | leasing | running | draining | posting | voided
  deriving DecidableEq, Repr

/-- Whom a context serves (R274, R625). -/
inductive CtxSrc where
  | queue (fn : Fn) (qid no : Nat)
  | mailbox (mb : Mb)
  | gate (ticket : Nat)
  | kcw (w : Nat)
  deriving DecidableEq, Repr

/-- What a LEASING context may wait for (R276). -/
inductive CtxWait where
  | lease | key (slot : Nat) | invocation | pinRoom | ingress | engine | restart | freeze | entropy | stand (st : Nat) | commit (seq : Nat)
  deriving DecidableEq, Repr

/-- A settled outcome (R249, R278). -/
structure CtxOutcome where
  status : Nat := 0
  info : Nat := 0
  elem : Nat := 0
  offset : Nat := 0
  done : Nat := 0
  result : Nat := 0
  deriving DecidableEq, Repr

/-- A data element of a gather list (R248). -/
structure Elem where
  addr : Nat
  len : Nat
  deriving DecidableEq, Repr

/-- A command context (R274-R279). -/
structure Ctx where
  state : CtxState := .admitted
  src : CtxSrc
  owner : Nat := 0
  entry : Bytes := []              -- the 64 bytes of the submission entry
  fenceNo : Nat := 0
  deadlineAt : Nat := 0            -- µs
  checked : Bool := false          -- the checks of its class have passed
  waits : List CtxWait := []
  leases : List (Nat × Nat) := []  -- slot, generation
  invocation : Option Nat := none
  iv : Option Bytes := none        -- the 96 bits drawn for IV_MODE RANDOM when the message started (R132)
  ingress : Option Bytes := none   -- held in its stand's ingress buffer: the source data of a job up to 64 KiB (R31, R139)
  stand : Option Nat := none
  lane : Option Nat := none
  core : Option Nat := none        -- the service core that runs the job
  srcElems : List Elem := []
  dstElems : List Elem := []
  srcFault : Option (Nat × Nat × Nat) := none  -- a fault met while the ingress buffer was filled: element, offset, bytes before (R284)
  outcome : Option CtxOutcome := none
  writes : List (Nat × Bytes) := []  -- output writes to issue while DRAINING
  redispatched : Bool := false
  retried : Bool := false
  avoid : Option Nat := none       -- the digest engine that failed its job (R177)
  outLen : Nat := 0                -- output bytes the class and key give
  early : Bool := false            -- releases output before its end (R299, R314)
  unverified : Bool := false       -- what it releases early is unverified plaintext (R285)
  bytesIn : Nat := 0               -- source bytes delivered, for metering (R561)
  delivered : Bytes := []          -- RANDOM: the bytes of the pieces delivered so far (R309); a window: its result bytes
  aux : Bytes := []                -- the AUX area as read at step 5 of R295
  input : Option Bytes := none     -- a window command's input words (R624)
  admitted : Bool := false         -- its leases are admitted, or it needs none (R70)
  released : Nat := 0              -- output bytes released before an end that is not OK (R279, R314)
  deriving DecidableEq, Repr

end Sys2Proof.Machine
end

