-- ==== Sys2Proof/Machine/TypesCores.lean ====
section
/-! DEFINITION. State of application cores, applets and gate calls (chapter 13). -/

namespace Sys2Proof.Machine

/-- STATE of GBL_CORE_STATUS; a spare core fills no position (R413) and a retired one lost its bank (R531). -/
inductive CoreState where
  | idle | running | scrubbing | isolated | spare | retired
  deriving DecidableEq, Repr

/-- Kinds of notification (R370). -/
inductive NoteKind where
  | modeChange | restartBegin | restartEnd | tamper | unitLost | stopRequest | ownerSuspended | ownerResumed
  deriving DecidableEq, Repr

/-- A notification the Warden has queued for a core (R370). -/
structure Note where
  kind : NoteKind
  arg0 : Nat
  to_ : Option Nat := none         -- the instance, when the record is addressed to one applet
  deriving DecidableEq, Repr

/-- The U-mode state a monitor saves for an applet (R366): integer, vector, loop and mwmalast state. -/
structure Saved where
  x : Tab DWord := []
  pc : DWord := 0
  csr : Tab DWord := []
  v : Tab Bytes := []
  deriving DecidableEq, Repr

/-- States of an applet (APPLET_QUERY). -/
inductive AppState where
  | loaded | running | stopping | exited | faulted | cleared
  deriving DecidableEq, Repr

/-- What an applet waits for (R367). -/
inductive AppWait where
  | none
  | calls (mask : Nat)
  | dge
  deriving DecidableEq, Repr

/-- A loaded applet (R377-R382). -/
structure Applet where
  owner : Nat
  kind : Nat
  state : AppState := .loaded
  core : Nat := 0xFF
  slot : Nat := 0
  exitCode : Nat := 0
  mcause : DWord := 0
  mepc : DWord := 0
  mtval : DWord := 0
  codeLen : Nat
  dataLen : Nat
  bssLen : Nat
  localLen : Nat
  entry : Nat
  notifyEntry : Nat
  notifyOffset : Nat
  perms : Nat
  services : Nat
  base : Nat := 0                  -- first granule of its region
  granules : Nat := 0
  localBase : Nat := 0             -- offset of its share in the bank
  saved : Saved := {}
  wait : AppWait := .none
  calls : List Nat := []           -- call indices it has made
  seq : Nat := 0                   -- notifications written
  upcall : Option Saved := none
  upcallDue : List Nat := []       -- SEQs of upcalls that wait
  via : Option Fn := none          -- the VF it was started through (R393)
  digest : Bytes := []
  deriving DecidableEq, Repr

/-- An application core (R347-R376). -/
structure Core where
  state : CoreState := .idle
  pos : Option Nat := none         -- the position it fills; none = its own local number, or a spare
  owner : Option Nat := none       -- mowner
  ctrlOwner : Nat := 0             -- GBL_CORE_CTRL as written
  ctrlNone : Bool := true
  next : Option Nat := none        -- owner the scrub in progress, or the last one, was committed with (R374)
  swrIgn : Bool := false
  x : Tab DWord := []              -- integer registers, x0 absent
  v : Tab Bytes := []              -- vector registers
  pc : DWord := 0x10000
  user : Bool := false             -- in U-mode
  csr : Tab DWord := []            -- by CSR address, those that differ from reset
  minstret : DWord := 0            -- instructions completed (R347)
  mtimecmp : DWord := BitVec.allOnes 64
  msip : Bool := false
  wfi : Bool := false              -- waiting in WFI
  slots : Tab Nat := []            -- applet instances by slot
  cur : Option Nat := none         -- slot of the applet that runs
  out : Nat := 0                   -- mgate.OUT
  done : Nat := 0                  -- mgate.DONE
  frames : Tab Nat := []           -- frame address by call index
  callSeq : Nat := 0
  notes : List Note := []
  dgeHolder : Option Nat := none   -- the slot that holds DGE1 (R368)
  emptyTake : Bool := false
  ordered : Bool := false          -- in a scrub ordered by CLEAR or QUARANTINE that waits for the stand's multipliers (R189)
  injected : Bool := false         -- its failure was injected (R543)
  deriving DecidableEq, Repr

/-- A gate call, queued or taken (R363, R372). -/
structure GateCall where
  ticket : Nat
  core : Nat
  index : Nat
  slot : Nat
  owner : Nat
  service : Nat
  frame : Nat
  request : Bytes
  server : Option Nat := none      -- the service core that took it
  buffer : Nat := 0                -- where the entry was written
  ctx : Option Nat := none
  cancelled : Bool := false        -- its response will be dropped (R373)
  hold : Option (Nat × Bytes) := none  -- a response that waits for a commit (R79)
  answered : Bool := false         -- the response stands in the take buffer (log entry 28)
  deriving DecidableEq, Repr

/-- Cores, applets and gate calls. -/
structure Cores where
  cores : Tab Core := []           -- by global number
  applets : Tab Applet := []       -- by instance
  nextInst : Nat := 1
  gate : Tab (List GateCall) := [] -- queued, by stand, oldest first
  taken : List GateCall := []
  deriving DecidableEq, Repr

end Sys2Proof.Machine
end

