-- ==== Sys2Proof/Machine/TypesEth.lean ====
section
/-! DEFINITION. State of the Ethernet ports, MACsec and frame rings (chapter 12). -/

namespace Sys2Proof.Machine

/-- Where a port forwards controlled frames (R321). -/
inductive Fwd where
  | drop
  | port (n : Nat)
  | ring (fn qid : Nat)
  deriving DecidableEq, Repr

/-- An Ethernet port (R317-R321, R343, ETH registers). -/
structure Port where
  up : Bool := false
  anDone : Bool := false
  localFault : Bool := false
  remoteFault : Bool := false
  clear : Bool := false
  mtu : Nat := 1522
  fwd : Fwd := .drop
  uncFn : Nat := 0xFFFF
  uncQid : Nat := 0
  rx : DWord := 0
  tx : DWord := 0
  fecCorr : DWord := 0
  fecUncorr : DWord := 0
  drops : Tab DWord := []          -- by cause 0 to 5
  anResult : Nat := 0
  deriving DecidableEq, Repr

/-- A port position (R317, MSC_POS registers). -/
structure Position where
  mode : Nat := 0
  phy : Nat := 0
  an : Bool := false
  loopback : Bool := false
  stopped : Bool := false          -- stopped by QUARANTINE or a device stop (R339)
  waitedAt : Option Nat := none    -- when a frame last waited past its release time
  ctxLoads : DWord := 0
  deriving DecidableEq, Repr

/-- A secure channel (R322, R343); the transmit SC of a SecY has `tx`. -/
structure Sc where
  port : Nat
  tx : Bool
  sci : Nat
  ssci : Nat
  removing : Bool := false
  c : Tab DWord := []              -- counters of R345
  deriving DecidableEq, Repr

/-- A secure association (R326-R333). -/
structure Sa where
  slot : Nat
  gen : Nat
  next : Nat                       -- next PN
  lowest : Nat := 0                -- lowest acceptable PN (receive)
  enable : Bool := false
  pinned : Bool := false
  salt : Bytes := []
  ready : Bool := true             -- the commit of R326 has covered it
  readySeq : Nat := 0              -- the SEQ that commit must cover
  exhausted : Bool := false
  cleared : Bool := false
  removing : Bool := false
  c : Tab DWord := []
  deriving DecidableEq, Repr

/-- A SecY (R322, R323). -/
structure Secy where
  owner : Nat
  suite : Nat
  offset : Nat := 0
  validate : Nat := 2
  protect : Bool := false
  replay : Bool := false
  conf : Bool := false
  es : Bool := false
  window : Nat := 0
  txSc : Nat
  encAn : Option Nat := none
  evtFn : Nat := 0xFFFF
  evtQid : Nat := 0
  pnThresh : Nat := 0
  removing : Bool := false
  c : Tab DWord := []
  deriving DecidableEq, Repr

/-- A frame ring (R340): it takes a queue-pair number of its function. -/
structure Ring where
  dir : Nat
  log2 : Nat
  vector : Nat
  coalCount : Nat := 0
  coalUs : Nat := 0
  addr : Nat
  evt : Nat
  tail : Nat := 0                  -- host ring tail
  head : Nat := 0                  -- next host ring entry the device takes
  evTail : Nat := 0
  evHead : Nat := 0
  phase : Bool := true
  evHeld : Nat := 0                -- events written and not yet released (R253)
  unsignalled : Nat := 0
  state : QState := .active
  cause : QCause := .none
  deriving DecidableEq, Repr

/-- A frame inside the device: waiting for the classification of its egress port, or on its way to its release (R321, R329, R335-R337). -/
structure Frame where
  source : Nat                     -- ingress port, or 32 + the key of a transmit ring
  dest : Fwd                       -- where it goes; ring function code 0xFFFE is the MKA helper
  controlled : Bool
  buf : Nat                        -- the inline buffer that holds it: 2 * position + 1 if transmit (R337)
  data : Bytes                     -- destination address to end, FCS excluded; as it leaves its pass
  classify : Bool := false         -- waits for FRAME_TX_CLASSIFY at the port of dest
  port : Nat := 0                  -- the port of the SecY whose pass it makes
  sa : Option Nat := none          -- the SA of its pass
  lane : Option Nat := none        -- the lane of its pass (R136)
  rx : Bool := false               -- the pass is receive processing
  pn : Nat := 0
  enc : Bool := false
  octets : Nat := 0                -- user data octets of the pass
  aad : Nat := 0                   -- authenticated and enciphered bytes of the pass (R133)
  pay : Nat := 0
  icvOk : Bool := true
  keepBad : Bool := false          -- Check and integrity only: delivered though its ICV fails (R331)
  verified : Option Nat := none    -- the SA_ID that verified it
  unverified : Bool := false
  deriving DecidableEq, Repr

/-- The port complex. -/
structure Eth where
  positions : Tab Position := []
  ports : Tab Port := []
  secys : Tab Secy := []           -- by port
  scs : Tab Sc := []
  sas : Tab Sa := []               -- by SA_ID
  rings : Tab Ring := []           -- key 256 * function key + QID
  flight : List Frame := []        -- frames not yet released, in order of arrival
  mka : List (Nat × Bytes) := []   -- uncontrolled frames delivered to the MKA helper, newest first
  sent : List (Nat × Bytes) := []  -- frames put on the wire by port, FCS excluded, newest first
  deriving DecidableEq, Repr

end Sys2Proof.Machine
end

