-- ==== Sys2Proof/Machine/TypesLife.lean ====
section
/-! DEFINITION. State of the life cycle, debug authorisation and the TAP (chapter 17, R615), and of identity and start (chapters 02 and 16). -/

namespace Sys2Proof.Machine

/-- Life-cycle states (R469); `invalid` is decoded, never stored. -/
inductive LcState where
  | blank | test | personalise | production | returned | invalid | scrapped
  deriving DecidableEq, Repr

/-- A transition journal entry (R472); a damaged one fails its CHECK (R473). -/
structure LcEntry where
  isEnd : Bool
  src : LcState
  dst : LcState
  authBy : Nat
  no : Nat
  seconds : Nat
  auth : Bytes := []
  damaged : Bool := false
  deriving DecidableEq, Repr

/-- An estate anchor entry (R478); the model keeps the key whose SHA-384 the entry holds (log entry 5). -/
structure AnchorEntry where
  alg : Nat
  key : Bytes
  deriving DecidableEq, Repr

/-- The estate anchor (R478). -/
structure Anchor where
  gen : Nat := 0
  m : Nat := 0
  entries : List AnchorEntry := []
  deriving DecidableEq, Repr

/-- A write that a transition or a resume makes in the LC partition (R475). -/
inductive LcStep where
  | begin_
  | copy (k : Nat) (st : LcState)
  | fin
  deriving DecidableEq, Repr

/-- A transition or a resume that is being programmed, for the command that ordered it (R475, R482). -/
structure LcRun where
  src : LcState
  dst : LcState
  authBy : Nat
  auth : Bytes
  mb : Mb
  reqId : Nat
  entryNo : Bool                   -- the response is ENTRY_NO; else TO
  todo : List LcStep               -- the first is the write in progress
  deriving DecidableEq, Repr

/-- What drives the boundary outputs (R489). -/
inductive TapDrive where
  | normal | extest | clamp | highz
  deriving DecidableEq, Repr

/-- The life-cycle store, debug enables and the TAP. -/
structure LifeCycle where
  copies : List (BitVec 128) := [BitVec.allOnes 128, BitVec.allOnes 128, BitVec.allOnes 128]
  journal : List LcEntry := []     -- pages 3 to 7, oldest first
  run : Option LcRun := none
  decoded : LcState := .blank      -- as decoded at the last stage LC
  wiped : LcState := .blank        -- the state whose work of R480 is complete
  nonce : Option Bytes := none
  nonceDue : Bool := false         -- a write of HWD_DBG_CTRL.NEW waits for its random bits
  anchor : Option Anchor := none
  enrolled : Nat := 0              -- enrolments of the PUF (R480)
  enables : BitVec 4 := 0          -- T_INV, T_NI, U_INV, U_NI
  everT : Bool := false
  everU : Bool := false
  signer : Bool := false           -- authority of the last grant: estate
  owner : Nat := 0                 -- OWNER of the U enables
  tokenResult : Nat := 0
  halted : List Nat := []          -- cores halted by the debug gate
  stepping : List Nat := []        -- cores it lets run one instruction
  dbgResult : Nat := 0             -- RESULT of the last DBG_ACCESS
  dbgData : DWord := 0
  ir : Nat := 0x02                -- IDCODE, as a TAP reset leaves it (log entry 20)
  dr : Nat := 0                    -- what the selected data register shifts out
  boundary : BitVec 14 := 0        -- preloaded boundary register
  drive : TapDrive := .normal
  deriving DecidableEq, Repr

/-- Why the Seedling latch was set; a reason that cannot be read is served as START_FAILS (R637). -/
inductive SeedReason where
  | startFails | restartRate | unreadable
  deriving DecidableEq, Repr

/-- Identity values loaded from flash (R229, R241). -/
structure Ident where
  deviceRef : Nat := 0
  wdnLevel : Nat := 0              -- GBL_FWLEVEL [15:0]
  svcLevel : Nat := 0              -- GBL_FWLEVEL [31:16]
  deriving DecidableEq, Repr

/-- What a bundle's header gives (R441). -/
structure ImageInfo where
  svn : Nat := 0
  wdnLevel : Nat := 0
  svcLevel : Nat := 0
  monLevel : Nat := 0
  ckptRead : Nat := 0
  ckptWrite : Nat := 0
  wdnDigest : Bytes := []
  svcDigest : Bytes := []
  monDigest : Bytes := []
  header : Bytes := []             -- the header whose SHA-384 the slot record holds (log entry 5)
  deriving DecidableEq, Repr

/-- An image slot and its slot record (R442, R443). -/
structure ImageSlot where
  valid : Bool := false
  intact : Bool := true            -- header and components still read as their digests say
  info : ImageInfo := {}
  deriving DecidableEq, Repr

/-- STANDBY of GBL_WARDEN. -/
inductive Standby where
  | absent | loading | ready | updating
  deriving DecidableEq, Repr

/-- STATE of GBL_UPDATE. -/
inductive UpdState where
  | idle | running | done | abandoned
  deriving DecidableEq, Repr

/-- A live update (R460-R464). -/
structure Update where
  state : UpdState := .idle
  comps : Nat := 0
  wdnDone : Bool := false
  svcDone : List Nat := []         -- service cores switched
  monDone : List Nat := []
  cause : Nat := 0
  src : Nat := 0                   -- FROM_SLOT
  dst : Nat := 0                   -- TO_SLOT
  deriving DecidableEq, Repr

/-- Start-up, Warden pairs, trusted restart, images and measurement (chapter 16), latches of chapter 02. -/
structure Start where
  starting : Bool := true          -- a cold start is in progress
  halted : Bool := false           -- stage ROM failed (R446)
  stage : Nat := 0                 -- GBL_START.STAGE
  kindRestart : Bool := false      -- GBL_START.KIND
  seedlingFw : Bool := false
  slot : Nat := 0                  -- GBL_START.SLOT
  seedling : Option SeedReason := none   -- the Seedling latch and its reason
  clearcutLatch : Bool := false
  startFails : Nat := 0
  restartTimes : List Nat := []    -- seconds at which trusted restarts began, newest first
  lastStage : Nat := 0
  restarting : Bool := false
  restartReason : Nat := 0
  restarts : Nat := 0              -- GBL_RESTARTS
  active : Nat := 0                -- active pair
  standby : Standby := .absent
  pairFails : Nat := 0             -- self-tests failed by the pair being reloaded
  failingOver : Bool := false      -- the standby is resuming (R286)
  failovers : Nat := 0
  epoch : Nat := 0
  heartbeatAt : Nat := 0
  handStep : Nat := 0              -- step of R461 in progress; 0 = none
  handPlain : Bool := false        -- a WARDEN_HANDOVER, not an update
  upd : Update := {}
  runW : Nat := 0                  -- running slot of each component
  runS : Nat := 0
  runM : Nat := 0
  slotA : ImageSlot := { valid := true, info := { wdnLevel := 0x0402, svcLevel := 0x0402, monLevel := 0x0104, ckptRead := 1, ckptWrite := 1 } }  -- as manufactured (log entry 7)
  slotB : ImageSlot := {}
  deviceSvn : Nat := 0
  preferred : Nat := 0
  fallback : Bool := false
  cal : Tab Bytes := []            -- CAL records, key 256 * SENSOR + INDEX
  calGen : Nat := 0
  meas : Tab Bytes := []           -- measurement indices 1 to 10
  deriving DecidableEq, Repr

end Sys2Proof.Machine
end

