-- ==== Sys2Proof/Machine/TypesLookout.lean ====
section
/-! DEFINITION. State of Lookout, its backup domain and SVOUT (chapter 18). -/

namespace Sys2Proof.Machine

/-- Configuration of one source (R497). -/
structure LkoCfg where
  enable : Bool := false
  thresh : Int := 0
  n : Nat := 1
  wMs : Nat := 1
  response : Nat := 0
  holdS : Nat := 0
  polarity : Bool := false
  deriving DecidableEq, Repr

/-- Status of one source (R498-R501, LKO_SRC_STATUS, LKO_SRC_TIME). -/
structure LkoSrc where
  disarmed : Bool := false
  present : Bool := false
  events : List Nat := []          -- stamps in µs, newest first, within the window
  trips : Nat := 0
  tripTime : Nat := 0
  response : Nat := 0              -- as applied at the last trip
  latched : Bool := false
  holding : Bool := false
  holdS : Nat := 0                 -- hold in force for the present FREEZE
  lastEvent : Nat := 0             -- seconds counter at the last event
  deriving DecidableEq, Repr

/-- A latch slot of the backup domain (R504, R505). -/
structure LkoLatch where
  time : Nat := 0
  count : Nat := 0
  valid : Bool := false
  deriving DecidableEq, Repr

/-- STATE of LKO_SVOUT. -/
inductive Svout where
  | off | softstart | on | wait | latchedOff
  deriving DecidableEq, Repr

/-- Lookout (R493-R514). -/
structure Lookout where
  cfg : Tab LkoCfg := []           -- sources configured by LOOKOUT_CONFIG; the others use R503
  cfgGen : Nat := 0
  src : Tab LkoSrc := []
  latches : Tab LkoLatch := []
  seconds : BitVec 32 := 0         -- backup-domain seconds counter
  floor : BitVec 32 := 0           -- SECONDS_FLOOR in the LKO partition
  clearcutPending : Bool := false
  copyValid : Bool := true         -- the backup domain's configuration copy
  lossFlag : Bool := false         -- the backup domain has lost VBAT or its crystal
  backupLost : Bool := false       -- R506 raised its event at this start
  latchApplied : Bool := false
  capped : Bool := false
  lastReset : Option Nat := none   -- seconds counter at the last RESET response
  resetDue : Option Nat := none    -- a RESET response whose record is not yet programmed
  trips : Nat := 0
  readings : Tab Int := []
  patterns : Tab Bytes := []       -- the pattern last driven into each Thicket mesh (R496)
  svout : Svout := .off
  svRetries : Nat := 0
  svEnabled : Bool := false
  tampered : Bool := false         -- the TAMPERED word of IDENT
  secretsGone : Bool := false      -- the SECRETS pages have been wiped (R509, R510)
  deriving DecidableEq, Repr

end Sys2Proof.Machine
end

