-- ==== Sys2Proof/Machine/TypesStore.lean ====
section
/-! DEFINITION. State of the key store, its journal and commits (chapter 03), of owners, credentials, policies, approvals and replication (chapter 04), and of VFs, grants and migration (chapter 14). -/

namespace Sys2Proof.Machine

/-- States of a key record (R52); FREE, CONT and RETIRED slots are held beside the records. -/
inductive KeyState where
  | active | revoking | exhausted
  deriving DecidableEq, Repr

/-- A key record (R52), held under its first slot. Its material is masked: private material is share A xor share B. -/
structure KeyRec where
  state : KeyState := .active
  type : Nat
  owner : Nat
  gen : Nat := 1
  length : Nat
  purpose : Nat
  slots : Nat := 1
  policy : Nat := 0
  attr : Nat := 0
  uses : Nat := 0
  usesFloor : Nat := 0             -- USES_LEFT a loss brings back (R74)
  usesFloorOld : Nat := 0          -- the floor in force until a commit covers usesSeq
  usesSeq : Nat := 0
  ivFixed : Nat := 0
  invocation : Nat := 1
  ceiling : Nat := 0
  ceilOld : Nat := 0               -- ceiling usable until a commit covers ceilSeq
  ceilSeq : Nat := 0               -- journal SEQ of CEILING
  saBound : Nat := 0
  origin : Nat := 0
  born : Nat := 0                  -- ORIGIN of the key this one is replicated from, else its own (R72)
  createSeq : Nat := 0
  shareA : Bytes := []
  shareB : Bytes := []
  pub : Bytes := []
  replace : Bool := false          -- REVOKING for KEY_REPLACE
  newUses : Nat := 0
  drainUs : Nat := 0               -- drain limit in force while REVOKING
  deriving DecidableEq, Repr

/-- A secure counter (R85, R86). -/
structure Counter where
  owner : Nat
  value : Nat := 0
  ceiling : Nat := 0
  ceilOld : Nat := 0
  ceilSeq : Nat := 0
  deriving DecidableEq, Repr

/-- STATE of an owner entry (R91). -/
inductive OwnerState where
  | pending | active | suspended
  deriving DecidableEq, Repr

/-- An owner entry (R91); a FREE owner has none. KEYS_USED, COUNTERS_USED and CRED_COUNT are counted from the tables. -/
structure Owner where
  state : OwnerState := .pending
  anchor : Bool := false
  domainClosed : Bool := false
  estate : Bool := false
  member : Nat := 0
  nextMember : Nat := 0
  domainId : Nat := 0
  adminPolicy : Nat := 0
  keyQuota : Nat := 0
  counterQuota : Nat := 0
  vfQuota : Nat := 0
  appletQuota : Nat := 0
  root : Bytes := []
  deriving DecidableEq, Repr

/-- A credential record (R97). -/
structure Cred where
  active : Bool := true
  alg : Nat
  owner : Nat
  label : Bytes := []
  key : Bytes := []
  deriving DecidableEq, Repr

/-- A policy record (R99). -/
structure Policy where
  owner : Nat
  m : Nat
  n : Nat
  defMask : Nat := 3
  life : Nat := 60
  extra : Nat := 0
  revision : Nat := 1
  creds : List Nat := []
  deriving DecidableEq, Repr

/-- Everything the journal carries: the cold store, owners, counters, credentials, policies, meter records, migration lists and standing SA records. -/
structure Content where
  keys : Tab KeyRec := []          -- by first slot
  gens : Tab Nat := []             -- generation of slots that are not the first slot of a record
  genBase : Nat := 1               -- generation of every such slot not listed (R49, step 5 of R80)
  retired : List Nat := []
  counters : Tab Counter := []
  owners : Tab Owner := []
  creds : Tab Cred := []
  policies : Tab Policy := []
  meters : Tab Meter := []         -- meter pages as last journalled (R562)
  migr : Tab (List Bytes) := []    -- migration lists by owner, newest first: a token of 16 bytes, then 0 ISSUED or 1 CONSUMED (R407)
  trust : Tab Nat := []            -- applet trust slots (R379): key 4 * owner + slot, value handle
  deriving DecidableEq, Repr

/-- What the model keeps of a journal block: its kind, what it chains from and that block's head hash, its header's EPOCH, its text and the content after it (log entry 26). -/
structure JDesc where
  page : Option Nat := none
  prev : Nat := 0
  headIn : Bytes := []
  epoch : Nat := 0
  text : Bytes := []
  after : Content := {}
  deriving DecidableEq, Repr

/-- A slot of the cold store in HBM: its write counter, its sealed record and MAC (R62). -/
structure ColdSlot where
  count : DWord := 0
  sealed : Bytes := []
  mac : Bytes := []
  deriving DecidableEq, Repr

/-- The device's own secrets: those of the Heartwood, and what its key wire brings to the memory sealing engine (R56, R67). -/
structure Vault where
  root : Bytes := []               -- device root secret
  kek : Bytes := []                -- store KEK
  commitKey : Bytes := []          -- commit MAC key
  nonce : Bytes := []              -- boot nonce of this cold start
  wireA : Bytes := []              -- the KEK in the engine, as its two shares
  wireB : Bytes := []
  hbmKey : Bytes := []             -- per-boot HBM sealing key
  journalKey : Bytes := []
  scramble : Bytes := []           -- per-boot scramble key of the Sapwood
  deriving DecidableEq, Repr

/-- STATE of GBL_STORE. -/
inductive StoreState where
  | empty | loading | ready | failed
  deriving DecidableEq, Repr

/-- A key's entries in the Sapwood (R63, R64, R67): one item per key, its entries counted by type. -/
structure SapItem where
  gen : Nat
  shareA : Bytes
  shareB : Bytes
  entries : Nat
  index : Nat := 0                 -- of its first entry (R67)
  stamp : Nat := 0                 -- order of last use
  deriving DecidableEq, Repr

/-- The key store (chapter 03). -/
structure Store where
  state : StoreState := .empty
  c : Content := {}
  hist : Tab JDesc := []           -- blocks of the journal by SEQ
  nextSeq : Nat := 1
  prevSeq : Nat := 0               -- SEQ the next block chains from
  head : Nat := 0                  -- GBL_STORE_HEAD
  committed : Nat := 0             -- GBL_STORE_COMMITTED
  commitNo : Nat := 0
  commitRec : Bytes := []          -- the latest commit record (R77)
  floor : Nat := 1
  epoch : Nat := 0
  sweep : Tab Nat := []            -- SEQ of each page's latest capture
  interval : Nat := 1000
  tokens : Nat := 8
  wanted : Bool := false           -- an on-demand commit waits
  wantSeq : Nat := 0               -- highest SEQ an on-demand commit is wanted for
  nowWanted : Bool := false        -- COMMIT_NOW waits for a periodic commit (R78)
  committing : Bool := false
  commitSeq : Nat := 0             -- JOURNAL_SEQ of the commit being written
  recoverMb : Option Mb := none    -- STORE_RECOVER in progress
  deleting : List Nat := []        -- owners whose OWNER_DELETE waits for their keys to drain (R96)
  finish : List Nat := []          -- keys whose interrupted destruction a resumed Warden completes before all else (R84, R287)
  finishSeq : Nat := 0             -- what a commit must cover then
  answerDue : Bool := false        -- the interrupted commands are answered INDETERMINATE after it
  lastIn : Nat := 0                -- SEQ of the last block consumed
  rebased : Bool := false          -- R121, R122: until owner 0 is ACTIVE again
  coppiceMs : Nat := 10
  defMask : Nat := 2
  drainLimit : Nat := 100
  achieved : Nat := 0
  cold : Tab ColdSlot := []        -- sealed slots in HBM (R62)
  sap : Tab SapItem := []          -- by first slot
  stamp : Nat := 0
  loading : List (Nat × Nat) := [] -- slot and generation of loads in progress
  hits : Nat := 0
  misses : Nat := 0
  deriving DecidableEq, Repr

/-- An open approval (R103, R106). -/
structure Approval where
  policy : Nat
  owner : Nat
  req : Req
  blob : Option Bytes := none
  notAfter : Nat
  nonce : Bytes
  digest : Bytes                   -- DIGEST of R103
  approved : List Nat := []        -- credentials that have approved
  deriving DecidableEq, Repr

/-- A prepare blob outstanding on a destination (R114, R404). -/
structure Prepare where
  owner : Nat
  vf : Option Nat := none
  nonce : Bytes
  priv : Bytes := []
  until_ : Nat
  deriving DecidableEq, Repr

/-- Approvals and prepares (chapter 04). -/
structure Custody where
  approvals : Tab Approval := []
  saved : Tab Approval := []       -- as of the last complete checkpoint epoch (R108)
  nextId : Nat := 1
  prepares : List Prepare := []
  deriving DecidableEq, Repr

end Sys2Proof.Machine
end

