-- ==== Sys2Proof/Machine/TypesUnits.lean ====
section
/-! DEFINITION. State of the units of the stands: cipher lanes and HUCs (chapter 05), digest engines (06), wide multipliers (07), Seedbank banks (08), and the Capability Directory (01). -/

namespace Sys2Proof.Machine

/-- States of a cipher lane (CLN_STATUS.STATE). -/
inductive LaneState where
  | active | checker | isolated | retired | suspect | filling
  deriving DecidableEq, Repr

/-- A key context of a lane (R127), or the checker's shadow of one (R146). -/
structure LaneCtx where
  slot : Nat
  gen : Nat
  owner : Nat
  standing : Bool := false         -- a MACsec standing lease
  lane : Nat := 0                  -- the lane that uses it
  keyA : Bytes := []               -- the key as its two shares
  keyB : Bytes := []
  keyBits : Nat := 0
  powers : List Bytes := []        -- H, H², H³ and H⁴
  k1 : Bytes := []                 -- CMAC subkeys
  k2 : Bytes := []
  deriving DecidableEq, Repr

/-- A cipher lane (R125-R131, CLN_STATUS, CLN_FAULT). -/
structure Lane where
  state : LaneState := .active
  cause : Nat := 0
  corrected : Nat := 0
  blocks : DWord := 0
  ghash : DWord := 0
  ctxs : List LaneCtx := []        -- least recently used first; of a checker, its shadow contexts
  frame256 : Bool := false         -- the next sentinel block is AES-256 (R126)
  inline : Bool := false
  injected : Bool := false         -- its failure was injected (R543)
  deriving DecidableEq, Repr

/-- Who waits for a HUC: a context, or a mailbox's command, by its key, through the Sapwood controller (R145). -/
inductive HucSrc where
  | ctx (c : Nat)
  | mb (k : Nat)
  deriving DecidableEq, Repr

/-- A queued HUC request: who it works for and the block operations left (R142, R145). -/
structure HucReq where
  src : HucSrc
  left : Nat
  deriving DecidableEq, Repr

/-- What a HUC holds of its block slot: the key in two shares, the mask of the state, the dummy rounds, the real rounds each stands before, and the byte order (first byte and step) of every round (R143). -/
structure HucRegs where
  keyA : Bytes := []
  keyB : Bytes := []
  mask : Bytes := []
  dummies : Nat := 0
  places : List Nat := []
  order : List (Nat × Nat) := []
  deriving DecidableEq, Repr

/-- The part of a stand that is not a numbered unit (R137-R149, HUC registers, R582). -/
structure Stand where
  ctxKey : Bytes := []             -- the stand context key as drawn so far; 32 bytes make it (R173, R214)
  checkEn : Bool := true
  lookasideEn : Bool := true
  swrIgn : Bool := false
  mismatches : Nat := 0
  checked : DWord := 0
  checkSeed : Option Nat := none   -- seed of the checker's selection sequence (R217)
  checkPos : Nat := 0              -- items the selection sequence has passed since that seed (R146)
  drr : Tab Nat := []              -- deficit of each function competing for the stand, by index of CLN_WEIGHT (R137)
  drrAt : Nat := 0                 -- index of the function whose turn it is
  redispatch : DWord := 0
  inlineDrop : DWord := 0
  filling : Option Nat := none     -- global lane the spare is replacing (R155)
  waiting : List Nat := []         -- failed lanes whose replacement waits (R155)
  checkerLost : Bool := false      -- checker isolated (R148)
  coreFill : Option Nat := none    -- global core the spare core is replacing (R530)
  coreWait : List Nat := []
  coreBoot : Bool := false         -- the spare core boots (step 4 of R530)
  offline : Bool := false
  service : List Nat := []         -- contexts in the service queue, oldest first (R193)
  hucIsolated : Bool := false
  hucQueue : List HucReq := []
  hucHeld : List HucReq := []      -- requests that wait at their sources for room in the queue (R145)
  hucRegs : HucRegs := {}
  hucNext : Nat := 0               -- round-robin position
  hucStall : Bool := false
  hucBlocks : DWord := 0
  hucStalls : DWord := 0
  deriving DecidableEq, Repr

/-- SLOT_STATE of DGE_STATUS. -/
inductive DgeSlot where
  | idle | open_ | finishing | done
  deriving DecidableEq, Repr

/-- KEY_SRC of DGE_STATUS. -/
inductive DgeKey where
  | none | raw | handle
  deriving DecidableEq, Repr

/-- The message open in slot 0: a restored chaining value, bytes absorbed before it, and the text since (R160, R172). -/
structure DgeMsg where
  chain : Bytes := []              -- empty = the algorithm's or key's own
  before : Nat := 0
  text : Bytes := []
  alg : Nat := 2
  keyed : Bool := false
  compare : Bool := false
  cmpLen : Nat := 32
  deriving DecidableEq, Repr

/-- A save or restore in progress (R172-R175). -/
structure DgeXfer where
  restore : Bool
  tag : FabricTag
  deriving DecidableEq, Repr

/-- A write at an engine's register port whose writer is stalled: offset, bytes, value (R161, R163, R175). -/
structure DgeWrite where
  tag : FabricTag
  off : Nat
  bytes : Nat
  value : Nat
  deriving DecidableEq, Repr

/-- A digest engine (R158-R178). -/
structure Dge where
  worldU : Bool := false
  isolated : Bool := false
  claim : Option Nat := none
  alg : Nat := 2
  keyed : Bool := false
  compare : Bool := false
  cmpLen : Nat := 32
  lastCnt : Nat := 8
  slot : DgeSlot := .idle
  verdict : Nat := 0
  err : Nat := 0
  swrIgn : Bool := false
  keyStat : Nat := 0
  keyLen : Nat := 32
  keyBuf : Bytes := []             -- raw key words taken, or the key
  keyInner : Bytes := []           -- chaining values of the loaded key (R164)
  keyOuter : Bytes := []
  keyLoaded : Bool := false
  keyLoading : Bool := false
  keySrc : DgeKey := .none
  handle : Nat := 0
  lease : Option (Nat × Nat) := none
  leaseOwner : Nat := 0
  msg : DgeMsg := {}
  held : List (DWord × Option Nat) := []  -- words written while FINISHING or before the key is ready, a last word with its count
  result : Bytes := []
  expect : Tab DWord := []
  saveAddr : Nat := 0
  saveNo : Nat := 0
  xfer : Option DgeXfer := none
  msgs : DWord := 0
  blocks : DWord := 0
  streams : Tab Nat := []          -- contexts in slots 1 to 3, by slot
  stalled : List DgeWrite := []    -- writes whose writers are stalled, oldest first
  deriving DecidableEq, Repr

/-- A command a core has given a WMA: its block as read at WMA.GO, and the operands as loaded (R181-R188). -/
structure WmaCmd where
  core : Nat
  addr : Nat                       -- the block's address
  tag : FabricTag                  -- the issuing core's tag at WMA.GO
  block : Bytes
  running : Bool := false
  touched : Bool := false          -- a word of A, B or ACC was written since WMA.GO (R183)
  a : Bytes := []
  b : Bytes := []
  acc : Bytes := []
  deriving DecidableEq, Repr

/-- A WMA unit (chapter 07). -/
structure Wma where
  isolated : Bool := false
  cmds : List WmaCmd := []         -- running or waiting, oldest first
  done : DWord := 0
  busy : DWord := 0
  last : Option Nat := none        -- core last served
  deriving DecidableEq, Repr

/-- STATE of SBK_STATUS. -/
inductive SbkState where
  | off | starting | delivering | isolated | retired
  deriving DecidableEq, Repr

/-- A master's view of a software port: STATE, RESULT, IGNORED of SBK_PORT_STATUS. -/
structure SbkPortStat where
  state : Nat := 0
  result : Nat := 0
  ignored : Bool := false
  deriving DecidableEq, Repr

/-- A request at a stand's Seedbank software port (R214-R220). -/
structure SbkReq where
  master : Nat
  owner : Nat
  priv : Bool
  addr : Nat
  count : Nat
  ctx : Option Nat := none         -- a RANDOM job's piece: the words go to its context (R309)
  deriving DecidableEq, Repr

/-- A consumer's end of a wire: the words received and not yet used, and the words it still asks for (R216, R218). -/
structure Feed where
  got : List DWord := []
  want : Nat := 0
  deriving DecidableEq, Repr

/-- A Seedbank bank, the wires of its stand and the stand's software port; number 8 is the Heartwood's early source (chapter 08, R215). -/
structure Bank where
  enable : Bool := true
  cond : Bool := false             -- von Neumann
  state : SbkState := .starting
  cause : Nat := 0
  swrIgn : Bool := false
  rctCell : Nat := 0
  aptMax : Nat := 0
  rctMax : Nat := 0
  mean : Nat := 0
  spread : Nat := 0
  temp : Nat := 0                  -- 12 bits, two's complement
  agePpm : Int := 0
  outBits : DWord := 0
  cells : List (Bool × Nat) := []  -- per cell, its last raw bit and the length of its run (R207)
  tested : Nat := 0                -- samples that the start-up test has passed (R212)
  gated : Bool := false            -- a frequency gate has closed since the power-good (R213)
  part : List Bool := []           -- conditioned bits of a word not yet full, earliest first (R205)
  last : List Bool := []           -- the last 64 words, newest first: given to re-masking or not (R218)
  turn : Nat := 0                  -- round-robin place among the requesters of wires 1 to 5 (R218, R219)
  feeds : Tab Feed := []           -- by wire, of the stand's consumers; wire 5's words are the reservoir (R216, R221)
  fresh : Bool := true             -- its test of the last cold start is not over (R211)
  failed : Bool := false           -- isolated at the last cold start (R211)
  badStarts : Nat := 0             -- consecutive cold starts at which the bank was isolated (R211)
  queue : List SbkReq := []
  port : Tab SbkPortStat := []     -- by master
  deriving DecidableEq, Repr

/-- The units of the stands, and GBL_CAPDIR_HDR. -/
structure Units where
  lanes : Tab Lane := []           -- by global number; the others are at their reset state
  stands : Tab Stand := []
  dges : Tab Dge := []
  wmas : Tab Wma := []
  wmaVal : Tab Nat := []           -- per core, the value WMA.WAIT returns for its last command (R182)
  wmaOpen : Tab WmaCmd := []       -- per core, the command that ended and that no WMA.WAIT has returned (R183)
  wmaEfails : Tab DWord := []
  wmaLast : Tab Nat := []          -- per unit, WMA_STATUS.LAST
  banks : Tab Bank := []
  sbkTodo : List Nat := []         -- banks SEEDBANK_CONFIG still has to reconfigure (R226)
  sbkNow : Option Nat := none      -- the bank being reconfigured
  sbkCond : Bool := false
  sapFeed : Feed := {}             -- the Sapwood controller's words of wire 4 (R216)
  sapTurn : Nat := 0               -- the bank its next word comes from
  heartFeed : Feed := {}           -- the Heartwood's words (R215, R216)
  heartTurn : Nat := 0
  capGen : Nat := 0                -- GBL_CAPDIR_HDR.GEN
  capdir : List Bytes := []        -- node entries of GBL_CAPDIR as last written (R26)
  fab : Mem := []                  -- stand SRAM and HBM behind the fabric
  deriving DecidableEq, Repr

end Sys2Proof.Machine
end

