-- ==== Sys2Proof/Machine/TypesWorld.lean ====
section
/-! DEFINITION. State of the world map, interrupt routing and access-control units (chapter 15), and of VFs, grants and migration (chapter 14). -/

namespace Sys2Proof.Machine

/-- The fields of a world map that R415 gives values to. -/
structure WorldMap where
  gen : Nat := 0
  core : Nat := 0xC0C0C0C0C0C0C0C0
  wma : Nat := 0xAAAA
  dge : Nat := 0xAAAA
  port : Nat := 0
  line : Tab Nat := []             -- LINE entries that differ from the default route
  deriving DecidableEq, Repr

/-- SOURCE of GBL_WORLD. -/
inductive MapSource where
  | none | flash | default | fallback
  deriving DecidableEq, Repr

/-- A copy of the WORLDMAP partition (R417). -/
inductive MapCopy where
  | erased
  | bad
  | valid (m : WorldMap)
  deriving DecidableEq, Repr

/-- A programmed region of an ACU (R431). -/
structure AcuRegion where
  start : Nat := 0
  stop : Nat := 0
  attr : Nat := 0
  owner : Nat := 0                 -- ACU_RGN_OWNER as a word
  deriving DecidableEq, Repr

/-- An access-control unit (R427-R438). -/
structure Acu where
  regions : Tab AcuRegion := []    -- in force
  shadow : Tab AcuRegion := []     -- written and not committed (R431)
  valid : Bool := false
  write : Bool := false
  exec : Bool := false
  user : Bool := false
  integrity : Bool := false
  part : Nat := 0
  parts : Nat := 0
  addr : Nat := 0
  tag : Nat := 0
  count : DWord := 0
  seqs : List (Nat × Nat × Nat × Nat) := []  -- master, target, context (8192 = none), last SEQ accepted (R22)
  deriving DecidableEq, Repr

/-- Worlds and the ACUs. -/
structure Worlds where
  map : WorldMap := {}             -- in force
  source : MapSource := .none
  locked : Bool := false
  copyA : MapCopy := .erased
  copyB : MapCopy := .erased
  inA : Bool := false              -- the map in force came from copy A
  digest : Bytes := []
  acus : Tab Acu := []
  granules : Tab Nat := []         -- ACU_GRANULE words
  uwin : Tab (Nat × Nat) := []     -- user windows by core
  lines : List Nat := []           -- interrupt lines that are high
  issued : List (Nat × Nat × Nat × Nat) := []  -- master, target (16 for a context's stream), context (8192 = none), its next SEQ (R22)
  deriving DecidableEq, Repr

/-- The identity of a granted node: kind, tier, stand, local number (R390, R405). -/
structure NodeId where
  kind : Nat
  tier : Nat
  stand : Nat := 0                 -- stand of a leaf or stand node, bond number of a bond
  loc : Nat := 0
  deriving DecidableEq, Repr

/-- A grant (R390). -/
structure Grant where
  id : Nat
  node : NodeId
  exclusive : Bool
  amount : Nat := 0
  deriving DecidableEq, Repr

/-- A suspended entry (R400). -/
structure Suspended where
  qid : Nat
  no : Nat
  remaining : Nat
  slot : Nat := 0
  entry : Bytes
  deriving DecidableEq, Repr

/-- What the Warden holds of a function's allotment and of a VF's binding (chapter 14). -/
structure Alloc where
  owner : Option Nat := none       -- binding
  ctrlOwner : Nat := 0             -- QMG_VF_CTRL.OWNER as last written while unbound
  swrIgn : Bool := false
  queues : Nat := 0
  grants : List Grant := []
  weight : Nat := 0                -- CLN_WEIGHT.WEIGHT
  standMask : Nat := 0
  quiesce : Bool := false
  freeze : Bool := false
  quiesced : Bool := false
  frozen : Bool := false
  saved : Bool := false
  draining : Bool := false
  posted : Nat := 0                -- posted since the quiesce or freeze was accepted
  suspended : List Suspended := [] -- in fetch order
  nSuspended : Nat := 0            -- entries suspended by the freeze in progress
  deriving DecidableEq, Repr

end Sys2Proof.Machine
end

