-- ==== Sys2Proof/Machine/State.lean ====
section
/-! DEFINITION. The state of the block: everything the spec gives the device, plus the queue of waiting commands. -/

namespace Sys2Proof.Machine

/-- Why the machine stops with a fault. -/
inductive Fault where
  /-- Raised by a meaning whose operand names a unit, function, window or source the device does not have (a lane above 71, a link above 1, a PF above 3): no such event exists. Safe: the model stops where the hardware has no event. -/
  | noSuchUnit
  deriving DecidableEq, Repr

/-- Why a command is refused. -/
inductive Refusal where
  /-- Raised by the arm of a command that has no meaning yet. Safe. -/
  | notModelled (mnemonic : String)
  deriving DecidableEq, Repr

/-- The block. -/
structure State where
  /-- commands waiting, first in first out -/
  pending : List Instr := []
  /-- model's own: number of free values drawn so far -/
  free : Nat := 0
  /-- model's own clock: microseconds since reset, counted on an empty queue -/
  us : Nat := 0
  mode : ModeState := {}
  start : Start := {}
  ident : Ident := {}
  lc : LifeCycle := {}
  lko : Lookout := {}
  fbk : Firebreak := {}
  commit : CommitPart := {}
  log : TrLog := {}
  meter : Metering := {}
  pwr : Power := {}
  vault : Vault := {}
  store : Store := {}
  cust : Custody := {}
  units : Units := {}
  world : Worlds := {}
  allocs : Tab Alloc := []
  cores : Cores := {}
  eth : Eth := {}
  host : HostIf := {}
  mbox : Tab Mbox := []
  ctxs : Tab Ctx := []
  kcw : Tab Kcw := []
  deriving DecidableEq, Repr

/-- The block right after reset: every field at the value its type declares, which is the spec's reset value or one a log entry names. -/
def State.reset : State := {}

end Sys2Proof.Machine
end

