-- ==== Sys2Proof/Machine/Ops.lean ====
section
/-! DEFINITION. Operations shared by every family: outcomes, free values, functions and their vectors, event bits, the tree-ring log's intake. -/

namespace Sys2Proof.Machine

/-- The outcome type of every meaning. -/
abbrev Out := Host.Outcome State Fault Refusal

/-- The command takes effect when its operand names something the device has. -/
def onUnit (c : Bool) (s : State) : Out := if c then .next s else .fault .noSuchUnit

/-- Draw one free value: the value of an undefined result or of random bits. -/
def draw (s : State) : Nat × State := (Config.freeValue s.free, { s with free := s.free + 1 })

/-- Draw n bytes of conditioned random bits (R204, R218). -/
def drawBytes (n : Nat) (s : State) : Bytes × State :=
  let (v, s) := draw s
  (leBytes n v, s)

/-- The bytes an outside standard's function gives, cut to n. -/
def prim (n : Nat) (p : Config.Prim) (ins : List Bytes) : Bytes := leBytes n (Config.prim p ins)

/-- The key a function has in the function table. -/
def fnKey : Fn → Nat
  | .pf p => p
  | .vf n => 4 + n

/-- Whether the device can have the function (R229, R274). -/
def fnOk : Fn → Bool
  | .pf p => p < 4
  | .vf n => n < 4096

/-- A function's state; one never touched is at reset. -/
def getFn (f : Fn) (s : State) : FnState := tgetD s.host.fns (fnKey f) {}

/-- Replace a function's state. -/
def setFn (f : Fn) (x : FnState) (s : State) : State :=
  { s with host.fns := tset s.host.fns (fnKey f) x }

/-- Change a function's state. -/
def modFn (f : Fn) (g : FnState → FnState) (s : State) : State := setFn f (g (getFn f s)) s

/-- The PF a VF stands under: link by index, half by bifurcation strap (R228, R229). -/
def pfOf (s : State) : Fn → Nat
  | .pf p => p
  | .vf n =>
    let link := n / 2048
    if bitOf s.pwr.straps (2 + link) then 2 * link + (n % 2048) / 1024 else 2 * link

/-- Whether PF p exists under the bifurcation straps: PF 2h, and PF 2h + 1 on a bifurcated link. -/
def pfPresent (s : State) (p : Nat) : Bool :=
  p < 4 && (p % 2 == 0 || bitOf s.pwr.straps (2 + p / 2))

/-- A function in D3hot, or a VF whose PF is (R578). -/
def inD3 (f : Fn) (s : State) : Bool :=
  (getFn f s).d3hot || (match f with | .pf _ => false | .vf _ => (getFn (.pf (pfOf s f)) s).d3hot)

/-- Send one MSI-X message of a vector, or set its pending bit, or hold it for D0; a function without Bus Master Enable issues no request (R232, R244, R578). -/
def sendVec (f : Fn) (v : Nat) (s : State) : State :=
  let x := getFn f s
  if inD3 f s then setFn f { x with heldMsgs := x.heldMsgs ++ [v] } s
  else if x.maskAll || !x.unmasked.contains v || !x.busMaster then setFn f { x with pendingVec := addNew x.pendingVec v } s
  else { s with host.msgs := (f, v) :: s.host.msgs }

/-- A doorbell, or a function's return to D0, between AP1 and AP2 of a WATCH entry is wake source HOST (R585, R588). -/
def hostWake (s : State) : State :=
  match s.pwr.entry with
  | some e => if e.ap = 2 then { s with pwr.pendingWakes := s.pwr.pendingWakes ||| 32#6 } else s
  | none => s

/-- An event bit goes to 1; the change from 0 sends vector 0 (R242). -/
def raiseEvent (f : Fn) (bit : Nat) (s : State) : State :=
  let x := getFn f s
  if x.events.getLsbD bit then s
  else sendVec f 0 (setFn f { x with events := x.events ||| BitVec.ofNat 32 (2 ^ bit) } s)

/-- The ACCESS_ERR bit: 7 of GBL_EVENT, 6 of GBL_VF_EVENT. -/
def accessBit : Fn → Nat
  | .pf _ => 7
  | .vf _ => 6

/-- A dropped write is counted in FN_ACCESS_ERR (R237-R239). -/
def countAccess (f : Fn) (s : State) : State :=
  let x := getFn f s
  if x.accessErr < 65535 then raiseEvent f (accessBit f) (setFn f { x with accessErr := x.accessErr + 1 } s) else s

/-- A dropped doorbell is counted in DB_ERR (R250, R266). -/
def countDoorbell (f : Fn) (s : State) : State :=
  let x := getFn f s
  if x.dbErr < 65535 then raiseEvent f (accessBit f) (setFn f { x with dbErr := x.dbErr + 1 } s) else s

/-- The PFs that exist: 0 and 2, and the second halves of bifurcated links. -/
def pfs (s : State) : List Nat := (List.range 4).filter (pfPresent s)

/-- Raise a GBL_EVENT bit on every PF. -/
def eventAllPfs (bit : Nat) (s : State) : State := (pfs s).foldl (fun s p => raiseEvent (.pf p) bit s) s

/-- Send a vector of every PF. -/
def vecAllPfs (v : Nat) (s : State) : State := (pfs s).foldl (fun s p => sendVec (.pf p) v s) s

/-- The VFs whose VF Enable is set. -/
def liveVfs (s : State) : List Nat :=
  s.host.fns.filterMap (fun p => if 4 ≤ p.1 ∧ p.2.enabled then some (p.1 - 4) else none)

/-- Raise a GBL_VF_EVENT bit on every enabled VF. -/
def eventAllVfs (bit : Nat) (s : State) : State := (liveVfs s).foldl (fun s n => raiseEvent (.vf n) bit s) s

/-- The codes of R559 marked C. -/
def criticalCodes : List Nat :=
  [0x0001, 0x0002, 0x0003, 0x0101, 0x0102, 0x0104, 0x0105, 0x0201, 0x0202, 0x0302, 0x0401,
   0x0501, 0x0502, 0x0503, 0x0504, 0x0505, 0x0506, 0x0507, 0x0508, 0x0604, 0x0607, 0x0703,
   0x0801, 0x0802, 0x0901, 0x0902]

/-- The codes of R559 marked P. -/
def persistentCodes : List Nat := [0x0501, 0x0502, 0x0503, 0x0504, 0x0505, 0x0506, 0x0507, 0x0508]

/-- FLAGS of a record by its code: [0] CRITICAL, [1] PERSISTENT (R546, R559). -/
def codeFlags (code : Nat) : Nat :=
  b2n (criticalCodes.contains code) + 2 * b2n (persistentCodes.contains code)

/-- A record of a code, its ARG given as fields. -/
def mkRec (code origin : Nat) (arg : List (Nat × Nat × Nat)) : LogRec :=
  { code := code, flags := codeFlags code, origin := origin, arg := layout 12 arg }

/-- A record arrives at the Heartwood and is queued, suppressed or dropped (R550, R552). -/
def logPut (r : LogRec) (s : State) : State :=
  let l := s.log
  if bitOf r.flags 0 then
    if l.queue.length < 512 then { s with log.queue := l.queue ++ [r] }
    else { s with log.blocked := l.blocked ++ [r] }
  else
    let c := tgetD l.rates r.code {}
    if c.accepted < 16 ∧ l.queue.length < 384 then
      { s with log.queue := l.queue ++ [r], log.rates := tset l.rates r.code { c with accepted := c.accepted + 1 } }
    else { s with log.rates := tset l.rates r.code { c with suppressed := c.suppressed + 1 } }

/-- Write a record of a code. -/
def logCode (code origin : Nat) (arg : List (Nat × Nat × Nat)) (s : State) : State := logPut (mkRec code origin arg) s

/-- The life-cycle state as decoded at the last stage LC. -/
def lcIs (s : State) (x : LcState) : Bool := s.lc.decoded == x

/-- The backup-domain seconds counter as a number. -/
def seconds (s : State) : Nat := s.lko.seconds.toNat

/-- A Lookout FREEZE is in force while a source holds one (R500, R501). -/
def frozen (s : State) : Bool := s.lko.src.any (fun p => p.2.holding)

/-- A trusted restart is in progress. -/
def restarting (s : State) : Bool := s.start.restarting

/-- A lane's state; local lane 8 of a stand is its checker at reset (chapter 01, Stands). -/
def getLane (g : Nat) (s : State) : Lane := tgetD s.units.lanes g (if g % 9 = 8 then { state := .checker } else {})

/-- Replace a lane's state. -/
def setLane (g : Nat) (x : Lane) (s : State) : State := { s with units.lanes := tset s.units.lanes g x }

/-- A stand's shared state. -/
def getStand (st : Nat) (s : State) : Stand := tgetD s.units.stands st {}

/-- Replace a stand's shared state. -/
def setStand (st : Nat) (x : Stand) (s : State) : State := { s with units.stands := tset s.units.stands st x }

/-- The global numbers of a stand's nine lanes or cores. -/
def standUnits (st : Nat) : List Nat := (List.range 9).map (· + 9 * st)

/-- The ACTIVE lanes of a stand, in local order. -/
def activeLanes (st : Nat) (s : State) : List Nat := (standUnits st).filter (fun g => (getLane g s).state == .active)

/-- The checker lane of a stand, if it has one (R146). -/
def checkerOf (st : Nat) (s : State) : Option Nat := (standUnits st).find? (fun g => (getLane g s).state == .checker)

/-- A core's state; local core 8 of a stand is its spare at reset. -/
def getCore (c : Nat) (s : State) : Core := tgetD s.cores.cores c (if c % 9 = 8 then { state := .spare } else {})

/-- Replace a core's state. -/
def setCore (c : Nat) (x : Core) (s : State) : State := { s with cores.cores := tset s.cores.cores c x }

/-- The position a core fills, if any (R13). -/
def corePos (c : Nat) (s : State) : Option Nat :=
  match (getCore c s).state with
  | .spare | .isolated | .retired => none
  | _ => some ((getCore c s).pos.getD (c % 9))

/-- Whether a core is in service. -/
def coreActive (c : Nat) (s : State) : Bool := (corePos c s).isSome

/-- The cores of a stand that are in service. -/
def activeCores (st : Nat) (s : State) : List Nat := (standUnits st).filter (fun c => coreActive c s)

/-- Whether a core is of world U: its position is, under the map in force (R412, R413). -/
def coreU (c : Nat) (s : State) : Bool :=
  match corePos c s with
  | some p => bitOf s.world.map.core (8 * (c / 9) + p)
  | none => false

/-- A bank's state. -/
def getBank (b : Nat) (s : State) : Bank := tgetD s.units.banks b {}

/-- Replace a bank's state. -/
def setBank (b : Nat) (x : Bank) (s : State) : State := { s with units.banks := tset s.units.banks b x }

/-- A function's allotment. -/
def getAlloc (f : Fn) (s : State) : Alloc := tgetD s.allocs (fnKey f) {}

/-- Replace a function's allotment. -/
def setAlloc (f : Fn) (x : Alloc) (s : State) : State := { s with allocs := tset s.allocs (fnKey f) x }

/-- The function a code of R343 names. -/
def fnOfCode (n : Nat) : Option Fn :=
  if n < 4 then some (.pf n) else if 0x1000 ≤ n ∧ n < 0x2000 then some (.vf (n - 0x1000)) else none

/-- The code of R343 for a function. -/
def fnCode : Fn → Nat
  | .pf p => p
  | .vf n => 0x1000 + n

/-- The function a mailbox belongs to. -/
def mbFn : Mb → Fn
  | .pf p _ => .pf p
  | .vf n => .vf n

/-- The owner a mailbox acts for: the bound owner of a VF, and none, meaning any, of a PF (R95). -/
def mbOwner (mb : Mb) (s : State) : Option Nat :=
  match mb with
  | .pf _ _ => none
  | .vf n => (getAlloc (.vf n) s).owner

/-- The entry of an owner that is not FREE. -/
def getOwner (o : Nat) (s : State) : Option Owner := tget s.store.c.owners o

/-- Replace an owner's entry. -/
def setOwner (o : Nat) (x : Owner) (s : State) : State := { s with store.c.owners := tset s.store.c.owners o x }

/-- An interrupt line goes high (R423). -/
def raiseLine (n : Nat) (s : State) : State := { s with world.lines := addNew s.world.lines n }

/-- An interrupt line goes low. -/
def lowerLine (n : Nat) (s : State) : State := { s with world.lines := without s.world.lines n }

/-- Whether an owner is ACTIVE. -/
def ownerActive (o : Nat) (s : State) : Bool :=
  match getOwner o s with
  | some x => x.state == .active
  | none => false

end Sys2Proof.Machine
end

