-- ==== Sys2Proof/Machine/Crypto.lean ====
section
/-! DEFINITION. The outside standards' modes, built from the compression functions and block ciphers: digests, HMAC, key derivation, AES and TDEA modes (R131, R158, R164, R57). -/

namespace Sys2Proof.Machine

/-- Block bytes of a digest algorithm (R158). -/
def hashBlock (alg : Nat) : Nat := [64, 64, 64, 128, 128, 136, 104, 72].getD alg 64

/-- Digest bytes of an algorithm (R158). -/
def digestLen (alg : Nat) : Nat := [0, 28, 32, 48, 64, 32, 48, 64].getD alg 0

/-- Compress every full block of a text; the state and the bytes left over. -/
def absorb (alg : Nat) : Nat → Bytes → Bytes → Bytes × Bytes
  | 0, c, t => (c, t)
  | n + 1, c, t => if t.length < hashBlock alg then (c, t) else absorb alg n (compress alg c (t.take (hashBlock alg))) (t.drop (hashBlock alg))

/-- The padding of a message of n bytes whose last partial block holds k of them (R164). -/
def hashPad (alg n k : Nat) : Bytes :=
  let b := hashBlock alg
  if alg ≤ 4 then
    let l := if b = 64 then 8 else 16
    let z := (2 * b - k - 1 - l) % b
    [0x80] ++ List.replicate z 0 ++ beBytes l (8 * n)
  else if k + 1 = b then [0x86] else [0x06] ++ List.replicate (b - k - 2) 0 ++ [0x80]

/-- The digest of a message from a chaining state: `before` bytes are in the state, `text` follows. -/
def finish (alg : Nat) (chain : Bytes) (before : Nat) (text : Bytes) : Bytes :=
  let (c, r) := absorb alg (text.length + 1) chain text
  let (c, _) := absorb alg 3 c (r ++ hashPad alg (before + text.length) r.length)
  c.take (digestLen alg)

/-- A digest of R158. -/
def digest (alg : Nat) (m : Bytes) : Bytes := finish alg (hashIv alg) 0 m

/-- An HMAC key block: a key longer than the block is hashed first (R169). -/
def hmacBlock (alg : Nat) (key : Bytes) (pad : Byte) : Bytes :=
  (padTo (hashBlock alg) (if hashBlock alg < key.length then digest alg key else key)).map (· ^^^ pad)

/-- The inner chaining value of a key. -/
def hmacInner (alg : Nat) (key : Bytes) : Bytes := compress alg (hashIv alg) (hmacBlock alg key 0x36)

/-- The outer chaining value of a key. -/
def hmacOuter (alg : Nat) (key : Bytes) : Bytes := compress alg (hashIv alg) (hmacBlock alg key 0x5C)

/-- HMAC from its chaining values. -/
def hmacFrom (alg : Nat) (inner outer : Bytes) (before : Nat) (text : Bytes) : Bytes :=
  finish alg outer (hashBlock alg) (finish alg inner (hashBlock alg + before) text)

/-- HMAC (FIPS 198-1). -/
def hmac (alg : Nat) (key m : Bytes) : Bytes := hmacFrom alg (hmacInner alg key) (hmacOuter alg key) 0 m

/-- The counter block i steps after a first one, over its low w bits (R131). -/
def ctrBlock (first : Bytes) (w i : Nat) : Bytes :=
  let n := beNat first
  beBytes 16 (n / 2 ^ w * 2 ^ w + (n + i) % 2 ^ w)

/-- The keystream of n bytes from a counter block. -/
def keystream (key first : Bytes) (w n : Nat) : Bytes :=
  ((List.range ((n + 15) / 16)).map (fun i => aes key (ctrBlock first w i))).flatten.take n

/-- J0 of a 96-bit IV (R131). -/
def gcmJ0 (iv : Bytes) : Bytes := iv ++ [0, 0, 0, 1]

/-- GCM output bytes: the payload under the counter blocks after J0 (R131). -/
def gcmCrypt (key iv data : Bytes) : Bytes := xorBytes data (keystream key (ctrBlock (gcmJ0 iv) 32 1) 32 data.length)

/-- H of a key: its encryption of the zero block (R127). -/
def gcmH (key : Bytes) : Bytes := aes key (List.replicate 16 0)

/-- Blocks of n bytes of a text; the last may be short. -/
def blocksOf (n : Nat) (t : Bytes) : List Bytes := (List.range ((t.length + n - 1) / n)).map (fun i => (t.drop (n * i)).take n)

/-- GHASH over AAD and ciphertext, each padded with zeros to whole blocks, and the block of their lengths in bits (R125, R133). -/
def ghash (h aad ct : Bytes) : Bytes :=
  (blocksOf 16 aad ++ blocksOf 16 ct ++ [beBytes 8 (8 * aad.length) ++ beBytes 8 (8 * ct.length)]).foldl
    (fun y b => gmul (xorBytes y (padTo 16 b)) h) (List.replicate 16 0)

/-- The 16-byte GCM tag over AAD and ciphertext (R131, R135). -/
def gcmTag (key iv aad ct : Bytes) : Bytes := xorBytes (aes key (gcmJ0 iv)) (ghash (gcmH key) aad ct)

/-- Doubling of a CMAC subkey in a block of n bytes. -/
def cmacDouble (n : Nat) (k : Bytes) : Bytes :=
  let v := beNat k
  let d := 2 * v % 2 ^ (8 * n)
  beBytes n (if 2 ^ (8 * n - 1) ≤ v then d ^^^ (if n = 16 then 0x87 else 0x1B) else d)

/-- CMAC with a block cipher of n-byte blocks (R131). -/
def cmac (n : Nat) (enc : Bytes → Bytes) (m : Bytes) : Bytes :=
  let k1 := cmacDouble n (enc (List.replicate n 0))
  let whole := m.length != 0 && m.length % n == 0
  let last := if whole then m.drop (m.length - n) else
    let r := m.drop (m.length / n * n)
    r ++ [0x80] ++ List.replicate (n - r.length - 1) 0
  let init := m.take (m.length - (if whole then n else m.length % n))
  let c := (blocksOf n init).foldl (fun c b => enc (xorBytes c b)) (List.replicate n 0)
  enc (xorBytes c (xorBytes last (if whole then k1 else cmacDouble n k1)))

/-- AES-CMAC. -/
def aesCmac (key m : Bytes) : Bytes := cmac 16 (aes key) m

/-- SP 800-108 in counter mode: PRF 0 HMAC-SHA-256, 1 AES-CMAC, a 32-bit counter before the fixed input (R57). -/
def kdf (n prf : Nat) (key fixed : Bytes) : Bytes :=
  let f (i : Nat) : Bytes := let t := beBytes 4 (i + 1) ++ fixed; if prf = 0 then hmac 2 key t else aesCmac key t
  ((List.range (n / 16 + 1)).map f).flatten.take n

/-- Symmetric key wrap by mode: 1 AES-KW, 2 AES-KWP, 3 TKW (R59, R305). -/
def keyWrap (mode : Nat) (kek d : Bytes) : Bytes :=
  match mode with
  | 1 => kwWrap 8 (aes kek) d
  | 2 => kwpWrap (aes kek) d
  | _ => kwWrap 4 (tdea kek) d

/-- Its inverse: none where the integrity check fails. -/
def keyUnwrap (mode : Nat) (kek d : Bytes) : Option Bytes :=
  match mode with
  | 1 => kwUnwrap 8 (aesInv kek) d
  | 2 => kwpUnwrap (aesInv kek) d
  | _ => kwUnwrap 4 (tdeaInv kek) d

/-- SHA-256 of a text, ALG 2 of R158. -/
def sha256 (m : Bytes) : Bytes := digest 2 m

end Sys2Proof.Machine
end

