-- ==== Sys2Proof/Machine/Cold.lean ====
section
/-! DEFINITION. The device's own secrets, key records as bytes, the sealed cold store, and what a journal block and a commit record hold (R52, R56, R62, R75, R77). -/

namespace Sys2Proof.Machine

/-- A key derived inside the device: the functions of R56 are not given, so each is uninterpreted. -/
def deviceKey (n : Nat) (inputs : List Bytes) : Bytes := prim n .mac inputs

/-- The device root secret that an enrolment of the PUF gives (R56, R480). -/
def rootSecret (enrolled : Nat) : Bytes := prim 32 .puf [leBytes 8 enrolled]

/-- Stage ROOT: the root secret is rebuilt, and the Heartwood derives the store KEK and the commit MAC key (R56, R445). -/
def rebuildRoot (nonce : Bytes) (s : State) : State :=
  let r := rootSecret s.lc.enrolled
  let k := deviceKey 32 [r, [1]]
  { s with vault := { s.vault with root := r, kek := k, commitKey := deviceKey 16 [k, [2]], nonce := nonce } }

/-- A delivery over the key wire: the KEK as two shares under a fresh mask, and the boot nonce; the engine derives its keys (R56). -/
def deliverKek (mask : Bytes) (s : State) : State :=
  let v := s.vault
  let k := xorBytes mask (xorBytes v.kek mask)
  { s with vault := { v with
      wireA := mask, wireB := xorBytes v.kek mask, journalKey := deviceKey 32 [k, [3]], hbmKey := deviceKey 32 [k, v.nonce, [4]]
      scramble := deviceKey 16 [k, v.nonce, [5]] } }

/-- STATE of a record (R52). -/
def keyStateCode : KeyState → Nat
  | .active => 1
  | .revoking => 2
  | .exhausted => 3

/-- Bytes 0x00-0x3F of a record (R52). -/
def recordBytes (slot : Nat) (k : KeyRec) : Bytes :=
  layout 64 [(0, 2, 1), (2, 1, keyStateCode k.state), (3, 1, k.type), (4, 4, k.owner), (8, 4, k.gen), (0x0C, 2, k.length), (0x0E, 1, k.purpose),
    (0x0F, 1, k.slots), (0x10, 4, k.policy), (0x14, 4, k.attr), (0x18, 4, k.uses), (0x1C, 4, k.ivFixed), (0x20, 8, k.invocation),
    (0x28, 8, k.ceiling), (0x30, 2, k.saBound), (0x32, 1, k.origin), (0x38, 8, k.createSeq)]

/-- MATERIAL: share A, share B, then any public material; ML-KEM and ML-DSA records with private material keep only their seeds (R52, R53). -/
def recordMaterial (k : KeyRec) : Bytes := k.shareA ++ k.shareB ++ (if 0x30 ≤ k.type && !k.shareA.isEmpty then [] else k.pub)

/-- The 256 bytes of the i-th slot of a record (R52). -/
def slotText (slot : Nat) (k : KeyRec) (i : Nat) : Bytes :=
  if i = 0 then recordBytes slot k ++ padTo 192 ((recordMaterial k).take 192)
  else layout 16 [(0, 2, 1), (2, 1, 4), (3, 1, i), (4, 4, k.owner), (8, 4, k.gen), (0x0C, 4, slot)] ++
    padTo 240 (((recordMaterial k).drop (192 + 240 * (i - 1))).take 240)

/-- A slot is sealed under its next write counter: AES-256 in counter mode under the HBM sealing key, and a 64-bit MAC; the counter block and the MAC are not given (R62, log entry 151). -/
def sealSlot (key : Bytes) (slot : Nat) (text : Bytes) (old : ColdSlot) : ColdSlot :=
  let n := old.count + 1
  let c := xorBytes text (keystream key (beBytes 4 slot ++ beBytes 8 n.toNat ++ [0, 0, 0, 0]) 32 text.length)
  { count := n, sealed := c, mac := prim 8 .mac [key, leBytes 4 slot, leBytes 8 n.toNat, c] }

/-- A sealed slot that verifies under the sealing key (R62). -/
def coldOk (key : Bytes) (slot : Nat) (x : ColdSlot) : Bool := x.mac == prim 8 .mac [key, leBytes 4 slot, leBytes 8 x.count.toNat, x.sealed]

/-- The slots of a record are written, each sealed anew (R62). -/
def coldPut (key : Bytes) (slot : Nat) (k : KeyRec) (t : Tab ColdSlot) : Tab ColdSlot :=
  (List.range k.slots).foldl (fun t i => tset t (slot + i) (sealSlot key (slot + i) (slotText slot k i) (tgetD t (slot + i) {}))) t

/-- The slots of a record that is gone are overwritten (step 4 of R82). -/
def coldWipe (key : Bytes) (slot : Nat) (k : KeyRec) (t : Tab ColdSlot) : Tab ColdSlot :=
  (List.range k.slots).foldl (fun t i => tset t (slot + i) (sealSlot key (slot + i) (List.replicate 256 0) (tgetD t (slot + i) {}))) t

/-- The cold store after the records change: every slot of a record written or gone (R62). -/
def coldWrites (key : Bytes) (old new : Tab KeyRec) (t : Tab ColdSlot) : Tab ColdSlot :=
  let t := old.foldl (fun t p => if (tget new p.1).isSome then t else coldWipe key p.1 p.2 t) t
  new.foldl (fun t p => if tget old p.1 = some p.2 then t else coldPut key p.1 p.2 t) t

/-- Level l of the counter tree, 0 the root: its nodes (R62). -/
def counterNodes (l : Nat) : Nat := [1, 2, 16, 128, 1024, 8192, 65536, 524288, 4194304].getD l 0

/-- The count a tree node carries: the writes of every slot below it (R62). -/
def counterSum (l i : Nat) (t : Tab ColdSlot) : Nat :=
  let span := 33554432 / max 1 (counterNodes l)
  ((t.filter (fun p => p.1 / span == i)).map (fun p => p.2.count.toNat)).foldl (· + ·) 0

/-- The records of the store change, and the sealed slots with them. -/
def putKeys (ks : Tab KeyRec) (s : State) : State :=
  { s with store.c.keys := ks, store.cold := coldWrites s.vault.hbmKey s.store.c.keys ks s.store.cold }

/-- What two tables differ in, entry by entry. -/
def tabDelta {α : Type} [DecidableEq α] (enc : Nat → α → Bytes) (old new : Tab α) : Bytes :=
  ((new.filter (fun p => tget old p.1 ≠ some p.2)).map (fun p => leBytes 4 p.1 ++ enc p.1 p.2)).flatten ++
  ((old.filter (fun p => (tget new p.1).isNone)).map (fun p => leBytes 4 p.1 ++ [0xFF])).flatten

/-- The change between two contents, as the entries of a journal block carry it; their format is not in the source (R75, log entry 26). -/
def contentDelta (a b : Content) : Bytes :=
  tabDelta (fun n k => recordBytes n k ++ recordMaterial k) a.keys b.keys ++
  tabDelta (fun _ k => leBytes 4 k.owner ++ leBytes 8 k.value ++ leBytes 8 k.ceiling) a.counters b.counters ++
  tabDelta (fun _ o => leBytes 4 o.adminPolicy ++ leBytes 8 o.domainId ++ leBytes 4 o.keyQuota ++ o.root) a.owners b.owners ++
  tabDelta (fun _ c => leBytes 1 c.alg ++ leBytes 4 c.owner ++ c.label ++ c.key) a.creds b.creds ++
  tabDelta (fun _ p => leBytes 4 p.owner ++ leBytes 1 p.m ++ leBytes 1 p.n ++ leBytes 4 p.extra ++ (p.creds.map (leBytes 4)).flatten) a.policies b.policies ++
  tabDelta (fun _ g => leBytes 4 g) a.gens b.gens

/-- A page of the cold store, 256 slots; the pages of the other tables take their entries (R75). -/
def pageText (page : Nat) (c : Content) : Bytes :=
  if page < 131072 then
    ((List.range 256).map (fun i =>
      let n := 256 * page + i
      match c.keys.find? (fun p => p.1 ≤ n && n < p.1 + p.2.slots) with
      | some p => slotText p.1 p.2 (n - p.1)
      | none => List.replicate 256 0)).flatten
  else contentDelta {} { c with keys := [], gens := [] }

/-- LENGTH of a block. -/
def blockLen (d : JDesc) : Nat := if d.page.isSome then 65600 else 4096

/-- The clear header of a block (R75). -/
def blockHead (seq : Nat) (d : JDesc) (s : State) : Bytes :=
  layout 48 [(0, 2, 1), (2, 2, if d.page.isSome then 2 else 1), (4, 4, blockLen d), (8, 8, seq), (0x10, 8, s.ident.deviceRef),
    (0x18, 4, d.epoch), (0x1C, 4, d.page.getD 0)]

/-- The body of a block: the previous head hash, then the entries or the page. How entries fill it, and how a whole page stands beside the hash, is not in the source (R75, log entry 26). -/
def blockBody (d : JDesc) : Bytes :=
  padTo 32 (d.headIn.take 32) ++ prim (blockLen d - 96) .seal [match d.page with | some p => pageText p d.after | none => d.text]

/-- The IV of a block: 32 zero bits, then SEQ big-endian (R75). -/
def blockIv (seq : Nat) : Bytes := [0, 0, 0, 0] ++ beBytes 8 seq

/-- The bytes of a block: the clear header, the body under AES-256-GCM with the journal key and the header as AAD, the tag (R75). -/
def blockBytes (seq : Nat) (d : JDesc) (s : State) : Bytes :=
  let h := blockHead seq d s
  let c := gcmCrypt s.vault.journalKey (blockIv seq) (blockBody d)
  h ++ c ++ gcmTag s.vault.journalKey (blockIv seq) h c

/-- The head hash after a block: SHA-256 of the one before it and the block (R75). -/
def headAfter (seq : Nat) (d : JDesc) (s : State) : Bytes := sha256 (padTo 32 (d.headIn.take 32) ++ blockBytes seq d s)

/-- The head hash after the block of a SEQ; zeros before the first block (R75). -/
def headOf (seq : Nat) (s : State) : Bytes :=
  match tget s.store.hist seq with
  | some d => headAfter seq d s
  | none => List.replicate 32 0

/-- The 64-byte commit record of a COMMIT_NO and a JOURNAL_SEQ (R77). -/
def commitRecord (no seq : Nat) (s : State) : Bytes :=
  let r := leBytes 8 no ++ leBytes 8 seq ++ headOf seq s ++ leBytes 4 0 ++ leBytes 4 s.store.epoch
  r ++ (aesCmac s.vault.commitKey r).take 8

/-- HEAD_HASH of a commit record (R77). -/
def commitHead (r : Bytes) : Bytes := slice r 0x10 32

end Sys2Proof.Machine
end

