-- ==== Sys2Proof/Machine/Entropy.lean ====
section
/-! DEFINITION. Raw bits, their tests and conditioning, and the words that the banks serve over their wires (R204-R221). -/

namespace Sys2Proof.Machine

/-- The stands. -/
def stands : List Nat := List.range 8

/-- The number of the Heartwood's early source among the banks (R215). -/
def earlyBank : Nat := 8

/-- Noise cells of a bank: 64, and 8 of the early source (R204, R215). -/
def cellCount (b : Nat) : Nat := if b = earlyBank then 8 else 64

/-- Samples of an adaptive-proportion window: 1,024 raw bits (R208, R215). -/
def windowSamples (b : Nat) : Nat := 1024 / cellCount b

/-- A sample's raw bits, cell 0 first (R204). -/
def sampleBits (cells sample : Nat) : List Bool := (List.range cells).map (fun i => sample.testBit i)

/-- A cell's run after its next raw bit (R207). -/
def runStep (r : Bool × Nat) (b : Bool) : Bool × Nat := if r.1 == b && r.2 != 0 then (b, r.2 + 1) else (b, 1)

/-- The runs of a bank's cells, none begun where it has yielded no sample. -/
def cellRuns (b : Nat) (k : Bank) : List (Bool × Nat) := if k.cells.isEmpty then List.replicate (cellCount b) (false, 0) else k.cells

/-- The repetition-count test over samples: every cell's run at the end, the longest run met, and the first cell whose run reaches 41 (R207). -/
def repetition (cells : Nat) : List Nat → List (Bool × Nat) → Nat × Option Nat → List (Bool × Nat) × Nat × Option Nat
  | [], rs, r => (rs, r)
  | x :: xs, rs, (m, f) =>
    let rs := (rs.zip (sampleBits cells x)).map (fun p => runStep p.1 p.2)
    let m := (rs.map (·.2)).foldl max m
    repetition cells xs rs (m, f.orElse (fun _ => rs.findIdx? (fun p => decide (41 ≤ p.2))))

/-- The adaptive-proportion count: the bits of a window that equal its first (R208). -/
def proportion (cells : Nat) (samples : List Nat) : Nat :=
  let bs := (samples.map (sampleBits cells)).flatten
  bs.countP (· == bs.head?.getD false)

/-- The cut-off of the adaptive-proportion test (R208). -/
def aptCut : Nat := 795

/-- Conditioned bits of the samples of a window, pair period by pair period in cell order: XOR pair, or von Neumann (R205). -/
def condition (vonNeumann : Bool) (cells : Nat) : List Nat → List Bool
  | a :: b :: r =>
    let ps := (sampleBits cells a).zip (sampleBits cells b)
    (if vonNeumann then ps.filterMap (fun p => if p.1 == p.2 then none else some p.1) else ps.map (fun p => p.1 ^^ p.2)) ++ condition vonNeumann cells r
  | _ => []

/-- The number bits spell, the earliest in bit 0. -/
def bitsNat : List Bool → Nat
  | [] => 0
  | b :: r => b2n b + 2 * bitsNat r

/-- Whole 64-bit words of a run of bits, and what is left over (R205). -/
def packWords : Nat → List Bool → List DWord × List Bool
  | 0, bs => ([], bs)
  | n + 1, bs =>
    if bs.length < 64 then ([], bs)
    else let r := packWords n (bs.drop 64); (BitVec.ofNat 64 (bitsNat (bs.take 64)) :: r.1, r.2)

/-- The partner of a stand in its pair (R219). -/
def partnerOf (st : Nat) : Nat := if st % 2 = 0 then st + 1 else st - 1

/-- A bank delivers. -/
def delivers (b : Nat) (s : State) : Bool := (getBank b s).state == .delivering

/-- The wires of a stand receive random bits: its bank delivers, or its partner's does (R214, R219). -/
def standEntropy (st : Nat) (s : State) : Bool := delivers st s || delivers (partnerOf st) s

/-- Some Canopy bank delivers conditioned bits (R58, R215, R219). -/
def entropyOk (s : State) : Bool := stands.any (fun b => delivers b s)

/-- A wire of a stand. -/
def getFeed (st w : Nat) (s : State) : Feed := tgetD (getBank st s).feeds w {}

/-- Replace a wire of a stand. -/
def setFeed (st w : Nat) (f : Feed) (s : State) : State := setBank st { getBank st s with feeds := tset (getBank st s).feeds w f } s

/-- A word reaches a consumer. -/
def Feed.give (f : Feed) (x : DWord) : Feed := { got := f.got ++ [x], want := f.want - 1 }

/-- Words a number of bytes takes. -/
def wordsFor (n : Nat) : Nat := (n + 7) / 8

/-- The bytes of n that a consumer holds, if it holds them all. -/
def Feed.bytes (n : Nat) (f : Feed) : Option Bytes :=
  if wordsFor n ≤ f.got.length then some ((((f.got.take (wordsFor n)).map (fun w => leBytes 8 w.toNat)).flatten).take n) else none

/-- The words of n bytes are used up, and given to nobody else (R206). -/
def Feed.drop (n : Nat) (f : Feed) : Feed := { f with got := f.got.drop (wordsFor n), want := 0 }

/-- A consumer asks for the words it lacks of n bytes. -/
def Feed.ask (n : Nat) (f : Feed) : Feed := { f with want := max f.want (wordsFor n - f.got.length) }

/-- A consumer asks its wire for n bytes. -/
def askWire (st w n : Nat) (s : State) : State := setFeed st w ((getFeed st w s).ask n) s

/-- A consumer's draw of n bytes from its wire: the bytes, or the request for what it lacks (R206, R216). -/
def takeWire (st w n : Nat) (s : State) : Option Bytes × State :=
  match (getFeed st w s).bytes n with
  | some d => (some d, setFeed st w ((getFeed st w s).drop n) s)
  | none => (none, askWire st w n s)

/-- The Sapwood controller asks for n bytes. -/
def askSap (n : Nat) (s : State) : State := { s with units.sapFeed := s.units.sapFeed.ask n }

/-- The Sapwood controller's draw (R58, R216). -/
def takeSap (n : Nat) (s : State) : Option Bytes × State :=
  match s.units.sapFeed.bytes n with
  | some d => (some d, { s with units.sapFeed := s.units.sapFeed.drop n })
  | none => (none, askSap n s)

/-- The Heartwood's draw (R215, R216). -/
def takeHeart (n : Nat) (s : State) : Option Bytes × State :=
  let f := s.units.heartFeed
  match f.bytes n with
  | some d => (some d, { s with units.heartFeed := f.drop n })
  | none => (none, { s with units.heartFeed := f.ask n })

/-- The software port that the Warden's firmware uses: the first of world T that holds n bytes, else the first that bits are delivered to (log entry 150). -/
def wardenPort (n : Nat) (s : State) : Nat :=
  let ps := stands.filter (fun st => !bitOf s.world.map.port st)
  ((ps.find? (fun st => ((getFeed st 5 s).bytes n).isSome)).orElse (fun _ => ps.find? (fun st => standEntropy st s))).getD 0

/-- A draw of the Warden's firmware, or of a service core for it, from a software port's reservoir (R58, chapter 08's Software port). -/
def takeWarden (n : Nat) (s : State) : Option Bytes × State := takeWire (wardenPort n s) 5 n s

/-- A draw of n bytes from the Warden's port and m of the Sapwood controller at once, or neither. -/
def takeBoth (n m : Nat) (s : State) : Option (Bytes × Bytes) × State :=
  match (getFeed (wardenPort n s) 5 s).bytes n, s.units.sapFeed.bytes m with
  | some a, some b => (some (a, b), (takeSap m (takeWarden n s).2).2)
  | _, _ => (none, askSap m (askWire (wardenPort n s) 5 n s))

/-- Random bits for a new key: its material and the mask of its shares. Symmetric keys draw both in the Sapwood controller; a service core draws an asymmetric key's material from a software port (R58). -/
def takeKeyBits (asym : Bool) (n : Nat) (s : State) : Option (Bytes × Bytes) × State :=
  if asym then takeBoth n n s
  else match takeSap (2 * n) s with
  | (some d, s) => (some (d.take n, d.drop n), s)
  | (none, s) => (none, s)

/-- Words the port of a stand needs of wire 5: those asked for, or those its oldest request lacks (R218, R221). -/
def portNeed (st : Nat) (s : State) : Nat :=
  max (getFeed st 5 s).want (((getBank st s).queue.head?.map (·.count)).getD 0 - (getFeed st 5 s).got.length)

/-- The bank that a consumer's turn over the delivering banks is at (R216). -/
def turnBank (t : Nat) (s : State) : Option Nat := ((List.range 8).map (fun i => (t + i) % 8)).find? (fun b => delivers b s)

/-- Who may ask a bank for its next word beside re-masking: a wire 1 to 3 or 5 of a stand, a stand's context key, the Sapwood controller, the Heartwood (R216). -/
inductive Asker where
  | wire (st w : Nat)
  | key (st : Nat)
  | sap
  | heart
  deriving DecidableEq, Repr

/-- The requesters of a bank's round robin in order: its stand's wires, then its partner's if that is not delivering (R218, R219). -/
def askers (b : Nat) (s : State) : List Asker :=
  let own (st : Nat) : List Asker := [.wire st 1, .wire st 2, .wire st 3, .key st, .wire st 5]
  own b ++ [.sap, .heart] ++ (if delivers (partnerOf b) s then [] else own (partnerOf b))

/-- A requester wants a word of a bank now. -/
def asks (b : Nat) (s : State) : Asker → Bool
  | .wire st w => if w = 5 then portNeed st s != 0 else (getFeed st w s).want != 0
  | .key st => (getStand st s).ctxKey.length < 32
  | .sap => s.units.sapFeed.want != 0 && turnBank s.units.sapTurn s == some b
  | .heart => s.units.heartFeed.want != 0 && turnBank s.units.heartTurn s == some b

/-- A requester receives a word. -/
def giveWord (b : Nat) (x : DWord) (s : State) : Asker → State
  | .wire st w => setFeed st w ((getFeed st w s).give x) s
  | .key st => setStand st { getStand st s with ctxKey := (getStand st s).ctxKey ++ leBytes 8 x.toNat } s
  | .sap => { s with units.sapFeed := s.units.sapFeed.give x, units.sapTurn := (b + 1) % 8 }
  | .heart => { s with units.heartFeed := s.units.heartFeed.give x, units.heartTurn := (b + 1) % 8 }

/-- Words of a full reservoir: 4 KiB (R221). -/
def reservoirWords : Nat := 512

/-- Re-masking has had fewer than 48 of the bank's last 64 words (R218). -/
def remaskShare (k : Bank) : Bool := decide ((k.last.take 64).count true < 48)

/-- A bank serves one word: to re-masking within its share, else to the next requester, else to the reservoir of its port, else to nobody (R218). -/
def serveWord (b : Nat) (x : DWord) (s : State) : State :=
  let k := getBank b s
  let note (mask : Bool) (s : State) : State := setBank b { getBank b s with last := (mask :: k.last).take 64 } s
  if (getFeed b 6 s).want ≠ 0 ∧ remaskShare k then note true (setFeed b 6 ((getFeed b 6 s).give x) s)
  else
    let l := askers b s
    let i := k.turn % l.length
    match (l.drop i ++ l.take i).find? (asks b s) with
    | some a => let s := note false (giveWord b x s a); setBank b { getBank b s with turn := (l.idxOf a + 1) % l.length } s
    | none =>
      let f := getFeed b 5 s
      note false (if f.got.length < reservoirWords then setFeed b 5 (f.give x) s else s)

/-- The early source's words go to the Heartwood while no bank delivers to it; the rest is discarded (R215). -/
def serveEarly (x : DWord) (s : State) : State :=
  if s.units.heartFeed.want ≠ 0 && !entropyOk s then { s with units.heartFeed := s.units.heartFeed.give x } else s

/-- The conditioned bits of a closed window are released, word by word, and counted (R205, R209, R218). -/
def releaseWindow (b : Nat) (bits : List Bool) (s : State) : State :=
  let k := getBank b s
  let (ws, r) := packWords (k.part.length + bits.length) (k.part ++ bits)
  let s := setBank b { k with part := r, outBits := k.outBits + BitVec.ofNat 64 bits.length } s
  ws.foldl (fun s x => if b = earlyBank then serveEarly x s else serveWord b x s) s

/-- A bank's held bits and its port's reservoir are zeroised (R225). -/
def zeroBank (k : Bank) : Bank := { k with part := [], feeds := tmod k.feeds 5 (fun f => { f with got := [] }) }

end Sys2Proof.Machine
end

