-- ==== Sys2Proof/Machine/Huc.lean ====
section
/-! DEFINITION. The queues of the hardened unwrap cores (R145, R536). -/

namespace Sys2Proof.Machine

/-- A HUC is in service somewhere (R536). -/
def hucInService (s : State) : Bool := stands.any (fun st => !(getStand st s).hucIsolated)

/-- The HUC that serves a stand's requests: its own, its partner's, or the lowest in service (R536). -/
def hucFor (st : Nat) (s : State) : Option Nat :=
  let ok (k : Nat) : Bool := !(getStand k s).hucIsolated
  if ok st then some st else if ok (partnerOf st) then some (partnerOf st) else stands.find? ok

/-- Requests a HUC queues (R145). -/
def hucDepth : Nat := 16

/-- Requests that wait at their sources move into the room a queue has, in the order they came (R145). -/
def hucFill (x : Stand) : Stand :=
  let n := hucDepth - x.hucQueue.length
  { x with hucQueue := x.hucQueue ++ x.hucHeld.take n, hucHeld := x.hucHeld.drop n }

/-- Bytes of random bits that a block slot takes, drawn before it begins (R143, R144). -/
def hucBits : Nat := 64

/-- Requests reach a HUC: queued in arrival order, or waiting at their sources; wire 3 is asked for the next block's bits (R143-R145). -/
def hucTake (h : Nat) (rs : List HucReq) (s : State) : State :=
  let x := getStand h s
  if rs.isEmpty then s else askWire h 3 hucBits (setStand h (hucFill { x with hucHeld := x.hucHeld ++ rs }) s)

/-- A request reaches a HUC (R145). -/
def hucPut (h : Nat) (src : HucSrc) (blocks : Nat) (s : State) : State := hucTake h [{ src := src, left := blocks }] s

/-- Some HUC still works, or is to work, for a source. -/
def hucBusy (r : HucSrc) (s : State) : Bool := s.units.stands.any (fun p => (p.2.hucQueue ++ p.2.hucHeld).any (fun q => q.src == r))

/-- Requests leave a stand's HUC; the turn of those that stay is kept (R145). -/
def hucKeep (keep : HucReq → Bool) (x : Stand) : Stand :=
  hucFill { x with
    hucQueue := x.hucQueue.filter keep, hucHeld := x.hucHeld.filter keep, hucNext := ((x.hucQueue.take x.hucNext).filter keep).length }

/-- A source's request leaves its HUC at the next block boundary (R145). -/
def hucDrop (r : HucSrc) (s : State) : State := { s with units.stands := tmap s.units.stands (fun _ x => hucKeep (fun q => q.src != r) x) }

/-- The block slot of a HUC's request at hand ends; the next request is served round robin (R142, R145). -/
def hucTurn (x : Stand) : Stand :=
  let i := x.hucNext % max 1 x.hucQueue.length
  match x.hucQueue[i]? with
  | none => x
  | some r =>
    if r.left ≤ 1 then hucFill { x with hucQueue := x.hucQueue.eraseIdx i, hucNext := i }
    else { x with hucQueue := x.hucQueue.set i { r with left := r.left - 1 }, hucNext := i + 1 }

/-- Block operations that wrap or unwrap n semiblocks (R142). -/
def wrapBlocks (n : Nat) : Nat := 6 * n

end Sys2Proof.Machine
end

