-- ==== Sys2Proof/Machine/Status.lean ====
section
/-! DEFINITION. The status codes of R291 and the info flags of R290. -/

namespace Sys2Proof.Machine.St

def ok : Nat := 0x0000
def opcodeUnknown : Nat := 0x0101
def headerInvalid : Nat := 0x0102
def fieldInvalid : Nat := 0x0103
def lengthInvalid : Nat := 0x0104
def queueInvalid : Nat := 0x0105
def descriptorInvalid : Nat := 0x0106
def listInvalid : Nat := 0x0107
def requestStale : Nat := 0x0108
def requestConflict : Nat := 0x0109
def requestIdRange : Nat := 0x010A
def decimalInvalid : Nat := 0x0110
def scaleInvalid : Nat := 0x0111
def pinBlockInvalid : Nat := 0x0112
def handleInvalid : Nat := 0x0201
def keyTypeMismatch : Nat := 0x0202
def keyStale : Nat := 0x0203
def keyRevoked : Nat := 0x0204
def keyExhausted : Nat := 0x0205
def purposeDenied : Nat := 0x0206
def keyBound : Nat := 0x0207
def unwrapFailed : Nat := 0x0208
def storeFull : Nat := 0x0209
def quorumMissing : Nat := 0x0301
def tokenExpired : Nat := 0x0302
def exportDenied : Nat := 0x0303
def approvalInvalid : Nat := 0x0304
def ownerDenied : Nat := 0x0305
def policyInvalid : Nat := 0x0306
def evidenceRejected : Nat := 0x0307
def functionDenied : Nat := 0x0308
def creditExhausted : Nat := 0x0401
def storeWorn : Nat := 0x0402
def quotaExceeded : Nat := 0x0403
def approvalsFull : Nat := 0x0404
def domainClosed : Nat := 0x0405
def ringBusy : Nat := 0x0406
def destTooSmall : Nat := 0x0501
def gatherFault : Nat := 0x0502
def laneFault : Nat := 0x0503
def tagMismatch : Nat := 0x0504
def timeout : Nat := 0x0505
def engineFault : Nat := 0x0506
def signatureInvalid : Nat := 0x0507
def pointInvalid : Nat := 0x0508
def indeterminate : Nat := 0x0601
def deviceRestarting : Nat := 0x0602
def modeDenied : Nat := 0x0603
def storeLoading : Nat := 0x0604
def storeRecoveryFailed : Nat := 0x0605
def stateConflict : Nat := 0x0606
def entropyUnavailable : Nat := 0x0701

/-- INFO flags (R290). -/
def durable : Nat := 0x01
def redispatched : Nat := 0x02
def unverified : Nat := 0x04
def replayed : Nat := 0x08
def entryAborted : Nat := 0x10
def partialOutput : Nat := 0x20
def retried : Nat := 0x40

end Sys2Proof.Machine.St
end

