-- ==== Sys2Proof/Machine/Wear.lean ====
section
/-! DEFINITION. Wear of the COMMIT partition (R539-R541). -/

namespace Sys2Proof.Machine

/-- U, the usable pages: the ring and the spares (R540). -/
def commitU (c : CommitPart) : Nat := c.ring.length + c.spares.length

/-- The page at the ring position in use retires: the lowest spare takes its place, or the ring shrinks and the page that followed is the one in use (R540). -/
def commitRetire (c : CommitPart) : CommitPart :=
  match c.spares with
  | sp :: r => { c with ring := c.ring.set c.cur sp, spares := r }
  | [] =>
    let ring := c.ring.eraseIdx c.cur
    { c with ring := ring, cur := if ring.length ≤ c.cur then 0 else c.cur }

/-- The page at the ring position in use is erased before it takes its first record; one that reaches 100,000 erases retires and the page now there is tried. The page with the newest record is never erased: then no free slot remains (R540, R541). -/
def commitPrepare (no : Nat) : Nat → CommitPart → CommitPart
  | 0, c => { c with stopped := true }
  | k + 1, c =>
    match c.ring[c.cur]? with
    | none => { c with stopped := true }
    | some p =>
      if c.last = some p then { c with stopped := true }
      else
        let n := tgetD c.erase p 0 + 1
        let c := { c with slot := 0, erase := tset c.erase p n, first := tset c.first p no }
        if n < 100000 then c else commitPrepare no k (commitRetire c)

/-- Move to the next ring page (R540). -/
def commitAdvance (no : Nat) (c : CommitPart) : CommitPart :=
  commitPrepare no (commitU c + 1) { c with cur := (c.cur + 1) % c.ring.length }

/-- The record stands in the next free slot. -/
def commitPut (c : CommitPart) : CommitPart :=
  if c.stopped then c else { c with slot := c.slot + 1, last := c.ring[c.cur]? }

/-- A commit record with a COMMIT_NO takes the next free slot; a page that fails its verify retires and the record is retried in the next slot (R540). The second component is true when a page retired. -/
def commitAppend (ok : Bool) (no : Nat) (c : CommitPart) : CommitPart × Bool :=
  let c := if c.slot < 32 then c else commitAdvance no c
  if c.stopped || ok then (commitPut c, false)
  else (commitPut (commitPrepare no (commitU c + 1) (commitRetire c)), true)

/-- The pages of a list take one more erase each. -/
def eraseAll (ps : List Nat) (e : Tab Nat) : Tab Nat := ps.foldl (fun e p => tset e p (tgetD e p 0 + 1)) e

/-- The whole partition is erased at stage LC: every usable page takes one more erase, a page that reaches 100,000 retires, no record stands (R480, R539, R540). -/
def commitErase (c : CommitPart) : CommitPart :=
  let e := eraseAll (c.ring ++ c.spares) c.erase
  let worn (p : Nat) : Bool := decide (100000 ≤ tgetD e p 0)
  let c := { c with erase := e, first := [], spares := c.spares.filter (fun p => !worn p) }
  let c := (List.range c.ring.length).reverse.foldl (fun c i => if worn (c.ring.getD i 0) then commitRetire { c with cur := i } else c) c
  { c with cur := 0, slot := 0, last := none, stopped := c.ring.isEmpty }

/-- FBK_COMMIT (chapter 19, Registers). -/
def fbkCommitWord (c : CommitPart) : Nat :=
  c.ring.length + 2 ^ 10 * c.spares.length +
    2 ^ 18 * min 16383 ((c.ring.map (fun p => tgetD c.erase p 0)).foldl max 0 / 1000)

end Sys2Proof.Machine
end

