-- ==== Sys2Proof/Machine/Mode.lean ====
section
/-! DEFINITION. Choosing the operating mode, and what each mode permits (chapter 02). -/

namespace Sys2Proof.Machine

/-- How many low segments of a state's codeword read 0x0000 (R469). -/
def lcZeros : LcState → Nat
  | .blank => 0
  | .test => 2
  | .personalise => 4
  | .production => 6
  | .returned => 7
  | .scrapped => 8
  | .invalid => 0

/-- The codeword of a state (R469). -/
def lcWord (c : LcState) : BitVec 128 := BitVec.allOnes 128 <<< (16 * lcZeros c)

/-- The state a copy names, if it is a valid codeword (R469). -/
def lcOfWord (w : BitVec 128) : Option LcState :=
  [LcState.blank, .test, .personalise, .production, .returned, .scrapped].find? (fun c => lcWord c == w)

/-- The last journal entry that is not damaged (R473, R474). -/
def lcLast (j : List LcEntry) : Option LcEntry := (j.filter (fun e => !e.damaged)).getLast?

/-- The open transition, if there is one (R474). -/
def lcOpen (j : List LcEntry) : Option LcEntry :=
  match lcLast j with
  | some e => if e.isEnd then none else some e
  | none => none

/-- The state decoded from the copies and the journal (R471). -/
def lcDecode (l : LifeCycle) : LcState :=
  match l.copies.map lcOfWord with
  | [some a, some b, some c] => if a = b ∧ b = c ∧ (lcOpen l.journal).isNone then a else .invalid
  | _ => .invalid

/-- Lanes a stand runs: ACTIVE ones, one under known-answer tests, and one that its spare is replacing (R33, log entry 47). -/
def runLanes (st : Nat) (s : State) : Nat :=
  ((standUnits st).filter (fun g => (getLane g s).state == .active || ((getLane g s).state == .suspect && g % 9 != 8))).length +
    b2n (getStand st s).filling.isSome

/-- Cores a stand runs: those that fill a position, and one that its spare is replacing (R33, log entry 47). -/
def runCores (st : Nat) (s : State) : Nat := (activeCores st s).length + b2n (getStand st s).coreFill.isSome

/-- Whether a stand runs below 8 active lanes or cores, or is offline (R33). -/
def standShort (st : Nat) (s : State) : Bool :=
  decide (runLanes st s < 8) || decide (runCores st s < 8) || (getStand st s).offline

/-- DEG_CAPACITY (R33). -/
def degCapacity (s : State) : Bool := stands.any (fun st => standShort st s)

/-- DEG_ENTROPY: an isolated or retired bank (R33, R211). -/
def degEntropy (s : State) : Bool :=
  stands.any (fun b => (getBank b s).state == .isolated || (getBank b s).state == .retired)

/-- CHECK_LOST: a stand without a checker lane (R149). -/
def checkLost (s : State) : Bool := stands.any (fun st => (checkerOf st s).isNone && (getLane (9 * st + 8) s).state != .suspect)

/-- A live update or a Warden handover is in progress. -/
def updating (s : State) : Bool := s.start.upd.state == .running || s.start.handPlain

/-- WATCH as a condition of R39. -/
def inWatch (s : State) : Bool := s.pwr.state == .watch

/-- The value of GBL_MODE_COND that the conditions give (chapter 02, Registers). -/
def condValue (s : State) : BitVec 32 :=
  let b (x : Bool) (k : Nat) : Nat := b2n x * 2 ^ k
  BitVec.ofNat 32 (b (lcIs s .blank) 0 + b (lcIs s .test) 1 + b (lcIs s .personalise) 2 + b (lcIs s .production) 3 +
    b (lcIs s .returned) 4 + b (lcIs s .scrapped) 5 + b (lcIs s .invalid) 6 +
    b s.fbk.fatal 8 + b s.start.clearcutLatch 9 + b s.start.seedling.isSome 10 + b (inWatch s) 11 + b (updating s) 12 +
    b (degCapacity s) 13 + b (s.fbk.service != 0) 14 + b (frozen s) 15 + b (degEntropy s) 16 +
    b (decide (commitU s.commit < 256)) 17 + b (restarting s) 18 + b (checkLost s) 19)

/-- A degrading condition of R33. -/
def degraded (s : State) : Bool :=
  degCapacity s || s.fbk.service != 0 || frozen s || degEntropy s || decide (commitU s.commit < 256)

/-- The mode: the first row of the table of R39 whose condition holds. SEEDLING, once entered, lasts until a cold start (R35). -/
def chooseMode (s : State) : Nat :=
  if lcIs s .scrapped then 12
  else if s.fbk.fatal then 8
  else if s.start.clearcutLatch then 9
  else if s.start.seedling.isSome || lcIs s .invalid || s.mode.mode == 7 then 7
  else if lcIs s .returned then 11
  else if lcIs s .blank then 1
  else if lcIs s .test then 2
  else if inWatch s then 10
  else if lcIs s .personalise then 3
  else if updating s then 6
  else if degraded s then 5
  else 4

/-- GBL_MODE (chapter 02, Registers). -/
def modeWord (s : State) : Nat :=
  s.mode.mode + 16 * s.mode.prev + 256 * s.mode.count.toNat + 65536 * b2n s.lko.tampered

/-- Queue a notification for every core that holds applets (R370). -/
def notifyApplets (k : NoteKind) (arg0 : Nat) (s : State) : State :=
  { s with cores.cores := tmap s.cores.cores (fun _ c =>
      if c.slots.isEmpty then c else { c with notes := c.notes ++ [{ kind := k, arg0 := arg0 }] }) }

/-- A mode change (R40): registers, the critical record, the device-event vector, the notifications; FBK_ALIVE.FORCE_LOW clears on leaving FACTORY-TEST (chapter 19). -/
def changeMode (m : Nat) (s : State) : State :=
  let old := s.mode.mode
  let c := condValue s
  let s := { s with mode := { s.mode with mode := m, prev := old, count := s.mode.count + 1 }, fbk.forceLow := s.fbk.forceLow && m == 2 }
  let s := logCode 0x0101 0 [(0, 1, old), (1, 1, m), (4, 4, c.toNat)] s
  let s := eventAllVfs 0 (eventAllPfs 0 s)
  notifyApplets .modeChange (modeWord s + 2 ^ 32 * c.toNat) s

/-- Re-evaluate the mode once the start has chosen one (R40, R644). -/
def refreshMode (s : State) : State :=
  if !s.mode.chosen then s
  else if chooseMode s = s.mode.mode then s
  else changeMode (chooseMode s) s

/-- The first choice of a mode after a cold start: no change is recorded (R644). -/
def firstMode (s : State) : State :=
  { s with mode := { mode := chooseMode s, prev := 0, count := 0, chosen := true } }

/-- The device has stopped and only the Seedling firmware, or nothing, answers. -/
def seedlingServes (s : State) : Bool := s.mode.mode == 7 || s.mode.mode == 9

/-- REASON of GBL_SEEDLING_WHY (R637). -/
def seedReason (s : State) : Nat :=
  if lcIs s .invalid then 3
  else match s.start.seedling with
    | some .restartRate => 2
    | some _ => 1
    | none => 0

/-- GBL_SEEDLING_WHY (chapter 02, Registers): the reason, the failed starts, the trusted restarts of the last 600 s (R34), the last failed start's stage. -/
def seedWord (s : State) : Nat :=
  seedReason s + 16 * min 3 s.start.startFails + 64 * min 3 (s.start.restartTimes.filter (fun t => seconds s ≤ t + 600)).length + 256 * s.start.lastStage

/-- The identity commands (R636). -/
def isIdentity (op : Nat) : Bool := [0x0101, 0x0102, 0x0105].contains op

/-- The attestation command (R636). -/
def isAttest (op : Nat) : Bool := op == 0x0103

/-- The log-export commands (R636). -/
def isLogExport (op : Nat) : Bool := [0x0801, 0x0802, 0x0803].contains op

/-- The recovery-update commands (R636). -/
def isRecovery (op : Nat) : Bool := [0x0A01, 0x0A02, 0x0A06].contains op

/-- A transition to one of the states named, and LC_NONCE (R636). -/
def isTransition (op to_ : Nat) (tos : List Nat) : Bool := op == 0x0701 || (op == 0x0702 && tos.contains to_)

/-- POWER_WATCH is accepted in SERVICE, SERVICE-DEGRADED and PERSONALISATION only (R45). -/
def watchMode (mode op : Nat) : Bool := op != 0x0130 || [3, 4, 5].contains mode

/-- What a mode permits (R41, R42, R45, R636): the opcode, with TO for LC_TRANSITION. -/
def modePermits (mode reason op to_ : Nat) : Bool :=
  let fam := op / 256
  watchMode mode op && match mode with
  | 1 => fam == 1 || fam == 8 || isTransition op to_ [1, 6]
  | 2 => true
  | 3 => [1, 2, 3, 7, 8, 9, 10].contains fam
  | 4 | 5 => true
  | 6 => !(List.contains [0x0A03, 0x0A08, 0x0A30, 0x0702, 0x0703] op)
  | 7 =>
    if reason = 3 then isIdentity op || isLogExport op || [0x0701, 0x0702, 0x0703].contains op
    else isIdentity op || isAttest op || isLogExport op || isRecovery op || isTransition op to_ [4]
  | 8 => isIdentity op
  | 9 => isIdentity op || isAttest op || isLogExport op || isTransition op to_ [4, 6]
  | 11 => isIdentity op || isAttest op || isLogExport op || [0x0701, 0x0708, 0x0709, 0x070A].contains op || isTransition op to_ [6]
  | _ => false

/-- What is accepted between STORE_REBASE and the sealing of owner 0 (R121, R122). -/
def rebaseAllows (q : Req) : Bool :=
  q.opcode / 256 == 1 || q.opcode / 256 == 8 || ([0x0201, 0x0202, 0x0208, 0x020A].contains q.opcode && fld q.body 0 4 == 0)

/-- Whether a mode permits a request (R43, R121). -/
def modeAllowsIn (mode : Nat) (q : Req) (s : State) : Bool :=
  modePermits mode (seedReason s) q.opcode (fld q.body 0 1) && (!s.store.rebased || rebaseAllows q)

/-- Whether the present mode permits a request (R43, R121). -/
def modeAllows (q : Req) (s : State) : Bool := modeAllowsIn s.mode.mode q s

/-- Whether a mode enables VFs, queues and Ethernet (R41). -/
def modeVfs (mode : Nat) : Bool := [2, 4, 5, 6].contains mode

/-- Whether VFs, queues and Ethernet are enabled (R41); under the Seedling firmware they are not (R37). -/
def queuesEnabled (s : State) : Bool := modeVfs s.mode.mode && !s.start.seedlingFw

/-- R34: a start that reaches no working mode is counted in PRODUCTION; the third in a row sets the Seedling latch. -/
def countStartFail (s : State) : State :=
  if lcDecode s.lc ≠ .production then s
  else
    let n := s.start.startFails + 1
    { s with start.startFails := n, start.seedling := if 3 ≤ n then s.start.seedling.orElse (fun _ => some .startFails) else s.start.seedling }

end Sys2Proof.Machine
end

