-- ==== Sys2Proof/Machine/Mailbox.lean ====
section
/-! DEFINITION. Mailboxes: doorbells, acceptance, request records, responses (chapter 10), and the frame every command row runs in. -/

namespace Sys2Proof.Machine

/-- What a command's own part comes to: an answer, changes made and a wait before the answer, or nothing done yet (it waits without effect and its deadline may end it). -/
inductive Ans where
  | reply (r : Resp)
  | hold (w : MbWait)
  | stay
  deriving DecidableEq, Repr

/-- A command's own part: its mailbox, its request and the state. -/
abbrev Handler := Mb → Req → State → Ans × State

/-- The key of a mailbox in the mailbox table; for a PF mailbox it is its context (R274). -/
def mbKey : Mb → Nat
  | .pf p m => 8 * p + m
  | .vf n => 32 + n

/-- Whether the device can have the mailbox (R264). -/
def mbOk : Mb → Bool
  | .pf p m => p < 4 && m < 8
  | .vf n => n < 4096

/-- A mailbox's state. -/
def getMb (mb : Mb) (s : State) : Mbox := tgetD s.mbox (mbKey mb) {}

/-- Replace a mailbox's state. -/
def setMb (mb : Mb) (b : Mbox) (s : State) : State := { s with mbox := tset s.mbox (mbKey mb) b }

/-- Whether a mailbox is a VF's. -/
def mbIsVf : Mb → Bool
  | .pf _ _ => false
  | .vf _ => true

/-- The mailbox under a key of the table. -/
def mbOfKey (k : Nat) : Mb := if k < 32 then .pf (k / 8) (k % 8) else .vf (k - 32)

/-- The vector a mailbox's responses send (R265). -/
def mbVec : Mb → Nat
  | .pf _ m => 1 + m
  | .vf _ => 0

/-- An answer with a status and no body. -/
def fail (st : Nat) : Resp := { status := st }

/-- A command's answer with a status and no body. -/
def cmdFail (st : Nat) : Ans := .reply (fail st)

/-- The bytes of a response (R268). -/
def respBytes (op reqId ctx token info : Nat) (r : Resp) : Bytes :=
  layout 32 [(0, 2, op), (2, 2, r.status), (4, 2, info), (6, 1, 1), (8, 8, reqId), (0x10, 4, r.body.length),
    (0x14, 4, r.detail), (0x18, 2, ctx), (0x1A, 2, token)] ++ r.body

/-- The whole response is written, RESP_LEN and DONE follow in one update, then the message (R265). -/
def postResp (mb : Mb) (bytes : Bytes) (s : State) : State :=
  sendVec (mbFn mb) (mbVec mb) (setMb mb { getMb mb s with state := .done, resp := bytes, respLen := bytes.length } s)

/-- The request as the buffer holds it (R267). -/
def readReq (mb : Mb) (b : Mbox) : Req :=
  let h := memReadN b.buf 0 0x80
  let off := if mbIsVf mb then 0x40 else 0x80
  let n := fld h 4 4
  { opcode := fld h 0 2, bodyLen := n, reqId := fld h 8 8, deadlineMs := fld h 0x10 4,
    agent := if mbIsVf mb then 0 else fld h 0x40 8, body := memReadN b.buf off (min n 3968) }

/-- HDR_VER of the request in the buffer. -/
def reqVer (b : Mbox) : Nat := (memRead b.buf 2).toNat

/-- The body limit of a mailbox (R267). -/
def bodyLimit (mb : Mb) : Nat := if mbIsVf mb then 960 else 3968

/-- The text a request record hashes (R271, log entry 5). -/
def hashText (q : Req) : Bytes := leBytes 2 q.opcode ++ leBytes 4 q.bodyLen ++ q.body

/-- A repeated request is the one recorded (R271, R405). -/
def recMatches (r : MbRec) (q : Req) : Bool :=
  match r.digest with
  | some d => d == sha256 (hashText q)
  | none => r.hashed == hashText q

/-- How many records a mailbox keeps (R271). -/
def recCap (mb : Mb) : Nat := if mbIsVf mb then 64 else 1024

/-- Classes of a REQ_ID (R270). -/
inductive ReqClass where
  | new
  | repeat_ (r : MbRec)
  | stale
  | outOfRange
  deriving DecidableEq, Repr

/-- The class of a REQ_ID (R270). -/
def reqClass (b : Mbox) (reqId : Nat) : ReqClass :=
  match b.high with
  | none => .new
  | some h =>
    let d := (reqId + 2 ^ 64 - h) % 2 ^ 64
    if 1 ≤ d ∧ d ≤ 2 ^ 20 then .new
    else if d = 0 ∨ 2 ^ 64 - 2 ^ 20 + 1 ≤ d then
      match b.recs.find? (fun r => r.reqId == reqId) with
      | some r => .repeat_ r
      | none => .stale
    else .outOfRange

/-- Every opcode of this interface level: opcode, bytes of its fixed fields, and how a VF mailbox takes it: 0 FUNCTION_DENIED, 1 accepted, 2 OWNER_DENIED (R272, R273 and the chapter of each family). -/
def cmdTable : List (Nat × Nat × Nat) :=
  [(0x0101, 0, 1), (0x0102, 0, 1), (0x0103, 0x2C, 1), (0x0105, 8, 1), (0x0120, 2, 0), (0x0121, 0, 1), (0x0130, 12, 0), (0x0131, 4, 0)] ++
  [(0x0201, 0x0D, 2), (0x0202, 8, 1), (0x0203, 4, 1), (0x0204, 0x0D, 2), (0x0205, 8, 2), (0x0206, 8, 1), (0x0207, 0x34, 1),
   (0x0208, 0x1C, 1), (0x0209, 4, 1), (0x020A, 0x10, 1), (0x020B, 0x10, 1), (0x020C, 4, 1)] ++
  [(0x0210, 8, 1), (0x0211, 0x10, 1), (0x0212, 4, 1), (0x0213, 4, 1), (0x0218, 0x14, 1), (0x0219, 0x2C, 1), (0x021A, 0x24, 1),
   (0x021B, 0x1C, 1), (0x021C, 0x2C, 1), (0x0220, 0, 2)] ++
  [(0x0301, 0x20, 1), (0x0302, 0x2C, 1), (0x0303, 0x24, 1), (0x0304, 0x20, 1), (0x0305, 0x0C, 1), (0x0306, 0x10, 1), (0x0307, 8, 1),
   (0x0308, 0x1C, 1), (0x0309, 8, 1), (0x030A, 0, 1), (0x030B, 0x10, 1), (0x030C, 8, 1), (0x030D, 0x0C, 1), (0x030E, 4, 1), (0x030F, 4, 1)] ++
  [(0x0310, 0x18, 0), (0x0311, 0, 0)] ++
  [(0x0401, 8, 0), (0x0402, 2, 0), (0x0403, 2, 1), (0x0404, 6, 0), (0x0405, 0x10, 0), (0x0406, 8, 0), (0x0407, 2, 0), (0x0408, 2, 0),
   (0x0409, 2, 0), (0x0410, 2, 0), (0x0411, 2, 0), (0x0412, 0x14, 0), (0x0413, 0x24, 0), (0x0414, 0x20, 0)] ++
  [(0x0420, 0x20, 1), (0x0421, 2, 1), (0x0422, 2, 1), (0x0430, 8, 0), (0x0431, 1, 0), (0x0432, 0x18, 1), (0x0433, 1, 1)] ++
  [(0x0501, 4, 0), (0x0502, 0x0E, 0), (0x0503, 1, 1), (0x0504, 1, 0), (0x0508, 0x28, 0), (0x0509, 0x2C, 1), (0x050A, 1, 0),
   (0x0510, 0x10, 1), (0x0511, 4, 1), (0x0518, 0x24, 1), (0x0519, 4, 1), (0x051A, 2, 1), (0x051B, 0x10, 1), (0x0520, 8, 1), (0x0528, 0x1A, 1)] ++
  [(0x0601, 0x10, 1), (0x0602, 0x14, 1), (0x0603, 0x28, 1), (0x0604, 6, 1), (0x0605, 4, 1), (0x0606, 4, 1), (0x0607, 1, 1)] ++
  [(0x0701, 0, 0), (0x0702, 0x0C, 0), (0x0703, 0x0C, 0), (0x0704, 0, 0), (0x0708, 0x0C, 0), (0x0709, 0, 0), (0x070A, 0, 0)] ++
  [(0x0801, 0, 0), (0x0802, 0x1C, 0), (0x0803, 8, 0), (0x0804, 0, 0), (0x0810, 0, 1), (0x0811, 4, 0), (0x0812, 0x14, 1), (0x0813, 8, 0), (0x0814, 2, 0)] ++
  [(0x0901, 1, 0), (0x0902, 1, 0), (0x0903, 1, 0), (0x0904, 1, 0), (0x0910, 0, 0), (0x0911, 3, 0), (0x0912, 4, 0)] ++
  [(0x0A01, 0x0C, 0), (0x0A02, 0, 0), (0x0A03, 2, 0), (0x0A04, 0, 0), (0x0A05, 0, 0), (0x0A06, 1, 0), (0x0A08, 0, 0), (0x0A20, 1, 0),
   (0x0A21, 2, 0), (0x0A30, 0x840, 0), (0x0A31, 1, 0)]

/-- Commands that change no state of the device, and those of family 0x08 whose records are their own (R267, R559): no COMMAND record. -/
def noRecordOps : List Nat :=
  [0x0101, 0x0102, 0x0103, 0x0105, 0x0121, 0x0203, 0x0207, 0x020C, 0x0212, 0x0307, 0x030A, 0x030E, 0x0403, 0x0407, 0x0422, 0x0433,
   0x0503, 0x0520, 0x0606, 0x0607, 0x0709, 0x0801, 0x0802, 0x0803, 0x0810, 0x0812, 0x0814, 0x0902, 0x0910, 0x0A02, 0x0A04, 0x0A21, 0x0A31]

/-- Steps 4 to 7 of R269 in a mode: the status of the first check that fails. A VF mailbox has commands only in the modes that enable VFs (R41). -/
def acceptCheckIn (mode : Nat) (mb : Mb) (q : Req) (s : State) : Option Nat :=
  match cmdTable.find? (fun r => r.1 == q.opcode) with
  | none => some St.opcodeUnknown
  | some (_, len, vf) =>
    if mbIsVf mb && vf == 0 then some St.functionDenied
    else if mbIsVf mb && (vf == 2 || (q.opcode / 256 != 1 && (mbOwner mb s).isNone)) then some St.ownerDenied
    else if !modeAllowsIn mode q s || (mbIsVf mb && !modeVfs mode) then some St.modeDenied
    else if q.bodyLen < len then some St.fieldInvalid
    else none

/-- Steps 4 to 7 of R269 at acceptance. -/
def acceptCheck (mb : Mb) (q : Req) (s : State) : Option Nat := acceptCheckIn s.mode.mode mb q s

/-- The mailbox contexts 32 to 255 in use, by VF mailboxes, gate calls and windows (R274, R371, R625). -/
def poolUsed (s : State) (c : Nat) : Bool := s.mbox.any (fun p => p.2.ctx == c) || (tget s.ctxs c).isSome

/-- A free context of the pool that VF mailboxes, gate calls and windows share (R274). -/
def freePool (s : State) : Option Nat := ((List.range 224).map (· + 32)).find? (fun c => !poolUsed s c)

/-- The context a mailbox's command takes (R274). -/
def mbCtx (mb : Mb) (s : State) : Option Nat :=
  match mb with
  | .pf p m => some (8 * p + m)
  | .vf _ => freePool s

/-- A ring is set up, so blocks may be formed (R258, R642). -/
def ringUp (s : State) : Bool := s.host.jring.state == .output || s.host.jring.state == .error

/-- Usable COMMIT pages (R540). -/
def usablePages (s : State) : Nat := commitU s.commit

/-- The store is refused every change (R541). -/
def storeStopped (s : State) : Bool := usablePages s ≤ 2

/-- A resumed Warden is completing interrupted destructions; it does not wait where no ring is up or commits have stopped (R84, R287, log entry 167). -/
def finishing (s : State) : Bool :=
  (!s.store.finish.isEmpty || decide (s.store.committed < s.store.finishSeq)) && ringUp s && !storeStopped s

/-- The Warden answers mailboxes: a mode has been chosen that has mailboxes, no restart or failover is in progress, interrupted destructions are complete, and in QUARANTINE the start had reached the Warden (R41, R84, R286, R289). -/
def wardenAnswers (s : State) : Bool :=
  s.mode.chosen && !restarting s && !finishing s && !s.start.failingOver && s.mode.mode != 10 && s.mode.mode != 12 && (s.mode.mode != 8 || decide (9 ≤ s.start.stage))

/-- A swap of Warden pairs is in progress: doorbells wait (R288). -/
def swapping (s : State) : Bool := s.start.handStep == 4

/-- The COMMAND record of a state-changing command not under quorum (R267, R559; log entry 9). -/
def commandRec (code : Nat) (mb : Mb) (op status agent : Nat) (s : State) : State :=
  logCode code 1 [(0, 2, op), (2, 2, status), (4, 8, match mb with | .pf _ _ => agent | .vf n => 0x1000 + n)] s

/-- Put a result into a mailbox's record of a request. -/
def setRec (reqId : Nat) (f : MbRec → MbRec) (b : Mbox) : Mbox :=
  { b with recs := b.recs.map (fun r => if r.reqId = reqId then f r else r) }

/-- A mailbox's command uses no key any more: its lease ends and its HUC request goes (R70, R145). -/
def endJob (mb : Mb) (s : State) : State :=
  if (getMb mb s).job.isNone then s
  else hucDrop (.mb (mbKey mb)) (setMb mb { getMb mb s with job := none } s)

/-- The accepted command ends with its answer: record DONE, COMMAND or COMMAND_QUORUM record, response, message (R107, R265, R271). -/
def finishMb (mb : Mb) (r : Resp) (s : State) : State :=
  let s := endJob mb s
  let b := getMb mb s
  match b.cur with
  | none => s
  | some q =>
    let s := if noRecordOps.contains q.opcode then s else commandRec 0x0301 mb q.opcode r.status q.agent s
    let s := match (b.recs.find? (fun x => x.reqId == q.reqId)).bind (·.quorum) with
      | some op => commandRec 0x0302 mb op r.status q.agent s
      | none => s
    let b := setRec q.reqId (fun x => { x with state := .done, resp := r, ctx := b.ctx, result := none }) b
    let s := setMb mb { b with cur := none, inner := none, wait := .none, rank8 := false, ctx := 0xFFFF } s
    postResp mb (respBytes q.opcode q.reqId b.ctx b.token r.info r) s

/-- An answer the mailbox gives without recording the request (steps 1 to 3 of R269). -/
def answerPlain (mb : Mb) (q : Req) (reqId : Nat) (ctx info : Nat) (r : Resp) (s : State) : State :=
  postResp mb (respBytes q.opcode reqId ctx (getMb mb s).token info r) s

/-- A doorbell with GO is acted upon: BUSY, the token latched (R265). -/
def ring (mb : Mb) (token : Nat) (s : State) : State :=
  setMb mb { getMb mb s with state := .busy, accepted := false, token := token % 65536 } s

/-- The host complex answers a doorbell itself: ACCEPTED stays 0 and nothing is recorded (R266, R396). -/
def hostAnswer (mb : Mb) (st : Nat) (s : State) : State :=
  let q := readReq mb (getMb mb s)
  answerPlain mb q q.reqId 0xFFFF 0 (fail st) s

/-- A mailbox doorbell (R265, R266). -/
def doorbell (mb : Mb) (go : Bool) (token : Nat) (vfClosed : Bool) (s : State) : State :=
  if !go || inD3 (mbFn mb) s then s
  else
  let s := hostWake s
  if (getMb mb s).state == .busy then countDoorbell (mbFn mb) s
  else
    let s := ring mb token s
    if restarting s then hostAnswer mb St.deviceRestarting s
    else if vfClosed then hostAnswer mb St.stateConflict s
    else s

/-- PFM_DOORBELL (R265, R266). -/
def execPfmDoorbell (p m : Nat) (go : Bool) (token : Nat) (s : State) : Out :=
  onUnit (mbOk (.pf p m)) (if pfPresent s p then doorbell (.pf p m) go token false s else s)

/-- VFM_DOORBELL (R265, R266); a quiesced or frozen VF's doorbell is answered STATE_CONFLICT (R396, R400). -/
def execVfmDoorbell (n : Nat) (go : Bool) (token : Nat) (s : State) : Out :=
  onUnit (n < 4096) (
    if (getFn (.vf n) s).enabled then
      let a := getAlloc (.vf n) s
      doorbell (.vf n) go token (a.quiesce || a.freeze || a.quiesced || a.frozen) s
    else s)

/-- A new or re-run request becomes the mailbox's command; it uses no key yet. -/
def takeReq (mb : Mb) (q : Req) (ctx : Nat) (r : MbRec) (s : State) : State :=
  let b := getMb mb s
  let old := b.recs.filter (fun x => decide (x.reqId ≠ q.reqId))
  let recs := (old ++ [r]).drop (old.length + 1 - recCap mb)
  setMb mb { b with recs := recs, cur := some q, inner := none, wait := r.result.getD .none, rank8 := r.result.isSome, since := seconds s, mode := s.mode.mode, logHead := s.log.nextSeq - 1, job := none, ctx := ctx } s

/-- A request whose record reads DONE is answered from the record (R271). -/
def replay (mb : Mb) (q : Req) (r : MbRec) (s : State) : State :=
  answerPlain mb q q.reqId r.ctx (r.resp.info ||| St.replayed) r.resp s

/-- Steps 1 to 7 of R269 on a copied request. -/
def acceptReq (mb : Mb) (s : State) : State :=
  let b := getMb mb s
  let q := readReq mb b
  if reqVer b ≠ 1 ∨ bodyLimit mb < q.bodyLen then answerPlain mb q 0 0xFFFF 0 (fail St.headerInvalid) s
  else match mbCtx mb s with
  | none => answerPlain mb q q.reqId 0xFFFF 0 (fail St.creditExhausted) s
  | some ctx =>
    match reqClass b q.reqId with
    | .stale => answerPlain mb q q.reqId ctx 0 (fail St.requestStale) s
    | .outOfRange => answerPlain mb q q.reqId ctx 0 (fail St.requestIdRange) s
    | .repeat_ r =>
      if !recMatches r q then answerPlain mb q q.reqId ctx 0 (fail St.requestConflict) s
      else if r.state = .done then replay mb q r s
      else
        let s := takeReq mb q ctx { r with state := .inProgress } (setMb mb { b with accepted := true } s)
        match (if r.result.isSome then none else acceptCheck mb q s) with
        | some st => finishMb mb (fail st) s
        | none => s
    | .new =>
      let s := setMb mb { b with high := some q.reqId, accepted := true } s
      let s := takeReq mb q ctx { reqId := q.reqId, hashed := hashText q, state := .inProgress, opcode := q.opcode } s
      match acceptCheck mb q s with
      | some st => finishMb mb (fail st) s
      | none => s

/-- MAILBOX_ACCEPT: the Warden copies a waiting request and makes the checks of R269 up to step 7; step 8 is the command's own row. In QUARANTINE the VF mailboxes are stopped (R41). -/
def execMailboxAccept (mb : Mb) (s : State) : Out :=
  onUnit (mbOk mb) (
    let b := getMb mb s
    if b.state == .busy && !b.accepted && b.cur.isNone && wardenAnswers s && !swapping s && !(mbIsVf mb && s.mode.mode == 8) then acceptReq mb s else s)

/-- MAILBOX_DEADLINE_EXPIRY: before its first state change the command ends with TIMEOUT and no effect (R281). -/
def execMailboxDeadlineExpiry (mb : Mb) (s : State) : Out :=
  onUnit (mbOk mb) (
    let b := getMb mb s
    if b.cur.isSome && !b.rank8 && b.wait == .none && wardenAnswers s then finishMb mb (fail St.timeout) s else s)

/-- What a wait comes to once the commit it needs is complete: its answer, and the state after the output it held back (R79, R287). -/
def resolveWait (w : MbWait) (s : State) : Option (Resp × State) :=
  let dur (r : Resp) : Resp := { r with info := r.info ||| St.durable }
  match w with
  | .rerun r => some (r, s)
  | .commit seq r => if seq ≤ s.store.committed then some (dur r, s) else none
  | .commitNow seq => if seq ≤ s.store.committed then some ({ body := leBytes 8 s.store.committed }, s) else none
  | .commitWrite seq a d r => if seq ≤ s.store.committed then some (dur r, { s with host.mem := memWriteN s.host.mem a d }) else none
  | _ => none

/-- The command has made its changes and now waits; what it waits for is kept under its REQ_ID (R287). -/
def holdMb (mb : Mb) (reqId : Nat) (w : MbWait) (s : State) : State :=
  let b := setRec reqId (fun x => { x with result := some w }) (getMb mb s)
  setMb mb { b with wait := w, rank8 := true } s

/-- Apply what a command's own part came to. -/
def applyAns (mb : Mb) (q : Req) (r : Ans × State) : State :=
  match r with
  | (.reply a, s) => finishMb mb a s
  | (.hold w, s) => holdMb mb q.reqId w s
  | (.stay, s) => s

/-- The frame of every command row: the accepted command of the mailbox, if it is this opcode, runs its own part (step 8 of R269). -/
def runCmd (mb : Mb) (op : Nat) (h : Handler) (s : State) : Out :=
  onUnit (mbOk mb) (
    let b := getMb mb s
    match b.cur with
    | none => s
    | some q =>
      if q.opcode = op && wardenAnswers s then
        if b.wait = .none then applyAns mb q (h mb q s)
        else match resolveWait b.wait s with
        | some (a, s) => finishMb mb a s
        | none => s
      else s)

/-- A command's checks, then its effect. -/
def direct (check : Mb → Req → State → Option Nat) (run : Handler) : Handler := fun mb q s =>
  match check mb q s with
  | some st => (cmdFail st, s)
  | none => run mb q s

/-- Whose policy a designated command needs (R102, R110). -/
inductive Auth where
  | owner
  | estate
  deriving DecidableEq, Repr

/-- A designated command issued directly: its checks, then QUORUM_MISSING (step 8 of R269, R102). -/
def designated (_ : Auth) (check : Mb → Req → State → Option Nat) (_ : Handler) : Handler := fun mb q s =>
  match check mb q s with
  | some st => (cmdFail st, s)
  | none => (cmdFail St.quorumMissing, s)

/-- The record of a command that a failover or restart ended while it waited for something. -/
def lostWaiter (b : Mbox) (op : Nat) (waits : MbWait → Bool) : Option MbRec :=
  b.recs.reverse.find? (fun r => (r.opcode == op || r.quorum == some op) && r.state == .indeterminate && (r.result.map waits).getD false)

/-- Something a command waited for has come: it is answered, or, if a failover or restart has ended it, the result is kept for the reissue (R287). -/
def deliver (mb : Mb) (op : Nat) (waits : MbWait → Bool) (a : Resp) (s : State) : State :=
  let b := getMb mb s
  if b.cur.isSome && waits b.wait then finishMb mb a s
  else match lostWaiter b op waits with
    | some r => setMb mb (setRec r.reqId (fun x => { x with result := some (.rerun a) }) b) s
    | none => s

/-- A command's wait gives way to the next one. -/
def advance (mb : Mb) (op : Nat) (waits : MbWait → Bool) (w : MbWait) (s : State) : State :=
  let b := getMb mb s
  match b.cur with
  | some q => if waits b.wait then holdMb mb q.reqId w s else s
  | none => match lostWaiter b op waits with
    | some r => setMb mb (setRec r.reqId (fun x => { x with result := some w }) b) s
    | none => s

/-- Answer every command whose wait has come to its end. -/
def settleWaits (s : State) : State :=
  s.mbox.foldl (fun s p =>
    let mb := mbOfKey p.1
    if (getMb mb s).cur.isSome then
      match resolveWait (getMb mb s).wait s with
      | some (a, s) => finishMb mb a s
      | none => s
    else s) s

/-- Every mailbox whose accepted command is unanswered is answered INDETERMINATE (R287). -/
def indeterminateAll (s : State) : State :=
  s.mbox.foldl (fun s p =>
    let mb := mbOfKey p.1
    let s := endJob mb s
    let b := getMb mb s
    match b.cur with
    | none => s
    | some q =>
      let b := setRec q.reqId (fun x => { x with state := .indeterminate }) b
      let s := setMb mb { b with cur := none, inner := none, wait := .none, rank8 := false, ctx := 0xFFFF } s
      postResp mb (respBytes q.opcode q.reqId b.ctx b.token 0 (fail St.indeterminate)) s) s

/-- A mailbox returns to its reset state (R264, R271). -/
def resetMb (mb : Mb) (s : State) : State := let s := endJob mb s; { s with mbox := tdel s.mbox (mbKey mb) }

/-- The 4 KiB page of a host address. -/
def hostPage (a : Nat) : Nat := a / 4096

/-- Whether a function can reach every page of a host range by its own mappings (R89, log entry 14). -/
def hostOk (fn : Fn) (a len : Nat) (s : State) : Bool :=
  a + len ≤ 2 ^ 64 && !s.host.refused.any (fun p => p.1 = fnKey fn && hostPage a ≤ p.2 && p.2 ≤ hostPage (a + len - 1))

/-- Read a blob from host memory; none is GATHER_FAULT (R89). -/
def blobRead (mb : Mb) (a len : Nat) (s : State) : Option Bytes :=
  if hostOk (mbFn mb) a len s then some (memReadN s.host.mem a len) else none

/-- Write host memory as the device does. -/
def hostWrite (a : Nat) (d : Bytes) (s : State) : State := { s with host.mem := memWriteN s.host.mem a d }

/-- Write a blob to host memory and answer; a fault answers GATHER_FAULT and nothing changes (R89). -/
def blobWrite (mb : Mb) (a : Nat) (d : Bytes) (r : Resp) (s : State) : Ans × State :=
  if hostOk (mbFn mb) a d.length s then (.reply r, hostWrite a d s) else (cmdFail St.gatherFault, s)

/-- An inline blob at an offset of the body, or one at the address there when INDIRECT (R89). An inline BLOB_LEN longer than the body has zeros for what is missing: R87 and R89 give that case no answer (DESIGN CHOICE, log entry 173). -/
def bodyBlob (mb : Mb) (q : Req) (off len : Nat) (indirect : Bool) (s : State) : Option Bytes :=
  if indirect then blobRead mb (fld q.body off 8) len s else some (padTo len (slice q.body off len))

/-- Free contexts of the queue pool and of the mailbox pool (R273, R274). -/
def ctxFree (s : State) : Nat := 7936 - (s.ctxs.filter (fun p => 256 ≤ p.1)).length

/-- Contexts 0 to 255 not in use. -/
def mbxCtxFree (s : State) : Nat := 256 - (s.mbox.filter (fun p => p.2.ctx != 0xFFFF)).length - (s.ctxs.filter (fun p => p.1 < 256)).length

/-- GBL_FWLEVEL (R241). -/
def fwLevelWord (s : State) : Nat := s.ident.wdnLevel + 65536 * s.ident.svcLevel

/-- DEVICE_IDENTIFY (R273). -/
def execDeviceIdentify (mb : Mb) (s : State) : Out :=
  runCmd mb 0x0101 (fun _ _ s =>
    (.reply { body := layout 17 [(0, 2, 0x6412), (2, 1, 0xB1), (3, 1, 0x09), (4, 2, s.ident.wdnLevel), (6, 2, s.ident.svcLevel),
      (8, 8, s.ident.deviceRef), (0x10, 1, s.mode.mode)] }, s)) s

/-- DEVICE_STATUS (R273). -/
def execDeviceStatus (mb : Mb) (s : State) : Out :=
  runCmd mb 0x0102 (fun _ _ s =>
    (.reply { body := layout 24 [(0, 4, modeWord s), (4, 4, (condValue s).toNat), (8, 4, seedWord s), (0x0C, 2, ctxFree s),
      (0x0E, 2, mbxCtxFree s), (0x10, 8, s.start.epoch)] }, s)) s

/-- STATE of REQID_QUERY. -/
def recCode : RecState → Nat
  | .inProgress => 1
  | .done => 2
  | .indeterminate => 3

/-- REQID_QUERY (R273): it reports on its own mailbox. -/
def execReqidQuery (mb : Mb) (s : State) : Out :=
  runCmd mb 0x0105 (fun mb q s =>
    let b := getMb mb s
    let high := b.high.getD 0
    match b.recs.find? (fun r => r.reqId == fld q.body 0 8) with
    | none => (.reply { body := layout 16 [(8, 8, high)] }, s)
    | some r => (.reply { body := layout 16 [(0, 1, recCode r.state), (2, 2, r.resp.status), (8, 8, high)] }, s)) s

end Sys2Proof.Machine
end

