-- ==== Sys2Proof/Machine/Contexts.lean ====
section
/-! DEFINITION. Command contexts: states, settlement, draining, and the gather-list check (chapter 10). -/

namespace Sys2Proof.Machine

/-- A context that is not FREE. -/
def getCtx (c : Nat) (s : State) : Option Ctx := tget s.ctxs c

/-- Replace a context. -/
def setCtx (c : Nat) (x : Ctx) (s : State) : State := { s with ctxs := tset s.ctxs c x }

/-- The context exists as a number (R274). -/
def ctxOk (c : Nat) : Bool := c < 8192

/-- The states in which an outcome may still settle. -/
def unsettled : CtxState → Bool
  | .admitted | .leasing | .running => true
  | _ => false

/-- A context whose outcome is not settled. -/
def liveCtx (c : Nat) (s : State) : Option Ctx := (getCtx c s).filter (fun x => unsettled x.state)

/-- The function a context serves, if it has one. -/
def ctxFn (x : Ctx) : Option Fn :=
  match x.src with
  | .queue fn _ _ => some fn
  | .mailbox mb => some (mbFn mb)
  | _ => none

/-- OPCLASS of a context's entry (R247). -/
def ctxClass (x : Ctx) : Nat := fld x.entry 0 1

/-- Add to counter n of an owner's meter record, modulo 2^64 (R560). -/
def meterAdd (owner n amount : Nat) (s : State) : State :=
  let m := tgetD s.meter.live owner {}
  let m' := { m with c := m.c.set n ((m.c.getD n 0 + amount) % 2 ^ 64) }
  { s with meter.live := tset s.meter.live owner m', meter.dirty := addNew s.meter.dirty owner }

/-- A job leaves RUNNING: it is counted once, with the bytes delivered and written (R560, R561). -/
def meterJob (x : Ctx) (written : Nat) (s : State) : State :=
  let k := ctxClass x
  if x.state != .running || (match x.src with | .kcw _ => true | _ => false) then s
  else if 1 ≤ k && k ≤ 7 then meterAdd x.owner 1 x.bytesIn (meterAdd x.owner 0 1 s)
  else if 8 ≤ k && k ≤ 10 then meterAdd x.owner 3 x.bytesIn (meterAdd x.owner 2 1 s)
  else if k = 0x11 then meterAdd x.owner 5 written s
  else if k = 0 then s
  else meterAdd x.owner 4 1 s

/-- Total bytes of a list. -/
def elemsLen (es : List Elem) : Nat := (es.map (·.len)).foldl (· + ·) 0

/-- Blocks of 16 bytes. -/
def blocks16 (n : Nat) : Nat := (n + 15) / 16

/-- AES and GHASH port blocks of a lane job (R133). -/
def lanePorts (x : Ctx) : Nat × Nat :=
  let S := elemsLen x.srcElems
  let a := fld x.entry 0x28 4
  match ctxClass x with
  | 1 | 2 => (blocks16 (S - a) + 1, blocks16 a + blocks16 (S - a) + 1)
  | 3 | 4 => (1, blocks16 S + 1)
  | 5 => (blocks16 S, 0)
  | _ => (max 1 (blocks16 S), 0)

/-- CHECK_EN as it reads: 1 outside FACTORY-TEST (CLN_STAND_CTRL). -/
def checkEnabled (st : Nat) (s : State) : Bool := s.mode.mode != 2 || (getStand st s).checkEn

/-- A stand's spare checks: it is enabled, in state CHECKER, and its selection sequence is seeded (R146, R214). -/
def checks (st : Nat) (s : State) : Bool := checkEnabled st s && (checkerOf st s).isSome && (getStand st s).checkSeed.isSome

/-- The selection sequence passes n items; those it selects are checked (R146, R217, CLN_CHECKED). -/
def countChecked (st n : Nat) (s : State) : State :=
  if checks st s then
    let x := getStand st s
    let k := min n (Config.selections (x.checkSeed.getD 0) x.checkPos n)
    setStand st { x with checked := x.checked + BitVec.ofNat 64 k, checkPos := x.checkPos + n } s
  else s

/-- Blocks issued to a lane's ports are counted, and the checker's part of them (CLN_BLOCKS, CLN_GHASH, CLN_CHECKED). -/
def countPorts (g a h : Nat) (s : State) : State :=
  let l := getLane g s
  countChecked (g / 9) (a + h) (setLane g { l with blocks := l.blocks + BitVec.ofNat 64 a, ghash := l.ghash + BitVec.ofNat 64 h } s)

/-- A run that a lane does not finish is counted by the blocks it issued: a free number, never below what its released output took. -/
def countCut (x : Ctx) (s : State) : State :=
  match x.lane with
  | none => s
  | some g =>
    if x.state != .running then s
    else
      let (a, h) := lanePorts x
      let lo := min a (blocks16 x.released)
      let (v, s) := draw s
      countPorts g (lo + v % (a - lo + 1)) (v / (a - lo + 1) % (h + 1)) s

/-- The source bytes delivered to an engine up to an end that is not its own: any number up to all of them. -/
def cutShort (x : Ctx) (s : State) : Ctx × State :=
  if x.state == .running && x.bytesIn != 0 then
    let (v, s) := draw s
    ({ x with bytesIn := v % (x.bytesIn + 1) }, s)
  else (x, s)

/-- The first candidate settles the outcome; later ones are discarded (R278). -/
def settle (c : Nat) (o : CtxOutcome) (s : State) : State :=
  match liveCtx c s with
  | none => s
  | some x => meterJob x o.done (setCtx c { x with state := .draining, outcome := some o } (countCut x s))

/-- An outcome without output: a failed check, or an end while ADMITTED or LEASING (R314). -/
def settleFail (c status : Nat) (s : State) : State := settle c { status := status } s

/-- Output released before an end that is not OK: undefined how much, never above the output length (R279, R284, R314). -/
def earlyOut (x : Ctx) (s : State) : Nat × State :=
  if x.state != .running then (0, s)
  else if ctxClass x = 0x11 then (x.delivered.length, s)
  else if x.early then
    let (v, s) := draw s
    (v % (min x.outLen x.bytesIn + 1), s)
  else (0, s)

/-- INFO of an end that is not OK with output released (R285, R290, R314). -/
def partialInfo (x : Ctx) (done : Nat) : Nat :=
  if done = 0 then 0 else St.partialOutput + if x.unverified then St.unverified else 0

/-- An abort: the outcome names the invocation value taken and what was released (R279, R314). -/
def abort (c status : Nat) (s : State) : State :=
  match liveCtx c s with
  | none => s
  | some x =>
    let (x, s) := cutShort x s
    let (done, s) := earlyOut x s
    let s := setCtx c { x with released := done } s
    settle c { status := status, info := partialInfo x done, done := done, result := if ctxClass x = 0x11 then done else x.invocation.getD 0 } s

/-- A void event takes a context from any state but FREE; a settled outcome is never posted (R277). -/
def voidCtx (c : Nat) (s : State) : State :=
  match getCtx c s with
  | none => s
  | some x =>
    let (x, s) := cutShort x s
    let (done, s) := earlyOut x s
    meterJob x 0 (setCtx c { x with state := .voided, released := done, outcome := none, writes := [], waits := [] }
      (countCut { x with released := done } s))

/-- Void every context a predicate picks. -/
def voidWhere (p : Ctx → Bool) (s : State) : State :=
  (s.ctxs.filter (fun q => p q.2)).foldl (fun s q => voidCtx q.1 s) s

/-- End every unsettled context a predicate picks with a status. -/
def abortWhere (p : Ctx → Bool) (status : Nat) (s : State) : State :=
  (s.ctxs.filter (fun q => p q.2)).foldl (fun s q => abort q.1 status s) s

/-- Whether a context may expire as DEVICE_RESTARTING: LEASING, waiting for a key delivery or a service core during a trusted restart (R289). -/
def restartWait (x : Ctx) (s : State) : Bool :=
  restarting s && x.state == .leasing && x.waits.any (fun w => match w with | .key _ | .engine | .restart => true | _ => false)

/-- DEADLINE_EXPIRY (R278, R280, R282, R289). -/
def execDeadlineExpiry (ctx : Nat) (s : State) : Out :=
  onUnit (ctxOk ctx) (
    match liveCtx ctx s with
    | none => s
    | some x => abort ctx (if restartWait x s then St.deviceRestarting else St.timeout) s)

/-- How a list check ends; a fault carries the address of the segment's element (R283, R646). -/
inductive ListEnd where
  | ok (elems : List Elem)
  | invalid (index : Nat)
  | fault (index addr : Nat)
  deriving DecidableEq, Repr

/-- Where a walk over a list stands: the segment, its bound, the position in it, the segments read, the data elements before it. -/
structure ListPos where
  addr : Nat
  bound : Nat
  first : Bool
  pos : Nat := 0
  segs : Nat := 1
  startN : Nat := 0
  n : Nat := 0
  sum : Nat := 0
  acc : List Elem := []
  deriving DecidableEq, Repr

/-- What one element makes of the walk. -/
inductive ListStep where
  | done (e : ListEnd)
  | go (p : ListPos)
  deriving DecidableEq, Repr

/-- One element of a gather list is read and checked (R248, R283, R646). -/
def listStep (stated : Nat) (rd : Nat → Nat → Option Bytes) (p : ListPos) : ListStep :=
  match rd (p.addr + 16 * p.pos) 16 with
  | none => .done (.fault (p.startN + 1) p.addr)
  | some e =>
    let flags := fld e 0x0C 4
    let len := fld e 8 4
    let bad := ListStep.done (.invalid (p.n + 1))
    let lastPos := p.pos + 1 = p.bound
    if 3 ≤ flags then bad
    else if flags = 1 then
      if (!p.first && !decide lastPos) || len < 1 || 16 < len || p.segs = 4096 || fld e 0 8 % 16 ≠ 0 then bad
      else .go { p with addr := fld e 0 8, bound := len, first := false, pos := 0, segs := p.segs + 1, startN := p.n }
    else if len = 0 || p.n = 4096 || (stated ≠ 0 && decide (stated < p.sum + len)) then bad
    else
      let acc := { addr := fld e 0 8, len := len } :: p.acc
      if flags = 2 then
        if stated ≠ 0 && decide (p.sum + len ≠ stated) then bad else .done (.ok acc.reverse)
      else if lastPos then bad
      else .go { p with pos := p.pos + 1, n := p.n + 1, sum := p.sum + len, acc := acc }

/-- The walk over a list: at most 4,096 segments of 16 elements. -/
def listWalk (stated : Nat) (rd : Nat → Nat → Option Bytes) : Nat → ListPos → ListEnd
  | 0, p => .invalid (p.n + 1)
  | k + 1, p =>
    match listStep stated rd p with
    | .done e => e
    | .go p => listWalk stated rd k p

/-- The check of one whole list (R283). -/
def listCheck (addr stated : Nat) (rd : Nat → Nat → Option Bytes) : ListEnd :=
  if addr % 16 ≠ 0 then .invalid 1
  else listWalk stated rd 65536 { addr := addr, bound := 16, first := true }

/-- The writes that put bytes into the elements from an offset of the whole. -/
def scatterFrom : List Elem → Nat → Bytes → List (Nat × Bytes)
  | [], _, _ => []
  | e :: r, off, d =>
    if e.len ≤ off then scatterFrom r (off - e.len) d
    else if d.isEmpty then []
    else (e.addr + off, d.take (e.len - off)) :: scatterFrom r 0 (d.drop (e.len - off))

/-- The function a context's host accesses belong to (R274, R625). -/
def srcFn (x : Ctx) (s : State) : Fn :=
  match x.src with
  | .queue fn _ _ => fn
  | .mailbox mb => mbFn mb
  | .gate _ => .pf 0
  | .kcw w => match (tgetD s.kcw w {}).assign with | .vf n => .vf n | .pf p _ => .pf p | .none => .pf 0

/-- The first offset in an element that lies in a page refused to the function. -/
def elemFault (fn : Fn) (e : Elem) (s : State) : Option Nat :=
  if e.len = 0 then none
  else if 2 ^ 64 < e.addr + e.len then some (2 ^ 64 - e.addr)
  else
    ((List.range (hostPage (e.addr + e.len - 1) + 1 - hostPage e.addr)).find? (fun k => s.host.refused.contains (fnKey fn, hostPage e.addr + k))).map
      (fun k => if k = 0 then 0 else (hostPage e.addr + k) * 4096 - e.addr)

/-- The first address fault of a list: element number, offset in it, and the bytes before it (R284, log entry 14). -/
def dataFault (bad : Elem → Option Nat) : List Elem → Nat → Nat → Option (Nat × Nat × Nat)
  | [], _, _ => none
  | e :: r, i, before =>
    match bad e with
    | some off => some (i, off, before + off)
    | none => dataFault bad r (i + 1) (before + e.len)

end Sys2Proof.Machine
end

