-- ==== Sys2Proof/Machine/Queues.lean ====
section
/-! DEFINITION. Queue pairs: creation, doorbells, fetching, admission, posting (chapter 09). -/

namespace Sys2Proof.Machine

/-- The key of a queue pair or frame ring. -/
def qKey (fn : Fn) (qid : Nat) : Nat := 256 * fnKey fn + qid

/-- Whether a queue-pair number is in range for its function (R245). -/
def qidOk : Fn → Nat → Bool
  | .pf p, q => p < 4 && q < 256
  | .vf n, q => n < 4096 && q < 64

/-- The function and number of a queue key. -/
def qOfKey (k : Nat) : Fn × Nat := (if k / 256 < 4 then .pf (k / 256) else .vf (k / 256 - 4), k % 256)

/-- A queue that is not ABSENT. -/
def getQ (k : Nat) (s : State) : Option Queue := tget s.host.queues k

/-- Replace a queue. -/
def setQ (k : Nat) (q : Queue) (s : State) : State := { s with host.queues := tset s.host.queues k q }

/-- The queues of a function, by key. -/
def fnQueues (fn : Fn) (s : State) : List (Nat × Queue) := s.host.queues.filter (fun p => p.1 / 256 == fnKey fn)

/-- The frame rings of a function, by key. -/
def fnRings (fn : Fn) (s : State) : List (Nat × Ring) := s.eth.rings.filter (fun p => p.1 / 256 == fnKey fn)

/-- HELD: queue contexts held, fetch reservations included (R275). -/
def fnHeld (fn : Fn) (s : State) : Nat :=
  (s.ctxs.filter (fun p => match p.2.src with | .queue f _ _ => f == fn | _ => false)).length +
    ((fnQueues fn s).map (fun p => p.2.reading.length + p.2.fetched.length)).foldl (· + ·) 0

/-- Entries of the submission queue. -/
def sqSize (q : Queue) : Nat := 2 ^ q.sqLog2

/-- Entries of the completion queue. -/
def cqSize (q : Queue) : Nat := 2 ^ q.cqLog2

/-- The CQ has no slot the host has released (R253). -/
def cqFull (q : Queue) : Bool := cqSize q ≤ q.unreleased

/-- The QUEUE_ERROR bit of GBL_EVENT and GBL_VF_EVENT. -/
def queueErrBit : Fn → Nat
  | .pf _ => 5
  | .vf _ => 1

/-- A queue goes to ERROR and its function's event is raised (R255, R256). -/
def queueError (k : Nat) (c : QCause) (s : State) : State :=
  match getQ k s with
  | none => s
  | some q =>
    if q.state == .error then s
    else raiseEvent (qOfKey k).1 (queueErrBit (qOfKey k).1) (setQ k { q with state := .error, cause := c } s)

/-- A destroyed queue whose contexts have all ended is ABSENT and its command completes (R246). -/
def queueCheck (k : Nat) (s : State) : State :=
  match getQ k s with
  | none => s
  | some q =>
    match q.destroying with
    | none => s
    | some mb =>
      if q.held = 0 && q.fetched.isEmpty && q.reading.isEmpty then
        deliver mb 0x0421 (· == .queueDrain k) { body := leBytes 4 q.posted }
          { s with host.queues := tdel s.host.queues k, host.coalDue := without s.host.coalDue k }
      else s

/-- A free context of the queue pool (R274). -/
def freeQueueCtx (s : State) : Option Nat :=
  (List.range ((s.ctxs.filter (fun p => 256 ≤ p.1)).length + 1)).find? (fun k => (tget s.ctxs (256 + k)).isNone && k < 7936) |>.map (256 + ·)

/-- The deadline of an entry in µs (R280). -/
def entryDeadline (q : Queue) (e : Bytes) : Nat :=
  if fld e 4 4 ≠ 0 then fld e 4 4 else if q.defDeadline ≠ 0 then q.defDeadline else 10000000

/-- Step 1 of R295, and R43: whether an entry is taken to its class at all. -/
def entryCheck (e : Bytes) (s : State) : Option Nat :=
  if !queuesEnabled s then some St.modeDenied
  else if fld e 0 1 = 0 || 0x14 < fld e 0 1 || 8 ≤ fld e 1 1 then some St.descriptorInvalid
  else none

/-- One fetched entry is admitted to a free context (R252, R277); of a VF whose intake a freeze has stopped it is suspended (R400). -/
def admitEntry (k no remaining : Nat) (e : Bytes) (s : State) : State :=
  let (fn, qid) := qOfKey k
  let a := getAlloc fn s
  if a.freeze then
    match getQ k s with
    | some q => setAlloc fn { a with suspended := a.suspended ++ [{ qid := qid, no := no, remaining := remaining, slot := no % sqSize q, entry := padTo 64 e }], nSuspended := a.nSuspended + 1 } s
    | none => s
  else match getQ k s, freeQueueCtx s with
  | some q, some c =>
    let x : Ctx := { src := .queue fn qid no, owner := (getAlloc fn s).owner.getD 0, entry := padTo 64 e, fenceNo := no,
                     deadlineAt := s.us + remaining }
    let s := setQ k { q with held := q.held + 1, liveNos := q.liveNos ++ [no] } (setCtx c x s)
    match entryCheck e s with
    | some st => settleFail c st s
    | none => s
  | _, _ => s

/-- Admission in SQ order; an entry with FENCE waits until every earlier entry has posted (R252). -/
def admitAll (k : Nat) : Nat → State → State
  | 0, s => s
  | n + 1, s =>
    match getQ k s with
    | none => s
    | some q =>
      match q.fetched with
      | [] => s
      | (no, d, e) :: r =>
        if bitOf (fld e 1 1) 2 && !q.liveNos.isEmpty then s
        else admitAll k n (admitEntry k no d e (setQ k { q with fetched := r } s))

/-- Admit whatever a queue has fetched. -/
def admitQ (k : Nat) (s : State) : State :=
  match getQ k s with
  | none => s
  | some q => admitAll k q.fetched.length s

/-- The context is FREE: its queue releases it, and what waited for it goes on (R246, R252, R277). -/
def freeCtx (c : Nat) (posted : Bool) (s : State) : State :=
  match getCtx c s with
  | none => s
  | some x =>
    let s := { s with
      ctxs := tdel s.ctxs c, world.issued := s.world.issued.filter (fun e => e.2.2.1 != c)
      units.stands := tmap s.units.stands (fun _ k => { k with service := without k.service c }) }
    match x.src with
    | .queue fn qid no =>
      let k := qKey fn qid
      let a := getAlloc fn s
      let s := if posted && a.draining then setAlloc fn { a with posted := a.posted + 1 } s else s
      match getQ k s with
      | none => s
      | some q => queueCheck k (admitQ k (setQ k { q with held := q.held - 1, liveNos := without q.liveNos no, posted := q.posted + b2n posted } s))
    | _ => s

/-- A CQ entry was written: the vector is raised by count or its timer starts (R255). -/
def coalesce (k : Nat) (s : State) : State :=
  match getQ k s with
  | none => s
  | some q =>
    let n := q.unsignalled + 1
    if q.coalCount ≤ 1 || q.coalCount ≤ n then
      sendVec (qOfKey k).1 q.vector { setQ k { q with unsignalled := 0 } s with host.coalDue := without s.host.coalDue k }
    else { setQ k { q with unsignalled := n } s with host.coalDue := if q.coalUs = 0 then s.host.coalDue else addNew s.host.coalDue k }

/-- The 32 bytes of a completion entry (R249). -/
def cqEntry (q : Queue) (qid : Nat) (x : Ctx) (o : CtxOutcome) : Bytes :=
  layout 32 [(0, 2, fld x.entry 2 2), (2, 1, qid), (3, 1, b2n q.phase), (4, 2, q.sqHead), (6, 2, o.status), (8, 2, o.info),
    (0x0A, 2, o.elem), (0x0C, 4, o.offset), (0x10, 8, o.done), (0x18, 8, o.result)]

/-- A POSTING queue context's entry is written at the CQ tail, if there is room, its function is in D0 and its queue still writes (R253, R578). -/
def postQueue (c : Nat) (x : Ctx) (o : CtxOutcome) (fn : Fn) (qid : Nat) (s : State) : State :=
  let k := qKey fn qid
  match getQ k s with
  | none => freeCtx c false s
  | some q =>
    if inD3 fn s then s
    else if q.cause == .cqFault || q.cause == .bme then freeCtx c false s
    else if cqFull q then s
    else
      let a := q.cqAddr + 32 * q.cqTail
      if !hostOk fn a 32 s then
        freeCtx c false (voidWhere (fun y => match y.src with | .queue f i _ => f == fn && i == qid | _ => false) (queueError k .cqFault s))
      else
        let s := hostWrite a (cqEntry q qid x o) s
        let t := (q.cqTail + 1) % cqSize q
        freeCtx c true (coalesce k (setQ k { q with cqTail := t, unreleased := q.unreleased + 1, phase := if t = 0 then !q.phase else q.phase } s))

/-- The entries one read covers: at most 8, not past the end of the SQ, the tail or the function's credit (R251, R275). -/
def fetchCount (fn : Fn) (q : Queue) (s : State) : Nat :=
  min (min 8 (sqSize q - q.sqHead)) (min ((q.sqTail + sqSize q - q.sqHead) % sqSize q) ((getFn fn s).credit - fnHeld fn s))

/-- From AP1 of a WATCH entry on, queues fetch nothing (R585). -/
def stopIntake (s : State) : Bool := match s.pwr.entry with | some e => decide (2 ≤ e.ap) | none => s.pwr.state == .watch

/-- SQ_FETCH (R251, R253, R257, R275, R578). -/
def execSqFetch (fn : Fn) (qid : Nat) (s : State) : Out :=
  onUnit (qidOk fn qid) (
    let k := qKey fn qid
    match getQ k s with
    | none => s
    | some q =>
      let f := getFn fn s
      let n := fetchCount fn q s
      if q.state == .active && q.destroying.isNone && q.reading.isEmpty && f.busMaster && !inD3 fn s && !cqFull q && queuesEnabled s && n != 0 && !stopIntake s then
        setQ k { q with reading := (List.range n).map (· + q.sqHead), sqHead := (q.sqHead + n) % sqSize q } s
      else s)

/-- The entries of an answered SQ read enter the queue's fetched list, numbered in SQ order (R252). -/
def sqArrive (k : Nat) (data : Bytes) (s : State) : State :=
  match getQ k s with
  | none => s
  | some q =>
    let es := (List.range q.reading.length).map (fun i => let e := padTo 64 (data.drop (64 * i)); (q.nextNo + i, entryDeadline q e, e))
    let s := setQ k { q with reading := [], fetched := q.fetched ++ es, nextNo := q.nextNo + es.length } s
    queueCheck k (admitQ k s)

/-- A fault in reading SQ entries puts the queue in ERROR with cause FETCH_FAULT (R252). -/
def sqFault (k : Nat) (s : State) : State :=
  match getQ k s with
  | none => s
  | some q => if q.reading.isEmpty then s else queueCheck k (queueError k .fetchFault (setQ k { q with reading := [] } s))

/-- A frame ring goes to ERROR (R256). -/
def ringError (k : Nat) (c : QCause) (s : State) : State :=
  match tget s.eth.rings k with
  | none => s
  | some r =>
    if r.state == .error then s
    else raiseEvent (qOfKey k).1 (queueErrBit (qOfKey k).1) { s with eth.rings := tset s.eth.rings k { r with state := .error, cause := c } }

/-- A doorbell of a frame ring: the host ring's tail or the event ring's head (R250, R340). -/
def ringDoorbell (k index : Nat) (head : Bool) (s : State) : State :=
  match tget s.eth.rings k with
  | none => countDoorbell (qOfKey k).1 s
  | some r =>
    if r.state != .active && r.state != .paused then countDoorbell (qOfKey k).1 s
    else if 2 ^ r.log2 ≤ index then ringError k .dbRange s
    else
      let r' := if head then { r with evHead := index, evHeld := r.evHeld - (index + 2 ^ r.log2 - r.evHead) % 2 ^ r.log2 } else { r with tail := index }
      { s with eth.rings := tset s.eth.rings k r' }

/-- QMG_SQ_TAIL: a submission doorbell (R250, R256, R257). -/
def execQmgSqTail (fn : Fn) (qid index : Nat) (s : State) : Out :=
  onUnit (qidOk fn qid) (
    let k := qKey fn qid
    if s.mode.mode = 8 || inD3 fn s then s
    else
    let s := hostWake s
    match getQ k s with
    | none => ringDoorbell k index false s
    | some q =>
      if q.destroying.isSome || (q.state != .active && q.state != .paused) then countDoorbell fn s
      else if sqSize q ≤ index then queueError k .dbRange s
      else setQ k { q with sqTail := index } s)

/-- QMG_CQ_HEAD: a completion doorbell (R250, R253). While its queue is being destroyed it still releases entries, for the contexts left must post: R246's step speaks of fetching (DEDUCED, log entry 191). -/
def execQmgCqHead (fn : Fn) (qid index : Nat) (s : State) : Out :=
  onUnit (qidOk fn qid) (
    let k := qKey fn qid
    if s.mode.mode = 8 || inD3 fn s then s
    else
    let s := hostWake s
    match getQ k s with
    | none => ringDoorbell k index true s
    | some q =>
      if q.state != .active && q.state != .paused then countDoorbell fn s
      else if cqSize q ≤ index then queueError k .dbRange s
      else setQ k { q with cqHead := index, unreleased := q.unreleased - (index + cqSize q - q.cqHead) % cqSize q } s)

/-- CQ_COAL_TIMER: COAL_US has passed since the oldest unsignalled entry (R255). -/
def execCqCoalTimer (fn : Fn) (qid : Nat) (s : State) : Out :=
  onUnit (qidOk fn qid) (
    let k := qKey fn qid
    match getQ k s with
    | none => match tget s.eth.rings k with
      | none => s
      | some r =>
        if s.host.coalDue.contains k then
          sendVec fn r.vector { s with eth.rings := tset s.eth.rings k { r with unsignalled := 0 }, host.coalDue := without s.host.coalDue k }
        else s
    | some q =>
      if s.host.coalDue.contains k then
        sendVec fn q.vector { setQ k { q with unsignalled := 0 } s with host.coalDue := without s.host.coalDue k }
      else s)

/-- MSIX_UNMASK: the mask of a vector clears and its pending message is sent (R244). -/
def execMsixUnmask (fn : Fn) (vec : Nat) (s : State) : Out :=
  onUnit (fnOk fn) (
    let f := getFn fn s
    let was := f.pendingVec.contains vec && !f.maskAll
    let s := setFn fn { f with unmasked := addNew f.unmasked vec, pendingVec := if was then without f.pendingVec vec else f.pendingVec } s
    if was then sendVec fn vec s else s)

/-- The vector rule of R245. -/
def vectorOk : Fn → Nat → Bool
  | .pf _, v => 16 ≤ v && v < 256
  | .vf _, v => 1 ≤ v && v < 64

/-- A queue-pair number is taken by a queue or a frame ring. -/
def qidUsed (fn : Fn) (qid : Nat) (s : State) : Bool := (getQ (qKey fn qid) s).isSome || (tget s.eth.rings (qKey fn qid)).isSome

/-- Queue pairs and frame rings a function holds (R245, R340). -/
def fnQueueCount (fn : Fn) (s : State) : Nat := (fnQueues fn s).length + (fnRings fn s).length

/-- The queue grant of a function (R245, R389). -/
def queueGrant (fn : Fn) (s : State) : Nat :=
  match fn with
  | .pf _ => 256
  | .vf _ => (getAlloc fn s).queues

/-- DB_OFFSET of a queue pair (R245). -/
def dbOffset : Fn → Nat → Nat
  | .pf _, q => 0x00100000 + 8 * q
  | .vf _, q => 0x2000 + 8 * q

/-- The checks of QUEUE_CREATE (R245). -/
def queueCreateCheck (mb : Mb) (q : Req) (s : State) : Option Nat :=
  let fn := mbFn mb
  let b := q.body
  let qid := fld b 0 2
  if 1023 < fld b 0x18 2 then some St.fieldInvalid
  else if !qidOk fn qid || qidUsed fn qid s || fld b 2 1 < 4 || 12 < fld b 2 1 || fld b 3 1 < fld b 2 1 || 13 < fld b 3 1 ||
      fld b 8 8 % 4096 ≠ 0 || fld b 0x10 8 % 4096 ≠ 0 || !vectorOk fn (fld b 4 2) then some St.queueInvalid
  else if queueGrant fn s ≤ fnQueueCount fn s then some St.quotaExceeded
  else none

/-- The queue QUEUE_CREATE makes: ACTIVE, indices 0, PHASE 1 (R246). -/
def newQueue (b : Bytes) : Queue :=
  { state := .active, sqLog2 := fld b 2 1, cqLog2 := fld b 3 1, vector := fld b 4 2, coalCount := fld b 6 1, coalUs := fld b 0x18 2,
    relaxed := bitOf (fld b 7 1) 0, sqAddr := fld b 8 8, cqAddr := fld b 0x10 8, defDeadline := fld b 0x1C 4 }

/-- The effect of QUEUE_CREATE (R246). -/
def queueCreateRun (mb : Mb) (q : Req) (s : State) : Ans × State :=
  (.reply { body := leBytes 4 (dbOffset (mbFn mb) (fld q.body 0 2)) }, setQ (qKey (mbFn mb) (fld q.body 0 2)) (newQueue q.body) s)

/-- QUEUE_CREATE (R245, R246). -/
def execQueueCreate (mb : Mb) (s : State) : Out := runCmd mb 0x0420 (direct queueCreateCheck queueCreateRun) s

/-- A queue or ring number the function does not hold (R245). -/
def queueNamed (mb : Mb) (q : Req) (s : State) : Option Nat :=
  if qidOk (mbFn mb) (fld q.body 0 2) && qidUsed (mbFn mb) (fld q.body 0 2) s then none else some St.queueInvalid

/-- The effect of QUEUE_DESTROY (R246); a frame ring goes at once (R340). -/
def queueDestroyRun (mb : Mb) (q : Req) (s : State) : Ans × State :=
  let k := qKey (mbFn mb) (fld q.body 0 2)
  match getQ k s with
  | none => (.reply { body := leBytes 4 0 }, { s with eth.rings := tdel s.eth.rings k })
  | some x =>
    if x.held = 0 && x.fetched.isEmpty && x.reading.isEmpty then
      (.reply { body := leBytes 4 0 }, { s with host.queues := tdel s.host.queues k, host.coalDue := without s.host.coalDue k })
    else (.hold (.queueDrain k), setQ k { x with destroying := some mb, posted := if x.destroying.isSome then x.posted else 0 } s)

/-- QUEUE_DESTROY (R246, R256). -/
def execQueueDestroy (mb : Mb) (s : State) : Out := runCmd mb 0x0421 (direct queueNamed queueDestroyRun) s

/-- STATE of QMG_QSTAT. -/
def qStateCode : QState → Nat
  | .absent => 0
  | .active => 1
  | .paused => 2
  | .error => 3

/-- CAUSE of QMG_QSTAT. -/
def qCauseCode : QCause → Nat
  | .none => 0
  | .dbRange => 1
  | .fetchFault => 2
  | .cqFault => 3
  | .bme => 4
  | .mode => 5

/-- QMG_QSTAT of a queue. -/
def qstatWord (q : Queue) : Nat :=
  qStateCode q.state + 4 * qCauseCode q.cause + 2 ^ 8 * (q.sqHead % 4096) + 2 ^ 20 * min 4095 q.held

/-- The effect of QUEUE_QUERY (R245). -/
def queueQueryRun (mb : Mb) (q : Req) (s : State) : Ans × State :=
  let k := qKey (mbFn mb) (fld q.body 0 2)
  let r : Queue := match tget s.eth.rings k with
    | some r => { state := r.state, cause := r.cause, sqHead := r.head, sqTail := r.tail, cqTail := r.evTail, cqHead := r.evHead }
    | none => {}
  let x := (getQ k s).getD r
  (.reply { body := layout 16 [(0, 4, qstatWord x), (4, 2, x.sqTail), (6, 2, x.cqTail), (8, 2, x.cqHead), (0x0C, 4, x.held)] }, s)

/-- QUEUE_QUERY (R245). -/
def execQueueQuery (mb : Mb) (s : State) : Out := runCmd mb 0x0422 (direct queueNamed queueQueryRun) s

/-- Every queue of a function goes from one state to another: PAUSED at a quiesce or freeze, ACTIVE after (R256, R395). -/
def setQueuesState (fn : Fn) (a b : QState) (s : State) : State :=
  { s with
    host.queues := tmap s.host.queues (fun k q => if k / 256 = fnKey fn ∧ q.state = a then { q with state := b } else q)
    eth.rings := tmap s.eth.rings (fun k r => if k / 256 = fnKey fn ∧ r.state = a then { r with state := b } else r) }

/-- A mode change to a mode without queues, other than QUARANTINE: fetched entries complete with MODE_DENIED and queues go to ERROR (R257). -/
def queuesModeEnd (s : State) : State :=
  let s := s.host.queues.foldl (fun s p => queueError p.1 .mode (admitQ p.1 s)) s
  s.eth.rings.foldl (fun s p => ringError p.1 .mode s) s

end Sys2Proof.Machine
end

