-- ==== Sys2Proof/Machine/Reports.lean ====
section
/-! DEFINITION. What Firebreak does with every report before any unit is repaired: counters, records, vectors, the SERVICE register (R517-R520). -/

namespace Sys2Proof.Machine

/-- FBK_COUNT of a class advances. -/
def countFault (cls : Nat) (s : State) : State :=
  { s with fbk.counts := tset s.fbk.counts cls (tgetD s.fbk.counts cls 0 + 1) }

/-- FBK_LAST takes a UNIT, SERVICE or FATAL report. -/
def lastFault (src cls : Nat) (inj : Bool) (unit : Nat) (s : State) : State :=
  { s with fbk.last := { source := src, cls := cls, injected := inj, unit := unit % 4096, seconds := seconds s } }

/-- A fault record; one of an injected fault carries INJECTED (R543, R546). -/
def faultRec (code src unit : Nat) (inj : Bool) (arg : List (Nat × Nat × Nat)) (s : State) : State :=
  let r := mkRec code 2 ([(0, 1, src), (2, 2, unit)] ++ arg)
  logPut { r with flags := r.flags + 4 * b2n inj } s

/-- A CORRECTED fault (R518). -/
def correctedReport (src unit : Nat) (inj : Bool) (s : State) : State :=
  faultRec 0x0601 src unit inj [] (countFault 0 s)

/-- The report of a UNIT fault: counted, interrupt line, vector 11, record (R519). -/
def unitReport (src unit : Nat) (inj : Bool) (s : State) : State :=
  let s := lastFault src 1 inj unit (countFault 1 s)
  let s := { s with fbk.lines := (0x40 + src % 32) :: s.fbk.lines }
  faultRec 0x0602 src unit inj [] (vecAllPfs 11 (raiseLine (0x40 + src % 32) s))

/-- The SERVICE kind of a source: bit 0 for 0x18 up to bit 7 for 0x1F. -/
def serviceKind (src : Nat) : Nat := src - 0x18

/-- A SERVICE fault (R520). -/
def serviceReport (src unit : Nat) (inj : Bool) (s : State) : State :=
  let k := serviceKind src
  let s := lastFault src 2 inj unit (countFault 2 s)
  let s := { s with fbk.service := s.fbk.service ||| BitVec.ofNat 8 (2 ^ k), fbk.serviceAt := tset s.fbk.serviceAt k (seconds s) }
  refreshMode (faultRec 0x0603 src unit inj [] (vecAllPfs 11 s))

/-- A SERVICE condition that now stands, reported once while it lasts (R520). -/
def serviceStands (src : Nat) (cond : Bool) (s : State) : State :=
  if cond && !s.fbk.service.getLsbD (serviceKind src) then serviceReport src 0xFFF false s else s

/-- The bit of a SERVICE kind clears (R520). -/
def serviceClear (kind : Nat) (s : State) : State :=
  { s with fbk.service := s.fbk.service &&& ~~~ BitVec.ofNat 8 (2 ^ kind) }

end Sys2Proof.Machine
end

