-- ==== Sys2Proof/Machine/Store.lean ====
section
/-! DEFINITION. The store's journal, journal ring, commits and recovery (chapters 03 and 09). -/

namespace Sys2Proof.Machine

/-- The status a store command ends with while the store holds nothing (R80). -/
def storeRefuse (s : State) : Option Nat :=
  match s.store.state with
  | .loading => some St.storeLoading
  | .failed => some St.storeRecoveryFailed
  | _ => none

/-- A store change may be journalled now (R258, R639). -/
def canChange (s : State) : Bool := ringUp s && decide (s.store.nextSeq < s.store.committed + 2 ^ 36)

/-- A block is formed: it chains from the last and takes the next SEQ; what it changes is written to the cold store (R62, R75, R639, log entry 26). -/
def formBlock (page : Option Nat) (text : Bytes) (c : Content) (s : State) : State :=
  let st := s.store
  let seq := st.nextSeq
  let d : JDesc := { page := page, prev := st.prevSeq, headIn := headOf st.prevSeq s, epoch := st.epoch, text := text ++ contentDelta st.c c, after := c }
  { s with
    store.c := c
    store.cold := coldWrites s.vault.hbmKey st.c.keys c.keys st.cold
    store.hist := tset st.hist seq d
    store.nextSeq := seq + 1
    store.prevSeq := seq
    host.jring.blocks := s.host.jring.blocks ++ [{ seq := seq }] }

/-- A change of the store and its journal entry. -/
def storeChange (text : Bytes) (f : Content → Content) (s : State) : State := formBlock none text (f s.store.c) s

/-- SEQ of the latest entry. -/
def lastSeq (s : State) : Nat := s.store.nextSeq - 1

/-- A page is captured as a page block (R75). -/
def journalPage (page : Nat) (s : State) : State :=
  let s' := formBlock (some page) [] s.store.c s
  { s' with store.sweep := tset s'.store.sweep page s.store.nextSeq }

/-- The slots a key occupies. -/
def keySlots (slot : Nat) (k : KeyRec) : List Nat := (List.range k.slots).map (· + slot)

/-- Slots occupied by records. -/
def slotsUsed (c : Content) : Nat := (c.keys.map (fun p => p.2.slots)).foldl (· + ·) 0

/-- The keys of an owner, by first slot. -/
def ownerKeys (o : Nat) (c : Content) : List (Nat × KeyRec) := c.keys.filter (fun p => p.2.owner == o)

/-- KEYS_USED of an owner (R91). -/
def keysUsed (o : Nat) (c : Content) : Nat := ((ownerKeys o c).map (fun p => p.2.slots)).foldl (· + ·) 0

/-- COUNTERS_USED of an owner (R91). -/
def countersUsed (o : Nat) (c : Content) : Nat := (c.counters.filter (fun p => p.2.owner == o)).length

/-- The pages that hold content (R75, R97, R99). -/
def contentPages (c : Content) : List Nat :=
  let ps := (c.keys.map (fun p => (keySlots p.1 p.2).map (· / 256))).flatten ++ c.owners.map (fun p => 131072 + p.1 / 1024) ++
    c.counters.map (fun p => 132096 + p.1 / 4096) ++ c.creds.map (fun p => 132352 + p.1 / 32) ++ c.policies.map (fun p => 134400 + p.1 / 256)
  ps.foldl addNew []

/-- The generation a slot has that is not the first slot of a record (R49). -/
def slotGen (c : Content) (slot : Nat) : Nat := tgetD c.gens slot c.genBase

/-- A slot is FREE: in no record, not RETIRED. -/
def slotFree (c : Content) (slot : Nat) : Bool :=
  !c.retired.contains slot && !c.keys.any (fun p => p.1 ≤ slot && slot < p.1 + p.2.slots)

/-- A first slot is freed: its generation is one more, or it is RETIRED at the last generation (R49, R647). -/
def freeKey (slot : Nat) (c : Content) : Content :=
  match tget c.keys slot with
  | none => c
  | some k =>
    let c := { c with keys := tdel c.keys slot }
    if 0xFFFFFFFF ≤ k.gen then { c with retired := addNew c.retired slot }
    else { c with gens := tset c.gens slot (k.gen + 1) }

/-- Values reserved by one ceiling (R74). -/
def reservation (k : KeyRec) : Nat := if k.attr / 4 % 4 = 0 then 2 ^ 32 else 2 ^ 24

/-- The last invocation value a key's IV_MODE allows (R71). -/
def invocationLimit (k : KeyRec) : Nat := if k.attr / 4 % 4 = 1 then 2 ^ 32 else 2 ^ 64 - 1

/-- The ceiling one reservation above a value, never past the key's limit (R71, R74). -/
def nextCeiling (v : Nat) (k : KeyRec) : Nat := min (invocationLimit k + 1) (v + reservation k)

/-- The next ceiling of a secure counter: a reservation of 2^16 above a value, at most the last value (R86, log entry 152). -/
def counterTop (v : Nat) : Nat := min (2 ^ 64 - 1) (v + 2 ^ 16)

/-- A reservation of uses: 1,024, or the uses remaining if fewer (R74). -/
def usesFloorOf (uses : Nat) : Nat := uses - 1024

/-- Bytes of private material (R53). -/
def privLen (t n : Nat) : Nat := if t = 0x10 then 5 * n / 16 else (n + 7) / 8

/-- Bytes of public material of an asymmetric key. -/
def pubLen (t n : Nat) : Nat :=
  match t with
  | 0x10 => n / 8 + 8
  | 0x20 => 65
  | 0x21 => 97
  | 0x22 => 133
  | 0x28 | 0x2A => 32
  | 0x29 => 57
  | 0x2B => 56
  | 0x30 => 1184
  | 0x31 => 1568
  | 0x38 => 1952
  | 0x39 => 2592
  | _ => 0

/-- The private material that random bits give a type and length, and its public part: the bits themselves, but for RSA what its prime search makes of them (R58). -/
def keyFrom (t n : Nat) (bits : Bytes) : Bytes × Bytes :=
  let m := if t = 0x10 then prim (privLen t n) .keyPair [[0x50], bits] else bits
  (m, if t < 0x10 then [] else prim (pubLen t n) .keyPair [leBytes 1 t, m])

/-- KEY_REPLACE's last part: the next generation of the same key with fresh material (step 4 of R82). -/
def replaceKey (slot : Nat) (a b pub : Bytes) (seq : Nat) (c : Content) : Content :=
  match tget c.keys slot with
  | none => c
  | some k =>
    let uses := if !bitOf k.attr 7 then 0 else if k.newUses ≠ 0 then k.newUses else k.uses
    let ceil := nextCeiling 1 k
    let k : KeyRec :=
      { k with
        state := .active, gen := k.gen + 1, invocation := 1, ceiling := ceil, ceilOld := ceil, ceilSeq := seq, uses := uses
        usesFloor := usesFloorOf uses, usesFloorOld := usesFloorOf uses, usesSeq := 0, shareA := a, shareB := b, pub := pub, replace := false, newUses := 0, drainUs := 0 }
    { c with keys := tset c.keys slot k }

/-- The on-demand commit starts when the bucket holds a token and the host has acknowledged what it must cover (R76, R78). -/
def tryCommit (s : State) : State :=
  let st := s.store
  if st.wanted && decide (st.wantSeq ≤ s.host.jring.ackedSeq) && decide (0 < st.tokens) && !st.committing && !s.commit.stopped then
    { s with store.wanted := false, store.tokens := st.tokens - 1, store.committing := true, store.commitSeq := max st.committed s.host.jring.ackedSeq }
  else s

/-- A commit covering a SEQ is wanted; below 64 usable pages only ceilings ask for one (R78). -/
def wantCommit (ceiling : Bool) (seq : Nat) (s : State) : State :=
  if ceiling || 64 ≤ usablePages s then
    tryCommit { s with store.wanted := true, store.wantSeq := max s.store.wantSeq seq }
  else s

/-- The answer of a command that waits for the commit covering its changes (R79). -/
def durableAns (r : Resp) (s : State) : Ans × State :=
  (.hold (.commit (lastSeq s) r), wantCommit false (lastSeq s) s)

/-- The answer, durable or not as the request asks (R79). -/
def maybeDurable (durable : Bool) (r : Resp) (s : State) : Ans × State := if durable then durableAns r s else (.reply r, s)

/-- A command that changes the store: its refusals, its checks, then its effect once entries can be journalled (R80, R258, R541). -/
def storeCheck (check : Mb → Req → State → Option Nat) : Mb → Req → State → Option Nat := fun mb q s =>
  match storeRefuse s with
  | some st => some st
  | none => match check mb q s with
    | some st => some st
    | none => if storeStopped s then some St.storeWorn else none

/-- The effect waits, with nothing done, while no entry can be journalled (R258). -/
def storeRun (run : Handler) : Handler := fun mb q s => if canChange s then run mb q s else (.stay, s)

/-- A store-changing command issued directly. -/
def storeCmd (check : Mb → Req → State → Option Nat) (run : Handler) : Handler := direct (storeCheck check) (storeRun run)

/-- A command that only reads the store. -/
def storeRead (check : Mb → Req → State → Option Nat) (run : Handler) : Handler :=
  direct (fun mb q s => match storeRefuse s with | some st => some st | none => check mb q s) run

/-- COMMIT_PERIODIC: the interval elapses (R78). -/
def execCommitPeriodic (s : State) : Out :=
  let st := s.store
  .next (if 0 < st.tokens && !st.committing && !s.commit.stopped then
    { s with store.tokens := st.tokens - 1, store.committing := true, store.commitSeq := max st.committed s.host.jring.ackedSeq,
             store.wanted := st.wanted && decide (s.host.jring.ackedSeq < st.wantSeq) }
  else s)

/-- COMMIT_BUCKET_REFILL: a token, at most 8, and a waiting commit may start (R78). -/
def execCommitBucketRefill (s : State) : Out := .next (tryCommit { s with store.tokens := min 8 (s.store.tokens + 1) })

/-- The lowest SEQ the host must keep: the oldest of the latest captures, once every page with content has one within the commit (R75, R645). -/
def newFloor (s : State) : Nat :=
  let ps := contentPages s.store.c
  let caps := ps.map (fun p => tgetD s.store.sweep p 0)
  if caps.isEmpty || caps.any (fun q => q < s.store.floor || s.store.committed < q) then s.store.floor
  else caps.foldl min s.store.committed

/-- Commits stop: a command caught by the stop completes with STORE_WORN, named in the log (R541). -/
def commitStop (s : State) : State :=
  s.mbox.foldl (fun s p =>
    let mb := mbOfKey p.1
    let b := getMb mb s
    match b.cur, b.wait with
    | some q, .commit _ r => finishMb mb { r with status := St.storeWorn } (stopRec mb q s)
    | some q, .commitWrite _ _ _ r => finishMb mb { r with status := St.storeWorn } (stopRec mb q s)
    | _, _ => s) s
where
  stopRec (mb : Mb) (q : Req) (s : State) : State :=
    logCode 0x0202 0 [(0, 8, q.reqId), (8, 2, match mb with | .pf p m => p + 0x4000 * m | .vf n => 0x1000 + n)] s

/-- A window reset whose keys are gone and committed ends: registers at their reset values, the map kept; a release empties it too (step 4 of R630, R635). -/
def windowDone (w : Nat) (k : Kcw) (s : State) : State :=
  let s := { s with kcw := if k.releasing then tdel s.kcw w else tset s.kcw w { assign := k.assign, stand := k.stand, map := k.map } }
  if k.releasing then
    s.mbox.foldl (fun s p => deliver (mbOfKey p.1) 0x0431 (· == .window w) { body := leBytes 4 k.destroyed } s) s
  else s

/-- Window resets that wait for nothing more end (R630). -/
def windowsSettle (s : State) : State :=
  s.kcw.foldl (fun s p => if p.2.phase = .resetting ∧ p.2.drain = [] ∧ p.2.resetSeq ≤ s.store.committed then windowDone p.1 p.2 s else s) s

/-- What waits for a commit and is now covered: commands, contexts, transmit SAs (R74, R79, R326). -/
def commitCovers (s : State) : State :=
  let n := s.store.committed
  let s := { s with
    ctxs := tmap s.ctxs (fun _ x => { x with waits := x.waits.filter (fun w => match w with | .commit q => decide (n < q) | _ => true) })
    eth.sas := tmap s.eth.sas (fun _ a => { a with ready := a.ready || decide (a.readySeq ≤ n) })
    store.floor := newFloor s }
  let due (g : GateCall) : Bool := match g.hold with | some (q, _) => decide (q ≤ n) | none => false
  let s := s.cores.taken.foldl (fun s g => match g.hold with
    | some (_, r) => if due g then { s with units.fab := memWriteN s.units.fab (g.buffer + 0x40) r } else s
    | none => s) s
  windowsSettle (settleWaits { s with cores.taken := s.cores.taken.map (fun g => if due g then { g with hold := none, answered := true } else g) })

/-- The interrupted destructions are complete: the commands that were running are answered INDETERMINATE (R84, R287). -/
def finishEnds (s : State) : State :=
  if s.store.answerDue && !finishing s then indeterminateAll { s with store.answerDue := false } else s

/-- COMMIT_DONE: the commit record is in the partition, or its slot failed its verify and the record went to the next (R77, R540, R541). -/
def execCommitDone (ok : Bool) (s : State) : Out :=
  .next (if !s.store.committing then s else
    let (c, retired) := commitAppend ok (s.store.commitNo + 1) s.commit
    let s := { s with commit := c, store.committing := false }
    let s := if retired then correctedReport 0x10 0xFFF false s else s
    let s := if c.stopped then commitStop s
      else commitCovers { s with
        store.commitNo := s.store.commitNo + 1, store.committed := s.store.commitSeq, store.commitRec := commitRecord (s.store.commitNo + 1) s.store.commitSeq s }
    refreshMode (serviceStands 0x1F (storeStopped s) (tryCommit (finishEnds s))))

/-- Written blocks not acknowledged (QMG_JR_STATUS). -/
def unacked (s : State) : Nat := (s.host.jring.blocks.filter (·.written)).length

/-- The state of the ring changes and its PF's event is raised (GBL_EVENT.JRING). -/
def setJring (st : JrState) (s : State) : State :=
  if s.host.jring.state = st then s else raiseEvent (.pf s.host.jring.pf) 6 { s with host.jring.state := st }

/-- Entries of the ring. -/
def jrSize (s : State) : Nat := 2 ^ s.host.jring.log2

/-- An event entry at the event ring's tail, then vector 9; a fault puts the ring in ERROR (R259, R262). -/
def jrEvent (seq len idx kind : Nat) (s : State) : State :=
  let j := s.host.jring
  let a := j.evtAddr + 16 * j.evTail
  if !hostOk (.pf s.host.jring.pf) a 16 s then setJring .error s
  else
    let s := hostWrite a (layout 16 [(0, 8, seq), (8, 4, len), (0x0C, 2, idx), (0x0E, 1, kind), (0x0F, 1, b2n j.phase)]) s
    let t := (j.evTail + 1) % jrSize s
    sendVec (.pf j.pf) 9 { s with host.jring := { j with evTail := t, evHeld := j.evHeld + 1, phase := if t = 0 then !j.phase else j.phase } }

/-- The posted buffer at the ring's head: address and length. -/
def jrBuffer (s : State) : Nat × Nat :=
  let e := memReadN s.host.mem (s.host.jring.ringAddr + 16 * s.host.jring.head) 16
  (fld e 0 8, fld e 8 4)

/-- A PF may issue requests: Bus Master Enable is set and it is in D0 (R232, R578). -/
def pfWrites (p : Nat) (s : State) : Bool := (getFn (.pf p) s).busMaster && !inD3 (.pf p) s

/-- JOURNAL_BLOCK_WRITE: the oldest unwritten block goes whole into the next posted buffer that fits; a buffer too short is skipped and reported (R75, R259, R260, R262). -/
def execJournalBlockWrite (s : State) : Out :=
  .next (
    let j := s.host.jring
    match j.blocks.find? (fun b => !b.written) with
    | none => s
    | some b =>
      if j.state != .output || !pfWrites j.pf s || j.head == j.tail || jrSize s ≤ j.evHeld || 4096 ≤ unacked s then s
      else if !hostOk (.pf j.pf) (j.ringAddr + 16 * j.head) 16 s then setJring .error s
      else
        let d := tgetD s.store.hist b.seq {}
        let (addr, len) := jrBuffer s
        let s' := { s with host.jring.head := (j.head + 1) % jrSize s }
        if len < blockLen d then jrEvent b.seq (blockLen d) j.head 0x82 s'
        else if !hostOk (.pf s.host.jring.pf) addr (blockLen d) s then setJring .error s
        else
          let bs := j.blocks.map (fun x => if x.seq = b.seq then { x with written := true } else x)
          let s' := hostWrite addr (blockBytes b.seq d s) { s' with host.jring.blocks := bs, store.head := max s.store.head b.seq }
          let s' := { s' with host.jring.stalled := decide (4096 ≤ unacked s') }
          jrEvent b.seq (blockLen d) j.head (if d.page.isSome then 2 else 1) s')

/-- JOURNAL_PAGE_SWEEP: a page with content that is due is captured again (R75). -/
def execJournalPageSweep (page : Nat) (s : State) : Out :=
  .next (if s.store.state == .ready && canChange s && (contentPages s.store.c).contains page then journalPage page s else s)

/-- QMG_JR_POST (R250, R259, R262). -/
def execQmgJrPost (p index : Nat) (s : State) : Out :=
  onUnit (p < 4) (
    let j := s.host.jring
    if inD3 (.pf p) s then s
    else
    let s := hostWake s
    if j.state == .off || j.state == .error || j.pf != p then countDoorbell (.pf p) s
    else if jrSize s ≤ index then setJring .error s
    else { s with host.jring.tail := index })

/-- QMG_JR_EVHEAD (R250, R262). -/
def execQmgJrEvhead (p index : Nat) (s : State) : Out :=
  onUnit (p < 4) (
    let j := s.host.jring
    if inD3 (.pf p) s then s
    else
    let s := hostWake s
    if j.state == .off || j.state == .error || j.pf != p then countDoorbell (.pf p) s
    else if jrSize s ≤ index then setJring .error s
    else { s with host.jring.evHead := index, host.jring.evHeld := j.evHeld - (index + jrSize s - j.evHead) % jrSize s })

/-- The contiguous acknowledged SEQ after an acknowledgement: everything before the oldest block still held (R76, R260). -/
def contiguous (blocks : List JrBlock) (acked : List Nat) (old : Nat) : Nat :=
  ((match blocks with | [] => acked | b :: _ => acked.filter (· < b.seq)).foldl max old)

/-- QMG_JR_ACK: a block is durable in host storage (R76, R260, R262). -/
def execQmgJrAck (p : Nat) (seq : DWord) (s : State) : Out :=
  onUnit (p < 4) (
    let j := s.host.jring
    if inD3 (.pf p) s then s
    else
    let s := hostWake s
    if j.state == .off || j.pf != p then countDoorbell (.pf p) s
    else
      let s := { s with host.jring.ackShadow := tset j.ackShadow p seq }
      let n := seq.toNat
      if !j.blocks.any (fun b => b.seq == n && b.written) then countDoorbell (.pf p) s
      else
        let blocks := j.blocks.filter (fun b => b.seq != n)
        let acked := n :: j.acked
        let c := contiguous blocks acked j.ackedSeq
        let s := { s with host.jring := { j with ackShadow := tset j.ackShadow p seq, blocks := blocks, ackedSeq := c, acked := acked.filter (c < ·) } }
        tryCommit { s with host.jring.stalled := decide (4096 ≤ unacked s) })

/-- The checks of JRING_SETUP (R258, R642). -/
def jringSetupCheck (mb : Mb) (q : Req) (s : State) : Option Nat :=
  let b := q.body
  let j := s.host.jring
  if fld b 0 8 % 4096 ≠ 0 || fld b 8 8 % 4096 ≠ 0 || fld b 0x10 1 < 6 || 12 < fld b 0x10 1 then some St.queueInvalid
  else if j.state != .off && mbFn mb != .pf j.pf && !bitOf (fld b 0x14 4) 0 then some St.ringBusy
  else none

/-- JRING_SETUP sets the ring up or moves it; every block above the contiguous acknowledged SEQ is written again (R258, R642). -/
def jringSetupRun (mb : Mb) (q : Req) (s : State) : Ans × State :=
  let b := q.body
  let j := s.host.jring
  let p := match mb with | .pf p _ => p | .vf _ => 0
  let j' : JRing :=
    { j with
      pf := p, ringAddr := fld b 0 8, evtAddr := fld b 8 8, log2 := fld b 0x10 1, head := 0, tail := 0, evTail := 0
      evHead := 0, evHeld := 0, phase := true, blocks := j.blocks.map (fun x => { x with written := false }), stalled := false }
  let s := setJring (if s.store.recoverMb.isSome then .input else .output) { s with host.jring := j' }
  (.reply { body := layout 16 [(0, 8, s.store.head), (8, 8, j.ackedSeq)] }, s)

/-- JRING_SETUP (R258, R642). -/
def execJringSetup (mb : Mb) (s : State) : Out := runCmd mb 0x0310 (direct jringSetupCheck jringSetupRun) s

/-- The checks of JRING_STOP (R642). -/
def jringStopCheck (mb : Mb) (_ : Req) (s : State) : Option Nat :=
  if s.host.jring.state != .off && mbFn mb != .pf s.host.jring.pf then some St.ringBusy
  else if s.store.recoverMb.isSome then some St.stateConflict else none

/-- JRING_STOP (R258, R642). -/
def execJringStop (mb : Mb) (s : State) : Out :=
  runCmd mb 0x0311 (direct jringStopCheck (fun _ _ s => (.reply { body := leBytes 8 s.host.jring.ackedSeq }, setJring .off s))) s

/-- GBL_STORE.STATE changes and every PF's event is raised. -/
def setStoreState (st : StoreState) (s : State) : State :=
  if s.store.state = st then s else eventAllPfs 1 { s with store.state := st }

/-- Step 5 of R80: the generation of every FREE slot is one more. -/
def bumpFree (c : Content) : Content :=
  let cont := (c.keys.map (fun p => (keySlots p.1 p.2).drop 1)).flatten
  let held := (c.gens.map (fun p => if cont.contains p.1 || (tget c.keys p.1).isSome then p else (p.1, p.2 + 1)))
  let fixed := cont.foldl (fun g n => if (tget g n).isSome then g else tset g n c.genBase) held
  { c with gens := fixed.filter (fun p => p.2 ≤ 0xFFFFFFFF), genBase := c.genBase + 1,
           retired := (held.filter (fun p => 0xFFFFFFFF < p.2)).foldl (fun r p => addNew r p.1) c.retired }

/-- Step 7 of R80 for one record: a destruction is completed, EXPIRE_AT_RESET is destroyed, counters resume at their committed ceilings. -/
def recoverKey (slot : Nat) (s : State) : State :=
  match tget s.store.c.keys slot with
  | none => s
  | some k =>
    if k.state = .revoking && k.replace && !bitOf k.attr 6 then
      match takeKeyBits (decide (0x10 ≤ k.type)) k.shareA.length s with
      | (some (m, r), s) =>
        let (m, p) := keyFrom k.type k.length m
        { s with store.c := replaceKey slot r (xorBytes m r) p s.store.nextSeq s.store.c }
      | (none, s) => s
    else if k.state = .revoking || bitOf k.attr 6 then { s with store.c := freeKey slot s.store.c }
    else
      let spent := (bitOf k.attr 7 && k.usesFloor = 0) || invocationLimit k < k.ceiling
      let k := { k with
        invocation := k.ceiling, uses := k.usesFloor, saBound := 0, ceilOld := k.ceiling, usesFloorOld := k.usesFloor
        state := if spent then .exhausted else k.state }
      { s with store.c.keys := tset s.store.c.keys slot k }

/-- The SEQ the journal resumes at: the committed SEQ + 2^36, and above every SEQ ever formed (R80, R639, log entry 145). -/
def resumeSeq (s : State) : Nat := (s.store.hist.map (fun p => p.1 + 1)).foldl max (s.store.committed + 2 ^ 36)

/-- The next block chains from the committed head; blocks above the committed SEQ are abandoned (R80, R639). -/
def resumeJournal (s : State) : State :=
  let n := s.store.committed
  { s with store.nextSeq := resumeSeq s, store.prevSeq := n, host.jring.blocks := [], host.jring.acked := [], host.jring.ackedSeq := n }

/-- Every key's and counter's next ceiling, as a recovery leaves none to issue under (R74, R80, R86). -/
def renewAll (seq : Nat) (c : Content) : Content :=
  { c with
    keys := tmap c.keys (fun _ k =>
      let k := if k.ceiling ≤ invocationLimit k then { k with ceilOld := k.ceiling, ceiling := nextCeiling k.ceiling k, ceilSeq := seq } else k
      if bitOf k.attr 7 && k.usesFloor ≠ 0 then { k with usesFloorOld := k.usesFloor, usesFloor := usesFloorOf k.usesFloor, usesSeq := seq } else k)
    counters := tmap c.counters (fun _ k => { k with ceilOld := k.ceiling, ceiling := counterTop k.ceiling, ceilSeq := seq }) }

/-- The first block after a recovery or a rebase, with the ceilings it journals, and the commit it needs (R639, log entry 145). -/
def firstBlock (s : State) : State :=
  let s := storeChange [] (renewAll s.store.nextSeq) s
  wantCommit true (lastSeq s) s

/-- Recovery has reached the committed head: the store is READY (steps 4 to 7 of R80). -/
def recoverDone (s : State) : State :=
  let n := s.store.committed
  let c := bumpFree ((tget s.store.hist n).getD {}).after
  let c := { c with counters := tmap c.counters (fun _ k => { k with value := k.ceiling, ceilOld := k.ceiling }) }
  let s := { resumeJournal s with store.c := c, store.sweep := [], meter.live := c.meters }
  let s := (c.keys.map (·.1)).foldl (fun s k => recoverKey k s) s
  setStoreState .ready (firstBlock s)

/-- The store at the end of a recovery; the ring returns to output direction (R80, R261). -/
def closeRecovery (ok : Bool) (s : State) : State :=
  let s := { s with store.recoverMb := none }
  setJring .output (if ok then recoverDone s else setStoreState .failed { s with store.c := {} })

/-- The answer to STORE_RECOVER: the committed SEQ, the key records whatever their state as SLOTS_ACTIVE (R87 names the field only: log entry 153), and the SEQ the journal resumed at (R80). -/
def recoverResp (n next : Nat) (ok : Bool) (s : State) : Resp :=
  if ok then { body := layout 24 [(0, 8, n), (8, 4, s.store.c.keys.length), (0x10, 8, next)] } else fail St.storeRecoveryFailed

/-- Recovery ends and its command is answered (R80, R261). -/
def endRecovery (ok : Bool) (s : State) : State :=
  let t := closeRecovery ok s
  match s.store.recoverMb with
  | none => t
  | some mb => deliver mb 0x030B (· == .recover) (recoverResp s.store.committed (resumeSeq s) ok t) t

/-- A block read in recovery is one the device wrote, and continues the chain (step 3 of R80, log entry 26). -/
def blockVerifies (d : Bytes) (s : State) : Bool :=
  let seq := fld d 8 8
  match tget s.store.hist seq with
  | none => false
  | some x => d == blockBytes seq x s && x.prev == s.store.lastIn

/-- JRING_INPUT_BLOCK: the next posted buffer is read and its block checked (R80, R261, R262). -/
def execJringInputBlock (s : State) : Out :=
  .next (
    let j := s.host.jring
    if j.state != .input || !pfWrites j.pf s || j.head == j.tail || jrSize s ≤ j.evHeld then s
    else if !hostOk (.pf j.pf) (j.ringAddr + 16 * j.head) 16 s then setJring .error s
    else
      let (addr, len) := jrBuffer s
      if !hostOk (.pf s.host.jring.pf) addr len s then setJring .error s
      else
        let d := memReadN s.host.mem addr len
        let seq := fld d 8 8
        let s' := { s with host.jring.head := (j.head + 1) % jrSize s }
        if seq ≤ s.store.lastIn then jrEvent seq len j.head 0x83 s'
        else if s.store.committed < seq then jrEvent seq len j.head 0x80 s'
        else if !blockVerifies d s then endRecovery false (jrEvent seq len j.head 0x81 s')
        else
          let s' := jrEvent seq len j.head 0x80 { s' with store.lastIn := seq }
          if seq = s.store.committed then endRecovery (headOf seq s == commitHead s.store.commitRec) s' else s')

/-- The checks of STORE_RECOVER (R645). -/
def storeRecoverCheck (_ : Mb) (q : Req) (s : State) : Option Nat :=
  if s.store.state != .loading || s.store.recoverMb.isSome || s.host.jring.state == .off then some St.stateConflict
  else if fld q.body 0 8 ≠ s.store.floor || fld q.body 8 8 ≠ s.store.committed then some St.fieldInvalid
  else none

/-- STORE_RECOVER: the ring turns to input direction, its head at its tail (R80, R261). Where the floor stands above the committed SEQ there is no block to supply, and the recovery ends at once (log entry 145). -/
def storeRecoverRun (mb : Mb) (_ : Req) (s : State) : Ans × State :=
  if s.store.committed < s.store.floor then
    let ok := (tget s.store.hist s.store.committed).isNone
    let t := closeRecovery ok s
    (.reply (recoverResp s.store.committed (resumeSeq s) ok t), t)
  else
    let s := { s with store.recoverMb := some mb, store.lastIn := ((tget s.store.hist s.store.floor).getD {}).prev,
                      store.c := {}, host.jring.head := s.host.jring.tail }
    (.hold .recover, setJring .input s)

/-- STORE_RECOVER (R80, R261, R645). -/
def execStoreRecover (mb : Mb) (s : State) : Out := runCmd mb 0x030B (direct storeRecoverCheck storeRecoverRun) s

/-- The check of STORE_COMMIT (R78, R643). -/
def storeCommitCheck (_ : Mb) (q : Req) (_ : State) : Option Nat :=
  let i := fld q.body 0 4
  if i ≠ 0 && (i < 125 || 10000 < i) then some St.fieldInvalid else none

/-- The effect of STORE_COMMIT (R78). -/
def storeCommitRun (_ : Mb) (q : Req) (s : State) : Ans × State :=
  let i := fld q.body 0 4
  let s := if i = 0 then s else { s with store.interval := i }
  if !bitOf (fld q.body 4 4) 0 || lastSeq s ≤ s.store.committed then (.reply { body := leBytes 8 s.store.committed }, s)
  else (.hold (.commitNow (lastSeq s)), wantCommit false (lastSeq s) s)

/-- STORE_COMMIT (R78). -/
def execStoreCommit (mb : Mb) (s : State) : Out := runCmd mb 0x0309 (direct storeCommitCheck storeCommitRun) s

/-- STATE of GBL_STORE. -/
def storeCode : StoreState → Nat
  | .empty => 0
  | .loading => 1
  | .ready => 2
  | .failed => 3

/-- GBL_STORE. -/
def storeWord (s : State) : Nat := storeCode s.store.state + 4 * usablePages s + 2 ^ 12 * b2n (decide (usablePages s < 64))

/-- STORE_STATUS (R87). -/
def execStoreStatus (mb : Mb) (s : State) : Out :=
  runCmd mb 0x030A (fun _ _ s =>
    let used := slotsUsed s.store.c
    (.reply { body := layout 40 [(0, 1, storeCode s.store.state), (2, 2, usablePages s), (8, 8, s.store.head), (0x10, 8, s.store.committed),
      (0x18, 8, s.store.floor), (0x20, 4, 33554431 - used - s.store.c.retired.length), (0x24, 4, used)] }, s)) s

end Sys2Proof.Machine
end

