-- ==== Sys2Proof/Machine/Keys.lean ====
section
/-! DEFINITION. Keys: types, handles, governing policies, admission, invocation values, the Sapwood (chapter 03). -/

namespace Sys2Proof.Machine

/-- Slots of an RSA record by modulus length (R53). -/
def rsaSlots (n : Nat) : Nat := 1 + (3 * n / 4 - 184 + 239) / 240

/-- Whether a TYPE code is defined (R53). -/
def typeKnown (t : Nat) : Bool :=
  [0x01, 0x02, 0x03, 0x04, 0x05, 0x10, 0x20, 0x21, 0x22, 0x28, 0x29, 0x2A, 0x2B, 0x30, 0x31, 0x38, 0x39].contains t

/-- Whether a type may have a length in bits (R53; for seeds the length of the seeds, log entry 42). -/
def lengthOk (t n : Nat) : Bool :=
  match t with
  | 0x01 | 0x04 => n == 128
  | 0x02 | 0x20 | 0x28 | 0x2A | 0x38 | 0x39 => n == 256
  | 0x03 => 128 ≤ n && n ≤ 1024 && n % 8 == 0
  | 0x05 => n == 192
  | 0x10 => 2048 ≤ n && n ≤ 16384 && n % 256 == 0
  | 0x21 => n == 384
  | 0x22 => n == 521
  | 0x29 => n == 456
  | 0x2B => n == 448
  | 0x30 | 0x31 => n == 512
  | _ => false

/-- Slots a key occupies (R53). -/
def typeSlots (t n : Nat) : Nat :=
  match t with
  | 0x03 => if 768 < n then 2 else 1
  | 0x10 => rsaSlots n
  | 0x22 => 2
  | _ => 1

/-- Whether a type is asymmetric. -/
def asymmetric (t : Nat) : Bool := 0x10 ≤ t

/-- Sapwood entries a key's private material takes (R53, R63). -/
def sapEntries (k : KeyRec) : Nat := if bitOf k.attr 9 then 0 else (privLen k.type k.length + 31) / 32

/-- Purposes a type may be created with (R638). -/
def createPurposes (t : Nat) : List Nat :=
  match t with
  | 0x01 | 0x02 => [1, 2, 3, 4, 5]
  | 0x03 => [5, 4]
  | 0x04 => [1, 2, 3, 5]
  | 0x05 => [1, 2, 3]
  | 0x10 => [6, 7, 3]
  | 0x20 | 0x21 | 0x22 => [6, 7, 8]
  | 0x28 | 0x29 => [6, 7]
  | 0x2A | 0x2B => [8]
  | 0x30 | 0x31 => [8, 3]
  | 0x38 | 0x39 => [6, 7]
  | _ => []

/-- ATTR bits (R52). -/
def attrExportable : Nat := 0
def attrHostIv : Nat := 1
def attrExpire : Nat := 6
def attrUseCount : Nat := 7
def attrRaw : Nat := 8
def attrPublic : Nat := 9

/-- IV_MODE of a record: 0 DEVICE, 1 RANDOM, 2 HOST. -/
def ivMode (attr : Nat) : Nat := bits attr 3 2

/-- The handle of a key (R48). -/
def handleOf (slot gen : Nat) : Nat := slot + 2 ^ 32 * gen

/-- Resolution of a handle for an owner; no owner means any (R50, R95). -/
def resolve (h : Nat) (owner : Option Nat) (s : State) : Option (Nat × KeyRec) :=
  let slot := h % 2 ^ 25
  if bits h 31 25 ≠ 0 then none
  else match tget s.store.c.keys slot with
    | none => none
    | some k => if k.gen = h / 2 ^ 32 && (owner.isNone || owner == some k.owner) then some (slot, k) else none

/-- Change a key record. -/
def modKey (slot : Nat) (f : KeyRec → KeyRec) (s : State) : State := putKeys (tmod s.store.c.keys slot f) s

/-- A key's private material, the exclusive or of its shares (R63). -/
def material (k : KeyRec) : Bytes := xorBytes k.shareA k.shareB

/-- The policy that governs a key or a creation: its own, or the owner's ADMIN_POLICY (R99). -/
def governing (owner policy : Nat) (s : State) : Nat :=
  if policy ≠ 0 then policy else match getOwner owner s with | some o => o.adminPolicy | none => 0

/-- An EXTRA designation of a policy (R99). -/
def extraBit (policy bit : Nat) (s : State) : Bool :=
  match tget s.store.c.policies policy with
  | some p => bitOf p.extra bit
  | none => false

/-- The mask mode in force for a key: its own, its governing policy's default, or the device's (R67, R100). -/
def maskMode (k : KeyRec) (s : State) : Nat :=
  let m := bits k.attr 5 4
  if m ≠ 3 then m
  else match tget s.store.c.policies (governing k.owner k.policy s) with
    | some p => if p.defMask = 3 then s.store.defMask else p.defMask
    | none => s.store.defMask

/-- Whether anything holds a lease on a key: contexts, mailbox commands, digest engines, SAs (R70, R169, R274, R326). -/
def leased (slot : Nat) (s : State) : Bool :=
  s.ctxs.any (fun p => p.2.leases.any (fun l => l.1 == slot)) ||
  s.mbox.any (fun p => (p.2.job.map (fun j => j.slot == slot)).getD false) ||
  s.units.dges.any (fun p => (p.2.lease.map (fun l => l.1 == slot)).getD false) ||
  s.eth.sas.any (fun p => p.2.slot == slot)

/-- SAP_PINNED: entries pinned by leases (R64, R65). -/
def pinned (s : State) : Nat :=
  ((s.store.sap.filter (fun p => leased p.1 s)).map (fun p => p.2.entries)).foldl (· + ·) 0

/-- Entries that the leases in force pin, or will once their keys are loaded (R65). -/
def pinClaim (s : State) : Nat :=
  ((s.store.c.keys.filter (fun p => leased p.1 s)).map (fun p => sapEntries p.2)).foldl (· + ·) 0

/-- New leases fit under the Sapwood's pin limit (R65). -/
def pinFits (ks : List (Nat × KeyRec)) (s : State) : Bool :=
  let new := ks.filter (fun p => !leased p.1 s)
  decide (pinClaim s + (new.map (fun p => sapEntries p.2)).foldl (· + ·) 0 ≤ 196608)

/-- SAP_STATUS.OCCUPIED: entries holding shares. -/
def sapOccupied (s : State) : Nat := (s.store.sap.map (fun p => p.2.entries)).foldl (· + ·) 0

/-- The uses floor covered by a completed commit (R74). -/
def usableFloor (k : KeyRec) (s : State) : Nat := if k.usesSeq ≤ s.store.committed then k.usesFloor else k.usesFloorOld

/-- The ceiling covered by a completed commit; the first counts from creation (R74). -/
def usableCeiling (k : KeyRec) (s : State) : Nat := if k.ceilSeq ≤ s.store.committed then k.ceiling else k.ceilOld

/-- A use can be charged now (R55, R74). -/
def useReady (k : KeyRec) (s : State) : Bool := !bitOf k.attr attrUseCount || decide (usableFloor k s < k.uses)

/-- Journal the next reservation of uses when fewer than half of one remain (R74). -/
def extendUses (slot : Nat) (k : KeyRec) (s : State) : State :=
  if bitOf k.attr attrUseCount && decide (k.uses < k.usesFloor + 512) && k.usesFloor ≠ 0 && canChange s && decide (k.usesSeq ≤ s.store.committed) then
    let seq := s.store.nextSeq
    let k' := { k with usesFloorOld := k.usesFloor, usesFloor := usesFloorOf k.usesFloor, usesSeq := seq }
    wantCommit true seq (storeChange [] (fun c => { c with keys := tset c.keys slot k' }) s)
  else s

/-- Charge one use; at 0 the key is EXHAUSTED (R55). -/
def chargeUse (slot : Nat) (s : State) : State :=
  match tget s.store.c.keys slot with
  | none => s
  | some k =>
    if !bitOf k.attr attrUseCount then s
    else
      let k := { k with uses := k.uses - 1, state := if k.uses ≤ 1 && k.state == .active then .exhausted else k.state }
      extendUses slot k (putKeys (tset s.store.c.keys slot k) s)

/-- Journal the next ceiling when fewer than half a reservation remain (R74). -/
def extendCeiling (slot : Nat) (k : KeyRec) (s : State) : State :=
  if decide (2 * k.ceiling < 2 * k.invocation + reservation k) && decide (k.ceiling ≤ invocationLimit k) && canChange s && decide (k.ceilSeq ≤ s.store.committed) then
    let seq := s.store.nextSeq
    let k' := { k with ceilOld := k.ceiling, ceiling := nextCeiling k.ceiling k, ceilSeq := seq }
    wantCommit true seq (storeChange [] (fun c => { c with keys := tset c.keys slot k' }) s)
  else s

/-- Every value a key's IV_MODE allows is taken (R71). -/
def valuesSpent (k : KeyRec) : Bool := decide (invocationLimit k < k.invocation)

/-- Take the next invocation value, if one is left and lies below the committed ceiling; the last makes an ACTIVE key EXHAUSTED; with none to take the next ceiling is asked for (R71, R73, R74). -/
def takeInvocation (slot : Nat) (s : State) : Option Nat × State :=
  match tget s.store.c.keys slot with
  | none => (none, s)
  | some k =>
    if valuesSpent k then (none, s)
    else if usableCeiling k s ≤ k.invocation then (none, extendCeiling slot k s)
    else
      let v := k.invocation
      let k := { k with invocation := v + 1, state := if invocationLimit k ≤ v && k.state == .active then .exhausted else k.state }
      (some v, extendCeiling slot k (putKeys (tset s.store.c.keys slot k) s))

/-- A key with no value to give: EXHAUSTED, or every value of its IV_MODE taken while it is REVOKING (R71, R152). -/
def keySpent (k : KeyRec) : Bool := k.state == .exhausted || valuesSpent k

/-- The admission of a key by its store's, owner's and record's state (R70, R80, R93). -/
def admission (k : KeyRec) (s : State) : Option Nat :=
  match storeRefuse s with
  | some st => some st
  | none =>
    match getOwner k.owner s with
    | none => some St.handleInvalid
    | some o =>
      if o.state != .active then some St.ownerDenied
      else match k.state with
        | .active => none
        | .revoking => some St.keyStale
        | .exhausted => some St.keyExhausted

/-- A key's shares are in the Sapwood, or it has none to be there (R63, R64). -/
def inSapwood (slot : Nat) (k : KeyRec) (s : State) : Bool :=
  sapEntries k = 0 || (match tget s.store.sap slot with | some i => i.gen == k.gen | none => false)

/-- A lease finds the key in the Sapwood, or starts its load (R64, SAP_HITS, SAP_MISSES). -/
def useSapwood (slot : Nat) (k : KeyRec) (s : State) : State :=
  if inSapwood slot k s then
    { s with store.hits := s.store.hits + 1, store.stamp := s.store.stamp + 1,
             store.sap := tmod s.store.sap slot (fun i => { i with stamp := s.store.stamp }) }
  else { s with store.misses := s.store.misses + 1, store.loading := addNew s.store.loading (slot, k.gen) }

/-- The least recently used item that nothing pins. -/
def lruItem (s : State) : Option Nat :=
  ((s.store.sap.filter (fun p => !leased p.1 s)).foldl
    (fun (b : Option (Nat × Nat)) p => match b with
      | none => some (p.1, p.2.stamp)
      | some (k, t) => if p.2.stamp < t then some (p.1, p.2.stamp) else some (k, t)) none).map (·.1)

/-- Evict until n entries are free (R64). -/
def evict (n : Nat) : Nat → State → State
  | 0, s => s
  | fuel + 1, s =>
    if sapOccupied s + n ≤ 262144 then s
    else match lruItem s with
      | none => s
      | some k => evict n fuel { s with store.sap := tdel s.store.sap k }

/-- The index of a key's first entry: a hash of its handle, keyed by the scramble key in modes SCRAMBLE and BOTH; neither hash is given (R67). -/
def sapIndex (slot : Nat) (k : KeyRec) (s : State) : Nat :=
  let h := leBytes 8 (handleOf slot k.gen)
  Config.prim .mac (if maskMode k s = 1 then [h] else [s.vault.scramble, h]) % 262144

/-- The stand whose slice holds an entry (R67, R69). -/
def sliceOf (index : Nat) : Nat := index / 32768

/-- A verified cold record is unsealed, re-masked with fresh bits and written into free entries; contexts waiting for the key go on. Without bits, or without room, the load waits (R63-R65). -/
def loadSapwood (slot : Nat) (s : State) : State :=
  let done (s : State) : State :=
    { s with
      store.loading := s.store.loading.filter (fun l => l.1 != slot)
      ctxs := tmap s.ctxs (fun _ x => { x with waits := without x.waits (.key slot) }) }
  match tget s.store.c.keys slot with
  | none => done s
  | some k =>
    let s' := evict (sapEntries k) (s.store.sap.length + 1) s
    if 262144 < sapOccupied s' + sapEntries k then s
    else match takeSap k.shareA.length s' with
    | (none, _) => askSap k.shareA.length s
    | (some r, s) =>
      let i : SapItem :=
        { gen := k.gen, shareA := xorBytes k.shareA r, shareB := xorBytes k.shareB r, entries := sapEntries k, index := sapIndex slot k s, stamp := s.store.stamp }
      done { s with store.sap := tset s.store.sap slot i, store.stamp := s.store.stamp + 1 }

/-- The cold slots of a key verify under the sealing key (R62). -/
def coldVerifies (slot : Nat) (s : State) : Bool :=
  match tget s.store.c.keys slot with
  | none => true
  | some k => (keySlots slot k).all (fun n => ((tget s.store.cold n).map (coldOk s.vault.hbmKey n)).getD false)

/-- COPPICE_MS as taken: 0 as 1, above 1,000 as 1,000 (SAP_CTRL). -/
def coppicePeriod (s : State) : Nat := max 1 (min 1000 s.store.coppiceMs)

/-- Entries of a slice that are re-masked: those of COPPICE and BOTH (R69). -/
def sliceEntries (st : Nat) (s : State) : Nat :=
  ((s.store.sap.filter (fun p => sliceOf p.2.index == st && ((tget s.store.c.keys p.1).map (fun k => maskMode k s != 0)).getD false)).map (fun p => p.2.entries)).foldl (· + ·) 0

/-- SAP_COPPICE_ACH.ACHIEVED_MS: the longest of the set period and E × 256 bits over 75 % of the bank's rate, in whole ms rounded up (R69, log entry 137). -/
def achievedMs (s : State) : Nat :=
  min 1023 ((stands.map (fun st => let r := if (getBank st s).cond then 1875 else 3750; (sliceEntries st s + r - 1) / r)).foldl max (coppicePeriod s))

/-- COPPICE_STEP: both shares take the same fresh mask, 256 bits an entry from wire 6 of the slice's own bank; a slice whose bank does not deliver is not re-masked (R67-R69, R216, R219). -/
def execCoppiceStep (slot : Nat) (s : State) : Out :=
  onUnit (slot < 33554432) (
    match tget s.store.sap slot, tget s.store.c.keys slot with
    | some i, some k =>
      let st := sliceOf i.index
      if maskMode k s = 0 || !delivers st s then s
      else match takeWire st 6 (32 * i.entries) s with
      | (none, s) => s
      | (some r, s) =>
        { s with
          store.sap := tset s.store.sap slot { i with shareA := xorBytes i.shareA (r.take i.shareA.length), shareB := xorBytes i.shareB (r.take i.shareB.length) }
          store.achieved := achievedMs s }
    | _, _ => s)

/-- Every Sapwood share is removed; cold records stay (R66). -/
def clearSapwood (s : State) : State := { s with store.sap := [], store.loading := [] }

/-- The first slot of the lowest free run of n slots (R51; any free run would do, log entry 43). -/
def findRun (n : Nat) (c : Content) : Option Nat :=
  let starts := 1 :: (c.keys.map (fun p => p.1 + p.2.slots) ++ c.retired.map (· + 1))
  let ok := starts.filter (fun a => a + n ≤ 33554432 && (List.range n).all (fun i => slotFree c (a + i)))
  ok.foldl (fun b a => match b with | none => some a | some x => some (min x a)) none

/-- The member index a key's IV_FIXED carries (R72). -/
def ivFixed (owner slot : Nat) (s : State) : Nat :=
  (match getOwner owner s with | some o => o.member | none => 0) % 128 * 2 ^ 25 + slot

/-- What a creation asks for. -/
structure NewKey where
  owner : Nat
  type : Nat
  purpose : Nat
  length : Nat
  policy : Nat
  attr : Nat
  uses : Nat
  durable : Bool
  slot : Option Nat
  origin : Nat
  deriving DecidableEq, Repr

/-- Slots a creation needs: those of its type, and room for the public material of a PUBLIC_ONLY record (R51-R53, log entry 154). -/
def newSlots (n : NewKey) : Nat :=
  let t := typeSlots n.type n.length
  if bitOf n.attr attrPublic then max t (1 + (pubLen n.type n.length - 192 + 239) / 240) else t

/-- The record of a new key. -/
def newRecord (n : NewKey) (slot seq : Nat) (a b pub : Bytes) (s : State) : KeyRec :=
  let uses := if bitOf n.attr attrUseCount then n.uses else 0
  let k : KeyRec :=
    { type := n.type, owner := n.owner, gen := slotGen s.store.c slot, length := n.length, purpose := n.purpose
      slots := newSlots n
      policy := n.policy, attr := n.attr, uses := uses, usesFloor := usesFloorOf uses, usesFloorOld := usesFloorOf uses
      ivFixed := ivFixed n.owner slot s, origin := n.origin, born := n.origin, createSeq := seq, shareA := a, shareB := b, pub := pub }
  { k with ceiling := nextCeiling 1 k, ceilOld := nextCeiling 1 k, ceilSeq := seq }

/-- Where a creation goes, or why it cannot (R51). -/
def placeKey (n : NewKey) (s : State) : Except Nat Nat :=
  match n.slot with
  | none => match findRun (newSlots n) s.store.c with | some a => .ok a | none => .error St.storeFull
  | some a =>
    if a < 1 || 33554431 < a || 33554432 < a + newSlots n then .error St.fieldInvalid
    else if (List.range (newSlots n)).all (fun i => slotFree s.store.c (a + i)) then .ok a
    else .error St.storeFull

/-- A VF mailbox acts only for its bound owner (R95). -/
def scopeOk (mb : Mb) (owner : Nat) (s : State) : Bool := !mbIsVf mb || mbOwner mb s == some owner

/-- The owner a command names: its number, scope and entry (R95, R640). -/
def ownerNamed (mb : Mb) (o : Nat) (s : State) : Option Nat :=
  if 0xFFFFF < o then some St.fieldInvalid
  else if !scopeOk mb o s then some St.ownerDenied
  else if (getOwner o s).isNone then some St.handleInvalid
  else none

/-- An owner that must be ACTIVE for keys and counters (R93, R640). -/
def ownerForKeys (mb : Mb) (o : Nat) (s : State) : Option Nat :=
  match ownerNamed mb o s with
  | some st => some st
  | none => if ownerActive o s then none else some St.ownerDenied

/-- A policy ID an object of an owner may name: 0, or a policy of that owner (R95, R99). -/
def policyOk (owner p : Nat) (s : State) : Bool :=
  p == 0 || (match tget s.store.c.policies p with | some x => x.owner == owner | none => false)

/-- The IV_MODE rules of a creation or change (R72). -/
def ivModeCheck (type purpose attr origin : Nat) : Option Nat :=
  if ivMode attr = 3 then some St.fieldInvalid
  else if (type = 1 || type = 2) && (purpose = 1 || purpose = 5) && ivMode attr = 0 && (origin = 1 || origin = 2) then some St.purposeDenied
  else none

/-- The checks common to KEY_GENERATE, KEY_IMPORT and KEY_DERIVE (R51, R53, R55, R72, R78, R94, R638, R640). -/
def createCheck (mb : Mb) (n : NewKey) (s : State) : Option Nat :=
  if !typeKnown n.type || n.purpose < 1 || 8 < n.purpose then some St.fieldInvalid
  else match ownerForKeys mb n.owner s with
  | some st => some st
  | none =>
    if !policyOk n.owner n.policy s then some St.handleInvalid
    else if n.durable && usablePages s < 64 then some St.storeWorn
    else if !(createPurposes n.type).contains n.purpose || !lengthOk n.type n.length then some St.keyTypeMismatch
    else if bitOf n.attr attrPublic && (!asymmetric n.type || (n.purpose ≠ 7 && n.purpose ≠ 3)) then some St.keyTypeMismatch
    else match ivModeCheck n.type n.purpose n.attr n.origin with
    | some st => some st
    | none =>
      if bitOf n.attr attrUseCount && n.uses = 0 then some St.fieldInvalid
      else if (match getOwner n.owner s with | some o => decide (o.keyQuota < keysUsed n.owner s.store.c + newSlots n) | none => true) then
        some St.quotaExceeded
      else match placeKey n s with | .ok _ => none | .error st => some st

/-- The policy that must approve a creation: for HOSTIV_PERMIT, or by EXTRA CREATE (R99, R648). -/
def createDesignated (n : NewKey) (s : State) : Option Nat :=
  let p := governing n.owner n.policy s
  if bitOf n.attr attrHostIv || extraBit p 0 s then some p else none

/-- The key is created, masked with r, and its entry journalled; its answer waits for a commit if asked (R52, R63, R74, R79). -/
def createKey (n : NewKey) (m r pub : Bytes) (s : State) : Ans × State :=
  match placeKey n s with
  | .error st => (cmdFail st, s)
  | .ok slot =>
    let (a, b) := if bitOf n.attr attrPublic then ([], []) else (r, xorBytes m r)
    let seq := s.store.nextSeq
    let k := newRecord n slot seq a b pub s
    let s := storeChange [] (fun c => { c with keys := tset c.keys slot k }) s
    maybeDurable n.durable { body := layout 24 [(0, 8, handleOf slot k.gen), (8, 2, k.slots), (0x10, 8, seq)] } s

/-- The policy a command needs the quorum of, if it is designated (R102, R110). -/
abbrev Desig := Mb → Req → State → Option Nat

/-- The policy that must approve a command is a SUSPENDED owner's, and the command is not OWNER_DELETE (R93). -/
def policySuspended (op p : Nat) (s : State) : Bool :=
  op != 0x0206 && (match tget s.store.c.policies p with
    | some x => (getOwner x.owner s).map (·.state) == some .suspended
    | none => false)

/-- A command designated in some cases: its checks, then QUORUM_MISSING where a policy must approve it (R93, R102). -/
def guarded (check : Mb → Req → State → Option Nat) (d : Desig) (run : Handler) : Handler := fun mb q s =>
  match check mb q s with
  | some st => (cmdFail st, s)
  | none => match d mb q s with
    | some p => (cmdFail (if policySuspended q.opcode p s then St.ownerDenied else St.quorumMissing), s)
    | none => run mb q s

/-- The creation fields of KEY_GENERATE and KEY_IMPORT (R87). -/
def newKeyOf (b : Bytes) (origin : Nat) : NewKey :=
  { owner := fld b 0 4, type := fld b 4 1, purpose := fld b 5 1, length := fld b 6 2, policy := fld b 8 4, attr := fld b 0x0C 4 % 1024
    uses := fld b 0x10 4, durable := bitOf (fld b 0x14 4) 0, slot := if bitOf (fld b 0x14 4) 1 then some (fld b 0x18 8) else none, origin := origin }

/-- The checks of KEY_GENERATE. -/
def keyGenerateCheck (mb : Mb) (q : Req) (s : State) : Option Nat :=
  if bitOf (fld q.body 0x0C 4) attrPublic then some St.fieldInvalid
  else createCheck mb (newKeyOf q.body 0) s

/-- The effect of KEY_GENERATE; it waits for the random bits it needs (R58). -/
def keyGenerateRun (_ : Mb) (q : Req) (s : State) : Ans × State :=
  let n := newKeyOf q.body 0
  match takeKeyBits (asymmetric n.type) (privLen n.type n.length) s with
  | (none, s) => (.stay, s)
  | (some (bits, r), s) =>
    let (m, pub) := keyFrom n.type n.length bits
    createKey n m r pub s

/-- The policy KEY_GENERATE needs. -/
def keyGenerateDesig : Desig := fun _ q s => createDesignated (newKeyOf q.body 0) s

/-- KEY_GENERATE (R58). -/
def execKeyGenerate (mb : Mb) (s : State) : Out :=
  runCmd mb 0x0301 (guarded (storeCheck keyGenerateCheck) keyGenerateDesig (storeRun keyGenerateRun)) s

/-- The type and purpose of a wrapping key by FORMAT (R54, R59). -/
def wrapKeyOk (fmt : Nat) (import_ : Bool) (k : KeyRec) : Option Nat :=
  let t := k.type
  let suits := if fmt ≤ 2 then t == 1 || t == 2 else if fmt = 3 then t == 0x10 else t == 0x30 || t == 0x31
  if !suits || (import_ && bitOf k.attr attrPublic) then some St.keyTypeMismatch
  else if k.purpose ≠ 3 then some St.purposeDenied
  else if k.saBound ≠ 0 then some St.purposeDenied else none

/-- A mailbox's command holds its lease on a key (R70, R274). -/
def jobHolds (mb : Mb) (slot : Nat) (k : KeyRec) (s : State) : Bool := (getMb mb s).job.any (fun j => j.slot == slot && j.gen == k.gen)

/-- The wrapping key of an import or export: resolution, admission unless its lease is held, suitability, an engine to run on (R50, R54, R70, R536). -/
def wrapKey (mb : Mb) (h owner fmt : Nat) (import_ : Bool) (s : State) : Except Nat (Nat × KeyRec) :=
  match resolve h (some owner) s with
  | none => .error St.handleInvalid
  | some (slot, k) =>
    match (if jobHolds mb slot k s then none else admission k s) with
    | some st => .error st
    | none => match wrapKeyOk fmt import_ k with
      | some st => .error st
      | none => if fmt ≤ 2 && !hucInService s then .error St.engineFault else .ok (slot, k)

/-- What a command's use of a key has come to. -/
inductive KeyUse where
  | ready
  | wait
  | fail (status : Nat)
  deriving DecidableEq, Repr

/-- Once its lease is held, a command waits for the key's shares and for the HUC blocks of its operation, on the HUC of a stand (R59, R64, R145). -/
def useHeldAt (home : Nat) (mb : Mb) (slot : Nat) (k : KeyRec) (blocks : Nat) (j : MbJob) (s : State) : KeyUse × State :=
  if !inSapwood slot k s then (.wait, { s with store.loading := addNew s.store.loading (slot, k.gen) })
  else if blocks = 0 then (.ready, s)
  else if j.huc then (if hucBusy (.mb (mbKey mb)) s then .wait else .ready, s)
  else match hucFor home s with
  | none => (.fail St.engineFault, s)
  | some h => (.wait, hucPut h (.mb (mbKey mb)) blocks (setMb mb { getMb mb s with job := some { j with huc := true } } s))

/-- The same on the stand whose slice holds the key (R59). -/
def useHeld (mb : Mb) (slot : Nat) (k : KeyRec) (blocks : Nat) (j : MbJob) (s : State) : KeyUse × State :=
  useHeldAt (sliceOf (((tget s.store.sap slot).map (·.index)).getD 0)) mb slot k blocks j s

/-- A system operation of a mailbox's command on a stand's HUC: as a use, and charging none (R629). -/
def useSystem (home : Nat) (mb : Mb) (slot : Nat) (k : KeyRec) (blocks : Nat) (s : State) : KeyUse × State :=
  match (getMb mb s).job with
  | some j => useHeldAt home mb slot k blocks j s
  | none =>
    if !pinFits [(slot, k)] s then (.wait, s)
    else
      let j : MbJob := { slot := slot, gen := k.gen }
      useHeldAt home mb slot k blocks j (setMb mb { getMb mb s with job := some j } (useSapwood slot k s))

/-- A mailbox's command uses a key: it takes its lease, charging one use, when the pin limit and the use reservations allow, then waits for what the use needs (R55, R64, R65, R70, R74). -/
def useKey (mb : Mb) (slot : Nat) (k : KeyRec) (blocks : Nat) (s : State) : KeyUse × State :=
  match (getMb mb s).job with
  | some j => useHeld mb slot k blocks j s
  | none =>
    if !pinFits [(slot, k)] s then (.wait, s)
    else if !useReady k s then (.wait, extendUses slot k s)
    else
      let j : MbJob := { slot := slot, gen := k.gen }
      let s := chargeUse slot (useSapwood slot k s)
      useHeld mb slot k blocks j (setMb mb { getMb mb s with job := some j } s)

/-- Wrapping mode of a format's payload: AES-KW for RAW-KW, else AES-KWP (R59). -/
def fmtMode (fmt : Nat) : Nat := if fmt = 1 then 1 else 2

/-- Bytes of the transfer part before the payload of formats 3 and 4 (R59). -/
def fmtHead (fmt : Nat) (w : KeyRec) : Nat := if fmt = 3 then w.length / 8 else if fmt = 4 then (if w.type = 0x30 then 1088 else 1568) else 0

/-- The transfer key an ML-KEM shared secret gives by R57: label OL9 XFER, for an AES-256 key of purpose WRAP (R59, log entry 155). -/
def xferKey (owner : Nat) (shared : Bytes) : Bytes :=
  kdf 32 0 shared ([0x4F, 0x4C, 0x39, 0x20, 0x58, 0x46, 0x45, 0x52] ++ [0] ++ beBytes 4 owner ++ leBytes 1 2 ++ leBytes 1 3 ++ beBytes 4 256)

/-- The key a blob's payload is wrapped under; none if RSA-OAEP does not decode (R59, R60). -/
def blobKey (fmt : Nat) (w : KeyRec) (head : Bytes) : Option Bytes :=
  if fmt = 3 then (if Config.verdict .unwrap [material w, head] then some (prim 32 .unwrap [material w, head]) else none)
  else if fmt = 4 then some (xferKey w.owner (prim 32 .agree [leBytes 1 w.type, material w, head]))
  else some (material w)

/-- What an unwrapped blob gives: its OWF1 header or none, and its material; none if an integrity check fails (R59, R60). -/
def unwrapBlob (fmt : Nat) (w : KeyRec) (blob : Bytes) (n : Nat) : Except Nat (Bytes × Bytes) :=
  let h := fmtHead fmt w
  match (blobKey fmt w (blob.take h)).bind (fun k => keyUnwrap (fmtMode fmt) k (blob.drop h)) with
  | none => .error St.unwrapFailed
  | some p =>
    let off := if fmt = 1 || fmt = 2 then 0 else 16
    if p.length ≠ off + n then .error St.keyTypeMismatch else .ok (p.take off, p.drop off)

/-- The OWF1 header against the request (R60). -/
def owf1Ok (h : Bytes) (n : NewKey) : Bool :=
  let a := fld h 4 4
  fld h 0 1 == n.type && fld h 2 2 == n.length && n.attr ||| a == a &&
  (!bitOf a attrUseCount || (bitOf n.attr attrUseCount && decide (n.uses ≤ fld h 8 4)))

/-- The blob of KEY_IMPORT (R89). -/
def importBlob (mb : Mb) (q : Req) (s : State) : Option Bytes := bodyBlob mb q 0x30 (fld q.body 0x2A 2) (bitOf (fld q.body 0x14 4) 2) s

/-- What KEY_IMPORT would install under a wrapping key: the material and the public part (R59, R60). -/
def importMaterial (q : Req) (w : KeyRec) (blob : Bytes) : Except Nat (Bytes × Bytes) :=
  let n := newKeyOf q.body 2
  let fmt := fld q.body 0x28 1
  match unwrapBlob fmt w blob (privLen n.type n.length) with
  | .error st => .error st
  | .ok (h, m) =>
    if (fmt = 0 || fmt = 3 || fmt = 4) && !owf1Ok h n then .error St.keyTypeMismatch
    else .ok (m, if asymmetric n.type then prim (pubLen n.type n.length) .pubKey [leBytes 1 n.type, m] else [])

/-- What KEY_IMPORT creates: FORMAT 5 makes a PUBLIC_ONLY record (R59). -/
def importNew (b : Bytes) : NewKey :=
  let n := newKeyOf b 2
  if fld b 0x28 1 = 5 then { n with attr := n.attr ||| 2 ^ attrPublic } else n

/-- The checks of KEY_IMPORT before its wrapping key is used: a FORMAT 5 blob of another length than its type's public material answers KEY_TYPE_MISMATCH (the spec gives that case no status: log entry 156). -/
def keyImportCheck (mb : Mb) (q : Req) (s : State) : Option Nat :=
  let fmt := fld q.body 0x28 1
  let n := importNew q.body
  if 5 < fmt || (fmt ≠ 5 && bitOf (fld q.body 0x0C 4) attrPublic) then some St.fieldInvalid
  else match createCheck mb n s with
  | some st => some st
  | none => match importBlob mb q s with
    | none => some St.gatherFault
    | some blob =>
      if fmt = 5 then (if blob.length ≠ pubLen n.type n.length then some St.keyTypeMismatch else none)
      else match wrapKey mb (fld q.body 0x20 8) n.owner fmt true s with | .ok _ => none | .error st => some st

/-- The unwrapped material is installed once the Sapwood controller has the bits of its mask (R59, R63). -/
def importEnd (q : Req) (w : KeyRec) (blob : Bytes) (s : State) : Ans × State :=
  match importMaterial q w blob with
  | .error st => (cmdFail st, s)
  | .ok (m, pub) => match takeSap m.length s with
    | (none, s) => (.stay, s)
    | (some r, s) => createKey (importNew q.body) m r pub s

/-- The effect of KEY_IMPORT, under a lease on the wrapping key; its AES-KW or AES-KWP part takes a HUC's blocks (R55, R59, R70, R142). -/
def keyImportRun (mb : Mb) (q : Req) (s : State) : Ans × State :=
  let fmt := fld q.body 0x28 1
  match importBlob mb q s with
  | none => (cmdFail St.gatherFault, s)
  | some blob =>
    if fmt = 5 then createKey (importNew q.body) [] [] blob s
    else match wrapKey mb (fld q.body 0x20 8) (fld q.body 0 4) fmt true s with
    | .error st => (cmdFail st, s)
    | .ok (slot, w) => match useKey mb slot w (wrapBlocks ((blob.length - fmtHead fmt w) / 8 - 1)) s with
      | (.wait, s) => (.stay, s)
      | (.fail st, s) => (cmdFail st, s)
      | (.ready, s) => importEnd q w blob s

/-- The policy KEY_IMPORT needs. -/
def keyImportDesig : Desig := fun _ q s => createDesignated (importNew q.body) s

/-- KEY_IMPORT (R59, R60). -/
def execKeyImport (mb : Mb) (s : State) : Out :=
  runCmd mb 0x0302 (guarded (storeCheck keyImportCheck) keyImportDesig (storeRun keyImportRun)) s

/-- Bytes AES-KWP makes of n bytes. -/
def kwpLen (n : Nat) : Nat := 8 * ((n + 7) / 8) + 8

/-- Bytes of the payload a format carries (R59). -/
def payloadLen (fmt : Nat) (k : KeyRec) : Nat := (if fmt = 1 || fmt = 2 then 0 else 16) + (material k).length

/-- Bytes of the blob KEY_EXPORT makes (R59). -/
def exportLen (fmt : Nat) (k w : KeyRec) : Nat :=
  if fmt = 5 then k.pub.length else fmtHead fmt w + (if fmt = 1 then payloadLen fmt k + 8 else kwpLen (payloadLen fmt k))

/-- The blob KEY_EXPORT makes: formats 3 and 4 take the bits of a transfer key or encapsulation and of its padding (R59). -/
def exportBlob (fmt : Nat) (k w : KeyRec) (bits : Bytes) : Bytes :=
  let m := material k
  let p := if fmt = 1 || fmt = 2 then m else layout 16 [(0, 1, k.type), (1, 1, k.purpose), (2, 2, k.length), (4, 4, k.attr), (8, 4, k.uses)] ++ m
  if fmt = 5 then k.pub
  else if fmt = 3 then prim (w.length / 8) .encap [w.pub, bits] ++ keyWrap 2 (bits.take 32) p
  else if fmt = 4 then
    prim (fmtHead 4 w) .encap [leBytes 1 w.type, w.pub, bits] ++ keyWrap 2 (xferKey w.owner (prim 32 .encap [[1], leBytes 1 w.type, w.pub, bits])) p
  else keyWrap (fmtMode fmt) (material w) p

/-- The export a request asks for: the exported key and its wrapping key, none for FORMAT 5. An EXHAUSTED key may be exported: an export is no operation of R54 (the spec does not say: log entry 157) (R50, R59, R61). -/
def exportOf (mb : Mb) (q : Req) (s : State) : Except Nat (KeyRec × Option (Nat × KeyRec)) :=
  let b := q.body
  let fmt := fld b 0x10 1
  if 5 < fmt then .error St.fieldInvalid
  else match resolve (fld b 0 8) (mbOwner mb s) s with
  | none => .error St.handleInvalid
  | some (_, k) =>
    if k.state = .revoking then .error St.keyStale
    else if fmt = 5 then
      if asymmetric k.type then .ok (k, none) else .error St.keyTypeMismatch
    else if bitOf k.attr attrPublic then .error St.keyTypeMismatch
    else if !bitOf k.attr attrExportable || ((fmt = 1 || fmt = 2) && !bitOf k.attr attrRaw) then .error St.exportDenied
    else if fmt = 1 && ((material k).length % 8 ≠ 0 || (material k).length < 16) then .error St.keyTypeMismatch
    else match wrapKey mb (fld b 8 8) k.owner fmt false s with
    | .error st => .error st
    | .ok w => .ok (k, some w)

/-- The longest inline blob of a mailbox (R89). -/
def inlineRoom (mb : Mb) : Nat := if mbIsVf mb then 960 else 3968

/-- The checks of KEY_EXPORT. A blob longer than OUT_MAX or than the inline room answers DEST_TOO_SMALL (R89 gives that case no status: log entry 158). -/
def keyExportCheck (mb : Mb) (q : Req) (s : State) : Option Nat :=
  match exportOf mb q s with
  | .error st => some st
  | .ok (k, w) =>
    let n := exportLen (fld q.body 0x10 1) k ((w.map (·.2)).getD k)
    let ind := bitOf (fld q.body 0x14 4) 2
    if (if ind then fld q.body 0x20 4 else inlineRoom mb) < n then some St.destTooSmall
    else if ind && !hostOk (mbFn mb) (fld q.body 0x18 8) n s then some St.gatherFault else none

/-- The blob leaves: inline or by address (R87, R89). -/
def exportEnd (mb : Mb) (q : Req) (blob : Bytes) (s : State) : Ans × State :=
  if bitOf (fld q.body 0x14 4) 2 then blobWrite mb (fld q.body 0x18 8) blob { body := leBytes 4 blob.length } s
  else (.reply { body := leBytes 4 blob.length ++ leBytes 4 0 ++ blob }, s)

/-- The effect of KEY_EXPORT, under a lease on the wrapping key; its AES-KW or AES-KWP part takes a HUC's blocks, formats 3 and 4 a service core's random bits (R59, R61, R70, R142). -/
def keyExportRun (mb : Mb) (q : Req) (s : State) : Ans × State :=
  let fmt := fld q.body 0x10 1
  match exportOf mb q s with
  | .error st => (cmdFail st, s)
  | .ok (k, none) => exportEnd mb q k.pub s
  | .ok (k, some (slot, w)) =>
    match useKey mb slot w (wrapBlocks ((payloadLen fmt k + 7) / 8)) s with
    | (.wait, s) => (.stay, s)
    | (.fail st, s) => (cmdFail st, s)
    | (.ready, s) =>
      if fmt ≤ 2 then exportEnd mb q (exportBlob fmt k w []) s
      else match takeWarden 64 s with
      | (none, s) => (.stay, s)
      | (some bits, s) => exportEnd mb q (exportBlob fmt k w bits) s

/-- The policy KEY_EXPORT needs: EXTRA EXPORT, for private material (R99). -/
def keyExportDesig : Desig := fun mb q s =>
  match resolve (fld q.body 0 8) (mbOwner mb s) s with
  | none => none
  | some (_, k) =>
    let p := governing k.owner k.policy s
    if fld q.body 0x10 1 ≠ 5 && extraBit p 1 s then some p else none

/-- A check of a command that reads the store. -/
def readCheck (check : Mb → Req → State → Option Nat) : Mb → Req → State → Option Nat := fun mb q s =>
  match storeRefuse s with | some st => some st | none => check mb q s

/-- KEY_EXPORT (R59, R61). -/
def execKeyExport (mb : Mb) (s : State) : Out := runCmd mb 0x0303 (guarded (readCheck keyExportCheck) keyExportDesig keyExportRun) s

/-- The creation fields of KEY_DERIVE (R87). Its body has no USES field: USES is taken as 0, so a derivation with USE_COUNT set answers FIELD_INVALID (R55 and R87 do not say how one would get its uses: log entry 159). -/
def deriveNew (b : Bytes) : NewKey :=
  { owner := fld b 0 4, type := fld b 4 1, purpose := fld b 5 1, length := fld b 6 2, policy := fld b 8 4, attr := fld b 0x0C 4 % 1024
    uses := 0, durable := bitOf (fld b 0x1C 4) 0, slot := none, origin := 1 }

/-- The key a PRF takes: HMAC of at least 256 bits for 0, AES for 1 (R57). -/
def prfSuits (prf : Nat) (k : KeyRec) : Bool := if prf = 0 then k.type == 3 && decide (256 ≤ k.length) else k.type == 1 || k.type == 2

/-- The parent of a derivation: its record, none for the owner root, and its secret (R57). The owner root with PRF 1 answers KEY_TYPE_MISMATCH (R57 gives the root to HMAC only and names no status: log entry 160). -/
def parentKey (mb : Mb) (owner h prf : Nat) (s : State) : Except Nat (Option (Nat × KeyRec) × Bytes) :=
  if h = 0 then
    if prf = 0 then .ok (none, match getOwner owner s with | some o => o.root | none => []) else .error St.keyTypeMismatch
  else match resolve h (some owner) s with
    | none => .error St.handleInvalid
    | some (slot, k) =>
      match (if jobHolds mb slot k s then none else admission k s) with
      | some st => .error st
      | none =>
        if !prfSuits prf k then .error St.keyTypeMismatch
        else if k.purpose ≠ 4 || k.saBound ≠ 0 then .error St.purposeDenied
        else .ok (some (slot, k), material k)

/-- The fixed input of SP 800-108 as the device forms it, big-endian (R57). -/
def fixedInput (label ctx : Bytes) (owner type purpose bitsOut : Nat) : Bytes :=
  label ++ [0] ++ beBytes 4 owner ++ leBytes 1 type ++ leBytes 1 purpose ++ ctx ++ beBytes 4 bitsOut

/-- The checks of KEY_DERIVE. -/
def keyDeriveCheck (mb : Mb) (q : Req) (s : State) : Option Nat :=
  let b := q.body
  if 1 < fld b 0x18 1 || fld b 0x19 1 < 1 || 64 < fld b 0x19 1 || 256 < fld b 0x1A 2 ||
      bitOf (fld b 0x0C 4) attrPublic || q.bodyLen < 0x20 + fld b 0x19 1 + fld b 0x1A 2 || fld b 5 1 < 1 || 8 < fld b 5 1 then some St.fieldInvalid
  else if asymmetric (fld b 4 1) && typeKnown (fld b 4 1) then some St.keyTypeMismatch
  else match createCheck mb (deriveNew b) s with
  | some st => some st
  | none => match parentKey mb (fld b 0 4) (fld b 0x10 8) (fld b 0x18 1) s with | .ok _ => none | .error st => some st

/-- The derived key is created once the Sapwood controller has the bits of its mask (R57, R63). -/
def keyDeriveEnd (q : Req) (key : Bytes) (s : State) : Ans × State :=
  let b := q.body
  let n := deriveNew b
  let ll := fld b 0x19 1
  let len := privLen n.type n.length
  match takeSap len s with
  | (none, s) => (.stay, s)
  | (some r, s) =>
    createKey n (kdf len (fld b 0x18 1) key (fixedInput (slice b 0x20 ll) (slice b (0x20 + ll) (fld b 0x1A 2)) n.owner n.type n.purpose (8 * len))) r [] s

/-- The effect of KEY_DERIVE, under a lease on its parent (R57, R70). -/
def keyDeriveRun (mb : Mb) (q : Req) (s : State) : Ans × State :=
  let b := q.body
  match parentKey mb (fld b 0 4) (fld b 0x10 8) (fld b 0x18 1) s with
  | .error st => (cmdFail st, s)
  | .ok (none, key) => keyDeriveEnd q key s
  | .ok (some (slot, k), key) => match useKey mb slot k 0 s with
    | (.wait, s) => (.stay, s)
    | (.fail st, s) => (cmdFail st, s)
    | (.ready, s) => keyDeriveEnd q key s

/-- The policy KEY_DERIVE needs. -/
def keyDeriveDesig : Desig := fun _ q s => createDesignated (deriveNew q.body) s

/-- KEY_DERIVE (R57). -/
def execKeyDerive (mb : Mb) (s : State) : Out :=
  runCmd mb 0x0304 (guarded (storeCheck keyDeriveCheck) keyDeriveDesig (storeRun keyDeriveRun)) s

/-- The drain limit of a request (R82, SAP_DRAIN). -/
def drainLimit (req : Nat) (s : State) : Nat :=
  let d := if req ≠ 0 then req else s.store.drainLimit
  max 1 (min 10000 d)

/-- The checks of KEY_DESTROY (R50, R81, R82). -/
def keyDestroyCheck (mb : Mb) (q : Req) (s : State) : Option Nat :=
  match resolve (fld q.body 0 8) (mbOwner mb s) s with
  | none => some St.handleInvalid
  | some (_, k) => if k.saBound ≠ 0 then some St.keyBound else if k.state = .revoking then some St.keyStale else none

/-- Step 1 of R82: REVOKING, journalled at once, a commit requested. -/
def revoke (slot : Nat) (replace : Bool) (uses drain : Nat) (s : State) : State :=
  let s := storeChange [] (fun c => { c with keys := tmod c.keys slot (fun k => { k with state := .revoking, replace := replace, newUses := uses, drainUs := drain }) }) s
  wantCommit false (lastSeq s) s

/-- The effect of KEY_DESTROY up to its drain (R82). -/
def keyDestroyRun (_ : Mb) (q : Req) (s : State) : Ans × State :=
  let slot := fld q.body 0 8 % 2 ^ 25
  (.hold (.drainKey [slot] {}), revoke slot false 0 (drainLimit (fld q.body 8 4) s) s)

/-- The policy KEY_DESTROY and KEY_REPLACE need: EXTRA DESTROY (R99). -/
def keyDestroyDesig : Desig := fun mb q s =>
  match resolve (fld q.body 0 8) (mbOwner mb s) s with
  | none => none
  | some (_, k) =>
    let p := governing k.owner k.policy s
    if extraBit p 2 s then some p else none

/-- KEY_DESTROY (R82). -/
def execKeyDestroy (mb : Mb) (s : State) : Out :=
  runCmd mb 0x0305 (guarded (storeCheck keyDestroyCheck) keyDestroyDesig (storeRun keyDestroyRun)) s

/-- The checks of KEY_REPLACE (R81, R82, R647). -/
def keyReplaceCheck (mb : Mb) (q : Req) (s : State) : Option Nat :=
  match keyDestroyCheck mb q s, resolve (fld q.body 0 8) (mbOwner mb s) s with
  | some st, _ => some st
  | none, some (_, k) =>
    if k.gen = 0xFFFFFFFF then some St.keyExhausted
    else if fld q.body 0x0C 4 = 0 && bitOf k.attr attrUseCount && k.uses = 0 then some St.fieldInvalid
    else if bitOf k.attr attrPublic then some St.keyTypeMismatch
    else none
  | none, none => some St.handleInvalid

/-- The effect of KEY_REPLACE up to its drain (R82). -/
def keyReplaceRun (_ : Mb) (q : Req) (s : State) : Ans × State :=
  let slot := fld q.body 0 8 % 2 ^ 25
  (.hold (.drainKey [slot] {}), revoke slot true (fld q.body 0x0C 4) (drainLimit (fld q.body 8 4) s) s)

/-- KEY_REPLACE (R82). -/
def execKeyReplace (mb : Mb) (s : State) : Out :=
  runCmd mb 0x0306 (guarded (storeCheck keyReplaceCheck) keyDestroyDesig (storeRun keyReplaceRun)) s

/-- A handle the caller may name (R50). -/
def handleCheck (mb : Mb) (q : Req) (s : State) : Option Nat :=
  if (resolve (fld q.body 0 8) (mbOwner mb s) s).isSome then none else some St.handleInvalid

/-- KEY_GET_ATTR (R87). -/
def execKeyGetAttr (mb : Mb) (s : State) : Out :=
  runCmd mb 0x0307 (storeRead handleCheck (fun mb q s =>
    match resolve (fld q.body 0 8) (mbOwner mb s) s with
    | some (slot, k) => (.reply { body := recordBytes slot k }, s)
    | none => (cmdFail St.handleInvalid, s))) s

/-- ATTR as KEY_SET_ATTR would leave it (R88). -/
def newAttr (b : Bytes) (k : KeyRec) : Nat :=
  let m := fld b 8 4
  ((k.attr &&& (0xFFFFFFFF ^^^ m)) ||| (fld b 0x0C 4 &&& m)) % 1024

/-- The bits KEY_SET_ATTR would set. -/
def attrSets (b : Bytes) (k : KeyRec) : Nat := newAttr b k &&& (0xFFFFFFFF ^^^ k.attr)

/-- The checks of KEY_SET_ATTR (R72, R88, R93, R95). -/
def keySetAttrCheck (mb : Mb) (q : Req) (s : State) : Option Nat :=
  let b := q.body
  match resolve (fld b 0 8) (mbOwner mb s) s with
  | none => some St.handleInvalid
  | some (_, k) =>
    let new := newAttr b k
    if k.state = .revoking then some St.keyStale
    else if (attrSets b k) &&& (0xFFFFFFFF ^^^ (2 ^ attrExpire + 2 ^ attrHostIv)) ≠ 0 then some St.purposeDenied
    else if bitOf k.attr attrUseCount && !bitOf new attrUseCount then some St.purposeDenied
    else if bitOf (fld b 0x18 4) 0 && decide (k.uses < fld b 0x10 4) then some St.purposeDenied
    else if ivMode new ≠ ivMode k.attr && (ivModeCheck k.type k.purpose new k.born).isSome then some St.purposeDenied
    else if bitOf (fld b 0x18 4) 1 && !policyOk k.owner (fld b 0x14 4) s then some St.handleInvalid
    else none

/-- The policy KEY_SET_ATTR needs: for HOSTIV_PERMIT, a change of POLICY_ID, or EXTRA SETATTR (R88, R99). -/
def keySetAttrDesig : Desig := fun mb q s =>
  match resolve (fld q.body 0 8) (mbOwner mb s) s with
  | none => none
  | some (_, k) =>
    let p := governing k.owner k.policy s
    if bitOf (attrSets q.body k) attrHostIv || (bitOf (fld q.body 0x18 4) 1 && fld q.body 0x14 4 ≠ k.policy) || extraBit p 3 s then some p else none

/-- The effect of KEY_SET_ATTR; it always waits for a commit (R79, R88). -/
def keySetAttrRun (mb : Mb) (q : Req) (s : State) : Ans × State :=
  match resolve (fld q.body 0 8) (mbOwner mb s) s with
  | none => (cmdFail St.handleInvalid, s)
  | some (slot, k) =>
    let b := q.body
    let uses := if bitOf (fld b 0x18 4) 0 then fld b 0x10 4 else k.uses
    let attr := newAttr b k
    let k' := { k with
      attr := attr, uses := uses, policy := if bitOf (fld b 0x18 4) 1 then fld b 0x14 4 else k.policy
      usesFloor := min k.usesFloor (usesFloorOf uses), usesFloorOld := min k.usesFloorOld (usesFloorOf uses)
      state := if bitOf attr attrUseCount && uses = 0 then .exhausted else k.state }
    durableAns { body := leBytes 4 attr ++ leBytes 4 uses } (storeChange [] (fun c => { c with keys := tset c.keys slot k' }) s)

/-- KEY_SET_ATTR (R88). -/
def execKeySetAttr (mb : Mb) (s : State) : Out :=
  runCmd mb 0x0308 (guarded (storeCheck keySetAttrCheck) keySetAttrDesig (storeRun keySetAttrRun)) s

/-- The lowest free counter number (R85). -/
def freeCounter (c : Content) : Nat := ((List.range (c.counters.length + 1)).find? (fun n => (tget c.counters n).isNone)).getD 0

/-- Why a counter cannot be created for an owner (R85, R94, R640). -/
def counterRoom (o : Nat) (s : State) : Option Nat :=
  if (match getOwner o s with | some x => decide (x.counterQuota ≤ countersUsed o s.store.c) | none => true) then some St.quotaExceeded
  else if 1048576 ≤ s.store.c.counters.length then some St.storeFull else none

/-- A counter at 0 with its first ceiling is journalled (R85, R86). -/
def newCounter (o : Nat) (s : State) : Nat × State :=
  let n := freeCounter s.store.c
  let k : Counter := { owner := o, ceiling := counterTop 0, ceilOld := counterTop 0, ceilSeq := s.store.nextSeq }
  (n, storeChange [] (fun c => { c with counters := tset c.counters n k }) s)

/-- The checks of COUNTER_CREATE. -/
def counterCreateCheck (mb : Mb) (q : Req) (s : State) : Option Nat :=
  match ownerForKeys mb (fld q.body 0 4) s with
  | some st => some st
  | none => if bitOf (fld q.body 4 4) 0 && usablePages s < 64 then some St.storeWorn else counterRoom (fld q.body 0 4) s

/-- COUNTER_CREATE (R85). -/
def execCounterCreate (mb : Mb) (s : State) : Out :=
  runCmd mb 0x030C (storeCmd counterCreateCheck (fun _ q s =>
    let (n, s) := newCounter (fld q.body 0 4) s
    maybeDurable (bitOf (fld q.body 4 4) 0) { body := leBytes 4 n } s)) s

/-- A counter its caller may name (R85). -/
def getCounter (n : Nat) (owner : Option Nat) (s : State) : Option Counter :=
  (tget s.store.c.counters n).filter (fun k => owner.isNone || owner == some k.owner)

/-- What an increment comes to: the value issued, or that it must wait for its ceiling's commit. A non-durable value lies below the committed ceiling; only the last value of all may equal it (R74, R86, log entry 152). -/
def counterInc (n step : Nat) (durable : Bool) (k : Counter) (s : State) : Option Nat × State :=
  let v := k.value + step
  let put (k : Counter) (s : State) : State := storeChange [] (fun c => { c with counters := tset c.counters n k }) s
  if durable then (some v, put { k with value := v, ceiling := v, ceilOld := v, ceilSeq := s.store.nextSeq } s)
  else
    let usable := if k.ceilSeq ≤ s.store.committed then k.ceiling else k.ceilOld
    let low := decide (k.ceiling < v + 2 ^ 15) && decide (k.ceiling < 2 ^ 64 - 1) && decide (k.ceilSeq ≤ s.store.committed) && canChange s
    let ext (k : Counter) (s : State) : State :=
      if low then wantCommit true s.store.nextSeq (put { k with ceilOld := k.ceiling, ceiling := counterTop (max k.ceiling v), ceilSeq := s.store.nextSeq } s)
      else { s with store.c.counters := tset s.store.c.counters n k }
    if v < usable || (v = usable && usable = 2 ^ 64 - 1) then (some v, ext { k with value := v } s) else (none, ext k s)

/-- The checks of COUNTER_INC (R86). -/
def counterIncCheck (mb : Mb) (q : Req) (s : State) : Option Nat :=
  if fld q.body 4 2 = 0 then some St.fieldInvalid
  else match getCounter (fld q.body 0 4) (mbOwner mb s) s with
  | none => some St.handleInvalid
  | some k =>
    if bitOf (fld q.body 8 4) 0 && usablePages s < 64 then some St.storeWorn
    else if 2 ^ 64 ≤ k.value + fld q.body 4 2 then some St.keyExhausted else none

/-- The effect of COUNTER_INC (R86). -/
def counterIncRun (mb : Mb) (q : Req) (s : State) : Ans × State :=
  match getCounter (fld q.body 0 4) (mbOwner mb s) s with
  | none => (cmdFail St.handleInvalid, s)
  | some k =>
    let d := bitOf (fld q.body 8 4) 0
    match counterInc (fld q.body 0 4) (fld q.body 4 2) d k s with
    | (some v, s) => maybeDurable d { body := leBytes 8 v } s
    | (none, s) => (.stay, s)

/-- COUNTER_INC (R86). -/
def execCounterInc (mb : Mb) (s : State) : Out := runCmd mb 0x030D (storeCmd counterIncCheck counterIncRun) s

/-- A counter the caller may name. -/
def counterCheck (mb : Mb) (q : Req) (s : State) : Option Nat :=
  if (getCounter (fld q.body 0 4) (mbOwner mb s) s).isSome then none else some St.handleInvalid

/-- COUNTER_READ (R87). -/
def execCounterRead (mb : Mb) (s : State) : Out :=
  runCmd mb 0x030E (storeRead counterCheck (fun _ q s =>
    (.reply { body := leBytes 8 (match tget s.store.c.counters (fld q.body 0 4) with | some k => k.value | none => 0) }, s))) s

/-- COUNTER_DESTROY (R85). -/
def execCounterDestroy (mb : Mb) (s : State) : Out :=
  runCmd mb 0x030F (storeCmd counterCheck (fun _ q s =>
    (.reply {}, storeChange [] (fun c => { c with counters := tdel c.counters (fld q.body 0 4) }) s))) s

end Sys2Proof.Machine
end

