-- ==== Sys2Proof/Machine/Attest.lean ====
section
/-! DEFINITION. Measurement, device evidence and the attestation key (R447-R449). -/

namespace Sys2Proof.Machine

/-- SHA-384 of a text, ALG 3 of R158. -/
def sha384 (m : Bytes) : Bytes := digest 3 m

/-- A measurement value; 48 zero bytes until it is set (R447). -/
def measValue (idx : Nat) (s : State) : Bytes := tgetD s.start.meas idx (List.replicate 48 0)

/-- An index takes the digest of what it covers (R447). -/
def measureSet (idx : Nat) (text : Bytes) (s : State) : State := { s with start.meas := tset s.start.meas idx (sha384 text) }

/-- An index of several copies takes a digest already computed. -/
def measurePut (idx : Nat) (digest : Bytes) (s : State) : State := { s with start.meas := tset s.start.meas idx (padTo 48 digest) }

/-- Index 10 is extended by an event record naming the changed index; its KIND code is uninterpreted (R447, log entry 21). -/
def measureExtend (ext idx : Nat) (ev : Bytes) (s : State) : State :=
  let e := layout 16 [(0, 1, Config.prim .mac [[0x4B], leBytes 1 idx]), (1, 1, idx), (8, 8, s.log.nextSeq + s.log.queue.length)] ++ padTo 48 ev
  { s with start.meas := tset s.start.meas ext (sha384 (measValue ext s ++ e)) }

/-- The bundle of the slot a component runs from: 0 slot A, 1 slot B (R442). -/
def slotInfo (n : Nat) (s : State) : ImageInfo := if n = 0 then s.start.slotA.info else if n = 1 then s.start.slotB.info else {}

/-- A component runs two images at once, or the components run from different slots. -/
def mixed (s : State) : Bool := s.start.runW != s.start.runS || s.start.runS != s.start.runM

/-- LC of the evidence: the decoded state's code. -/
def lcEvid : LcState → Nat
  | .blank => 0
  | .test => 1
  | .personalise => 2
  | .production => 3
  | .returned => 4
  | .invalid => 5
  | .scrapped => 6

/-- FLAGS of the evidence (R448). -/
def evidFlags (s : State) : Nat :=
  b2n s.lko.tampered + 2 * b2n s.lc.everT + 4 * b2n s.lc.everU + 8 * b2n (mixed s) + 16 * b2n s.start.seedlingFw +
    32 * b2n (s.start.restarts != 0) + 64 * b2n s.start.fallback

/-- The certificate chain of the attestation key: outside the spec, and so uninterpreted. -/
def certChain (s : State) : Bytes :=
  prim (Config.prim .deviceId [[0], leBytes 8 s.ident.deviceRef] % 65536) .deviceId [[1], leBytes 8 s.ident.deviceRef]

/-- An ECDSA P-384 signature by the device attestation key over a digest (R449). -/
def attSign (m : Bytes) (s : State) : Bytes := prim 96 .sign [[0x41], leBytes 8 s.ident.deviceRef, sha384 m]

/-- MON_LEVEL of the running monitor; the Seedling firmware reports 0.0 (R448). -/
def monLevel (s : State) : Nat := if s.start.seedlingFw then 0 else (slotInfo s.start.runM s).monLevel

/-- The signed part of the device evidence (R448). -/
def evidBody (nonce : Bytes) (s : State) : Bytes :=
  let cert := certChain s
  layout 0x30 [(0, 8, 0x31444956_45394C4F), (8, 2, 1), (0x0A, 2, evidFlags s), (0x0C, 2, 0x6412), (0x0E, 1, 0xB1), (0x0F, 1, lcEvid s.lc.decoded),
    (0x10, 8, s.ident.deviceRef), (0x18, 1, s.mode.mode), (0x19, 1, 10), (0x1A, 1, s.start.slot),
    (0x1C, 2, if s.start.seedlingFw then 0x0402 else s.ident.wdnLevel), (0x1E, 2, if s.start.seedlingFw then 0 else s.ident.svcLevel),
    (0x20, 2, monLevel s), (0x24, 4, s.world.map.gen), (0x28, 4, s.store.epoch), (0x2C, 4, s.start.restarts)] ++
  padTo 32 nonce ++ ((List.range 10).map (fun i => measValue (i + 1) s)).flatten ++ leBytes 4 cert.length ++ leBytes 4 0 ++ cert

/-- The device evidence (R448). -/
def evidence (nonce : Bytes) (s : State) : Bytes := evidBody nonce s ++ attSign (evidBody nonce s) s

/-- Write a blob within OUT_MAX; a longer one is refused and not written. -/
def writeWithin (mb : Mb) (addr max tooLong : Nat) (d : Bytes) (r : Resp) (s : State) : Ans × State :=
  if max < d.length then (cmdFail tooLong, s) else blobWrite mb addr d r s

/-- The effect of DEVICE_EVIDENCE. -/
def deviceEvidenceRun (mb : Mb) (q : Req) (s : State) : Ans × State :=
  let d := evidence (slice q.body 0 32) s
  writeWithin mb (fld q.body 0x20 8) (fld q.body 0x28 4) St.destTooSmall d { body := leBytes 4 d.length } s

/-- DEVICE_EVIDENCE (R449). -/
def execDeviceEvidence (mb : Mb) (s : State) : Out := runCmd mb 0x0103 deviceEvidenceRun s

end Sys2Proof.Machine
end

