-- ==== Sys2Proof/Machine/Owners.lean ====
section
/-! DEFINITION. Owners, credentials and policies (chapter 04). -/

namespace Sys2Proof.Machine

/-- STATE of an owner entry (R91). -/
def ownerCode : OwnerState → Nat
  | .pending => 1
  | .active => 2
  | .suspended => 3

/-- Credentials of an owner. -/
def ownerCreds (o : Nat) (c : Content) : List (Nat × Cred) := c.creds.filter (fun p => p.2.owner == o)

/-- Policies of an owner. -/
def ownerPolicies (o : Nat) (c : Content) : List (Nat × Policy) := c.policies.filter (fun p => p.2.owner == o)

/-- Bytes 0x00-0x1F of an owner entry (R91). -/
def ownerBytes (o : Nat) (x : Owner) (c : Content) : Bytes :=
  layout 32 [(0, 1, ownerCode x.state), (1, 1, b2n x.anchor + 2 * b2n x.domainClosed + 4 * b2n x.estate), (2, 1, x.member), (3, 1, x.nextMember),
    (4, 4, x.domainId), (8, 4, x.adminPolicy), (0x10, 4, x.keyQuota), (0x14, 4, keysUsed o c), (0x18, 2, x.counterQuota),
    (0x1A, 2, countersUsed o c), (0x1C, 2, x.vfQuota), (0x1E, 1, x.appletQuota), (0x1F, 1, (ownerCreds o c).length)]

/-- Bytes 0x00-0x5F of a policy record (R99). -/
def policyBytes (p : Policy) : Bytes :=
  layout 32 [(0, 2, 1), (2, 1, 1), (3, 1, p.n), (4, 4, p.owner), (8, 1, p.m), (9, 1, p.defMask), (0x0A, 2, p.life), (0x0C, 4, p.extra), (0x10, 4, p.revision)] ++
  ((List.range 16).map (fun i => leBytes 4 (p.creds.getD i 0xFFFFFFFF))).flatten

/-- A change of the owner tables is journalled. -/
def ownerChange (f : Content → Content) (s : State) : State := storeChange [] f s

/-- Put an owner entry, journalled. -/
def putOwner (o : Nat) (x : Owner) (s : State) : State := ownerChange (fun c => { c with owners := tset c.owners o x }) s

/-- The policy an owner's designated commands need (R110). -/
def adminOf (o : Nat) (s : State) : Option Nat := (getOwner o s).map (·.adminPolicy)

/-- The estate policy, owner 0's ADMIN_POLICY (R92). -/
def estateDesig : Desig := fun _ _ s => some ((adminOf 0 s).getD 0)

/-- Open approvals a predicate picks are cancelled (R108). -/
def cancelApprovals (p : Nat → Approval → Bool) (s : State) : State :=
  let keep (t : Tab Approval) : Tab Approval := t.filter (fun q => !p q.1 q.2)
  { s with cust.approvals := keep s.cust.approvals, cust.saved := keep s.cust.saved }

/-- ACTIVE credentials of a policy. -/
def activeCreds (p : Policy) (c : Content) : Nat :=
  (p.creds.filter (fun i => match tget c.creds i with | some k => k.active && k.owner == p.owner | none => false)).length

/-- A policy with fewer ACTIVE credentials than M is stranded (R101). -/
def stranded (p : Policy) (c : Content) : Bool := decide (activeCreds p c < p.m)

/-- The lowest key from a base that a table does not hold. -/
def lowestFree {α : Type} (t : Tab α) (base : Nat) : Nat :=
  ((List.range (t.length + 1)).find? (fun k => (tget t (base + k)).isNone)).getD 0 + base

/-- The owner number OWNER_CREATE takes: the one named, or the lowest free above 0 (log entry 43). -/
def newOwnerNo (req : Nat) (s : State) : Nat := if req = 0xFFFFFFFF then lowestFree s.store.c.owners 1 else req

/-- The checks of OWNER_CREATE (R94, R111). -/
def ownerCreateCheck (_ : Mb) (q : Req) (s : State) : Option Nat :=
  let o := fld q.body 0 4
  if 0xFFFFF < o && o ≠ 0xFFFFFFFF then some St.fieldInvalid
  else if 1048576 ≤ s.store.c.owners.length || 0xFFFFF < newOwnerNo o s then some St.storeFull
  else if (getOwner (newOwnerNo o s) s).isSome then some St.stateConflict
  else none

/-- The effect of OWNER_CREATE: a PENDING entry with quotas and a ROOT from the Seedbank (R56, R111). -/
def ownerCreateRun (_ : Mb) (q : Req) (s : State) : Ans × State :=
  match takeWarden 32 s with
  | (none, s) => (.stay, s)
  | (some root, s) =>
    let b := q.body
    let o := newOwnerNo (fld b 0 4) s
    let x : Owner :=
      { estate := decide (o = 0), keyQuota := fld b 4 4, counterQuota := fld b 8 2, vfQuota := fld b 0x0A 2, appletQuota := fld b 0x0C 1, root := root }
    let reuse (m : Meter) : Meter := if m.deleted then { m with deleted := false, reused := true } else m
    (.reply { body := leBytes 4 o }, putOwner o x { s with meter.live := tmod s.meter.live o reuse })

/-- OWNER_CREATE (R111). -/
def execOwnerCreate (mb : Mb) (s : State) : Out := runCmd mb 0x0201 (storeCmd ownerCreateCheck ownerCreateRun) s

/-- The policy matches the estate anchor: M, N, and each credential's key an entry of its own (R122). -/
def matchesAnchor (p : Policy) (s : State) : Bool :=
  match s.lc.anchor with
  | none => false
  | some a =>
    let keys := p.creds.filterMap (fun i => (tget s.store.c.creds i).map (fun k => (k.alg, k.key)))
    let left := keys.foldl (fun es k => es.erase { alg := k.1, key := k.2 }) a.entries
    a.m == p.m && a.entries.length == p.n && keys.length == p.n && left.isEmpty

/-- The checks of OWNER_SEAL (R95, R111, R122, R640). -/
def ownerSealCheck (mb : Mb) (q : Req) (s : State) : Option Nat :=
  let o := fld q.body 0 4
  match ownerNamed mb o s, getOwner o s, tget s.store.c.policies (fld q.body 4 4) with
  | some st, _, _ => some st
  | none, some x, p =>
    if x.state ≠ .pending then some St.stateConflict
    else match p with
    | none => some St.handleInvalid
    | some p =>
      if p.owner ≠ o then some St.handleInvalid
      else if stranded p s.store.c then some St.policyInvalid
      else if o = 0 && s.store.rebased && !matchesAnchor p s then some St.policyInvalid
      else none
  | none, none, _ => some St.handleInvalid

/-- The effect of OWNER_SEAL (R111, R122). -/
def ownerSealRun (_ : Mb) (q : Req) (s : State) : Ans × State :=
  let o := fld q.body 0 4
  match getOwner o s with
  | none => (cmdFail St.handleInvalid, s)
  | some x => match takeWarden 4 s with
    | (none, s) => (.stay, s)
    | (some d, s) =>
      let s := putOwner o { x with state := .active, adminPolicy := fld q.body 4 4, domainId := leNat d, member := 0, anchor := true, nextMember := 1 } s
      let s := if o = 0 then { s with store.rebased := false } else s
      (.reply { body := layout 16 [(0, 4, leNat d), (8, 8, lastSeq s)] }, s)

/-- OWNER_SEAL (R111, R122). -/
def execOwnerSeal (mb : Mb) (s : State) : Out := runCmd mb 0x0202 (storeCmd ownerSealCheck ownerSealRun) s

/-- A command that names an owner. -/
def ownerCheck (mb : Mb) (q : Req) (s : State) : Option Nat := ownerNamed mb (fld q.body 0 4) s

/-- OWNER_QUERY (R123). -/
def execOwnerQuery (mb : Mb) (s : State) : Out :=
  runCmd mb 0x0203 (storeRead ownerCheck (fun _ q s =>
    match getOwner (fld q.body 0 4) s with
    | some x => (.reply { body := ownerBytes (fld q.body 0 4) x s.store.c }, s)
    | none => (cmdFail St.handleInvalid, s))) s

/-- The effect of OWNER_SET_QUOTA; a quota below present use is accepted (R94). -/
def ownerSetQuotaRun (_ : Mb) (q : Req) (s : State) : Ans × State :=
  let b := q.body
  match getOwner (fld b 0 4) s with
  | none => (cmdFail St.handleInvalid, s)
  | some x => (.reply {}, putOwner (fld b 0 4) { x with keyQuota := fld b 4 4, counterQuota := fld b 8 2, vfQuota := fld b 0x0A 2, appletQuota := fld b 0x0C 1 } s)

/-- OWNER_SET_QUOTA (R94). -/
def execOwnerSetQuota (mb : Mb) (s : State) : Out := runCmd mb 0x0204 (storeCmd ownerCheck ownerSetQuotaRun) s

/-- Queue a notification for every core of an owner that holds applets (R370). -/
def notifyOwner (k : NoteKind) (o : Nat) (s : State) : State :=
  { s with cores.cores := tmap s.cores.cores (fun _ c =>
      if c.owner = some o && !c.slots.isEmpty then { c with notes := c.notes ++ [{ kind := k, arg0 := 0 }] } else c) }

/-- An owner is suspended: new admissions end, its approvals are cancelled, its applets told (R93, R108, R370). -/
def suspendOwner (o : Nat) (s : State) : State :=
  match getOwner o s with
  | none => s
  | some x => notifyOwner .ownerSuspended o (cancelApprovals (fun _ a => a.owner == o) (putOwner o { x with state := .suspended } s))

/-- The checks of OWNER_SUSPEND (R92, R640). -/
def ownerSuspendCheck (mb : Mb) (q : Req) (s : State) : Option Nat :=
  let o := fld q.body 0 4
  match ownerNamed mb o s, getOwner o s with
  | some st, _ => some st
  | none, some x =>
    if o = 0 then some St.ownerDenied
    else if x.state ≠ (if bitOf (fld q.body 4 4) 0 then .suspended else .active) then some St.stateConflict
    else none
  | none, none => some St.handleInvalid

/-- The effect of OWNER_SUSPEND (R93). -/
def ownerSuspendRun (_ : Mb) (q : Req) (s : State) : Ans × State :=
  let o := fld q.body 0 4
  if bitOf (fld q.body 4 4) 0 then
    match getOwner o s with
    | none => (cmdFail St.handleInvalid, s)
    | some x => (.reply {}, notifyOwner .ownerResumed o (putOwner o { x with state := .active } s))
  else (.reply {}, suspendOwner o s)

/-- OWNER_SUSPEND (R92, R93). -/
def execOwnerSuspend (mb : Mb) (s : State) : Out := runCmd mb 0x0205 (storeCmd ownerSuspendCheck ownerSuspendRun) s

/-- A VF is bound to the owner. -/
def vfBound (o : Nat) (s : State) : Bool := s.allocs.any (fun p => p.2.owner == some o)

/-- The checks of OWNER_DELETE (R92, R93, R96). -/
def ownerDeleteCheck (mb : Mb) (q : Req) (s : State) : Option Nat :=
  let o := fld q.body 0 4
  match ownerNamed mb o s, getOwner o s with
  | some st, _ => some st
  | none, some x =>
    if o = 0 || x.state = .pending then some St.ownerDenied
    else if (ownerKeys o s.store.c).any (fun p => p.2.saBound != 0) then some St.keyBound
    else if vfBound o s then some St.ownerDenied
    else none
  | none, none => some St.handleInvalid

/-- What OWNER_EVIDENCE signs: the entry without ROOT, the policies, the digests of the credential keys, the nonce, the device evidence (R112, log entry 29). -/
def ownerEvidence (o : Nat) (x : Owner) (nonce : Bytes) (s : State) : Bytes :=
  let c := s.store.c
  let d := ownerBytes o x c ++ ((ownerPolicies o c).map (fun p => padTo 256 (policyBytes p.2))).flatten ++
    ((ownerCreds o c).map (fun p => sha256 p.2.key)).flatten ++ nonce ++ evidence nonce s
  d ++ attSign d s

/-- OWNER_EVIDENCE (R112). -/
def execOwnerEvidence (mb : Mb) (s : State) : Out :=
  runCmd mb 0x0207 (storeRead ownerCheck (fun mb q s =>
    match getOwner (fld q.body 0 4) s with
    | none => (cmdFail St.handleInvalid, s)
    | some x =>
      let d := ownerEvidence (fld q.body 0 4) x (slice q.body 8 32) s
      writeWithin mb (fld q.body 0x28 8) (fld q.body 0x30 4) St.destTooSmall d { body := leBytes 4 d.length } s)) s

/-- The prime of P-384. -/
def p384P : Nat := 2 ^ 384 - 2 ^ 128 - 2 ^ 96 + 2 ^ 32 - 1

/-- The coefficient b of P-384. -/
def p384B : Nat := 0xB3312FA7E23EE7E4988E056BE3F82D19181D9C6EFE8141120314088F5013875AC656398D8A2ED19D2A85C8EDD3EC2AEF

/-- A SEC 1 uncompressed point on P-384 (R98). -/
def onP384 (k : Bytes) : Bool :=
  let x := beNat (slice k 1 48)
  let y := beNat (slice k 49 48)
  k.length == 97 && fld k 0 1 == 4 && decide (x < p384P) && decide (y < p384P) &&
    (y * y + 3 * x) % p384P == (x * x * x + p384B) % p384P

/-- Whether a custodian's key is acceptable for its ALG (R97, R98). -/
def credKeyOk (alg : Nat) (k : Bytes) : Bool := if alg = 1 then onP384 k else k.length == 1952

/-- The public key a CRED_ADD carries. -/
def credKey (mb : Mb) (q : Req) (s : State) : Option Bytes := bodyBlob mb q 0x20 (fld q.body 6 2) (bitOf (fld q.body 0x18 4) 2) s

/-- The owner of a custodian's or policy's change must not be SUSPENDED (R93, R102). -/
def notSuspended (mb : Mb) (o : Nat) (s : State) : Option Nat :=
  match ownerNamed mb o s with
  | some st => some st
  | none => match getOwner o s with
    | some x => if x.state = .suspended then some St.ownerDenied else none
    | none => some St.handleInvalid

/-- The checks of CRED_ADD (R94, R98, R640). -/
def credAddCheck (mb : Mb) (q : Req) (s : State) : Option Nat :=
  let b := q.body
  let o := fld b 0 4
  if fld b 4 1 ≠ 1 && fld b 4 1 ≠ 2 then some St.fieldInvalid
  else match notSuspended mb o s with
  | some st => some st
  | none => match credKey mb q s with
    | none => some St.gatherFault
    | some k =>
      if fld b 6 2 ≠ (if fld b 4 1 = 1 then 97 else 1952) || !credKeyOk (fld b 4 1) k then some St.approvalInvalid
      else if (ownerCreds o s.store.c).any (fun p => p.2.key == k) then some St.approvalInvalid
      else if 64 ≤ (ownerCreds o s.store.c).length then some St.quotaExceeded
      else if 65536 ≤ s.store.c.creds.length then some St.storeFull
      else none

/-- The effect of CRED_ADD. -/
def credAddRun (mb : Mb) (q : Req) (s : State) : Ans × State :=
  match credKey mb q s with
  | none => (cmdFail St.gatherFault, s)
  | some k =>
    let i := lowestFree s.store.c.creds 0
    let r : Cred := { alg := fld q.body 4 1, owner := fld q.body 0 4, label := slice q.body 8 16, key := k }
    (.reply { body := leBytes 4 i }, ownerChange (fun c => { c with creds := tset c.creds i r }) s)

/-- ADMIN_POLICY approves for an ACTIVE owner; a PENDING owner needs no quorum (R93, R110). -/
def activeDesig (o : Nat) (s : State) : Option Nat :=
  match getOwner o s with
  | some x => if x.state = .active then some x.adminPolicy else none
  | none => none

/-- The policy CRED_ADD and POLICY_CREATE need. -/
def ownerFieldDesig : Desig := fun _ q s => activeDesig (fld q.body 0 4) s

/-- CRED_ADD (R98). -/
def execCredAdd (mb : Mb) (s : State) : Out := runCmd mb 0x0208 (guarded (storeCheck credAddCheck) ownerFieldDesig (storeRun credAddRun)) s

/-- A credential of an owner the caller may act for (R95). -/
def credNamed (mb : Mb) (i : Nat) (s : State) : Except Nat Cred :=
  match tget s.store.c.creds i with
  | none => .error St.handleInvalid
  | some k => if scopeOk mb k.owner s then .ok k else .error St.handleInvalid

/-- The credential table after a revocation. -/
def revokedCreds (i : Nat) (c : Content) : Content := { c with creds := tmod c.creds i (fun k => { k with active := false }) }

/-- Revoking a credential would strand the estate policy (R101). -/
def strandsEstate (i : Nat) (s : State) : Bool :=
  match tget s.store.c.policies ((adminOf 0 s).getD 0) with
  | some p => stranded p (revokedCreds i s.store.c)
  | none => false

/-- The checks of CRED_REVOKE (R93, R98, R101). -/
def credRevokeCheck (mb : Mb) (q : Req) (s : State) : Option Nat :=
  match credNamed mb (fld q.body 0 4) s with
  | .error st => some st
  | .ok k => match notSuspended mb k.owner s with
    | some st => some st
    | none =>
      if !k.active then some St.stateConflict
      else if strandsEstate (fld q.body 0 4) s then some St.policyInvalid
      else none

/-- The effect of CRED_REVOKE: approvals given by the credential are withdrawn (R98, R108). -/
def credRevokeRun (_ : Mb) (q : Req) (s : State) : Ans × State :=
  let i := fld q.body 0 4
  let w (t : Tab Approval) : Tab Approval := tmap t (fun _ a => { a with approved := without a.approved i })
  (.reply {}, ownerChange (revokedCreds i) { s with cust.approvals := w s.cust.approvals, cust.saved := w s.cust.saved })

/-- The policy CRED_REVOKE needs. -/
def credRevokeDesig : Desig := fun _ q s =>
  match tget s.store.c.creds (fld q.body 0 4) with
  | some k => activeDesig k.owner s
  | none => none

/-- CRED_REVOKE (R98). -/
def execCredRevoke (mb : Mb) (s : State) : Out :=
  runCmd mb 0x0209 (guarded (storeCheck credRevokeCheck) credRevokeDesig (storeRun credRevokeRun)) s

/-- The policy a body describes from offset 4. -/
def policyOf (b : Bytes) (owner revision : Nat) : Policy :=
  let n := fld b 5 1
  { owner := owner, m := fld b 4 1, n := n, defMask := fld b 6 1, life := fld b 8 2, extra := fld b 0x0C 4, revision := revision
    creds := (List.range n).map (fun i => fld b (0x10 + 4 * i) 4) }

/-- The fields of POLICY_CREATE and POLICY_MODIFY (R100). -/
def policyFields (q : Req) (owner : Nat) (s : State) : Option Nat :=
  let p := policyOf q.body owner 1
  if 3 < p.defMask then some St.fieldInvalid
  else if p.n < 2 || 16 < p.n || p.m < 2 || p.n < p.m then some St.policyInvalid
  else if q.bodyLen < 0x10 + 4 * p.n then some St.fieldInvalid
  else if p.life < 60 || 600 < p.life || 32 ≤ p.extra || activeCreds p s.store.c < p.n || p.creds.eraseDups.length < p.n then some St.policyInvalid
  else none

/-- The checks of POLICY_CREATE (R94, R100, R640). -/
def policyCreateCheck (mb : Mb) (q : Req) (s : State) : Option Nat :=
  let o := fld q.body 0 4
  match notSuspended mb o s with
  | some st => some st
  | none => match policyFields q o s with
    | some st => some st
    | none =>
      if 64 ≤ (ownerPolicies o s.store.c).length then some St.quotaExceeded
      else if 262143 ≤ s.store.c.policies.length then some St.storeFull
      else none

/-- The effect of POLICY_CREATE. -/
def policyCreateRun (_ : Mb) (q : Req) (s : State) : Ans × State :=
  let id := lowestFree s.store.c.policies 1
  (.reply { body := leBytes 4 id }, ownerChange (fun c => { c with policies := tset c.policies id (policyOf q.body (fld q.body 0 4) 1) }) s)

/-- POLICY_CREATE (R99, R100). -/
def execPolicyCreate (mb : Mb) (s : State) : Out :=
  runCmd mb 0x020A (guarded (storeCheck policyCreateCheck) ownerFieldDesig (storeRun policyCreateRun)) s

/-- A policy of an owner the caller may act for (R95). -/
def policyNamed (mb : Mb) (i : Nat) (s : State) : Except Nat Policy :=
  match tget s.store.c.policies i with
  | none => .error St.handleInvalid
  | some p => if scopeOk mb p.owner s then .ok p else .error St.handleInvalid

/-- The checks of POLICY_MODIFY (R93, R100). -/
def policyModifyCheck (mb : Mb) (q : Req) (s : State) : Option Nat :=
  match policyNamed mb (fld q.body 0 4) s with
  | .error st => some st
  | .ok p => match notSuspended mb p.owner s with
    | some st => some st
    | none => policyFields q p.owner s

/-- The effect of POLICY_MODIFY: REVISION advances and every other approval open under it is cancelled (R99, R108). -/
def policyModifyRun (_ : Mb) (q : Req) (s : State) : Ans × State :=
  let id := fld q.body 0 4
  match tget s.store.c.policies id with
  | none => (cmdFail St.handleInvalid, s)
  | some p =>
    let x := policyOf q.body p.owner (p.revision + 1)
    (.reply { body := leBytes 4 x.revision },
      ownerChange (fun c => { c with policies := tset c.policies id x }) (cancelApprovals (fun _ a => a.policy == id) s))

/-- The policy POLICY_MODIFY needs. -/
def policyModifyDesig : Desig := fun _ q s =>
  match tget s.store.c.policies (fld q.body 0 4) with
  | some p => activeDesig p.owner s
  | none => none

/-- POLICY_MODIFY (R99, R100). -/
def execPolicyModify (mb : Mb) (s : State) : Out :=
  runCmd mb 0x020B (guarded (storeCheck policyModifyCheck) policyModifyDesig (storeRun policyModifyRun)) s

/-- The check of POLICY_QUERY (R95). -/
def policyQueryCheck (mb : Mb) (q : Req) (s : State) : Option Nat :=
  match policyNamed mb (fld q.body 0 4) s with | .error st => some st | .ok _ => none

/-- POLICY_QUERY (R123). -/
def execPolicyQuery (mb : Mb) (s : State) : Out :=
  runCmd mb 0x020C (storeRead policyQueryCheck (fun _ q s =>
    match tget s.store.c.policies (fld q.body 0 4) with
    | some p => (.reply { body := policyBytes p }, s)
    | none => (cmdFail St.handleInvalid, s))) s

/-- The check of STORE_REBASE (R121). -/
def storeRebaseCheck (_ : Mb) (_ : Req) (s : State) : Option Nat := if s.store.state = .failed then none else some St.modeDenied

/-- STORE_REBASE: the store is emptied, owner 0 included, and READY; the floor is the next SEQ, the committed SEQ + 2^36 (R121, R639, log entry 145). -/
def storeRebaseRun (_ : Mb) (_ : Req) (s : State) : Ans × State :=
  let f := resumeSeq s
  let s := { resumeJournal s with store.c := {}, store.floor := f, store.rebased := true, store.sweep := [], meter.live := [], cust := {} }
  (.reply { body := leBytes 8 f }, setStoreState .ready (logCode 0x0201 0 [(0, 8, f)] (clearSapwood (firstBlock s))))

/-- STORE_REBASE (R121). -/
def execStoreRebase (mb : Mb) (s : State) : Out := runCmd mb 0x0220 (direct storeRebaseCheck storeRebaseRun) s

/-- The estate policy as the estate anchor copies it: M and the keys of its credentials; none while owner 0 is not ACTIVE (R92, R478). -/
def estatePolicyKeys (s : State) : Option (Nat × List (Nat × Bytes)) :=
  match getOwner 0 s with
  | none => none
  | some x =>
    if x.state ≠ .active then none
    else (tget s.store.c.policies x.adminPolicy).map (fun p => (p.m, p.creds.filterMap (fun i => (tget s.store.c.creds i).map (fun k => (k.alg, k.key)))))

end Sys2Proof.Machine
end

