-- ==== Sys2Proof/Machine/Rings.lean ====
section
/-! DEFINITION. Event rings of frame rings and SecYs, port drops, and the removal of SAs (chapter 12). -/

namespace Sys2Proof.Machine

/-- A port's registers. -/
def getPort (n : Nat) (s : State) : Port := tgetD s.eth.ports n {}

/-- Replace a port's registers. -/
def setPort (n : Nat) (p : Port) (s : State) : State := { s with eth.ports := tset s.eth.ports n p }

/-- ETH_DROP of a cause rises: 0 FCS, 1 BUFFER, 2 FAULT, 3 NO_DEST, 4 MACSEC, 5 MAC_CONTROL. -/
def portDrop (n cause : Nat) (s : State) : State :=
  let p := getPort n s
  setPort n { p with drops := tset p.drops cause (tgetD p.drops cause 0 + 1) } s

/-- Count n more in a counter table (R345). -/
def bump (t : Tab DWord) (i n : Nat) : Tab DWord := tset t i (tgetD t i 0 + BitVec.ofNat 64 n)

/-- A SecY's counter rises (R345). -/
def secyCount (port i n : Nat) (s : State) : State :=
  { s with eth.secys := tmod s.eth.secys port (fun y => { y with c := bump y.c i n }) }

/-- The position a port belongs to and its home pair's stands (R317, R333): position p is served by stands 2(p / 2) and 2(p / 2) + 1. -/
def portPos (n : Nat) : Nat := n / 4

/-- An event entry, with PHASE in bit 0 of its byte at an offset, is written at a ring's event tail, then the vector is raised; the second component says that it was written (R249, R255, R340). -/
def ringEvent (k phaseAt : Nat) (entry : Bytes) (s : State) : State × Bool :=
  match tget s.eth.rings k with
  | none => (s, false)
  | some r =>
    let a := r.evt + 16 * r.evTail
    if r.state != .active || 2 ^ r.log2 ≤ r.evHeld then (s, false)
    else if !hostOk (qOfKey k).1 a 16 s then (ringError k .cqFault s, false)
    else
      let e := entry.set phaseAt (entry.getD phaseAt 0 ||| BitVec.ofNat 8 (b2n r.phase))
      let t := (r.evTail + 1) % 2 ^ r.log2
      let n := r.unsignalled + 1
      let now := r.coalCount ≤ 1 || r.coalCount ≤ n
      let r := { r with evTail := t, evHeld := r.evHeld + 1, phase := if t = 0 then !r.phase else r.phase, unsignalled := if now then 0 else n }
      let s := hostWrite a e { s with eth.rings := tset s.eth.rings k r }
      if now then (sendVec (qOfKey k).1 r.vector { s with host.coalDue := without s.host.coalDue k }, true)
      else ({ s with host.coalDue := if r.coalUs = 0 then s.host.coalDue else addNew s.host.coalDue k }, true)

/-- An event of a SecY goes to its event ring, of DIR 2, or is counted lost (R342). -/
def secyEvent (port kind sa pn : Nat) (s : State) : State :=
  match tget s.eth.secys port with
  | none => s
  | some y =>
    let e := layout 8 [(0, 1, kind), (1, 1, port), (4, 4, sa)] ++ beBytes 8 pn
    match fnOfCode y.evtFn with
    | none => secyCount port 14 1 s
    | some fn =>
      match (if (tget s.eth.rings (qKey fn y.evtQid)).any (fun r => r.dir == 2) then ringEvent (qKey fn y.evtQid) 2 e s else (s, false)) with
      | (s, true) => s
      | (s, false) => secyCount port 14 1 s

/-- The port of an SA: that of its SC (R343). -/
def saPort (sa : Nat) (s : State) : Nat := match tget s.eth.scs (sa / 4) with | some c => c.port | none => 0

/-- The home stands of a position: 2(p / 2) and 2(p / 2) + 1 (chapter 01). -/
def homeStands (pos : Nat) : List Nat := [pos / 2 * 2, pos / 2 * 2 + 1]

/-- The home pair an SA runs on. -/
def saPair (sa : Nat) (s : State) : Nat := portPos (saPort sa s) / 2

/-- Frames classified to an SA and not yet released (R332). -/
def saFlight (sa : Nat) (s : State) : Nat := (s.eth.flight.filter (fun f => f.sa == some sa)).length

/-- The port a frame's own counters belong to: its ingress port, or its egress port when it came from the host (R321). -/
def framePort (f : Frame) : Nat :=
  if f.source < 32 then f.source else match f.dest with | .port n => n | _ => 0

/-- The frames of a kind are dropped with a cause; the order of the rest stays (R335, R339). -/
def dropFrames (hit : Frame → Bool) (cause : Nat) (s : State) : State :=
  let fs := s.eth.flight.filter hit
  fs.foldl (fun s f => portDrop (framePort f) cause s) { s with eth.flight := s.eth.flight.filter (fun f => !hit f) }

/-- The pinned contexts of a key on a home pair are freed unless another pinned SA holds them (R332, R333). -/
def unpin (pair slot gen : Nat) (s : State) : State :=
  if s.eth.sas.any (fun p => p.2.pinned && p.2.slot == slot && p.2.gen == gen && saPair p.1 s == pair) then s
  else { s with units.lanes := tmap s.units.lanes (fun g l =>
      if g / 18 = pair then { l with ctxs := l.ctxs.filter (fun c => !(c.standing && c.slot == slot && c.gen == gen)) } else l) }

/-- SCs and SecYs being removed go when nothing of theirs is left, the transmit SC last (R332). -/
def ethSweep (s : State) : State :=
  let bare (id : Nat) : Bool := !s.eth.sas.any (fun p => p.1 / 4 == id)
  let scs := s.eth.scs.filter (fun p => !(p.2.removing && !p.2.tx && bare p.1))
  let scs' := scs.filter (fun p => !(p.2.removing && p.2.tx && bare p.1 && !scs.any (fun q => q.2.port == p.2.port && !q.2.tx)))
  { s with
    eth.scs := scs'
    eth.secys := s.eth.secys.filter (fun p => !(p.2.removing && !scs'.any (fun q => q.2.port == p.1))) }

/-- The SA is gone: its standing lease is released, SA_BOUND falls by one, pinned contexts are freed (R332). -/
def dropSa (sa : Nat) (s : State) : State :=
  match tget s.eth.sas sa with
  | none => s
  | some a =>
    let pair := saPair sa s
    let s := { s with eth.sas := tdel s.eth.sas sa }
    let s := if a.pinned then unpin pair a.slot a.gen s else s
    match tget s.store.c.keys a.slot with
    | none => s
    | some k => if k.gen = a.gen then modKey a.slot (fun k => { k with saBound := k.saBound - 1 }) s else s

/-- An SA is removed: it takes no new frame, and goes once its last frame has left its lane (R332). -/
def removeSa (sa : Nat) (s : State) : State :=
  match tget s.eth.sas sa with
  | none => s
  | some a =>
    if saFlight sa s = 0 then dropSa sa s
    else { s with eth.sas := tset s.eth.sas sa { a with removing := true } }

/-- An SA, SC or SecY no longer exists. -/
def ethGoneNow (kind id : Nat) (s : State) : Bool :=
  match kind with
  | 0 => (tget s.eth.sas id).isNone
  | 1 => (tget s.eth.scs id).isNone
  | _ => (tget s.eth.secys id).isNone

/-- The answer of a wait whose object is gone. -/
def ethWait (w : MbWait) (s : State) : Option Resp :=
  match w with
  | .ethGone kind id r => if ethGoneNow kind id s then some r else none
  | _ => none

/-- Removals that have come to their end are answered, or their results kept for a reissue (R287, R332). -/
def ethSettle (s : State) : State :=
  s.mbox.foldl (fun s p =>
    let mb := mbOfKey p.1
    let b := getMb mb s
    match (if b.cur.isSome then ethWait b.wait s else none) with
    | some r => finishMb mb r s
    | none =>
      let keep (x : MbRec) : MbRec := match (x.result.bind (fun w => ethWait w s)) with
        | some r => if x.state == .indeterminate then { x with result := some (.rerun r) } else x
        | none => x
      setMb mb { b with recs := b.recs.map keep } s) s

/-- Lookout CLEAR on MACsec: every SA becomes CLEARED, its frames drop, it posts SA_CLEARED and is removed (R339). -/
def clearSas (s : State) : State :=
  let sas := s.eth.sas
  let s := dropFrames (fun f => f.sa.isSome) 2 { s with eth.sas := tmap sas (fun _ a => { a with cleared := true }) }
  ethSettle (ethSweep (sas.foldl (fun s p => removeSa p.1 (secyEvent (saPort p.1 s) 3 p.1 0 s)) s))

end Sys2Proof.Machine
end

