-- ==== Sys2Proof/Machine/Doe.lean ====
section
/-! DEFINITION. DOE mailboxes, SPDM and IDE streams (R230, R233, R234, R596). -/

namespace Sys2Proof.Machine

/-- Whether a message is an SPDM 1.3 request of a code (log entry 33: codes of the outside standard). -/
def spdmIs (code : Nat) (m : Bytes) : Bool := decide (0x13 ≤ fld m 0 1) && fld m 1 1 == code

/-- The sessions open after a request: KEY_EXCHANGE opens one while fewer than the limit are open, END_SESSION in a session closes one. -/
def spdmSessions (limit n : Nat) (secured : Bool) (m : Bytes) : Nat :=
  if spdmIs 0xE4 m && !secured then (if n < limit then n + 1 else n)
  else if spdmIs 0xEC m && secured then n - 1
  else n

/-- An SPDM response: the outside standard's, over the device identity, the measurements and fresh bits. -/
def spdmResponse (n : Nat) (secured : Bool) (m r : Bytes) (s : State) : Bytes :=
  let ins := [leBytes 8 s.ident.deviceRef, (s.start.meas.map (·.2)).flatten, leBytes 1 (b2n secured), leBytes 1 n, m, r]
  prim (Config.prim .spdm ([[0]] ++ ins) % 65536) .spdm ([[1]] ++ ins)

/-- An IDE stream of a link: 0 the link stream, 1 to 16 the selective ones. -/
def getIde (link n : Nat) (s : State) : IdeStream := tgetD s.host.ide (32 * link + n) {}

/-- Replace an IDE stream. -/
def setIde (link n : Nat) (x : IdeStream) (s : State) : State := { s with host.ide := tset s.host.ide (32 * link + n) x }

/-- A stream's keys of a key set, K0 or K1. -/
def ideSet (k : Nat) (x : IdeStream) : Tab (Bytes × Bytes) := x.keys.filter (fun e => e.1 % 2 == k)

/-- KEY_PROG: a key and its IV are delivered, and held in two shares under the mask; the set in use goes on (R234, log entry 33). -/
def ideProg (m mask : Bytes) (x : IdeStream) : IdeStream :=
  { x with keys := tset x.keys (fld m 17 1) (mask, xorBytes (slice m 19 40) mask) }

/-- K_SET_GO: a stream with keys of the set is Secure and uses that set (R234, log entry 33). -/
def ideGo (k : Nat) (x : IdeStream) : IdeStream := if (ideSet k x).isEmpty then x else { x with secure := true, inUse := some k }

/-- K_SET_STOP: the keys of the set are gone; a stream that used it is Insecure (R234, log entry 33). -/
def ideStop (k : Nat) (x : IdeStream) : IdeStream :=
  let x := { x with keys := x.keys.filter (fun e => e.1 % 2 != k) }
  if x.inUse = some k then { x with secure := false, inUse := none } else x

/-- An IDE_KM object inside a secured session: KEY_PROG, K_SET_GO or K_SET_STOP of a stream and a key set; the mask is for the shares of a key (R234, log entry 33). -/
def ideKm (link : Nat) (m mask : Bytes) (s : State) : State :=
  let n := fld m 15 1
  let k := fld m 17 1 % 2
  if !spdmIs 0xFE m || fld m 11 1 != 0 || 16 < n then s
  else
    let x := getIde link n s
    match fld m 12 1 with
    | 2 => setIde link n (ideProg m mask x) s
    | 4 => setIde link n (ideGo k x) s
    | 5 => setIde link n (ideStop k x) s
    | _ => s

/-- The answer to DOE discovery: vendor, protocol and next index (log entry 33). -/
def doeDiscovery (i : Nat) : Bytes := if i ≤ 2 then layout 4 [(0, 2, 1), (2, 1, i), (3, 1, (i + 1) % 3)] else layout 4 [(0, 2, 0xFFFF)]

/-- The Warden, or the Seedling firmware, answers a DOE request; an SPDM request waits, Busy, for its fresh bits (R206, R215, R233). -/
def doeServe (p : Nat) (r : DoeRequest) (s : State) : State :=
  match r with
  | .discovery i => { s with host.doeBusy := without s.host.doeBusy p, host.doeResp := tset s.host.doeResp p (doeDiscovery i) }
  | .spdm secured m => match takeHeart 88 s with
  | (none, s) => { s with host.doeWait := s.host.doeWait ++ [(p, r)] }
  | (some bits, s) =>
    let n := tgetD s.host.spdm p 0
    let b := spdmResponse n secured m (bits.take 48) s
    let s := { s with host.doeBusy := without s.host.doeBusy p }
    let s := if secured && decide (0 < n) then ideKm (p / 2) m (bits.drop 48) s else s
    { s with host.doeResp := tset s.host.doeResp p b, host.spdm := tset s.host.spdm p (spdmSessions 4 n secured m) }

/-- An SPDM message over MCTP is answered: its first byte is the MCTP message type, 0x05 or, in a secured session, 0x06; up to 2 sessions; it waits for its fresh bits (R206, R215, R596, log entry 122). -/
def mctpSpdm (m : Bytes) (s : State) : State :=
  let secured := fld m 0 1 % 128 == 6
  let n := s.pwr.sessions
  match takeHeart 48 s with
  | (none, s) => { s with pwr.spdmWait := s.pwr.spdmWait ++ [m] }
  | (some bits, s) =>
  let b := spdmResponse n secured (m.drop 1) bits s
  { s with pwr.mctpOut := m.take 1 ++ b, pwr.sessions := spdmSessions 2 n secured (m.drop 1) }

/-- SPDM requests that waited, for a trusted restart or a failover to end or for random bits, are answered (R215, R233, R596). -/
def doeResume (s : State) : State :=
  let s' := s.host.doeWait.foldl (fun s x => doeServe x.1 x.2 s) { s with host.doeWait := [] }
  s.pwr.spdmWait.foldl (fun s m => mctpSpdm m s) { s' with pwr.spdmWait := [] }

/-- A nonce that waited for its random bits is drawn (R215, R477). -/
def nonceResume (s : State) : State :=
  if !s.lc.nonceDue then s
  else match takeHeart 32 s with
  | (some n, s) => { s with lc.nonce := some n, lc.nonceDue := false }
  | (none, s) => s

/-- DOE_REQUEST: answered; in QUARANTINE Busy stays set; during a trusted restart it waits. A request to a mailbox that shows Busy is not taken (R233). -/
def execDoeRequest (p : Nat) (req : DoeRequest) (s : State) : Out :=
  onUnit (p < 4) (
    if !pfPresent s p || inD3 (.pf p) s || s.host.doeBusy.contains p || !s.mode.chosen || s.mode.mode == 10 || s.mode.mode == 12 then s
    else
      let s := { s with host.doeBusy := addNew s.host.doeBusy p }
      if s.mode.mode == 8 then s
      else if restarting s || s.start.failingOver then { s with host.doeWait := s.host.doeWait ++ [(p, req)] }
      else doeServe p req s)

/-- IDE_TLP_FAIL: a TLP that fails its integrity check is dropped and its stream goes to Insecure (R234). -/
def execIdeTlpFail (link stream : Nat) (s : State) : Out :=
  onUnit (link < 2 && stream < 17) (setIde link stream { getIde link stream s with secure := false } s)

/-- TDISP_MESSAGE: locking, starting and stopping a VF's TDI (R235). -/
def execTdispMessage (n : Nat) (m : TdispMsg) (s : State) : Out :=
  onUnit (n < 4096) (
    if !(getFn (.vf n) s).enabled || restarting s || s.start.failingOver || s.mode.mode == 8 then s
    else
      let t := tgetD s.host.tdis n .unlocked
      match m with
      | .lock k =>
        if t = .unlocked && (getAlloc (.vf n) s).owner.isSome && decide (1 ≤ k ∧ k ≤ 16) then
          { s with host.tdis := tset s.host.tdis n .locked, host.tdiStream := tset s.host.tdiStream n k }
        else s
      | .start => if t = .locked then { s with host.tdis := tset s.host.tdis n .run } else s
      | .stop => { s with host.tdis := tdel s.host.tdis n, host.tdiStream := tdel s.host.tdiStream n }
      | .query => s)

end Sys2Proof.Machine
end

