-- ==== Sys2Proof/Machine/Orders.lean ====
section
/-! DEFINITION. Orders that act on the whole device: calls and scrubs of cores, Lookout CLEAR, the device stop, QUARANTINE, cold start (chapters 02, 13, 18, 19, 21). -/

namespace Sys2Proof.Machine

/-- Waits of one kind end in every context. -/
def dropWait (w : CtxWait) (s : State) : State :=
  { s with ctxs := tmap s.ctxs (fun _ x => { x with waits := without x.waits w }) }

/-- A wake source's bit is set while WATCH is being entered or holds (R588). -/
def wakePend (code : Nat) (s : State) : State :=
  if s.pwr.entry.isSome || s.pwr.state == .watch then
    { s with pwr.pendingWakes := s.pwr.pendingWakes ||| BitVec.ofNat 6 (2 ^ (code - 1)) }
  else s

/-- A gate call of a core is cancelled: its index is free, a queued call goes, a taken one's response will be dropped (R373). -/
def cancelCall (core i : Nat) (s : State) : State :=
  let c := getCore core s
  if bitOf c.out i then
    let mine (g : GateCall) : Bool := g.core == core && g.index == i
    let s := setCore core { c with out := c.out - 2 ^ i } s
    { s with
      cores.gate := tmap s.cores.gate (fun _ l => l.filter (fun g => !mine g))
      cores.taken := s.cores.taken.map (fun g => if mine g then { g with cancelled := true } else g)
      cores.applets := tmap s.cores.applets (fun _ a => if a.core = core then { a with calls := without a.calls i } else a) }
  else s

/-- Every call of a core is cancelled. -/
def cancelCalls (core : Nat) (s : State) : State := (List.range 4).foldl (fun s i => cancelCall core i s) s

/-- The view a master has of a stand's Seedbank port. -/
def portStat (b : Bank) (master : Nat) : SbkPortStat := tgetD b.port master {}

/-- A master's Seedbank port request is withdrawn: STATE IDLE, RESULT CANCELLED (R222). -/
def cancelPort (stand master : Nat) (s : State) : State :=
  let b := getBank stand s
  let p := portStat b master
  if p.state = 1 || p.state = 2 then
    setBank stand { b with queue := b.queue.filter (fun r => r.master != master), port := tset b.port master { p with state := 0, result := 2 } } s
  else s

/-- A digest engine's state. -/
def getDge (g : Nat) (s : State) : Dge := tgetD s.units.dges g { worldU := g % 2 == 1 }

/-- Replace a digest engine's state. -/
def setDge (g : Nat) (d : Dge) (s : State) : State := { s with units.dges := tset s.units.dges g d }

/-- ABORT on slot 0: message, result, expectation and error cleared (R168). -/
def abortSlot (d : Dge) : Dge :=
  { d with slot := .idle, verdict := 0, err := 0, msg := {}, held := [], result := [], expect := [] }

/-- KEY_CLR on slot 0: the key is zeroised and its lease released (R170). -/
def clearSlotKey (d : Dge) : Dge :=
  { d with keyBuf := [], keyInner := [], keyOuter := [], keyLoaded := false, keyLoading := false, keySrc := .none, handle := 0, lease := none }

/-- The digest engines of the device. -/
def dgeUnits : List Nat := List.range 16

/-- Every slot of an engine is aborted and its key zeroised. -/
def wipeDge (g : Nat) (s : State) : State :=
  setDge g { clearSlotKey (abortSlot (getDge g s)) with xfer := none, streams := [] } s

/-- A WMA unit's state. -/
def getWma (u : Nat) (s : State) : Wma := tgetD s.units.wmas u {}

/-- Replace a WMA unit's state. -/
def setWma (u : Nat) (w : Wma) (s : State) : State := { s with units.wmas := tset s.units.wmas u w }

/-- A core's last WMA command ended with a value of R182: 0 OK, 1 EFAIL, 2 EFLUSH, 3 EFAULT. -/
def wmaEnds (core v : Nat) (s : State) : State := { s with units.wmaVal := tset s.units.wmaVal core v }

/-- A unit's queued commands end with a value; the running one stays (R189). -/
def flushWma (v u : Nat) (s : State) : State :=
  let w := getWma u s
  let gone := w.cmds.filter (fun c => !c.running)
  if gone.isEmpty then s
  else
    let s := gone.foldl (fun s c => wmaEnds c.core v s) s
    setWma u { w with cmds := w.cmds.filter (·.running) } { s with units.wmaLast := tset s.units.wmaLast u v }

/-- The address of a stand's SRAM behind the fabric: local 0x0C00_0000 of each stand, kept apart by stand (chapter 01). -/
def standAddr (stand addr : Nat) : Nat := 2 ^ 40 * (stand + 1) + addr

/-- The bank of SRAM a core owns: 1 MiB at its position's place in the stand's SRAM (R360). -/
def bankAddr (stand pos : Nat) : Nat := standAddr stand (0x0C000000 + 0x100000 * pos)

/-- A range behind the fabric reads as zeros. -/
def zeroFab (a n : Nat) (s : State) : State :=
  { s with units.fab := s.units.fab.filter (fun p => p.1 < a || a + n ≤ p.1) }

/-- Step 1 of a scrub: the core stops, its calls and its Seedbank request are cancelled (R375). -/
def beginScrub (core : Nat) (s : State) : State :=
  let s := cancelPort (core / 9) core (cancelCalls core s)
  setCore core { getCore core s with state := .scrubbing } s

/-- The DGE1 claim of a core is aborted, its key cleared, the claim released (step 3 of R375). -/
def dropClaim (core : Nat) (s : State) : State :=
  let g := 2 * (core / 9) + 1
  let d := getDge g s
  let d := { d with stalled := d.stalled.filter (fun w => w.tag.master != core) }
  if d.claim = some core then setDge g { clearSlotKey (abortSlot d) with claim := none, xfer := none } s else if d.stalled = (getDge g s).stalled then s else setDge g d s

/-- The interfaces of some masters restart: each of their streams begins at 0 again (R22). -/
def restartIssue (p : Nat → Bool) (s : State) : State := { s with world.issued := s.world.issued.filter (fun e => !p e.1) }

/-- Steps 3 to 6 of a scrub: claim, registers and CSRs, bank, owner; the core's interface restarts (R22, R375). -/
def endScrub (core : Nat) (s : State) : State :=
  let s := restartIssue (· == core) (dropClaim core s)
  let c := getCore core s
  let s := match corePos core s with | some p => zeroFab (bankAddr (core / 9) p) 0x100000 s | none => s
  let c' : Core :=
    { state := .idle, pos := c.pos, owner := c.next, ctrlOwner := c.ctrlOwner, ctrlNone := c.ctrlNone, next := c.next
      swrIgn := c.swrIgn, callSeq := c.callSeq, emptyTake := c.emptyTake }
  setCore core c' { s with units.wmaVal := tdel s.units.wmaVal core, units.wmaOpen := tdel s.units.wmaOpen core }

/-- Applets on a core take a state and leave it. -/
def endApplets (core : Nat) (st : AppState) (s : State) : State :=
  { s with cores.applets := tmap s.cores.applets (fun _ a =>
      if a.core = core ∧ (a.state = .running ∨ a.state = .stopping) then
        { a with state := st, calls := [], wait := .none, upcall := none, upcallDue := [] } else a) }

/-- No command runs on either multiplier of a stand (R189). -/
def wmaIdle (st : Nat) (s : State) : Bool := [2 * st, 2 * st + 1].all (fun u => !(getWma u s).cmds.any (·.running))

/-- The cores of a stand that wait in an ordered scrub. -/
def orderedCores (st : Nat) (s : State) : List Nat := (standUnits st).filter (fun c => (getCore c s).ordered && (getCore c s).state == .scrubbing)

/-- The ordered scrubs of a stand take place once both its multipliers are idle (R189). -/
def orderedDone (st : Nat) (s : State) : State := if wmaIdle st s then (orderedCores st s).foldl (fun s c => endScrub c s) s else s

/-- A scrub ordered by CLEAR or QUARANTINE: the core stops, its applets are lost, its owner is kept (R376, R500). -/
def orderedScrub (core : Nat) (s : State) : State :=
  let s := endApplets core .cleared (beginScrub core s)
  setCore core { getCore core s with ordered := true } s

/-- The cores of the device that fill a position. -/
def coresInService (s : State) : List Nat := (List.range 72).filter (fun c => coreActive c s)

/-- Every queued WMA command ends with WMA_EFLUSH and every core in service is scrubbed (R189, R376). -/
def scrubAll (s : State) : State :=
  let s := (List.range 16).foldl (fun s u => flushWma 2 u s) s
  stands.foldl (fun s st => orderedDone st s) ((coresInService s).foldl (fun s c => orderedScrub c s) s)

/-- Every IDE stream is Insecure and unkeyed, every SPDM session closed (R234, R596). -/
def clearLinkKeys (s : State) : State :=
  { s with host.ide := tmap s.host.ide (fun _ _ => {}), host.spdm := [], pwr.sessions := 0 }

/-- Lane and HUC key state and every digest slot are zeroised (R156, R171). -/
def wipeEngines (s : State) : State :=
  let s := { s with
    units.lanes := tmap s.units.lanes (fun _ l => { l with ctxs := [] })
    units.stands := tmap s.units.stands (fun _ x => { x with hucQueue := [], hucHeld := [], hucRegs := {}, hucStall := false }) }
  dgeUnits.foldl (fun s g => wipeDge g s) s

/-- Every debug enable is cleared, and a core that one of them halted runs again; the flags of the evidence stay (R487, R488, log entry 100). -/
def clearEnables (s : State) : State := { s with lc.enables := 0, lc.halted := [], lc.stepping := [] }

/-- The Canopy banks of a device change. -/
def mapBanks (f : Bank → Bank) (s : State) : State :=
  { s with units.banks := stands.foldl (fun t b => tset t b (f (tgetD t b {}))) s.units.banks }

/-- Lookout CLEAR (R225, R488, R500). -/
def orderClear (s : State) : State :=
  let s := mapBanks zeroBank (clearEnables s)
  let s := abortWhere (fun x => x.state == .running) St.keyRevoked s
  scrubAll (clearSas (clearLinkKeys (wipeEngines { s with store.sap := [] })))

/-- Mailboxes that are busy return to IDLE with no response (log entry 25). -/
def mailboxesStop (s : State) : State :=
  { s with mbox := tmap s.mbox (fun _ b =>
      if b.state = .busy then { b with state := .idle, accepted := false, cur := none, inner := none, wait := .none, rank8 := false, ctx := 0xFFFF }
      else b) }

/-- Every port is down and every position stopped (R339). -/
def portsStop (local_ : Bool) (s : State) : State :=
  { s with
    eth.positions := (List.range 8).foldl (fun t p => tset t p { tgetD t p {} with stopped := true }) s.eth.positions
    eth.ports := (List.range 32).foldl (fun t n => let p := tgetD t n {}; tset t n { p with up := false, localFault := p.localFault || local_ }) s.eth.ports
    eth.flight := [] }

/-- A running update ends ABANDONED with a cause (R464); CAUSE 5 is a mode that outranks MAINTENANCE, and reverts nothing. -/
def endUpdate (cause : Nat) (s : State) : State :=
  if s.start.upd.state = .running then { s with start.upd := { s.start.upd with state := .abandoned, cause := cause } } else s

/-- What stands for the Seedling firmware in a measurement: the spec gives no image, an uninterpreted constant (R447). -/
def romImage : Bytes := leBytes 8 (Config.prim .deviceId [[2]])

/-- TotalVFs reads 0: the VFs are gone, and their mailboxes with them (R41). -/
def dropVfs (s : State) : State :=
  { s with host.fns := tmap s.host.fns (fun k f => if k < 4 then f else { f with enabled := false }), mbox := s.mbox.filter (fun p => p.1 < 32) }

/-- The device stop on entry to SEEDLING or CLEARCUT, and the restart of the Warden with the Seedling firmware; entries fetched end with MODE_DENIED, a wake pending in WATCH stays, and in CLEARCUT the VFs stay until the next reset (R37, R41, R45, R257, R277). -/
def deviceStop (s : State) : State :=
  let s := voidWhere (fun _ => true) (clearEnables (endUpdate 5 { s with pwr.entry := none, pwr.pendingWakes := if inWatch s then s.pwr.pendingWakes else 0 }))
  let s := (List.range 72).foldl (fun s c => cancelCalls c s) s
  let s := (coresInService s).foldl (fun s c => endApplets c .exited (setCore c { getCore c s with state := .idle } s)) s
  let s := queuesModeEnd { s with start.seedlingFw := true }
  let s := if s.start.clearcutLatch then s else dropVfs s
  let s := portsStop false (mailboxesStop s)
  let s := { s with
    store.sap := [], store.loading := []
    units.lanes := tmap s.units.lanes (fun _ l => { l with ctxs := [] })
    start.restarting := false, start.failingOver := false, start.handStep := 0, start.handPlain := false
    start.slot := 2
    ident.wdnLevel := 0x0402, ident.svcLevel := 0 }
  doeResume (measureSet 6 romImage s)

/-- A bank starts: its cells run and its start-up test begins anew (R212, R213). -/
def startBank (k : Bank) : Bank := { k with state := .starting, cause := 0, cells := [], tested := 0, gated := false, part := [] }

/-- QUARANTINE stops the banks: held bits and reservoirs are zeroised, and an isolated or retired bank stays so (R211, R225). -/
def stopBank (k : Bank) : Bank :=
  let k := { zeroBank k with queue := [], port := [] }
  if k.state = .isolated ∨ k.state = .retired then k else { k with state := .off }

/-- A start under way when QUARANTINE is entered reaches no working mode (R34). -/
def startLost (s : State) : State :=
  let s := if (s.start.starting || s.start.restarting) && !s.start.seedlingFw then countStartFail s else s
  { s with start.starting := false, start.restarting := false }

/-- The reaction of R521 after the report: keys zeroised, everything stopped, a WATCH entry ended (R592), the record written. -/
def quarantineRun (src : Nat) (self inj : Bool) (unit : Nat) (s : State) : State :=
  let s := startLost (endUpdate 5 { s with
    pwr.entry := none, pwr.pendingWakes := if inWatch s then s.pwr.pendingWakes else 0
    fbk.fatal := true, fbk.self := self, fbk.fatalSrc := src, fbk.level := false })
  let s := voidWhere (fun _ => true) s
  let s := wipeEngines (clearLinkKeys { s with store.sap := [], store.loading := [] })
  let s := { s with
    host.queues := tmap s.host.queues (fun _ q => { q with fetched := [], reading := [] })
    start.failingOver := false, start.handStep := 0, start.handPlain := false }
  let s := mapBanks stopBank s
  let s := mailboxesStop (scrubAll (portsStop true s))
  let r := mkRec 0x0604 0 [(0, 1, src), (2, 2, unit), (4, 4, seconds s)]
  logPut { r with flags := r.flags + 4 * b2n inj } s

/-- QUARANTINE is entered; a start that had chosen no mode chooses it now (R38, R644). -/
def enterQuarantine (s : State) : State := if s.mode.chosen then refreshMode s else firstMode s

/-- A FATAL fault (R521): counted, and QUARANTINE entered unless the device is in it; in WATCH it wakes the device (R588). -/
def fatalReport (src unit : Nat) (inj : Bool) (s : State) : State :=
  let s := lastFault src 3 inj unit (countFault 3 s)
  if s.fbk.fatal then s
  else enterQuarantine (wakePend 5 (quarantineRun src false inj unit s))

/-- A self-check error of Firebreak: R521 without classing anything, under code 0x2F (R522). -/
def selfCheckStop (inj : Bool) (s : State) : State :=
  if s.fbk.fatal then s else enterQuarantine (wakePend 5 (quarantineRun 0x2F true inj 0xFFF s))

/-- State codes of R469. -/
def lcCode : LcState → Nat
  | .blank => 0
  | .test => 1
  | .personalise => 2
  | .production => 3
  | .returned => 4
  | .invalid => 5
  | .scrapped => 6

/-- Append a journal entry; ENTRY_NO is one more for each entry (R472). -/
def lcWrite (isEnd : Bool) (src dst : LcState) (authBy : Nat) (auth : Bytes) (s : State) : State :=
  let j := s.lc.journal
  { s with lc.journal := j ++ [{ isEnd := isEnd, src := src, dst := dst, authBy := authBy, no := j.length,
                                  seconds := seconds s, auth := auth }] }

/-- One write of R475 is complete. -/
def lcStep (r : LcRun) (x : LcStep) (s : State) : State :=
  match x with
  | .begin_ => lcWrite false r.src r.dst r.authBy r.auth s
  | .copy k st => { s with lc.copies := s.lc.copies.set k (lcWord st) }
  | .fin => lcWrite true r.src r.dst r.authBy r.auth s

/-- The programming is over: the record, and the cold start of R46 ordered (R475, R480, R482). -/
def lcDone (r : LcRun) (s : State) : State :=
  { logCode 0x0801 0 [(0, 1, lcCode r.src), (1, 1, lcCode r.dst), (2, 1, r.authBy), (4, 4, s.lc.journal.length - 1)] s with pwr.orderedCold := some 4 }

/-- The write in progress is read back and the next begins (R475). -/
def lcAdvance (s : State) : State :=
  match s.lc.run with
  | none => s
  | some r =>
    match r.todo with
    | [] => s
    | x :: rest =>
      let s := lcStep r x { s with lc.run := some { r with todo := rest } }
      if rest.isEmpty then lcDone r s else s

/-- Every write that is left is made (R481). -/
def lcFinish (s : State) : State :=
  match s.lc.run with
  | none => s
  | some r => r.todo.foldl (fun s _ => lcAdvance s) s

/-- An entry whose write stops: not begun, damaged or whole (R473, R481). -/
def lcTearEntry (v : Nat) (r : LcRun) (x : LcStep) (s : State) : State :=
  match v % 3 with
  | 0 => s
  | 1 => { s with lc.journal := s.lc.journal ++ [{ isEnd := false, src := r.src, dst := r.dst, authBy := 0, no := s.lc.journal.length, seconds := 0, damaged := true }] }
  | _ => lcStep r x s

/-- A reset stops the write in progress. How far it came is a free value: an entry is absent, damaged or whole, and a copy has lost some of the bits it was to lose (R473, R475, R481, log entry 193). -/
def lcTear (s : State) : State :=
  match s.lc.run with
  | none => s
  | some r =>
    match r.todo with
    | [] => s
    | x :: _ =>
      match x with
      | .copy k st =>
        let (b, s) := drawBytes 16 s
        let old := s.lc.copies.getD k 0
        { s with lc.copies := s.lc.copies.set k (old &&& (lcWord st ||| BitVec.ofNat 128 (leNat b))) }
      | .begin_ | .fin => let (v, s) := draw s; lcTearEntry v r x s

/-- What a cold start keeps of the store: the journal's own record, the commit anchor, the counters of the COMMIT partition, and what a rebase set (R77, R80, R121). -/
def storeAfterCold (st : Store) : Store :=
  { hist := st.hist, nextSeq := st.nextSeq, prevSeq := st.prevSeq, committed := st.committed, commitNo := st.commitNo, commitRec := st.commitRec, floor := st.floor
    rebased := st.rebased, epoch := st.epoch + 1 }

/-- A bank at a cold start: one isolated at each of three in a row is retired, and a retired one is not started (R211, R225). -/
def coldBank (b : Bank) : Bank :=
  { badStarts := if b.failed then b.badStarts else 0, state := if b.state = .retired then .retired else .starting }

/-- The Canopy and everything else that a cold start resets (R576, R577): the Heartwood flash, the backup domain, the log and what the board drives are kept; everything else is at reset. The operand is PWR_RESET_CAUSE.CAUSE. -/
def coldFrom (cause : Nat) (s : State) : State :=
  let l := s.lc
  let k := s.lko
  let b := s.start
  { pending := s.pending, free := s.free, us := s.us
    ident := { deviceRef := s.ident.deviceRef }
    lc := { copies := l.copies, journal := l.journal, wiped := l.wiped, anchor := l.anchor, enrolled := l.enrolled, ir := l.ir, dr := l.dr, boundary := l.boundary, drive := l.drive }
    lko :=
      { cfg := k.cfg, cfgGen := k.cfgGen, latches := k.latches, seconds := k.seconds, floor := k.floor, clearcutPending := k.clearcutPending
        copyValid := k.copyValid, lossFlag := k.lossFlag, lastReset := k.lastReset, tampered := k.tampered, secretsGone := k.secretsGone, svEnabled := k.svEnabled }
    commit := s.commit
    log := s.log
    meter := { period := s.meter.period, opened := s.meter.opened, utc := s.meter.utc }
    pwr :=
      { cause := cause, goodAt := s.us, resetLow := s.pwr.resetLow, straps := s.pwr.straps, strapPins := s.pwr.strapPins
        backupUsed := s.pwr.state == .backup }
    store := storeAfterCold s.store
    units := { banks := tmap s.units.banks (fun _ b => coldBank b) }
    world := { copyA := s.world.copyA, copyB := s.world.copyB }
    start :=
      { seedling := b.seedling, clearcutLatch := b.clearcutLatch, startFails := b.startFails, restartTimes := b.restartTimes
        lastStage := b.lastStage, slotA := b.slotA, slotB := b.slotB, deviceSvn := b.deviceSvn, preferred := b.preferred, cal := b.cal, calGen := b.calGen }
    host := { mem := s.host.mem, msgs := s.host.msgs, refused := s.host.refused, links := tmap s.host.links (fun _ x => { perst := x.perst }) }
    eth := { sent := s.eth.sent } }

/-- A cold start: a write of the LC partition in progress stops, then everything that a cold start resets is at reset (R481, R576, R577). -/
def coldReset (cause : Nat) (s : State) : State := coldFrom cause (lcTear s)

/-- A cold start begins, unless RESET_N is low, which holds every other reset source off (R576), or a FATAL fault is held, which only a hardware reset ends (R38). -/
def coldStart (cause : Nat) (s : State) : State := if s.pwr.resetLow || (s.fbk.fatal && cause != 2) then s else coldReset cause s

/-- Whether a stand is in DOZE (R580). -/
def dozing (st : Nat) (s : State) : Bool := s.pwr.dozed.getLsbD st

/-- A gated stand is awake: its bit clears, its wakes count one more, its watchdogs resume with what was left, the jobs that waited for it go on (R581, R582). -/
def standUp (st : Nat) (s : State) : State :=
  if !dozing st s then s
  else dropWait (.stand st) { s with
    pwr.dozed := s.pwr.dozed &&& ~~~ BitVec.ofNat 8 (2 ^ st)
    fbk.wdAt := (standUnits st).foldl (fun t c => tset t c (tgetD t c s.pwr.goodAt + (s.us - tgetD s.pwr.gatedAt st s.us))) s.fbk.wdAt
    pwr.wakes := tset s.pwr.wakes st (tgetD s.pwr.wakes st 0 + 1) }

end Sys2Proof.Machine
end

