-- ==== Sys2Proof/Machine/Grants.lean ====
section
/-! DEFINITION. The unit tree and Capability Directory, grants and the weights they give (chapters 01 and 14), and stands going offline (R533, R534). -/

namespace Sys2Proof.Machine

/-- Leaves per stand of a tree's kind: 0 lane, 1 core, 2 WMA, 3 DGE, 4 HUC (R27). -/
def leafCount (kind : Nat) : Nat := if kind ≤ 1 then 9 else if kind ≤ 3 then 2 else 1

/-- First node ID of a kind's tree (R27; log entry 46). -/
def treeBase (kind : Nat) : Nat := [0, 85, 170, 199, 228].getD kind 249

/-- The node an ID names (R27): kind, tier (0 leaf, 1 stand, 2 bond, 3 root), stand or bond, local number. -/
def nodeOf (n : Nat) : Option NodeId :=
  match (List.range 5).reverse.find? (fun k => treeBase k ≤ n) with
  | none => none
  | some kind =>
    if 249 ≤ n then none
    else
      let i := n - treeBase kind
      if i = 0 then some { kind := kind, tier := 3 }
      else if i ≤ 4 then some { kind := kind, tier := 2, stand := i - 1, loc := 0xFF }
      else if i ≤ 12 then some { kind := kind, tier := 1, stand := i - 5, loc := 0xFF }
      else some { kind := kind, tier := 0, stand := (i - 13) / leafCount kind, loc := (i - 13) % leafCount kind }

/-- The stands below a node. -/
def nodeStands (n : NodeId) : List Nat :=
  if n.tier = 3 then stands else if n.tier = 2 then [2 * n.stand, 2 * n.stand + 1] else [n.stand]

/-- The leaves below a node: stand and local number. -/
def nodeLeaves (n : NodeId) : List (Nat × Nat) :=
  if n.tier = 0 then [(n.stand, n.loc)]
  else ((nodeStands n).map (fun st => (List.range (leafCount n.kind)).map (fun l => (st, l)))).flatten

/-- Node a is b or stands above it. -/
def nodeAbove (a b : NodeId) : Bool := a.kind == b.kind && (nodeLeaves b).all (fun l => (nodeLeaves a).contains l) && b.tier ≤ a.tier

/-- STATE of a leaf in the directory: 0 ACTIVE, 1 SPARE, 2 CHECKER, 3 ISOLATED, 4 RETIRED (R25). -/
def leafState (kind st l : Nat) (s : State) : Nat :=
  match kind with
  | 0 => match (getLane (9 * st + l) s).state with
    | .active => 0 | .checker | .filling => 2 | .isolated => 3 | .retired => 4 | .suspect => if l = 8 then 2 else 0
  | 1 => match (getCore (9 * st + l) s).state with
    | .idle | .running | .scrubbing => 0 | .spare => 1 | .isolated => 3 | .retired => 4
  | 2 => if (getWma (2 * st + l) s).isolated then 3 else 0
  | 3 => if (getDge (2 * st + l) s).isolated then 3 else 0
  | _ => if (getStand st s).hucIsolated then 3 else 0

/-- A leaf in state ACTIVE. -/
def leafActive (kind st l : Nat) (s : State) : Bool := leafState kind st l s == 0

/-- Whether a core's leaf is of world U: that of the position it fills, or filled when it failed; an unused spare reads T (R25, R413, R414). -/
def coreLeafU (g : Nat) (s : State) : Bool :=
  let c := getCore g s
  if c.state == .spare || (g % 9 == 8 && c.pos.isNone) then false else bitOf s.world.map.core (8 * (g / 9) + c.pos.getD (g % 9))

/-- Whether a leaf is of world U: a lane or HUC serves both and reads T (R25, R415). -/
def leafU (kind st l : Nat) (s : State) : Bool :=
  match kind with
  | 1 => coreLeafU (9 * st + l) s
  | 2 => bitOf s.world.map.wma (2 * st + l)
  | 3 => bitOf s.world.map.dge (2 * st + l)
  | _ => false

/-- Capacity of a leaf: 256 if it is ACTIVE (R25). -/
def leafCap (kind st l : Nat) (s : State) : Nat := if leafActive kind st l s then 256 else 0

/-- CAPACITY of a node: a group that is OFFLINE reads 0 and adds nothing above it (R25, R533). -/
def nodeCap (n : NodeId) (s : State) : Nat :=
  ((nodeLeaves n).map (fun l => if n.tier ≠ 0 && n.kind == 0 && (getStand l.1 s).offline then 0 else leafCap n.kind l.1 l.2 s)).foldl (· + ·) 0

/-- What a grant may take of a node: a core node counts only its world-U leaves (R390, log entry 45). -/
def grantCap (n : NodeId) (s : State) : Nat :=
  if n.kind ≠ 1 then nodeCap n s
  else ((nodeLeaves n).map (fun l => if leafU 1 l.1 l.2 s then leafCap 1 l.1 l.2 s else 0)).foldl (· + ·) 0

/-- WORLD of a node: 0 T, 1 U, 2 mixed (R25). -/
def nodeWorld (n : NodeId) (s : State) : Nat :=
  let us := (nodeLeaves n).map (fun l => leafU n.kind l.1 l.2 s)
  if us.all id then 1 else if us.any id then 2 else 0

/-- Every grant on a node a predicate picks, with the function that holds it. -/
def grantsWhere (p : Fn → Grant → Bool) (s : State) : List (Fn × Grant) :=
  (s.allocs.map (fun a => (a.2.grants.map (fun g => ((if a.1 < 4 then Fn.pf a.1 else Fn.vf (a.1 - 4)), g))).filter (fun q => p q.1 q.2))).flatten

/-- The sum of the AMOUNTs of all shared grants on a node and below it (R390, R391). -/
def sharedSum (n : NodeId) (s : State) : Nat :=
  ((grantsWhere (fun _ g => !g.exclusive && nodeAbove n g.node) s).map (fun q => q.2.amount)).foldl (· + ·) 0

/-- The effective amount of a grant (R391). -/
def effective (g : Grant) (s : State) : Nat :=
  let cap := grantCap g.node s
  let sum := sharedSum g.node s
  if g.exclusive then cap else if sum ≤ cap then g.amount else g.amount * cap / sum

/-- WEIGHT a function's lane grants give (R391). -/
def weightOf (a : Alloc) (s : State) : Nat :=
  min 0xFFFF (((a.grants.filter (fun g => g.node.kind == 0)).map (fun g => effective g s)).foldl (· + ·) 0)

/-- Lane capacity of a stand. -/
def standCap (st : Nat) (s : State) : Nat := nodeCap { kind := 0, tier := 1, stand := st, loc := 0xFF } s

/-- A stand is covered by an exclusive lane grant of another function (R391). -/
def takenStand (k st : Nat) (s : State) : Bool :=
  s.allocs.any (fun a => a.1 != k && a.2.grants.any (fun g => g.exclusive && g.node.kind == 0 && (nodeStands g.node).contains st))

/-- STAND_MASK a function's lane grants give (R391). -/
def maskOf (k : Nat) (a : Alloc) (s : State) : Nat :=
  (stands.map (fun st =>
    if a.grants.any (fun g => g.node.kind == 0 && (nodeStands g.node).contains st) && standCap st s != 0 && !takenStand k st s then 2 ^ st else 0)).foldl (· + ·) 0

/-- The GRANT_CHANGE bit of GBL_VF_EVENT. -/
def grantChangeBit : Nat := 4

/-- WEIGHT and STAND_MASK of a link's PFs: those of its PF, or of a bifurcated link's two together (R391). -/
def linkWeight (l : Nat) (s : State) : Nat × Nat :=
  let a := getAlloc (.pf (2 * l)) s
  let b := getAlloc (.pf (2 * l + 1)) s
  if pfPresent s (2 * l + 1) then (min 0xFFFF (weightOf a s + weightOf b s), maskOf (2 * l) a s ||| maskOf (2 * l + 1) b s)
  else (weightOf a s, maskOf (2 * l) a s)

/-- CLN_WEIGHT of each link as its grants give it; it stands in the allotment of the link's first PF. -/
def linkWeights (s : State) : State :=
  [0, 1].foldl (fun t l =>
    let w := linkWeight l s
    let a := getAlloc (.pf (2 * l)) t
    if a.weight = w.1 ∧ a.standMask = w.2 then t else setAlloc (.pf (2 * l)) { a with weight := w.1, standMask := w.2 } t) s

/-- Every function's WEIGHT and STAND_MASK are computed again; each VF whose fields change is told (R391). -/
def recomputeWeights (s : State) : State :=
  s.allocs.foldl (fun t a =>
    let w := weightOf a.2 s
    let m := maskOf a.1 a.2 s
    if a.1 < 4 ∨ (a.2.weight = w ∧ a.2.standMask = m) then t
    else raiseEvent (.vf (a.1 - 4)) grantChangeBit { t with allocs := tmod t.allocs a.1 (fun x => { x with weight := w, standMask := m }) })
    (linkWeights s)

/-- CLN_WEIGHT<f> as a pair of WEIGHT and STAND_MASK: the PFs of a bifurcated link share one (R391). -/
def clnWeight (fn : Fn) (s : State) : Nat × Nat :=
  let a := getAlloc (match fn with | .vf n => .vf n | .pf p => .pf (p / 2 * 2)) s
  (a.weight, a.standMask)

/-- The 32 bytes of a directory node that describe the units as they are (R25). -/
def nodeBytes (n : Nat) (s : State) : Bytes :=
  match nodeOf n with
  | none => List.replicate 32 0
  | some x =>
    let i := n - treeBase x.kind
    let k := leafCount x.kind
    let parent := if x.tier = 3 then 0xFFFF else if x.tier = 2 then treeBase x.kind else if x.tier = 1 then treeBase x.kind + 1 + x.stand / 2
      else treeBase x.kind + 5 + x.stand
    let first := if x.tier = 3 then n + 1 else if x.tier = 2 then treeBase x.kind + 5 + 2 * x.stand
      else if x.tier = 1 then treeBase x.kind + 13 + k * x.stand else 0xFFFF
    let next := if x.tier = 3 then 0xFFFF else if x.tier = 2 then (if i = 4 then 0xFFFF else n + 1)
      else if x.tier = 1 then (if x.stand % 2 = 1 then 0xFFFF else n + 1) else if x.loc + 1 = k then 0xFFFF else n + 1
    let count := if x.tier = 3 then 4 else if x.tier = 2 then 2 else if x.tier = 1 then k else 0
    let state := if x.tier = 0 then leafState x.kind x.stand x.loc s else if x.tier = 1 && x.kind == 0 && (getStand x.stand s).offline then 5 else 0
    let gs := grantsWhere (fun _ g => g.node == x) s
    layout 32 [(0, 2, n), (2, 2, parent), (4, 1, x.kind + 16 * b2n (x.tier != 0) + 32 * (3 - x.tier)),
      (5, 1, state + 16 * nodeWorld x s), (6, 1, if x.tier ≤ 1 then x.stand else 0xFF), (7, 1, if x.tier = 0 then x.loc else 0xFF),
      (8, 2, first), (0x0A, 2, next), (0x0C, 2, count),
      (0x0E, 2, ((nodeLeaves x).filter (fun l => leafActive x.kind l.1 l.2 s)).length), (0x10, 4, nodeCap x s),
      (0x14, 4, if x.tier = 0 then k * x.stand + x.loc else 0xFFF),
      (0x18, 2, if gs.any (fun g => g.2.exclusive) then 1 else if gs.isEmpty then 0 else 2), (0x1A, 2, gs.length)]

/-- Every node entry of the directory. -/
def dirNodes (s : State) : List Bytes := (List.range 249).map (fun n => nodeBytes n s)

/-- Bytes of a directory node as GBL_CAPDIR shows it: as the Warden last wrote it, zeros before it first does (R25, R26). -/
def capNode (n : Nat) (s : State) : Bytes := s.units.capdir.getD n (List.replicate 32 0)

/-- The CAPDIR bit of GBL_EVENT. -/
def capdirBit : Nat := 2

/-- The Warden's first write of the directory, in stage WARDEN: GEN from 0 through 1 to 2, no record, no event (R26). -/
def capFirst (s : State) : State := { s with units.capGen := 2, units.capdir := dirNodes s }

/-- A rewrite of GBL_CAPDIR: GEN through odd to even, its record and event, every weight computed again; before the first write there is nothing to rewrite (R26, R391). -/
def capRewrite (s : State) : State :=
  if s.units.capdir.isEmpty then recomputeWeights s
  else
    let g := (s.units.capGen + 2) % 2 ^ 32
    let s := { s with units.capGen := g, units.capdir := dirNodes s }
    recomputeWeights (eventAllPfs capdirBit (logCode 0x0106 1 [(0, 4, g)] s))

/-- Jobs waiting in a stand's ingress buffer return to admission, still LEASING; their source will be read again (step 3 of R534). -/
def returnJobs (st : Nat) (s : State) : State :=
  { s with ctxs := tmap s.ctxs (fun _ x => if x.state = .leasing ∧ x.stand = some st then { x with stand := none, ingress := none } else x) }

/-- A stand that has fallen below 4 ACTIVE lanes goes offline for the life of the part (R533, R534). -/
def standOffline (st : Nat) (s : State) : State :=
  if 4 ≤ (activeLanes st s).length || (getStand st s).offline then capRewrite s
  else
    let s := setStand st { getStand st s with offline := true, lookasideEn := false } s
    logCode 0x0505 1 [(0, 1, st)] (capRewrite (returnJobs st s))

end Sys2Proof.Machine
end

