-- ==== Sys2Proof/Machine/Lanes.lean ====
section
/-! DEFINITION. Cipher lanes, checker lanes and hardened unwrap cores: placement, key contexts, failure, re-dispatch and spares (chapter 05, R536). -/

namespace Sys2Proof.Machine

/-- The least element of a list by a measure; the first among equals. -/
def leastBy (f : Nat → Nat) : List Nat → Option Nat
  | [] => none
  | x :: r => match leastBy f r with
    | none => some x
    | some y => if f y < f x then some y else some x

/-- The contexts whose message runs on a lane. -/
def laneMsgs (g : Nat) (s : State) : List (Nat × Ctx) := s.ctxs.filter (fun p => p.2.state == .running && p.2.lane == some g)

/-- The inline frames whose pass runs on a lane. -/
def laneFrames (g : Nat) (s : State) : List Frame := s.eth.flight.filter (fun f => f.lane == some g)

/-- Messages running on a lane, inline frames among them (R32, R129). -/
def laneRunning (g : Nat) (s : State) : Nat := (laneMsgs g s).length + (laneFrames g s).length

/-- Blocks waiting on a lane, of lookaside jobs and of inline frames (R32, R136, R138; log entry 48). -/
def laneLoad (g : Nat) (s : State) : Nat :=
  ((laneMsgs g s).map (fun p => blocks16 (elemsLen p.2.srcElems)) ++ (laneFrames g s).map (fun f => blocks16 f.data.length)).foldl (· + ·) 0

/-- A lane holds a context for a key (R128). -/
def laneHolds (g slot gen : Nat) (s : State) : Bool := (getLane g s).ctxs.any (fun c => c.slot == slot && c.gen == gen)

/-- The key that a frame's pass uses. -/
def frameKey (f : Frame) (s : State) : Option (Nat × Nat) := (f.sa.bind (fun id => tget s.eth.sas id)).map (fun a => (a.slot, a.gen))

/-- A key context that a running message uses (R128). -/
def laneCtxUsed (g : Nat) (c : LaneCtx) (s : State) : Bool :=
  (laneMsgs g s).any (fun p => p.2.leases.contains (c.slot, c.gen)) || (laneFrames g s).any (fun f => frameKey f s == some (c.slot, c.gen))

/-- A context that may be reused (R128). -/
def laneCtxIdle (g : Nat) (c : LaneCtx) (s : State) : Bool := !c.standing && !laneCtxUsed g c s

/-- A lane can take a key it does not hold (R128). -/
def laneHasRoom (g : Nat) (s : State) : Bool := decide ((getLane g s).ctxs.length < 32) || (getLane g s).ctxs.any (fun c => laneCtxIdle g c s)

/-- A lane can start a message of a key: it runs fewer than 32, and holds the key or has room for it (R128, R129). -/
def laneTakes (g slot gen : Nat) (s : State) : Bool :=
  decide (laneRunning g s < 32) && (laneHolds g slot gen s || laneHasRoom g s)

/-- A key's two shares as the key path delivers them: the Sapwood's (R63, R127). -/
def keyShares (slot : Nat) (k : KeyRec) (s : State) : Bytes × Bytes :=
  match tget s.store.sap slot with
  | some i => (i.shareA, i.shareB)
  | none => (k.shareA, k.shareB)

/-- H, H², H³ and H⁴ of a key (R127). -/
def hashPowers (key : Bytes) : List Bytes :=
  let h := gcmH key
  let h2 := gmul h h
  let h3 := gmul h2 h
  [h, h2, h3, gmul h3 h]

/-- A key context as a lane prepares it (R127). -/
def laneCtxOf (g slot gen owner : Nat) (standing : Bool) (s : State) : LaneCtx :=
  let c : LaneCtx := { slot := slot, gen := gen, owner := owner, standing := standing, lane := g }
  match (tget s.store.c.keys slot).filter (fun k => k.gen == gen) with
  | none => c
  | some k =>
    let (a, b) := keyShares slot k s
    let key := xorBytes a b
    let k1 := cmacDouble 16 (gcmH key)
    { c with keyA := a, keyB := b, keyBits := k.length, powers := hashPowers key, k1 := k1, k2 := cmacDouble 16 k1 }

/-- A lane's contexts become a list; the stand's checker keeps a shadow of each, written in the same cycle (R127, R146). -/
def putLaneCtxs (g : Nat) (cs : List LaneCtx) (s : State) : State :=
  let s := setLane g { getLane g s with ctxs := cs } s
  let c := g / 9 * 9 + 8
  let k := getLane c s
  if c ≠ g ∧ (k.state = .checker ∨ k.state = .suspect) then setLane c { k with ctxs := k.ctxs.filter (fun x => x.lane != g) ++ cs } s else s

/-- A lane binds a context to a key, reusing the least recently used idle one when all 32 are bound (R127, R128). -/
def bindLane (g slot gen owner : Nat) (standing : Bool) (s : State) : State :=
  let cs := (getLane g s).ctxs
  match cs.find? (fun c => c.slot == slot && c.gen == gen) with
  | some c => putLaneCtxs g (without cs c ++ [{ c with standing := c.standing || standing }]) s
  | none =>
    let keep := if cs.length < 32 then cs else match cs.find? (fun c => laneCtxIdle g c s) with
      | some c => without cs c
      | none => cs
    if keep.length < 32 then putLaneCtxs g (keep ++ [laneCtxOf g slot gen owner standing s]) s else s

/-- The lane of a stand a job for a key goes to (R138). -/
def laneForKey (st slot gen : Nat) (s : State) : Option Nat :=
  let ls := (activeLanes st s).filter (fun g => laneTakes g slot gen s)
  match leastBy (fun g => laneLoad g s) (ls.filter (fun g => laneHolds g slot gen s)) with
  | some g => some g
  | none => leastBy (fun g => laneLoad g s) ls

/-- Bytes of a job, or of its window, in the ingress buffer (R139). -/
def ingressBytes (x : Ctx) : Nat := min 65536 (elemsLen x.srcElems)

/-- Bytes of a stand's ingress buffer in use: those of jobs whose source data it holds, until they are settled (R31, R139). -/
def ingressUsed (st : Nat) (s : State) : Nat :=
  ((s.ctxs.filter (fun p => p.2.stand == some st && p.2.ingress.isSome && (p.2.state == .leasing || p.2.state == .running))).map
    (fun p => ingressBytes p.2)).foldl (· + ·) 0

/-- Bytes of a stand's ingress buffer (chapter 01, Stands). -/
def ingressSize : Nat := 262144

/-- The stands a context's function may use; the device's own contexts may use every stand (R137, R392). -/
def ctxStands (x : Ctx) (s : State) : List Nat :=
  match x.src with
  | .queue fn _ _ => let (w, m) := clnWeight fn s; if w = 0 then [] else stands.filter (fun st => bitOf m st)
  | .gate t => match s.cores.taken.find? (fun g => g.ticket == t) with
    | some g => [(g.server.getD 0) / 9]
    | none => stands
  | .kcw w => match tget s.kcw w with
    | some k => [k.stand, if k.stand % 2 = 0 then k.stand + 1 else k.stand - 1]
    | none => stands
  | .mailbox _ => stands

/-- The stand a lane job is placed on: the fewest ingress bytes per ACTIVE lane, the lowest number among equals (R137). -/
def placeStand (x : Ctx) (s : State) : Option Nat :=
  let ok := (ctxStands x s).filter (fun st => standCap st s != 0 && (getStand st s).lookasideEn && !(getStand st s).offline)
  leastBy (fun st => ingressUsed st s * 5040 / max 1 (activeLanes st s).length) ok

/-- A stand's ingress buffer can take a job (R139). -/
def ingressRoom (st : Nat) (x : Ctx) (s : State) : Bool := decide (ingressUsed st s + ingressBytes x ≤ ingressSize)

/-- The number f of CLN_WEIGHT<f> for a function (chapter 05, Registers). -/
def weightIndex : Fn → Nat
  | .pf p => p / 2
  | .vf n => 2 + n

/-- The function of a CLN_WEIGHT number. -/
def weightFn (i : Nat) : Fn := if i < 2 then .pf (2 * i) else .vf (i - 2)

/-- The function number under which a context competes for a stand; the device's own contexts do not compete. -/
def competes (x : Ctx) : Option Nat :=
  match x.src with
  | .queue fn _ _ => some (weightIndex fn)
  | _ => none

/-- The functions with jobs placed on a stand and not yet in its buffer, each with the bytes of its first. -/
def waitingHeads (st : Nat) (s : State) : Tab Nat :=
  s.ctxs.foldr (fun p t =>
    if p.2.state == .leasing && p.2.stand == some st && p.2.ingress.isNone && p.2.waits.contains .ingress then
      match competes p.2 with
      | some i => tset t i (ingressBytes p.2)
      | none => t
    else t) []

/-- The next competing function at or after a number, round the circle. -/
def nextTurn (i : Nat) (heads : Tab Nat) : Nat := ((heads.find? (fun p => decide (i ≤ p.1))).orElse (fun _ => heads.head?)).elim i (·.1)

/-- Deficit round robin: turns pass, each adding its function's quantum, until a function can afford its job. The turn, and the deficits (R137). -/
def drrRun (heads : Tab Nat) (quantum : Nat → Nat) : Nat → Nat → Tab Nat → Nat × Tab Nat
  | 0, i, d => (i, d)
  | n + 1, i, d =>
    let i := nextTurn i heads
    if tgetD heads i 0 ≤ tgetD d i 0 then (i, d)
    else
      let j := nextTurn (i + 1) heads
      drrRun heads quantum n j (tset d j (tgetD d j 0 + quantum j))

/-- A job's function competes for a stand's buffer: whether the turn is its own, and then what its bytes leave of its deficit. Alone it needs no turn (R137). -/
def drrTurn (st i n : Nat) (s : State) : Bool × State :=
  let x := getStand st s
  let heads := tset (waitingHeads st s) i n
  if heads.length ≤ 1 then (true, setStand st { x with drr := [] } s)
  else
    let d := x.drr.filter (fun p => (tget heads p.1).isSome)
    let (j, d) := drrRun heads (fun f => 64 * (clnWeight (weightFn f) s).1) (1025 * heads.length) x.drrAt d
    (j == i, setStand st { x with drrAt := j, drr := if j = i then tset d i (tgetD d i 0 - n) else d } s)

/-- The key a lane job runs under: its first lease. -/
def ctxKey (x : Ctx) : Option (Nat × Nat) := x.leases.head?

/-- Bytes of an IV that IV_MODE RANDOM draws (R132). -/
def ivBytes : Nat := 12

/-- A message starts on its lane; an IV of IV_MODE RANDOM is drawn from private wire 2, or waited for (R132, R214). -/
def startIv (c st : Nat) (x : Ctx) (random : Bool) (s : State) : State :=
  if !random then setCtx c { x with waits := [] } s
  else match takeWire st 2 ivBytes s with
  | (some d, s) => setCtx c { x with iv := some d, waits := [] } s
  | (none, s) => setCtx c { x with iv := none, waits := [.entropy] } s

/-- The key of a lease draws its IVs at random. -/
def slotDrawsIv (slot : Nat) (s : State) : Bool := (tget s.store.c.keys slot).any (fun k => ivMode k.attr == 1)

/-- A re-dispatched job restarts on a lane (R152). -/
def restartLane (c g st slot gen : Nat) (x : Ctx) (s : State) : State :=
  let s := setStand st { getStand st s with redispatch := (getStand st s).redispatch + 1 } s
  startIv c st { x with lane := some g, redispatched := true } (x.invocation.isSome && slotDrawsIv slot s) (bindLane g slot gen x.owner false s)

/-- A running lane job looks for a lane of its stand; an encryption that lost its run takes a new invocation value first (R138, R152). -/
def redispatch (c : Nat) (s : State) : State :=
  match getCtx c s with
  | none => s
  | some x =>
    match x.stand, ctxKey x with
    | some st, some (slot, gen) =>
      if (activeLanes st s).isEmpty then settle c { status := St.laneFault, result := x.invocation.getD 0 } s
      else match laneForKey st slot gen s with
      | none => setCtx c { x with lane := none, waits := [.engine] } s
      | some g =>
        match x.invocation with
        | none => restartLane c g st slot gen x s
        | some old =>
          if (tget s.store.c.keys slot).any keySpent then settle c { status := St.keyExhausted, result := old } s
          else match takeInvocation slot s with
          | (some v, s) => restartLane c g st slot gen { x with invocation := some v } s
          | (none, s) => setCtx c { x with lane := none, waits := [.invocation] } s
    | _, _ => s

/-- A job on a failed lane: up to 64 KiB it is re-dispatched, above that it ends with LANE_FAULT and what had been released (R152, R153). -/
def laneLost (c : Nat) (x : Ctx) (s : State) : State :=
  if elemsLen x.srcElems ≤ 65536 then redispatch c (setCtx c { x with lane := none } (countCut x s))
  else
    let (x, s) := cutShort x s
    let (done, s) := earlyOut x s
    let done := if done = x.outLen then done else done / 16 * 16
    settle c { status := St.laneFault, info := partialInfo x done, done := done, result := x.invocation.getD 0 } (setCtx c { x with released := done } s)

/-- Frames lost on their lane are counted by the blocks they had issued, a free number (R133). -/
def cutFrames (g : Nat) (fs : List Frame) (s : State) : State :=
  fs.foldl (fun s f =>
    let (v, s) := draw s
    let a := blocks16 f.pay + 1
    let h := blocks16 f.aad + blocks16 f.pay + 1
    countPorts g (v % (a + 1)) (v / (a + 1) % (h + 1)) s) s

/-- Inline frames in flight on a lane are dropped and counted (R154, R339). -/
def dropLaneFrames (g : Nat) (s : State) : State :=
  let hit (f : Frame) : Bool := f.lane == some g
  let n := (laneFrames g s).length
  let s := cutFrames g (laneFrames g s) s
  let st := getStand (g / 9) s
  dropFrames hit 2 (setStand (g / 9) { st with inlineDrop := st.inlineDrop + BitVec.ofNat 64 n } s)

/-- A retirement record, carrying INJECTED when its fault was injected (R14, R543). -/
def unitRec (code : Nat) (arg : List (Nat × Nat × Nat)) (inj : Bool) (s : State) : State :=
  let r := mkRec code 1 arg
  logPut { r with flags := r.flags + 4 * b2n inj } s

/-- The LANE_ISOLATED record of a lane. -/
def laneRec (g : Nat) (s : State) : State :=
  unitRec 0x0501 [(0, 2, g), (2, 1, (getLane g s).cause)] (getLane g s).injected s

/-- A failed lane that no spare will replace (R155, R533). -/
def laneGone (g : Nat) (s : State) : State := standOffline (g / 9) (laneRec g s)

/-- The spare of a stand begins to replace a failed lane, or the lane waits for the replacement before it, or is gone (R155, R529). -/
def replaceLane (g : Nat) (s : State) : State :=
  let st := g / 9
  let x := getStand st s
  match checkerOf st s with
  | some c => setStand st { x with filling := some g } (setLane c { getLane c s with state := .filling, ctxs := [] } s)
  | none =>
    if x.filling.isSome || (getLane (9 * st + 8) s).state == .suspect then setStand st { x with waiting := x.waiting ++ [g] } s
    else laneGone g s

/-- Lanes that waited for a replacement to finish are handled in turn (R155). -/
def nextLanes (st : Nat) (s : State) : State :=
  let ws := (getStand st s).waiting
  ws.foldl (fun s g => replaceLane g s) (setStand st { getStand st s with waiting := [] } s)

/-- The spare has failed while it was replacing a lane: both are lost to the stand (step 4 of R155). -/
def spareLost (sp : Nat) (s : State) : State :=
  let st := sp / 9
  let x := getStand st s
  let s := laneRec sp (setStand st { x with filling := none } s)
  let s := match x.filling with | some g => laneGone g s | none => standOffline st s
  nextLanes st s

/-- A lane becomes ISOLATED: it holds and releases nothing more, its jobs and frames are lost or moved (R150, R152-R154). -/
def isolateLane (g cause : Nat) (inj : Bool) (s : State) : State :=
  let ms := laneMsgs g s
  let s := setLane g { getLane g s with state := .isolated, cause := cause, ctxs := [], injected := inj } s
  ms.foldl (fun s p => laneLost p.1 p.2 s) (dropLaneFrames g s)

/-- A lane fails: reported, isolated, then its stand's repair (R150, R155). A report on an isolated or retired unit is only counted (R516). -/
def laneFail (src g cause : Nat) (inj : Bool) (s : State) : State :=
  let l := getLane g s
  if l.state == .isolated || l.state == .retired then countFault 0 s
  else
    let s := isolateLane g cause inj (unitReport src g inj s)
    if l.state == .filling then refreshMode (spareLost g s)
    else if l.state == .checker || (l.state == .suspect && g % 9 == 8) then
      refreshMode (nextLanes (g / 9) (capRewrite (laneRec g (setStand (g / 9) { getStand (g / 9) s with checkerLost := true } s))))
    else refreshMode (replaceLane g s)

/-- LANE_FAILURE (R150, R151, R155): the cause is that of CLN_FAULT. -/
def execLaneFailure (lane cause : Nat) (s : State) : Out := onUnit (lane < 72) (laneFail 0x06 lane cause false s)

/-- A lane in use takes its maintenance slots (R126). -/
def laneEnabled (l : Lane) : Bool := l.state != .isolated && l.state != .retired

/-- LANE_SENTINEL: the sentinel block of a frame, AES-128 and AES-256 in turn; a wrong answer fails the lane (R126, R150). -/
def execLaneSentinel (lane : Nat) (ok : Bool) (s : State) : Out :=
  onUnit (lane < 72) (
    let l := getLane lane s
    if !laneEnabled l then s
    else
      let s := setLane lane { l with frame256 := !l.frame256 } s
      if ok then s else laneFail 0x06 lane 5 false s)

/-- A key that may go to a lane: AES and not of purpose WRAP (R140). -/
def laneKey (k : KeyRec) : Bool := (k.type == 1 || k.type == 2) && k.purpose != 3

/-- LANE_CONTEXT_PREPARE: a key that a lease has brought to the Sapwood is prepared in a context of the lane (R126-R128). -/
def execLaneContextPrepare (lane slot : Nat) (s : State) : Out :=
  onUnit (lane < 72 && slot < 33554432) (
    match tget s.store.c.keys slot with
    | none => s
    | some k =>
      if (getLane lane s).state == .active && laneKey k && leased slot s && inSapwood slot k s && laneTakes lane slot k.gen s then
        bindLane lane slot k.gen k.owner (s.eth.sas.any (fun p => p.2.slot == slot && p.2.gen == k.gen)) s
      else s)

/-- Add n to CLN_FAULT.CORRECTED. -/
def laneCorrected (g : Nat) (s : State) : State :=
  let l := getLane g s
  setLane g { l with corrected := satInc 255 l.corrected } s

/-- One inline frame of a lane is lost, as if its lane had failed (R148, R154). -/
def loseFrame (g i : Nat) (s : State) : State :=
  match (laneFrames g s)[i]? with
  | none => s
  | some f =>
    let st := getStand (g / 9) s
    let s := setStand (g / 9) { st with inlineDrop := st.inlineDrop + 1 } (cutFrames g [f] s)
    portDrop (framePort f) 2 { s with eth.flight := s.eth.flight.erase f }

/-- CHECKER_MISMATCH: lane and checker become SUSPECT; the message or frame of the mismatched item is treated as if its lane had failed (R148, log entry 49). -/
def checkerMismatch (stand lane : Nat) (s : State) : State :=
  match checkerOf stand s with
  | none => s
  | some c =>
    if lane / 9 = stand && (getLane lane s).state == .active then
      let ms := laneMsgs lane s
      let s := setLane lane { getLane lane s with state := .suspect } (setLane c { getLane c s with state := .suspect } s)
      let s := setStand stand { getStand stand s with mismatches := satInc 255 (getStand stand s).mismatches } s
      let (v, s) := draw s
      let i := v % max 1 (ms.length + (laneFrames lane s).length)
      match ms[i]? with
      | none => loseFrame lane (i - ms.length) s
      | some p => laneLost p.1 p.2 s
    else s

/-- CHECKER_MISMATCH (R146-R148); a stand whose spare does not check has none. -/
def execCheckerMismatch (stand lane : Nat) (s : State) : Out :=
  onUnit (stand < 8 && lane < 72) (if checks stand s then checkerMismatch stand lane s else s)

/-- A SUSPECT lane's known-answer test ends (R148). -/
def katLane (g : Nat) (ok : Bool) (s : State) : State :=
  if ok then setLane g { getLane g s with state := .active } s else laneFail 0x05 g 6 false s

/-- A SUSPECT checker's known-answer test ends: back to CHECKER, or lost to its stand; where its lane has failed too there is one report, the lane's (R148). -/
def katChecker (c : Nat) (ok laneFailed : Bool) (s : State) : State :=
  let st := c / 9
  if ok then setLane c { getLane c s with state := .checker } s
  else if !laneFailed then laneFail 0x05 c 6 false s
  else refreshMode (nextLanes st (capRewrite (laneRec c (setStand st { getStand st s with checkerLost := true } (isolateLane c 6 false s)))))

/-- CHECKER_KAT_DONE: the outcome table of R148, and for a unit whose partner has failed otherwise meanwhile, its own result. -/
def checkerKat (stand : Nat) (laneOk checkerOk : Bool) (s : State) : State :=
  let c := 9 * stand + 8
  let g := (standUnits stand).find? (fun g => (getLane g s).state == .suspect && g != c)
  match g, (getLane c s).state == .suspect with
  | none, false => s
  | none, true => nextLanes stand (katChecker c checkerOk false s)
  | some g, false => nextLanes stand (katLane g laneOk s)
  | some g, true =>
    let s := if checkerOk then setLane c { getLane c s with state := .checker } s else s
    let s := katLane g laneOk s
    let s := if checkerOk then s else katChecker c false (!laneOk) s
    let s := if laneOk && checkerOk then laneCorrected g (correctedReport 0x05 g false s) else s
    nextLanes stand s

/-- CHECKER_KAT_DONE (R148, R149). -/
def execCheckerKatDone (stand : Nat) (laneOk checkerOk : Bool) (s : State) : Out :=
  onUnit (stand < 8) (checkerKat stand laneOk checkerOk s)

/-- CHECKER_RESEED: 64 bits of private wire 1 seed the selection sequence afresh; without them it goes on, or stays unseeded (R214, R217, R219). -/
def execCheckerReseed (stand : Nat) (s : State) : Out :=
  onUnit (stand < 8) (
    if (checkerOf stand s).isNone then s
    else match takeWire stand 1 8 s with
    | (some d, s) => setStand stand { getStand stand s with checkSeed := some (leNat d), checkPos := 0 } s
    | (none, s) => s)

/-- SPARE_LANE_KAT_DONE: the spare takes the failed lane's place, or is isolated too (steps 4 to 6 of R155). -/
def execSpareLaneKatDone (lane : Nat) (ok : Bool) (s : State) : Out :=
  onUnit (lane < 72) (
    let st := lane / 9
    match (getLane lane s).state, (getStand st s).filling with
    | .filling, some g =>
      if ok then
        let s := setLane lane { getLane lane s with state := .active, ctxs := [] } (setStand st { getStand st s with filling := none } s)
        let s := unitRec 0x0502 [(0, 2, g), (2, 2, lane)] (getLane g s).injected (laneRec g s)
        refreshMode (nextLanes st (capRewrite s))
      else laneFail 0x06 lane 6 false s
    | _, _ => s)

/-- The key slot a HUC's request works under. -/
def hucSlot (r : HucReq) (s : State) : Option Nat :=
  match r.src with
  | .ctx c => (getCtx c s).bind (fun x => x.leases.head?.map (·.1))
  | .mb m => (getMb (mbOfKey m) s).job.map (·.slot)

/-- What a HUC holds of a block slot: the key's shares, and from the slot's 512 bits the mask, the dummy rounds with their places, and the byte order of every round (R143; how the bits are dealt out is the model's choice, log entry 164). -/
def hucRegsOf (slot : Option Nat) (d : Bytes) (s : State) : HucRegs :=
  let n := leNat d
  let key := slot.bind (fun k => tget s.store.c.keys k)
  let (a, b) := match slot, key with
    | some k, some r => keyShares k r s
    | _, _ => ([], [])
  let tdea := key.any (fun k => k.type == 4 || k.type == 5)
  let rounds := if tdea then 48 else if key.any (fun k => k.length == 128) then 10 else 14
  let w := if tdea then 3 else 4
  let dummies := bits n 128 4
  let order (i : Nat) : Nat × Nat := (bits n (132 + (2 * w - 1) * i) w, 2 * bits n (132 + (2 * w - 1) * i + w) (w - 1) + 1)
  { keyA := a, keyB := b, mask := d.take 16, dummies := dummies
    places := (List.range dummies).map (fun i => n / 2 ^ 448 / (rounds + 1) ^ i % (rounds + 1))
    order := (List.range (rounds + dummies)).map order }

/-- HUC_BLOCK_DONE: a block slot, whose 512 bits were drawn before it began, ends, and the next request is served round robin; with no bits the HUC stalls between blocks, for a number of cycles that is a free value (R142-R145, log entry 143). -/
def execHucBlockDone (stand : Nat) (s : State) : Out :=
  onUnit (stand < 8) (
    let x := getStand stand s
    match x.hucQueue[x.hucNext % max 1 x.hucQueue.length]? with
    | none => s
    | some r =>
      match takeWire stand 3 hucBits s with
      | (none, s) =>
        let (n, s) := draw s
        setStand stand { getStand stand s with hucStall := true, hucStalls := x.hucStalls + BitVec.ofNat 64 n } s
      | (some d, s) =>
        let y := hucTurn { getStand stand s with hucStall := false, hucBlocks := x.hucBlocks + 1, hucRegs := hucRegsOf (hucSlot r s) d s }
        let s := setStand stand y s
        if y.hucQueue.isEmpty then s else askWire stand 3 hucBits s)

/-- A request that no HUC can serve ends its context, or its command, with ENGINE_FAULT (R536). -/
def hucEnd (r : HucReq) (s : State) : State :=
  match r.src with
  | .ctx c => abort c St.engineFault s
  | .mb m => finishMb (mbOfKey m) { status := St.engineFault } s

/-- Every request a HUC can no longer serve ends (R536). -/
def hucEnds (rs : List HucReq) (s : State) : State := rs.foldl (fun s r => hucEnd r s) s

/-- A HUC fails: isolated, its running request ends, the others move to another HUC, within its room (R145, R536). -/
def hucFail (h : Nat) (inj : Bool) (s : State) : State :=
  let x := getStand h s
  if x.hucIsolated then countFault 0 s
  else
    let i := x.hucNext % max 1 x.hucQueue.length
    let run := (x.hucQueue[i]?).toList
    let rest := x.hucQueue.eraseIdx i ++ x.hucHeld
    let s := unitReport 0x0B h inj s
    let s := setStand h { x with hucIsolated := true, hucQueue := [], hucHeld := [], hucNext := 0, hucRegs := {}, hucStall := false } s
    let s := hucEnds run s
    let s := match hucFor h s with
      | some k => hucTake k rest s
      | none => serviceReport 0x1C 0xFFF inj (hucEnds rest s)
    refreshMode (capRewrite (unitRec 0x0507 [(0, 1, 4), (1, 1, h)] inj s))

/-- HUC_FAILURE (R536). -/
def execHucFailure (stand : Nat) (s : State) : Out := onUnit (stand < 8) (hucFail stand false s)

end Sys2Proof.Machine
end

