-- ==== Sys2Proof/Machine/World.lean ====
section
/-! DEFINITION. The world map, interrupt lines, fabric tags, access-control units and HBM errors (chapters 15 and 19). -/

namespace Sys2Proof.Machine

/-- KIND values of a LINE entry that a line may have (R421). -/
def lineKinds (n : Nat) : List Nat :=
  if n < 0x18 then [3, 2, 0] else if n < 0x20 then [3] else if n < 0xD6 then [1] else if n < 0xE0 then [0]
  else if n < 0xE8 then [1] else if n = 0xE8 then [1, 2] else [0]

/-- The default LINE entry of a line: its KIND alone (R421). -/
def lineDefault (n : Nat) : Nat :=
  if n < 0x20 then 3 else if n < 0xD6 then 1 else if n < 0xE0 then 0 else if n ≤ 0xE8 then 1 else 0

/-- The LINE entry of a map. -/
def lineOf (m : WorldMap) (n : Nat) : Nat := tgetD m.line n (lineDefault n)

/-- A line's source is of world U in a map: a digest engine or a Seedbank port that the map puts there (R421). -/
def lineU (m : WorldMap) (n : Nat) : Bool := if n < 0x10 then bitOf m.dge n else if n < 0x18 then bitOf m.port (n - 0x10) else false

/-- The stand of a line's source (R421). -/
def lineStand (n : Nat) : Nat := if n < 0x10 then n / 2 else if n < 0x18 then n - 0x10 else 8

/-- A LINE entry obeys R422. -/
def lineOk (m : WorldMap) (n : Nat) : Bool :=
  let e := lineOf m n
  let k := bits e 2 0
  let st := bits e 10 8
  let ps := (List.range 8).filter (fun b => bitOf e (12 + b))
  (lineKinds n).contains k && bits e 7 3 == 0 && !bitOf e 11 && bits e 31 20 == 0 &&
  (k != 2 || (!ps.isEmpty && ps.all (fun b => bitOf m.core (8 * st + b) == lineU m n) && (!lineU m n || st == lineStand n)))

/-- World-T positions of a stand in a map. -/
def tPositions (m : WorldMap) (st : Nat) : Nat := ((List.range 8).filter (fun b => !bitOf m.core (8 * st + b))).length

/-- Checks 3 to 5 of R416 on a map's values. -/
def mapFault (m : WorldMap) : Option Nat :=
  let t := tPositions m
  if (stands.map t).foldl (· + ·) 0 < 8 || stands.any (fun st => t st + t (partnerOf st) == 0) then some 3
  else if stands.any (fun st => t st != 0 && bitOf m.port st) then some 4
  else if !(List.range 512).all (lineOk m) then some 5
  else none

/-- Bytes 0x000-0x83F of a map (R415). -/
def mapBytes (m : WorldMap) (ref : Nat) : Bytes :=
  layout 0x40 [(0, 8, 0x3150414D_57394C4F), (8, 2, 1), (0x0C, 4, m.gen), (0x10, 8, ref), (0x20, 8, m.core), (0x28, 2, m.wma), (0x2A, 2, m.dge), (0x2C, 1, m.port)] ++
    ((List.range 512).map (fun n => leBytes 4 (lineOf m n))).flatten

/-- The values a map's bytes give, with a generation. -/
def mapOf (b : Bytes) (gen : Nat) : WorldMap :=
  { gen := gen, core := fld b 0x20 8, wma := fld b 0x28 2, dge := fld b 0x2A 2, port := fld b 0x2C 1
    line := (List.range 512).filterMap (fun n => let e := fld b (0x40 + 4 * n) 4; if e = lineDefault n then none else some (n, e)) }

/-- The checks of R416 on a map to be written: the number of the first that fails; MAP_GEN and DEVICE_REF are the Heartwood's own (R420). -/
def writeFault (b : Bytes) : Option Nat :=
  if fld b 0 8 ≠ 0x3150414D_57394C4F || fld b 8 2 ≠ 1 || fld b 0x0A 2 ≠ 0 || fld b 0x18 8 ≠ 0 || fld b 0x2D 19 ≠ 0 then some 1
  else mapFault (mapOf b 0)

/-- The valid copies of the WORLDMAP partition (R416, R417). -/
def goodMap : MapCopy → Option WorldMap
  | .valid m => if (mapFault m).isNone then some m else none
  | _ => none

/-- The map a cold start takes: the valid copy with the higher MAP_GEN, else the default (R417, R418). -/
def chooseMap (w : Worlds) : WorldMap × MapSource × Bool :=
  match goodMap w.copyA, goodMap w.copyB with
  | some a, some b => if b.gen ≤ a.gen then (a, .flash, true) else (b, .flash, false)
  | some a, none => (a, .flash, true)
  | none, some b => (b, .flash, false)
  | none, none => ({}, if w.copyA = .erased ∧ w.copyB = .erased then .default else .fallback, false)

/-- The map that awaits the next cold start (GBL_WORLD.PENDING). -/
def pendingMap (s : State) : Option WorldMap :=
  ((if s.world.inA then goodMap s.world.copyB else goodMap s.world.copyA).filter (fun m => decide (s.world.map.gen < m.gen))).filter
    (fun _ => s.world.source == .flash) |>.orElse (fun _ =>
      if s.world.source == .flash then none else ((goodMap s.world.copyA).orElse (fun _ => goodMap s.world.copyB)))

/-- The checks of WORLDMAP_WRITE: none before the quorum but the mode and the form (R420). -/
def worldmapWriteCheck (_ : Mb) (_ : Req) (_ : State) : Option Nat := none

/-- The effect of WORLDMAP_WRITE: the copy not in force takes the map with the next MAP_GEN; a bad map answers its FAULT (R416, R417, R420). -/
def worldmapWriteRun (_ : Mb) (q : Req) (s : State) : Ans × State :=
  let b := padTo 0x840 q.body
  match writeFault b with
  | some f => (.reply { status := St.fieldInvalid, body := leBytes 1 f }, s)
  | none =>
    let m := mapOf b (s.world.map.gen + 1)
    let s := if s.world.source == .flash && s.world.inA then { s with world.copyB := .valid m } else { s with world.copyA := .valid m }
    (.reply { body := layout 8 [(0, 4, m.gen)] ++ sha384 (mapBytes m s.ident.deviceRef) }, s)

/-- WORLDMAP_WRITE: designated under the estate policy (R420); a map that fails R416 is refused before the quorum. -/
def worldmapForm (mb : Mb) (q : Req) (s : State) : Ans × State :=
  if (writeFault (padTo 0x840 q.body)).isSome then worldmapWriteRun mb q s
  else guarded worldmapWriteCheck estateDesig worldmapWriteRun mb q s

/-- WORLDMAP_WRITE (R420). -/
def execWorldmapWrite (mb : Mb) (s : State) : Out := runCmd mb 0x0A30 worldmapForm s

/-- The map with its signature; the default map carries none (R415). -/
def signedMap (m : WorldMap) (sig : Bool) (s : State) : Bytes :=
  let b := mapBytes m s.ident.deviceRef
  b ++ (if sig then attSign b s else List.replicate 96 0)

/-- WORLDMAP_READ (R420). -/
def worldmapReadRun (_ : Mb) (q : Req) (s : State) : Ans × State :=
  let w := fld q.body 0 1
  if 1 < w then (cmdFail St.fieldInvalid, s)
  else if w = 0 then (.reply { body := signedMap s.world.map (s.world.source == .flash) s }, s)
  else match pendingMap s with
    | none => (cmdFail St.stateConflict, s)
    | some m => (.reply { body := signedMap m true s }, s)

/-- WORLDMAP_READ (R420). -/
def execWorldmapRead (mb : Mb) (s : State) : Out := runCmd mb 0x0A31 worldmapReadRun s

/-- The master that a HOLDER line concerns: the DGE claim's or a Seedbank request's (R422). -/
def lineHolder (n : Nat) (s : State) : Option Nat :=
  if n < 0x10 then (getDge n s).claim
  else if n < 0x18 then ((getBank (n - 0x10) s).port.find? (fun p => p.2.state == 3)).map (·.1)
  else none

/-- A line is delivered to a core (R422, R423). -/
def lineToCore (core n : Nat) (s : State) : Bool :=
  let e := lineOf s.world.map n
  match bits e 2 0, corePos core s with
  | 2, some p => bits e 10 8 == core / 9 && bitOf e (12 + p)
  | 3, some _ => lineHolder n s == some core
  | _, _ => false

/-- mip.MEI of a core (R423). -/
def coreMei (core : Nat) (s : State) : Bool := s.world.lines.any (fun n => lineToCore core n s)

/-- IRQ_NEXT of a core: the lowest line high and routed to it (R423). -/
def irqNext (core : Nat) (s : State) : Nat :=
  match (s.world.lines.filter (fun n => lineToCore core n s)).min? with
  | some n => n
  | none => 2 ^ 31

/-- The 64 bits of a tag without its parity (chapter 01, Tags). -/
def tagWord (t : FabricTag) : Nat :=
  t.master % 2 ^ 10 + 2 ^ 10 * b2n t.worldU + 2 ^ 11 * b2n t.priv + 2 ^ 12 * (t.owner % 2 ^ 20) + 2 ^ 32 * (t.ctx % 2 ^ 13) +
    2 ^ 45 * (t.opclass % 64) + 2 ^ 51 * (t.seq % 8192)

/-- The master IDs of R24. -/
def masterUsed (m : Nat) : Bool :=
  m < 0xB8 + 8 || (0xC0 ≤ m && m ≤ 0xC3) || (0xC8 ≤ m && m ≤ 0xCB) || (0x100 ≤ m && m ≤ 0x17F) || (0x180 ≤ m && m ≤ 0x187) || m = 0x3FF

/-- The world of a master is U (R411, R412, R424). -/
def masterU (m : Nat) (s : State) : Bool :=
  if m < 0x48 then coreU m s
  else if 0x90 ≤ m ∧ m < 0xA0 then bitOf s.world.map.wma (m - 0x90)
  else if 0xA0 ≤ m ∧ m < 0xB0 then bitOf s.world.map.dge (m - 0xA0)
  else if 0xB8 ≤ m ∧ m < 0xC0 then bitOf s.world.map.port (m - 0xB8)
  else decide (0x100 ≤ m ∧ m < 0x180 ∧ m ≠ 0x13F ∧ m ≠ 0x17F)

/-- A transaction is context-bound by its OPCLASS (R23). -/
def ctxBound (op : Nat) : Bool := (1 ≤ op && op ≤ 0x1F) || op == 0x28

/-- The classes of R21 that a target may accept. -/
def opclassOk (op : Nat) : Bool := op ≤ 0x21 || [0x28, 0x29, 0x2A, 0x30, 0x31, 0x32].contains op

/-- The stream of a transaction at a target: master, target and context, 8,192 standing for none (R22). -/
def streamOf (t : FabricTag) : Nat := if ctxBound t.opclass then t.ctx else 8192

/-- The SEQ rule of R22: 0, or one more than the last accepted of the stream. -/
def seqOk (t : FabricTag) (target : Nat) (a : Acu) : Bool :=
  t.seq == 0 || a.seqs.any (fun e => e.1 == t.master && e.2.1 == target && e.2.2.1 == streamOf t && e.2.2.2 + 1 == t.seq)

/-- The stream a master counts a transaction in: that of its context, or of its traffic to the target (R22). -/
def issueStream (t : FabricTag) (target : Nat) : Nat × Nat := if ctxBound t.opclass then (16, t.ctx) else (target, 8192)

/-- A transaction's entry among the masters' SEQ counts. -/
def inStream (t : FabricTag) (target : Nat) (e : Nat × Nat × Nat × Nat) : Bool :=
  e.1 == t.master && (e.2.1, e.2.2.1) == issueStream t target

/-- The SEQ that a master's interface gives its next transaction of a stream: 0 at first (R22). -/
def nextIssue (t : FabricTag) (target : Nat) (s : State) : Nat := ((s.world.issued.find? (inStream t target)).map (·.2.2.2)).getD 0

/-- A master's interface issues a transaction: its stream's SEQ, modulo 8,192 (R22). -/
def issue (t : FabricTag) (target : Nat) (s : State) : FabricTag × State :=
  let n := nextIssue t target s
  let k := issueStream t target
  ({ t with seq := n }, { s with world.issued := (t.master, k.1, k.2, (n + 1) % 8192) :: s.world.issued.filter (fun e => !inStream t target e) })

/-- An ACU's state. -/
def getAcu (a : Nat) (s : State) : Acu := tgetD s.world.acus a {}

/-- Replace an ACU's state. -/
def setAcu (a : Nat) (x : Acu) (s : State) : State := { s with world.acus := tset s.world.acus a x }

/-- A transaction passes the integrity checks of R426. -/
def integrityOk (t : FabricTag) (target : Nat) (s : State) : Bool :=
  t.parityOk && masterUsed t.master && (t.worldU || !masterU t.master s) && seqOk t target (getAcu target s)

/-- The stream's SEQ is accepted. -/
def acceptSeq (t : FabricTag) (target : Nat) (s : State) : State :=
  let a := getAcu target s
  let keep := a.seqs.filter (fun e => !(e.1 == t.master && e.2.1 == target && e.2.2.1 == streamOf t))
  setAcu target { a with seqs := (t.master, target, streamOf t, t.seq) :: keep } s

/-- What an address decodes to behind an ACU (R428, R429). -/
inductive Row where
  | bank (b : Nat)
  | dgeReg (g : Nat)
  | wmaReg (g : Nat)
  | sbkReg
  | gatePort
  | privOnly
  | serviceFw
  | monitor (core : Nat)
  | granule (i : Nat)
  | buffers
  | hostBuf
  | none
  deriving DecidableEq, Repr

/-- An address lies in [a, a + n). -/
def inRange (x a n : Nat) : Bool := a ≤ x && x < a + n

/-- The row of R429 that an address has behind an ACU. -/
def rowOf (target x : Nat) : Row :=
  if target < 8 then
    if inRange x 0x0C000000 0x800000 then .bank ((x - 0x0C000000) / 0x100000)
    else if inRange x (0x0D000000 + 0x10000 * target) 0x10000 then .privOnly
    else if inRange x (0x0D200000 + 0x1000 * target) 0x1000 then .privOnly
    else if inRange x (0x0D300000 + 0x2000 * target) 0x2000 then .dgeReg ((x - 0x0D300000) / 0x1000)
    else if inRange x (0x0D400000 + 0x2000 * target) 0x2000 then .wmaReg ((x - 0x0D400000) / 0x1000)
    else if inRange x (0x0D500000 + 0x1000 * target) 0x1000 then .sbkReg
    else if inRange x (0x0D600000 + 0x100 * 9 * target) 0x900 then .privOnly
    else if inRange x (0x0D700000 + 0x1000 * target) 0x1000 then .gatePort
    else .none
  else if target = 8 then
    if inRange x 0x100000000 0x40000000 then .serviceFw
    else if inRange x 0x140000000 0x10000000 then .monitor ((x - 0x140000000) / 0x100000)
    else if inRange x 0x150000000 0xD0000000 then .granule ((x - 0x150000000) / 0x10000)
    else if inRange x 0x220000000 0x1E0000000 then .buffers
    else .none
  else if target = 9 then
    if inRange x 0x0C800000 0x1000 || inRange x 0x0D100000 0x10000 || inRange x 0x0D800000 0x4000 || inRange x 0x0D900000 0x10000 ||
      inRange x 0x0DA00000 0x34000 then .privOnly else .none
  else if target = 10 || target = 11 then .hostBuf
  else if target = 13 then (if inRange x 0x0E000000 0x10000 then .privOnly else .none)
  else .none

/-- The Warden or the Heartwood bridge with PRIV 1 (R429). -/
def privMaster (t : FabricTag) : Bool := ((0xC0 ≤ t.master && t.master ≤ 0xC3) || t.master == 0xCB) && t.priv

/-- A byte of a core's own bank lies in its user window (R434). -/
def inWindow (core x : Nat) (s : State) : Bool :=
  match tget s.world.uwin core with
  | none => false
  | some (a, b) => a / 4 * 4 ≤ x && x ≤ b / 4 * 4 + 3

/-- A stand has a service core in service (R372, R535). -/
def hasServiceCore (st : Nat) (s : State) : Bool := (activeCores st s).any (fun c => !coreU c s)

/-- What the default map permits at one byte (R429, R432). -/
def defaultPermits (t : FabricTag) (target x : Nat) (w e : Bool) (s : State) : Bool :=
  let core := decide (t.master < 72)
  match rowOf target x with
  | .none => false
  | .privOnly => privMaster t
  | .bank b => privMaster t || (core && t.master / 9 == target && corePos t.master s == some b && (t.priv || inWindow t.master x s))
  | .dgeReg g => t.worldU == bitOf s.world.map.dge g && (privMaster t || (core && t.master / 9 == target))
  | .wmaReg g => privMaster t || (!w && !e && t.worldU == bitOf s.world.map.wma g && core && t.master / 9 == target)
  | .sbkReg => (t.worldU == bitOf s.world.map.port target && masterU t.master s == bitOf s.world.map.port target)
  | .gatePort => privMaster t || (core && !coreU t.master s && !t.worldU && (t.master / 9 == target || (t.master / 9 == partnerOf target && !hasServiceCore target s)))
  | .serviceFw => privMaster t || !t.worldU
  | .monitor c => privMaster t || (t.master == c && t.priv)
  | .granule i =>
    let g := tgetD s.world.granules i 0
    privMaster t || (bitOf g 20 && t.worldU && t.opclass != 0 && t.owner == g % 2 ^ 20 && (if bitOf g 21 then !w else !e))
  | .buffers => privMaster t || (0x180 ≤ t.master && t.master ≤ 0x187) || ((t.master == 0x13F || t.master == 0x17F) && t.priv)
  | .hostBuf => privMaster t || (t.master == (if target = 10 then 0x13F else 0x17F))

/-- A programmed region is in force and covers a byte (R431). -/
def regionCovers (r : AcuRegion) (x : Nat) : Bool := bitOf r.attr 0 && bits r.attr 8 7 != 3 && r.start / 4 * 4 ≤ x && x ≤ r.stop / 4 * 4 + 3

/-- A programmed region applies to a tag at a byte (R430, R431). -/
def regionApplies (r : AcuRegion) (t : FabricTag) (x : Nat) : Bool :=
  let om := bits r.attr 8 7
  regionCovers r x && (if t.worldU then bitOf r.attr 5 else bitOf r.attr 4) && (t.priv || !bitOf r.attr 6) &&
  (!bitOf r.owner 30 || bits r.owner 29 20 == t.master) &&
  (om != 1 || (t.opclass != 0 && r.owner % 2 ^ 20 == t.owner)) && (om != 2 || t.opclass == 0)

/-- The first region that applies grants the access (R431); none opens a byte that no row decodes to anyone. -/
def regionPermits (t : FabricTag) (target x : Nat) (w e : Bool) (s : State) : Bool :=
  match ((getAcu target s).regions.filter (fun r => regionApplies r.2 t x)).head? with
  | none => false
  | some r => rowOf target x != .none && (if w then bitOf r.2.attr 2 else if e then bitOf r.2.attr 3 else bitOf r.2.attr 1)

/-- The class a master's interface issues: a world-U master's SYSTEM becomes INVALID (R20). -/
def issuedClass (t : FabricTag) (s : State) : Nat := if t.opclass = 0 && masterU t.master s then 0x3F else t.opclass

/-- One byte's judgement. -/
def permits (t : FabricTag) (target x : Nat) (w e : Bool) (s : State) : Bool :=
  opclassOk (issuedClass t s) && (defaultPermits t target x w e s || regionPermits t target x w e s)

/-- The start of each part of an access: every boundary of a row, region, granule, bank or user window inside it (R435). -/
def partStarts (target x len : Nat) (s : State) : List Nat :=
  let cuts := ((getAcu target s).regions.filter (fun r => bitOf r.2.attr 0)).flatMap (fun r => [r.2.start / 4 * 4, r.2.stop / 4 * 4 + 4]) ++
    s.world.uwin.flatMap (fun p => if p.1 / 9 = target then [p.2.1 / 4 * 4, p.2.2 / 4 * 4 + 4] else []) ++
    (if target = 8 then [x / 0x10000 * 0x10000 + 0x10000, 0x140000000, 0x150000000, 0x220000000, 0x400000000]
     else [x / 0x1000 * 0x1000 + 0x1000])
  let real (c : Nat) : Bool := x < c && c < x + len && (rowOf target (c - 1) != rowOf target c ||
    (((getAcu target s).regions.any (fun r => bitOf r.2.attr 0 && (r.2.start / 4 * 4 == c || r.2.stop / 4 * 4 + 4 == c)))) ||
    s.world.uwin.any (fun p => p.1 / 9 == target && (p.2.1 / 4 * 4 == c || p.2.2 / 4 * 4 + 4 == c)))
  x :: ((cuts.eraseDups.filter real).foldr insertUp [])

/-- How an ACU judges an access (R435). -/
inductive Judge where
  | ok
  | refused (part parts addr : Nat)
  deriving DecidableEq, Repr

/-- An access of len bytes is judged part by part (R435). -/
def judge (t : FabricTag) (target x len : Nat) (w e : Bool) (s : State) : Judge :=
  let ps := partStarts target x (max 1 len) s
  if 16 < ps.length then .refused 0 17 x
  else match (List.range ps.length).find? (fun i => !permits t target (ps.getD i x) w e s) with
    | none => .ok
    | some i => .refused i ps.length (ps.getD i x)

/-- A refusal is counted; an unprobed one is captured, its line raised, and reported by its class (R435, R436, R438). -/
def acuRefuse (target : Nat) (t : FabricTag) (w e : Bool) (part parts addr : Nat) (s : State) : State :=
  let a := getAcu target s
  let user := t.worldU || !t.priv
  let a := { a with count := a.count + 1 }
  let a := if a.valid then a else
    { a with valid := true, write := w, exec := e, user := user, part := part, parts := parts, addr := addr, tag := tagWord t }
  let s := raiseLine (0x30 + target) (setAcu target a s)
  let arg := [(0, 1, target), (4, 8, addr)]
  if user then logCode 0x0605 2 arg (correctedReport 0x11 target false s)
  else logCode 0x0606 2 arg (serviceReport 0x18 target false s)

/-- A refused probe is only counted (R435). -/
def acuProbe (target : Nat) (s : State) : State := setAcu target { getAcu target s with count := (getAcu target s).count + 1 } s

/-- An integrity fault: captured, recorded, and FATAL (R426, R436, R438). -/
def acuIntegrity (target : Nat) (t : FabricTag) (addr : Nat) (s : State) : State :=
  let a := getAcu target s
  let a := { a with integrity := true, count := a.count + 1, addr := if a.valid then a.addr else addr, tag := if a.valid then a.tag else tagWord t }
  let s := raiseLine (0x30 + target) (setAcu target a s)
  fatalReport 0x21 target false (logCode 0x0607 2 [(0, 1, target), (4, 8, addr)] s)

/-- The tag a core's own accesses carry (R19, R424). -/
def coreTag (core : Nat) (s : State) : FabricTag :=
  let c := getCore core s
  { master := core, worldU := coreU core s, priv := !c.user, owner := if coreU core s then c.owner.getD 0 else 0, ctx := 0, opclass := if coreU core s then 0x2A else 0
    seq := 0, parityOk := true }

/-- The PRIV that R424 gives a master: none where it is the core's mode, or that of a captured tag. -/
def fixedPriv (m : Nat) : Option Bool :=
  if (0xC0 ≤ m ∧ m ≤ 0xCB) ∨ m = 0x13F ∨ m = 0x17F ∨ m = 0x3FF then some true
  else if m < 0x48 ∨ (0x90 ≤ m ∧ m < 0xB0) ∨ (0xB8 ≤ m ∧ m < 0xC0) then none
  else some false

/-- A master that is in world T whatever the map, and acts for no core (R411, R424). -/
def fixedT (m : Nat) : Bool :=
  (0x48 ≤ m && m < 0x90) || (0xB0 ≤ m && m < 0xB8) || (0xC0 ≤ m && m ≤ 0xCB) || m == 0x13F || m == 0x17F || (0x180 ≤ m && m ≤ 0x187)

/-- A tag with the world and privilege that its master always issues (R424). -/
def ownRights (t : FabricTag) : FabricTag :=
  { t with priv := (fixedPriv t.master).getD t.priv, worldU := t.worldU && !fixedT t.master }

/-- A tag as its master's fabric interface builds it: the rights of its master; PRIV and OWNER of a core from its mode and its owner register, or the call it serves; OWNER of a context's traffic from the context; CTX only with a context-bound class, or the port position of inline traffic; SYSTEM for no owner, and never from world U (R19, R20, R23, R425). -/
def builtTag (t : FabricTag) (s : State) : FabricTag :=
  let t := ownRights t
  let t := { t with opclass := issuedClass t s, ctx := if ctxBound t.opclass then t.ctx else if t.opclass = 0x20 ∨ t.opclass = 0x21 then t.master - 0x180 else 0 }
  if t.master < 72 then
    let c := getCore t.master s
    let t := { t with priv := !c.user }
    if coreU t.master s then { t with owner := c.owner.getD 0 }
    else if t.worldU then
      { t with opclass := 0x29, ctx := 0, owner := ((s.cores.taken.find? (fun g => g.server == some t.master)).map (·.owner)).getD 0 }
    else if t.opclass = 0 then { t with owner := 0 } else t
  else if ctxBound t.opclass ∧ 0x100 ≤ t.master ∧ t.master < 0x180 then { t with owner := ((getCtx t.ctx s).map (·.owner)).getD 0 }
  else if t.opclass = 0 ∧ t.worldU = false then { t with owner := 0 }
  else t

/-- The tag of a master that has no owner of its own. -/
def masterTag (m : Nat) (s : State) : FabricTag :=
  if m < 72 then coreTag m s
  else { master := m, worldU := masterU m s, priv := (fixedPriv m).getD false, owner := 0, ctx := 0, opclass := if masterU m s then 0x3F else 0
         seq := 0, parityOk := true }

/-- The ACU that guards an address for a master of a stand, and the address in the model's fabric memory (R427, R428). -/
def targetOf (stand x : Nat) : Nat := if 0x100000000 ≤ x then 8 else stand

/-- Where the byte of an address behind an ACU stands in the fabric memory. -/
def fabAddr (target x : Nat) : Nat := if target < 8 then standAddr target x else x

/-- Two ranges share a byte. -/
def overlaps (x n y m : Nat) : Bool := x < y + m && y < x + n

/-- Operand addresses and byte lengths of a block: A, B, ACC (R181). -/
def wmaOps (b : Bytes) : (Nat × Nat) × (Nat × Nat) × (Nat × Nat) :=
  ((fld b 0 8, 8 * fld b 0x18 2), (fld b 8 8, 8 * fld b 0x1A 2), (fld b 0x10 8, 8 * fld b 0x1C 2))

/-- A write of n bytes falls on a word of a command's A, B or ACC (R183). -/
def wmaMeets (a n : Nat) (c : WmaCmd) : Bool :=
  let o := wmaOps c.block
  [o.1, o.2.1, o.2.2].any (fun r => overlaps (fabAddr (c.core / 9) r.1) r.2 a n)

/-- Bytes behind the fabric are stored. -/
def fabStore (a : Nat) (d : Bytes) (s : State) : State := { s with units.fab := memWriteN s.units.fab a d }

/-- A command's ACC becomes undefined, all its words (R183). -/
def wmaUndefined (c : WmaCmd) (s : State) : State :=
  let r := (wmaOps c.block).2.2
  let (v, s) := drawBytes r.2 s
  fabStore (fabAddr (c.core / 9) r.1) v s

/-- Software's write behind the fabric: a command between its WMA.GO and its WMA.WAIT whose words it changes has an undefined ACC (R183). -/
def fabWrite (a : Nat) (d : Bytes) (s : State) : State :=
  let mark (c : WmaCmd) : WmaCmd := { c with touched := c.touched || wmaMeets a d.length c }
  let s := fabStore a d { s with units.wmas := tmap s.units.wmas (fun _ w => { w with cmds := w.cmds.map mark }) }
  (s.units.wmaOpen.filter (fun p => wmaMeets a d.length p.2)).foldl (fun s p => wmaUndefined p.2 s) s

/-- A probe of a whole operand region, piece by 4 KiB piece (R184, R435). -/
def probeOk (t : FabricTag) (target x len : Nat) (w : Bool) (s : State) : Bool :=
  (List.range ((x + len + 4095) / 4096 - x / 4096)).all (fun i =>
    let a := max x ((x / 4096 + i) * 4096)
    let b := min (x + len) ((x / 4096 + i + 1) * 4096)
    match judge t target a (b - a) w false s with | .ok => true | .refused _ _ _ => false)

/-- A stand that is gated, or waking and holding accesses (R582). -/
def standHolds (st : Nat) (s : State) : Bool := dozing st s || (tget s.pwr.waking st).isSome

/-- An access waits for a stand to wake, behind those that wait already (R582). -/
def holdAccess (st : Nat) (h : HeldAccess) (s : State) : State :=
  { s with pwr.waking := tset s.pwr.waking st (tgetD s.pwr.waking st [] ++ [h]) }

/-- A master's write at a register of a stand: held while the stand is gated, issued in its stream, judged by the ACU (R22, R427, R435, R582). -/
def atPort (m st x n v : Nat) (f : FabricTag → State → State) (s : State) : State :=
  let t := masterTag m s
  if standHolds st s then holdAccess st (.fabric t st (.write x (leBytes n v))) s
  else
    let (t, s) := issue t st s
    if permits t st x true false s then f t (acceptSeq t st s) else acuRefuse st t true false 0 1 x s

/-- ACU_COMMIT: all shadowed region fields of an ACU come into force together (R431). -/
def execAcuCommit (acu : Nat) (s : State) : Out :=
  onUnit (acu < 16) (let a := getAcu acu s; setAcu acu { a with regions := a.shadow } s)

/-- An address of HBM whose uncorrectable error is FATAL: the service firmware region, the MACsec and queue-state region (R517, R428). The mailbox request records have no stated place in the buffers. -/
def hbmFatalRegion (addr : Nat) : Bool := inRange addr 0x100000000 0x40000000 || inRange addr 0x220000000 0x80000000

/-- A failed HBM page: remapped to a zeroed reserve page, or poisoned once the table is full (R537). -/
def hbmPageLost (addr : Nat) (inj : Bool) (s : State) : State :=
  let page := addr / 4096
  let f := s.fbk
  let n := f.remap.length
  let full := 4096 ≤ n
  let s := unitRec 0x0508 [(0, 8, 4096 * page), (8, 4, if full then 0xFFFFFFFF else n)] inj s
  if full then { s with fbk.poisoned := addNew f.poisoned page }
  else
    let s := zeroFab (4096 * page) 4096 { s with fbk.remap := f.remap ++ [(page, n)] }
    serviceStands 0x1D (decide (4096 ≤ n + 1)) s

end Sys2Proof.Machine
end

