-- ==== Sys2Proof/Machine/Dge.lean ====
section
/-! DEFINITION. Digest engines: the register port of slot 0, saving and restoring it, streamed jobs, failure (chapter 06). -/

namespace Sys2Proof.Machine

/-- Bytes of the message open in slot 0. -/
def msgLen (m : DgeMsg) : Nat := m.before + m.text.length

/-- Blocks a finished message compressed: its text with the padding, and the outer block of an HMAC (R164, R165). -/
def msgBlocks (m : DgeMsg) : Nat :=
  let b := hashBlock m.alg
  (m.text.length % b + m.text.length / b * b + (hashPad m.alg (msgLen m) (m.text.length % b)).length) / b + b2n m.keyed

/-- Blocks a digest of n bytes compresses, its padding included (R164). -/
def digestBlocks (alg n : Nat) : Nat := (n + (hashPad alg n (n % hashBlock alg)).length) / hashBlock alg

/-- Blocks that forming a key's chaining values compresses: the ipad and opad blocks, and a longer key's own digest (R169). -/
def keyBlocks (alg n : Nat) : Nat := 2 + if hashBlock alg < n then digestBlocks alg n else 0

/-- Blocks a streamed job of n bytes compresses; an HMAC's with the outer block and its key's of m bytes (R165, R169). -/
def streamBlocks (alg n : Nat) (key : Option Nat) : Nat := digestBlocks alg n + match key with | some m => 1 + keyBlocks alg m | none => 0

/-- FIFO words in use: those that wait for the slot, and a message's own while its key loads (R163, R169). -/
def fifoUsed (d : Dge) : Nat :=
  d.held.length + if d.keyLoading && d.msg.keyed && (d.slot == .open_ || d.slot == .finishing) then (d.msg.text.length + 7) / 8 else 0

/-- The message is abandoned; the blocks it had compressed stay counted. -/
def dropMsg (d : Dge) : Dge :=
  { d with blocks := d.blocks + BitVec.ofNat 64 (d.msg.text.length / hashBlock d.msg.alg), msg := {}, held := [] }

/-- An error stops the slot until ABORT (R168, log entry 52). -/
def dgeErr (code : Nat) (d : Dge) : Dge := { dropMsg d with err := code }

/-- The checks that start a message (R158, R166, R169). -/
def startErr (d : Dge) : Option Nat :=
  if d.alg = 0 || 7 < d.alg || (d.keyed && 4 < d.alg) || (d.compare && (d.cmpLen = 0 || digestLen d.alg < d.cmpLen)) then some 2
  else if d.keyed && !d.keyLoaded && !d.keyLoading then some 10
  else none

/-- A message starts under the fields and key then in force (R167). -/
def startMsg (d : Dge) : Dge :=
  { d with slot := .open_, verdict := 0, result := [],
           msg := { chain := if d.keyBuf.isEmpty && d.keyed then d.keyInner else [], alg := d.alg, keyed := d.keyed, compare := d.compare, cmpLen := d.cmpLen } }

/-- A word joins the open message; a last word finishes it (R162, R164, R165). -/
def takeWord (w : DWord × Option Nat) (d : Dge) : Dge :=
  let bs := leBytes 8 w.1.toNat
  let bs := match w.2 with | some n => bs.take n | none => bs
  if 2 ^ 61 - 1 < msgLen d.msg + bs.length then dgeErr 3 d
  else { d with msg := { d.msg with text := d.msg.text ++ bs }, slot := if w.2.isSome then .finishing else .open_ }

/-- Words leave the FIFO into slot 0 until it is finishing or may not start (R167, R171). -/
def drainWords (frz : Bool) : Nat → Dge → Dge
  | 0, d => d
  | n + 1, d =>
    match d.held with
    | [] => d
    | w :: r =>
      match d.slot with
      | .finishing => d
      | .open_ => drainWords frz n (takeWord w { d with held := r })
      | .idle | .done =>
        if frz then d
        else match startErr d with
        | some e => dgeErr e d
        | none => drainWords frz n (takeWord w (startMsg { d with held := r }))

/-- Slot 0 is put back; the engine's line is high while it shows DONE (R165, log entry 54). -/
def putDge (g : Nat) (d : Dge) (s : State) : State :=
  let s := setDge g d s
  if d.slot = .done then s else lowerLine g s

/-- ABORT (R168): the FIFO empties and the slot is IDLE. -/
def dgeAbort (d : Dge) : Dge := abortSlot (dropMsg d)

/-- Slot 0 holds a message in progress. -/
def slotBusy (d : Dge) : Bool := d.slot == .open_ || d.slot == .finishing

/-- KEY_CLR (R168, R170). -/
def dgeKeyClr (d : Dge) : Dge := if slotBusy d then { d with swrIgn := true } else clearSlotKey d

/-- RELEASE (R161). -/
def dgeRelease (d : Dge) : Dge := if slotBusy d then { d with swrIgn := true } else { d with claim := none }

/-- SAVE begins (R172). -/
def dgeSave (t : FabricTag) (d : Dge) : Dge :=
  if d.err ≠ 0 then d
  else if d.slot == .finishing || d.slot == .done then dgeErr 6 d else { d with xfer := some { restore := false, tag := t } }

/-- RESTORE begins (R174). -/
def dgeRestore (t : FabricTag) (d : Dge) : Dge :=
  if d.err ≠ 0 then d
  else if d.slot != .idle then dgeErr 6 d else { d with xfer := some { restore := true, tag := t } }

/-- A DGE_CTRL write: the fields, then the strobes in bit order (R161, R168, R170, R172, R174). -/
def ctrlWrite (t : FabricTag) (v : Nat) (d : Dge) : Dge :=
  let d := { d with alg := bits v 3 0, keyed := bitOf v 4, compare := bitOf v 5, cmpLen := bits v 12 6 }
  let d := if bitOf v 16 then dgeAbort d else d
  let d := if bitOf v 17 then dgeKeyClr d else d
  let d := if bitOf v 18 then dgeRelease d else d
  let d := if bitOf v 19 then dgeSave t d else d
  if bitOf v 20 then dgeRestore t d else d

/-- A message word or last word at the port: dropped after an error (R162, R165, R168). -/
def dgeWord (g : Nat) (w : DWord) (last : Bool) (d : Dge) (s : State) : State :=
  if d.err ≠ 0 then s
  else if last && decide (8 < d.lastCnt) then putDge g (dgeErr 1 d) s
  else putDge g (drainWords (frozen s) 64 { d with held := d.held ++ [(w, if last then some d.lastCnt else none)] }) s

/-- Words of a raw key (R169). -/
def keyWords (d : Dge) : Nat := (d.keyLen + 7) / 8

/-- A raw key word; the first of a load replaces the key that was there (R169, R170). -/
def keyWord (w : DWord) (d : Dge) : Dge :=
  if slotBusy d then { d with swrIgn := true }
  else if d.keyLen = 0 || 128 < d.keyLen then dgeErr 11 d
  else
    let going := d.keyLoading && d.keySrc == .raw && decide (d.keyBuf.length < 8 * keyWords d)
    let d := if going then d else { clearSlotKey d with keyLoading := true, keySrc := .raw }
    { d with keyBuf := d.keyBuf ++ leBytes 8 w.toNat }

/-- The Sapwood controller's answer to a handle: the key, or the refusal's code (R50, R54, R70, R169). -/
def dgeKeyOf (h owner : Nat) (s : State) : Except Nat (Nat × KeyRec) :=
  match resolve h (some owner) s with
  | none => .error St.handleInvalid
  | some (slot, k) =>
    if k.type != 3 then .error St.keyTypeMismatch
    else if k.purpose != 5 then .error St.purposeDenied
    else match admission k s with
      | some st => .error st
      | none => .ok (slot, k)

/-- A handle load is admitted: the lease is held and the key asked for (R64, R169). -/
def dgeLease (g h owner slot : Nat) (k : KeyRec) (d : Dge) (s : State) : State :=
  let d := { clearSlotKey d with keyLoading := true, keySrc := .handle, handle := h, lease := some (slot, k.gen), leaseOwner := owner }
  chargeUse slot (useSapwood slot k (putDge g d s))

/-- A lease on a key waits: for the end of a FREEZE, for interrupted destructions, for a use, or for room under the pin limit (R65, R74, R84, R171). -/
def leaseWaits (slot : Nat) (k : KeyRec) (s : State) : Bool := frozen s || finishing s || !useReady k s || !pinFits [(slot, k)] s

/-- A handle written at the port (R169). -/
def keyHandle (g : Nat) (t : FabricTag) (h : Nat) (d : Dge) (s : State) : State :=
  if d.err ≠ 0 then s
  else if slotBusy d then putDge g { d with swrIgn := true } s
  else match dgeKeyOf h t.owner s with
  | .error c => putDge g (dgeErr 4 { d with keyStat := c }) s
  | .ok (slot, k) => dgeLease g h t.owner slot k d s

/-- A register write of n bytes that its master may make takes effect (chapter 06, Registers; R161, R163). -/
def dgeEffect (g : Nat) (t : FabricTag) (o n v : Nat) (d : Dge) (s : State) : State :=
  let w : DWord := BitVec.ofNat 64 v
  if 0x20 ≤ o && o < 0x40 then
    if !isDouble o n then putDge g (dgeErr 12 d) s
    else match o with
    | 0x20 => putDge g (keyWord w d) s
    | 0x28 => keyHandle g t v d s
    | 0x30 => dgeWord g w false d s
    | _ => dgeWord g w true d s
  else if inRange o 0x80 64 && isHalf o n then
    let i := (o - 0x80) / 8
    putDge g { d with expect := tset d.expect i (BitVec.ofNat 64 (setBytes (tgetD d.expect i 0).toNat (o % 8) n v)) } s
  else if inRange o 0xC0 8 && isHalf o n then putDge g { d with saveAddr := setBytes d.saveAddr (o % 8) n v / 64 * 64 } s
  else if !isWord o n then s
  else match o with
  | 0x00 => putDge g (ctrlWrite t v d) s
  | 0x04 => putDge g { d with lastCnt := bits v 3 0 } s
  | 0x08 => if bitOf v 6 then putDge g { d with swrIgn := false } s else s
  | 0x18 => putDge g (if slotBusy d then { d with swrIgn := true } else { d with keyLen := bits v 7 0 }) s
  | _ => s

/-- The claim on slot 0 judges a write: a DGE_CTRL write takes an unclaimed slot; another master's write is dropped with ERR CLAIMED (R161). -/
def dgeClaimed (g : Nat) (w : DgeWrite) (s : State) : State :=
  let d := getDge g s
  let claims := w.off == 0 && isWord w.off w.bytes
  match d.claim with
  | some m => if m = w.tag.master then dgeEffect g w.tag w.off w.bytes w.value d s else putDge g (dgeErr 9 d) s
  | none => dgeEffect g w.tag w.off w.bytes w.value (if claims then { d with claim := some w.tag.master } else d) s

/-- A write's master may have its effect here: slot 0 is its own or unclaimed. -/
def dgeOwn (d : Dge) (w : DgeWrite) : Bool := d.claim.all (· == w.tag.master)

/-- The key a handle write waits to lease (R65, R74, R171). -/
def handleWait (w : DgeWrite) (d : Dge) (s : State) : Option (Nat × KeyRec) :=
  if w.off ≠ 0x28 || !isDouble w.off w.bytes || !dgeOwn d w || d.err ≠ 0 || slotBusy d then none
  else match dgeKeyOf w.value w.tag.owner s with
    | .ok (slot, k) => if leaseWaits slot k s then some (slot, k) else none
    | .error _ => none

/-- A write stalls its writer: a save or restore runs, the FIFO is full, or its lease waits (R163, R169, R175). -/
def dgeStalls (w : DgeWrite) (d : Dge) (s : State) : Bool :=
  d.xfer.isSome || (dgeOwn d w && (w.off == 0x30 || w.off == 0x38) && isDouble w.off w.bytes && d.err == 0 && decide (32 ≤ fifoUsed d)) ||
    (handleWait w d s).isSome

/-- One write in its turn: it stays if its writer is stalled already or now, else it has its effect; a use that a lease lacks is asked for (R74, R161). -/
def dgeTurn (g : Nat) (w : DgeWrite) (s : State) : State :=
  let d := getDge g s
  if d.stalled.any (fun x => x.tag.master == w.tag.master) || dgeStalls w d s then
    let s := setDge g { d with stalled := d.stalled ++ [w] } s
    match handleWait w d s with
    | some (slot, k) => if useReady k s then s else extendUses slot k s
    | none => s
  else dgeClaimed g w s

/-- Writes whose writers are stalled are tried again, in issue order of each master (R161, R163). -/
def dgeResume (g : Nat) (s : State) : State :=
  let d := getDge g s
  if d.stalled.isEmpty || d.isolated then s else d.stalled.foldl (fun s w => dgeTurn g w s) (setDge g { d with stalled := [] } s)

/-- A write that the ACU lets through reaches an engine; an isolated engine drops it (R161, R178). -/
def dgeWrite (g : Nat) (t : FabricTag) (o n v : Nat) (s : State) : State :=
  if (getDge g s).isolated then s else dgeResume g (dgeTurn g { tag := t, off := o, bytes := n, value := v } s)

/-- Words that waited for a FREEZE to end start their messages, and handle loads go on (R171). -/
def drainDges (s : State) : State :=
  dgeUnits.foldl (fun s g =>
    let d := getDge g s
    dgeResume g (if d.held.isEmpty then s else putDge g (drainWords (frozen s) 64 d) s)) s

/-- A master's write at an engine's register port (R159). -/
def dgePort (g m o n v : Nat) (s : State) : State :=
  atPort m (g / 2) (0x0D300000 + 0x1000 * g + o) n v (fun t s => dgeWrite g t o n v s) s

/-- The fields of DGE_CTRL as they stand. -/
def ctrlFields (d : Dge) : Nat := d.alg % 16 + 16 * b2n d.keyed + 32 * b2n d.compare + 64 * (d.cmpLen % 128)

/-- A write of DGE_CTRL that leaves its fields and sets one strobe. -/
def dgeStrobe (g m bit : Nat) (s : State) : State := dgePort g m 0 4 (ctrlFields (getDge g s) + 2 ^ bit) s

/-- DGE_CTRL_CONFIG (R161). -/
def execDgeCtrlConfig (g master : Nat) (value : DWord) (s : State) : Out := onUnit (g < 16) (dgePort g master 0 4 (value.toNat % 2 ^ 32) s)

/-- ABORT (R168). -/
def execDgeAbort (g master : Nat) (s : State) : Out := onUnit (g < 16) (dgeStrobe g master 16 s)

/-- KEY_CLR (R168, R170). -/
def execDgeKeyClr (g master : Nat) (s : State) : Out := onUnit (g < 16) (dgeStrobe g master 17 s)

/-- RELEASE (R161). -/
def execDgeRelease0 (g master : Nat) (s : State) : Out := onUnit (g < 16) (dgeStrobe g master 18 s)

/-- SAVE (R172). -/
def execDgeSave (g master : Nat) (s : State) : Out := onUnit (g < 16) (dgeStrobe g master 19 s)

/-- RESTORE (R174). -/
def execDgeRestore (g master : Nat) (s : State) : Out := onUnit (g < 16) (dgeStrobe g master 20 s)

/-- DGE_DATA (R162, R163). -/
def execDgeData (g master : Nat) (value : DWord) (s : State) : Out := onUnit (g < 16) (dgePort g master 0x30 8 value.toNat s)

/-- DGE_LASTW (R162, R165). -/
def execDgeLastw (g master : Nat) (value : DWord) (s : State) : Out := onUnit (g < 16) (dgePort g master 0x38 8 value.toNat s)

/-- DGE_KEYDATA (R169). -/
def execDgeKeydata (g master : Nat) (value : DWord) (s : State) : Out := onUnit (g < 16) (dgePort g master 0x20 8 value.toNat s)

/-- DGE_KEYHANDLE (R169). -/
def execDgeKeyhandle (g master : Nat) (value : DWord) (s : State) : Out := onUnit (g < 16) (dgePort g master 0x28 8 value.toNat s)

/-- The loaded key of slot 0 by its lease. -/
def leasedKey (d : Dge) (s : State) : Option KeyRec := d.lease.bind (fun l => (tget s.store.c.keys l.1).filter (fun k => k.gen == l.2))

/-- DGE_KEY_LOADED: the key is whole, the ipad and opad values are formed (R169). -/
def dgeKeyLoaded (g : Nat) (s : State) : State :=
  let d := getDge g s
  if !d.keyLoading || d.isolated then s
  else match d.keySrc with
  | .raw => if d.keyBuf.length < 8 * keyWords d then s
    else putDge g { d with keyLoading := false, keyLoaded := true, keyBuf := d.keyBuf.take d.keyLen, blocks := d.blocks + BitVec.ofNat 64 (keyBlocks d.alg d.keyLen) } s
  | _ => match leasedKey d s, d.lease with
    | some k, some (slot, _) =>
      if inSapwood slot k s then putDge g { d with keyLoading := false, keyLoaded := true, keyBuf := material k, blocks := d.blocks + BitVec.ofNat 64 (keyBlocks d.alg (material k).length) } s else s
    | _, _ => s

/-- DGE_KEY_LOADED (R169). -/
def execDgeKeyLoaded (g : Nat) (s : State) : Out := onUnit (g < 16) (dgeResume g (dgeKeyLoaded g (dgeResume g s)))

/-- The digest or MAC of a finished message. A raw key's inner value that an image did not hold is a free value (log entry 53). -/
def msgResult (d : Dge) (fresh : Bytes) : Bytes :=
  let m := d.msg
  if !m.keyed then finish m.alg (if m.chain.isEmpty then hashIv m.alg else m.chain) m.before m.text
  else
    let inner := if !m.chain.isEmpty then m.chain else if d.keyBuf.isEmpty then fresh else hmacInner m.alg d.keyBuf
    let outer := if d.keyBuf.isEmpty then d.keyOuter else hmacOuter m.alg d.keyBuf
    hmacFrom m.alg inner outer m.before m.text

/-- DGE_MESSAGE_DONE: result or verdict, DONE, the line; then the words held for the next message (R165-R167). -/
def messageDone (g : Nat) (s : State) : State :=
  let d := getDge g s
  if d.slot != .finishing || (d.msg.keyed && d.keyLoading) || d.err ≠ 0 || d.isolated || d.xfer.isSome then s
  else
    let (fresh, s) := if d.msg.keyed && d.keyBuf.isEmpty && d.msg.chain.isEmpty then drawBytes (chainLen d.msg.alg) s else ([], s)
    let r := msgResult d fresh
    let eq := r.take d.msg.cmpLen == ((List.range 8).map (fun w => leBytes 8 (tgetD d.expect w 0).toNat)).flatten.take d.msg.cmpLen
    let d := { d with slot := .done, result := if d.msg.compare then [] else r, verdict := if !d.msg.compare then 0 else if eq then 1 else 2,
                      msgs := d.msgs + 1, blocks := d.blocks + BitVec.ofNat 64 (msgBlocks d.msg), msg := {} }
    putDge g (drainWords (frozen s) 64 d) (raiseLine g s)

/-- DGE_MESSAGE_DONE (R165-R167). -/
def execDgeMessageDone (g : Nat) (s : State) : Out := onUnit (g < 16) (dgeResume g (messageDone g s))

/-- The stand context key of a stand, once its wire has delivered it whole (R173, R214). -/
def standKey (st : Nat) (s : State) : Option Bytes := let k := (getStand st s).ctxKey; if k.length < 32 then none else some (k.take 32)

/-- K_enc and K_mac of an image (R173). -/
def imageKeys (ck : Bytes) (t : FabricTag) : Bytes × Bytes :=
  let fixed := ("OL9 DGE CTX".toList.map (fun c => BitVec.ofNat 8 c.toNat)) ++ [0] ++ leBytes 1 (b2n t.worldU) ++ beBytes 4 (t.owner % 2 ^ 20) ++ beBytes 4 512
  let k := kdf 64 0 ck fixed
  (k.take 32, k.drop 32)

/-- The stream that encrypts an image's body (R173). -/
def imageStream (kenc : Bytes) (no : Nat) : Bytes :=
  ((List.range 14).map (fun i => hmac 2 kenc (leBytes 8 no ++ beBytes 4 i))).flatten

/-- Bytes 0x000-0x02F of an image (R172). -/
def imageHead (d : Dge) (t : FabricTag) (rest : Bytes) : Bytes :=
  let m := d.msg
  let alg := if d.slot = .open_ then m.alg else d.alg
  let keyed := if d.slot = .open_ then m.keyed else d.keyed
  let handle := keyed && d.keySrc == .handle
  layout 0x30 [(0, 2, if keyed then 2 else 1), (2, 1, alg),
    (3, 1, b2n keyed + 2 * b2n handle + 4 * b2n (if d.slot = .open_ then m.compare else d.compare) + 8 * b2n (d.slot == .open_)),
    (4, 4, t.owner % 2 ^ 20), (8, 1, b2n t.worldU), (9, 1, rest.length), (0x0A, 1, if d.slot = .open_ then m.cmpLen else d.cmpLen), (0x10, 8, msgLen m),
    (0x18, 8, if handle then d.handle else 0), (0x20, 8, d.saveNo)]

/-- Bytes 0x030-0x1DF of an image in clear: chaining values, partial block, expectation (R172). -/
def imageBody (d : Dge) (chain rest : Bytes) : Bytes :=
  let m := d.msg
  let keyed := if d.slot = .open_ then m.keyed else d.keyed
  let alg := if d.slot = .open_ then m.alg else d.alg
  if !keyed then padTo 200 chain ++ padTo 232 rest
  else
    let outer := if d.keyBuf.isEmpty then d.keyOuter else hmacOuter alg d.keyBuf
    padTo 64 chain ++ padTo 64 outer ++ padTo 128 rest ++ padTo 176 ((List.range 8).map (fun w => leBytes 8 (tgetD d.expect w 0).toNat)).flatten

/-- The chaining state of slot 0 and its partial block. -/
def slotChain (d : Dge) : Bytes × Bytes :=
  let m := d.msg
  let keyed := if d.slot = .open_ then m.keyed else d.keyed
  let alg := if d.slot = .open_ then m.alg else d.alg
  let start := if !m.chain.isEmpty then m.chain else if keyed then (if d.keyBuf.isEmpty then d.keyInner else hmacInner alg d.keyBuf) else hashIv alg
  absorb alg (m.text.length + 1) start m.text

/-- The 512 bytes of an image (R172, R173). -/
def dgeImage (d : Dge) (t : FabricTag) (ck : Bytes) : Bytes :=
  let (chain, rest) := slotChain d
  let h := imageHead d t rest
  let body := imageBody d chain rest
  if fld h 0 2 = 1 then h ++ body ++ List.replicate 32 0
  else
    let (ke, km) := imageKeys ck t
    let x := h ++ xorBytes body (imageStream ke d.saveNo)
    x ++ hmac 2 km x

/-- Where an image stands in the fabric memory, for the stand of an engine. -/
def imageAddr (g : Nat) (d : Dge) : Nat := fabAddr (targetOf (g / 2) d.saveAddr) d.saveAddr

/-- The key under which an image of a slot is wrapped: none needed for an unkeyed one; a keyed one waits for it (R173, R214). -/
def wrapWith (keyed : Bool) (g : Nat) (s : State) : Option Bytes := if keyed then standKey (g / 2) s else some []

/-- A save ends: the image is written under the captured tag; a refused probe writes nothing and ends with ERR IMAGE_BAD; a key still loading, or a stand without its context key, keeps it waiting (R172, R173, R435, R437). -/
def saveDone (g : Nat) (t : FabricTag) (d : Dge) (s : State) : State :=
  let tg := targetOf (g / 2) d.saveAddr
  let keyed := if d.slot = .open_ then d.msg.keyed else d.keyed
  if !probeOk t tg d.saveAddr 512 true s then acuProbe tg (putDge g (dgeErr 7 { d with xfer := none }) s)
  else if keyed && d.keyLoading then s
  else match wrapWith keyed g s with
  | none => s
  | some ck =>
    let img := dgeImage d t ck
    fabWrite (imageAddr g d) img (putDge g { d with xfer := none, saveNo := d.saveNo + 1 } s)

/-- The checks of R174 on an image. -/
def imageOk (b : Bytes) (t : FabricTag) (ck : Bytes) : Bool :=
  let f := fld b 0 2
  let keyed := bitOf (fld b 3 1) 0
  let (_, km) := imageKeys ck t
  (f == 2 || (f == 1 && !keyed)) && (f == 1 || b.drop 480 == hmac 2 km (b.take 480)) && fld b 8 1 == b2n t.worldU && fld b 4 4 == t.owner % 2 ^ 20

/-- The slot an image restores (R174). -/
def restored (b ck : Bytes) (t : FabricTag) (d : Dge) : Dge :=
  let fl := fld b 3 1
  let alg := fld b 2 1
  let keyed := bitOf fl 0
  let (ke, _) := imageKeys ck t
  let body := if fld b 0 2 = 2 then xorBytes (slice b 0x30 432) (imageStream ke (fld b 0x20 8)) else slice b 0x30 432
  let n := fld b 9 1
  let len := fld b 0x10 8
  let chain := body.take (chainLen alg)
  let rest := if keyed then slice body 0x80 n else slice body 0xC8 n
  let d := { d with alg := alg, keyed := keyed, compare := bitOf fl 2, cmpLen := fld b 0x0A 1 }
  let d := if keyed then { d with expect := (List.range 8).map (fun w => (w, BitVec.ofNat 64 (fld body (0x100 + 8 * w) 8))) } else d
  let d := if bitOf fl 3 then
    { d with slot := .open_, msg := { chain := chain, before := len - n, text := rest, alg := alg, keyed := keyed, compare := bitOf fl 2, cmpLen := fld b 0x0A 1 } } else d
  if keyed && !bitOf fl 1 then
    { d with keyLoaded := true, keySrc := .raw, keyInner := if len - n = 0 then chain else [], keyOuter := (body.drop 0x40).take (chainLen alg) }
  else d

/-- The 512 bytes a restore reads: zeros where the access control unit refuses the read. -/
def imageRead (ok : Bool) (g : Nat) (d : Dge) (s : State) : Bytes :=
  if ok then memReadN s.units.fab (imageAddr g d) 512 else List.replicate 512 0

/-- A restore's image has been read (R174); one wrapped waits for the stand's context key, one with a handle for its lease (R65, R74, R171, R214). -/
def restoreRead (g : Nat) (t : FabricTag) (d : Dge) (b : Bytes) (s : State) : State :=
  match wrapWith (fld b 0 2 == 2) g s with
  | none => s
  | some ck =>
    let d' := clearSlotKey { d with xfer := none }
    if !imageOk b t ck then putDge g (dgeErr 7 d') s
    else if bitOf (fld b 3 1) 0 && bitOf (fld b 3 1) 1 then
      match dgeKeyOf (fld b 0x18 8) t.owner s with
      | .error c => putDge g (dgeErr 4 { d' with keyStat := c }) s
      | .ok (slot, k) =>
        if !leaseWaits slot k s then dgeLease g (fld b 0x18 8) t.owner slot k (restored b ck t d') s
        else if useReady k s then s else extendUses slot k s
    else putDge g (restored b ck t d') s

/-- A restore ends (R174). -/
def restoreDone (g : Nat) (t : FabricTag) (d : Dge) (s : State) : State :=
  let tg := targetOf (g / 2) d.saveAddr
  let ok := probeOk t tg d.saveAddr 512 false s
  let s := if ok then s else acuProbe tg s
  restoreRead g t d (imageRead ok g d s) s

/-- DGE_SAVE_DONE (R172-R175). -/
def execDgeSaveDone (g : Nat) (s : State) : Out :=
  onUnit (g < 16) (
    let d := getDge g s
    match d.xfer with
    | none => s
    | some x => if d.isolated then s else dgeResume g (if x.restore then restoreDone g x.tag d s else saveDone g x.tag d s))

/-- A slot holding a revoked key ends its message unless it is DONE; key and lease are gone (R170). -/
def revokeSlot (slot : Nat) (s : State) : State :=
  s.units.dges.foldl (fun s p =>
    if (p.2.lease.map (fun l => l.1 == slot)).getD false then
      putDge p.1 (clearSlotKey (if p.2.slot = .done ∨ !slotBusy p.2 then p.2 else dgeErr 5 p.2)) s
    else s) s

/-- The world-U engines in service of a stand. -/
def streamEngines (st : Nat) (s : State) : List Nat :=
  [2 * st, 2 * st + 1].filter (fun g => bitOf s.world.map.dge g && !(getDge g s).isolated)

/-- Digest bytes queued at a stand (R176). -/
def streamLoad (st : Nat) (s : State) : Nat :=
  ((streamEngines st s).map (fun g => ((getDge g s).streams.map (fun p => match getCtx p.2 s with
    | some x => elemsLen x.srcElems
    | none => 0)).foldl (· + ·) 0)).foldl (· + ·) 0

/-- The free stream slot of an engine with the lowest number (R160). -/
def freeStream (d : Dge) : Option Nat := [1, 2, 3].find? (fun i => (tget d.streams i).isNone)

/-- The engines of a stand that a job may go to: not the one that failed it (R177). -/
def streamChoice (x : Ctx) (st : Nat) (s : State) : List Nat := (streamEngines st s).filter (fun g => x.avoid != some g)

/-- The engine a streamed job goes to: the stand with the fewest queued bytes, then the lower engine with a free slot (R176, R177). -/
def streamPlace (x : Ctx) (s : State) : Option Nat :=
  let room (g : Nat) : Bool := (freeStream (getDge g s)).isSome
  let ok := (ctxStands x s).filter (fun st => (streamChoice x st s).any room)
  (leastBy (fun st => streamLoad st s) ok).bind (fun st => (streamChoice x st s).find? room)

/-- The function's stands are some, and none has a world-U engine in service for the job (R177). -/
def streamNone (x : Ctx) (s : State) : Bool := !(ctxStands x s).isEmpty && (ctxStands x s).all (fun st => (streamChoice x st s).isEmpty)

/-- A job takes the lowest free stream slot. -/
def streamBind (g c : Nat) (s : State) : State :=
  let d := getDge g s
  match freeStream d with
  | some i => setDge g { d with streams := tset d.streams i c } s
  | none => s

/-- The engine that a streamed job runs on. -/
def streamOn (c : Nat) (s : State) : Option Nat := dgeUnits.find? (fun g => (getDge g s).streams.any (fun p => p.2 == c))

/-- A context's stream slot is free. -/
def streamDrop (c : Nat) (s : State) : State :=
  { s with units.dges := tmap s.units.dges (fun _ d => { d with streams := d.streams.filter (fun p => p.2 != c) }) }

/-- A streamed job looks for an engine again, or waits for one, or for the end of a FREEZE (R171, R177). -/
def streamAgain (c : Nat) (x : Ctx) (s : State) : State :=
  if streamNone x s then abort c St.engineFault s
  else match (if frozen s then none else streamPlace x s) with
  | some g => streamBind g c (setCtx c { x with waits := [], stand := some (g / 2) } s)
  | none => setCtx c { x with waits := [.engine] } s

/-- A streamed job whose engine has failed: up to 64 KiB it goes to another engine, from its first byte; above that it ends (R177). -/
def streamLost (g c : Nat) (s : State) : State :=
  match liveCtx c s with
  | none => s
  | some x =>
    if 65536 < elemsLen x.srcElems then abort c St.engineFault s
    else streamAgain c { x with redispatched := true, avoid := some g } s

/-- Queue a notification for every core of a stand that holds applets (R370). -/
def notifyStand (k : NoteKind) (arg0 st : Nat) (s : State) : State :=
  { s with cores.cores := tmap s.cores.cores (fun g c =>
      if g / 9 ≠ st ∨ c.slots.isEmpty then c else { c with notes := c.notes ++ [{ kind := k, arg0 := arg0 }] }) }

/-- A digest engine fails (R178); the loss of a world-U engine is told to its stand's applets (R370). -/
def dgeFail (g : Nat) (inj : Bool) (s : State) : State :=
  let d := getDge g s
  if d.isolated then countFault 0 s
  else
    let s := unitReport 0x0A g inj s
    let s := putDge g { dgeErr 8 (clearSlotKey d) with isolated := true, result := [], verdict := 0, xfer := none, streams := [], stalled := [] } s
    let s := d.streams.foldl (fun s p => streamLost g p.2 s) s
    let s := if bitOf s.world.map.dge g then notifyStand .unitLost 1 (g / 2) s else s
    capRewrite (unitRec 0x0507 [(0, 1, 3), (1, 1, g)] inj s)

/-- DGE_FAULT (R178). -/
def execDgeFault (g : Nat) (s : State) : Out := onUnit (g < 16) (dgeFail g false s)

end Sys2Proof.Machine
end

