-- ==== Sys2Proof/Machine/Wma.lean ====
section
/-! DEFINITION. Wide multiply-accumulate units: validation, the product, flushing and failure (R180-R192). -/

namespace Sys2Proof.Machine

/-- A core has a command queued or running. -/
def wmaOutstanding (core : Nat) (s : State) : Bool := s.units.wmas.any (fun p => p.2.cmds.any (fun c => c.core == core))

/-- A command has ended with a value, shown by its unit (R182). -/
def wmaOver (u core v : Nat) (s : State) : State := wmaEnds core v { s with units.wmaLast := tset s.units.wmaLast u v }

/-- A command is given to a unit: an isolated one ends it at once, else its block is read and it queues (R181, R190). -/
def wmaIssue (core u addr : Nat) (s : State) : State :=
  let w := getWma u s
  let s := { s with units.wmaOpen := tdel s.units.wmaOpen core }
  if w.isolated then wmaOver u core 3 s
  else
    let st := u / 2
    setWma u { w with cmds := w.cmds ++ [{ core := core, addr := addr, tag := coreTag core s, block := memReadN s.units.fab (fabAddr st addr) 32 }] } s

/-- The bytes of the stand's SRAM hold a range. -/
def inSram (x len : Nat) : Bool := 0x0C000000 ≤ x && x + len ≤ 0x0C800000

/-- The checks of R184 that need no ACU. -/
def wmaFormOk (u : Nat) (c : WmaCmd) (s : State) : Bool :=
  let ((a, an), (b, bn), (r, rn)) := wmaOps c.block
  let al := fld c.block 0x18 2
  let bl := fld c.block 0x1A 2
  let rl := fld c.block 0x1C 2
  1 ≤ al && al ≤ 256 && 1 ≤ bl && bl ≤ 256 && 1 ≤ rl && rl ≤ 513 && c.addr % 32 == 0 && a % 8 == 0 && b % 8 == 0 && r % 8 == 0 &&
  !overlaps r rn a an && !overlaps r rn b bn && inSram c.addr 32 && inSram a an && inSram b bn && inSram r rn &&
  bitOf s.world.map.wma u == c.tag.worldU

/-- The probe of R184 under the captured tag. -/
def wmaProbe (u : Nat) (c : WmaCmd) (s : State) : Bool :=
  let ((a, an), (b, bn), (r, rn)) := wmaOps c.block
  let st := u / 2
  probeOk c.tag st c.addr 32 false s && probeOk c.tag st a an false s && probeOk c.tag st b bn false s &&
  probeOk c.tag st r rn false s && probeOk c.tag st r rn true s

/-- The head of the queue starts, or is refused with WMA_EFAIL (R184, R185). -/
def wmaStart (u : Nat) (s : State) : State :=
  let w := getWma u s
  match w.cmds with
  | [] => s
  | c :: r =>
    if c.running || w.isolated then s
    else
      let form := wmaFormOk u c s
      if form && wmaProbe u c s then
        let ((a, an), (b, bn), (ra, rn)) := wmaOps c.block
        let rd (x n : Nat) : Bytes := memReadN s.units.fab (fabAddr (u / 2) x) n
        setWma u { w with cmds := { c with running := true, a := rd a an, b := rd b bn, acc := rd ra rn } :: r, last := some c.core } s
      else
        let s := if form then acuProbe (u / 2) s else s
        let s := { s with units.wmaEfails := tset s.units.wmaEfails u (tgetD s.units.wmaEfails u 0 + 1) }
        wmaOver u c.core 1 (setWma u { w with cmds := r, last := some c.core } s)

/-- WMA_CMD_START (R184, R185). -/
def execWmaCmdStart (unit : Nat) (s : State) : Out := onUnit (unit < 16) (wmaStart unit s)

/-- A string as an integer, unsigned or two's complement (R180). -/
def wmaInt (signed : Bool) (b : Bytes) : Int :=
  let n := leNat b
  if signed && 2 ^ (8 * b.length - 1) ≤ n && b.length != 0 then (n : Int) - 2 ^ (8 * b.length) else n

/-- ACC + A × B modulo 2^(64 ACC_LEN) (R180). -/
def wmaProduct (signed : Bool) (a b acc : Bytes) : Bytes :=
  let m : Int := 2 ^ (8 * acc.length)
  leBytes acc.length ((wmaInt signed acc + wmaInt signed a * wmaInt signed b) % m).toNat

/-- T of R186. -/
def wmaCycles (b : Bytes) : Nat :=
  let al := fld b 0x18 2
  48 + (al + 7) / 8 + 2 * ((fld b 0x1C 2 + 7) / 8) + (al + 15) / 16 * fld b 0x1A 2

/-- The running command ends: ACC is stored; it is undefined if software wrote a word of the operands since WMA.GO (R183, R186). Ordered scrubs that wait for the unit follow (R189). -/
def wmaDone (u : Nat) (s : State) : State :=
  let w := getWma u s
  match w.cmds with
  | [] => s
  | c :: r =>
    if !c.running then s
    else
      let s := { s with units.wmaOpen := tset s.units.wmaOpen c.core c }
      let s := setWma u { w with cmds := r, done := w.done + 1, busy := w.busy + BitVec.ofNat 64 (wmaCycles c.block) } s
      let s := if c.touched then wmaUndefined c s
        else fabStore (fabAddr (u / 2) (wmaOps c.block).2.2.1) (wmaProduct (bitOf (fld c.block 0x1E 1) 0) c.a c.b c.acc) s
      orderedDone (u / 2) (wmaOver u c.core 0 s)

/-- WMA_CMD_DONE (R186). -/
def execWmaCmdDone (unit : Nat) (s : State) : Out := onUnit (unit < 16) (wmaDone unit s)

/-- What a failure leaves in the running command's ACC: the old value, or an undefined one if its store had begun, which nothing tells (R190). -/
def wmaTorn (c : WmaCmd) (s : State) : State :=
  let (b, s) := draw s
  if bitOf b 0 || c.touched then wmaUndefined c s else s

/-- A unit fails: the running command's ACC is old or undefined, every command ends with WMA_EFAULT (R190, R191). -/
def wmaFail (u : Nat) (inj : Bool) (s : State) : State :=
  let w := getWma u s
  if w.isolated then countFault 0 s
  else
    let s := unitReport 0x09 u inj s
    let s := (w.cmds.filter (·.running)).foldl (fun s c => wmaTorn c s) s
    let s := w.cmds.foldl (fun s c => wmaOver u c.core 3 s) s
    let s := orderedDone (u / 2) (setWma u { w with isolated := true, cmds := [] } s)
    let s := if bitOf s.world.map.wma u then notifyStand .unitLost 0 (u / 2) s else s
    capRewrite (unitRec 0x0507 [(0, 1, 2), (1, 1, u)] inj s)

/-- WMA_FAULT (R190). -/
def execWmaFault (unit : Nat) (s : State) : Out := onUnit (unit < 16) (wmaFail unit false s)

end Sys2Proof.Machine
end

