-- ==== Sys2Proof/Machine/Cores.lean ====
section
/-! DEFINITION. Application cores: traps, interrupts, hardware loops, the Xolu instructions, and PMP (R347-R362). The RV64 instructions themselves are an outside standard; their results come with the command. -/

namespace Sys2Proof.Machine

/-- An integer register; x0 reads 0. -/
def getX (core r : Nat) (s : State) : DWord := if r = 0 then 0 else tgetD (getCore core s).x r 0

/-- Write an integer register; x0 discards. -/
def setX (core r : Nat) (v : DWord) (s : State) : State :=
  if r = 0 then s else let c := getCore core s; setCore core { c with x := tset c.x r v } s

/-- A CSR as stored. -/
def csrRaw (core a : Nat) (s : State) : DWord := tgetD (getCore core s).csr a 0

/-- Store a CSR. -/
def setCsr (core a : Nat) (v : DWord) (s : State) : State := let c := getCore core s; setCore core { c with csr := tset c.csr a v } s

/-- Bits of mstatus: MIE 3, MPIE 7, MPP 12:11, MPRV 17, TW 21. -/
def mie : Nat := 3
def mpie : Nat := 7
def tw : Nat := 21

/-- mstatus as a number. -/
def mstatus (core : Nat) (s : State) : Nat := (csrRaw core 0x300 s).toNat

/-- mstatus from its parts, the other writable bits kept. -/
def putStatus (core : Nat) (ie pie : Bool) (mpp : Nat) (s : State) : State :=
  let m := mstatus core s
  let keep := m - 8 * b2n (bitOf m mie) - 128 * b2n (bitOf m mpie) - 2048 * bits m 12 11
  setCsr core 0x300 (BitVec.ofNat 64 (keep + 8 * b2n ie + 128 * b2n pie + 2048 * mpp)) s

/-- mtime: 100 MHz since the Canopy's power-good (R349). -/
def mtime (s : State) : Nat := 100 * (s.us - s.pwr.goodAt)

/-- The stands whose gate queue a core's stand serves (R372). -/
def gateServes (st : Nat) (s : State) : List Nat :=
  if hasServiceCore (partnerOf st) s then [st] else [st, partnerOf st]

/-- mip of a core (R353). -/
def mip (core : Nat) (s : State) : Nat :=
  let c := getCore core s
  let gate := if coreU core s then c.done != 0 else (gateServes (core / 9) s).any (fun st => !(tgetD s.cores.gate st []).isEmpty)
  2 ^ 16 * b2n (!c.notes.isEmpty) + 2 ^ 17 * b2n gate + 2 ^ 11 * b2n (coreMei core s) + 8 * b2n c.msip + 128 * b2n (decide (c.mtimecmp.toNat ≤ mtime s))

/-- Interrupts pending with their mie bit, highest priority first (R353). -/
def irqs (core : Nat) (s : State) : List Nat :=
  [16, 17, 11, 3, 7].filter (fun n => bitOf (mip core s) n && bitOf (csrRaw core 0x304 s).toNat n)

/-- Interrupts are globally enabled: always in U-mode, by MIE in M-mode (R353). -/
def irqEnabled (core : Nat) (s : State) : Bool := (getCore core s).user || bitOf (mstatus core s) mie

/-- A core that the debug gate lets run one instruction is halted again (R490). -/
def stepEnd (core : Nat) (s : State) : State :=
  if s.lc.stepping.contains core then { s with lc.stepping := without s.lc.stepping core, lc.halted := addNew s.lc.halted core } else s

/-- A trap is taken in M-mode: mepc, mcause, mtval, the mode stack, and the vector (R351). -/
def takeTrap (core : Nat) (cause : Nat) (tval epc : DWord) (s : State) : State :=
  let m := mstatus core s
  let u := (getCore core s).user
  let tvec := (csrRaw core 0x305 s).toNat
  let base := tvec / 4 * 4
  let target := if tvec % 4 = 1 ∧ 2 ^ 63 ≤ cause then base + 4 * (cause - 2 ^ 63) else base
  let s := setCsr core 0x343 tval (setCsr core 0x342 (BitVec.ofNat 64 cause) (setCsr core 0x341 epc s))
  let s := putStatus core false (bitOf m mie) (if u then 0 else 3) s
  stepEnd core (setCore core { getCore core s with pc := BitVec.ofNat 64 target, user := false, wfi := false } s)

/-- An interrupt is taken; a core waiting in WFI has completed it (R353-R355). -/
def takeIrq (core : Nat) (s : State) : State :=
  match irqs core s with
  | [] => s
  | n :: _ =>
    let c := getCore core s
    takeTrap core (2 ^ 63 + n) 0 (if c.wfi then c.pc + 4 else c.pc) s

/-- A core that executes instructions: in service, not scrubbing, not held by the debug gate (R490), its stand not gated, its monitor's applets not saved for WATCH (R383, R580, R585). -/
def coreRuns (core : Nat) (s : State) : Bool :=
  let st := (getCore core s).state
  (st == .idle || st == .running) && !s.lc.halted.contains core && !dozing (core / 9) s && !stopIntake s && s.pwr.state != .backup

/-- The hardware-loop rule for one loop: none = not at its end, else the next pc and whether the rule stops (R359). -/
def loopOne (core : Nat) (l : Nat) (a n : DWord) (len : Nat) (s : State) : Option (DWord × Bool × State) :=
  let cnt := csrRaw core (0x802 + 3 * l) s
  if cnt ≠ 0 ∧ a = csrRaw core (0x801 + 3 * l) s ∧ n = a + BitVec.ofNat 64 len then
    if 1 < cnt.toNat then some (csrRaw core (0x800 + 3 * l) s, true, setCsr core (0x802 + 3 * l) (cnt - 1) s)
    else some (n, false, setCsr core (0x802 + 3 * l) 0 s)
  else none

/-- minstret after one more instruction; bit 2 of mcountinhibit holds it (R347). -/
def countedInstr (core : Nat) (s : State) : DWord :=
  if (csrRaw core 0x320 s).getLsbD 2 then (getCore core s).minstret else (getCore core s).minstret + 1

/-- An instruction at a completes with next pc n: loops 0 and 1 are tested in turn (R359). -/
def complete (core : Nat) (a : DWord) (len : Nat) (n : DWord) (s : State) : State :=
  let put (n : DWord) (s : State) : State := stepEnd core (setCore core { getCore core s with pc := n, minstret := countedInstr core s } s)
  match loopOne core 0 a n len s with
  | some (n, true, s) => put n s
  | some (_, false, s) | none =>
    let s := match loopOne core 0 a n len s with | some (_, _, s') => s' | none => s
    match loopOne core 1 a n len s with
    | some (n, _, s) => put n s
    | none => put n s

/-- A 4-byte instruction at the pc completes. -/
def complete4 (core : Nat) (s : State) : State :=
  let a := (getCore core s).pc
  complete core a 4 (a + 4) s

/-- The value a CSR keeps of what is written (R347, R351, R352, R358). -/
def csrMask (a : Nat) (v : DWord) : DWord :=
  match a with
  | 0x008 => v &&& 0xFF#64
  | 0x009 | 0x30A => v &&& 1#64
  | 0x00A => v &&& 3#64
  | 0x800 | 0x801 | 0x803 | 0x804 => v &&& ~~~1#64
  | 0x7C0 => v &&& 0x77#64
  | 0x300 => (v &&& 0x2A1888#64) &&& (if bits v.toNat 12 11 = 3 then BitVec.allOnes 64 else ~~~0x1800#64)
  | 0x304 => v &&& 0x30888#64
  | 0x305 => if v.getLsbD 0 then v &&& ~~~0xFE#64 else v &&& ~~~3#64
  | 0x306 => v &&& 7#64
  | 0x320 => v &&& 5#64
  | 0x341 => v &&& ~~~1#64
  | _ => v

/-- pmpcfg of entry i as a byte (R347). -/
def pmpCfg (core i : Nat) (s : State) : Nat := (csrRaw core (0x3A0 + 2 * (i / 8)) s).toNat / 256 ^ (i % 8) % 256

/-- A PMP entry that is locked, unless mseccfg.RLB lets it be written (R347). -/
def pmpLocked (core i : Nat) (s : State) : Bool := bitOf (pmpCfg core i s) 7 && !bitOf (csrRaw core 0x747 s).toNat 2

/-- A PMP configuration write leaves locked entries (R347). -/
def pmpCfgWrite (core a : Nat) (v : DWord) (s : State) : DWord :=
  let base := (a - 0x3A0) / 2 * 8
  BitVec.ofNat 64 (leNat ((List.range 8).map (fun k =>
    BitVec.ofNat 8 (if pmpLocked core (base + k) s then pmpCfg core (base + k) s else v.toNat / 256 ^ k % 256 &&& 0x9F))))

/-- An address of PMP keeps its value while its entry, or the next one as the top of its range, is locked (R347). -/
def pmpAddrHeld (core i : Nat) (s : State) : Bool :=
  pmpLocked core i s || (decide (i < 15) && pmpLocked core (i + 1) s && bits (pmpCfg core (i + 1) s) 4 3 == 1)

/-- mseccfg: MML and MMWP stay once set; RLB cannot be set while an entry is locked (R347). -/
def secCfgWrite (core : Nat) (v : DWord) (s : State) : DWord :=
  let old := csrRaw core 0x747 s
  let held := (List.range 16).any (fun i => pmpLocked core i s)
  ((v ||| old) &&& 3#64) ||| (if held then 0#64 else v &&& 4#64)

/-- The CSRs that a core has (R347, R349, R358). -/
def csrExists (a : Nat) : Bool :=
  [0x008, 0x009, 0x00A, 0x00F, 0x300, 0x301, 0x304, 0x305, 0x306, 0x30A, 0x320, 0x747, 0x7C0, 0x7C1, 0x7C2, 0xB00, 0xB02, 0xC00, 0xC01, 0xC02,
    0xC20, 0xC21, 0xC22, 0xCC0, 0xFC0].contains a ||
  inRange a 0x800 6 || inRange a 0x323 29 || inRange a 0x340 5 || inRange a 0x3A0 4 || inRange a 0x3B0 16 || inRange a 0xB03 29 || inRange a 0xF11 5

/-- A CSR write by an instruction (R347, R352, R358, R373); one that ignores writes keeps its value. -/
def csrWrite (core a : Nat) (v : DWord) (s : State) : State :=
  if a = 0x7C1 then
    let s := (List.range 4).foldl (fun s i => if v.getLsbD (4 + i) then cancelCall core i s else s) s
    let c := getCore core s
    setCore core { c with done := c.done - (c.done &&& bits v.toNat 11 8) } s
  else if a = 0x7C2 then { s with units.wmaVal := tset s.units.wmaVal core (v.toNat % 4) }
  else if a = 0x00F then setCsr core 0x00A ((v >>> 1) &&& 3#64) (setCsr core 0x009 (v &&& 1#64) s)
  else if a = 0x3A0 ∨ a = 0x3A2 then setCsr core a (pmpCfgWrite core a v s) s
  else if a = 0x747 then setCsr core a (secCfgWrite core v s) s
  else if a = 0xB02 then setCore core { getCore core s with minstret := v } s
  else if inRange a 0x3B0 16 && pmpAddrHeld core (a - 0x3B0) s then s
  else if 0xC00 ≤ a ∨ inRange a 0xB03 29 ∨ inRange a 0x323 29 ∨ a = 0x344 ∨ a = 0x301 ∨ !csrExists a then s
  else setCsr core a (csrMask a v) s

/-- mowner (R358). -/
def mownerWord (core : Nat) (s : State) : Nat := match (getCore core s).owner with | some o => o + 2 ^ 20 | none => 0

/-- A CSR as it reads (R349, R353, R358). -/
def csrRead (core a : Nat) (s : State) : DWord :=
  let c := getCore core s
  match a with
  | 0x301 => 0x8000000000901105#64
  | 0xF11 => BitVec.ofNat 64 (Config.prim .deviceId [[3]])
  | 0xF12 => 9
  | 0xF13 => 0xB1
  | 0xF14 => BitVec.ofNat 64 core
  | 0xF15 => 0
  | 0x344 => BitVec.ofNat 64 (mip core s)
  | 0x00F => 2 * csrRaw core 0x00A s + csrRaw core 0x009 s
  | 0xB02 | 0xC02 => c.minstret
  | 0xC00 => csrRaw core 0xB00 s
  | 0xC22 => 32
  | 0xCC0 => BitVec.ofNat 64 c.out
  | 0x7C1 => BitVec.ofNat 64 (c.out + 2 ^ 8 * c.done)
  | 0x7C2 => BitVec.ofNat 64 (tgetD s.units.wmaVal core 0)
  | 0xFC0 => BitVec.ofNat 64 (mownerWord core s)
  | 0xC01 => BitVec.ofNat 64 (mtime s)
  | _ => csrRaw core a s

/-- An illegal-instruction exception at the pc, mtval holding the instruction bits (R348). -/
def illegal (core : Nat) (insn : Nat) (s : State) : State := takeTrap core 2 (BitVec.ofNat 64 insn) (getCore core s).pc s

/-- A CSR write that is illegal: of a CSR that is absent or read-only, of one above the mode's privilege, or of a hardware-loop CSR in U-mode while xolucfg.LOOP_U is clear (R348, R357, R358). -/
def csrDenied (core : Nat) (i : CoreStep) (s : State) : Bool :=
  match i.csr with
  | none => false
  | some (a, _) => !csrExists a || 0xC00 ≤ a ||
      ((getCore core s).user && (a / 256 % 4 != 0 || (inRange a 0x800 6 && !bitOf (csrRaw core 0x7C0 s).toNat 2)))

/-- The vector CSRs an instruction writes beside its own result: vstart, vxsat, vl, vtype (R347, R355). -/
def vectorCsr (a : Nat) : Bool := [0x008, 0x009, 0xC20, 0xC21].contains a

/-- The vector state an instruction writes (R347, R355). -/
def writeVector (core : Nat) (i : CoreStep) (s : State) : State :=
  let s := i.vec.foldl (fun s p => setCore core { getCore core s with v := tset (getCore core s).v (p.1 % 32) (padTo 32 p.2) } s) s
  i.vset.foldl (fun s p => if vectorCsr p.1 then setCsr core p.1 p.2 s else s) s

/-- A core takes this instruction now: it runs, and the instruction is the one at its pc. -/
def takesStep (core : Nat) (i : CoreStep) (s : State) : Bool :=
  coreRuns core s && !(getCore core s).wfi && (getCore core s).pc == i.addr && (i.len == 2 || i.len == 4)

/-- INSTRUCTION: the instruction at the pc completes with the results given, then the loop rule applies; a value it writes into minstret stands (R357, R359). -/
def instruction (core : Nat) (i : CoreStep) (s : State) : State :=
  if !takesStep core i s then s
  else if csrDenied core i s then illegal core i.insn s
  else
    let s := match i.wrote with | some (r, v) => setX core (r % 32) v s | none => s
    let s := writeVector core i s
    let s := match i.csr with | some (a, v) => csrWrite core a v s | none => s
    let s := complete core i.addr i.len i.nextPc s
    match i.csr with
    | some (0xB02, v) => csrWrite core 0xB02 v s
    | _ => s

/-- A PMP entry's range: first byte and one past the last, if it matches anything. -/
def pmpRange (core i : Nat) (s : State) : Option (Nat × Nat) :=
  let addr (k : Nat) : Nat := (csrRaw core (0x3B0 + k) s).toNat % 2 ^ 54
  let a := addr i
  match bits (pmpCfg core i s) 4 3 with
  | 0 => none
  | 1 => some (if i = 0 then 0 else 4 * addr (i - 1), 4 * a)
  | 2 => some (4 * a, 4 * a + 4)
  | _ =>
    let n := ((List.range 54).takeWhile (fun k => bitOf a k)).length
    some (4 * (a / 2 ^ (n + 1) * 2 ^ (n + 1)), 4 * (a / 2 ^ (n + 1) * 2 ^ (n + 1)) + 2 ^ (n + 3))

/-- Whether a PMP entry permits a store: the rules of PMP and of Smepmp. -/
def pmpStore (cfg : Nat) (user mml : Bool) : Bool :=
  let r := bitOf cfg 0
  let w := bitOf cfg 1
  let x := bitOf cfg 2
  let l := bitOf cfg 7
  if !mml then (if user then w else !l || w)
  else if w && !r then (!l && (!user || x))
  else if l then (!user && w && !(r && w && x))
  else user && w

/-- A store of n bytes passes the core's PMP (R350, R363). -/
def pmpStoreOk (core x n : Nat) (s : State) : Bool :=
  let c := getCore core s
  let m := mstatus core s
  let user := c.user || (bitOf m 17 && bits m 12 11 == 0)
  let sec := (csrRaw core 0x747 s).toNat
  match (List.range 16).find? (fun i => match pmpRange core i s with | some (a, b) => overlaps x n a (b - a) | none => false) with
  | none => !user && !bitOf sec 1
  | some i => match pmpRange core i s with
    | some (a, b) => a ≤ x && x + n ≤ b && pmpStore (pmpCfg core i s) user (bitOf sec 0)
    | none => false

/-- WMA_GO: WMA.GO rs1, u (R181, R188, R356, R357, R362). -/
def wmaGo (core rs1 unit : Nat) (s : State) : State :=
  let c := getCore core s
  let insn := 0x0000000B + 2 ^ 20 * unit + 2 ^ 15 * rs1
  if !coreRuns core s || c.wfi then s
  else if 1 < unit || (c.user && !bitOf (csrRaw core 0x7C0 s).toNat 0) then illegal core insn s
  else if wmaOutstanding core s then s
  else complete4 core (wmaIssue core (2 * (core / 9) + unit) (getX core rs1 s).toNat s)

/-- WMA_WAIT: WMA.WAIT rd (R182, R357, R362). -/
def wmaWait (core rd : Nat) (s : State) : State :=
  let c := getCore core s
  if !coreRuns core s || c.wfi then s
  else if c.user && !bitOf (csrRaw core 0x7C0 s).toNat 0 then illegal core (0x0000100B + 2 ^ 7 * rd) s
  else if wmaOutstanding core s then s
  else complete4 core (setX core rd (BitVec.ofNat 64 (tgetD s.units.wmaVal core 0)) { s with units.wmaOpen := tdel s.units.wmaOpen core })

/-- WFI: waits in M-mode until an interrupt is pending with its mie bit; in U-mode illegal while TW is set (R355). -/
def wfi (core : Nat) (s : State) : State :=
  let c := getCore core s
  if !coreRuns core s then s
  else if c.user && bitOf (mstatus core s) tw then illegal core 0x10500073 s
  else if (irqs core s).isEmpty then setCore core { c with wfi := true } s
  else complete4 core (setCore core { c with wfi := false } s)

end Sys2Proof.Machine
end

