-- ==== Sys2Proof/Machine/Monitor.lean ====
section
/-! DEFINITION. The glade monitor: scheduling, notifications, ECALL functions, DGE1, the end of an applet; traps and MRET (R351-R355, R365-R370). -/

namespace Sys2Proof.Machine

/-- Change an applet. -/
def modApplet (inst : Nat) (f : Applet → Applet) (s : State) : State := { s with cores.applets := tmod s.cores.applets inst f }

/-- The applet in a core's slot. -/
def appletIn (core slot : Nat) (s : State) : Option (Nat × Applet) :=
  (tget (getCore core s).slots slot).bind (fun i => (tget s.cores.applets i).map (fun a => (i, a)))

/-- The applet a core runs. -/
def curApplet (core : Nat) (s : State) : Option (Nat × Applet) := (getCore core s).cur.bind (fun k => appletIn core k s)

/-- RUNNING or STOPPING: the applet has not ended. -/
def appletAlive (a : Applet) : Bool := a.state == .running || a.state == .stopping

/-- The loop CSRs of an applet, and mwmalast (R366). -/
def loopCsrs (core : Nat) (s : State) : Tab DWord :=
  ((List.range 6).map (fun i => (0x800 + i, csrRaw core (0x800 + i) s))) ++ [(0x7C2, BitVec.ofNat 64 (tgetD s.units.wmaVal core 0))]

/-- The CSRs of an applet's vector state: vstart, vxsat, vxrm, vl, vtype (R355). -/
def vectorCsrs (core : Nat) (s : State) : Tab DWord := [0x008, 0x009, 0x00A, 0xC20, 0xC21].map (fun a => (a, csrRaw core a s))

/-- The CSRs an applet starts with: no loop armed, nothing left by another applet (R366). -/
def freshCsrs : Tab DWord := ([0x800, 0x801, 0x802, 0x803, 0x804, 0x805, 0x7C2, 0x008, 0x009, 0x00A, 0xC20, 0xC21]).map (fun a => (a, 0))

/-- Put CSRs and mwmalast back. -/
def putLoopCsrs (core : Nat) (t : Tab DWord) (s : State) : State :=
  t.foldl (fun s p => if p.1 = 0x7C2 then { s with units.wmaVal := tset s.units.wmaVal core (p.2.toNat % 4) } else setCsr core p.1 p.2 s) s

/-- An applet's code begins at the base of its region; live data and BSS follow, then the kept copy (R378). -/
def codeAddr (a : Applet) : Nat := 0x150000000 + 0x10000 * a.base

/-- Where its live data begins: the first granule after those of its code (log entry 60). -/
def dataAddr (a : Applet) : Nat := codeAddr a + (a.codeLen + 0xFFFF) / 0x10000 * 0x10000

/-- Where the record of a SEQ stands in an applet's notification ring (R370). -/
def noteAddr (a : Applet) (seq : Nat) : Nat := dataAddr a + a.notifyOffset + 32 + 32 * (seq % 16)

/-- KIND of a notification record. -/
def noteKind : NoteKind → Nat
  | .modeChange => 1
  | .restartBegin => 2
  | .restartEnd => 3
  | .tamper => 4
  | .unitLost => 5
  | .stopRequest => 6
  | .ownerSuspended => 7
  | .ownerResumed => 8

/-- The monitor writes one notification into an applet's ring, and wakes it if it waits (R367, R370). -/
def writeNote (inst : Nat) (a : Applet) (n : Note) (s : State) : State :=
  let seq := a.seq + 1
  let s := fabWrite (noteAddr a seq) (layout 32 [(0, 4, seq), (4, 1, noteKind n.kind), (8, 8, n.arg0)]) s
  let s := fabWrite (dataAddr a + a.notifyOffset) (leBytes 4 seq) s
  let due := if a.notifyEntry = 0xFFFFFFFF then a.upcallDue else a.upcallDue ++ [seq]
  let a' : Applet := { a with seq := seq, upcallDue := due }
  let a' := match a.wait with
    | .calls m => { a' with wait := .none, saved := { a'.saved with x := tset a'.saved.x 10 (BitVec.ofNat 64 ((getCore a.core s).done &&& m)) } }
    | _ => a'
  modApplet inst (fun _ => a') s

/-- The monitor empties its core's notification queue into the rings (R353, R370). -/
def deliverNotes (core : Nat) (s : State) : State :=
  let c := getCore core s
  let s := setCore core { c with notes := [] } s
  c.notes.foldl (fun s n => c.slots.foldl (fun s p =>
    match tget s.cores.applets p.2 with
    | some a => if appletAlive a && (n.to_.isNone || n.to_ == some p.2) then writeNote p.2 a n s else s
    | none => s) s) s

/-- An upcall into the applet the core runs: its state is saved, its record gets PC, it enters NOTIFY_ENTRY with a0 = SEQ (R370). -/
def tryUpcall (core : Nat) (s : State) : State :=
  match curApplet core s with
  | none => s
  | some (inst, a) =>
    match a.upcallDue, a.upcall with
    | seq :: r, none =>
      let c := getCore core s
      let s := fabWrite (noteAddr a seq + 0x18) (leBytes 8 c.pc.toNat) s
      let s := modApplet inst (fun a => { a with upcallDue := r, upcall := some { x := c.x, pc := c.pc, csr := loopCsrs core s } }) s
      setX core 10 (BitVec.ofNat 64 seq) (setCore core { getCore core s with pc := BitVec.ofNat 64 (codeAddr a + a.notifyEntry) } s)
    | _, _ => s

/-- The running applet's state is saved, with the pc it resumes at (R366). -/
def saveApplet (core : Nat) (pc : DWord) (s : State) : State :=
  match curApplet core s with
  | none => s
  | some (inst, _) =>
    let c := getCore core s
    let s := modApplet inst (fun a => { a with saved := { x := c.x, pc := pc, csr := loopCsrs core s ++ vectorCsrs core s, v := c.v } }) s
    setCore core { c with cur := none } s

/-- SLOT of xolucfg is stamped (R366, R372). -/
def stampSlot (core slot : Nat) (s : State) : State :=
  let v := (csrRaw core 0x7C0 s).toNat
  setCsr core 0x7C0 (BitVec.ofNat 64 (v - 16 * bits v 6 4 + 16 * slot)) s

/-- xolucfg bits that the applet's PERMS give: WMA 0, GATE 2, LOOPS 3 (R357, R377). -/
def permCfg (a : Applet) : Nat := b2n (bitOf a.perms 0) + 2 * b2n (bitOf a.perms 2) + 4 * b2n (bitOf a.perms 3)

/-- The user window over the applet's local share (R434). -/
def setWindow (core : Nat) (a : Applet) (s : State) : State :=
  match corePos core s with
  | none => s
  | some p =>
    let b := 0x0C000000 + 0x100000 * p + a.localBase
    { s with world.uwin := tset s.world.uwin core (b, b + a.localLen - 4) }

/-- DGE1 of the core's stand. -/
def dge1 (core : Nat) : Nat := 2 * (core / 9) + 1

/-- The PMP entries an applet runs under: code read and execute, data and its share of the bank read and write, the page of DGE1 while it holds it; pairs of entries, the second TOR (R365, log entry 148). -/
def setPmp (core : Nat) (a : Applet) (s : State) : State :=
  let data := dataAddr a
  let lb := match corePos core s with | some p => 0x0C000000 + 0x100000 * p + a.localBase | none => 0
  let page := 0x0D300000 + 0x1000 * dge1 core
  let held := (getCore core s).dgeHolder == some a.slot
  let s := setCsr core 0x3A0 (BitVec.ofNat 64 (0x0B000B000D00 + 0x0B * 2 ^ 56 * b2n held)) s
  [codeAddr a, codeAddr a + a.codeLen, data, data + a.dataLen + a.bssLen, lb, lb + (if lb = 0 then 0 else a.localLen), page, page + 0x1000].zipIdx.foldl
    (fun s p => setCsr core (0x3B0 + p.2) (BitVec.ofNat 64 (p.1 / 4)) s) s

/-- The PMP entries follow the running applet's hold on DGE1 (R365, R368). -/
def refreshPmp (core : Nat) (s : State) : State := match curApplet core s with | some (_, a) => setPmp core a s | none => s

/-- An applet is restored and entered in U-mode, its upcall first if one is due; mcounteren is 0 and mstatus.TW 1 (R355, R365, R366, R370). -/
def enterApplet (core slot : Nat) (s : State) : State :=
  match appletIn core slot s with
  | none => s
  | some (_, a) =>
    let c := getCore core s
    let s := setCore core { c with x := a.saved.x, v := a.saved.v, pc := a.saved.pc, user := true, cur := some slot, state := .running } s
    let s := setCsr core 0x7C0 (BitVec.ofNat 64 (permCfg a)) (putLoopCsrs core a.saved.csr s)
    let s := setCsr core 0x306 0 (setCsr core 0x300 (csrRaw core 0x300 s ||| 0x200000#64) s)
    tryUpcall core (setPmp core a (setWindow core a (stampSlot core slot s)))

/-- A slot whose applet can run. -/
def slotReady (core slot : Nat) (s : State) : Bool :=
  match appletIn core slot s with
  | some (_, a) => appletAlive a && a.wait == .none
  | none => false

/-- Round robin: the next ready slot after one, or an idle core (R366). -/
def schedule (core last : Nat) (s : State) : State :=
  let order := (List.range 8).map (fun k => (last + 1 + k) % 8)
  match order.find? (fun k => slotReady core k s) with
  | some k => enterApplet core k s
  | none => setCore core { getCore core s with cur := none, user := false, state := .idle } s

/-- DGE1 is granted to an applet of a core (R368). -/
def grantDge (core slot : Nat) (s : State) : State :=
  let g := dge1 core
  putDge g { getDge g s with claim := some core } (setCore core { getCore core s with dgeHolder := some slot } s)

/-- Applets of a stand that wait for DGE1: core and slot, lowest first. -/
def dgeWaiters (st : Nat) (s : State) : List (Nat × Nat) :=
  (standUnits st).flatMap (fun core => (List.range 8).filterMap (fun k =>
    match appletIn core k s with
    | some (_, a) => if appletAlive a && a.wait == .dge then some (core, k) else none
    | none => none))

/-- DGE1 has become free for a core's applets: a waiting one takes it, else the claim is released and the stand's other core may (R368). -/
def passDge (core : Nat) (s : State) : State :=
  let ws := dgeWaiters (core / 9) s
  match (ws.find? (fun w => w.1 == core)).orElse (fun _ => ws.head?) with
  | none => s
  | some (c, k) =>
    match appletIn c k s with
    | none => s
    | some (inst, _) => grantDge c k (modApplet inst (fun a => { a with wait := .none, saved := { a.saved with x := tset a.saved.x 10 0 } }) s)

/-- The holder gives DGE1 back: ABORT, KEY_CLR, and the claim goes on or is freed (R368). -/
def releaseDge (core : Nat) (s : State) : State :=
  let g := dge1 core
  let s := setCore core { getCore core s with dgeHolder := none } s
  passDge core (putDge g { clearSlotKey (dgeAbort (getDge g s)) with claim := none } s)

/-- The mailbox command APPLET_STOP for an instance is answered (R382). -/
def answerStop (inst how : Nat) (s : State) : State :=
  let code := match tget s.cores.applets inst with | some a => a.exitCode | none => 0
  s.mbox.foldl (fun s p => deliver (mbOfKey p.1) 0x0604 (· == .applet inst) { body := layout 8 [(0, 4, code), (4, 1, how)] } s) s

/-- An applet ends in a state: its calls are cancelled, its DGE hold released, its slot left, a waiting stop answered (R366, R368, R369, R382). -/
def endApplet (inst : Nat) (st : AppState) (how : Nat) (s : State) : State :=
  match tget s.cores.applets inst with
  | none => s
  | some a =>
    let s := a.calls.foldl (fun s i => cancelCall a.core i s) s
    let s := modApplet inst (fun a => { a with state := st, calls := [], wait := .none, upcall := none, upcallDue := [] }) s
    let s := if (getCore a.core s).dgeHolder = some a.slot then releaseDge a.core s else s
    let c := getCore a.core s
    answerStop inst how (setCore a.core { c with slots := tdel c.slots a.slot, cur := if c.cur = some a.slot then none else c.cur } s)

/-- An exception that a running applet raised, other than ECALL, ends it FAULTED with mcause, mepc and mtval; `s` is the state before the row and `t` the one after (R366). -/
def endTrapped (core : Nat) (s t : State) : State :=
  let cause := csrRaw core 0x342 t
  if (getCore core s).user && !(getCore core t).user && !cause.getLsbD 63 && cause != 8 then
    match curApplet core t with
    | some (inst, _) =>
      endApplet inst .faulted 0 (modApplet inst (fun a => { a with mcause := cause, mepc := csrRaw core 0x341 t, mtval := csrRaw core 0x343 t }) t)
    | none => t
  else t

/-- A row of a core's own program. -/
def ownRow (core : Nat) (f : State → State) (s : State) : State := endTrapped core s (f s)

/-- TRAP: taken in M-mode (R351). -/
def trap (core : Nat) (cause tval : DWord) (s : State) : State :=
  let c := getCore core s
  if !coreRuns core s || c.wfi then s else takeTrap core cause.toNat tval c.pc s

/-- The applet a core runs calls the monitor with a function number that R367 does not define. -/
def badCall (core : Nat) (cause : DWord) (s : State) : Bool :=
  coreRuns core s && !(getCore core s).wfi && (getCore core s).user && cause == 8 && (curApplet core s).isSome && decide (8 ≤ (getX core 17 s).toNat)

/-- An ECALL returns to its caller with a value in a0. -/
def ecallRet (core : Nat) (v : DWord) (pc : DWord) (s : State) : State :=
  setX core 10 v (setCore core { getCore core s with pc := pc } s)

/-- TRAP (R351, R366): the cause is an exception's, bit 63 clear; an ECALL of no function returns a0 = 2 (R367). -/
def execTrap (core : Nat) (cause tval : DWord) (s : State) : Out :=
  onUnit (core < 72) (
    if cause.getLsbD 63 then s
    else if badCall core cause s then ecallRet core 2 ((getCore core s).pc + 4) (deliverNotes core s)
    else ownRow core (trap core cause tval) s)

/-- The highest interrupt pending and enabled is taken; the monitor empties its notification queue (R353, R370). -/
def irqNow (core : Nat) (s : State) : State :=
  if irqEnabled core s && !(irqs core s).isEmpty then
    let n := (irqs core s).head?
    let s := takeIrq core s
    if n = some 16 then deliverNotes core s else s
  else s

/-- An instruction completes; an interrupt that its CSR write enables comes before the next one (R354). -/
def instrThenIrq (core : Nat) (i : CoreStep) (s : State) : State :=
  let t := instruction core i s
  if i.csr.isSome && takesStep core i s && coreRuns core t then irqNow core t else t

/-- INSTRUCTION (R354, R359). -/
def execInstruction (core : Nat) (i : CoreStep) (s : State) : Out := onUnit (core < 72) (ownRow core (instrThenIrq core i) s)

/-- WMA_GO (R181). -/
def execWmaGo (core rs1 unit : Nat) (s : State) : Out := onUnit (core < 72 && rs1 < 32 && unit < 32) (ownRow core (wmaGo core rs1 unit) s)

/-- WMA_WAIT (R182). -/
def execWmaWait (core rd : Nat) (s : State) : Out := onUnit (core < 72 && rd < 32) (ownRow core (wmaWait core rd) s)

/-- WFI (R355). -/
def execWfi (core : Nat) (s : State) : Out := onUnit (core < 72) (ownRow core (wfi core) s)

/-- INTERRUPT_TAKEN: the highest interrupt pending and enabled is taken (R353). -/
def execInterruptTaken (core : Nat) (s : State) : Out := onUnit (core < 72) (if coreRuns core s then irqNow core s else s)

/-- MRET: the mode stack is popped; an interrupt now pending and enabled comes before the first instruction (R354). -/
def mret (core : Nat) (s : State) : State :=
  let c := getCore core s
  if !coreRuns core s || c.wfi then s
  else if c.user then illegal core 0x30200073 s
  else
    let m := mstatus core s
    let u := bits m 12 11 == 0
    let s := putStatus core (bitOf m mpie) true 0 s
    let s := if u then setCsr core 0x300 (csrRaw core 0x300 s &&& ~~~0x20000#64) s else s
    let s := setCore core { getCore core s with user := u } s
    let s := complete core c.pc 4 (csrRaw core 0x341 s) s
    if irqEnabled core s && !(irqs core s).isEmpty then irqNow core s else if u then tryUpcall core s else s

/-- MRET (R354). -/
def execMret (core : Nat) (s : State) : Out := onUnit (core < 72) (ownRow core (mret core) s)

/-- The frame of an ECALL function: a running applet in U-mode with the function's number in a7 (R367). -/
def ecall (core n : Nat) (f : Nat → Applet → DWord → State → State) (s : State) : Out :=
  onUnit (core < 72) (
    let c := getCore core s
    match curApplet core s with
    | some (inst, a) =>
      if coreRuns core s && c.user && getX core 17 s == BitVec.ofNat 64 n then f inst a (c.pc + 4) (deliverNotes core s) else s
    | none => s)

/-- An applet leaves the core for the next one, to resume at a pc; the core's WMA command drains first (R366). -/
def switchOut (core : Nat) (slot : Nat) (pc : DWord) (s : State) : State := schedule core slot (saveApplet core pc s)

/-- YIELD (R367). -/
def execYield (core : Nat) (s : State) : Out :=
  ecall core 0 (fun _ a pc s => if wmaOutstanding core s then s else switchOut core a.slot pc (setX core 10 0 s)) s

/-- EXIT (R367). -/
def execExit (core : Nat) (s : State) : Out :=
  ecall core 1 (fun inst a _ s =>
    if wmaOutstanding core s then s
    else
      let code := (getX core 10 s).toNat % 2 ^ 32
      schedule core a.slot (endApplet inst .exited 0 (modApplet inst (fun a => { a with exitCode := code }) s))) s

/-- TIME (R367). -/
def execTime (core : Nat) (s : State) : Out :=
  ecall core 2 (fun _ _ pc s => ecallRet core (BitVec.ofNat 64 (s.us - s.pwr.goodAt)) pc s) s

/-- WAIT: returns the DONE bits of the mask, or the applet waits for one or for a notification (R367, R369). -/
def execWait (core : Nat) (s : State) : Out :=
  ecall core 3 (fun inst a pc s =>
    let m := (getX core 10 s).toNat % 16
    let c := getCore core s
    let d := c.done &&& m
    if d ≠ 0 then ecallRet core (BitVec.ofNat 64 d) pc (setCore core { c with done := c.done - d } s)
    else if wmaOutstanding core s then s
    else schedule core a.slot (modApplet inst (fun a => { a with wait := .calls m }) (saveApplet core pc s))) s

/-- DGE_ACQUIRE: held, busy, or the applet waits; an applet without the DGE permission has no such function (R367, R368, log entry 58). -/
def execDgeAcquire (core : Nat) (s : State) : Out :=
  ecall core 4 (fun inst a pc s =>
    let d := getDge (dge1 core) s
    let wait := getX core 10 s == 1
    if !bitOf a.perms 1 then ecallRet core 2 pc s
    else if (getCore core s).dgeHolder = some a.slot || (!d.isolated && d.claim.isNone) then ecallRet core 0 pc (refreshPmp core (grantDge core a.slot s))
    else if !wait then ecallRet core 1 pc s
    else if wmaOutstanding core s then s
    else schedule core a.slot (modApplet inst (fun a => { a with wait := .dge }) (saveApplet core pc s))) s

/-- DGE_RELEASE (R367, R368). -/
def execDgeRelease (core : Nat) (s : State) : Out :=
  ecall core 5 (fun _ a pc s =>
    if (getCore core s).dgeHolder = some a.slot then ecallRet core 0 pc (refreshPmp core (releaseDge core s)) else ecallRet core 2 pc s) s

/-- NOTIFY_RETURN: the state an upcall saved comes back, and the next upcall if one waits; outside an upcall it is no function (R367, R370). -/
def execNotifyReturn (core : Nat) (s : State) : Out :=
  ecall core 6 (fun inst a pc s =>
    match a.upcall with
    | none => ecallRet core 2 pc s
    | some u =>
      let s := modApplet inst (fun a => { a with upcall := none }) s
      tryUpcall core (putLoopCsrs core u.csr (setCore core { getCore core s with x := u.x, pc := u.pc } s))) s

/-- SELF (R367). -/
def execSelf (core : Nat) (s : State) : Out :=
  ecall core 7 (fun inst a pc s =>
    setX core 13 (BitVec.ofNat 64 core) (setX core 12 (BitVec.ofNat 64 inst) (setX core 11 (BitVec.ofNat 64 a.slot)
      (ecallRet core (BitVec.ofNat 64 a.owner) pc s)))) s

/-- APPLET_SLICE_END: the monitor switches to the next ready applet once the core's WMA command has ended (R366). -/
def execAppletSliceEnd (core : Nat) (s : State) : Out :=
  onUnit (core < 72) (
    if !coreRuns core s || wmaOutstanding core s || !coreU core s then s
    else
      let s := deliverNotes core s
      let c := getCore core s
      match curApplet core s with
      | some (_, a) => if c.user then switchOut core a.slot c.pc s else switchOut core a.slot (csrRaw core 0x341 s) s
      | none => schedule core 7 s)

end Sys2Proof.Machine
end

