-- ==== Sys2Proof/Machine/Gate.lean ====
section
/-! DEFINITION. Gate calls and gate services (R363, R364, R371-R373, R535). -/

namespace Sys2Proof.Machine

/-- A range lies in a core's own bank. -/
def inOwnBank (core x n : Nat) (s : State) : Bool :=
  match corePos core s with
  | some p => let b := 0x0C000000 + 0x100000 * p; b ≤ x && x + n ≤ b + 0x100000
  | none => false

/-- The 64 bytes of a gate response (R371). -/
def gateResp (status info : Nat) (body : Bytes) : Bytes :=
  layout 8 [(0, 1, 2), (2, 2, status), (4, 2, info)] ++ padTo 56 body

/-- An applet that waits for one of the calls just completed goes on (R367, R369). -/
def wakeCalls (core : Nat) (s : State) : State :=
  (getCore core s).slots.foldl (fun s p =>
    match tget s.cores.applets p.2 with
    | some a =>
      let c := getCore core s
      match a.wait with
      | .calls m =>
        let d := c.done &&& m
        if d = 0 then s
        else modApplet p.2 (fun a => { a with wait := .none, saved := { a.saved with x := tset a.saved.x 10 (BitVec.ofNat 64 d) } })
          (setCore core { c with done := c.done - d } s)
      | _ => s
    | none => s) s

/-- A response reaches its caller's frame: STATE DONE, the DONE bit set, the OUT bit clear (R364). -/
def gateFinish (g : GateCall) (resp : Bytes) (s : State) : State :=
  let s := fabWrite (g.frame + 0x40) ([2] ++ (padTo 64 resp).drop 1) s
  let c := getCore g.core s
  let s := setCore g.core { c with out := c.out - (c.out &&& 2 ^ g.index), done := c.done ||| 2 ^ g.index } s
  let s := { s with
    cores.taken := s.cores.taken.filter (fun t => t.ticket != g.ticket)
    cores.applets := tmap s.cores.applets (fun _ a => if a.core = g.core then { a with calls := without a.calls g.index } else a) }
  wakeCalls g.core s

/-- The ticket of a call: master, index, the core's call sequence (R372). -/
def ticketOf (core index seq : Nat) : Nat := core + 2 ^ 10 * index + 2 ^ 12 * (seq % 2 ^ 20)

/-- Neither stand of a pair has a service core (R535). -/
def pairUnserved (st : Nat) (s : State) : Bool := !hasServiceCore st s && !hasServiceCore (partnerOf st) s

/-- An accepted call: request copied, frame PENDING, OUT set, index in rd (steps 2 to 5 of R363). -/
def gateAccept (core rd frame service : Nat) (s : State) : State :=
  let st := core / 9
  let c := getCore core s
  let i := ((List.range 4).find? (fun i => !bitOf c.out i)).getD 0
  let fa := fabAddr st frame
  let slot := bits (csrRaw core 0x7C0 s).toNat 6 4
  let g : GateCall := { ticket := ticketOf core i c.callSeq, core := core, index := i, slot := slot, owner := c.owner.getD 0, service := service
                        frame := fa, request := memReadN s.units.fab fa 64 }
  let s := fabWrite (fa + 0x40) (layout 64 [(0, 1, 1)]) s
  let s := setCore core { c with out := c.out ||| 2 ^ i, callSeq := (c.callSeq + 1) % 2 ^ 20 } s
  let s := match curApplet core s with | some (inst, _) => modApplet inst (fun a => { a with calls := addNew a.calls i }) s | none => s
  let s := { s with cores.gate := tset s.cores.gate st (tgetD s.cores.gate st [] ++ [g]) }
  let s := complete4 core (setX core rd (BitVec.ofNat 64 i) s)
  if pairUnserved st s then
    gateFinish g (gateResp St.engineFault 0 []) { s with cores.gate := tset s.cores.gate st ((tgetD s.cores.gate st []).filter (fun x => x.ticket != g.ticket)) }
  else s

/-- GATE_CALL: GATE.CALL rd, rs1, rs2 (R357, R363). -/
def gateCall (core rd rs1 rs2 : Nat) (s : State) : State :=
  let c := getCore core s
  let insn := 0x0000200B + 2 ^ 7 * rd + 2 ^ 15 * rs1 + 2 ^ 20 * rs2
  let frame := (getX core rs1 s).toNat
  let svc := (getX core rs2 s).toNat
  if !coreRuns core s || c.wfi then s
  else if !coreU core s || (c.user && !bitOf (csrRaw core 0x7C0 s).toNat 1) then illegal core insn s
  else if !pmpStoreOk core frame 128 s then takeTrap core 7 (BitVec.ofNat 64 frame) c.pc s
  else
    let refuse (r : Nat) : State := complete4 core (setX core rd (BitVec.ofNat 64 (2 ^ 63 + r)) s)
    if c.out = 15 then refuse 1
    else if frame % 128 ≠ 0 || !inOwnBank core frame 128 s || 4096 ≤ svc then refuse 2
    else match judge (coreTag core s) (core / 9) frame 128 true false s with
      | .refused part parts addr => takeTrap core 7 (BitVec.ofNat 64 frame) c.pc (acuRefuse (core / 9) (coreTag core s) true false part parts addr s)
      | .ok => gateAccept core rd frame svc s

/-- GATE_CALL (R363). -/
def execGateCall (core rd rs1 rs2 : Nat) (s : State) : Out := onUnit (core < 72 && rd < 32 && rs1 < 32 && rs2 < 32) (ownRow core (gateCall core rd rs1 rs2) s)

/-- GATE_RET: GATE.RET rs1, rs2; a ticket that names no outstanding call is dropped (R357, R364). -/
def gateRet (core rs1 rs2 : Nat) (s : State) : State :=
  let c := getCore core s
  let a := (getX core rs1 s).toNat
  let t := (getX core rs2 s).toNat
  if !coreRuns core s || c.wfi then s
  else if coreU core s || c.user then illegal core (0x0000300B + 2 ^ 15 * rs1 + 2 ^ 20 * rs2) s
  else if a % 64 ≠ 0 then takeTrap core 4 (BitVec.ofNat 64 a) c.pc s
  else if !inOwnBank core a 64 s then takeTrap core 5 (BitVec.ofNat 64 a) c.pc s
  else
    let s' := complete4 core s
    match s.cores.taken.find? (fun g => g.ticket == t) with
    | none => s'
    | some g =>
      if g.cancelled then { s' with cores.taken := s'.cores.taken.filter (fun x => x.ticket != t) }
      else gateFinish g (memReadN s.units.fab (fabAddr (core / 9) a) 64) s'

/-- GATE_RET (R364). -/
def execGateRet (core rs1 rs2 : Nat) (s : State) : Out := onUnit (core < 72 && rs1 < 32 && rs2 < 32) (ownRow core (gateRet core rs1 rs2) s)

/-- The 128 bytes a take writes (R372). -/
def takeEntry (g : GateCall) : Bytes :=
  layout 64 [(0, 4, g.ticket), (4, 2, g.core), (6, 1, g.slot), (8, 4, g.owner), (0x0C, 2, g.service)] ++ padTo 64 g.request

/-- GATE_TAKE: a service core takes the oldest entry of a queue its stand serves (R372). -/
def gateTake (core addr : Nat) (s : State) : State :=
  let c := getCore core s
  if !coreRuns core s || coreU core s then s
  else
    let x := addr / 128 * 128 % 2 ^ 48
    match (gateServes (core / 9) s).find? (fun st => !(tgetD s.cores.gate st []).isEmpty) with
    | none => setCore core { c with emptyTake := true } s
    | some st =>
      match tgetD s.cores.gate st [] with
      | [] => s
      | g :: r =>
        if !inOwnBank core x 128 s then acuProbe (core / 9) s
        else
          let b := fabAddr (core / 9) x
          let s := fabWrite b (takeEntry g) s
          { s with cores.gate := tset s.cores.gate st r, cores.taken := s.cores.taken ++ [{ g with server := some core, buffer := b }] }

/-- GATE_TAKE (R372). -/
def execGateTake (core addr : Nat) (s : State) : Out := onUnit (core < 72) (gateTake core addr s)

/-- MGATE_CANCEL: M-mode code cancels calls of its core (R358, R373). -/
def execMgateCancel (core mask : Nat) (s : State) : Out :=
  onUnit (core < 72) (
    if !coreRuns core s then s
    else if (getCore core s).user then ownRow core (illegal core 0x7C1) s
    else (List.range 4).foldl (fun s i => if bitOf mask i then cancelCall core i s else s) s)

/-- The service firmware places a call's response in its take buffer (R371, log entry 28). -/
def gateAnswer (ticket : Nat) (resp : Bytes) (s : State) : State :=
  match s.cores.taken.find? (fun g => g.ticket == ticket) with
  | none => s
  | some g =>
    { fabWrite (g.buffer + 0x40) resp s with
      cores.taken := s.cores.taken.map (fun t => if t.ticket = ticket then { t with answered := true, hold := none } else t) }

/-- The services defined (R371) and the SERVICES bit that grants each (R377). -/
def gateServices : List (Nat × Nat) := [(0x001, 0), (0x010, 1), (0x011, 1), (0x012, 1), (0x020, 2), (0x021, 3)]

/-- The applet that made a call grants itself a service by its package (R371). -/
def serviceGranted (g : GateCall) (bit : Nat) (s : State) : Bool :=
  match appletIn g.core g.slot s with
  | some (_, a) => bitOf a.services bit
  | none => false

/-- The frame of a gate service: a taken call not yet answered; then the refusals of R371. -/
def gateRow (ticket svc : Nat) (f : GateCall → State → State) (s : State) : Out :=
  .next (
    match s.cores.taken.find? (fun g => g.ticket == ticket && !g.answered && g.hold.isNone && g.ctx.isNone) with
    | none => s
    | some g =>
      let no (st : Nat) : State := gateAnswer ticket (gateResp st 0 []) s
      match gateServices.find? (fun p => p.1 == g.service) with
      | none => no St.opcodeUnknown
      | some (n, bit) =>
        if n ≠ svc then s
        else if !serviceGranted g bit s then no St.functionDenied
        else if !ownerActive g.owner s then no St.ownerDenied
        else f g s)

/-- The tag the firmware's accesses for a call carry: the service core's master, class GATE_CALL, the caller's owner (R23, R372, R425). -/
def gateTag (g : GateCall) (s : State) : FabricTag :=
  let m := g.server.getD 0
  { master := m, worldU := true, priv := !(getCore m s).user, owner := g.owner, ctx := 0, opclass := 0x29, seq := 0, parityOk := true }

/-- GATE_RANDOM: all LEN bytes or none, from the port of the service core's stand (R221, R371); what the caller may not write is an address fault (log entry 66). -/
def execGateRandom (ticket : Nat) (s : State) : Out :=
  gateRow ticket 0x001 (fun g s =>
    let a := fld g.request 0 8
    let n := fld g.request 8 4
    let tg := targetOf (g.core / 9) a
    if n < 1 || 4096 < n then gateAnswer ticket (gateResp St.lengthInvalid 0 []) s
    else if !probeOk (gateTag g s) tg a n true s then
      gateAnswer ticket (gateResp St.gatherFault 0 []) (acuRefuse tg (gateTag g s) true false 0 1 a s)
    else match takeWire (g.server.getD 0 / 9) 5 n s with
    | (some d, s) => gateAnswer ticket (gateResp 0 0 (leBytes 4 n)) (fabWrite (fabAddr tg a) d s)
    | (none, s) => s) s

/-- A gate call that changes the store: its refusals, and the wait while no entry can be journalled (R80, R258, R541). -/
def gateStore (ticket : Nat) (f : State → State) (s : State) : State :=
  match storeRefuse s with
  | some st => gateAnswer ticket (gateResp st 0 []) s
  | none =>
    if storeStopped s then gateAnswer ticket (gateResp St.storeWorn 0 []) s
    else if canChange s then f s else s

/-- The response, held for the commit that covers it when DURABLE (R79). -/
def gateDurable (ticket : Nat) (durable : Bool) (body : Bytes) (s : State) : State :=
  if durable then
    let seq := lastSeq s
    let s := { s with cores.taken := s.cores.taken.map (fun g => if g.ticket = ticket then { g with hold := some (seq, gateResp 0 St.durable body) } else g) }
    wantCommit false seq s
  else gateAnswer ticket (gateResp 0 0 body) s

/-- GATE_COUNTER_CREATE (R85, R371). -/
def execGateCounterCreate (ticket : Nat) (s : State) : Out :=
  gateRow ticket 0x010 (fun g s =>
    let fl := fld g.request 0 4
    gateStore ticket (fun s =>
      match (if bitOf fl 0 && usablePages s < 64 then some St.storeWorn else counterRoom g.owner s) with
      | some st => gateAnswer ticket (gateResp st 0 []) s
      | none => let (n, s) := newCounter g.owner s; gateDurable ticket (bitOf fl 0) (leBytes 4 n) s) s) s

/-- GATE_COUNTER_INC (R86, R371). -/
def execGateCounterInc (ticket : Nat) (s : State) : Out :=
  gateRow ticket 0x011 (fun g s =>
    let n := fld g.request 0 4
    let step := fld g.request 4 2
    let fl := fld g.request 8 4
    if step = 0 then gateAnswer ticket (gateResp St.fieldInvalid 0 []) s
    else gateStore ticket (fun s =>
      match getCounter n (some g.owner) s with
      | none => gateAnswer ticket (gateResp St.handleInvalid 0 []) s
      | some k =>
        if bitOf fl 0 && usablePages s < 64 then gateAnswer ticket (gateResp St.storeWorn 0 []) s
        else if 2 ^ 64 ≤ k.value + step then gateAnswer ticket (gateResp St.keyExhausted 0 []) s
        else match counterInc n step (bitOf fl 0) k s with
          | (some v, s) => gateDurable ticket (bitOf fl 0) (leBytes 8 v) s
          | (none, s) => s) s) s

/-- GATE_COUNTER_READ (R371). -/
def execGateCounterRead (ticket : Nat) (s : State) : Out :=
  gateRow ticket 0x012 (fun g s =>
    match storeRefuse s with
    | some st => gateAnswer ticket (gateResp st 0 []) s
    | none => match getCounter (fld g.request 0 4) (some g.owner) s with
      | none => gateAnswer ticket (gateResp St.handleInvalid 0 []) s
      | some k => gateAnswer ticket (gateResp 0 0 (leBytes 8 k.value)) s) s

/-- The classes KEY_OP accepts (R371). -/
def gateClass (k : Nat) : Bool := (0x0B ≤ k && k ≤ 0x10) || (0x12 ≤ k && k ≤ 0x14)

/-- KEY_OP: the entry takes a context of the pool and runs as a queue entry does (R371). -/
def execKeyOp (ticket : Nat) (s : State) : Out :=
  gateRow ticket 0x020 (fun g s =>
    let e := padTo 64 g.request
    if !gateClass (fld e 0 1) then gateAnswer ticket (gateResp St.descriptorInvalid 0 []) s
    else match freePool s with
      | none => gateAnswer ticket (gateResp St.creditExhausted 0 []) s
      | some c =>
        let us := if fld e 4 4 = 0 then 10000000 else fld e 4 4
        let s := setCtx c { src := .gate ticket, owner := g.owner, entry := e, fenceNo := 0, deadlineAt := s.us + us } s
        let s := { s with cores.taken := s.cores.taken.map (fun t => if t.ticket = ticket then { t with ctx := some c } else t) }
        if 8 ≤ fld e 1 1 then settleFail c St.descriptorInvalid s else s) s

/-- KEY_INFO (R50, R371). -/
def execKeyInfo (ticket : Nat) (s : State) : Out :=
  gateRow ticket 0x021 (fun g s =>
    match storeRefuse s with
    | some st => gateAnswer ticket (gateResp st 0 []) s
    | none => match resolve (fld g.request 0 8) (some g.owner) s with
      | none => gateAnswer ticket (gateResp St.handleInvalid 0 []) s
      | some (_, k) => gateAnswer ticket (gateResp 0 0 (layout 16 [(0, 1, keyStateCode k.state), (1, 1, k.type), (2, 1, k.purpose), (4, 2, k.length),
          (8, 4, k.attr), (0x0C, 4, k.uses)])) s) s

end Sys2Proof.Machine
end

