-- ==== Sys2Proof/Machine/Applets.lean ====
section
/-! DEFINITION. Scrubs, core failure, spares and watchdogs (R374-R376, R528-R535), and the applet commands (R377-R383). -/

namespace Sys2Proof.Machine

/-- Contexts that a service core runs end with ENGINE_FAULT (R376, R453). -/
def coreJobsEnd (core : Nat) (s : State) : State :=
  let s := abortWhere (fun x => x.state == .running && x.core == some core) St.engineFault s
  (s.cores.taken.filter (fun g => g.server == some core && !g.cancelled && g.ctx.isNone)).foldl
    (fun s g => gateFinish g (gateResp St.engineFault 0 []) s) s

/-- The applets of a core become FAULTED, mcause all ones (R376). -/
def faultApplets (core : Nat) (s : State) : State :=
  (getCore core s).slots.foldl (fun s p =>
    endApplet p.2 .faulted 1 (modApplet p.2 (fun a => { a with mcause := BitVec.allOnes 64, mepc := 0, mtval := 0 }) s)) s

/-- The applets of a core that are alive take a state. -/
def clearApplets (core : Nat) (st : AppState) (s : State) : State := (getCore core s).slots.foldl (fun s p => endApplet p.2 st 1 s) s

/-- SERVICE 0x1E stands while a pair has no service core, and its bit clears when every pair has one again (R520, R535). -/
def checkPairs (s : State) : State :=
  if stands.any (fun st => pairUnserved st s) then serviceStands 0x1E true s else serviceClear (serviceKind 0x1E) s

/-- The spare core of a stand that still idles. -/
def spareCore (st : Nat) (s : State) : Option Nat := (standUnits st).find? (fun c => (getCore c s).state == .spare)

/-- The record of a lost core (R530, R531). -/
def coreRec (core : Nat) (lost : Bool) (s : State) : State :=
  unitRec 0x0503 [(0, 2, core), (2, 1, b2n lost)] (getCore core s).injected s

/-- A failed core that no spare replaces. -/
def coreGone (core : Nat) (lost : Bool) (s : State) : State := capRewrite (coreRec core lost s)

/-- The stand's spare is given to a failed core, or the core waits behind the replacement in progress, or is gone (R529, R530). -/
def replaceCore (core : Nat) (s : State) : State :=
  let st := core / 9
  let x := getStand st s
  if x.coreFill.isSome then setStand st { x with coreWait := x.coreWait ++ [core] } s
  else if (spareCore st s).isSome then setStand st { x with coreFill := some core, coreBoot := false } s
  else coreGone core false s

/-- Cores that waited for a replacement are handled in turn. -/
def nextCores (st : Nat) (s : State) : State :=
  let ws := (getStand st s).coreWait
  let s := ws.foldl (fun s c => replaceCore c s) (setStand st { getStand st s with coreWait := [], coreFill := none, coreBoot := false } s)
  refreshMode (checkPairs s)

/-- A core fails: ISOLATED, its applets FAULTED, its jobs ended, then its replacement (R376, R530). -/
def coreFail (src core : Nat) (inj : Bool) (s : State) : State :=
  let c := getCore core s
  if c.state == .isolated || c.state == .retired then countFault 0 s
  else
    let s := unitReport src core inj s
    if c.state == .spare then
      let x := getStand (core / 9) s
      let s := coreRec core false (setCore core { c with state := .isolated, injected := inj } s)
      let s := match x.coreFill with | some g => coreRec g false s | none => s
      nextCores (core / 9) (capRewrite s)
    else
      let s := dropClaim core (cancelPort (core / 9) core (cancelCalls core (coreJobsEnd core (faultApplets core s))))
      let s := setCore core { getCore core s with state := .isolated, pos := c.pos, injected := inj, slots := [], cur := none, notes := [], dgeHolder := none } s
      refreshMode (checkPairs (replaceCore core s))

/-- CORE_FAILURE: a register-file parity error (R376, R517 source 0x07). -/
def execCoreFailure (core : Nat) (s : State) : Out := onUnit (core < 72) (coreFail 0x07 core false s)

/-- BANK_TEST_DONE: a good bank lets the spare boot; a bad one retires the position and spares the spare (R530, R531). -/
def execBankTestDone (core : Nat) (ok : Bool) (s : State) : Out :=
  onUnit (core < 72) (
    let st := core / 9
    let x := getStand st s
    if x.coreFill ≠ some core || x.coreBoot then s
    else if ok then
      let p := (getCore core s).pos.getD (core % 9)
      setStand st { x with coreBoot := true } (zeroFab (bankAddr st p) 0x100000 s)
    else
      let s := setCore core { getCore core s with state := .retired } s
      nextCores st (coreGone core true s))

/-- SPARE_CORE_BOOT_DONE: the spare fills the position with its world, owned by none; or it is isolated and the position stays empty (R530, R532). -/
def execSpareCoreBootDone (core : Nat) (ok : Bool) (s : State) : Out :=
  onUnit (core < 72) (
    let st := core / 9
    let x := getStand st s
    match x.coreFill with
    | none => s
    | some g =>
      if (getCore core s).state != .spare || !x.coreBoot then s
      else if ok then
        let p := (getCore g s).pos.getD (g % 9)
        let s := restartIssue (· == core) (setCore core { state := .idle, pos := some p } s)
        let s := unitRec 0x0504 [(0, 2, g), (2, 2, core)] (getCore g s).injected (coreRec g false s)
        nextCores st (capRewrite s)
      else
        let s := setCore core { getCore core s with state := .isolated } s
        nextCores st (capRewrite (coreRec core false (coreRec g false s))))

/-- The owner a SCRUB write commits: none where its NONE bit (bit 20) is set (R375). -/
def nextOwner (v : Nat) : Option Nat := if bitOf v 20 then none else some (v % 2 ^ 20)

/-- SCRUB: the owner is committed and the scrub runs; a write while one runs is ignored (R374, R375). Bit 20 of the operand is NONE. -/
def execScrub (core owner : Nat) (s : State) : Out :=
  onUnit (core < 72) (
    let c := getCore core s
    if c.state == .scrubbing then setCore core { c with swrIgn := true } s
    else if !coreActive core s || !coreU core s then s
    else
      let s := clearApplets core .cleared s
      beginScrub core (setCore core { getCore core s with ctrlOwner := owner % 2 ^ 20, ctrlNone := bitOf owner 20, next := nextOwner owner } s))

/-- What steps 2 and 3 of a scrub wait for: the core's WMA command, the stand's in an ordered scrub, a save or restore of its engine (R375, R376). -/
def scrubWaits (core : Nat) (s : State) : Bool :=
  let d := getDge (dge1 core) s
  wmaOutstanding core s || ((getCore core s).ordered && !wmaIdle (core / 9) s) || (d.claim == some core && d.xfer.isSome)

/-- SCRUB_DONE: the core's WMA command and its engine's save or restore have ended; registers, bank, owner (R375). -/
def execScrubDone (core : Nat) (s : State) : Out :=
  onUnit (core < 72) (
    if (getCore core s).state != .scrubbing || scrubWaits core s then s else endScrub core s)

/-- A core's watchdog counts down from its full period again (R528). -/
def kickWatchdog (core : Nat) (s : State) : State := { s with fbk.wdAt := tset s.fbk.wdAt core s.us }

/-- A core restarts its watchdog's count; only M-mode can (R528). -/
def execWatchdogKick (core : Nat) (s : State) : Out :=
  onUnit (core < 72) (if coreRuns core s && !(getCore core s).user then kickWatchdog core s else s)

/-- The Warden scrubs and restarts a service core; with a command at a multiplier the scrub's end waits for it (R375, R453, R528). -/
def restartService (core : Nat) (s : State) : State :=
  let s := beginScrub core (coreJobsEnd core s)
  if scrubWaits core s then s else endScrub core s

/-- WATCHDOG_EXPIRY (R528). -/
def watchdogExpiry (core : Nat) (inj : Bool) (s : State) : State :=
  if (getCore core s).state == .isolated || (getCore core s).state == .retired then countFault 0 s
  else if !coreActive core s then s
  else
    let now := seconds s
    let ts := (now :: tgetD s.fbk.wdTimes core []).filter (fun t => now ≤ t + 600)
    let s := { s with fbk.wdTimes := tset s.fbk.wdTimes core ts, fbk.wdAt := tset s.fbk.wdAt core s.us }
    if 3 ≤ ts.length then coreFail 0x0F core inj s
    else
      let s := correctedReport 0x0F core inj s
      if coreU core s then
        let s := faultApplets core s
        beginScrub core (setCore core { getCore core s with ctrlNone := true, next := none } s)
      else restartService core s

/-- WATCHDOG_EXPIRY (R528). -/
def execWatchdogExpiry (core : Nat) (s : State) : Out := onUnit (core < 72) (watchdogExpiry core false s)

/-- The checks of APPLET_TRUST (R379): the handle resolves for the owner. -/
def appletTrustCheck (mb : Mb) (q : Req) (s : State) : Option Nat :=
  match ownerForKeys mb (fld q.body 0 4) s with
  | some st => some st
  | none =>
    if 3 < fld q.body 4 1 then some St.fieldInvalid
    else if fld q.body 8 8 ≠ 0 && (resolve (fld q.body 8 8) (some (fld q.body 0 4)) s).isNone then some St.handleInvalid
    else none

/-- The effect of APPLET_TRUST (R379). -/
def appletTrustRun (_ : Mb) (q : Req) (s : State) : Ans × State :=
  let k := 4 * fld q.body 0 4 + fld q.body 4 1
  let h := fld q.body 8 8
  (.reply {}, storeChange [] (fun c => { c with trust := if h = 0 then tdel c.trust k else tset c.trust k h }) s)

/-- The policy APPLET_TRUST needs: the owner's ADMIN_POLICY (R379). -/
def appletTrustDesig : Desig := fun _ q s => some ((adminOf (fld q.body 0 4) s).getD 0)

/-- APPLET_TRUST (R379). -/
def execAppletTrust (mb : Mb) (s : State) : Out := runCmd mb 0x0601 (guarded (storeCheck appletTrustCheck) appletTrustDesig (storeRun appletTrustRun)) s

/-- Bytes of a package signature (R377). -/
def pkgSigLen (alg : Nat) : Nat := if alg = 1 then 96 else 3309

/-- The header of a package obeys R377. -/
def pkgHeaderOk (b : Bytes) : Bool :=
  let kind := fld b 0x0A 1
  let alg := fld b 0x0B 1
  let code := fld b 0x20 4
  let loc := fld b 0x2C 4
  fld b 0 8 == 0x544C5050_41394C4F && fld b 8 2 == 1 && (kind == 1 || kind == 2) && (alg == 1 || alg == 2) && fld b 0x0C 4 < 2 ^ 20 &&
  (if kind = 1 then fld b 0x1E 1 ≤ 3 || fld b 0x1E 1 == 0xFF else true) && fld b 0x1F 1 == 0 &&
  4096 ≤ code && code ≤ 2 ^ 24 && code % 4096 == 0 && fld b 0x24 4 ≤ 2 ^ 26 && fld b 0x24 4 % 64 == 0 && fld b 0x28 4 ≤ 2 ^ 26 && fld b 0x28 4 % 64 == 0 &&
  4096 ≤ loc && loc ≤ 0xF0000 && loc % 4096 == 0 && fld b 0x38 4 % 64 == 0 && fld b 0x3C 4 == 0 && fld b 0x40 4 < 16 && fld b 0x44 4 < 16 &&
  fld b 0x48 184 == 0

/-- Granules of a package's region: those of its code, then those of its data (step 7 of R378, log entry 60). -/
def pkgGranules (b : Bytes) : Nat := (fld b 0x20 4 + 0xFFFF) / 0x10000 + (2 * fld b 0x24 4 + fld b 0x28 4 + 0xFFFF) / 0x10000

/-- The lowest run of n free granules (log entry 60). -/
def findGranules (n : Nat) (s : State) : Option Nat :=
  let used := s.cores.applets.map (fun p => (p.2.base, p.2.granules))
  let starts := 0 :: used.map (fun u => u.1 + u.2)
  ((starts.filter (fun a => a + n ≤ 53248 && used.all (fun u => a + n ≤ u.1 || u.1 + u.2 ≤ a))).min?)

/-- Loaded applets of an owner (R94). -/
def ownerApplets (o : Nat) (s : State) : Nat := (s.cores.applets.filter (fun p => p.2.owner == o && p.2.kind == 1)).length

/-- The signer's key of step 4: nothing for Svatum's. -/
def pkgSigner (b : Bytes) (owner : Nat) (s : State) : Except Nat Bytes :=
  let slot := fld b 0x1E 1
  if fld b 0x0A 1 = 2 || slot = 0xFF then .ok []
  else match (tget s.store.c.trust (4 * owner + slot)).bind (fun h => resolve h (some owner) s) with
    | none => .error St.handleInvalid
    | some (_, k) =>
      if k.type != (if fld b 0x0B 1 = 1 then 0x21 else 0x38) then .error St.keyTypeMismatch
      else if k.purpose != 7 then .error St.purposeDenied
      else .ok k.pub

/-- APPLET_LOAD's checks on a package, in the order of R378. -/
def pkgCheck (mb : Mb) (owner : Nat) (b : Bytes) (s : State) : Option Nat :=
  let kind := fld b 0x0A 1
  let n := 256 + fld b 0x20 4 + fld b 0x24 4
  if b.length < 256 || b.length != n + pkgSigLen (fld b 0x0B 1) || 2 ^ 25 < b.length then some St.lengthInvalid
  else if !pkgHeaderOk b then some St.fieldInvalid
  else if fld b 0x0C 4 ≠ owner || (kind == 2 && (mbIsVf mb || fld b 0x1E 1 != 0xFF || owner != 0)) || (kind == 1 && !scopeOk mb owner s) then some St.ownerDenied
  else match pkgSigner b owner s with
  | .error st => some st
  | .ok key =>
    let stmt := ("OL9APKS1".toList.map (fun c => BitVec.ofNat 8 c.toNat)) ++ List.replicate 8 0 ++ digest 3 (b.take n)
    if !Config.verdict .sign [[0x50], leBytes 1 (fld b 0x0B 1), key, stmt, b.drop n] then some St.signatureInvalid
    else if monLevel s < fld b 0x1C 2 then some St.stateConflict
    else if (kind == 1 && (match getOwner owner s with | some o => decide (o.appletQuota ≤ ownerApplets owner s) | none => true)) ||
        (findGranules (pkgGranules b) s).isNone then some St.quotaExceeded
    else none

/-- The granule words of a region: CODE where it holds code (R432, log entry 60). -/
def setGranules (base n codeLen owner : Nat) (s : State) : State :=
  { s with world.granules := (List.range n).foldl (fun t i =>
      tset t (base + i) (owner + 2 ^ 20 + 2 ^ 21 * b2n (decide (0x10000 * i < codeLen)))) s.world.granules }

/-- A checked package is placed: code, live data, BSS, kept copy (R378). -/
def loadApplet (b : Bytes) (owner base : Nat) (s : State) : Nat × State :=
  let inst := s.cores.nextInst
  let code := fld b 0x20 4
  let data := fld b 0x24 4
  let bss := fld b 0x28 4
  let a : Applet := { owner := owner, kind := fld b 0x0A 1, codeLen := code, dataLen := data, bssLen := bss, localLen := fld b 0x2C 4, entry := fld b 0x30 4
                      notifyEntry := fld b 0x34 4, notifyOffset := fld b 0x38 4, perms := fld b 0x40 4, services := fld b 0x44 4, base := base
                      granules := pkgGranules b, digest := digest 3 (b.take (256 + code + data)) }
  let s := zeroFab (codeAddr a) (0x10000 * a.granules) s
  let s := fabWrite (codeAddr a) (slice b 256 code) s
  let s := fabWrite (dataAddr a + data + bss) (slice b (256 + code) data) s
  (inst, { setGranules base a.granules code owner s with cores.applets := tset s.cores.applets inst a, cores.nextInst := inst + 1 })

/-- The effect of APPLET_LOAD (R378, R381). -/
def appletLoadRun (mb : Mb) (q : Req) (s : State) : Ans × State :=
  let owner := fld q.body 0 4
  if 2 ^ 25 < fld q.body 0x10 4 then (cmdFail St.lengthInvalid, s)
  else match blobRead mb (fld q.body 8 8) (fld q.body 0x10 4) s with
  | none => (cmdFail St.gatherFault, s)
  | some b =>
    match pkgCheck mb owner b s with
    | some st => (cmdFail st, s)
    | none =>
      if s.mode.mode = 2 && fld b 0x0A 1 = 1 then (cmdFail St.modeDenied, s)
      else
        let (inst, s) := loadApplet b owner ((findGranules (pkgGranules b) s).getD 0) s
        (.reply { body := layout 8 [(0, 4, inst)] ++ (match tget s.cores.applets inst with | some a => a.digest | none => []) }, s)

/-- APPLET_LOAD (R377, R378). -/
def execAppletLoad (mb : Mb) (s : State) : Out := runCmd mb 0x0602 appletLoadRun s

/-- The instance a command names, if its caller may act for it (R381); one that does not exist conflicts (log entry 67). -/
def appletNamed (mb : Mb) (inst : Nat) (s : State) : Except Nat Applet :=
  match tget s.cores.applets inst with
  | none => .error St.stateConflict
  | some a => if mbIsVf mb && (a.kind != 1 || mbOwner mb s != some a.owner) then .error St.ownerDenied else .ok a

/-- Bytes of the bank a core's applets may share, after the monitor's 64 KiB (R350). -/
def shareFit (core len : Nat) (s : State) : Option Nat :=
  let used := (getCore core s).slots.filterMap (fun p => (tget s.cores.applets p.2).map (fun a => (a.localBase, a.localLen)))
  let starts := 0x10000 :: used.map (fun u => u.1 + u.2)
  (starts.filter (fun a => a + len ≤ 0x100000 && used.all (fun u => a + len ≤ u.1 || u.1 + u.2 ≤ a))).min?

/-- The cores a mailbox may start applets on: all, or those of its VF's grants (R382). -/
def coreEligible (mb : Mb) (core : Nat) (s : State) : Bool :=
  match mb with
  | .pf _ _ => true
  | .vf n => (getAlloc (.vf n) s).grants.any (fun g => g.node.kind == 1 && (nodeLeaves g.node).contains (core / 9, core % 9))

/-- A glade core in service that a start may use. -/
def gladeCore (mb : Mb) (core : Nat) (s : State) : Bool :=
  let st := (getCore core s).state
  coreU core s && (st == .idle || st == .running) && coreEligible mb core s

/-- A core already of an owner, with a free slot and room. -/
def coreFits (a : Applet) (core : Nat) (s : State) : Bool :=
  let c := getCore core s
  c.owner == some a.owner && c.slots.length < 8 && (shareFit core a.localLen s).isSome

/-- An applet is started on a core: live data from the copy, BSS and local share zeroed, the argument in a0-a3 (R378, R381). -/
def startApplet (inst core : Nat) (arg : Bytes) (via : Option Fn) (s : State) : Nat × State :=
  match tget s.cores.applets inst with
  | none => (0, s)
  | some a =>
    let c := getCore core s
    let slot := ((List.range 8).find? (fun k => (tget c.slots k).isNone)).getD 0
    let lb := (shareFit core a.localLen s).getD 0x10000
    let s := zeroFab (dataAddr a) (a.dataLen + a.bssLen) s
    let s := fabWrite (dataAddr a) (memReadN s.units.fab (dataAddr a + a.dataLen + a.bssLen) a.dataLen) s
    let s := match corePos core s with | some p => zeroFab (bankAddr (core / 9) p + lb) a.localLen s | none => s
    let x := (List.range 4).map (fun i => (10 + i, BitVec.ofNat 64 (fld arg (8 * i) 8)))
    let s := modApplet inst (fun a => { a with state := .running, core := core, slot := slot, localBase := lb, exitCode := 0, mcause := 0, mepc := 0, mtval := 0, seq := 0,
                                               wait := .none, calls := [], upcall := none, upcallDue := [], via := via
                                               saved := { x := x, pc := BitVec.ofNat 64 (codeAddr a + a.entry), csr := freshCsrs } }) s
    let s := setCore core { getCore core s with slots := tset (getCore core s).slots slot inst } s
    (slot, if (getCore core s).cur.isNone && coreRuns core s then schedule core 7 s else s)

/-- The core APPLET_START uses and whether it is scrubbed first, or the refusal (R382). -/
def startCore (mb : Mb) (a : Applet) (named : Nat) (s : State) : Except Nat (Nat × Bool) :=
  let glades := (List.range 72).filter (fun c => gladeCore mb c s)
  let empty (c : Nat) : Bool := (getCore c s).slots.isEmpty
  if named = 0xFF then
    match glades.find? (fun c => coreFits a c s) with
    | some c => .ok (c, false)
    | none => match glades.find? empty with
      | some c => .ok (c, (getCore c s).owner != some a.owner)
      | none => .error St.quotaExceeded
  else if !glades.contains named then .error St.stateConflict
  else
    let c := getCore named s
    if c.owner = some a.owner then
      if 8 ≤ c.slots.length then .error St.stateConflict
      else if (shareFit named a.localLen s).isNone then .error St.quotaExceeded
      else .ok (named, false)
    else if empty named then .ok (named, true) else .error St.stateConflict

/-- The effect of APPLET_START (R380-R382). -/
def appletStartRun (mb : Mb) (q : Req) (s : State) : Ans × State :=
  let inst := fld q.body 0 4
  let named := fld q.body 4 1
  match appletNamed mb inst s with
  | .error st => (cmdFail st, s)
  | .ok a =>
    if appletAlive a then (cmdFail St.stateConflict, s)
    else if a.kind = 2 then
      let serv := (coresInService s).filter (fun c => !coreU c s)
      match (if named = 0xFF then serv.head? else serv.find? (· == named)) with
      | none => (cmdFail St.stateConflict, s)
      | some c =>
        (.reply { body := layout 3 [(0, 1, c)] },
          modApplet inst (fun a => { a with state := .running, core := c, exitCode := 0
                                            saved := { x := (List.range 4).map (fun i => (10 + i, BitVec.ofNat 64 (fld q.body (8 + 8 * i) 8))) } }) s)
    else if s.mode.mode = 2 then (cmdFail St.modeDenied, s)
    else if !ownerActive a.owner s then (cmdFail St.ownerDenied, s)
    else match startCore mb a named s with
    | .error st => (cmdFail st, s)
    | .ok (c, scrub) =>
      if scrub && scrubWaits c s then (.stay, s)
      else
        let s := if scrub then
          endScrub c (beginScrub c (setCore c { getCore c s with ctrlOwner := a.owner, ctrlNone := false, next := some a.owner } s)) else s
        let (slot, s) := startApplet inst c (slice q.body 8 32) (if mbIsVf mb then some (mbFn mb) else none) s
        (.reply { body := layout 3 [(0, 1, c), (1, 1, slot), (2, 1, b2n scrub)] }, s)

/-- APPLET_START (R381, R382). -/
def execAppletStart (mb : Mb) (s : State) : Out := runCmd mb 0x0603 appletStartRun s

/-- An applet is stopped by force; its core goes on with the next one (R382). -/
def forceStop (inst : Nat) (s : State) : State :=
  match tget s.cores.applets inst with
  | none => s
  | some a =>
    let s := endApplet inst .exited 1 s
    if a.kind = 1 && (getCore a.core s).cur.isNone && coreRuns a.core s then schedule a.core a.slot s else s

/-- The effect of APPLET_STOP: STOP_REQUEST and the grace time; at once with none (R370, R382). -/
def appletStopRun (mb : Mb) (q : Req) (s : State) : Ans × State :=
  let inst := fld q.body 0 4
  let grace := fld q.body 4 2
  match appletNamed mb inst s with
  | .error st => (cmdFail st, s)
  | .ok a =>
    if !appletAlive a then (.reply { body := layout 5 [(0, 4, a.exitCode)] }, s)
    else if grace = 0 || a.kind = 2 then
      if wmaOutstanding a.core s && (getCore a.core s).cur == some a.slot && a.kind == 1 then (.stay, s)
      else (.reply { body := layout 5 [(0, 4, a.exitCode), (4, 1, 1)] }, forceStop inst s)
    else
      let c := getCore a.core s
      let s := setCore a.core { c with notes := c.notes ++ [{ kind := .stopRequest, arg0 := grace, to_ := some inst }] } s
      (.hold (.applet inst), modApplet inst (fun a => { a with state := .stopping }) s)

/-- APPLET_STOP (R381, R382). -/
def execAppletStop (mb : Mb) (s : State) : Out := runCmd mb 0x0604 appletStopRun s

/-- APPLET_STOP_GRACE_EXPIRY: the stop is forced once the core's WMA command has ended (R382). -/
def execAppletStopGraceExpiry (inst : Nat) (s : State) : Out :=
  .next (match tget s.cores.applets inst with
    | some a => if a.state == .stopping && !(wmaOutstanding a.core s && (getCore a.core s).cur == some a.slot) then forceStop inst s else s
    | none => s)

/-- An applet's region and quota are freed, its granules zeroed first (R382, R433). -/
def unloadApplet (inst : Nat) (s : State) : State :=
  match tget s.cores.applets inst with
  | none => s
  | some a =>
    let s := zeroFab (codeAddr a) (0x10000 * a.granules) s
    { s with
      world.granules := s.world.granules.filter (fun p => p.1 < a.base || a.base + a.granules ≤ p.1)
      cores.applets := tdel s.cores.applets inst }

/-- The effect of APPLET_UNLOAD (R382). -/
def appletUnloadRun (mb : Mb) (q : Req) (s : State) : Ans × State :=
  match appletNamed mb (fld q.body 0 4) s with
  | .error st => (cmdFail st, s)
  | .ok a => if appletAlive a then (cmdFail St.stateConflict, s) else (.reply {}, unloadApplet (fld q.body 0 4) s)

/-- APPLET_UNLOAD (R381, R382). -/
def execAppletUnload (mb : Mb) (s : State) : Out := runCmd mb 0x0605 appletUnloadRun s

/-- STATE of APPLET_QUERY. -/
def appCode : AppState → Nat
  | .loaded => 0
  | .running => 1
  | .stopping => 2
  | .exited => 3
  | .faulted => 4
  | .cleared => 5

/-- APPLET_QUERY (R381). -/
def execAppletQuery (mb : Mb) (s : State) : Out :=
  runCmd mb 0x0606 (fun mb q s =>
    match appletNamed mb (fld q.body 0 4) s with
    | .error st => (cmdFail st, s)
    | .ok a => (.reply { body := layout 32 [(0, 1, appCode a.state), (1, 1, a.core), (2, 1, a.slot), (4, 4, a.exitCode), (8, 8, a.mcause.toNat),
        (0x10, 8, a.mepc.toNat), (0x18, 8, a.mtval.toNat)] }, s)) s

/-- STATE of GBL_CORE_STATUS. -/
def coreCode : CoreState → Nat
  | .idle | .spare => 0
  | .running => 1
  | .scrubbing => 2
  | .isolated | .retired => 3

/-- SLOTS: a bit per applet slot in use. -/
def slotBits (c : Core) : Nat := (c.slots.map (fun p => 2 ^ p.1)).foldl (· + ·) 0

/-- The effect of GLADE_STATUS (R381): a core that is no glade core conflicts; through a VF only a core of its owner. -/
def gladeStatusRun (mb : Mb) (q : Req) (s : State) : Ans × State :=
  let g := fld q.body 0 1
  let c := getCore g s
  if 72 ≤ g then (cmdFail St.fieldInvalid, s)
  else if mbIsVf mb && c.owner != mbOwner mb s then (cmdFail St.ownerDenied, s)
  else (.reply { body := layout 6 [(0, 4, c.owner.getD 0xFFFFFFFF), (4, 1, slotBits c), (5, 1, coreCode c.state)] }, s)

/-- GLADE_STATUS (R381). -/
def execGladeStatus (mb : Mb) (s : State) : Out := runCmd mb 0x0607 gladeStatusRun s

end Sys2Proof.Machine
end

