-- ==== Sys2Proof/Machine/Seedbank.lean ====
section
/-! DEFINITION. The Seedbank: health tests, isolation, start-up, conditioning, gauge and software ports (chapter 08). -/

namespace Sys2Proof.Machine

/-- A bank has power and clock: the Canopy's from its power-good, the early source always (R213, R215). -/
def bankLive (b : Nat) (s : State) : Bool := b == earlyBank || s.pwr.canopyGood

/-- A bank whose cells run and whose tests judge them. -/
def bankRuns (b : Nat) (s : State) : Bool :=
  let k := getBank b s
  bankLive b s && k.enable && (k.state == .starting || k.state == .delivering)

/-- STATE of SBK_STATUS. -/
def sbkCode : SbkState → Nat
  | .off => 0
  | .starting => 1
  | .delivering => 2
  | .isolated => 3
  | .retired => 4

/-- STATE bytes of the eight banks (R226). -/
def sbkStates (s : State) : Bytes := stands.map (fun b => BitVec.ofNat 8 (sbkCode (getBank b s).state))

/-- SEEDBANK_CONFIG is answered once no bank is left (R226). -/
def sbkAnswer (s : State) : State :=
  s.mbox.foldl (fun s p => deliver (mbOfKey p.1) 0x0120 (· == .seedbank) { body := sbkStates s } s) { s with units.sbkTodo := [], units.sbkNow := none }

/-- A bank that SEEDBANK_CONFIG skips (R226). -/
def bankLost (b : Nat) (s : State) : Bool := (getBank b s).state == .isolated || (getBank b s).state == .retired

/-- The next named bank is stopped, given its conditioning and started; one lost meanwhile is skipped; with none left SEEDBANK_CONFIG is answered (R226). -/
def sbkNext (s : State) : State :=
  match s.units.sbkTodo.filter (fun b => !bankLost b s) with
  | b :: r => setBank b { startBank (getBank b s) with enable := true, cond := s.units.sbkCond } { s with units.sbkTodo := r, units.sbkNow := some b }
  | [] => sbkAnswer s

/-- The reconfiguration of a bank has ended. -/
def sbkStep (b : Nat) (s : State) : State := if s.units.sbkNow = some b then sbkNext s else s

/-- A bank is isolated: what it holds is zeroised, the fault is reported and recorded; the third consecutive cold start at which that happens retires it (R210, R211). CAUSE as in SBK_STATUS. -/
def isolateBank (b cause : Nat) (inj : Bool) (s : State) : State :=
  let k := getBank b s
  let bad := if !k.failed && (k.fresh || s.start.starting) then k.badStarts + 1 else k.badStarts
  let st : SbkState := if 3 ≤ bad then .retired else .isolated
  let s := setBank b { k with state := st, cause := cause, failed := k.failed || k.badStarts < bad, badStarts := bad, part := [], cells := [] } s
  let s := unitRec 0x0506 [(0, 1, b), (1, 1, cause), (2, 1, b2n (st == .retired))] inj (unitReport 0x0C b inj s)
  sbkStep b (refreshMode s)

/-- A bank isolated or retired already is only counted (R516); the early source that fails serves the Heartwood no more (R215). -/
def bankFail (b cause : Nat) (inj : Bool) (s : State) : State :=
  if b = earlyBank then setBank b { getBank b s with state := .isolated, cause := cause, part := [], cells := [] } s
  else if bankLost b s then countFault 0 s else isolateBank b cause inj s

/-- CAUSE of a failed test: that of the test, START while the start-up test runs (R210, R212). -/
def testCause (k : Bank) (cause : Nat) : Nat := if k.state = .starting then 3 else cause

/-- Samples of the open window pass the repetition-count test and the adaptive-proportion count: what the registers keep of them, and the CAUSE of the first that fails (R207, R208). -/
def sampleBank (b : Nat) (xs : List Nat) (s : State) : Option Nat × State :=
  let k := getBank b s
  let (rs, m, f) := repetition (cellCount b) xs (cellRuns b k) (k.rctMax, none)
  let n := proportion (cellCount b) xs
  let k' := { k with cells := rs, rctMax := min 63 m, aptMax := max k.aptMax n, rctCell := f.getD k.rctCell }
  (if f.isSome then some (testCause k 1) else if aptCut ≤ n then some (testCause k 2) else none, setBank b k' s)

/-- SEEDBANK_HEALTH_FAIL: raw samples of the open window that fail a test, or parity with no sample's fault (R207, R208, R210). Samples that fail none isolate nothing. -/
def healthFail (b : Nat) (found : HealthFault) (s : State) : State :=
  if !bankRuns b s then s
  else match found with
  | .parity => bankFail b 5 false s
  | .samples xs => match sampleBank b (xs.take (windowSamples b)) s with
    | (some c, s) => bankFail b c false s
    | (none, _) => s

/-- SEEDBANK_HEALTH_FAIL (R210). -/
def execSeedbankHealthFail (bank : Nat) (found : HealthFault) (s : State) : Out := onUnit (bank ≤ 8) (healthFail bank found s)

/-- A window that passed: samples of the start-up test count, those of a delivering bank release their conditioned bits (R205, R209, R212); what waited for words looks again. -/
def windowPassed (b : Nat) (samples : List Nat) (s : State) : State :=
  let k := getBank b s
  if k.state = .starting then setBank b { k with tested := k.tested + samples.length } s
  else nonceResume (doeResume (releaseWindow b (condition (k.cond || b == earlyBank) (cellCount b) samples) s))

/-- SEEDBANK_WINDOW_CLOSE: the raw samples of a whole window are tested; a failure isolates the bank (R207-R210). -/
def windowClose (b : Nat) (samples : List Nat) (s : State) : State :=
  if !bankRuns b s || samples.length != windowSamples b then s
  else match sampleBank b samples s with
  | (some c, s) => bankFail b c false s
  | (none, s) => windowPassed b samples s

/-- SEEDBANK_WINDOW_CLOSE (R208, R209). -/
def execSeedbankWindowClose (bank : Nat) (samples : List Nat) (s : State) : Out := onUnit (bank ≤ 8) (windowClose bank samples s)

/-- The bank mean is within 20 % of the calibrated count: 32,768 without a CAL record, else as the record and the die temperature say, uninterpreted (R224, log entry 30). -/
def meanOk (b mean : Nat) (s : State) : Bool :=
  match tget s.start.cal (256 * 4 + b) with
  | none => 4 * 32768 ≤ 5 * mean && 5 * mean ≤ 6 * 32768
  | some r => Config.verdict .reading [r, leBytes 4 mean]

/-- SEEDBANK_FREQ_GATE (R224). -/
def freqGate (b : Nat) (freqs : List Nat) (s : State) : State :=
  let k := getBank b s
  if !s.pwr.canopyGood || k.state == .off || k.state == .retired || freqs.isEmpty then s
  else
    let mean := freqs.foldl (· + ·) 0 / freqs.length
    let spread := (freqs.max?.getD 0) - (freqs.min?.getD 0)
    let bad := !meanOk b mean s || 200 * spread < mean
    let s := setBank b { k with mean := min 65535 mean, spread := min 65535 spread, gated := k.gated || !bad } s
    if bankRuns b s && bad then bankFail b 4 false s else s

/-- SEEDBANK_FREQ_GATE (R224). -/
def execSeedbankFreqGate (bank : Nat) (freqs : List Nat) (s : State) : Out := onUnit (bank < 8) (freqGate bank freqs s)

/-- Samples of a start-up test (R212, R215). -/
def startupSamples : Nat := 4096

/-- Windows of the start-up test, one after another: each is tested, and counts if it passes; the CAUSE of the first that fails (R212). -/
def startupTest (b : Nat) : Nat → List Nat → State → Option Nat × State
  | 0, _, s => (none, s)
  | n + 1, xs, s =>
    match sampleBank b (xs.take (windowSamples b)) s with
    | (some c, s) => (some c, s)
    | (none, s) => startupTest b n (xs.drop (windowSamples b)) (windowPassed b (xs.take (windowSamples b)) s)

/-- With all 4,096 samples passed and, for a bank of the Canopy, its first frequency gate closed, a bank delivers (R212-R215). -/
def startupDeliver (b : Nat) (s : State) : State :=
  let k := getBank b s
  if k.tested < startupSamples || !(k.gated || b == earlyBank) then s
  else sbkStep b (refreshMode (setBank b { k with state := .delivering, cause := 0, fresh := false } s))

/-- SEEDBANK_STARTUP_DONE: the windows of the test that no row of their own has closed are tested; a failure isolates the bank, which otherwise delivers (R210, R212-R215). -/
def startupDone (b : Nat) (samples : List Nat) (s : State) : State :=
  if !bankRuns b s || (getBank b s).state != .starting then s
  else match startupTest b (samples.length / windowSamples b) samples s with
  | (some c, s) => bankFail b c false s
  | (none, s) => startupDeliver b s

/-- SEEDBANK_STARTUP_DONE (R212). -/
def execSeedbankStartupDone (bank : Nat) (samples : List Nat) (s : State) : Out := onUnit (bank ≤ 8) (startupDone bank samples s)

/-- The effect of SEEDBANK_CONFIG (R226): named banks in turn; one command at a time. -/
def seedbankConfigRun (_ : Mb) (q : Req) (s : State) : Ans × State :=
  let mask := fld q.body 0 1
  if 1 < fld q.body 1 1 then (cmdFail St.fieldInvalid, s)
  else if s.units.sbkNow.isSome then (.stay, s)
  else
    let named := stands.filter (fun b => bitOf mask b && !bankLost b s)
    if named.isEmpty then (.reply { body := sbkStates s }, s)
    else (.hold .seedbank, sbkNext { s with units.sbkTodo := named, units.sbkCond := fld q.body 1 1 == 1 })

/-- SEEDBANK_CONFIG (R226). -/
def execSeedbankConfig (mb : Mb) (s : State) : Out := runCmd mb 0x0120 seedbankConfigRun s

/-- SEEDBANK_STATUS (R226). -/
def execSeedbankStatus (mb : Mb) (s : State) : Out :=
  runCmd mb 0x0121 (fun _ _ s =>
    (.reply { body := sbkStates s ++ leBytes 1 ((stands.map (fun b => 2 ^ b * b2n (getBank b s).cond)).foldl (· + ·) 0) ++ List.replicate 7 0 ++
        (stands.map (fun b => leBytes 8 (getBank b s).outBits.toNat)).flatten }, s)) s

/-- SEEDBANK_GAUGE_UPDATE: the two figures of a bank (R227). -/
def execSeedbankGaugeUpdate (bank temp : Nat) (agePpm : Int) (s : State) : Out :=
  onUnit (bank < 8) (setBank bank { getBank bank s with temp := temp % 4096, agePpm := max (-32768) (min 32767 agePpm) } s)

/-- The address of SBK_PORT_REQ of a stand. -/
def portReqAddr (stand : Nat) : Nat := 0x0D500000 + 0x1000 * stand + 0x100

/-- A request is queued, or ignored (R220). -/
def portReq (stand : Nat) (t : FabricTag) (addr count : Nat) (s : State) : State :=
  let b := getBank stand s
  let p := portStat b t.master
  if count = 0 || 512 < count || 8 ≤ b.queue.length || p.state = 2 then setBank stand { b with port := tset b.port t.master { p with ignored := true } } s
  else
    let r : SbkReq := { master := t.master, owner := t.owner, priv := t.priv, addr := addr / 64 * 64 % 2 ^ 48, count := count }
    lowerLine (0x10 + stand) (setBank stand { b with queue := b.queue ++ [r], port := tset b.port t.master { p with state := 2, result := 0 } } s)

/-- SBK_PORT_REQ (R220). -/
def execSbkPortReq (stand master addr count : Nat) (s : State) : Out :=
  onUnit (stand < 8) (
    let a := addr / 64 * 64 % 2 ^ 48
    atPort master stand (portReqAddr stand) 8 (a + 2 ^ 48 * (count % 1024)) (fun t s => portReq stand t a count s) s)

/-- SBK_PORT_CANCEL (R222). -/
def execSbkPortCancel (stand master : Nat) (s : State) : Out :=
  onUnit (stand < 8) (atPort master stand (portReqAddr stand) 8 (2 ^ 63) (fun t s => cancelPort stand t.master s) s)

/-- The tag the port writes with: its own world, the request's OWNER and PRIV (R221). -/
def portTag (stand : Nat) (r : SbkReq) (s : State) : FabricTag :=
  let u := bitOf s.world.map.port stand
  { master := 0xB8 + stand, worldU := u, priv := r.priv, owner := r.owner, ctx := 0, opclass := if u then 0x2A else 0, seq := 0, parityOk := true }

/-- Words of a RANDOM job's next piece (R309). -/
def pieceBytes (x : Ctx) : Nat := min 4096 (x.outLen - x.delivered.length)

/-- The system engine of a link asks a stand's port for a job's next piece (R309, R424). -/
def askPiece (c : Nat) (x : Ctx) (stand master : Nat) (s : State) : State :=
  let b := getBank stand s
  let r : SbkReq := { master := master, owner := 0, priv := true, addr := 0, count := (pieceBytes x + 7) / 8, ctx := some c }
  setBank stand { b with queue := b.queue ++ [r], port := tset b.port master { portStat b master with state := 2, result := 0 } } s

/-- A destination fault of a RANDOM job: what is written stays (R284, R309). -/
def pieceFault (c : Nat) (x : Ctx) (i off : Nat) (s : State) : State :=
  let n := x.delivered.length
  settle c { status := St.gatherFault, info := if n = 0 then 0 else St.partialOutput, elem := 0x8000 + i, offset := off, done := n } s

/-- The words of a piece reach their job: they are written to its destination, and the next piece is asked for (R309, R221). -/
def pieceDone (stand : Nat) (r : SbkReq) (c : Nat) (words : Bytes) (s : State) : State :=
  match getCtx c s with
  | none => s
  | some x =>
    if x.state != .running then s
    else
      let d := words.take (pieceBytes x)
      match (if x.input.isSome then none else dataFault (fun e => elemFault (srcFn x s) e s) x.dstElems 1 0) with
      | some (i, off, before) => if before < x.delivered.length + d.length then pieceFault c x i off s else s
      | none =>
        let s := if x.input.isSome then s else (scatterFrom x.dstElems x.delivered.length d).foldl (fun s w => hostWrite w.1 w.2 s) s
        let x := { x with delivered := x.delivered ++ d }
        let s := setCtx c x s
        if x.delivered.length < x.outLen then askPiece c x stand r.master s else s

/-- A request leaves the port's queue DONE with a RESULT. -/
def portEnds (stand : Nat) (r : SbkReq) (result : Nat) (s : State) : State :=
  let b := getBank stand s
  setBank stand { b with queue := b.queue.drop 1, port := tset b.port r.master { portStat b r.master with state := 3, result := result } } s

/-- SBK_PORT_REQUEST_DONE: once the reservoir holds all the words of the oldest request they are written in one burst, or refused and discarded (R221). -/
def portDone (stand : Nat) (s : State) : State :=
  match (getBank stand s).queue with
  | [] => s
  | r :: _ =>
    match takeWire stand 5 (8 * r.count) s with
    | (none, s) => s
    | (some d, s) =>
      match r.ctx with
      | some c => pieceDone stand r c d (portEnds stand r 0 s)
      | none =>
        let t := portTag stand r s
        let tg := targetOf stand r.addr
        let ok := probeOk t tg r.addr d.length true s
        let s := if ok then fabWrite (fabAddr tg r.addr) d s else acuProbe tg s
        raiseLine (0x10 + stand) (portEnds stand r (b2n (!ok)) s)

/-- SBK_PORT_REQUEST_DONE (R221). -/
def execSbkPortRequestDone (stand : Nat) (s : State) : Out := onUnit (stand < 8) (portDone stand s)

end Sys2Proof.Machine
end

