-- ==== Sys2Proof/Machine/OpClasses.lean ====
section
/-! DEFINITION. Lookaside operation classes: the checks of an entry, its leases and where it runs (chapter 11). -/

namespace Sys2Proof.Machine

/-- The gate call a context serves. -/
def ctxCall (x : Ctx) (s : State) : Option GateCall :=
  match x.src with
  | .gate t => s.cores.taken.find? (fun g => g.ticket == t)
  | _ => none

/-- Bytes at a context's address: host memory, or for a gate call the caller's own, judged by the ACUs (R371, R372). -/
def ctxRead (x : Ctx) (s : State) (a n : Nat) : Option Bytes :=
  match ctxCall x s with
  | some g =>
    let tg := targetOf (g.core / 9) a
    if n = 0 || probeOk (gateTag g s) tg a n false s then some (memReadN s.units.fab (fabAddr tg a) n) else none
  | none => if n = 0 || hostOk (srcFn x s) a n s then some (memReadN s.host.mem a n) else none

/-- Bytes are written at a context's address. -/
def ctxWrite (x : Ctx) (w : Nat × Bytes) (s : State) : State :=
  match ctxCall x s with
  | some g => fabWrite (fabAddr (targetOf (g.core / 9) w.1) w.1) w.2 s
  | none => hostWrite w.1 w.2 s

/-- The offset in an element of the first access that faults (R284); inside the package, of the first 4 KiB piece refused. -/
def elemBad (x : Ctx) (w : Bool) (s : State) (e : Elem) : Option Nat :=
  match ctxCall x s with
  | none => elemFault (srcFn x s) e s
  | some g =>
    let tg := targetOf (g.core / 9) e.addr
    let piece (i : Nat) : Nat := max e.addr ((e.addr / 4096 + i) * 4096)
    ((List.range ((e.addr + e.len + 4095) / 4096 - e.addr / 4096)).find? (fun i =>
      let b := min (e.addr + e.len) ((e.addr / 4096 + i + 1) * 4096)
      !probeOk (gateTag g s) tg (piece i) (b - piece i) w s)).map (fun i => piece i - e.addr)

/-- A refused access of a gate call's job is captured as any other (R436). -/
def ctxRefused (x : Ctx) (w : Bool) (a : Nat) (s : State) : State :=
  match ctxCall x s with
  | some g => acuRefuse (targetOf (g.core / 9) a) (gateTag g s) w false 0 1 a s
  | none => s

/-- WMODE, SCHEME, PRF: the first CLASS byte. -/
def classSel (e : Bytes) : Nat := fld e 0x28 1

/-- SIGN and VERIFY take the source as the digest (R306). -/
def preHashed (e : Bytes) : Bool := bitOf (fld e 0x2A 1) 0

/-- The SCHEME, HASH and SFLAGS combinations allowed (R306). -/
def schemeOk (e : Bytes) : Bool :=
  let c := classSel e
  let h := fld e 0x29 1
  (1 ≤ c && c ≤ 3 && 2 ≤ h && h ≤ 4) || ((c == 4 || c == 5) && h == 0 && !preHashed e)

/-- A PIN block format (R311). -/
def pinFmtOk (f : Nat) : Bool := f == 0 || f == 1 || f == 3 || f == 4

/-- Step 2 of R295: every CLASS field holds a defined encoding (R297, R304-R306, R308, R311, R313). -/
def fieldsOk (e : Bytes) : Bool :=
  match fld e 0 1 with
  | 0x05 => bits (fld e 0x2D 1) 2 1 != 3
  | 0x08 => 1 ≤ classSel e && classSel e ≤ 7
  | 0x09 | 0x0A => 1 ≤ classSel e && classSel e ≤ 4
  | 0x0B => 1 ≤ classSel e && classSel e ≤ 5
  | 0x0C => 1 ≤ classSel e && classSel e ≤ 4
  | 0x0D | 0x0E => schemeOk e
  | 0x10 => classSel e ≤ 1
  | 0x13 => pinFmtOk (fld e 0x30 1) && pinFmtOk (fld e 0x31 1)
  | 0x14 => classSel e == 1 || classSel e == 2
  | _ => true

/-- MAC bytes of the HMAC classes: MAC_LEN, or the whole digest (R304). -/
def macLen (e : Bytes) : Nat := if fld e 0x29 1 = 0 then digestLen (classSel e) else fld e 0x29 1

/-- Bytes of a PIN block by format (R311). -/
def pinBlock (f : Nat) : Nat := if f = 4 then 16 else 8

/-- Step 3 of R295: the limits of the class on its lengths; S source bytes, D destination bytes (R130, R297, R300-R306, R308-R311, R313). -/
def lengthsOk (e : Bytes) (S D : Nat) : Bool :=
  let tag := fld e 0x2C 1
  let aad := fld e 0x28 4
  let mac := fld e 0x29 1
  let fi := fld e 0x30 1
  let fo := fld e 0x31 1
  let pan := fld e 0x32 1
  match fld e 0 1 with
  | 0x01 | 0x02 => aad ≤ S && aad ≤ 65536 && S - aad ≤ 2 ^ 36 - 32 && 12 ≤ tag && tag ≤ 16
  | 0x03 | 0x04 => 1 ≤ S && S ≤ 2 ^ 36 - 32 && 12 ≤ tag && tag ≤ 16
  | 0x05 => 1 ≤ S && S ≤ 2 ^ 36 - 16
  | 0x06 | 0x07 => S ≤ 2 ^ 36 - 16 && 8 ≤ tag && tag ≤ 16
  | 0x08 => mac == 0 && S ≤ 2 ^ 36 - 1
  | 0x09 | 0x0A => (mac == 0 || (8 ≤ mac && mac ≤ digestLen (classSel e))) && S ≤ 2 ^ 36 - 1
  | 0x0B => match classSel e with
    | 1 => 16 ≤ S && S ≤ 8192 && S % 8 == 0
    | 2 => 1 ≤ S && S ≤ 8192
    | 3 => 8 ≤ S && S ≤ 4096 && S % 4 == 0
    | 4 => 1 ≤ S
    | _ => S == 0
  | 0x0C => match classSel e with
    | 1 => 24 ≤ S && S ≤ 8200 && S % 8 == 0
    | 2 => 16 ≤ S && S ≤ 8200 && S % 8 == 0
    | 3 => 12 ≤ S && S ≤ 4100 && S % 4 == 0
    | _ => true
  | 0x0D | 0x0E => if preHashed e then S == digestLen mac else if classSel e ≤ 3 then S ≤ 2 ^ 36 - 1 else S ≤ 65536
  | 0x10 => 1 ≤ mac && mac ≤ 64 && fld e 0x2A 2 ≤ 256 && 1 ≤ fld e 0x2C 4 && fld e 0x2C 4 ≤ 1024 && S == mac + fld e 0x2A 2
  | 0x11 => 1 ≤ D && D ≤ 65536
  | 0x12 => 32 ≤ S
  | 0x13 => (if fi == 1 && fo == 1 then pan == 0 else 12 ≤ pan && pan ≤ 19) && S == pinBlock fi + pan
  | 0x14 => 4 ≤ mac && mac ≤ 8 && 1 ≤ S && S ≤ 16384
  | _ => true

/-- The parts of the AUX area a class reads (R296-R302, R304, R306, R313; log entry 70). -/
def auxParts (e : Bytes) : List (Nat × Nat) :=
  let tag := fld e 0x2C 1
  match fld e 0 1 with
  | 0x01 | 0x03 => [(0, 12)]
  | 0x02 | 0x04 => [(0, 12), (16, tag)]
  | 0x05 => [(0, 16)]
  | 0x07 => [(16, tag)]
  | 0x0A => [(0, macLen e)]
  | 0x0E => [(0, fld e 0x2C 4)]
  | 0x14 => if bitOf (fld e 0x2A 1) 0 then [(0, fld e 0x29 1)] else []
  | _ => []

/-- The AUX area as read once, or the offset of the part that faults (step 5 of R295). -/
def readAux (x : Ctx) (s : State) : Except Nat Bytes :=
  let a := fld x.entry 0x30 8
  (auxParts x.entry).foldl (fun r p =>
    match r with
    | .error o => .error o
    | .ok b => match ctxRead x s (a + p.1) p.2 with
      | none => .error p.1
      | some d => .ok (padTo p.1 b ++ d)) (.ok [])

/-- The elements of a buffer or list of an entry (R247, R283). -/
def entryList (x : Ctx) (dst : Bool) (s : State) : ListEnd :=
  let e := x.entry
  let a := fld e (if dst then 0x20 else 0x10) 8
  let n := fld e (if dst then 0x1C else 0x18) 4
  if !bitOf (fld e 1 1) (b2n dst) then .ok [{ addr := a, len := n }]
  else listCheck a n (ctxRead x s)

/-- Steps 2 to 5 of R295, made in ADMITTED; a length left to a list is judged once the list is read (R247). -/
def admitChecks (x : Ctx) (s : State) : Except (CtxOutcome × State) Ctx :=
  let e := x.entry
  let random := fld e 0 1 = 0x11
  let later := (bitOf (fld e 1 1) 0 && fld e 0x18 4 = 0 && !random) || (bitOf (fld e 1 1) 1 && fld e 0x1C 4 = 0 && random)
  let fail (st elem off : Nat) (s : State) : Except (CtxOutcome × State) Ctx := .error ({ status := st, elem := elem, offset := off }, s)
  if !fieldsOk e then fail St.fieldInvalid 0 0 s
  else if !later && !lengthsOk e (fld e 0x18 4) (fld e 0x1C 4) then fail St.lengthInvalid 0 0 s
  else match (if random then .ok [] else entryList x false s) with
  | .invalid i => fail St.listInvalid i 0 s
  | .fault i a => fail St.gatherFault i 0xFFFFFFFF (ctxRefused x false a s)
  | .ok src => match entryList x true s with
    | .invalid i => fail St.listInvalid (i + 0x8000) 0 s
    | .fault i a => fail St.gatherFault (i + 0x8000) 0xFFFFFFFF (ctxRefused x false a s)
    | .ok dst =>
      if later && !lengthsOk e (elemsLen src) (elemsLen dst) then fail St.lengthInvalid 0 0 s
      else match readAux x s with
      | .error o => fail St.gatherFault 0 o (ctxRefused x false (fld e 0x30 8 + o) s)
      | .ok aux => .ok { x with checked := true, state := .leasing, srcElems := src, dstElems := dst, aux := aux }

/-- A class that takes a key (R292). -/
def keyed (k : Nat) : Bool := k != 0x08 && k != 0x11

/-- The classes of R292 by engine. -/
def laneClass (k : Nat) : Bool := 1 ≤ k && k ≤ 7
def streamClass (k : Nat) : Bool := 8 ≤ k && k ≤ 10
def serviceClass (k : Nat) : Bool := (0x0B ≤ k && k ≤ 0x10) || (0x12 ≤ k && k ≤ 0x14)

/-- The type, and where it matters the length, that the class and its method accept (R292, R305, R306, R308, R311). -/
def typeFits (e : Bytes) (out : Bool) (k : KeyRec) : Bool :=
  let t := k.type
  let aesKey := t == 1 || t == 2
  let tdeaKey := t == 4 || t == 5
  match fld e 0 1 with
  | 0x09 | 0x0A | 0x12 => t == 3
  | 0x0B => match classSel e with
    | 1 | 2 => aesKey
    | 3 => tdeaKey
    | 4 => t == 0x10
    | _ => (t == 0x30 || t == 0x31) && bitOf k.attr attrPublic
  | 0x0C => match classSel e with
    | 1 | 2 => aesKey
    | 3 => tdeaKey
    | _ => t == 0x10 && !bitOf k.attr attrPublic
  | 0x0D | 0x0E => match classSel e with
    | 1 | 2 => t == 0x10
    | 3 => 0x20 ≤ t && t ≤ 0x22
    | 4 => t == 0x28 || t == 0x29
    | _ => t == 0x38 || t == 0x39
  | 0x0F => (0x20 ≤ t && t ≤ 0x22) || t == 0x2A || t == 0x2B || t == 0x30 || t == 0x31
  | 0x10 => prfSuits (classSel e) k
  | 0x13 => if fld e (if out then 0x31 else 0x30) 1 = 4 then aesKey else tdeaKey
  | 0x14 => t == 4
  | 0x40 | 0x41 => aesKey || tdeaKey
  | _ => aesKey

/-- The purpose the class names (R54, R292). -/
def purposeFits (e : Bytes) (out : Bool) (k : KeyRec) : Bool :=
  let p := k.purpose
  match fld e 0 1 with
  | 0x01 => p == 1
  | 0x02 => p == 2
  | 0x05 => p == 1 || p == 2
  | 0x0B | 0x0C => p == 3
  | 0x0D => p == 6
  | 0x0E => p == 7
  | 0x0F => p == 8
  | 0x10 => p == 4
  | 0x13 => if out then p == 1 else p == 2
  | 0x40 => p == 1
  | 0x41 => p == 2
  | _ => p == 5

/-- The class encrypts under the key, taking an invocation value (R71, R301). -/
def encrypts (e : Bytes) (k : KeyRec) : Bool :=
  let c := fld e 0 1
  c == 1 || c == 3 || (c == 5 && k.purpose == 1)

/-- A translation that would strip the PAN's binding (R311). -/
def pinDowngrade (e : Bytes) : Bool := fld e 0 1 == 0x13 && fld e 0x31 1 == 1 && fld e 0x30 1 != 1

/-- Bytes of a signature under a key (R306). -/
def sigLen (k : KeyRec) : Nat :=
  match k.type with
  | 0x10 => k.length / 8
  | 0x20 | 0x28 => 64
  | 0x21 => 96
  | 0x22 => 132
  | 0x29 => 114
  | 0x38 => 3309
  | _ => 4627

/-- Bytes of a peer's public value, and of the shared secret (R307). -/
def agreeLens (k : KeyRec) : Nat × Nat :=
  match k.type with
  | 0x20 => (65, 32)
  | 0x21 => (97, 48)
  | 0x22 => (133, 66)
  | 0x2A => (32, 32)
  | 0x2B => (56, 56)
  | 0x30 => (1088, 32)
  | _ => (1568, 32)

/-- CTR takes its counter block from the AUX area (R301). -/
def ctrFromAux (e : Bytes) (k : KeyRec) : Bool := !encrypts e k || ivMode k.attr == 2

/-- The width a CTR job counts in (R297, R301). -/
def ctrWidth (e : Bytes) (k : KeyRec) : Nat := if ctrFromAux e k then [32, 64, 128].getD (bits (fld e 0x2D 1) 2 1) 32 else 32

/-- A counter that would wrap within its width over the job (R131, R301). -/
def ctrWraps (x : Ctx) (k : KeyRec) : Bool :=
  let w := ctrWidth x.entry k
  let low := if ctrFromAux x.entry k then beNat (padTo 16 x.aux) % 2 ^ w else 1
  decide (2 ^ w < low + (elemsLen x.srcElems + 15) / 16)

/-- The lengths that depend on the key (R301, R305-R307; log entry 69). -/
def keyLengthOk (x : Ctx) (k : KeyRec) : Bool :=
  let e := x.entry
  let S := elemsLen x.srcElems
  match fld e 0 1 with
  | 0x05 => !ctrWraps x k
  | 0x0B => classSel e != 4 || decide (S ≤ k.length / 8 - 66)
  | 0x0C => classSel e != 4 || S == k.length / 8
  | 0x0E => fld e 0x2C 4 == sigLen k
  | 0x0F => S == (agreeLens k).1
  | 0x40 | 0x41 => 2 < k.type || (x.input.getD []).length % 16 == 0
  | _ => true

/-- Destination bytes an entry offers. -/
def destRoom (x : Ctx) : Nat := elemsLen x.dstElems

/-- Output bytes the class and key give, or the room UNWRAP asks for (step 10 of R295, R305). -/
def outNeed (x : Ctx) (k : KeyRec) : Nat :=
  let e := x.entry
  let S := elemsLen x.srcElems
  match fld e 0 1 with
  | 0x01 | 0x02 => S - fld e 0x28 4
  | 0x05 => S
  | 0x08 => digestLen (classSel e)
  | 0x09 => macLen e
  | 0x0B => match classSel e with
    | 1 => S + 8
    | 2 => kwpLen S
    | 3 => S + 4
    | 4 => k.length / 8
    | _ => (if k.type = 0x30 then 1088 else 1568) + 32
  | 0x0C => match classSel e with
    | 3 => S - 4
    | 4 => k.length / 8 - 66
    | _ => S - 8
  | 0x0D => sigLen k
  | 0x0F => (agreeLens k).2
  | 0x10 => fld e 0x2C 4
  | 0x11 => destRoom x
  | 0x12 => 80
  | 0x13 => pinBlock (fld e 0x31 1)
  | 0x14 => if bitOf (fld e 0x2A 1) 0 then 0 else fld e 0x29 1
  | _ => 0

/-- A GCM_DEC that releases plaintext before its tag verifies (R299). -/
def streamsDec (x : Ctx) : Bool := ctxClass x == 2 && (bitOf (fld x.entry 0x2D 1) 0 || decide (65536 < elemsLen x.srcElems))

/-- Steps 6 to 9 of R295 for one key of an entry (R50, R54, R70, R71, R93, R294). -/
def keyCheck (e : Bytes) (out : Bool) (k : KeyRec) : Option Nat :=
  match k.state with
  | .revoking => some St.keyStale
  | .exhausted => some St.keyExhausted
  | .active =>
    if !typeFits e out k then some St.keyTypeMismatch
    else if !purposeFits e out k || k.saBound ≠ 0 then some St.purposeDenied
    else if encrypts e k && ivMode k.attr == 2 && !bitOf k.attr attrHostIv then some St.purposeDenied
    else none

/-- The handles an entry names: KEY, then OUT_KEY (R295). -/
def entryHandles (e : Bytes) : List Nat :=
  if !keyed (fld e 0 1) then [] else if fld e 0 1 = 0x13 then [fld e 8 8, fld e 0x28 8] else [fld e 8 8]

/-- The owner whose keys a context may name: a VF's, a gate caller's or a window's own; a PF's queue, like its mailboxes, any (R50, R95, log entry 146). -/
def ctxCaller (x : Ctx) : Option Nat :=
  match x.src with
  | .queue (.pf _) _ _ => none
  | _ => some x.owner

/-- The keys of an entry that pass steps 6 to 9 of R295, each step for KEY then OUT_KEY. -/
def entryKeys (x : Ctx) (s : State) : Except Nat (List (Nat × KeyRec)) :=
  let e := x.entry
  let hs := entryHandles e
  match (if hs.isEmpty then none else storeRefuse s) with
  | some st => .error st
  | none =>
    let ks := hs.filterMap (fun h => resolve h (ctxCaller x) s)
    let stale (p : Nat × KeyRec) : Bool := p.2.state != .active
    if ks.length ≠ hs.length then .error St.handleInvalid
    else if ks.any (fun p => !ownerActive p.2.owner s) then .error St.ownerDenied
    else match ks.find? stale with
    | some p => .error (if p.2.state = .revoking then St.keyStale else St.keyExhausted)
    | none =>
      let tagged := ks.zip [false, true]
      if tagged.any (fun p => !typeFits e p.2 p.1.2) then .error St.keyTypeMismatch
      else match tagged.findSome? (fun p => keyCheck e p.2 p.1.2) with
      | some st => .error st
      | none => if pinDowngrade e then .error St.purposeDenied else .ok ks

/-- A context waits in LEASING. -/
def waitFor (c : Nat) (x : Ctx) (ws : List CtxWait) (s : State) : State := setCtx c { x with waits := ws } s

/-- During a trusted restart only keys that a lane already holds serve new jobs (R156, R257, R289). -/
def restartHolds (k : Nat) (ks : List (Nat × KeyRec)) (s : State) : Bool :=
  restarting s && (serviceClass k || ks.any (fun p => !((List.range 72).any (fun g => laneHolds g p.1 p.2.gen s))))

/-- The leases are admitted: each charges its key once and finds the key in the Sapwood or starts its load (R55, R64, R70). -/
def takeLeases (c : Nat) (x : Ctx) (ks : List (Nat × KeyRec)) (s : State) : State :=
  let s := ks.foldl (fun s p => chargeUse p.1 (useSapwood p.1 p.2 s)) s
  setCtx c { x with
    leases := ks.map (fun p => (p.1, p.2.gen)), admitted := true
    waits := (if serviceClass (ctxClass x) then [.engine] else []) ++ (ks.filter (fun p => !inSapwood p.1 p.2 s)).map (fun p => .key p.1) } s

/-- Steps 6 to 10 of R295: the leases are admitted, or wait; then the lengths the key decides and the destination (log entry 69). -/
def leaseTry (c : Nat) (x : Ctx) (s : State) : State :=
  match entryKeys x s with
  | .error st => settleFail c st (setCtx c x s)
  | .ok ks =>
    if frozen s then waitFor c x [.freeze] s
    else if restartHolds (ctxClass x) ks s then waitFor c x [.restart] s
    else if finishing s then waitFor c x [.lease] s
    else if !pinFits ks s then waitFor c x [.pinRoom] s
    else if !ks.all (fun p => useReady p.2 s) then waitFor c x [.lease] (ks.foldl (fun s p => extendUses p.1 p.2 s) s)
    else
      let k := (ks.head?.map (·.2)).getD { type := 0, owner := 0, gen := 0, length := 0, purpose := 0, slots := 0, origin := 0, createSeq := 0 }
      let s := takeLeases c { x with outLen := outNeed x k, early := ctxClass x == 1 || streamsDec x || ctxClass x == 5, unverified := streamsDec x } ks s
      if !keyLengthOk x k then settleFail c St.lengthInvalid s
      else if x.input.isNone && destRoom x < outNeed x k then settleFail c St.destTooSmall s else s

/-- A class row: the checks of an ADMITTED entry of that class, then its leases (R295). -/
def classRow (k c : Nat) (s : State) : Out :=
  onUnit (ctxOk c) (
    match getCtx c s with
    | none => s
    | some x =>
      if x.state != .admitted || ctxClass x != k then s
      else match admitChecks x s with
      | .error (o, s) => settle c o s
      | .ok x => leaseTry c x (setCtx c x s))

/-- GCM_ENC (R298). -/
def execGcmEnc (ctx : Nat) (s : State) : Out := classRow 0x01 ctx s
/-- GCM_DEC (R299). -/
def execGcmDec (ctx : Nat) (s : State) : Out := classRow 0x02 ctx s
/-- GMAC_GEN (R300). -/
def execGmacGen (ctx : Nat) (s : State) : Out := classRow 0x03 ctx s
/-- GMAC_VER (R300). -/
def execGmacVer (ctx : Nat) (s : State) : Out := classRow 0x04 ctx s
/-- CTR (R301). -/
def execCtr (ctx : Nat) (s : State) : Out := classRow 0x05 ctx s
/-- CMAC_GEN (R302). -/
def execCmacGen (ctx : Nat) (s : State) : Out := classRow 0x06 ctx s
/-- CMAC_VER (R302). -/
def execCmacVer (ctx : Nat) (s : State) : Out := classRow 0x07 ctx s
/-- HASH (R304). -/
def execHash (ctx : Nat) (s : State) : Out := classRow 0x08 ctx s
/-- HMAC_GEN (R304). -/
def execHmacGen (ctx : Nat) (s : State) : Out := classRow 0x09 ctx s
/-- HMAC_VER (R304). -/
def execHmacVer (ctx : Nat) (s : State) : Out := classRow 0x0A ctx s
/-- WRAP (R305). -/
def execWrap (ctx : Nat) (s : State) : Out := classRow 0x0B ctx s
/-- UNWRAP (R305). -/
def execUnwrap (ctx : Nat) (s : State) : Out := classRow 0x0C ctx s
/-- SIGN (R306). -/
def execSign (ctx : Nat) (s : State) : Out := classRow 0x0D ctx s
/-- VERIFY (R306). -/
def execVerify (ctx : Nat) (s : State) : Out := classRow 0x0E ctx s
/-- AGREE (R307). -/
def execAgree (ctx : Nat) (s : State) : Out := classRow 0x0F ctx s
/-- DERIVE (R308). -/
def execDerive (ctx : Nat) (s : State) : Out := classRow 0x10 ctx s
/-- RANDOM (R309). -/
def execRandom (ctx : Nat) (s : State) : Out := classRow 0x11 ctx s
/-- TALLY (R310). -/
def execTally (ctx : Nat) (s : State) : Out := classRow 0x12 ctx s
/-- PIN_XLATE (R311). -/
def execPinXlate (ctx : Nat) (s : State) : Out := classRow 0x13 ctx s
/-- LEGACY_MAC (R313). -/
def execLegacyMac (ctx : Nat) (s : State) : Out := classRow 0x14 ctx s

/-- The record of a context's n-th lease, while that generation lives. -/
def leaseKey (x : Ctx) (n : Nat) (s : State) : Option KeyRec :=
  (x.leases[n]?).bind (fun l => (tget s.store.c.keys l.1).filter (fun k => k.gen == l.2))

/-- The job needs a WMA (R193, R194). -/
def needsWma (x : Ctx) (s : State) : Bool :=
  ctxClass x == 0x12 || ((leaseKey x 0 s).any (fun k => decide (0x10 ≤ k.type ∧ k.type ≤ 0x2B)))

/-- A stand has a healthy world-T WMA. -/
def hasWmaT (st : Nat) (s : State) : Bool := [2 * st, 2 * st + 1].any (fun u => !bitOf s.world.map.wma u && !(getWma u s).isolated)

/-- A stand can take a service job (R193, R535). -/
def serviceStandOk (x : Ctx) (s : State) (st : Nat) : Bool := hasServiceCore st s && (!needsWma x s || hasWmaT st s)

/-- The service queue of a stand, oldest first: jobs that wait for a core, those that R196 runs once more among them (R193). -/
def serviceQueue (st : Nat) (s : State) : List Nat :=
  (getStand st s).service.filter (fun c => match getCtx c s with
    | some x => x.stand == some st && serviceClass (ctxClass x) && (x.state == .leasing || (x.state == .running && x.waits.contains .engine))
    | none => false)

/-- Service jobs waiting in a stand's queue (R193). -/
def serviceWaiting (st : Nat) (s : State) : Nat := (serviceQueue st s).length

/-- A job enters a stand's service queue. -/
def serviceJoin (st c : Nat) (s : State) : State := setStand st { getStand st s with service := addNew (serviceQueue st s) c } s

/-- A job leaves a stand's service queue. -/
def serviceLeave (st c : Nat) (s : State) : State := setStand st { getStand st s with service := without (getStand st s).service c } s

/-- The stand a service job is placed on: the fewest jobs waiting, at most 256 (R193). -/
def serviceStand (x : Ctx) (s : State) : Option Nat :=
  leastBy (fun st => serviceWaiting st s) ((ctxStands x s).filter (fun st => serviceStandOk x s st && decide (serviceWaiting st s < 256)))

/-- A free service core of a stand. -/
def freeServiceCore (st : Nat) (s : State) : Option Nat :=
  (activeCores st s).find? (fun g => !coreU g s && (getCore g s).state != .scrubbing && !s.ctxs.any (fun p => p.2.state == .running && p.2.core == some g))

/-- The free service core that a job may take: the oldest job of the queue takes the next one (R193). -/
def serviceGrant (st c : Nat) (s : State) : Option Nat := if (serviceQueue st s).head? = some c then freeServiceCore st s else none

/-- HUC block operations of a job; 0 for none (R142, R308, R312, R313, R626). -/
def hucWork (x : Ctx) (s : State) : Nat :=
  let e := x.entry
  let S := match x.input with | some d => d.length | none => elemsLen x.srcElems
  match fld e 0 1 with
  | 0x0B => match classSel e with
    | 1 | 2 => wrapBlocks ((S + 7) / 8)
    | 3 => wrapBlocks ((S + 3) / 4)
    | _ => 0
  | 0x0C => match classSel e with
    | 1 | 2 => wrapBlocks ((S - 8) / 8)
    | 3 => wrapBlocks ((S - 4) / 4)
    | _ => 0
  | 0x10 => if classSel e = 1 then 1 + ((fld e 0x2C 4 + 15) / 16) * ((S + 14 + 15) / 16) else 0
  | 0x13 => (if fld e 0x30 1 = 4 then 2 else 1) + (if fld e 0x31 1 = 4 then 2 else 1)
  | 0x14 => (S + 7) / 8 + 2
  | 0x40 | 0x41 => if (leaseKey x 0 s).any (fun k => k.type ≤ 2) then S / 16 else S / 8
  | _ => 0

/-- The engine starts: RUNNING (R277). -/
def runCtx (c : Nat) (x : Ctx) (s : State) : State :=
  setCtx c { x with state := .running, waits := [], bytesIn := elemsLen x.srcElems } s

/-- The source bytes of a list as they read now; a piece that faults reads as nothing. -/
def sourceBytes (x : Ctx) (s : State) : Bytes :=
  (x.srcElems.map (fun e => (ctxRead x { s with host.refused := [] } e.addr e.len).getD [])).flatten

/-- The largest job that the ingress buffer holds whole (R139). -/
def heldWhole (x : Ctx) : Bool := decide (elemsLen x.srcElems ≤ 65536)

/-- A job's source data is fetched: up to 64 KiB whole, with the first fault it meets; a larger job's first window (R139, R284). -/
def fetched (x : Ctx) (s : State) : Ctx :=
  if heldWhole x then { x with ingress := some (sourceBytes x s), srcFault := dataFault (elemBad x false s) x.srcElems 1 0 }
  else { x with ingress := some [] }

/-- A job's source data enters a stand's ingress buffer, if there is room and it is the turn of the job's function (R137, R139). -/
def takeIn (st : Nat) (x : Ctx) (s : State) : Option Ctx × State :=
  if x.ingress.isSome then (some x, s)
  else if !ingressRoom st x s then (none, s)
  else match competes x with
  | none => (some (fetched x s), s)
  | some i =>
    let (mine, s) := drrTurn st i (ingressBytes x) s
    (if mine then some (fetched x s) else none, s)

/-- The job encrypts under a key whose IVs are drawn at random (R132). -/
def drawsIv (x : Ctx) (k : KeyRec) : Bool := encrypts x.entry k && ivMode k.attr == 1

/-- A lane message begins: RUNNING on its lane, its IV drawn first where it is random (R132, R277). -/
def beginLane (c st g slot gen : Nat) (x : Ctx) (k : KeyRec) (s : State) : State :=
  startIv c st { x with lane := some g, state := .running, bytesIn := elemsLen x.srcElems } (drawsIv x k) (bindLane g slot gen x.owner false s)

/-- A lane job whose data is in the buffer goes to a lane of its stand, taking an invocation value on the way if it encrypts (R71, R74, R138, R156). -/
def laneDispatch (c st slot gen : Nat) (x : Ctx) (k : KeyRec) (s : State) : State :=
  match laneForKey st slot gen s with
  | none => waitFor c x [.engine] s
  | some g =>
    if !encrypts x.entry k then beginLane c st g slot gen x k s
    else if valuesSpent k then settleFail c St.keyExhausted s
    else match takeInvocation slot s with
    | (some v, s) => beginLane c st g slot gen { x with invocation := some v } k s
    | (none, s) => waitFor c x [.invocation] s

/-- A lane job is placed on a stand, its data enters the ingress buffer, and it goes to a lane (R137-R139, R156). -/
def startLane (c : Nat) (x : Ctx) (s : State) : State :=
  match ctxKey x, leaseKey x 0 s, (match x.stand with | some st => some st | none => placeStand x s) with
  | some (slot, gen), some k, some st =>
    let x := { x with stand := some st }
    if frozen s then waitFor c x [.freeze] s
    else if dozing st s then waitFor c x [.stand st] s
    else if !(getStand st s).lookasideEn || (getStand st s).offline then waitFor c { x with stand := none, ingress := none } [.engine] s
    else match takeIn st x s with
    | (none, s) => waitFor c x [.ingress] s
    | (some x, s) => laneDispatch c st slot gen x k s
  | _, _, _ => waitFor c x [.engine] s

/-- A digest job takes a stream slot, and its data enters the ingress buffer of the engine's stand (R139, R176, R177). -/
def startStream (c : Nat) (x : Ctx) (s : State) : State :=
  if frozen s then waitFor c x [.freeze] s
  else if streamNone x s then settleFail c St.engineFault s
  else match streamPlace x s with
  | none => waitFor c x [.engine] s
  | some g =>
    let st := g / 2
    let x := { x with stand := some st }
    if dozing st s then waitFor c x [.stand st] s
    else match takeIn st x s with
    | (none, s) => waitFor c x [.ingress] s
    | (some x, s) => streamBind g c (runCtx c x s)

/-- A job that a HUC works for reaches the HUC, in its queue or behind it; with no HUC in service it ends (R145, R536). -/
def withHuc (c st : Nat) (x : Ctx) (s : State) (go : State → State) : State :=
  if hucWork x s = 0 then go s
  else match hucFor st s with
  | none => settleFail c St.engineFault s
  | some h => hucPut h (.ctx c) (hucWork x s) (go s)

/-- The stand of a service job: the one whose queue it is in while that can still serve it, else a new placing (R193). -/
def serviceHome (x : Ctx) (s : State) : Option Nat :=
  match x.stand with
  | some st => if serviceStandOk x s st then some st else serviceStand x s
  | none => serviceStand x s

/-- A service job joins the queue of the stand it is placed on; the oldest starts on a free service core, its source data fetched (R139, R193, R392, R535). -/
def startService (c : Nat) (x : Ctx) (s : State) : State :=
  let allowed := ctxStands x s
  if restarting s then waitFor c x [.engine, .restart] s
  else if !allowed.isEmpty && !allowed.any (serviceStandOk x s) then settleFail c St.engineFault s
  else match serviceHome x s with
  | none => waitFor c { x with stand := none } [.engine] s
  | some st =>
    let x := { x with stand := some st }
    let s := serviceJoin st c (setCtx c x s)
    if dozing st s then waitFor c x [.engine, .stand st] s
    else match serviceGrant st c s with
    | none => waitFor c x [.engine] s
    | some g => match takeIn st x s with
      | (none, s) => waitFor c x [.engine, .ingress] s
      | (some x, s) => withHuc c st x s (fun s => serviceLeave st c (runCtx c { x with core := some g } s))

/-- The stand that runs an operation once more: another stand with the fewest jobs waiting, else the same one if it still can (R196, log entry 165). -/
def retryStand (x : Ctx) (s : State) : Option Nat :=
  let ok := (ctxStands x s).filter (serviceStandOk x s)
  (leastBy (fun st => serviceWaiting st s) (ok.filter (fun st => x.stand != some st))).orElse (fun _ => ok.head?)

/-- An operation to be run once more joins the queue of its new stand, or ends with ENGINE_FAULT where none remains (R196). -/
def retryJoin (c : Nat) (x : Ctx) (s : State) : State :=
  match retryStand x s with
  | some st => serviceJoin st c (setCtx c { x with waits := [.engine], stand := some st, core := none } s)
  | none => abort c St.engineFault s

/-- An operation to be run once more takes a core in its turn (R193, R196). -/
def retryTurn (c : Nat) (x : Ctx) (s : State) : State :=
  match x.stand.filter (serviceStandOk x s) with
  | none => retryJoin c x s
  | some st => match serviceGrant st c s with
    | some g => serviceLeave st c (setCtx c { x with waits := [], core := some g } s)
    | none => s

/-- The system engine that asks the ports for a context's RANDOM words: its link's (R24, R424). -/
def systemEngine (x : Ctx) (s : State) : Nat :=
  match x.src with
  | .queue fn _ _ => 0x13F + 0x40 * (pfOf s fn / 2)
  | .kcw w => match (tgetD s.kcw w {}).assign with
    | .pf p _ => 0x13F + 0x40 * (p / 2)
    | .vf n => 0x13F + 0x40 * (n / 2048)
    | .none => 0x13F
  | _ => 0x13F

/-- The port a RANDOM job is placed on: delivering, of world T, the fewest words requested (R220, R293). -/
def randomStand (x : Ctx) (s : State) : Option Nat :=
  leastBy (fun st => ((getBank st s).queue.map (·.count)).foldl (· + ·) 0)
    ((match x.src with | .kcw _ => (ctxStands x s).take 1 | _ => ctxStands x s).filter (fun st => standEntropy st s && !bitOf s.world.map.port st))

/-- A RANDOM job's first piece is asked for (R309). -/
def startRandom (c : Nat) (x : Ctx) (s : State) : State :=
  match randomStand x s with
  | none => waitFor c x [.entropy] s
  | some st =>
    let m := systemEngine x s
    let b := getBank st s
    if 8 ≤ b.queue.length || (portStat b m).state = 2 then waitFor c x [.engine] s
    else
      let x := { x with stand := some st, state := .running, waits := [] }
      askPiece c x st m (setCtx c x s)

/-- A window's cipher goes straight to its home HUC (R626). -/
def startHuc (c : Nat) (x : Ctx) (s : State) : State :=
  match x.src with
  | .kcw w => match tget s.kcw w with
    | some k => withHuc c k.stand x s (fun s => runCtx c { x with stand := some k.stand } s)
    | none => s
  | _ => s

/-- Every key of a context is at hand. -/
def keysHere (x : Ctx) (s : State) : Bool :=
  x.leases.all (fun l => match tget s.store.c.keys l.1 with | some k => k.gen == l.2 && inSapwood l.1 k s | none => false)

/-- The key loads a context still waits for are asked for again if a clear has removed them (R64, R66). -/
def askKeys (c : Nat) (x : Ctx) (s : State) : State :=
  let missing := x.leases.filter (fun l => match tget s.store.c.keys l.1 with | some k => !inSapwood l.1 k s | none => false)
  waitFor c x (missing.map (fun l => .key l.1)) { s with store.loading := missing.foldl addNew s.store.loading }

/-- A running context that waits goes on: for an engine, a lane, a core or an invocation value after a failure, or for the bits of its IV (R132, R152, R177, R196). -/
def runningWait (c : Nat) (x : Ctx) (s : State) : State :=
  if x.waits.isEmpty then s
  else if streamClass (ctxClass x) then streamAgain c x s
  else if serviceClass (ctxClass x) then retryTurn c x s
  else match x.waits.contains .entropy, x.stand with
  | true, some st => startIv c st x true s
  | _, _ => redispatch c s

/-- A LEASING context whose waits may have ended goes on (R277); a running one likewise. -/
def waitStep (c : Nat) (x : Ctx) (s : State) : State :=
  if x.state == .running then runningWait c x s
  else if x.state != .leasing then s
  else if !x.admitted then leaseTry c x s
  else if x.waits.any (fun w => match w with | .commit _ => true | _ => false) then s
  else if !keysHere x s then askKeys c x s
  else
    let k := ctxClass x
    if laneClass k then startLane c x s
    else if streamClass k then startStream c x s
    else if serviceClass k then startService c x s
    else if k = 0x11 then startRandom c x s
    else if k = 0x40 || k = 0x41 then startHuc c x s
    else s

/-- CONTEXT_WAIT_SATISFIED (R277). -/
def execContextWaitSatisfied (ctx : Nat) (s : State) : Out :=
  onUnit (ctxOk ctx) (match getCtx ctx s with | some x => waitStep ctx x s | none => s)

/-- SAPWOOD_LOAD_DONE: the cold record is verified, by its slots' MACs, counters and tree, and loaded; a failed verification is FATAL; during a trusted restart loads wait (R62, R64, R289). -/
def execSapwoodLoadDone (slot : Nat) (ok : Bool) (s : State) : Out :=
  onUnit (slot < 33554432) (
    if !s.store.loading.any (fun l => l.1 == slot) || restarting s then s
    else if ok && coldVerifies slot s then loadSapwood slot s else fatalReport 0x20 0xFFF false s)

end Sys2Proof.Machine
end

