-- ==== Sys2Proof/Machine/Engines.lean ====
section
/-! DEFINITION. What the engines compute for a running context, its end, its drain and its posting (chapters 10 and 11). -/

namespace Sys2Proof.Machine

/-- How an operation ends: its status, its output, RESULT, what goes to the AUX area, and output released unverified (R298-R313). -/
structure JobEnd where
  status : Nat := 0
  out : Bytes := []
  result : Nat := 0
  aux : Option Bytes := none
  released : Nat := 0
  deriving DecidableEq, Repr

/-- The source bytes of a job: a window's words, the ingress buffer's copy, or host memory for a job too long to be held whole (R31, R139). -/
def jobData (x : Ctx) (s : State) : Bytes :=
  match x.input, x.ingress with
  | some d, _ => d
  | none, some d => if heldWhole x then d else sourceBytes x s
  | none, none => sourceBytes x s

/-- The IV of a lane job: by the key's IV_MODE when it takes an invocation value, else the AUX record's (R71, R132, R298-R301). -/
def laneIv (x : Ctx) (k : KeyRec) : Bytes :=
  if !encrypts x.entry k || ivMode k.attr == 2 then padTo 12 x.aux
  else if ivMode k.attr == 1 then padTo 12 (x.iv.getD [])
  else beBytes 4 k.ivFixed ++ beBytes 8 (x.invocation.getD 0)

/-- The initial counter block of a CTR job (R131, R301). -/
def ctrFirst (x : Ctx) (k : KeyRec) : Bytes := if ctrFromAux x.entry k then padTo 16 x.aux else gcmJ0 (laneIv x k)

/-- The tag of the AUX record, its leading TAG_LEN bytes (R296). -/
def auxTag (x : Ctx) : Bytes := slice x.aux 16 (fld x.entry 0x2C 1)

/-- The AUX record written: block, then the tag's leading bytes, then zeros (R296). -/
def auxOut (block tag : Bytes) (n : Nat) : Bytes := padTo 16 block ++ padTo 16 (tag.take n)

/-- A verdict: OK, or TAG_MISMATCH. -/
def verdictEnd (ok : Bool) : JobEnd := if ok then {} else { status := St.tagMismatch }

/-- Payload output of the lane classes that have one. -/
def laneOut (x : Ctx) (k : KeyRec) (s : State) : Bytes :=
  let d := jobData x s
  if ctxClass x = 5 then xorBytes d (keystream (material k) (ctrFirst x k) (ctrWidth x.entry k) d.length)
  else gcmCrypt (material k) (laneIv x k) (d.drop (fld x.entry 0x28 4))

/-- A lane's result (R298-R302). -/
def laneEnd (x : Ctx) (k : KeyRec) (s : State) : JobEnd :=
  let key := material k
  let e := x.entry
  let d := jobData x s
  let a := fld e 0x28 4
  let n := fld e 0x2C 1
  let inv := x.invocation.getD 0
  let iv := laneIv x k
  match ctxClass x with
  | 1 => { out := laneOut x k s, result := inv, aux := some (auxOut (gcmJ0 iv) (gcmTag key iv (d.take a) (laneOut x k s)) n) }
  | 2 =>
    let pt := laneOut x k s
    if (gcmTag key iv (d.take a) (d.drop a)).take n = auxTag x then { out := pt }
    else if streamsDec x then
      let rel := if pt.length = 0 then 0 else (pt.length - 1) / 16 * 16
      { status := St.tagMismatch, out := pt.take rel, released := rel }
    else { status := St.tagMismatch }
  | 3 => { result := inv, aux := some (auxOut (gcmJ0 iv) (gcmTag key iv d []) n) }
  | 4 => verdictEnd ((gcmTag key iv d []).take n == auxTag x)
  | 5 => { out := laneOut x k s, result := inv, aux := if encrypts e k then some (ctrFirst x k) else none }
  | 6 => { aux := some (auxOut [] (aesCmac key d) n) }
  | _ => verdictEnd ((aesCmac key d).take n == auxTag x)

/-- A digest engine's result (R304). -/
def streamEnd (x : Ctx) (k : Option KeyRec) (s : State) : JobEnd :=
  let e := x.entry
  let d := jobData x s
  match ctxClass x, k with
  | 8, _ => let h := digest (classSel e) d; { out := h, result := h.length }
  | 9, some k => let m := (hmac (classSel e) (material k) d).take (macLen e); { out := m, result := m.length }
  | _, some k => verdictEnd ((hmac (classSel e) (material k) d).take (macLen e) == x.aux.take (macLen e))
  | _, none => { status := St.engineFault }

/-- WRAP by WMODE (R305): modes 4 and 5 take fresh bits. -/
def wrapEnd (x : Ctx) (k : KeyRec) (bits : Bytes) (s : State) : JobEnd :=
  let m := classSel x.entry
  let out := if m ≤ 3 then keyWrap m (material k) (jobData x s)
    else prim (outNeed x k) .wrap [leBytes 1 m, if bitOf k.attr attrPublic then k.pub else material k, jobData x s, bits]
  { out := out, result := out.length }

/-- An RSA-OAEP decoding: at most k - 66 bytes, none where it fails (R305). -/
def oaepOpen (k : KeyRec) (d : Bytes) : Option Bytes :=
  if Config.verdict .unwrap [material k, d] then
    some (prim (Config.prim .unwrap [[0x4C], material k, d] % (k.length / 8 - 65)) .unwrap [material k, d])
  else none

/-- UNWRAP: nothing unless the integrity check or the decoding succeeds (R305). -/
def unwrapEnd (x : Ctx) (k : KeyRec) (s : State) : JobEnd :=
  let m := classSel x.entry
  match (if m ≤ 3 then keyUnwrap m (material k) (jobData x s) else oaepOpen k (jobData x s)) with
  | some out => { out := out, result := out.length }
  | none => { status := St.unwrapFailed }

/-- What a signature is made over: the digest for schemes 1 to 3, else the message (R306). -/
def signInput (x : Ctx) (s : State) : Bytes :=
  let d := jobData x s
  if classSel x.entry ≤ 3 && !preHashed x.entry then digest (fld x.entry 0x29 1) d else d

/-- The method bytes that select a signature: scheme and hash. -/
def signSel (e : Bytes) : Bytes := leBytes 1 (classSel e) ++ leBytes 1 (fld e 0x29 1)

/-- SIGN (R194, R306): PSS salts, random nonces and hedging take fresh bits. -/
def signEnd (x : Ctx) (k : KeyRec) (bits : Bytes) (s : State) : JobEnd :=
  let c := classSel x.entry
  let det := c == 1 || c == 4 || ((c == 3 || c == 5) && bitOf (fld x.entry 0x2A 1) 1)
  let out := prim (sigLen k) .sign [signSel x.entry, leBytes 1 k.type, material k, signInput x s, if det then [] else bits]
  { out := out, result := out.length }

/-- A public point is on its curve and not at infinity (R197). -/
def pointOk (k : KeyRec) (p : Bytes) : Bool := Config.verdict .agree [leBytes 1 k.type, p]

/-- VERIFY (R197, R306). -/
def verifyEnd (x : Ctx) (k : KeyRec) (s : State) : JobEnd :=
  if 0x20 ≤ k.type && k.type ≤ 0x29 && !pointOk k k.pub then { status := St.pointInvalid }
  else if Config.verdict .sign [signSel x.entry, leBytes 1 k.type, k.pub, signInput x s, x.aux] then {}
  else { status := St.signatureInvalid }

/-- AGREE (R196, R197, R307). -/
def agreeEnd (x : Ctx) (k : KeyRec) (s : State) : JobEnd :=
  let d := jobData x s
  let out := prim (agreeLens k).2 .agree [leBytes 1 k.type, material k, d]
  let bad := if k.type ≤ 0x22 then !pointOk k d else (k.type == 0x2A || k.type == 0x2B) && out.all (· == 0)
  if bad then { status := St.pointInvalid } else { out := out, result := out.length }

/-- DERIVE: the target type and purpose bytes are zero (R57, R308). -/
def deriveEnd (x : Ctx) (k : KeyRec) (s : State) : JobEnd :=
  let e := x.entry
  let d := jobData x s
  let n := fld e 0x2C 4
  let ll := fld e 0x29 1
  { out := kdf n (classSel e) (material k) (fixedInput (d.take ll) (d.drop ll) k.owner 0 0 (8 * n)), result := n }

/-- The nibbles of a byte string, high first. -/
def nibbles (b : Bytes) : List Nat := (b.map (fun x => [x.toNat / 16, x.toNat % 16])).flatten

/-- Bytes of a list of nibbles, high first. -/
def ofNibbles : List Nat → Bytes
  | a :: b :: r => BitVec.ofNat 8 (16 * a + b) :: ofNibbles r
  | _ => []

/-- The number decimal digits spell, most significant first. -/
def decimal (ds : List Nat) : Nat := ds.foldl (fun v d => 10 * v + d) 0

/-- A packed-decimal field: its value, or none at a bad nibble (R198, R199). -/
def packed (b : Bytes) : Option Int :=
  let n := nibbles b
  let ds := n.dropLast
  let sg := n.getLast?.getD 0
  if ds.any (fun d => decide (9 < d)) || sg < 10 then none
  else some (if sg = 0xB || sg = 0xD then -(decimal ds : Int) else decimal ds)

/-- The low k decimal digits of a number as nibbles, most significant first. -/
def digits : Nat → Nat → List Nat
  | 0, _ => []
  | k + 1, v => digits k (v / 10) ++ [v % 10]

/-- A total in packed decimal: 63 digits and sign (R201). -/
def packTotal (t : Int) : Bytes := ofNibbles (digits 63 t.natAbs ++ [if t < 0 then 0xD else 0xC])

/-- Record i of a batch: amount and rate (R198). -/
def tallyRec (d : Bytes) (i : Nat) : Option (Int × Int) :=
  match packed (slice d (32 + 32 * i) 16), packed (slice d (48 + 32 * i) 8) with
  | some a, some b => some (a, b)
  | _, _ => none

/-- The first n records, or the index of the first bad one (R199). -/
def tallyRecs (d : Bytes) : Nat → Except Nat (List (Int × Int))
  | 0 => .ok []
  | n + 1 => match tallyRecs d n with
    | .error i => .error i
    | .ok rs => match tallyRec d n with
      | some r => .ok (rs ++ [r])
      | none => .error n

/-- The operands of a group's command: A = Σ a_i 2^(256 i) and B = Σ b_i 2^(256 (63 - i)) (step 2 of R200). -/
def tallyOperands (g : List (Int × Int)) : Int × Int :=
  g.zipIdx.foldl (fun p r => (p.1 + r.1.1 * 2 ^ (256 * r.2), p.2 + r.1.2 * 2 ^ (256 * (63 - r.2)))) (0, 0)

/-- The 16,384-bit accumulator after a group's command (steps 1 and 3 of R200). -/
def tallyGroup (acc : Nat) (g : List (Int × Int)) : Nat :=
  let o := tallyOperands g
  (((acc : Int) + o.1 * o.2) % 2 ^ 16384).toNat

/-- The accumulator after all groups of 64, zero records filling the last; `n` bounds their number. -/
def tallyAcc : Nat → List (Int × Int) → Nat → Nat
  | 0, _, acc => acc
  | n + 1, rs, acc => if rs.isEmpty then acc else tallyAcc n (rs.drop 64) (tallyGroup acc (rs.take 64))

/-- The total: field 63 of the accumulator, and the borrow of a negative lower part restored (step 4 of R200). -/
def tallyTotal (acc : Nat) : Int :=
  let f : Nat := acc / 2 ^ 16128
  (if 2 ^ 255 ≤ f then (f : Int) - (2 ^ 256 : Nat) else f) + (b2n (acc.testBit 16127) : Nat)

/-- TALLY (R198-R201, R310). -/
def tallyEnd (x : Ctx) (k : KeyRec) (s : State) : JobEnd :=
  let d := jobData x s
  let n := fld d 4 4
  if fld d 0 2 ≠ 1 || 31 < fld d 2 1 || 15 < fld d 3 1 then { status := St.scaleInvalid }
  else if n = 0 || 16777216 < n || d.length ≠ 32 + 32 * n then { status := St.lengthInvalid }
  else match tallyRecs d n with
  | .error i => { status := St.decimalInvalid, result := i }
  | .ok rs =>
    let r := packTotal (tallyTotal (tallyAcc n rs 0)) ++ layout 16 [(0, 1, fld d 2 1 + fld d 3 1), (4, 4, n), (8, 8, fld d 8 8)]
    { out := r ++ hmac 2 (material k) (d ++ r), result := n }

/-- The PAN nibbles that formats 0 and 3 bind (R311). -/
def panField (pan : List Nat) : List Nat :=
  let p := pan.dropLast
  let p := p.drop (p.length - 12)
  List.replicate (16 - p.length) 0 ++ p

/-- The PAN field of format 4 (R311; layout of ISO 9564-1). -/
def panField4 (pan : List Nat) : List Nat :=
  let f := (pan.length - 12) :: pan
  f ++ List.replicate (32 - f.length) 0

/-- A PIN block in clear under a key, the PAN removed (R312). -/
def pinOpen (f : Nat) (k : KeyRec) (blk : Bytes) (pan : List Nat) : List Nat :=
  let key := material k
  if f = 4 then nibbles (aesInv key (xorBytes (aesInv key blk) (ofNibbles (panField4 pan))))
  else
    let b := tdeaInv key blk
    nibbles (if f = 1 then b else xorBytes b (ofNibbles (panField pan)))

/-- The PIN digits of a clear block that passes the checks of R312. -/
def pinDigits (f : Nat) (n : List Nat) : Option (List Nat) :=
  let len := n.getD 1 0
  let pin := (n.drop 2).take len
  let fill := (n.drop (2 + len)).take (14 - len)
  let fillOk := match f with
    | 0 => fill.all (· == 0xF)
    | 3 => fill.all (fun d => decide (10 ≤ d))
    | 4 => fill.all (· == 0xA)
    | _ => true
  if n.getD 0 0 = f && 4 ≤ len && len ≤ 12 && pin.all (fun d => decide (d ≤ 9)) && fillOk then some pin else none

/-- The clear block of a PIN with its fill: fresh for formats 1, 3 and 4 (R312). -/
def pinClear (f : Nat) (pin : List Nat) (r : List Nat) : List Nat :=
  let head := [f, pin.length] ++ pin
  let m := 16 - head.length
  match f with
  | 0 => head ++ List.replicate m 0xF
  | 1 => head ++ r.take m
  | 3 => head ++ (r.take m).map (fun v => 10 + v % 6)
  | _ => head ++ List.replicate m 0xA ++ (r.drop 16).take 16

/-- A clear PIN block bound to its PAN and enciphered (R311). -/
def pinSeal (f : Nat) (k : KeyRec) (n pan : List Nat) : Bytes :=
  let key := material k
  if f = 4 then aes key (xorBytes (aes key (ofNibbles n)) (ofNibbles (panField4 pan)))
  else tdea key (if f = 1 then ofNibbles n else xorBytes (ofNibbles n) (ofNibbles (panField pan)))

/-- PIN_XLATE (R311, R312). -/
def pinEnd (x : Ctx) (kin kout : KeyRec) (bits : Bytes) (s : State) : JobEnd :=
  let e := x.entry
  let fi := fld e 0x30 1
  let fo := fld e 0x31 1
  let d := jobData x s
  let ascii := d.drop (pinBlock fi)
  let pan := ascii.map (fun b => b.toNat - 0x30)
  if ascii.any (fun b => decide (b.toNat < 0x30 ∨ 0x39 < b.toNat)) then { status := St.pinBlockInvalid }
  else match pinDigits fi (pinOpen fi kin (d.take (pinBlock fi)) pan) with
  | none => { status := St.pinBlockInvalid }
  | some pin => { out := pinSeal fo kout (pinClear fo pin (nibbles bits)) pan }

/-- ISO 9797-1 padding to whole blocks of n (R313). -/
def isoPad (n method : Nat) (d : Bytes) : Bytes :=
  let d := if method = 2 then d ++ [0x80] else d
  d ++ List.replicate ((n - d.length % n) % n) 0

/-- ISO 9797-1 MAC algorithm 3: a single-DES chain under the first half, the last block under both (R313). -/
def retailMac (key d : Bytes) : Bytes :=
  let k1 := key.take 8 ++ key.take 8
  let bs := blocksOf 8 d
  let h := bs.dropLast.foldl (fun c b => tdea k1 (xorBytes c b)) (List.replicate 8 0)
  tdea key (xorBytes h (bs.getLast?.getD []))

/-- LEGACY_MAC (R313). -/
def legacyEnd (x : Ctx) (k : KeyRec) (s : State) : JobEnd :=
  let e := x.entry
  let m := (retailMac (material k) (isoPad 8 (classSel e) (jobData x s))).take (fld e 0x29 1)
  if bitOf (fld e 0x2A 1) 0 then verdictEnd (m == x.aux.take (fld e 0x29 1)) else { out := m, result := m.length }

/-- The block ciphers of a window command: ECB or CBC with the IV in the AUX bytes (R626). -/
def windowCipher (x : Ctx) (k : KeyRec) (s : State) : JobEnd :=
  let n := if k.type ≤ 2 then 16 else 8
  let key := material k
  let cbc := fld x.entry 1 1 = 1
  let bs := blocksOf n (jobData x s)
  let enc (b : Bytes) : Bytes := if n = 16 then aes key b else tdea key b
  let dec (b : Bytes) : Bytes := if n = 16 then aesInv key b else tdeaInv key b
  let step (p : Bytes × Bytes) (b : Bytes) : Bytes × Bytes :=
    if ctxClass x = 0x40 then
      let o := enc (if cbc then xorBytes b p.1 else b)
      (o, p.2 ++ o)
    else (b, p.2 ++ (let o := dec b; if cbc then xorBytes o p.1 else o))
  { out := (bs.foldl step (x.aux.take n, [])).2 }

/-- The result of a running context's operation, with the random bits it has drawn. -/
def jobEnd (x : Ctx) (bits : Bytes) (s : State) : JobEnd :=
  let c := ctxClass x
  match leaseKey x 0 s with
  | none => if c = 8 then streamEnd x none s else if c = 0x11 then { result := x.delivered.length } else { status := St.keyRevoked }
  | some k =>
    if laneClass c then laneEnd x k s
    else if streamClass c then streamEnd x (some k) s
    else match c with
    | 0x0B => wrapEnd x k bits s
    | 0x0C => unwrapEnd x k s
    | 0x0D => signEnd x k bits s
    | 0x0E => verifyEnd x k s
    | 0x0F => agreeEnd x k s
    | 0x10 => deriveEnd x k s
    | 0x12 => tallyEnd x k s
    | 0x13 => match leaseKey x 1 s with
      | some ko => pinEnd x k ko bits s
      | none => { status := St.keyRevoked }
    | 0x14 => legacyEnd x k s
    | _ => windowCipher x k s

/-- Bytes of random bits that a service operation draws from its stand's software port: encapsulations, blinding, nonces, salts, PIN fill (R196, R305, R306, R312; the amounts are the model's choice, log entry 166). -/
def needBits (x : Ctx) (s : State) : Nat :=
  match leaseKey x 0 s with
  | none => 0
  | some k =>
    match ctxClass x with
    | 0x0B => if 4 ≤ classSel x.entry then 32 else 0
    | 0x0C => if 4 ≤ classSel x.entry then 64 else 0
    | 0x0D => 64
    | 0x0F => if k.type < 0x30 then 64 else 0
    | 0x13 => if fld x.entry 0x31 1 = 0 then 0 else 16
    | _ => 0

/-- A service operation's draw from the software port of its stand; none needed, none taken (R196, R221). -/
def drawBits (x : Ctx) (s : State) : Option Bytes × State :=
  if needBits x s = 0 then (some [], s) else takeWire (x.stand.getD 0) 5 (needBits x s) s

/-- The bits a running context needs have not come (R132, R196, R309). -/
def starved (x : Ctx) (s : State) : Bool :=
  if ctxClass x = 0x11 then
    decide (x.delivered.length < x.outLen) && ((getFeed (x.stand.getD 0) 5 s).bytes (8 * ((pieceBytes x + 7) / 8))).isNone
  else x.waits.contains .entropy || (x.waits.isEmpty && (drawBits x s).1.isNone)

/-- INFO flags of how a job ran (R290). -/
def runInfo (x : Ctx) : Nat := (if x.redispatched then St.redispatched else 0) + if x.retried then St.retried else 0

/-- An address fault ends a running job (R284, R285, R314): `before` bytes of the list came before it. -/
def faultEnd (c : Nat) (x : Ctx) (dst : Bool) (elem off before : Nat) (s : State) : State :=
  let a := if ctxClass x ≤ 2 then fld x.entry 0x28 4 else 0
  let done :=
    if !x.early then 0
    else let n := min x.outLen (if dst then before else before - a); if n = x.outLen then n else n / 16 * 16
  settle c { status := St.gatherFault, info := partialInfo x done, elem := elem + (if dst then 0x8000 else 0), offset := off, done := done,
             result := if ctxClass x = 0x11 then x.delivered.length else x.invocation.getD 0 } (setCtx c { x with released := done, bytesIn := if dst then x.bytesIn else min x.bytesIn before } s)

/-- The first fault a job's data meets: in its source, then in the part of its destination that its output takes (R284). -/
def jobFault (x : Ctx) (outLen : Nat) (s : State) : Option (Bool × Nat × Nat × Nat) :=
  if x.input.isSome || ctxClass x = 0x11 then none
  else match (if x.ingress.isSome && heldWhole x then x.srcFault else dataFault (elemBad x false s) x.srcElems 1 0) with
  | some (i, off, before) => some (false, i, off, before)
  | none => match dataFault (elemBad x true s) x.dstElems 1 0 with
    | some (i, off, before) => if before < outLen then some (true, i, off, before) else none
    | none => none

/-- The multiplier that a stand's service firmware uses: the lowest of world T in service (R189, R191). -/
def serviceWma (st : Nat) (s : State) : Option Nat := [2 * st, 2 * st + 1].find? (fun u => !bitOf s.world.map.wma u && !(getWma u s).isolated)

/-- The digest engine that a stand's service firmware uses: the lowest of world T in service (R194, R201). -/
def serviceDge (st : Nat) (s : State) : Option Nat := [2 * st, 2 * st + 1].find? (fun g => !bitOf s.world.map.dge g && !(getDge g s).isolated)

/-- Commands of a service operation are counted in a multiplier: their number and cycles (WMA_CMDS, WMA_BUSY_CYCLES). -/
def addWma (st n cycles : Nat) (s : State) : State :=
  match serviceWma st s with
  | none => s
  | some u => let w := getWma u s; setWma u { w with done := w.done + BitVec.ofNat 64 n, busy := w.busy + BitVec.ofNat 64 cycles } s

/-- Messages and blocks are counted in a digest engine (DGE_MSGS, DGE_BLOCKS). -/
def addDge (g msgs blocks : Nat) (s : State) : State :=
  let d := getDge g s
  setDge g { d with msgs := d.msgs + BitVec.ofNat 64 msgs, blocks := d.blocks + BitVec.ofNat 64 blocks } s

/-- The same of the engine a service operation uses. -/
def addServiceDge (st msgs blocks : Nat) (s : State) : State := match serviceDge st s with | some g => addDge g msgs blocks s | none => s

/-- Cycles of a command of 256-word operands (R186, R202). -/
def tallyCycles : Nat := 4240

/-- What a TALLY that ran to its own end cost: a command for each group up to a bad record, and its HMAC where it made one (R200-R202). -/
def countTally (st : Nat) (x : Ctx) (r : JobEnd) (s : State) : State :=
  let d := jobData x s
  let groups := if r.status = 0 then (fld d 4 4 + 63) / 64 else r.result / 64
  let s := addWma st groups (tallyCycles * groups) s
  if r.status = 0 then addServiceDge st 1 (streamBlocks 2 (d.length + 48) ((leaseKey x 0 s).map (fun k => (material k).length))) s else s

/-- What another service operation, or one cut short, has cost its stand's units: the spec gives the engines of each family and no counts, free numbers (R194). -/
def countFree (st : Nat) (x : Ctx) (s : State) : State :=
  let (a, s) := draw s
  let (b, s) := draw s
  let (m, s) := draw s
  let (k, s) := draw s
  let s := if needsWma x s then addWma st a b s else s
  if needsWma x s || (leaseKey x 0 s).any (fun k => decide (0x30 ≤ k.type)) then addServiceDge st m k s else s

/-- A service operation that ran to its own end is counted in its stand's units (R194, R200). -/
def countService (x : Ctx) (r : JobEnd) (s : State) : State :=
  match x.core, x.stand with
  | some _, some st => if ctxClass x = 0x12 then countTally st x r s else countFree st x s
  | _, _ => s

/-- A run cut short of a service operation. -/
def cutService (x : Ctx) (s : State) : State :=
  match x.core, x.stand with
  | some _, some st => countFree st x s
  | _, _ => s

/-- A streamed job's blocks are counted in its engine: all, with its message, or those a cut run had compressed, a free number below (R160, R177). -/
def countStream (c : Nat) (x : Ctx) (whole : Bool) (s : State) : State :=
  match streamOn c s with
  | none => s
  | some g =>
    let n := streamBlocks (classSel x.entry) (elemsLen x.srcElems) ((leaseKey x 0 s).map (fun k => (material k).length))
    let s := streamDrop c s
    if whole then addDge g 1 n s
    else
      let (v, s) := draw s
      addDge g 0 (v % n) s

/-- What a job that ran to its own end is counted as, in the unit that ran it (R133, R146, R160, R194). -/
def countUnit (c : Nat) (x : Ctx) (r : JobEnd) (s : State) : State :=
  match x.lane with
  | some g => countPorts g (lanePorts x).1 (lanePorts x).2 s
  | none => if streamClass (ctxClass x) then countStream c x true s else if serviceClass (ctxClass x) then countService x r s else s

/-- The completion of an operation whose data met no fault: its outcome, with the writes that DRAINING will issue (R277, R278). -/
def jobSettle (c : Nat) (x : Ctx) (r : JobEnd) (s : State) : State :=
  let outWrites := if x.input.isSome || ctxClass x = 0x11 then [] else scatterFrom x.dstElems 0 r.out
  let a := fld x.entry 0x30 8
  let done := if ctxClass x = 0x11 then x.delivered.length else r.out.length
  if r.status ≠ 0 then
    let info := if r.released = 0 then 0 else St.partialOutput
    let info := if streamsDec x && r.status = St.tagMismatch then info + St.unverified else info
    settle c { status := r.status, info := info + runInfo x, done := r.released, result := r.result } (setCtx c { x with writes := outWrites } s)
  else match r.aux with
  | some b =>
    if hostOk (srcFn x s) a b.length s then
      settle c { info := runInfo x, done := done, result := r.result } (setCtx c { x with writes := outWrites ++ [(a, b)] } s)
    else
      settle c { status := St.gatherFault, info := (if done = 0 then 0 else St.partialOutput) + runInfo x, done := done, result := x.invocation.getD 0 }
        (setCtx c { x with writes := outWrites } s)
  | none => settle c { info := runInfo x, done := done, result := r.result }
      (setCtx c { x with writes := outWrites, delivered := if x.input.isSome && ctxClass x ≠ 0x11 then r.out else x.delivered } s)

/-- The operation's own end (R277, R278): a fault its data met, or its completion, counted in its unit. -/
def finalEnd (c : Nat) (x : Ctx) (bits : Bytes) (s : State) : State :=
  let r := jobEnd x bits s
  match jobFault x r.out.length s with
  | some (dst, i, off, before) =>
    let addr := ((if dst then x.dstElems else x.srcElems)[i - 1]?.map (·.addr)).getD 0 + off
    faultEnd c x dst i off before (ctxRefused x dst addr s)
  | none => jobSettle c { x with lane := none, core := none } r (countUnit c x r s)

/-- A private operation's check failed, or its WMA command did: once more, on another stand where one is allowed, then ENGINE_FAULT (R196). -/
def serviceRetry (c : Nat) (x : Ctx) (check : Bool) (s : State) : State :=
  let s := hucDrop (.ctx c) (cutService x s)
  if !x.retried then retryJoin c { x with retried := true } s
  else
    let s := abort c St.engineFault (setCtx c { x with core := none } s)
    if check then serviceReport 0x19 0xFFF false s else s

/-- A job whose operation has a check of its own (R196). -/
def hasCheck (x : Ctx) (s : State) : Bool :=
  match leaseKey x 0 s with
  | some k => (ctxClass x == 0x0D) || (ctxClass x == 0x0F && decide (k.type < 0x30)) || (ctxClass x == 0x0C && k.type == 0x10)
  | none => false

/-- A running context's engine stops before its end with a unit failure (rank 6 of R278). -/
def unitLoss (c : Nat) (x : Ctx) (s : State) : State :=
  let k := ctxClass x
  if laneClass k then (if x.lane.isSome then laneLost c x s else s)
  else if streamClass k then (match streamOn c s with | some g => streamLost g c (countStream c x false s) | none => s)
  else if serviceClass k && needsWma x s && x.waits.isEmpty then serviceRetry c x false s
  else s

/-- An engine may not end a message yet: it waits, its HUC works, its lane is SUSPECT, its engine saves or restores, or RANDOM's pieces are not all there (R147, R148, R175, R309). -/
def notEnded (c : Nat) (x : Ctx) (s : State) : Bool :=
  !x.waits.isEmpty || hucBusy (.ctx c) s || x.lane.any (fun g => (getLane g s).state == .suspect) || (streamOn c s).any (fun g => (getDge g s).xfer.isSome) ||
  (ctxClass x == 0x11 && decide (x.delivered.length < x.outLen))

/-- What an engine reports of a context (R278, R284, R196). -/
def engineStep (c : Nat) (x : Ctx) (e : EngineResult) (s : State) : State :=
  if x.state != .running then s
  else match e with
  | .final =>
    if notEnded c x s then s
    else match drawBits x s with
    | (some d, s) => finalEnd c x d s
    | (none, s) => s
  | .unitFailure => unitLoss c x s
  | .checkFailed => if hasCheck x s && x.waits.isEmpty && !hucBusy (.ctx c) s then serviceRetry c x true s else s
  | .addressFault dst i off =>
    let l := if dst then x.dstElems else x.srcElems
    match l[i - 1]? with
    | none => s
    | some el => if i = 0 || el.len ≤ off || x.input.isSome || (x.ingress.isSome && heldWhole x && !dst) then s else faultEnd c x dst i off (elemsLen (l.take (i - 1)) + off) s

/-- ENGINE_END (R278). -/
def execEngineEnd (ctx : Nat) (e : EngineResult) (s : State) : Out :=
  onUnit (ctxOk ctx) (match getCtx ctx s with | some x => engineStep ctx x e s | none => s)

/-- Output released before an end that is not OK stands in the destination; what lies beyond it, up to the output length, is undefined (R279, R314, R315). -/
def earlyWrites (x : Ctx) (s : State) : List (Nat × Bytes) × State :=
  match leaseKey x 0 s with
  | none => ([], s)
  | some k =>
    if !x.early || !x.writes.isEmpty || (x.outcome.map (·.status)) == some 0 || x.bytesIn = 0 || x.input.isSome then ([], s)
    else
      let (r, s) := drawBytes (x.outLen - x.released) s
      ((scatterFrom x.dstElems 0 ((laneOut x k s).take x.released ++ r)).filter (fun w => (ctxRead x s w.1 w.2.length).isSome), s)

/-- A job's request at a Seedbank port is withdrawn (R222). -/
def pieceCancel (c : Nat) (s : State) : State :=
  stands.foldl (fun s st => match (getBank st s).queue.find? (fun r => r.ctx == some c) with
    | some r => cancelPort st r.master s
    | none => s) s

/-- Engines stop, key material is overwritten, output writes are issued, leases are released (R277, R279). -/
def drainCtx (c : Nat) (x : Ctx) (s : State) : State :=
  let (ws, s) := if (x.outcome.map (·.status)) != some St.tagMismatch then earlyWrites x s else ([], s)
  let s := (ws ++ x.writes).foldl (fun s w => ctxWrite x w s) s
  let s := hucDrop (.ctx c) (countStream c x false (cutService x s))
  let s := pieceCancel c s
  setCtx c { x with leases := [], lane := none, core := none, stand := none, ingress := none, writes := [], waits := [] } s

/-- CONTEXT_DRAINED: DRAINING goes to POSTING, once its function is in D0 to take the output writes; VOIDED goes to FREE (R277, R578). -/
def execContextDrained (ctx : Nat) (s : State) : Out :=
  onUnit (ctxOk ctx) (
    match getCtx ctx s with
    | none => s
    | some x =>
      if x.state == .draining then
        if (match x.src with | .queue fn _ _ => inD3 fn s | _ => false) then s
        else
        let s := drainCtx ctx x s
        match getCtx ctx s with | some x => setCtx ctx { x with state := .posting } s | none => s
      else if x.state == .voided then freeCtx ctx false (drainCtx ctx x s)
      else s)

/-- The wait of a context that needs random bits runs out (R132, R196, R309). -/
def entropyEnd (c : Nat) (x : Ctx) (s : State) : State :=
  if x.state == .running && starved x s || (ctxClass x == 0x11 && x.state == .leasing && x.waits.contains .entropy && (randomStand x s).isNone) then
    if ctxClass x = 0x11 then
      let n := x.delivered.length
      settle c { status := St.entropyUnavailable, info := if n = 0 then 0 else St.partialOutput, done := n, result := n } s
    else settle c { status := St.entropyUnavailable, result := x.invocation.getD 0 } s
  else s

end Sys2Proof.Machine
end

