-- ==== Sys2Proof/Machine/Kcw.lean ====
section
/-! DEFINITION. Knarox compatibility windows (chapter 23), and the posting of completions. -/

namespace Sys2Proof.Machine

/-- A window's state; one never assigned is at reset. -/
def getKcw (w : Nat) (s : State) : Kcw := tgetD s.kcw w {}

/-- Replace a window's state. -/
def setKcw (w : Nat) (k : Kcw) (s : State) : State := { s with kcw := tset s.kcw w k }

/-- A window is live for its PF or VF (R619). -/
def kcwLive (k : Kcw) : Bool := k.assign != .none

/-- The owner of a window (R619). -/
def kcwOwner (k : Kcw) (s : State) : Option Nat :=
  match k.assign with
  | .none => none
  | .pf _ o => some o
  | .vf n => (getAlloc (.vf n) s).owner

/-- The function a window is live for. -/
def kcwFn (k : Kcw) : Option Fn :=
  match k.assign with
  | .none => none
  | .pf p _ => some (.pf p)
  | .vf n => some (.vf n)

/-- KSTAT by device code (R628); for a code the table does not list, a free value that is not OK (log entry 76). -/
def kstatOf (code : Nat) (s : State) : Nat × State :=
  let known : List (Nat × Nat) :=
    [(0, 0), (St.opcodeUnknown, 1), (St.fieldInvalid, 1), (St.lengthInvalid, 3), (St.handleInvalid, 4), (St.keyStale, 4), (St.keyRevoked, 4),
     (St.keyTypeMismatch, 5), (St.keyExhausted, 6), (St.purposeDenied, 7), (St.tagMismatch, 8), (St.pinBlockInvalid, 9), (St.timeout, 0x0C),
     (St.engineFault, 0x0C), (St.deviceRestarting, 0x0C), (St.entropyUnavailable, 0x0D), (St.modeDenied, 0x0E), (St.ownerDenied, 0x0E)]
  match known.find? (fun p => p.1 == code) with
  | some p => (p.2, s)
  | none => let (v, s) := draw s; (1 + v % 255, s)

/-- Words of a byte string in Knarox 2 order (R623). -/
def kcwBytes (ws : List Word) (n : Nat) : Bytes := ((ws.map (fun w => beBytes 4 w.toNat)).flatten).take n

/-- The bytes of the captured IV words. -/
def kcwIv (k : Kcw) (n : Nat) : Bytes := kcwBytes ((List.range 4).map (fun i => tgetD k.capIv i 0)) n

/-- A command ends: the result is written and BUSY clears in one update; an overrun discards it (R624, R627, R628). -/
def kcwFinish (w code kstat : Nat) (result : Bytes) (iv : Tab Word) (s : State) : State :=
  let k := getKcw w s
  let (code, kstat, result, iv) := if k.overrun then (St.fieldInvalid, 0x0A, [], k.iv) else (code, kstat, result, iv)
  setKcw w { k with
    phase := .idle, drq := false, done := true, error := kstat != 0, kstat := kstat, code := code, rlen := result.length, rbuf := result, iv := iv
    ctx := none } s

/-- A command ends with a device code and no result. -/
def kcwFail (w code : Nat) (s : State) : State := let (ks, s) := kstatOf code s; kcwFinish w code ks [] (getKcw w s).iv s

/-- A command ends with OK. -/
def kcwOk (w : Nat) (result : Bytes) (s : State) : State := kcwFinish w 0 0 result (getKcw w s).iv s

/-- The functions of R626, and those of R632. -/
def kcwFuncs : List Nat := [0x01, 0x10, 0x11, 0x12, 0x13, 0x18, 0x28, 0x2C, 0x2D]
def kcwGone : List Nat := [0x20, 0x21, 0x22, 0x23, 0x24, 0x30]

/-- FUNC of the captured command. -/
def kcwFunc (k : Kcw) : Nat := k.cmd.toNat % 256

/-- A KCW_CMD write: ignored while BUSY, dropped in QUARANTINE; else the command is captured, and an undefined FUNC ends at once (R624, R625, R628, R631). -/
def kcwCmd (w : Nat) (value : Word) (s : State) : State :=
  let k := getKcw w s
  if s.mode.mode = 8 then s
  else if k.phase ≠ .idle then setKcw w { k with swrIgn := true } s
  else
    let takes := k.len != 0 && kcwFuncs.contains (value.toNat % 256) && value.toNat % 256 != 0x28
    let s := setKcw w { k with
      phase := if takes then .input else .wait, cmd := value, capLen := k.len, capKey := k.keyno, capKey2 := k.keyno2, capIv := k.iv, words := []
      done := false, error := false, overrun := false, kstat := 0, code := 0, rlen := 0, rbuf := [], drq := takes } s
    if kcwFuncs.contains (value.toNat % 256) || kcwGone.contains (value.toNat % 256) then s
    else kcwFinish w St.opcodeUnknown 1 [] k.iv s

/-- KCW_DATA: the word is taken while DRQ reads 1, else dropped with OVERRUN, and a command waiting to run ends (step 3 of R624). -/
def kcwData (w : Nat) (value : Word) (s : State) : State :=
  let k := getKcw w s
  if !kcwLive k then s
  else if k.drq then
    let ws := k.words ++ [value]
    let all := decide (k.capLen ≤ 4 * ws.length)
    setKcw w { k with words := ws, drq := !all, phase := if all then .wait else .input } s
  else
    let s := setKcw w { k with overrun := true, errcnt := satInc 65535 k.errcnt } s
    if k.phase = .wait then kcwFail w 0 s else s

/-- KCW_DATA (R624). -/
def execKcwData (w : Nat) (value : Word) (s : State) : Out := onUnit (w < 16) (kcwData w value s)

/-- The frame of a window function: the input is complete, the mode admits it and a context of the pool is free (R624, R625, R631). -/
def kcwRow (w func : Nat) (f : Kcw → Nat → State → State) (s : State) : Out :=
  onUnit (w < 16) (
    let k := getKcw w s
    if k.phase ≠ .wait || kcwFunc k ≠ func || s.mode.mode = 8 then s
    else if !queuesEnabled s then kcwFail w St.modeDenied s
    else match freePool s with
    | none => s
    | some c => f k c s)

/-- The handle of a map entry whose key has a purpose; 0 if none (R629). -/
def kcwHandle (k : Kcw) (keyno purpose : Nat) (s : State) : Nat :=
  match tget k.map keyno with
  | none => 0
  | some e => (([e.first.toNat, e.second.toNat].find? (fun h => ((resolve h (kcwOwner k s) s).map (fun p => p.2.purpose)) == some purpose))).getD 0

/-- A window command's context: its input stands in for the source, its deadline is 1,000 ms (R625). -/
def kcwStart (w c : Nat) (k : Kcw) (entry aux input : Bytes) (want : Nat) (s : State) : State :=
  let x : Ctx := { src := .kcw w, owner := (kcwOwner k s).getD 0, entry := padTo 64 entry, deadlineAt := s.us + 1000000, checked := true, state := .leasing
                   input := some input, aux := aux, dstElems := if want = 0 then [] else [{ addr := 0, len := want }] }
  leaseTry c x (setCtx c x (setKcw w { k with phase := .running, ctx := some c } s))

/-- A submission entry that stands for a window command. -/
def kcwEntry (cls q key : Nat) (rest : List (Nat × Nat × Nat)) : Bytes := layout 64 ([(0, 1, cls), (1, 1, q), (8, 8, key)] ++ rest)

/-- ENCRYPT and DECRYPT: lengths, then the handle of the purpose, then the home HUC (R626). -/
def kcwCipher (cls purpose w : Nat) (k : Kcw) (c : Nat) (s : State) : State :=
  let n := k.capLen
  if n < 8 || 4096 < n || n % 8 ≠ 0 then kcwFail w St.lengthInvalid s
  else kcwStart w c k (kcwEntry cls (b2n (bitOf k.cmd.toNat 8)) (kcwHandle k k.capKey purpose s) []) (kcwIv k 16) (kcwBytes k.words n) 0 s

/-- KCW_ENCRYPT (R626). -/
def execKcwEncrypt (w : Nat) (s : State) : Out := kcwRow w 0x10 (kcwCipher 0x40 1 w) s

/-- KCW_DECRYPT (R626). -/
def execKcwDecrypt (w : Nat) (s : State) : Out := kcwRow w 0x11 (kcwCipher 0x41 2 w) s

/-- MAC_GEN and MAC_VER, as LEGACY_MAC with padding PAD2 and length MACLEN (R626). -/
def kcwMac (verify : Bool) (w : Nat) (k : Kcw) (c : Nat) (s : State) : State :=
  let m := bits k.cmd.toNat 13 10
  let n := k.capLen
  if m < 4 || 8 < m then kcwFail w St.fieldInvalid s
  else if n < 1 || 4096 < n then kcwFail w St.lengthInvalid s
  else kcwStart w c k (kcwEntry 0x14 0 (kcwHandle k k.capKey 5 s) [(0x28, 1, 1 + bits k.cmd.toNat 9 9), (0x29, 1, m), (0x2A, 1, b2n verify)])
    (kcwIv k 8) (kcwBytes k.words n) 0 s

/-- KCW_MAC_GEN (R626). -/
def execKcwMacGen (w : Nat) (s : State) : Out := kcwRow w 0x12 (kcwMac false w) s

/-- KCW_MAC_VER (R626). -/
def execKcwMacVer (w : Nat) (s : State) : Out := kcwRow w 0x13 (kcwMac true w) s

/-- PIN_XLATE: PAN_LEN is LEN less the block (R311, R626). -/
def kcwPin (w : Nat) (k : Kcw) (c : Nat) (s : State) : State :=
  let fi := bits k.cmd.toNat 19 16
  let fo := bits k.cmd.toNat 23 20
  let n := k.capLen
  let pan := n - pinBlock fi
  if !pinFmtOk fi || !pinFmtOk fo then kcwFail w St.fieldInvalid s
  else if n < pinBlock fi || pan < 12 || 19 < pan then kcwFail w St.lengthInvalid s
  else kcwStart w c k (kcwEntry 0x13 0 (kcwHandle k k.capKey 2 s) [(0x28, 8, kcwHandle k k.capKey2 1 s), (0x30, 1, fi), (0x31, 1, fo), (0x32, 1, pan)])
    [] (kcwBytes k.words n) 0 s

/-- KCW_PIN_XLATE (R626). -/
def execKcwPinXlate (w : Nat) (s : State) : Out := kcwRow w 0x18 (kcwPin w) s

/-- KCW_RANDOM: LEN bytes, all or none (R626). -/
def execKcwRandom (w : Nat) (s : State) : Out :=
  kcwRow w 0x28 (fun k c s =>
    if k.capLen < 1 || 4096 < k.capLen then kcwFail w St.lengthInvalid s
    else kcwStart w c k (kcwEntry 0x11 0 0 []) [] [] k.capLen s) s

/-- KCW_IDENT (R626). -/
def execKcwIdent (w : Nat) (s : State) : Out :=
  kcwRow w 0x01 (fun k _ s =>
    if k.capLen ≠ 0 then kcwFail w St.lengthInvalid s
    else kcwOk w ([0x4B320B12, 0x00010000, w, 0x1000].map (beBytes 4)).flatten s) s

/-- The key a number's first handle names. -/
def kcwFirst (k : Kcw) (s : State) : Option (KcwEntry × KeyRec) :=
  (tget k.map k.capKey).bind (fun e => (resolve e.first.toNat (kcwOwner k s) s).map (fun p => (e, p.2)))

/-- KCW_KEY_CHECK: the KCV kept by the map (R626, R629). -/
def execKcwKeyCheck (w : Nat) (s : State) : Out :=
  kcwRow w 0x2C (fun k _ s =>
    if k.capLen ≠ 0 then kcwFail w St.lengthInvalid s
    else match tget k.map k.capKey with
    | none => kcwFail w St.handleInvalid s
    | some e =>
      if [e.first.toNat, e.second.toNat].all (fun h => (resolve h (kcwOwner k s) s).isNone) then kcwFail w St.handleInvalid s
      else kcwOk w (padTo 4 e.kcv) s) s

/-- KCW_USE_QUERY (R626). -/
def execKcwUseQuery (w : Nat) (s : State) : Out :=
  kcwRow w 0x2D (fun k _ s =>
    if k.capLen ≠ 0 then kcwFail w St.lengthInvalid s
    else match kcwFirst k s with
    | none => kcwFail w St.handleInvalid s
    | some (_, r) => kcwOk w (beBytes 4 (if bitOf r.attr attrUseCount then min r.uses 0xFFFF else 0xFFFFFFFF)) s) s

/-- A Knarox 2 function that is not reproduced ends at once (R632). -/
def kcwUnsupported (w func : Nat) (s : State) : Out :=
  onUnit (w < 16) (
    let k := getKcw w s
    if k.phase ≠ .wait || kcwFunc k ≠ func then s else kcwFinish w St.opcodeUnknown 2 [] k.iv s)

/-- KCW_GENERATE_KEY (R632). -/
def execKcwGenerateKey (w : Nat) (s : State) : Out := kcwUnsupported w 0x20 s
/-- KCW_LOAD_COMPONENTS (R632). -/
def execKcwLoadComponents (w : Nat) (s : State) : Out := kcwUnsupported w 0x21 s
/-- KCW_IMPORT_KEY (R632). -/
def execKcwImportKey (w : Nat) (s : State) : Out := kcwUnsupported w 0x22 s
/-- KCW_EXPORT_KEY (R632). -/
def execKcwExportKey (w : Nat) (s : State) : Out := kcwUnsupported w 0x23 s
/-- KCW_DELETE_KEY (R632). -/
def execKcwDeleteKey (w : Nat) (s : State) : Out := kcwUnsupported w 0x24 s
/-- KCW_SET_CLOCK (R632). -/
def execKcwSetClock (w : Nat) (s : State) : Out := kcwUnsupported w 0x30 s

/-- The keys a window's reset destroys: mapped in either handle, EXPIRE_AT_RESET, not yet being destroyed (R630, log entry 77). -/
def kcwExpiring (k : Kcw) (s : State) : List Nat :=
  ((k.map.map (fun p => [p.2.first.toNat, p.2.second.toNat])).flatten.filterMap (fun h => resolve h (kcwOwner k s) s)).foldl
    (fun l p => if bitOf p.2.attr attrExpire && p.2.state != .revoking && p.2.saBound = 0 then addNew l p.1 else l) []

/-- A window reset: BUSY, its command voided, its expiring keys destroyed by R82 (R630); `release` is KCW_RELEASE's. -/
def kcwReset (w : Nat) (release : Bool) (s : State) : State :=
  let k := getKcw w s
  if !kcwLive k then s
  else if k.phase = .resetting then setKcw w { k with releasing := k.releasing || release } s
  else
    let s := match k.ctx with | some c => voidCtx c s | none => s
    let slots := kcwExpiring k s
    let s := slots.foldl (fun s n => revoke n false 0 (drainLimit 0 s) s) s
    windowsSettle (setKcw w { getKcw w s with phase := .resetting, drq := false, ctx := none, drain := slots, resetSeq := 0, destroyed := slots.length, releasing := release } s)

/-- KCW_RESET: a write of RESET; while a reset runs it is ignored (R630). -/
def execKcwReset (w : Nat) (s : State) : Out :=
  onUnit (w < 16) (
    let k := getKcw w s
    if kcwLive k && k.phase = .resetting then setKcw w { k with swrIgn := true } s else kcwReset w false s)

/-- A window write other than an aligned whole word is dropped and counted (R622). -/
def kcwBadWrite (w : Nat) (data : Bool) (s : State) : State :=
  let k := getKcw w s
  if kcwLive k then setKcw w { k with errcnt := satInc 65535 k.errcnt, overrun := k.overrun || data } s else s

/-- A write of a class-S field of a window (R9). -/
def kcwField (w : Nat) (f : Kcw → Kcw) (s : State) : State :=
  let k := getKcw w s
  if !kcwLive k then s else setKcw w (if k.phase = .idle then f k else { k with swrIgn := true }) s

/-- A write of a window register, by its offset. -/
def kcwWrite (w off : Nat) (value : Word) (s : State) : State :=
  let v := value.toNat
  let k := getKcw w s
  if !kcwLive k then s
  else match off with
  | 0x000 => kcwCmd w value s
  | 0x004 => if bitOf v 5 then setKcw w { k with swrIgn := false } s else s
  | 0x008 => kcwData w value s
  | 0x00C => kcwField w (fun k => { k with len := v % 8192 }) s
  | 0x010 => kcwField w (fun k => { k with keyno := v % 4096, keyno2 := v / 65536 % 4096 }) s
  | 0x028 => if bitOf v 0 then (if k.phase = .resetting then setKcw w { k with swrIgn := true } s else kcwReset w false s) else s
  | _ => if 0x018 ≤ off ∧ off < 0x028 ∧ off % 4 = 0 then kcwField w (fun k => { k with iv := tset k.iv ((off - 0x18) / 4) value }) s else s

/-- KCW_STATUS. -/
def kcwStatus (k : Kcw) : Nat :=
  b2n (k.phase != .idle) + 2 * b2n k.drq + 4 * b2n k.done + 8 * b2n k.error + 16 * b2n k.overrun + 32 * b2n k.swrIgn + 256 * k.kstat

/-- The home stand KCW_ASSIGN gives (R621). -/
def kcwHome (st : Nat) (fn : Fn) (s : State) : Option Nat :=
  let ok (h : Nat) : Bool := !(getStand h s).hucIsolated
  if st = 0xFF then
    match stands.find? (fun h => bitOf (clnWeight fn s).2 h && ok h) with
    | some h => some h
    | none => stands.find? ok
  else if st < 8 && ok st then some st else none

/-- A TDI whose configuration is locked moves to ERROR, and GBL_VF_EVENT.TDI_ERROR is raised (R235). -/
def tdiError (n : Nat) (s : State) : State :=
  match tget s.host.tdis n with
  | some .locked | some .run => raiseEvent (.vf n) 5 { s with host.tdis := tset s.host.tdis n .error }
  | _ => s

/-- The checks of KCW_ASSIGN (R635). -/
def kcwAssignRun (_ : Mb) (q : Req) (s : State) : Ans × State :=
  let b := q.body
  let w := fld b 0 1
  let fn := fnOfCode (fld b 2 2)
  if 15 < w then (cmdFail St.fieldInvalid, s)
  else if kcwLive (getKcw w s) then (cmdFail St.stateConflict, s)
  else match fn with
  | none => (cmdFail St.fieldInvalid, s)
  | some fn =>
    let taken : Bool := match fn with | .vf n => s.kcw.any (fun p => p.2.assign == .vf n) | .pf _ => false
    let there : Bool := match fn with | .pf p => pfPresent s p | .vf _ => (getFn fn s).enabled
    if taken then (cmdFail St.stateConflict, s)
    else if !there then (cmdFail St.fieldInvalid, s)
    else match kcwHome (fld b 1 1) fn s with
    | none => (cmdFail St.fieldInvalid, s)
    | some h =>
      let a : KcwAssign := match fn with | .pf p => .pf p (fld b 4 4) | .vf n => .vf n
      let k : Kcw := { assign := a, stand := h }
      match kcwOwner k s with
      | none => (cmdFail St.ownerDenied, s)
      | some o => if ownerActive o s then (.reply { body := leBytes 1 h }, setKcw w k (match fn with | .vf n => tdiError n s | .pf _ => s)) else (cmdFail St.ownerDenied, s)

/-- KCW_ASSIGN (R619, R621, R635). -/
def execKcwAssign (mb : Mb) (s : State) : Out := runCmd mb 0x0430 kcwAssignRun s

/-- The effect of KCW_RELEASE: the reset of R630, then the window is unassigned and its map emptied (R635). -/
def kcwReleaseRun (_ : Mb) (q : Req) (s : State) : Ans × State :=
  let w := fld q.body 0 1
  if 15 < w then (cmdFail St.fieldInvalid, s)
  else if !kcwLive (getKcw w s) then (cmdFail St.stateConflict, s)
  else
    let s := match (getKcw w s).assign with | .vf n => tdiError n s | _ => s
    let s := kcwReset w true s
    if kcwLive (getKcw w s) then (.hold (.window w), s) else (.reply { body := leBytes 4 0 }, s)

/-- KCW_RELEASE (R635). -/
def execKcwRelease (mb : Mb) (s : State) : Out := runCmd mb 0x0431 kcwReleaseRun s

/-- The window a mailbox may act on (R629, R635). -/
def kcwNamed (mb : Mb) (w : Nat) (s : State) : Bool :=
  let k := getKcw w s
  match mb with
  | .pf _ _ => kcwLive k
  | .vf n => k.assign == .vf n

/-- The checks of KCW_MAP, in its own order (R629). -/
def kcwMapCheck (mb : Mb) (q : Req) (s : State) : Option Nat :=
  let b := q.body
  let w := fld b 0 1
  let hs := [fld b 8 8, fld b 0x10 8].filter (· != 0)
  let ks := hs.filterMap (fun h => (resolve h (kcwOwner (getKcw w s) s) s).map (·.2))
  if 15 < w || 4095 < fld b 2 2 then some St.fieldInvalid
  else if !kcwNamed mb w s then some St.stateConflict
  else if ks.length ≠ hs.length then some St.handleInvalid
  else if ks.any (fun k => !(List.contains [1, 2, 4, 5] k.type)) || (match ks with | [a, c] => a.type != c.type || a.length != c.length | _ => false) then some St.keyTypeMismatch
  else if ks.any (fun k => !(List.contains [1, 2, 5] k.purpose) || k.saBound != 0) || (match ks with | [a, c] => a.purpose == c.purpose | _ => false) then
    some St.purposeDenied
  else if !hs.isEmpty && !hucInService s then some St.engineFault
  else none

/-- The check value of a key: the leading 3 bytes of the encryption of a zero block (R629). -/
def kcvOf (r : KeyRec) : Bytes := (if r.type ≤ 2 then aes (material r) (List.replicate 16 0) else tdea (material r) (List.replicate 8 0)).take 3

/-- The entry of KCW_MAP is written with its KCV (R629). -/
def kcwMapEnd (b kcv : Bytes) (s : State) : Ans × State :=
  let w := fld b 0 1
  let k := getKcw w s
  let e : KcwEntry := { first := BitVec.ofNat 64 (fld b 8 8), second := BitVec.ofNat 64 (fld b 0x10 8), kcv := kcv }
  (.reply { body := kcv }, setKcw w { k with map := tset k.map (fld b 2 2) e } s)

/-- The effect of KCW_MAP: the KCV takes one block of the home HUC under the FIRST handle; with no FIRST handle it is a free value (R140, R629, log entry 78). -/
def kcwMapRun (mb : Mb) (q : Req) (s : State) : Ans × State :=
  let b := q.body
  let w := fld b 0 1
  let k := getKcw w s
  if fld b 8 8 = 0 ∧ fld b 0x10 8 = 0 then (.reply { body := leBytes 3 0 }, setKcw w { k with map := tdel k.map (fld b 2 2) } s)
  else match resolve (fld b 8 8) (kcwOwner k s) s with
  | none => let (v, s) := drawBytes 3 s; kcwMapEnd b v s
  | some (slot, r) =>
    match useSystem k.stand mb slot r 1 s with
    | (.ready, s) => kcwMapEnd b (kcvOf r) s
    | (.wait, s) => (.stay, s)
    | (.fail st, s) => (cmdFail st, s)

/-- KCW_MAP (R629). -/
def execKcwMap (mb : Mb) (s : State) : Out := runCmd mb 0x0432 (direct (readCheck kcwMapCheck) kcwMapRun) s

/-- KCW_QUERY (R635). -/
def kcwQueryRun (mb : Mb) (q : Req) (s : State) : Ans × State :=
  let w := fld q.body 0 1
  let k := getKcw w s
  if 15 < w then (cmdFail St.fieldInvalid, s)
  else if mbIsVf mb && !kcwNamed mb w s then (cmdFail St.functionDenied, s)
  else
    let fn := match kcwFn k with | some f => fnCode f | none => 0xFFFF
    (.reply { body := layout 16 [(0, 2, fn), (2, 1, k.stand), (4, 4, (kcwOwner k s).getD 0), (8, 2, k.map.length), (0x0C, 4, kcwStatus k)] }, s)

/-- KCW_QUERY (R635). -/
def execKcwQuery (mb : Mb) (s : State) : Out := runCmd mb 0x0433 kcwQueryRun s

/-- Words of a byte string in Knarox 2 order, the last padded with zeros. -/
def kcwWords (b : Bytes) : List Word := (blocksOf 4 b).map (fun c => BitVec.ofNat 32 (beNat (padTo 4 c)))

/-- The IV words after a CBC command that ended with OK: the last ciphertext block (R626). -/
def kcwChain (k : Kcw) (result : Bytes) (s : State) : Tab Word :=
  let f := kcwFunc k
  if !bitOf k.cmd.toNat 8 || (f ≠ 0x10 && f ≠ 0x11) then k.iv
  else
    let ct := if f = 0x10 then result else kcwBytes k.words k.capLen
    let n := match resolve (kcwHandle k k.capKey (if f = 0x10 then 1 else 2) s) (kcwOwner k s) s with | some (_, r) => if r.type ≤ 2 then 16 else 8 | none => 8
    (kcwWords (ct.drop (ct.length - n))).zipIdx.foldl (fun t p => tset t p.2 p.1) k.iv

/-- A drained window context's outcome reaches the window (step 5 of R624). -/
def kcwPost (w : Nat) (x : Ctx) (o : CtxOutcome) (s : State) : State :=
  let k := getKcw w s
  if k.phase ≠ .running then s
  else if o.status ≠ 0 then kcwFail w o.status s
  else kcwFinish w 0 0 x.delivered (kcwChain k x.delivered s) s

/-- A gate call's completion bytes: SQ_ID 0xFF, PHASE 0 (R371). -/
def gateCompletion (x : Ctx) (o : CtxOutcome) : Bytes :=
  layout 32 [(0, 2, fld x.entry 2 2), (2, 1, 0xFF), (6, 2, o.status), (8, 2, o.info), (0x0A, 2, o.elem), (0x0C, 4, o.offset), (0x10, 8, o.done), (0x18, 8, o.result)]

/-- COMPLETION_POST: the entry, response or result of a POSTING context is written and the context is FREE (R253, R277, R371, R624). -/
def execCompletionPost (ctx : Nat) (s : State) : Out :=
  onUnit (ctxOk ctx) (
    match getCtx ctx s with
    | none => s
    | some x =>
      if x.state != .posting then s
      else
        let o := x.outcome.getD {}
        match x.src with
        | .queue fn qid _ => postQueue ctx x o fn qid s
        | .gate t => freeCtx ctx false (gateAnswer t (gateResp o.status o.info (gateCompletion x o)) s)
        | .kcw w => freeCtx ctx false (kcwPost w x o s)
        | .mailbox _ => freeCtx ctx false s)

end Sys2Proof.Machine
end

