-- ==== Sys2Proof/Machine/Ethernet.lean ====
section
/-! DEFINITION. Ethernet ports and inline MACsec: classification, protection, release, frame rings and the commands of family 0x05 (chapter 12). -/

namespace Sys2Proof.Machine

/-- A port exists in its position's mode (R317). -/
def portExists (n : Nat) (s : State) : Bool :=
  n < 32 && decide (n % 4 < match (tgetD s.eth.positions (n / 4) {}).mode with | 1 => 1 | 2 => 2 | 3 => 4 | _ => 0)

/-- A position's registers. -/
def getPos (p : Nat) (s : State) : Position := tgetD s.eth.positions p {}

/-- Replace a position's registers. -/
def setPos (p : Nat) (x : Position) (s : State) : State := { s with eth.positions := tset s.eth.positions p x }

/-- A port carries frames: it exists, its link is up and its position is not stopped (R339). -/
def portRuns (n : Nat) (s : State) : Bool := portExists n s && (getPort n s).up && !(getPos (n / 4) s).stopped

/-- The SecY of a port. -/
def getSecy (n : Nat) (s : State) : Option Secy := tget s.eth.secys n

/-- ACTIVE lanes of the stands of a home pair that are online (R136, R338). -/
def homeLanes (pair : Nat) (s : State) : List Nat :=
  ([2 * pair, 2 * pair + 1].map (fun st => if (getStand st s).offline then [] else activeLanes st s)).flatten

/-- Both stands of a port's home pair are offline (R338). -/
def pairLost (n : Nat) (s : State) : Bool := (homeLanes (n / 8) s).isEmpty

/-- One bit of the CRC-32 of IEEE 802.3 (PRESUMED, log entry 80). -/
def crcBit (c : BitVec 32) : BitVec 32 := if c.getLsbD 0 then (c >>> 1) ^^^ 0xEDB88320#32 else c >>> 1

/-- One byte of the CRC-32. -/
def crcByte (c : BitVec 32) (b : Byte) : BitVec 32 :=
  crcBit (crcBit (crcBit (crcBit (crcBit (crcBit (crcBit (crcBit (c ^^^ b.setWidth 32))))))))

/-- The FCS of a frame, as it stands on the wire. -/
def fcs (d : Bytes) : Bytes := leBytes 4 (~~~ (d.foldl crcByte 0xFFFFFFFF#32)).toNat

/-- The EtherType of a frame. -/
def etherType (d : Bytes) : Nat := beNat (slice d 12 2)

/-- A buffer can take n more bytes (R337). -/
def bufRoom (buf n : Nat) (s : State) : Bool :=
  decide (((s.eth.flight.filter (fun f => f.buf == buf)).map (·.data.length)).foldl (· + ·) n ≤ 2 ^ 20)

/-- A frame is refused with a cause: it is counted and nothing of it goes on. -/
def refuse (port cause : Nat) (s : State) : Option Frame × State := (none, portDrop port cause s)

/-- A frame enters a transmit buffer, if it has room (R337). -/
def intoBuf (f : Frame) (buf : Nat) (s : State) : Option Frame × State :=
  if bufRoom buf f.data.length s then (some { f with buf := buf }, s) else refuse (framePort f) 1 s

/-- A frame enters the controlled side of its egress port (R321, R338, R339). -/
def egress (f : Frame) (n : Nat) (s : State) : Option Frame × State :=
  let f := { f with lane := none, sa := none, rx := false }
  let buf := 2 * (n / 4) + 1
  if !portRuns n s then refuse (framePort f) 3 s
  else if frozen s || pairLost n s then refuse (framePort f) 2 s
  else match getSecy n s with
  | some y =>
    if y.protect then intoBuf { f with classify := true, port := n } buf s
    else intoBuf f buf (secyCount n 8 1 s)
  | none => if (getPort n s).clear then intoBuf f buf s else refuse (framePort f) 3 s

/-- A frame delivered on the controlled port goes where FWD names (R321). -/
def forward (f : Frame) (s : State) : Option Frame × State :=
  match f.dest with
  | .drop => refuse (framePort f) 3 s
  | .ring _ _ => (some f, s)
  | .port n => egress f n s

/-- The parts of a protected frame: SecTAG fields, secure data and ICV (IEEE 802.1AE, R322). -/
structure Tagged where
  tci : Nat
  an : Nat
  pn : Nat
  sci : Option Nat
  tag : Bytes
  data : Bytes
  icv : Bytes
  deriving DecidableEq, Repr

/-- The SecTAG check: a tag that R322 does not support, or that contradicts the frame, is bad. -/
def parseTag (xpn : Bool) (d : Bytes) : Option Tagged :=
  let tci := fld d 14 1
  let sl := fld d 15 1
  let es := bitOf tci 6
  let sc := bitOf tci 5
  let n := if sc then 16 else 8
  let rest := d.drop (12 + n)
  let len := if sl = 0 then rest.length - 16 else sl
  let pn := beNat (slice d 16 4)
  let sci := if sc then some (beNat (slice d 20 8)) else if es then some (beNat (slice d 6 6) * 2 ^ 16 + 1) else none
  if bitOf tci 7 || bitOf tci 4 || (es && sc) || bitOf tci 3 != bitOf tci 2 || 47 < sl || (pn = 0 && !xpn) || rest.length < len + 16 || (sl = 0 && len < 48)
  then none
  else some { tci := tci, an := tci % 4, pn := pn, sci := sci, tag := slice d 12 n, data := rest.take len, icv := slice rest len 16 }

/-- Cipher suites 3 and 4 (R322). -/
def isXpn (suite : Nat) : Bool := suite == 3 || suite == 4

/-- The IV of a frame (R324). -/
def macsecIv (suite sci ssci pn : Nat) (salt : Bytes) : Bytes :=
  if isXpn suite then xorBytes (beBytes 4 ssci ++ beBytes 8 pn) (padTo 12 salt) else beBytes 8 sci ++ beBytes 4 pn

/-- The full PN of a received frame (IEEE 802.1AE clause 10.6, PRESUMED, log entry 81). -/
def recoverPn (suite pn lowest : Nat) : Nat :=
  if !isXpn suite then pn
  else lowest / 2 ^ 32 * 2 ^ 32 + pn + (if bitOf lowest 31 && !bitOf pn 31 then 2 ^ 32 else 0)

/-- The lane of a home pair with the fewest blocks waiting, among those that can take the frame's key (R128, R129, R136). -/
def inlineLane (pair slot gen : Nat) (s : State) : Option Nat :=
  leastBy (fun g => laneLoad g s) ((homeLanes pair s).filter (fun g => laneTakes g slot gen s))

/-- A frame takes a lane, or waits in its buffer for one; a key the lane does not hold is loaded into a context there, from the Sapwood, as a pinned SA's is on a spare that replaced a lane (R333, R337). -/
def takeLane (pair pos : Nat) (a : Sa) (owner : Nat) (s : State) : Option Nat × State :=
  match inlineLane pair a.slot a.gen s with
  | none => (none, s)
  | some g =>
    let s := match tget s.store.c.keys a.slot with
      | some k => if inSapwood a.slot k s then s else useSapwood a.slot k s
      | none => s
    if laneHolds g a.slot a.gen s then (some g, bindLane g a.slot a.gen owner false s)
    else
      let p := getPos pos s
      (some g, bindLane g a.slot a.gen owner a.pinned (setPos pos { p with ctxLoads := if a.pinned then p.ctxLoads else p.ctxLoads + 1 } s))

/-- The key material an SA runs under. -/
def saKey (a : Sa) (s : State) : Bytes := match tget s.store.c.keys a.slot with | some k => material k | none => []

/-- A counter of an SC and one of an SA (R345). -/
def scCount (id i : Nat) (s : State) : State := { s with eth.scs := tmod s.eth.scs id (fun c => { c with c := bump c.c i 1 }) }

/-- A counter of an SA (R345). -/
def saCount (id i : Nat) (s : State) : State := { s with eth.sas := tmod s.eth.sas id (fun a => { a with c := bump a.c i 1 }) }

/-- A frame that receive processing lets by unverified: only with Check, and only without encryption (R331, log entry 82). -/
def unchecked (port : Nat) (y : Secy) (enc : Bool) (f : Frame) (user : Bytes) (s : State) : Option Frame × State :=
  if y.validate = 2 || enc then refuse port 4 s
  else forward { f with data := f.data.take 12 ++ user, unverified := true } s

/-- The SA of an SC's AN that may take frames (R331, R332). -/
def liveSa (id : Nat) (s : State) : Option Sa :=
  (tget s.eth.sas id).filter (fun a => a.ready && !a.cleared && !a.removing)

/-- Steps 4 and 5 of R331 for a frame whose SA is in use: the late check, then its pass on a lane. -/
def rxPass (port : Nat) (y : Secy) (c : Sc) (id : Nat) (a : Sa) (t : Tagged) (f : Frame) (s : State) : Option Frame × State :=
  let pn := recoverPn y.suite t.pn a.lowest
  let enc := bitOf t.tci 3
  if y.replay && pn < a.lowest then refuse port 4 (scCount (id / 4) 3 s)
  else
    let (g, s) := takeLane (port / 8) (port / 4) a y.owner s
    let off := if enc then y.offset else t.data.length
    let iv := macsecIv y.suite c.sci c.ssci pn a.salt
    let key := saKey a s
    let aad := f.data.take 12 ++ t.tag ++ t.data.take off
    let ok := t.icv == gcmTag key iv aad (t.data.drop off)
    let user := t.data.take off ++ gcmCrypt key iv (t.data.drop off)
    (some { f with
      data := f.data.take 12 ++ user, port := port, sa := some id, lane := g, rx := true, pn := pn, enc := enc
      octets := user.length, aad := aad.length, pay := (t.data.drop off).length, icvOk := ok, keepBad := y.validate != 2 && !enc }, s)

/-- Receive processing up to its lane (R331). -/
def rxSecy (port : Nat) (y : Secy) (f : Frame) (s : State) : Option Frame × State :=
  if etherType f.data ≠ 0x88E5 then
    if y.validate = 2 then refuse port 4 (secyCount port 1 1 s) else forward f (secyCount port 0 1 s)
  else match parseTag (isXpn y.suite) f.data with
  | none => refuse port 4 (secyCount port 2 1 s)
  | some t =>
    match t.sci with
    | none => refuse port 4 (secyCount port 4 1 s)
    | some sci =>
      match s.eth.scs.find? (fun p => p.2.port == port && !p.2.tx && !p.2.removing && p.2.sci == sci) with
      | none => unchecked port y (bitOf t.tci 3) f t.data (secyCount port 3 1 s)
      | some (sc, c) =>
        let id := 4 * sc + t.an
        match (liveSa id s).filter (·.enable) with
        | some a => rxPass port y c id a t f s
        | none =>
          let drop := y.validate = 2 || bitOf t.tci 3
          unchecked port y (bitOf t.tci 3) f t.data (saCount id (if drop then 3 else 4) (scCount sc (if drop then 6 else 7) s))

/-- Classification of a received frame (R321). -/
def classifyRx (port : Nat) (d : Bytes) (s : State) : Option Frame × State :=
  let p := getPort port s
  let f : Frame := { source := port, dest := p.fwd, controlled := true, buf := 2 * (port / 4), data := d }
  if !bufRoom f.buf d.length s then refuse port 1 s
  else if etherType d = 0x888E then
    if p.uncFn = 0xFFFF then refuse port 3 s else (some { f with dest := .ring p.uncFn p.uncQid, controlled := false }, s)
  else if frozen s || pairLost port s then refuse port 2 s
  else match getSecy port s with
  | some y => rxSecy port y f s
  | none => if p.clear then forward f s else refuse port 3 s

/-- What a frame comes to joins the frames in flight. -/
def putFlight (r : Option Frame × State) : State :=
  match r.1 with
  | some f => { r.2 with eth.flight := r.2.eth.flight ++ [f] }
  | none => r.2

/-- FRAME_RECEIVE: a frame with its FCS arrives at a port (R319-R321, R331, R337, R338). -/
def execFrameReceive (port : Nat) (frame : Bytes) (s : State) : Out :=
  onUnit (port < 32) (
    if !portRuns port s || inWatch s then s
    else
      let p := getPort port s
      let n := frame.length
      let d := frame.take (n - 4)
      let good := 4 ≤ n && frame.drop (n - 4) == fcs d
      let s := if good then setPort port { p with rx := p.rx + 1 } s else s
      let top := p.mtu + if (getSecy port s).isSome then 32 else 0
      if !good || n < 64 || top < n then portDrop port 0 s
      else if etherType d = 0x8808 then portDrop port 5 s
      else putFlight (classifyRx port d s))

/-- PN_THRESH in force (R329). -/
def pnThreshold (y : Secy) : Nat :=
  if y.pnThresh ≠ 0 then y.pnThresh else if isXpn y.suite then 0xC000000000000000 else 0xC0000000

/-- The last PN of a suite (R329). -/
def lastPn (suite : Nat) : Nat := if isXpn suite then 2 ^ 64 - 1 else 2 ^ 32 - 1

/-- The SecTAG of a frame of user data length n (R322, R323). -/
def secTag (y : Secy) (sci an pn n : Nat) (d : Bytes) : Bytes :=
  let es := y.es && beNat (slice d 6 6) == sci / 2 ^ 16
  let tci := an + (if y.conf then 0x0C else 0) + (if es then 0x40 else 0x20)
  beBytes 2 0x88E5 ++ leBytes 1 tci ++ leBytes 1 (if n < 48 then n else 0) ++ beBytes 4 (pn % 2 ^ 32) ++ (if es then [] else beBytes 8 sci)

/-- The protected frame (R322, R324). -/
def protectFrame (y : Secy) (c : Sc) (an pn : Nat) (a : Sa) (key d : Bytes) : Bytes :=
  let user := d.drop 12
  let tag := secTag y c.sci an pn user.length d
  let off := if y.conf then y.offset else user.length
  let iv := macsecIv y.suite c.sci c.ssci pn a.salt
  let ct := gcmCrypt key iv (user.drop off)
  let head := d.take 12 ++ tag ++ user.take off
  head ++ ct ++ gcmTag key iv head ct

/-- The SA hands out its next PN, with the events of its threshold and its last value (R329). -/
def takePn (n id : Nat) (y : Secy) (a : Sa) (s : State) : State :=
  let last := decide (lastPn y.suite ≤ a.next)
  let s := { s with eth.sas := tset s.eth.sas id { a with next := a.next + 1, exhausted := last } }
  let s := if a.next = pnThreshold y then secyEvent n 1 id a.next s else s
  if last then secyEvent n 2 id a.next s else s

/-- Classification of a frame at its egress SecY (R320, R329, R333, R338, R339). -/
def classifyTx (n : Nat) (f : Frame) (s : State) : Option Frame × State :=
  let f := { f with classify := false }
  if !portRuns n s then refuse (framePort f) 3 s
  else if frozen s || pairLost n s then refuse (framePort f) 2 s
  else match getSecy n s with
  | none => if (getPort n s).clear then (some f, s) else refuse (framePort f) 3 s
  | some y =>
    let id := 4 * y.txSc + y.encAn.getD 0
    match (if y.encAn.isSome then liveSa id s else none), tget s.eth.scs y.txSc with
    | some a, some c =>
      let out := protectFrame y c (id % 4) a.next a (saKey a s) f.data
      if (getPort n s).mtu + 32 < out.length + 4 then (none, secyCount n 9 1 s)
      else if a.exhausted then refuse n 4 (secyCount n 12 1 s)
      else
        let (g, s) := takeLane (n / 8) (n / 4) a y.owner (takePn n id y a s)
        let octets := f.data.length - 12
        let clear := if y.conf then min y.offset octets else octets
        (some { f with
          data := out, sa := some id, lane := g, pn := a.next, enc := y.conf, octets := octets
          aad := out.length - 16 - (octets - clear), pay := octets - clear }, s)
    | _, _ => refuse n 4 (secyCount n 13 1 s)

/-- What stands at index i of a list gives way to what a frame has come to. -/
def replaceAt (l : List Frame) (i : Nat) (f : Option Frame) : List Frame := l.take i ++ f.toList ++ l.drop (i + 1)

/-- FRAME_TX_CLASSIFY: the oldest frame that waits at a port is classified to its SA (R329, R330). -/
def execFrameTxClassify (port : Nat) (s : State) : Out :=
  onUnit (port < 32) (
    let l := s.eth.flight
    match l.findIdx? (fun f => f.classify && f.dest == .port port) with
    | none => s
    | some i => match l[i]? with
      | none => s
      | some f =>
        let r := classifyTx port f s
        { r.2 with eth.flight := replaceAt l i r.1 })

/-- A frame event entry (R341). -/
def frameEntry (len port kind idx sa : Nat) (unverified : Bool) : Bytes :=
  layout 16 [(0, 2, len), (2, 1, port), (3, 1, kind), (4, 2, idx), (7, 1, 2 * b2n unverified), (8, 4, sa)]

/-- A frame ring serves its function (R256, R339, R340). -/
def ringServes (k dir : Nat) (s : State) : Option Ring :=
  (tget s.eth.rings k).filter (fun r =>
    r.state == .active && r.dir == dir && r.evHeld < 2 ^ r.log2 && r.head != r.tail && (getFn (qOfKey k).1 s).busMaster && !inD3 (qOfKey k).1 s)

/-- A frame is written to the next posted buffer that holds it; shorter buffers are skipped (R340, R341). -/
def ringDeliver (k : Nat) (f : Frame) : Nat → State → State
  | 0, s => portDrop f.source 3 s
  | fuel + 1, s =>
    match ringServes k 0 s with
    | none => portDrop f.source 3 s
    | some r =>
      let e := r.addr + 16 * r.head
      if !hostOk (qOfKey k).1 e 16 s then portDrop f.source 3 (ringError k .fetchFault s)
      else
        let b := memReadN s.host.mem e 16
        let kind := if fld b 8 4 < f.data.length then 0x82 else if f.controlled then 1 else 2
        let entry := frameEntry f.data.length f.source kind r.head (f.verified.getD 0xFFFFFFFF) f.unverified
        let s' := { s with eth.rings := tset s.eth.rings k { r with head := (r.head + 1) % 2 ^ r.log2 } }
        if kind = 0x82 then ringDeliver k f fuel (ringEvent k 7 entry s').1
        else if !hostOk (qOfKey k).1 (fld b 0 8) f.data.length s then portDrop f.source 3 (ringError k .cqFault s)
        else (ringEvent k 7 entry (hostWrite (fld b 0 8) f.data s')).1

/-- A frame is put on the wire (R339). -/
def sendFrame (n : Nat) (f : Frame) (s : State) : State :=
  if !portRuns n s then portDrop (framePort f) 3 s
  else
    let p := getPort n s
    { setPort n { p with tx := p.tx + 1 } s with eth.sent := (n, f.data) :: s.eth.sent }

/-- A frame leaves: to its ring, the MKA helper or the wire (R321, R336). -/
def leave (f : Frame) (s : State) : State :=
  match f.dest with
  | .drop => portDrop (framePort f) 3 s
  | .port n => sendFrame n f s
  | .ring code qid =>
    if code = 0xFFFE then raiseLine 0xE8 { s with eth.mka := (f.source, f.data) :: s.eth.mka }
    else match fnOfCode code with
    | none => portDrop f.source 3 s
    | some fn => ringDeliver (qKey fn qid) f 4096 s

/-- A pass is complete on a SecY: its counters and its owner's meter (R345, R560). -/
def passDone (f : Frame) (s : State) : State :=
  let i := if f.rx then (if f.enc then 7 else 6) else (if f.enc then 11 else 10)
  let s := match getSecy f.port s with
    | some y => meterAdd y.owner 7 (if f.enc then 0 else f.octets) (meterAdd y.owner 6 1 s)
    | none => s
  secyCount f.port i f.octets s

/-- Replay update (R331). -/
def replayUpdate (y : Secy) (id pn : Nat) (s : State) : State :=
  { s with eth.sas := tmod s.eth.sas id (fun a =>
      let n := max a.next (pn + 1)
      { a with next := n, lowest := max a.lowest (n - y.window) }) }

/-- The end of a receive pass: the ICV's verdict, the late check again, the replay update; then the controlled port (R331). -/
def rxEnd (f : Frame) (id : Nat) (y : Secy) (a : Sa) (s : State) : Option Frame × State :=
  let late := decide (f.pn < a.lowest)
  if !f.icvOk then
    if f.keepBad then forward { f with unverified := true, lane := none, sa := none } (passDone f (saCount id 1 (scCount (id / 4) 4 s)))
    else refuse f.port 4 (saCount id 2 (scCount (id / 4) 5 s))
  else if y.replay && late then refuse f.port 4 (scCount (id / 4) 3 s)
  else
    let s := if late then scCount (id / 4) 2 s else saCount id 0 (scCount (id / 4) 0 s)
    forward { f with verified := some id, lane := none, sa := none } (replayUpdate y id f.pn (passDone f s))

/-- The blocks of a frame's pass are counted on its lane (R133). -/
def passBlocks (f : Frame) (s : State) : State :=
  match f.lane with
  | some g => countPorts g (blocks16 f.pay + 1) (blocks16 f.aad + blocks16 f.pay + 1) s
  | none => s

/-- A frame's pass ends: what it becomes, if it does not leave at once, and whether it leaves (R336). -/
def passEnd (f : Frame) (s : State) : (Option Frame × Bool) × State :=
  match f.sa with
  | none => ((some f, true), s)
  | some id =>
    let s := passBlocks f s
    if f.rx then
      match getSecy f.port s, tget s.eth.sas id with
      | some y, some a =>
        let r := rxEnd f id y a s
        ((r.1, match f.dest with | .ring _ _ => true | _ => false), r.2)
      | _, _ => ((none, false), portDrop f.port 4 s)
    else ((some f, true), saCount id (b2n f.enc) (scCount (id / 4) (b2n f.enc) (passDone f s)))

/-- A frame's pass can end: it has a lane, which is not SUSPECT, its key is in the Sapwood and its stand is awake (R148, R156, R333, R339). -/
def passReady (f : Frame) (s : State) : Bool :=
  f.sa.isNone || f.lane.any (fun g =>
    (getLane g s).state == .active && !dozing (g / 9) s
      && (frameKey f s).all (fun p => (tget s.store.c.keys p.1).all (fun k => inSapwood p.1 k s)))

/-- A frame that waits for a lane. -/
def laneless (f : Frame) : Bool := f.sa.isSome && f.lane.isNone

/-- Frame i of those in flight, if it waits for a lane in a position's buffers, takes one if it can (R128, R129, R136, R337). -/
def steerFrame (pos i : Nat) (s : State) : State :=
  match (s.eth.flight[i]?).filter (fun f => laneless f && f.buf / 2 == pos) with
  | none => s
  | some f => match f.sa.bind (fun id => tget s.eth.sas id) with
    | none => s
    | some a =>
      let (g, s) := takeLane (f.port / 8) (f.port / 4) a (((getSecy f.port s).map (·.owner)).getD 0) s
      { s with eth.flight := replaceAt s.eth.flight i (some { f with lane := g }) }

/-- The frames of a position that wait for a lane take one in the order they came; with their home pair lost they are dropped (R337, R338). -/
def steerWaiting (pos : Nat) (s : State) : State :=
  let s := dropFrames (fun f => laneless f && pairLost f.port s) 2 s
  (List.range s.eth.flight.length).foldl (fun s i => steerFrame pos i s) s

/-- No frame before index i has the same source and destination (R335). -/
def firstOfPair (l : List Frame) (i : Nat) (f : Frame) : Bool := !(l.take i).any (fun g => g.source == f.source && g.dest == f.dest)

/-- The frame a release of a position takes: the oldest that has no frame of its pair before it and whose work is done. -/
def nextRelease (pos : Nat) (ready : Bool) (s : State) : Option (Nat × Frame) :=
  let l := s.eth.flight
  (List.range l.length).findSome? (fun i => match l[i]? with
    | some f => if f.buf / 2 = pos && !f.classify && firstOfPair l i f && passReady f s == ready then some (i, f) else none
    | none => none)

/-- FRAME_RELEASE: a frame's pass ends at its release time and it leaves; one whose work is not done waits (R331, R335, R336). -/
def execFrameRelease (pos : Nat) (s : State) : Out :=
  onUnit (pos < 8) (
    let s := steerWaiting pos s
    match nextRelease pos true s with
    | some (i, f) =>
      let l := s.eth.flight
      let ((f', out), s) := passEnd f s
      match f', out with
      | some g, true => leave g { s with eth.flight := replaceAt l i none }
      | _, _ => { s with eth.flight := replaceAt l i f' }
    | none =>
      if (nextRelease pos false s).isSome then setPos pos { getPos pos s with waitedAt := some s.us } s else s)

/-- A function's transmit ring may send on a port (R344). -/
def maySend (fn : Fn) (n : Nat) (s : State) : Bool :=
  match fn with
  | .pf _ => true
  | .vf _ => match getSecy n s with
    | some y => (getAlloc fn s).owner == some y.owner
    | none => false

/-- A transmit entry is sent or refused, then its event is written (R340, R341, R344). -/
def sendEntry (k : Nat) (fn : Fn) (r : Ring) (b : Bytes) (s : State) : State :=
  let len := fld b 8 2
  let n := fld b 0x0A 1
  let done (kind : Nat) (s : State) : State :=
    (ringEvent k 7 (frameEntry len n kind r.head 0xFFFFFFFF false) { s with eth.rings := tmod s.eth.rings k (fun r => { r with head := (r.head + 1) % 2 ^ r.log2 }) }).1
  if !maySend fn n s || len < 60 || (getPort n s).mtu < len + 4 || !portRuns n s then done 0x81 s
  else if !hostOk fn (fld b 0 8) len s then ringError k .fetchFault s
  else
    let f : Frame :=
      { source := 32 + k, dest := .port n, controlled := !bitOf (fld b 0x0B 1) 0, buf := 2 * (n / 4) + 1, data := memReadN s.host.mem (fld b 0 8) len }
    done 3 (putFlight (if f.controlled then egress f n s else intoBuf f f.buf s))

/-- FRAME_RING_TX: the next entry of a transmit ring is consumed (R340, R341). -/
def execFrameRingTx (fn : Fn) (ring : Nat) (s : State) : Out :=
  onUnit (qidOk fn ring) (
    let k := qKey fn ring
    match (if queuesEnabled s then ringServes k 1 s else none) with
    | none => s
    | some r =>
      let e := r.addr + 16 * r.head
      if hostOk fn e 16 s then sendEntry k fn r (memReadN s.host.mem e 16) s else ringError k .fetchFault s)

/-- The home stands of a port with a SecY and its link up are never in DOZE (R338). -/
def keepAwake (n : Nat) (s : State) : State :=
  if (getSecy n s).isSome && (getPort n s).up then
    standUp (n / 8 * 2 + 1) (standUp (n / 8 * 2) s)
  else s

/-- ETH_LINK_UP (R317, R318, R342). -/
def execEthLinkUp (port : Nat) (s : State) : Out :=
  onUnit (port < 32) (
    let p := getPort port s
    let pos := getPos (port / 4) s
    if !portExists port s || p.up || pos.stopped || inWatch s then s
    else
      let an := pos.an && pos.phy < 2
      let (v, s) := if an then draw s else (0, s)
      keepAwake port (secyEvent port 4 0xFFFFFFFF 0
        (setPort port { p with up := true, localFault := false, remoteFault := false, anDone := an, anResult := v % 2 ^ 32 } s)))

/-- A port's link goes down, and its SecY posts LINK_DOWN (R339, R342). -/
def linkDown (port : Nat) (s : State) : State :=
  let p := getPort port s
  if p.up then secyEvent port 5 0xFFFFFFFF 0 (setPort port { p with up := false, anDone := false } s) else s

/-- ETH_LINK_DOWN (R342). -/
def execEthLinkDown (port : Nat) (s : State) : Out := onUnit (port < 32) (linkDown port s)

/-- Some port of a position has a SecY. -/
def posSecy (p : Nat) (s : State) : Bool := s.eth.secys.any (fun x => x.1 / 4 == p)

/-- The checks of PORT_CONFIG (R343). -/
def portConfigCheck (_ : Mb) (q : Req) (s : State) : Option Nat :=
  let b := q.body
  if 7 < fld b 0 1 || 3 < fld b 1 1 || 3 < fld b 2 1 then some St.fieldInvalid
  else if bitOf (fld b 3 1) 1 && s.mode.mode != 2 then some St.modeDenied
  else if posSecy (fld b 0 1) s then some St.stateConflict
  else none

/-- The effect of PORT_CONFIG: the links go down, the counters return to 0, the position trains in its new mode (R343). -/
def portConfigRun (_ : Mb) (q : Req) (s : State) : Ans × State :=
  let b := q.body
  let p := fld b 0 1
  let clear (n : Nat) (x : Port) : Port :=
    if n / 4 = p then { x with up := false, anDone := false, localFault := false, remoteFault := false, rx := 0, tx := 0, fecCorr := 0, fecUncorr := 0, drops := [], anResult := 0 }
    else x
  let x := getPos p s
  (.reply {}, setPos p { x with mode := fld b 1 1, phy := fld b 2 1, an := bitOf (fld b 3 1) 0, loopback := bitOf (fld b 3 1) 1, ctxLoads := 0, waitedAt := none }
    { s with eth.ports := tmap s.eth.ports clear })

/-- PORT_CONFIG (R343). -/
def execPortConfig (mb : Mb) (s : State) : Out := runCmd mb 0x0501 (direct portConfigCheck portConfigRun) s

/-- A port a command names: its number, the caller's right to its SecY, its existence (R343, R344). -/
def portNamed (mb : Mb) (n : Nat) (s : State) : Option Nat :=
  if 31 < n then some St.fieldInvalid
  else if mbIsVf mb && (match getSecy n s with | some y => mbOwner mb s != some y.owner | none => true) then some St.ownerDenied
  else if portExists n s then none else some St.stateConflict

/-- A port whose SecY a command names; a SecY being destroyed takes no command. -/
def secyNamed (mb : Mb) (n : Nat) (s : State) : Option Nat :=
  match portNamed mb n s with
  | some st => some st
  | none => match getSecy n s with
    | some y => if y.removing then some St.stateConflict else none
    | none => some St.stateConflict

/-- A VF's ring may serve a port only for the port's owner (R344). -/
def ringFnOk (code : Nat) (owner : Option Nat) (s : State) : Bool :=
  match fnOfCode code with
  | some (.vf n) => owner.isSome && (getAlloc (.vf n) s).owner == owner
  | _ => true

/-- The checks of PORT_SET (R343, R344). -/
def portSetCheck (mb : Mb) (q : Req) (s : State) : Option Nat :=
  let b := q.body
  let n := fld b 0 1
  let owner := (getSecy n s).map (·.owner)
  if 31 < n || 2 < fld b 4 1 || (fld b 4 1 = 1 && 31 < fld b 5 1) then some St.fieldInvalid
  else if fld b 2 2 < 64 || 9216 < fld b 2 2 then some St.lengthInvalid
  else match portNamed mb n s with
  | some st => some st
  | none =>
    if (fld b 4 1 = 2 && !ringFnOk (fld b 6 2) owner s) || !ringFnOk (fld b 0x0A 2) owner s then some St.ownerDenied
    else if bitOf (fld b 1 1) 0 && owner.isSome then some St.stateConflict
    else none

/-- The effect of PORT_SET (R321). -/
def portSetRun (_ : Mb) (q : Req) (s : State) : Ans × State :=
  let b := q.body
  let fwd : Fwd := match fld b 4 1 with | 1 => .port (fld b 5 1) | 2 => .ring (fld b 6 2) (fld b 8 2) | _ => .drop
  let p := getPort (fld b 0 1) s
  (.reply {}, setPort (fld b 0 1) { p with clear := bitOf (fld b 1 1) 0, mtu := fld b 2 2, fwd := fwd, uncFn := fld b 0x0A 2, uncQid := fld b 0x0C 2 } s)

/-- PORT_SET (R321, R343). -/
def execPortSet (mb : Mb) (s : State) : Out := runCmd mb 0x0502 (direct portSetCheck portSetRun) s

/-- The encoding SA of a SecY. -/
def encSa (y : Secy) (s : State) : Option Sa := y.encAn.bind (fun an => tget s.eth.sas (4 * y.txSc + an))

/-- ETH_PORT_STATUS (chapter 12, Registers). -/
def portWord (n : Nat) (s : State) : Nat :=
  if !portExists n s then 0
  else
    let p := getPort n s
    let x := getPos (n / 4) s
    let y := getSecy n s
    b2n p.up + 2 * (if p.up then 4 - x.mode else 0) + 8 * x.phy + 2 ^ 5 * b2n p.anDone + 2 ^ 6 * b2n y.isSome + 2 ^ 7 * b2n p.clear
      + 2 ^ 8 * b2n ((y.map (·.protect)).getD false) + 2 ^ 9 * b2n p.localFault + 2 ^ 10 * b2n p.remoteFault
      + 2 ^ 11 * ((y.bind (·.encAn)).getD 0) + 2 ^ 13 * b2n ((((y.bind (fun y => encSa y s)).map (·.exhausted))).getD false)

/-- PORT_STATUS (R343). -/
def execPortStatus (mb : Mb) (s : State) : Out :=
  runCmd mb 0x0503 (direct (fun mb q s => portNamed mb (fld q.body 0 1) s) (fun _ q s =>
    let n := fld q.body 0 1
    let p := getPort n s
    (.reply { body := layout 0x1C [(0, 4, portWord n s), (8, 8, p.fecCorr.toNat), (0x10, 8, p.fecUncorr.toNat), (0x18, 4, p.anResult)] }, s))) s

/-- PORT_RETRAIN: the port goes down and trains again (R339). -/
def execPortRetrain (mb : Mb) (s : State) : Out :=
  runCmd mb 0x0504 (direct (fun mb q s => portNamed mb (fld q.body 0 1) s) (fun _ q s =>
    let s := linkDown (fld q.body 0 1) s
    (.reply { body := leBytes 4 (portWord (fld q.body 0 1) s) }, s))) s

/-- A packet number or SCI of a body, in the byte order of IEEE 802.1AE (R5, R322). -/
def beFld (b : Bytes) (off len : Nat) : Nat := beNat (padTo len (slice b off len))

/-- SecY fields out of range (R322, R323, R343). -/
def secyFieldBad (suite offset validate flags window sci : Nat) : Bool :=
  suite < 1 || 4 < suite || !([0, 30, 50].contains offset) || validate < 1 || 2 < validate
    || (isXpn suite && 2 ^ 30 ≤ window) || (bitOf flags 3 && sci % 2 ^ 16 ≠ 1)

/-- The checks of SECY_CREATE (R322, R323, R343, R344). -/
def secyCreateCheck (mb : Mb) (q : Req) (s : State) : Option Nat :=
  let b := q.body
  let n := fld b 0 1
  if 31 < n || secyFieldBad (fld b 1 1) (fld b 2 1) (fld b 3 1) (fld b 8 4) (fld b 0x0C 4) (beFld b 0x10 8) then some St.fieldInvalid
  else match ownerForKeys mb (fld b 4 4) s with
  | some st => some st
  | none =>
    if !ringFnOk (fld b 0x1C 2) (some (fld b 4 4)) s then some St.ownerDenied
    else if !portExists n s || (getPort n s).clear || (getSecy n s).isSome then some St.stateConflict
    else if 32768 ≤ s.eth.scs.length then some St.quotaExceeded
    else none

/-- The lowest free SC_ID (any free one would do, log entry 43). -/
def freeSc (s : State) : Nat := ((List.range (s.eth.scs.length + 1)).find? (fun n => (tget s.eth.scs n).isNone)).getD 0

/-- The effect of SECY_CREATE (R323). -/
def secyCreateRun (_ : Mb) (q : Req) (s : State) : Ans × State :=
  let b := q.body
  let n := fld b 0 1
  let fl := fld b 8 4
  let id := freeSc s
  let y : Secy :=
    { owner := fld b 4 4, suite := fld b 1 1, offset := fld b 2 1, validate := fld b 3 1, protect := bitOf fl 0, replay := bitOf fl 1, conf := bitOf fl 2
      es := bitOf fl 3, window := fld b 0x0C 4, txSc := id, evtFn := fld b 0x1C 2, evtQid := fld b 0x1E 2, pnThresh := beFld b 0x20 8 }
  let c : Sc := { port := n, tx := true, sci := beFld b 0x10 8, ssci := beFld b 0x18 4 }
  (.reply { body := leBytes 4 id }, keepAwake n { s with eth.secys := tset s.eth.secys n y, eth.scs := tset s.eth.scs id c })

/-- SECY_CREATE (R323). -/
def execSecyCreate (mb : Mb) (s : State) : Out := runCmd mb 0x0508 (direct secyCreateCheck secyCreateRun) s

/-- The SecY as SECY_SET's MASK changes it. -/
def secyWith (b : Bytes) (y : Secy) : Secy :=
  let m := fld b 0x28 4
  let fl := fld b 8 4
  let y := if bitOf m 0 then { y with offset := fld b 2 1 } else y
  let y := if bitOf m 1 then { y with validate := fld b 3 1 } else y
  let y := if bitOf m 2 then { y with protect := bitOf fl 0, replay := bitOf fl 1, conf := bitOf fl 2, es := bitOf fl 3 } else y
  let y := if bitOf m 3 then { y with window := fld b 0x0C 4 } else y
  let y := if bitOf m 4 then { y with evtFn := fld b 0x1C 2 } else y
  let y := if bitOf m 5 then { y with evtQid := fld b 0x1E 2 } else y
  if bitOf m 6 then { y with pnThresh := beFld b 0x20 8 } else y

/-- The checks of SECY_SET (R322, R323, R343, R344). -/
def secySetCheck (mb : Mb) (q : Req) (s : State) : Option Nat :=
  let n := fld q.body 0 1
  match secyNamed mb n s, getSecy n s with
  | some st, _ => some st
  | none, some y =>
    let y := secyWith q.body y
    let sci := match tget s.eth.scs y.txSc with | some c => c.sci | none => 0
    if secyFieldBad y.suite y.offset y.validate (8 * b2n y.es) y.window sci then some St.fieldInvalid
    else if !ringFnOk y.evtFn (some y.owner) s then some St.ownerDenied
    else none
  | none, none => some St.stateConflict

/-- SECY_SET (R343). -/
def execSecySet (mb : Mb) (s : State) : Out :=
  runCmd mb 0x0509 (direct secySetCheck (fun _ q s =>
    (.reply {}, { s with eth.secys := tmod s.eth.secys (fld q.body 0 1) (secyWith q.body) }))) s

/-- A removal is answered now, or waits for the frames in flight (R332). -/
def ethAnswer (kind id : Nat) (r : Resp) (s : State) : Ans × State :=
  let s := ethSweep s
  if ethGoneNow kind id s then (.reply r, s) else (.hold (.ethGone kind id r), s)

/-- The SAs of an SC are removed and it is marked to go with the last (R332). -/
def removeSc (id : Nat) (s : State) : State :=
  let s := { s with eth.scs := tmod s.eth.scs id (fun c => { c with removing := true }) }
  (s.eth.sas.filter (fun p => p.1 / 4 == id)).foldl (fun s p => removeSa p.1 s) s

/-- Every SC of a SecY is removed, then the SecY (R332). -/
def removeSecy (n : Nat) (s : State) : State :=
  let s := { s with eth.secys := tmod s.eth.secys n (fun y => { y with removing := true }) }
  (s.eth.scs.filter (fun p => p.2.port == n)).foldl (fun s p => removeSc p.1 s) s

/-- SECY_DESTROY (R332). -/
def execSecyDestroy (mb : Mb) (s : State) : Out :=
  runCmd mb 0x050A (direct (fun mb q s => secyNamed mb (fld q.body 0 1) s) (fun _ q s =>
    let n := fld q.body 0 1
    let count := (s.eth.sas.filter (fun p => saPort p.1 s == n)).length
    ethAnswer 2 n { body := leBytes 4 count } (removeSecy n s))) s

/-- The checks of SC_ADD (R343). -/
def scAddCheck (mb : Mb) (q : Req) (s : State) : Option Nat :=
  match secyNamed mb (fld q.body 0 1) s with
  | some st => some st
  | none =>
    if s.eth.scs.any (fun p => p.2.port == fld q.body 0 1 && !p.2.tx && p.2.sci == beFld q.body 8 8) then some St.stateConflict
    else if 32768 ≤ s.eth.scs.length then some St.quotaExceeded
    else none

/-- SC_ADD (R332). -/
def execScAdd (mb : Mb) (s : State) : Out :=
  runCmd mb 0x0510 (direct scAddCheck (fun _ q s =>
    let id := freeSc s
    (.reply { body := leBytes 4 id },
      { s with eth.scs := tset s.eth.scs id { port := fld q.body 0 1, tx := false, sci := beFld q.body 8 8, ssci := beFld q.body 4 4 } }))) s

/-- A port's SecY is the caller's to act on (R344). -/
def secyMine (mb : Mb) (n : Nat) (s : State) : Bool :=
  !mbIsVf mb || (match getSecy n s with | some y => mbOwner mb s == some y.owner | none => false)

/-- An SC a command names (R344). -/
def scNamed (mb : Mb) (id : Nat) (s : State) : Option Nat :=
  match tget s.eth.scs id with
  | none => some St.handleInvalid
  | some c => if secyMine mb c.port s then none else some St.ownerDenied

/-- An SA a command names (R344). -/
def saNamed (mb : Mb) (id : Nat) (s : State) : Option Nat :=
  if (tget s.eth.sas id).isNone then some St.handleInvalid
  else if secyMine mb (saPort id s) s then none else some St.ownerDenied

/-- The checks of SC_REMOVE; a transmit SC goes only with its SecY (R323). -/
def scRemoveCheck (mb : Mb) (q : Req) (s : State) : Option Nat :=
  match scNamed mb (fld q.body 0 4) s, tget s.eth.scs (fld q.body 0 4) with
  | some st, _ => some st
  | none, some c => if c.tx || c.removing then some St.stateConflict else none
  | none, none => some St.handleInvalid

/-- SC_REMOVE (R332). -/
def execScRemove (mb : Mb) (s : State) : Out :=
  runCmd mb 0x0511 (direct scRemoveCheck (fun _ q s => ethAnswer 1 (fld q.body 0 4) {} (removeSc (fld q.body 0 4) s))) s

/-- SAs pinned in a home pair (R333). -/
def pinnedIn (pair : Nat) (s : State) : Nat := (s.eth.sas.filter (fun p => p.2.pinned && saPair p.1 s == pair)).length

/-- Whether a key may be bound to a transmit SA: step 7 of R328 (R326). -/
def freshForTx (k : KeyRec) : Bool := (k.origin == 0 || k.origin == 1) && k.invocation == 1

/-- Steps 3 to 10 of R328. -/
def saKeyCheck (b : Bytes) (c : Sc) (y : Secy) (s : State) : Option Nat :=
  match resolve (fld b 8 8) (some y.owner) s with
  | none => some St.handleInvalid
  | some (_, k) => match admission k s with
    | some st => some st
    | none =>
      if k.type ≠ (if y.suite % 2 = 1 then 1 else 2) then some St.keyTypeMismatch
      else if k.purpose ≠ (if c.tx then 1 else 2) || bitOf k.attr attrUseCount then some St.purposeDenied
      else if c.tx && !freshForTx k then some St.purposeDenied
      else if beFld b 0x10 8 < 1 || lastPn y.suite < beFld b 0x10 8 then some St.fieldInvalid
      else if bitOf (fld b 5 1) 0 && decide (16 ≤ pinnedIn (c.port / 8) s) then some St.quotaExceeded
      else if c.tx && decide (usablePages s < 64) then some St.storeWorn
      else none

/-- The checks of SA_ADD, in the order of R328. -/
def saAddCheck (mb : Mb) (q : Req) (s : State) : Option Nat :=
  let b := q.body
  let id := fld b 0 4
  if 3 < fld b 4 1 then some St.fieldInvalid
  else match tget s.eth.scs id with
  | none => some St.handleInvalid
  | some c =>
    match getSecy c.port s with
    | none => some St.handleInvalid
    | some y =>
      if !secyMine mb c.port s || c.removing then some St.handleInvalid
      else if (tget s.eth.sas (4 * id + fld b 4 1)).isSome then some St.stateConflict
      else saKeyCheck b c y s

/-- The policy SA_ADD needs: SABIND of the key's policy (R99, R328). -/
def saAddDesig : Desig := fun _ q s =>
  match resolve (fld q.body 8 8) none s with
  | none => none
  | some (_, k) => let p := governing k.owner k.policy s; if extraBit p 4 s then some p else none

/-- A pinned SA's contexts on the lanes of its home pair (R333). -/
def pinLanes (pair slot gen owner : Nat) (s : State) : State :=
  ([2 * pair, 2 * pair + 1].map (fun st => activeLanes st s)).flatten.foldl (fun s g => bindLane g slot gen owner true s) s

/-- A key's entries are in the Sapwood, or their load is on its way; a lease that would pass the pinned limit waits (R64, R65). -/
def leaseReady (slot : Nat) (k : KeyRec) (s : State) : Bool × State :=
  if !pinFits [(slot, k)] s then (false, s)
  else if inSapwood slot k s then (true, useSapwood slot k s)
  else (false, if s.store.loading.contains (slot, k.gen) || restarting s then s else useSapwood slot k s)

/-- The effect of SA_ADD: the standing lease, SA_BOUND, and for a transmit SA the record's end (R326, R333). -/
def saAddRun (_ : Mb) (q : Req) (s : State) : Ans × State :=
  let b := q.body
  let sc := fld b 0 4
  let id := 4 * sc + fld b 4 1
  match tget s.eth.scs sc, resolve (fld b 8 8) none s with
  | some c, some (slot, k) =>
    match leaseReady slot k s with
    | (false, s) => (.stay, s)
    | (true, s) =>
      let pin := bitOf (fld b 5 1) 0
      let a : Sa :=
        { slot := slot, gen := k.gen, next := beFld b 0x10 8, lowest := if c.tx then 0 else beFld b 0x10 8, enable := bitOf (fld b 5 1) 1
          pinned := pin, salt := padTo 12 (slice b 0x18 12), ready := !c.tx, readySeq := if c.tx then s.store.nextSeq else 0 }
      let s := { s with eth.sas := tset s.eth.sas id a }
      let s := if pin then pinLanes (c.port / 8) slot k.gen k.owner s else s
      if c.tx then
        let s := storeChange [] (fun x => { x with keys := tmod x.keys slot (fun k => { k with state := .exhausted, saBound := k.saBound + 1 }) }) s
        durableAns { body := layout 16 [(0, 4, id), (8, 8, lastSeq s)] } s
      else (.reply { body := leBytes 4 id }, modKey slot (fun k => { k with saBound := k.saBound + 1 }) s)
  | _, _ => (cmdFail St.handleInvalid, s)

/-- SA_ADD (R326, R328). -/
def execSaAdd (mb : Mb) (s : State) : Out := runCmd mb 0x0518 (guarded (storeCheck saAddCheck) saAddDesig (storeRun saAddRun)) s

/-- The checks of SA_REMOVE. -/
def saRemoveCheck (mb : Mb) (q : Req) (s : State) : Option Nat :=
  match saNamed mb (fld q.body 0 4) s with
  | some st => some st
  | none => if ((tget s.eth.sas (fld q.body 0 4)).map (·.removing)).getD false then some St.stateConflict else none

/-- SA_REMOVE (R332). -/
def execSaRemove (mb : Mb) (s : State) : Out :=
  runCmd mb 0x0519 (direct saRemoveCheck (fun _ q s =>
    let id := fld q.body 0 4
    let next := match tget s.eth.sas id with | some a => a.next | none => 0
    ethAnswer 0 id { body := beBytes 8 next } (removeSa id s))) s

/-- SA_DRAINED: the last frame of an SA being removed has left its lane (R332). -/
def execSaDrained (sa : Nat) (s : State) : Out :=
  onUnit (sa < 131072) (
    match tget s.eth.sas sa with
    | some a => if a.removing && saFlight sa s = 0 then ethSettle (ethSweep (dropSa sa s)) else s
    | none => s)

/-- The checks of SA_SWITCH (R330). -/
def saSwitchCheck (mb : Mb) (q : Req) (s : State) : Option Nat :=
  let n := fld q.body 0 1
  if 3 < fld q.body 1 1 then some St.fieldInvalid
  else match secyNamed mb n s, getSecy n s with
  | some st, _ => some st
  | none, some y => match liveSa (4 * y.txSc + fld q.body 1 1) s with
    | some a => if a.exhausted then some St.stateConflict else none
    | none => some St.stateConflict
  | none, none => some St.stateConflict

/-- SA_SWITCH (R330). -/
def execSaSwitch (mb : Mb) (s : State) : Out :=
  runCmd mb 0x051A (direct saSwitchCheck (fun _ q s =>
    let n := fld q.body 0 1
    let y := getSecy n s
    let next := match y.bind (fun y => encSa y s) with | some a => a.next | none => 0
    (.reply { body := leBytes 8 ((y.bind (·.encAn)).getD 0) ++ beBytes 8 next },
      { s with eth.secys := tmod s.eth.secys n (fun y => { y with encAn := some (fld q.body 1 1) }) }))) s

/-- The checks of SA_SET: a receive SA, whose lowest PN never falls (R331). -/
def saSetCheck (mb : Mb) (q : Req) (s : State) : Option Nat :=
  let id := fld q.body 0 4
  let pn := beFld q.body 8 8
  match saNamed mb id s, tget s.eth.sas id, tget s.eth.scs (id / 4) with
  | some st, _, _ => some st
  | none, some a, some c =>
    if c.tx then some St.stateConflict
    else if pn ≠ 0 && (pn < a.lowest || (match getSecy c.port s with | some y => decide (lastPn y.suite < pn) | none => false)) then some St.fieldInvalid
    else none
  | none, _, _ => some St.handleInvalid

/-- SA_SET (R331). -/
def execSaSet (mb : Mb) (s : State) : Out :=
  runCmd mb 0x051B (direct saSetCheck (fun _ q s =>
    let pn := beFld q.body 8 8
    (.reply {}, { s with eth.sas := tmod s.eth.sas (fld q.body 0 4) (fun a =>
      { a with enable := bitOf (fld q.body 4 1) 1, lowest := max a.lowest pn, next := max a.next pn }) }))) s

/-- The first n counters of a table. -/
def counters (n : Nat) (t : Tab DWord) : Bytes := ((List.range n).map (fun i => leBytes 8 (tgetD t i 0).toNat)).flatten

/-- The checks of MACSEC_STATS (R345). -/
def macsecStatsCheck (mb : Mb) (q : Req) (s : State) : Option Nat :=
  let id := fld q.body 4 4
  match fld q.body 0 1 with
  | 0 => if 31 < id then some St.fieldInvalid
         else if (getSecy id s).isNone then some (if mbIsVf mb then St.ownerDenied else St.stateConflict)
         else if secyMine mb id s then none else some St.ownerDenied
  | 1 => scNamed mb id s
  | 2 => saNamed mb id s
  | _ => some St.fieldInvalid

/-- The counters of an object (R345). -/
def macsecCounters (scope id : Nat) (s : State) : Bytes :=
  let tx (sc : Nat) : Bool := match tget s.eth.scs sc with | some c => c.tx | none => false
  match scope with
  | 0 => match getSecy id s with | some y => counters 15 y.c | none => []
  | 1 => match tget s.eth.scs id with | some c => counters (if c.tx then 2 else 8) c.c | none => []
  | _ => match tget s.eth.sas id with | some a => counters (if tx (id / 4) then 2 else 5) a.c | none => []

/-- MACSEC_STATS (R345). -/
def execMacsecStats (mb : Mb) (s : State) : Out :=
  runCmd mb 0x0520 (direct macsecStatsCheck (fun _ q s => (.reply { body := macsecCounters (fld q.body 0 1) (fld q.body 4 4) s }, s))) s

/-- The checks of FRAME_RING_CREATE, as QUEUE_CREATE makes them (R245, R343). -/
def frameRingCheck (mb : Mb) (q : Req) (s : State) : Option Nat :=
  let fn := mbFn mb
  let b := q.body
  let qid := fld b 0 2
  if 2 < fld b 2 1 || 1023 < fld b 0x18 2 then some St.fieldInvalid
  else if !qidOk fn qid || qidUsed fn qid s || fld b 3 1 < 4 || 12 < fld b 3 1 || fld b 8 8 % 4096 ≠ 0 || fld b 0x10 8 % 4096 ≠ 0
      || !vectorOk fn (fld b 4 2) then some St.queueInvalid
  else if queueGrant fn s ≤ fnQueueCount fn s then some St.quotaExceeded
  else none

/-- FRAME_RING_CREATE (R340). -/
def execFrameRingCreate (mb : Mb) (s : State) : Out :=
  runCmd mb 0x0528 (direct frameRingCheck (fun mb q s =>
    let b := q.body
    let fn := mbFn mb
    let r : Ring :=
      { dir := fld b 2 1, log2 := fld b 3 1, vector := fld b 4 2, coalCount := fld b 6 1, coalUs := fld b 0x18 2, addr := fld b 8 8, evt := fld b 0x10 8 }
    (.reply { body := leBytes 4 (dbOffset fn (fld b 0 2)) }, { s with eth.rings := tset s.eth.rings (qKey fn (fld b 0 2)) r }))) s

end Sys2Proof.Machine
end

