-- ==== Sys2Proof/Machine/Migrate.lean ====
section
/-! DEFINITION. What replication and VF migration share: prepare blobs, destination evidence, transfer keys (R114, R115, R403-R405). The forms the spec gives no layout for are the model's (log entry 29). -/

namespace Sys2Proof.Machine

/-- The two public keys of a prepare, from the seeds of its private keys: ML-KEM-1024, ECDH P-384. -/
def prepPublic (priv : Bytes) : Bytes × Bytes := (prim 1568 .keyPair [[0x31], priv.take 64], prim 97 .keyPair [[0x21], priv.drop 64])

/-- The signed part of a prepare blob: DOMAIN_ID, MEMBER, VF, nonce, public keys, destination evidence (R114, R403). -/
def prepBody (domain member vf : Nat) (nonce priv : Bytes) (s : State) : Bytes :=
  let ev := evidence nonce s
  layout 8 [(0, 4, domain), (4, 2, member), (6, 2, vf)] ++ padTo 32 nonce ++ (prepPublic priv).1 ++ (prepPublic priv).2 ++ [0, 0, 0] ++ leBytes 4 ev.length ++ ev

/-- A prepare blob: its body, then the attestation key's signature. -/
def prepBlob (domain member vf : Nat) (nonce priv : Bytes) (s : State) : Bytes :=
  prepBody domain member vf nonce priv s ++ attSign (prepBody domain member vf nonce priv s) s

/-- The fields of a prepare blob. -/
structure Prep where
  domain : Nat
  nonce : Bytes
  kem : Bytes
  ecdh : Bytes
  evidence : Bytes
  body : Bytes
  sig : Bytes
  deriving DecidableEq, Repr

/-- Read a prepare blob. -/
def readPrep (b : Bytes) : Prep :=
  let n := fld b 0x6AC 4
  { domain := fld b 0 4, nonce := slice b 8 32, kem := slice b 0x28 1568, ecdh := slice b 0x648 97, evidence := slice b 0x6B0 n
    body := b.take (0x6B0 + n), sig := slice b (0x6B0 + n) 96 }

/-- The evidence of a destination that an image may be built for (R114). -/
def destinationOk (p : Prep) : Bool :=
  let e := p.evidence
  Config.verdict .sign [[0x42], e, p.body, p.sig] && Config.verdict .sign [[0x43], e] && (fld e 0x18 1 == 4 || fld e 0x18 1 == 5)
    && !bitOf (fld e 0x0A 2) 0 && fld e 0x1C 2 == 0x0402

/-- The transfer key from the two shared secrets (R115, R405). -/
def transferKey (label ctx : Bytes) (owner : Nat) (kem ecdh : Bytes) : Bytes :=
  kdf 32 0 (kem ++ ecdh) (fixedInput label ctx owner 2 3 256)

/-- What the source makes for a destination: KEM ciphertext, ephemeral point, transfer key. -/
def sealTo (p : Prep) (r label ctx : Bytes) (owner : Nat) : Bytes × Bytes × Bytes :=
  (prim 1568 .encap [[1], p.kem, r.take 32], prim 97 .keyPair [[0x21], r.drop 32],
    transferKey label ctx owner (prim 32 .encap [[2], p.kem, r.take 32]) (prim 48 .agree [[0x21], r.drop 32, p.ecdh]))

/-- The transfer key as the destination recovers it. -/
def openFrom (priv ct point label ctx : Bytes) (owner : Nat) : Bytes :=
  transferKey label ctx owner (prim 32 .encap [[3], priv.take 64, ct]) (prim 48 .agree [[0x21], priv.drop 64, point])

/-- An image key wrapped with AES-KWP (R115, R119, R405). -/
def wrapImageKey (kek key : Bytes) : Bytes := keyWrap 2 kek key

/-- The image key of a wrap, if it verifies. -/
def unwrapImageKey (kek w : Bytes) : Option Bytes := keyUnwrap 2 kek w

/-- An image: header as AAD, the encrypted body, the tag. The 96-bit zero IV is R405's; R115 and R119 give none, and the model takes the same (R115, R119, R405, log entry 163). -/
def sealImage (key head body : Bytes) : Bytes :=
  let iv : Bytes := List.replicate 12 0
  let ct := gcmCrypt key iv body
  head ++ ct ++ gcmTag key iv head ct

/-- The body of an image whose tag verifies. -/
def openImage (key : Bytes) (headLen : Nat) (img : Bytes) : Option Bytes :=
  let iv : Bytes := List.replicate 12 0
  let head := img.take headLen
  let ct := (img.drop headLen).take (img.length - headLen - 16)
  if img.length < headLen + 16 || gcmTag key iv head ct != img.drop (img.length - 16) then none else some (gcmCrypt key iv ct)

/-- The prepares of an owner, or of a VF, that are still usable (R114, R403). -/
def usablePreps (owner : Nat) (vf : Option Nat) (s : State) : List Prepare :=
  s.cust.prepares.filter (fun p => p.owner == owner && p.vf == vf && decide (seconds s ≤ p.until_))

/-- The prepare that an image was sealed for, with what it opens to: TOKEN_EXPIRED with none usable, UNWRAP_FAILED where none opens it (R114, R406). -/
def openWith (owner : Nat) (vf : Option Nat) (opens : Prepare → Option Bytes) (s : State) : Except Nat (Prepare × Bytes) :=
  match usablePreps owner vf s with
  | [] => .error St.tokenExpired
  | ps => match ps.findSome? (fun p => (opens p).map (fun d => (p, d))) with
    | some r => .ok r
    | none => .error St.unwrapFailed

/-- One prepare is consumed (R114, R403). -/
def usePrep (p : Prepare) (s : State) : State := { s with cust.prepares := without s.cust.prepares p }

/-- The prepares of an owner, or of a VF, are void. -/
def voidPrep (owner : Nat) (vf : Option Nat) (s : State) : State :=
  { s with cust.prepares := s.cust.prepares.filter (fun p => !(p.owner == owner && p.vf == vf)) }

end Sys2Proof.Machine
end

