-- ==== Sys2Proof/Machine/Vfs.lean ====
section
/-! DEFINITION. Virtual functions: binding, limits, grants, quiesce, freeze, resets, migration (chapter 14). -/

namespace Sys2Proof.Machine

/-- A VF a command names: in range and enabled (R385, R409). -/
def vfNamed (n : Nat) (s : State) : Bool := n < 4096 && (getFn (.vf n) s).enabled

/-- A check that the VF of the body at offset 0 is enabled, then another. -/
def vfCheck (check : Nat → Alloc → State → Option Nat) : Mb → Req → State → Option Nat := fun _ q s =>
  let n := fld q.body 0 2
  if vfNamed n s then check n (getAlloc (.vf n) s) s else some St.fieldInvalid

/-- VFs bound to an owner (R94). -/
def boundVfs (o : Nat) (s : State) : List Nat := (s.allocs.filter (fun a => 4 ≤ a.1 && a.2.owner == some o)).map (fun a => a.1 - 4)

/-- The checks of VF_BIND (R385). -/
def vfBindCheck (mb : Mb) (q : Req) (s : State) : Option Nat :=
  let o := fld q.body 4 4
  vfCheck (fun _ a s =>
    if a.owner.isSome then some St.stateConflict
    else match getOwner o s with
    | some x => if x.state != .active then some St.ownerDenied else if x.vfQuota ≤ (boundVfs o s).length then some St.quotaExceeded else none
    | none => some St.ownerDenied) mb q s

/-- VF_BIND (R385, R388). -/
def execVfBind (mb : Mb) (s : State) : Out :=
  runCmd mb 0x0401 (direct vfBindCheck (fun _ q s =>
    let n := fld q.body 0 2
    let s := tdiError n s
    (.reply {}, setAlloc (.vf n) { getAlloc (.vf n) s with owner := some (fld q.body 4 4) } s))) s

/-- Every queue pair and frame ring of a function goes; the device holds no address of them (R246, R397). -/
def dropQueues (fn : Fn) (s : State) : State :=
  let k := fnKey fn
  { s with
    host.queues := s.host.queues.filter (fun p => p.1 / 256 != k)
    eth.rings := s.eth.rings.filter (fun p => p.1 / 256 != k)
    host.coalDue := s.host.coalDue.filter (fun q => q / 256 != k) }

/-- VF_UNBIND (R387, R388). -/
def execVfUnbind (mb : Mb) (s : State) : Out :=
  runCmd mb 0x0402 (direct (vfCheck (fun _ a _ => if a.quiesced || a.frozen || a.saved then none else some St.stateConflict)) (fun _ q s =>
    let n := fld q.body 0 2
    let fn := Fn.vf n
    let a := getAlloc fn s
    let r : Resp := { body := layout 8 [(0, 1, fnQueueCount fn s), (4, 4, a.suspended.length)] }
    let s := match a.owner with | some o => voidPrep o (some n) (tdiError n s) | none => tdiError n s
    let s := modFn fn (fun f => { f with credit := 0 }) (setAlloc fn {} (dropQueues fn s))
    (.reply r, if a.grants.isEmpty then s else capRewrite s))) s

/-- QMG_VF_STAT (chapter 14, Registers). -/
def vfStatWord (n : Nat) (s : State) : Nat :=
  let a := getAlloc (.vf n) s
  b2n a.owner.isSome + 2 * b2n a.quiesced + 4 * b2n a.frozen + 8 * b2n a.saved + 16 * b2n a.draining + 32 * fnQueueCount (.vf n) s
    + 2 ^ 12 * min 15 a.grants.length + 2 ^ 16 * fnHeld (.vf n) s

/-- The VF VF_QUERY names: 0xFFFF is the caller (R409). -/
def vfQueried (mb : Mb) (q : Req) : Nat :=
  match mb with
  | .vf n => if fld q.body 0 2 = 0xFFFF then n else fld q.body 0 2
  | .pf _ _ => fld q.body 0 2

/-- The checks of VF_QUERY: a VF may ask for itself only (R409). -/
def vfQueryCheck (mb : Mb) (q : Req) (s : State) : Option Nat :=
  let n := vfQueried mb q
  if mbIsVf mb && mb != .vf n then some St.functionDenied
  else if vfNamed n s then none else some St.fieldInvalid

/-- VF_QUERY (R409). -/
def execVfQuery (mb : Mb) (s : State) : Out :=
  runCmd mb 0x0403 (direct vfQueryCheck (fun mb q s =>
    let n := vfQueried mb q
    let a := getAlloc (.vf n) s
    (.reply { body := layout 16 [(0, 4, a.owner.getD 0), (4, 4, vfStatWord n s), (8, 1, a.queues), (0x0A, 2, (getFn (.vf n) s).credit),
      (0x0C, 2, a.weight), (0x0E, 1, a.standMask)] }, s))) s

/-- A function a command names by its code (R343, R409). -/
def fnNamed (code : Nat) (s : State) : Option Fn :=
  (fnOfCode code).filter (fun fn => match fn with | .pf p => pfPresent s p | .vf n => vfNamed n s)

/-- Every function's larger of GRANT and HELD, with a new GRANT for one (R275, R389). -/
def creditSum (fn : Fn) (credit : Nat) (s : State) : Nat :=
  let ks := fnKey fn :: without (s.host.fns.map (·.1)) (fnKey fn)
  (ks.map (fun k =>
    let f := (qOfKey (256 * k)).1
    max (if k = fnKey fn then credit else (getFn f s).credit) (fnHeld f s))).foldl (· + ·) 0

/-- The checks of VF_SET_LIMITS (R389). -/
def vfSetLimitsCheck (_ : Mb) (q : Req) (s : State) : Option Nat :=
  let b := q.body
  match fnNamed (fld b 0 2) s with
  | none => some St.fieldInvalid
  | some fn =>
    let vf := match fn with | .vf _ => true | .pf _ => false
    if 7936 < fld b 4 2 || (vf && 64 < fld b 2 1) then some St.fieldInvalid
    else if 7936 < creditSum fn (fld b 4 2) s then some St.quotaExceeded
    else if vf && decide (fld b 2 1 < fnQueueCount fn s) then some St.stateConflict
    else none

/-- VF_SET_LIMITS (R389). -/
def execVfSetLimits (mb : Mb) (s : State) : Out :=
  runCmd mb 0x0404 (direct vfSetLimitsCheck (fun _ q s =>
    match fnNamed (fld q.body 0 2) s with
    | none => (cmdFail St.fieldInvalid, s)
    | some fn =>
      let s := modFn fn (fun f => { f with credit := fld q.body 4 2 }) s
      (.reply {}, match fn with
        | .vf _ => setAlloc fn { getAlloc fn s with queues := fld q.body 2 1 } s
        | .pf _ => s))) s

/-- Every node of a tree. -/
def treeNodes (kind : Nat) : List NodeId :=
  (List.range (13 + 8 * leafCount kind)).filterMap (fun i => nodeOf (treeBase kind + i))

/-- Steps 3 to 7 of R390 for a grant on a node. -/
def grantFail (fn : Fn) (n : NodeId) (excl : Bool) (amount : Nat) (s : State) : Option Nat :=
  let near (g : Grant) : Bool := nodeAbove n g.node || nodeAbove g.node n
  if n.kind = 1 && nodeWorld n s = 0 then some St.fieldInvalid
  else if excl && !(grantsWhere (fun f g => f != fn && near g) s).isEmpty then some St.stateConflict
  else if !excl && (!(grantsWhere (fun _ g => g.exclusive && near g) s).isEmpty
      || (treeNodes n.kind).any (fun m => nodeAbove m n && decide (grantCap m s < sharedSum m s + amount))) then some St.stateConflict
  else if n.kind = 1 && !excl && (grantsWhere (fun f g => g.node == n && (getAlloc f s).owner != (getAlloc fn s).owner) s).isEmpty == false then
    some St.ownerDenied
  else if 16 ≤ (getAlloc fn s).grants.length then some St.quotaExceeded
  else none

/-- The checks of VF_GRANT (R390). -/
def vfGrantCheck (_ : Mb) (q : Req) (s : State) : Option Nat :=
  let b := q.body
  match fnNamed (fld b 0 2) s with
  | none => some St.fieldInvalid
  | some fn =>
    if fld b 4 4 ≠ s.units.capGen then some St.stateConflict
    else match nodeOf (fld b 2 2) with
    | none => some St.fieldInvalid
    | some n =>
      let mode := fld b 8 1
      let amount := fld b 0x0C 4
      if 1 < n.kind || (mode ≠ 1 && mode ≠ 2) || (mode = 1 && amount ≠ 0) || (mode = 2 && (amount < 1 || grantCap n s < amount)) then some St.fieldInvalid
      else grantFail fn n (mode = 1) amount s

/-- The lowest free GRANT_ID of a function (any free one would do, log entry 43). -/
def freeGrant (a : Alloc) : Nat := ((List.range 16).find? (fun i => !a.grants.any (fun g => g.id == i))).getD 0

/-- A grant is taken (R390). -/
def addGrant (fn : Fn) (n : NodeId) (excl : Bool) (amount : Nat) (s : State) : State :=
  let a := getAlloc fn s
  setAlloc fn { a with grants := a.grants ++ [{ id := freeGrant a, node := n, exclusive := excl, amount := amount }] } s

/-- WEIGHT as CLN_WEIGHT of the function holds it. -/
def fnWeight (fn : Fn) (s : State) : Nat := (clnWeight fn s).1

/-- VF_GRANT (R390, R391). -/
def execVfGrant (mb : Mb) (s : State) : Out :=
  runCmd mb 0x0405 (direct vfGrantCheck (fun _ q s =>
    match fnNamed (fld q.body 0 2) s, nodeOf (fld q.body 2 2) with
    | some fn, some n =>
      let id := freeGrant (getAlloc fn s)
      let s := capRewrite (addGrant fn n (fld q.body 8 1 = 1) (fld q.body 0x0C 4) s)
      (.reply { body := layout 4 [(0, 1, id), (2, 2, fnWeight fn s)] }, s)
    | _, _ => (cmdFail St.fieldInvalid, s))) s

/-- Applets started through a function that run on cores a grant covers (R393). -/
def grantApplets (fn : Fn) (g : Grant) (s : State) : List Nat :=
  (s.cores.applets.filter (fun p => g.node.kind == 1 && p.2.via == some fn && (p.2.state == .running || p.2.state == .stopping)
    && (nodeLeaves g.node).contains (p.2.core / 9, p.2.core % 9))).map (·.1)

/-- A grant a function holds. -/
def grantNamed (q : Req) (s : State) : Option (Fn × Grant) :=
  match fnNamed (fld q.body 0 2) s with
  | none => none
  | some fn => ((getAlloc fn s).grants.find? (fun g => g.id == fld q.body 2 1)).map (fun g => (fn, g))

/-- The checks of VF_REVOKE (R393, R409). -/
def vfRevokeCheck (_ : Mb) (q : Req) (s : State) : Option Nat :=
  if (fnNamed (fld q.body 0 2) s).isNone then some St.fieldInvalid
  else match grantNamed q s with
  | none => some St.handleInvalid
  | some (fn, g) => if !bitOf (fld q.body 4 4) 0 && !(grantApplets fn g s).isEmpty then some St.stateConflict else none

/-- VF_REVOKE (R391, R393). -/
def execVfRevoke (mb : Mb) (s : State) : Out :=
  runCmd mb 0x0406 (direct vfRevokeCheck (fun _ q s =>
    match grantNamed q s with
    | none => (cmdFail St.handleInvalid, s)
    | some (fn, g) =>
      let s := (grantApplets fn g s).foldl (fun s i => forceStop i s) s
      let a := getAlloc fn s
      let s := capRewrite (setAlloc fn { a with grants := a.grants.filter (fun x => x.id != g.id) } s)
      (.reply { body := leBytes 2 (fnWeight fn s) }, s))) s

/-- The entry of a grant in VF_GRANTS (R409). -/
def grantBytes (g : Grant) (s : State) : Bytes :=
  layout 16 [(0, 1, g.id), (1, 1, if g.exclusive then 1 else 2), (2, 1, g.node.kind), (3, 1, g.node.tier), (4, 1, g.node.stand), (5, 1, g.node.loc),
    (8, 4, g.amount), (0x0C, 4, effective g s)]

/-- VF_GRANTS (R409). -/
def execVfGrants (mb : Mb) (s : State) : Out :=
  runCmd mb 0x0407 (direct (fun _ q s => if (fnNamed (fld q.body 0 2) s).isNone then some St.fieldInvalid else none) (fun _ q s =>
    match fnNamed (fld q.body 0 2) s with
    | none => (cmdFail St.fieldInvalid, s)
    | some fn =>
      let gs := (getAlloc fn s).grants
      (.reply { body := leBytes 8 gs.length ++ (gs.map (fun g => grantBytes g s)).flatten }, s))) s

/-- A command that waits for a VF to hold nothing is answered, or its result kept (R287). -/
def deliverVf (n : Nat) (freeze : Bool) (r : Resp) (s : State) : State :=
  s.mbox.foldl (fun s p => deliver (mbOfKey p.1) (if freeze then 0x0410 else 0x0408) (· == .vfIdle n freeze) r s) s

/-- The VF holds no context and no mailbox command of it is in progress (R395, R400). -/
def vfIdle (n : Nat) (s : State) : Bool := fnHeld (.vf n) s = 0 && (getMb (.vf n) s).state != .busy

/-- VF_QUIESCE and VF_FREEZE want a bound VF that is neither quiesced nor frozen (R409). -/
def vfIntake (a : Alloc) : Option Nat :=
  if a.owner.isNone || a.quiesce || a.freeze then some St.stateConflict else none

/-- VF_QUIESCE: intake stops (R395). -/
def execVfQuiesce (mb : Mb) (s : State) : Out :=
  runCmd mb 0x0408 (direct (vfCheck (fun _ a _ => vfIntake a)) (fun _ q s =>
    let n := fld q.body 0 2
    let a := getAlloc (.vf n) s
    (.hold (.vfIdle n false), setQueuesState (.vf n) .active .paused (setAlloc (.vf n) { a with quiesce := true, draining := true, posted := 0 } s)))) s

/-- VF_QUIESCE_COMPLETE (R395, R396). -/
def execVfQuiesceComplete (n : Nat) (s : State) : Out :=
  onUnit (n < 4096) (
    let a := getAlloc (.vf n) s
    if a.quiesce && a.draining && vfIdle n s then
      deliverVf n false { body := leBytes 4 a.posted } (setAlloc (.vf n) { a with quiesced := true, draining := false } s)
    else s)

/-- VF_RESUME (R396). -/
def execVfResume (mb : Mb) (s : State) : Out :=
  runCmd mb 0x0409 (direct (vfCheck (fun _ a _ => if a.quiesced then none else some St.stateConflict)) (fun _ q s =>
    let n := fld q.body 0 2
    let a := getAlloc (.vf n) s
    (.reply {}, setQueuesState (.vf n) .paused .active (setAlloc (.vf n) { a with quiesce := false, quiesced := false } s)))) s

/-- Suspended entries stand by queue, in fetch order. -/
def insertSusp (e : Suspended) : List Suspended → List Suspended
  | [] => [e]
  | x :: r => if x.qid < e.qid || (x.qid == e.qid && x.no < e.no) then x :: insertSusp e r else e :: x :: r

/-- Suspend one entry (R400). -/
def suspendEntry (n : Nat) (e : Suspended) (s : State) : State :=
  let a := getAlloc (.vf n) s
  setAlloc (.vf n) { a with suspended := insertSusp e a.suspended, nSuspended := a.nSuspended + 1 } s

/-- A context that has not reached RUNNING is suspended: its leases are released and it is FREE with no completion (R400). -/
def suspendCtx (n c : Nat) (s : State) : State :=
  match getCtx c s with
  | none => s
  | some x =>
    match x.src with
    | .queue fn qid no =>
      if fn == .vf n && (x.state == .admitted || x.state == .leasing) then
        let size := match getQ (qKey fn qid) s with | some q => sqSize q | none => 1
        let s := drainCtx c { x with early := false, writes := [] } s
        suspendEntry n { qid := qid, no := no, remaining := x.deadlineAt - s.us, slot := no % size, entry := x.entry } (freeCtx c false s)
      else s
    | _ => s

/-- Entries fetched and not yet admitted are suspended with the contexts (R400). -/
def suspendFetched (n k : Nat) (s : State) : State :=
  match getQ k s with
  | none => s
  | some q =>
    q.fetched.foldl (fun s e => suspendEntry n { qid := k % 256, no := e.1, remaining := e.2.1, slot := e.1 % sqSize q, entry := e.2.2 } s)
      (setQ k { q with fetched := [] } s)

/-- VF_FREEZE: intake stops, what has not reached RUNNING is suspended (R400, R402). -/
def execVfFreeze (mb : Mb) (s : State) : Out :=
  runCmd mb 0x0410 (direct (vfCheck (fun _ a _ => vfIntake a)) (fun _ q s =>
    let n := fld q.body 0 2
    let s := tdiError n s
    let a := getAlloc (.vf n) s
    let s := setAlloc (.vf n) { a with freeze := true, draining := true, posted := 0, nSuspended := 0 } s
    let s := setQueuesState (.vf n) .active .paused s
    let s := (fnQueues (.vf n) s).foldl (fun s p => suspendFetched n p.1 s) s
    (.hold (.vfIdle n true), (s.ctxs.map (·.1)).foldl (fun s c => suspendCtx n c s) s))) s

/-- VF_FREEZE_COMPLETE (R400, R401). -/
def execVfFreezeComplete (n : Nat) (s : State) : Out :=
  onUnit (n < 4096) (
    let a := getAlloc (.vf n) s
    if a.freeze && a.draining && vfIdle n s then
      deliverVf n true { body := leBytes 4 a.posted ++ leBytes 4 a.nSuspended } (setAlloc (.vf n) { a with frozen := true, draining := false } s)
    else s)

/-- The entries of one queue are re-admitted before anything new is fetched (R401). -/
def readmit (n : Nat) (es : List Suspended) (k : Nat) (s : State) : State :=
  match getQ k s with
  | none => s
  | some q =>
    let mine := (es.filter (fun e => e.qid == k % 256)).map (fun e => (e.no, e.remaining, e.entry))
    admitQ k (setQ k { q with fetched := mine ++ q.fetched } s)

/-- VF_THAW of a SAVED VF needs the owner's ADMIN_POLICY (R401). -/
def vfThawDesig : Desig := fun _ q s =>
  let a := getAlloc (.vf (fld q.body 0 2)) s
  if a.saved then some (match a.owner.bind (fun o => getOwner o s) with | some o => o.adminPolicy | none => 0) else none

/-- The checks of VF_THAW (R401). -/
def vfThawCheck : Mb → Req → State → Option Nat := vfCheck (fun _ a _ => if a.frozen then none else some St.stateConflict)

/-- The effect of VF_THAW (R401). -/
def vfThawRun (_ : Mb) (q : Req) (s : State) : Ans × State :=
  let n := fld q.body 0 2
  let a := getAlloc (.vf n) s
  let s := match a.owner with | some o => voidPrep o (some n) s | none => s
  let s := setAlloc (.vf n) { a with freeze := false, frozen := false, saved := false, suspended := [], nSuspended := 0 } s
  let s := setQueuesState (.vf n) .paused .active s
  (.reply { body := leBytes 4 a.suspended.length }, (fnQueues (.vf n) s).foldl (fun s p => readmit n a.suspended p.1 s) s)

/-- VF_THAW (R401). -/
def execVfThaw (mb : Mb) (s : State) : Out := runCmd mb 0x0411 (guarded vfThawCheck vfThawDesig vfThawRun) s

/-- The checks of VF_PREPARE (R403, R409). -/
def vfPrepareCheck (mb : Mb) (q : Req) (s : State) : Option Nat :=
  vfCheck (fun n a s =>
    if a.owner.isNone || a.quiesce || a.freeze || a.saved || fnQueueCount (.vf n) s ≠ 0 || fnHeld (.vf n) s ≠ 0 || !a.suspended.isEmpty then
      some St.stateConflict
    else none) mb q s

/-- The effect of VF_PREPARE (R403). -/
def vfPrepareRun (mb : Mb) (q : Req) (s : State) : Ans × State :=
  let n := fld q.body 0 2
  let a := getAlloc (.vf n) s
  let o := a.owner.getD 0
  match takeWarden 144 s with
  | (none, s) => (.stay, s)
  | (some bits, s) =>
    let nonce := bits.take 32
    let priv := bits.drop 32
    let x := getOwner o s
    let blob := prepBlob ((x.map (·.domainId)).getD 0) ((x.map (·.member)).getD 0) n nonce priv s
    if fld q.body 0x10 4 < blob.length || !hostOk (mbFn mb) (fld q.body 8 8) blob.length s then (cmdFail St.gatherFault, s)
    else
      let p : Prepare := { owner := o, vf := some n, nonce := nonce, priv := priv, until_ := seconds s + 600 }
      let s := setAlloc (.vf n) { a with freeze := true, frozen := true } { s with cust.prepares := s.cust.prepares ++ [p] }
      (.reply { body := leBytes 4 blob.length }, hostWrite (fld q.body 8 8) blob s)

/-- VF_PREPARE (R403). -/
def execVfPrepare (mb : Mb) (s : State) : Out := runCmd mb 0x0412 (direct vfPrepareCheck vfPrepareRun) s

/-- A VF is named by some port's forwarding or by a SecY's events (R404). -/
def vfNamedByPorts (n : Nat) (s : State) : Bool :=
  let c := fnCode (.vf n)
  s.eth.ports.any (fun p => (match p.2.fwd with | .ring f _ => f == c | _ => false) || p.2.uncFn == c) || s.eth.secys.any (fun p => p.2.evtFn == c)

/-- The VF record of an image (R405). -/
def imgRecord (n : Nat) (s : State) : Bytes :=
  let a := getAlloc (.vf n) s
  let b := getMb (.vf n) s
  let req (g : Grant) : Bytes := layout 8 [(0, 1, g.node.kind), (1, 1, g.node.tier), (2, 1, if g.exclusive then 1 else 2), (4, 4, g.amount)]
  layout 0x40 [(0, 2, n), (2, 1, a.queues), (3, 1, (fnQueues (.vf n) s).length), (4, 2, (getFn (.vf n) s).credit), (6, 2, a.suspended.length),
    (8, 1, b.recs.length), (9, 1, a.grants.length), (0x10, 8, b.high.getD 0)] ++ padTo 192 ((a.grants.map req).flatten)

/-- The MSI-X part of an image (R405). -/
def imgMsix (n : Nat) (s : State) : Bytes :=
  let f := getFn (.vf n) s
  let entry (v : Nat) : Bytes := padTo 12 (tgetD f.msix v []) ++ leBytes 4 (b2n (!f.unmasked.contains v))
  ((List.range 64).map entry).flatten ++ leBytes 8 ((f.pendingVec.map (fun v => 2 ^ v)).foldl (· + ·) 0) ++ List.replicate 8 0

/-- A queue in an image (R405). -/
def imgQueue (k : Nat) (q : Queue) : Bytes :=
  layout 64 [(0, 2, k % 256), (2, 1, q.sqLog2), (3, 1, q.cqLog2), (4, 2, q.vector), (6, 1, q.coalCount), (7, 1, b2n q.relaxed), (8, 8, q.sqAddr), (0x10, 8, q.cqAddr),
    (0x18, 2, q.coalUs), (0x1C, 4, q.defDeadline), (0x20, 2, q.sqHead), (0x22, 2, q.sqTail), (0x24, 2, q.cqTail), (0x26, 2, q.cqHead), (0x28, 1, b2n q.phase)]

/-- A request record in an image (R405). -/
def imgRec (r : MbRec) : Bytes :=
  layout 8 [(0, 8, r.reqId)] ++ r.digest.getD (sha256 r.hashed) ++ padTo 24 [BitVec.ofNat 8 (recCode r.state)] ++
    padTo 1024 (if r.state == .done then respBytes r.opcode r.reqId r.ctx 0 r.resp.info r.resp else [])

/-- The body of an image (R405). -/
def imgBody (n : Nat) (s : State) : Bytes :=
  let susp (e : Suspended) : Bytes := layout 16 [(0, 2, e.qid), (4, 4, e.remaining), (8, 2, e.slot)] ++ padTo 64 e.entry
  imgRecord n s ++ imgMsix n s ++ ((fnQueues (.vf n) s).map (fun p => imgQueue p.1 p.2)).flatten ++ ((getAlloc (.vf n) s).suspended.map susp).flatten ++
    ((getMb (.vf n) s).recs.map imgRec).flatten

/-- "OL9 VFMG" (R405). -/
def vfLabel : Bytes := [0x4F, 0x4C, 0x39, 0x20, 0x56, 0x46, 0x4D, 0x47]

/-- The clear header of an image (R405). -/
def imgHeader (o : Nat) (x : Owner) (dst : Nat) (token ct point wrapped : Bytes) (len : Nat) (s : State) : Bytes :=
  layout 0x28 [(0, 8, 0x474D494656394C4F), (8, 2, 1), (0x0C, 4, o), (0x10, 4, x.domainId), (0x14, 1, x.member), (0x18, 8, s.ident.deviceRef), (0x20, 8, dst)] ++
    padTo 16 token ++ layout 8 [(0, 4, len)] ++ padTo 1568 ct ++ padTo 97 point ++ List.replicate 7 0 ++ padTo 40 wrapped ++ List.replicate 16 0

/-- The checks of VF_SAVE up to the blob (R404, R409). -/
def vfSaveCheck (mb : Mb) (q : Req) (s : State) : Option Nat :=
  vfCheck (fun n a s =>
    if !a.frozen || a.saved then some St.stateConflict
    else if tget s.host.tdis n == some .error || s.kcw.any (fun p => p.2.assign == .vf n) || !(fnRings (.vf n) s).isEmpty || vfNamedByPorts n s then
      some St.stateConflict
    else match blobRead mb (fld q.body 8 8) (fld q.body 0x10 4) s with
    | none => some St.gatherFault
    | some b =>
      let p := readPrep b
      let d := match a.owner.bind (fun o => getOwner o s) with | some o => o.domainId | none => 0
      if !destinationOk p || p.domain ≠ d then some St.evidenceRejected
      else if fld q.body 0x20 4 < 0x710 + (imgBody n s).length || !hostOk (mbFn mb) (fld q.body 0x18 8) (0x710 + (imgBody n s).length) s then some St.gatherFault
      else none) mb q s

/-- A token joins an owner's migration list, newest first (R407). -/
def putToken (o : Nat) (token : Bytes) (consumed : Bool) (c : Content) : Content :=
  let old := (tgetD c.migr o []).filter (fun t => t.take 16 != token.take 16)
  { c with migr := tset c.migr o ((padTo 16 token ++ [BitVec.ofNat 8 (b2n consumed)]) :: old.take 1023) }

/-- The effect of VF_SAVE (R404, R405). -/
def vfSaveRun (mb : Mb) (q : Req) (s : State) : Ans × State :=
  let n := fld q.body 0 2
  let a := getAlloc (.vf n) s
  match a.owner, (a.owner.bind (fun o => getOwner o s)), blobRead mb (fld q.body 8 8) (fld q.body 0x10 4) s with
  | some o, some x, some b =>
    match takeWarden 128 s with
    | (none, s) => (.stay, s)
    | (some bits, s) =>
      let p := readPrep b
      let dst := fld p.evidence 0x10 8
      let token := bits.take 16
      let key := slice bits 16 32
      let r := bits.drop 48
      let (ct, point, tk) := sealTo p r vfLabel (leBytes 8 dst ++ p.nonce) o
      let body := imgBody n s
      let img := sealImage key (imgHeader o x dst token ct point (wrapImageKey tk key) (0x710 + body.length) s) body
      let s := storeChange [] (putToken o token false) (setAlloc (.vf n) { a with saved := true } s)
      (.hold (.commitWrite (lastSeq s) (fld q.body 0x18 8) img { body := layout 16 [(0, 4, img.length), (8, 8, lastSeq s)] }), wantCommit false (lastSeq s) s)
  | _, _, _ => (cmdFail St.stateConflict, s)

/-- VF_SAVE (R404). -/
def execVfSave (mb : Mb) (s : State) : Out := runCmd mb 0x0413 (direct (storeCheck vfSaveCheck) (storeRun vfSaveRun)) s

/-- A node that can carry a grant requirement: on the lowest-numbered stands that satisfy it (R406). -/
def nodeFor (fn : Fn) (kind tier : Nat) (excl : Bool) (amount : Nat) (s : State) : Option NodeId :=
  if 1 < kind then none
  else (treeNodes kind).find? (fun n => n.tier == tier && (excl || (decide (1 ≤ amount) && decide (amount ≤ grantCap n s))) && (grantFail fn n excl amount s).isNone)

/-- Take the grants an image requires; none if one cannot be had (R406). -/
def takeGrants (fn : Fn) : List (Nat × Nat × Nat × Nat) → State → Option State
  | [], s => some s
  | (kind, tier, mode, amount) :: r, s =>
    match nodeFor fn kind tier (mode == 1) amount s with
    | some n => takeGrants fn r (addGrant fn n (mode == 1) amount s)
    | none => none

/-- The grant requirements of an image body. -/
def imgGrants (b : Bytes) : List (Nat × Nat × Nat × Nat) :=
  (List.range (fld b 9 1)).map (fun i => (fld b (0x40 + 8 * i) 1, fld b (0x41 + 8 * i) 1, fld b (0x42 + 8 * i) 1, fld b (0x44 + 8 * i) 4))

/-- A queue of an image, PAUSED, with its saved indices and PHASE (R406). -/
def readQueue (b : Bytes) : Nat × Queue :=
  let h := fld b 0x20 2
  let cq := 2 ^ fld b 3 1
  (fld b 0 2, { state := .paused, sqLog2 := fld b 2 1, cqLog2 := fld b 3 1, vector := fld b 4 2, coalCount := fld b 6 1, coalUs := fld b 0x18 2
                relaxed := bitOf (fld b 7 1) 0, sqAddr := fld b 8 8, cqAddr := fld b 0x10 8, defDeadline := fld b 0x1C 4, sqHead := h, sqTail := fld b 0x22 2
                cqTail := fld b 0x24 2, cqHead := fld b 0x26 2, phase := bitOf (fld b 0x28 1) 0
                unreleased := (fld b 0x24 2 + cq - fld b 0x26 2) % cq, nextNo := 2 ^ fld b 2 1 + h })

/-- The KEY field of an entry under a handle map (R406). -/
def remap (m : List (Nat × Nat)) (e : Bytes) : Bytes × Bool :=
  match m.find? (fun p => p.1 == fld e 8 8) with
  | some p => (e.take 8 ++ leBytes 8 p.2 ++ e.drop 16, true)
  | none => (e, false)

/-- A suspended entry of an image, with the order number its slot gives. -/
def readSusp (qs : List (Nat × Queue)) (m : List (Nat × Nat)) (b : Bytes) : Suspended × Bool :=
  let (e, hit) := remap m (slice b 16 64)
  let no := match qs.find? (fun q => q.1 == fld b 0 2) with
    | some (_, q) => q.nextNo - (q.sqHead + sqSize q - fld b 8 2) % sqSize q
    | none => 0
  ({ qid := fld b 0 2, no := no, remaining := fld b 4 4, slot := fld b 8 2, entry := e }, hit)

/-- A request record of an image. -/
def readRec (b : Bytes) : MbRec :=
  let r := b.drop 0x40
  { reqId := fld b 0 8, hashed := [], digest := some (slice b 8 32), state := if fld b 0x28 1 = recCode .done then .done else .indeterminate, opcode := fld r 0 2
    ctx := fld r 0x18 2, resp := { status := fld r 2 2, info := fld r 4 2, detail := fld r 0x14 4, body := slice r 32 (fld r 0x10 4) } }

/-- The parts of an image body. -/
structure Image where
  record : Bytes
  msix : Bytes
  queues : List (Nat × Queue)
  susp : List (Suspended × Bool)
  recs : List MbRec
  deriving DecidableEq, Repr

/-- Read an image body (R405). -/
def readImage (m : List (Nat × Nat)) (b : Bytes) : Image :=
  let nq := fld b 3 1
  let ns := fld b 6 2
  let qAt := 256 + 1040
  let sAt := qAt + 64 * nq
  let rAt := sAt + 80 * ns
  let qs := (List.range nq).map (fun i => readQueue (slice b (qAt + 64 * i) 64))
  { record := b.take 256, msix := slice b 256 1040, queues := qs
    susp := (List.range ns).map (fun i => readSusp qs m (slice b (sAt + 80 * i) 80))
    recs := (List.range (fld b 8 1)).map (fun i => readRec (slice b (rAt + 1088 * i) 1088)) }

/-- The image and the handle map of a VF_RESTORE, and what opens them: steps 1 to 4 of R406. -/
def openVfImage (mb : Mb) (q : Req) (s : State) : Except Nat (Image × Bytes × Prepare × State) :=
  let n := fld q.body 0 2
  let a := getAlloc (.vf n) s
  let cnt := fld q.body 0x14 4
  match blobRead mb (fld q.body 8 8) (fld q.body 0x10 4) s, (if cnt = 0 then some [] else blobRead mb (fld q.body 0x18 8) (16 * cnt) s) with
  | some img, some mp =>
    match a.owner with
    | none => .error St.tokenExpired
    | some o =>
      let headOk := fld img 0 8 == 0x474D494656394C4F && fld img 8 2 == 1 && fld img 0x0C 4 == o && fld img 0x20 8 == s.ident.deviceRef && fld img 0x38 4 == img.length
      let opens (p : Prepare) : Option Bytes :=
        let tk := openFrom p.priv (slice img 0x40 1568) (slice img 0x660 97) vfLabel (leBytes 8 s.ident.deviceRef ++ p.nonce) o
        (if headOk then unwrapImageKey tk (slice img 0x6C8 40) else none).bind (fun k => openImage k 0x700 img)
      match openWith o (some n) opens s with
      | .error st => .error st
      | .ok (p, b) =>
        let token := slice img 0x28 16
        if (tgetD s.store.c.migr o []).any (fun t => t.take 16 == token && t.drop 16 == [1]) then .error St.tokenExpired
        else
          let i := readImage ((List.range cnt).map (fun j => (fld mp (16 * j) 8, fld mp (16 * j + 8) 8))) b
          if a.queues < fld b 2 1 || a.queues < i.queues.length || (getFn (.vf n) s).credit < fld b 4 2 then .error St.quotaExceeded
          else match takeGrants (.vf n) (imgGrants b) s with
          | none => .error St.quotaExceeded
          | some s => .ok (i, token, p, s)
  | _, _ => .error St.gatherFault

/-- The checks of VF_RESTORE (R406). -/
def vfRestoreCheck (mb : Mb) (q : Req) (s : State) : Option Nat :=
  if !vfNamed (fld q.body 0 2) s then some St.fieldInvalid
  else match openVfImage mb q s with | .error st => some st | .ok _ => none

/-- The MSI-X state of an image is installed (R406). -/
def installMsix (b : Bytes) (f : FnState) : FnState :=
  let vs := List.range 64
  { f with
    msix := (vs.map (fun v => (v, slice b (16 * v) 12)))
    unmasked := vs.filter (fun v => !bitOf (fld b (16 * v + 12) 4) 0)
    pendingVec := vs.filter (fun v => bitOf (fld b 1024 8) v) }

/-- The effect of VF_RESTORE (R406). -/
def vfRestoreRun (mb : Mb) (q : Req) (s : State) : Ans × State :=
  let n := fld q.body 0 2
  let o := (getAlloc (.vf n) s).owner.getD 0
  match openVfImage mb q s with
  | .error st => (cmdFail st, s)
  | .ok (i, token, p, s) =>
    let granted := fld i.record 9 1 ≠ 0
    let s := usePrep p s
    let s := i.queues.foldl (fun s p => setQ (qKey (.vf n) p.1) p.2 s) s
    let s := modFn (.vf n) (installMsix i.msix) s
    let s := setMb (.vf n) { getMb (.vf n) s with recs := i.recs, high := some (fld i.record 0x10 8) } s
    let s := setAlloc (.vf n) { getAlloc (.vf n) s with suspended := i.susp.map (·.1) } s
    let s := storeChange [] (putToken o token true) (if granted then capRewrite s else s)
    let hits := (i.susp.filter (·.2)).length
    durableAns { body := layout 24 [(0, 1, i.queues.length), (4, 4, i.susp.length), (8, 4, hits), (0x10, 8, lastSeq s)] } s

/-- VF_RESTORE (R406). -/
def execVfRestore (mb : Mb) (s : State) : Out := runCmd mb 0x0414 (direct (storeCheck vfRestoreCheck) (storeRun vfRestoreRun)) s

/-- A voided context had issued output writes (R397). -/
def hadOutput (x : Ctx) : Bool := x.released ≠ 0 || (x.state == .posting && ((x.outcome.map (·.done)).getD 0) ≠ 0)

/-- Every context of a function's queues is voided: how many, and whether any had issued output writes (R397). -/
def voidFn (fn : Fn) (s : State) : (Nat × Bool) × State :=
  let mine (x : Ctx) : Bool := match x.src with | .queue f _ _ => f == fn && x.state != .voided | _ => false
  let before := s.ctxs.filter (fun p => mine p.2)
  let s := voidWhere mine s
  let out := before.any (fun p => hadOutput p.2 || (match getCtx p.1 s with | some x => hadOutput x | none => false))
  ((before.length, out), s)

/-- A function returns to its reset configuration: contexts voided, queues ABSENT, mailboxes emptied; allotment and credit stay (R232, R387, R397, R641). -/
def resetFn (fn : Fn) (enabled : Bool) (s : State) : State :=
  let f := getFn fn s
  let s := dropQueues fn (voidFn fn s).2
  let s := setFn fn { enabled := enabled, credit := f.credit } s
  match fn with
  | .pf p => (List.range 8).foldl (fun s m => resetMb (.pf p m) s) s
  | .vf n =>
    let a := getAlloc fn s
    resetMb (.vf n) (setAlloc fn { a with suspended := [] } { s with host.tdis := tdel s.host.tdis n, host.tdiStream := tdel s.host.tdiStream n })

/-- A reset of a VF, forced when it meets work (R397, R398). -/
def resetVf (n : Nat) (enabled : Bool) (s : State) : State :=
  let fn := Fn.vf n
  let owner := (getAlloc fn s).owner.getD 0
  let ((voided, out), _) := voidFn fn s
  let forced := voided ≠ 0 || (getMb (.vf n) s).cur.isSome
  let s := resetFn fn enabled s
  let s := s.kcw.foldl (fun s p => if p.2.assign == .vf n then kcwReset p.1 false s else s) s
  if forced then logCode 0x0401 1 [(0, 2, n), (4, 4, owner), (8, 2, voided), (10, 1, b2n out)] s
  else logCode 0x0402 1 [(0, 2, n), (4, 4, owner)] s

end Sys2Proof.Machine
end

