-- ==== Sys2Proof/Machine/Lookout.lean ====
section
/-! DEFINITION. Lookout tamper and environment monitors: sources, filter, responses, backup domain, SVOUT, Clearcut (chapter 18). -/

namespace Sys2Proof.Machine

/-- Whether a code names a source of R493. -/
def lkoSourceOk (n : Nat) : Bool := 1 ≤ n && n ≤ 0x1D

/-- The default configuration of a source (R503), thresholds in the units of R508 from the table of R606. -/
def lkoDefault (n : Nat) : LkoCfg :=
  match n with
  | 0x01 => { enable := true, thresh := 690, n := 16, wMs := 1, response := 2, holdS := 1 }
  | 0x02 => { enable := true, thresh := 810, n := 4, wMs := 1, response := 3 }
  | 0x03 => { enable := true, thresh := 112, n := 1, wMs := 1, response := 3 }
  | 0x04 => { enable := true, thresh := 828, n := 16, wMs := 1, response := 2, holdS := 1 }
  | 0x05 => { enable := true, thresh := 972, n := 4, wMs := 1, response := 3 }
  | 0x06 => { enable := true, thresh := 135, n := 1, wMs := 1, response := 3 }
  | 0x07 => { enable := true, thresh := 1656, n := 16, wMs := 1, response := 2, holdS := 1 }
  | 0x08 => { enable := true, thresh := 1944, n := 4, wMs := 1, response := 3 }
  | 0x09 => { enable := true, thresh := 270, n := 1, wMs := 1, response := 3 }
  | 0x0A => { enable := true, thresh := 2100, n := 16, wMs := 1000, response := 1 }
  | 0x0B => { enable := true, thresh := 3800, n := 16, wMs := 1000, response := 1 }
  | 0x0C => { enable := true, thresh := 300, n := 4, wMs := 1000, response := 1 }
  | 0x0D => { enable := true, thresh := 5000, n := 3, wMs := 1, response := 2, holdS := 1 }
  | 0x0E => { enable := true, thresh := 3000, n := 1, wMs := 1, response := 3 }
  | 0x0F | 0x10 => { enable := true, thresh := 50, n := 4, wMs := 1, response := 4 }
  | 0x11 => { enable := true, thresh := -25000, n := 10, wMs := 1000, response := 3 }
  | 0x12 => { enable := true, thresh := 115000, n := 10, wMs := 1000, response := 2, holdS := 1 }
  | 0x13 | 0x14 | 0x15 => { enable := true, n := 2, wMs := 1, response := 4 }
  | 0x16 | 0x17 | 0x18 | 0x19 | 0x1A | 0x1B => { enable := false, n := 3, wMs := 10, response := 4 }
  | 0x1C => { enable := false, n := 1, wMs := 1000, response := 1 }
  | 0x1D => { enable := true, n := 1, wMs := 1, response := 1 }
  | _ => {}

/-- The group G of a source (R493). -/
def lkoGroup (n : Nat) : Nat :=
  if n = 0x1D then 3 else if n ≤ 0x0C then (n - 1) / 3 else if n ≤ 0x0E then 4 else if n ≤ 0x10 then 5 else if n ≤ 0x12 then 6
  else if n ≤ 0x15 then n - 0x13 + 7 else if n ≤ 0x19 then 10 else if n ≤ 0x1B then 11 else 12

/-- The configuration in force for a source (R497, R503). -/
def lkoCfg (s : State) (n : Nat) : LkoCfg := tgetD s.lko.cfg n (lkoDefault n)

/-- A source's status. -/
def lkoSrc (s : State) (n : Nat) : LkoSrc := tgetD s.lko.src n {}

/-- Replace a source's status. -/
def setLkoSrc (n : Nat) (x : LkoSrc) (s : State) : State := { s with lko.src := tset s.lko.src n x }

/-- The line of a source's group is high while any source of the group is tripped (R493, R500). -/
def lkoLine (n : Nat) (s : State) : State :=
  if s.lko.src.any (fun p => lkoGroup p.1 == lkoGroup n && p.2.disarmed) then raiseLine (0x60 + lkoGroup n) s else lowerLine (0x60 + lkoGroup n) s

/-- The response that is applied in place of the configured one (R502): code and hold. -/
def lkoApplied (s : State) (cfg : LkoCfg) : Nat × Nat :=
  let r := cfg.response
  if (lcIs s .blank || lcIs s .test) && 1 < r then (1, 0)
  else if r = 5 then
    if s.fbk.fatal then (0, 0)
    else match s.lko.lastReset with
      | some t => if seconds s < t + 10 then (2, 0) else (5, 0)
      | none => (5, 0)
  else (r, cfg.holdS)

/-- The LOOKOUT_TRIP record of a source (R500, R505, R559). -/
def lkoTripRec (n resp events secs : Nat) (latched : Bool) : LogRec :=
  let r := mkRec 0x0701 3 [(0, 1, n), (1, 1, resp), (2, 2, events), (4, 4, secs)]
  { r with flags := b2n (decide (2 ≤ resp)) + 8 * b2n latched }

/-- The Clearcut procedure (R509): secrets overwritten, TAMPERED and the latch programmed, the device stopped, the record written. -/
def clearcutRun (n : Nat) (s : State) : State :=
  let s := orderClear s
  let s := { s with lko.tampered := true, lko.secretsGone := true, lko.clearcutPending := false,
                    start.clearcutLatch := true }
  let s := deviceStop s
  logCode 0x0703 3 [(0, 1, n)] s

/-- The actions of a response beyond its record (R500). -/
def lkoRespond (n resp hold : Nat) (s : State) : State :=
  let s := if 1 ≤ resp then notifyApplets .tamper (n + 2 ^ 24) (vecAllPfs 11 s) else s
  let s := wakePend 3 s
  match resp with
  | 2 =>
    let x := lkoSrc s n
    setLkoSrc n { x with holding := true, holdS := hold } s
  | 3 => orderClear s
  | 4 => clearcutRun n s
  | 5 => { s with lko.resetDue := some n, lko.lastReset := some (seconds s) }
  | _ => s

/-- A source trips: it is disarmed, its record is queued and its response issued (R498, R500, R502). -/
def lkoTrip (n : Nat) (s : State) : State :=
  let cfg := lkoCfg s n
  let (resp, hold) := lkoApplied s cfg
  let x := lkoSrc s n
  let capped := (lcIs s .blank || lcIs s .test) && decide (1 < cfg.response)
  let s := setLkoSrc n { x with disarmed := true, trips := satInc 65535 x.trips, tripTime := seconds s, response := resp, latched := false } s
  let s := { s with lko.trips := satInc 65535 s.lko.trips, lko.capped := s.lko.capped || capped }
  let s := logPut (lkoTripRec n resp x.events.length (seconds s) false) s
  refreshMode (lkoRespond n resp hold (lkoLine n s))

/-- The events within the last W_MS of a source with a new one at t (R498). -/
def lkoWindow (cfg : LkoCfg) (x : LkoSrc) (t : Nat) : List Nat :=
  t :: x.events.filter (fun u => decide (t ≤ u + cfg.wMs * 1000))

/-- Whether a source takes samples now: not in SCRAPPED, and the Canopy sources and CMON not while the Canopy is gated in WATCH (R494, R502). -/
def lkoSampled (s : State) (n : Nat) : Bool :=
  !lcIs s .scrapped &&
  !(s.pwr.state == .watch && !s.pwr.canopyGood && [0x0D, 0x0E, 0x0F, 0x13].contains n) &&
  !(s.pwr.state == .backup && (n < 0x16 || 0x1B < n))

/-- One event of a source at stamp t: recorded, and the Nth in the window of an armed source trips it (R498). -/
def lkoEvent (n t : Nat) (s : State) : State :=
  let cfg := lkoCfg s n
  if !cfg.enable || !lkoSampled s n then s
  else
    let x := lkoSrc s n
    let ev := (lkoWindow cfg x t).take 255
    let s := setLkoSrc n { x with events := ev, present := true, lastEvent := seconds s } s
    if !x.disarmed && decide (cfg.n ≤ ev.length) then lkoTrip n s else s

/-- LOOKOUT_EVENT: a sample in which the condition holds, stamped t, with the reading that showed it (R493, R498). -/
def execLookoutEvent (source t : Nat) (value : Int) (s : State) : Out :=
  let k : Option Nat :=
    if source ≤ 0x0C then some ((source - 1) / 3) else if source = 0x0D then some 4
    else if source = 0x0F then some 5 else if source = 0x10 then some 13
    else if source = 0x11 || source = 0x12 then some 15 else none
  let s1 := match k with
    | some k => if lkoSampled s source then { s with lko.readings := tset s.lko.readings k value } else s
    | none => s
  if lkoSourceOk source then .next (lkoEvent source t s1) else .fault .noSuchUnit

/-- LOOKOUT_RESET: once the record of a RESET response is programmed, the cold start (R500, R551). -/
def execLookoutReset (s : State) : Out :=
  match s.lko.resetDue with
  | none => .next s
  | some n =>
    if s.log.queue.any (fun r => r.code == 0x0701 && fld r.arg 0 1 == n) then .next s
    else .next (coldStart 3 { s with lko.resetDue := none })

/-- MESH_CHECK: a fresh pattern of the Heartwood's own bits goes through mesh k's tracks; a returned bit that differs is an event of MESH_C, MESH_H or MESH_L. Without bits no check is made (R215, R496). -/
def execMeshCheck (mesh t : Nat) (fails : Bool) (s : State) : Out :=
  onUnit (mesh < 3) (match takeHeart 4 s with
    | (none, s) => s
    | (some p, s) =>
      let s := { s with lko.patterns := tset s.lko.patterns mesh p }
      let s := { s with pwr.meshOk := s.pwr.meshOk || (mesh == 0 && !fails) }
      if fails then lkoEvent (0x13 + mesh) t s else setLkoSrc (0x13 + mesh) { lkoSrc s (0x13 + mesh) with present := false } s)

/-- An unpowered trip of a loop or lid: the slot keeps the first time and a count that saturates at 255 (R505). -/
def latchTrip (n : Nat) (s : State) : State :=
  let k := n - 0x16
  let l := tgetD s.lko.latches k {}
  let l' : LkoLatch := if l.valid then { l with count := satInc 255 l.count } else { time := seconds s, count := 1, valid := true }
  { s with lko.latches := tset s.lko.latches k l' }

/-- One loop or lid event, judged by the Heartwood with main power and by the backup domain without (R499, R505). -/
def loopEvent (t : Nat) (s : State) (n : Nat) : State :=
  if s.pwr.state != .backup then lkoEvent n t s
  else
    let cfg := lkoCfg s n
    let x := lkoSrc s n
    if !cfg.enable || !s.lko.copyValid || lcIs s .scrapped then s
    else
      let ev := (lkoWindow cfg x t).take 255
      let trips := !x.disarmed && decide (cfg.n ≤ ev.length)
      let s := setLkoSrc n { x with events := ev, disarmed := x.disarmed || trips } s
      if trips then latchTrip n s else s

/-- LOOP_CHECK: the loops that failed and the levels of the lid inputs in one check; a source whose condition does not hold is no longer PRESENT (R499). -/
def execLoopCheck (t : Nat) (fails lidHigh : List Bool) (s : State) : Out :=
  let loops := (List.range 4).filter (fun k => fails.getD k false)
  let lids := (List.range 2).filter (fun k => lidHigh.getD k false != (lkoCfg s (0x1A + k)).polarity)
  let held := loops.map (· + 0x16) ++ lids.map (· + 0x1A)
  let quiet := ((List.range 6).map (· + 0x16)).filter (fun n => !held.contains n && (lkoSrc s n).present)
  .next (held.foldl (loopEvent t) (quiet.foldl (fun s n => setLkoSrc n { lkoSrc s n with present := false } s) s))

/-- SOURCE_REARM: a full window has passed with no event of the source (R498). -/
def execSourceRearm (source : Nat) (s : State) : Out :=
  if lkoSourceOk source then
    .next (lkoLine source (setLkoSrc source { lkoSrc s source with disarmed := false, events := [], present := false } s))
  else .fault .noSuchUnit

/-- When the last FREEZE hold ends, applets hear TAMPER with ARG0 [24] = 0 and the work that waited goes on (R501). -/
def freezeEnded (n : Nat) (s : State) : State :=
  if frozen s then s else refreshMode (notifyApplets .tamper n (drainDges (dropWait .freeze s)))

/-- FREEZE_HOLD_EXPIRY: HOLD_S seconds have passed with no event of the source (R501). -/
def execFreezeHoldExpiry (source : Nat) (s : State) : Out :=
  if lkoSourceOk source then
    let x := lkoSrc s source
    .next (if x.holding && decide (0 < x.holdS) && decide (x.lastEvent + x.holdS ≤ seconds s) then
      freezeEnded source (setLkoSrc source { x with holding := false } s) else s)
  else .fault .noSuchUnit

/-- SECONDS_TICK: the counter advances; each code with suppressed records gets one SUPPRESSED record and a new window begins (R504, R552). -/
def execSecondsTick (s : State) : Out :=
  let s := { s with lko.seconds := s.lko.seconds + 1 }
  if s.pwr.state == .backup then .next s
  else
    let due := s.log.rates.filter (fun p => decide (0 < p.2.suppressed))
    let s := { s with log.rates := [] }
    .next (due.foldl (fun s p =>
      logCode 0x0001 0 [(0, 2, p.1), (4, 4, min p.2.suppressed 0xFFFFFFFF), (8, 4, seconds s)] s) s)

/-- SECONDS_FLOOR_WRITE: with main power, SECONDS_FLOOR becomes the counter plus 3,600 (R506). -/
def execSecondsFloorWrite (s : State) : Out :=
  .next (if s.pwr.state == .backup then s else { s with lko.floor := s.lko.seconds + 3600 })

/-- BACKUP_DOMAIN_LOSS: with main power absent, the slots and the configuration copy are void and the loss is flagged (R506). -/
def execBackupDomainLoss (s : State) : Out :=
  .next (if s.pwr.state == .backup then
    { s with lko.lossFlag := true, lko.latches := [], lko.copyValid := false, lko.clearcutPending := false } else s)

/-- A failed SVOUT attempt: another after 10 ms, or latch-off with one SVOUT event (R507). -/
def svoutFailed (s : State) : State :=
  if s.lko.svRetries < 3 then
    logCode 0x0702 3 [(0, 1, s.lko.svRetries + 1)] { s with lko.svout := .wait }
  else lkoEvent 0x1C s.us { s with lko.svout := .latchedOff }

/-- SVOUT_RAMP_END: the output is judged at the end of the soft start (R507). -/
def execSvoutRampEnd (ok : Bool) (s : State) : Out :=
  .next (if s.lko.svout == .softstart then
    (if ok then { s with lko.svout := .on, lko.svRetries := 0 } else svoutFailed s) else s)

/-- SVOUT_RETRY_TIMER: 10 ms after a failed attempt a new soft start begins (R507). -/
def execSvoutRetryTimer (s : State) : Out :=
  .next (if s.lko.svout == .wait then { s with lko.svout := .softstart, lko.svRetries := s.lko.svRetries + 1 } else s)

/-- SVOUT_COLLAPSE: the output fell or the limit held for 100 µs while on, a failed attempt (R507). -/
def execSvoutCollapse (s : State) : Out :=
  .next (if s.lko.svout == .on then svoutFailed s else s)

/-- Record i of a LOOKOUT_CONFIG body. -/
def lkoRecord (b : Bytes) (i : Nat) : Bytes := slice b (8 + 16 * i) 16

/-- A configuration record's fields (R514): source and configuration. -/
def lkoRecCfg (r : Bytes) : Nat × LkoCfg :=
  (fld r 0 1, { response := fld r 1 1, n := fld r 2 1, enable := bitOf (fld r 3 1) 0, polarity := bitOf (fld r 3 1) 1,
                wMs := fld r 4 2, holdS := fld r 6 2, thresh := (BitVec.ofNat 32 (fld r 8 4)).toInt })

/-- The 16 bytes of a source's record (R514). -/
def lkoCfgBytes (n : Nat) (c : LkoCfg) : Bytes :=
  layout 16 [(0, 1, n), (1, 1, c.response), (2, 1, c.n), (3, 1, b2n c.enable + 2 * b2n c.polarity),
             (4, 2, c.wMs), (6, 2, c.holdS), (8, 4, (BitVec.ofInt 32 c.thresh).toNat)]

/-- Whether an enabled threshold is already breached by a reading that has been taken (R493, R514). -/
def lkoBreached (s : State) (n : Nat) (c : LkoCfg) : Bool :=
  let rd (p : Int → Bool) (k : Nat) : Bool := match tget s.lko.readings k with | some v => p v | none => false
  c.enable &&
  (if [0x01, 0x04, 0x07, 0x0A].contains n then rd (fun v => decide (v < c.thresh)) ((n - 1) / 3)
   else if [0x02, 0x05, 0x08, 0x0B].contains n then rd (fun v => decide (c.thresh < v)) ((n - 1) / 3)
   else if n = 0x0D then rd (fun v => decide (c.thresh < (v - 100000).natAbs)) 4
   else if n = 0x0F then (List.range 8).any (fun k => rd (fun v => decide (c.thresh < v)) (5 + k))
   else if n = 0x10 then (List.range 2).any (fun k => rd (fun v => decide (c.thresh < v)) (13 + k))
   else if n = 0x11 then (List.range 9).any (fun k => rd (fun v => decide (v < c.thresh)) (15 + k))
   else if n = 0x12 then (List.range 9).any (fun k => rd (fun v => decide (c.thresh < v)) (15 + k))
   else false)

/-- The records of a LOOKOUT_CONFIG request. -/
def lkoReqCfgs (q : Req) : List (Nat × LkoCfg) := (List.range (fld q.body 0 1)).map (fun i => lkoRecCfg (lkoRecord q.body i))

/-- The checks of LOOKOUT_CONFIG (R514). -/
def lookoutConfigCheck (_ : Mb) (q : Req) (s : State) : Option Nat :=
  let n := fld q.body 0 1
  let cs := lkoReqCfgs q
  if n = 0 ∨ 29 < n ∨ q.body.length < 8 + 16 * n then some St.fieldInvalid
  else if cs.any (fun p => !lkoSourceOk p.1 || decide (5 < p.2.response) || p.2.n == 0 || p.2.wMs == 0) then some St.fieldInvalid
  else if !(cs.map (·.1)).Nodup then some St.fieldInvalid
  else if cs.any (fun p => lkoBreached s p.1 p.2) then some St.fieldInvalid
  else none

/-- What index 5 is set over: the calibration records and the Lookout configuration as written (R447, R514). -/
def calImage (s : State) : Bytes :=
  (s.start.cal.map (·.2)).flatten ++ leBytes 4 s.lko.cfgGen ++ (s.lko.cfg.map (fun p => lkoCfgBytes p.1 p.2)).flatten

/-- The effect of LOOKOUT_CONFIG: all records together under a rising CFG_GEN, each changed source's history cleared, index 5 set and index 10 extended (R447, R513, R514). -/
def lookoutConfigRun (_ : Mb) (q : Req) (s : State) : Ans × State :=
  let s := (lkoReqCfgs q).foldl (fun s p => lkoLine p.1
    { s with lko.cfg := tset s.lko.cfg p.1 p.2,
             lko.src := tmod s.lko.src p.1 (fun x => { x with events := [], disarmed := false, present := false }) }) s
  let s := { s with lko.cfgGen := s.lko.cfgGen + 1, lko.copyValid := true }
  let img := calImage s
  let s := measureExtend 10 5 img (measureSet 5 img s)
  (.reply { body := leBytes 4 s.lko.cfgGen }, s)

/-- LOOKOUT_CONFIG (R514). -/
def execLookoutConfig (mb : Mb) (s : State) : Out :=
  runCmd mb 0x0901 (designated .estate lookoutConfigCheck lookoutConfigRun) s

/-- LKO_SRC_STATUS of a source (chapter 18, Registers). -/
def lkoStatusWord (s : State) (n : Nat) : Nat :=
  let x := lkoSrc s n
  b2n (lkoCfg s n).enable + 2 * b2n x.present + 4 * b2n x.holding + 8 * b2n x.latched + 16 * x.response +
    128 * b2n x.disarmed + 256 * min 255 x.events.length + 65536 * min 65535 x.trips

/-- LOOKOUT_QUERY: the source's configuration and status (R514). -/
def execLookoutQuery (mb : Mb) (s : State) : Out :=
  runCmd mb 0x0902 (fun _ q s =>
    let n := fld q.body 0 1
    if !lkoSourceOk n then (cmdFail St.fieldInvalid, s)
    else (.reply { body := lkoCfgBytes n (lkoCfg s n) ++ layout 8 [(0, 4, lkoStatusWord s n), (4, 4, (lkoSrc s n).tripTime)] }, s)) s

/-- The sources that hold a FREEZE. -/
def lkoHolders (s : State) : List Nat := s.lko.src.filterMap (fun p => if p.2.holding then some p.1 else none)

/-- A source that has had an event within its last window (R501): its history is emptied when the window passes. -/
def lkoRecent (s : State) (n : Nat) : Bool := (lkoSrc s n).disarmed || !(lkoSrc s n).events.isEmpty

/-- The checks of LOOKOUT_RELEASE (R501, R514). -/
def lookoutReleaseCheck (_ : Mb) (q : Req) (s : State) : Option Nat :=
  let n := fld q.body 0 1
  if n ≠ 0xFF ∧ !lkoSourceOk n then some St.fieldInvalid
  else if n = 0xFF then
    (if (lkoHolders s).any (lkoRecent s) then some St.stateConflict else none)
  else if !(lkoSrc s n).holding || lkoRecent s n then some St.stateConflict
  else none

/-- The effect of LOOKOUT_RELEASE: holds with HOLD_S 0 of the named sources end (R501). -/
def lookoutReleaseRun (_ : Mb) (q : Req) (s : State) : Ans × State :=
  let n := fld q.body 0 1
  let rel := (lkoHolders s).filter (fun k => (n == 0xFF || k == n) && (lkoSrc s k).holdS == 0)
  let s := rel.foldl (fun s k => setLkoSrc k { lkoSrc s k with holding := false } s) s
  let s := match rel with
    | [] => s
    | k :: _ => freezeEnded k s
  (.reply { body := leBytes 1 (lkoHolders s).length }, s)

/-- LOOKOUT_RELEASE (R501, R514). -/
def execLookoutRelease (mb : Mb) (s : State) : Out :=
  runCmd mb 0x0903 (designated .estate lookoutReleaseCheck lookoutReleaseRun) s

/-- STATE of LKO_SVOUT as a number. -/
def svoutCode : Svout → Nat
  | .off => 0
  | .softstart => 1
  | .on => 2
  | .wait => 3
  | .latchedOff => 4

/-- The check of SVOUT_CTRL (R514). -/
def svoutCtrlCheck (_ : Mb) (q : Req) (_ : State) : Option Nat :=
  if 1 < fld q.body 0 1 then some St.fieldInvalid else none

/-- The effect of SVOUT_CTRL: off switches off without an event; on starts or re-arms with a retry count of 0 (R507). -/
def svoutCtrlRun (_ : Mb) (q : Req) (s : State) : Ans × State :=
  let s :=
    if fld q.body 0 1 = 0 then { s with lko.svout := .off, lko.svRetries := 0, lko.svEnabled := false }
    else
      match s.lko.svout with
      | .off | .latchedOff => { s with lko.svout := .softstart, lko.svRetries := 0, lko.svEnabled := true }
      | _ => { s with lko.svEnabled := true }
  (.reply { body := leBytes 1 (svoutCode s.lko.svout) }, s)

/-- SVOUT_CTRL (R507, R514). -/
def execSvoutCtrl (mb : Mb) (s : State) : Out :=
  runCmd mb 0x0904 (designated .estate svoutCtrlCheck svoutCtrlRun) s

end Sys2Proof.Machine
end

