-- ==== Sys2Proof/Machine/TreeRing.lean ====
section
/-! DEFINITION. The tree-ring log's writer, its commands, and usage metering (chapter 20). -/

namespace Sys2Proof.Machine

/-- The 24 bytes of a record that CHECK covers (R546, R547). -/
def recHead (seq : Nat) (r : LogRec) : Bytes :=
  layout 12 [(0, 8, seq), (8, 2, r.code), (10, 1, r.flags), (11, 1, r.origin)] ++ padTo 12 r.arg

/-- The 32 bytes of a stored record (R546), or what its slot holds when power loss cut it short (R549, R557). -/
def recBytes (x : StoredRec) : Bytes := if x.torn.isEmpty then recHead x.seq x.record ++ padTo 8 x.check else x.torn

/-- CHECK of a record: the leading 8 bytes of SHA-256 over its bytes and the CHECK before it (R547). -/
def recCheck (seq : Nat) (r : LogRec) (before : Bytes) : Bytes :=
  (digest 2 (recHead seq r ++ padTo 8 before)).take 8

/-- Every record held, oldest first. -/
def heldRecs (l : TrLog) : List StoredRec := (l.pages.map (·.recs)).flatten

/-- SEQ of the newest record (TRL_HEAD). -/
def trlHead (l : TrLog) : Nat := l.nextSeq - 1

/-- SEQ of the oldest record held (TRL_TAIL). -/
def trlTail (l : TrLog) : Nat := match heldRecs l with | [] => 0 | x :: _ => x.seq

/-- Ring pages holding records above TRL_ACKED (TRL_STATUS.UNACKED). -/
def trlUnacked (l : TrLog) : Nat := (l.pages.filter (fun p => p.recs.any (fun x => decide (l.acked < x.seq)))).length

/-- TRL_STATUS.LOW (R554). -/
def trlLow (l : TrLog) : Bool := decide (192 ≤ trlUnacked l)

/-- A page is erased: ERASE_COUNT rises, and at 100,000 a spare takes its place or the ring shrinks (R553). -/
def eraseTrl (num : Nat) (l : TrLog) : TrLog :=
  let c := tgetD l.eraseCount num 0 + 1
  let l := { l with eraseCount := tset l.eraseCount num c }
  if c < 100000 then { l with erased := l.erased ++ [num] }
  else match l.spares with
    | [] => l
    | sp :: r => { l with spares := r, erased := l.erased ++ [sp] }

/-- Queue a record for the log's own writer, whatever the limits of producers: carried copies and GAP records. -/
def queueOwn (r : LogRec) (l : TrLog) : TrLog := { l with queue := l.queue ++ [r] }

/-- A carried copy of a PERSISTENT record: ARG unchanged, CARRIED set (R555). -/
def carryRec (r : LogRec) : LogRec := { r with flags := if bitOf r.flags 4 then r.flags else r.flags + 16 }

/-- The oldest ring page is reclaimed: PERSISTENT records queued again, one GAP record for unacknowledged ones, the page erased (R554). -/
def reclaimTrl (l : TrLog) : TrLog :=
  match l.pages with
  | [] => l
  | [_] => l
  | p :: rest =>
    let l1 := (p.recs.filter (fun x => bitOf x.record.flags 1)).foldl (fun l x => queueOwn (carryRec x.record) l) l
    let un := p.recs.filter (fun x => decide (l.acked < x.seq))
    let l2 := match un with
      | [] => l1
      | x :: _ => { queueOwn (mkRec 0x0002 0 [(0, 8, x.seq), (8, 4, un.length)]) l1 with lost := l1.lost + un.length }
    eraseTrl p.num { l2 with pages := rest }

/-- The next ring page is opened with FIRST_SEQ 64 above the page before (R550). -/
def openTrl (l : TrLog) : TrLog :=
  let l := if l.erased.isEmpty then reclaimTrl l else l
  match l.erased with
  | [] => l
  | n :: r =>
    let fs := match l.pages.getLast? with | some p => p.firstSeq + 64 | none => l.nextSeq
    { l with erased := r, pages := l.pages ++ [{ num := n, firstSeq := fs }] }

/-- Append a record to the first opened page with a free slot. -/
def putRec (x : StoredRec) : List TrlPage → List TrlPage
  | [] => []
  | p :: r => if p.recs.length < 64 then { p with recs := p.recs ++ [x] } :: r else p :: putRec x r

/-- Whether an opened page has a free slot. -/
def trlRoom (l : TrLog) : Bool := l.pages.any (fun p => decide (p.recs.length < 64))

/-- A record is programmed with the next SEQ and its chain value (R547, R548). -/
def programRec (r : LogRec) (l : TrLog) : TrLog :=
  let ck := recCheck l.nextSeq r l.lastCheck
  let x : StoredRec := { seq := l.nextSeq, record := r, check := ck }
  { l with pages := putRec x l.pages, nextSeq := l.nextSeq + 1, lastCheck := ck,
           crit := if bitOf r.flags 0 then l.nextSeq else l.crit }

/-- Power is lost while a record waits: a free value says whether its programming had begun. Such a record has taken its SEQ, and its slot reads as free bytes (R548-R550, log entry 194). -/
def tearRec (s : State) : State :=
  if s.log.queue.isEmpty || !trlRoom s.log then s
  else
    let (v, s) := draw s
    if v % 2 = 0 then s
    else
      let (b, s) := drawBytes 32 s
      let x : StoredRec := { seq := s.log.nextSeq, record := { code := 0 }, check := b.drop 24, torn := b }
      { s with log.pages := putRec x s.log.pages, log.nextSeq := s.log.nextSeq + 1, log.lastCheck := b.drop 24 }

/-- LOG_RECORD_QUEUE: a record arrives at the Heartwood (R550, R552). -/
def execLogRecordQueue (code origin : Nat) (arg : Bytes) (s : State) : Out :=
  .next (if lcIs s .scrapped then s else logPut { code := code, flags := codeFlags code, origin := origin, arg := padTo 12 arg } s)

/-- LOG_RECORD_PROGRAMMED: the oldest waiting record is programmed; a waiting critical producer takes the freed place; vector 10 falls due for a critical record or when LOW becomes 1 (R550, R569). -/
def execLogRecordProgrammed (s : State) : Out :=
  match s.log.queue with
  | [] => .next s
  | r :: rest =>
    if trlRoom s.log then
      let l := programRec r s.log
      let l := match s.log.blocked with
        | [] => { l with queue := rest }
        | b :: bs => { l with queue := rest ++ [b], blocked := bs }
      let due := bitOf r.flags 0 || (trlLow l && !trlLow s.log)
      let l := if due then { l with vecDue := (pfs s).foldl addNew l.vecDue } else l
      .next { s with log := l }
    else .next s

/-- LOG_PAGE_OPEN: once the current page has taken its first record the next ring page is opened, reclaiming the oldest if none is erased (R550, R554). -/
def execLogPageOpen (s : State) : Out :=
  match s.log.pages.getLast? with
  | none => .next { s with log := openTrl s.log }
  | some p => if p.recs.isEmpty then .next s else .next { s with log := openTrl s.log }

/-- TRL_VECTOR_SEND: vector 10 of a PF covers every event since the message before (R569). -/
def execTrlVectorSend (p : Nat) (s : State) : Out :=
  if p < 4 then
    .next (if s.log.vecDue.contains p then sendVec (.pf p) 10 { s with log.vecDue := without s.log.vecDue p } else s)
  else .fault .noSuchUnit

/-- TRL_STATUS (chapter 20, Registers). -/
def trlStatusWord (l : TrLog) : Nat :=
  (l.pages.length + l.erased.length) + 2 ^ 9 * l.spares.length + 2 ^ 16 * trlUnacked l + 2 ^ 25 * b2n (trlLow l) +
    2 ^ 26 * b2n (!l.blocked.isEmpty)

/-- LOG_STATUS (R568). -/
def execLogStatus (mb : Mb) (s : State) : Out :=
  runCmd mb 0x0801 (fun _ _ s =>
    let l := s.log
    (.reply { body := layout 48 [(0, 4, trlStatusWord l), (8, 8, trlHead l), (0x10, 8, trlTail l), (0x18, 8, l.acked),
                                 (0x20, 8, l.crit), (0x28, 8, l.lost)] }, s)) s

/-- The CHECK of the record with a SEQ, if it is held. -/
def checkOf (l : TrLog) (seq : Nat) : Nat :=
  match (heldRecs l).find? (fun x => x.seq == seq) with
  | some x => leNat (padTo 8 x.check)
  | none => 0

/-- The 64-byte header of an export (R557). -/
def exportHeader (s : State) (first : Nat) (rs : List StoredRec) : Bytes :=
  let (f, t) := match rs.head?, rs.getLast? with
    | some a, some b => (a.seq, b.seq)
    | _, _ => (first, first - 1)
  [0x4F, 0x4C, 0x39, 0x54, 0x52, 0x4C, 0x58, 0x31] ++
    layout 56 [(0, 2, 1), (4, 4, rs.length), (8, 8, f), (0x10, 8, t), (0x18, 8, checkOf s.log (f - 1)),
               (0x20, 8, s.ident.deviceRef), (0x28, 8, s.log.acked)]

/-- LOG_EXPORT, up to TRL_HEAD as it was when the command was accepted (R557, R568). -/
def execLogExport (mb : Mb) (s : State) : Out :=
  runCmd mb 0x0802 (fun mb q s =>
    let first := fld q.body 0 8
    let out := fld q.body 0x10 8
    let omax := fld q.body 0x18 4
    if omax < 96 then (cmdFail St.destTooSmall, s)
    else
      let n := min (fld q.body 8 4) ((omax - 64) / 32)
      let rs := ((heldRecs s.log).filter (fun x => decide (first ≤ x.seq ∧ x.seq ≤ (getMb mb s).logHead))).take n
      let img := exportHeader s first rs ++ (rs.map recBytes).flatten
      let last := match rs.getLast? with | some x => x.seq | none => first - 1
      blobWrite mb out img { body := layout 16 [(0, 4, rs.length), (8, 8, last)] } s) s

/-- LOG_ACK (R558). -/
def execLogAck (mb : Mb) (s : State) : Out :=
  runCmd mb 0x0803 (fun _ q s =>
    let n := fld q.body 0 8
    if trlHead s.log < n then (cmdFail St.fieldInvalid, s)
    else
      let s := { s with log.acked := max s.log.acked n }
      (.reply { body := leBytes 8 s.log.acked }, s)) s

/-- Program a record at once, opening pages as needed: the carried records and LOG_CLEARED of R556. -/
def programNow (l : TrLog) (r : LogRec) : TrLog :=
  let l := if trlRoom l then l else openTrl l
  programRec r l

/-- The effect of LOG_CLEAR: PERSISTENT records carried, every other page erased, LOG_CLEARED programmed (R556). -/
def logClearRun (_ : Mb) (_ : Req) (s : State) : Ans × State :=
  let l := s.log
  let rs := heldRecs l
  let first := trlTail l
  let l1 := l.pages.foldl (fun l p => eraseTrl p.num l) { l with pages := [] }
  let l2 := (rs.filter (fun x => bitOf x.record.flags 1)).foldl (fun l x => programNow l (carryRec x.record)) l1
  let l3 := programNow l2 (mkRec 0x0003 0 [(0, 8, first), (8, 4, rs.length)])
  (.reply { body := layout 12 [(0, 8, first), (8, 4, rs.length)] },
    { s with log := { l3 with lost := l3.lost + rs.length, vecDue := (pfs s).foldl addNew l3.vecDue } })

/-- LOG_CLEAR (R556). -/
def execLogClear (mb : Mb) (s : State) : Out :=
  runCmd mb 0x0804 (designated .estate (fun _ _ _ => none) logClearRun) s

/-- METER_FLUSH: page blocks of the meter pages whose counts have changed (R562). -/
def execMeterFlush (s : State) : Out :=
  let fl := s.meter.dirty.foldl (fun t o => tset t o (tgetD s.meter.live o {})) s.store.c.meters
  let pages := (s.meter.dirty.map (fun o => 135936 + o / 1024)).eraseDups
  .next (if canChange s then pages.foldl (fun s p => journalPage p s) { s with store.c.meters := fl, meter.dirty := [] } else s)

/-- METER_STATUS (R568). -/
def execMeterStatus (mb : Mb) (s : State) : Out :=
  runCmd mb 0x0810 (fun _ _ s =>
    (.reply { body := layout 18 [(0, 4, s.meter.period), (4, 4, s.meter.opened),
                                 (8, 8, (BitVec.ofInt 64 s.meter.utc).toNat), (16, 2, s.meter.flushS)] }, s)) s

/-- METER_CLOSE: the capture, the next period, the journalled snapshot and METER_CLOSED, then the commit (R564). -/
def execMeterClose (mb : Mb) (s : State) : Out :=
  runCmd mb 0x0811 (fun _ q s =>
    let m := s.meter
    if fld q.body 0 4 ≠ m.period then (cmdFail St.stateConflict, s)
    else
      let now := seconds s
      let live := m.live.filter (fun p => !p.2.deleted)
      let s1 := { s with meter := { m with capPrev := m.capLast, capLast := m.live, live := tmap live (fun _ x => { x with reused := false }),
                                           period := m.period + 1, opened := now, areaB := !m.areaB } }
      let base := if m.areaB then 137984 else 136960
      let s2 := ((m.live.map (fun p => base + p.1 / 1024)).eraseDups).foldl (fun s p => journalPage p s) s1
      let s3 := logCode 0x0901 1 [(0, 4, m.period), (4, 4, m.opened), (8, 4, now)] s2
      durableAns { info := St.durable, body := layout 16 [(0, 4, m.period), (8, 8, s3.store.nextSeq - 1)] } s3) s

/-- An owner's usage of the last closed period: its capture less the capture before (R564). -/
def meterUsage (m : Metering) (o : Nat) : List Nat :=
  let b := tgetD m.capPrev o {}
  let base := if b.deleted then ({} : Meter).c else b.c
  List.zipWith (fun x y => (x + 2 ^ 64 - y) % 2 ^ 64) (tgetD m.capLast o {}).c base

/-- The 72-byte entry of METER_READ (R568). -/
def meterEntry (m : Metering) (o : Nat) : Bytes :=
  let x := tgetD m.capLast o {}
  layout 8 [(0, 4, o), (4, 4, b2n x.reused + 2 * b2n x.deleted)] ++ ((meterUsage m o).map (leBytes 8)).flatten

/-- METER_READ (R565, R568). -/
def execMeterRead (mb : Mb) (s : State) : Out :=
  runCmd mb 0x0812 (fun mb q s =>
    let m := s.meter
    if m.period < 2 then (cmdFail St.stateConflict, s)
    else
      let os := match mbOwner mb s with
        | some o => [o]
        | none => ((m.capLast.map (fun (x : Nat × Meter) => x.1)).filter (fun (o : Nat) => decide (fld q.body 0 4 ≤ o) && (meterUsage m o).any (· != 0))).take (fld q.body 4 4)
      let img := (os.map (meterEntry m)).flatten
      if fld q.body 0x10 4 < img.length then (cmdFail St.destTooSmall, s)
      else blobWrite mb (fld q.body 8 8) img { body := layout 8 [(0, 4, m.period - 1), (4, 4, os.length)] } s) s

/-- METER_SET_UTC: the offset changes, and TIME_SET says whether UTC went back (R566, R567). -/
def execMeterSetUtc (mb : Mb) (s : State) : Out :=
  runCmd mb 0x0813 (fun _ q s =>
    let new := (BitVec.ofNat 64 (fld q.body 0 8)).toInt
    let old := s.meter.utc
    let r := mkRec 0x0902 1 [(0, 8, fld q.body 0 8), (8, 4, s.meter.period)]
    let r := if new < old then { r with flags := r.flags + 32 } else r
    (.reply { body := leBytes 8 (BitVec.ofInt 64 old).toNat }, logPut r { s with meter.utc := new })) s

/-- METER_CONFIG (R562, R568). -/
def execMeterConfig (mb : Mb) (s : State) : Out :=
  runCmd mb 0x0814 (fun _ q s =>
    let f := fld q.body 0 2
    if f < 10 ∨ 3600 < f then (cmdFail St.fieldInvalid, s) else (.reply {}, { s with meter.flushS := f })) s

end Sys2Proof.Machine
end

