-- ==== Sys2Proof/Machine/LifeCycle.lean ====
section
/-! DEFINITION. Life-cycle states and their transitions, authorisation statements, debug enables and the TAP (chapter 17, R615). -/

namespace Sys2Proof.Machine

/-- The state a code names; 5 and above 6 name none that can be stored. -/
def lcOfCode (n : Nat) : Option LcState :=
  match n with
  | 0 => some .blank
  | 1 => some .test
  | 2 => some .personalise
  | 3 => some .production
  | 4 => some .returned
  | 6 => some .scrapped
  | _ => none

/-- The transition the journal names: the open one, else that of the last END, else BLANK to BLANK (R474). -/
def lcNamed (j : List LcEntry) : LcState × LcState :=
  match lcOpen j with
  | some e => (e.src, e.dst)
  | none =>
    match (j.filter (fun e => !e.damaged && e.isEnd)).getLast? with
    | some e => (e.src, e.dst)
    | none => (.blank, .blank)

/-- What authorises a transition (R479). -/
inductive LcAuth where
  | svatum | quorum | both | estate
  deriving DecidableEq, Repr

/-- The permitted transitions and their authority (R479). -/
def lcRow (src dst : LcState) : Option LcAuth :=
  match src, dst with
  | .blank, .test => some .svatum
  | .test, .personalise => some .svatum
  | .personalise, .production => some .quorum
  | .test, .returned => some .svatum
  | .personalise, .returned => some .svatum
  | .production, .returned => some .both
  | .blank, .scrapped => some .svatum
  | .test, .scrapped => some .svatum
  | .personalise, .scrapped => some .svatum
  | .returned, .scrapped => some .svatum
  | .production, .scrapped => some .estate
  | _, _ => none

/-- A signature block of a statement (R476). -/
structure SigBlock where
  signer : Nat
  alg : Nat
  key : Bytes
  sig : Bytes
  deriving DecidableEq, Repr

/-- The blocks that follow a statement, COUNT of them; none when the bytes do not hold them (R476). -/
def sigBlocks : Nat → Bytes → Option (List SigBlock)
  | 0, _ => some []
  | n + 1, b =>
    let kl := fld b 2 2
    let sl := fld b 4 2
    if b.length < 8 + kl + sl then none
    else (sigBlocks n (b.drop (8 + kl + sl))).map
      (fun r => { signer := fld b 0 1, alg := fld b 1 1, key := slice b 8 kl, sig := slice b (8 + kl) sl } :: r)

/-- Whether a block verifies: Svatum's against its life-cycle key, an estate entry's against the key its anchor entry names (R476). -/
def blockOk (l : LifeCycle) (stmt : Bytes) (x : SigBlock) : Bool :=
  if x.signer = 0 then
    x.key.isEmpty && Config.verdict .sign [leBytes 1 0, leBytes 1 x.alg, stmt, x.sig]
  else
    match l.anchor with
    | none => false
    | some a =>
      match a.entries[x.signer - 1]? with
      | none => false
      | some e => e.alg == x.alg && e.key == x.key && Config.verdict .sign [leBytes 1 1, leBytes 1 x.alg, x.key, stmt, x.sig]

/-- Svatum authority: one Svatum block verifies (R476). -/
def svatumMet (l : LifeCycle) (stmt : Bytes) (bs : List SigBlock) : Bool :=
  bs.any (fun x => x.signer == 0 && blockOk l stmt x)

/-- Estate authority: blocks from at least M distinct anchor entries verify (R476). -/
def estateMet (l : LifeCycle) (stmt : Bytes) (bs : List SigBlock) : Bool :=
  match l.anchor with
  | none => false
  | some a => decide (a.m ≤ ((bs.filter (fun x => x.signer != 0 && blockOk l stmt x)).map (·.signer)).eraseDups.length)

/-- Whether an authority is met by a statement's blocks; the quorum of PERSONALISE to PRODUCTION is the estate authority in a resume (R479). -/
def authMet (l : LifeCycle) (a : LcAuth) (stmt : Bytes) (bs : List SigBlock) : Bool :=
  match a with
  | .svatum => svatumMet l stmt bs
  | .both => svatumMet l stmt bs && estateMet l stmt bs
  | .estate | .quorum => estateMet l stmt bs

/-- AUTH_BY of a journal entry (R472). -/
def authBits : LcAuth → Nat
  | .svatum => 1
  | .both => 3
  | .estate => 2
  | .quorum => 4

/-- A statement split into its 64 bytes and its blocks. -/
def parseStatement (b : Bytes) : Option (Bytes × List SigBlock) :=
  if b.length < 68 then none
  else if slice b 0 8 ≠ [0x4F, 0x4C, 0x39, 0x4C, 0x43, 0x41, 0x55, 0x31] then none
  else (sigBlocks (fld b 64 1) (b.drop 68)).map (fun bs => (b.take 64, bs))

/-- The statement bytes of a family 0x07 request: inline at 0x10 or at AUTH_ADDR (R491, R89). -/
def authBytes (mb : Mb) (q : Req) (s : State) : Option Bytes :=
  if bitOf (fld q.body 4 4) 2 then blobRead mb (fld q.body 0x10 8) (fld q.body 8 4) s
  else some (slice q.body 0x10 (fld q.body 8 4))

/-- Judging a presented statement: the nonce is consumed whatever the outcome; then nonce, fields, reference and authority (R477, R479). -/
def judgeStatement (kind src dst : Nat) (auth : LcAuth) (b : Bytes) (s : State) : Option Nat :=
  match parseStatement b with
  | none => some St.fieldInvalid
  | some (st, bs) =>
    if some (slice st 0x20 32) ≠ s.lc.nonce then some St.tokenExpired
    else if fld st 8 1 ≠ kind ∨ fld st 9 1 ≠ src ∨ fld st 10 1 ≠ dst then some St.fieldInvalid
    else if fld st 0x10 8 ≠ s.ident.deviceRef ∨ !authMet s.lc auth st bs then some St.approvalInvalid
    else none

/-- The states between FROM and TO in the order of R469, TO last (R475). -/
def lcPath (src dst : LcState) : List LcState :=
  (([LcState.blank, .test, .personalise, .production, .returned, .scrapped].dropWhile (· != src)).drop 1).takeWhile (· != dst) ++ [dst]

/-- The three copies, one after another, take a state's codeword (R475). -/
def lcCopies (st : LcState) : List LcStep := [.copy 0 st, .copy 1 st, .copy 2 st]

/-- The writes of a transition, in their order (R475). -/
def lcSteps (src dst : LcState) : List LcStep := .begin_ :: (lcPath src dst).flatMap lcCopies ++ [.fin]

/-- The programming that an earlier row of this very command began. -/
def lcOurs (mb : Mb) (q : Req) (s : State) : Option LcRun := s.lc.run.filter (fun r => r.mb == mb && r.reqId == q.reqId)

/-- A programming or a cold start ordered stands in the way of another (R481). -/
def lcTaken (s : State) : Bool := s.lc.run.isSome || s.pwr.orderedCold.isSome

/-- The programming begins, the command's first state change; each further row of the command completes a write (R281, R475). -/
def lcBegin (mb : Mb) (q : Req) (src dst : LcState) (auth : LcAuth) (text : Bytes) (entryNo : Bool) (todo : List LcStep) (s : State) : Ans × State :=
  (.stay, setMb mb { getMb mb s with rank8 := true }
    { s with lc.run := some { src := src, dst := dst, authBy := authBits auth, auth := (digest 3 text).take 8, mb := mb, reqId := q.reqId, entryNo := entryNo, todo := todo } })

/-- What the command answers once its programming is over: ENTRY_NO of the last entry, or TO of a resume (R491). -/
def lcAnswer (r : LcRun) (s : State) : Resp :=
  { body := if r.entryNo then leBytes 4 (s.lc.journal.length - 1) else leBytes 1 (lcCode r.dst) }

/-- The write in progress completes; the last one ends the command (R475, R480). -/
def lcContinue (r : LcRun) (s : State) : Ans × State :=
  let s := lcAdvance s
  (if r.todo.length ≤ 1 then .reply (lcAnswer r s) else .stay, s)

/-- The estate anchor copied from the estate policy, under a rising GEN (R478). -/
def writeAnchor (s : State) : State :=
  match estatePolicyKeys s with
  | none => s
  | some (m, ks) =>
    let g := match s.lc.anchor with | some a => a.gen + 1 | none => 1
    { s with lc.anchor := some { gen := g, m := m, entries := ks.map (fun p => { alg := p.1, key := p.2 }) } }

/-- A resume: the copies are programmed to the TO codeword of the journalled transition, END is written if one was open (R482). -/
def lcResume (mb : Mb) (q : Req) (src dst : LcState) (auth : LcAuth) (text : Bytes) (entryNo : Bool) (s : State) : Ans × State :=
  if s.lc.copies.any (fun c => c &&& lcWord dst != lcWord dst) then (cmdFail St.stateConflict, s)
  else lcBegin mb q src dst auth text entryNo (lcCopies dst ++ if (lcOpen s.lc.journal).isSome then [.fin] else []) s

/-- A command that presents a statement consumes the nonce, whatever its outcome (R477). -/
def consumeNonce (s : State) : State := { s with lc.nonce := none }

/-- LC_NONCE: a new outstanding nonce, of the Heartwood's own bits, replaces the previous one (R215, R477). -/
def execLcNonce (mb : Mb) (s : State) : Out :=
  runCmd mb 0x0701 (fun _ _ s =>
    match takeHeart 32 s with
    | (some n, s) => (.reply { body := n }, { s with lc.nonce := some n })
    | (none, s) => (.stay, s)) s

/-- The resume, in either form: the statement's kind is 3 for LC_RESUME and 2 for LC_TRANSITION (R479, R482). -/
def runResume (kind : Nat) (mb : Mb) (q : Req) (s : State) : Ans × State :=
  let (src, dst) := lcNamed s.lc.journal
  let auth := (lcRow src dst).getD .svatum
  match authBytes mb q s with
  | none => (cmdFail St.gatherFault, s)
  | some b =>
    match judgeStatement kind (lcCode src) (lcCode dst) auth b s with
    | some st => (cmdFail st, consumeNonce s)
    | none => lcResume mb q src dst auth b (kind == 2) (consumeNonce s)

/-- The checks of PERSONALISE to PRODUCTION, which runs by quorum with owner 0 ACTIVE (R92, R479). -/
def lcToProductionCheck (mb : Mb) (q : Req) (s : State) : Option Nat :=
  if (lcOurs mb q s).isSome then none
  else if 318 < s.lc.journal.length ∨ lcTaken s then some St.stateConflict
  else if (estatePolicyKeys s).isNone then some St.modeDenied
  else none

/-- PERSONALISE to PRODUCTION: the estate anchor before BEGIN, then R475 (R478, R479). -/
def lcToProductionRun (mb : Mb) (q : Req) (s : State) : Ans × State :=
  match lcOurs mb q s with
  | some r => lcContinue r s
  | none => lcBegin mb q .personalise .production .quorum q.body true (lcSteps .personalise .production) (writeAnchor s)

/-- LC_TRANSITION in every other row begins (R475, R479, R481, R482, R491). -/
def lcTransitionRun (mb : Mb) (q : Req) (s : State) : Ans × State :=
  if 65536 < fld q.body 8 4 then (cmdFail St.lengthInvalid, s)
  else
    let cur := s.lc.decoded
    let tgt := fld q.body 0 1
    if lcTaken s then (cmdFail St.stateConflict, s)
    else if cur = .invalid then
      (if tgt ≠ lcCode (lcNamed s.lc.journal).2 then (cmdFail St.fieldInvalid, s) else runResume 2 mb q s)
    else
      match lcOfCode tgt with
      | none => (cmdFail St.stateConflict, s)
      | some dst =>
        match lcRow cur dst with
        | none => (cmdFail St.stateConflict, s)
        | some auth =>
          if 318 < s.lc.journal.length then (cmdFail St.stateConflict, s)
          else
            match authBytes mb q s with
            | none => (cmdFail St.gatherFault, s)
            | some b =>
              match judgeStatement 2 (lcCode cur) tgt auth b s with
              | some st => (cmdFail st, consumeNonce s)
              | none => lcBegin mb q cur dst auth b true (lcSteps cur dst) (consumeNonce s)

/-- LC_TRANSITION: its checks and BEGIN, then one write of R475 for each further row, the last of which answers (R479). -/
def execLcTransition (mb : Mb) (s : State) : Out :=
  runCmd mb 0x0702 (fun mb q s =>
    match lcOurs mb q s with
    | some r => lcContinue r s
    | none =>
    if s.lc.decoded = .personalise ∧ fld q.body 0 1 = 3 then
      designated .estate lcToProductionCheck lcToProductionRun mb q s
    else lcTransitionRun mb q s) s

/-- LC_RESUME: its checks, then one write for each further row, the last of which answers (R482, R491). -/
def execLcResume (mb : Mb) (s : State) : Out :=
  runCmd mb 0x0703 (fun mb q s =>
    match lcOurs mb q s with
    | some r => lcContinue r s
    | none =>
    let dst := (lcNamed s.lc.journal).2
    if 65536 < fld q.body 8 4 then (cmdFail St.lengthInvalid, s)
    else if lcTaken s then (cmdFail St.stateConflict, s)
    else if (lcOpen s.lc.journal).isNone ∧ s.lc.copies.all (fun c => c == lcWord dst) then (cmdFail St.stateConflict, s)
    else runResume 3 mb q s) s

/-- The check of LC_ANCHOR_REFRESH: accepted only in PRODUCTION (R478). -/
def anchorRefreshCheck (_ : Mb) (_ : Req) (s : State) : Option Nat :=
  if s.lc.decoded ≠ .production then some St.modeDenied else none

/-- The effect of LC_ANCHOR_REFRESH (R478, R491). -/
def anchorRefreshRun (_ : Mb) (_ : Req) (s : State) : Ans × State :=
  let s := writeAnchor s
  match s.lc.anchor with
  | none => (.reply {}, s)
  | some a => (.reply { body := layout 6 [(0, 4, a.gen), (4, 1, a.m), (5, 1, a.entries.length)] }, s)

/-- LC_ANCHOR_REFRESH (R478). -/
def execLcAnchorRefresh (mb : Mb) (s : State) : Out :=
  runCmd mb 0x0704 (designated .estate anchorRefreshCheck anchorRefreshRun) s

/-- The authority that grants one enable in a state (R485): bit 0 T_INV, 1 T_NI, 2 U_INV, 3 U_NI. -/
def enableAuth (c : LcState) (bit : Nat) : Option LcAuth :=
  match c with
  | .test | .personalise | .returned => some .svatum
  | .production => if bit = 0 then none else some .estate
  | _ => none

/-- Whether every enable of a mask may be granted by the blocks (R484, R485). -/
def enablesOk (s : State) (mask : Nat) (st : Bytes) (bs : List SigBlock) : Bool :=
  decide (mask < 16) &&
  (List.range 4).all (fun k => !bitOf mask k ||
    (match enableAuth s.lc.decoded k with | none => false | some a => authMet s.lc a st bs))

/-- A grant: enables added, flags, GBL_DEBUG, index 3 reset, index 10 extended, DEBUG_GRANTED (R484, R487). -/
def grantDebug (st : Bytes) (s : State) : State :=
  let mask := fld st 11 1
  let estate := s.lc.decoded == .production
  let owner := if estate && decide (4 ≤ mask) then fld st 12 4 % 2 ^ 20 else s.lc.owner
  let s := { s with lc.enables := s.lc.enables ||| BitVec.ofNat 4 mask, lc.everT := s.lc.everT || mask % 4 != 0,
                    lc.everU := s.lc.everU || mask / 4 % 4 != 0, lc.signer := estate, lc.owner := owner }
  let s := measureExtend 10 3 st (measureSet 3 st s)
  logCode 0x0802 0 [(0, 1, mask), (1, 1, b2n estate), (4, 4, owner)] s

/-- Judging a DEBUG statement (R477, R484-R486): a status, or the statement to grant. -/
def judgeDebug (b : Bytes) (s : State) : Except Nat Bytes :=
  match parseStatement b with
  | none => .error St.fieldInvalid
  | some (st, bs) =>
    if some (slice st 0x20 32) ≠ s.lc.nonce then .error St.tokenExpired
    else if fld st 8 1 ≠ 1 ∨ fld st 10 1 ≠ 0xFF then .error St.fieldInvalid
    else if fld st 0x10 8 ≠ s.ident.deviceRef ∨ !enablesOk s (fld st 11 1) st bs then .error St.approvalInvalid
    else .ok st

/-- Whether a DEBUG statement names a U enable for an owner other than 0 in PRODUCTION (R486). -/
def debugScoped (s : State) (b : Bytes) : Bool :=
  s.lc.decoded == .production && decide (4 ≤ fld b 11 1) && fld b 12 4 % 2 ^ 20 != 0

/-- DEBUG_GRANT presented: length, fetch, judgement, grant (R484, R491). -/
def debugGrantRun (mb : Mb) (q : Req) (s : State) : Ans × State :=
  match authBytes mb q s with
  | none => (cmdFail St.gatherFault, s)
  | some b =>
    match judgeDebug b s with
    | .error st => (cmdFail st, consumeNonce s)
    | .ok st =>
      let s := grantDebug st (consumeNonce s)
      (.reply { body := leBytes 1 s.lc.enables.toNat }, s)

/-- The policy DEBUG_GRANT is designated under: the ADMIN_POLICY of the statement's owner (R486). -/
def debugGrantDesig (b : Bytes) : Desig := fun _ _ s => some ((adminOf (fld b 12 4 % 2 ^ 20) s).getD 0)

/-- DEBUG_GRANT: for an owner other than 0 in PRODUCTION it is designated under that owner's policy (R484, R486). -/
def execDebugGrant (mb : Mb) (s : State) : Out :=
  runCmd mb 0x0708 (fun mb q s =>
    if 65536 < fld q.body 8 4 then (cmdFail St.lengthInvalid, s)
    else
      match authBytes mb q s with
      | none => (cmdFail St.gatherFault, s)
      | some b =>
        if debugScoped s b then guarded (fun _ _ _ => none) (debugGrantDesig b) debugGrantRun mb q s
        else debugGrantRun mb q s) s

/-- GBL_DEBUG (chapter 17, Registers). -/
def debugWord (l : LifeCycle) : Nat :=
  l.enables.toNat + 16 * b2n l.everT + 32 * b2n l.everU + 64 * b2n l.signer + 256 * l.owner

/-- DEBUG_STATUS (R491). -/
def execDebugStatus (mb : Mb) (s : State) : Out :=
  runCmd mb 0x0709 (fun _ _ s => (.reply { body := leBytes 4 (debugWord s.lc) }, s)) s

/-- DEBUG_REVOKE: the enables clear, the flags stay (R487). -/
def execDebugRevoke (mb : Mb) (s : State) : Out :=
  runCmd mb 0x070A (fun _ _ s => (.reply {}, clearEnables s)) s

/-- HWD_DBG_CTRL_NEW: a write of NEW draws a new nonce, once the bits for it are there (R215, R477). -/
def execHwdDbgCtrlNew (s : State) : Out :=
  .next (nonceResume { s with lc.nonceDue := true })

/-- HWD_DBG_CTRL_REVOKE: as DEBUG_REVOKE (R487). -/
def execHwdDbgCtrlRevoke (s : State) : Out := .next (clearEnables s)

/-- TAP_RESET: TRST_N low or five TCK cycles with TMS high reset the TAP (R615). The reset instruction is IDCODE. -/
def execTapReset (s : State) : Out := .next { s with lc.ir := 0x02, lc.drive := .normal, lc.dr := 0 }

/-- Load an instruction the device accepts now, else BYPASS (R489). -/
def tapLoad (ok : Bool) (ir dr : Nat) (s : State) : State :=
  if ok then { s with lc.ir := ir, lc.dr := dr } else { s with lc.ir := 0xFF, lc.dr := 0, lc.drive := .normal }

/-- The level of PERST# of a link, high when it is not asserted. -/
def perstPin (l : Nat) (s : State) : Bool := !(tgetD s.host.links (2 * l) {}).perst

/-- The levels the boundary register samples: straps, RESET_N, PERST#, WAKE_IN, SCL and its drive, SDA and its drive, FB_ALIVE and its enable (R615). What the board drives on WAKE_IN, SCL and SDA is the free value v. -/
def boundarySample (v : Nat) (s : State) : Nat :=
  s.pwr.strapPins % 16 + 16 * b2n (!s.pwr.resetLow) + 2 ^ 5 * b2n (perstPin 0 s) + 2 ^ 6 * b2n (perstPin 1 s) + 2 ^ 7 * b2n (bitOf v 0) +
    2 ^ 8 * b2n (bitOf v 1 && !s.pwr.sclHeld) + 2 ^ 9 * b2n s.pwr.sclHeld + 2 ^ 10 * b2n (bitOf v 2) + 2 ^ 12 * b2n s.fbk.level + 2 ^ 13

/-- EXTEST: the boundary register drives the outputs, only while RESET_N is low (R489). -/
def execExtest (bits : Nat) (s : State) : Out :=
  .next (if s.pwr.resetLow then
    let (v, s) := draw s
    { tapLoad true 0x00 (boundarySample v s) s with lc.boundary := BitVec.ofNat 14 bits, lc.drive := .extest }
  else tapLoad false 0 0 s)

/-- SAMPLE_PRELOAD: always accepted; samples the pins and preloads the register (R489). -/
def execSamplePreload (bits : Nat) (s : State) : Out :=
  let (v, s) := draw s
  .next { tapLoad true 0x01 (boundarySample v s) s with lc.boundary := BitVec.ofNat 14 bits, lc.drive := .normal }

/-- The IDCODE word: stepping 1, part 0x6412, Svatum's JEDEC identity (the spec gives no number: an uninterpreted constant), bit 0 set (R489). -/
def idcodeWord : Nat := 2 ^ 28 + 2 ^ 12 * 0x6412 + 2 * (Config.prim .deviceId [leBytes 1 1] % 2 ^ 11) + 1

/-- IDCODE (R489). -/
def execIdcode (s : State) : Out := .next { tapLoad true 0x02 idcodeWord s with lc.drive := .normal }

/-- CLAMP: outputs clamped to the boundary register, only while RESET_N is low (R489). -/
def execClamp (s : State) : Out :=
  .next (if s.pwr.resetLow then { tapLoad true 0x03 0 s with lc.drive := .clamp } else tapLoad false 0 0 s)

/-- HIGHZ: outputs in high impedance, only while RESET_N is low (R489). -/
def execHighz (s : State) : Out :=
  .next (if s.pwr.resetLow then { tapLoad true 0x04 0 s with lc.drive := .highz } else tapLoad false 0 0 s)

/-- BYPASS: the one-bit bypass register (R489). -/
def execBypass (s : State) : Out := .next { tapLoad true 0xFF 0 s with lc.drive := .normal }

/-- DBG_NONCE: the outstanding nonce is shifted out; not in SCRAPPED (R489). -/
def execDbgNonce (s : State) : Out := .next (tapLoad (!lcIs s .scrapped) 0x10 (leNat (s.lc.nonce.getD [])) s)

/-- DBG_TOKEN: a statement loaded through the gate is judged on its last word; in PRODUCTION it grants U enables only for OWNER 0 (R484, R486, R489). -/
def execDbgToken (statement : Bytes) (s : State) : Out :=
  if lcIs s .scrapped then .next (tapLoad false 0 0 s)
  else
    let s := tapLoad true 0x11 0 s
    .next (match judgeDebug statement s with
      | .error st => { consumeNonce s with lc.tokenResult := if st = St.tokenExpired then 2 else if st = St.fieldInvalid then 4 else 3 }
      | .ok st =>
        if debugScoped s statement then { consumeNonce s with lc.tokenResult := 3 }
        else { grantDebug st (consumeNonce s) with lc.tokenResult := 1 })

/-- DBG_STATUS: GBL_DEBUG is shifted out (R489). -/
def execDbgStatus (s : State) : Out := .next (tapLoad true 0x13 (debugWord s.lc) s)

/-- TP_SCAN: a test port instruction, 0x20 to 0x2F, accepted only in BLANK and TEST; what it shifts out is not stated and is a free value (R483, R489). -/
def execTpScan (instr : Nat) (s : State) : Out :=
  let (v, s) := draw s
  .next (tapLoad ((lcIs s .blank || lcIs s .test) && decide (0x20 ≤ instr ∧ instr ≤ 0x2F)) instr v s)

end Sys2Proof.Machine
end

