-- ==== Sys2Proof/Machine/Start.lean ====
section
/-! DEFINITION. Cold start, Warden pairs, failover and trusted restart (chapters 02 and 16). -/

namespace Sys2Proof.Machine

/-- A slot of the IMG partition: 0 A, 1 B. -/
def getSlot (n : Nat) (s : State) : ImageSlot := if n = 0 then s.start.slotA else s.start.slotB

/-- Replace a slot. -/
def setSlot (n : Nat) (x : ImageSlot) (s : State) : State :=
  if n = 0 then { s with start.slotA := x } else { s with start.slotB := x }

/-- A slot passes R443. -/
def slotPasses (n : Nat) (s : State) : Bool :=
  let x := getSlot n s
  decide (n < 2) && x.valid && x.intact && decide (s.start.deviceSvn ≤ x.info.svn)

/-- What index 9 covers: device SVN, preferred slot and both HEADER_DIGESTs (R447). -/
def measureConfig (s : State) : State :=
  measureSet 9 (leBytes 4 s.start.deviceSvn ++ leBytes 1 s.start.preferred ++ sha384 s.start.slotA.info.header ++ sha384 s.start.slotB.info.header) s

/-- The wipes of R480 for the state decoded; one that is complete is not redone. RETURN clears the Clearcut latch only: a Seedling latch that R35 and R39 rank above RETURN stays set, and such a part stays in SEEDLING (DEDUCED, log entry 172). -/
def lcWork (s : State) : State :=
  let d := s.lc.decoded
  if s.lc.wiped = d then s
  else
    let s := { s with lc.wiped := d }
    match d with
    | .personalise => { s with lc.enrolled := s.lc.enrolled + 1, store := { epoch := 0 }, commit := commitErase s.commit, lko.secretsGone := false }
    | .returned => { s with store := {}, commit := commitErase s.commit, lko.secretsGone := true, start.clearcutLatch := false }
    | .scrapped =>
      { s with
        store := {}, commit := commitErase s.commit, log := {}, ident := {}, lc.anchor := none, world.copyA := .erased, world.copyB := .erased
        lko := { seconds := s.lko.seconds, secretsGone := true }
        start := { stage := s.start.stage, slotA := {}, slotB := {} } }
    | _ => s

/-- R512: what the Clearcut procedure left undone is completed. -/
def clearcutResume (s : State) : State :=
  if s.start.clearcutLatch || s.lko.clearcutPending then
    { s with lko.secretsGone := true, lko.tampered := true, lko.clearcutPending := false, start.clearcutLatch := true }
  else s

/-- A trip latched without main power: its record, its response, the slot cleared (R505). FREEZE is held as if HOLD_S were 0; CLEAR and RESET are recorded only. -/
def latchedTrip (k : Nat) (s : State) : State :=
  let n := k + 0x16
  let l := tgetD s.lko.latches k {}
  if !l.valid then s
  else
    let (resp, _) := lkoApplied s (lkoCfg s n)
    let x := lkoSrc s n
    let s := setLkoSrc n { x with latched := true, trips := min 65535 (x.trips + l.count), tripTime := l.time, response := resp } s
    let s := logPut (lkoTripRec n resp l.count l.time true) { s with lko.trips := min 65535 (s.lko.trips + l.count), lko.latchApplied := true }
    let s := if resp = 1 ∨ resp = 2 ∨ resp = 4 then lkoRespond n resp 0 s else s
    { s with lko.latches := tset s.lko.latches k {} }

/-- R506: a loss of the backup domain voids its slots and copy, restarts the counter at SECONDS_FLOOR and raises one BACKUP_LOST event. -/
def backupLoss (s : State) : State :=
  if !s.lko.lossFlag then s
  else
    let s := { s with lko.lossFlag := false, lko.latches := [], lko.copyValid := true, lko.seconds := s.lko.floor, lko.backupLost := true }
    lkoEvent 0x1D s.us s

/-- Stage LC: decode, wipes, Clearcut completion, latched trips, SVOUT, and whether the Seedling firmware will run (R444, R480, R504-R507, R512). -/
def stageLc (s : State) : State :=
  let s := lcWork { s with lc.decoded := lcDecode s.lc }
  if s.lc.decoded = .scrapped then firstMode { s with start.starting := false }
  else
    let s := clearcutResume s
    let s := { (backupLoss ((List.range 6).foldl (fun s k => latchedTrip k s) s)) with lko.copyValid := true }
    let s := if s.lko.svEnabled then { s with lko.svout := .softstart } else s
    let s := measureSet 3 (leBytes 1 (lcCode s.lc.decoded) ++ leBytes 1 (b2n s.start.clearcutLatch) ++ leBytes 1 (b2n s.start.seedling.isSome)) s
    if s.lc.decoded = .invalid || s.start.clearcutLatch || s.start.seedling.isSome then { s with start.seedlingFw := true, start.slot := 2 } else s

/-- A substitution of the log applied at stage CLOCKS: the spare fills the position (R14, R155, R530). -/
def applySwap (s : State) (r : LogRec) : State :=
  let a := fld r.arg 0 2
  let b := fld r.arg 2 2
  match r.code with
  | 0x0502 => setLane b { getLane b s with state := .active } (setLane a { getLane a s with state := .retired } s)
  | 0x0504 => setCore b { getCore b s with state := .idle, pos := some ((getCore a s).pos.getD (a % 9)) } (setCore a { getCore a s with state := .isolated } s)
  | _ => s

/-- A retirement of the log applied at stage CLOCKS, after every substitution: a spare that failed in its turn stays retired, wherever its copies stand in the log (R14, R211, R537, R555). -/
def applyRec (s : State) (r : LogRec) : State :=
  let a := fld r.arg 0 2
  match r.code with
  | 0x0501 => setLane a { getLane a s with state := .retired, cause := fld r.arg 2 1 } s
  | 0x0503 => setCore a { getCore a s with state := if fld r.arg 2 1 = 1 then .retired else .isolated, pos := some ((corePos a s).getD (a % 9)) } s
  | 0x0505 => setStand (fld r.arg 0 1) { getStand (fld r.arg 0 1) s with offline := true, lookasideEn := false } s
  | 0x0506 => if fld r.arg 2 1 = 1 then setBank (fld r.arg 0 1) { getBank (fld r.arg 0 1) s with state := .retired } s else s
  | 0x0507 =>
    let g := fld r.arg 1 1
    match fld r.arg 0 1 with
    | 2 => setWma g { getWma g s with isolated := true } s
    | 3 => setDge g { getDge g s with isolated := true } s
    | _ => setStand g { getStand g s with hucIsolated := true } s
  | 0x0508 =>
    let page := fld r.arg 0 8 / 4096
    if fld r.arg 8 4 = 0xFFFFFFFF then { s with fbk.poisoned := addNew s.fbk.poisoned page }
    else if s.fbk.remap.any (fun p => p.1 == page) then s
    else { s with fbk.remap := s.fbk.remap ++ [(page, fld r.arg 8 4)] }
  | _ => s

/-- Stage CLOCKS: the retirements of the log that no injected fault made, and the SERVICE conditions they give (R14, R536, R537, R543). -/
def stageClocks (s : State) : State :=
  let rs := ((heldRecs s.log).map (·.record) ++ s.log.queue).filter (fun r => persistentCodes.contains r.code && !bitOf r.flags 2)
  let s := rs.foldl applyRec (rs.foldl applySwap { s with fbk.running := true })
  let s := serviceStands 0x1C (!hucInService s) s
  let s := serviceStands 0x1D (decide (4096 ≤ s.fbk.remap.length)) s
  serviceStands 0x1F (storeStopped s) s

/-- Stage MAP: the map in force, index 4, WORLDMAP_REJECTED on FALLBACK, the lock (R418, R447). FAULT of a copy with no readable map is 1. -/
def stageMap (s : State) : State :=
  let (m, src, inA) := chooseMap s.world
  let s := { s with
    world.map := m, world.source := src, world.inA := inA, world.locked := true
    units.dges := dgeUnits.foldl (fun t g => tset t g { tgetD t g {} with worldU := bitOf m.dge g }) s.units.dges }
  let s := { s with world.digest := sha384 (mapBytes m s.ident.deviceRef) }
  let s := measureSet 4 (mapBytes m s.ident.deviceRef) s
  if src = .fallback then
    let f := match s.world.copyA, s.world.copyB with
      | .valid a, _ => (mapFault a).getD 1
      | _, .valid b => (mapFault b).getD 1
      | _, _ => 1
    logCode 0x0105 0 [(0, 1, f)] s
  else s

/-- Stage IMAGES: the slot chosen, IMAGE_FALLBACK; none when neither passes (R443). -/
def stageImages (s : State) : Option State :=
  if s.start.seedlingFw then some s
  else
    let p := s.start.preferred
    let take (n : Nat) (s : State) : State := { s with start.slot := n, start.runW := n, start.runS := n, start.runM := n }
    if slotPasses p s then some (take p s)
    else if slotPasses (1 - p) s then some (logCode 0x0104 0 [(0, 1, 1 - p)] (take (1 - p) { s with start.fallback := true }))
    else none

/-- Each present PF holds CREDIT 1,024 and a shared grant of 256 on the lane root (R389, R394). -/
def pfGrants (s : State) : State :=
  (pfs s).foldl (fun s p =>
    setFn (.pf p) { getFn (.pf p) s with credit := 1024 }
      (setAlloc (.pf p) { getAlloc (.pf p) s with queues := 256, grants := [{ id := 1, node := { kind := 0, tier := 3 }, exclusive := false, amount := 256 }] } s)) s

/-- Stage WARDEN: the primary pair runs; FWLEVEL, the directory, the PFs' allotments, the store's state, the measurements (R26, R241, R447, R450). -/
def stageWarden (s : State) : State :=
  let i := slotInfo s.start.slot s
  let seed := s.start.seedlingFw
  let s := { s with
    ident.wdnLevel := if seed then 0x0402 else i.wdnLevel
    ident.svcLevel := if seed then 0 else i.svcLevel
    start.active := 0, start.standby := if seed then .absent else .loading, start.heartbeatAt := s.us
    store.state := if s.store.commitNo = 0 then .ready else .loading }
  let s := measureSet 2 romImage (measureSet 1 (leBytes 8 (Config.prim .deviceId [[3]])) s)
  let s := measureSet 5 (calImage s) s
  let s := if seed then measureSet 6 romImage s
    else measurePut 8 i.monDigest (measurePut 7 i.svcDigest (measurePut 6 i.wdnDigest s))
  recomputeWeights (capFirst (pfGrants (measureConfig s)))

/-- A start reached a working mode: the count of failures returns to 0 (R34). -/
def startSucceeded (s : State) : State := if [4, 5, 6].contains s.mode.mode then { s with start.startFails := 0 } else s

/-- A cold start has chosen its mode: a working mode returns the count to 0; in QUARANTINE the start has failed to reach one (R34). Starts with the Seedling firmware are not counted (R444). -/
def modeReached (s : State) : State := if s.mode.mode = 8 && !s.start.seedlingFw then countStartFail s else startSucceeded s

/-- A cold start fails (R446): LAST_STAGE, the record, the count, a new cold start at once. Starts with the Seedling firmware are not counted (R444). -/
def startFail (s : State) : State :=
  let s := { s with start.lastStage := s.start.stage }
  let s := logCode 0x0102 0 [(0, 1, s.start.stage), (1, 1, 0)] s
  coldStart 5 (if s.start.seedlingFw then s else countStartFail s)

/-- The stage after n; a start with the Seedling firmware skips STANDBY, SERVICE and GLADE (R444, R445). -/
def nextStage (s : State) : Nat := if s.start.seedlingFw && s.start.stage == 9 then 13 else s.start.stage + 1

/-- The bits a stage draws: the boot nonce at ROOT, the mask of the KEK's shares at HBM (R56). -/
def stageBits (n : Nat) (s : State) : Option Bytes × State := if n = 3 ∨ n = 6 then takeHeart 32 s else (some [], s)

/-- What a stage's completion needs of the noise sources: the early source at ROOT, a Canopy bank at CLOCKS (R213, R215, R445). -/
def stageNoise (n : Nat) (s : State) : Bool :=
  match n with
  | 3 => delivers earlyBank s
  | 5 => entropyOk s
  | _ => true

/-- The work of a stage that completes. -/
def stageWork (n : Nat) (ok : Bool) (d : Bytes) (s : State) : State :=
  match n with
  | 1 => { s with pwr.straps := s.pwr.strapPins }
  | 2 => stageLc s
  | 3 => rebuildRoot d s
  | 4 => { s with pwr.canopyGood := true, pwr.goodAt := s.us }
  | 5 => stageClocks s
  | 6 => deliverKek d s
  | 7 => stageMap s
  | 9 => stageWarden s
  | 10 =>
    if ok then { s with start.standby := .ready }
    else serviceReport 0x1A 1 false (unitReport 0x0E 1 false { s with start.standby := .absent, start.pairFails := 2 })
  | 13 => modeReached (firstMode { s with start.starting := false })
  | _ => s

/-- START_STAGE_DONE: the next stage completes; ok says whether its test passed. It does not complete before the noise it needs delivers and the bits it draws are there (R444-R446). A failure of stage ROM halts the device, uncounted. -/
def execStartStageDone (ok : Bool) (s : State) : Out :=
  .next (
    if !s.start.starting || s.start.halted || s.pwr.resetLow || s.pwr.state == .backup then s
    else
      let n := nextStage s
      if n = 1 && !ok then { s with start.halted := true }
      else if !ok && !(n = 10 || n = 11 || n = 12) then startFail s
      else if n = 8 then
        match stageImages s with
        | some s => { s with start.stage := 8 }
        | none => startFail s
      else if !stageNoise n s then s
      else match stageBits n s with
        | (none, s) => s
        | (some d, s) => stageWork n ok d { s with start.stage := n })

/-- START_STAGE_TIMEOUT: a stage exceeds its maximum, or 2 s have passed (R446). Stage ROM halts the device. -/
def execStartStageTimeout (s : State) : Out :=
  .next (if !s.start.starting || s.start.halted || s.pwr.resetLow || s.pwr.state == .backup then s
    else if s.start.stage = 0 then { s with start.halted := true }
    else startFail s)

/-- The command of a programming under way is gone, or its programming is over: what is left is completed, and the cold start of R46 follows, a FATAL fault notwithstanding (R481, DEDUCED, log entry 193). -/
def lcAlone (r : LcRun) (s : State) : Bool := r.todo.isEmpty || (getMb r.mb s).cur.isNone

/-- COLD_START_AFTER_ORDER: the cold start ordered by a life-cycle transition or a recovery commit (R46, R466, R481). -/
def execColdStartAfterOrder (s : State) : Out :=
  .next (match s.lc.run with
    | some r => if !s.pwr.resetLow && lcAlone r s then coldReset 4 (lcFinish s) else s
    | none =>
      match s.pwr.orderedCold with
      | some c => coldStart c s
      | none => s)

/-- The Warden pair that is active runs. -/
def wardenUp (s : State) : Bool :=
  decide (9 ≤ s.start.stage) && !restarting s && !s.start.failingOver && s.pwr.state == .active

/-- CHECKPOINT_EPOCH: the next epoch is complete; open approvals are as it holds them (R108, R451). -/
def completeEpoch (s : State) : State := { s with start.epoch := s.start.epoch + 1, cust.saved := s.cust.approvals }

/-- CHECKPOINT_EPOCH (R451). -/
def execCheckpointEpoch (s : State) : Out := .next (if wardenUp s then completeEpoch s else s)

/-- WARDEN_HEARTBEAT (R450). -/
def execWardenHeartbeat (s : State) : Out := .next (if wardenUp s then { s with start.heartbeatAt := s.us } else s)

/-- The world-T cores in service: the service cores. -/
def serviceCores (s : State) : List Nat := (coresInService s).filter (fun c => !coreU c s)

/-- The world-U cores in service: the glade cores. -/
def gladeCores (s : State) : List Nat := (coresInService s).filter (fun c => coreU c s)

/-- RESTART_BEGIN or RESTART_END on every function. -/
def restartEvent (isEnd : Bool) (s : State) : State :=
  eventAllVfs (if isEnd then 3 else 2) (eventAllPfs (if isEnd then 4 else 3) s)

/-- The Seedling latch is set and the device stops (R34, R37). -/
def enterSeedling (why : SeedReason) (s : State) : State :=
  let s := { s with start.seedling := s.start.seedling.orElse (fun _ => some why) }
  refreshMode (deviceStop s)

/-- Trusted restarts of the last 600 s (R34). -/
def recentRestarts (s : State) : List Nat := s.start.restartTimes.filter (fun t => seconds s ≤ t + 600)

/-- Stage 0x21: RESTARTING, the events and notifications; approvals end; an update or handover under way is abandoned (R108, R454, R457). -/
def beginRestart (reason : Nat) (s : State) : State :=
  let s := endUpdate 4 s
  let s := { s with
    start.restarting := true, start.restartReason := reason, start.restarts := min 65535 (s.start.restarts + 1)
    start.restartTimes := if lcIs s .production then (seconds s :: recentRestarts s).take 3 else s.start.restartTimes
    start.stage := 0x21, start.kindRestart := true, start.failingOver := false, start.handStep := 0, start.handPlain := false
    cust.approvals := [], cust.saved := [] }
  refreshMode (notifyApplets .restartBegin 0 (restartEvent false s))

/-- The masters of the Warden's pairs (chapter 01). -/
def wardenMaster (m : Nat) : Bool := 0xC0 ≤ m && m ≤ 0xC3

/-- A trusted restart is ordered: absorbed by one in progress; the third within 600 s is not performed and sets the Seedling latch (R34, R453, R457). -/
def trustedRestart (reason : Nat) (s : State) : State :=
  if restarting s || s.fbk.fatal || s.start.stage < 9 || s.pwr.state == .watch || s.pwr.state == .backup then s
  else if lcIs s .production && decide (2 ≤ (recentRestarts s).length) then enterSeedling .restartRate s
  else beginRestart reason s

/-- The standby takes over, or a trusted restart is ordered when it cannot (R286, R453). -/
def failover (s : State) : State :=
  if restarting s || s.start.stage < 9 then s
  else if s.start.failingOver || s.start.standby ≠ .ready then trustedRestart 0 s
  else restartIssue wardenMaster { s with start.failingOver := true, start.failovers := min 65535 (s.start.failovers + 1) }

/-- WARDEN_FAILOVER (R286, R450). -/
def execWardenFailover (s : State) : Out := .next (if s.pwr.state == .watch || s.pwr.state == .backup then s else failover s)

/-- Keys whose destruction or replacement was interrupted: every context, digest slot and mailbox command that still holds one ends, and steps 4 and 5 come before anything else (R84, R170, R82). -/
def finishRevocations (s : State) : State :=
  let ks := (s.store.c.keys.filter (fun p => p.2.state == .revoking)).map (·.1)
  let s := s.mbox.foldl (fun s p => endJob (mbOfKey p.1) s) s
  let s := ks.foldl (fun s k => revokeSlot k (abortWhere (fun x => x.leases.any (fun l => l.1 == k)) St.keyRevoked s)) s
  { s with store.finish := ks }

/-- A resumed Warden completes the interrupted destructions, then answers every command that was running with INDETERMINATE (R84, R287). -/
def resumeWarden (s : State) : State :=
  let s := finishRevocations s
  if finishing s then
    { s with store.answerDue := true, mbox := tmap s.mbox (fun _ b => if b.cur.isSome then { b with wait := .restarted } else b) }
  else indeterminateAll s

/-- An index-10 record of an event of the Warden's own image (R447). -/
def measureHistory (s : State) : State := measureExtend 10 6 (measValue 6 s) s

/-- STANDBY_RESUMED: roles swap, approvals as the last epoch had them, interrupted commands answered INDETERMINATE; in probation the update is abandoned and the old pair runs its old image (R108, R286, R287, R461). -/
def execStandbyResumed (s : State) : Out :=
  .next (
    if !s.start.failingOver then s
    else
      let probation := s.start.handStep == 5
      let s := { s with
        start.failingOver := false, start.active := 1 - s.start.active, start.standby := .loading, start.pairFails := 0
        start.handStep := 0, start.handPlain := false, start.heartbeatAt := s.us, cust.approvals := s.cust.saved }
      let s := if probation && s.start.upd.state == .running then
          let s := endUpdate 3 { s with start.runW := s.start.upd.src }
          { s with ident.wdnLevel := (slotInfo s.start.runW s).wdnLevel }
        else s
      refreshMode (doeResume (resumeWarden (measureHistory s))))

/-- STANDBY_RESUME_TIMEOUT: the standby does not resume within 10 ms (R453). -/
def execStandbyResumeTimeout (s : State) : Out :=
  .next (if s.start.failingOver then trustedRestart 0 { s with start.failingOver := false } else s)

/-- HEARTBEAT_TIMEOUT: the heartbeat has been missing for 20 ms with no failover in progress (R453). -/
def execHeartbeatTimeout (s : State) : Out := .next (if wardenUp s then trustedRestart 0 s else s)

/-- A pair that failed its self-test while it was loaded: tried again, or ABSENT after the second failure (R452). -/
def pairTestFailed (s : State) : State :=
  let n := s.start.pairFails + 1
  let s := unitReport 0x0E (1 - s.start.active) false { s with start.pairFails := n }
  if 2 ≤ n then serviceReport 0x1A (1 - s.start.active) false { s with start.standby := .absent } else { s with start.standby := .loading }

/-- PAIR_RELOAD_DONE: the reset pair has read its first complete epoch and is standby; or its self-test failed (R452). -/
def execPairReloadDone (ok : Bool) (s : State) : Out :=
  .next (
    if s.start.standby ≠ .loading || !wardenUp s || s.start.handStep ≠ 0 then s
    else if ok then { s with start.standby := .ready, start.pairFails := 0 }
    else pairTestFailed s)

/-- HWD_RESTART_REQ: the Warden firmware reports an unrecoverable error (R453). -/
def execHwdRestartReq (reason : Nat) (s : State) : Out := .next (if wardenUp s then trustedRestart (reason % 65536) s else s)

/-- Jobs and calls that a service core runs end with DEVICE_RESTARTING (R383, rank 4 of R278). -/
def restartJobs (core : Nat) (s : State) : State :=
  let s := abortWhere (fun x => x.state == .running && x.core == some core) St.deviceRestarting s
  (s.cores.taken.filter (fun g => g.server == some core && !g.cancelled && g.ctx.isNone)).foldl
    (fun s g => gateFinish g (gateResp St.deviceRestarting 0 []) s) s

/-- Work of the world-T digest engines, multipliers and Seedbank ports ends (R171, R189, R225). -/
def restartUnits (s : State) : State :=
  let s := dgeUnits.foldl (fun s g =>
    let d := getDge g s
    if d.worldU then s
    else
      let s := d.streams.foldl (fun s p => if ((getCtx p.2 s).map (·.state)) = some .running then abort p.2 St.deviceRestarting s else s) s
      wipeDge g (setDge g { getDge g s with claim := none, stalled := [] } s)) s
  (List.range 16).foldl (fun s u => if bitOf s.world.map.wma u then s else flushWma 2 u s) s

/-- Stage 0x22: both pairs and every service core held, their work ended; their fabric interfaces restart (R22, R454). -/
def restartHold (s : State) : State :=
  restartIssue (fun m => wardenMaster m || (serviceCores s).contains m) <| restartUnits ((serviceCores s).foldl (fun s c => cancelPort (c / 9) c (restartJobs c s)) s)

/-- Stage 0x24: running images reread; a component that an abandoned update had switched loads from its former slot; index 10 extended (R454, R457). -/
def restartImages (s : State) : State :=
  let u := s.start.upd
  let back := u.state == .abandoned && u.cause == 4
  let s := if back then
      { s with
        start.runW := if bitOf u.comps 0 then u.src else s.start.runW
        start.runS := if bitOf u.comps 1 then u.src else s.start.runS
        start.upd := { u with wdnDone := false, svcDone := [] } }
    else s
  if s.start.seedlingFw then measureHistory s
  else
    let w := slotInfo s.start.runW s
    let v := slotInfo s.start.runS s
    let s := { s with ident.wdnLevel := w.wdnLevel, ident.svcLevel := v.svcLevel }
    measureHistory (measurePut 7 v.svcDigest (measurePut 6 w.wdnDigest s))

/-- The images that run still read as their slots' headers say (stage 0x24). -/
def imagesIntact (s : State) : Bool := s.start.seedlingFw || ((getSlot s.start.runW s).intact && (getSlot s.start.runS s).intact)

/-- Stage 0x27: pair 1 standby, commands answered INDETERMINATE, RESTARTING cleared, RESTART_END, RESTART_DONE (R287, R289, R454). -/
def endRestart (s : State) : State :=
  let s := resumeWarden s
  let s := { s with
    start.restarting := false, start.active := 0, start.standby := if s.start.seedlingFw then .absent else .ready
    start.pairFails := 0, start.heartbeatAt := s.us }
  let s := logCode 0x0103 0 [(0, 2, s.start.restartReason)] s
  let s := notifyApplets .restartEnd 0 (restartEvent true s)
  startSucceeded (refreshMode (doeResume (dropWait .restart s)))

/-- No multiplier of world T runs a command (R189). -/
def wmasIdle (s : State) : Bool := (List.range 16).all (fun u => bitOf s.world.map.wma u || !(getWma u s).cmds.any (·.running))

/-- RESTART_STAGE_DONE: the next stage of R454 completes; 0x24 does not while a running image no longer reads as its header says, nor 0x26 while a world-T multiplier still runs a command (R189). -/
def execRestartStageDone (s : State) : Out :=
  .next (
    if !restarting s then s
    else
      let n := s.start.stage + 1
      if (n = 0x24 && !imagesIntact s) || (n = 0x26 && !wmasIdle s) then s
      else
        let s := { s with start.stage := n }
        match n with
        | 0x22 => restartHold s
        | 0x23 => (serviceCores s).foldl (fun s c => beginScrub c s) s
        | 0x24 => restartImages s
        | 0x26 => (serviceCores s).foldl (fun s c => endScrub c s) s
        | 0x27 => endRestart s
        | _ => s)

/-- RESTART_TIMEOUT: the restart has failed; counted, and another is ordered under the rate rule (R34, R456). -/
def execRestartTimeout (s : State) : Out :=
  .next (
    if !restarting s then s
    else
      let s := { s with start.lastStage := s.start.stage }
      let s := countStartFail (logCode 0x0102 0 [(0, 1, s.start.stage), (1, 1, 1)] s)
      if s.start.seedling.isSome && !s.start.seedlingFw then enterSeedling .startFails s
      else trustedRestart s.start.restartReason { s with start.restarting := false })

end Sys2Proof.Machine
end

