-- ==== Sys2Proof/Machine/Update.lean ====
section
/-! DEFINITION. Image slots, live update, handover and recalibration (R440-R443, R458-R467). -/

namespace Sys2Proof.Machine

/-- The bundle length that a header's component lengths give (R441). -/
def bundleLen (h : Bytes) : Nat := 3661 + fld h 0x20 4 + fld h 0x24 4 + fld h 0x28 4

/-- A component length: 4 KiB to a limit, in steps of 4 KiB (R441). -/
def compLenOk (n limitK : Nat) : Bool := decide (4096 ≤ n ∧ n ≤ 1024 * limitK) && n % 4096 == 0

/-- Step 2 of R459: MAGIC, FORMAT, PART, STEPPING, lengths and reserved fields. -/
def headerOk (h : Bytes) : Bool :=
  slice h 0 8 == [0x4F, 0x4C, 0x39, 0x49, 0x4D, 0x47, 0x53, 0x31] && fld h 8 2 == 1 && fld h 0x0A 2 == 0 && decide (fld h 0x0C 4 ≤ 4095) &&
  fld h 0x16 2 == 0 && fld h 0x1C 4 == 0 && fld h 0x2C 4 == 0 &&
  compLenOk (fld h 0x20 4) 384 && compLenOk (fld h 0x24 4) 472 && compLenOk (fld h 0x28 4) 64 &&
  fld h 0xC0 2 == 0x6412 && fld h 0xC2 1 == 0xB1 && fld h 0xC3 61 == 0

/-- What a header gives. -/
def imageInfo (h : Bytes) : ImageInfo :=
  { svn := fld h 0x0C 4, wdnLevel := fld h 0x10 2, svcLevel := fld h 0x12 2, monLevel := fld h 0x14 2, ckptRead := fld h 0x18 2
    ckptWrite := fld h 0x1A 2, wdnDigest := slice h 0x30 48, svcDigest := slice h 0x60 48, monDigest := slice h 0x90 48, header := h }

/-- The signed statement over a header (R441). -/
def imageStatement (h : Bytes) : Bytes := [0x4F, 0x4C, 0x39, 0x49, 0x4D, 0x47, 0x48, 0x31] ++ List.replicate 8 0 ++ sha384 h

/-- Both signatures of a bundle verify under Svatum's image keys (R441). -/
def bundleSigned (b : Bytes) : Bool :=
  let st := imageStatement (b.take 256)
  Config.verdict .sign [leBytes 1 0x49, leBytes 1 1, sha384 st, slice b 0x100 96] && Config.verdict .sign [leBytes 1 0x49, leBytes 1 2, st, slice b 0x160 3309]

/-- Step 6 of R459: each component's SHA-384 equals its digest. -/
def componentsOk (b : Bytes) : Bool :=
  let h := b.take 256
  let w := fld h 0x20 4
  let v := fld h 0x24 4
  sha384 (slice b 3661 w) == slice h 0x30 48 && sha384 (slice b (3661 + w) v) == slice h 0x60 48 &&
  sha384 (slice b (3661 + w + v) (fld h 0x28 4)) == slice h 0x90 48

/-- A slot that is neither preferred nor the source of a running component (step 5 of R459); under the Seedling firmware no component runs from a slot. -/
def freeSlot (s : State) : Option Nat :=
  [0, 1].find? (fun n => n != s.start.preferred && (s.start.seedlingFw || (n != s.start.runW && n != s.start.runS && n != s.start.runM)))

/-- The bundle an IMAGE_STAGE names. -/
def stagedBundle (mb : Mb) (q : Req) (s : State) : Option Bytes := blobRead mb (fld q.body 0 8) (fld q.body 8 4) s

/-- Steps 1 to 5 of R459. -/
def imageStageCheck (mb : Mb) (q : Req) (s : State) : Option Nat :=
  let n := fld q.body 8 4
  if n < 3661 || 945741 < n then some St.lengthInvalid
  else match stagedBundle mb q s with
    | none => some St.gatherFault
    | some b =>
      if bundleLen b ≠ n then some St.lengthInvalid
      else if !headerOk (b.take 256) then some St.fieldInvalid
      else if !bundleSigned b then some St.signatureInvalid
      else if fld b 0x0C 4 < s.start.deviceSvn then some St.stateConflict
      else if (freeSlot s).isNone then some St.stateConflict
      else none

/-- IMAGE_STAGE: the slot's record is erased, the bundle written and read back, the record written; a component that fails leaves the slot invalid (R459). -/
def imageStageRun (mb : Mb) (q : Req) (s : State) : Ans × State :=
  match stagedBundle mb q s, freeSlot s with
  | some b, some n =>
    let s := setSlot n { getSlot n s with valid := false } s
    if componentsOk b then
      let i := imageInfo (b.take 256)
      let s := measureConfig (setSlot n { valid := true, intact := true, info := i } s)
      (.reply { body := layout 8 [(0, 1, n), (4, 4, i.svn)] ++ sha384 i.header }, s)
    else (cmdFail St.signatureInvalid, s)
  | _, _ => (cmdFail St.gatherFault, s)

/-- In SEEDLING with REASON START_FAILS or RESTART_RATE the recovery update is issued directly (R466). -/
def recovering (s : State) : Bool := s.mode.mode == 7 && (seedReason s == 1 || seedReason s == 2)

/-- The policy IMAGE_STAGE and IMAGE_COMMIT are designated under. -/
def imageDesig : Desig := fun mb q s => if recovering s then none else estateDesig mb q s

/-- IMAGE_STAGE (R459). -/
def execImageStage (mb : Mb) (s : State) : Out := runCmd mb 0x0A01 (guarded imageStageCheck imageDesig imageStageRun) s

/-- A slot's part of IMAGE_QUERY. -/
def slotBytes (n : Nat) (s : State) : Bytes :=
  let x := getSlot n s
  let i := x.info
  layout 16 [(0, 1, b2n x.valid), (4, 4, i.svn), (8, 2, i.wdnLevel), (0x0A, 2, i.svcLevel), (0x0C, 2, i.monLevel)] ++ sha384 i.header

/-- IMAGE_QUERY (R458). -/
def execImageQuery (mb : Mb) (s : State) : Out :=
  runCmd mb 0x0A02 (fun _ _ s =>
    (.reply { body := layout 8 [(0, 1, s.start.preferred), (4, 4, s.start.deviceSvn)] ++ slotBytes 0 s ++ slotBytes 1 s }, s)) s

/-- GBL_UPDATE (chapter 16, Registers). -/
def updateWord (s : State) : Nat :=
  let u := s.start.upd
  (match u.state with | .idle => 0 | .running => 1 | .done => 2 | .abandoned => 3) + 4 * u.comps + 32 * b2n u.wdnDone +
    2 ^ 8 * min 63 u.svcDone.length + 2 ^ 14 * min 63 u.monDone.length + 2 ^ 20 * u.cause

/-- A named component whose image in the new slot differs from the running one; the others are skipped (R460). Component 0 Warden, 1 service, 2 monitor. -/
def compNeeded (k : Nat) (s : State) : Bool :=
  let u := s.start.upd
  let a := slotInfo u.src s
  let b := slotInfo u.dst s
  bitOf u.comps k && (match k with | 0 => a.wdnDigest != b.wdnDigest | 1 => a.svcDigest != b.svcDigest | _ => a.monDigest != b.monDigest)

/-- A component runs from the new slot, its switch complete, or was skipped. -/
def compDone (k : Nat) (s : State) : Bool :=
  !compNeeded k s || (match k with
    | 0 => s.start.runW == s.start.upd.dst && s.start.handStep == 0
    | 1 => s.start.runS == s.start.upd.dst
    | _ => s.start.runM == s.start.upd.dst)

/-- The update ends DONE once every named component has switched and the probation is over (R464). -/
def finishUpdate (s : State) : State :=
  if s.start.upd.state = .running && compDone 0 s && compDone 1 s && compDone 2 s then
    refreshMode { s with start.upd := { s.start.upd with state := .done } }
  else s

/-- Major levels equal, and for the Warden a readable checkpoint and a READY standby (step 3 of R460). -/
def majorsOk (comps slot : Nat) (s : State) : Bool :=
  let i := slotInfo slot s
  let w := slotInfo s.start.runW s
  (!bitOf comps 0 || (i.wdnLevel / 256 == w.wdnLevel / 256 && decide (i.ckptRead ≤ w.ckptWrite) && s.start.standby == .ready)) &&
  (!bitOf comps 1 || i.svcLevel / 256 == (slotInfo s.start.runS s).svcLevel / 256) &&
  (!bitOf comps 2 || i.monLevel / 256 == (slotInfo s.start.runM s).monLevel / 256)

/-- The checks of UPDATE_APPLY after its mode, which was judged when it was accepted (R44, R460). -/
def updateApplyCheck (_ : Mb) (q : Req) (s : State) : Option Nat :=
  let n := fld q.body 0 1
  if s.start.upd.state = .running || !slotPasses n s then some St.stateConflict
  else if !majorsOk (fld q.body 1 1) n s then some St.stateConflict
  else none

/-- UPDATE_APPLY: MAINTENANCE begins and the components are updated in turn (R460). -/
def updateApplyRun (_ : Mb) (q : Req) (s : State) : Ans × State :=
  let n := fld q.body 0 1
  let s := { s with start.upd := { state := .running, comps := fld q.body 1 1 % 8, src := 1 - n, dst := n } }
  let s := if compNeeded 0 s && s.start.runW != n then { s with start.handStep := 1, start.standby := .updating } else s
  (.reply {}, finishUpdate (refreshMode s))

/-- UPDATE_APPLY (R460). -/
def execUpdateApply (mb : Mb) (s : State) : Out := runCmd mb 0x0A03 (guarded updateApplyCheck estateDesig updateApplyRun) s

/-- UPDATE_STATUS (R458). -/
def execUpdateStatus (mb : Mb) (s : State) : Out :=
  runCmd mb 0x0A04 (fun _ _ s => (.reply { body := layout 6 [(0, 4, updateWord s), (4, 1, s.start.upd.src), (5, 1, s.start.upd.dst)] }, s)) s

/-- An update is abandoned with a cause: before the swap the standby reloads its own image; after it the pairs swap back, from probation with the old pair's own image, later with the former image loaded again (R461, R464). -/
def abandonUpdate (cause : Nat) (s : State) : State :=
  let h := s.start.handStep
  let s := endUpdate cause s
  let s :=
    if h = 1 || h = 2 || h = 3 then { s with start.handStep := 0, start.standby := .loading }
    else if h = 5 then { s with start.handStep := 3 }
    else if h = 6 || (compNeeded 0 s && s.start.runW == s.start.upd.dst) then { s with start.handStep := 1, start.standby := .updating }
    else s
  refreshMode s

/-- UPDATE_ABANDON (R464). -/
def execUpdateAbandon (mb : Mb) (s : State) : Out :=
  runCmd mb 0x0A05 (fun _ _ s =>
    if s.start.upd.state ≠ .running then (cmdFail St.stateConflict, s)
    else
      let s := abandonUpdate 1 s
      (.reply { body := leBytes 4 (updateWord s) }, s)) s

/-- The checks of IMAGE_COMMIT (R465). -/
def imageCommitCheck (_ : Mb) (q : Req) (s : State) : Option Nat :=
  if s.start.upd.state = .running || !slotPasses (fld q.body 0 1) s then some St.stateConflict else none

/-- IMAGE_COMMIT: PREFERRED, the SVN counter, index 9; in SEEDLING the latch and both counts clear and a cold start follows (R35, R465, R466). -/
def imageCommitRun (_ : Mb) (q : Req) (s : State) : Ans × State :=
  let n := fld q.body 0 1
  let rec_ := recovering s
  let s := measureConfig { s with start.preferred := n, start.deviceSvn := max s.start.deviceSvn (getSlot n s).info.svn }
  let s := if rec_ then { s with start.seedling := none, start.startFails := 0, start.restartTimes := [], pwr.orderedCold := some 6 } else s
  (.reply { body := leBytes 4 s.start.deviceSvn }, s)

/-- IMAGE_COMMIT (R465, R466). -/
def execImageCommit (mb : Mb) (s : State) : Out := runCmd mb 0x0A06 (guarded imageCommitCheck imageDesig imageCommitRun) s

/-- The check of WARDEN_HANDOVER: no update or handover under way, and a standby to hand over to (R461). -/
def wardenHandoverCheck (_ : Mb) (_ : Req) (s : State) : Option Nat :=
  if updating s || s.start.handStep ≠ 0 || s.start.standby ≠ .ready then some St.stateConflict else none

/-- WARDEN_HANDOVER: steps 3, 4 and 6 of R461 with the running image; answered when they are done. -/
def wardenHandoverRun (_ : Mb) (_ : Req) (s : State) : Ans × State :=
  (.hold .handover, refreshMode { s with start.handPlain := true, start.handStep := 3 })

/-- WARDEN_HANDOVER (R461). -/
def execWardenHandover (mb : Mb) (s : State) : Out := runCmd mb 0x0A08 (direct wardenHandoverCheck wardenHandoverRun) s

/-- The slot the Warden moves to: the new one of a running update, the former one when an abandoned update reverts. -/
def handTarget (s : State) : Nat :=
  if s.start.handPlain then s.start.runW else if s.start.upd.state = .running then s.start.upd.dst else s.start.upd.src

/-- Step 4 of R461: a final epoch, the swap, index 10 extended, the level of the image that now runs. -/
def swapPairs (s : State) : State :=
  let t := handTarget s
  let s := completeEpoch s
  let s := { s with
    start.active := 1 - s.start.active, start.runW := t, start.heartbeatAt := s.us
    start.standby := if s.start.handPlain then .updating else .ready
    start.handStep := if s.start.handPlain || s.start.upd.state = .abandoned then 6 else 5 }
  let s := if s.start.handPlain then s else { s with ident.wdnLevel := (slotInfo t s).wdnLevel }
  measureHistory s

/-- Step 6 of R461: the old pair has the new image. -/
def handoverDone (ok : Bool) (s : State) : State :=
  let plain := s.start.handPlain
  let s := { s with start.handStep := 0, start.handPlain := false, start.standby := .ready, start.pairFails := 0 }
  let s := if ok then s else pairTestFailed s
  if plain then
    let s := refreshMode s
    s.mbox.foldl (fun s p => deliver (mbOfKey p.1) 0x0A08 (· == .handover) { body := leBytes 8 s.start.epoch } s) s
  else
    let s := measurePut 6 (slotInfo s.start.runW s).wdnDigest s
    let s := measureExtend 10 6 (measValue 6 s) s
    finishUpdate { s with start.upd := { s.start.upd with wdnDone := s.start.upd.state == .running } }

/-- HANDOVER_STEP_DONE: the step in progress completes; a standby that fails its self-test abandons the update with CAUSE SELFTEST, and one that does not resume gives way to a trusted restart (R453, R461). -/
def execHandoverStepDone (ok : Bool) (s : State) : Out :=
  .next (
    if !wardenUp s then s
    else match s.start.handStep with
      | 1 => { s with start.handStep := 2 }
      | 2 =>
        if ok then { s with start.handStep := 3 }
        else if s.start.upd.state = .running then pairTestFailed (abandonUpdate 2 s)
        else pairTestFailed { s with start.handStep := 0 }
      | 3 => { s with start.handStep := 4 }
      | 4 => if ok then swapPairs s else trustedRestart 0 s
      | 6 => handoverDone ok s
      | _ => s)

/-- PROBATION_END: the old pair is loaded with the new image (R461). -/
def execProbationEnd (s : State) : Out :=
  .next (if wardenUp s && s.start.handStep == 5 then { s with start.handStep := 6, start.standby := .updating } else s)

/-- The cores of a list that have all switched. -/
def allIn (done cores : List Nat) : Bool := cores.all (fun c => done.contains c)

/-- The service firmware may switch core by core: the Warden's swap is over (R460, R462). -/
def serviceTurn (s : State) : Bool := compNeeded 1 s && (s.start.handStep == 0 || 5 ≤ s.start.handStep) && s.start.runS != s.start.upd.dst

/-- Every service core runs one slot: the running slot, GBL_FWLEVEL and index 7 follow, and index 10 is extended (R447, R462). -/
def serviceSwitched (n : Nat) (s : State) : State :=
  let i := slotInfo n s
  let s := measurePut 7 i.svcDigest { s with start.runS := n, ident.svcLevel := i.svcLevel }
  measureExtend 10 7 i.svcDigest s

/-- SERVICE_CORE_SWITCHED: a service core whose job has ended is scrubbed, boots the new image and rejoins its queues; one that fails its self-test is isolated. After ABANDONED the cores return the same way (R462, R464). -/
def execServiceCoreSwitched (core : Nat) (ok : Bool) (s : State) : Out :=
  onUnit (core < 72) (
    let u := s.start.upd
    let busy := s.ctxs.any (fun p => p.2.state == .running && p.2.core == some core) || s.cores.taken.any (fun g => g.server == some core)
    if !wardenUp s || !(serviceCores s).contains core || busy then s
    else if u.state = .running && serviceTurn s && !u.svcDone.contains core then
      let s := endScrub core (beginScrub core s)
      let s := if ok then { s with start.upd := { s.start.upd with svcDone := core :: s.start.upd.svcDone } } else coreFail 0x07 core false s
      if allIn s.start.upd.svcDone (serviceCores s) then finishUpdate (serviceSwitched u.dst s) else s
    else if u.state = .abandoned && u.cause ≠ 5 && u.svcDone.contains core then
      let s := endScrub core (beginScrub core s)
      let s := { s with start.upd := { s.start.upd with svcDone := without s.start.upd.svcDone core } }
      let s := if ok then s else coreFail 0x07 core false s
      if s.start.upd.svcDone.isEmpty && s.start.runS == u.dst then serviceSwitched u.src s else s
    else s)

/-- Every glade core runs one slot's monitor (R447, R463). -/
def monitorSwitched (n : Nat) (s : State) : State :=
  let i := slotInfo n s
  measureExtend 10 8 i.monDigest (measurePut 8 i.monDigest { s with start.runM := n })

/-- GLADE_MONITOR_SWITCHED: a glade core boots the new monitor, which restores its applets; nothing is scrubbed. A monitor that fails its check isolates the core. After ABANDONED the monitors return the same way (R463, R464). -/
def execGladeMonitorSwitched (core : Nat) (ok : Bool) (s : State) : Out :=
  onUnit (core < 72) (
    let u := s.start.upd
    if !wardenUp s || !(gladeCores s).contains core then s
    else if u.state = .running && compNeeded 2 s && compDone 1 s && (s.start.handStep == 0 || 5 ≤ s.start.handStep) && s.start.runM != u.dst && !u.monDone.contains core then
      let s := if ok then { s with start.upd := { u with monDone := core :: u.monDone } } else coreFail 0x07 core false s
      if allIn s.start.upd.monDone (gladeCores s) then finishUpdate (monitorSwitched u.dst s) else s
    else if u.state = .abandoned && u.cause ≠ 5 && u.monDone.contains core then
      let s := { s with start.upd := { u with monDone := without u.monDone core } }
      let s := if ok then s else coreFail 0x07 core false s
      if s.start.upd.monDone.isEmpty && s.start.runM == u.dst then monitorSwitched u.src s else s
    else s)

/-- Whether a sensor and index exist (R467, R508). -/
def calIndexOk (sensor idx : Nat) : Bool :=
  match sensor with
  | 0 => decide (idx ≤ 8)
  | 1 => decide (idx ≤ 3)
  | 2 => idx == 0
  | 3 => decide (idx ≤ 9)
  | 4 => decide (idx ≤ 7)
  | _ => false

/-- The records of a CALIBRATE request. -/
def calRecords (q : Req) : List Bytes := (List.range (fld q.body 0 1)).map (fun i => slice q.body (8 + 32 * i) 32)

/-- The checks of CALIBRATE: count, sensors and indices, RAW0 against RAW1, the present reading through the new record (R467, R508, log entry 23). -/
def calibrateCheck (_ : Mb) (q : Req) (s : State) : Option Nat :=
  let n := fld q.body 0 1
  if n = 0 || 16 < n || q.body.length < 8 + 32 * n then some St.fieldInvalid
  else if (calRecords q).any (fun r => !calIndexOk (fld r 0 1) (fld r 1 1) || fld r 4 4 == fld r 0x0C 4 || !Config.verdict .reading [r, leBytes 8 s.us]) then some St.fieldInvalid
  else none

/-- The Lookout sources that use a sensor (R493, R508). -/
def calSources (sensor idx : Nat) : List Nat :=
  match sensor with
  | 0 => [0x11, 0x12]
  | 1 => [3 * idx + 1, 3 * idx + 2, 3 * idx + 3]
  | 2 => [0x0D, 0x0E]
  | 3 => if idx < 8 then [0x0F] else [0x10]
  | _ => []

/-- An applied record clears the event history of every source that uses its sensor; a bank's AGE_PPM filter restarts, and what it then reads is a free value (R467, R508). -/
def applyCal (s : State) (r : Bytes) : State :=
  let sensor := fld r 0 1
  let idx := fld r 1 1
  let s := { s with start.cal := tset s.start.cal (256 * sensor + idx) r }
  let s := { s with lko.src := (calSources sensor idx).foldl (fun t n => tmod t n (fun x => { x with events := [] })) s.lko.src }
  if sensor = 4 then
    let (v, s) := draw s
    setBank idx { getBank idx s with agePpm := (BitVec.ofNat 16 v).toInt } s
  else s

/-- CALIBRATE: the records are written under a rising CAL_GEN and applied together; index 5 set, index 10 extended (R467). -/
def calibrateRun (_ : Mb) (q : Req) (s : State) : Ans × State :=
  let s := (calRecords q).foldl applyCal s
  let s := { s with start.calGen := s.start.calGen + 1 }
  let img := calImage s
  let s := measureExtend 10 5 (sha384 img) (measureSet 5 img s)
  (.reply { body := leBytes 4 s.start.calGen }, s)

/-- CALIBRATE (R467). -/
def execCalibrate (mb : Mb) (s : State) : Out := runCmd mb 0x0A20 (guarded calibrateCheck estateDesig calibrateRun) s

/-- The calibration record in force for a sensor; one written at manufacture is an uninterpreted constant (log entry 108). -/
def calRecord (sensor idx : Nat) (s : State) : Bytes :=
  match tget s.start.cal (256 * sensor + idx) with
  | some r => r
  | none => leBytes 1 sensor ++ leBytes 1 idx ++ leBytes 2 0 ++ prim 16 .reading [[0], leBytes 8 s.ident.deviceRef, leBytes 1 sensor, leBytes 1 idx] ++ leBytes 12 0

/-- CAL_QUERY (R458). -/
def execCalQuery (mb : Mb) (s : State) : Out :=
  runCmd mb 0x0A21 (fun _ q s =>
    let a := fld q.body 0 1
    let b := fld q.body 1 1
    if calIndexOk a b then (.reply { body := calRecord a b s }, s) else (cmdFail St.fieldInvalid, s)) s

end Sys2Proof.Machine
end

