-- ==== Sys2Proof/Machine/Firebreak.lean ====
section
/-! DEFINITION. Firebreak: fault reports, heartbeat, access faults, HBM errors, wear gauge, injection and its commands (chapter 19). -/

namespace Sys2Proof.Machine

/-- The sources of R517. -/
def fbkSourceOk (src : Nat) : Bool := (1 ≤ src && src ≤ 0x11) || (0x18 ≤ src && src ≤ 0x24) || src == 0x2F

/-- The running command of a multiplier ends with WMA_EFAIL (R184, R437). -/
def wmaRefused (u : Nat) (s : State) : State :=
  let w := getWma u s
  match w.cmds with
  | c :: r =>
    if c.running then
      wmaOver u c.core 1 (setWma u { w with cmds := r } { s with units.wmaEfails := tset s.units.wmaEfails u (tgetD s.units.wmaEfails u 0 + 1) })
    else s
  | [] => s

/-- The oldest request of a Seedbank port is refused: its words are discarded, and a RANDOM job it served ends (R221, R437). -/
def portRefused (st : Nat) (s : State) : State :=
  match (getBank st s).queue with
  | r :: _ =>
    let s := raiseLine (0x10 + st) (portEnds st r 1 (setFeed st 5 ((getFeed st 5 s).drop (8 * r.count)) s))
    match r.ctx with
    | some c => abort c St.engineFault s
    | none => s
  | [] => s

/-- Contexts that a master works for: those on a lane, at a HUC, or of a host link's functions (R24). -/
def masterCtxs (m : Nat) (s : State) : List Nat :=
  (s.ctxs.filter (fun p =>
    p.2.state == .running &&
    (if 0x48 ≤ m && m < 0x90 then p.2.lane == some (m - 0x48)
     else if 0xB0 ≤ m && m < 0xB8 then p.2.stand == some (m - 0xB0) && (getStand (m - 0xB0) s).hucQueue.any (fun r => r.src == .ctx p.1)
     else match p.2.src with
       | .queue fn _ _ => pfOf s fn / 2 == (m - 0x100) / 64
       | _ => false))).map (·.1)

/-- One of a master's contexts, picked by a free value, ends with ENGINE_FAULT (R437; the fault line names no context). -/
def engineRefused (m : Nat) (ctx : Option Nat) (s : State) : State :=
  match ctx with
  | some c => settleFail c St.engineFault s
  | none =>
    let cs := masterCtxs m s
    let (v, s) := draw s
    match cs[v % max 1 cs.length]? with
    | some c => settleFail c St.engineFault s
    | none => s

/-- What a master sees of a refused or failed access: a precise access fault of a core (cause 1 fetch, 5 load, 7 store), WMA_EFAIL, IMAGE_BAD, REFUSED, ENGINE_FAULT, or a frame dropped with cause FAULT (R437). -/
def masterFault (m cause addr : Nat) (ctx : Option Nat) (s : State) : State :=
  if m < 0x48 then ownRow m (trap m (BitVec.ofNat 64 cause) (BitVec.ofNat 64 addr)) s
  else if m < 0x90 then engineRefused m ctx s
  else if m < 0xA0 then wmaRefused (m - 0x90) s
  else if m < 0xB0 then
    let g := m - 0xA0
    if (getDge g s).xfer.isSome then dgeResume g (putDge g { dgeErr 7 (getDge g s) with xfer := none } s) else s
  else if m < 0xB8 then engineRefused m ctx s
  else if m < 0xC0 then portRefused (m - 0xB8) s
  else if 0x100 ≤ m ∧ m < 0x180 then engineRefused m ctx s
  else if 0x180 ≤ m ∧ m < 0x188 then dropFrames (fun f => portPos (framePort f) == m - 0x180) 2 s
  else s

/-- A Warden pair fails: the active one gives way to its standby, the standby is reloaded, and a handover to it is abandoned (R450, R452, R461). -/
def pairFault (pair : Nat) (inj : Bool) (s : State) : State :=
  let s := unitReport 0x0E pair inj s
  if pair = s.start.active then failover s
  else if s.start.standby = .absent then s
  else if 1 ≤ s.start.handStep && s.start.handStep ≤ 3 && s.start.upd.state = .running then abandonUpdate 2 s
  else { s with start.standby := .loading }

/-- A Sapwood entry is withdrawn; which one is a free value (source 0x03). -/
def sapLost (s : State) : State :=
  let (v, s) := draw s
  match s.store.sap[v % max 1 s.store.sap.length]? with
  | some p => { s with store.sap := tdel s.store.sap p.1 }
  | none => s

/-- A corrected memory error; that of a lane's contexts counts in its CLN_FAULT. Whose memory a number below 72 names the report does not say: a free choice (R150, R516, source 0x01, log entry 168). -/
def eccCorrected (unit : Nat) (inj : Bool) (s : State) : State :=
  let s := correctedReport 0x01 unit inj s
  let (v, s) := draw s
  if unit < 72 && v % 2 == 1 && (getLane unit s).state != .isolated && (getLane unit s).state != .retired then laneCorrected unit s else s

/-- A fault report arrives and every block reacts by its source (R516-R521). A report of a unit the device does not have is classed and repairs nothing; a reserved source is no report. -/
def faultArrives (inj : Bool) (src unit : Nat) (s : State) : State :=
  if !fbkSourceOk src || s.mode.mode == 12 || s.pwr.state == .backup then s
  else match src with
    | 0x01 => eccCorrected unit inj s
    | 0x02 | 0x04 | 0x10 | 0x11 => correctedReport src unit inj s
    | 0x03 => sapLost (correctedReport src unit inj s)
    | 0x05 => if unit < 72 && (checkerOf (unit / 9) s).isSome && (getLane unit s).state == .active then checkerMismatch (unit / 9) unit s
      else if unit < 72 && ((getLane unit s).state == .isolated || (getLane unit s).state == .retired) then countFault 0 s
      else correctedReport src unit inj s
    | 0x06 =>
      if unit < 72 then
        let (v, s) := draw s
        laneFail src unit (1 + v % 6) inj s
      else unitReport src unit inj s
    | 0x07 | 0x08 => if unit < 72 then coreFail src unit inj s else unitReport src unit inj s
    | 0x09 => if unit < 16 then wmaFail unit inj s else unitReport src unit inj s
    | 0x0A => if unit < 16 then dgeFail unit inj s else unitReport src unit inj s
    | 0x0B => if unit < 8 then hucFail unit inj s else unitReport src unit inj s
    | 0x0C =>
      if unit < 8 then
        let (v, s) := draw s
        bankFail unit (1 + v % 5) inj s
      else unitReport src unit inj s
    | 0x0D =>
      let (v, s) := draw s
      refreshMode (hbmPageLost (0x150000000 + 4096 * (v % 851968)) inj (unitReport src unit inj s))
    | 0x0E => if unit < 2 then pairFault unit inj s else unitReport src unit inj s
    | 0x0F => if unit < 72 then watchdogExpiry unit inj s else correctedReport src unit inj s
    | 0x18 | 0x19 | 0x1A | 0x1C | 0x1D | 0x1E | 0x1F => serviceReport src unit inj s
    | 0x1B => serviceReport src unit inj { s with fbk.lostPlls := addNew s.fbk.lostPlls unit }
    | 0x2F => selfCheckStop inj s
    | _ => fatalReport src unit inj s

/-- FAULT_REPORT: a report with a source and a unit arrives on a wired fault line (R516, R517). A reserved source is no report. -/
def execFaultReport (source unit : Nat) (s : State) : Out :=
  .next (faultArrives false source unit s)

/-- FIREBREAK_SELF_CHECK: the always-on part runs the QUARANTINE reaction without classing anything, under code 0x2F (R522). -/
def execFirebreakSelfCheck (s : State) : Out := .next (if s.pwr.state == .backup then s else selfCheckStop false s)

/-- SERVICE_FAULT_CLEAR: the bit of a transient SERVICE kind clears 60 s after the last fault of that kind (R520). -/
def execServiceFaultClear (kind : Nat) (s : State) : Out :=
  if kind < 2 then
    .next (if s.fbk.service.getLsbD kind && decide (tgetD s.fbk.serviceAt kind 0 + 60 ≤ seconds s) then
      refreshMode (serviceClear kind s) else s)
  else if kind < 8 then .next s
  else .fault .noSuchUnit

/-- PLL_RELOCK_ATTEMPT: an unlocked PLL is relocked; when the last has locked, SERVICE 0x1B ends (R520). -/
def execPllRelockAttempt (pll : Nat) (locked : Bool) (s : State) : Out :=
  .next (if locked && s.fbk.lostPlls.contains pll then
    let s := { s with fbk.lostPlls := without s.fbk.lostPlls pll }
    if s.fbk.lostPlls.isEmpty then refreshMode (serviceClear 3 s) else s
  else s)

/-- FB_ALIVE_TOGGLE: a half-period ends while no FATAL fault is held (R525, R526). -/
def execFbAliveToggle (s : State) : Out :=
  let f := s.fbk
  .next (if f.running && !f.fatal && !f.forceLow && !s.pwr.resetLow && s.pwr.state != .backup then
    { s with fbk.level := !f.level, fbk.halves := f.halves + 1 } else s)

/-- HBM_ERROR: an uncorrectable error at an address that a master reads. In the regions of source 0x20 it is FATAL; elsewhere the reader gets an error response and the page is remapped or poisoned (R517, R537). -/
def execHbmError (addr master : Nat) (s : State) : Out :=
  if hbmFatalRegion addr then .next (fatalReport 0x20 0xFFF false s)
  else .next (refreshMode (hbmPageLost addr false (masterFault master 5 addr none (unitReport 0x0D 0xFFF false s))))

/-- WEAR_PCT of R542 from an ageing figure. -/
def wearPct (age : Int) : Nat := min 100 ((-age).toNat / 300)

/-- WEAR_INDEX_UPDATE: a stand's wear index is formed from its bank's gauge; reaching the warning level sets WARN and writes WEAR_WARNING (R542). -/
def execWearIndexUpdate (stand : Nat) (s : State) : Out :=
  if stand < 8 then
    .next (
      if (getBank stand s).state == .retired then { s with fbk.wear := tset s.fbk.wear stand (0xFF, false) }
      else
        let pct := wearPct (getBank stand s).agePpm
        let warned := (tgetD s.fbk.wear stand (0, false)).2
        let warn := decide (s.fbk.warnPct ≤ pct)
        let s := { s with fbk.wear := tset s.fbk.wear stand (pct, warned || warn) }
        if warn && !warned then logCode 0x0509 1 [(0, 1, stand), (1, 1, pct)] s else s)
  else .fault .noSuchUnit

/-- FBK_STATUS. -/
def fbkStatusWord (f : Firebreak) : Nat := b2n f.fatal + 2 * b2n f.self + 256 * f.fatalSrc

/-- FBK_LAST. -/
def fbkLastWord (l : FbkLast) : Nat :=
  l.source + 2 ^ 8 * l.cls + 2 ^ 10 * b2n l.injected + 2 ^ 12 * l.unit + 2 ^ 32 * l.seconds

/-- FBK_WEAR of a stand. -/
def fbkWearWord (s : State) (k : Nat) : Nat :=
  let (p, w) := tgetD s.fbk.wear k (0, false)
  p + 256 * b2n w

/-- FIREBREAK_QUERY (R544). -/
def execFirebreakQuery (mb : Mb) (s : State) : Out :=
  runCmd mb 0x0910 (fun _ _ s =>
    let f := s.fbk
    (.reply { body := layout 52 [(0, 4, fbkStatusWord f), (4, 4, f.service.toNat), (8, 8, tgetD f.counts 0 0), (16, 8, tgetD f.counts 1 0),
        (24, 8, tgetD f.counts 2 0), (32, 8, tgetD f.counts 3 0), (40, 8, fbkLastWord f.last), (48, 4, fbkCommitWord s.commit)] ++
      ((List.range 8).map (fun k => leBytes 4 (fbkWearWord s k))).flatten }, s)) s

/-- The check of FIREBREAK_CONFIG (R544). -/
def firebreakConfigCheck (_ : Mb) (q : Req) (_ : State) : Option Nat :=
  let w := fld q.body 0 2
  let p := fld q.body 2 1
  if w < 10 ∨ 10000 < w ∨ p < 50 ∨ 100 < p then some St.fieldInvalid else none

/-- The effect of FIREBREAK_CONFIG (R528, R542, R544). -/
def firebreakConfigRun (_ : Mb) (q : Req) (s : State) : Ans × State :=
  (.reply {}, { s with fbk.wdtMs := fld q.body 0 2, fbk.warnPct := fld q.body 2 1 })

/-- FIREBREAK_CONFIG is designated under the estate policy in PRODUCTION only (R544). -/
def firebreakConfigDesig : Desig := fun mb q s => if lcIs s .production then estateDesig mb q s else none

/-- FIREBREAK_CONFIG: designated under the estate policy in PRODUCTION, issued directly in earlier states (R544). -/
def execFirebreakConfig (mb : Mb) (s : State) : Out :=
  runCmd mb 0x0911 (guarded firebreakConfigCheck firebreakConfigDesig firebreakConfigRun) s

/-- A report as if from a unit, acting as a real fault would (R543). -/
def inject (source unit : Nat) (s : State) : State := faultArrives true source unit s

/-- FIREBREAK_INJECT (R543, R544). -/
def execFirebreakInject (mb : Mb) (s : State) : Out :=
  runCmd mb 0x0912 (fun _ q s =>
    if s.mode.mode ≠ 2 then (cmdFail St.modeDenied, s)
    else if !fbkSourceOk (fld q.body 0 1) then (cmdFail St.fieldInvalid, s)
    else (.reply {}, inject (fld q.body 0 1) (fld q.body 2 2) s)) s

/-- FBK_INJECT_GO: a write of FBK_INJECT with GO; outside FACTORY-TEST it is dropped and counted (R543). -/
def execFbkInjectGo (p source unit : Nat) (s : State) : Out :=
  if p < 4 then
    .next (if s.mode.mode = 2 then
      let s := { s with fbk.injSource := source % 256, fbk.injUnit := unit % 4096 }
      if fbkSourceOk (source % 256) then inject (source % 256) (unit % 4096) s else s
    else countAccess (.pf p) s)
  else .fault .noSuchUnit

/-- FORCE_LOW: a write of FBK_ALIVE.FORCE_LOW, accepted only in FACTORY-TEST, holds FB_ALIVE low (chapter 19, FBK_ALIVE). -/
def execForceLow (p : Nat) (on : Bool) (s : State) : Out :=
  if p < 4 then
    .next (if s.mode.mode = 2 then { s with fbk.forceLow := on, fbk.level := s.fbk.level && !on } else s)
  else .fault .noSuchUnit

end Sys2Proof.Machine
end

