-- ==== Sys2Proof/Machine/HostLinks.lean ====
section
/-! DEFINITION. Host links, function resets, device power states, reads of host memory (chapters 09 and 22, R578). -/

namespace Sys2Proof.Machine

/-- The link a function stands on (R229). -/
def linkOf : Fn → Nat
  | .pf p => p / 2
  | .vf n => n / 2048

/-- The PFs a link presents (R228). -/
def linkPfs (l : Nat) (s : State) : List Nat := (pfs s).filter (fun p => p / 2 == l)

/-- A function's translations leave the address translation cache (R230). -/
def dropAtc (fn : Fn) (s : State) : State := { s with host.atc := s.host.atc.filter (fun e => e.fn != fn) }

/-- The enabled VFs below a PF. -/
def vfsBelow (p : Nat) (s : State) : List Nat := (liveVfs s).filter (fun n => pfOf s (.vf n) == p)

/-- A PF's DOE mailbox holds no request and no response. -/
def resetDoe (p : Nat) (s : State) : State :=
  { s with
    host.doeBusy := if s.mode.mode == 8 then s.host.doeBusy else without s.host.doeBusy p
    host.doeWait := s.host.doeWait.filter (fun x => x.1 != p)
    host.doeResp := tdel s.host.doeResp p }

/-- A PF and every VF below it return to their reset configuration; VF Enable is clear (R232). The operand says whether the PF stays configured. -/
def resetPf (p : Nat) (enabled : Bool) (s : State) : State :=
  let s := (vfsBelow p s).foldl (fun s n => dropAtc (.vf n) (resetVf n false s)) s
  resetDoe p (dropAtc (.pf p) (resetFn (.pf p) enabled s))

/-- Whether a window's function is on a link (R619). -/
def kcwOnLink (l : Nat) (a : KcwAssign) : Bool :=
  match a with
  | .none => false
  | .pf p _ => p / 2 == l
  | .vf n => n / 2048 == l

/-- PERST# asserted, DL_Down or a hot reset of a link: its functions reset, its windows reset, its sessions and IDE streams end (R232, R630, log entry 118). -/
def linkReset (l : Nat) (s : State) : State :=
  let ps := linkPfs l s
  let s := ps.foldl (fun s p => resetPf p false s) s
  let s := s.kcw.foldl (fun s k => if kcwOnLink l k.2.assign then kcwReset k.1 false s else s) s
  { s with
    host.spdm := s.host.spdm.filter (fun x => x.1 / 2 != l)
    host.ide := s.host.ide.filter (fun x => x.1 / 32 != l)
    host.links := tmap s.host.links (fun p x => if p / 2 = l then { perst := x.perst } else x) }

/-- The half-links of a link. -/
def halves (l : Nat) : List Nat := [2 * l, 2 * l + 1]

/-- A half-link's state. -/
def getLink (p : Nat) (s : State) : Link := tgetD s.host.links p {}

/-- The level of PERST# of a link, at both halves. -/
def setPerst (l : Nat) (on : Bool) (s : State) : State :=
  (halves l).foldl (fun s p => { s with host.links := tset s.host.links p { getLink p s with perst := on } }) s

/-- Between AP1 and AP2 of a WATCH entry a PERST# that ends a link's L2/L3 Ready is wake source HOST; whether the link had reached it is not seen by any command (R592, log entry 119). -/
def perstWake (trained : Bool) (s : State) : State :=
  if trained then
    let (v, s) := draw s
    if v % 2 = 1 then hostWake s else s
  else s

/-- PERST# is asserted on a link: in WATCH it is latched by the island; else the link resets at once (R232, R576, R587, R592). -/
def perstDown (l : Nat) (s : State) : State :=
  let trained := (halves l).any (fun p => (getLink p s).up)
  let s := setPerst l true s
  if s.pwr.state == .backup || s.pwr.resetLow then s
  else if s.pwr.quiet then { s with pwr.perstLatched := addNew s.pwr.perstLatched l }
  else linkReset l (perstWake trained s)

/-- PERST_ASSERT (R232). -/
def execPerstAssert (link : Nat) (s : State) : Out := onUnit (link < 2) (perstDown link s)

/-- PERST_BOTH_LINKS: in QUARANTINE a cold start, otherwise each link by itself (R38, R576). -/
def execPerstBothLinks (s : State) : Out :=
  .next (
    if s.mode.mode = 8 && s.pwr.state != .backup && !s.pwr.quiet then coldStart 2 (setPerst 1 true (setPerst 0 true s))
    else perstDown 1 (perstDown 0 s))

/-- PERST_DEASSERT: the link may enter Detect, at once or 2 ms after Canopy power-good (R610). -/
def execPerstDeassert (link : Nat) (s : State) : Out := onUnit (link < 2) (setPerst link false s)

/-- LINK_DOWN: DL_Down or a hot reset (R232). The Detect.Quiet of WATCH is no link event (R587). -/
def execLinkDown (link : Nat) (s : State) : Out :=
  onUnit (link < 2) (if s.pwr.state != .backup && !s.pwr.resetLow && !s.pwr.quiet then linkReset link s else s)

/-- A half-link may train: PERST# is deasserted, the Canopy has power, Detect.Quiet does not hold it, and the mode trains host links (R41, R587, R610). -/
def mayTrain (p : Nat) (s : State) : Bool :=
  pfPresent s p && !(getLink p s).perst && s.pwr.canopyGood && !s.pwr.quiet && s.pwr.state != .backup && !s.pwr.resetLow && s.mode.mode != 12

/-- SPEED, WIDTH and FLIT that a half-link can train to: an unbifurcated link x16, a half of a bifurcated one x8; FLIT mode always at 64 GT/s (R228, R241). -/
def trainOk (p speed width : Nat) (flit : Bool) (s : State) : Bool :=
  (1 ≤ speed && speed ≤ 6) && ([1, 2, 4, 8].contains width || (width == 16 && !bitOf s.pwr.straps (2 + p / 2))) && (flit || speed != 6)

/-- PCIE_LINK_UP: the configuration space answers and GBL_LINK reads what the link trained to (R228, R241, R610). -/
def execPcieLinkUp (p speed width : Nat) (flit : Bool) (s : State) : Out :=
  onUnit (p < 4) (
    if mayTrain p s && trainOk p speed width flit s then
      setFn (.pf p) { getFn (.pf p) s with enabled := true }
        { s with host.links := tset s.host.links p { getLink p s with up := true, speed := speed, width := width, flit := flit } }
    else s)

/-- PF_FLR (R232). -/
def execPfFlr (p : Nat) (s : State) : Out := onUnit (p < 4) (if (getFn (.pf p) s).enabled then resetPf p true s else s)

/-- VF_FLR (R397, R398). -/
def execVfFlr (n : Nat) (s : State) : Out :=
  onUnit (n < 4096) (if (getFn (.vf n) s).enabled then dropAtc (.vf n) (resetVf n true s) else s)

/-- Bus Master Enable clears: the function's queues and rings go to ERROR with cause BME, its contexts are voided, and what it had fetched is dropped; a VF that held contexts has its forced reset recorded (R232, R397, log entry 120). -/
def clearBme (fn : Fn) (s : State) : State :=
  let ((n, out), s) := voidFn fn (modFn fn (fun f => { f with busMaster := false }) s)
  let s := (fnQueues fn s).foldl (fun s p =>
    let s := { s with host.queues := tmod s.host.queues p.1 (fun q => { q with fetched := [], reading := [] }) }
    queueCheck p.1 (queueError p.1 .bme s)) s
  let s := (fnRings fn s).foldl (fun s p => ringError p.1 .bme s) s
  match fn with
  | .pf _ => s
  | .vf v => if n = 0 then s else logCode 0x0401 1 [(0, 2, v), (4, 4, (getAlloc fn s).owner.getD 0), (8, 2, n), (10, 1, b2n out)] s

/-- BUS_MASTER_ENABLE_CLEAR (R232). -/
def execBusMasterEnableClear (fn : Fn) (s : State) : Out :=
  onUnit (fnOk fn) (if (getFn fn s).enabled && (getFn fn s).busMaster then clearBme fn s else s)

/-- BUS_MASTER_ENABLE_SET: requests are issued again, pending messages first; queues in ERROR with cause BME stay there (R641, log entry 117). -/
def execBusMasterEnableSet (fn : Fn) (s : State) : Out :=
  onUnit (fnOk fn) (
    let f := getFn fn s
    if !f.enabled || f.busMaster then s
    else
      let go := if f.maskAll then [] else f.pendingVec.filter (fun v => f.unmasked.contains v)
      go.foldl (fun s v => sendVec fn v s) (setFn fn { f with busMaster := true, pendingVec := f.pendingVec.filter (fun v => !go.contains v) } s))

/-- D3HOT_ENTRY (R578): configuration, queues, mailbox and grants are kept. -/
def execD3hotEntry (fn : Fn) (s : State) : Out :=
  onUnit (fnOk fn) (if (getFn fn s).enabled then modFn fn (fun f => { f with d3hot := true }) s else s)

/-- A function in D0 sends the messages that waited, in their order (R578). -/
def releaseHeld (fn : Fn) (s : State) : State :=
  if inD3 fn s then s
  else
    let f := getFn fn s
    f.heldMsgs.foldl (fun s v => sendVec fn v s) (setFn fn { f with heldMsgs := [] } s)

/-- D0_RETURN: what waited is released; contexts and queues go on by their own rows (R578); in a WATCH entry it may be a wake (R585). -/
def execD0Return (fn : Fn) (s : State) : Out :=
  onUnit (fnOk fn) (
    if !(getFn fn s).d3hot then s
    else
      let s := hostWake (modFn fn (fun f => { f with d3hot := false }) s)
      let below := match fn with | .pf p => (vfsBelow p s).map Fn.vf | .vf _ => []
      (fn :: below).foldl (fun s g => releaseHeld g s) s)

/-- VFs can be enabled: TotalVFs does not read 0; in CLEARCUT it does so only after the next reset (R41). -/
def hasVfs (s : State) : Bool := queuesEnabled s || (s.mode.mode == 9 && [2, 4, 5, 6].contains s.mode.prev)

/-- The VFs of a PF by its link, its half and the strap (R229). -/
def pfVfs (p : Nat) (s : State) : List Nat :=
  if bitOf s.pwr.straps (2 + p / 2) then (List.range 1024).map (· + 1024 * p)
  else if p % 2 = 0 then (List.range 2048).map (· + 1024 * p) else []

/-- VF_ENABLE_SET (R229, R385). -/
def execVfEnableSet (p : Nat) (s : State) : Out :=
  onUnit (p < 4) (
    if (getFn (.pf p) s).enabled && hasVfs s then (pfVfs p s).foldl (fun s n => modFn (.vf n) (fun f => { f with enabled := true }) s) s else s)

/-- ATS_INVALIDATE_REQUEST: the translations named are dropped, and a refusal of one is forgotten (R230, log entry 14). -/
def execAtsInvalidateRequest (fn : Fn) (addr : DWord) (len : Nat) (s : State) : Out :=
  onUnit (fnOk fn) (
    let a := addr.toNat
    { s with
      host.atc := s.host.atc.filter (fun e => !(e.fn == fn && decide (e.addr < a + len) && decide (a < e.addr + e.len)))
      host.refused := s.host.refused.filter (fun p => !(p.1 == fnKey fn && decide (4096 * p.2 < a + len) && decide (a < 4096 * p.2 + 4096))) })

/-- The translation a read was answered under is held; a link's cache keeps its 8,192 newest (R230, log entry 121). -/
def noteAtc (fn : Fn) (addr : Nat) (s : State) : State :=
  let e : AtcEntry := { fn := fn, addr := addr / 4096 * 4096, len := 4096 }
  let others := s.host.atc.filter (fun x => x != e)
  let (here, there) := others.partition (fun x => linkOf x.fn == linkOf fn)
  { s with host.atc := (e :: here.take 8191) ++ there }

/-- Where a read of host memory went, for a read that names its address. -/
def readTarget (r : HostRead) (s : State) : Option (Fn × Nat) :=
  match r with
  | .sq _ _ => none
  | .ctx c _ _ _ _ a => (getCtx c s).map (fun x => (srcFn x s, a))
  | .blob mb a => some (mbFn mb, a)
  | .jrBuffer a => some (.pf s.host.jring.pf, a)
  | .frame fn _ a => some (fn, a)

/-- A read of host memory failed: its queue, context, command, ring or journal ring takes the fault (R89, R252, R262, R283, R284, R340). -/
def readFault (r : HostRead) (s : State) : State :=
  match r with
  | .sq fn qid => sqFault (qKey fn qid) s
  | .ctx c elem off dst segment _ =>
    match getCtx c s with
    | none => s
    | some x =>
      if segment then
        if x.state == .admitted && !x.checked then
          settle c { status := St.gatherFault, elem := elem % 8192 + 32768 * b2n dst, offset := 0xFFFFFFFF } s
        else s
      else engineStep c x (.addressFault dst elem off) s
  | .blob mb _ =>
    let b := getMb mb s
    if b.cur.isSome && !b.rank8 && b.wait == .none && wardenAnswers s then finishMb mb (fail St.gatherFault) s else s
  | .jrBuffer _ => if s.host.jring.state == .output || s.host.jring.state == .input then setJring .error s else s
  | .frame fn ring _ => ringError (qKey fn ring) .fetchFault s

/-- Whether the device has what a read names. -/
def readOk : HostRead → Bool
  | .sq fn qid => qidOk fn qid
  | .ctx c _ _ _ _ _ => ctxOk c
  | .blob mb _ => mbOk mb
  | .jrBuffer _ => true
  | .frame fn ring _ => qidOk fn ring

/-- HOST_READ_COMPLETION: the data arrives, or an error, poisoned or refused answer does (R252, R258, R283, R284, log entry 14). -/
def execHostReadCompletion (r : HostRead) (data : Bytes) (ok : Bool) (s : State) : Out :=
  onUnit (readOk r) (
    match readTarget r s with
    | none => match r with
      | .sq fn qid =>
        if (tgetD s.host.queues (qKey fn qid) {}).reading.isEmpty then s
        else if ok then sqArrive (qKey fn qid) data s else sqFault (qKey fn qid) s
      | _ => s
    | some (fn, a) =>
      if ok then noteAtc fn a (hostWrite a data { s with host.refused := without s.host.refused (fnKey fn, hostPage a) })
      else readFault r { s with host.refused := addNew s.host.refused (fnKey fn, hostPage a) })

/-- PCIE_COMPLETION_TIMEOUT (R252, R284). -/
def execPcieCompletionTimeout (r : HostRead) (s : State) : Out := onUnit (readOk r) (readFault r s)

end Sys2Proof.Machine
end

