-- ==== Sys2Proof/Machine/Power.lean ====
section
/-! DEFINITION. Power, resets, DOZE, WATCH and the wake from it (chapter 21). -/

namespace Sys2Proof.Machine

/-- POWER_ON: VDD_HW passes its threshold and a cold start begins (R576). -/
def execPowerOn (s : State) : Out := .next (coldReset 0 s)

/-- MAIN_POWER_LOST: BACKUP. The flash and the backup domain stay; records not yet programmed are lost with everything else (R504, R550, R573). -/
def execMainPowerLost (s : State) : Out :=
  .next (
    if s.pwr.state == .backup then s
    else
      let s := tearRec s
      let s' := coldReset s.pwr.cause s
      { s' with
        pwr := { state := .backup, resetLow := s.pwr.resetLow, strapPins := s.pwr.strapPins }
        log := { s.log with queue := [], blocked := [], rates := [], vecDue := [] } })

/-- RESET_N: low for 10 µs or more drives FB_ALIVE low and holds every other reset source off; the rising edge begins a cold start (R526, R576). -/
def execResetN (low : Bool) (s : State) : Out :=
  .next (
    if low then { s with pwr.resetLow := true, fbk.level := false }
    else if !s.pwr.resetLow then s
    else
      let s := { s with pwr.resetLow := false }
      if s.pwr.state == .backup then s else coldReset 1 s)

/-- A function's port n is one of a pair of home stands with a SecY and its link up (R338, R580). -/
def homeBusy (st : Nat) (s : State) : Bool := s.eth.secys.any (fun p => p.1 / 8 == st / 2 && (getPort p.1 s).up)

/-- The conditions of R580 that the state shows. -/
def dozeIdle (st : Nat) (s : State) : Bool :=
  let mine (c : Nat) : Bool := c / 9 == st
  s.pwr.enable.getLsbD st &&
  !s.ctxs.any (fun p => p.2.stand == some st) && (getStand st s).hucQueue.isEmpty && (getStand st s).hucHeld.isEmpty &&
  !s.cores.applets.any (fun p => (p.2.state == .running || p.2.state == .stopping) && mine p.2.core) &&
  !(standUnits st).any (fun c => (getCore c s).state == .scrubbing) &&
  !s.ctxs.any (fun p => p.2.core.any mine) &&
  !s.cores.taken.any (fun g => g.server.any mine) &&
  !homeBusy st s &&
  !(standUnits st).any (fun g => (getLane g s).state == .suspect || (getLane g s).state == .filling) &&
  (getStand st s).filling.isNone && s.units.capGen % 2 == 0

/-- The stand's lane contexts and HUC key state are overwritten and the stand is gated (R581). -/
def gateStand (st : Nat) (s : State) : State :=
  { s with
    units.lanes := tmap s.units.lanes (fun g l => if g / 9 = st then { l with ctxs := [] } else l)
    units.stands := tmod s.units.stands st (fun x => { x with hucRegs := {}, hucStall := false })
    pwr.dozed := s.pwr.dozed ||| BitVec.ofNat 8 (2 ^ st), pwr.gatedAt := tset s.pwr.gatedAt st s.us }

/-- DOZE_ENTRY: the Warden gates a stand that has been idle for IDLE_US (R580, R581). -/
def execDozeEntry (stand : Nat) (s : State) : Out :=
  onUnit (stand < 8) (
    if wardenUp s && s.pwr.entry.isNone && !s.fbk.fatal && !dozing stand s && dozeIdle stand s then gateStand stand s else s)

/-- The checks of POWER_CONFIG (R598). -/
def powerConfigCheck (_ : Mb) (q : Req) (_ : State) : Option Nat :=
  let u := fld q.body 0 2
  if 1 ≤ u && u ≤ 9 then some St.fieldInvalid else none

/-- The effect of POWER_CONFIG: a stand whose ENABLE bit clears wakes (R598). -/
def powerConfigRun (_ : Mb) (q : Req) (s : State) : Ans × State :=
  let u := fld q.body 0 2
  let s := if u = 0 then s else { s with pwr.idleUs := u }
  let s := if bitOf (fld q.body 3 1) 0 then { s with pwr.enable := BitVec.ofNat 8 (fld q.body 2 1) } else s
  let s := stands.foldl (fun s st => if s.pwr.enable.getLsbD st then s else standUp st s) s
  (.reply { body := leBytes 2 s.pwr.idleUs ++ leBytes 1 s.pwr.enable.toNat }, s)

/-- POWER_CONFIG (R598). -/
def execPowerConfig (mb : Mb) (s : State) : Out := runCmd mb 0x0131 (direct powerConfigCheck powerConfigRun) s

/-- PWR_WAKE_LAST. -/
def wakeLastWord (p : Power) : Nat :=
  p.lastSource + 8 * b2n p.lastAborted + 16 * p.lastAp + 2 ^ 8 * p.lastPending.toNat + 2 ^ 16 * p.wakeCount.toNat

/-- The first pending source in the order FAULT, TAMPER, WAKE_IN, I2C, TIMER, HOST (R590). -/
def wakeSource (p : BitVec 6) : Nat := ([5, 3, 2, 1, 4, 6].find? (fun c => p.getLsbD (c - 1))).getD 0

/-- The pending wakes are recorded and consumed: of a wake, or of an entry abandoned at an abort point (R586, R590, R591). -/
def noteWake (aborted : Bool) (ap : Nat) (s : State) : State :=
  let p := s.pwr
  { s with
    pwr.lastSource := wakeSource p.pendingWakes, pwr.lastAborted := aborted, pwr.lastAp := ap, pwr.lastPending := p.pendingWakes
    pwr.wakeCount := p.wakeCount + 1, pwr.wakeTime := seconds s, pwr.pendingWakes := 0 }

/-- A window is busy (R624, R630). -/
def kcwBusy (s : State) : Bool := s.kcw.any (fun p => p.2.phase == .wait || p.2.phase == .running || p.2.phase == .resetting)

/-- Work of the host that keeps the device out of WATCH (R583). -/
def hostBusy (mb : Mb) (s : State) : Bool :=
  s.mbox.any (fun p => p.1 != mbKey mb && p.2.state == .busy) ||
  s.ctxs.any (fun p => match p.2.src with | .queue _ _ _ => true | _ => false) ||
  s.host.queues.any (fun p => p.2.sqTail != p.2.sqHead || !p.2.fetched.isEmpty || !p.2.reading.isEmpty) || kcwBusy s

/-- Work of the device that keeps it out of WATCH (R583). -/
def deviceBusy (s : State) : Bool :=
  decide (0 < unacked s) || s.store.wanted || s.store.nowWanted || s.store.committing || s.units.capGen % 2 == 1 ||
  stands.any (fun st => (getStand st s).filling.isSome || !(getStand st s).waiting.isEmpty || (getStand st s).coreFill.isSome || !(getStand st s).coreWait.isEmpty)

/-- The checks of POWER_WATCH beyond its mode, which was judged when it was accepted (R44, R45, R583, R593). -/
def powerWatchCheck (mb : Mb) (q : Req) (s : State) : Option Nat :=
  let mask := fld q.body 0 1
  let after := fld q.body 4 4
  if (!bitOf mask 0 && !bitOf mask 1 && after == 0) || decide (0xFFFFFF < after) || decide (10000 < fld q.body 8 2) then some St.fieldInvalid
  else if s.pwr.entry.isSome || hostBusy mb s || deviceBusy s then some St.stateConflict
  else none

/-- The request is registered in the wake logic: the command's first state change (R583, R585). -/
def powerWatchRun (mb : Mb) (q : Req) (s : State) : Ans × State :=
  (.hold .watch, { s with
    pwr.entry := some { mb := mb, mask := fld q.body 0 1, afterS := fld q.body 4 4, waitMs := fld q.body 8 2 }, pwr.pendingWakes := 0 })

/-- POWER_WATCH (R583, R593, R598). -/
def execPowerWatch (mb : Mb) (s : State) : Out := runCmd mb 0x0130 (direct powerWatchCheck powerWatchRun) s

/-- The response body of POWER_WATCH (R593). -/
def watchBody (slept : Nat) (s : State) : Bytes :=
  layout 12 [(0, 1, s.pwr.lastSource), (1, 1, s.pwr.lastAp), (4, 4, slept), (8, 4, wakeLastWord s.pwr)]

/-- The answer of POWER_WATCH goes to its mailbox. -/
def watchAnswer (mb : Mb) (r : Resp) (s : State) : State := deliver mb 0x0130 (· == .watch) r s

/-- A reissue of POWER_WATCH after the restart that abandoned its entry starts afresh (R592). -/
def forgetWatch (mb : Mb) (s : State) : State :=
  let b := getMb mb s
  setMb mb { b with recs := b.recs.map (fun r => if r.result == some .watch then { r with result := none } else r) } s

/-- The entry is abandoned at an abort point by a pending wake (R586). -/
def abortEntry (e : WatchEntry) (s : State) : State :=
  let s := noteWake true e.ap { s with pwr.entry := none }
  watchAnswer e.mb { info := St.entryAborted, body := watchBody 0 s } s

/-- The work before AP1: queues stop fetching and cores stop with the entry's own state; Seedbank port requests are cancelled; stands in DOZE wake for the save (R222, R585, R592). -/
def passAp1 (s : State) : State :=
  let s := stands.foldl (fun s st => standUp st s) s
  stands.foldl (fun s st => (getBank st s).port.foldl (fun s p => cancelPort st p.1 s) s) s

/-- Every Ethernet link goes down; its SecY's event cannot be written and is lost; frames under way are dropped (R339, R342, R587, log entry 123). -/
def ethDown (s : State) : State :=
  let s := dropFrames (fun _ => true) 3 s
  (List.range 32).foldl (fun s n =>
    let p := getPort n s
    if p.up then secyCount n 14 1 (setPort n { p with up := false, anDone := false } s) else s) s

/-- Steps 1 to 4 of R587, then the gating of the Canopy. -/
def enterWatch (e : WatchEntry) (s : State) : State :=
  let s := clearEnables { s with cust.approvals := [], cust.saved := [] }
  let s := wipeEngines { s with
    store.sap := [], store.loading := [], vault := { s.vault with wireA := [], wireB := [], journalKey := [], hbmKey := [], scramble := [] } }
  let s := ethDown { s with pwr.quiet := true, host.links := tmap s.host.links (fun _ x => { perst := x.perst }) }
  let s := refreshMode { s with pwr.state := .watch, pwr.entry := none, pwr.entered := some e, pwr.ap3Seconds := seconds s, pwr.wakeStep := 0 }
  { s with
    pwr.canopyGood := false, pwr.dozed := 0, pwr.waking := [], fbk.backupClk := true
    units.banks := (mapBanks (fun k => { stopBank k with feeds := [] }) s).units.banks }

/-- What an abort point comes to with no wake pending (R585, R587). -/
def passPoint (e : WatchEntry) (s : State) : State :=
  match e.ap with
  | 0 => { s with pwr.entry := some { e with ap := 1 } }
  | 1 => passAp1 { s with pwr.entry := some { e with ap := 2 } }
  | 2 => { s with pwr.entry := some { e with ap := 3 } }
  | _ => enterWatch e (completeEpoch s)

/-- WATCH_ABORT_POINT: the entry reaches its next abort point. A trusted restart under way abandons it, its command answered after the restart; a pending wake abandons it with an answer; otherwise it goes on (R585-R587, R592). -/
def execWatchAbortPoint (point : Nat) (s : State) : Out :=
  onUnit (point < 4) (
    match s.pwr.entry with
    | none => s
    | some e =>
      if e.ap ≠ point then s
      else if restarting s then forgetWatch e.mb { s with pwr.entry := none, pwr.pendingWakes := 0 }
      else if s.pwr.pendingWakes != 0 then abortEntry e s
      else passPoint e s)

/-- WATCH_ENTRY_TIMEOUT: AP2 is not reached within WAIT_MS (R585). PWR_WAKE_LAST does not change. -/
def execWatchEntryTimeout (s : State) : Out :=
  .next (match s.pwr.entry with
    | some e =>
      if e.ap = 2 && !restarting s then
        watchAnswer e.mb { status := St.stateConflict, info := St.entryAborted } { s with pwr.entry := none, pwr.pendingWakes := 0 }
      else s
    | none => s)

/-- The request whose wakes count now: of the entry in progress, or of the present WATCH (R588). -/
def watchReq (s : State) : Option WatchEntry := match s.pwr.entry with | some e => some e | none => if s.pwr.state == .watch then s.pwr.entered else none

/-- A maskable source wakes when its bit of WAKE_MASK is set (R588). -/
def maskedWake (code bit : Nat) (s : State) : State :=
  match watchReq s with
  | some e => if bitOf e.mask bit then wakePend code s else s
  | none => s

/-- WAKE_IN: a rising edge that stayed high for 1 µs (R588). -/
def execWakeIn (s : State) : Out := .next (maskedWake 2 1 s)

/-- The I2C target address (R595). -/
def i2cAddr (s : State) : Nat := 0x4C + s.pwr.straps % 4

/-- I2C_ADDRESS_MATCH: the comparator acknowledges its own address, holds SCL, and wakes the device if WAKE_MASK says so; another address does nothing (R589). -/
def execI2cAddressMatch (addr : Nat) (s : State) : Out :=
  .next (if addr ≠ i2cAddr s || s.pwr.state == .backup then s else maskedWake 1 0 { s with pwr.sclHeld := true })

/-- WAKE_TIMER: the seconds counter has reached its value at AP3 plus WAKE_AFTER_S (R588). -/
def execWakeTimer (s : State) : Out :=
  .next (match watchReq s with
    | none => s
    | some e =>
      if e.afterS = 0 || (s.pwr.state == .watch && decide (seconds s < s.pwr.ap3Seconds + e.afterS)) then s else wakePend 4 s)

/-- I2C_TIMEOUT: SCL low for more than 25 ms resets the target interface (R612). -/
def execI2cTimeout (s : State) : Out := .next { s with pwr.sclHeld := false }

/-- Step 5 of R591: PERST# latched in WATCH is applied before its link trains, and links may train. -/
def wakeLinks (s : State) : State :=
  let ls := s.pwr.perstLatched
  ls.foldl (fun s l => linkReset l s) { s with pwr.quiet := false, pwr.perstLatched := [] }

/-- Step 6 of R591: the primary pair resumes from the final epoch, the standby follows, and POWER_WATCH is answered (R593). -/
def wakeWarden (s : State) : State :=
  let s := { s with
    start.active := 0, start.heartbeatAt := s.us, start.pairFails := 0
    start.standby := if s.start.standby = Standby.absent then Standby.absent else Standby.loading }
  match s.pwr.entered with
  | some e => watchAnswer e.mb { body := watchBody s.pwr.slept s } s
  | none => s

/-- Step 8 of R591: the mode is chosen by R39 (R45). -/
def wakeDone (s : State) : State :=
  refreshMode { s with pwr.state := .active, pwr.wakeStep := 0, pwr.entered := none, pwr.pendingWakes := 0, fbk.backupClk := false }

/-- The bits a step of the wake draws: the mask of the KEK's shares when HBM leaves self-refresh (R56). -/
def wakeBits (n : Nat) (s : State) : Option Bytes × State := if n = 5 then takeHeart 32 s else (some [], s)

/-- The work of a step of R591. -/
def wakeWork (n : Nat) (d : Bytes) (s : State) : State :=
  match n with
  | 1 => noteWake false 0 { s with pwr.slept := seconds s - s.pwr.ap3Seconds }
  | 2 => restartIssue (fun _ => true) { s with pwr.canopyGood := true, pwr.goodAt := s.us, pwr.meshOk := false }
  | 4 => { s with units.banks := tmap s.units.banks (fun _ b => if b.enable && b.state == .off then startBank b else b) }
  | 5 => wakeLinks (deliverKek d s)
  | 6 => wakeWarden s
  | 7 => (serviceCores s).foldl (fun s c => endScrub c (beginScrub c s)) s
  | 8 => wakeDone s
  | _ => s

/-- WAKE_STEP_DONE: the next step of R591, the first once a wake is pending; step 3 does not complete before MESH_C has passed a check (R494), step 5 does not complete before the bits it draws are there, nor step 6 while the Warden image does not read as its header says. -/
def execWakeStepDone (s : State) : Out :=
  .next (
    if s.pwr.state != .watch || s.pwr.resetLow || (s.pwr.wakeStep = 0 && s.pwr.pendingWakes == 0) then s
    else
      let n := s.pwr.wakeStep + 1
      if (n = 6 && !imagesIntact s) || (n = 3 && !s.pwr.meshOk) then s
      else match wakeBits n s with
        | (none, s) => s
        | (some d, s) => wakeWork n d { s with pwr.wakeStep := n })

/-- WAKE_TIMEOUT: step 8 not reached within 1,000 ms: START_FAILED with KIND 0, and a cold start with cause FAILED_WAKE, itself counted if it fails (R594). -/
def execWakeTimeout (s : State) : Out :=
  .next (
    if s.pwr.state != .watch || (s.pwr.wakeStep = 0 && s.pwr.pendingWakes == 0) then s
    else
      let s := { s with start.lastStage := s.start.stage }
      coldStart 7 (logCode 0x0102 0 [(0, 1, s.start.stage), (1, 1, 0)] s))

end Sys2Proof.Machine
end

