-- ==== Sys2Proof/Machine/Mctp.lean ====
section
/-! DEFINITION. The management interface: MCTP control, vendor-defined messages and SPDM (R595-R597). -/

namespace Sys2Proof.Machine

/-- The endpoint sends a response; the transfer releases SCL. Without main power, or in reset, nothing answers. -/
def mctpReply (f : State → Bytes) (s : State) : State :=
  if s.pwr.state == .backup || s.pwr.resetLow then s else { s with pwr.mctpOut := f s, pwr.sclHeld := false }

/-- The body of an MCTP control response: type 0, instance, command code, completion code, data (DSP0236, log entry 122). -/
def mctpControl (cmd code : Nat) (data : Bytes) : Bytes := leBytes 1 0 ++ leBytes 1 0 ++ leBytes 1 cmd ++ leBytes 1 code ++ data

/-- A value of the endpoint that the spec does not state: an uninterpreted constant (log entry 122). -/
def mctpValue (n k : Nat) : Bytes := leBytes n (Config.prim .deviceId [[4], leBytes 1 k])

/-- SET_ENDPOINT_ID: an ID of 8 to 254 is assigned; another is refused with ERROR_INVALID_DATA (R595, log entry 122). -/
def execSetEndpointId (eid : Nat) (s : State) : Out :=
  .next (
    if s.pwr.state == .backup || s.pwr.resetLow then s
    else if 8 ≤ eid && eid ≤ 254 then
      mctpReply (fun s => mctpControl 1 0 (leBytes 1 0 ++ leBytes 1 s.pwr.eid ++ leBytes 1 0)) { s with pwr.eid := eid }
    else mctpReply (fun _ => mctpControl 1 2 []) s)

/-- GET_ENDPOINT_ID: the ID, a simple endpoint, no medium-specific information (R595). -/
def execGetEndpointId (s : State) : Out := .next (mctpReply (fun s => mctpControl 2 0 (leBytes 1 s.pwr.eid ++ leBytes 1 0 ++ leBytes 1 0)) s)

/-- GET_ENDPOINT_UUID (R595). -/
def execGetEndpointUuid (s : State) : Out := .next (mctpReply (fun _ => mctpControl 3 0 (mctpValue 16 3)) s)

/-- GET_MCTP_VERSION_SUPPORT: one version (R595). -/
def execGetMctpVersionSupport (s : State) : Out := .next (mctpReply (fun _ => mctpControl 4 0 (leBytes 1 1 ++ mctpValue 4 4)) s)

/-- GET_MESSAGE_TYPE_SUPPORT: vendor-defined PCI, and SPDM but in FELLED (R596). -/
def execGetMessageTypeSupport (s : State) : Out :=
  .next (mctpReply (fun s =>
    let ts := if s.mode.mode = 12 then [0x7E] else [0x7E, 0x05, 0x06]
    mctpControl 5 0 (leBytes 1 ts.length ++ (ts.map (leBytes 1)).flatten)) s)

/-- GET_VENDOR_DEFINED_MSG_SUPPORT: one set, of Svatum's PCI vendor identifier (R597). -/
def execGetVendorDefinedMsgSupport (s : State) : Out :=
  .next (mctpReply (fun _ => mctpControl 6 0 (leBytes 1 0xFF ++ leBytes 1 0 ++ mctpValue 2 0 ++ mctpValue 2 6)) s)

/-- A vendor-defined response: instance, COMMAND, COMPLETION, data (R597). -/
def vendorBytes (cmd completion : Nat) (data : Bytes) : Bytes := leBytes 1 0 ++ leBytes 1 cmd ++ leBytes 1 completion ++ data

/-- A vendor-defined command; FELLED answers GET_STATUS only (R596). -/
def vendorReply (cmd : Nat) (data : State → Bytes) (s : State) : Out :=
  .next (mctpReply (fun s => if s.mode.mode = 12 then vendorBytes cmd 4 [] else vendorBytes cmd 0 (data s)) s)

/-- POWER of GET_STATUS. -/
def powerCode (s : State) : Nat := if s.pwr.state == .watch then 2 else b2n (s.pwr.dozed != 0)

/-- FB_ALIVE toggles (R525, R526). -/
def aliveToggles (s : State) : Bool := s.fbk.running && !s.fbk.fatal && !s.fbk.forceLow && !s.pwr.resetLow

/-- The data of GET_STATUS (R597); in FELLED the identity and MODE 12 (R596). -/
def statusData (s : State) : Bytes :=
  let ident := [(0, 2, 0x6412), (2, 1, 0xB1), (3, 1, 0x09), (4, 1, s.mode.mode)]
  if s.mode.mode = 12 then layout 28 ident
  else layout 28 (ident ++ [(5, 1, powerCode s), (6, 1, b2n s.fbk.fatal + 2 * b2n (aliveToggles s)), (8, 4, (condValue s).toNat),
    (0x0C, 4, wakeLastWord s.pwr), (0x10, 4, seconds s), (0x14, 8, trlHead s.log)])

/-- GET_STATUS (R596, R597). -/
def execGetStatus (s : State) : Out := .next (mctpReply (fun s => vendorBytes 1 0 (statusData s)) s)

/-- The readings not sampled in WATCH: CMON, LMON 0-7 and TMON 0-7 (R494). -/
def staleWord (s : State) : Nat :=
  if s.pwr.state == .watch then 2 ^ 4 + ((List.range 8).map (fun k => 2 ^ (5 + k) + 2 ^ (15 + k))).foldl (· + ·) 0 else 0

/-- GET_SENSORS (R597). -/
def execGetSensors (s : State) : Out :=
  vendorReply 2 (fun s => layout 8 [(0, 1, 24), (4, 4, staleWord s)] ++
    ((List.range 24).map (fun k => leBytes 4 (BitVec.ofInt 32 (tgetD s.lko.readings k 0)).toNat)).flatten) s

/-- GET_STANDS (R597). -/
def execGetStands (s : State) : Out :=
  vendorReply 3 (fun s => (stands.map (fun st =>
    layout 4 [(0, 2, (getBank st s).temp), (2, 1, (tgetD s.fbk.wear st (0, false)).1),
      (3, 1, (activeLanes st s).length + 16 * b2n (dozing st s) + 32 * b2n (getStand st s).offline)])).flatten) s

/-- GET_LOG_TAIL: the newest records, oldest first; a COUNT outside 1 to 32 is INVALID (R597). -/
def execGetLogTail (count : Nat) (s : State) : Out :=
  if 1 ≤ count && count ≤ 32 then
    vendorReply 4 (fun s =>
      let rs := heldRecs s.log
      let tail := rs.drop (rs.length - count)
      layout 8 [(0, 1, tail.length)] ++ (tail.map recBytes).flatten) s
  else .next (mctpReply (fun s => vendorBytes 4 (if s.mode.mode = 12 then 4 else 2) []) s)

/-- SPDM ERROR with code Busy (log entry 122). -/
def spdmBusy (m : Bytes) : Bytes := m.take 1 ++ leBytes 1 0x13 ++ leBytes 1 0x7F ++ leBytes 1 3 ++ leBytes 1 0

/-- SPDM_OVER_MCTP: answered by the Warden or the Seedling firmware, after a trusted restart if one is in progress; Busy in WATCH and QUARANTINE; not supported in FELLED (R233, R596). -/
def execSpdmOverMctp (msg : Bytes) (s : State) : Out :=
  .next (
    if s.pwr.state == .backup || s.pwr.resetLow || s.mode.mode = 12 then s
    else
      let s := { s with pwr.sclHeld := false }
      if s.mode.mode = 8 || s.pwr.state == .watch || !s.mode.chosen then { s with pwr.mctpOut := spdmBusy msg }
      else if restarting s || s.start.failingOver then { s with pwr.spdmWait := s.pwr.spdmWait ++ [msg] }
      else mctpSpdm msg s)

end Sys2Proof.Machine
end

