-- ==== Sys2Proof/Machine/Custody.lean ====
section
/-! DEFINITION. The end of a key's drain, the deletion of owners, replication, backup and restore (R82, R96, chapter 04). The layout of an image's body is the model's (log entry 29). -/

namespace Sys2Proof.Machine

/-- Everything an owner holds beside its keys is gone, its entry with it (step 4 and 5 of R96). -/
def dropOwner (o : Nat) (c : Content) : Content :=
  { c with
    owners := tdel c.owners o, counters := c.counters.filter (fun p => p.2.owner != o), creds := c.creds.filter (fun p => p.2.owner != o)
    policies := c.policies.filter (fun p => p.2.owner != o), migr := tdel c.migr o, trust := c.trust.filter (fun p => p.1 / 4 != o) }

/-- An owner's applets, run or not, are stopped and unloaded, and its cores scrubbed to NONE (R96, R374). -/
def dropApplets (o : Nat) (s : State) : State :=
  let mine (c : Core) : Bool := c.owner == some o
  let apps := s.cores.applets.filter (fun p => p.2.owner == o && p.2.kind == 1)
  let s := apps.foldl (fun s p => unloadApplet p.1 (forceStop p.1 s)) s
  (s.cores.cores.filter (fun p => mine p.2)).foldl (fun s p => beginScrub p.1 (setCore p.1 { getCore p.1 s with ctrlNone := true, next := none } s)) s

/-- An owner's SecYs, which hold no SA, are destroyed (R96, chapter 12). -/
def dropSecys (o : Nat) (s : State) : State :=
  ethSweep ((s.eth.secys.filter (fun p => p.2.owner == o)).foldl (fun s p => removeSecy p.1 s) s)

/-- Steps 4 to 6 of R96: counters, credentials, policies, applets, SecYs, prepares and open approvals go, ROOT is overwritten, the entry is FREE, its meter record is marked, the change is journalled (R108). -/
def finishDelete (o : Nat) (s : State) : State :=
  let s := dropSecys o (dropApplets o (cancelApprovals (fun _ a => a.owner == o) s))
  let s := { s with
    cust.prepares := s.cust.prepares.filter (fun p => p.owner != o), meter.live := tmod s.meter.live o (fun m => { m with deleted := true })
    store.deleting := without s.store.deleting o }
  ownerChange (dropOwner o) s

/-- Owners whose last key has drained. -/
def finishDeletes (s : State) : State :=
  s.store.deleting.foldl (fun s o => if (ownerKeys o s.store.c).isEmpty then finishDelete o s else s) s

/-- The answer of a command that waited for a key's drain: its own first half, or the key's, then JOURNAL_SEQ (R87, R123). -/
def drainResp (first : Bytes) (seq : Nat) (r : Resp) : Resp :=
  { r with body := (if r.body.isEmpty then padTo 8 first else padTo 8 r.body) ++ leBytes 8 seq }

/-- A wait for drains with one key fewer: with none left it is for the commit (steps 5 and 6 of R82). -/
def drainWait (slot seq : Nat) (first : Bytes) : MbWait → MbWait
  | .drainKey slots r =>
    if !slots.contains slot then .drainKey slots r
    else if (without slots slot).isEmpty then .commit seq (drainResp first seq r) else .drainKey (without slots slot) r
  | w => w

/-- The drain of a key has ended for every command and window that waits for it. -/
def drainEnds (slot : Nat) (first : Bytes) (s : State) : State :=
  let seq := lastSeq s
  let f := drainWait slot seq first
  windowsSettle { s with
    mbox := tmap s.mbox (fun _ b => { b with wait := f b.wait, recs := b.recs.map (fun r => { r with result := r.result.map f }) })
    kcw := tmap s.kcw (fun _ k => if k.drain.contains slot then { k with drain := without k.drain slot, resetSeq := seq } else k) }

/-- Every copy of a key is overwritten: the Sapwood shares and the lane key contexts (step 4 of R82). -/
def wipeCopies (slot : Nat) (s : State) : State :=
  { s with
    store.sap := tdel s.store.sap slot, store.loading := s.store.loading.filter (fun l => l.1 != slot)
    units.lanes := tmap s.units.lanes (fun _ l => { l with ctxs := l.ctxs.filter (fun c => c.slot != slot) }) }

/-- Steps 4 and 5 of R82 for the cold record: FREE at the next generation, or the same key with fresh material once its bits are there; the second component says that it was done. -/
def endRevocation (slot : Nat) (k : KeyRec) (s : State) : State × Bool :=
  if !k.replace then (storeChange [] (freeKey slot) s, true)
  else match takeKeyBits (asymmetric k.type) (privLen k.type k.length) s with
  | (none, s) => (s, false)
  | (some (bits, r), s) =>
    let (m, pub) := keyFrom k.type k.length bits
    (storeChange [] (replaceKey slot r (xorBytes m r) pub s.store.nextSeq) s, true)

/-- What a drained key's command answers first: the handle of the new generation, or NEW_GENERATION, 0 for a RETIRED slot (R49, R87, log entry 131). -/
def drainFirst (slot : Nat) (k : KeyRec) : Bytes :=
  if k.replace then leBytes 8 (handleOf slot (k.gen + 1)) else leBytes 4 (if k.gen = 0xFFFFFFFF then 0 else k.gen + 1)

/-- One interrupted destruction fewer to complete; a commit must cover it (R84). -/
def finishedKey (slot : Nat) (s : State) : State :=
  if s.store.finish.contains slot then { s with store.finish := without s.store.finish slot, store.finishSeq := lastSeq s } else s

/-- KEY_DRAIN_DONE: nothing holds a lease on a REVOKING key any more (steps 4 to 6 of R82, R96). -/
def execKeyDrainDone (slot : Nat) (s : State) : Out :=
  onUnit (slot < 33554432) (
    match tget s.store.c.keys slot with
    | none => s
    | some k =>
      if k.state != .revoking || leased slot s || !canChange s then s
      else match endRevocation slot k (wipeCopies slot s) with
      | (s, false) => s
      | (s, true) =>
        let s := finishDeletes s
        wantCommit false (lastSeq s) (drainEnds slot (drainFirst slot k) (finishedKey slot s)))

/-- The effect of OWNER_DELETE: SUSPENDED, every key drains with one limit, then the owner goes (R96). -/
def ownerDeleteRun (_ : Mb) (q : Req) (s : State) : Ans × State :=
  let o := fld q.body 0 4
  let s := suspendOwner o s
  let keys := ownerKeys o s.store.c
  let freed := ((keys.map (fun p => p.2.slots)).foldl (· + ·) 0)
  let d := drainLimit (fld q.body 4 4) s
  let s := (keys.filter (fun p => p.2.state != .revoking)).foldl (fun s p => revoke p.1 false 0 d s) s
  let s := { s with store.c.keys := tmap s.store.c.keys (fun _ k => if k.owner = o then { k with replace := false, drainUs := d } else k) }
  if keys.isEmpty then
    let s := finishDelete o s
    durableAns { body := layout 16 [(8, 8, lastSeq s)] } s
  else (.hold (.drainKey (keys.map (·.1)) { body := layout 8 [(0, 4, freed)] }), { s with store.deleting := addNew s.store.deleting o })

/-- The policy OWNER_DELETE is approved under: the owner's ADMIN_POLICY, or the estate policy where QUORUM_OPEN names it (R110). -/
def ownerDeleteDesig (estate : Bool) : Desig := fun mb q s => if estate then estateDesig mb q s else some ((adminOf (fld q.body 0 4) s).getD 0)

/-- OWNER_DELETE issued directly (R96, R102). -/
def execOwnerDelete (mb : Mb) (s : State) : Out :=
  runCmd mb 0x0206 (guarded (storeCheck ownerDeleteCheck) (ownerDeleteDesig false) (storeRun ownerDeleteRun)) s

/-- The checks of REPLICA_PREPARE: the owner is PENDING or ACTIVE (R93, R114). -/
def replicaPrepareCheck (mb : Mb) (q : Req) (s : State) : Option Nat := notSuspended mb (fld q.body 0 4) s

/-- MEMBER of a prepare blob whose owner is PENDING and so has no domain. -/
def noMember : Nat := 0xFFFF

/-- The effect of REPLICA_PREPARE: a fresh prepare and its signed blob (R114). -/
def replicaPrepareRun (mb : Mb) (q : Req) (s : State) : Ans × State :=
  let o := fld q.body 0 4
  match getOwner o s with
  | none => (cmdFail St.handleInvalid, s)
  | some x =>
    match takeWarden 144 s with
    | (none, s) => (.stay, s)
    | (some bits, s) =>
      let nonce := bits.take 32
      let priv := bits.drop 32
      let blob := prepBlob x.domainId (if x.state = .pending then noMember else x.member) 0xFFFF nonce priv s
      let p : Prepare := { owner := o, nonce := nonce, priv := priv, until_ := seconds s + 600 }
      match writeWithin mb (fld q.body 8 8) (fld q.body 0x10 4) St.destTooSmall blob { body := leBytes 4 blob.length } s with
      | (.reply r, s') => (.reply r, if r.status = 0 then { s' with cust.prepares := s'.cust.prepares ++ [p] } else s)
      | r => r

/-- REPLICA_PREPARE (R114). -/
def execReplicaPrepare (mb : Mb) (s : State) : Out := runCmd mb 0x0218 (direct (readCheck replicaPrepareCheck) replicaPrepareRun) s

/-- A key as an image carries it: slot, what it was born as, record, material, public part. -/
def imgKey (slot : Nat) (k : KeyRec) : Bytes :=
  layout 16 [(0, 4, slot), (4, 2, (material k).length), (6, 2, k.pub.length), (8, 1, k.born)] ++ recordBytes slot k ++ material k ++ k.pub

/-- A credential as an image carries it. -/
def imgCred (i : Nat) (k : Cred) : Bytes :=
  layout 8 [(0, 4, i), (4, 1, b2n k.active), (5, 1, k.alg), (6, 2, k.key.length)] ++ padTo 16 k.label ++ padTo 1952 k.key

/-- The body of an owner's image: entry, ROOT, policies, credentials, keys, the member index or 0xFF (R115, R119). -/
def ownerImage (o : Nat) (x : Owner) (keys : List (Nat × KeyRec)) (member : Nat) (c : Content) : Bytes :=
  layout 16 [(0, 4, (ownerPolicies o c).length), (4, 4, (ownerCreds o c).length), (8, 4, keys.length), (12, 1, member)] ++
  ownerBytes o x c ++ padTo 32 x.root ++ ((ownerPolicies o c).map (fun p => leBytes 4 p.1 ++ policyBytes p.2)).flatten ++
  ((ownerCreds o c).map (fun p => imgCred p.1 p.2)).flatten ++ (keys.map (fun p => imgKey p.1 p.2)).flatten

/-- What an image carries. -/
structure OwnerImg where
  owner : Owner
  policies : List (Nat × Policy)
  creds : List (Nat × Cred)
  keys : List (Nat × KeyRec × Bytes)
  member : Option Nat
  deriving DecidableEq, Repr

/-- A policy of an image. -/
def readPolicy (b : Bytes) : Policy :=
  let n := fld b 3 1
  { owner := fld b 4 4, m := fld b 8 1, n := n, defMask := fld b 9 1, life := fld b 0x0A 2, extra := fld b 0x0C 4, revision := fld b 0x10 4
    creds := (List.range n).map (fun i => fld b (0x20 + 4 * i) 4) }

/-- A key record of an image. -/
def readRecord (b : Bytes) : KeyRec :=
  { state := if fld b 2 1 = 3 then .exhausted else .active, type := fld b 3 1, owner := fld b 4 4, gen := fld b 8 4, length := fld b 0x0C 2
    purpose := fld b 0x0E 1, slots := fld b 0x0F 1, policy := fld b 0x10 4, attr := fld b 0x14 4, uses := fld b 0x18 4 }

/-- The keys of an image, one after another. -/
def readKeys : Nat → Bytes → List (Nat × KeyRec × Bytes)
  | 0, _ => []
  | n + 1, b =>
    let m := fld b 4 2
    let p := fld b 6 2
    (fld b 0 4, { readRecord (slice b 16 64) with born := fld b 8 1, pub := slice b (80 + m) p }, slice b 80 m) :: readKeys n (b.drop (80 + m + p))

/-- Read an image's body. -/
def readOwnerImg (b : Bytes) : OwnerImg :=
  let np := fld b 0 4
  let nc := fld b 4 4
  let e := slice b 16 32
  let at_ := 80 + 100 * np
  { owner := { domainId := fld e 4 4, adminPolicy := fld e 8 4, root := slice b 48 32 }
    policies := (List.range np).map (fun i => (fld b (80 + 100 * i) 4, readPolicy (slice b (84 + 100 * i) 96)))
    creds := (List.range nc).map (fun i =>
      let d := slice b (at_ + 1976 * i) 1976
      (fld d 0 4, { active := fld d 4 1 == 1, alg := fld d 5 1, owner := 0, label := slice d 8 16, key := slice d 24 (fld d 6 2) }))
    keys := readKeys (fld b 8 4) (b.drop (at_ + 1976 * nc))
    member := if fld b 12 1 = 0xFF then none else some (fld b 12 1) }

/-- The keys an export carries: every key of the owner, or those of its handle list (R115). -/
def exportKeys (mb : Mb) (q : Req) (s : State) : Except Nat (List (Nat × KeyRec)) :=
  let b := q.body
  let o := fld b 0 4
  if !bitOf (fld b 4 4) 0 then .ok ((ownerKeys o s.store.c).filter (fun p => p.2.state != .revoking))
  else match blobRead mb (fld b 0x18 8) (8 * fld b 0x14 4) s with
  | none => .error St.gatherFault
  | some l =>
    let ks := (List.range (fld b 0x14 4)).map (fun i => resolve (fld l (8 * i) 8) (some o) s)
    if ks.any (·.isNone) then .error St.handleInvalid
    else if (ks.filterMap id).any (fun p => p.2.state == .revoking) then .error St.keyStale
    else .ok (ks.filterMap id).eraseDups

/-- A key that replication refuses: IV_MODE RANDOM with purpose ENC or MAC (R117). -/
def randomIv (k : KeyRec) : Bool := ivMode k.attr == 1 && (k.purpose == 1 || k.purpose == 5)

/-- Bytes of a replica image before its body. -/
def replHead : Nat := 0x6C8

/-- The checks of REPLICA_EXPORT (R93, R113, R114, R117). A destination whose owner is ACTIVE under another DOMAIN_ID answers EVIDENCE_REJECTED: R114 gives that case no status (log entry 162). -/
def replicaExportCheck (mb : Mb) (q : Req) (s : State) : Option Nat :=
  let b := q.body
  let o := fld b 0 4
  match ownerForKeys mb o s, getOwner o s, blobRead mb (fld b 8 8) (fld b 0x10 4) s with
  | some st, _, _ => some st
  | none, none, _ => some St.handleInvalid
  | none, some _, none => some St.gatherFault
  | none, some x, some d =>
    let p := readPrep d
    if !destinationOk p || (fld p.body 4 2 ≠ noMember && p.domain ≠ x.domainId) then some St.evidenceRejected
    else match exportKeys mb q s with
    | .error st => some st
    | .ok ks =>
      if ks.any (fun k => randomIv k.2) then some St.purposeDenied
      else if x.anchor && x.domainClosed then some St.domainClosed
      else
        let n := replHead + (ownerImage o x ks 0 s.store.c).length + 16
        if fld b 0x28 4 < n then some St.destTooSmall
        else if !hostOk (mbFn mb) (fld b 0x20 8) n s then some St.gatherFault else none

/-- "OL9 REPL" (R115). -/
def replLabel : Bytes := [0x4F, 0x4C, 0x39, 0x20, 0x52, 0x45, 0x50, 0x4C]

/-- The clear header of a replica image. -/
def replHeader (o domain dst : Nat) (ct point wrapped : Bytes) : Bytes :=
  replLabel ++ layout 16 [(0, 4, o), (4, 4, domain), (8, 8, dst)] ++ padTo 1568 ct ++ padTo 97 point ++ List.replicate 7 0 ++ padTo 40 wrapped

/-- A member index is assigned; at 128 the domain closes (R113). -/
def assignMember (x : Owner) : Owner := { x with nextMember := x.nextMember + 1, domainClosed := decide (128 ≤ x.nextMember + 1) }

/-- The effect of REPLICA_EXPORT: the image is sealed; the anchor's image leaves only after the commit of its index (R113, R115). -/
def replicaExportRun (mb : Mb) (q : Req) (s : State) : Ans × State :=
  let b := q.body
  let o := fld b 0 4
  match getOwner o s, blobRead mb (fld b 8 8) (fld b 0x10 4) s, exportKeys mb q s with
  | some x, some d, .ok ks =>
    if x.anchor && !canChange s then (.stay, s)
    else match takeWarden 112 s with
    | (none, s) => (.stay, s)
    | (some bits, s) =>
      let p := readPrep d
      let dst := fld p.evidence 0x10 8
      let key := bits.take 32
      let r := bits.drop 32
      let (ct, point, tk) := sealTo p r replLabel (leBytes 8 dst ++ p.nonce) o
      let member := if x.anchor then x.nextMember else 0xFF
      let img := sealImage key (replHeader o x.domainId dst ct point (wrapImageKey tk key)) (ownerImage o x ks member s.store.c)
      let resp : Resp := { body := layout 5 [(0, 4, img.length), (4, 1, member)] }
      if x.anchor then
        let s := putOwner o (assignMember x) s
        (.hold (.commitWrite (lastSeq s) (fld b 0x20 8) img resp), wantCommit false (lastSeq s) s)
      else blobWrite mb (fld b 0x20 8) img resp s
  | _, _, _ => (cmdFail St.gatherFault, s)

/-- The policy of the owner a body names first. -/
def ownerDesig : Desig := fun _ q s => some ((adminOf (fld q.body 0 4) s).getD 0)

/-- REPLICA_EXPORT issued directly (R102, R114). -/
def execReplicaExport (mb : Mb) (s : State) : Out := runCmd mb 0x0219 (guarded (storeCheck replicaExportCheck) ownerDesig replicaExportRun) s

/-- Where one key of an image goes: its own place if free, another free run, or it is here already (R116). -/
inductive Place where
  | skip
  | at_ (slot gen : Nat) (moved : Bool)
  | full
  deriving DecidableEq, Repr

/-- The place of a key of an image (R116). -/
def placeImg (slot : Nat) (k : KeyRec) (c : Content) : Place :=
  let here := match tget c.keys slot with | some x => x.gen == k.gen && x.owner == k.owner | none => false
  if here then .skip
  else if 1 ≤ slot && slot + k.slots ≤ 33554432 && (List.range k.slots).all (fun i => slotFree c (slot + i)) then .at_ slot k.gen false
  else match findRun k.slots c with
    | some a => .at_ a (slotGen c a) true
    | none => .full

/-- A record as it is installed: ORIGIN replicated, INVOCATION 1, a first ceiling; without a member index IV_MODE HOST and no HOSTIV_PERMIT (R116). -/
def installedRec (k : KeyRec) (slot gen policy member : Nat) (indexed : Bool) (a b : Bytes) (seq : Nat) : KeyRec :=
  let attr := if indexed then k.attr else ((k.attr &&& (0xFFFFFFFF ^^^ (0xC + 2))) ||| 8)
  let k := { k with
    gen := gen, attr := attr, policy := policy, origin := 3, invocation := 1, saBound := 0, createSeq := seq, shareA := a, shareB := b
    ivFixed := member % 128 * 2 ^ 25 + slot, usesFloor := usesFloorOf k.uses, usesFloorOld := usesFloorOf k.uses }
  { k with ceiling := nextCeiling 1 k, ceilOld := nextCeiling 1 k, ceilSeq := seq }

/-- Installing an image: the mask bits left, what is installed and moved so far, and the handle map. -/
structure Install where
  bits : Bytes
  n : Nat := 0
  moved : Nat := 0
  map : Bytes := []
  st : State

/-- Install the keys of an image one after another; none if one finds no place (R116). -/
def installKeys (o member : Nat) (indexed : Bool) (pol : Nat → Nat) : List (Nat × KeyRec × Bytes) → Install → Option Install
  | [], i => some i
  | (slot, k, m) :: r, i =>
    match placeImg slot { k with owner := o } i.st.store.c with
    | .skip => installKeys o member indexed pol r i
    | .full => none
    | .at_ a gen moved =>
      let n := if bitOf k.attr attrPublic then 0 else m.length
      let x := padTo n (i.bits.take n)
      let k' := installedRec { k with owner := o } a gen (pol k.policy) member indexed x (xorBytes (m.take n) x) i.st.store.nextSeq
      let s := storeChange [] (fun c => { c with keys := tset c.keys a k' }) i.st
      let map := if moved then i.map ++ leBytes 8 (handleOf slot k.gen) ++ leBytes 8 (handleOf a gen) else i.map
      installKeys o member indexed pol r { bits := i.bits.drop n, n := i.n + 1, moved := i.moved + b2n moved, map := map, st := s }

/-- The IDs under which an image's records are kept here: their own where free, else others (log entry 133). -/
def freshIds {α : Type} (t : Tab α) (base : Nat) : List Nat → List (Nat × Nat)
  | [] => []
  | i :: r =>
    let rest := freshIds t base r
    if (tget t i).isNone && base ≤ i then (i, i) :: rest
    else
      let used (n : Nat) : Bool := (tget t n).isSome || rest.any (fun p => p.2 == n) || (i :: r).contains n
      (i, ((List.range (t.length + 2 * rest.length + r.length + 2)).find? (fun n => !used (base + n))).getD 0 + base) :: rest

/-- The new ID of an old one. -/
def newId (m : List (Nat × Nat)) (i : Nat) : Nat := match m.find? (fun p => p.1 == i) with | some p => p.2 | none => 0

/-- ROOT, policies and credentials of an image go into a PENDING owner, which is ACTIVE in the image's domain (R116, log entry 132). -/
def adoptOwner (o : Nat) (x : Owner) (i : OwnerImg) (pm cm : List (Nat × Nat)) (c : Content) : Content :=
  let x' := { x with state := .active, root := i.owner.root, domainId := i.owner.domainId, adminPolicy := newId pm i.owner.adminPolicy }
  let c := { c with owners := tset c.owners o x' }
  let c := i.creds.foldl (fun c p => { c with creds := tset c.creds (newId cm p.1) { p.2 with owner := o } }) c
  i.policies.foldl (fun c p =>
    { c with policies := tset c.policies (newId pm p.1) { p.2 with owner := o, creds := p.2.creds.map (newId cm) } }) c

/-- What a PENDING owner takes from an image must fit: its own 64 credentials and 64 policies, and the device's tables (R94). -/
def tablesRefuse (i : OwnerImg) (pm cm : List (Nat × Nat)) : Option Nat :=
  if 64 < i.creds.length || 64 < i.policies.length then some St.quotaExceeded
  else if cm.any (fun p => decide (65536 ≤ p.2)) || pm.any (fun p => decide (262143 < p.2)) then some St.storeFull
  else none

/-- Bytes of mask that the keys of an image take (R63). -/
def maskNeed (i : OwnerImg) : Nat := (i.keys.map (fun p => p.2.2.length)).foldl (· + ·) 0

/-- Install an image into an owner under mask bits: STORE_FULL installs nothing, the quotas hold, the handle map must fit (R63, R94, R116). -/
def installImage (mb : Mb) (o : Nat) (i : OwnerImg) (bits : Bytes) (mapAddr mapMax : Nat) (s : State) : Except Nat (Install × State) :=
  match getOwner o s with
  | none => .error St.handleInvalid
  | some x =>
    let pm := freshIds s.store.c.policies 1 (i.policies.map (·.1))
    let cm := freshIds s.store.c.creds 0 (i.creds.map (·.1))
    let pending := x.state == .pending
    match (if pending then tablesRefuse i pm cm else none) with
    | some st => .error st
    | none =>
    let pol (p : Nat) : Nat := if pending then newId pm p else if policyOk o p s then p else 0
    let s' := if pending then ownerChange (adoptOwner o x i pm cm) s else s
    let x' := (getOwner o s').getD x
    let s' := match i.member with
      | some m => putOwner o { x' with member := m, anchor := false } s'
      | none => s'
    match installKeys o ((getOwner o s').getD x).member i.member.isSome pol i.keys { bits := bits, st := s' } with
    | none => .error St.storeFull
    | some r =>
      if x.keyQuota < keysUsed o r.st.store.c then .error St.quotaExceeded
      else if mapMax < r.map.length then .error St.destTooSmall
      else if !r.map.isEmpty && !hostOk (mbFn mb) mapAddr r.map.length s then .error St.gatherFault
      else .ok (r, r.st)

/-- The answer of an installation: INSTALLED, REMAPPED, JOURNAL_SEQ after the commit, with the handle map (R116, R123). -/
def installAns (mapAddr : Nat) (r : Install) (s : State) : Ans × State :=
  (.hold (.commitWrite (lastSeq s) mapAddr r.map { body := layout 16 [(0, 4, r.n), (4, 4, r.moved), (8, 8, lastSeq s)] }),
    wantCommit false (lastSeq s) s)

/-- The owner an image may go into: PENDING, or ACTIVE (R93, R114, R120). -/
def installOwner (mb : Mb) (q : Req) (s : State) : Option Nat := notSuspended mb (fld q.body 0 4) s

/-- The replica image a request names, opened with the prepare it was sealed for (R114, R115). -/
def openReplica (mb : Mb) (q : Req) (s : State) : Except Nat (Prepare × OwnerImg) :=
  let b := q.body
  let o := fld b 0 4
  match blobRead mb (fld b 8 8) (fld b 0x10 4) s with
  | none => .error St.gatherFault
  | some img =>
    let headOk := img.take 8 == replLabel && fld img 8 4 == o && fld img 0x10 8 == s.ident.deviceRef
    let opens (p : Prepare) : Option Bytes :=
      let tk := openFrom p.priv (slice img 0x18 1568) (slice img 0x638 97) replLabel (leBytes 8 s.ident.deviceRef ++ p.nonce) o
      (if headOk then unwrapImageKey tk (slice img 0x6A0 40) else none).bind (fun k => openImage k replHead img)
    match openWith o none opens s with
    | .error st => .error st
    | .ok (p, d) =>
      let i := readOwnerImg d
      if ownerActive o s && (getOwner o s).map (·.domainId) != some i.owner.domainId then .error St.stateConflict else .ok (p, i)

/-- What REPLICA_APPLY would install under mask bits. The prepare is consumed by an apply that installs, not by one that fails: R114 leaves that open (log entry 161). -/
def applyOf (mb : Mb) (q : Req) (bits : Bytes) (s : State) : Except Nat (Install × State) :=
  match openReplica mb q s with
  | .error st => .error st
  | .ok (p, i) => installImage mb (fld q.body 0 4) i bits (fld q.body 0x18 8) (fld q.body 0x20 4) (usePrep p s)

/-- The checks of REPLICA_APPLY (R114, R116). -/
def replicaApplyCheck (mb : Mb) (q : Req) (s : State) : Option Nat :=
  match installOwner mb q s with
  | some st => some st
  | none => match applyOf mb q [] s with | .error st => some st | .ok _ => none

/-- The effect of REPLICA_APPLY (R114, R116). -/
def replicaApplyRun (mb : Mb) (q : Req) (s : State) : Ans × State :=
  match openReplica mb q s with
  | .error st => (cmdFail st, s)
  | .ok (_, i) => match takeSap (maskNeed i) s with
    | (none, s) => (.stay, s)
    | (some bits, s) => match applyOf mb q bits s with
      | .error st => (cmdFail st, s)
      | .ok (r, s) => installAns (fld q.body 0x18 8) r s

/-- REPLICA_APPLY needs no quorum (R110, R114). -/
def execReplicaApply (mb : Mb) (s : State) : Out := runCmd mb 0x021A (storeCmd replicaApplyCheck replicaApplyRun) s

/-- The backup KEK: an AES-256 key of purpose WRAP of the owner, or, for a PENDING owner, of an owner the caller may act for (R119, R120, log entry 134). -/
def backupKek (mb : Mb) (o h : Nat) (s : State) : Except Nat (Nat × KeyRec) :=
  let own := if ownerActive o s then some o else mbOwner mb s
  match resolve h own s with
  | none => .error St.handleInvalid
  | some (slot, k) =>
    match (if jobHolds mb slot k s then none else admission k s) with
    | some st => .error st
    | none =>
      if k.type ≠ 2 || k.saBound ≠ 0 then .error St.keyTypeMismatch
      else if k.purpose ≠ 3 then .error St.purposeDenied
      else if !hucInService s then .error St.engineFault else .ok (slot, k)

/-- Bytes of a backup image before its body (R119). -/
def backupHead : Nat := 66

/-- The clear header of a backup (R119). -/
def backupHeader (o domain kek seq : Nat) (wrapped : Bytes) : Bytes :=
  leBytes 2 1 ++ leBytes 4 o ++ leBytes 4 domain ++ leBytes 8 kek ++ leBytes 8 seq ++ padTo 40 wrapped

/-- The keys a backup carries: every record of the owner but those being destroyed. -/
def backupKeys (o : Nat) (s : State) : List (Nat × KeyRec) := (ownerKeys o s.store.c).filter (fun p => p.2.state != .revoking)

/-- The checks of OWNER_BACKUP (R93, R119). -/
def ownerBackupCheck (mb : Mb) (q : Req) (s : State) : Option Nat :=
  let b := q.body
  let o := fld b 0 4
  match ownerForKeys mb o s, getOwner o s with
  | some st, _ => some st
  | none, none => some St.handleInvalid
  | none, some x => match backupKek mb o (fld b 8 8) s with
    | .error st => some st
    | .ok _ =>
      let n := backupHead + (ownerImage o x (backupKeys o s) 0xFF s.store.c).length + 16
      if fld b 0x18 4 < n || !hostOk (mbFn mb) (fld b 0x10 8) n s then some St.gatherFault else none

/-- Block operations of an image key's AES-KWP on a HUC: four semiblocks (R119, R142). -/
def imageKeyBlocks : Nat := wrapBlocks 4

/-- The effect of OWNER_BACKUP, under a lease on the backup KEK and on a HUC (R64, R70, R119). -/
def ownerBackupRun (mb : Mb) (q : Req) (s : State) : Ans × State :=
  let b := q.body
  let o := fld b 0 4
  match getOwner o s, backupKek mb o (fld b 8 8) s with
  | some x, .ok (slot, w) =>
    match useKey mb slot w imageKeyBlocks s with
    | (.wait, s) => (.stay, s)
    | (.fail st, s) => (cmdFail st, s)
    | (.ready, s) => match takeWarden 32 s with
    | (none, s) => (.stay, s)
    | (some key, s) =>
      let seq := lastSeq s
      let head := backupHeader o x.domainId (fld b 8 8) seq (wrapImageKey (material w) key)
      let img := sealImage key head (ownerImage o x (backupKeys o s) 0xFF s.store.c)
      blobWrite mb (fld b 0x10 8) img { body := layout 16 [(0, 4, img.length), (8, 8, seq)] } s
  | _, .error st => (cmdFail st, s)
  | none, _ => (cmdFail St.handleInvalid, s)

/-- OWNER_BACKUP issued directly (R102, R119). -/
def execOwnerBackup (mb : Mb) (s : State) : Out := runCmd mb 0x021B (guarded (readCheck ownerBackupCheck) ownerDesig ownerBackupRun) s

/-- The backup image a request names, opened with its KEK (R120). -/
def openBackup (mb : Mb) (q : Req) (s : State) : Except Nat (Nat × OwnerImg) :=
  let b := q.body
  let o := fld b 0 4
  match backupKek mb o (fld b 8 8) s, blobRead mb (fld b 0x10 8) (fld b 0x18 4) s with
  | .error st, _ => .error st
  | .ok _, none => .error St.gatherFault
  | .ok (slot, w), some img =>
    let headOk := fld img 0 2 == 1 && fld img 2 4 == o
    match (if headOk then unwrapImageKey (material w) (slice img 26 40) else none).bind (fun k => openImage k backupHead img) with
    | none => .error St.unwrapFailed
    | some d =>
      let i := readOwnerImg d
      if ownerActive o s && (getOwner o s).map (·.domainId) != some i.owner.domainId then .error St.stateConflict
      else .ok (slot, { i with member := none })

/-- What OWNER_RESTORE would install under mask bits. -/
def restoreOf (mb : Mb) (q : Req) (i : OwnerImg) (bits : Bytes) (s : State) : Except Nat (Install × State) :=
  installImage mb (fld q.body 0 4) i bits (fld q.body 0x20 8) (fld q.body 0x28 4) s

/-- The checks of OWNER_RESTORE (R120). -/
def ownerRestoreCheck (mb : Mb) (q : Req) (s : State) : Option Nat :=
  match installOwner mb q s with
  | some st => some st
  | none => match openBackup mb q s with
    | .error st => some st
    | .ok (_, i) => match restoreOf mb q i [] s with | .error st => some st | .ok _ => none

/-- The effect of OWNER_RESTORE: as R116 for an image with no member index, under a lease on the backup KEK and on a HUC (R64, R70, R120). -/
def ownerRestoreRun (mb : Mb) (q : Req) (s : State) : Ans × State :=
  match openBackup mb q s, backupKek mb (fld q.body 0 4) (fld q.body 8 8) s with
  | .error st, _ | _, .error st => (cmdFail st, s)
  | .ok (_, i), .ok (slot, w) => match useKey mb slot w imageKeyBlocks s with
    | (.wait, s) => (.stay, s)
    | (.fail st, s) => (cmdFail st, s)
    | (.ready, s) => match takeSap (maskNeed i) s with
      | (none, s) => (.stay, s)
      | (some bits, s) => match restoreOf mb q i bits s with
        | .error st => (cmdFail st, s)
        | .ok (r, s) => installAns (fld q.body 0x20 8) r s

/-- OWNER_RESTORE: designated for an ACTIVE owner, direct into a PENDING one (R93, R110, R120). -/
def execOwnerRestore (mb : Mb) (s : State) : Out :=
  runCmd mb 0x021C (guarded (storeCheck ownerRestoreCheck) ownerFieldDesig (storeRun ownerRestoreRun)) s

end Sys2Proof.Machine
end

