-- ==== Sys2Proof/Machine/Quorum.lean ====
section
/-! DEFINITION. Dual control: approvals and the commands that open, approve, execute and cancel them (R102-R110). -/

namespace Sys2Proof.Machine

/-- A designated command: its checks, the policy it needs, its effect. -/
structure Designated where
  check : Mb → Req → State → Option Nat
  desig : Desig
  run : Handler

/-- PERSONALISE to PRODUCTION is the one life-cycle transition that a quorum approves (R110, R479). -/
def lcQuorumDesig : Desig := fun mb q s => if s.lc.decoded = .personalise ∧ fld q.body 0 1 = 3 then estateDesig mb q s else none

/-- The checks a DEBUG_GRANT gets before its quorum (R484). -/
def debugOpenCheck (mb : Mb) (q : Req) (s : State) : Option Nat :=
  if 65536 < fld q.body 8 4 then some St.lengthInvalid else if (authBytes mb q s).isNone then some St.gatherFault else none

/-- DEBUG_GRANT of a U enable for an owner other than 0 is that owner's to approve (R486). -/
def debugOpenDesig : Desig := fun mb q s =>
  match authBytes mb q s with
  | some b => if debugScoped s b then debugGrantDesig b mb q s else none
  | none => none

/-- A map that fails R416 is refused before its quorum (R420). -/
def worldOpenCheck (_ : Mb) (q : Req) (_ : State) : Option Nat := if (writeFault (padTo 0x840 q.body)).isSome then some St.fieldInvalid else none

/-- The commands that a policy must approve in some or all cases (R99, R110 and the chapter of each). -/
def designatedCmd (estate : Bool) (op : Nat) : Option Designated :=
  match op with
  | 0x0206 => some ⟨storeCheck ownerDeleteCheck, ownerDeleteDesig estate, storeRun ownerDeleteRun⟩
  | 0x0208 => some ⟨storeCheck credAddCheck, ownerFieldDesig, storeRun credAddRun⟩
  | 0x0209 => some ⟨storeCheck credRevokeCheck, credRevokeDesig, storeRun credRevokeRun⟩
  | 0x020A => some ⟨storeCheck policyCreateCheck, ownerFieldDesig, storeRun policyCreateRun⟩
  | 0x020B => some ⟨storeCheck policyModifyCheck, policyModifyDesig, storeRun policyModifyRun⟩
  | 0x0219 => some ⟨storeCheck replicaExportCheck, ownerDesig, replicaExportRun⟩
  | 0x021B => some ⟨readCheck ownerBackupCheck, ownerDesig, ownerBackupRun⟩
  | 0x021C => some ⟨storeCheck ownerRestoreCheck, ownerFieldDesig, storeRun ownerRestoreRun⟩
  | 0x0301 => some ⟨storeCheck keyGenerateCheck, keyGenerateDesig, storeRun keyGenerateRun⟩
  | 0x0302 => some ⟨storeCheck keyImportCheck, keyImportDesig, storeRun keyImportRun⟩
  | 0x0303 => some ⟨readCheck keyExportCheck, keyExportDesig, keyExportRun⟩
  | 0x0304 => some ⟨storeCheck keyDeriveCheck, keyDeriveDesig, storeRun keyDeriveRun⟩
  | 0x0305 => some ⟨storeCheck keyDestroyCheck, keyDestroyDesig, storeRun keyDestroyRun⟩
  | 0x0306 => some ⟨storeCheck keyReplaceCheck, keyDestroyDesig, storeRun keyReplaceRun⟩
  | 0x0308 => some ⟨storeCheck keySetAttrCheck, keySetAttrDesig, storeRun keySetAttrRun⟩
  | 0x0411 => some ⟨vfThawCheck, vfThawDesig, vfThawRun⟩
  | 0x0518 => some ⟨storeCheck saAddCheck, saAddDesig, storeRun saAddRun⟩
  | 0x0601 => some ⟨storeCheck appletTrustCheck, appletTrustDesig, storeRun appletTrustRun⟩
  | 0x0702 => some ⟨lcToProductionCheck, lcQuorumDesig, lcToProductionRun⟩
  | 0x0704 => some ⟨anchorRefreshCheck, estateDesig, anchorRefreshRun⟩
  | 0x0708 => some ⟨debugOpenCheck, debugOpenDesig, debugGrantRun⟩
  | 0x0804 => some ⟨fun _ _ _ => none, estateDesig, logClearRun⟩
  | 0x0901 => some ⟨lookoutConfigCheck, estateDesig, lookoutConfigRun⟩
  | 0x0903 => some ⟨lookoutReleaseCheck, estateDesig, lookoutReleaseRun⟩
  | 0x0904 => some ⟨svoutCtrlCheck, estateDesig, svoutCtrlRun⟩
  | 0x0911 => some ⟨firebreakConfigCheck, firebreakConfigDesig, firebreakConfigRun⟩
  | 0x0A01 => some ⟨imageStageCheck, imageDesig, imageStageRun⟩
  | 0x0A03 => some ⟨updateApplyCheck, estateDesig, updateApplyRun⟩
  | 0x0A06 => some ⟨imageCommitCheck, imageDesig, imageCommitRun⟩
  | 0x0A20 => some ⟨calibrateCheck, estateDesig, calibrateRun⟩
  | 0x0A30 => some ⟨worldOpenCheck, estateDesig, worldmapWriteRun⟩
  | _ => none

/-- The embedded request as QUORUM_OPEN carries it: header and body (R123, R267). -/
def embedded (b : Bytes) : Bytes := slice b 8 (fld b 0 2)

/-- The embedded request, always in the VF form (R267). -/
def embeddedReq (e : Bytes) : Req :=
  { opcode := fld e 0 2, bodyLen := fld e 4 4, reqId := fld e 8 8, deadlineMs := fld e 0x10 4, body := slice e 64 (fld e 4 4) }

/-- The checks of a request as if it were about to run, except for quorum (R102, R103). -/
def openCheck (mb : Mb) (estate : Bool) (q : Req) (s : State) : Option Nat :=
  match acceptCheck mb q s with
  | some st => some st
  | none => match designatedCmd estate q.opcode with
    | none => some St.fieldInvalid
    | some d => d.check mb q s

/-- The policy a request needs; none if it needs none. -/
def openPolicy (mb : Mb) (estate : Bool) (q : Req) (s : State) : Option Nat :=
  (designatedCmd estate q.opcode).bind (fun d => d.desig mb q s)

/-- Approvals open at a moment (R106, R109). -/
def openApprovals (s : State) : Tab Approval := s.cust.approvals.filter (fun p => decide (seconds s < p.2.notAfter))

/-- The checks of QUORUM_OPEN (R93, R103, R109, R269; log entry 135). -/
def quorumOpenCheck (mb : Mb) (q : Req) (s : State) : Option Nat :=
  let n := fld q.body 0 2
  let e := embedded q.body
  let estate := bitOf (fld q.body 4 4) 0
  let r := embeddedReq e
  if n < 64 || q.bodyLen < 8 + n then some St.fieldInvalid
  else if fld e 2 1 ≠ 1 || r.bodyLen ≠ n - 64 then some St.headerInvalid
  else match openCheck mb estate r s, openPolicy mb estate r s with
  | some st, _ => some st
  | none, none => some St.fieldInvalid
  | none, some p =>
    match tget s.store.c.policies p with
    | none => some St.policyInvalid
    | some x =>
      if policySuspended r.opcode p s then some St.ownerDenied
      else if 1024 ≤ (openApprovals s).length || 8 ≤ ((openApprovals s).filter (fun a => a.2.owner == x.owner)).length then some St.approvalsFull
      else none

/-- Where a request keeps an INDIRECT blob it brings in: offsets of FLAGS, of the blob's length, bytes of that length, offset of the blob (R87, R123, R491). -/
def blobPlace (op : Nat) : Option (Nat × Nat × Nat × Nat) :=
  match op with
  | 0x0302 => some (0x14, 0x2A, 2, 0x30)
  | 0x0208 => some (0x18, 0x06, 2, 0x20)
  | 0x0708 => some (4, 8, 4, 0x10)
  | _ => none

/-- The INDIRECT blob of a request, and the request with that blob in line (step 2 of R103). -/
def holdBlob (mb : Mb) (q : Req) (s : State) : Option Bytes × Req :=
  match blobPlace q.opcode with
  | none => (none, q)
  | some (f, l, w, a) =>
    if !bitOf (fld q.body f 4) 2 then (none, q)
    else match blobRead mb (fld q.body a 8) (fld q.body l w) s with
    | none => (none, q)
    | some d =>
      let body := padTo a (q.body.take f ++ leBytes 4 (fld q.body f 4 - 4) ++ q.body.drop (f + 4)) ++ d
      (some d, { q with body := body, bodyLen := body.length })

/-- The effect of QUORUM_OPEN (R103). -/
def quorumOpenRun (mb : Mb) (q : Req) (s : State) : Ans × State :=
  let e := embedded q.body
  let estate := bitOf (fld q.body 4 4) 0
  let r := embeddedReq e
  match (openPolicy mb estate r s).bind (fun p => (tget s.store.c.policies p).map (fun x => (p, x))) with
  | none => (cmdFail St.policyInvalid, s)
  | some (p, x) =>
    match takeWarden 32 s with
    | (none, s) => (.stay, s)
    | (some nonce, s) =>
      let (blob, r) := holdBlob mb r s
      let till := seconds s + x.life
      let digest := sha256 (e ++ blob.getD [])
      let id := s.cust.nextId
      let a : Approval := { policy := p, owner := x.owner, req := r, blob := blob, notAfter := till, nonce := nonce, digest := digest }
      (.reply { body := layout 16 [(0, 4, id), (4, 4, p), (8, 1, x.m), (12, 4, till)] ++ nonce ++ digest },
        { s with cust.approvals := tset s.cust.approvals id a, cust.nextId := id + 1 })

/-- QUORUM_OPEN (R103). -/
def execQuorumOpen (mb : Mb) (s : State) : Out := runCmd mb 0x0210 (direct quorumOpenCheck quorumOpenRun) s

/-- An approval a command names: TOKEN_EXPIRED if it is not open at the command's acceptance, HANDLE_INVALID if another owner's (R95, R106). -/
def namedApproval (mb : Mb) (id : Nat) (s : State) : Except Nat Approval :=
  match tget s.cust.approvals id with
  | none => .error St.tokenExpired
  | some a =>
    if !scopeOk mb a.owner s then .error St.handleInvalid
    else if a.notAfter ≤ (getMb mb s).since then .error St.tokenExpired else .ok a

/-- The message a custodian signs: "OL9QAPV1" and seven fields (R104). -/
def approvalText (id cred : Nat) (a : Approval) (s : State) : Bytes :=
  [0x4F, 0x4C, 0x39, 0x51, 0x41, 0x50, 0x56, 0x31] ++ layout 24 [(0, 8, s.ident.deviceRef), (8, 4, id), (12, 4, a.policy), (16, 4, cred), (20, 4, a.notAfter)] ++
  padTo 32 a.nonce ++ padTo 32 a.digest

/-- The length of a custodian's signature by ALG (R104). -/
def custSigLen (alg : Nat) : Nat := if alg = 1 then 96 else 3309

/-- Whether a signature is a good approval by a credential (R104, R105). -/
def approvalGood (id cred : Nat) (a : Approval) (sig : Bytes) (s : State) : Bool :=
  match tget s.store.c.creds cred, tget s.store.c.policies a.policy with
  | some k, some p =>
    k.active && p.creds.contains cred && !a.approved.contains cred && sig.length == custSigLen k.alg &&
      Config.verdict .sign [[0x44], leBytes 1 k.alg, k.key, approvalText id cred a s, sig]
  | _, _ => false

/-- The effect of QUORUM_APPROVE (R105, R106). -/
def quorumApproveRun (mb : Mb) (q : Req) (s : State) : Ans × State :=
  let b := q.body
  let id := fld b 0 4
  match namedApproval mb id s, bodyBlob mb q 0x10 (fld b 8 2) (bitOf (fld b 0x0C 4) 2) s with
  | .error st, _ => (cmdFail st, s)
  | .ok _, none => (cmdFail St.gatherFault, s)
  | .ok a, some sig =>
    if !approvalGood id (fld b 4 4) a sig s then (cmdFail St.approvalInvalid, s)
    else
      let a := { a with approved := a.approved ++ [fld b 4 4] }
      let m := match tget s.store.c.policies a.policy with | some p => p.m | none => 0
      (.reply { body := layout 2 [(0, 1, a.approved.length), (1, 1, m)] }, { s with cust.approvals := tset s.cust.approvals id a })

/-- QUORUM_APPROVE (R105). -/
def execQuorumApprove (mb : Mb) (s : State) : Out := runCmd mb 0x0211 quorumApproveRun s

/-- At least M distinct ACTIVE credentials of the policy have approved (R107). -/
def approvedEnough (a : Approval) (s : State) : Bool :=
  match tget s.store.c.policies a.policy with
  | none => false
  | some p =>
    let good := a.approved.filter (fun i => p.creds.contains i && (match tget s.store.c.creds i with | some k => k.active | none => false))
    decide (p.m ≤ good.eraseDups.length)

/-- An approval is consumed; its opcode is kept with the request for the COMMAND_QUORUM record (R107, R559). -/
def consume (mb : Mb) (reqId id op : Nat) (s : State) : State :=
  let s := cancelApprovals (fun k _ => k == id) s
  setMb mb (setRec reqId (fun r => { r with quorum := some op }) (getMb mb s)) s

/-- The answer of a command under quorum that has succeeded waits for the commit of what the journal holds (R79, R107). -/
def quorumAns (r : Resp) (s : State) : Ans × State :=
  if lastSeq s ≤ s.store.committed then (.reply { r with info := r.info ||| St.durable }, s) else durableAns r s

/-- The held request runs, with its checks made again, its mode judged as of the acceptance of QUORUM_EXECUTE (R44, R107). -/
def runHeld (mb : Mb) (q : Req) (s : State) : Ans × State :=
  match acceptCheckIn (getMb mb s).mode mb q s, designatedCmd false q.opcode with
  | some st, _ => (cmdFail st, s)
  | none, none => (cmdFail St.fieldInvalid, s)
  | none, some d => direct d.check d.run mb q s

/-- The effect of QUORUM_EXECUTE (R106, R107): an execution that has passed its count goes on though an approval is withdrawn (R108). -/
def quorumExecuteRun (mb : Mb) (q : Req) (s : State) : Ans × State :=
  let id := fld q.body 0 4
  match namedApproval mb id s with
  | .error st => (cmdFail st, s)
  | .ok a =>
    if (getMb mb s).inner.isNone && !approvedEnough a s then (cmdFail St.quorumMissing, s)
    else match runHeld mb a.req s with
    | (.stay, s) => (.stay, setMb mb { getMb mb s with inner := some (id, a.req) } s)
    | (.reply r, s) =>
      let s := consume mb q.reqId id a.req.opcode s
      if r.status = 0 then quorumAns r s else (.reply r, s)
    | (.hold w, s) => (.hold w, consume mb q.reqId id a.req.opcode s)

/-- QUORUM_EXECUTE (R107). -/
def execQuorumExecute (mb : Mb) (s : State) : Out := runCmd mb 0x0212 quorumExecuteRun s

/-- The effect of QUORUM_CANCEL; an approval that is not open answers as R106 does (R95, R109, log entry 136). -/
def quorumCancelRun (mb : Mb) (q : Req) (s : State) : Ans × State :=
  let id := fld q.body 0 4
  match namedApproval mb id s with
  | .error st => (cmdFail st, s)
  | .ok _ => (.reply {}, cancelApprovals (fun k _ => k == id) s)

/-- QUORUM_CANCEL (R109). -/
def execQuorumCancel (mb : Mb) (s : State) : Out := runCmd mb 0x0213 quorumCancelRun s

end Sys2Proof.Machine
end

