-- ==== Sys2Proof/Machine/Expiry.lean ====
section
/-! DEFINITION. Waits that run out: ENTROPY_WAIT_EXPIRY, 10 ms for random bits (R58, R132, R196, R215, R221, R371), and DRAIN_LIMIT_EXPIRY, the drain of a revoked key (R82). -/

namespace Sys2Proof.Machine

/-- A key generation waits for its random bits: its checks pass and the bits are short (R58). -/
def generateStarves (mb : Mb) (q : Req) (s : State) : Bool :=
  let n := newKeyOf q.body 0
  q.opcode == 0x0301 && (storeCheck keyGenerateCheck mb q s).isNone && (takeKeyBits (asymmetric n.type) (privLen n.type n.length) s).1.isNone

/-- The KEY_GENERATE of a mailbox, direct or held under QUORUM_EXECUTE, ends with ENTROPY_UNAVAILABLE; an approval it ran under is used up (R58, R107). -/
def mailboxStarves (mb : Mb) (s : State) : State :=
  let b := getMb mb s
  if b.wait != .none || !wardenAnswers s then s
  else match b.cur, b.inner with
  | some q, none => if generateStarves mb q s then finishMb mb (fail St.entropyUnavailable) s else s
  | some q, some (id, i) =>
    if generateStarves mb i s then finishMb mb (fail St.entropyUnavailable) (consume mb q.reqId id i.opcode s) else s
  | none, _ => s

/-- A mailbox's command that still holds a lease on a revoked key ends with KEY_REVOKED; an approval it ran under is used up (R82, R107, R274). -/
def mailboxRevoked (slot : Nat) (mb : Mb) (s : State) : State :=
  let b := getMb mb s
  if !b.job.any (fun j => j.slot == slot) then s
  else match b.cur, b.inner with
  | some q, some (id, i) => finishMb mb (fail St.keyRevoked) (consume mb q.reqId id i.opcode s)
  | _, _ => finishMb mb (fail St.keyRevoked) s

/-- DRAIN_LIMIT_EXPIRY: the contexts of queues and of mailboxes and the digest slots that still hold a lease end with KEY_REVOKED (step 3 of R82, R170, R274). -/
def execDrainLimitExpiry (slot : Nat) (s : State) : Out :=
  onUnit (slot < 33554432) (
    match tget s.store.c.keys slot with
    | none => s
    | some k =>
      if k.state = .revoking then
        let s := s.mbox.foldl (fun s p => mailboxRevoked slot (mbOfKey p.1) s) s
        revokeSlot slot (abortWhere (fun x => x.leases.any (fun l => l.1 == slot)) St.keyRevoked s)
      else s)

/-- The RANDOM call of a gate ends with ENTROPY_UNAVAILABLE while its stand's port holds too few words (R371). -/
def gateStarves (ticket : Nat) (s : State) : State :=
  match s.cores.taken.find? (fun g => g.ticket == ticket && g.service == 0x001 && !g.answered) with
  | none => s
  | some g =>
    let n := fld g.request 8 4
    if serviceGranted g 0 s && ownerActive g.owner s && 1 ≤ n && n ≤ 4096 && ((getFeed (g.server.getD 0 / 9) 5 s).bytes n).isNone then
      gateAnswer ticket (gateResp St.entropyUnavailable 0 []) s
    else s

/-- A cold start needs noise it does not have: that of its next stage, or bits the Heartwood has asked for, with neither source delivering (R215). -/
def startStarves (s : State) : Bool :=
  s.start.starting && !s.start.halted && !s.pwr.resetLow && s.pwr.state != .backup && !delivers earlyBank s && !entropyOk s &&
    (!stageNoise (nextStage s) s || s.units.heartFeed.want != 0)

/-- ENTROPY_WAIT_EXPIRY: the waiting generation, message, piece, port request, call or start ends (R58, R132, R196, R215, R222, R371). -/
def execEntropyWaitExpiry (who : Waiter) (s : State) : Out :=
  match who with
  | .mailbox mb => onUnit (mbOk mb) (mailboxStarves mb s)
  | .context c => onUnit (ctxOk c) (match getCtx c s with | some x => entropyEnd c x s | none => s)
  | .port st m => onUnit (st < 8) (cancelPort st m s)
  | .gate t => .next (gateStarves t s)
  | .start => .next (if startStarves s then startFail s else s)

end Sys2Proof.Machine
end

