-- ==== Sys2Proof/Machine/Views.lean ====
section
/-! DEFINITION. What every register reads (R7, R8, R236): the value of each 32-bit word of a PF's and a VF's BAR0, of a compatibility window, of the internal registers and of a core's own page. No read changes anything (R8), so a read is no command: it is a function of State. -/

namespace Sys2Proof.Machine

/-- The word at an offset of a 64-bit value: its low half at an even word, its high half at the next (R5). -/
def half (v : Nat) (hi : Bool) : Nat := if hi then v / 2 ^ 32 % 2 ^ 32 else v % 2 ^ 32

/-- Word i of a byte string. -/
def wordAt (b : Bytes) (i : Nat) : Nat := fld b (4 * i) 4

/-- GBL_LINK of a PF (R228, R241). -/
def linkWord (p : Nat) (s : State) : Nat :=
  let l := getLink p s
  let halved := bitOf s.pwr.straps (2 + p / 2)
  p / 2 + 2 * (if halved then p % 2 else 0) + 4 * b2n halved + 8 * l.speed + 64 * l.width + 2 ^ 11 * b2n l.flit +
    2 ^ 12 * b2n ((s.host.jring.state != .off) && s.host.jring.pf == p)

/-- GBL_FN_ACCESS of a function. -/
def accessWord (fn : Fn) (s : State) : Nat := (getFn fn s).accessErr + 65536 * (getFn fn s).dbErr

/-- GBL_FN_CREDIT of a function (R275). -/
def creditWord (fn : Fn) (s : State) : Nat := (getFn fn s).credit + 65536 * min 8191 (fnHeld fn s)

/-- SOURCE of GBL_WORLD. -/
def sourceCode : MapSource → Nat
  | .none => 0
  | .flash => 1
  | .default => 2
  | .fallback => 3

/-- GBL_WORLD (chapter 15, Registers). -/
def worldWord (s : State) : Nat := sourceCode s.world.source + 4 * b2n s.world.locked + 8 * b2n (pendingMap s).isSome

/-- GBL_START (chapter 16, Registers). -/
def startWord (s : State) : Nat := s.start.stage + 256 * b2n s.start.kindRestart + 512 * b2n s.start.seedlingFw + 1024 * s.start.slot

/-- STANDBY of GBL_WARDEN. -/
def standbyCode : Standby → Nat
  | .absent => 0
  | .loading => 1
  | .ready => 2
  | .updating => 3

/-- GBL_WARDEN (chapter 16, Registers). -/
def wardenWord (s : State) : Nat :=
  s.start.active + 2 * standbyCode s.start.standby + 8 * b2n (decide (4 ≤ s.start.handStep ∧ s.start.handStep ≤ 6)) + 65536 * s.start.failovers

/-- GBL_SVN (chapter 16, Registers). -/
def svnWord (s : State) : Nat :=
  s.start.deviceSvn + 2 ^ 16 * s.start.preferred + 2 ^ 17 * b2n s.start.slotA.valid + 2 ^ 18 * b2n s.start.slotB.valid + 2 ^ 19 * b2n s.start.fallback

/-- GBL_LC (chapter 17, Registers). -/
def lcGblWord (l : LifeCycle) : Nat :=
  let o := lcOpen l.journal
  let valid (n : Nat) : Nat := b2n ((l.copies[n]?.bind lcOfWord).isSome)
  lcCode l.decoded + 8 * valid 0 + 16 * valid 1 + 32 * valid 2 + 64 * b2n o.isSome + 256 * ((o.map (fun e => lcCode e.src)).getD 0) +
    4096 * ((o.map (fun e => lcCode e.dst)).getD 0) + 65536 * l.journal.length + 2 ^ 25 * b2n (l.wiped == l.decoded) + 2 ^ 26 * b2n l.anchor.isSome

/-- The global words of a PF's BAR0 (chapters 01, 02, 03, 09, 15, 16, 17). -/
def globalWord (p off : Nat) (s : State) : Option Nat :=
  match off with
  | 0x00 => some 0x09B16412
  | 0x04 => some (fwLevelWord s)
  | 0x08 => some (half s.ident.deviceRef false)
  | 0x0C => some (half s.ident.deviceRef true)
  | 0x10 => some (linkWord p s)
  | 0x14 => some (getFn (.pf p) s).events.toNat
  | 0x20 => some (accessWord (.pf p) s)
  | 0x24 => some (creditWord (.pf p) s)
  | 0x200 => some (modeWord s)
  | 0x204 => some (condValue s).toNat
  | 0x208 => some (seedWord s)
  | 0x210 => some (storeWord s)
  | 0x218 => some (half s.store.committed false)
  | 0x21C => some (half s.store.committed true)
  | 0x220 => some (half s.store.floor false)
  | 0x224 => some (half s.store.floor true)
  | 0x228 => some (half s.store.head false)
  | 0x22C => some (half s.store.head true)
  | 0x230 => some (worldWord s)
  | 0x234 => some s.world.map.gen
  | 0x280 => some (startWord s)
  | 0x284 => some (wardenWord s)
  | 0x288 => some (half s.start.epoch false)
  | 0x28C => some (half s.start.epoch true)
  | 0x290 => some (updateWord s)
  | 0x294 => some s.start.restarts
  | 0x298 => some (svnWord s)
  | 0x2A0 => some (lcGblWord s.lc)
  | 0x2A4 => some (debugWord s.lc)
  | _ => if inRange off 0x240 48 then some (wordAt s.world.digest ((off - 0x240) / 4)) else none

/-- GBL_CAPDIR (R25-R27): header, sizes and roots, and the node entries. -/
def capdirWord (off : Nat) (s : State) : Option Nat :=
  let on := !s.units.capdir.isEmpty
  let root (k : Nat) : Nat := if on then treeBase k else 0xFFFF
  match off with
  | 0x8000 => some s.units.capGen
  | 0x8004 => some ((if on then 249 else 0) + 0x05080000)
  | 0x8008 => some (root 0 + 65536 * root 1)
  | 0x800C => some (root 2 + 65536 * root 3)
  | 0x8010 => some (root 4)
  | _ => if inRange off 0x8040 (32 * 1022) then some (wordAt (capNode ((off - 0x8040) / 32) s) ((off - 0x8040) % 32 / 4)) else none

/-- PWR_STATE (chapter 21, Registers). -/
def pwrStateWord (s : State) : Nat :=
  b2n (s.pwr.dozed != 0) + 256 * s.pwr.dozed.toNat + 65536 * ((s.pwr.entry.map (fun e => min 3 e.ap)).getD 0)

/-- The power and wake words of BAR0, from 0x3_0000 (chapter 21). -/
def powerWord (o : Nat) (s : State) : Option Nat :=
  match o with
  | 0x00 => some (pwrStateWord s)
  | 0x04 => some (wakeLastWord s.pwr)
  | 0x08 => some s.pwr.wakeTime
  | 0x0C => some s.pwr.slept
  | 0x10 => some (s.pwr.cause + 16 * b2n s.pwr.backupUsed)
  | 0x14 => some (s.pwr.idleUs + 65536 * s.pwr.enable.toNat)
  | 0x18 => some (i2cAddr s + 256 * s.pwr.eid + 65536 * s.pwr.sessions)
  | _ => if inRange o 0x40 64 then some (half (tgetD s.pwr.wakes ((o - 0x40) / 8) 0) (o % 8 == 4)) else none

/-- FBK_ALIVE (chapter 19, Registers). -/
def aliveWord (f : Firebreak) : Nat := b2n f.level + 2 * b2n (f.running && !f.fatal && !f.forceLow) + 4 * b2n f.backupClk + 8 * b2n f.forceLow

/-- The Firebreak words of BAR0, from 0x4_0000 (chapter 19). -/
def firebreakWord (o : Nat) (s : State) : Option Nat :=
  let f := s.fbk
  match o with
  | 0x00 => some (fbkStatusWord f)
  | 0x04 => some (aliveWord f)
  | 0x08 => some f.service.toNat
  | 0x10 => some (half (fbkLastWord f.last) false)
  | 0x14 => some (half (fbkLastWord f.last) true)
  | 0x40 => some (fbkCommitWord s.commit)
  | 0x100 => some (f.injSource + 256 * f.injUnit)
  | _ =>
    if inRange o 0x20 32 then some (half (tgetD f.counts ((o - 0x20) / 8) 0) (o % 8 == 4))
    else if inRange o 0x80 32 then some (fbkWearWord s ((o - 0x80) / 4)) else none

/-- LKO_SUMMARY (chapter 18, Registers). -/
def lkoSummaryWord (s : State) : Nat :=
  let l := s.lko
  b2n (l.src.any (fun p => !p.2.events.isEmpty)) + 2 * b2n (frozen s) + 4 * b2n l.latchApplied + 8 * b2n l.backupLost + 16 * b2n l.capped +
    32 * (lkoHolders s).length + 65536 * min 65535 l.trips

/-- LKO_SVOUT: the output voltage of a running supply is a measurement, a free value (log entry 137). -/
def lkoSvoutWord (s : State) : Nat :=
  svoutCode s.lko.svout + 8 * s.lko.svRetries + 32 * b2n s.lko.svEnabled +
    65536 * (if s.lko.svout = .softstart ∨ s.lko.svout = .on then Config.freeValue s.free % 65536 else 0)

/-- LKO_SRC_CFG of a source (chapter 18, Registers). -/
def lkoSrcCfgWord (c : LkoCfg) : Nat := c.response + 8 * b2n c.enable + 16 * b2n c.polarity + 256 * c.n + 65536 * c.wMs

/-- LKO_LATCH of a slot (chapter 18, Registers). -/
def lkoLatchWord (x : LkoLatch) : Nat := x.time + 2 ^ 32 * min 255 x.count + 2 ^ 40 * b2n x.valid

/-- The Lookout words of BAR0, from 0x5_0000 (chapter 18). -/
def lookoutWord (o : Nat) (s : State) : Option Nat :=
  if o = 0 then some (lkoSummaryWord s)
  else if o = 4 then some (seconds s)
  else if o = 8 then some (lkoSvoutWord s)
  else if o = 0xC then some s.lko.cfgGen
  else if inRange o 0x40 48 then some (half (lkoLatchWord (tgetD s.lko.latches ((o - 0x40) / 8) {})) (o % 8 == 4))
  else if inRange o 0x110 0x1D0 then
    let n := (o - 0x100) / 16
    some (match o % 16 with
      | 0 => lkoStatusWord s n
      | 4 => lkoSrcCfgWord (lkoCfg s n)
      | 8 => (BitVec.ofInt 32 (lkoCfg s n).thresh).toNat
      | _ => (lkoSrc s n).tripTime)
  else if inRange o 0x400 96 then some (BitVec.ofInt 32 (tgetD s.lko.readings ((o - 0x400) / 4) 0)).toNat
  else none

/-- The newest record held whose SEQ is i modulo 64, as 32 bytes (TRL_RECENT). -/
def recentRec (i : Nat) (l : TrLog) : Bytes :=
  match ((heldRecs l).filter (fun x => x.seq % 64 == i)).getLast? with
  | some x => recBytes x
  | none => []

/-- The tree-ring words of BAR0, from 0x6_0000 (chapter 20). -/
def treeRingWord (o : Nat) (s : State) : Option Nat :=
  let l := s.log
  let hi := o % 8 == 4
  if o = 0 then some (trlStatusWord l)
  else if inRange o 0x08 40 then some (half ([trlHead l, trlTail l, l.acked, l.crit, l.lost].getD ((o - 8) / 8) 0) hi)
  else if o = 0x30 then some s.meter.period
  else if o = 0x34 then some s.meter.opened
  else if inRange o 0x38 8 then some (half (BitVec.ofInt 64 s.meter.utc).toNat (o == 0x3C))
  else if inRange o 0x1000 2048 then some (wordAt (recentRec ((o - 0x1000) / 32) l) (o % 32 / 4))
  else none

/-- QMG_QSTAT of a queue or frame ring of a function. -/
def qstatOf (fn : Fn) (qid : Nat) (s : State) : Nat :=
  match tget s.eth.rings (qKey fn qid) with
  | some r => qstatWord { state := r.state, cause := r.cause, sqHead := r.head }
  | none => match getQ (qKey fn qid) s with | some q => qstatWord q | none => 0

/-- STATE of QMG_JR_STATUS. -/
def jrCode : JrState → Nat
  | .off => 0
  | .output => 1
  | .input => 2
  | .error => 3

/-- QMG_JR_STATUS through a PF (R262). -/
def jrWord (p : Nat) (s : State) : Nat :=
  let j := s.host.jring
  jrCode j.state + 4 * b2n (j.state != .off && j.pf == p) + 8 * b2n j.stalled + 65536 * min 4096 (unacked s)

/-- The queue-management words of a PF's BAR0, from 0x10_0000; doorbells read 0 (chapters 09, 14). -/
def queueWord (p o : Nat) (s : State) : Option Nat :=
  if o < 0x800 then some 0
  else if inRange o 0x800 1024 then some (qstatOf (.pf p) ((o - 0x800) / 4) s)
  else if inRange o 0x1000 8 then some 0
  else if inRange o 0x1008 8 then some (half (tgetD s.host.jring.ackShadow p 0).toNat (o == 0x100C))
  else if o = 0x1010 then some (jrWord p s)
  else if inRange o 0x2000 (4 * 2048) then some (match (pfVfs p s)[(o - 0x2000) / 4]? with | some n => vfStatWord n s | none => 0)
  else none

/-- The counter at an offset of a port's registers. -/
def portCounter (o : Nat) (x : Port) : DWord :=
  match o with
  | 0x08 => x.rx
  | 0x10 => x.tx
  | 0x18 => x.fecCorr
  | 0x20 => x.fecUncorr
  | _ => tgetD x.drops ((o - 0x40) / 8) 0

/-- MSC_POS_STATUS of a position; LANES reads its reset value until the Canopy is powered (chapter 12, Registers; log entry 140). -/
def posWord (p : Nat) (s : State) : Nat :=
  let x := getPos p s
  let pins := (s.eth.sas.filter (fun a => a.2.pinned && saPair a.1 s == p / 2)).length
  x.mode + 8 * pins + 256 * (if s.pwr.canopyGood then (homeLanes (p / 2) s).length else 0) + 2 ^ 13 * b2n ((x.waitedAt.map (fun t => decide (s.us ≤ t + 1000))).getD false)

/-- The port complex words of BAR0, from 0x20_0000; a port that does not exist reads 0 (chapter 12). -/
def ethWord (o : Nat) (s : State) : Option Nat :=
  if o < 0x2000 then
    let n := o / 256
    let r := o % 256
    if r = 0 then some (portWord n s)
    else if inRange r 8 32 || inRange r 0x40 64 then
      some (if portExists n s then half (portCounter (r / 8 * 8) (getPort n s)).toNat (r % 8 == 4) else 0)
    else none
  else if inRange o 0x4000 0x200 then
    let p := (o - 0x4000) / 64
    let r := o % 64
    if r = 0 then some (posWord p s) else if inRange r 8 8 then some (half (getPos p s).ctxLoads.toNat (r == 12)) else none
  else none

/-- STATE of CLN_STATUS. -/
def laneCode : LaneState → Nat
  | .active => 0
  | .checker => 2
  | .isolated => 3
  | .retired => 4
  | .suspect => 6
  | .filling => 7

/-- CTX_USED of CLN_STATUS: key contexts bound; a checker's shadow contexts are not its own (log entry 169). -/
def laneBound (g : Nat) (s : State) : Nat :=
  min 32 ((getLane g s).ctxs.filter (fun c => c.lane == g)).length

/-- CLN_STATUS of a lane (chapter 05, Registers). -/
def laneWord (g : Nat) (s : State) : Nat :=
  let l := getLane g s
  laneCode l.state + 256 * laneBound g s + 65536 * min 32 (laneRunning g s) + 2 ^ 24 * b2n l.inline

/-- ROUTED of SBK_STATUS: wires 1 to 5 are served by the partner (R219). -/
def sbkRouted (b : Nat) (s : State) : Bool := (getBank b s).state != .delivering && (getBank (partnerOf b) s).state == .delivering

/-- SBK_HSTAT of a bank (chapter 08, Registers). -/
def sbkHWord (b : Nat) (s : State) : Nat :=
  let k := getBank b s
  sbkCode k.state + 8 * b2n k.cond + 16 * b2n (sbkRouted b s) + 32 * k.cause + 256 * k.temp

/-- BUSY and QUEUED of a multiplier. -/
def wmaBusy (w : Wma) : Nat := b2n (w.cmds.any (·.running))
def wmaQueued (w : Wma) : Nat := (w.cmds.filter (fun c => !c.running)).length

/-- SLOTS_BUSY of DGE_HSTAT: bit n for slot n, the stream slots 1 to 3 by their own numbers (R160). -/
def dgeSlots (d : Dge) : Nat := b2n (slotBusy d) + (([1, 2, 3].map (fun i => 2 ^ i * b2n (tget d.streams i).isSome)).foldl (· + ·) 0)

/-- GBL_CORE_HSTAT of a core (chapter 13, Registers). -/
def coreHWord (g : Nat) (s : State) : Nat :=
  let c := getCore g s
  b2n (coreU g s) + 2 * b2n c.owner.isSome + 4 * coreCode c.state + 16 * slotBits c + 2 ^ 12 * c.owner.getD 0

/-- The words of a stand's status window (chapters 05, 06, 07, 08, 13). -/
def standWord (st o : Nat) (s : State) : Option Nat :=
  let x := getStand st s
  let hi := o % 8 == 4
  if inRange o 0x1000 (9 * 64) then
    let g := 9 * st + (o - 0x1000) / 64
    let l := getLane g s
    match o % 64 with
    | 0x00 => some (laneWord g s)
    | 0x04 => some (l.cause + 256 * min 255 l.corrected)
    | 0x08 | 0x0C => some (half l.blocks.toNat hi)
    | 0x10 | 0x14 => some (half l.ghash.toNat hi)
    | _ => none
  else if o = 0x1400 then some (b2n (checkerOf st s).isSome + 2 * b2n (checkerOf st s).isNone + 256 * min 255 x.mismatches)
  else if inRange o 0x1408 8 then some (half x.checked.toNat hi)
  else if inRange o 0x1410 8 then some (half x.redispatch.toNat hi)
  else if inRange o 0x1418 8 then some (half x.inlineDrop.toNat hi)
  else if o = 0x2000 ∨ o = 0x2040 then
    let g := 2 * st + (o - 0x2000) / 64
    some (b2n (bitOf s.world.map.dge g) + 2 * b2n (getDge g s).isolated + 4 * dgeSlots (getDge g s))
  else if o = 0x3000 ∨ o = 0x3040 then
    let g := 2 * st + (o - 0x3000) / 64
    let w := getWma g s
    some (b2n (bitOf s.world.map.wma g) + 2 * b2n w.isolated + 4 * wmaBusy w + 8 * wmaQueued w)
  else if o = 0x4000 then some (sbkHWord st s)
  else if inRange o 0x5000 (9 * 64) && o % 64 = 0 then some (coreHWord (9 * st + (o - 0x5000) / 64) s)
  else none

/-- STATE of a mailbox. -/
def mbStateCode : MbState → Nat
  | .idle => 0
  | .busy => 1
  | .done => 2

/-- PFM_STATUS or VFM_STATUS (chapter 10). -/
def mbStatusWord (mb : Mb) (s : State) : Nat :=
  let b := getMb mb s
  mbStateCode b.state + 4 * b2n b.accepted + 8 * b.respLen + 65536 * b.token

/-- A word of a mailbox's 16 KiB or 4 KiB: request buffer, response buffer of size n, registers behind them (chapter 10). -/
def mailboxWord (mb : Mb) (n o : Nat) (s : State) : Option Nat :=
  let b := getMb mb s
  if o < n then some (leNat (memReadN b.buf o 4))
  else if o < 2 * n then some (wordAt b.resp ((o - n) / 4))
  else if o = 2 * n then some 0
  else if o = 2 * n + 4 then some (mbStatusWord mb s)
  else none

/-- A word of an MSI-X table of n entries: address, data, and the Mask bit (R240, R244). -/
def msixWord (fn : Fn) (o : Nat) (s : State) : Nat :=
  let f := getFn fn s
  let v := o / 16
  if o % 16 = 12 then b2n (!f.unmasked.contains v) else wordAt (tgetD f.msix v []) (o % 16 / 4)

/-- A word of a pending-bit array. -/
def pbaWord (fn : Fn) (o : Nat) (s : State) : Nat :=
  (((getFn fn s).pendingVec.filter (fun v => v / 32 == o / 4)).map (fun v => 2 ^ (v % 32))).foldl (· + ·) 0

/-- The 32-bit word at an offset of a PF's BAR0, none where the offset is reserved or unmapped and reads 0 (R236, R237). -/
def pfWord (p off : Nat) (s : State) : Option Nat :=
  if off < 0x8000 then globalWord p off s
  else if off < 0x10000 then capdirWord off s
  else if off < 0x30000 then mailboxWord (.pf p ((off - 0x10000) / 0x4000)) 0x1000 (off % 0x4000) s
  else if off < 0x40000 then powerWord (off - 0x30000) s
  else if off < 0x50000 then firebreakWord (off - 0x40000) s
  else if off < 0x60000 then lookoutWord (off - 0x50000) s
  else if off < 0x70000 then treeRingWord (off - 0x60000) s
  else if inRange off 0x80000 0x1000 then some (msixWord (.pf p) (off - 0x80000) s)
  else if inRange off 0x81000 32 then some (pbaWord (.pf p) (off - 0x81000) s)
  else if inRange off 0x100000 0x100000 then queueWord p (off - 0x100000) s
  else if inRange off 0x200000 0x10000 then ethWord (off - 0x200000) s
  else if inRange off 0x1000000 0x800000 then standWord ((off - 0x1000000) / 0x100000) (off % 0x100000) s
  else none

/-- TDI of GBL_VF_STATE (R235). -/
def tdiCode : Tdi → Nat
  | .unlocked => 0
  | .locked => 1
  | .run => 2
  | .error => 3

/-- GBL_VF_STATE (chapter 09). -/
def vfStateWord (n : Nat) (s : State) : Nat :=
  let a := getAlloc (.vf n) s
  s.mode.mode + 16 * b2n (restarting s) + 32 * b2n a.owner.isSome + 64 * b2n a.quiesced + 128 * b2n a.frozen + 256 * tdiCode (tgetD s.host.tdis n .unlocked)

/-- The 32-bit word at an offset of a VF's BAR0, none where it is reserved or unmapped (R236, R237). -/
def vfWord (n off : Nat) (s : State) : Option Nat :=
  match off with
  | 0x00 => some 0x09B16412
  | 0x04 => some (fwLevelWord s)
  | 0x10 => some (n + 4096 * (getAlloc (.vf n) s).owner.getD 0)
  | 0x18 => some (vfStateWord n s)
  | 0x1C => some (getFn (.vf n) s).events.toNat
  | 0x20 => some (accessWord (.vf n) s)
  | 0x24 => some (creditWord (.vf n) s)
  | _ =>
    if inRange off 0x100 256 then some (qstatOf (.vf n) ((off - 0x100) / 4) s)
    else if inRange off 0x1000 0x1000 then mailboxWord (.vf n) 0x400 (off - 0x1000) s
    else if inRange off 0x2000 512 then some 0
    else if inRange off 0x8000 1024 then some (msixWord (.vf n) (off - 0x8000) s)
    else if inRange off 0xC000 8 then some (pbaWord (.vf n) (off - 0xC000) s)
    else none

/-- A word of a live compatibility window (chapter 23): write-only registers and undecoded offsets read 0 (R622). -/
def kcwWord (w o : Nat) (s : State) : Nat :=
  let k := getKcw w s
  if !kcwLive k then 0
  else match o with
  | 0x004 => kcwStatus k
  | 0x00C => k.len
  | 0x010 => k.keyno + 65536 * k.keyno2
  | 0x014 => k.code + 65536 * k.rlen
  | 0x02C => k.errcnt
  | 0x030 => 0x4B320B12
  | _ =>
    if inRange o 0x18 16 then (tgetD k.iv ((o - 0x18) / 4) 0).toNat
    else if inRange o 0x1000 4096 then beNat (slice (padTo 4096 k.rbuf) (o - 0x1000) 4)
    else 0

/-- The window live for a VF. -/
def vfWindow (n : Nat) (s : State) : Option Nat := (s.kcw.find? (fun k => k.2.assign == .vf n)).map (·.1)

/-- The window at an offset of a PF's BAR2, if it is live for that PF (R619). -/
def pfWindow (p off : Nat) (s : State) : Option Nat :=
  if off < 0x100000 && kcwFn (getKcw (off / 0x10000) s) == some (.pf p) then some (off / 0x10000) else none

/-- SAP registers (chapter 03); COPPICE_STALL reads its reset value until the Canopy is powered (R69, R214, log entry 140). -/
def sapWord (o : Nat) (s : State) : Option Nat :=
  match o with
  | 0x00 => some (s.store.coppiceMs + 1024 * s.store.defMask)
  | 0x04 => some s.store.drainLimit
  | 0x08 => some (sapOccupied s + 2 ^ 20 * (stands.map (fun b => 2 ^ b * b2n (s.pwr.canopyGood && (getBank b s).state != .delivering))).foldl (· + ·) 0)
  | 0x0C => some (pinned s)
  | 0x10 => some s.store.achieved
  | 0x18 => some (half s.store.hits false)
  | 0x1C => some (half s.store.hits true)
  | 0x20 => some (half s.store.misses false)
  | 0x24 => some (half s.store.misses true)
  | _ => none

/-- SLOT_STATE and KEY_SRC of DGE_STATUS. -/
def dgeSlotCode : DgeSlot → Nat
  | .idle => 0
  | .open_ => 1
  | .finishing => 2
  | .done => 3
def dgeKeyCode : DgeKey → Nat
  | .none => 0
  | .raw => 1
  | .handle => 2

/-- DGE_STATUS (chapter 06, Registers). -/
def dgeStatusWord (d : Dge) : Nat :=
  dgeSlotCode d.slot + 4 * d.verdict + 16 * b2n d.keyLoaded + 32 * b2n d.keyLoading + 64 * b2n d.swrIgn + 128 * b2n d.xfer.isSome + 256 * d.err +
    2 ^ 16 * (32 - fifoUsed d) + 2 ^ 24 * dgeKeyCode d.keySrc + 2 ^ 31 * b2n d.isolated

/-- Registers of a digest engine; write-only ones read 0, and DGE_RESULT while the slot is not DONE (chapter 06, R165). -/
def dgeRegWord (g o : Nat) (s : State) : Option Nat :=
  let d := getDge g s
  let hi := o % 8 == 4
  match o with
  | 0x00 => some (d.alg + 16 * b2n d.keyed + 32 * b2n d.compare + 64 * d.cmpLen)
  | 0x04 => some d.lastCnt
  | 0x08 => some (dgeStatusWord d)
  | 0x0C => some d.keyStat
  | 0x10 => some (match d.claim with | some m => m + 2 ^ 31 | none => 0)
  | 0x18 => some d.keyLen
  | _ =>
    if inRange o 0x20 32 || inRange o 0x80 64 then some 0
    else if inRange o 0x40 64 then some (if d.slot = .done then wordAt (padTo 64 d.result) ((o - 0x40) / 4) else 0)
    else if inRange o 0xC0 8 then some (half d.saveAddr hi)
    else if inRange o 0xC8 8 then some (half d.msgs.toNat hi)
    else if inRange o 0xD0 8 then some (half d.blocks.toNat hi)
    else none

/-- Registers of a multiplier (chapter 07). -/
def wmaRegWord (g o : Nat) (s : State) : Option Nat :=
  let w := getWma g s
  let hi := o % 8 == 4
  if o = 0 then some (wmaBusy w + 2 * wmaQueued w + 32 * b2n w.isolated + 64 * b2n (bitOf s.world.map.wma g) + 256 * tgetD s.units.wmaLast g 0)
  else if inRange o 8 8 then some (half w.done.toNat hi)
  else if inRange o 0x10 8 then some (half (tgetD s.units.wmaEfails g 0).toNat hi)
  else if inRange o 0x18 8 then some (half w.busy.toNat hi)
  else none

/-- STATE of SBK_PORT_STATUS for a master: while the port's wires receive nothing it reads NOT_READY, unless a request is DONE (R214, R222, log entry 170). -/
def portState (b : Nat) (p : SbkPortStat) (s : State) : Nat := if standEntropy b s || p.state = 3 then p.state else 1

/-- Registers of a Seedbank bank and its port, as a master reads them (chapter 08). -/
def sbkRegWord (b master o : Nat) (s : State) : Option Nat :=
  let k := getBank b s
  let p := portStat k master
  match o with
  | 0x00 => some (b2n k.enable + 2 * b2n k.cond)
  | 0x04 => some (sbkCode k.state + 8 * k.cause + 64 * b2n k.swrIgn + 128 * b2n (sbkRouted b s) + 256 * k.rctCell)
  | 0x08 => some (k.aptMax + 65536 * min 63 k.rctMax)
  | 0x0C => some (k.mean + 65536 * k.spread)
  | 0x10 => some (k.temp + 65536 * (BitVec.ofInt 16 k.agePpm).toNat)
  | 0x18 => some (half k.outBits.toNat false)
  | 0x1C => some (half k.outBits.toNat true)
  | 0x100 => some 0
  | 0x104 => some 0
  | 0x108 => some (portState b p s + 4 * p.result + 16 * b2n p.ignored + 256 * k.queue.length)
  | _ => none

/-- GBL_CORE_CTRL and GBL_CORE_STATUS of a core (chapter 13). -/
def coreRegWord (g o : Nat) (s : State) : Option Nat :=
  let c := getCore g s
  match o with
  | 0 => some (c.ctrlOwner + 2 ^ 20 * b2n c.ctrlNone)
  | 4 => some (coreCode c.state + 4 * b2n (coreU g s) + 8 * b2n c.owner.isSome + 16 * c.owner.getD 0 + 2 ^ 31 * b2n c.swrIgn)
  | _ => none

/-- QMG_VF_CTRL of a VF (chapter 14). -/
def vfCtrlWord (n : Nat) (s : State) : Nat :=
  let a := getAlloc (.vf n) s
  a.owner.getD a.ctrlOwner + 2 ^ 20 * b2n a.owner.isSome + 2 ^ 21 * b2n a.quiesce + 2 ^ 22 * b2n a.freeze + 2 ^ 23 * b2n a.saved + 2 ^ 24 * b2n a.swrIgn

/-- Registers of an ACU; region fields read as last written (R11, chapter 15). -/
def acuRegWord (a o : Nat) (s : State) : Option Nat :=
  let x := getAcu a s
  let hi := o % 8 == 4
  if o = 0 then some (64 + 256 * b2n x.valid)
  else if o = 4 then some 0
  else if o = 8 then some (b2n x.valid + 2 * b2n x.write + 4 * b2n x.exec + 8 * b2n x.user + 16 * b2n x.integrity + 256 * x.part + 2 ^ 12 * x.parts)
  else if inRange o 0x10 8 then some (half x.addr hi)
  else if inRange o 0x18 8 then some (half x.tag hi)
  else if inRange o 0x20 8 then some (half x.count.toNat hi)
  else if inRange o 0x100 (32 * 64) then
    let r := tgetD x.shadow ((o - 0x100) / 32) {}
    match o % 32 with
    | 0x00 | 0x04 => some (half (r.start / 4 * 4) hi)
    | 0x08 | 0x0C => some (half (r.stop / 4 * 4 + 3) hi)
    | 0x10 => some r.attr
    | 0x14 => some r.owner
    | _ => none
  else none

/-- HWD registers (chapters 16, 17, 21); write-only ones read 0. -/
def hwdWord (o : Nat) (s : State) : Option Nat :=
  match o with
  | 0x40 => some 0
  | 0x100 => some 0
  | 0x104 => some (s.lc.enables.toNat + 16 * b2n s.lc.nonce.isSome + 32 * s.lc.tokenResult)
  | 0x200 => some (s.pwr.idleUs + 65536 * s.pwr.enable.toNat)
  | _ => none

/-- CLN_WEIGHT by its index (chapter 05). -/
def weightWord (f : Nat) (s : State) : Nat :=
  let w := clnWeight (weightFn f) s
  w.1 + 65536 * w.2

/-- The internal register word at an address, as a master reads it; none where no register stands (R429). -/
def internalWord (master x : Nat) (s : State) : Option Nat :=
  if inRange x 0x0C800000 0x1000 then sapWord (x - 0x0C800000) s
  else if inRange x 0x0D000000 0x80000 then
    let st := (x - 0x0D000000) / 0x10000
    match x % 0x10000 with
    | 0 => some (b2n (checkEnabled st s) + 2 * b2n (getStand st s).lookasideEn)
    | 4 => some (b2n (getStand st s).swrIgn + 256 * ((List.range 9).map (fun l => 2 ^ l * b2n ((getLane (9 * st + l) s).state == .active))).foldl (· + ·) 0)
    | _ => none
  else if inRange x 0x0D100000 (4 * 4098) then some (weightWord ((x - 0x0D100000) / 4) s)
  else if inRange x 0x0D200000 0x8000 then
    let k := getStand ((x - 0x0D200000) / 0x1000) s
    match x % 0x1000 with
    | 0 => some (b2n (!k.hucQueue.isEmpty && !k.hucStall) + 2 * min 16 k.hucQueue.length + 64 * b2n k.hucStall)
    | 8 => some (half k.hucBlocks.toNat false)
    | 12 => some (half k.hucBlocks.toNat true)
    | 16 => some (half k.hucStalls.toNat false)
    | 20 => some (half k.hucStalls.toNat true)
    | _ => none
  else if inRange x 0x0D300000 0x10000 then dgeRegWord ((x - 0x0D300000) / 0x1000) (x % 0x1000) s
  else if inRange x 0x0D400000 0x10000 then wmaRegWord ((x - 0x0D400000) / 0x1000) (x % 0x1000) s
  else if inRange x 0x0D500000 0x8000 then sbkRegWord ((x - 0x0D500000) / 0x1000) master (x % 0x1000) s
  else if inRange x 0x0D600000 0x4800 then coreRegWord ((x - 0x0D600000) / 0x100) (x % 0x100) s
  else if inRange x 0x0D700000 0x8000 then
    match x % 0x1000 with
    | 0 | 4 => some 0
    | 8 => some ((tgetD s.cores.gate ((x - 0x0D700000) / 0x1000) []).length + 64 * b2n (master < 72 && (getCore master s).emptyTake))
    | _ => none
  else if inRange x 0x0D800000 0x4000 then some (vfCtrlWord ((x - 0x0D800000) / 4) s)
  else if inRange x 0x0D900000 0x10000 then acuRegWord ((x - 0x0D900000) / 0x1000) (x % 0x1000) s
  else if inRange x 0x0DA00000 (4 * 53248) then some (tgetD s.world.granules ((x - 0x0DA00000) / 4) 0)
  else if inRange x 0x0E000000 0x10000 then hwdWord (x - 0x0E000000) s
  else none

/-- REMAIN_MS of a core's watchdog; its count is paused while its stand is in DOZE (R528, R581). -/
def wdtRemain (core : Nat) (s : State) : Nat := 
  let now := if dozing (core / 9) s then tgetD s.pwr.gatedAt (core / 9) s.us else s.us
  min 65535 (s.fbk.wdtMs - (now - tgetD s.fbk.wdAt core s.pwr.goodAt) / 1000)

/-- A word of a core's own page (R350, R434, R528). -/
def coreLocalWord (core o : Nat) (s : State) : Option Nat :=
  let c := getCore core s
  let w := tgetD s.world.uwin core (0, 0)
  match o with
  | 0x1000 => some (half (mtime s) false)
  | 0x1004 => some (half (mtime s) true)
  | 0x1008 => some (half c.mtimecmp.toNat false)
  | 0x100C => some (half c.mtimecmp.toNat true)
  | 0x1010 => some (b2n c.msip)
  | 0x1020 => some (half (w.1 / 4 * 4) false)
  | 0x1024 => some (half (w.1 / 4 * 4) true)
  | 0x1028 => some (half (w.2 / 4 * 4 + 3) false)
  | 0x102C => some (half (w.2 / 4 * 4 + 3) true)
  | 0x1030 => some (irqNext core s)
  | 0x1040 => some (65536 * wdtRemain core s)
  | _ => none

/-- The 32-bit value a permitted transaction reads at an address behind an ACU: memory, or an internal register. -/
def fabricWord (master target x : Nat) (s : State) : Nat :=
  match rowOf target x with
  | .bank _ | .serviceFw | .monitor _ | .granule _ | .buffers => leNat (memReadN s.units.fab (fabAddr target x) 4)
  | _ => (internalWord master x s).getD 0

end Sys2Proof.Machine
end

