-- ==== Sys2Proof/Machine/Registers.lean ====
section
/-! DEFINITION. Writes of registers and fabric transactions (R7-R10, R236-R240, R435-R438): REGISTER_WRITE and FABRIC_TRANSACTION. A write that reaches a register with a row of its own acts as that row does. -/

namespace Sys2Proof.Machine

/-- The state another row's meaning leaves. -/
def after (o : Out) (s : State) : State := match o with | .next t => t | _ => s

/-- SAP_CTRL and SAP_DRAIN (chapter 03). -/
def sapWrite (o n v : Nat) (s : State) : State :=
  if !isWord o n then s
  else match o with
  | 0 => { s with store.coppiceMs := bits v 9 0, store.defMask := bits v 11 10 }
  | 4 => { s with store.drainLimit := bits v 13 0 }
  | _ => s

/-- CLN_STAND_CTRL and CLN_STAND_STATUS: CHECK_EN takes a value only while LOOKASIDE_EN is 0, and only in FACTORY-TEST (R7, R9, log entry 138). -/
def standCtrlWrite (st o n v : Nat) (s : State) : State :=
  let k := getStand st s
  if !isWord o n then s
  else match o with
  | 0 =>
    let k := if k.lookasideEn then { k with swrIgn := true } else if s.mode.mode = 2 then { k with checkEn := bitOf v 0 } else k
    setStand st { k with lookasideEn := bitOf v 1 } s
  | 4 => if bitOf v 0 then setStand st { k with swrIgn := false } s else s
  | _ => s

/-- CLN_WEIGHT of an index; the PFs of a bifurcated link share one (R7, R391). -/
def weightWrite (f v : Nat) (s : State) : State :=
  let fn := weightFn f
  setAlloc fn { getAlloc fn s with weight := bits v 15 0, standMask := bits v 23 16 } s

/-- A write of SBK_CTRL: ENABLE stops a bank or starts it under R212, COND takes a value only while the bank is stopped (R9, R10, R211). -/
def sbkCtrl (b v : Nat) (s : State) : State :=
  let k := getBank b s
  let was := k.enable
  let on := bitOf v 0
  let k := if was then { k with swrIgn := true } else { k with cond := bitOf v 1 }
  let k := { k with enable := on }
  let k := if bankLost b s || was == on then k else if on then startBank k else { k with state := .off, part := [], cells := [] }
  refreshMode (setBank b k s)

/-- Registers of a Seedbank bank and its port (chapter 08). -/
def sbkRegWrite (b : Nat) (t : FabricTag) (o n v : Nat) (s : State) : State :=
  let k := getBank b s
  if o = 0x100 && isDouble o n then
    if bitOf v 63 then cancelPort b t.master s else portReq b t (v % 2 ^ 48) (bits v 57 48) s
  else if !isWord o n then s
  else match o with
  | 0x00 => sbkCtrl b v s
  | 0x04 => if bitOf v 6 then setBank b { k with swrIgn := false } s else s
  | 0x108 => if bitOf v 4 then setBank b { k with port := tset k.port t.master { portStat k t.master with ignored := false } } s else s
  | _ => s

/-- GBL_CORE_CTRL and GBL_CORE_STATUS: OWNER and NONE are shadowed and SCRUB commits the values just written (R10, R374, R375). -/
def coreRegWrite (g o n v : Nat) (s : State) : State :=
  let c := getCore g s
  if !isWord o n then s
  else match o with
  | 0 =>
    let s := setCore g { c with ctrlOwner := v % 2 ^ 20, ctrlNone := bitOf v 20 } s
    if bitOf v 31 then after (execScrub g (v % 2 ^ 21) s) s else s
  | 4 => if bitOf v 31 then setCore g { c with swrIgn := false } s else s
  | _ => s

/-- The gate port: a take of the writing core, and its EMPTY_TAKE (R372). -/
def gateRegWrite (master o n v : Nat) (s : State) : State :=
  if o = 0 && isDouble o n then gateTake master (v % 2 ^ 48) s
  else if o = 8 && isWord o n && master < 72 && bitOf v 6 then setCore master { getCore master s with emptyTake := false } s
  else s

/-- QMG_VF_CTRL: OWNER takes a value only while BOUND is 0 (R9, chapter 14). A write while BOUND is 1 that also writes 1 to SWR_IGN leaves the bit clear: the spec does not say whether the ignored class-S field sets it or the RW1C clears it (DESIGN CHOICE, log entry 171). -/
def vfCtrlWrite (f v : Nat) (s : State) : State :=
  let a := getAlloc (.vf f) s
  let a := if a.owner.isSome then { a with swrIgn := true } else { a with ctrlOwner := v % 2 ^ 20 }
  let a := { a with
    owner := if bitOf v 20 then some (a.owner.getD a.ctrlOwner) else none
    ctrlOwner := a.owner.getD a.ctrlOwner, quiesce := bitOf v 21, freeze := bitOf v 22, saved := bitOf v 23 }
  setAlloc (.vf f) (if bitOf v 24 then { a with swrIgn := false } else a) s

/-- A region field is written into its shadow (R11, R431). -/
def regionWrite (r : AcuRegion) (o n v : Nat) : AcuRegion :=
  match o with
  | 0x00 | 0x04 => { r with start := setBytes r.start (o % 8) n v / 4 * 4 }
  | 0x08 | 0x0C => { r with stop := setBytes r.stop (o % 8) n v / 4 * 4 + 3 }
  | 0x10 => if n = 4 then { r with attr := bits v 8 0 } else r
  | 0x14 => if n = 4 then { r with owner := bits v 30 0 } else r
  | _ => r

/-- Registers of an ACU (chapter 15). -/
def acuRegWrite (a o n v : Nat) (s : State) : State :=
  let x := getAcu a s
  if inRange o 0x100 (32 * 64) then
    if isHalf o n then
      let i := (o - 0x100) / 32
      setAcu a { x with shadow := tset x.shadow i (regionWrite (tgetD x.shadow i {}) (o % 32) n v) } s
    else s
  else if !isWord o n then s
  else match o with
  | 4 => if bitOf v 0 then after (execAcuCommit a s) s else s
  | 8 => if bitOf v 0 then lowerLine (0x30 + a) (setAcu a { x with valid := false } s) else s
  | _ => s

/-- The always-on island's DOZE control: a stand whose ENABLE bit clears wakes (R582, R598). -/
def dozeCtrlWrite (v : Nat) (s : State) : State :=
  let s := { s with pwr.idleUs := bits v 15 0, pwr.enable := BitVec.ofNat 8 (bits v 23 16) }
  stands.foldl (fun s st => if s.pwr.enable.getLsbD st then s else standUp st s) s

/-- HWD registers (chapters 16, 17, 21). -/
def hwdWrite (o n v : Nat) (s : State) : State :=
  if !isWord o n then s
  else match o with
  | 0x40 => if bitOf v 31 then after (execHwdRestartReq (bits v 15 0) s) s else s
  | 0x100 =>
    let s := if bitOf v 0 then after (execHwdDbgCtrlNew s) s else s
    if bitOf v 1 then after (execHwdDbgCtrlRevoke s) s else s
  | 0x200 => dozeCtrlWrite v s
  | _ => s

/-- A permitted write of n bytes of v at an internal register's address, under a tag. Read-only registers and addresses without a register ignore it (R7). -/
def regWrite (t : FabricTag) (x n v : Nat) (s : State) : State :=
  if inRange x 0x0C800000 0x1000 then sapWrite (x - 0x0C800000) n v s
  else if inRange x 0x0D000000 0x80000 then standCtrlWrite ((x - 0x0D000000) / 0x10000) (x % 0x10000) n v s
  else if inRange x 0x0D100000 (4 * 4098) then (if isWord x n then weightWrite ((x - 0x0D100000) / 4) v s else s)
  else if inRange x 0x0D300000 0x10000 then dgeWrite ((x - 0x0D300000) / 0x1000) t (x % 0x1000) n v s
  else if inRange x 0x0D500000 0x8000 then sbkRegWrite ((x - 0x0D500000) / 0x1000) t (x % 0x1000) n v s
  else if inRange x 0x0D600000 0x4800 then coreRegWrite ((x - 0x0D600000) / 0x100) (x % 0x100) n v s
  else if inRange x 0x0D700000 0x8000 then gateRegWrite t.master (x % 0x1000) n v s
  else if inRange x 0x0D800000 0x4000 then (if isWord x n then vfCtrlWrite ((x - 0x0D800000) / 4) v s else s)
  else if inRange x 0x0D900000 0x10000 then acuRegWrite ((x - 0x0D900000) / 0x1000) (x % 0x1000) n v s
  else if inRange x 0x0DA00000 (4 * 53248) then
    (if isWord x n then { s with world.granules := tset s.world.granules ((x - 0x0DA00000) / 4) (bits v 21 0) } else s)
  else if inRange x 0x0E000000 0x10000 then hwdWrite (x - 0x0E000000) n v s
  else s

/-- Address, length and kind of an access: whether it writes, whether it fetches. -/
def accessOf (a : Access) : Nat × Nat × Bool × Bool :=
  match a with
  | .read x n => (x, n, false, false)
  | .write x d => (x, d.length, true, false)
  | .fetch x n => (x, n, false, true)

/-- mcause of an access fault (R437). -/
def accessCause (w e : Bool) : Nat := if e then 1 else if w then 7 else 5

/-- A permitted access reaches its target: a write stores into memory or a register; a read changes nothing (R8). -/
def perform (t : FabricTag) (target : Nat) (a : Access) (s : State) : State :=
  match a with
  | .read _ _ | .fetch _ _ => s
  | .write x d =>
    match rowOf target x with
    | .bank _ | .serviceFw | .monitor _ | .granule _ | .buffers => fabWrite (fabAddr target x) d s
    | .hostBuf | .none => s
    | _ => regWrite t x d.length (leNat d) s

/-- An HBM page whose table of spares is full answers every access with an error (R537). -/
def pagePoisoned (target x : Nat) (s : State) : Bool := target == 8 && s.fbk.poisoned.contains (x / 4096)

/-- The context a tag names, if its class is context-bound (R23). -/
def tagCtx (t : FabricTag) : Option Nat := if ctxBound t.opclass then some t.ctx else none

/-- A transaction at its target's ACU: integrity, the SEQ of its stream, the judgement part by part, then the access whole or not at all (R22, R426, R435-R438). -/
def transact (t : FabricTag) (target : Nat) (a : Access) (s : State) : State :=
  let (x, n, w, e) := accessOf a
  let t := builtTag t s
  let s := (issue t target s).2
  if !integrityOk t target s then acuIntegrity target t x s
  else
    let s := acceptSeq t target s
    match judge t target x n w e s with
    | .refused part parts addr => masterFault t.master (accessCause w e) addr (tagCtx t) (acuRefuse target t w e part parts addr s)
    | .ok => if pagePoisoned target x s then masterFault t.master (accessCause w e) x (tagCtx t) s else perform t target a s

/-- FABRIC_TRANSACTION: at most 4 KiB and never across a 4 KiB boundary (R435); one addressed to a gated stand is held until the stand is awake (R582). -/
def execFabricTransaction (tag : FabricTag) (target : Nat) (acc : Access) (s : State) : Out :=
  onUnit (target < 16) (
    let (x, n, _, _) := accessOf acc
    if n = 0 || 4096 < x % 4096 + n then s
    else if target < 8 && standHolds target s then holdAccess target (.fabric tag target acc) s
    else transact tag target acc s)

/-- The bits of an event register that a write of ones clears (R7, R242). -/
def clearEvents (fn : Fn) (v : Nat) (s : State) : State :=
  modFn fn (fun f => { f with events := f.events &&& ~~~ BitVec.ofNat 32 v }) s

/-- FBK_INJECT (R543): outside FACTORY-TEST dropped and counted; in it the fields are taken, and GO injects. -/
def injectWrite (p v : Nat) (s : State) : State :=
  if bitOf v 31 then after (execFbkInjectGo p (bits v 7 0) (bits v 19 8) s) s
  else if s.mode.mode = 2 then { s with fbk.injSource := bits v 7 0, fbk.injUnit := bits v 19 8 }
  else countAccess (.pf p) s

/-- QMG_JR_ACK, class H: a write of the low half goes to the shadow, one that reaches the high half commits the whole (R10, R260). -/
def jrAckWrite (p o n v : Nat) (s : State) : State :=
  let all := setBytes (tgetD s.host.jring.ackShadow p 0).toNat (o % 8) n v
  if o % 8 + n = 8 then after (execQmgJrAck p (BitVec.ofNat 64 all) s) s
  else if s.host.jring.state == .off || s.host.jring.pf != p then countDoorbell (.pf p) s
  else { s with host.jring.ackShadow := tset s.host.jring.ackShadow p (BitVec.ofNat 64 all) }

/-- A doorbell of a queue pair or frame ring: SQ tail at the even word, CQ head at the odd one (R245, R250). -/
def doorbellWrite (fn : Fn) (o v : Nat) (s : State) : State :=
  if o % 8 = 0 then after (execQmgSqTail fn (o / 8) (bits v 12 0) s) s else after (execQmgCqHead fn (o / 8) (bits v 13 0) s) s

/-- A 64-bit register of a PF's BAR0 stands at an offset. -/
def pfWide (o : Nat) : Bool :=
  o % 8 == 0 && ([0x08, 0x218, 0x220, 0x228, 0x288, 0x40010, 0x101008].contains o || inRange o 0x30040 64 || inRange o 0x40020 32 || inRange o 0x50040 48 ||
    inRange o 0x60008 40 || o == 0x60038 || inRange o 0x61000 2048 ||
    (inRange o 0x200000 0x2000 && (inRange (o % 256) 8 32 || inRange (o % 256) 0x40 64)) || (inRange o 0x204000 0x200 && o % 64 == 8) ||
    (inRange o 0x1000000 0x800000 &&
      (let r := o % 0x100000
       (inRange r 0x1000 (9 * 64) && (r % 64 == 8 || r % 64 == 16)) || [0x1408, 0x1410, 0x1418].contains r)))

/-- A register write the rules of R238 accept at a PF's BAR0: RO registers ignore it, reserved and unmapped offsets drop and count it (R7, R237). -/
def pfRegWrite (p o n v : Nat) (s : State) : State :=
  if n = 4 && o < 0x100800 && 0x100000 ≤ o then doorbellWrite (.pf p) (o - 0x100000) v s
  else match o with
  | 0x14 => clearEvents (.pf p) v s
  | 0x40004 => after (execForceLow p (bitOf v 3) s) s
  | 0x40100 => injectWrite p v s
  | 0x101000 => after (execQmgJrPost p (bits v 11 0) s) s
  | 0x101004 => after (execQmgJrEvhead p (bits v 11 0) s) s
  | 0x101008 | 0x10100C => jrAckWrite p o n v s
  | _ => if (pfWord p o s).isSome then s else countAccess (.pf p) s

/-- A write into an MSI-X table: an aligned 32-bit or 64-bit write sets address, data and Mask; unmasking sends a pending message (R240, R244). -/
def msixWrite (fn : Fn) (o n v : Nat) (s : State) : State :=
  if !isHalf o n then s
  else
    let vec := o / 16
    let r := o % 16
    let f := getFn fn s
    let e := padTo 12 (tgetD f.msix vec [])
    let b := leBytes n v
    let s := setFn fn { f with msix := tset f.msix vec (padTo 12 (e.take r ++ b ++ e.drop (r + n))) } s
    if r + n = 16 then
      if bitOf (v / 2 ^ (8 * n - 32)) 0 then modFn fn (fun f => { f with unmasked := without f.unmasked vec }) s
      else after (execMsixUnmask fn vec s) s
    else s

/-- A write at a mailbox's offsets: the request buffer takes any width as memory does, the response buffer ignores writes, the doorbell is a 32-bit register (R239, R240, R264). -/
def mailboxWrite (mb : Mb) (size o n v : Nat) (s : State) : State :=
  if o + n ≤ size then setMb mb { getMb mb s with buf := memWriteN (getMb mb s).buf o (leBytes n v) } s
  else if size ≤ o && o + n ≤ 2 * size then s
  else if n = 4 && o = 2 * size then
    match mb with
    | .pf p m => after (execPfmDoorbell p m (bitOf v 0) (v / 65536) s) s
    | .vf k => after (execVfmDoorbell k (bitOf v 0) (v / 65536) s) s
  else if n = 4 && o = 2 * size + 4 then s
  else countAccess (mbFn mb) s

/-- A write at a PF's BAR0 (R236-R240). -/
def pfBarWrite (p o n v : Nat) (s : State) : State :=
  if inRange o 0x10000 0x20000 then mailboxWrite (.pf p ((o - 0x10000) / 0x4000)) 0x1000 (o % 0x4000) n v s
  else if inRange o 0x80000 0x1000 then msixWrite (.pf p) (o - 0x80000) n v s
  else if inRange o 0x81000 32 then s
  else if isWord o n || (isDouble o n && pfWide o) then pfRegWrite p o n v s
  else countAccess (.pf p) s

/-- A write at a VF's BAR0 (R236-R240). -/
def vfBarWrite (k o n v : Nat) (s : State) : State :=
  if inRange o 0x1000 0x1000 then mailboxWrite (.vf k) 0x400 (o - 0x1000) n v s
  else if inRange o 0x8000 1024 then msixWrite (.vf k) (o - 0x8000) n v s
  else if inRange o 0xC000 8 then s
  else if !isWord o n then countAccess (.vf k) s
  else if inRange o 0x2000 512 then doorbellWrite (.vf k) (o - 0x2000) v s
  else if o = 0x1C then clearEvents (.vf k) v s
  else if (vfWord k o s).isSome then s
  else countAccess (.vf k) s

/-- An offset of a window that a register decodes (chapter 23). -/
def kcwDecoded (o : Nat) : Bool := o < 0x34 || inRange o 0x1000 4096

/-- A write at a live window: an aligned whole word acts; any other write at a decoded offset is dropped and counted, at KCW_DATA with OVERRUN (R622). -/
def windowWrite (w o n v : Nat) (s : State) : State :=
  if !kcwDecoded o then s
  else if isWord o n then kcwWrite w o (BitVec.ofNat 32 v) s
  else kcwBadWrite w (o / 4 == 2) s

/-- A write of a core's own page, in M-mode only (R350, R434, R528). -/
def coreLocalWrite (core o n v : Nat) (s : State) : State :=
  let c := getCore core s
  let w := tgetD s.world.uwin core (0, 0)
  if !coreRuns core s || c.wfi then s
  else if c.user then ownRow core (trap core 7 (BitVec.ofNat 64 o)) s
  else if inRange o 0x1008 8 && isHalf o n then setCore core { c with mtimecmp := BitVec.ofNat 64 (setBytes c.mtimecmp.toNat (o % 8) n v) } s
  else if inRange o 0x1020 8 && isHalf o n then { s with world.uwin := tset s.world.uwin core (setBytes w.1 (o % 8) n v / 4 * 4, w.2) }
  else if inRange o 0x1028 8 && isHalf o n then { s with world.uwin := tset s.world.uwin core (w.1, setBytes w.2 (o % 8) n v / 4 * 4 + 3) }
  else if !isWord o n then s
  else match o with
  | 0x1010 => setCore core { c with msip := bitOf v 0 } s
  | 0x1040 => if bitOf v 0 then kickWatchdog core s else s
  | _ => s

/-- The target of an internal address for a master: HBM, a stand's ACU, the Warden's, the Heartwood bridge (R427, R428). -/
def regTarget (master x : Nat) : Nat :=
  if 0x100000000 ≤ x then 8
  else if inRange x 0x0C000000 0x800000 then (if master < 72 then master / 9 else 0)
  else if inRange x 0x0D000000 0x80000 then (x - 0x0D000000) / 0x10000
  else if inRange x 0x0D200000 0x8000 then (x - 0x0D200000) / 0x1000
  else if inRange x 0x0D300000 0x10000 then (x - 0x0D300000) / 0x2000
  else if inRange x 0x0D400000 0x10000 then (x - 0x0D400000) / 0x2000
  else if inRange x 0x0D500000 0x8000 then (x - 0x0D500000) / 0x1000
  else if inRange x 0x0D600000 0x4800 then (x - 0x0D600000) / 0x900
  else if inRange x 0x0D700000 0x8000 then (x - 0x0D700000) / 0x1000
  else if inRange x 0x0E000000 0x10000 then 13
  else 9

/-- A write by an internal master: to its own page if it is a core, else a fabric write (R350, R427). -/
def internalWrite (t : FabricTag) (x n v : Nat) (s : State) : State :=
  if t.master < 72 && x < 0x2000 then coreLocalWrite t.master x n v s
  else after (execFabricTransaction t (regTarget t.master x) (.write x (leBytes n v)) s) s

/-- A function whose BARs answer: configured, and not in D3hot (R232, R578). -/
def barOpen (fn : Fn) (s : State) : Bool := (getFn fn s).enabled && !inD3 fn s && s.pwr.state == .active && !s.pwr.resetLow

/-- A write at a VF's BAR0 that the device accepts (R236, R578). -/
def vfBar0Write (n off bytes value : Nat) (s : State) : State := if barOpen (.vf n) s then vfBarWrite n off bytes value s else s

/-- A write at a VF's BAR2: its window, if it has one (R240, R622). -/
def vfBar2Write (n off bytes value : Nat) (s : State) : State :=
  match (if barOpen (.vf n) s then vfWindow n s else none) with
  | some w => windowWrite w off bytes value s
  | none => s

/-- A write without the TEE bit: dropped at the BARs of a running TDI (R235). -/
def vfPlainWrite (n : Nat) (bar2 : Bool) (off bytes value : Nat) (s : State) : State :=
  if tgetD s.host.tdis n .unlocked = .run then s
  else if bar2 then vfBar2Write n off bytes value s else vfBar0Write n off bytes value s

/-- REGISTER_WRITE: a write through a BAR or from inside acts by the register's access code and change class (R7, R9, R236-R240, R622). -/
def execRegisterWrite (at_ : RegPort) (off bytes value : Nat) (s : State) : Out :=
  match at_ with
  | .pfBar0 p => onUnit (p < 4) (if barOpen (.pf p) s then pfBarWrite p off bytes value s else s)
  | .pfBar2 p => onUnit (p < 4) (
      match (if barOpen (.pf p) s then pfWindow p off s else none) with
      | some w => windowWrite w (off % 0x10000) bytes value s
      | none => s)
  | .vfBar0 n => onUnit (n < 4096) (vfBar0Write n off bytes value s)
  | .vfBar2 n => onUnit (n < 4096) (vfBar2Write n off bytes value s)
  | .vfPlain n bar2 => onUnit (n < 4096) (vfPlainWrite n bar2 off bytes value s)
  | .internal t => onUnit (t.master < 1024) (internalWrite t off bytes value s)

end Sys2Proof.Machine
end

