-- ==== Sys2Proof/Machine/Debug.lean ====
section
/-! DEFINITION. Accesses through the debug gate (R485-R490) and stands that wake from DOZE (R582). -/

namespace Sys2Proof.Machine

/-- Bits of GBL_DEBUG: T_INV 0, T_NI 1, U_INV 2, U_NI 3. -/
def debugOn (s : State) (k : Nat) : Bool := s.lc.enables.getLsbD k

/-- The OWNER of the gate's world-U transactions: that of the grant in PRODUCTION, 0 in every other state (R486, R490). -/
def gateOwner (s : State) : Nat := if lcIs s .production then s.lc.owner else 0

/-- In PRODUCTION the U enables reach only glade cores whose mowner is the OWNER of the grant, and T_NI only the Warden (R485, R486). -/
def gateReaches (core : Nat) (s : State) : Bool :=
  !lcIs s .production || (coreU core s && (getCore core s).owner == some s.lc.owner)

/-- The invasive enable of a core's world governs it (R490). -/
def coreInvasive (core : Nat) (s : State) : Bool := debugOn s (if coreU core s then 2 else 0) && gateReaches core s

/-- The non-invasive or invasive enable of a core's world governs its trace and counters (R490). -/
def coreTrace (core : Nat) (s : State) : Bool :=
  (if coreU core s then debugOn s 2 || debugOn s 3 else debugOn s 0 || debugOn s 1) && gateReaches core s

/-- The tag of a fabric access: T_INV speaks for world T, else U_INV for world U (R490, log entry 139). -/
def dbgTag (s : State) : Option FabricTag :=
  if debugOn s 0 then
    some { master := 0x3FF, worldU := false, priv := true, owner := 0, ctx := 0, opclass := 0, seq := 0, parityOk := true }
  else if debugOn s 2 then
    some { master := 0x3FF, worldU := true, priv := true, owner := gateOwner s, ctx := 0, opclass := 0x2A, seq := 0, parityOk := true }
  else none

/-- RESULT and DATA as the next capture shows them, in the 128-bit data register (R490). -/
def gateResult (result : Nat) (data : DWord) (s : State) : State :=
  { s with lc.dbgResult := result, lc.dbgData := data, lc.dr := 2 ^ 64 * (data.toNat % 2 ^ 32) + 2 ^ 107 * result }

/-- A 32-bit fabric access of the gate: held while its stand wakes, refused by the ACU and reported, or performed (R436, R490, R582). -/
def gateFabric (t : FabricTag) (addr data : Nat) (write : Bool) (s : State) : State :=
  let x := addr / 4 * 4
  let target := regTarget 0x3FF x
  let acc : Access := if write then .write x (leBytes 4 data) else .read x 4
  if target < 8 && standHolds target s then gateResult 2 0 (holdAccess target (.fabric t target acc) s)
  else
    let ok : Bool := match judge t target x 4 write false s with
      | .ok => !pagePoisoned target x s
      | .refused _ _ _ => false
    let read := BitVec.ofNat 64 (fabricWord 0x3FF target x s)
    let s := transact t target acc s
    if ok then gateResult 0 (if write then 0 else read) s else gateResult 1 0 s

/-- A register of a halted core by number: integer 0 to 31, CSR 0x1000 + its address, 64-bit word w of vector register v at 0x2000 + 4 v + w (log entry 139). -/
def dbgRegRead (core reg : Nat) (s : State) : DWord :=
  if reg < 32 then getX core reg s
  else if inRange reg 0x1000 0x1000 then csrRead core (reg - 0x1000) s
  else if inRange reg 0x2000 128 then BitVec.ofNat 64 (fld (tgetD (getCore core s).v ((reg - 0x2000) / 4) []) (8 * ((reg - 0x2000) % 4)) 8)
  else 0

/-- Write a register of a halted core, by the same numbers. -/
def dbgRegWrite (core reg : Nat) (v : DWord) (s : State) : State :=
  if reg < 32 then setX core reg v s
  else if inRange reg 0x1000 0x1000 then csrWrite core (reg - 0x1000) v s
  else if inRange reg 0x2000 128 then
    let c := getCore core s
    let n := (reg - 0x2000) / 4
    let w := (reg - 0x2000) % 4
    let old := padTo 32 (tgetD c.v n [])
    setCore core { c with v := tset c.v n (old.take (8 * w) ++ leBytes 8 v.toNat ++ old.drop (8 * w + 8)) } s
  else s

/-- An access to one core: NOT_ENABLED without the enable of its world, REFUSED for a core that does not exist or serve. -/
def gateCore (core : Nat) (f : State → State) (s : State) : State :=
  if 72 ≤ core || !coreActive core s then gateResult (if s.lc.enables = 0 then 3 else 1) 0 s
  else if !coreInvasive core s then gateResult 3 0 s
  else f s

/-- A register access or a step needs the core halted; while it runs the gate reads BUSY (log entry 139). -/
def gateHalted (core : Nat) (f : State → State) (s : State) : State :=
  gateCore core (fun s => if s.lc.halted.contains core then f s else gateResult 2 0 s) s

/-- A register of the gate (space 2): HWD_DBG_CTRL and HWD_DBG_STATUS. -/
def gateSpace (addr data : Nat) (write : Bool) (s : State) : State :=
  let o := addr % 0x1000
  if write then gateResult 0 0 (if o = 0x100 then hwdWrite o 4 data s else s)
  else gateResult 0 (BitVec.ofNat 64 (if o = 0x104 then (hwdWord o s).getD 0 else 0)) s

/-- What an access does under the enables in force (R490). -/
def gateAccess (a : DebugAccess) (s : State) : State :=
  match a with
  | .fabric addr data write => match dbgTag s with
    | some t => gateFabric t addr data write s
    | none => gateResult 3 0 s
  | .halt core => gateCore core (fun s => gateResult 0 0 { s with lc.halted := addNew s.lc.halted core }) s
  | .resume core => gateCore core (fun s => gateResult 0 0 { s with lc.halted := without s.lc.halted core }) s
  | .step core => gateHalted core (fun s =>
      gateResult 0 0 { s with lc.halted := without s.lc.halted core, lc.stepping := addNew s.lc.stepping core }) s
  | .readReg core reg => gateHalted core (fun s => gateResult 0 (dbgRegRead core reg s) s) s
  | .writeReg core reg value => gateHalted core (fun s => gateResult 0 0 (dbgRegWrite core reg value s)) s
  | .trace core =>
    if 72 ≤ core || !coreTrace core s then gateResult 3 0 s
    else let (v, s) := draw s; gateResult 0 (BitVec.ofNat 64 v) s
  | .gate addr data write => gateSpace addr data write s

/-- DBG_ACCESS: accepted with an enable in force, else BYPASS is loaded (R489, R490). -/
def execDbgAccess (a : DebugAccess) (s : State) : Out :=
  .next (if s.lc.enables = 0 then tapLoad false 0 0 s else gateAccess a (tapLoad true 0x12 0 s))

/-- STAND_WAKE: an access to a gated or waking stand is held; the wake begins with the first (R582). -/
def execStandWake (stand : Nat) (acc : HeldAccess) (s : State) : Out :=
  onUnit (stand < 8) (if standHolds stand s then holdAccess stand acc s else s)

/-- A held access proceeds: a fabric transaction reaches its ACU; a job, a key or a gate call goes on by its own row (R582). -/
def proceed (h : HeldAccess) (s : State) : State :=
  match h with
  | .fabric t target a => transact t target a s
  | .job _ | .key _ | .gate _ => s

/-- STAND_WAKE_DONE: the stand is awake and its held accesses proceed in order (R582). -/
def execStandWakeDone (stand : Nat) (s : State) : Out :=
  onUnit (stand < 8) (
    match tget s.pwr.waking stand with
    | none => s
    | some hs => hs.foldl (fun s h => proceed h s) (standUp stand { s with pwr.waking := tdel s.pwr.waking stand }))

end Sys2Proof.Machine
end

