-- ==== Sys2Proof/Machine/Dispatch.lean ====
section
/-! DEFINITION. The effect of every command: one arm per constructor of Instr, each a direct call of its meaning. -/

namespace Sys2Proof.Machine

/-- A command's effect on everything but the queue. -/
def exec (i : Instr) (s : State) : Host.Outcome State Fault Refusal :=
  match i with
  | .powerOn => Sys2Proof.Machine.execPowerOn s
  | .mainPowerLost => Sys2Proof.Machine.execMainPowerLost s
  | .resetN low => Sys2Proof.Machine.execResetN low s
  | .perstAssert link => Sys2Proof.Machine.execPerstAssert link s
  | .perstBothLinks => Sys2Proof.Machine.execPerstBothLinks s
  | .linkDown link => Sys2Proof.Machine.execLinkDown link s
  | .pfFlr p => Sys2Proof.Machine.execPfFlr p s
  | .vfFlr n => Sys2Proof.Machine.execVfFlr n s
  | .busMasterEnableClear fn => Sys2Proof.Machine.execBusMasterEnableClear fn s
  | .d3hotEntry fn => Sys2Proof.Machine.execD3hotEntry fn s
  | .d0Return fn => Sys2Proof.Machine.execD0Return fn s
  | .startStageDone ok => Sys2Proof.Machine.execStartStageDone ok s
  | .startStageTimeout => Sys2Proof.Machine.execStartStageTimeout s
  | .coldStartAfterOrder => Sys2Proof.Machine.execColdStartAfterOrder s
  | .fabricTransaction tag target acc => Sys2Proof.Machine.execFabricTransaction tag target acc s
  | .registerWrite at_ off bytes value => Sys2Proof.Machine.execRegisterWrite at_ off bytes value s
  | .keyGenerate mb => Sys2Proof.Machine.execKeyGenerate mb s
  | .keyImport mb => Sys2Proof.Machine.execKeyImport mb s
  | .keyExport mb => Sys2Proof.Machine.execKeyExport mb s
  | .keyDerive mb => Sys2Proof.Machine.execKeyDerive mb s
  | .keyDestroy mb => Sys2Proof.Machine.execKeyDestroy mb s
  | .keyReplace mb => Sys2Proof.Machine.execKeyReplace mb s
  | .keyGetAttr mb => Sys2Proof.Machine.execKeyGetAttr mb s
  | .keySetAttr mb => Sys2Proof.Machine.execKeySetAttr mb s
  | .storeCommit mb => Sys2Proof.Machine.execStoreCommit mb s
  | .storeStatus mb => Sys2Proof.Machine.execStoreStatus mb s
  | .storeRecover mb => Sys2Proof.Machine.execStoreRecover mb s
  | .counterCreate mb => Sys2Proof.Machine.execCounterCreate mb s
  | .counterInc mb => Sys2Proof.Machine.execCounterInc mb s
  | .counterRead mb => Sys2Proof.Machine.execCounterRead mb s
  | .counterDestroy mb => Sys2Proof.Machine.execCounterDestroy mb s
  | .drainLimitExpiry slot => Sys2Proof.Machine.execDrainLimitExpiry slot s
  | .keyDrainDone slot => Sys2Proof.Machine.execKeyDrainDone slot s
  | .sapwoodLoadDone slot ok => Sys2Proof.Machine.execSapwoodLoadDone slot ok s
  | .coppiceStep slot => Sys2Proof.Machine.execCoppiceStep slot s
  | .journalBlockWrite => Sys2Proof.Machine.execJournalBlockWrite s
  | .journalPageSweep page => Sys2Proof.Machine.execJournalPageSweep page s
  | .commitPeriodic => Sys2Proof.Machine.execCommitPeriodic s
  | .commitBucketRefill => Sys2Proof.Machine.execCommitBucketRefill s
  | .commitDone ok => Sys2Proof.Machine.execCommitDone ok s
  | .ownerCreate mb => Sys2Proof.Machine.execOwnerCreate mb s
  | .ownerSeal mb => Sys2Proof.Machine.execOwnerSeal mb s
  | .ownerQuery mb => Sys2Proof.Machine.execOwnerQuery mb s
  | .ownerSetQuota mb => Sys2Proof.Machine.execOwnerSetQuota mb s
  | .ownerSuspend mb => Sys2Proof.Machine.execOwnerSuspend mb s
  | .ownerDelete mb => Sys2Proof.Machine.execOwnerDelete mb s
  | .ownerEvidence mb => Sys2Proof.Machine.execOwnerEvidence mb s
  | .credAdd mb => Sys2Proof.Machine.execCredAdd mb s
  | .credRevoke mb => Sys2Proof.Machine.execCredRevoke mb s
  | .policyCreate mb => Sys2Proof.Machine.execPolicyCreate mb s
  | .policyModify mb => Sys2Proof.Machine.execPolicyModify mb s
  | .policyQuery mb => Sys2Proof.Machine.execPolicyQuery mb s
  | .quorumOpen mb => Sys2Proof.Machine.execQuorumOpen mb s
  | .quorumApprove mb => Sys2Proof.Machine.execQuorumApprove mb s
  | .quorumExecute mb => Sys2Proof.Machine.execQuorumExecute mb s
  | .quorumCancel mb => Sys2Proof.Machine.execQuorumCancel mb s
  | .replicaPrepare mb => Sys2Proof.Machine.execReplicaPrepare mb s
  | .replicaExport mb => Sys2Proof.Machine.execReplicaExport mb s
  | .replicaApply mb => Sys2Proof.Machine.execReplicaApply mb s
  | .ownerBackup mb => Sys2Proof.Machine.execOwnerBackup mb s
  | .ownerRestore mb => Sys2Proof.Machine.execOwnerRestore mb s
  | .storeRebase mb => Sys2Proof.Machine.execStoreRebase mb s
  | .laneSentinel lane ok => Sys2Proof.Machine.execLaneSentinel lane ok s
  | .laneContextPrepare lane slot => Sys2Proof.Machine.execLaneContextPrepare lane slot s
  | .checkerMismatch stand lane => Sys2Proof.Machine.execCheckerMismatch stand lane s
  | .checkerKatDone stand laneOk checkerOk => Sys2Proof.Machine.execCheckerKatDone stand laneOk checkerOk s
  | .checkerReseed stand => Sys2Proof.Machine.execCheckerReseed stand s
  | .laneFailure lane cause => Sys2Proof.Machine.execLaneFailure lane cause s
  | .spareLaneKatDone lane ok => Sys2Proof.Machine.execSpareLaneKatDone lane ok s
  | .hucBlockDone stand => Sys2Proof.Machine.execHucBlockDone stand s
  | .hucFailure stand => Sys2Proof.Machine.execHucFailure stand s
  | .engineEnd ctx e => Sys2Proof.Machine.execEngineEnd ctx e s
  | .deadlineExpiry ctx => Sys2Proof.Machine.execDeadlineExpiry ctx s
  | .contextWaitSatisfied ctx => Sys2Proof.Machine.execContextWaitSatisfied ctx s
  | .contextDrained ctx => Sys2Proof.Machine.execContextDrained ctx s
  | .completionPost ctx => Sys2Proof.Machine.execCompletionPost ctx s
  | .dgeCtrlConfig g master value => Sys2Proof.Machine.execDgeCtrlConfig g master value s
  | .dgeAbort g master => Sys2Proof.Machine.execDgeAbort g master s
  | .dgeKeyClr g master => Sys2Proof.Machine.execDgeKeyClr g master s
  | .dgeRelease0 g master => Sys2Proof.Machine.execDgeRelease0 g master s
  | .dgeSave g master => Sys2Proof.Machine.execDgeSave g master s
  | .dgeRestore g master => Sys2Proof.Machine.execDgeRestore g master s
  | .dgeSaveDone g => Sys2Proof.Machine.execDgeSaveDone g s
  | .dgeData g master value => Sys2Proof.Machine.execDgeData g master value s
  | .dgeLastw g master value => Sys2Proof.Machine.execDgeLastw g master value s
  | .dgeKeydata g master value => Sys2Proof.Machine.execDgeKeydata g master value s
  | .dgeKeyhandle g master value => Sys2Proof.Machine.execDgeKeyhandle g master value s
  | .dgeKeyLoaded g => Sys2Proof.Machine.execDgeKeyLoaded g s
  | .dgeMessageDone g => Sys2Proof.Machine.execDgeMessageDone g s
  | .dgeFault g => Sys2Proof.Machine.execDgeFault g s
  | .wmaGo core rs1 unit => Sys2Proof.Machine.execWmaGo core rs1 unit s
  | .wmaWait core rd => Sys2Proof.Machine.execWmaWait core rd s
  | .wmaCmdStart unit => Sys2Proof.Machine.execWmaCmdStart unit s
  | .wmaCmdDone unit => Sys2Proof.Machine.execWmaCmdDone unit s
  | .wmaFault unit => Sys2Proof.Machine.execWmaFault unit s
  | .seedbankHealthFail bank found => Sys2Proof.Machine.execSeedbankHealthFail bank found s
  | .seedbankWindowClose bank samples => Sys2Proof.Machine.execSeedbankWindowClose bank samples s
  | .seedbankFreqGate bank freqs => Sys2Proof.Machine.execSeedbankFreqGate bank freqs s
  | .seedbankStartupDone bank samples => Sys2Proof.Machine.execSeedbankStartupDone bank samples s
  | .seedbankConfig mb => Sys2Proof.Machine.execSeedbankConfig mb s
  | .seedbankStatus mb => Sys2Proof.Machine.execSeedbankStatus mb s
  | .seedbankGaugeUpdate bank temp agePpm => Sys2Proof.Machine.execSeedbankGaugeUpdate bank temp agePpm s
  | .sbkPortReq stand master addr count => Sys2Proof.Machine.execSbkPortReq stand master addr count s
  | .sbkPortCancel stand master => Sys2Proof.Machine.execSbkPortCancel stand master s
  | .sbkPortRequestDone stand => Sys2Proof.Machine.execSbkPortRequestDone stand s
  | .queueCreate mb => Sys2Proof.Machine.execQueueCreate mb s
  | .queueDestroy mb => Sys2Proof.Machine.execQueueDestroy mb s
  | .queueQuery mb => Sys2Proof.Machine.execQueueQuery mb s
  | .qmgSqTail fn qid index => Sys2Proof.Machine.execQmgSqTail fn qid index s
  | .qmgCqHead fn qid index => Sys2Proof.Machine.execQmgCqHead fn qid index s
  | .sqFetch fn qid => Sys2Proof.Machine.execSqFetch fn qid s
  | .cqCoalTimer fn qid => Sys2Proof.Machine.execCqCoalTimer fn qid s
  | .msixUnmask fn vec => Sys2Proof.Machine.execMsixUnmask fn vec s
  | .jringSetup mb => Sys2Proof.Machine.execJringSetup mb s
  | .jringStop mb => Sys2Proof.Machine.execJringStop mb s
  | .qmgJrPost p index => Sys2Proof.Machine.execQmgJrPost p index s
  | .qmgJrEvhead p index => Sys2Proof.Machine.execQmgJrEvhead p index s
  | .qmgJrAck p seq => Sys2Proof.Machine.execQmgJrAck p seq s
  | .jringInputBlock => Sys2Proof.Machine.execJringInputBlock s
  | .doeRequest p req => Sys2Proof.Machine.execDoeRequest p req s
  | .ideTlpFail link stream => Sys2Proof.Machine.execIdeTlpFail link stream s
  | .tdispMessage n m => Sys2Proof.Machine.execTdispMessage n m s
  | .pfmDoorbell p m go token => Sys2Proof.Machine.execPfmDoorbell p m go token s
  | .vfmDoorbell n go token => Sys2Proof.Machine.execVfmDoorbell n go token s
  | .mailboxAccept mb => Sys2Proof.Machine.execMailboxAccept mb s
  | .mailboxDeadlineExpiry mb => Sys2Proof.Machine.execMailboxDeadlineExpiry mb s
  | .deviceIdentify mb => Sys2Proof.Machine.execDeviceIdentify mb s
  | .deviceStatus mb => Sys2Proof.Machine.execDeviceStatus mb s
  | .deviceEvidence mb => Sys2Proof.Machine.execDeviceEvidence mb s
  | .reqidQuery mb => Sys2Proof.Machine.execReqidQuery mb s
  | .checkpointEpoch => Sys2Proof.Machine.execCheckpointEpoch s
  | .wardenHeartbeat => Sys2Proof.Machine.execWardenHeartbeat s
  | .wardenFailover => Sys2Proof.Machine.execWardenFailover s
  | .standbyResumed => Sys2Proof.Machine.execStandbyResumed s
  | .standbyResumeTimeout => Sys2Proof.Machine.execStandbyResumeTimeout s
  | .heartbeatTimeout => Sys2Proof.Machine.execHeartbeatTimeout s
  | .pairReloadDone ok => Sys2Proof.Machine.execPairReloadDone ok s
  | .gcmEnc ctx => Sys2Proof.Machine.execGcmEnc ctx s
  | .gcmDec ctx => Sys2Proof.Machine.execGcmDec ctx s
  | .gmacGen ctx => Sys2Proof.Machine.execGmacGen ctx s
  | .gmacVer ctx => Sys2Proof.Machine.execGmacVer ctx s
  | .ctr ctx => Sys2Proof.Machine.execCtr ctx s
  | .cmacGen ctx => Sys2Proof.Machine.execCmacGen ctx s
  | .cmacVer ctx => Sys2Proof.Machine.execCmacVer ctx s
  | .hash ctx => Sys2Proof.Machine.execHash ctx s
  | .hmacGen ctx => Sys2Proof.Machine.execHmacGen ctx s
  | .hmacVer ctx => Sys2Proof.Machine.execHmacVer ctx s
  | .wrap ctx => Sys2Proof.Machine.execWrap ctx s
  | .unwrap ctx => Sys2Proof.Machine.execUnwrap ctx s
  | .sign ctx => Sys2Proof.Machine.execSign ctx s
  | .verify ctx => Sys2Proof.Machine.execVerify ctx s
  | .agree ctx => Sys2Proof.Machine.execAgree ctx s
  | .derive ctx => Sys2Proof.Machine.execDerive ctx s
  | .random ctx => Sys2Proof.Machine.execRandom ctx s
  | .tally ctx => Sys2Proof.Machine.execTally ctx s
  | .pinXlate ctx => Sys2Proof.Machine.execPinXlate ctx s
  | .legacyMac ctx => Sys2Proof.Machine.execLegacyMac ctx s
  | .frameReceive port frame => Sys2Proof.Machine.execFrameReceive port frame s
  | .frameTxClassify port => Sys2Proof.Machine.execFrameTxClassify port s
  | .frameRelease pos => Sys2Proof.Machine.execFrameRelease pos s
  | .frameRingTx fn ring => Sys2Proof.Machine.execFrameRingTx fn ring s
  | .ethLinkUp port => Sys2Proof.Machine.execEthLinkUp port s
  | .ethLinkDown port => Sys2Proof.Machine.execEthLinkDown port s
  | .portConfig mb => Sys2Proof.Machine.execPortConfig mb s
  | .portSet mb => Sys2Proof.Machine.execPortSet mb s
  | .portStatus mb => Sys2Proof.Machine.execPortStatus mb s
  | .portRetrain mb => Sys2Proof.Machine.execPortRetrain mb s
  | .secyCreate mb => Sys2Proof.Machine.execSecyCreate mb s
  | .secySet mb => Sys2Proof.Machine.execSecySet mb s
  | .secyDestroy mb => Sys2Proof.Machine.execSecyDestroy mb s
  | .scAdd mb => Sys2Proof.Machine.execScAdd mb s
  | .scRemove mb => Sys2Proof.Machine.execScRemove mb s
  | .saAdd mb => Sys2Proof.Machine.execSaAdd mb s
  | .saRemove mb => Sys2Proof.Machine.execSaRemove mb s
  | .saDrained sa => Sys2Proof.Machine.execSaDrained sa s
  | .saSwitch mb => Sys2Proof.Machine.execSaSwitch mb s
  | .saSet mb => Sys2Proof.Machine.execSaSet mb s
  | .macsecStats mb => Sys2Proof.Machine.execMacsecStats mb s
  | .frameRingCreate mb => Sys2Proof.Machine.execFrameRingCreate mb s
  | .instruction core ins => Sys2Proof.Machine.execInstruction core ins s
  | .trap core cause tval => Sys2Proof.Machine.execTrap core cause tval s
  | .interruptTaken core => Sys2Proof.Machine.execInterruptTaken core s
  | .mret core => Sys2Proof.Machine.execMret core s
  | .wfi core => Sys2Proof.Machine.execWfi core s
  | .gateCall core rd rs1 rs2 => Sys2Proof.Machine.execGateCall core rd rs1 rs2 s
  | .gateRet core rs1 rs2 => Sys2Proof.Machine.execGateRet core rs1 rs2 s
  | .gateTake core addr => Sys2Proof.Machine.execGateTake core addr s
  | .mgateCancel core mask => Sys2Proof.Machine.execMgateCancel core mask s
  | .gateRandom ticket => Sys2Proof.Machine.execGateRandom ticket s
  | .gateCounterCreate ticket => Sys2Proof.Machine.execGateCounterCreate ticket s
  | .gateCounterInc ticket => Sys2Proof.Machine.execGateCounterInc ticket s
  | .gateCounterRead ticket => Sys2Proof.Machine.execGateCounterRead ticket s
  | .keyOp ticket => Sys2Proof.Machine.execKeyOp ticket s
  | .keyInfo ticket => Sys2Proof.Machine.execKeyInfo ticket s
  | .yield core => Sys2Proof.Machine.execYield core s
  | .exit core => Sys2Proof.Machine.execExit core s
  | .time core => Sys2Proof.Machine.execTime core s
  | .wait core => Sys2Proof.Machine.execWait core s
  | .dgeAcquire core => Sys2Proof.Machine.execDgeAcquire core s
  | .dgeRelease core => Sys2Proof.Machine.execDgeRelease core s
  | .notifyReturn core => Sys2Proof.Machine.execNotifyReturn core s
  | .self core => Sys2Proof.Machine.execSelf core s
  | .appletSliceEnd core => Sys2Proof.Machine.execAppletSliceEnd core s
  | .scrub core owner => Sys2Proof.Machine.execScrub core owner s
  | .scrubDone core => Sys2Proof.Machine.execScrubDone core s
  | .coreFailure core => Sys2Proof.Machine.execCoreFailure core s
  | .bankTestDone core ok => Sys2Proof.Machine.execBankTestDone core ok s
  | .spareCoreBootDone core ok => Sys2Proof.Machine.execSpareCoreBootDone core ok s
  | .watchdogKick core => Sys2Proof.Machine.execWatchdogKick core s
  | .watchdogExpiry core => Sys2Proof.Machine.execWatchdogExpiry core s
  | .appletTrust mb => Sys2Proof.Machine.execAppletTrust mb s
  | .appletLoad mb => Sys2Proof.Machine.execAppletLoad mb s
  | .appletStart mb => Sys2Proof.Machine.execAppletStart mb s
  | .appletStop mb => Sys2Proof.Machine.execAppletStop mb s
  | .appletStopGraceExpiry inst => Sys2Proof.Machine.execAppletStopGraceExpiry inst s
  | .appletUnload mb => Sys2Proof.Machine.execAppletUnload mb s
  | .appletQuery mb => Sys2Proof.Machine.execAppletQuery mb s
  | .gladeStatus mb => Sys2Proof.Machine.execGladeStatus mb s
  | .vfBind mb => Sys2Proof.Machine.execVfBind mb s
  | .vfUnbind mb => Sys2Proof.Machine.execVfUnbind mb s
  | .vfQuery mb => Sys2Proof.Machine.execVfQuery mb s
  | .vfSetLimits mb => Sys2Proof.Machine.execVfSetLimits mb s
  | .vfGrant mb => Sys2Proof.Machine.execVfGrant mb s
  | .vfRevoke mb => Sys2Proof.Machine.execVfRevoke mb s
  | .vfGrants mb => Sys2Proof.Machine.execVfGrants mb s
  | .vfQuiesce mb => Sys2Proof.Machine.execVfQuiesce mb s
  | .vfQuiesceComplete n => Sys2Proof.Machine.execVfQuiesceComplete n s
  | .vfResume mb => Sys2Proof.Machine.execVfResume mb s
  | .vfFreeze mb => Sys2Proof.Machine.execVfFreeze mb s
  | .vfFreezeComplete n => Sys2Proof.Machine.execVfFreezeComplete n s
  | .vfThaw mb => Sys2Proof.Machine.execVfThaw mb s
  | .vfPrepare mb => Sys2Proof.Machine.execVfPrepare mb s
  | .vfSave mb => Sys2Proof.Machine.execVfSave mb s
  | .vfRestore mb => Sys2Proof.Machine.execVfRestore mb s
  | .worldmapWrite mb => Sys2Proof.Machine.execWorldmapWrite mb s
  | .worldmapRead mb => Sys2Proof.Machine.execWorldmapRead mb s
  | .acuCommit acu => Sys2Proof.Machine.execAcuCommit acu s
  | .imageStage mb => Sys2Proof.Machine.execImageStage mb s
  | .imageQuery mb => Sys2Proof.Machine.execImageQuery mb s
  | .updateApply mb => Sys2Proof.Machine.execUpdateApply mb s
  | .updateStatus mb => Sys2Proof.Machine.execUpdateStatus mb s
  | .updateAbandon mb => Sys2Proof.Machine.execUpdateAbandon mb s
  | .imageCommit mb => Sys2Proof.Machine.execImageCommit mb s
  | .wardenHandover mb => Sys2Proof.Machine.execWardenHandover mb s
  | .handoverStepDone ok => Sys2Proof.Machine.execHandoverStepDone ok s
  | .probationEnd => Sys2Proof.Machine.execProbationEnd s
  | .serviceCoreSwitched core ok => Sys2Proof.Machine.execServiceCoreSwitched core ok s
  | .gladeMonitorSwitched core ok => Sys2Proof.Machine.execGladeMonitorSwitched core ok s
  | .calibrate mb => Sys2Proof.Machine.execCalibrate mb s
  | .calQuery mb => Sys2Proof.Machine.execCalQuery mb s
  | .hwdRestartReq reason => Sys2Proof.Machine.execHwdRestartReq reason s
  | .restartStageDone => Sys2Proof.Machine.execRestartStageDone s
  | .restartTimeout => Sys2Proof.Machine.execRestartTimeout s
  | .lcNonce mb => Sys2Proof.Machine.execLcNonce mb s
  | .lcTransition mb => Sys2Proof.Machine.execLcTransition mb s
  | .lcResume mb => Sys2Proof.Machine.execLcResume mb s
  | .lcAnchorRefresh mb => Sys2Proof.Machine.execLcAnchorRefresh mb s
  | .debugGrant mb => Sys2Proof.Machine.execDebugGrant mb s
  | .debugStatus mb => Sys2Proof.Machine.execDebugStatus mb s
  | .debugRevoke mb => Sys2Proof.Machine.execDebugRevoke mb s
  | .hwdDbgCtrlNew => Sys2Proof.Machine.execHwdDbgCtrlNew s
  | .hwdDbgCtrlRevoke => Sys2Proof.Machine.execHwdDbgCtrlRevoke s
  | .tapReset => Sys2Proof.Machine.execTapReset s
  | .extest bits => Sys2Proof.Machine.execExtest bits s
  | .samplePreload bits => Sys2Proof.Machine.execSamplePreload bits s
  | .idcode => Sys2Proof.Machine.execIdcode s
  | .clamp => Sys2Proof.Machine.execClamp s
  | .highz => Sys2Proof.Machine.execHighz s
  | .bypass => Sys2Proof.Machine.execBypass s
  | .dbgNonce => Sys2Proof.Machine.execDbgNonce s
  | .dbgToken statement => Sys2Proof.Machine.execDbgToken statement s
  | .dbgAccess a => Sys2Proof.Machine.execDbgAccess a s
  | .dbgStatus => Sys2Proof.Machine.execDbgStatus s
  | .tpScan instr => Sys2Proof.Machine.execTpScan instr s
  | .lookoutEvent source t value => Sys2Proof.Machine.execLookoutEvent source t value s
  | .lookoutReset => Sys2Proof.Machine.execLookoutReset s
  | .meshCheck mesh t fails => Sys2Proof.Machine.execMeshCheck mesh t fails s
  | .loopCheck t fails lidHigh => Sys2Proof.Machine.execLoopCheck t fails lidHigh s
  | .sourceRearm source => Sys2Proof.Machine.execSourceRearm source s
  | .freezeHoldExpiry source => Sys2Proof.Machine.execFreezeHoldExpiry source s
  | .secondsTick => Sys2Proof.Machine.execSecondsTick s
  | .secondsFloorWrite => Sys2Proof.Machine.execSecondsFloorWrite s
  | .svoutRampEnd ok => Sys2Proof.Machine.execSvoutRampEnd ok s
  | .svoutRetryTimer => Sys2Proof.Machine.execSvoutRetryTimer s
  | .svoutCollapse => Sys2Proof.Machine.execSvoutCollapse s
  | .lookoutConfig mb => Sys2Proof.Machine.execLookoutConfig mb s
  | .lookoutQuery mb => Sys2Proof.Machine.execLookoutQuery mb s
  | .lookoutRelease mb => Sys2Proof.Machine.execLookoutRelease mb s
  | .svoutCtrl mb => Sys2Proof.Machine.execSvoutCtrl mb s
  | .faultReport source unit => Sys2Proof.Machine.execFaultReport source unit s
  | .firebreakSelfCheck => Sys2Proof.Machine.execFirebreakSelfCheck s
  | .serviceFaultClear kind => Sys2Proof.Machine.execServiceFaultClear kind s
  | .pllRelockAttempt pll locked => Sys2Proof.Machine.execPllRelockAttempt pll locked s
  | .fbAliveToggle => Sys2Proof.Machine.execFbAliveToggle s
  | .hbmError addr master => Sys2Proof.Machine.execHbmError addr master s
  | .wearIndexUpdate stand => Sys2Proof.Machine.execWearIndexUpdate stand s
  | .firebreakQuery mb => Sys2Proof.Machine.execFirebreakQuery mb s
  | .firebreakConfig mb => Sys2Proof.Machine.execFirebreakConfig mb s
  | .firebreakInject mb => Sys2Proof.Machine.execFirebreakInject mb s
  | .fbkInjectGo p source unit => Sys2Proof.Machine.execFbkInjectGo p source unit s
  | .forceLow p on => Sys2Proof.Machine.execForceLow p on s
  | .logRecordQueue code origin arg => Sys2Proof.Machine.execLogRecordQueue code origin arg s
  | .logRecordProgrammed => Sys2Proof.Machine.execLogRecordProgrammed s
  | .logPageOpen => Sys2Proof.Machine.execLogPageOpen s
  | .trlVectorSend p => Sys2Proof.Machine.execTrlVectorSend p s
  | .logStatus mb => Sys2Proof.Machine.execLogStatus mb s
  | .logExport mb => Sys2Proof.Machine.execLogExport mb s
  | .logAck mb => Sys2Proof.Machine.execLogAck mb s
  | .logClear mb => Sys2Proof.Machine.execLogClear mb s
  | .meterFlush => Sys2Proof.Machine.execMeterFlush s
  | .meterStatus mb => Sys2Proof.Machine.execMeterStatus mb s
  | .meterClose mb => Sys2Proof.Machine.execMeterClose mb s
  | .meterRead mb => Sys2Proof.Machine.execMeterRead mb s
  | .meterSetUtc mb => Sys2Proof.Machine.execMeterSetUtc mb s
  | .meterConfig mb => Sys2Proof.Machine.execMeterConfig mb s
  | .dozeEntry stand => Sys2Proof.Machine.execDozeEntry stand s
  | .standWake stand acc => Sys2Proof.Machine.execStandWake stand acc s
  | .standWakeDone stand => Sys2Proof.Machine.execStandWakeDone stand s
  | .powerWatch mb => Sys2Proof.Machine.execPowerWatch mb s
  | .powerConfig mb => Sys2Proof.Machine.execPowerConfig mb s
  | .watchAbortPoint point => Sys2Proof.Machine.execWatchAbortPoint point s
  | .watchEntryTimeout => Sys2Proof.Machine.execWatchEntryTimeout s
  | .wakeIn => Sys2Proof.Machine.execWakeIn s
  | .i2cAddressMatch addr => Sys2Proof.Machine.execI2cAddressMatch addr s
  | .wakeTimer => Sys2Proof.Machine.execWakeTimer s
  | .wakeStepDone => Sys2Proof.Machine.execWakeStepDone s
  | .wakeTimeout => Sys2Proof.Machine.execWakeTimeout s
  | .i2cTimeout => Sys2Proof.Machine.execI2cTimeout s
  | .setEndpointId eid => Sys2Proof.Machine.execSetEndpointId eid s
  | .getEndpointId => Sys2Proof.Machine.execGetEndpointId s
  | .getEndpointUuid => Sys2Proof.Machine.execGetEndpointUuid s
  | .getMctpVersionSupport => Sys2Proof.Machine.execGetMctpVersionSupport s
  | .getMessageTypeSupport => Sys2Proof.Machine.execGetMessageTypeSupport s
  | .getVendorDefinedMsgSupport => Sys2Proof.Machine.execGetVendorDefinedMsgSupport s
  | .getStatus => Sys2Proof.Machine.execGetStatus s
  | .getSensors => Sys2Proof.Machine.execGetSensors s
  | .getStands => Sys2Proof.Machine.execGetStands s
  | .getLogTail count => Sys2Proof.Machine.execGetLogTail count s
  | .spdmOverMctp msg => Sys2Proof.Machine.execSpdmOverMctp msg s
  | .kcwAssign mb => Sys2Proof.Machine.execKcwAssign mb s
  | .kcwRelease mb => Sys2Proof.Machine.execKcwRelease mb s
  | .kcwMap mb => Sys2Proof.Machine.execKcwMap mb s
  | .kcwQuery mb => Sys2Proof.Machine.execKcwQuery mb s
  | .kcwData w value => Sys2Proof.Machine.execKcwData w value s
  | .kcwReset w => Sys2Proof.Machine.execKcwReset w s
  | .kcwIdent w => Sys2Proof.Machine.execKcwIdent w s
  | .kcwEncrypt w => Sys2Proof.Machine.execKcwEncrypt w s
  | .kcwDecrypt w => Sys2Proof.Machine.execKcwDecrypt w s
  | .kcwMacGen w => Sys2Proof.Machine.execKcwMacGen w s
  | .kcwMacVer w => Sys2Proof.Machine.execKcwMacVer w s
  | .kcwPinXlate w => Sys2Proof.Machine.execKcwPinXlate w s
  | .kcwRandom w => Sys2Proof.Machine.execKcwRandom w s
  | .kcwKeyCheck w => Sys2Proof.Machine.execKcwKeyCheck w s
  | .kcwUseQuery w => Sys2Proof.Machine.execKcwUseQuery w s
  | .kcwGenerateKey w => Sys2Proof.Machine.execKcwGenerateKey w s
  | .kcwLoadComponents w => Sys2Proof.Machine.execKcwLoadComponents w s
  | .kcwImportKey w => Sys2Proof.Machine.execKcwImportKey w s
  | .kcwExportKey w => Sys2Proof.Machine.execKcwExportKey w s
  | .kcwDeleteKey w => Sys2Proof.Machine.execKcwDeleteKey w s
  | .kcwSetClock w => Sys2Proof.Machine.execKcwSetClock w s
  | .entropyWaitExpiry who => Sys2Proof.Machine.execEntropyWaitExpiry who s
  | .hostReadCompletion r data ok => Sys2Proof.Machine.execHostReadCompletion r data ok s
  | .pcieCompletionTimeout r => Sys2Proof.Machine.execPcieCompletionTimeout r s
  | .perstDeassert link => Sys2Proof.Machine.execPerstDeassert link s
  | .pcieLinkUp p speed width flit => Sys2Proof.Machine.execPcieLinkUp p speed width flit s
  | .vfEnableSet p => Sys2Proof.Machine.execVfEnableSet p s
  | .busMasterEnableSet fn => Sys2Proof.Machine.execBusMasterEnableSet fn s
  | .atsInvalidateRequest fn addr len => Sys2Proof.Machine.execAtsInvalidateRequest fn addr len s
  | .backupDomainLoss => Sys2Proof.Machine.execBackupDomainLoss s

end Sys2Proof.Machine
end

