-- ==== Sys2Proof/Machine/Step.lean ====
section
/-! DEFINITION. One step of the block: the command at the front of its queue runs; on an empty queue a microsecond passes (log entry 3). -/

namespace Sys2Proof.Machine

/-- The state with another queue. -/
def State.withQueue (s : State) (q : List Instr) : State := { s with pending := q }

/-- An empty queue: the model's clock counts one microsecond and nothing else happens (log entry 3). -/
def idle (s : State) : State := { s with us := s.us + 1 }

/-- One step: take the command at the front of the queue and run it with the queue's rest. -/
def step (s : State) : Host.Outcome State Fault Refusal :=
  match s.pending with
  | [] => .next (idle s)
  | c :: rest => exec c (s.withQueue rest)

/-- The command a word spells is put at the front of the queue; a word that spells none changes nothing. -/
def State.withFetchWord (s : State) (nbits w : Nat) : State :=
  match decodeTableWord nbits w with
  | some c => s.withQueue (c :: s.pending)
  | none => s

end Sys2Proof.Machine
end

