-- ==== Sys2Proof/Safety.lean ====
section
/-! DEFINITION. The words statements use: outcomes of a step, commands accepted at a mailbox and how they end, and the invariants of the state. -/

namespace Sys2Proof.Safety

open Sys2Proof.Machine

/-- The step or command went on. -/
def Continues (o : Out) : Prop := ∃ t, o = .next t

/-- Every memory of the state is in its canonical form: host memory, the fabric's memory, every mailbox buffer. -/
def MemoriesWf (s : State) : Prop :=
  memWf s.host.mem = true ∧ memWf s.units.fab = true ∧ ∀ p ∈ s.mbox, memWf p.2.buf = true

/-- A mailbox holds the accepted request q of opcode op, nothing of it has been done, and the Warden answers mailboxes (R41, R264, R269). -/
abbrev Accepted (mb : Mb) (op : Nat) (q : Req) (s : State) : Prop :=
  mbOk mb = true ∧ (getMb mb s).cur = some q ∧ q.opcode = op ∧ wardenAnswers s = true ∧ (getMb mb s).wait = .none

/-- The mailbox's command has its lease on a key, the key's shares are in the Sapwood, and the HUC blocks it asked for are done (R59, R64, R70, R145). -/
abbrev KeyInUse (mb : Mb) (slot : Nat) (k : KeyRec) (s : State) : Prop :=
  (getMb mb s).job = some { slot := slot, gen := k.gen, huc := true } ∧ inSapwood slot k s = true ∧ hucBusy (.mb (mbKey mb)) s = false

/-- The mailbox's command uses no key yet. -/
abbrev NoKeyInUse (mb : Mb) (s : State) : Prop := (getMb mb s).job = none

/-- A command ends: mailbox mb answers r, and everything else is as in u. -/
abbrev Ends (c : Instr) (s : State) (mb : Mb) (r : Resp) (u : State) : Prop := exec c s = .next (finishMb mb r u)

/-- A command has made its changes, which leave u, and waits for w before it answers. -/
abbrev Holds (c : Instr) (s : State) (mb : Mb) (q : Req) (w : MbWait) (u : State) : Prop := exec c s = .next (holdMb mb q.reqId w u)

/-- Mailbox mb executes, as request q, an approval a of a held request of opcode op that has its M custodians and still passes the common checks (R106, R107). -/
abbrev Approved (mb : Mb) (op : Nat) (q : Req) (a : Approval) (s : State) : Prop :=
  Accepted mb 0x0212 q s ∧ namedApproval mb (fld q.body 0 4) s = .ok a ∧ a.req.opcode = op ∧ approvedEnough a s = true ∧ acceptCheckIn (getMb mb s).mode mb a.req s = none

/-- The tag under which a master's interface issues its next access of a stand (R19, R22). -/
abbrev nextTag (master stand : Nat) (s : State) : FabricTag := (issue (masterTag master s) stand s).1

/-- Engine g, whose port state is d, takes a write of this master at an offset of its port: the access is permitted, the engine is awake, in service and neither saving nor restoring, no writer is stalled at it, and it is free or the master's own (R159, R161, R163, R171, R175). -/
abbrev DgeTakes (g master off : Nat) (d : Dge) (s : State) : Prop :=
  g < 16 ∧ getDge g s = d ∧ standHolds (g / 2) s = false ∧
  permits (nextTag master (g / 2) s) (g / 2) (0x0D300000 + 0x1000 * g + off) true false (issue (masterTag master s) (g / 2) s).2 = true ∧
  d.isolated = false ∧ d.xfer = none ∧ d.stalled = [] ∧ (d.claim = none ∨ d.claim = some (masterTag master s).master)

/-- Slot 0's configuration as the bits of DGE_CTRL hold it: ALG in 4 bits, the compare length in 7 (chapter 06, Registers). -/
abbrev ctrlBits (d : Dge) : Dge := { d with alg := d.alg % 16, cmpLen := d.cmpLen % 128 }

/-- Applet inst, which is a, runs in U-mode on a core and asks for monitor function n (R366, R367). -/
abbrev Ecalls (core n inst : Nat) (a : Applet) (s : State) : Prop :=
  core < 72 ∧ curApplet core s = some (inst, a) ∧ coreRuns core s = true ∧ (getCore core s).user = true ∧ getX core 17 s = BitVec.ofNat 64 n

/-- A gate call g of this ticket waits at its service core for a service it is granted, and its owner is ACTIVE (R371, R372). -/
abbrev GateServed (ticket svc bit : Nat) (g : GateCall) (s : State) : Prop :=
  s.cores.taken.find? (fun g => g.ticket == ticket && !g.answered && g.hold.isNone && g.ctx.isNone) = some g ∧ g.service = svc ∧
  gateServices.find? (fun p => p.1 == g.service) = some (svc, bit) ∧ serviceGranted g bit s = true ∧ ownerActive g.owner s = true

/-- Compatibility window w, which is k, holds a complete input of function func, its mode admits it, and context c of the pool is free (R624, R625, R631). -/
abbrev WindowWaits (w func c : Nat) (k : Kcw) (s : State) : Prop :=
  w < 16 ∧ getKcw w s = k ∧ k.phase = .wait ∧ kcwFunc k = func ∧ k.overrun = false ∧ s.mode.mode ≠ 8 ∧ queuesEnabled s = true ∧ freePool s = some c

/-- A window's command has ended in t: a Knarox 2 status, a device code and result bytes, and no other window has changed since s (R624, R627, R628). -/
def WindowDone (w kstat code : Nat) (result : Bytes) (s t : State) : Prop :=
  (getKcw w t).phase = .idle ∧ (getKcw w t).done = true ∧ (getKcw w t).drq = false ∧ (getKcw w t).kstat = kstat ∧ (getKcw w t).error = (kstat != 0) ∧
  (getKcw w t).code = code ∧ (getKcw w t).rbuf = result ∧ (getKcw w t).rlen = result.length ∧ (getKcw w t).ctx = none ∧
  (getKcw w t).map = (getKcw w s).map ∧ (∀ i, i ≠ w → getKcw i t = getKcw i s)

/-- From s to t nothing has changed but mailbox mb, the messages and pending vectors of functions, and the log: no register, key, host byte or other mailbox. -/
def OnlyMailbox (mb : Mb) (s t : State) : Prop :=
  { t with mbox := s.mbox, log := s.log, host := { t.host with fns := s.host.fns, msgs := s.host.msgs } } = s ∧
  ∀ k, k ≠ mbKey mb → tget t.mbox k = tget s.mbox k

/-- Mailbox mb reads DONE with the response the bytes of which are given, and no command is accepted in it. -/
def Answered (mb : Mb) (t : State) (bytes : Bytes) : Prop :=
  (getMb mb t).state = .done ∧ (getMb mb t).resp = bytes ∧ (getMb mb t).cur = none

/-- The record of a new key stands in its slot, ACTIVE at the slot's generation with its first invocation value and ceiling; its entry is the next of the journal, and no other slot has changed since u (R49, R52, R71, R74). -/
def Created (n : NewKey) (slot : Nat) (u t : State) : Prop :=
  (∃ k, tget t.store.c.keys slot = some k ∧ k.state = .active ∧ k.owner = n.owner ∧ k.type = n.type ∧ k.purpose = n.purpose ∧
    k.length = n.length ∧ k.policy = n.policy ∧ k.attr = n.attr ∧ k.gen = slotGen u.store.c slot ∧ k.invocation = 1 ∧
    k.ceiling = 1 + reservation k ∧ k.createSeq = u.store.nextSeq) ∧
  t.store.nextSeq = u.store.nextSeq + 1 ∧ ∀ i, i ≠ slot → tget t.store.c.keys i = tget u.store.c.keys i

/-- No page of the COMMIT partition stands twice among the ring and the spares, and every page is one of its 640 (R539). -/
def PagesWf (c : CommitPart) : Prop := (c.ring ++ c.spares).Nodup ∧ ∀ p ∈ c.ring ++ c.spares, p < 640

/-- A legal COMMIT partition: its pages, at most 32 records in the page in use, and a page in use unless commits have stopped (R539-R541). -/
def CommitWf (c : CommitPart) : Prop := PagesWf c ∧ c.slot ≤ 32 ∧ (c.stopped = true ∨ c.cur < c.ring.length)

/-- Wear goes one way: the usable pages do not grow, no page's ERASE_COUNT falls (R539, R540). -/
def CommitLe (c d : CommitPart) : Prop := commitU d ≤ commitU c ∧ ∀ p, tgetD c.erase p 0 ≤ tgetD d.erase p 0

end Sys2Proof.Safety
end

