-- ==== Sys2Proof/WellFormed.lean ====
section
/-! DEFINITION. Which commands name things the device has: functions, mailboxes, lanes, cores, stands, contexts, slots. -/

namespace Sys2Proof

/-- The function exists: 4 PFs, 4,096 VFs (R229). -/
def wfFn : Fn → Bool
  | .pf p => decide (p < 4)
  | .vf n => decide (n < 4096)

/-- The queue pair or frame ring exists: 256 of a PF, 64 of a VF (R245). -/
def wfQid : Fn → Nat → Bool
  | .pf p, q => decide (p < 4) && decide (q < 256)
  | .vf n, q => decide (n < 4096) && decide (q < 64)

/-- The mailbox exists: 8 per PF, one per VF (R264). -/
def wfMb : Mb → Bool
  | .pf p m => decide (p < 4) && decide (m < 8)
  | .vf n => decide (n < 4096)

/-- The tag's fields fit their bits (chapter 01, Tags). -/
def wfTag (t : FabricTag) : Bool := decide (t.master < 2 ^ 10) && decide (t.owner < 2 ^ 20) && decide (t.ctx < 2 ^ 13) && decide (t.opclass < 2 ^ 6) && decide (t.seq < 2 ^ 13)

/-- The register window exists (R236). -/
def wfPort : RegPort → Bool
  | .pfBar0 p | .pfBar2 p => decide (p < 4)
  | .vfBar0 n | .vfBar2 n | .vfPlain n _ => decide (n < 4096)
  | .internal t => wfTag t

/-- The waiter exists. -/
def wfWaiter : Waiter → Bool
  | .mailbox mb => wfMb mb
  | .context c => decide (c < 8192)
  | .port st m => decide (st < 8) && decide (m < 512)
  | .gate t => decide (t < 2 ^ 32)
  | .start => true

/-- The Lookout source exists: codes 0x01 to 0x1D (chapter 18, Registers). -/
def wfSource (n : Nat) : Bool := decide (1 ≤ n) && decide (n ≤ 0x1D)

/-- The read was issued for something the device has. -/
def wfRead : HostRead → Bool
  | .sq fn qid => wfQid fn qid
  | .ctx c _ _ _ _ _ => decide (c < 8192)
  | .blob mb _ => wfMb mb
  | .jrBuffer _ => true
  | .frame fn ring _ => wfQid fn ring

/-- A command is well formed when every number in it names something the device has. -/
def WellFormed : Instr → Bool
  | .powerOn => true
  | .mainPowerLost => true
  | .resetN _ => true
  | .perstAssert link => decide (link < 2)
  | .perstBothLinks => true
  | .linkDown link => decide (link < 2)
  | .pfFlr p => decide (p < 4)
  | .vfFlr n => decide (n < 4096)
  | .busMasterEnableClear fn => wfFn fn
  | .d3hotEntry fn => wfFn fn
  | .d0Return fn => wfFn fn
  | .startStageDone _ => true
  | .startStageTimeout => true
  | .coldStartAfterOrder => true
  | .fabricTransaction tag target _ => wfTag tag && decide (target < 16)
  | .registerWrite at_ _ _ _ => wfPort at_
  | .keyGenerate mb => wfMb mb
  | .keyImport mb => wfMb mb
  | .keyExport mb => wfMb mb
  | .keyDerive mb => wfMb mb
  | .keyDestroy mb => wfMb mb
  | .keyReplace mb => wfMb mb
  | .keyGetAttr mb => wfMb mb
  | .keySetAttr mb => wfMb mb
  | .storeCommit mb => wfMb mb
  | .storeStatus mb => wfMb mb
  | .storeRecover mb => wfMb mb
  | .counterCreate mb => wfMb mb
  | .counterInc mb => wfMb mb
  | .counterRead mb => wfMb mb
  | .counterDestroy mb => wfMb mb
  | .drainLimitExpiry slot => decide (slot < 33554432)
  | .keyDrainDone slot => decide (slot < 33554432)
  | .sapwoodLoadDone slot _ => decide (slot < 33554432)
  | .coppiceStep slot => decide (slot < 33554432)
  | .journalBlockWrite => true
  | .journalPageSweep _ => true
  | .commitPeriodic => true
  | .commitBucketRefill => true
  | .commitDone _ => true
  | .ownerCreate mb => wfMb mb
  | .ownerSeal mb => wfMb mb
  | .ownerQuery mb => wfMb mb
  | .ownerSetQuota mb => wfMb mb
  | .ownerSuspend mb => wfMb mb
  | .ownerDelete mb => wfMb mb
  | .ownerEvidence mb => wfMb mb
  | .credAdd mb => wfMb mb
  | .credRevoke mb => wfMb mb
  | .policyCreate mb => wfMb mb
  | .policyModify mb => wfMb mb
  | .policyQuery mb => wfMb mb
  | .quorumOpen mb => wfMb mb
  | .quorumApprove mb => wfMb mb
  | .quorumExecute mb => wfMb mb
  | .quorumCancel mb => wfMb mb
  | .replicaPrepare mb => wfMb mb
  | .replicaExport mb => wfMb mb
  | .replicaApply mb => wfMb mb
  | .ownerBackup mb => wfMb mb
  | .ownerRestore mb => wfMb mb
  | .storeRebase mb => wfMb mb
  | .laneSentinel lane _ => decide (lane < 72)
  | .laneContextPrepare lane slot => decide (lane < 72) && decide (slot < 33554432)
  | .checkerMismatch stand lane => decide (stand < 8) && decide (lane < 72)
  | .checkerKatDone stand _ _ => decide (stand < 8)
  | .checkerReseed stand => decide (stand < 8)
  | .laneFailure lane _ => decide (lane < 72)
  | .spareLaneKatDone lane _ => decide (lane < 72)
  | .hucBlockDone stand => decide (stand < 8)
  | .hucFailure stand => decide (stand < 8)
  | .engineEnd ctx _ => decide (ctx < 8192)
  | .deadlineExpiry ctx => decide (ctx < 8192)
  | .contextWaitSatisfied ctx => decide (ctx < 8192)
  | .contextDrained ctx => decide (ctx < 8192)
  | .completionPost ctx => decide (ctx < 8192)
  | .dgeCtrlConfig g _ _ => decide (g < 16)
  | .dgeAbort g _ => decide (g < 16)
  | .dgeKeyClr g _ => decide (g < 16)
  | .dgeRelease0 g _ => decide (g < 16)
  | .dgeSave g _ => decide (g < 16)
  | .dgeRestore g _ => decide (g < 16)
  | .dgeSaveDone g => decide (g < 16)
  | .dgeData g _ _ => decide (g < 16)
  | .dgeLastw g _ _ => decide (g < 16)
  | .dgeKeydata g _ _ => decide (g < 16)
  | .dgeKeyhandle g _ _ => decide (g < 16)
  | .dgeKeyLoaded g => decide (g < 16)
  | .dgeMessageDone g => decide (g < 16)
  | .dgeFault g => decide (g < 16)
  | .wmaGo core rs1 unit => decide (core < 72) && decide (rs1 < 32) && decide (unit < 32)
  | .wmaWait core rd => decide (core < 72) && decide (rd < 32)
  | .wmaCmdStart unit => decide (unit < 16)
  | .wmaCmdDone unit => decide (unit < 16)
  | .wmaFault unit => decide (unit < 16)
  | .seedbankHealthFail bank _ => decide (bank < 9)
  | .seedbankWindowClose bank _ => decide (bank < 9)
  | .seedbankFreqGate bank _ => decide (bank < 8)
  | .seedbankStartupDone bank _ => decide (bank < 9)
  | .seedbankConfig mb => wfMb mb
  | .seedbankStatus mb => wfMb mb
  | .seedbankGaugeUpdate bank _ _ => decide (bank < 8)
  | .sbkPortReq stand master _ _ => decide (stand < 8) && decide (master < 256)
  | .sbkPortCancel stand master => decide (stand < 8) && decide (master < 256)
  | .sbkPortRequestDone stand => decide (stand < 8)
  | .queueCreate mb => wfMb mb
  | .queueDestroy mb => wfMb mb
  | .queueQuery mb => wfMb mb
  | .qmgSqTail fn qid _ => wfQid fn qid
  | .qmgCqHead fn qid _ => wfQid fn qid
  | .sqFetch fn qid => wfQid fn qid
  | .cqCoalTimer fn qid => wfQid fn qid
  | .msixUnmask fn _ => wfFn fn
  | .jringSetup mb => wfMb mb
  | .jringStop mb => wfMb mb
  | .qmgJrPost p _ => decide (p < 4)
  | .qmgJrEvhead p _ => decide (p < 4)
  | .qmgJrAck p _ => decide (p < 4)
  | .jringInputBlock => true
  | .doeRequest p _ => decide (p < 4)
  | .ideTlpFail link stream => decide (link < 2) && decide (stream < 17)
  | .tdispMessage n _ => decide (n < 4096)
  | .pfmDoorbell p m _ _ => decide (p < 4) && decide (m < 8)
  | .vfmDoorbell n _ _ => decide (n < 4096)
  | .mailboxAccept mb => wfMb mb
  | .mailboxDeadlineExpiry mb => wfMb mb
  | .deviceIdentify mb => wfMb mb
  | .deviceStatus mb => wfMb mb
  | .deviceEvidence mb => wfMb mb
  | .reqidQuery mb => wfMb mb
  | .checkpointEpoch => true
  | .wardenHeartbeat => true
  | .wardenFailover => true
  | .standbyResumed => true
  | .standbyResumeTimeout => true
  | .heartbeatTimeout => true
  | .pairReloadDone _ => true
  | .gcmEnc ctx => decide (ctx < 8192)
  | .gcmDec ctx => decide (ctx < 8192)
  | .gmacGen ctx => decide (ctx < 8192)
  | .gmacVer ctx => decide (ctx < 8192)
  | .ctr ctx => decide (ctx < 8192)
  | .cmacGen ctx => decide (ctx < 8192)
  | .cmacVer ctx => decide (ctx < 8192)
  | .hash ctx => decide (ctx < 8192)
  | .hmacGen ctx => decide (ctx < 8192)
  | .hmacVer ctx => decide (ctx < 8192)
  | .wrap ctx => decide (ctx < 8192)
  | .unwrap ctx => decide (ctx < 8192)
  | .sign ctx => decide (ctx < 8192)
  | .verify ctx => decide (ctx < 8192)
  | .agree ctx => decide (ctx < 8192)
  | .derive ctx => decide (ctx < 8192)
  | .random ctx => decide (ctx < 8192)
  | .tally ctx => decide (ctx < 8192)
  | .pinXlate ctx => decide (ctx < 8192)
  | .legacyMac ctx => decide (ctx < 8192)
  | .frameReceive port _ => decide (port < 32)
  | .frameTxClassify port => decide (port < 32)
  | .frameRelease pos => decide (pos < 8)
  | .frameRingTx fn ring => wfQid fn ring
  | .ethLinkUp port => decide (port < 32)
  | .ethLinkDown port => decide (port < 32)
  | .portConfig mb => wfMb mb
  | .portSet mb => wfMb mb
  | .portStatus mb => wfMb mb
  | .portRetrain mb => wfMb mb
  | .secyCreate mb => wfMb mb
  | .secySet mb => wfMb mb
  | .secyDestroy mb => wfMb mb
  | .scAdd mb => wfMb mb
  | .scRemove mb => wfMb mb
  | .saAdd mb => wfMb mb
  | .saRemove mb => wfMb mb
  | .saDrained sa => decide (sa < 131072)
  | .saSwitch mb => wfMb mb
  | .saSet mb => wfMb mb
  | .macsecStats mb => wfMb mb
  | .frameRingCreate mb => wfMb mb
  | .instruction core _ => decide (core < 72)
  | .trap core _ _ => decide (core < 72)
  | .interruptTaken core => decide (core < 72)
  | .mret core => decide (core < 72)
  | .wfi core => decide (core < 72)
  | .gateCall core rd rs1 rs2 => decide (core < 72) && decide (rd < 32) && decide (rs1 < 32) && decide (rs2 < 32)
  | .gateRet core rs1 rs2 => decide (core < 72) && decide (rs1 < 32) && decide (rs2 < 32)
  | .gateTake core _ => decide (core < 72)
  | .mgateCancel core _ => decide (core < 72)
  | .gateRandom _ => true
  | .gateCounterCreate _ => true
  | .gateCounterInc _ => true
  | .gateCounterRead _ => true
  | .keyOp _ => true
  | .keyInfo _ => true
  | .yield core => decide (core < 72)
  | .exit core => decide (core < 72)
  | .time core => decide (core < 72)
  | .wait core => decide (core < 72)
  | .dgeAcquire core => decide (core < 72)
  | .dgeRelease core => decide (core < 72)
  | .notifyReturn core => decide (core < 72)
  | .self core => decide (core < 72)
  | .appletSliceEnd core => decide (core < 72)
  | .scrub core _ => decide (core < 72)
  | .scrubDone core => decide (core < 72)
  | .coreFailure core => decide (core < 72)
  | .bankTestDone core _ => decide (core < 72)
  | .spareCoreBootDone core _ => decide (core < 72)
  | .watchdogKick core => decide (core < 72)
  | .watchdogExpiry core => decide (core < 72)
  | .appletTrust mb => wfMb mb
  | .appletLoad mb => wfMb mb
  | .appletStart mb => wfMb mb
  | .appletStop mb => wfMb mb
  | .appletStopGraceExpiry _ => true
  | .appletUnload mb => wfMb mb
  | .appletQuery mb => wfMb mb
  | .gladeStatus mb => wfMb mb
  | .vfBind mb => wfMb mb
  | .vfUnbind mb => wfMb mb
  | .vfQuery mb => wfMb mb
  | .vfSetLimits mb => wfMb mb
  | .vfGrant mb => wfMb mb
  | .vfRevoke mb => wfMb mb
  | .vfGrants mb => wfMb mb
  | .vfQuiesce mb => wfMb mb
  | .vfQuiesceComplete n => decide (n < 4096)
  | .vfResume mb => wfMb mb
  | .vfFreeze mb => wfMb mb
  | .vfFreezeComplete n => decide (n < 4096)
  | .vfThaw mb => wfMb mb
  | .vfPrepare mb => wfMb mb
  | .vfSave mb => wfMb mb
  | .vfRestore mb => wfMb mb
  | .worldmapWrite mb => wfMb mb
  | .worldmapRead mb => wfMb mb
  | .acuCommit acu => decide (acu < 16)
  | .imageStage mb => wfMb mb
  | .imageQuery mb => wfMb mb
  | .updateApply mb => wfMb mb
  | .updateStatus mb => wfMb mb
  | .updateAbandon mb => wfMb mb
  | .imageCommit mb => wfMb mb
  | .wardenHandover mb => wfMb mb
  | .handoverStepDone _ => true
  | .probationEnd => true
  | .serviceCoreSwitched core _ => decide (core < 72)
  | .gladeMonitorSwitched core _ => decide (core < 72)
  | .calibrate mb => wfMb mb
  | .calQuery mb => wfMb mb
  | .hwdRestartReq _ => true
  | .restartStageDone => true
  | .restartTimeout => true
  | .lcNonce mb => wfMb mb
  | .lcTransition mb => wfMb mb
  | .lcResume mb => wfMb mb
  | .lcAnchorRefresh mb => wfMb mb
  | .debugGrant mb => wfMb mb
  | .debugStatus mb => wfMb mb
  | .debugRevoke mb => wfMb mb
  | .hwdDbgCtrlNew => true
  | .hwdDbgCtrlRevoke => true
  | .tapReset => true
  | .extest _ => true
  | .samplePreload _ => true
  | .idcode => true
  | .clamp => true
  | .highz => true
  | .bypass => true
  | .dbgNonce => true
  | .dbgToken _ => true
  | .dbgAccess _ => true
  | .dbgStatus => true
  | .tpScan _ => true
  | .lookoutEvent source _ _ => wfSource source
  | .lookoutReset => true
  | .meshCheck mesh _ _ => decide (mesh < 3)
  | .loopCheck _ _ _ => true
  | .sourceRearm source => wfSource source
  | .freezeHoldExpiry source => wfSource source
  | .secondsTick => true
  | .secondsFloorWrite => true
  | .svoutRampEnd _ => true
  | .svoutRetryTimer => true
  | .svoutCollapse => true
  | .lookoutConfig mb => wfMb mb
  | .lookoutQuery mb => wfMb mb
  | .lookoutRelease mb => wfMb mb
  | .svoutCtrl mb => wfMb mb
  | .faultReport _ _ => true
  | .firebreakSelfCheck => true
  | .serviceFaultClear kind => decide (kind < 8)
  | .pllRelockAttempt _ _ => true
  | .fbAliveToggle => true
  | .hbmError _ _ => true
  | .wearIndexUpdate stand => decide (stand < 8)
  | .firebreakQuery mb => wfMb mb
  | .firebreakConfig mb => wfMb mb
  | .firebreakInject mb => wfMb mb
  | .fbkInjectGo p _ _ => decide (p < 4)
  | .forceLow p _ => decide (p < 4)
  | .logRecordQueue _ _ _ => true
  | .logRecordProgrammed => true
  | .logPageOpen => true
  | .trlVectorSend p => decide (p < 4)
  | .logStatus mb => wfMb mb
  | .logExport mb => wfMb mb
  | .logAck mb => wfMb mb
  | .logClear mb => wfMb mb
  | .meterFlush => true
  | .meterStatus mb => wfMb mb
  | .meterClose mb => wfMb mb
  | .meterRead mb => wfMb mb
  | .meterSetUtc mb => wfMb mb
  | .meterConfig mb => wfMb mb
  | .dozeEntry stand => decide (stand < 8)
  | .standWake stand _ => decide (stand < 8)
  | .standWakeDone stand => decide (stand < 8)
  | .powerWatch mb => wfMb mb
  | .powerConfig mb => wfMb mb
  | .watchAbortPoint point => decide (point < 4)
  | .watchEntryTimeout => true
  | .wakeIn => true
  | .i2cAddressMatch _ => true
  | .wakeTimer => true
  | .wakeStepDone => true
  | .wakeTimeout => true
  | .i2cTimeout => true
  | .setEndpointId _ => true
  | .getEndpointId => true
  | .getEndpointUuid => true
  | .getMctpVersionSupport => true
  | .getMessageTypeSupport => true
  | .getVendorDefinedMsgSupport => true
  | .getStatus => true
  | .getSensors => true
  | .getStands => true
  | .getLogTail _ => true
  | .spdmOverMctp _ => true
  | .kcwAssign mb => wfMb mb
  | .kcwRelease mb => wfMb mb
  | .kcwMap mb => wfMb mb
  | .kcwQuery mb => wfMb mb
  | .kcwData w _ => decide (w < 16)
  | .kcwReset w => decide (w < 16)
  | .kcwIdent w => decide (w < 16)
  | .kcwEncrypt w => decide (w < 16)
  | .kcwDecrypt w => decide (w < 16)
  | .kcwMacGen w => decide (w < 16)
  | .kcwMacVer w => decide (w < 16)
  | .kcwPinXlate w => decide (w < 16)
  | .kcwRandom w => decide (w < 16)
  | .kcwKeyCheck w => decide (w < 16)
  | .kcwUseQuery w => decide (w < 16)
  | .kcwGenerateKey w => decide (w < 16)
  | .kcwLoadComponents w => decide (w < 16)
  | .kcwImportKey w => decide (w < 16)
  | .kcwExportKey w => decide (w < 16)
  | .kcwDeleteKey w => decide (w < 16)
  | .kcwSetClock w => decide (w < 16)
  | .entropyWaitExpiry who => wfWaiter who
  | .hostReadCompletion r _ _ => wfRead r
  | .pcieCompletionTimeout r => wfRead r
  | .perstDeassert link => decide (link < 2)
  | .pcieLinkUp p _ _ _ => decide (p < 4)
  | .vfEnableSet p => decide (p < 4)
  | .busMasterEnableSet fn => wfFn fn
  | .atsInvalidateRequest fn _ _ => wfFn fn
  | .backupDomainLoss => true

end Sys2Proof
end

