-- ==== Sys2Proof/Certificates/Slice0/Obligations.lean ====
section
/-! DEFINITION. The statements made of the model: what each command of the block does, how it ends, what it leaves alone, and what every step keeps. -/

open Sys2Proof Sys2Proof.Machine Sys2Proof.Safety

/-- One step runs the command at the front of the queue, by exec, on the state with the queue's rest. -/
def Obligations.StepRunsTheFrontCommand : Prop :=
  ∀ (c : Instr) (rest : List Instr) (s : State), s.pending = c :: rest → step s = exec c (s.withQueue rest)

/-- With no command waiting the block goes on: the model's clock counts one microsecond and nothing else changes (the model's choice, log entry 3). -/
def Obligations.EmptyQueueIdles : Prop :=
  ∀ s : State, s.pending = [] → step s = .next { s with us := s.us + 1 }

/-- Commands run first in, first out: a step takes the front command away, whatever the command does, and neither adds nor drops another; no command moves the model's clock. -/
def Obligations.QueueIsFirstInFirstOut : Prop :=
  ∀ (c : Instr) (rest : List Instr) (s t : State), s.pending = c :: rest → step s = .next t → t.pending = rest ∧ t.us = s.us

/-- Every step keeps the COMMIT partition legal, and wear goes one way: no page stands twice among the ring and the spares, every page is one of the 640, at most 32 records stand in the page in use, and a page is in use unless commits have stopped; U, the usable pages, never grows, and no page's erase count falls (R539, R540). -/
def Obligations.CommitPartitionStaysLegal : Prop :=
  ∀ s t : State, CommitWf s.commit → step s = .next t → CommitWf t.commit ∧ CommitLe s.commit t.commit

/-- Reset leaves the registers at the values their tables give (Sapwood, stand, digest, Seedbank, core, access-control, capability, power, Firebreak and queue registers), no command waiting, no queue, mailbox request, context or key; and the invariants of the other statements hold: a legal COMMIT partition and every memory in canonical form. Where a table says loaded, nothing is stated. -/
def Obligations.ResetLeaves : Prop :=
  State.reset.pending = [] ∧ CommitWf State.reset.commit ∧ MemoriesWf State.reset ∧ State.reset.host.queues = [] ∧ State.reset.mbox = [] ∧
  State.reset.ctxs = [] ∧ State.reset.store.c.keys = [] ∧ State.reset.store.sap = [] ∧
  (∀ p, p < 4 →
    [0x00, 0x04, 0x14, 0x20, 0x24, 0x280, 0x284, 0x288, 0x290, 0x294].map (fun o => pfWord p o State.reset) =
      [0x09B16412, 0, 0, 0, 0, 0, 0, 0, 0, 0].map some ∧
    [0x8000, 0x8004, 0x8008, 0x800C, 0x8010].map (fun o => pfWord p o State.reset) = [0, 0x05080000, 0xFFFFFFFF, 0xFFFFFFFF, 0xFFFF].map some ∧
    [0x30000, 0x30004, 0x30008, 0x3000C, 0x30014].map (fun o => pfWord p o State.reset) = [0, 0, 0, 0, 0x00FF03E8].map some ∧
    [0x40000, 0x40004, 0x40008, 0x40020, 0x40028, 0x40030, 0x40038, 0x40080, 0x40100].map (fun o => pfWord p o State.reset) =
      [0, 0, 0, 0, 0, 0, 0, 0, 0x000FFF00].map some ∧
    [0x100800, 0x101008, 0x101010, 0x200000, 0x204000, 0x1001008, 0x1001408].map (fun o => pfWord p o State.reset) = [0, 0, 0, 0, 0, 0, 0].map some) ∧
  (∀ m, m < 72 →
    [0x0C800000, 0x0C800004, 0x0C800008, 0x0C80000C, 0x0C800010].map (fun x => internalWord m x State.reset) = [0x80A, 0x64, 0, 0, 0].map some ∧
    [0x0D000000, 0x0D200000, 0x0D300000, 0x0D300004, 0x0D300008, 0x0D300018].map (fun x => internalWord m x State.reset) =
      [3, 0, 0x802, 8, 0x00200000, 0x20].map some ∧
    [0x0D500000, 0x0D500004, 0x0D500010, 0x0D600000, 0x0D600004, 0x0D700008].map (fun x => internalWord m x State.reset) =
      [1, 1, 0, 0x100000, 0, 0].map some ∧
    [0x0D800000, 0x0D900000, 0x0D900004, 0x0D900008, 0x0DA00000, 0x0E000104].map (fun x => internalWord m x State.reset) = [0, 0x40, 0, 0, 0, 0].map some ∧
    coreLocalWord m 0x1030 State.reset = some (2 ^ 31) ∧ coreLocalWord m 0x1040 State.reset = some 0x640000)

/-- No command is ever refused: one that names only units the device has answers a next state in every state, whatever the command; any other answers a next state or the fault that says so. -/
def Obligations.NoCommandIsRefused : Prop :=
  ∀ (c : Instr) (s : State), (WellFormed c = true → ∃ t, exec c s = .next t) ∧ ((∃ t, exec c s = .next t) ∨ exec c s = .fault .noSuchUnit)

/-- The mode is the first row of R39's table whose condition holds, and SEEDLING stays until a cold start (R35); a change of mode keeps the mode it left, counts, and touches only the mode, FORCE_LOW, the log, the host side and the applets' notifications (R39, R40). -/
def Obligations.ModeIsTheFirstRow : Prop :=
  ∀ s : State,
    (lcIs s .scrapped = true → chooseMode s = 12) ∧
    (lcIs s .scrapped = false → s.fbk.fatal = true → chooseMode s = 8) ∧
    (lcIs s .scrapped = false → s.fbk.fatal = false → s.start.clearcutLatch = true → chooseMode s = 9) ∧
    (lcIs s .scrapped = false → s.fbk.fatal = false → s.start.clearcutLatch = false →
      (s.start.seedling.isSome = true ∨ lcIs s .invalid = true ∨ s.mode.mode = 7) → chooseMode s = 7) ∧
    (s.fbk.fatal = false → s.start.clearcutLatch = false → s.start.seedling.isSome = false → s.mode.mode ≠ 7 →
      (lcIs s .returned = true → chooseMode s = 11) ∧ (lcIs s .blank = true → chooseMode s = 1) ∧ (lcIs s .test = true → chooseMode s = 2) ∧
      (lcIs s .personalise = true → chooseMode s = (if inWatch s then 10 else 3)) ∧
      (lcIs s .production = true →
        chooseMode s = (if inWatch s then 10 else if updating s then 6 else if degraded s then 5 else 4))) ∧
    (s.mode.chosen = true → chooseMode s ≠ s.mode.mode →
      (refreshMode s).mode.mode = chooseMode s ∧ (refreshMode s).mode.prev = s.mode.mode ∧ (refreshMode s).mode.count = s.mode.count + 1 ∧
      (refreshMode s).store = s.store ∧ (refreshMode s).units = s.units ∧ (refreshMode s).mbox = s.mbox) ∧
    (chooseMode s = s.mode.mode → refreshMode s = s)

/-- World map, tags and access control: WORLDMAP_WRITE answers a bad map's FAULT, sent directly asks for its quorum, and approved puts the map with the next MAP_GEN into the copy not in force; WORLDMAP_READ answers the map in force or the pending one; ACU_COMMIT takes over every shadowed region at once; a tag is built from its master's own state: OWNER of a context's traffic from the context, PRIV and OWNER of a core from its mode and its owner register, PRIV and WORLD of every master with rights of its own from the table of R424; a transaction with a broken tag is FATAL and not performed, a refused one is counted and not performed, a permitted write stores its bytes, one that crosses 4 KiB is no access (R19, R22, R416, R417, R420, R424, R426, R431, R435, R436). Completes: worldmapWrite, quorumExecute, worldmapRead, acuCommit, fabricTransaction. -/
def Obligations.WorldMapAndFabricComplete : Prop :=
  (∀ (mb : Mb) (q : Req) (s : State),
    (∀ f, Accepted mb 0x0A30 q s → writeFault (padTo 0x840 q.body) = some f →
      Ends (.worldmapWrite mb) s mb { status := 0x0103, body := leBytes 1 f } s) ∧
    (Accepted mb 0x0A30 q s → writeFault (padTo 0x840 q.body) = none → policySuspended 0x0A30 ((adminOf 0 s).getD 0) s = false →
      Ends (.worldmapWrite mb) s mb { status := 0x0301 } s) ∧
    (∀ a, Approved mb 0x0A30 q a s → writeFault (padTo 0x840 a.req.body) = none →
      ∃ t, exec (.quorumExecute mb) s = .next t ∧
        (if s.world.source == .flash && s.world.inA then
          t.world.copyB = .valid (mapOf (padTo 0x840 a.req.body) (s.world.map.gen + 1)) ∧ t.world.copyA = s.world.copyA
         else t.world.copyA = .valid (mapOf (padTo 0x840 a.req.body) (s.world.map.gen + 1)) ∧ t.world.copyB = s.world.copyB) ∧
        t.world.map = s.world.map ∧ t.host.mem = s.host.mem) ∧
    (Accepted mb 0x0A31 q s → 1 < fld q.body 0 1 → Ends (.worldmapRead mb) s mb { status := 0x0103 } s) ∧
    (Accepted mb 0x0A31 q s → fld q.body 0 1 = 0 →
      Ends (.worldmapRead mb) s mb { body := signedMap s.world.map (s.world.source == .flash) s } s) ∧
    (∀ m, Accepted mb 0x0A31 q s → fld q.body 0 1 = 1 → pendingMap s = some m → Ends (.worldmapRead mb) s mb { body := signedMap m true s } s) ∧
    (Accepted mb 0x0A31 q s → fld q.body 0 1 = 1 → pendingMap s = none → Ends (.worldmapRead mb) s mb { status := 0x0606 } s)) ∧
  (∀ (acu : Nat) (s : State), acu < 16 → exec (.acuCommit acu) s = .next (setAcu acu { getAcu acu s with regions := (getAcu acu s).shadow } s)) ∧
  (∀ (t : FabricTag) (target x : Nat) (d : Bytes) (s : State), target < 16 → d ≠ [] →
    (4096 < x % 4096 + d.length → exec (.fabricTransaction t target (.write x d)) s = .next s) ∧
    (∀ k i, x % 4096 + d.length ≤ 4096 → (8 ≤ target ∨ standHolds target s = false) → k = builtTag t s → i = (issue k target s).2 →
      (integrityOk k target i = false →
        ∃ u, exec (.fabricTransaction t target (.write x d)) s = .next u ∧ (getAcu target u).integrity = true ∧
          (getAcu target u).count = (getAcu target s).count + 1 ∧ u.fbk.fatal = true ∧ (s.fbk.fatal = true → u.units.fab = s.units.fab)) ∧
      (integrityOk k target i = true →
        (∀ p n b, judge k target x d.length true false (acceptSeq k target i) = .refused p n b → 0x188 ≤ k.master →
          ∃ u, exec (.fabricTransaction t target (.write x d)) s = .next u ∧ (getAcu target u).count = (getAcu target s).count + 1 ∧
            ((getAcu target s).valid = false → (getAcu target u).valid = true ∧ (getAcu target u).addr = b ∧ (getAcu target u).tag = tagWord k ∧
              (getAcu target u).write = true ∧ (getAcu target u).part = p ∧ (getAcu target u).parts = n) ∧
            ((getAcu target s).valid = true → (getAcu target u).addr = (getAcu target s).addr ∧ (getAcu target u).tag = (getAcu target s).tag) ∧
            u.units.fab = s.units.fab ∧ u.store = s.store) ∧
        (judge k target x d.length true false (acceptSeq k target i) = .ok → rowOf target x = .buffers → s.fbk.poisoned.contains (x / 4096) = false →
          exec (.fabricTransaction t target (.write x d)) s = .next (fabWrite x d (acceptSeq k target i)))))) ∧
  (∀ (t k : FabricTag) (target x n : Nat) (s i : State), target < 16 → 8 ≤ target → 0 < n → x % 4096 + n ≤ 4096 → k = builtTag t s →
    i = (issue k target s).2 → integrityOk k target i = true → judge k target x n false false (acceptSeq k target i) = .ok →
    pagePoisoned target x s = false → exec (.fabricTransaction t target (.read x n)) s = .next (acceptSeq k target i)) ∧
  (∀ (t : FabricTag) (s : State) (c : Ctx), ctxBound t.opclass = true → 0x100 ≤ t.master → t.master < 0x180 → getCtx t.ctx s = some c →
    issuedClass (ownRights t) s = t.opclass → builtTag t s = { ownRights t with owner := c.owner }) ∧
  (∀ (t : FabricTag) (s : State) (p : Bool), fixedPriv t.master = some p → (builtTag t s).priv = p) ∧
  (∀ (t : FabricTag) (s : State), fixedT t.master = true → (builtTag t s).worldU = false) ∧
  (∀ (t : FabricTag) (s : State), t.master < 72 → (builtTag t s).priv = !(getCore t.master s).user ∧
    (coreU t.master s = true → (builtTag t s).owner = (getCore t.master s).owner.getD 0))

/-- Registers, evidence and the debug gate: a write of ones clears events of an open BAR, a closed one ignores a write, and the BARs of a running TDI ignore one without the TEE bit; a mailbox request buffer takes any width; a core in M-mode writes its timer; DEVICE_EVIDENCE writes the signed evidence of the nonce and answers its length; the debug gate loads BYPASS with no enable, halts and reads a core under its world's enable and answers NOT_ENABLED otherwise; an access to a gated stand is held until it wakes, and then goes on (R7, R235, R238, R240, R264, R350, R449, R489, R490, R582). Completes: registerWrite, deviceEvidence, dbgAccess, standWake, standWakeDone. -/
def Obligations.RegistersAndDebugComplete : Prop :=
  (∀ (fn : Fn) (v : Nat) (s : State), fnOk fn = true →
    (∀ p, fn = .pf p →
      (barOpen fn s = true → exec (.registerWrite (.pfBar0 p) 0x14 4 v) s =
        .next (modFn fn (fun f => { f with events := f.events &&& ~~~ BitVec.ofNat 32 v }) s)) ∧
      (barOpen fn s = false → ∀ off n, exec (.registerWrite (.pfBar0 p) off n v) s = .next s ∧ exec (.registerWrite (.pfBar2 p) off n v) s = .next s) ∧
      (barOpen fn s = true → ∀ m o n, m < 8 → o + n ≤ 0x1000 → 0 < n →
        exec (.registerWrite (.pfBar0 p) (0x10000 + 0x4000 * m + o) n v) s =
          .next (setMb (.pf p m) { getMb (.pf p m) s with buf := memWriteN (getMb (.pf p m) s).buf o (leBytes n v) } s))) ∧
    (∀ k, fn = .vf k →
      (barOpen fn s = true → exec (.registerWrite (.vfBar0 k) 0x1C 4 v) s =
        .next (modFn fn (fun f => { f with events := f.events &&& ~~~ BitVec.ofNat 32 v }) s)) ∧
      (barOpen fn s = false → ∀ off n, exec (.registerWrite (.vfBar0 k) off n v) s = .next s ∧ exec (.registerWrite (.vfBar2 k) off n v) s = .next s) ∧
      (barOpen fn s = true → ∀ o n, o + n ≤ 0x400 → 0 < n →
        exec (.registerWrite (.vfBar0 k) (0x1000 + o) n v) s =
          .next (setMb (.vf k) { getMb (.vf k) s with buf := memWriteN (getMb (.vf k) s).buf o (leBytes n v) } s)) ∧
      (∀ off n, tgetD s.host.tdis k .unlocked = .run → exec (.registerWrite (.vfPlain k false) off n v) s = .next s ∧
        exec (.registerWrite (.vfPlain k true) off n v) s = .next s) ∧
      (∀ off n, tgetD s.host.tdis k .unlocked ≠ .run → exec (.registerWrite (.vfPlain k false) off n v) s = exec (.registerWrite (.vfBar0 k) off n v) s ∧
        exec (.registerWrite (.vfPlain k true) off n v) s = exec (.registerWrite (.vfBar2 k) off n v) s))) ∧
  (∀ (t : FabricTag) (v : Nat) (s : State), t.master < 72 → coreRuns t.master s = true → (getCore t.master s).wfi = false →
    (getCore t.master s).user = false →
    exec (.registerWrite (.internal t) 0x1008 8 v) s = .next (setCore t.master { getCore t.master s with mtimecmp := BitVec.ofNat 64 v } s)) ∧
  (∀ (mb : Mb) (q : Req) (s : State), Accepted mb 0x0103 q s →
    ((evidence (slice q.body 0 32) s).length ≤ fld q.body 0x28 4 → hostOk (mbFn mb) (fld q.body 0x20 8) (evidence (slice q.body 0 32) s).length s = true →
      Ends (.deviceEvidence mb) s mb { body := leBytes 4 (evidence (slice q.body 0 32) s).length }
        (hostWrite (fld q.body 0x20 8) (evidence (slice q.body 0 32) s) s)) ∧
    (fld q.body 0x28 4 < (evidence (slice q.body 0 32) s).length → ∃ st, Ends (.deviceEvidence mb) s mb { status := st } s)) ∧
  (∀ (a : DebugAccess) (s : State),
    (s.lc.enables = 0 → exec (.dbgAccess a) s = .next { s with lc.ir := 0xFF, lc.dr := 0, lc.drive := .normal }) ∧
    (∀ core, s.lc.enables ≠ 0 → core < 72 → coreActive core s = true →
      (coreInvasive core s = true →
        (a = .halt core → ∃ t, exec (.dbgAccess a) s = .next t ∧ t.lc.halted = addNew s.lc.halted core ∧ t.lc.dbgResult = 0 ∧ t.cores = s.cores) ∧
        (a = .resume core → ∃ t, exec (.dbgAccess a) s = .next t ∧ t.lc.halted = without s.lc.halted core ∧ t.lc.dbgResult = 0 ∧ t.cores = s.cores) ∧
        (∀ r, a = .readReg core r → r < 32 → s.lc.halted.contains core = true →
          ∃ t, exec (.dbgAccess a) s = .next t ∧ t.lc.dbgResult = 0 ∧ t.lc.dbgData = getX core r s ∧ t.cores = s.cores) ∧
        (∀ r v, a = .writeReg core r v → r < 32 → s.lc.halted.contains core = true →
          ∃ t, exec (.dbgAccess a) s = .next t ∧ t.lc.dbgResult = 0 ∧ t.cores = (setX core r v s).cores)) ∧
      (coreInvasive core s = false → (a = .halt core ∨ a = .resume core) →
        ∃ t, exec (.dbgAccess a) s = .next t ∧ t.lc.dbgResult = 3 ∧ t.lc.halted = s.lc.halted ∧ t.cores = s.cores))) ∧
  (∀ (st : Nat) (h : HeldAccess) (s : State), st < 8 →
    (standHolds st s = true → exec (.standWake st h) s =
      .next { s with pwr.waking := tset s.pwr.waking st (tgetD s.pwr.waking st [] ++ [h]) }) ∧
    (standHolds st s = false → exec (.standWake st h) s = .next s) ∧
    (∀ hs, tget s.pwr.waking st = some hs → (∀ x ∈ hs, ∀ t n a, x ≠ .fabric t n a) →
      exec (.standWakeDone st) s = .next (standUp st { s with pwr.waking := tdel s.pwr.waking st })))

/-- A cold start: a stage that completes moves STAGE on with its work (straps, life cycle, the map, the image slot, the Warden, the mode), stages ROOT, CLOCKS and HBM once the noise sources deliver the bits they need (DEDUCED, log entry 174); a start that ends in QUARANTINE is counted as failed; a failed stage or an exceeded time is a new cold start with cause 5 and LAST_STAGE, in stage ROM it halts the device; an ordered cold start keeps flash, COMMIT and log and nothing of the Canopy (R34, R38, R56, R215, R418, R443, R444, R445, R446, R576, R644). Completes: startStageDone, startStageTimeout, coldStartAfterOrder. -/
def Obligations.ColdStartStages : Prop :=
  (∀ s : State, s.start.starting = true → s.start.halted = false → s.pwr.resetLow = false → s.pwr.state ≠ .backup →
    (∀ n, nextStage s = n → 1 ≤ n → n ≤ 13 → n ≠ 8 → (n = 3 → delivers earlyBank s = true) → (n = 5 → entropyOk s = true) →
      (n = 3 ∨ n = 6 → (takeHeart 32 s).1.isSome = true) →
      ∃ t, exec (.startStageDone true) s = .next t ∧ (n ≠ 2 → t.start.stage = n) ∧ (n = 1 → t.pwr.straps = s.pwr.strapPins) ∧
        (n = 2 → t.lc.decoded = lcDecode s.lc ∧ (lcDecode s.lc = .scrapped → t.mode.mode = 12 ∧ t.mode.chosen = true)) ∧
        (n = 3 → ∃ d u, takeHeart 32 s = (some d, u) ∧ t = rebuildRoot d { u with start.stage := 3 } ∧ t.vault.nonce = d) ∧
        (n = 6 → ∃ d u, takeHeart 32 s = (some d, u) ∧ t = deliverKek d { u with start.stage := 6 } ∧ t.vault.wireA = d ∧
          t.vault.wireB = xorBytes s.vault.kek d) ∧
        ((n = 11 ∨ n = 12) → t = { s with start.stage := n }) ∧
        (n = 7 → t.world.map = (chooseMap s.world).1 ∧ t.world.source = (chooseMap s.world).2.1 ∧ t.world.locked = true) ∧
        (n = 9 → t.start.active = 0 ∧ t.start.standby = (if s.start.seedlingFw then .absent else .loading) ∧ t.start.heartbeatAt = s.us) ∧
        (n = 10 → t = { s with start.stage := 10, start.standby := .ready }) ∧
        (n = 13 → t.mode = { mode := chooseMode s, prev := 0, count := 0, chosen := true } ∧ t.start.starting = false ∧ t.log = s.log ∧
          t.start.startFails = (if [4, 5, 6].contains (chooseMode s) then 0
            else if chooseMode s = 8 ∧ s.start.seedlingFw = false ∧ lcDecode s.lc = .production then s.start.startFails + 1 else s.start.startFails))) ∧
    (nextStage s = 3 → delivers earlyBank s = false → exec (.startStageDone true) s = .next s) ∧
    (nextStage s = 5 → entropyOk s = false → exec (.startStageDone true) s = .next s) ∧
    (nextStage s = 8 → s.start.seedlingFw = false →
      (slotPasses s.start.preferred s = true → exec (.startStageDone true) s = .next { s with start.slot := s.start.preferred, start.runW := s.start.preferred, start.runS := s.start.preferred, start.runM := s.start.preferred, start.stage := 8 }) ∧
      (slotPasses s.start.preferred s = false → slotPasses (1 - s.start.preferred) s = true →
        ∃ t, exec (.startStageDone true) s = .next t ∧ t.start.slot = 1 - s.start.preferred ∧ t.start.fallback = true ∧ t.start.stage = 8) ∧
      (slotPasses s.start.preferred s = false → slotPasses (1 - s.start.preferred) s = false → s.fbk.fatal = false →
        ∃ t, exec (.startStageDone true) s = .next t ∧ t.pwr.cause = 5 ∧ t.start.lastStage = s.start.stage ∧ t.start.stage = 0)) ∧
    (∀ n, nextStage s = n → 2 ≤ n → n ≤ 13 → n ≠ 10 → n ≠ 11 → n ≠ 12 → s.fbk.fatal = false →
      ∃ t, exec (.startStageDone false) s = .next t ∧ t.pwr.cause = 5 ∧ t.start.lastStage = s.start.stage ∧ t.start.stage = 0 ∧ t.commit = s.commit ∧
        t.start.startFails = (if s.start.seedlingFw || lcDecode s.lc != .production then s.start.startFails else s.start.startFails + 1)) ∧
    (s.start.stage = 0 → exec (.startStageDone false) s = .next { s with start.halted := true } ∧
      exec .startStageTimeout s = .next { s with start.halted := true }) ∧
    (s.start.stage ≠ 0 → s.fbk.fatal = false → ∃ t, exec .startStageTimeout s = .next t ∧ t.pwr.cause = 5 ∧ t.start.lastStage = s.start.stage ∧ t.start.stage = 0 ∧
      t.commit = s.commit)) ∧
  (∀ (r : LcRun) (s : State), s.lc.run = some r → s.pwr.resetLow = false →
    (lcAlone r s = true → exec .coldStartAfterOrder s = .next (coldReset 4 (lcFinish s)) ∧ (coldReset 4 (lcFinish s)).pwr.cause = 4) ∧
    (lcAlone r s = false → exec .coldStartAfterOrder s = .next s)) ∧
  (∀ (c : Nat) (s : State), s.lc.run = none → s.pwr.orderedCold = some c → s.pwr.resetLow = false → (s.fbk.fatal = false ∨ c = 2) →
    ∃ t, exec .coldStartAfterOrder s = .next t ∧ t.pwr.cause = c ∧ t.start.stage = 0 ∧ t.mode = State.reset.mode ∧ t.commit = s.commit ∧
      t.log = s.log ∧ t.host.mem = s.host.mem ∧ t.store.sap = [] ∧ t.vault = State.reset.vault ∧ t.ctxs = [] ∧ t.mbox = [] ∧ t.start.slotA = s.start.slotA ∧
      t.start.slotB = s.start.slotB)

/-- Warden pairs: an epoch counts and saves the open approvals; a failover to a READY standby is counted and, once it resumes, the roles are swapped and, with no destruction interrupted, accepted commands have their answer; one that does not resume, a heartbeat that stays away, and the firmware's own request order a trusted restart, the third within 600 s in PRODUCTION sets the Seedling latch; the restart goes stage by stage to its end, never past a running image that no longer reads as its header says nor past a world-T multiplier that still runs (R22, R34, R84, R108, R189, R286, R287, R450, R451, R452, R453, R454, R456, R457). Completes: checkpointEpoch, wardenHeartbeat, pairReloadDone, wardenFailover, hwdRestartReq, heartbeatTimeout, standbyResumed, standbyResumeTimeout, restartStageDone, restartTimeout. -/
def Obligations.WardenPairsAndRestart : Prop :=
  (∀ s : State, wardenUp s = true →
    exec .checkpointEpoch s = .next { s with start.epoch := s.start.epoch + 1, cust.saved := s.cust.approvals } ∧
    exec .wardenHeartbeat s = .next { s with start.heartbeatAt := s.us } ∧
    (s.start.standby = .loading → s.start.handStep = 0 →
      exec (.pairReloadDone true) s = .next { s with start.standby := .ready, start.pairFails := 0 } ∧
      ∃ t, exec (.pairReloadDone false) s = .next t ∧ t.start.pairFails = s.start.pairFails + 1 ∧
        t.start.standby = (if 1 ≤ s.start.pairFails then .absent else .loading) ∧ t.store = s.store) ∧
    (s.start.standby = .ready → exec .wardenFailover s =
      .next (restartIssue wardenMaster { s with start.failingOver := true, start.failovers := min 65535 (s.start.failovers + 1) })) ∧
    (∀ r, s.fbk.fatal = false →
      ((lcIs s .production = false ∨ (recentRestarts s).length < 2) →
        ∃ t u, exec (.hwdRestartReq r) s = .next t ∧ exec .heartbeatTimeout s = .next u ∧ t.start.restarting = true ∧ t.start.stage = 0x21 ∧
          t.start.restartReason = r % 65536 ∧ t.start.restarts = min 65535 (s.start.restarts + 1) ∧ t.cust.approvals = [] ∧
          u.start.restarting = true ∧ u.start.stage = 0x21 ∧ u.start.restartReason = 0 ∧ t.store = s.store ∧ u.store = s.store) ∧
      (lcIs s .production = true → 2 ≤ (recentRestarts s).length →
        ∃ t, exec (.hwdRestartReq r) s = .next t ∧ t.start.seedling.isSome = true ∧ t.start.restarting = false ∧ t.start.seedlingFw = true ∧
          t.store.sap = []))) ∧
  (∀ s : State, s.start.failingOver = true →
    (∃ t, exec .standbyResumed s = .next t ∧ t.start.active = 1 - s.start.active ∧ t.start.standby = .loading ∧
      t.start.failingOver = false ∧ t.start.handStep = 0 ∧ t.cust.approvals = s.cust.saved ∧
      (s.start.handStep = 5 → s.start.upd.state = .running → t.start.upd.state = .abandoned ∧ t.start.upd.cause = 3 ∧ t.start.runW = s.start.upd.src) ∧
      ((∀ p ∈ s.store.c.keys, p.2.state ≠ .revoking) → s.store.finishSeq ≤ s.store.committed → ∀ mb q, mbOk mb = true → (getMb mb s).cur = some q → (getMb mb t).cur = none ∧ (getMb mb t).state = .done)) ∧
    (restarting s = false → s.fbk.fatal = false → 9 ≤ s.start.stage → s.pwr.state = .active →
      (lcIs s .production = false ∨ (recentRestarts s).length < 2) →
      ∃ t, exec .standbyResumeTimeout s = .next t ∧ t.start.restarting = true ∧ t.start.stage = 0x21 ∧ t.start.failingOver = false ∧ t.store = s.store)) ∧
  (∀ s : State, restarting s = true → 0x21 ≤ s.start.stage → s.start.stage < 0x27 →
    ((s.start.stage = 0x23 → imagesIntact s = true) → (s.start.stage = 0x25 → wmasIdle s = true) →
      ∃ t, exec .restartStageDone s = .next t ∧ t.start.stage = s.start.stage + 1 ∧ (t.start.restarting = true ↔ s.start.stage ≠ 0x26) ∧
        (s.start.stage = 0x26 → t.start.active = 0 ∧ t.start.standby = (if s.start.seedlingFw then .absent else .ready))) ∧
    (s.start.stage = 0x23 → imagesIntact s = false → exec .restartStageDone s = .next s) ∧
    (s.start.stage = 0x25 → wmasIdle s = false → exec .restartStageDone s = .next s) ∧
    (lcDecode s.lc ≠ .production → lcIs s .production = false → s.start.seedling = none → s.fbk.fatal = false → s.pwr.state = .active →
      ∃ t, exec .restartTimeout s = .next t ∧ t.start.lastStage = s.start.stage ∧ t.start.restarting = true ∧ t.start.stage = 0x21 ∧
        t.start.restarts = min 65535 (s.start.restarts + 1) ∧ t.store = s.store))

/-- Images and updates: IMAGE_STAGE writes a good bundle into the free slot, IMAGE_COMMIT prefers a slot and raises the SVN, UPDATE_APPLY begins, and each asks for its quorum unless a recovery issues it; UPDATE_ABANDON ends a running update with CAUSE 1; the queries answer; WARDEN_HANDOVER and the steps of a handover swap the pairs; probation ends; cores switch one by one; CALIBRATE puts its records in force (R458, R459, R460, R461, R462, R463, R464, R465, R466, R467). Completes: imageStage, imageCommit, quorumExecute, updateApply, calibrate, imageQuery, updateStatus, calQuery, updateAbandon, wardenHandover, handoverStepDone, probationEnd, serviceCoreSwitched, gladeMonitorSwitched. -/
def Obligations.UpdateCommandsComplete : Prop :=
  (∀ (mb : Mb) (q : Req) (a : Approval) (b : Bytes) (n : Nat) (s : State),
    (Accepted mb 0x0A01 q s → imageStageCheck mb q s = none → recovering s = true → stagedBundle mb q s = some b → freeSlot s = some n →
      componentsOk b = true →
      ∃ t, exec (.imageStage mb) s = .next (finishMb mb { body := layout 8 [(0, 1, n), (4, 4, fld b 0x0C 4)] ++ sha384 (b.take 256) } t) ∧
        getSlot n t = { valid := true, intact := true, info := imageInfo (b.take 256) } ∧ t.start.preferred = s.start.preferred ∧ t.store = s.store) ∧
    (Accepted mb 0x0A01 q s → imageStageCheck mb q s = none → recovering s = false → policySuspended 0x0A01 ((adminOf 0 s).getD 0) s = false →
      Ends (.imageStage mb) s mb { status := 0x0301 } s) ∧
    (Accepted mb 0x0A06 q s → imageCommitCheck mb q s = none → recovering s = true →
      ∃ t, exec (.imageCommit mb) s = .next t ∧ t.start.preferred = fld q.body 0 1 ∧ t.pwr.orderedCold = some 6 ∧ t.start.seedling = none ∧
        t.start.deviceSvn = max s.start.deviceSvn (getSlot (fld q.body 0 1) s).info.svn ∧ t.start.startFails = 0 ∧ t.store = s.store) ∧
    (Accepted mb 0x0A06 q s → imageCommitCheck mb q s = none → recovering s = false → policySuspended 0x0A06 ((adminOf 0 s).getD 0) s = false →
      Ends (.imageCommit mb) s mb { status := 0x0301 } s) ∧
    (Approved mb 0x0A06 q a s → imageCommitCheck mb a.req s = none → recovering s = false →
      ∃ t, exec (.quorumExecute mb) s = .next t ∧ t.start.preferred = fld a.req.body 0 1 ∧
        t.start.deviceSvn = max s.start.deviceSvn (getSlot (fld a.req.body 0 1) s).info.svn ∧ t.start.slotA = s.start.slotA ∧
        t.start.slotB = s.start.slotB ∧ t.pwr = s.pwr) ∧
    (Accepted mb 0x0A03 q s → updateApplyCheck mb q s = none → policySuspended 0x0A03 ((adminOf 0 s).getD 0) s = false →
      Ends (.updateApply mb) s mb { status := 0x0301 } s) ∧
    (Approved mb 0x0A03 q a s → updateApplyCheck mb a.req s = none →
      ∃ t, exec (.quorumExecute mb) s = .next t ∧ t.start.upd.comps = fld a.req.body 1 1 % 8 ∧ t.start.upd.dst = fld a.req.body 0 1 ∧
        t.start.upd.src = 1 - fld a.req.body 0 1 ∧ t.start.preferred = s.start.preferred) ∧
    (Accepted mb 0x0A20 q s → calibrateCheck mb q s = none → policySuspended 0x0A20 ((adminOf 0 s).getD 0) s = false →
      Ends (.calibrate mb) s mb { status := 0x0301 } s) ∧
    (Approved mb 0x0A20 q a s → calibrateCheck mb a.req s = none →
      ∃ t, exec (.quorumExecute mb) s = .next t ∧ t.start.calGen = s.start.calGen + 1 ∧
        ((∀ r ∈ calRecords a.req, fld r 0 1 ≠ 4) → t.units.banks = s.units.banks ∧ t.free = s.free) ∧
        (∀ r, fld a.req.body 0 1 = 1 → calRecords a.req = [r] → tget t.start.cal (256 * fld r 0 1 + fld r 1 1) = some r)) ∧
    (Accepted mb 0x0A02 q s → Ends (.imageQuery mb) s mb
      { body := layout 8 [(0, 1, s.start.preferred), (4, 4, s.start.deviceSvn)] ++ slotBytes 0 s ++ slotBytes 1 s } s) ∧
    (Accepted mb 0x0A04 q s → Ends (.updateStatus mb) s mb { body := layout 6 [(0, 4, updateWord s), (4, 1, s.start.upd.src), (5, 1, s.start.upd.dst)] } s) ∧
    (Accepted mb 0x0A21 q s → calIndexOk (fld q.body 0 1) (fld q.body 1 1) = true →
      Ends (.calQuery mb) s mb { body := calRecord (fld q.body 0 1) (fld q.body 1 1) s } s) ∧
    (Accepted mb 0x0A05 q s → s.start.upd.state = .running →
      ∃ t, exec (.updateAbandon mb) s = .next t ∧ t.start.upd.state = .abandoned ∧ t.start.upd.cause = 1 ∧ t.start.preferred = s.start.preferred ∧ t.store = s.store) ∧
    (Accepted mb 0x0A05 q s → s.start.upd.state ≠ .running → Ends (.updateAbandon mb) s mb { status := 0x0606 } s) ∧
    (Accepted mb 0x0A08 q s → wardenHandoverCheck mb q s = none →
      ∃ t, exec (.wardenHandover mb) s = .next t ∧ t.start.handPlain = true ∧ t.start.handStep = 3 ∧ (getMb mb t).wait = .handover ∧ t.store = s.store)) ∧
  (∀ s : State, wardenUp s = true →
    (s.start.handStep = 1 → exec (.handoverStepDone true) s = .next { s with start.handStep := 2 }) ∧
    (s.start.handStep = 2 → exec (.handoverStepDone true) s = .next { s with start.handStep := 3 }) ∧
    (s.start.handStep = 2 → s.start.upd.state = .running →
      ∃ t, exec (.handoverStepDone false) s = .next t ∧ t.start.upd.state = .abandoned ∧ t.start.upd.cause = 2 ∧ t.start.handStep = 0) ∧
    (s.start.handStep = 3 → exec (.handoverStepDone true) s = .next { s with start.handStep := 4 }) ∧
    (s.start.handStep = 4 → ∃ t, exec (.handoverStepDone true) s = .next t ∧ t.start.active = 1 - s.start.active ∧ t.start.runW = handTarget s ∧
      t.start.epoch = s.start.epoch + 1 ∧ t.start.handStep = (if s.start.handPlain || s.start.upd.state == .abandoned then 6 else 5) ∧ t.store = s.store) ∧
    (s.start.handStep = 6 → ∃ t, exec (.handoverStepDone true) s = .next t ∧ t.start.handStep = 0 ∧ t.start.handPlain = false ∧ t.start.standby = .ready ∧
      t.store = s.store) ∧
    (s.start.handStep = 5 → exec .probationEnd s = .next { s with start.handStep := 6, start.standby := .updating }) ∧
    (∀ core, core < 72 → s.start.upd.state = .running → (serviceCores s).contains core = true → serviceTurn s = true →
      s.start.upd.svcDone.contains core = false → (s.ctxs.any (fun p => p.2.state == .running && p.2.core == some core)) = false →
      (s.cores.taken.any (fun g => g.server == some core)) = false → allIn (core :: s.start.upd.svcDone) (serviceCores s) = false →
      ∃ t, exec (.serviceCoreSwitched core true) s = .next t ∧ t.start.upd.svcDone = core :: s.start.upd.svcDone ∧ t.start.runS = s.start.runS ∧
        (getCore core t).state = .idle ∧ t.store = s.store) ∧
    (∀ core, core < 72 → s.start.upd.state = .running → (gladeCores s).contains core = true → compNeeded 2 s = true → compDone 1 s = true →
      s.start.handStep = 0 → s.start.runM ≠ s.start.upd.dst → s.start.upd.monDone.contains core = false →
      (allIn (core :: s.start.upd.monDone) (gladeCores s) = false →
        exec (.gladeMonitorSwitched core true) s = .next { s with start.upd := { s.start.upd with monDone := core :: s.start.upd.monDone } }) ∧
      (allIn (core :: s.start.upd.monDone) (gladeCores s) = true →
        ∃ t, exec (.gladeMonitorSwitched core true) s = .next t ∧ t.start.runM = s.start.upd.dst ∧ t.store = s.store)))

/-- KEY_GENERATE, KEY_IMPORT and KEY_DERIVE: where the checks pass, no quorum is needed, the random bits are there and the wrapping or parent key is in use under its lease, the command goes on and the key it asked for stands in its slot; before, the lease is taken and one use charged (R52, R55, R57, R58, R59, R70). Completes: keyGenerate, keyImport, keyDerive. -/
def Obligations.KeyCreationStoresTheKey : Prop :=
  ∀ (mb : Mb) (q : Req) (s : State) (slot : Nat), canChange s = true →
    (∀ bits u, Accepted mb 0x0301 q s → storeCheck keyGenerateCheck mb q s = none → keyGenerateDesig mb q s = none →
      takeKeyBits (asymmetric (newKeyOf q.body 0).type) (privLen (newKeyOf q.body 0).type (newKeyOf q.body 0).length) s = (some bits, u) →
      placeKey (newKeyOf q.body 0) s = .ok slot → ∃ t, exec (.keyGenerate mb) s = .next t ∧ Created (newKeyOf q.body 0) slot s t) ∧
    (∀ blob, Accepted mb 0x0302 q s → storeCheck keyImportCheck mb q s = none → keyImportDesig mb q s = none → importBlob mb q s = some blob →
      placeKey (importNew q.body) s = .ok slot →
      (fld q.body 0x28 1 = 5 → ∃ t, exec (.keyImport mb) s = .next t ∧ Created (importNew q.body) slot s t) ∧
      (∀ n w m pub r u, fld q.body 0x28 1 ≠ 5 → wrapKey mb (fld q.body 0x20 8) (fld q.body 0 4) (fld q.body 0x28 1) true s = .ok (n, w) →
        KeyInUse mb n w s → importMaterial q w blob = .ok (m, pub) → takeSap m.length s = (some r, u) →
        ∃ t, exec (.keyImport mb) s = .next t ∧ Created (importNew q.body) slot s t)) ∧
    (∀ p key r u, Accepted mb 0x0304 q s → storeCheck keyDeriveCheck mb q s = none → keyDeriveDesig mb q s = none →
      parentKey mb (fld q.body 0 4) (fld q.body 0x10 8) (fld q.body 0x18 1) s = .ok (p, key) → (∀ n k, p = some (n, k) → KeyInUse mb n k s) →
      takeSap (privLen (deriveNew q.body).type (deriveNew q.body).length) s = (some r, u) → placeKey (deriveNew q.body) s = .ok slot →
      ∃ t, exec (.keyDerive mb) s = .next t ∧ Created (deriveNew q.body) slot s t) ∧
    (∀ n k key, Accepted mb 0x0304 q s → NoKeyInUse mb s → storeCheck keyDeriveCheck mb q s = none → keyDeriveDesig mb q s = none →
      parentKey mb (fld q.body 0 4) (fld q.body 0x10 8) (fld q.body 0x18 1) s = .ok (some (n, k), key) → tget s.store.c.keys n = some k →
      pinFits [(n, k)] s = true → useReady k s = true → bitOf k.attr attrUseCount = true → inSapwood n k s = false →
      ∃ t, exec (.keyDerive mb) s = .next t ∧ (getMb mb t).job = some { slot := n, gen := k.gen } ∧ (getMb mb t).cur = some q ∧
        (tget t.store.c.keys n).map (·.uses) = some (k.uses - 1) ∧ t.store.loading.contains (n, k.gen) = true ∧
        ∀ i, i ≠ n → tget t.store.c.keys i = tget s.store.c.keys i)

/-- KEY_DESTROY and KEY_REPLACE make the record REVOKING at once, journal that, and wait for its leases to drain; no other record changes (step 1 of R82). Completes: keyDestroy, keyReplace. -/
def Obligations.KeyDestroyRevokesAtOnce : Prop :=
  ∀ (mb : Mb) (q : Req) (s : State) (slot : Nat) (k : KeyRec),
    resolve (fld q.body 0 8) (mbOwner mb s) s = some (slot, k) → canChange s = true → keyDestroyDesig mb q s = none →
    (Accepted mb 0x0305 q s → storeCheck keyDestroyCheck mb q s = none →
      ∃ t, exec (.keyDestroy mb) s = .next t ∧ (getMb mb t).wait = .drainKey [slot] {} ∧ t.store.nextSeq = s.store.nextSeq + 1 ∧
        tget t.store.c.keys slot = some { k with state := .revoking, replace := false, newUses := 0, drainUs := drainLimit (fld q.body 8 4) s } ∧
        ∀ i, i ≠ slot → tget t.store.c.keys i = tget s.store.c.keys i) ∧
    (Accepted mb 0x0306 q s → storeCheck keyReplaceCheck mb q s = none →
      ∃ t, exec (.keyReplace mb) s = .next t ∧ (getMb mb t).wait = .drainKey [slot] {} ∧ t.store.nextSeq = s.store.nextSeq + 1 ∧
        tget t.store.c.keys slot =
          some { k with state := .revoking, replace := true, newUses := fld q.body 0x0C 4, drainUs := drainLimit (fld q.body 8 4) s } ∧
        ∀ i, i ≠ slot → tget t.store.c.keys i = tget s.store.c.keys i)

/-- KEY_GET_ATTR answers bytes 0x00-0x3F of the record; KEY_EXPORT answers the blob or writes it to host memory, of a public part at once, of private material when the wrapping key is in use under its lease and, in formats 3 and 4, the random bits are there; KEY_SET_ATTR leaves the attributes, uses and policy its request asks for in that record alone and waits for a commit (R59, R61, R79, R87, R88). Completes: keyGetAttr, keyExport, keySetAttr. -/
def Obligations.KeyAttributesAndExport : Prop :=
  ∀ (mb : Mb) (q : Req) (s : State) (slot : Nat) (k : KeyRec), resolve (fld q.body 0 8) (mbOwner mb s) s = some (slot, k) →
    (Accepted mb 0x0307 q s → storeRefuse s = none → Ends (.keyGetAttr mb) s mb { body := recordBytes slot k } s) ∧
    (∀ w blob u, Accepted mb 0x0303 q s → readCheck keyExportCheck mb q s = none → keyExportDesig mb q s = none → exportOf mb q s = .ok (k, w) →
      ((w = none ∧ blob = k.pub ∧ u = s) ∨
        (∃ n x, w = some (n, x) ∧ KeyInUse mb n x s ∧
          ((fld q.body 0x10 1 ≤ 2 ∧ blob = exportBlob (fld q.body 0x10 1) k x [] ∧ u = s) ∨
           (2 < fld q.body 0x10 1 ∧ ∃ bits, takeWarden 64 s = (some bits, u) ∧ blob = exportBlob (fld q.body 0x10 1) k x bits)))) →
      (bitOf (fld q.body 0x14 4) 2 = false →
        Ends (.keyExport mb) s mb { body := leBytes 4 blob.length ++ leBytes 4 0 ++ blob } u) ∧
      (bitOf (fld q.body 0x14 4) 2 = true → hostOk (mbFn mb) (fld q.body 0x18 8) blob.length u = true →
        Ends (.keyExport mb) s mb { body := leBytes 4 blob.length } (hostWrite (fld q.body 0x18 8) blob u))) ∧
    (Accepted mb 0x0308 q s → storeCheck keySetAttrCheck mb q s = none → keySetAttrDesig mb q s = none → canChange s = true →
      ∃ t k' seq r, exec (.keySetAttr mb) s = .next t ∧ (getMb mb t).wait = .commit seq r ∧ seq = s.store.nextSeq ∧
        tget t.store.c.keys slot = some k' ∧ k'.attr = newAttr q.body k ∧ k'.gen = k.gen ∧ k'.invocation = k.invocation ∧
        k'.uses = (if bitOf (fld q.body 0x18 4) 0 then fld q.body 0x10 4 else k.uses) ∧
        k'.policy = (if bitOf (fld q.body 0x18 4) 1 then fld q.body 0x14 4 else k.policy) ∧
        ∀ i, i ≠ slot → tget t.store.c.keys i = tget s.store.c.keys i)

/-- Secure counters: COUNTER_CREATE allocates one at 0, COUNTER_INC adds STEP to it and answers the sum, waiting for a commit where DURABLE asks for it, COUNTER_READ answers its value, COUNTER_DESTROY frees it; no other counter changes (R85, R86). Completes: counterCreate, counterInc, counterRead, counterDestroy. -/
def Obligations.SecureCountersCount : Prop :=
  ∀ (mb : Mb) (q : Req) (s : State), canChange s = true →
    (Accepted mb 0x030C q s → storeCheck counterCreateCheck mb q s = none → bitOf (fld q.body 4 4) 0 = false →
      ∃ n t, exec (.counterCreate mb) s = .next t ∧ tget s.store.c.counters n = none ∧
        (tget t.store.c.counters n).map (fun k => (k.owner, k.value)) = some (fld q.body 0 4, 0) ∧
        (∀ i, i ≠ n → tget t.store.c.counters i = tget s.store.c.counters i) ∧
        (getMb mb t).state = .done ∧ (getMb mb t).resp.drop 32 = leBytes 4 n) ∧
    (∀ k, Accepted mb 0x030D q s → storeCheck counterIncCheck mb q s = none → getCounter (fld q.body 0 4) (mbOwner mb s) s = some k →
      bitOf (fld q.body 8 4) 0 = true →
      ∃ t seq, exec (.counterInc mb) s = .next t ∧ (getMb mb t).wait = .commit seq { body := leBytes 8 (k.value + fld q.body 4 2) } ∧
        (tget t.store.c.counters (fld q.body 0 4)).map (fun x => (x.owner, x.value, x.ceiling)) =
          some (k.owner, k.value + fld q.body 4 2, k.value + fld q.body 4 2) ∧
        ∀ i, i ≠ fld q.body 0 4 → tget t.store.c.counters i = tget s.store.c.counters i) ∧
    (∀ k, Accepted mb 0x030D q s → storeCheck counterIncCheck mb q s = none → getCounter (fld q.body 0 4) (mbOwner mb s) s = some k →
      bitOf (fld q.body 8 4) 0 = false →
      k.value + fld q.body 4 2 < (if k.ceilSeq ≤ s.store.committed then k.ceiling else k.ceilOld) →
      ∃ t, exec (.counterInc mb) s = .next t ∧ (getMb mb t).resp.drop 32 = leBytes 8 (k.value + fld q.body 4 2) ∧
        (tget t.store.c.counters (fld q.body 0 4)).map (fun x => (x.owner, x.value)) = some (k.owner, k.value + fld q.body 4 2) ∧
        ∀ i, i ≠ fld q.body 0 4 → tget t.store.c.counters i = tget s.store.c.counters i) ∧
    (∀ k, Accepted mb 0x030E q s → storeRefuse s = none → getCounter (fld q.body 0 4) (mbOwner mb s) s = some k →
      Ends (.counterRead mb) s mb { body := leBytes 8 k.value } s) ∧
    (Accepted mb 0x030F q s → storeCheck counterCheck mb q s = none →
      ∃ t, exec (.counterDestroy mb) s = .next t ∧ tget t.store.c.counters (fld q.body 0 4) = none ∧
        (∀ i, i ≠ fld q.body 0 4 → tget t.store.c.counters i = tget s.store.c.counters i) ∧ (getMb mb t).state = .done)

/-- STORE_STATUS answers the store's state; STORE_COMMIT takes its interval and, with nothing uncommitted or no COMMIT_NOW, answers COMMITTED; STORE_RECOVER turns the ring to input; COMMIT_PERIODIC starts a commit of what the host has acknowledged, COMMIT_BUCKET_REFILL adds a token, COMMIT_DONE advances COMMIT_NO and COMMITTED, JOURNAL_PAGE_SWEEP captures a page as the next block (R75, R76, R77, R78, R80, R87). Completes: storeStatus, storeCommit, storeRecover, commitPeriodic, commitBucketRefill, commitDone, journalPageSweep. -/
def Obligations.StoreCommandsComplete : Prop :=
  (∀ (mb : Mb) (q : Req) (s : State), Accepted mb 0x030A q s →
    Ends (.storeStatus mb) s mb { body := layout 40 [(0, 1, storeCode s.store.state), (2, 2, usablePages s), (8, 8, s.store.head),
      (0x10, 8, s.store.committed), (0x18, 8, s.store.floor), (0x20, 4, 33554431 - slotsUsed s.store.c - s.store.c.retired.length),
      (0x24, 4, slotsUsed s.store.c)] } s) ∧
  (∀ (mb : Mb) (q : Req) (s : State), Accepted mb 0x0309 q s → fld q.body 0 4 ≠ 0 → 125 ≤ fld q.body 0 4 → fld q.body 0 4 ≤ 10000 →
    (bitOf (fld q.body 4 4) 0 = false → Ends (.storeCommit mb) s mb { body := leBytes 8 s.store.committed } { s with store.interval := fld q.body 0 4 }) ∧
    (bitOf (fld q.body 4 4) 0 = true → s.store.committed < lastSeq s →
      ∃ t, exec (.storeCommit mb) s = .next t ∧ (getMb mb t).wait = .commitNow (lastSeq s) ∧ t.store.interval = fld q.body 0 4)) ∧
  (∀ (mb : Mb) (q : Req) (s : State), Accepted mb 0x030B q s → storeRecoverCheck mb q s = none → s.store.floor ≤ s.store.committed →
    ∃ t, exec (.storeRecover mb) s = .next t ∧ t.host.jring.state = .input ∧ t.host.jring.head = s.host.jring.tail ∧
      t.store.recoverMb = some mb ∧ (getMb mb t).wait = .recover) ∧
  (∀ s : State, 0 < s.store.tokens → s.store.committing = false → s.commit.stopped = false →
    exec .commitPeriodic s = .next
      { s with store.tokens := s.store.tokens - 1, store.committing := true, store.commitSeq := max s.store.committed s.host.jring.ackedSeq,
               store.wanted := s.store.wanted && decide (s.host.jring.ackedSeq < s.store.wantSeq) }) ∧
  (∀ s : State, s.store.wanted = false →
    exec .commitBucketRefill s = .next { s with store.tokens := min 8 (s.store.tokens + 1) }) ∧
  (∀ s : State, s.store.committing = true → s.commit.slot < 32 → s.commit.stopped = false →
    ∃ t, exec (.commitDone true) s = .next t ∧ t.store.commitNo = s.store.commitNo + 1 ∧ t.store.committed = s.store.commitSeq ∧
      t.commit = { s.commit with slot := s.commit.slot + 1, last := s.commit.ring[s.commit.cur]? }) ∧
  (∀ (s : State) (page : Nat), s.store.state = .ready → canChange s = true → (contentPages s.store.c).contains page = true →
    ∃ t, exec (.journalPageSweep page) s = .next t ∧ t.store.nextSeq = s.store.nextSeq + 1 ∧ t.store.c = s.store.c ∧
      tget t.store.sweep page = some s.store.nextSeq ∧
      (tget t.store.hist s.store.nextSeq).map (fun d => (d.page, d.after)) = some (some page, s.store.c))

/-- JOURNAL_BLOCK_WRITE puts the oldest unwritten block, whole, into the posted buffer at the ring's head, names it in an event entry and sends vector 9; every host byte outside the buffer and the event entry keeps its value (R75, R259, R260). Completes: journalBlockWrite. -/
def Obligations.JournalBlockGoesToTheHost : Prop :=
  ∀ (s : State) (b : JrBlock), s.host.jring.blocks.find? (fun b => !b.written) = some b → s.host.jring.state = .output →
    pfWrites s.host.jring.pf s = true → s.host.jring.head ≠ s.host.jring.tail → s.host.jring.evHeld < jrSize s → unacked s < 4096 →
    hostOk (.pf s.host.jring.pf) (s.host.jring.ringAddr + 16 * s.host.jring.head) 16 s = true → blockLen (tgetD s.store.hist b.seq {}) ≤ (jrBuffer s).2 →
    hostOk (.pf s.host.jring.pf) (jrBuffer s).1 (blockLen (tgetD s.store.hist b.seq {})) s = true →
    hostOk (.pf s.host.jring.pf) (s.host.jring.evtAddr + 16 * s.host.jring.evTail) 16 s = true → memWf s.host.mem = true →
    ∃ t, exec .journalBlockWrite s = .next t ∧ t.store.head = max s.store.head b.seq ∧
      t.host.jring.head = (s.host.jring.head + 1) % jrSize s ∧
      t.host.mem = memWriteN (memWriteN s.host.mem (jrBuffer s).1 (blockBytes b.seq (tgetD s.store.hist b.seq {}) s))
        (s.host.jring.evtAddr + 16 * s.host.jring.evTail)
        (layout 16 [(0, 8, b.seq), (8, 4, blockLen (tgetD s.store.hist b.seq {})), (0x0C, 2, s.host.jring.head),
          (0x0E, 1, if (tgetD s.store.hist b.seq {}).page.isSome then 2 else 1), (0x0F, 1, b2n s.host.jring.phase)]) ∧
      ∀ a, (a < (jrBuffer s).1 ∨ (jrBuffer s).1 + blockLen (tgetD s.store.hist b.seq {}) ≤ a) →
        (a < s.host.jring.evtAddr + 16 * s.host.jring.evTail ∨ s.host.jring.evtAddr + 16 * s.host.jring.evTail + 16 ≤ a) →
        memRead t.host.mem a = memRead s.host.mem a

/-- The drain and the Sapwood: KEY_DRAIN_DONE frees a revoked key's slot at the next generation and removes its shares; DRAIN_LIMIT_EXPIRY ends every context that still holds a lease, and a mailbox's command that does, with KEY_REVOKED; SAPWOOD_LOAD_DONE puts the key's shares, masked with fresh bits, into the Sapwood; COPPICE_STEP leaves the exclusive or of the shares (R49, R64, R68, R82). Completes: keyDrainDone, drainLimitExpiry, sapwoodLoadDone, coppiceStep. -/
def Obligations.DrainAndSapwood : Prop :=
  (∀ (s : State) (slot : Nat) (k : KeyRec), slot < 33554432 → tget s.store.c.keys slot = some k → k.state = .revoking → k.replace = false →
    leased slot s = false → canChange s = true → s.store.deleting = [] → k.gen < 0xFFFFFFFF →
    ∃ t, exec (.keyDrainDone slot) s = .next t ∧ tget t.store.c.keys slot = none ∧ tget t.store.c.gens slot = some (k.gen + 1) ∧
      tget t.store.sap slot = none ∧ ∀ i, i ≠ slot → tget t.store.c.keys i = tget s.store.c.keys i) ∧
  (∀ (s : State) (slot c : Nat) (k : KeyRec) (x : Ctx), slot < 33554432 → tget s.store.c.keys slot = some k → k.state = .revoking →
    s.ctxs = [(c, x)] → x.state = .leasing → x.leases.any (fun l => l.1 == slot) = true → s.units.dges = [] → s.mbox = [] →
    ∃ t y, exec (.drainLimitExpiry slot) s = .next t ∧ getCtx c t = some y ∧ y.state = .draining ∧
      y.outcome.map (·.status) = some St.keyRevoked) ∧
  (∀ (s : State) (slot : Nat) (k : KeyRec) (mb : Mb) (b : Mbox) (q : Req) (j : MbJob), slot < 33554432 → tget s.store.c.keys slot = some k →
    k.state = .revoking → s.ctxs = [] → s.units.dges = [] → mbOk mb = true → s.mbox = [(mbKey mb, b)] → b.cur = some q → b.inner = none →
    b.job = some j → j.slot = slot →
    ∃ t, exec (.drainLimitExpiry slot) s = .next t ∧ (getMb mb t).state = .done ∧ (getMb mb t).job = none ∧
      (getMb mb t).resp = respBytes q.opcode q.reqId b.ctx b.token 0 { status := 0x0204 }) ∧
  (∀ (s : State) (slot : Nat) (k : KeyRec) (r : Bytes) (u : State), slot < 33554432 → s.store.loading.any (fun l => l.1 == slot) = true →
    restarting s = false → tget s.store.c.keys slot = some k → coldVerifies slot s = true → sapOccupied s + sapEntries k ≤ 262144 →
    takeSap k.shareA.length s = (some r, u) → k.shareA.length = k.shareB.length →
    ∃ t i, exec (.sapwoodLoadDone slot true) s = .next t ∧ tget t.store.sap slot = some i ∧ i.gen = k.gen ∧ i.entries = sapEntries k ∧
      i.shareA = xorBytes k.shareA r ∧ xorBytes i.shareA i.shareB = xorBytes k.shareA k.shareB ∧
      t.store.loading.any (fun l => l.1 == slot) = false) ∧
  (∀ (s : State) (slot : Nat) (i : SapItem) (k : KeyRec) (r : Bytes) (u : State), slot < 33554432 → tget s.store.sap slot = some i →
    tget s.store.c.keys slot = some k → maskMode k s ≠ 0 → delivers (sliceOf i.index) s = true →
    takeWire (sliceOf i.index) 6 (32 * i.entries) s = (some r, u) → i.shareA.length = i.shareB.length → i.shareA.length ≤ 32 * i.entries →
    ∃ t j, exec (.coppiceStep slot) s = .next t ∧ tget t.store.sap slot = some j ∧ xorBytes j.shareA j.shareB = xorBytes i.shareA i.shareB ∧
      j.gen = i.gen ∧ ∀ n, n ≠ slot → tget t.store.sap n = tget s.store.sap n)

/-- Owners: OWNER_CREATE makes a PENDING entry with the quotas asked for and a ROOT drawn from the Seedbank; OWNER_SEAL makes it ACTIVE under the policy named with a new DOMAIN_ID; OWNER_SET_QUOTA and OWNER_SUSPEND change that entry alone; OWNER_QUERY answers it; STORE_REBASE empties a failed store (R91, R93, R94, R111, R121, R123). Completes: ownerCreate, ownerSeal, ownerQuery, ownerSetQuota, ownerSuspend, ownerEvidence, storeRebase. -/
def Obligations.OwnerCommandsComplete : Prop :=
  ∀ (mb : Mb) (q : Req) (s : State),
    (∀ root, Accepted mb 0x0201 q s → storeCheck ownerCreateCheck mb q s = none → canChange s = true → (∃ u, takeWarden 32 s = (some root, u)) →
      ∃ t, exec (.ownerCreate mb) s = .next t ∧ ∃ x, tget t.store.c.owners (newOwnerNo (fld q.body 0 4) s) = some x ∧ x.state = .pending ∧
        x.estate = decide (newOwnerNo (fld q.body 0 4) s = 0) ∧ x.keyQuota = fld q.body 4 4 ∧ x.counterQuota = fld q.body 8 2 ∧
        x.vfQuota = fld q.body 0x0A 2 ∧ x.appletQuota = fld q.body 0x0C 1 ∧ x.root = root ∧
        t.store.nextSeq = s.store.nextSeq + 1 ∧ t.store.c.keys = s.store.c.keys ∧
        ∀ o, o ≠ newOwnerNo (fld q.body 0 4) s → tget t.store.c.owners o = tget s.store.c.owners o) ∧
    (∀ x d, Accepted mb 0x0202 q s → storeCheck ownerSealCheck mb q s = none → canChange s = true → (∃ u, takeWarden 4 s = (some d, u)) →
      getOwner (fld q.body 0 4) s = some x →
      ∃ t, exec (.ownerSeal mb) s = .next t ∧
        tget t.store.c.owners (fld q.body 0 4) = some { x with state := .active, adminPolicy := fld q.body 4 4, domainId := leNat d, member := 0, anchor := true, nextMember := 1 } ∧
        (∀ o, o ≠ fld q.body 0 4 → tget t.store.c.owners o = tget s.store.c.owners o) ∧ t.store.c.keys = s.store.c.keys ∧
        t.store.rebased = (s.store.rebased && decide (fld q.body 0 4 ≠ 0))) ∧
    (∀ x, Accepted mb 0x0203 q s → storeRefuse s = none → ownerNamed mb (fld q.body 0 4) s = none → getOwner (fld q.body 0 4) s = some x →
      Ends (.ownerQuery mb) s mb { body := ownerBytes (fld q.body 0 4) x s.store.c } s) ∧
    (∀ x, Accepted mb 0x0204 q s → storeCheck ownerCheck mb q s = none → canChange s = true → getOwner (fld q.body 0 4) s = some x →
      Ends (.ownerSetQuota mb) s mb {} (putOwner (fld q.body 0 4)
        { x with keyQuota := fld q.body 4 4, counterQuota := fld q.body 8 2, vfQuota := fld q.body 0x0A 2, appletQuota := fld q.body 0x0C 1 } s)) ∧
    (∀ x, Accepted mb 0x0205 q s → storeCheck ownerSuspendCheck mb q s = none → canChange s = true → getOwner (fld q.body 0 4) s = some x →
      ∃ t, exec (.ownerSuspend mb) s = .next t ∧
        tget t.store.c.owners (fld q.body 0 4) = some { x with state := if bitOf (fld q.body 4 4) 0 then .active else .suspended } ∧
        (∀ o, o ≠ fld q.body 0 4 → tget t.store.c.owners o = tget s.store.c.owners o) ∧ t.store.c.keys = s.store.c.keys ∧
        (bitOf (fld q.body 4 4) 0 = false → ∀ p ∈ t.cust.approvals, p.2.owner ≠ fld q.body 0 4)) ∧
    (∀ x, Accepted mb 0x0207 q s → storeRefuse s = none → ownerNamed mb (fld q.body 0 4) s = none → getOwner (fld q.body 0 4) s = some x →
      (ownerEvidence (fld q.body 0 4) x (slice q.body 8 32) s).length ≤ fld q.body 0x30 4 →
      hostOk (mbFn mb) (fld q.body 0x28 8) (ownerEvidence (fld q.body 0 4) x (slice q.body 8 32) s).length s = true →
      Ends (.ownerEvidence mb) s mb { body := leBytes 4 (ownerEvidence (fld q.body 0 4) x (slice q.body 8 32) s).length }
        (hostWrite (fld q.body 0x28 8) (ownerEvidence (fld q.body 0 4) x (slice q.body 8 32) s) s)) ∧
    (Accepted mb 0x0220 q s → s.store.state = .failed →
      ∃ t, exec (.storeRebase mb) s = .next t ∧ t.store.c = {} ∧ t.store.state = .ready ∧ t.store.rebased = true ∧
        t.store.floor = resumeSeq s ∧ s.store.committed + 2 ^ 36 ≤ resumeSeq s ∧ (tget t.store.hist (resumeSeq s)).map (fun d => d.after) = some {} ∧ t.cust = {} ∧ (getMb mb t).cur = none)

/-- Credentials and policies, where the owner is PENDING and so needs no quorum: CRED_ADD, POLICY_CREATE and POLICY_MODIFY write the record asked for, CRED_REVOKE makes a credential inactive and withdraws its approvals, POLICY_QUERY answers a record; each journals one change and leaves every other record (R98, R99, R100, R108, R123). Completes: credAdd, credRevoke, policyCreate, policyModify, policyQuery. -/
def Obligations.CredentialsAndPolicies : Prop :=
  ∀ (mb : Mb) (q : Req) (s : State), canChange s = true →
    (∀ k, Accepted mb 0x0208 q s → storeCheck credAddCheck mb q s = none → activeDesig (fld q.body 0 4) s = none → credKey mb q s = some k →
      Ends (.credAdd mb) s mb { body := leBytes 4 (lowestFree s.store.c.creds 0) } (storeChange []
        (fun c => { c with creds := tset c.creds (lowestFree s.store.c.creds 0) { alg := fld q.body 4 1, owner := fld q.body 0 4, label := slice q.body 8 16, key := k } }) s)) ∧
    (Accepted mb 0x0209 q s → storeCheck credRevokeCheck mb q s = none → credRevokeDesig mb q s = none →
      ∃ t, exec (.credRevoke mb) s = .next t ∧
        (tget t.store.c.creds (fld q.body 0 4)) = (tget s.store.c.creds (fld q.body 0 4)).map (fun k => { k with active := false }) ∧
        (∀ i, i ≠ fld q.body 0 4 → tget t.store.c.creds i = tget s.store.c.creds i) ∧
        ∀ p ∈ t.cust.approvals, fld q.body 0 4 ∉ p.2.approved) ∧
    (Accepted mb 0x020A q s → storeCheck policyCreateCheck mb q s = none → activeDesig (fld q.body 0 4) s = none →
      Ends (.policyCreate mb) s mb { body := leBytes 4 (lowestFree s.store.c.policies 1) } (storeChange []
        (fun c => { c with policies := tset c.policies (lowestFree s.store.c.policies 1) (policyOf q.body (fld q.body 0 4) 1) }) s)) ∧
    (∀ p, Accepted mb 0x020B q s → storeCheck policyModifyCheck mb q s = none → policyModifyDesig mb q s = none →
      tget s.store.c.policies (fld q.body 0 4) = some p →
      ∃ t, exec (.policyModify mb) s = .next t ∧ ∃ x, tget t.store.c.policies (fld q.body 0 4) = some x ∧ x.revision = p.revision + 1 ∧
        x.owner = p.owner ∧ x.m = fld q.body 4 1 ∧ x.n = fld q.body 5 1 ∧ x.life = fld q.body 8 2 ∧
        (∀ i, i ≠ fld q.body 0 4 → tget t.store.c.policies i = tget s.store.c.policies i) ∧
        ∀ a ∈ t.cust.approvals, a.2.policy ≠ fld q.body 0 4) ∧
    (∀ p, Accepted mb 0x020C q s → storeRefuse s = none → policyNamed mb (fld q.body 0 4) s = .ok p →
      Ends (.policyQuery mb) s mb { body := policyBytes p } s)

/-- Dual control: QUORUM_OPEN holds the embedded request as an approval that lasts the policy's life; QUORUM_APPROVE adds a custodian's good approval; QUORUM_EXECUTE with too few approvals answers QUORUM_MISSING, with M of them runs the held request's own effect and consumes the approval; QUORUM_CANCEL drops it; a designated command sent directly, past its checks, answers QUORUM_MISSING and changes nothing (R102, R103, R105, R107, R109). Completes: quorumOpen, quorumApprove, quorumExecute, quorumCancel, credRevoke. -/
def Obligations.DualControl : Prop :=
  ∀ (mb : Mb) (q : Req) (s : State),
    (∀ p x n, Accepted mb 0x0210 q s → quorumOpenCheck mb q s = none → (∃ u, takeWarden 32 s = (some n, u)) →
      openPolicy mb (bitOf (fld q.body 4 4) 0) (embeddedReq (embedded q.body)) s = some p → tget s.store.c.policies p = some x →
      ∃ t, exec (.quorumOpen mb) s = .next t ∧ ∃ a, tget t.cust.approvals s.cust.nextId = some a ∧ t.cust.nextId = s.cust.nextId + 1 ∧
        a.policy = p ∧ a.owner = x.owner ∧ a.approved = [] ∧ a.notAfter = seconds s + x.life ∧ a.nonce = n ∧
        a.req.opcode = fld (embedded q.body) 0 2 ∧ t.store = s.store) ∧
    (∀ a sig, Accepted mb 0x0211 q s → namedApproval mb (fld q.body 0 4) s = .ok a →
      bodyBlob mb q 0x10 (fld q.body 8 2) (bitOf (fld q.body 0x0C 4) 2) s = some sig → approvalGood (fld q.body 0 4) (fld q.body 4 4) a sig s = true →
      ∃ t, exec (.quorumApprove mb) s = .next t ∧
        tget t.cust.approvals (fld q.body 0 4) = some { a with approved := a.approved ++ [fld q.body 4 4] } ∧
        (∀ i, i ≠ fld q.body 0 4 → tget t.cust.approvals i = tget s.cust.approvals i) ∧ t.store = s.store) ∧
    (∀ a, Accepted mb 0x0212 q s → namedApproval mb (fld q.body 0 4) s = .ok a → (getMb mb s).inner = none →
      (approvedEnough a s = false → Ends (.quorumExecute mb) s mb { status := 0x0301 } s) ∧
      (∀ r u, approvedEnough a s = true → runHeld mb a.req s = (.reply r, u) → r.status ≠ 0 →
        Ends (.quorumExecute mb) s mb r (consume mb q.reqId (fld q.body 0 4) a.req.opcode u)) ∧
      (∀ r u, approvedEnough a s = true → runHeld mb a.req s = (.reply r, u) → r.status = 0 → lastSeq u ≤ u.store.committed →
        Ends (.quorumExecute mb) s mb { r with info := r.info ||| 0x01 } (consume mb q.reqId (fld q.body 0 4) a.req.opcode u)) ∧
      (∀ w u, approvedEnough a s = true → runHeld mb a.req s = (.hold w, u) →
        Holds (.quorumExecute mb) s mb q w (consume mb q.reqId (fld q.body 0 4) a.req.opcode u)) ∧
      (∀ u, tget (consume mb q.reqId (fld q.body 0 4) a.req.opcode u).cust.approvals (fld q.body 0 4) = none)) ∧
    (∀ a, Accepted mb 0x0213 q s → namedApproval mb (fld q.body 0 4) s = .ok a →
      ∃ t, exec (.quorumCancel mb) s = .next t ∧ tget t.cust.approvals (fld q.body 0 4) = none ∧ t.store = s.store ∧
        (∀ i, i ≠ fld q.body 0 4 → tget t.cust.approvals i = tget s.cust.approvals i)) ∧
    (∀ p, Accepted mb 0x0209 q s → storeCheck credRevokeCheck mb q s = none → credRevokeDesig mb q s = some p → policySuspended 0x0209 p s = false →
      Ends (.credRevoke mb) s mb { status := 0x0301 } s)

/-- Replication and backup: REPLICA_PREPARE writes a signed prepare blob and keeps its prepare for 600 s; REPLICA_APPLY, and OWNER_RESTORE into a PENDING owner with its KEK in use, install the image they open under mask bits of the Seedbank and wait for its commit; OWNER_DELETE, REPLICA_EXPORT and OWNER_BACKUP sent directly answer QUORUM_MISSING (R102, R114, R116, R119, R120). Completes: replicaPrepare, replicaApply, ownerRestore, ownerDelete, replicaExport, ownerBackup. -/
def Obligations.ReplicationAndBackup : Prop :=
  ∀ (mb : Mb) (q : Req) (s : State),
    (∀ x bits u blob, Accepted mb 0x0218 q s → readCheck replicaPrepareCheck mb q s = none → getOwner (fld q.body 0 4) s = some x →
      takeWarden 144 s = (some bits, u) →
      prepBlob x.domainId (if x.state = .pending then 0xFFFF else x.member) 0xFFFF (bits.take 32) (bits.drop 32) u = blob →
      blob.length ≤ fld q.body 0x10 4 → hostOk (mbFn mb) (fld q.body 8 8) blob.length s = true →
      ∃ t, exec (.replicaPrepare mb) s = .next t ∧ t.host.mem = memWriteN s.host.mem (fld q.body 8 8) blob ∧ t.store = s.store ∧
        t.cust.prepares = s.cust.prepares ++ [{ owner := fld q.body 0 4, nonce := bits.take 32, priv := bits.drop 32, until_ := seconds s + 600 }] ∧
        t.cust.approvals = s.cust.approvals) ∧
    (∀ p i bits v r u, Accepted mb 0x021A q s → storeCheck replicaApplyCheck mb q s = none → canChange s = true → openReplica mb q s = .ok (p, i) →
      takeSap (maskNeed i) s = (some bits, v) → applyOf mb q bits v = .ok (r, u) →
      Holds (.replicaApply mb) s mb q (.commitWrite (lastSeq u) (fld q.body 0x18 8) r.map { body := layout 16 [(0, 4, r.n), (4, 4, r.moved), (8, 8, lastSeq u)] })
        (wantCommit false (lastSeq u) u)) ∧
    (∀ n w slot i bits v r u, Accepted mb 0x021C q s → storeCheck ownerRestoreCheck mb q s = none → activeDesig (fld q.body 0 4) s = none →
      canChange s = true → openBackup mb q s = .ok (n, i) → backupKek mb (fld q.body 0 4) (fld q.body 8 8) s = .ok (slot, w) →
      KeyInUse mb slot w s → takeSap (maskNeed i) s = (some bits, v) → restoreOf mb q i bits v = .ok (r, u) →
      Holds (.ownerRestore mb) s mb q (.commitWrite (lastSeq u) (fld q.body 0x20 8) r.map { body := layout 16 [(0, 4, r.n), (4, 4, r.moved), (8, 8, lastSeq u)] })
        (wantCommit false (lastSeq u) u)) ∧
    (policySuspended q.opcode ((adminOf (fld q.body 0 4) s).getD 0) s = false →
      (Accepted mb 0x0206 q s → storeCheck ownerDeleteCheck mb q s = none → Ends (.ownerDelete mb) s mb { status := 0x0301 } s) ∧
      (Accepted mb 0x0219 q s → storeCheck replicaExportCheck mb q s = none → Ends (.replicaExport mb) s mb { status := 0x0301 } s) ∧
      (Accepted mb 0x021B q s → readCheck ownerBackupCheck mb q s = none → Ends (.ownerBackup mb) s mb { status := 0x0301 } s))

/-- Under an approval with its M custodians, QUORUM_EXECUTE gives OWNER_DELETE, REPLICA_EXPORT and OWNER_BACKUP their effect: every key of the owner drains and the owner is SUSPENDED until it goes; the anchor's image takes the next member index and leaves only after its commit; the backup image is written, sealed under the KEK its lease holds (R96, R107, R113, R115, R119). Completes: quorumExecute. -/
def Obligations.ApprovedCustodyCommands : Prop :=
  ∀ (mb : Mb) (q : Req) (a : Approval) (s : State) (x : Owner), getOwner (fld a.req.body 0 4) s = some x →
    (Approved mb 0x0206 q a s → storeCheck ownerDeleteCheck mb a.req s = none → canChange s = true → ownerKeys (fld a.req.body 0 4) s.store.c ≠ [] →
      ∃ t, exec (.quorumExecute mb) s = .next t ∧ t.store.deleting = addNew s.store.deleting (fld a.req.body 0 4) ∧
        (tget t.store.c.owners (fld a.req.body 0 4)).map (·.state) = some .suspended ∧
        (∀ i k, tget t.store.c.keys i = some k → k.owner = fld a.req.body 0 4 → k.state = .revoking) ∧
        (∀ o, o ≠ fld a.req.body 0 4 → tget t.store.c.owners o = tget s.store.c.owners o)) ∧
    (∀ d ks, Approved mb 0x0219 q a s → storeCheck replicaExportCheck mb a.req s = none → canChange s = true → (takeWarden 112 s).1.isSome = true → x.anchor = true →
      blobRead mb (fld a.req.body 8 8) (fld a.req.body 0x10 4) s = some d → exportKeys mb a.req s = .ok ks →
      ∃ t, exec (.quorumExecute mb) s = .next t ∧ (∃ img r, (getMb mb t).wait = .commitWrite s.store.nextSeq (fld a.req.body 0x20 8) img r) ∧
        tget t.store.c.owners (fld a.req.body 0 4) =
          some { x with nextMember := x.nextMember + 1, domainClosed := decide (128 ≤ x.nextMember + 1) } ∧
        (∀ o, o ≠ fld a.req.body 0 4 → tget t.store.c.owners o = tget s.store.c.owners o) ∧ t.host.mem = s.host.mem) ∧
    (∀ slot w key u img, Approved mb 0x021B q a s → readCheck ownerBackupCheck mb a.req s = none →
      backupKek mb (fld a.req.body 0 4) (fld a.req.body 8 8) s = .ok (slot, w) → KeyInUse mb slot w s → takeWarden 32 s = (some key, u) →
      sealImage key (backupHeader (fld a.req.body 0 4) x.domainId (fld a.req.body 8 8) (lastSeq s) (wrapImageKey (material w) key))
        (ownerImage (fld a.req.body 0 4) x (backupKeys (fld a.req.body 0 4) s) 0xFF s.store.c) = img →
      hostOk (mbFn mb) (fld a.req.body 0x10 8) img.length s = true →
      ∃ t, exec (.quorumExecute mb) s = .next t ∧ t.host.mem = memWriteN s.host.mem (fld a.req.body 0x10 8) img ∧ t.store.c.owners = s.store.c.owners)

/-- Cipher lanes: a good sentinel answer only turns the lane to the other key length; a bad one, a failure, and a failed spare isolate the lane with its cause and empty its key contexts, an already isolated lane only being counted; a mismatch makes lane and checker SUSPECT, good known answers give both back; a good spare takes the place of the lane it fills in for; a context is prepared for a leased key; a reseed takes 64 bits of wire 1 (R126, R128, R146, R148, R150, R155, R217). Completes: laneSentinel, laneFailure, laneContextPrepare, checkerMismatch, checkerKatDone, checkerReseed, spareLaneKatDone. -/
def Obligations.LaneCommandsComplete : Prop :=
  (∀ (l : Nat) (s : State), l < 72 → laneEnabled (getLane l s) = true →
    exec (.laneSentinel l true) s = .next (setLane l { getLane l s with frame256 := !(getLane l s).frame256 } s) ∧
    ∃ t, exec (.laneSentinel l false) s = .next t ∧ (getLane l t).state = .isolated ∧ (getLane l t).cause = 5 ∧ (getLane l t).ctxs = []) ∧
  (∀ (l cause : Nat) (s : State), l < 72 →
    (laneEnabled (getLane l s) = true → ∃ t, exec (.laneFailure l cause) s = .next t ∧ (getLane l t).state = .isolated ∧
      (getLane l t).cause = cause ∧ (getLane l t).ctxs = [] ∧ t.commit = s.commit) ∧
    (laneEnabled (getLane l s) = false → exec (.laneFailure l cause) s = .next (countFault 0 s))) ∧
  (∀ (l slot : Nat) (k : KeyRec) (s : State), l < 72 → slot < 33554432 → tget s.store.c.keys slot = some k → (getLane l s).state = .active →
    laneKey k = true → leased slot s = true → inSapwood slot k s = true → laneTakes l slot k.gen s = true →
    (laneHolds l slot k.gen s = true ∨ (getLane l s).ctxs.length ≤ 32) →
    ∃ t, exec (.laneContextPrepare l slot) s = .next t ∧ laneHolds l slot k.gen t = true ∧ t.store = s.store ∧
      ∀ i, i ≠ l → getLane i t = getLane i s) ∧
  (∀ (st l c : Nat) (s : State), st < 8 → l < 72 → l / 9 = st → checks st s = true → checkerOf st s = some c → (getLane l s).state = .active →
    ∃ t, exec (.checkerMismatch st l) s = .next t ∧ (getLane l t).state = .suspect ∧ (getLane c t).state = .suspect ∧
      (getStand st t).mismatches = satInc 255 (getStand st s).mismatches) ∧
  (∀ (st g : Nat) (s : State), st < 8 → (getLane (9 * st + 8) s).state = .suspect → (getStand st s).waiting = [] →
    (standUnits st).find? (fun g => (getLane g s).state == .suspect && g != 9 * st + 8) = some g →
    ∃ t, exec (.checkerKatDone st true true) s = .next t ∧ (getLane g t).state = .active ∧ (getLane (9 * st + 8) t).state = .checker ∧
      (getLane g t).corrected = satInc 255 (getLane g s).corrected) ∧
  (∀ (st : Nat) (s : State), st < 8 → (checkerOf st s).isSome = true →
    (∀ d u, takeWire st 1 8 s = (some d, u) → exec (.checkerReseed st) s = .next (setStand st { getStand st u with checkSeed := some (leNat d), checkPos := 0 } u)) ∧
    (∀ u, takeWire st 1 8 s = (none, u) → exec (.checkerReseed st) s = .next u)) ∧
  (∀ (l g : Nat) (s : State), l < 72 → (getLane l s).state = .filling → (getStand (l / 9) s).filling = some g → (getStand (l / 9) s).waiting = [] →
    (∃ t, exec (.spareLaneKatDone l true) s = .next t ∧ (getLane l t).state = .active ∧ (getStand (l / 9) t).filling = none) ∧
    ∃ t, exec (.spareLaneKatDone l false) s = .next t ∧ (getLane l t).state = .isolated ∧ (getLane l t).cause = 6 ∧ (getStand (l / 9) t).filling = none)

/-- Hardened unwrap cores: a block slot ends for the request served in turn, which leaves when its last block is done; its key shares, mask and rounds stand in the core's registers; without the slot's 512 random bits the core stalls and counts; a failed core is isolated with an empty queue (R142, R143, R145, R536). Completes: hucBlockDone, hucFailure. -/
def Obligations.HucCommandsComplete : Prop :=
  ∀ (st : Nat) (s : State), st < 8 →
    (∀ r, (getStand st s).hucQueue[(getStand st s).hucNext % max 1 (getStand st s).hucQueue.length]? = some r →
      (∀ u, takeWire st 3 hucBits s = (none, u) → exec (.hucBlockDone st) s =
        .next (setStand st { getStand st s with hucStall := true, hucStalls := (getStand st s).hucStalls + BitVec.ofNat 64 (draw u).1 } (draw u).2)) ∧
      (∀ d u, takeWire st 3 hucBits s = (some d, u) → ∃ t, exec (.hucBlockDone st) s = .next t ∧
        (getStand st t).hucStall = false ∧ (getStand st t).hucBlocks = (getStand st s).hucBlocks + 1 ∧
        (getStand st t).hucRegs = hucRegsOf (hucSlot r s) d s ∧ (getStand st t).hucRegs.mask = d.take 16 ∧ t.store = s.store ∧ t.ctxs = s.ctxs ∧
        (1 < r.left → (getStand st t).hucNext = (getStand st s).hucNext % max 1 (getStand st s).hucQueue.length + 1 ∧
          (getStand st t).hucQueue = (getStand st s).hucQueue.set ((getStand st s).hucNext % max 1 (getStand st s).hucQueue.length) { r with left := r.left - 1 }) ∧
        (r.left ≤ 1 → (getStand st t).hucNext = (getStand st s).hucNext % max 1 (getStand st s).hucQueue.length ∧ ((getStand st s).hucHeld = [] →
          (getStand st t).hucQueue = (getStand st s).hucQueue.eraseIdx ((getStand st s).hucNext % max 1 (getStand st s).hucQueue.length))))) ∧
    ((getStand st s).hucIsolated = false →
      ∃ t, exec (.hucFailure st) s = .next t ∧ (getStand st t).hucIsolated = true ∧ (getStand st t).hucQueue = [] ∧ t.commit = s.commit) ∧
    ((getStand st s).hucIsolated = true → exec (.hucFailure st) s = .next (countFault 0 s))

/-- The control strobes of a digest engine, at a port that takes them: the writer holds the claim; ABORT leaves slot 0 IDLE with no error and an empty FIFO, KEY_CLR clears the key of a slot that is not busy, RELEASE gives the claim up, SAVE and RESTORE begin a transfer; a configuration write takes the fields of its value; no other engine changes (R161, R168, R170, R172, R174). Completes: dgeAbort, dgeKeyClr, dgeRelease0, dgeSave, dgeRestore, dgeCtrlConfig. -/
def Obligations.DigestControlCompletes : Prop :=
  ∀ (g m : Nat) (d : Dge) (s : State), DgeTakes g m 0 d s →
    (∃ t, exec (.dgeAbort g m) s = .next t ∧ (getDge g t).slot = .idle ∧ (getDge g t).err = 0 ∧ (getDge g t).held = [] ∧
      (getDge g t).claim = some (masterTag m s).master ∧ (∀ i, i ≠ g → getDge i t = getDge i s) ∧ t.store = s.store) ∧
    (slotBusy d = false → ∃ t, exec (.dgeKeyClr g m) s = .next t ∧ getDge g t = clearSlotKey (ctrlBits { d with claim := some (masterTag m s).master }) ∧
      (∀ i, i ≠ g → getDge i t = getDge i s) ∧ t.store = s.store) ∧
    (slotBusy d = false → ∃ t, exec (.dgeRelease0 g m) s = .next t ∧ getDge g t = ctrlBits { d with claim := none } ∧
      (∀ i, i ≠ g → getDge i t = getDge i s) ∧ t.store = s.store) ∧
    (d.err = 0 → d.slot ≠ .finishing → d.slot ≠ .done →
      ∃ t, exec (.dgeSave g m) s = .next t ∧ (getDge g t).xfer = some { restore := false, tag := nextTag m (g / 2) s } ∧ (getDge g t).msg = d.msg ∧
        (∀ i, i ≠ g → getDge i t = getDge i s) ∧ t.store = s.store) ∧
    (d.err = 0 → d.slot = .idle →
      ∃ t, exec (.dgeRestore g m) s = .next t ∧ (getDge g t).xfer = some { restore := true, tag := nextTag m (g / 2) s } ∧
        (∀ i, i ≠ g → getDge i t = getDge i s) ∧ t.store = s.store) ∧
    (∀ v : DWord, v.toNat < 2 ^ 16 →
      ∃ t, exec (.dgeCtrlConfig g m v) s = .next t ∧ (getDge g t).alg = bits v.toNat 3 0 ∧ (getDge g t).keyed = bitOf v.toNat 4 ∧
        (getDge g t).compare = bitOf v.toNat 5 ∧ (getDge g t).cmpLen = bits v.toNat 12 6 ∧ (getDge g t).msg = d.msg ∧
        (getDge g t).claim = some (masterTag m s).master ∧ (∀ i, i ≠ g → getDge i t = getDge i s) ∧ t.store = s.store)

/-- Data and keys at a digest engine's port: a word joins the open message, or starts one in an idle slot; a last word finishes it with DGE_LASTW's count of bytes; a key word starts a raw key in a slot that is not busy; a handle is leased and its key asked for; a whole raw key, or a leased key whose shares are in the Sapwood, becomes the slot's key (R162, R163, R165, R169). Completes: dgeData, dgeLastw, dgeKeydata, dgeKeyhandle, dgeKeyLoaded. -/
def Obligations.DigestDataCompletes : Prop :=
  ∀ (g m : Nat) (v : DWord) (d : Dge) (s : State),
    (DgeTakes g m 0x30 d s → d.err = 0 → d.held = [] → fifoUsed d < 32 →
      (d.slot = .open_ → msgLen d.msg + 8 ≤ 2 ^ 61 - 1 →
        ∃ t, exec (.dgeData g m v) s = .next t ∧ (getDge g t).slot = .open_ ∧ (getDge g t).msg = { d.msg with text := d.msg.text ++ leBytes 8 v.toNat } ∧
          (∀ i, i ≠ g → getDge i t = getDge i s) ∧ t.store = s.store) ∧
      (d.slot = .idle → frozen s = false → startErr d = none → d.keyed = false →
        ∃ t, exec (.dgeData g m v) s = .next t ∧ (getDge g t).slot = .open_ ∧
          (getDge g t).msg = { alg := d.alg, compare := d.compare, cmpLen := d.cmpLen, text := leBytes 8 v.toNat } ∧ t.store = s.store)) ∧
    (DgeTakes g m 0x38 d s → d.err = 0 → d.held = [] → fifoUsed d < 32 → d.slot = .open_ → d.lastCnt ≤ 8 → msgLen d.msg + 8 ≤ 2 ^ 61 - 1 →
      ∃ t, exec (.dgeLastw g m v) s = .next t ∧ (getDge g t).slot = .finishing ∧
        (getDge g t).msg = { d.msg with text := d.msg.text ++ (leBytes 8 v.toNat).take d.lastCnt } ∧ t.store = s.store) ∧
    (DgeTakes g m 0x20 d s → slotBusy d = false → 0 < d.keyLen → d.keyLen ≤ 128 → d.keyLoading = false →
      ∃ t, exec (.dgeKeydata g m v) s = .next t ∧ (getDge g t).keyLoading = true ∧ (getDge g t).keyBuf = leBytes 8 v.toNat ∧
        (getDge g t).keyLoaded = false ∧ t.store = s.store) ∧
    (∀ slot k, DgeTakes g m 0x28 d s → d.err = 0 → slotBusy d = false → dgeKeyOf v.toNat (masterTag m s).owner s = .ok (slot, k) →
      leaseWaits slot k s = false →
      ∃ t, exec (.dgeKeyhandle g m v) s = .next t ∧ (getDge g t).lease = some (slot, k.gen) ∧ (getDge g t).keyLoading = true ∧
        (getDge g t).handle = v.toNat ∧ (getDge g t).keyLoaded = false) ∧
    (∀ slot k, g < 16 → getDge g s = d → d.keyLoading = true → d.isolated = false → d.stalled = [] → d.keySrc ≠ .raw → d.lease = some (slot, k.gen) →
      tget s.store.c.keys slot = some k → inSapwood slot k s = true →
      ∃ t, exec (.dgeKeyLoaded g) s = .next t ∧ (getDge g t).keyLoaded = true ∧ (getDge g t).keyLoading = false ∧
        (getDge g t).keyBuf = material k ∧ t.store = s.store) ∧
    (g < 16 → getDge g s = d → d.keyLoading = true → d.isolated = false → d.stalled = [] → d.keySrc = .raw → 8 * keyWords d ≤ d.keyBuf.length →
      ∃ t, exec (.dgeKeyLoaded g) s = .next t ∧ (getDge g t).keyLoaded = true ∧ (getDge g t).keyLoading = false ∧
        (getDge g t).keyBuf = d.keyBuf.take d.keyLen ∧ t.store = s.store)

/-- The ends of a digest engine's work: a finished message leaves its digest or its comparison's verdict in a DONE slot; a save writes the 512-byte image and counts it; a restore takes the slot an intact image holds and stops with error 7 on any other; a failed engine is isolated with no job left (R165, R166, R172, R174, R178). Completes: dgeMessageDone, dgeSaveDone, dgeFault. -/
def Obligations.DigestEndsComplete : Prop :=
  ∀ (g : Nat) (d : Dge) (s : State), g < 16 → getDge g s = d → d.isolated = false → d.stalled = [] →
    (d.slot = .finishing → d.msg.keyed = false → d.err = 0 → d.xfer = none → d.held = [] →
      ∃ t, exec (.dgeMessageDone g) s = .next t ∧ (getDge g t).slot = .done ∧ (getDge g t).msgs = d.msgs + 1 ∧
        (getDge g t).result = (if d.msg.compare then [] else msgResult d []) ∧
        (getDge g t).verdict = (if !d.msg.compare then 0
          else if (msgResult d []).take d.msg.cmpLen == ((List.range 8).map (fun w => leBytes 8 (tgetD d.expect w 0).toNat)).flatten.take d.msg.cmpLen then 1 else 2) ∧
        (∀ i, i ≠ g → getDge i t = getDge i s) ∧ t.store = s.store) ∧
    (∀ tag, d.xfer = some { restore := false, tag := tag } → (if d.slot = .open_ then d.msg.keyed else d.keyed) = false →
      probeOk tag (targetOf (g / 2) d.saveAddr) d.saveAddr 512 true s = true →
      ∃ t, exec (.dgeSaveDone g) s = .next t ∧ t.units.fab = memWriteN s.units.fab (imageAddr g d) (dgeImage d tag []) ∧
        getDge g t = { d with xfer := none, saveNo := d.saveNo + 1 } ∧ t.store = s.store) ∧
    (∀ tag b, d.xfer = some { restore := true, tag := tag } → probeOk tag (targetOf (g / 2) d.saveAddr) d.saveAddr 512 false s = true →
      memReadN s.units.fab (imageAddr g d) 512 = b → fld b 0 2 ≠ 2 →
      (imageOk b tag [] = false → ∃ t, exec (.dgeSaveDone g) s = .next t ∧ (getDge g t).err = 7 ∧ (getDge g t).xfer = none ∧ t.store = s.store) ∧
      (imageOk b tag [] = true → ∃ t, exec (.dgeSaveDone g) s = .next t ∧
        getDge g t = restored b [] tag (clearSlotKey { d with xfer := none }) ∧ t.store = s.store)) ∧
    (∃ t, exec (.dgeFault g) s = .next t ∧ (getDge g t).isolated = true ∧ (getDge g t).streams = [] ∧ t.commit = s.commit)

/-- Seedbank: samples of the open window that fail the repetition or the proportion test, a parity failure, a closed window that fails, a window of the start-up test that fails, and a frequency out of its gate each isolate the bank with their cause, or retire it at its third failed cold start in a row; a window that passes counts for the start-up test or, of a delivering bank, releases its conditioned bits; with 4,096 samples passed and a gate closed the bank delivers; the gauge keeps its two figures (R205, R207, R208, R209, R210, R211, R212, R213, R215, R224, R227). Completes: seedbankHealthFail, seedbankWindowClose, seedbankStartupDone, seedbankFreqGate, seedbankGaugeUpdate. -/
def Obligations.SeedbankHealthCompletes : Prop :=
  ∀ (b : Nat) (s : State),
    (∀ bad, b < 8 → bankRuns b s = true →
      bad = (getBank b s).badStarts + b2n (!(getBank b s).failed && ((getBank b s).fresh || s.start.starting)) →
      (∃ t, exec (.seedbankHealthFail b .parity) s = .next t ∧ (getBank b t).cause = 5 ∧ (getBank b t).badStarts = bad ∧
        (getBank b t).state = (if 3 ≤ bad then .retired else .isolated) ∧ t.store = s.store) ∧
      (∀ xs c u, sampleBank b (xs.take (windowSamples b)) s = (some c, u) →
        ∃ t, exec (.seedbankHealthFail b (.samples xs)) s = .next t ∧ (getBank b t).cause = c ∧ (getBank b t).badStarts = bad ∧
          (getBank b t).state = (if 3 ≤ bad then .retired else .isolated) ∧ t.store = s.store) ∧
      (∀ xs c u, xs.length = windowSamples b → sampleBank b xs s = (some c, u) →
        ∃ t, exec (.seedbankWindowClose b xs) s = .next t ∧ (getBank b t).cause = c ∧ (getBank b t).badStarts = bad ∧
          (getBank b t).state = (if 3 ≤ bad then .retired else .isolated) ∧ t.store = s.store) ∧
      (∀ xs c u, (getBank b s).state = .starting → startupTest b (xs.length / windowSamples b) xs s = (some c, u) →
        ∃ t, exec (.seedbankStartupDone b xs) s = .next t ∧ (getBank b t).cause = c ∧ (getBank b t).badStarts = bad ∧
          (getBank b t).state = (if 3 ≤ bad then .retired else .isolated) ∧ t.store = s.store) ∧
      (∀ f fs, 200 * (((f :: fs).max?.getD 0) - ((f :: fs).min?.getD 0)) < (f :: fs).foldl (· + ·) 0 / (f :: fs).length →
        ∃ t, exec (.seedbankFreqGate b (f :: fs)) s = .next t ∧ (getBank b t).cause = 4 ∧ (getBank b t).badStarts = bad ∧
          (getBank b t).state = (if 3 ≤ bad then .retired else .isolated) ∧ t.store = s.store)) ∧
    (∀ xs u, b ≤ 8 → bankRuns b s = true → sampleBank b (xs.take (windowSamples b)) s = (none, u) →
      exec (.seedbankHealthFail b (.samples xs)) s = .next s) ∧
    (∀ xs u, b ≤ 8 → bankRuns b s = true → xs.length = windowSamples b → sampleBank b xs s = (none, u) →
      ((getBank b s).state = .starting → exec (.seedbankWindowClose b xs) s =
        .next (setBank b { getBank b u with tested := (getBank b s).tested + windowSamples b } u)) ∧
      ((getBank b s).state = .delivering → ∃ bits, bits = condition ((getBank b s).cond || b == earlyBank) (cellCount b) xs ∧
        exec (.seedbankWindowClose b xs) s = .next (nonceResume (doeResume (releaseWindow b bits u))) ∧
        (getBank b (releaseWindow b bits u)).outBits = (getBank b s).outBits + BitVec.ofNat 64 bits.length)) ∧
    (∀ f fs mean spread, b < 8 → bankRuns b s = true → mean = (f :: fs).foldl (· + ·) 0 / (f :: fs).length →
      spread = ((f :: fs).max?.getD 0) - ((f :: fs).min?.getD 0) → meanOk b mean s = true → mean ≤ 200 * spread →
      exec (.seedbankFreqGate b (f :: fs)) s =
        .next (setBank b { getBank b s with mean := min 65535 mean, spread := min 65535 spread, gated := true } s)) ∧
    (∀ xs u, b ≤ 8 → bankRuns b s = true → (getBank b s).state = .starting → startupTest b (xs.length / windowSamples b) xs s = (none, u) →
      (getBank b u).tested = (getBank b s).tested + xs.length / windowSamples b * windowSamples b ∧
      (4096 ≤ (getBank b u).tested → ((getBank b s).gated = true ∨ b = 8) → (s.units.sbkNow ≠ some b ∨ b ∉ s.units.sbkTodo) →
        ∃ t, exec (.seedbankStartupDone b xs) s = .next t ∧ (getBank b t).state = .delivering ∧ (getBank b t).cause = 0 ∧ t.store = s.store) ∧
      ((getBank b u).tested < 4096 ∨ ((getBank b s).gated = false ∧ b ≠ 8) → exec (.seedbankStartupDone b xs) s = .next u)) ∧
    (∀ temp age, b < 8 → exec (.seedbankGaugeUpdate b temp age) s =
      .next (setBank b { getBank b s with temp := temp % 4096, agePpm := max (-32768) (min 32767 age) } s))

/-- Seedbank ports and commands: a permitted request of 1 to 512 words queues, one of another count, to a full queue or by a master whose request still waits only sets the ignored bit; once the reservoir holds the oldest request's words they are written in one burst and the line raised, or, refused, discarded; until then it waits; a cancel gives the port up; SEEDBANK_STATUS answers the states, conditioning and bit counts, SEEDBANK_CONFIG stops the first named bank and starts it again under its conditioning (R220, R221, R222, R226). Completes: sbkPortReq, sbkPortCancel, sbkPortRequestDone, seedbankStatus, seedbankConfig. -/
def Obligations.SeedbankPortsComplete : Prop :=
  (∀ (st m addr n : Nat) (s : State), st < 8 → standHolds st s = false →
    permits (nextTag m st s) st (0x0D500000 + 0x1000 * st + 0x100) true false (issue (masterTag m s) st s).2 = true →
    (1 ≤ n → n ≤ 512 → (getBank st s).queue.length < 8 → (portStat (getBank st s) (masterTag m s).master).state ≠ 2 →
      ∃ t r, exec (.sbkPortReq st m addr n) s = .next t ∧ (getBank st t).queue = (getBank st s).queue ++ [r] ∧ r.master = (masterTag m s).master ∧
        r.owner = (masterTag m s).owner ∧ r.count = n ∧ r.addr = addr / 64 * 64 % 2 ^ 48 ∧ (portStat (getBank st t) (masterTag m s).master).state = 2 ∧
        t.store = s.store) ∧
    ((n = 0 ∨ 512 < n ∨ 8 ≤ (getBank st s).queue.length ∨ (portStat (getBank st s) (masterTag m s).master).state = 2) →
      ∃ t, exec (.sbkPortReq st m addr n) s = .next t ∧ (getBank st t).queue = (getBank st s).queue ∧
        (portStat (getBank st t) (masterTag m s).master).ignored = true ∧ t.store = s.store) ∧
    exec (.sbkPortCancel st m) s = .next (cancelPort st (masterTag m s).master (acceptSeq (nextTag m st s) st (issue (masterTag m s) st s).2))) ∧
  (∀ (st : Nat) (r : SbkReq) (rest : List SbkReq) (s : State), st < 8 → (getBank st s).queue = r :: rest →
    (∀ u, takeWire st 5 (8 * r.count) s = (none, u) → exec (.sbkPortRequestDone st) s = .next u ∧ (getBank st u).queue = r :: rest) ∧
    (∀ d u, takeWire st 5 (8 * r.count) s = (some d, u) →
      (∀ c, r.ctx = some c → exec (.sbkPortRequestDone st) s = .next (pieceDone st r c d (portEnds st r 0 u)) ∧
        (getBank st (portEnds st r 0 u)).queue = rest) ∧
      (r.ctx = none → probeOk (portTag st r u) (targetOf st r.addr) r.addr d.length true u = true →
        ∃ t, exec (.sbkPortRequestDone st) s = .next t ∧ (getBank st t).queue = rest ∧ (portStat (getBank st t) r.master).state = 3 ∧
          (portStat (getBank st t) r.master).result = 0 ∧
          t.units.fab = memWriteN s.units.fab (fabAddr (targetOf st r.addr) r.addr) d ∧
          t.world.lines.contains (0x10 + st) = true ∧ t.store = s.store) ∧
      (r.ctx = none → probeOk (portTag st r u) (targetOf st r.addr) r.addr d.length true u = false →
        ∃ t, exec (.sbkPortRequestDone st) s = .next t ∧ (getBank st t).queue = rest ∧ (portStat (getBank st t) r.master).result = 1 ∧
          t.units.fab = s.units.fab))) ∧
  (∀ (mb : Mb) (q : Req) (s : State),
    (Accepted mb 0x0121 q s → Ends (.seedbankStatus mb) s mb { body := sbkStates s ++ leBytes 1 ((stands.map (fun b => 2 ^ b * b2n (getBank b s).cond)).foldl (· + ·) 0) ++ List.replicate 7 0 ++ (stands.map (fun b => leBytes 8 (getBank b s).outBits.toNat)).flatten } s) ∧
    (Accepted mb 0x0120 q s → fld q.body 1 1 ≤ 1 → s.units.sbkNow = none →
      (stands.filter (fun b => bitOf (fld q.body 0 1) b && !bankLost b s) = [] → Ends (.seedbankConfig mb) s mb { body := sbkStates s } s) ∧
      (∀ b r, stands.filter (fun b => bitOf (fld q.body 0 1) b && !bankLost b s) = b :: r →
        ∃ t, exec (.seedbankConfig mb) s = .next t ∧ (getMb mb t).wait = .seedbank ∧ t.units.sbkNow = some b ∧ t.units.sbkTodo = r ∧
          (getBank b t).state = .starting ∧ (getBank b t).cond = (fld q.body 1 1 == 1) ∧ t.store = s.store)))

/-- Links and functions: PERST#, DL_Down and a function-level reset return the link's or the function's queues, mailboxes and configuration to reset and leave the other link alone; PERST# on both links is a cold start in QUARANTINE; a link that may train comes up as trained; clearing Bus Master Enable puts every queue in ERROR with cause BME and voids the contexts, setting it serves again; D3hot holds messages until D0; VF Enable enables the PF's VFs; an invalidation drops the translations it covers; a read of host memory delivers its bytes, one that fails faults its reader (R38, R228, R229, R230, R232, R252, R576, R578, R641). Completes: perstAssert, linkDown, perstDeassert, perstBothLinks, pcieLinkUp, pfFlr, vfEnableSet, vfFlr, busMasterEnableClear, busMasterEnableSet, d3hotEntry, d0Return, atsInvalidateRequest, hostReadCompletion, pcieCompletionTimeout. -/
def Obligations.LinksAndFunctionsComplete : Prop :=
  (∀ (l : Nat) (s : State), l < 2 → s.pwr.state ≠ .backup → s.pwr.resetLow = false →
    (s.pwr.quiet = true → exec (.perstAssert l) s = .next { setPerst l true s with pwr.perstLatched := addNew s.pwr.perstLatched l }) ∧
    (s.pwr.quiet = false →
      (∃ t, exec (.perstAssert l) s = .next t ∧ (∀ p, p / 2 = l → (getLink p t).up = false ∧ (getLink p t).perst = true) ∧
        (getFn (.pf (2 * l)) t).enabled = false ∧ (getFn (.pf (2 * l)) t).busMaster = false ∧ fnQueues (.pf (2 * l)) t = []) ∧
      (∃ t, exec (.linkDown l) s = .next t ∧ (∀ p, p / 2 = l → (getLink p t).up = false ∧ (getLink p t).perst = (getLink p s).perst) ∧
        (getFn (.pf (2 * l)) t).enabled = false ∧ fnQueues (.pf (2 * l)) t = [] ∧
        ∀ g, fnOk g = true → linkOf g ≠ l → (getFn g t).enabled = (getFn g s).enabled ∧ fnQueues g t = fnQueues g s)) ∧
    exec (.perstDeassert l) s = .next (setPerst l false s)) ∧
  (∀ s : State, s.pwr.state ≠ .backup → s.pwr.resetLow = false → s.pwr.quiet = false →
    (s.mode.mode = 8 → ∃ t, exec .perstBothLinks s = .next t ∧ t.pwr.cause = 2 ∧ t.ctxs = [] ∧ t.mbox = [] ∧ t.host.queues = [] ∧ t.commit = s.commit ∧
      t.log = s.log ∧ t.mode = State.reset.mode) ∧
    (s.mode.mode ≠ 8 → ∃ t, exec .perstBothLinks s = .next t ∧ ∀ p, p < 4 → (getLink p t).up = false ∧ (getLink p t).perst = true)) ∧
  (∀ (p speed width : Nat) (flit : Bool) (s : State), p < 4 → mayTrain p s = true → trainOk p speed width flit s = true →
    ∃ t, exec (.pcieLinkUp p speed width flit) s = .next t ∧ getLink p t = { getLink p s with up := true, speed := speed, width := width, flit := flit } ∧
      getFn (.pf p) t = { getFn (.pf p) s with enabled := true } ∧ (∀ i, i ≠ p → getLink i t = getLink i s) ∧ t.store = s.store) ∧
  (∀ (p : Nat) (s : State), p < 4 → (getFn (.pf p) s).enabled = true →
    (∃ t, exec (.pfFlr p) s = .next t ∧ (getFn (.pf p) t).enabled = true ∧ (getFn (.pf p) t).busMaster = false ∧ fnQueues (.pf p) t = [] ∧
      fnRings (.pf p) t = [] ∧ (getFn (.pf p) t).credit = (getFn (.pf p) s).credit ∧ (∀ m, m < 8 → tget t.mbox (mbKey (.pf p m)) = none) ∧
      (∀ n ∈ vfsBelow p s, (getFn (.vf n) t).enabled = false ∧ fnQueues (.vf n) t = [])) ∧
    (hasVfs s = true → ∃ t, exec (.vfEnableSet p) s = .next t ∧ (∀ n ∈ pfVfs p s, (getFn (.vf n) t).enabled = true) ∧
      (∀ n, n ∉ pfVfs p s → getFn (.vf n) t = getFn (.vf n) s) ∧ t.store = s.store)) ∧
  (∀ (n : Nat) (s : State), n < 4096 → (getFn (.vf n) s).enabled = true →
    ∃ t, exec (.vfFlr n) s = .next t ∧ (getFn (.vf n) t).enabled = true ∧ (getFn (.vf n) t).busMaster = false ∧ fnQueues (.vf n) t = [] ∧
      tget t.mbox (mbKey (.vf n)) = none ∧ (getAlloc (.vf n) t).owner = (getAlloc (.vf n) s).owner) ∧
  (∀ (fn : Fn) (s : State), fnOk fn = true → (getFn fn s).enabled = true →
    ((getFn fn s).busMaster = true → ∃ t, exec (.busMasterEnableClear fn) s = .next t ∧ (getFn fn t).busMaster = false ∧
      (∀ k q, getQ k s = some q → k / 256 = fnKey fn → q.destroying = none →
        ∃ q', getQ k t = some q' ∧ q'.state = .error ∧ (q.state ≠ .error → q'.cause = .bme) ∧ q'.fetched = [] ∧ q'.reading = []) ∧
      (∀ c x qid n, getCtx c s = some x → x.src = .queue fn qid n → ∃ y, getCtx c t = some y ∧ y.state = .voided)) ∧
    ((getFn fn s).busMaster = false → ∃ t, exec (.busMasterEnableSet fn) s = .next t ∧ (getFn fn t).busMaster = true ∧
      t.host.queues = s.host.queues ∧ t.store = s.store) ∧
    exec (.d3hotEntry fn) s = .next (setFn fn { getFn fn s with d3hot := true } s)) ∧
  (∀ (fn : Fn) (s : State), fnOk fn = true → (getFn fn s).d3hot = true →
    ∃ t, exec (.d0Return fn) s = .next t ∧ (getFn fn t).d3hot = false ∧ (∀ p, fn = .pf p → (getFn fn t).heldMsgs = []) ∧ t.host.queues = s.host.queues) ∧
  (∀ (fn : Fn) (addr : DWord) (len : Nat) (s : State), fnOk fn = true →
    ∃ t, exec (.atsInvalidateRequest fn addr len) s = .next t ∧
      (∀ e, e ∈ t.host.atc ↔ e ∈ s.host.atc ∧ (e.fn = fn → e.addr + e.len ≤ addr.toNat ∨ addr.toNat + len ≤ e.addr)) ∧ t.host.mem = s.host.mem) ∧
  (∀ (mb : Mb) (a : Nat) (data : Bytes) (s : State), mbOk mb = true →
    (∃ t, exec (.hostReadCompletion (.blob mb a) data true) s = .next t ∧ t.host.mem = memWriteN s.host.mem a data ∧
      t.host.refused = without s.host.refused (fnKey (mbFn mb), hostPage a) ∧ t.store = s.store) ∧
    (∃ t, exec (.hostReadCompletion (.blob mb a) data false) s = .next t ∧ t.host.refused = addNew s.host.refused (fnKey (mbFn mb), hostPage a) ∧
      t.host.mem = s.host.mem ∧ (∀ q, Accepted mb q.opcode q s → (getMb mb s).rank8 = false → (getMb mb t).state = .done ∧ (getMb mb t).cur = none))) ∧
  (∀ (fn : Fn) (qid : Nat) (q : Queue) (data : Bytes) (s : State), qidOk fn qid = true → getQ (qKey fn qid) s = some q → q.reading ≠ [] →
    q.destroying = none →
    (∃ t q', exec (.hostReadCompletion (.sq fn qid) data true) s = .next t ∧ getQ (qKey fn qid) t = some q' ∧ q'.reading = [] ∧
      q'.nextNo = q.nextNo + q.reading.length ∧ t.store = s.store) ∧
    (q.state ≠ .error → ∃ t q', exec (.pcieCompletionTimeout (.sq fn qid)) s = .next t ∧ getQ (qKey fn qid) t = some q' ∧ q'.state = .error ∧
      q'.cause = .fetchFault ∧ q'.reading = [] ∧ t.store = s.store))

/-- Security messages of the links: a DOE request is answered in its mailbox and opens or closes sessions as its protocol says, one that comes during a trusted restart, or that its fresh bits are not there for, waits; a key message of a secured session changes the key sets of the stream it names, and no other; a TLP that fails its integrity check makes its stream Insecure; TDISP locks, starts and stops a VF's TDI (R233, R234, R235). Completes: doeRequest, ideTlpFail, tdispMessage. -/
def Obligations.SecurityMessagesComplete : Prop :=
  (∀ (p : Nat) (s : State), p < 4 → pfPresent s p = true → inD3 (.pf p) s = false → s.host.doeBusy.contains p = false → s.mode.chosen = true →
    s.mode.mode ≠ 10 → s.mode.mode ≠ 12 → s.mode.mode ≠ 8 →
    (∀ req, restarting s = true → exec (.doeRequest p req) s =
      .next { s with host.doeBusy := s.host.doeBusy ++ [p], host.doeWait := s.host.doeWait ++ [(p, req)] }) ∧
    (restarting s = false → s.start.failingOver = false →
      (∀ i, ∃ t, exec (.doeRequest p (.discovery i)) s = .next t ∧ tget t.host.doeResp p = some (doeDiscovery i) ∧ t.host.doeBusy.contains p = false ∧
        t.store = s.store ∧ t.host.spdm = s.host.spdm) ∧
      (∀ secured m, (takeHeart 88 s).1 = none → ∃ t, exec (.doeRequest p (.spdm secured m)) s = .next t ∧ t.host.doeBusy.contains p = true ∧
        t.host.doeWait = s.host.doeWait ++ [(p, .spdm secured m)] ∧ t.host.doeResp = s.host.doeResp ∧ t.store = s.store) ∧
      (∀ secured m, (takeHeart 88 s).1.isSome = true → ∃ t b, exec (.doeRequest p (.spdm secured m)) s = .next t ∧ tget t.host.doeResp p = some b ∧ t.host.doeBusy.contains p = false ∧
        tgetD t.host.spdm p 0 = spdmSessions 4 (tgetD s.host.spdm p 0) secured m ∧ t.store = s.store ∧ t.host.mem = s.host.mem) ∧
      (∀ m bits u n k, takeHeart 88 s = (some bits, u) → 0 < tgetD s.host.spdm p 0 → spdmIs 0xFE m = true → fld m 11 1 = 0 → fld m 15 1 = n → n ≤ 16 → fld m 17 1 % 2 = k →
        ∃ t, exec (.doeRequest p (.spdm true m)) s = .next t ∧ (∀ i, i ≠ n → getIde (p / 2) i t = getIde (p / 2) i s) ∧
          (fld m 12 1 = 2 → getIde (p / 2) n t = ideProg m (bits.drop 48) (getIde (p / 2) n s)) ∧
          (fld m 12 1 = 4 → getIde (p / 2) n t = ideGo k (getIde (p / 2) n s)) ∧
          (fld m 12 1 = 5 → getIde (p / 2) n t = ideStop k (getIde (p / 2) n s))))) ∧
  (∀ (l n : Nat) (s : State), l < 2 → n < 17 →
    exec (.ideTlpFail l n) s = .next (setIde l n { getIde l n s with secure := false } s)) ∧
  (∀ (n : Nat) (s : State), n < 4096 → (getFn (.vf n) s).enabled = true → restarting s = false → s.start.failingOver = false → s.mode.mode ≠ 8 →
    (∀ k, tgetD s.host.tdis n .unlocked = .unlocked → (getAlloc (.vf n) s).owner.isSome = true → 1 ≤ k → k ≤ 16 →
      exec (.tdispMessage n (.lock k)) s = .next { s with host.tdis := tset s.host.tdis n .locked, host.tdiStream := tset s.host.tdiStream n k }) ∧
    (tgetD s.host.tdis n .unlocked = .locked → exec (.tdispMessage n .start) s = .next { s with host.tdis := tset s.host.tdis n .run }) ∧
    exec (.tdispMessage n .stop) s = .next { s with host.tdis := tdel s.host.tdis n, host.tdiStream := tdel s.host.tdiStream n } ∧
    exec (.tdispMessage n .query) s = .next s)

/-- Queue pairs and vectors: a doorbell inside the queue sets its index, one past it puts the queue in ERROR with cause DB_RANGE and raises its event, one to no queue is counted; a fetch takes the entries its tail, ring end and credit allow; the coalescing timer and an unmask send the pending vector; QUEUE_CREATE makes the queue its body describes, QUEUE_DESTROY removes an idle one and waits for the contexts of another, QUEUE_QUERY reads it (R244, R245, R246, R250, R251, R253, R255, R256). Completes: qmgSqTail, qmgCqHead, sqFetch, cqCoalTimer, msixUnmask, queueCreate, queueDestroy, queueQuery. -/
def Obligations.QueuesComplete : Prop :=
  (∀ (fn : Fn) (qid : Nat) (s : State), qidOk fn qid = true → s.mode.mode ≠ 8 → inD3 fn s = false → s.pwr.entry = none →
    (∀ q index, getQ (qKey fn qid) s = some q → q.destroying = none → (q.state = .active ∨ q.state = .paused) →
      (index < sqSize q → exec (.qmgSqTail fn qid index) s = .next (setQ (qKey fn qid) { q with sqTail := index } s)) ∧
      (index < cqSize q → exec (.qmgCqHead fn qid index) s = .next (setQ (qKey fn qid)
        { q with cqHead := index, unreleased := q.unreleased - (index + cqSize q - q.cqHead) % cqSize q } s)) ∧
      (sqSize q ≤ index → ∃ t q', exec (.qmgSqTail fn qid index) s = .next t ∧ getQ (qKey fn qid) t = some q' ∧ q'.state = .error ∧ q'.cause = .dbRange ∧
        q'.sqTail = q.sqTail ∧ (getFn fn t).events.getLsbD (queueErrBit fn) = true ∧ (∀ i, i ≠ qKey fn qid → getQ i t = getQ i s) ∧ t.store = s.store)) ∧
    (getQ (qKey fn qid) s = none → tget s.eth.rings (qKey fn qid) = none → (getFn fn s).dbErr < 65535 → ∀ index,
      ∃ t u, exec (.qmgSqTail fn qid index) s = .next t ∧ exec (.qmgCqHead fn qid index) s = .next u ∧ (getFn fn t).dbErr = (getFn fn s).dbErr + 1 ∧
        (getFn fn u).dbErr = (getFn fn s).dbErr + 1 ∧ t.host.queues = s.host.queues ∧ u.host.queues = s.host.queues)) ∧
  (∀ (fn : Fn) (qid : Nat) (q : Queue) (s : State), qidOk fn qid = true → getQ (qKey fn qid) s = some q →
    (q.state = .active → q.destroying = none → q.reading = [] → (getFn fn s).busMaster = true → inD3 fn s = false → cqFull q = false →
      queuesEnabled s = true → fetchCount fn q s ≠ 0 → stopIntake s = false →
      exec (.sqFetch fn qid) s = .next (setQ (qKey fn qid)
        { q with reading := (List.range (fetchCount fn q s)).map (· + q.sqHead), sqHead := (q.sqHead + fetchCount fn q s) % sqSize q } s)) ∧
    (s.host.coalDue.contains (qKey fn qid) = true → ∃ t, exec (.cqCoalTimer fn qid) s = .next t ∧ getQ (qKey fn qid) t = some { q with unsignalled := 0 } ∧
      t.host.coalDue = without s.host.coalDue (qKey fn qid) ∧ t.store = s.store ∧
      (inD3 fn s = false → (getFn fn s).maskAll = false → (getFn fn s).unmasked.contains q.vector = true → (getFn fn s).busMaster = true →
        t.host.msgs = (fn, q.vector) :: s.host.msgs))) ∧
  (∀ (fn : Fn) (qid : Nat) (r : Ring) (s : State), qidOk fn qid = true → getQ (qKey fn qid) s = none → tget s.eth.rings (qKey fn qid) = some r →
    s.host.coalDue.contains (qKey fn qid) = true → ∃ t, exec (.cqCoalTimer fn qid) s = .next t ∧ t.host.coalDue = without s.host.coalDue (qKey fn qid) ∧
      tget t.eth.rings (qKey fn qid) = some { r with unsignalled := 0 } ∧ t.store = s.store) ∧
  (∀ (fn : Fn) (vec : Nat) (s : State), fnOk fn = true →
    ∃ t, exec (.msixUnmask fn vec) s = .next t ∧ (getFn fn t).unmasked.contains vec = true ∧ t.store = s.store ∧ t.host.queues = s.host.queues ∧
      ((getFn fn s).pendingVec.contains vec = true → (getFn fn s).maskAll = false → inD3 fn s = false → (getFn fn s).busMaster = true →
        t.host.msgs = (fn, vec) :: s.host.msgs ∧ (getFn fn t).pendingVec.contains vec = false) ∧
      ((getFn fn s).pendingVec.contains vec = false → t.host.msgs = s.host.msgs)) ∧
  (∀ (mb : Mb) (q : Req) (s : State),
    (Accepted mb 0x0420 q s → queueCreateCheck mb q s = none →
      Ends (.queueCreate mb) s mb { body := leBytes 4 (dbOffset (mbFn mb) (fld q.body 0 2)) } (setQ (qKey (mbFn mb) (fld q.body 0 2)) (newQueue q.body) s)) ∧
    (∀ x, Accepted mb 0x0421 q s → queueNamed mb q s = none → getQ (qKey (mbFn mb) (fld q.body 0 2)) s = some x →
      (x.held = 0 → x.fetched = [] → x.reading = [] → ∃ t, exec (.queueDestroy mb) s = .next (finishMb mb { body := leBytes 4 0 } t) ∧
        getQ (qKey (mbFn mb) (fld q.body 0 2)) t = none ∧ (∀ i, i ≠ qKey (mbFn mb) (fld q.body 0 2) → getQ i t = getQ i s) ∧ t.store = s.store) ∧
      (x.held ≠ 0 → x.destroying = none → Holds (.queueDestroy mb) s mb q (.queueDrain (qKey (mbFn mb) (fld q.body 0 2)))
        (setQ (qKey (mbFn mb) (fld q.body 0 2)) { x with destroying := some mb, posted := 0 } s))) ∧
    (∀ x, Accepted mb 0x0422 q s → queueNamed mb q s = none → getQ (qKey (mbFn mb) (fld q.body 0 2)) s = some x →
      Ends (.queueQuery mb) s mb { body := layout 16 [(0, 4, qstatWord x), (4, 2, x.sqTail), (6, 2, x.cqTail), (8, 2, x.cqHead), (0x0C, 4, x.held)] } s))

/-- The journal ring: JRING_SETUP places the ring with every block to be written again, JRING_STOP takes it away; its doorbells set the indices, an index past the ring puts it in ERROR; an acknowledgement releases its block and moves the contiguous acknowledged SEQ, one of no written block is counted; in recovery a repeated block is reported, a good one is taken in order, the one at the committed SEQ whose head hash is the commit record's makes the store READY, a false one fails it (R76, R80, R250, R258, R259, R260, R261, R262). Completes: jringSetup, jringStop, qmgJrPost, qmgJrEvhead, qmgJrAck, jringInputBlock. -/
def Obligations.JournalRingCommandsComplete : Prop :=
  (∀ (mb : Mb) (q : Req) (s : State),
    (∀ p m, mb = .pf p m → Accepted mb 0x0310 q s → jringSetupCheck mb q s = none → s.store.recoverMb = none →
      ∃ t, exec (.jringSetup mb) s = .next (finishMb mb { body := layout 16 [(0, 8, s.store.head), (8, 8, s.host.jring.ackedSeq)] } t) ∧
        t.host.jring.state = .output ∧ t.host.jring.pf = p ∧ t.host.jring.ringAddr = fld q.body 0 8 ∧ t.host.jring.evtAddr = fld q.body 8 8 ∧
        t.host.jring.log2 = fld q.body 0x10 1 ∧ t.host.jring.head = 0 ∧ t.host.jring.tail = 0 ∧ t.host.jring.ackedSeq = s.host.jring.ackedSeq ∧
        t.host.jring.blocks = s.host.jring.blocks.map (fun x => { x with written := false }) ∧ t.store = s.store ∧ t.host.mem = s.host.mem) ∧
    (Accepted mb 0x0311 q s → jringStopCheck mb q s = none →
      ∃ t, exec (.jringStop mb) s = .next (finishMb mb { body := leBytes 8 s.host.jring.ackedSeq } t) ∧ t.host.jring.state = .off ∧
        t.host.jring.blocks = s.host.jring.blocks ∧ t.store = s.store)) ∧
  (∀ (p index : Nat) (s : State), p < 4 → inD3 (.pf p) s = false → s.pwr.entry = none → s.host.jring.pf = p →
    (s.host.jring.state = .output ∨ s.host.jring.state = .input) →
    (index < jrSize s → exec (.qmgJrPost p index) s = .next { s with host.jring.tail := index } ∧
      exec (.qmgJrEvhead p index) s = .next { s with host.jring.evHead := index, host.jring.evHeld :=
        s.host.jring.evHeld - (index + jrSize s - s.host.jring.evHead) % jrSize s }) ∧
    (jrSize s ≤ index → ∃ t u, exec (.qmgJrPost p index) s = .next t ∧ exec (.qmgJrEvhead p index) s = .next u ∧ t.host.jring.state = .error ∧
      u.host.jring.state = .error ∧ t.store = s.store ∧ u.store = s.store)) ∧
  (∀ (p : Nat) (seq : DWord) (s : State), p < 4 → inD3 (.pf p) s = false → s.pwr.entry = none → s.host.jring.pf = p → s.host.jring.state ≠ .off →
    (s.host.jring.blocks.any (fun b => b.seq == seq.toNat && b.written) = true →
      ∃ t, exec (.qmgJrAck p seq) s = .next t ∧ t.host.jring.blocks = s.host.jring.blocks.filter (fun b => b.seq != seq.toNat) ∧
        t.host.jring.ackedSeq = contiguous t.host.jring.blocks (seq.toNat :: s.host.jring.acked) s.host.jring.ackedSeq ∧
        t.host.jring.ackShadow = tset s.host.jring.ackShadow p seq ∧ t.store.c = s.store.c ∧ t.store.hist = s.store.hist ∧ t.host.mem = s.host.mem) ∧
    (s.host.jring.blocks.any (fun b => b.seq == seq.toNat && b.written) = false → (getFn (.pf p) s).dbErr < 65535 →
      ∃ t, exec (.qmgJrAck p seq) s = .next t ∧ (getFn (.pf p) t).dbErr = (getFn (.pf p) s).dbErr + 1 ∧ t.host.jring.blocks = s.host.jring.blocks ∧
        t.host.jring.ackedSeq = s.host.jring.ackedSeq ∧ t.store = s.store)) ∧
  (∀ (d : Bytes) (s : State), s.host.jring.state = .input → pfWrites s.host.jring.pf s = true → s.host.jring.head ≠ s.host.jring.tail →
    s.host.jring.evHeld < jrSize s → hostOk (.pf s.host.jring.pf) (s.host.jring.ringAddr + 16 * s.host.jring.head) 16 s = true →
    hostOk (.pf s.host.jring.pf) (jrBuffer s).1 (jrBuffer s).2 s = true →
    memReadN s.host.mem (jrBuffer s).1 (jrBuffer s).2 = d → hostOk (.pf s.host.jring.pf) (s.host.jring.evtAddr + 16 * s.host.jring.evTail) 16 s = true →
    (fld d 8 8 ≤ s.store.lastIn →
      ∃ t, exec .jringInputBlock s = .next t ∧ t.store = s.store ∧ t.host.jring.head = (s.host.jring.head + 1) % jrSize s ∧
        t.host.mem = memWriteN s.host.mem (s.host.jring.evtAddr + 16 * s.host.jring.evTail)
          (layout 16 [(0, 8, fld d 8 8), (8, 4, (jrBuffer s).2), (0x0C, 2, s.host.jring.head), (0x0E, 1, 0x83), (0x0F, 1, b2n s.host.jring.phase)])) ∧
    (s.store.lastIn < fld d 8 8 → fld d 8 8 < s.store.committed → blockVerifies d s = true →
      ∃ t, exec .jringInputBlock s = .next t ∧ t.store = { s.store with lastIn := fld d 8 8 } ∧ t.host.jring.head = (s.host.jring.head + 1) % jrSize s ∧
        t.host.mem = memWriteN s.host.mem (s.host.jring.evtAddr + 16 * s.host.jring.evTail)
          (layout 16 [(0, 8, fld d 8 8), (8, 4, (jrBuffer s).2), (0x0C, 2, s.host.jring.head), (0x0E, 1, 0x80), (0x0F, 1, b2n s.host.jring.phase)])) ∧
    (s.store.lastIn < fld d 8 8 → fld d 8 8 = s.store.committed → blockVerifies d s = true → headOf (fld d 8 8) s = commitHead s.store.commitRec →
      ∃ t, exec .jringInputBlock s = .next t ∧ t.store.state = .ready ∧ t.store.recoverMb = none ∧ t.host.jring.state = .output) ∧
    (s.store.lastIn < fld d 8 8 → fld d 8 8 ≤ s.store.committed →
      (blockVerifies d s = false ∨ (fld d 8 8 = s.store.committed ∧ headOf (fld d 8 8) s ≠ commitHead s.store.commitRec)) →
      ∃ t, exec .jringInputBlock s = .next t ∧ t.store.state = .failed ∧ t.store.c = {} ∧ t.store.recoverMb = none ∧ t.host.jring.state = .output))

/-- The class of a REQ_ID at a mailbox, by d = (REQ_ID − HIGH) mod 2^64: 1 to 2^20 is new; 0 or 2^64 − 2^20 + 1 to 2^64 − 1 is a repeat with a record and stale without one; any other is out of range; the first request after a reset is new; a new one sets HIGH, a stale or out-of-range one is answered so and runs nothing (R270). Completes: mailboxAccept. -/
def Obligations.RequestIdClasses : Prop :=
  (∀ (b : Mbox) (id h : Nat), id < 2 ^ 64 → h < 2 ^ 64 →
    (b.high = none → reqClass b id = .new) ∧
    (b.high = some h →
      (∀ d, 1 ≤ d → d ≤ 2 ^ 20 → id = (h + d) % 2 ^ 64 → reqClass b id = .new) ∧
      (∀ e, e < 2 ^ 20 → (id + e) % 2 ^ 64 = h →
        (∀ r, b.recs.find? (fun r => r.reqId == id) = some r → reqClass b id = .repeat_ r) ∧
        (b.recs.find? (fun r => r.reqId == id) = none → reqClass b id = .stale)) ∧
      (∀ d, 2 ^ 20 < d → d ≤ 2 ^ 64 - 2 ^ 20 → id = (h + d) % 2 ^ 64 → reqClass b id = .outOfRange))) ∧
  (∀ (mb : Mb) (ctx : Nat) (s : State) (q : Req), mbOk mb = true → (getMb mb s).state = .busy → (getMb mb s).accepted = false → (getMb mb s).cur = none →
    wardenAnswers s = true → swapping s = false → (mbIsVf mb = true → s.mode.mode ≠ 8) → readReq mb (getMb mb s) = q → reqVer (getMb mb s) = 1 → q.bodyLen ≤ bodyLimit mb →
    mbCtx mb s = some ctx → ∃ t, exec (.mailboxAccept mb) s = .next t ∧
      (reqClass (getMb mb s) q.reqId = .new → (getMb mb t).high = some q.reqId) ∧
      (reqClass (getMb mb s) q.reqId = .stale → (getMb mb t).high = (getMb mb s).high ∧ (getMb mb t).cur = none ∧
        (getMb mb t).resp = respBytes q.opcode q.reqId ctx (getMb mb s).token 0 { status := 0x0108 }) ∧
      (reqClass (getMb mb s) q.reqId = .outOfRange → (getMb mb t).high = (getMb mb s).high ∧ (getMb mb t).cur = none ∧
        (getMb mb t).resp = respBytes q.opcode q.reqId ctx (getMb mb s).token 0 { status := 0x010A }))

/-- MAILBOX_ACCEPT makes the checks of R269 in their order; the first that fails gives the answer: a bad header is answered with REQ_ID 0, then no free context, then the class of the REQ_ID; nothing is recorded and nothing else changes. A new request that passes is recorded IN_PROGRESS, becomes the mailbox's command and sets HIGH; one that steps 4 to 7 refuse is recorded DONE with the refusal (R269, R270, R271). Completes: mailboxAccept. -/
def Obligations.MailboxAcceptChecksInOrder : Prop :=
  ∀ (mb : Mb) (s : State) (q : Req), mbOk mb = true → (getMb mb s).state = .busy → (getMb mb s).accepted = false → (getMb mb s).cur = none →
    wardenAnswers s = true → swapping s = false → (mbIsVf mb = true → s.mode.mode ≠ 8) → readReq mb (getMb mb s) = q →
    ∃ t, exec (.mailboxAccept mb) s = .next t ∧ OnlyMailbox mb s t ∧
    ((reqVer (getMb mb s) ≠ 1 ∨ bodyLimit mb < q.bodyLen) →
      Answered mb t (respBytes q.opcode 0 0xFFFF (getMb mb s).token 0 { status := 0x0102 }) ∧ (getMb mb t).recs = (getMb mb s).recs) ∧
    (reqVer (getMb mb s) = 1 → q.bodyLen ≤ bodyLimit mb →
      (mbCtx mb s = none →
        Answered mb t (respBytes q.opcode q.reqId 0xFFFF (getMb mb s).token 0 { status := 0x0401 }) ∧ (getMb mb t).recs = (getMb mb s).recs) ∧
      (∀ ctx, mbCtx mb s = some ctx →
        (reqClass (getMb mb s) q.reqId = .stale →
          Answered mb t (respBytes q.opcode q.reqId ctx (getMb mb s).token 0 { status := 0x0108 }) ∧ (getMb mb t).recs = (getMb mb s).recs) ∧
        (reqClass (getMb mb s) q.reqId = .outOfRange →
          Answered mb t (respBytes q.opcode q.reqId ctx (getMb mb s).token 0 { status := 0x010A }) ∧ (getMb mb t).recs = (getMb mb s).recs) ∧
        (∀ r, reqClass (getMb mb s) q.reqId = .repeat_ r → recMatches r q = false →
          Answered mb t (respBytes q.opcode q.reqId ctx (getMb mb s).token 0 { status := 0x0109 }) ∧ (getMb mb t).recs = (getMb mb s).recs) ∧
        (∀ r, reqClass (getMb mb s) q.reqId = .repeat_ r → recMatches r q = true → r.state = .done →
          Answered mb t (respBytes q.opcode q.reqId r.ctx (getMb mb s).token (r.resp.info ||| 0x08) r.resp) ∧ (getMb mb t).recs = (getMb mb s).recs) ∧
        (reqClass (getMb mb s) q.reqId = .new →
          (getMb mb t).high = some q.reqId ∧ (getMb mb t).accepted = true ∧
          (acceptCheck mb q (takeReq mb q ctx { reqId := q.reqId, hashed := hashText q, state := .inProgress, opcode := q.opcode }
              (setMb mb { getMb mb s with high := some q.reqId, accepted := true } s)) = none →
            (getMb mb t).cur = some q ∧ (getMb mb t).state = .busy ∧ (getMb mb t).ctx = ctx ∧
            (getMb mb t).recs.getLast? = some { reqId := q.reqId, hashed := hashText q, state := .inProgress, opcode := q.opcode }) ∧
          (∀ st, acceptCheck mb q (takeReq mb q ctx { reqId := q.reqId, hashed := hashText q, state := .inProgress, opcode := q.opcode }
              (setMb mb { getMb mb s with high := some q.reqId, accepted := true } s)) = some st →
            Answered mb t (respBytes q.opcode q.reqId ctx (getMb mb s).token 0 { status := st })))))

/-- Steps 4 to 7 of R269: an opcode this interface level does not define, one the kind of mailbox does not take, one the mode does not permit, or a VF's command in a mode that enables no VFs, a body shorter than the command's fixed fields, in that order. -/
def Obligations.AcceptedCommandChecks : Prop :=
  ∀ (mb : Mb) (q : Req) (s : State),
    (cmdTable.find? (fun r => r.1 == q.opcode) = none → acceptCheck mb q s = some 0x0101) ∧
    (∀ op len vf, cmdTable.find? (fun r => r.1 == q.opcode) = some (op, len, vf) →
      (mbIsVf mb = true → vf = 0 → acceptCheck mb q s = some 0x0308) ∧
      (mbIsVf mb = true → vf = 2 → acceptCheck mb q s = some 0x0305) ∧
      (mbIsVf mb = true → vf = 1 → q.opcode / 256 ≠ 1 → mbOwner mb s = none → acceptCheck mb q s = some 0x0305) ∧
      ((mbIsVf mb = false ∨ (vf = 1 ∧ (q.opcode / 256 = 1 ∨ mbOwner mb s ≠ none))) →
        ((modeAllows q s = false ∨ (mbIsVf mb = true ∧ modeVfs s.mode.mode = false)) → acceptCheck mb q s = some 0x0603) ∧
        (modeAllows q s = true → (mbIsVf mb = true → modeVfs s.mode.mode = true) →
          (q.bodyLen < len → acceptCheck mb q s = some 0x0103) ∧ (len ≤ q.bodyLen → acceptCheck mb q s = none))))

/-- A doorbell with GO makes an idle mailbox BUSY and latches TOKEN, during a trusted restart it is answered DEVICE_RESTARTING with nothing recorded, while BUSY it is dropped and counted in DB_ERR; a deadline ends a command that has changed nothing with TIMEOUT (R265, R266, R281). Completes: pfmDoorbell, vfmDoorbell, mailboxDeadlineExpiry. -/
def Obligations.DoorbellsAndDeadlines : Prop :=
  (∀ (p m token : Nat) (s : State), p < 4 → m < 8 → pfPresent s p = true → inD3 (.pf p) s = false → s.pwr.entry = none →
    ((getMb (.pf p m) s).state ≠ .busy → restarting s = false →
      exec (.pfmDoorbell p m true token) s = .next (setMb (.pf p m) { getMb (.pf p m) s with state := .busy, accepted := false, token := token % 65536 } s)) ∧
    ((getMb (.pf p m) s).state ≠ .busy → restarting s = true → (getMb (.pf p m) s).cur = none →
      ∃ t, exec (.pfmDoorbell p m true token) s = .next t ∧ OnlyMailbox (.pf p m) s t ∧ (getMb (.pf p m) t).recs = (getMb (.pf p m) s).recs ∧
        (getMb (.pf p m) t).high = (getMb (.pf p m) s).high ∧ (getMb (.pf p m) t).accepted = false ∧
        Answered (.pf p m) t (respBytes (readReq (.pf p m) (getMb (.pf p m) s)).opcode (readReq (.pf p m) (getMb (.pf p m) s)).reqId 0xFFFF
          (token % 65536) 0 { status := 0x0602 })) ∧
    ((getMb (.pf p m) s).state = .busy → exec (.pfmDoorbell p m true token) s = .next (countDoorbell (.pf p) s)) ∧
    exec (.pfmDoorbell p m false token) s = .next s) ∧
  (∀ (n token : Nat) (s : State), n < 4096 → (getFn (.vf n) s).enabled = true → inD3 (.vf n) s = false → s.pwr.entry = none →
    (getMb (.vf n) s).state ≠ .busy → restarting s = false → (getAlloc (.vf n) s).quiesce = false → (getAlloc (.vf n) s).freeze = false →
    (getAlloc (.vf n) s).quiesced = false → (getAlloc (.vf n) s).frozen = false →
    exec (.vfmDoorbell n true token) s = .next (setMb (.vf n) { getMb (.vf n) s with state := .busy, accepted := false, token := token % 65536 } s)) ∧
  (∀ (mb : Mb) (q : Req) (s : State), mbOk mb = true → (getMb mb s).cur = some q → (getMb mb s).rank8 = false → (getMb mb s).wait = .none →
    wardenAnswers s = true → exec (.mailboxDeadlineExpiry mb) s = .next (finishMb mb { status := 0x0505 } s))

/-- The commands any mailbox may send answer what the device is, its state, and what became of a REQ_ID of the same mailbox, and change nothing else (R273). Completes: deviceIdentify, deviceStatus, reqidQuery. -/
def Obligations.IdentityCommandsAnswer : Prop :=
  ∀ (mb : Mb) (q : Req) (s : State),
    (Accepted mb 0x0101 q s → Ends (.deviceIdentify mb) s mb { body := layout 17 [(0, 2, 0x6412), (2, 1, 0xB1), (3, 1, 0x09),
      (4, 2, s.ident.wdnLevel), (6, 2, s.ident.svcLevel), (8, 8, s.ident.deviceRef), (0x10, 1, s.mode.mode)] } s) ∧
    (Accepted mb 0x0102 q s → Ends (.deviceStatus mb) s mb { body := layout 24 [(0, 4, modeWord s), (4, 4, (condValue s).toNat), (8, 4, seedWord s),
      (0x0C, 2, ctxFree s), (0x0E, 2, mbxCtxFree s), (0x10, 8, s.start.epoch)] } s) ∧
    (Accepted mb 0x0105 q s →
      ((getMb mb s).recs.find? (fun r => r.reqId == fld q.body 0 8) = none →
        Ends (.reqidQuery mb) s mb { body := layout 16 [(8, 8, (getMb mb s).high.getD 0)] } s) ∧
      (∀ r, (getMb mb s).recs.find? (fun r => r.reqId == fld q.body 0 8) = some r →
        Ends (.reqidQuery mb) s mb { body := layout 16 [(0, 1, recCode r.state), (2, 2, r.resp.status), (8, 8, (getMb mb s).high.getD 0)] } s)) ∧
    (∀ st, Accepted mb 0x0101 q s → OnlyMailbox mb (endJob mb s) (finishMb mb st s) ∧ (NoKeyInUse mb s → endJob mb s = s))

/-- Each lookaside class row checks an admitted entry in the order of R295: a field without encoding ends it FIELD_INVALID, a length out of the class's limits LENGTH_INVALID, a key that fails with that check's status; an entry that passes holds its leases and waits for its engine (R277, R295, R297-R313). Completes: gcmEnc, gcmDec, gmacGen, gmacVer, ctr, cmacGen, cmacVer, hash, hmacGen, hmacVer, wrap, unwrap, sign, verify, agree, derive, random, tally, pinXlate, legacyMac. -/
def Obligations.ClassRowsComplete : Prop :=
  ∀ p ∈ ([(0x01, .gcmEnc), (0x02, .gcmDec), (0x03, .gmacGen), (0x04, .gmacVer), (0x05, .ctr), (0x06, .cmacGen), (0x07, .cmacVer), (0x08, .hash),
      (0x09, .hmacGen), (0x0A, .hmacVer), (0x0B, .wrap), (0x0C, .unwrap), (0x0D, .sign), (0x0E, .verify), (0x0F, .agree), (0x10, .derive),
      (0x11, .random), (0x12, .tally), (0x13, .pinXlate), (0x14, .legacyMac)] : List (Nat × (Nat → Instr))),
  ∀ (c : Nat) (x : Ctx) (s : State), c < 8192 → getCtx c s = some x → x.state = .admitted → ctxClass x = p.1 →
    (fieldsOk x.entry = false →
      exec (p.2 c) s = .next (setCtx c { x with state := .draining, outcome := some { status := 0x0103 } } s)) ∧
    (fieldsOk x.entry = true → bitOf (fld x.entry 1 1) 0 = false → bitOf (fld x.entry 1 1) 1 = false →
      lengthsOk x.entry (fld x.entry 0x18 4) (fld x.entry 0x1C 4) = false →
      exec (p.2 c) s = .next (setCtx c { x with state := .draining, outcome := some { status := 0x0104 } } s)) ∧
    (∀ y st, admitChecks x s = .ok y → entryKeys y s = .error st →
      ∃ t, exec (p.2 c) s = .next t ∧ getCtx c t = some { y with state := .draining, outcome := some { status := st } } ∧
        (∀ i, i ≠ c → getCtx i t = getCtx i s) ∧ t.store = s.store ∧ t.host = s.host ∧ t.units = s.units) ∧
    (∀ y ks k, admitChecks x s = .ok y → entryKeys y s = .ok ks → (∀ q, ks.head? = some q → q.2 = k) → frozen s = false →
      restartHolds p.1 ks s = false → finishing s = false → pinFits ks s = true → (∀ q ∈ ks, useReady q.2 s = true) → keyLengthOk y k = true → outNeed y k ≤ destRoom y →
      ∃ t z, exec (p.2 c) s = .next t ∧ getCtx c t = some z ∧ z.state = .leasing ∧ z.admitted = true ∧ z.leases = ks.map (fun q => (q.1, q.2.gen)) ∧
        z.outLen = outNeed y k ∧ z.srcElems = y.srcElems ∧ z.dstElems = y.dstElems ∧ z.invocation = x.invocation ∧
        (∀ i, i ≠ c → getCtx i t = getCtx i s) ∧ t.units = s.units ∧ t.cores = s.cores ∧ t.mbox = s.mbox)

/-- Contexts: a deadline ends one that is not settled with TIMEOUT, or DEVICE_RESTARTING where a trusted restart kept it waiting, and never a settled one; one whose waits are satisfied takes its source data into its stand's ingress buffer and runs on its lane, stream slot or service core, or asks its entropy port, an encryption taking its invocation value on the way; a hash ends OK with its digest, a failed tag with TAG_MISMATCH and no output; a faulting address names its element and offset; a drained context posts, a voided one is free; missing random bits end a job with ENTROPY_UNAVAILABLE (R277, R278, R279, R284, R289, R302, R304, R309). Completes: deadlineExpiry, contextWaitSatisfied, engineEnd, contextDrained, entropyWaitExpiry. -/
def Obligations.ContextsRunAndEnd : Prop :=
  ∀ (c : Nat) (x : Ctx) (s : State), c < 8192 → getCtx c s = some x →
    (unsettled x.state = false → exec (.deadlineExpiry c) s = .next s) ∧
    (unsettled x.state = true → ∃ t z o, exec (.deadlineExpiry c) s = .next t ∧ getCtx c t = some z ∧ z.state = .draining ∧ z.outcome = some o ∧
      o.status = (if restartWait x s then 0x0602 else 0x0505) ∧ (x.state ≠ .running → o.done = 0 ∧ o.info = 0 ∧ t.units = s.units) ∧
      (∀ i, i ≠ c → getCtx i t = getCtx i s) ∧ t.store = s.store ∧ t.host = s.host) ∧
    (∀ slot gen k st g y u, x.state = .leasing → x.admitted = true → (∀ n, CtxWait.commit n ∉ x.waits) → keysHere x s = true → laneClass (ctxClass x) = true →
      x.leases.head? = some (slot, gen) → leaseKey x 0 s = some k → x.stand = some st → frozen s = false → dozing st s = false →
      (getStand st s).lookasideEn = true → (getStand st s).offline = false → takeIn st x s = (some y, u) → laneForKey st slot gen u = some g →
      (encrypts x.entry k = false → ∃ t z, exec (.contextWaitSatisfied c) s = .next t ∧ getCtx c t = some z ∧ z.state = .running ∧ z.lane = some g ∧
        z.stand = some st ∧ z.ingress = y.ingress ∧ z.waits = [] ∧ z.invocation = x.invocation ∧ (∀ i, i ≠ c → getCtx i t = getCtx i s) ∧ t.store = s.store) ∧
      (∀ v w, encrypts x.entry k = true → takeInvocation slot u = (some v, w) →
        ∃ t z, exec (.contextWaitSatisfied c) s = .next t ∧ getCtx c t = some z ∧ z.state = .running ∧ z.lane = some g ∧ z.invocation = some v ∧
          (∀ i, i ≠ c → getCtx i t = getCtx i s) ∧ t.store = w.store)) ∧
    (∀ g i y u, x.state = .leasing → x.admitted = true → (∀ n, CtxWait.commit n ∉ x.waits) → keysHere x s = true → streamClass (ctxClass x) = true →
      frozen s = false → streamNone x s = false → streamPlace x s = some g → freeStream (getDge g s) = some i → dozing (g / 2) s = false →
      takeIn (g / 2) { x with stand := some (g / 2) } s = (some y, u) →
      ∃ t z, exec (.contextWaitSatisfied c) s = .next t ∧ getCtx c t = some z ∧ z.state = .running ∧ z.stand = some (g / 2) ∧
        tget (getDge g t).streams i = some c ∧ (∀ j, j ≠ i → tget (getDge g t).streams j = tget (getDge g s).streams j) ∧ (∀ i, i ≠ c → getCtx i t = getCtx i s) ∧ t.store = s.store) ∧
    (∀ st g v y u, x.state = .leasing → x.admitted = true → (∀ n, CtxWait.commit n ∉ x.waits) → keysHere x s = true → serviceClass (ctxClass x) = true →
      restarting s = false → x.stand = some st → serviceStandOk x s st = true → (ctxStands x s).any (serviceStandOk x s) = true → dozing st s = false →
      v = serviceJoin st c (setCtx c x s) → serviceGrant st c v = some g → takeIn st x v = (some y, u) → (hucWork y u ≠ 0 → (hucFor st u).isSome = true) →
      ∃ t z, exec (.contextWaitSatisfied c) s = .next t ∧ getCtx c t = some z ∧ z.state = .running ∧ z.core = some g ∧ z.stand = some st ∧ z.waits = [] ∧
        (hucWork y u ≠ 0 → hucBusy (.ctx c) t = true) ∧ (∀ i, i ≠ c → getCtx i t = getCtx i s) ∧ t.store = s.store) ∧
    (∀ st, x.state = .leasing → x.admitted = true → (∀ n, CtxWait.commit n ∉ x.waits) → keysHere x s = true → ctxClass x = 0x11 →
      randomStand x s = some st → (getBank st s).queue.length < 8 → (portStat (getBank st s) (systemEngine x s)).state ≠ 2 →
      ∃ t z r, exec (.contextWaitSatisfied c) s = .next t ∧ getCtx c t = some z ∧ z.state = .running ∧ (getBank st t).queue = (getBank st s).queue ++ [r] ∧
        r.ctx = some c ∧ r.master = systemEngine x s ∧ t.store = s.store) ∧
    (x.state = .running → notEnded c x s = false → ctxClass x = 0x08 → x.leases = [] → x.input = none → ctxCall x s = none → x.lane = none →
      jobFault x (digest (classSel x.entry) (jobData x s)).length s = none →
      ∃ t z o, exec (.engineEnd c .final) s = .next t ∧ getCtx c t = some z ∧ z.state = .draining ∧ z.outcome = some o ∧ o.status = 0 ∧ o.info = runInfo x ∧
        o.done = (digest (classSel x.entry) (jobData x s)).length ∧ o.result = o.done ∧
        z.writes = scatterFrom x.dstElems 0 (digest (classSel x.entry) (jobData x s)) ∧ (∀ i, i ≠ c → getCtx i t = getCtx i s) ∧ t.host = s.host ∧ t.store = s.store) ∧
    (∀ k, x.state = .running → notEnded c x s = false → ctxClass x = 0x07 → leaseKey x 0 s = some k → x.input = none → ctxCall x s = none →
      jobFault x 0 s = none →
      ∃ t z o, exec (.engineEnd c .final) s = .next t ∧ getCtx c t = some z ∧ z.state = .draining ∧ z.outcome = some o ∧ z.writes = [] ∧ o.done = 0 ∧
        o.status = (if (aesCmac (material k) (jobData x s)).take (fld x.entry 0x2C 1) = auxTag x then 0 else 0x0504) ∧ t.host = s.host ∧ t.store = s.store) ∧
    (∀ dst i off e, x.state = .running → x.input = none → i ≠ 0 → (if dst then x.dstElems else x.srcElems)[i - 1]? = some e → off < e.len →
      (dst = true ∨ x.ingress = none ∨ heldWhole x = false) →
      ∃ t z o, exec (.engineEnd c (.addressFault dst i off)) s = .next t ∧ getCtx c t = some z ∧ z.state = .draining ∧ z.outcome = some o ∧
        o.status = 0x0502 ∧ o.elem = (if dst then i + 0x8000 else i) ∧ o.offset = off ∧ (x.early = false → o.done = 0) ∧ t.host = s.host ∧ t.store = s.store) ∧
    (x.state = .draining → x.early = false → ctxCall x s = none → (∀ fn q n, x.src = .queue fn q n → inD3 fn s = false) →
      ∃ t z, exec (.contextDrained c) s = .next t ∧ getCtx c t = some z ∧ z.state = .posting ∧ z.outcome = x.outcome ∧ z.leases = [] ∧ z.lane = none ∧ z.core = none ∧
        t.host.mem = x.writes.foldl (fun m w => memWriteN m w.1 w.2) s.host.mem ∧ hucBusy (.ctx c) t = false ∧ (∀ i, i ≠ c → getCtx i t = getCtx i s) ∧ t.store = s.store) ∧
    (∀ mb, x.state = .voided → x.src = .mailbox mb → x.early = false → ∃ t, exec (.contextDrained c) s = .next t ∧ getCtx c t = none ∧
      (∀ i, i ≠ c → getCtx i t = getCtx i s) ∧ t.store = s.store) ∧
    (x.state = .running → starved x s = true → ∃ t z o, exec (.entropyWaitExpiry (.context c)) s = .next t ∧ getCtx c t = some z ∧ z.state = .draining ∧
      z.outcome = some o ∧ o.status = 0x0701 ∧ (ctxClass x ≠ 0x11 → o.done = 0) ∧ (ctxClass x = 0x11 → o.done = x.delivered.length) ∧ t.host = s.host ∧ t.store = s.store)

/-- Frames: a frame with a bad FCS, too short or too long is dropped and counted; a good one to a clear port joins the frames in flight toward the port's forwarding; a protected one takes a lane with the verdict of its ICV, or waits in its buffer where no lane can take it; an egress frame is protected under the encoding SA, whose next PN rises by one; a frame whose work is done leaves, on the wire or, its ICV bad under Strict, not at all, the frames that wait for a lane taking one first; a transmit ring's entry is sent or refused with an event; links go up and down (R319, R320, R321, R322, R324, R329, R331, R335, R336, R340, R341, R342). Completes: frameReceive, frameTxClassify, frameRelease, frameRingTx, ethLinkUp, ethLinkDown. -/
def Obligations.FramesComplete : Prop :=
  (∀ (port : Nat) (frame : Bytes) (s : State), port < 32 → portRuns port s = true → inWatch s = false →
    (frame.drop (frame.length - 4) ≠ fcs (frame.take (frame.length - 4)) →
      exec (.frameReceive port frame) s = .next (portDrop port 0 s)) ∧
    (frame.drop (frame.length - 4) = fcs (frame.take (frame.length - 4)) → 64 ≤ frame.length → frame.length ≤ (getPort port s).mtu →
      etherType (frame.take (frame.length - 4)) ≠ 0x8808 → etherType (frame.take (frame.length - 4)) ≠ 0x888E →
      bufRoom (2 * (port / 4)) (frame.length - 4) s = true → frozen s = false → pairLost port s = false →
      (∀ fn qid, getSecy port s = none → (getPort port s).clear = true → (getPort port s).fwd = .ring fn qid →
        exec (.frameReceive port frame) s = .next { setPort port { getPort port s with rx := (getPort port s).rx + 1 } s with
          eth.flight := s.eth.flight ++ [{ source := port, dest := .ring fn qid, controlled := true, buf := 2 * (port / 4), data := frame.take (frame.length - 4) }] }) ∧
      (∀ y t sci sc c a g, getSecy port s = some y → etherType (frame.take (frame.length - 4)) = 0x88E5 →
        parseTag (isXpn y.suite) (frame.take (frame.length - 4)) = some t → t.sci = some sci →
        s.eth.scs.find? (fun p => p.2.port == port && !p.2.tx && !p.2.removing && p.2.sci == sci) = some (sc, c) →
        liveSa (4 * sc + t.an) s = some a → a.enable = true → (y.replay = true → a.lowest ≤ recoverPn y.suite t.pn a.lowest) → inlineLane (port / 8) a.slot a.gen s = g →
        bitOf t.tci 3 = true → y.offset = 0 →
        ∃ u f, exec (.frameReceive port frame) s = .next u ∧ u.eth.flight = s.eth.flight ++ [f] ∧ f.sa = some (4 * sc + t.an) ∧ f.lane = g ∧ f.rx = true ∧
          f.pn = recoverPn y.suite t.pn a.lowest ∧
          f.icvOk = (t.icv == gcmTag (saKey a s) (macsecIv y.suite c.sci c.ssci f.pn a.salt) (frame.take 12 ++ t.tag) t.data) ∧
          f.data = frame.take 12 ++ gcmCrypt (saKey a s) (macsecIv y.suite c.sci c.ssci f.pn a.salt) t.data ∧ u.host = s.host))) ∧
  (∀ (port i : Nat) (f : Frame) (y : Secy) (a : Sa) (c : Sc) (an : Nat) (s : State), port < 32 →
    s.eth.flight.findIdx? (fun f => f.classify && f.dest == .port port) = some i → s.eth.flight[i]? = some f → portRuns port s = true → frozen s = false →
    pairLost port s = false → getSecy port s = some y → y.encAn = some an → an < 4 → liveSa (4 * y.txSc + an) s = some a → tget s.eth.scs y.txSc = some c →
    (protectFrame y c an a.next a (saKey a s) f.data).length + 4 ≤ (getPort port s).mtu + 32 →
    (a.exhausted = false →
      ∃ t g b, exec (.frameTxClassify port) s = .next t ∧ t.eth.flight = replaceAt s.eth.flight i (some g) ∧ g.data = protectFrame y c an a.next a (saKey a s) f.data ∧
        g.sa = some (4 * y.txSc + an) ∧ g.lane = inlineLane (port / 8) a.slot a.gen s ∧ g.pn = a.next ∧ g.classify = false ∧ tget t.eth.sas (4 * y.txSc + an) = some b ∧ b.next = a.next + 1 ∧
        b.exhausted = decide (lastPn y.suite ≤ a.next)) ∧
    (a.exhausted = true → ∃ t, exec (.frameTxClassify port) s = .next t ∧ t.eth.flight = replaceAt s.eth.flight i none ∧ t.eth.sas = s.eth.sas)) ∧
  (∀ (pos i : Nat) (f : Frame) (s u : State), pos < 8 → steerWaiting pos s = u → nextRelease pos true u = some (i, f) →
    (∀ n, f.sa = none → f.dest = .port n → portRuns n u = true →
      ∃ t, exec (.frameRelease pos) s = .next t ∧ t.eth.sent = (n, f.data) :: u.eth.sent ∧ t.eth.flight = replaceAt u.eth.flight i none ∧
        (getPort n t).tx = (getPort n u).tx + 1 ∧ t.host = u.host ∧ t.store = u.store) ∧
    (∀ n id, f.sa = some id → f.rx = false → f.dest = .port n → portRuns n u = true →
      ∃ t, exec (.frameRelease pos) s = .next t ∧ t.eth.sent = (n, f.data) :: u.eth.sent ∧ t.eth.flight = replaceAt u.eth.flight i none ∧ t.host = u.host ∧ t.store = u.store) ∧
    (∀ id y a, f.sa = some id → f.rx = true → getSecy f.port u = some y → tget u.eth.sas id = some a → f.icvOk = false → f.keepBad = false →
      ∃ t, exec (.frameRelease pos) s = .next t ∧ t.eth.flight = replaceAt u.eth.flight i none ∧ t.eth.sent = u.eth.sent ∧ t.host = u.host ∧
        tgetD (getPort f.port t).drops 4 0 = tgetD (getPort f.port u).drops 4 0 + 1 ∧ t.store = u.store)) ∧
  (∀ (fn : Fn) (ring : Nat) (r : Ring) (b : Bytes) (s : State), qidOk fn ring = true → queuesEnabled s = true → ringServes (qKey fn ring) 1 s = some r →
    hostOk fn (r.addr + 16 * r.head) 16 s = true → memReadN s.host.mem (r.addr + 16 * r.head) 16 = b → hostOk fn (r.evt + 16 * r.evTail) 16 s = true →
    (fld b 8 2 < 60 → ∃ t x, exec (.frameRingTx fn ring) s = .next t ∧ tget t.eth.rings (qKey fn ring) = some x ∧ x.head = (r.head + 1) % 2 ^ r.log2 ∧
      x.evTail = (r.evTail + 1) % 2 ^ r.log2 ∧ t.eth.flight = s.eth.flight ∧ t.store = s.store) ∧
    (∀ n, fld b 0x0A 1 = n → maySend fn n s = true → 60 ≤ fld b 8 2 → fld b 8 2 + 4 ≤ (getPort n s).mtu → portRuns n s = true → hostOk fn (fld b 0 8) (fld b 8 2) s = true →
      frozen s = false → pairLost n s = false → getSecy n s = none → (getPort n s).clear = true → bitOf (fld b 0x0B 1) 0 = false →
      bufRoom (2 * (n / 4) + 1) (fld b 8 2) s = true →
      ∃ t x f, exec (.frameRingTx fn ring) s = .next t ∧ t.eth.flight = s.eth.flight ++ [f] ∧ f.data = memReadN s.host.mem (fld b 0 8) (fld b 8 2) ∧
        f.dest = .port n ∧ f.sa = none ∧ tget t.eth.rings (qKey fn ring) = some x ∧ x.head = (r.head + 1) % 2 ^ r.log2 ∧ x.evTail = (r.evTail + 1) % 2 ^ r.log2 ∧
        t.store = s.store)) ∧
  (∀ (port : Nat) (s : State), port < 32 →
    (portExists port s = true → (getPort port s).up = false → (getPos (port / 4) s).stopped = false → inWatch s = false →
      ∃ t, exec (.ethLinkUp port) s = .next t ∧ (getPort port t).up = true ∧ (getPort port t).localFault = false ∧ (∀ i, i ≠ port → getPort i t = getPort i s) ∧
        t.store = s.store) ∧
    ((getPort port s).up = true → ∃ t, exec (.ethLinkDown port) s = .next t ∧ (getPort port t).up = false ∧ (∀ i, i ≠ port → getPort i t = getPort i s) ∧ t.store = s.store) ∧
    ((getPort port s).up = false → exec (.ethLinkDown port) s = .next s))

/-- The commands of the ports and of MACsec: PORT_CONFIG takes its position down into the new mode, PORT_SET and SECY_SET write their fields, statuses and counters read them, a SecY, SC or SA is made as its body says, an SA binding its key, and one with nothing in flight goes at its removal; SA_SWITCH changes the encoding SA and answers the old one's next PN (R323, R326, R328, R330, R331, R332, R339, R340, R343, R345). Completes: portConfig, portSet, portStatus, portRetrain, secyCreate, secySet, secyDestroy, scAdd, scRemove, saAdd, saRemove, saDrained, saSwitch, saSet, macsecStats, frameRingCreate. -/
def Obligations.MacsecCommandsComplete : Prop :=
  ∀ (mb : Mb) (q : Req) (n : Nat) (s : State), fld q.body 0 1 = n →
    (Accepted mb 0x0501 q s → portConfigCheck mb q s = none →
      ∃ t, Ends (.portConfig mb) s mb {} t ∧ (getPos n t).mode = fld q.body 1 1 ∧ (getPos n t).phy = fld q.body 2 1 ∧ (getPos n t).an = bitOf (fld q.body 3 1) 0 ∧
        (∀ i, i / 4 = n → (getPort i t).up = false ∧ (getPort i t).rx = 0 ∧ (getPort i t).tx = 0) ∧ (∀ i, i / 4 ≠ n → getPort i t = getPort i s) ∧
        (∀ i, i ≠ n → getPos i t = getPos i s) ∧ t.store = s.store) ∧
    (Accepted mb 0x0502 q s → portSetCheck mb q s = none →
      ∃ t, Ends (.portSet mb) s mb {} t ∧ (getPort n t).mtu = fld q.body 2 2 ∧ (getPort n t).clear = bitOf (fld q.body 1 1) 0 ∧
        (fld q.body 4 1 = 0 → (getPort n t).fwd = .drop) ∧ (fld q.body 4 1 = 1 → (getPort n t).fwd = .port (fld q.body 5 1)) ∧
        (fld q.body 4 1 = 2 → (getPort n t).fwd = .ring (fld q.body 6 2) (fld q.body 8 2)) ∧ (getPort n t).uncFn = fld q.body 0x0A 2 ∧
        (getPort n t).uncQid = fld q.body 0x0C 2 ∧ (getPort n t).up = (getPort n s).up ∧ (∀ i, i ≠ n → getPort i t = getPort i s) ∧ t.store = s.store) ∧
    (Accepted mb 0x0503 q s → portNamed mb n s = none →
      Ends (.portStatus mb) s mb { body := layout 0x1C [(0, 4, portWord n s), (8, 8, (getPort n s).fecCorr.toNat), (0x10, 8, (getPort n s).fecUncorr.toNat), (0x18, 4, (getPort n s).anResult)] } s) ∧
    (Accepted mb 0x0504 q s → portNamed mb n s = none →
      ∃ t, Ends (.portRetrain mb) s mb { body := leBytes 4 (portWord n t) } t ∧ (getPort n t).up = false ∧ (∀ i, i ≠ n → getPort i t = getPort i s) ∧ t.store = s.store) ∧
    (Accepted mb 0x0508 q s → secyCreateCheck mb q s = none →
      ∃ t y, Ends (.secyCreate mb) s mb { body := leBytes 4 (freeSc s) } t ∧ getSecy n t = some y ∧ y.owner = fld q.body 4 4 ∧ y.suite = fld q.body 1 1 ∧
        y.offset = fld q.body 2 1 ∧ y.validate = fld q.body 3 1 ∧ y.txSc = freeSc s ∧ y.encAn = none ∧
        tget t.eth.scs (freeSc s) = some { port := n, tx := true, sci := beFld q.body 0x10 8, ssci := beFld q.body 0x18 4 } ∧
        (∀ i, i ≠ n → getSecy i t = getSecy i s) ∧ t.store = s.store) ∧
    (Accepted mb 0x0509 q s → secySetCheck mb q s = none → Ends (.secySet mb) s mb {} { s with eth.secys := tmod s.eth.secys n (secyWith q.body) }) ∧
    (Accepted mb 0x050A q s → secyNamed mb n s = none → (s.eth.secys.map Prod.fst).Pairwise (· < ·) → (s.eth.scs.map Prod.fst).Pairwise (· < ·) →
      (∀ p ∈ s.eth.sas, ∀ c ∈ s.eth.scs, c.1 = p.1 / 4 → c.2.port ≠ n) → (∀ p ∈ s.eth.sas, saPort p.1 s ≠ n) →
      ∃ t, Ends (.secyDestroy mb) s mb { body := leBytes 4 0 } t ∧ getSecy n t = none ∧ (∀ c ∈ t.eth.scs, c.2.port ≠ n) ∧ t.eth.sas = s.eth.sas ∧ t.store = s.store) ∧
    (Accepted mb 0x0510 q s → scAddCheck mb q s = none → Ends (.scAdd mb) s mb { body := leBytes 4 (freeSc s) }
      { s with eth.scs := tset s.eth.scs (freeSc s) { port := n, tx := false, sci := beFld q.body 8 8, ssci := beFld q.body 4 4 } }) ∧
    (∀ id, Accepted mb 0x0511 q s → fld q.body 0 4 = id → scRemoveCheck mb q s = none → (s.eth.scs.map Prod.fst).Pairwise (· < ·) → (∀ p ∈ s.eth.sas, p.1 / 4 ≠ id) →
      ∃ t, Ends (.scRemove mb) s mb {} t ∧ tget t.eth.scs id = none ∧ t.eth.sas = s.eth.sas ∧ t.store = s.store) ∧
    (∀ c slot k, Accepted mb 0x0518 q s → storeCheck saAddCheck mb q s = none → saAddDesig mb q s = none → canChange s = true →
      tget s.eth.scs (fld q.body 0 4) = some c → resolve (fld q.body 8 8) none s = some (slot, k) → inSapwood slot k s = true →
      pinFits [(slot, k)] s = true →
      (c.tx = false → ∃ t a b, Ends (.saAdd mb) s mb { body := leBytes 4 (4 * fld q.body 0 4 + fld q.body 4 1) } t ∧
        tget t.eth.sas (4 * fld q.body 0 4 + fld q.body 4 1) = some a ∧ a.slot = slot ∧ a.gen = k.gen ∧ a.next = beFld q.body 0x10 8 ∧ a.lowest = beFld q.body 0x10 8 ∧
        a.ready = true ∧ tget t.store.c.keys slot = some b ∧ b.saBound = k.saBound + 1 ∧ b.state = k.state) ∧
      (c.tx = true → ∃ t a b r, exec (.saAdd mb) s = .next t ∧ (getMb mb t).wait = .commit s.store.nextSeq r ∧
        tget t.eth.sas (4 * fld q.body 0 4 + fld q.body 4 1) = some a ∧ a.slot = slot ∧ a.gen = k.gen ∧ a.next = beFld q.body 0x10 8 ∧ a.ready = false ∧
        tget t.store.c.keys slot = some b ∧ b.saBound = k.saBound + 1 ∧ b.state = .exhausted)) ∧
    (∀ id a, tget s.eth.sas id = some a → saFlight id s = 0 →
      (Accepted mb 0x0519 q s → fld q.body 0 4 = id → saRemoveCheck mb q s = none →
        ∃ t, Ends (.saRemove mb) s mb { body := beBytes 8 a.next } t ∧ tget t.eth.sas id = none ∧
          (∀ k, tget s.store.c.keys a.slot = some k → k.gen = a.gen → tget t.store.c.keys a.slot = some { k with saBound := k.saBound - 1 })) ∧
      (id < 131072 → a.removing = true →
        ∃ t, exec (.saDrained id) s = .next t ∧ tget t.eth.sas id = none ∧
          (∀ k, tget s.store.c.keys a.slot = some k → k.gen = a.gen → tget t.store.c.keys a.slot = some { k with saBound := k.saBound - 1 }))) ∧
    (∀ y, Accepted mb 0x051A q s → saSwitchCheck mb q s = none → getSecy n s = some y →
      Ends (.saSwitch mb) s mb { body := leBytes 8 (y.encAn.getD 0) ++ beBytes 8 (match encSa y s with | some a => a.next | none => 0) }
        { s with eth.secys := tmod s.eth.secys n (fun y => { y with encAn := some (fld q.body 1 1) }) }) ∧
    (∀ a, Accepted mb 0x051B q s → saSetCheck mb q s = none → tget s.eth.sas (fld q.body 0 4) = some a →
      Ends (.saSet mb) s mb {} { s with eth.sas := tset s.eth.sas (fld q.body 0 4) { a with enable := bitOf (fld q.body 4 1) 1, lowest := max a.lowest (beFld q.body 8 8), next := max a.next (beFld q.body 8 8) } }) ∧
    (Accepted mb 0x0520 q s → macsecStatsCheck mb q s = none → Ends (.macsecStats mb) s mb { body := macsecCounters n (fld q.body 4 4) s } s) ∧
    (Accepted mb 0x0528 q s → frameRingCheck mb q s = none →
      ∃ r : Ring, r = { dir := fld q.body 2 1, log2 := fld q.body 3 1, vector := fld q.body 4 2, coalCount := fld q.body 6 1, coalUs := fld q.body 0x18 2, addr := fld q.body 8 8, evt := fld q.body 0x10 8 } ∧
        Ends (.frameRingCreate mb) s mb { body := leBytes 4 (dbOffset (mbFn mb) (fld q.body 0 2)) } { s with eth.rings := tset s.eth.rings (qKey (mbFn mb) (fld q.body 0 2)) r })

/-- Application cores: a completed instruction writes its register and, with no loop armed, moves to its next pc; one that names a CSR it may not traps as illegal; a trap saves pc, cause and value, enters M-mode with MIE stacked, and goes to the vector; an interrupt does so with bit 63 of the cause set; MRET pops the mode; WFI waits while nothing is pending (R351, R353, R354, R355, R359). Completes: instruction, trap, interruptTaken, mret, wfi. -/
def Obligations.CoresTrapAndReturn : Prop :=
  ∀ (core : Nat) (s : State), core < 72 → coreRuns core s = true → (getCore core s).wfi = false →
    (∀ i : CoreStep, (getCore core s).pc = i.addr → (i.len = 2 ∨ i.len = 4) → i.csr = none → i.vset = [] → csrRaw core 0x802 s = 0 → csrRaw core 0x805 s = 0 →
      ∃ t, exec (.instruction core i) s = .next t ∧ (getCore core t).pc = i.nextPc ∧ (getCore core t).csr = (getCore core s).csr ∧
        (∀ r v, i.wrote = some (r, v) → r % 32 ≠ 0 → getX core (r % 32) t = v) ∧
        (∀ k, (∀ r v, i.wrote = some (r, v) → k ≠ r % 32) → getX core k t = getX core k s) ∧ (getCore core t).minstret = countedInstr core s ∧ t.units = s.units) ∧
    (∀ i : CoreStep, (getCore core s).pc = i.addr → (i.len = 2 ∨ i.len = 4) → csrDenied core i s = true → curApplet core s = none →
      ∃ t, exec (.instruction core i) s = .next t ∧ csrRaw core 0x341 t = i.addr ∧ csrRaw core 0x342 t = 2 ∧ csrRaw core 0x343 t = BitVec.ofNat 64 i.insn ∧
        (getCore core t).user = false ∧ (getCore core t).x = (getCore core s).x) ∧
    (∀ cause tval : DWord, cause.getLsbD 63 = false → curApplet core s = none →
      ∃ t, exec (.trap core cause tval) s = .next t ∧ csrRaw core 0x341 t = (getCore core s).pc ∧ csrRaw core 0x342 t = cause ∧ csrRaw core 0x343 t = tval ∧
        (getCore core t).user = false ∧ (getCore core t).pc = BitVec.ofNat 64 ((csrRaw core 0x305 s).toNat / 4 * 4) ∧
        bitOf (mstatus core t) 3 = false ∧ bitOf (mstatus core t) 7 = bitOf (mstatus core s) 3 ∧ (getCore core t).x = (getCore core s).x) ∧
    (∀ n r, irqEnabled core s = true → irqs core s = n :: r → n ≠ 16 →
      ∃ t, exec (.interruptTaken core) s = .next t ∧ csrRaw core 0x341 t = (getCore core s).pc ∧ csrRaw core 0x342 t = BitVec.ofNat 64 (2 ^ 63 + n) ∧
        (getCore core t).user = false ∧ bitOf (mstatus core t) 3 = false ∧ (getCore core t).x = (getCore core s).x ∧
        (getCore core t).pc = BitVec.ofNat 64 (if (csrRaw core 0x305 s).toNat % 4 = 1 then (csrRaw core 0x305 s).toNat / 4 * 4 + 4 * n
          else (csrRaw core 0x305 s).toNat / 4 * 4)) ∧
    ((getCore core s).user = false → irqs core s = [] →
      ∃ t, exec (.mret core) s = .next t ∧ (getCore core t).user = (bits (mstatus core s) 12 11 == 0) ∧
        bitOf (mstatus core t) 3 = bitOf (mstatus core s) 7) ∧
    ((getCore core s).user = false →
      (irqs core s = [] → exec (.wfi core) s = .next (setCore core { getCore core s with wfi := true } s)) ∧
      (irqs core s ≠ [] → csrRaw core 0x802 s = 0 → csrRaw core 0x805 s = 0 →
        ∃ t, exec (.wfi core) s = .next t ∧ (getCore core t).pc = (getCore core s).pc + 4 ∧ (getCore core t).wfi = false))

/-- Wide multiply-accumulate units: WMA.GO queues the block it read at the unit, WMA.WAIT gives the last command's value, the head of a queue starts with its operands read or ends with WMA_EFAIL, a command whose operands software left alone since WMA.GO stores ACC + A × B modulo 2^(64 ACC_LEN), another leaves an ACC that is not fixed, a failed unit is isolated with nothing queued; here no ordered scrub waits for the stand's units (R180, R181, R182, R183, R184, R186, R190). Completes: wmaGo, wmaWait, wmaCmdStart, wmaCmdDone, wmaFault. -/
def Obligations.WmaCommandsComplete : Prop :=
  (∀ (core rs1 u : Nat) (s : State), core < 72 → rs1 < 32 → u < 2 → coreRuns core s = true → (getCore core s).wfi = false →
    ((getCore core s).user = false ∨ bitOf (csrRaw core 0x7C0 s).toNat 0 = true) → wmaOutstanding core s = false →
    (getWma (2 * (core / 9) + u) s).isolated = false →
    ∃ t, exec (.wmaGo core rs1 u) s = .next t ∧
      (getWma (2 * (core / 9) + u) t).cmds = (getWma (2 * (core / 9) + u) s).cmds ++
        [{ core := core, addr := (getX core rs1 s).toNat, tag := coreTag core s,
           block := memReadN s.units.fab (fabAddr (core / 9) (getX core rs1 s).toNat) 32 }] ∧
      (∀ i, i ≠ 2 * (core / 9) + u → getWma i t = getWma i s) ∧ t.store = s.store) ∧
  (∀ (core rd : Nat) (s : State), core < 72 → rd < 32 → coreRuns core s = true → (getCore core s).wfi = false →
    ((getCore core s).user = false ∨ bitOf (csrRaw core 0x7C0 s).toNat 0 = true) → wmaOutstanding core s = false →
    ∃ t, exec (.wmaWait core rd) s = .next t ∧ (rd ≠ 0 → getX core rd t = BitVec.ofNat 64 (tgetD s.units.wmaVal core 0)) ∧
      (∀ k, k ≠ rd → getX core k t = getX core k s) ∧ t.units = { s.units with wmaOpen := tdel s.units.wmaOpen core }) ∧
  (∀ (u : Nat) (c : WmaCmd) (r : List WmaCmd) (s : State), u < 16 → (getWma u s).isolated = false → (getWma u s).cmds = c :: r →
    (c.running = false → wmaFormOk u c s = true → wmaProbe u c s = true →
      ∃ t c', exec (.wmaCmdStart u) s = .next t ∧ (getWma u t).cmds = c' :: r ∧ c'.running = true ∧ c'.core = c.core ∧ c'.block = c.block ∧ c'.touched = c.touched ∧
        c'.a = memReadN s.units.fab (fabAddr (u / 2) (fld c.block 0 8)) (8 * fld c.block 0x18 2) ∧
        c'.b = memReadN s.units.fab (fabAddr (u / 2) (fld c.block 8 8)) (8 * fld c.block 0x1A 2) ∧
        c'.acc = memReadN s.units.fab (fabAddr (u / 2) (fld c.block 0x10 8)) (8 * fld c.block 0x1C 2) ∧ t.units.fab = s.units.fab) ∧
    (c.running = false → wmaFormOk u c s = false →
      ∃ t, exec (.wmaCmdStart u) s = .next t ∧ (getWma u t).cmds = r ∧ tgetD t.units.wmaVal c.core 0 = 1 ∧ t.units.fab = s.units.fab) ∧
    (c.running = true → c.touched = true → orderedCores (u / 2) s = [] →
      ∃ t, exec (.wmaCmdDone u) s = .next t ∧ (getWma u t).cmds = r ∧ (getWma u t).done = (getWma u s).done + 1 ∧ tgetD t.units.wmaVal c.core 0 = 0 ∧ t.store = s.store) ∧
    (c.running = true → c.touched = false → orderedCores (u / 2) s = [] →
      ∃ t, exec (.wmaCmdDone u) s = .next t ∧ (getWma u t).cmds = r ∧ (getWma u t).done = (getWma u s).done + 1 ∧ tgetD t.units.wmaVal c.core 0 = 0 ∧
        t.units.fab = memWriteN s.units.fab (fabAddr (u / 2) (fld c.block 0x10 8))
          (leBytes c.acc.length ((wmaInt (bitOf (fld c.block 0x1E 1) 0) c.acc + wmaInt (bitOf (fld c.block 0x1E 1) 0) c.a *
            wmaInt (bitOf (fld c.block 0x1E 1) 0) c.b) % 2 ^ (8 * c.acc.length)).toNat))) ∧
  (∀ (u : Nat) (s : State), u < 16 →
    ((getWma u s).isolated = false → orderedCores (u / 2) s = [] → ∃ t, exec (.wmaFault u) s = .next t ∧ (getWma u t).isolated = true ∧ (getWma u t).cmds = [] ∧ t.store = s.store ∧
      ∀ c ∈ (getWma u s).cmds, tgetD t.units.wmaVal c.core 0 = 3) ∧
    ((getWma u s).isolated = true → exec (.wmaFault u) s = .next (countFault 0 s)))

/-- The monitor's functions, asked for by a running applet with no notification waiting: TIME and SELF answer in registers; WAIT answers the calls already done; DGE_ACQUIRE takes a free digest engine for the core and DGE_RELEASE gives it up cleared; YIELD and the end of a slice save the applet where it resumes; EXIT ends it EXITED with its code; NOTIFY_RETURN gives back what the upcall saved (R366, R367, R368, R370). Completes: time, self, wait, dgeAcquire, dgeRelease, yield, exit, notifyReturn, appletSliceEnd. -/
def Obligations.MonitorFunctionsComplete : Prop :=
  ∀ (core inst : Nat) (a : Applet) (s : State), (getCore core s).notes = [] →
    (Ecalls core 2 inst a s → exec (.time core) s =
      .next (setX core 10 (BitVec.ofNat 64 (s.us - s.pwr.goodAt)) (setCore core { getCore core s with pc := (getCore core s).pc + 4 } s))) ∧
    (Ecalls core 7 inst a s → ∃ t, exec (.self core) s = .next t ∧ (getCore core t).pc = (getCore core s).pc + 4 ∧
      getX core 10 t = BitVec.ofNat 64 a.owner ∧ getX core 11 t = BitVec.ofNat 64 a.slot ∧ getX core 12 t = BitVec.ofNat 64 inst ∧
      getX core 13 t = BitVec.ofNat 64 core ∧ (∀ k, k < 10 ∨ 13 < k → getX core k t = getX core k s)) ∧
    (Ecalls core 3 inst a s → (getCore core s).done &&& ((getX core 10 s).toNat % 16) ≠ 0 →
      ∃ t, exec (.wait core) s = .next t ∧ getX core 10 t = BitVec.ofNat 64 ((getCore core s).done &&& ((getX core 10 s).toNat % 16)) ∧
        (getCore core t).done = (getCore core s).done - ((getCore core s).done &&& ((getX core 10 s).toNat % 16)) ∧
        (getCore core t).pc = (getCore core s).pc + 4) ∧
    (Ecalls core 4 inst a s → bitOf a.perms 1 = true → (getDge (dge1 core) s).isolated = false → (getDge (dge1 core) s).claim = none →
      ∃ t, exec (.dgeAcquire core) s = .next t ∧ (getDge (dge1 core) t).claim = some core ∧ (getCore core t).dgeHolder = some a.slot ∧
        getX core 10 t = 0 ∧ (getCore core t).pc = (getCore core s).pc + 4) ∧
    (Ecalls core 5 inst a s → (getCore core s).dgeHolder = some a.slot →
      ∃ t, exec (.dgeRelease core) s = .next t ∧ (getDge (dge1 core) t).slot = .idle ∧ (getDge (dge1 core) t).keyLoaded = false ∧
        getX core 10 t = 0 ∧ (getCore core t).pc = (getCore core s).pc + 4) ∧
    (Ecalls core 0 inst a s → wmaOutstanding core s = false →
      ∃ t, exec (.yield core) s = .next t ∧ (tget t.cores.applets inst).map (fun a => (a.saved.pc, a.state)) = some ((getCore core s).pc + 4, a.state)) ∧
    (Ecalls core 1 inst a s → wmaOutstanding core s = false →
      ∃ t, exec (.exit core) s = .next t ∧
        (tget t.cores.applets inst).map (fun a => (a.state, a.exitCode)) = some (.exited, (getX core 10 s).toNat % 2 ^ 32)) ∧
    (∀ u, Ecalls core 6 inst a s → a.upcall = some u → a.upcallDue = [] →
      ∃ t, exec (.notifyReturn core) s = .next t ∧ (getCore core t).pc = u.pc ∧ (getCore core t).x = u.x ∧
        (tget t.cores.applets inst).map (fun a => a.upcall) = some none) ∧
    (core < 72 → coreRuns core s = true → wmaOutstanding core s = false → coreU core s = true → curApplet core s = some (inst, a) →
      (getCore core s).user = true →
      ∃ t, exec (.appletSliceEnd core) s = .next t ∧ (tget t.cores.applets inst).map (fun a => a.saved.pc) = some (getCore core s).pc)

/-- The gate: a call whose frame the core may store to is queued with its request and gets an index, a full core is refused with 1 in bit 63's low bits; a service core takes the oldest call into its buffer; a response reaches the caller's frame; a cancel reaches the named calls; the services answer random bytes once the service core's port holds them, counters, and what a key is, or start a context (R363, R364, R371, R372, R373). Completes: gateCall, gateTake, gateRet, mgateCancel, gateRandom, gateCounterCreate, gateCounterInc, gateCounterRead, keyOp, keyInfo. -/
def Obligations.GateCompletes : Prop :=
  (∀ (core rd rs1 rs2 : Nat) (s : State), core < 72 → rd < 32 → rs1 < 32 → rs2 < 32 → coreRuns core s = true → (getCore core s).wfi = false →
    coreU core s = true → ((getCore core s).user = false ∨ bitOf (csrRaw core 0x7C0 s).toNat 1 = true) →
    pmpStoreOk core (getX core rs1 s).toNat 128 s = true →
    ((getCore core s).out = 15 → exec (.gateCall core rd rs1 rs2) s = .next (complete4 core (setX core rd (BitVec.ofNat 64 (2 ^ 63 + 1)) s))) ∧
    ((getCore core s).out ≠ 15 → (getX core rs1 s).toNat % 128 = 0 → inOwnBank core (getX core rs1 s).toNat 128 s = true → (getX core rs2 s).toNat < 4096 →
      judge (coreTag core s) (core / 9) (getX core rs1 s).toNat 128 true false s = .ok → pairUnserved (core / 9) s = false → (getCore core s).out < 16 →
      ∃ t g i, exec (.gateCall core rd rs1 rs2) s = .next t ∧ tgetD t.cores.gate (core / 9) [] = tgetD s.cores.gate (core / 9) [] ++ [g] ∧ i < 4 ∧
        bitOf (getCore core s).out i = false ∧ g.core = core ∧ g.index = i ∧ g.service = (getX core rs2 s).toNat ∧
        g.request = memReadN s.units.fab (fabAddr (core / 9) (getX core rs1 s).toNat) 64 ∧ (rd ≠ 0 → getX core rd t = BitVec.ofNat 64 i) ∧
        t.store = s.store)) ∧
  (∀ (core addr st : Nat) (g : GateCall) (r : List GateCall) (s : State), core < 72 → coreRuns core s = true → coreU core s = false →
    (gateServes (core / 9) s).find? (fun st => !(tgetD s.cores.gate st []).isEmpty) = some st → tgetD s.cores.gate st [] = g :: r →
    inOwnBank core (addr / 128 * 128 % 2 ^ 48) 128 s = true →
    ∃ t, exec (.gateTake core addr) s = .next t ∧ tgetD t.cores.gate st [] = r ∧
      t.cores.taken = s.cores.taken ++ [{ g with server := some core, buffer := fabAddr (core / 9) (addr / 128 * 128 % 2 ^ 48) }] ∧
      t.units.fab = (fabWrite (fabAddr (core / 9) (addr / 128 * 128 % 2 ^ 48)) (takeEntry g) s).units.fab) ∧
  (∀ (core rs1 rs2 : Nat) (g : GateCall) (s : State), core < 72 → rs1 < 32 → rs2 < 32 → coreRuns core s = true → (getCore core s).wfi = false →
    coreU core s = false → (getCore core s).user = false → (getX core rs1 s).toNat % 64 = 0 → inOwnBank core (getX core rs1 s).toNat 64 s = true →
    s.cores.taken.find? (fun g => g.ticket == (getX core rs2 s).toNat) = some g → g.cancelled = false →
    ∃ t, exec (.gateRet core rs1 rs2) s = .next t ∧
      t.units.fab = (fabWrite (g.frame + 0x40)
        ([2] ++ (padTo 64 (memReadN s.units.fab (fabAddr (core / 9) (getX core rs1 s).toNat) 64)).drop 1) s).units.fab ∧
      (∀ x ∈ t.cores.taken, x.ticket ≠ g.ticket)) ∧
  (∀ (core mask : Nat) (s : State), core < 72 → coreRuns core s = true → (getCore core s).user = false →
    exec (.mgateCancel core mask) s = .next ((List.range 4).foldl (fun s i => if bitOf mask i then cancelCall core i s else s) s)) ∧
  (∀ (tk : Nat) (g : GateCall) (s : State),
    (GateServed tk 0x001 0 g s → 1 ≤ fld g.request 8 4 → fld g.request 8 4 ≤ 4096 →
      probeOk (gateTag g s) (targetOf (g.core / 9) (fld g.request 0 8)) (fld g.request 0 8) (fld g.request 8 4) true s = true →
      (∀ d u, takeWire (g.server.getD 0 / 9) 5 (fld g.request 8 4) s = (some d, u) →
        exec (.gateRandom tk) s = .next (gateAnswer tk (gateResp 0 0 (leBytes 4 (fld g.request 8 4)))
          (fabWrite (fabAddr (targetOf (g.core / 9) (fld g.request 0 8)) (fld g.request 0 8)) d u))) ∧
      (∀ u, takeWire (g.server.getD 0 / 9) 5 (fld g.request 8 4) s = (none, u) → exec (.gateRandom tk) s = .next u)) ∧
    (GateServed tk 0x010 1 g s → storeRefuse s = none → storeStopped s = false → canChange s = true → bitOf (fld g.request 0 4) 0 = false →
      counterRoom g.owner s = none →
      exec (.gateCounterCreate tk) s = .next (gateAnswer tk (gateResp 0 0 (leBytes 4 (newCounter g.owner s).1)) (newCounter g.owner s).2)) ∧
    (∀ k, GateServed tk 0x011 1 g s → storeRefuse s = none → storeStopped s = false → canChange s = true → bitOf (fld g.request 8 4) 0 = false →
      getCounter (fld g.request 0 4) (some g.owner) s = some k → fld g.request 4 2 ≠ 0 → k.value + fld g.request 4 2 < 2 ^ 64 →
      k.value + fld g.request 4 2 < (if k.ceilSeq ≤ s.store.committed then k.ceiling else k.ceilOld) →
      exec (.gateCounterInc tk) s = .next (gateAnswer tk (gateResp 0 0 (leBytes 8 (k.value + fld g.request 4 2)))
        (counterInc (fld g.request 0 4) (fld g.request 4 2) false k s).2)) ∧
    (∀ k, GateServed tk 0x012 1 g s → storeRefuse s = none → getCounter (fld g.request 0 4) (some g.owner) s = some k →
      exec (.gateCounterRead tk) s = .next (gateAnswer tk (gateResp 0 0 (leBytes 8 k.value)) s)) ∧
    (∀ c, GateServed tk 0x020 2 g s → gateClass (fld (padTo 64 g.request) 0 1) = true → freePool s = some c → fld (padTo 64 g.request) 1 1 < 8 →
      ∃ t x, exec (.keyOp tk) s = .next t ∧ getCtx c t = some x ∧ x.src = .gate tk ∧ x.owner = g.owner ∧ x.entry = padTo 64 g.request ∧
        ∀ i, i ≠ c → getCtx i t = getCtx i s) ∧
    (∀ slot k, GateServed tk 0x021 3 g s → storeRefuse s = none → resolve (fld g.request 0 8) (some g.owner) s = some (slot, k) →
      exec (.keyInfo tk) s = .next (gateAnswer tk (gateResp 0 0 (layout 16 [(0, 1, keyStateCode k.state), (1, 1, k.type), (2, 1, k.purpose),
        (4, 2, k.length), (8, 4, k.attr), (0x0C, 4, k.uses)])) s)))

/-- The VF commands: binding names the owner, unbinding empties the allotment, limits and grants are taken as given and returned by a revoke, queries read them; a quiesce pauses the VF's queues until it is idle and a resume starts them again; a freeze suspends what has not reached RUNNING and a thaw takes it up again; a prepare writes its blob and freezes, a save marks the VF SAVED and waits for its commit, a restore installs the image's records and suspended entries (R385, R387, R389, R390, R393, R395, R396, R400, R401, R403, R404, R406, R409). Completes: vfBind, vfUnbind, vfQuery, vfSetLimits, vfGrant, vfRevoke, vfGrants, vfQuiesce, vfResume, vfQuiesceComplete, vfFreezeComplete, vfFreeze, vfThaw, vfPrepare, vfSave, vfRestore. -/
def Obligations.VfCommandsComplete : Prop :=
  ∀ (mb : Mb) (q : Req) (n : Nat) (s : State), fld q.body 0 2 = n →
    (Accepted mb 0x0401 q s → vfBindCheck mb q s = none → tget s.host.tdis n = none →
      Ends (.vfBind mb) s mb {} (setAlloc (.vf n) { getAlloc (.vf n) s with owner := some (fld q.body 4 4) } s)) ∧
    (Accepted mb 0x0402 q s → vfNamed n s = true → (getAlloc (.vf n) s).quiesced = true → tget s.host.tdis n = none →
      ∃ t, Ends (.vfUnbind mb) s mb { body := layout 8 [(0, 1, fnQueueCount (.vf n) s), (4, 4, (getAlloc (.vf n) s).suspended.length)] } t ∧
        (getAlloc (.vf n) t).owner = none ∧ (getAlloc (.vf n) t).grants = [] ∧ (getAlloc (.vf n) t).suspended = [] ∧ fnQueues (.vf n) t = [] ∧
        fnRings (.vf n) t = [] ∧ (getFn (.vf n) t).credit = 0 ∧ t.store = s.store) ∧
    (∀ m, Accepted mb 0x0403 q s → vfQueried mb q = m → vfQueryCheck mb q s = none →
      Ends (.vfQuery mb) s mb { body := layout 16 [(0, 4, (getAlloc (.vf m) s).owner.getD 0), (4, 4, vfStatWord m s), (8, 1, (getAlloc (.vf m) s).queues), (0x0A, 2, (getFn (.vf m) s).credit), (0x0C, 2, (getAlloc (.vf m) s).weight), (0x0E, 1, (getAlloc (.vf m) s).standMask)] } s) ∧
    (∀ fn, Accepted mb 0x0404 q s → vfSetLimitsCheck mb q s = none → fnNamed n s = some fn →
      ∃ t, Ends (.vfSetLimits mb) s mb {} t ∧ getFn fn t = { getFn fn s with credit := fld q.body 4 2 } ∧ t.store = s.store ∧
        (∀ m, fn = .vf m → getAlloc fn t = { getAlloc fn s with queues := fld q.body 2 1 })) ∧
    (∀ fn d, Accepted mb 0x0405 q s → vfGrantCheck mb q s = none → fnNamed n s = some fn → nodeOf (fld q.body 2 2) = some d →
      ∃ t w, Ends (.vfGrant mb) s mb { body := layout 4 [(0, 1, freeGrant (getAlloc fn s)), (2, 2, w)] } t ∧ w = fnWeight fn t ∧
        (getAlloc fn t).grants = (getAlloc fn s).grants ++ [{ id := freeGrant (getAlloc fn s), node := d, exclusive := decide (fld q.body 8 1 = 1), amount := fld q.body 0x0C 4 }] ∧
        (s.units.capdir ≠ [] → t.units.capGen = (s.units.capGen + 2) % 2 ^ 32) ∧ t.store = s.store) ∧
    (∀ fn g, Accepted mb 0x0406 q s → grantNamed q s = some (fn, g) → grantApplets fn g s = [] →
      ∃ t, Ends (.vfRevoke mb) s mb { body := leBytes 2 (fnWeight fn t) } t ∧ (getAlloc fn t).grants = (getAlloc fn s).grants.filter (fun x => x.id != g.id) ∧
        (s.units.capdir ≠ [] → t.units.capGen = (s.units.capGen + 2) % 2 ^ 32) ∧ t.store = s.store) ∧
    (∀ fn, Accepted mb 0x0407 q s → fnNamed n s = some fn → Ends (.vfGrants mb) s mb
      { body := leBytes 8 (getAlloc fn s).grants.length ++ ((getAlloc fn s).grants.map (fun g => grantBytes g s)).flatten } s) ∧
    (Accepted mb 0x0408 q s → vfNamed n s = true → vfIntake (getAlloc (.vf n) s) = none →
      Holds (.vfQuiesce mb) s mb q (.vfIdle n false)
        (setQueuesState (.vf n) .active .paused (setAlloc (.vf n) { getAlloc (.vf n) s with quiesce := true, draining := true, posted := 0 } s))) ∧
    (Accepted mb 0x0409 q s → vfNamed n s = true → (getAlloc (.vf n) s).quiesced = true →
      Ends (.vfResume mb) s mb {} (setQueuesState (.vf n) .paused .active (setAlloc (.vf n) { getAlloc (.vf n) s with quiesce := false, quiesced := false } s))) ∧
    (n < 4096 → (getAlloc (.vf n) s).draining = true → vfIdle n s = true →
      ((getAlloc (.vf n) s).quiesce = true → ∃ t, exec (.vfQuiesceComplete n) s = .next t ∧
        getAlloc (.vf n) t = { getAlloc (.vf n) s with quiesced := true, draining := false } ∧ t.store = s.store ∧
        ∀ m r, mbOk m = true → (getMb m s).cur = some r → (getMb m s).wait = .vfIdle n false → (getMb m t).state = .done ∧ (getMb m t).cur = none) ∧
      ((getAlloc (.vf n) s).freeze = true → ∃ t, exec (.vfFreezeComplete n) s = .next t ∧
        getAlloc (.vf n) t = { getAlloc (.vf n) s with frozen := true, draining := false } ∧ t.store = s.store ∧
        ∀ m r, mbOk m = true → (getMb m s).cur = some r → (getMb m s).wait = .vfIdle n true → (getMb m t).state = .done ∧ (getMb m t).cur = none)) ∧
    (Accepted mb 0x0410 q s → vfNamed n s = true → vfIntake (getAlloc (.vf n) s) = none →
      (∀ c x qid no, getCtx c s = some x → x.src = .queue (.vf n) qid no → qid < 256) →
      ∃ t, exec (.vfFreeze mb) s = .next t ∧ (getMb mb t).wait = .vfIdle n true ∧ (getAlloc (.vf n) t).freeze = true ∧ (getAlloc (.vf n) t).draining = true ∧
        (∀ k x, getQ k s = some x → k / 256 = fnKey (.vf n) → x.state = .active → x.destroying = none → ∃ y, getQ k t = some y ∧ y.state = .paused ∧ y.fetched = []) ∧
        (∀ c x qid no, getCtx c s = some x → x.src = .queue (.vf n) qid no → (x.state = .admitted ∨ x.state = .leasing) → getCtx c t = none) ∧
        t.store = s.store) ∧
    (Accepted mb 0x0411 q s → vfNamed n s = true → (getAlloc (.vf n) s).frozen = true → (getAlloc (.vf n) s).saved = false →
      ∃ t, Ends (.vfThaw mb) s mb { body := leBytes 4 (getAlloc (.vf n) s).suspended.length } t ∧ (getAlloc (.vf n) t).freeze = false ∧
        (getAlloc (.vf n) t).frozen = false ∧ (getAlloc (.vf n) t).suspended = [] ∧ t.store = s.store ∧
        (∀ k x, getQ k s = some x → k / 256 = fnKey (.vf n) → x.state = .paused → ∃ y, getQ k t = some y ∧ y.state = .active)) ∧
    (∀ bits nonce priv v blob, Accepted mb 0x0412 q s → vfPrepareCheck mb q s = none → takeWarden 144 s = (some bits, v) → nonce = bits.take 32 →
      priv = bits.drop 32 → blob = prepBlob (((getOwner ((getAlloc (.vf n) s).owner.getD 0) s).map (·.domainId)).getD 0)
        (((getOwner ((getAlloc (.vf n) s).owner.getD 0) s).map (·.member)).getD 0) n nonce priv v →
      blob.length ≤ fld q.body 0x10 4 → hostOk (mbFn mb) (fld q.body 8 8) blob.length s = true →
      ∃ t, Ends (.vfPrepare mb) s mb { body := leBytes 4 blob.length } t ∧ t.host.mem = memWriteN s.host.mem (fld q.body 8 8) blob ∧
        (getAlloc (.vf n) t).freeze = true ∧ (getAlloc (.vf n) t).frozen = true ∧ t.store = s.store ∧
        t.cust.prepares = s.cust.prepares ++
          [{ owner := (getAlloc (.vf n) s).owner.getD 0, vf := some n, nonce := nonce, priv := priv, until_ := seconds s + 600 }]) ∧
    (∀ o x b, Accepted mb 0x0413 q s → storeCheck vfSaveCheck mb q s = none → canChange s = true → (getAlloc (.vf n) s).owner = some o → getOwner o s = some x →
      blobRead mb (fld q.body 8 8) (fld q.body 0x10 4) s = some b → (takeWarden 128 s).1.isSome = true →
      ∃ t img r, exec (.vfSave mb) s = .next t ∧ (getAlloc (.vf n) t).saved = true ∧
        (getMb mb t).wait = .commitWrite s.store.nextSeq (fld q.body 0x18 8) img r ∧ r.status = 0 ∧ t.store.nextSeq = s.store.nextSeq + 1 ∧
        t.store.c.keys = s.store.c.keys) ∧
    (∀ i token p u, mbIsVf mb = false → Accepted mb 0x0414 q s → storeCheck vfRestoreCheck mb q s = none → canChange s = true →
      openVfImage mb q s = .ok (i, token, p, u) →
      ∃ t r, exec (.vfRestore mb) s = .next t ∧ (getMb mb t).wait = .commit s.store.nextSeq r ∧ (getMb (.vf n) t).recs = i.recs ∧
        (getMb (.vf n) t).high = some (fld i.record 0x10 8) ∧ (getAlloc (.vf n) t).suspended = i.susp.map (·.1) ∧
        t.store.nextSeq = s.store.nextSeq + 1 ∧ t.store.c.keys = s.store.c.keys)

/-- Cores and their care: a scrub write clears the core's applets, commits the next owner and scrubs, a second one is ignored; the end gives the core to that owner; a failed core is isolated with no applet left; a good bank test starts the spare, whose boot takes the failed core's place; a kick restarts the watchdog's count and an expiry is counted, the third in 600 s failing the core (R374, R375, R376, R528, R530). Completes: scrub, scrubDone, coreFailure, bankTestDone, spareCoreBootDone, watchdogKick, watchdogExpiry. -/
def Obligations.CoreCareCompletes : Prop :=
  ∀ (core : Nat) (s : State), core < 72 →
    (∀ owner, (getCore core s).state = .scrubbing → exec (.scrub core owner) s = .next (setCore core { getCore core s with swrIgn := true } s)) ∧
    (∀ owner, (getCore core s).state ≠ .scrubbing → coreActive core s = true → coreU core s = true →
      ∃ t, exec (.scrub core owner) s = .next t ∧ (getCore core t).state = .scrubbing ∧
        (getCore core t).next = (if bitOf owner 20 then none else some (owner % 2 ^ 20)) ∧ t.store = s.store) ∧
    ((getCore core s).state = .scrubbing → wmaOutstanding core s = false → ((getCore core s).ordered = false ∨ wmaIdle (core / 9) s = true) → (getDge (dge1 core) s).xfer = none →
      ∃ t, exec (.scrubDone core) s = .next t ∧ (getCore core t).owner = (getCore core s).next ∧ (getCore core t).state ≠ .scrubbing ∧
        (getCore core t).x = []) ∧
    ((getCore core s).state ≠ .isolated → (getCore core s).state ≠ .retired →
      ∃ t, exec (.coreFailure core) s = .next t ∧ (getCore core t).state = .isolated ∧ t.commit = s.commit) ∧
    ((getCore core s).state = .isolated → exec (.coreFailure core) s = .next (countFault 0 s)) ∧
    ((getStand (core / 9) s).coreFill = some core → (getStand (core / 9) s).coreBoot = false →
      (∃ t, exec (.bankTestDone core true) s = .next t ∧ (getStand (core / 9) t).coreBoot = true ∧ t.store = s.store) ∧
      ((getStand (core / 9) s).coreWait = [] →
        ∃ t, exec (.bankTestDone core false) s = .next t ∧ (getCore core t).state = .retired ∧ (getStand (core / 9) t).coreFill = none)) ∧
    (∀ g, (getStand (core / 9) s).coreFill = some g → (getCore core s).state = .spare → (getStand (core / 9) s).coreBoot = true →
      (getStand (core / 9) s).coreWait = [] →
      (∃ t, exec (.spareCoreBootDone core true) s = .next t ∧ (getCore core t).state = .idle ∧
        (getCore core t).pos = some ((getCore g s).pos.getD (g % 9)) ∧ (getStand (core / 9) t).coreFill = none) ∧
      (∃ t, exec (.spareCoreBootDone core false) s = .next t ∧ (getCore core t).state = .isolated ∧ (getStand (core / 9) t).coreFill = none)) ∧
    (coreRuns core s = true → (getCore core s).user = false →
      exec (.watchdogKick core) s = .next { s with fbk.wdAt := tset s.fbk.wdAt core s.us }) ∧
    (coreActive core s = true →
      (2 ≤ ((tgetD s.fbk.wdTimes core []).filter (fun t => seconds s ≤ t + 600)).length → (getCore core s).state ≠ .isolated → (getCore core s).state ≠ .retired →
        ∃ t, exec (.watchdogExpiry core) s = .next t ∧ (getCore core t).state = .isolated) ∧
      (((tgetD s.fbk.wdTimes core []).filter (fun t => seconds s ≤ t + 600)).length < 2 → coreU core s = true →
        ∃ t, exec (.watchdogExpiry core) s = .next t ∧ (getCore core t).state = .scrubbing ∧ (getCore core t).next = none))

/-- The applet commands: a checked package is placed as a new instance whose digest is answered; a start makes it RUNNING with its argument in a0 to a3; a stop with no grace, or at the grace's end, ends it EXITED, one with a grace asks it to stop; an ended one unloads; queries answer; APPLET_TRUST sent directly answers QUORUM_MISSING and, approved, names the signer's key (R377, R378, R379, R381, R382). Completes: appletLoad, appletStart, appletStop, appletStopGraceExpiry, appletUnload, appletQuery, gladeStatus, appletTrust, quorumExecute. -/
def Obligations.AppletCommandsComplete : Prop :=
  ∀ (mb : Mb) (q : Req) (s : State),
    (∀ b g, Accepted mb 0x0602 q s → fld q.body 0x10 4 ≤ 2 ^ 25 → blobRead mb (fld q.body 8 8) (fld q.body 0x10 4) s = some b →
      pkgCheck mb (fld q.body 0 4) b s = none → s.mode.mode ≠ 2 → findGranules (pkgGranules b) s = some g →
      ∃ t a, exec (.appletLoad mb) s = .next t ∧ tget t.cores.applets s.cores.nextInst = some a ∧ t.cores.nextInst = s.cores.nextInst + 1 ∧
        a.state = .loaded ∧ a.owner = fld q.body 0 4 ∧ a.kind = fld b 0x0A 1 ∧ a.codeLen = fld b 0x20 4 ∧ a.dataLen = fld b 0x24 4 ∧
        a.perms = fld b 0x40 4 ∧ a.services = fld b 0x44 4 ∧ a.base = g ∧ a.digest = digest 3 (b.take (256 + fld b 0x20 4 + fld b 0x24 4)) ∧
        (∀ i, i ≠ s.cores.nextInst → tget t.cores.applets i = tget s.cores.applets i) ∧ t.store = s.store) ∧
    (∀ a c, Accepted mb 0x0603 q s → appletNamed mb (fld q.body 0 4) s = .ok a → appletAlive a = false → a.kind ≠ 2 → s.mode.mode ≠ 2 →
      ownerActive a.owner s = true → startCore mb a (fld q.body 4 1) s = .ok (c, false) →
      ∃ t a', exec (.appletStart mb) s = .next t ∧ tget t.cores.applets (fld q.body 0 4) = some a' ∧ a'.state = .running ∧ a'.core = c ∧
        a'.owner = a.owner ∧ t.store = s.store) ∧
    (∀ a, Accepted mb 0x0604 q s → appletNamed mb (fld q.body 0 4) s = .ok a → appletAlive a = true → a.kind = 1 → fld q.body 4 2 ≠ 0 →
      ∃ t, exec (.appletStop mb) s = .next t ∧ (getMb mb t).wait = .applet (fld q.body 0 4) ∧
        (tget t.cores.applets (fld q.body 0 4)).map (·.state) = some .stopping ∧
        (∀ i, i ≠ fld q.body 0 4 → tget t.cores.applets i = tget s.cores.applets i) ∧ t.store = s.store) ∧
    (∀ a, Accepted mb 0x0604 q s → appletNamed mb (fld q.body 0 4) s = .ok a → appletAlive a = true → fld q.body 4 2 = 0 → wmaOutstanding a.core s = false →
      ∃ t, exec (.appletStop mb) s = .next t ∧ (tget t.cores.applets (fld q.body 0 4)).map (·.state) = some .exited) ∧
    (∀ a, tget s.cores.applets (fld q.body 0 4) = some a → a.state = .stopping → wmaOutstanding a.core s = false →
      ∃ t, exec (.appletStopGraceExpiry (fld q.body 0 4)) s = .next t ∧ (tget t.cores.applets (fld q.body 0 4)).map (·.state) = some .exited) ∧
    (∀ a, Accepted mb 0x0605 q s → appletNamed mb (fld q.body 0 4) s = .ok a → appletAlive a = false →
      ∃ t, exec (.appletUnload mb) s = .next t ∧ tget t.cores.applets (fld q.body 0 4) = none ∧
        (∀ i, i ≠ fld q.body 0 4 → tget t.cores.applets i = tget s.cores.applets i) ∧ t.store = s.store) ∧
    (∀ a, Accepted mb 0x0606 q s → appletNamed mb (fld q.body 0 4) s = .ok a →
      Ends (.appletQuery mb) s mb { body := layout 32 [(0, 1, appCode a.state), (1, 1, a.core), (2, 1, a.slot), (4, 4, a.exitCode),
        (8, 8, a.mcause.toNat), (0x10, 8, a.mepc.toNat), (0x18, 8, a.mtval.toNat)] } s) ∧
    (Accepted mb 0x0607 q s → fld q.body 0 1 < 72 → (mbIsVf mb = false ∨ (getCore (fld q.body 0 1) s).owner = mbOwner mb s) →
      Ends (.gladeStatus mb) s mb { body := layout 6 [(0, 4, (getCore (fld q.body 0 1) s).owner.getD 0xFFFFFFFF),
        (4, 1, slotBits (getCore (fld q.body 0 1) s)), (5, 1, coreCode (getCore (fld q.body 0 1) s).state)] } s) ∧
    (Accepted mb 0x0601 q s → storeCheck appletTrustCheck mb q s = none →
      policySuspended 0x0601 ((adminOf (fld q.body 0 4) s).getD 0) s = false → Ends (.appletTrust mb) s mb { status := 0x0301 } s) ∧
    (∀ a, Approved mb 0x0601 q a s → storeCheck appletTrustCheck mb a.req s = none → canChange s = true → fld a.req.body 8 8 ≠ 0 →
      ∃ t, exec (.quorumExecute mb) s = .next t ∧ tget t.store.c.trust (4 * fld a.req.body 0 4 + fld a.req.body 4 1) = some (fld a.req.body 8 8) ∧
        (∀ i, i ≠ 4 * fld a.req.body 0 4 + fld a.req.body 4 1 → tget t.store.c.trust i = tget s.store.c.trust i) ∧ t.store.c.keys = s.store.c.keys)

/-- Life cycle, debug and the TAP: LC_NONCE draws the outstanding nonce from the Heartwood's bits, as a write of NEW does, which waits for them; a transition or a resume whose statement fails answers that status and spends the nonce, one that passes begins the programming: each further row of the command makes one write, BEGIN, the three copies of every state on the way, END, and the last one answers and orders the cold start; PERSONALISE to PRODUCTION asks for its quorum; the anchor refreshes from the estate policy; DEBUG_GRANT adds the enables its statement names and sets the flags, a revoke clears the enables alone; TAP instructions load their registers, those not accepted now load BYPASS (R475, R476, R477, R478, R479, R482, R484, R486, R487, R489, R491, R615). Completes: lcNonce, lcTransition, lcResume, quorumExecute, lcAnchorRefresh, debugGrant, debugStatus, debugRevoke, hwdDbgCtrlNew, hwdDbgCtrlRevoke, tapReset, idcode, bypass, dbgStatus, samplePreload, extest, clamp, highz, dbgNonce, dbgToken, tpScan. -/
def Obligations.LifeCycleCommandsComplete : Prop :=
  (∀ (mb : Mb) (q : Req) (a : Approval) (s : State),
    (∀ d u, Accepted mb 0x0701 q s → takeHeart 32 s = (some d, u) → Ends (.lcNonce mb) s mb { body := d } { u with lc.nonce := some d }) ∧
    (∀ dst au b, Accepted mb 0x0702 q s → fld q.body 8 4 ≤ 65536 → lcTaken s = false → s.lc.decoded ≠ .invalid →
      ¬ (s.lc.decoded = .personalise ∧ fld q.body 0 1 = 3) → lcOfCode (fld q.body 0 1) = some dst → lcRow s.lc.decoded dst = some au →
      s.lc.journal.length ≤ 318 → authBytes mb q s = some b →
      (∀ st, judgeStatement 2 (lcCode s.lc.decoded) (fld q.body 0 1) au b s = some st →
        Ends (.lcTransition mb) s mb { status := st } { s with lc.nonce := none }) ∧
      (judgeStatement 2 (lcCode s.lc.decoded) (fld q.body 0 1) au b s = none →
        ∃ t, exec (.lcTransition mb) s = .next t ∧ (getMb mb t).cur = some q ∧ t.lc.nonce = none ∧ t.lc.decoded = s.lc.decoded ∧
          t.lc.copies = s.lc.copies ∧ t.lc.journal = s.lc.journal ∧ t.store = s.store ∧
          t.lc.run = some { src := s.lc.decoded, dst := dst, authBy := authBits au, auth := (digest 3 b).take 8, mb := mb, reqId := q.reqId, entryNo := true, todo := lcSteps s.lc.decoded dst })) ∧
    (∀ r x rest, lcOurs mb q s = some r → r.todo = x :: rest → ∀ i, (i = .lcTransition mb ∧ Accepted mb 0x0702 q s) ∨ (i = .lcResume mb ∧ Accepted mb 0x0703 q s) →
      (rest ≠ [] → exec i s = .next (lcStep r x { s with lc.run := some { r with todo := rest } })) ∧
      (rest = [] → ∃ t, exec i s = .next (finishMb mb { body := if r.entryNo then leBytes 4 (t.lc.journal.length - 1) else leBytes 1 (lcCode r.dst) } t) ∧
        t.pwr.orderedCold = some 4 ∧ t.lc.copies = (lcStep r x s).lc.copies ∧ t.lc.journal = (lcStep r x s).lc.journal ∧ t.lc.decoded = s.lc.decoded ∧ t.store = s.store)) ∧
    (∀ r u, (∀ k st, (lcStep r (.copy k st) u).lc.copies = u.lc.copies.set k (lcWord st) ∧ (lcStep r (.copy k st) u).lc.journal = u.lc.journal) ∧
      ∀ x, (x = .begin_ ∨ x = .fin) → (lcStep r x u).lc.copies = u.lc.copies ∧ ∃ e, (lcStep r x u).lc.journal = u.lc.journal ++ [e] ∧ e.isEnd = (x == .fin) ∧
        e.src = r.src ∧ e.dst = r.dst ∧ e.authBy = r.authBy ∧ e.no = u.lc.journal.length ∧ e.damaged = false) ∧
    (Accepted mb 0x0702 q s → s.lc.decoded = .personalise → fld q.body 0 1 = 3 → lcToProductionCheck mb q s = none →
      policySuspended 0x0702 ((adminOf 0 s).getD 0) s = false → Ends (.lcTransition mb) s mb { status := 0x0301 } s) ∧
    (Approved mb 0x0702 q a s → s.lc.decoded = .personalise → fld a.req.body 0 1 = 3 → lcToProductionCheck mb a.req s = none →
      (lcTaken s = false → ∃ t, exec (.quorumExecute mb) s = .next t ∧ t.lc.anchor = (writeAnchor s).lc.anchor ∧ t.lc.copies = s.lc.copies ∧ t.lc.journal = s.lc.journal ∧
        (t.lc.run.map (fun r => (r.src, r.dst, r.authBy, r.todo))) = some (.personalise, .production, 4, lcSteps .personalise .production)) ∧
      (∀ r x rest, lcOurs mb a.req s = some r → r.todo = x :: rest →
        ∃ t, exec (.quorumExecute mb) s = .next t ∧ t.lc.copies = (lcStep r x s).lc.copies ∧ t.lc.journal = (lcStep r x s).lc.journal ∧ t.lc.anchor = s.lc.anchor ∧
          t.lc.run.map (·.todo) = some rest ∧ (rest = [] → t.pwr.orderedCold = some 4))) ∧
    (∀ b, Accepted mb 0x0703 q s → fld q.body 8 4 ≤ 65536 → lcTaken s = false →
      ((lcOpen s.lc.journal).isSome = true ∨ s.lc.copies.all (fun c => c == lcWord (lcNamed s.lc.journal).2) = false) → authBytes mb q s = some b →
      (∀ st, judgeStatement 3 (lcCode (lcNamed s.lc.journal).1) (lcCode (lcNamed s.lc.journal).2)
          ((lcRow (lcNamed s.lc.journal).1 (lcNamed s.lc.journal).2).getD .svatum) b s = some st →
        Ends (.lcResume mb) s mb { status := st } { s with lc.nonce := none }) ∧
      (judgeStatement 3 (lcCode (lcNamed s.lc.journal).1) (lcCode (lcNamed s.lc.journal).2)
          ((lcRow (lcNamed s.lc.journal).1 (lcNamed s.lc.journal).2).getD .svatum) b s = none →
        s.lc.copies.any (fun c => c &&& lcWord (lcNamed s.lc.journal).2 != lcWord (lcNamed s.lc.journal).2) = false →
        ∃ t, exec (.lcResume mb) s = .next t ∧ (getMb mb t).cur = some q ∧ t.lc.copies = s.lc.copies ∧ t.lc.journal = s.lc.journal ∧ t.lc.nonce = none ∧ t.store = s.store ∧
          t.lc.run.map (fun r => (r.src, r.dst, r.mb, r.reqId, r.entryNo, r.todo)) = some ((lcNamed s.lc.journal).1, (lcNamed s.lc.journal).2, mb, q.reqId, false,
            lcCopies (lcNamed s.lc.journal).2 ++ if (lcOpen s.lc.journal).isSome then [.fin] else []))) ∧
    (Accepted mb 0x0704 q s → s.lc.decoded = .production → policySuspended 0x0704 ((adminOf 0 s).getD 0) s = false →
      Ends (.lcAnchorRefresh mb) s mb { status := 0x0301 } s) ∧
    (∀ m ks, Approved mb 0x0704 q a s → s.lc.decoded = .production → estatePolicyKeys s = some (m, ks) →
      ∃ t, exec (.quorumExecute mb) s = .next t ∧ t.lc.anchor = some
        { gen := (match s.lc.anchor with | some x => x.gen + 1 | none => 1), m := m, entries := ks.map (fun p => { alg := p.1, key := p.2 }) }) ∧
    (∀ b, Accepted mb 0x0708 q s → fld q.body 8 4 ≤ 65536 → authBytes mb q s = some b → debugScoped s b = false →
      (∀ st, judgeDebug b s = .error st → Ends (.debugGrant mb) s mb { status := st } { s with lc.nonce := none }) ∧
      (∀ st, judgeDebug b s = .ok st →
        ∃ t, exec (.debugGrant mb) s = .next (finishMb mb { body := leBytes 1 t.lc.enables.toNat } t) ∧
          t.lc.enables = s.lc.enables ||| BitVec.ofNat 4 (fld st 11 1) ∧ t.lc.everT = (s.lc.everT || fld st 11 1 % 4 != 0) ∧
          t.lc.everU = (s.lc.everU || fld st 11 1 / 4 % 4 != 0) ∧ t.lc.nonce = none ∧ t.store = s.store)) ∧
    (Accepted mb 0x0709 q s → Ends (.debugStatus mb) s mb { body := leBytes 4 (debugWord s.lc) } s) ∧
    (Accepted mb 0x070A q s → Ends (.debugRevoke mb) s mb {} { s with lc.enables := 0, lc.halted := [], lc.stepping := [] })) ∧
  (∀ s : State,
    (∀ d u, takeHeart 32 s = (some d, u) → exec .hwdDbgCtrlNew s = .next { u with lc.nonce := some d, lc.nonceDue := false }) ∧
    (∀ u, takeHeart 32 s = (none, u) → exec .hwdDbgCtrlNew s = .next { u with lc.nonceDue := true }) ∧
    exec .hwdDbgCtrlRevoke s = .next { s with lc.enables := 0, lc.halted := [], lc.stepping := [] } ∧
    exec .tapReset s = .next { s with lc.ir := 0x02, lc.drive := .normal, lc.dr := 0 } ∧
    exec .idcode s = .next { s with lc.ir := 0x02, lc.dr := idcodeWord, lc.drive := .normal } ∧
    exec .bypass s = .next { s with lc.ir := 0xFF, lc.dr := 0, lc.drive := .normal } ∧
    exec .dbgStatus s = .next { s with lc.ir := 0x13, lc.dr := debugWord s.lc } ∧
    (∀ bits, exec (.samplePreload bits) s =
      .next { (draw s).2 with lc.ir := 0x01, lc.dr := boundarySample (draw s).1 s, lc.boundary := BitVec.ofNat 14 bits, lc.drive := .normal }) ∧
    (s.pwr.resetLow = true → (∀ bits, exec (.extest bits) s =
        .next { (draw s).2 with lc.ir := 0x00, lc.dr := boundarySample (draw s).1 s, lc.boundary := BitVec.ofNat 14 bits, lc.drive := .extest }) ∧
      exec .clamp s = .next { s with lc.ir := 0x03, lc.dr := 0, lc.drive := .clamp } ∧
      exec .highz s = .next { s with lc.ir := 0x04, lc.dr := 0, lc.drive := .highz }) ∧
    (s.pwr.resetLow = false → (∀ bits, exec (.extest bits) s = exec .bypass s) ∧ exec .clamp s = exec .bypass s ∧ exec .highz s = exec .bypass s) ∧
    (lcIs s .scrapped = false → exec .dbgNonce s = .next { s with lc.ir := 0x10, lc.dr := leNat (s.lc.nonce.getD []) } ∧
      (∀ b st, judgeDebug b s = .error st → ∃ t, exec (.dbgToken b) s = .next t ∧ t.lc.nonce = none ∧ t.lc.enables = s.lc.enables ∧
        t.lc.tokenResult = (if st = 0x0302 then 2 else if st = 0x0103 then 4 else 3)) ∧
      (∀ b st, judgeDebug b s = .ok st → debugScoped s b = false → ∃ t, exec (.dbgToken b) s = .next t ∧ t.lc.nonce = none ∧
        t.lc.enables = s.lc.enables ||| BitVec.ofNat 4 (fld st 11 1) ∧ t.lc.tokenResult = 1)) ∧
    (lcIs s .scrapped = true → exec .dbgNonce s = exec .bypass s ∧ ∀ b, exec (.dbgToken b) s = exec .bypass s) ∧
    (∀ i, ∃ t, exec (.tpScan i) s = .next t ∧ t.store = s.store ∧
      t.lc.ir = (if (lcIs s .blank = true ∨ lcIs s .test = true) ∧ 0x20 ≤ i ∧ i ≤ 0x2F then i else 0xFF)))

/-- Lookout: an event of an armed source below its count is recorded, the one that reaches it trips the source with its response; a mesh check draws its pattern, without whose bits none is made, and clears its source where the pattern returns, a loop check raises its sources' events and clears those that hold no more; a full window rearms; a FREEZE hold ends; the seconds counter and its floor go on; a loss of the backup domain is flagged; SVOUT starts, retries and latches off; a RESET response is the cold start once its record is in flash; LOOKOUT_CONFIG, LOOKOUT_RELEASE and SVOUT_CTRL ask for their quorum and, approved, act; LOOKOUT_QUERY reads (R493, R496, R498, R499, R500, R501, R504, R505, R506, R507, R514). Completes: lookoutEvent, sourceRearm, freezeHoldExpiry, meshCheck, loopCheck, secondsTick, secondsFloorWrite, backupDomainLoss, svoutRampEnd, wait, svoutRetryTimer, svoutCollapse, lookoutReset, lookoutQuery, lookoutConfig, lookoutRelease, svoutCtrl, quorumExecute. -/
def Obligations.LookoutCompletes : Prop :=
  (∀ (n t : Nat) (v : Int) (s : State), lkoSourceOk n = true → n = 0x0E ∨ 0x13 ≤ n → lkoSampled s n = true → (lkoCfg s n).enable = true →
    (((lkoSrc s n).disarmed = true ∨ ((lkoWindow (lkoCfg s n) (lkoSrc s n) t).take 255).length < (lkoCfg s n).n) →
      exec (.lookoutEvent n t v) s = .next (setLkoSrc n { lkoSrc s n with events := (lkoWindow (lkoCfg s n) (lkoSrc s n) t).take 255, present := true, lastEvent := seconds s } s)) ∧
    ((lkoSrc s n).disarmed = false → (lkoCfg s n).n ≤ ((lkoWindow (lkoCfg s n) (lkoSrc s n) t).take 255).length → (lkoApplied s (lkoCfg s n)).1 ≤ 2 →
      ∃ u, exec (.lookoutEvent n t v) s = .next u ∧ (lkoSrc u n).disarmed = true ∧ (lkoSrc u n).response = (lkoApplied s (lkoCfg s n)).1 ∧
        (lkoSrc u n).trips = satInc 65535 (lkoSrc s n).trips ∧ (lkoSrc u n).tripTime = seconds s ∧
        ((lkoApplied s (lkoCfg s n)).1 = 2 → (lkoSrc u n).holding = true ∧ (lkoSrc u n).holdS = (lkoApplied s (lkoCfg s n)).2) ∧
        u.store = s.store ∧ ∀ i, i ≠ n → lkoSrc u i = lkoSrc s i) ∧
    ((lkoSrc s n).disarmed = false → (lkoCfg s n).n ≤ ((lkoWindow (lkoCfg s n) (lkoSrc s n) t).take 255).length → (lkoApplied s (lkoCfg s n)).1 = 3 →
      ∃ u, exec (.lookoutEvent n t v) s = .next u ∧ u.lc.enables = 0 ∧ u.store.sap = [] ∧ u.host.spdm = [])) ∧
  (∀ (n : Nat) (s : State), lkoSourceOk n = true →
    exec (.sourceRearm n) s = .next (lkoLine n (setLkoSrc n { lkoSrc s n with disarmed := false, events := [], present := false } s)) ∧
    ((lkoSrc s n).holding = true → 0 < (lkoSrc s n).holdS → (lkoSrc s n).lastEvent + (lkoSrc s n).holdS ≤ seconds s →
      ∃ t, exec (.freezeHoldExpiry n) s = .next t ∧ (lkoSrc t n).holding = false ∧ (∀ i, i ≠ n → lkoSrc t i = lkoSrc s i) ∧ t.commit = s.commit ∧
        (frozen (setLkoSrc n { lkoSrc s n with holding := false } s) = true → t = setLkoSrc n { lkoSrc s n with holding := false } s))) ∧
  (∀ (m t : Nat) (s : State), m < 3 →
    (∀ p u, takeHeart 4 s = (some p, u) → exec (.meshCheck m t false) s =
      .next (setLkoSrc (0x13 + m) { lkoSrc s (0x13 + m) with present := false } { u with lko.patterns := tset s.lko.patterns m p, pwr.meshOk := s.pwr.meshOk || m == 0 })) ∧
    (∀ u fails, takeHeart 4 s = (none, u) → exec (.meshCheck m t fails) s = .next u)) ∧
  (∀ (t : Nat) (s : State), (lkoCfg s 0x1A).polarity = false → (lkoCfg s 0x1B).polarity = false →
    (∃ u, exec (.loopCheck t [false, false, false, false] [false, false]) s = .next u ∧
      (∀ n, lkoSrc u n = if 0x16 ≤ n ∧ n ≤ 0x1B ∧ (lkoSrc s n).present then { lkoSrc s n with present := false } else lkoSrc s n) ∧
      ((∀ n, (lkoSrc s n).present = false) → u = s)) ∧
    (s.pwr.state = .backup → (lkoCfg s 0x16).enable = true → s.lko.copyValid = true → lcIs s .scrapped = false → (lkoSrc s 0x16).disarmed = false →
      (lkoCfg s 0x16).n ≤ ((lkoWindow (lkoCfg s 0x16) (lkoSrc s 0x16) t).take 255).length →
      ∃ u, exec (.loopCheck t [true, false, false, false] [false, false]) s = .next u ∧ (tgetD u.lko.latches 0 {}).valid = true ∧
        (lkoSrc u 0x16).disarmed = true ∧ u.store = s.store)) ∧
  (∀ s : State,
    (s.pwr.state = .backup → exec .secondsTick s = .next { s with lko.seconds := s.lko.seconds + 1 } ∧ exec .secondsFloorWrite s = .next s ∧
      exec .backupDomainLoss s = .next { s with lko.lossFlag := true, lko.latches := [], lko.copyValid := false, lko.clearcutPending := false }) ∧
    (s.pwr.state ≠ .backup → exec .secondsFloorWrite s = .next { s with lko.floor := s.lko.seconds + 3600 } ∧ exec .backupDomainLoss s = .next s ∧
      ∃ t, exec .secondsTick s = .next t ∧ t.lko = { s.lko with seconds := s.lko.seconds + 1 } ∧ t.store = s.store ∧
        (s.log.rates = [] → t = { s with lko.seconds := s.lko.seconds + 1 })) ∧
    (s.lko.svout = .softstart →
      exec (.svoutRampEnd true) s = .next { s with lko.svout := .on, lko.svRetries := 0 } ∧
      (s.lko.svRetries < 3 → ∃ t, exec (.svoutRampEnd false) s = .next t ∧ t.lko.svout = .wait ∧ t.lko.svRetries = s.lko.svRetries) ∧
      (3 ≤ s.lko.svRetries → ∃ t, exec (.svoutRampEnd false) s = .next t ∧ t.lko.svout = .latchedOff)) ∧
    (s.lko.svout = .wait → exec .svoutRetryTimer s = .next { s with lko.svout := .softstart, lko.svRetries := s.lko.svRetries + 1 }) ∧
    (s.lko.svout = .on → s.lko.svRetries < 3 → ∃ t, exec .svoutCollapse s = .next t ∧ t.lko.svout = .wait) ∧
    (∀ n, s.lko.resetDue = some n →
      (s.log.queue.any (fun r => r.code == 0x0701 && fld r.arg 0 1 == n) = true → exec .lookoutReset s = .next s) ∧
      (s.log.queue.any (fun r => r.code == 0x0701 && fld r.arg 0 1 == n) = false → s.pwr.resetLow = false → s.fbk.fatal = false →
        ∃ t, exec .lookoutReset s = .next t ∧ t.pwr.cause = 3 ∧ t.start.stage = 0 ∧ t.commit = s.commit ∧ t.log = s.log ∧ t.ctxs = []))) ∧
  (∀ (mb : Mb) (q : Req) (a : Approval) (s : State),
    (Accepted mb 0x0902 q s → lkoSourceOk (fld q.body 0 1) = true →
      Ends (.lookoutQuery mb) s mb { body := lkoCfgBytes (fld q.body 0 1) (lkoCfg s (fld q.body 0 1)) ++ layout 8 [(0, 4, lkoStatusWord s (fld q.body 0 1)), (4, 4, (lkoSrc s (fld q.body 0 1)).tripTime)] } s) ∧
    (policySuspended q.opcode ((adminOf 0 s).getD 0) s = false →
      (Accepted mb 0x0901 q s → lookoutConfigCheck mb q s = none → Ends (.lookoutConfig mb) s mb { status := 0x0301 } s) ∧
      (Accepted mb 0x0903 q s → lookoutReleaseCheck mb q s = none → Ends (.lookoutRelease mb) s mb { status := 0x0301 } s) ∧
      (Accepted mb 0x0904 q s → svoutCtrlCheck mb q s = none → Ends (.svoutCtrl mb) s mb { status := 0x0301 } s)) ∧
    (Approved mb 0x0901 q a s → lookoutConfigCheck mb a.req s = none →
      ∃ t, exec (.quorumExecute mb) s = .next t ∧ t.lko.cfgGen = s.lko.cfgGen + 1 ∧ (∀ n c, (n, c) ∈ lkoReqCfgs a.req → lkoCfg t n = c) ∧
        (∀ n, n ∉ (lkoReqCfgs a.req).map (·.1) → lkoCfg t n = lkoCfg s n ∧ lkoSrc t n = lkoSrc s n)) ∧
    (∀ n, Approved mb 0x0903 q a s → lookoutReleaseCheck mb a.req s = none → fld a.req.body 0 1 = n → n ≠ 0xFF → (lkoSrc s n).holdS = 0 →
      n ∈ lkoHolders s → ∃ t, exec (.quorumExecute mb) s = .next t ∧ (lkoSrc t n).holding = false ∧ ∀ i, i ≠ n → lkoSrc t i = lkoSrc s i) ∧
    (Approved mb 0x0904 q a s → fld a.req.body 0 1 = 0 →
      ∃ t, exec (.quorumExecute mb) s = .next t ∧ t.lko.svout = .off ∧ t.lko.svEnabled = false ∧ t.lko.src = s.lko.src) ∧
    (Approved mb 0x0904 q a s → fld a.req.body 0 1 = 1 → s.lko.svout = .off →
      ∃ t, exec (.quorumExecute mb) s = .next t ∧ t.lko.svout = .softstart ∧ t.lko.svRetries = 0 ∧ t.lko.svEnabled = true))

/-- Firebreak: a CORRECTED report is counted and recorded, a memory error perhaps in a lane's count too, a SERVICE report sets its bit, a FATAL report holds FATAL with its source, empties the Sapwood and brings QUARANTINE; a self-check does so with 0x2F and no count; a transient SERVICE bit clears after 60 s; a relocked PLL is no longer lost; FB_ALIVE toggles; an HBM page is remapped or poisoned, in the fatal regions FATAL; the wear index follows its gauge; the commands query, configure and inject; FORCE_LOW and GO act in FACTORY-TEST only (R517, R518, R520, R521, R522, R525, R526, R537, R542, R543, R544). Completes: faultReport, firebreakSelfCheck, serviceFaultClear, pllRelockAttempt, fbAliveToggle, hbmError, wearIndexUpdate, forceLow, fbkInjectGo, firebreakQuery, firebreakConfig, quorumExecute, firebreakInject. -/
def Obligations.FirebreakCompletes : Prop :=
  (∀ (src unit : Nat) (s : State), s.mode.mode ≠ 12 → s.pwr.state ≠ .backup →
    (src = 0x01 → ∃ t, exec (.faultReport src unit) s = .next t ∧ t.fbk = { s.fbk with counts := tset s.fbk.counts 0 (tgetD s.fbk.counts 0 0 + 1) } ∧
      (∀ g, g ≠ unit → getLane g t = getLane g s) ∧ (getLane unit t).state = (getLane unit s).state ∧ t.store = s.store ∧ t.ctxs = s.ctxs) ∧
    (src ∈ [0x02, 0x04, 0x10, 0x11] → ∃ l, exec (.faultReport src unit) s =
      .next { s with fbk.counts := tset s.fbk.counts 0 (tgetD s.fbk.counts 0 0 + 1), log := l }) ∧
    (src ∈ [0x18, 0x19, 0x1A, 0x1C, 0x1D, 0x1E, 0x1F] → ∃ t, exec (.faultReport src unit) s = .next t ∧
      t.fbk.service = s.fbk.service ||| BitVec.ofNat 8 (2 ^ (src - 0x18)) ∧ tgetD t.fbk.counts 2 0 = tgetD s.fbk.counts 2 0 + 1 ∧
      t.fbk.last = { source := src, cls := 2, injected := false, unit := unit % 4096, seconds := seconds s } ∧ t.store = s.store ∧ t.units = s.units) ∧
    (src ∈ [0x20, 0x21, 0x22, 0x23, 0x24] → s.fbk.fatal = false → ∃ t, exec (.faultReport src unit) s = .next t ∧ t.fbk.fatal = true ∧
      t.fbk.fatalSrc = src ∧ t.fbk.level = false ∧ t.store.sap = [] ∧ tgetD t.fbk.counts 3 0 = tgetD s.fbk.counts 3 0 + 1 ∧
      (s.mode.chosen = true → lcIs s .scrapped = false → t.mode.mode = 8)) ∧
    (fbkSourceOk src = false → exec (.faultReport src unit) s = .next s) ∧
    (s.fbk.fatal = false → ∃ t, exec .firebreakSelfCheck s = .next t ∧ t.fbk.fatal = true ∧ t.fbk.self = true ∧ t.fbk.fatalSrc = 0x2F ∧
      t.fbk.counts = s.fbk.counts ∧ t.store.sap = [] ∧ (s.mode.chosen = true → lcIs s .scrapped = false → t.mode.mode = 8))) ∧
  (∀ (kind : Nat) (s : State), kind < 8 →
    (kind < 2 → s.fbk.service.getLsbD kind = true → tgetD s.fbk.serviceAt kind 0 + 60 ≤ seconds s →
      ∃ t, exec (.serviceFaultClear kind) s = .next t ∧ t.fbk.service = s.fbk.service &&& ~~~ BitVec.ofNat 8 (2 ^ kind) ∧ t.store = s.store) ∧
    ((2 ≤ kind ∨ seconds s < tgetD s.fbk.serviceAt kind 0 + 60) → exec (.serviceFaultClear kind) s = .next s)) ∧
  (∀ (pll : Nat) (s : State),
    (s.fbk.lostPlls.contains pll = true → ∃ t, exec (.pllRelockAttempt pll true) s = .next t ∧ t.fbk.lostPlls = without s.fbk.lostPlls pll ∧
      (t.fbk.lostPlls = [] → t.fbk.service.getLsbD 3 = false) ∧ t.store = s.store) ∧
    exec (.pllRelockAttempt pll false) s = .next s) ∧
  (∀ s : State, s.fbk.running = true → s.fbk.fatal = false → s.fbk.forceLow = false → s.pwr.resetLow = false → s.pwr.state ≠ .backup →
    exec .fbAliveToggle s = .next { s with fbk.level := !s.fbk.level, fbk.halves := s.fbk.halves + 1 }) ∧
  (∀ (addr master : Nat) (s : State),
    (hbmFatalRegion addr = true → s.fbk.fatal = false → ∃ t, exec (.hbmError addr master) s = .next t ∧ t.fbk.fatal = true ∧ t.fbk.fatalSrc = 0x20) ∧
    (hbmFatalRegion addr = false → 0x188 ≤ master → ∃ t, exec (.hbmError addr master) s = .next t ∧
      (s.fbk.remap.length < 4096 → t.fbk.remap = s.fbk.remap ++ [(addr / 4096, s.fbk.remap.length)] ∧
        t.units.fab = (zeroFab (4096 * (addr / 4096)) 4096 s).units.fab) ∧
      (4096 ≤ s.fbk.remap.length → t.fbk.poisoned = addNew s.fbk.poisoned (addr / 4096) ∧ t.units.fab = s.units.fab) ∧
      tgetD t.fbk.counts 1 0 = tgetD s.fbk.counts 1 0 + 1 ∧ t.store = s.store)) ∧
  (∀ (st : Nat) (s : State), st < 8 →
    ((getBank st s).state = .retired → exec (.wearIndexUpdate st) s = .next { s with fbk.wear := tset s.fbk.wear st (0xFF, false) }) ∧
    ((getBank st s).state ≠ .retired → ∃ l, exec (.wearIndexUpdate st) s = .next { s with log := l, fbk.wear := tset s.fbk.wear st (wearPct (getBank st s).agePpm, (tgetD s.fbk.wear st (0, false)).2 || decide (s.fbk.warnPct ≤ wearPct (getBank st s).agePpm)) })) ∧
  (∀ (p : Nat) (s : State), p < 4 →
    (s.mode.mode = 2 → (∀ on, exec (.forceLow p on) s = .next { s with fbk.forceLow := on, fbk.level := s.fbk.level && !on }) ∧
      (∀ unit, unit < 4096 → ∃ l, exec (.fbkInjectGo p 0x02 unit) s = .next { s with fbk.injSource := 0x02, fbk.injUnit := unit, fbk.counts := tset s.fbk.counts 0 (tgetD s.fbk.counts 0 0 + 1), log := l } ∨ s.pwr.state = .backup)) ∧
    (s.mode.mode ≠ 2 → (∀ on, exec (.forceLow p on) s = .next s) ∧
      ∀ src unit, (getFn (.pf p) s).accessErr < 65535 → ∃ t, exec (.fbkInjectGo p src unit) s = .next t ∧
        (getFn (.pf p) t).accessErr = (getFn (.pf p) s).accessErr + 1 ∧ t.fbk = s.fbk)) ∧
  (∀ (mb : Mb) (q : Req) (a : Approval) (s : State),
    (Accepted mb 0x0910 q s → Ends (.firebreakQuery mb) s mb
      { body :=
          layout 52 [(0, 4, fbkStatusWord s.fbk), (4, 4, s.fbk.service.toNat), (8, 8, tgetD s.fbk.counts 0 0), (16, 8, tgetD s.fbk.counts 1 0),
            (24, 8, tgetD s.fbk.counts 2 0), (32, 8, tgetD s.fbk.counts 3 0), (40, 8, fbkLastWord s.fbk.last), (48, 4, fbkCommitWord s.commit)] ++
          ((List.range 8).map (fun k => leBytes 4 (fbkWearWord s k))).flatten } s) ∧
    (Accepted mb 0x0911 q s → firebreakConfigCheck mb q s = none →
      (lcIs s .production = false → Ends (.firebreakConfig mb) s mb {} { s with fbk.wdtMs := fld q.body 0 2, fbk.warnPct := fld q.body 2 1 }) ∧
      (lcIs s .production = true → policySuspended 0x0911 ((adminOf 0 s).getD 0) s = false → Ends (.firebreakConfig mb) s mb { status := 0x0301 } s)) ∧
    (Approved mb 0x0911 q a s → firebreakConfigCheck mb a.req s = none →
      ∃ t, exec (.quorumExecute mb) s = .next t ∧ t.fbk = { s.fbk with wdtMs := fld a.req.body 0 2, warnPct := fld a.req.body 2 1 }) ∧
    (Accepted mb 0x0912 q s →
      (s.mode.mode = 2 → fbkSourceOk (fld q.body 0 1) = true →
        Ends (.firebreakInject mb) s mb {} (faultArrives true (fld q.body 0 1) (fld q.body 2 2) s)) ∧
      (s.mode.mode = 2 → fbkSourceOk (fld q.body 0 1) = false → Ends (.firebreakInject mb) s mb { status := 0x0103 } s)))

/-- The log's writer: a record is queued if its code's rate and the queue allow, a critical one only by the queue's end, in SCRAPPED none; programming gives the oldest the next SEQ and its chain value; the next page opens once the current one holds a record; vector 10 goes to the PFs it is due for (R547, R548, R550, R552, R569). Completes: logRecordQueue, logRecordProgrammed, logPageOpen, trlVectorSend. -/
def Obligations.LogWriterCompletes : Prop :=
  (∀ (code origin : Nat) (arg : Bytes) (r : LogRec) (s : State), r = { code := code, flags := codeFlags code, origin := origin, arg := padTo 12 arg } →
    (lcIs s .scrapped = true → exec (.logRecordQueue code origin arg) s = .next s) ∧
    (lcIs s .scrapped = false →
      (bitOf (codeFlags code) 0 = true → s.log.queue.length < 512 →
        exec (.logRecordQueue code origin arg) s = .next { s with log.queue := s.log.queue ++ [r] }) ∧
      (bitOf (codeFlags code) 0 = true → 512 ≤ s.log.queue.length →
        exec (.logRecordQueue code origin arg) s = .next { s with log.blocked := s.log.blocked ++ [r] }) ∧
      (bitOf (codeFlags code) 0 = false →
        ∃ x, exec (.logRecordQueue code origin arg) s = .next { s with log.rates := tset s.log.rates code x, log.queue := if (tgetD s.log.rates code {}).accepted < 16 ∧ s.log.queue.length < 384 then s.log.queue ++ [r] else s.log.queue } ∧
          x.accepted + x.suppressed = (tgetD s.log.rates code {}).accepted + (tgetD s.log.rates code {}).suppressed + 1))) ∧
  (∀ (r : LogRec) (rest : List LogRec) (s : State), s.log.queue = r :: rest →
    (trlRoom s.log = true → ∃ l, exec .logRecordProgrammed s = .next { s with log := l } ∧ l.nextSeq = s.log.nextSeq + 1 ∧
      l.lastCheck = recCheck s.log.nextSeq r s.log.lastCheck ∧
      l.pages = putRec { seq := s.log.nextSeq, record := r, check := recCheck s.log.nextSeq r s.log.lastCheck } s.log.pages ∧
      l.queue = rest ++ s.log.blocked.take 1 ∧ l.blocked = s.log.blocked.drop 1 ∧
      l.crit = (if bitOf r.flags 0 then s.log.nextSeq else s.log.crit) ∧ (bitOf r.flags 0 = true → ∀ p ∈ pfs s, p ∈ l.vecDue)) ∧
    (trlRoom s.log = false → exec .logRecordProgrammed s = .next s)) ∧
  (∀ (p : TrlPage) (n : Nat) (rest : List Nat) (s : State), s.log.pages.getLast? = some p →
    (p.recs = [] → exec .logPageOpen s = .next s) ∧
    (p.recs ≠ [] → s.log.erased = n :: rest → exec .logPageOpen s =
      .next { s with log.erased := rest, log.pages := s.log.pages ++ [{ num := n, firstSeq := p.firstSeq + 64 }] })) ∧
  (∀ (p : Nat) (s : State), p < 4 →
    (s.log.vecDue.contains p = true → exec (.trlVectorSend p) s = .next (sendVec (.pf p) 10 { s with log.vecDue := without s.log.vecDue p })) ∧
    (s.log.vecDue.contains p = false → exec (.trlVectorSend p) s = .next s))

/-- Log and meter commands: status and export read what the log holds, an export no further than the newest record at its acceptance, an acknowledgement moves TRL_ACKED forward only, LOG_CLEAR asks for its quorum and then counts what it erased; the meter reads, closes its period with a durable snapshot, flushes its pages, and takes a UTC offset and a flush period (R554, R556, R557, R558, R562, R564, R565, R566, R567, R568). Completes: logStatus, logExport, logAck, logClear, quorumExecute, meterStatus, meterClose, meterRead, meterSetUtc, meterConfig, meterFlush. -/
def Obligations.LogAndMeterCommandsComplete : Prop :=
  (∀ (mb : Mb) (q : Req) (a : Approval) (s : State),
    (Accepted mb 0x0801 q s → Ends (.logStatus mb) s mb { body := layout 48 [(0, 4, trlStatusWord s.log), (8, 8, trlHead s.log), (0x10, 8, trlTail s.log),
      (0x18, 8, s.log.acked), (0x20, 8, s.log.crit), (0x28, 8, s.log.lost)] } s) ∧
    (∀ rs : List StoredRec, ∀ img : Bytes, Accepted mb 0x0802 q s → 96 ≤ fld q.body 0x18 4 →
      rs = ((heldRecs s.log).filter (fun x => decide (fld q.body 0 8 ≤ x.seq ∧ x.seq ≤ (getMb mb s).logHead))).take (min (fld q.body 8 4) ((fld q.body 0x18 4 - 64) / 32)) →
      img = exportHeader s (fld q.body 0 8) rs ++ (rs.map recBytes).flatten → hostOk (mbFn mb) (fld q.body 0x10 8) img.length s = true →
      Ends (.logExport mb) s mb { body := layout 16 [(0, 4, rs.length), (8, 8, (rs.getLast?.map (·.seq)).getD (fld q.body 0 8 - 1))] }
        (hostWrite (fld q.body 0x10 8) img s)) ∧
    (Accepted mb 0x0803 q s →
      (trlHead s.log < fld q.body 0 8 → Ends (.logAck mb) s mb { status := 0x0103 } s) ∧
      (fld q.body 0 8 ≤ trlHead s.log → Ends (.logAck mb) s mb { body := leBytes 8 (max s.log.acked (fld q.body 0 8)) }
        { s with log.acked := max s.log.acked (fld q.body 0 8) })) ∧
    (Accepted mb 0x0804 q s → Ends (.logClear mb) s mb { status := 0x0301 } s) ∧
    (Approved mb 0x0804 q a s → (∀ x ∈ heldRecs s.log, bitOf x.record.flags 1 = false) →
      ∃ t, exec (.quorumExecute mb) s = .next t ∧ t.log.nextSeq = s.log.nextSeq + 1 ∧ t.log.lost = s.log.lost + (heldRecs s.log).length ∧
        t.log.acked = s.log.acked) ∧
    (Accepted mb 0x0810 q s → Ends (.meterStatus mb) s mb { body := layout 18 [(0, 4, s.meter.period), (4, 4, s.meter.opened),
      (8, 8, (BitVec.ofInt 64 s.meter.utc).toNat), (16, 2, s.meter.flushS)] } s) ∧
    (Accepted mb 0x0811 q s → fld q.body 0 4 = s.meter.period →
      ∃ t, exec (.meterClose mb) s = .next t ∧ t.meter.period = s.meter.period + 1 ∧ t.meter.capLast = s.meter.live ∧ t.meter.capPrev = s.meter.capLast ∧
        t.meter.opened = seconds s ∧ t.meter.areaB = !s.meter.areaB ∧ (∃ n r, (getMb mb t).wait = .commit n r) ∧ s.store.nextSeq ≤ t.store.nextSeq) ∧
    (Accepted mb 0x0811 q s → fld q.body 0 4 ≠ s.meter.period → Ends (.meterClose mb) s mb { status := 0x0606 } s) ∧
    (∀ o img, Accepted mb 0x0812 q s → 2 ≤ s.meter.period → mbOwner mb s = some o → img = meterEntry s.meter o → img.length ≤ fld q.body 0x10 4 →
      hostOk (mbFn mb) (fld q.body 8 8) img.length s = true →
      Ends (.meterRead mb) s mb { body := layout 8 [(0, 4, s.meter.period - 1), (4, 4, 1)] } (hostWrite (fld q.body 8 8) img s)) ∧
    (Accepted mb 0x0812 q s → s.meter.period < 2 → Ends (.meterRead mb) s mb { status := 0x0606 } s) ∧
    (Accepted mb 0x0813 q s → ∃ l, Ends (.meterSetUtc mb) s mb { body := leBytes 8 (BitVec.ofInt 64 s.meter.utc).toNat }
      { s with log := l, meter.utc := (BitVec.ofNat 64 (fld q.body 0 8)).toInt }) ∧
    (Accepted mb 0x0814 q s →
      (10 ≤ fld q.body 0 2 → fld q.body 0 2 ≤ 3600 → Ends (.meterConfig mb) s mb {} { s with meter.flushS := fld q.body 0 2 }) ∧
      (fld q.body 0 2 < 10 ∨ 3600 < fld q.body 0 2 → Ends (.meterConfig mb) s mb { status := 0x0103 } s))) ∧
  (∀ s : State,
    (canChange s = false → exec .meterFlush s = .next s) ∧
    (canChange s = true → ∃ t, exec .meterFlush s = .next t ∧ t.meter = { s.meter with dirty := [] } ∧ t.store.c.keys = s.store.c.keys ∧
      (∀ o ∈ s.meter.dirty, tgetD t.store.c.meters o {} = tgetD s.meter.live o {}) ∧
      ∀ o, o ∉ s.meter.dirty → tget t.store.c.meters o = tget s.store.c.meters o))

/-- Power: power-on and RESET_N's rising edge start cold with their causes, RESET_N low holds FB_ALIVE low, a loss of main power leaves BACKUP with flash and log kept, at most one record torn; an idle stand is gated with its keys gone; POWER_CONFIG sets what it is given; POWER_WATCH registers its request, the abort points lead to WATCH with keys and enables gone, a pending wake or a late AP2 ends the entry with an answer; the wake sources set their bits; the wake goes step by step, waiting for a mesh check that passes, for the KEK's mask and for an intact Warden image, or fails into a cold start where no FATAL fault is held (R504, R526, R573, R576, R581, R583, R585, R586, R587, R588, R591, R594). Completes: powerOn, mainPowerLost, resetN, i2cTimeout, dozeEntry, powerConfig, powerWatch, watchAbortPoint, watchEntryTimeout, wakeIn, i2cAddressMatch, wakeTimer, wakeStepDone, wakeTimeout. -/
def Obligations.PowerCompletes : Prop :=
  (∀ s : State,
    (∃ t, exec .powerOn s = .next t ∧ t.pwr.cause = 0 ∧ t.start.stage = 0 ∧ t.start.starting = true ∧ t.commit = s.commit ∧ t.log = s.log ∧
      (s.lc.run = none → t.lc.journal = s.lc.journal ∧ t.lc.copies = s.lc.copies) ∧ t.store.sap = [] ∧ t.ctxs = []) ∧
    (s.pwr.state ≠ .backup → ∃ t, exec .mainPowerLost s = .next t ∧ t.pwr.state = .backup ∧ t.log.queue = [] ∧
      (t.log.pages = s.log.pages ∨ (s.log.queue ≠ [] ∧ ∃ x : StoredRec, x.seq = s.log.nextSeq ∧ t.log.pages = putRec x s.log.pages ∧ t.log.nextSeq = s.log.nextSeq + 1)) ∧
      t.commit = s.commit ∧ t.lko.seconds = s.lko.seconds ∧ t.store.sap = [] ∧ t.ctxs = []) ∧
    exec (.resetN true) s = .next { s with pwr.resetLow := true, fbk.level := false } ∧
    (s.pwr.resetLow = true → s.pwr.state ≠ .backup → ∃ t, exec (.resetN false) s = .next t ∧ t.pwr.cause = 1 ∧ t.pwr.resetLow = false ∧ t.start.stage = 0 ∧
      t.commit = s.commit ∧ t.log = s.log) ∧
    (s.pwr.resetLow = false → exec (.resetN false) s = .next s) ∧
    exec .i2cTimeout s = .next { s with pwr.sclHeld := false }) ∧
  (∀ (st : Nat) (s : State), st < 8 → wardenUp s = true → s.pwr.entry = none → s.fbk.fatal = false → dozing st s = false → dozeIdle st s = true →
    ∃ t, exec (.dozeEntry st) s = .next t ∧ dozing st t = true ∧ (∀ i, i < 8 → i ≠ st → dozing i t = dozing i s) ∧
      (∀ p ∈ t.units.lanes, p.1 / 9 = st → p.2.ctxs = []) ∧ t.store = s.store ∧ t.cores = s.cores) ∧
  (∀ (mb : Mb) (q : Req) (s : State),
    (Accepted mb 0x0131 q s → powerConfigCheck mb q s = none → fld q.body 0 2 ≠ 0 → bitOf (fld q.body 3 1) 0 = false → s.pwr.enable = 0xFF →
      Ends (.powerConfig mb) s mb { body := leBytes 2 (fld q.body 0 2) ++ leBytes 1 0xFF } { s with pwr.idleUs := fld q.body 0 2 }) ∧
    (Accepted mb 0x0130 q s → powerWatchCheck mb q s = none → Holds (.powerWatch mb) s mb q .watch { s with pwr.pendingWakes := 0, pwr.entry := some { mb := mb, mask := fld q.body 0 1, afterS := fld q.body 4 4, waitMs := fld q.body 8 2 } })) ∧
  (∀ (e : WatchEntry) (s : State), s.pwr.entry = some e → restarting s = false →
    (e.ap < 4 → s.pwr.pendingWakes ≠ 0 → ∃ t, exec (.watchAbortPoint e.ap) s = .next t ∧ t.pwr.entry = none ∧ t.pwr.lastAborted = true ∧ t.pwr.lastAp = e.ap ∧
      t.pwr.lastPending = s.pwr.pendingWakes ∧ t.pwr.pendingWakes = 0 ∧ t.pwr.lastSource = wakeSource s.pwr.pendingWakes ∧ t.store = s.store) ∧
    (s.pwr.pendingWakes = 0 →
      (e.ap = 0 → exec (.watchAbortPoint 0) s = .next { s with pwr.entry := some { e with ap := 1 } }) ∧
      (e.ap = 1 → ∃ t, exec (.watchAbortPoint 1) s = .next t ∧ t.pwr.entry = some { e with ap := 2 } ∧ t.store = s.store) ∧
      (e.ap = 2 → exec (.watchAbortPoint 2) s = .next { s with pwr.entry := some { e with ap := 3 } }) ∧
      (e.ap = 3 → ∃ t, exec (.watchAbortPoint 3) s = .next t ∧ t.pwr.state = .watch ∧ t.pwr.entry = none ∧ t.pwr.entered = some e ∧ t.lc.enables = 0 ∧
        t.store.sap = [] ∧ t.cust.approvals = [] ∧ t.start.epoch = s.start.epoch + 1 ∧ (∀ p ∈ t.host.links, p.2.up = false) ∧ t.store.c = s.store.c)) ∧
    (e.ap = 2 → ∃ t, exec .watchEntryTimeout s = .next t ∧ t.pwr = { s.pwr with entry := none, pendingWakes := 0 } ∧ t.store = s.store)) ∧
  (∀ (e : WatchEntry) (s : State), watchReq s = some e →
    (bitOf e.mask 1 = true → exec .wakeIn s = .next { s with pwr.pendingWakes := s.pwr.pendingWakes ||| 2#6 }) ∧
    (bitOf e.mask 1 = false → exec .wakeIn s = .next s) ∧
    (s.pwr.state ≠ .backup → bitOf e.mask 0 = true →
      exec (.i2cAddressMatch (i2cAddr s)) s = .next { s with pwr.sclHeld := true, pwr.pendingWakes := s.pwr.pendingWakes ||| 1#6 }) ∧
    (0 < e.afterS → s.pwr.ap3Seconds + e.afterS ≤ seconds s → exec .wakeTimer s = .next { s with pwr.pendingWakes := s.pwr.pendingWakes ||| 8#6 })) ∧
  (∀ s : State, s.pwr.state = .watch → s.pwr.resetLow = false → (s.pwr.wakeStep ≠ 0 ∨ s.pwr.pendingWakes ≠ 0) →
    (s.pwr.wakeStep = 0 → ∃ t, exec .wakeStepDone s = .next t ∧ t.pwr.wakeStep = 1 ∧ t.pwr.lastSource = wakeSource s.pwr.pendingWakes ∧
      t.pwr.lastAborted = false ∧ t.pwr.wakeCount = s.pwr.wakeCount + 1 ∧ t.pwr.slept = seconds s - s.pwr.ap3Seconds ∧ t.store = s.store) ∧
    (s.pwr.wakeStep = 1 → exec .wakeStepDone s = .next { s with pwr.wakeStep := 2, pwr.canopyGood := true, pwr.goodAt := s.us, pwr.meshOk := false, world.issued := [] }) ∧
    (s.pwr.wakeStep = 2 → exec .wakeStepDone s = .next (if s.pwr.meshOk then { s with pwr.wakeStep := 3 } else s)) ∧
    (∀ u, s.pwr.wakeStep = 4 → takeHeart 32 s = (none, u) → exec .wakeStepDone s = .next u) ∧
    (s.pwr.wakeStep = 5 → imagesIntact s = false → exec .wakeStepDone s = .next s) ∧
    (s.pwr.wakeStep = 7 → ∃ t, exec .wakeStepDone s = .next t ∧ t.pwr.state = .active ∧ t.pwr.entered = none ∧ t.pwr.wakeStep = 0 ∧ t.store = s.store ∧
      (s.mode.chosen = true → t.mode.mode = chooseMode { s with pwr.state := .active })) ∧
    (s.fbk.fatal = false → ∃ t, exec .wakeTimeout s = .next t ∧ t.pwr.cause = 7 ∧ t.start.stage = 0 ∧ t.start.lastStage = s.start.stage ∧ t.commit = s.commit))

/-- The management interface: outside BACKUP and reset each message is answered and releases SCL; an endpoint ID of 8 to 254 is assigned, another refused; FELLED answers GET_STATUS with its identity and no other vendor command; SPDM is answered once its fresh bits are there, Busy in WATCH and QUARANTINE, waits for a restart, and is no message type in FELLED (R595, R596, R597). Completes: setEndpointId, getEndpointId, getEndpointUuid, getMctpVersionSupport, getMessageTypeSupport, getVendorDefinedMsgSupport, getStatus, getSensors, getStands, getLogTail, spdmOverMctp. -/
def Obligations.ManagementInterfaceCompletes : Prop :=
  ∀ s : State, s.pwr.state ≠ .backup → s.pwr.resetLow = false →
    (∀ eid, (8 ≤ eid → eid ≤ 254 → exec (.setEndpointId eid) s =
        .next { s with pwr.eid := eid, pwr.mctpOut := mctpControl 1 0 (leBytes 1 0 ++ leBytes 1 eid ++ leBytes 1 0), pwr.sclHeld := false }) ∧
      (eid < 8 ∨ 254 < eid → exec (.setEndpointId eid) s = .next { s with pwr.mctpOut := mctpControl 1 2 [], pwr.sclHeld := false })) ∧
    exec .getEndpointId s =
      .next { s with pwr.mctpOut := mctpControl 2 0 (leBytes 1 s.pwr.eid ++ leBytes 1 0 ++ leBytes 1 0), pwr.sclHeld := false } ∧
    (∃ d, exec .getEndpointUuid s = .next { s with pwr.mctpOut := mctpControl 3 0 d, pwr.sclHeld := false } ∧ d.length = 16) ∧
    (∃ d, exec .getMctpVersionSupport s = .next { s with pwr.mctpOut := mctpControl 4 0 d, pwr.sclHeld := false } ∧ d.length = 5) ∧
    (∃ d, exec .getMessageTypeSupport s = .next { s with pwr.mctpOut := mctpControl 5 0 d, pwr.sclHeld := false } ∧
      d.length = (if s.mode.mode = 12 then 2 else 4)) ∧
    (∃ d, exec .getVendorDefinedMsgSupport s = .next { s with pwr.mctpOut := mctpControl 6 0 d, pwr.sclHeld := false } ∧ d.length = 6) ∧
    exec .getStatus s = .next { s with pwr.mctpOut := vendorBytes 1 0 (statusData s), pwr.sclHeld := false } ∧
    (s.mode.mode ≠ 12 →
      (∃ d, exec .getSensors s = .next { s with pwr.mctpOut := vendorBytes 2 0 d, pwr.sclHeld := false } ∧ d.length = 104) ∧
      (∃ d, exec .getStands s = .next { s with pwr.mctpOut := vendorBytes 3 0 d, pwr.sclHeld := false } ∧ d.length = 32) ∧
      (∀ n, 1 ≤ n → n ≤ 32 → ∃ d rs, exec (.getLogTail n) s = .next { s with pwr.mctpOut := vendorBytes 4 0 d, pwr.sclHeld := false } ∧
        rs = (heldRecs s.log).drop ((heldRecs s.log).length - n) ∧ d = layout 8 [(0, 1, rs.length)] ++ (rs.map recBytes).flatten) ∧
      (∀ n, (n = 0 ∨ 32 < n) → exec (.getLogTail n) s = .next { s with pwr.mctpOut := vendorBytes 4 2 [], pwr.sclHeld := false }) ∧
      (∀ m, (s.mode.mode = 8 ∨ s.pwr.state = .watch ∨ s.mode.chosen = false) →
        exec (.spdmOverMctp m) s = .next { s with pwr.sclHeld := false, pwr.mctpOut := spdmBusy m }) ∧
      (∀ m, s.mode.mode ≠ 8 → s.pwr.state ≠ .watch → s.mode.chosen = true →
        ((restarting s = true ∨ s.start.failingOver = true) →
          exec (.spdmOverMctp m) s = .next { s with pwr.sclHeld := false, pwr.spdmWait := s.pwr.spdmWait ++ [m] }) ∧
        (restarting s = false → s.start.failingOver = false → ∃ t, exec (.spdmOverMctp m) s = .next t ∧ t.pwr.sclHeld = false ∧ t.store = s.store ∧
          ((takeHeart 48 s).1.isSome = true → ∃ d, t.pwr.mctpOut = m.take 1 ++ d) ∧
          ((takeHeart 48 s).1 = none → t.pwr.spdmWait = s.pwr.spdmWait ++ [m] ∧ t.pwr.mctpOut = s.pwr.mctpOut)))) ∧
    (s.mode.mode = 12 → exec .getSensors s = .next { s with pwr.mctpOut := vendorBytes 2 4 [], pwr.sclHeld := false } ∧
      exec .getStands s = .next { s with pwr.mctpOut := vendorBytes 3 4 [], pwr.sclHeld := false } ∧ ∀ m, exec (.spdmOverMctp m) s = .next s)

/-- Window functions: a complete input of a key function starts a context of the window with the input as its source and the entry its row gives, a length or field outside the row ends it BAD_LENGTH or BAD_FUNCTION; IDENT, KEY_CHECK and USE_QUERY answer at once; the functions not reproduced end FUNC_UNSUPPORTED with no effect; words are taken while DRQ is 1 and counted as overrun otherwise (R622, R624, R625, R626, R628, R632). Completes: kcwEncrypt, kcwDecrypt, kcwMacGen, kcwMacVer, kcwPinXlate, kcwRandom, kcwIdent, kcwKeyCheck, kcwUseQuery, kcwGenerateKey, kcwLoadComponents, kcwImportKey, kcwExportKey, kcwDeleteKey, kcwSetClock, wait, kcwData, kcwReset. -/
def Obligations.WindowFunctionsComplete : Prop :=
  (∀ p ∈ ([(.kcwEncrypt, 0x10, 0x40, 1), (.kcwDecrypt, 0x11, 0x41, 2)] : List ((Nat → Instr) × Nat × Nat × Nat)),
    ∀ (w c : Nat) (k : Kcw) (s : State), WindowWaits w p.2.1 c k s →
      (8 ≤ k.capLen → k.capLen ≤ 4096 → k.capLen % 8 = 0 →
        ∃ t y, exec (p.1 w) s = .next t ∧ (getKcw w t).phase = .running ∧ (getKcw w t).ctx = some c ∧ getCtx c t = some y ∧ y.src = .kcw w ∧
          y.input = some (kcwBytes k.words k.capLen) ∧ y.aux = kcwIv k 16 ∧ ctxClass y = p.2.2.1 ∧
          fld y.entry 8 8 = kcwHandle k k.capKey p.2.2.2 s % 2 ^ 64 ∧ y.deadlineAt = s.us + 1000000 ∧ (y.state = .leasing ∨ y.state = .draining) ∧
          (∀ i, i ≠ w → getKcw i t = getKcw i s) ∧ t.units = s.units) ∧
      ((k.capLen < 8 ∨ 4096 < k.capLen ∨ k.capLen % 8 ≠ 0) → ∃ t, exec (p.1 w) s = .next t ∧ WindowDone w 3 0x0104 [] s t ∧ t.store = s.store)) ∧
  (∀ p ∈ ([(.kcwMacGen, 0x12, 0), (.kcwMacVer, 0x13, 1)] : List ((Nat → Instr) × Nat × Nat)),
    ∀ (w c : Nat) (k : Kcw) (s : State), WindowWaits w p.2.1 c k s →
      (4 ≤ bits k.cmd.toNat 13 10 → bits k.cmd.toNat 13 10 ≤ 8 → 1 ≤ k.capLen → k.capLen ≤ 4096 →
        ∃ t y, exec (p.1 w) s = .next t ∧ (getKcw w t).phase = .running ∧ (getKcw w t).ctx = some c ∧ getCtx c t = some y ∧ y.src = .kcw w ∧
          y.input = some (kcwBytes k.words k.capLen) ∧ y.aux = kcwIv k 8 ∧ ctxClass y = 0x14 ∧ fld y.entry 0x29 1 = bits k.cmd.toNat 13 10 ∧
          fld y.entry 0x2A 1 = p.2.2 ∧ (∀ i, i ≠ w → getKcw i t = getKcw i s) ∧ t.units = s.units) ∧
      ((bits k.cmd.toNat 13 10 < 4 ∨ 8 < bits k.cmd.toNat 13 10) → ∃ t, exec (p.1 w) s = .next t ∧ WindowDone w 1 0x0103 [] s t ∧ t.store = s.store)) ∧
  (∀ (w c fi fo : Nat) (k : Kcw) (s : State), WindowWaits w 0x18 c k s → bits k.cmd.toNat 19 16 = fi → bits k.cmd.toNat 23 20 = fo → pinFmtOk fi = true →
    pinFmtOk fo = true → pinBlock fi + 12 ≤ k.capLen → k.capLen ≤ pinBlock fi + 19 →
    ∃ t y, exec (.kcwPinXlate w) s = .next t ∧ (getKcw w t).phase = .running ∧ (getKcw w t).ctx = some c ∧ getCtx c t = some y ∧ y.src = .kcw w ∧
      y.input = some (kcwBytes k.words k.capLen) ∧ ctxClass y = 0x13 ∧ fld y.entry 0x30 1 = fi ∧ fld y.entry 0x31 1 = fo ∧
      fld y.entry 0x32 1 = k.capLen - pinBlock fi ∧ (∀ i, i ≠ w → getKcw i t = getKcw i s) ∧ t.units = s.units) ∧
  (∀ (w c : Nat) (k : Kcw) (s : State), WindowWaits w 0x28 c k s → 1 ≤ k.capLen → k.capLen ≤ 4096 →
    ∃ t y, exec (.kcwRandom w) s = .next t ∧ (getKcw w t).phase = .running ∧ (getKcw w t).ctx = some c ∧ getCtx c t = some y ∧ y.src = .kcw w ∧
      ctxClass y = 0x11 ∧ elemsLen y.dstElems = k.capLen ∧ (∀ i, i ≠ w → getKcw i t = getKcw i s) ∧ t.units = s.units) ∧
  (∀ (w c : Nat) (k : Kcw) (s : State), WindowWaits w 0x01 c k s → k.capLen = 0 →
    ∃ t, exec (.kcwIdent w) s = .next t ∧ WindowDone w 0 0 ([0x4B320B12, 0x00010000, w, 0x1000].map (beBytes 4)).flatten s t ∧ t.store = s.store) ∧
  (∀ (w c : Nat) (k : Kcw) (s : State), WindowWaits w 0x2C c k s → k.capLen = 0 →
    (∀ e slot r, tget k.map k.capKey = some e → resolve e.first.toNat (kcwOwner k s) s = some (slot, r) →
      ∃ t, exec (.kcwKeyCheck w) s = .next t ∧ WindowDone w 0 0 (padTo 4 e.kcv) s t ∧ t.store = s.store) ∧
    (tget k.map k.capKey = none → ∃ t, exec (.kcwKeyCheck w) s = .next t ∧ WindowDone w 4 0x0201 [] s t ∧ t.store = s.store)) ∧
  (∀ (w c : Nat) (k : Kcw) (e : KcwEntry) (r : KeyRec) (s : State), WindowWaits w 0x2D c k s → k.capLen = 0 → kcwFirst k s = some (e, r) →
    ∃ t, exec (.kcwUseQuery w) s = .next t ∧ t.store = s.store ∧
      WindowDone w 0 0 (beBytes 4 (if bitOf r.attr attrUseCount then min r.uses 0xFFFF else 0xFFFFFFFF)) s t) ∧
  (∀ p ∈ ([(.kcwGenerateKey, 0x20), (.kcwLoadComponents, 0x21), (.kcwImportKey, 0x22), (.kcwExportKey, 0x23), (.kcwDeleteKey, 0x24), (.kcwSetClock, 0x30)] :
      List ((Nat → Instr) × Nat)),
    ∀ (w : Nat) (s : State), w < 16 → (getKcw w s).phase = .wait → kcwFunc (getKcw w s) = p.2 → (getKcw w s).overrun = false →
      ∃ t, exec (p.1 w) s = .next t ∧ WindowDone w 2 0x0101 [] s t ∧ { t with kcw := s.kcw } = s) ∧
  (∀ (w : Nat) (v : Word) (s : State), w < 16 → kcwLive (getKcw w s) = true →
    ((getKcw w s).drq = true →
      ∃ t, exec (.kcwData w v) s = .next t ∧ (getKcw w t).words = (getKcw w s).words ++ [v] ∧
        (getKcw w t).drq = decide (4 * ((getKcw w s).words.length + 1) < (getKcw w s).capLen) ∧
        (getKcw w t).phase = (if (getKcw w s).capLen ≤ 4 * ((getKcw w s).words.length + 1) then .wait else .input) ∧
        (∀ i, i ≠ w → getKcw i t = getKcw i s) ∧ { t with kcw := s.kcw } = s) ∧
    ((getKcw w s).drq = false → (getKcw w s).phase = .idle →
      exec (.kcwData w v) s = .next (setKcw w { getKcw w s with overrun := true, errcnt := satInc 65535 (getKcw w s).errcnt } s)) ∧
    ((getKcw w s).drq = false → (getKcw w s).phase = .wait →
      ∃ t, exec (.kcwData w v) s = .next t ∧ (getKcw w t).phase = .idle ∧ (getKcw w t).kstat = 0x0A ∧ (getKcw w t).code = 0x0103 ∧ (getKcw w t).rlen = 0)) ∧
  (∀ (w : Nat) (s : State), w < 16 → kcwLive (getKcw w s) = true →
    ((getKcw w s).phase = .resetting → exec (.kcwReset w) s = .next (setKcw w { getKcw w s with swrIgn := true } s)) ∧
    ((∀ p ∈ s.kcw, p.2.phase ≠ .resetting) → (getKcw w s).ctx = none → kcwExpiring (getKcw w s) s = [] →
      ∃ t, exec (.kcwReset w) s = .next t ∧
        getKcw w t = { assign := (getKcw w s).assign, stand := (getKcw w s).stand, map := (getKcw w s).map } ∧
        (∀ i, i ≠ w → getKcw i t = getKcw i s) ∧ { t with kcw := s.kcw } = s))

/-- Window commands and the posting of completions: an assignment gives a window its holder and home stand at reset values, a release returns it, a map command stores handles with the first one's check value once a HUC has formed it, a query reads them; a drained queue context's 32-byte entry is written at its CQ's tail and the context is free, with a full CQ it waits; a window's result is written with its status, a gate call's in its buffer (R249, R253, R277, R371, R619, R621, R624, R629, R635). Completes: kcwAssign, kcwRelease, kcwMap, kcwQuery, completionPost. -/
def Obligations.WindowCommandsAndPostingComplete : Prop :=
  (∀ (mb : Mb) (q : Req) (w : Nat) (s : State), fld q.body 0 1 = w → w < 16 →
    (∀ p h, Accepted mb 0x0430 q s → kcwLive (getKcw w s) = false → fnOfCode (fld q.body 2 2) = some (.pf p) → pfPresent s p = true →
      kcwHome (fld q.body 1 1) (.pf p) s = some h → ownerActive (fld q.body 4 4) s = true →
      Ends (.kcwAssign mb) s mb { body := leBytes 1 h } (setKcw w { assign := .pf p (fld q.body 4 4), stand := h } s)) ∧
    (∀ n h o, Accepted mb 0x0430 q s → kcwLive (getKcw w s) = false → fnOfCode (fld q.body 2 2) = some (.vf n) → (getFn (.vf n) s).enabled = true →
      (∀ p ∈ s.kcw, p.2.assign ≠ .vf n) → kcwHome (fld q.body 1 1) (.vf n) s = some h → (getAlloc (.vf n) s).owner = some o → ownerActive o s = true →
      ∃ t, exec (.kcwAssign mb) s = .next t ∧ (getMb mb t).state = .done ∧ getKcw w t = { assign := .vf n, stand := h } ∧
        (∀ i, i ≠ w → getKcw i t = getKcw i s) ∧ t.store = s.store) ∧
    (∀ p o, Accepted mb 0x0431 q s → (getKcw w s).assign = .pf p o → (∀ p ∈ s.kcw, p.2.phase ≠ .resetting) → (getKcw w s).ctx = none →
      kcwExpiring (getKcw w s) s = [] →
      ∃ t, exec (.kcwRelease mb) s = .next t ∧ (getMb mb t).state = .done ∧ (getMb mb t).cur = none ∧ getKcw w t = {} ∧
        (∀ i, i ≠ w → getKcw i t = getKcw i s) ∧ t.store = s.store) ∧
    (∀ slot r, Accepted mb 0x0432 q s → readCheck kcwMapCheck mb q s = none → fld q.body 8 8 ≠ 0 → resolve (fld q.body 8 8) (kcwOwner (getKcw w s) s) s = some (slot, r) →
      KeyInUse mb slot r s → ∃ kcv : Bytes, kcv = (if r.type ≤ 2 then aes (material r) (List.replicate 16 0) else tdea (material r) (List.replicate 8 0)).take 3 ∧
        Ends (.kcwMap mb) s mb { body := kcv } (setKcw w { getKcw w s with map := tset (getKcw w s).map (fld q.body 2 2) { first := BitVec.ofNat 64 (fld q.body 8 8), second := BitVec.ofNat 64 (fld q.body 0x10 8), kcv := kcv } } s)) ∧
    (Accepted mb 0x0432 q s → readCheck kcwMapCheck mb q s = none → fld q.body 8 8 = 0 → fld q.body 0x10 8 = 0 →
      Ends (.kcwMap mb) s mb { body := leBytes 3 0 } (setKcw w { getKcw w s with map := tdel (getKcw w s).map (fld q.body 2 2) } s)) ∧
    (Accepted mb 0x0433 q s → (mbIsVf mb = false ∨ kcwNamed mb w s = true) →
      Ends (.kcwQuery mb) s mb { body := layout 16 [(0, 2, match kcwFn (getKcw w s) with | some f => fnCode f | none => 0xFFFF), (2, 1, (getKcw w s).stand), (4, 4, (kcwOwner (getKcw w s) s).getD 0), (8, 2, (getKcw w s).map.length), (0x0C, 4, kcwStatus (getKcw w s))] } s)) ∧
  (∀ (c : Nat) (x : Ctx) (o : CtxOutcome) (s : State), c < 8192 → getCtx c s = some x → x.state = .posting → x.outcome = some o →
    (∀ fn qid n q, x.src = .queue fn qid n → getQ (qKey fn qid) s = some q → inD3 fn s = false → q.cause ≠ .cqFault → q.cause ≠ .bme →
      (cqFull q = true → exec (.completionPost c) s = .next s) ∧
      (cqFull q = false → hostOk fn (q.cqAddr + 32 * q.cqTail) 32 s = true → q.fetched = [] → q.destroying = none →
        ∃ t q', exec (.completionPost c) s = .next t ∧ getCtx c t = none ∧ getQ (qKey fn qid) t = some q' ∧ q'.cqTail = (q.cqTail + 1) % cqSize q ∧
          q'.unreleased = q.unreleased + 1 ∧ q'.phase = (if (q.cqTail + 1) % cqSize q = 0 then !q.phase else q.phase) ∧ q'.held = q.held - 1 ∧
          t.host.mem = memWriteN s.host.mem (q.cqAddr + 32 * q.cqTail) (cqEntry q qid x o) ∧ (∀ i, i ≠ c → getCtx i t = getCtx i s) ∧ t.store = s.store)) ∧
    (∀ w, x.src = .kcw w → (getKcw w s).phase = .running → (getKcw w s).overrun = false →
      (o.status = 0 → ∃ t, exec (.completionPost c) s = .next t ∧ getCtx c t = none ∧ WindowDone w 0 0 x.delivered s t ∧ t.store = s.store) ∧
      (o.status = 0x0504 → ∃ t, exec (.completionPost c) s = .next t ∧ getCtx c t = none ∧ WindowDone w 8 0x0504 [] s t ∧ t.store = s.store)) ∧
    (∀ ticket g, x.src = .gate ticket → s.cores.taken.find? (fun g => g.ticket == ticket) = some g →
      ∃ t, exec (.completionPost c) s = .next t ∧ getCtx c t = none ∧
        t.units.fab = (fabWrite (g.buffer + 0x40) (gateResp o.status o.info (gateCompletion x o)) s).units.fab ∧
        (∀ i, i ≠ c → getCtx i t = getCtx i s) ∧ t.store = s.store) ∧
    (∀ mb, x.src = .mailbox mb → ∃ t, exec (.completionPost c) s = .next t ∧ getCtx c t = none ∧ (∀ i, i ≠ c → getCtx i t = getCtx i s) ∧ t.store = s.store))
end

