-- ==== Sys2Proof/Laws/Bytes.lean ====
section
/-! SUPPORT. What the operations on sparse tables, sparse memory and byte strings do: reads after writes, and the canonical forms they keep. -/

namespace Sys2Proof.Machine

/-- A table's keys rise strictly. -/
def tabWf {α : Type} : Tab α → Bool
  | [] => true
  | [_] => true
  | (k, _) :: (k', v') :: r => decide (k < k') && tabWf ((k', v') :: r)

@[simp] theorem tget_nil {α : Type} (j : Nat) : tget ([] : Tab α) j = none := rfl

/-- The value just put under a key is the one read there. -/
@[simp] theorem tget_tset_same {α : Type} (t : Tab α) (j : Nat) (x : α) : tget (tset t j x) j = some x := by
  induction t with
  | nil => simp [tset, tget]
  | cons p r ih =>
    obtain ⟨k, v⟩ := p
    by_cases h : k = j
    · simp [tset, h, tget]
    · by_cases h2 : j < k
      · simp [tset, h, h2, tget]
      · simp [tset, h, h2, tget, ih]

/-- Putting a value under a key leaves every other key alone. -/
theorem tget_tset_other {α : Type} (t : Tab α) (j i : Nat) (x : α) (h : i ≠ j) : tget (tset t j x) i = tget t i := by
  have h' : ¬ j = i := fun e => h e.symm
  induction t with
  | nil => simp [tset, tget, h']
  | cons p r ih =>
    obtain ⟨k, v⟩ := p
    by_cases hk : k = j
    · have : ¬ k = i := by rw [hk]; exact h'
      simp [tset, hk, tget, h']
    · by_cases h2 : j < k
      · simp [tset, hk, h2, tget, h']
      · simp only [tset, hk, h2, if_false, tget, ih]

/-- Reading any key after a write. -/
theorem tget_tset {α : Type} (t : Tab α) (j i : Nat) (x : α) : tget (tset t j x) i = if i = j then some x else tget t i := by
  by_cases h : i = j
  · simp [h]
  · simp [h, tget_tset_other]

@[simp] theorem tgetD_tset_same {α : Type} (t : Tab α) (j : Nat) (x d : α) : tgetD (tset t j x) j d = x := by
  simp [tgetD]

theorem tgetD_tset_other {α : Type} (t : Tab α) (j i : Nat) (x d : α) (h : i ≠ j) : tgetD (tset t j x) i d = tgetD t i d := by
  simp [tgetD, tget_tset_other, h]

/-- Removing a key makes it absent. -/
@[simp] theorem tget_tdel_same {α : Type} (t : Tab α) (j : Nat) : tget (tdel t j) j = none := by
  induction t with
  | nil => rfl
  | cons p r ih =>
    obtain ⟨k, v⟩ := p
    by_cases h : k = j
    · simpa [tdel, h] using ih
    · have e : tdel ((k, v) :: r) j = (k, v) :: tdel r j := by simp [tdel, h]
      rw [e]; simp [tget, h, ih]

/-- Removing a key leaves every other key alone. -/
theorem tget_tdel_other {α : Type} (t : Tab α) (j i : Nat) (h : i ≠ j) : tget (tdel t j) i = tget t i := by
  induction t with
  | nil => rfl
  | cons p r ih =>
    obtain ⟨k, v⟩ := p
    by_cases hk : k = j
    · have hi : ¬ k = i := by rw [hk]; exact fun e => h e.symm
      have e : tdel ((k, v) :: r) j = tdel r j := by simp [tdel, hk]
      rw [e, ih]; simp [tget, hi]
    · have e : tdel ((k, v) :: r) j = (k, v) :: tdel r j := by simp [tdel, hk]
      rw [e]; simp [tget, ih]

/-- Changing a value that is present. -/
theorem tget_tmod {α : Type} (t : Tab α) (j i : Nat) (f : α → α) :
    tget (tmod t j f) i = if i = j then (tget t j).map f else tget t i := by
  unfold tmod
  cases h : tget t j with
  | none => by_cases e : i = j <;> simp [e, h]
  | some x => simp [tget_tset]

/-- Changing every value of a table. -/
theorem tget_tmap {α β : Type} (t : Tab α) (f : Nat → α → β) (i : Nat) : tget (tmap t f) i = (tget t i).map (f i) := by
  induction t with
  | nil => rfl
  | cons p r ih =>
    obtain ⟨k, v⟩ := p
    by_cases h : k = i
    · subst h; simp [tmap, tget]
    · simp only [tmap, List.map_cons, tget, h, if_false]; exact ih

/-- A read of a byte after a write of a byte. -/
theorem memRead_memWrite (m : Mem) (a : Nat) (b : Byte) (i : Nat) (h : memWf m = true) :
    memRead (memWrite m a b) i = if i = a then b else memRead m i := by
  have lt : ∀ (m : Mem) (k : Nat) (v : Byte), memWf ((k, v) :: m) = true → ∀ j, j ≤ k → j ≠ k → memRead m j = 0 := by
    intro m
    induction m with
    | nil => intro k v _ j _ _; rfl
    | cons p r ih =>
      obtain ⟨k', v'⟩ := p
      intro k v hw j hj hn
      simp only [memWf, Bool.and_eq_true, decide_eq_true_eq] at hw
      have : ¬ k' = j := by omega
      simp only [memRead, this, if_false]
      exact ih k' v' hw.2 j (by omega) (by omega)
  have eq : ∀ (m : Mem) (k : Nat) (v : Byte), memWf ((k, v) :: m) = true → memRead m k = 0 := by
    intro m
    cases m with
    | nil => intro k v _; rfl
    | cons p r =>
      obtain ⟨k', v'⟩ := p
      intro k v hw
      simp only [memWf, Bool.and_eq_true, decide_eq_true_eq] at hw
      have : ¬ k' = k := by omega
      simp only [memRead, this, if_false]
      exact lt r k' v' hw.2 k (by omega) (by omega)
  induction m with
  | nil =>
    by_cases hb : b = 0#8
    · simp [memWrite, hb, memRead]
    · by_cases hi : i = a
      · simp [memWrite, hb, memRead, hi]
      · have : ¬ a = i := fun e => hi e.symm
        simp [memWrite, hb, memRead, hi, this]
  | cons p r ih =>
    obtain ⟨k, v⟩ := p
    have hr : memWf r = true := by
      cases r with
      | nil => rfl
      | cons q r' =>
        obtain ⟨k', v'⟩ := q
        simp only [memWf, Bool.and_eq_true] at h
        exact h.2
    by_cases hk : k = a
    · subst hk
      by_cases hb : b = 0#8
      · by_cases hi : i = k
        · subst hi; simp [memWrite, hb, eq r i v h]
        · have : ¬ k = i := fun e => hi e.symm
          simp [memWrite, hb, hi, memRead, this]
      · by_cases hi : i = k
        · subst hi; simp [memWrite, hb, memRead]
        · have : ¬ k = i := fun e => hi e.symm
          simp [memWrite, hb, hi, memRead, this]
    · by_cases hl : a < k
      · by_cases hb : b = 0#8
        · by_cases hi : i = a
          · subst hi
            have : ¬ k = i := hk
            have z : memRead r i = 0 := lt r k v h i (by omega) (by omega)
            simp [memWrite, hk, hl, hb, memRead, z]
          · simp [memWrite, hk, hl, hb, hi]
        · by_cases hi : i = a
          · subst hi; simp [memWrite, hk, hl, hb, memRead]
          · have : ¬ a = i := fun e => hi e.symm
            simp [memWrite, hk, hl, hb, hi, memRead, this]
      · simp only [memWrite, hk, hl, if_false, memRead, ih hr]
        by_cases hi : i = a
        · subst hi; simp [hk]
        · simp [hi]

/-- Storing a byte keeps the canonical form. -/
theorem memWf_memWrite (m : Mem) (a : Nat) (b : Byte) (h : memWf m = true) : memWf (memWrite m a b) = true := by
  have key : ∀ (m : Mem), memWf m = true → memWf (memWrite m a b) = true ∧
      ∀ k, k < a → (∀ q ∈ m.head?, k < q.1) → ∀ q ∈ (memWrite m a b).head?, k < q.1 := by
    intro m
    induction m with
    | nil =>
      intro _
      by_cases hb : b = 0#8
      · simp [memWrite, hb, memWf]
      · simp [memWrite, hb, memWf]
    | cons p r ih =>
      obtain ⟨k, v⟩ := p
      intro h
      have hr : memWf r = true := by
        cases r with
        | nil => rfl
        | cons q r' =>
          obtain ⟨k', v'⟩ := q
          simp only [memWf, Bool.and_eq_true] at h
          exact h.2
      have hv : (v != 0) = true := by
        cases r with
        | nil => simpa [memWf] using h
        | cons q r' => simp only [memWf, Bool.and_eq_true] at h; exact h.1.1
      have hh : ∀ q ∈ r.head?, k < q.1 := by
        cases r with
        | nil => simp
        | cons q r' =>
          obtain ⟨k', v'⟩ := q
          simp only [memWf, Bool.and_eq_true, decide_eq_true_eq] at h
          simp [h.1.2]
      have cons : ∀ (x : Nat) (y : Byte) (l : Mem), (y != 0) = true → memWf l = true → (∀ q ∈ l.head?, x < q.1) → memWf ((x, y) :: l) = true := by
        intro x y l hy hl hx
        cases l with
        | nil => simpa [memWf] using hy
        | cons q l' =>
          obtain ⟨k', v'⟩ := q
          have : x < k' := hx (k', v') (by simp)
          simp [memWf, this, hl] at *
          simp [hy]
      by_cases hk : k = a
      · subst hk
        by_cases hb : b = 0#8
        · refine ⟨by simpa [memWrite, hb] using hr, ?_⟩
          intro j hj _ q hq
          have : q ∈ r.head? := by simpa [memWrite, hb] using hq
          have := hh q this
          omega
        · have hb' : (b != 0) = true := by simpa using hb
          refine ⟨by simpa [memWrite, hb] using cons k b r hb' hr hh, ?_⟩
          intro j hj _ q hq
          have : q = (k, b) := by simpa [memWrite, hb, eq_comm] using hq
          rw [this]; exact hj
      · by_cases hl : a < k
        · by_cases hb : b = 0#8
          · refine ⟨by simpa [memWrite, hk, hl, hb] using h, ?_⟩
            intro j hj hjk q hq
            have : q = (k, v) := by simpa [memWrite, hk, hl, hb, eq_comm] using hq
            rw [this]; show j < k; omega
          · have hb' : (b != 0) = true := by simpa using hb
            have := cons a b ((k, v) :: r) hb' h (by simp [hl])
            refine ⟨by simpa [memWrite, hk, hl, hb] using this, ?_⟩
            intro j hj _ q hq
            have : q = (a, b) := by simpa [memWrite, hk, hl, hb, eq_comm] using hq
            rw [this]; exact hj
        · have ⟨w, hd⟩ := ih hr
          refine ⟨?_, ?_⟩
          · have := cons k v (memWrite r a b) hv w (hd k (by omega) hh)
            simpa [memWrite, hk, hl] using this
          · intro j hj hjk q hq
            have : q = (k, v) := by simpa [memWrite, hk, hl, eq_comm] using hq
            rw [this]; exact hjk (k, v) (by simp)
  exact (key m h).1

/-- Storing a string keeps the canonical form. -/
theorem memWf_memWriteN (d : Bytes) : ∀ (m : Mem) (a : Nat), memWf m = true → memWf (memWriteN m a d) = true := by
  induction d with
  | nil => intro m a h; exact h
  | cons b r ih => intro m a h; exact ih _ _ (memWf_memWrite m a b h)

/-- A read of a byte after a write of a string: the string's byte inside it, the old byte outside. -/
theorem memRead_memWriteN (d : Bytes) : ∀ (m : Mem) (a i : Nat), memWf m = true →
    memRead (memWriteN m a d) i = if a ≤ i ∧ i < a + d.length then d.getD (i - a) 0 else memRead m i := by
  induction d with
  | nil =>
    intro m a i _
    have : ¬ (a ≤ i ∧ i < a + ([] : Bytes).length) := by simp only [List.length_nil]; omega
    simp only [memWriteN, this, if_false]
  | cons b r ih =>
    intro m a i h
    simp only [memWriteN]
    rw [ih _ _ _ (memWf_memWrite m a b h), memRead_memWrite m a b i h]
    simp only [List.length_cons]
    by_cases hi : i = a
    · subst hi
      have h1 : ¬ (i + 1 ≤ i ∧ i < i + 1 + r.length) := by omega
      have h2 : i ≤ i ∧ i < i + (r.length + 1) := by omega
      simp [h1, h2]
    · by_cases hin : a ≤ i ∧ i < a + (r.length + 1)
      · have h1 : a + 1 ≤ i ∧ i < a + 1 + r.length := by omega
        have : i - a = (i - (a + 1)) + 1 := by omega
        simp [h1, hin, this]
      · have h1 : ¬ (a + 1 ≤ i ∧ i < a + 1 + r.length) := by omega
        rw [if_neg h1, if_neg hi, if_neg hin]

@[simp] theorem leBytes_length (n : Nat) : ∀ v, (leBytes n v).length = n := by
  induction n with
  | zero => intro v; rfl
  | succ n ih => intro v; simp [leBytes, ih]

@[simp] theorem layout_length (n : Nat) (fs : List (Nat × Nat × Nat)) : (layout n fs).length = n := by simp [layout]

/-- Bytes read from memory are as many as asked for. -/
@[simp] theorem memReadN_length (m : Mem) (n : Nat) : ∀ a, (memReadN m a n).length = n := by
  induction n with
  | zero => intro a; rfl
  | succ n ih => intro a; simp [memReadN, ih]

/-- The number a string of its own bytes spells, modulo 256^n. -/
theorem leNat_leBytes (n : Nat) : ∀ v, leNat (leBytes n v) = v % 256 ^ n := by
  induction n with
  | zero => intro v; simp [leBytes, leNat, Nat.mod_one]
  | succ n ih =>
    intro v
    have e : 256 ^ (n + 1) = 256 * 256 ^ n := by rw [Nat.pow_succ, Nat.mul_comm]
    have b : (BitVec.ofNat 8 v).toNat = v % 256 := by simp
    simp only [leBytes, leNat, ih, b]
    rw [e, Nat.mod_mul]

end Sys2Proof.Machine
end

