-- ==== Sys2Proof/Laws/State.lean ====
section
/-! SUPPORT. What the named updates of State leave alone: one lemma per field per update, each true by definition. -/

namespace Sys2Proof.Machine

@[simp] theorem setFn_pending (f : Fn) (x : FnState) (s : State) : (setFn f x s).pending = s.pending := rfl
@[simp] theorem setFn_free (f : Fn) (x : FnState) (s : State) : (setFn f x s).free = s.free := rfl
@[simp] theorem setFn_us (f : Fn) (x : FnState) (s : State) : (setFn f x s).us = s.us := rfl
@[simp] theorem setFn_mode (f : Fn) (x : FnState) (s : State) : (setFn f x s).mode = s.mode := rfl
@[simp] theorem setFn_start (f : Fn) (x : FnState) (s : State) : (setFn f x s).start = s.start := rfl
@[simp] theorem setFn_ident (f : Fn) (x : FnState) (s : State) : (setFn f x s).ident = s.ident := rfl
@[simp] theorem setFn_lc (f : Fn) (x : FnState) (s : State) : (setFn f x s).lc = s.lc := rfl
@[simp] theorem setFn_lko (f : Fn) (x : FnState) (s : State) : (setFn f x s).lko = s.lko := rfl
@[simp] theorem setFn_fbk (f : Fn) (x : FnState) (s : State) : (setFn f x s).fbk = s.fbk := rfl
@[simp] theorem setFn_commit (f : Fn) (x : FnState) (s : State) : (setFn f x s).commit = s.commit := rfl
@[simp] theorem setFn_log (f : Fn) (x : FnState) (s : State) : (setFn f x s).log = s.log := rfl
@[simp] theorem setFn_meter (f : Fn) (x : FnState) (s : State) : (setFn f x s).meter = s.meter := rfl
@[simp] theorem setFn_pwr (f : Fn) (x : FnState) (s : State) : (setFn f x s).pwr = s.pwr := rfl
@[simp] theorem setFn_vault (f : Fn) (x : FnState) (s : State) : (setFn f x s).vault = s.vault := rfl
@[simp] theorem setFn_store (f : Fn) (x : FnState) (s : State) : (setFn f x s).store = s.store := rfl
@[simp] theorem setFn_cust (f : Fn) (x : FnState) (s : State) : (setFn f x s).cust = s.cust := rfl
@[simp] theorem setFn_units (f : Fn) (x : FnState) (s : State) : (setFn f x s).units = s.units := rfl
@[simp] theorem setFn_world (f : Fn) (x : FnState) (s : State) : (setFn f x s).world = s.world := rfl
@[simp] theorem setFn_allocs (f : Fn) (x : FnState) (s : State) : (setFn f x s).allocs = s.allocs := rfl
@[simp] theorem setFn_cores (f : Fn) (x : FnState) (s : State) : (setFn f x s).cores = s.cores := rfl
@[simp] theorem setFn_eth (f : Fn) (x : FnState) (s : State) : (setFn f x s).eth = s.eth := rfl
@[simp] theorem setFn_mbox (f : Fn) (x : FnState) (s : State) : (setFn f x s).mbox = s.mbox := rfl
@[simp] theorem setFn_ctxs (f : Fn) (x : FnState) (s : State) : (setFn f x s).ctxs = s.ctxs := rfl
@[simp] theorem setFn_kcw (f : Fn) (x : FnState) (s : State) : (setFn f x s).kcw = s.kcw := rfl

@[simp] theorem setMb_pending (mb : Mb) (b : Mbox) (s : State) : (setMb mb b s).pending = s.pending := rfl
@[simp] theorem setMb_free (mb : Mb) (b : Mbox) (s : State) : (setMb mb b s).free = s.free := rfl
@[simp] theorem setMb_us (mb : Mb) (b : Mbox) (s : State) : (setMb mb b s).us = s.us := rfl
@[simp] theorem setMb_mode (mb : Mb) (b : Mbox) (s : State) : (setMb mb b s).mode = s.mode := rfl
@[simp] theorem setMb_start (mb : Mb) (b : Mbox) (s : State) : (setMb mb b s).start = s.start := rfl
@[simp] theorem setMb_ident (mb : Mb) (b : Mbox) (s : State) : (setMb mb b s).ident = s.ident := rfl
@[simp] theorem setMb_lc (mb : Mb) (b : Mbox) (s : State) : (setMb mb b s).lc = s.lc := rfl
@[simp] theorem setMb_lko (mb : Mb) (b : Mbox) (s : State) : (setMb mb b s).lko = s.lko := rfl
@[simp] theorem setMb_fbk (mb : Mb) (b : Mbox) (s : State) : (setMb mb b s).fbk = s.fbk := rfl
@[simp] theorem setMb_commit (mb : Mb) (b : Mbox) (s : State) : (setMb mb b s).commit = s.commit := rfl
@[simp] theorem setMb_log (mb : Mb) (b : Mbox) (s : State) : (setMb mb b s).log = s.log := rfl
@[simp] theorem setMb_meter (mb : Mb) (b : Mbox) (s : State) : (setMb mb b s).meter = s.meter := rfl
@[simp] theorem setMb_pwr (mb : Mb) (b : Mbox) (s : State) : (setMb mb b s).pwr = s.pwr := rfl
@[simp] theorem setMb_vault (mb : Mb) (b : Mbox) (s : State) : (setMb mb b s).vault = s.vault := rfl
@[simp] theorem setMb_store (mb : Mb) (b : Mbox) (s : State) : (setMb mb b s).store = s.store := rfl
@[simp] theorem setMb_cust (mb : Mb) (b : Mbox) (s : State) : (setMb mb b s).cust = s.cust := rfl
@[simp] theorem setMb_units (mb : Mb) (b : Mbox) (s : State) : (setMb mb b s).units = s.units := rfl
@[simp] theorem setMb_world (mb : Mb) (b : Mbox) (s : State) : (setMb mb b s).world = s.world := rfl
@[simp] theorem setMb_allocs (mb : Mb) (b : Mbox) (s : State) : (setMb mb b s).allocs = s.allocs := rfl
@[simp] theorem setMb_cores (mb : Mb) (b : Mbox) (s : State) : (setMb mb b s).cores = s.cores := rfl
@[simp] theorem setMb_eth (mb : Mb) (b : Mbox) (s : State) : (setMb mb b s).eth = s.eth := rfl
@[simp] theorem setMb_host (mb : Mb) (b : Mbox) (s : State) : (setMb mb b s).host = s.host := rfl
@[simp] theorem setMb_ctxs (mb : Mb) (b : Mbox) (s : State) : (setMb mb b s).ctxs = s.ctxs := rfl
@[simp] theorem setMb_kcw (mb : Mb) (b : Mbox) (s : State) : (setMb mb b s).kcw = s.kcw := rfl

@[simp] theorem setLane_pending (g : Nat) (x : Lane) (s : State) : (setLane g x s).pending = s.pending := rfl
@[simp] theorem setLane_free (g : Nat) (x : Lane) (s : State) : (setLane g x s).free = s.free := rfl
@[simp] theorem setLane_us (g : Nat) (x : Lane) (s : State) : (setLane g x s).us = s.us := rfl
@[simp] theorem setLane_mode (g : Nat) (x : Lane) (s : State) : (setLane g x s).mode = s.mode := rfl
@[simp] theorem setLane_start (g : Nat) (x : Lane) (s : State) : (setLane g x s).start = s.start := rfl
@[simp] theorem setLane_ident (g : Nat) (x : Lane) (s : State) : (setLane g x s).ident = s.ident := rfl
@[simp] theorem setLane_lc (g : Nat) (x : Lane) (s : State) : (setLane g x s).lc = s.lc := rfl
@[simp] theorem setLane_lko (g : Nat) (x : Lane) (s : State) : (setLane g x s).lko = s.lko := rfl
@[simp] theorem setLane_fbk (g : Nat) (x : Lane) (s : State) : (setLane g x s).fbk = s.fbk := rfl
@[simp] theorem setLane_commit (g : Nat) (x : Lane) (s : State) : (setLane g x s).commit = s.commit := rfl
@[simp] theorem setLane_log (g : Nat) (x : Lane) (s : State) : (setLane g x s).log = s.log := rfl
@[simp] theorem setLane_meter (g : Nat) (x : Lane) (s : State) : (setLane g x s).meter = s.meter := rfl
@[simp] theorem setLane_pwr (g : Nat) (x : Lane) (s : State) : (setLane g x s).pwr = s.pwr := rfl
@[simp] theorem setLane_vault (g : Nat) (x : Lane) (s : State) : (setLane g x s).vault = s.vault := rfl
@[simp] theorem setLane_store (g : Nat) (x : Lane) (s : State) : (setLane g x s).store = s.store := rfl
@[simp] theorem setLane_cust (g : Nat) (x : Lane) (s : State) : (setLane g x s).cust = s.cust := rfl
@[simp] theorem setLane_world (g : Nat) (x : Lane) (s : State) : (setLane g x s).world = s.world := rfl
@[simp] theorem setLane_allocs (g : Nat) (x : Lane) (s : State) : (setLane g x s).allocs = s.allocs := rfl
@[simp] theorem setLane_cores (g : Nat) (x : Lane) (s : State) : (setLane g x s).cores = s.cores := rfl
@[simp] theorem setLane_eth (g : Nat) (x : Lane) (s : State) : (setLane g x s).eth = s.eth := rfl
@[simp] theorem setLane_host (g : Nat) (x : Lane) (s : State) : (setLane g x s).host = s.host := rfl
@[simp] theorem setLane_mbox (g : Nat) (x : Lane) (s : State) : (setLane g x s).mbox = s.mbox := rfl
@[simp] theorem setLane_ctxs (g : Nat) (x : Lane) (s : State) : (setLane g x s).ctxs = s.ctxs := rfl
@[simp] theorem setLane_kcw (g : Nat) (x : Lane) (s : State) : (setLane g x s).kcw = s.kcw := rfl

@[simp] theorem setStand_pending (st : Nat) (x : Stand) (s : State) : (setStand st x s).pending = s.pending := rfl
@[simp] theorem setStand_free (st : Nat) (x : Stand) (s : State) : (setStand st x s).free = s.free := rfl
@[simp] theorem setStand_us (st : Nat) (x : Stand) (s : State) : (setStand st x s).us = s.us := rfl
@[simp] theorem setStand_mode (st : Nat) (x : Stand) (s : State) : (setStand st x s).mode = s.mode := rfl
@[simp] theorem setStand_start (st : Nat) (x : Stand) (s : State) : (setStand st x s).start = s.start := rfl
@[simp] theorem setStand_ident (st : Nat) (x : Stand) (s : State) : (setStand st x s).ident = s.ident := rfl
@[simp] theorem setStand_lc (st : Nat) (x : Stand) (s : State) : (setStand st x s).lc = s.lc := rfl
@[simp] theorem setStand_lko (st : Nat) (x : Stand) (s : State) : (setStand st x s).lko = s.lko := rfl
@[simp] theorem setStand_fbk (st : Nat) (x : Stand) (s : State) : (setStand st x s).fbk = s.fbk := rfl
@[simp] theorem setStand_commit (st : Nat) (x : Stand) (s : State) : (setStand st x s).commit = s.commit := rfl
@[simp] theorem setStand_log (st : Nat) (x : Stand) (s : State) : (setStand st x s).log = s.log := rfl
@[simp] theorem setStand_meter (st : Nat) (x : Stand) (s : State) : (setStand st x s).meter = s.meter := rfl
@[simp] theorem setStand_pwr (st : Nat) (x : Stand) (s : State) : (setStand st x s).pwr = s.pwr := rfl
@[simp] theorem setStand_vault (st : Nat) (x : Stand) (s : State) : (setStand st x s).vault = s.vault := rfl
@[simp] theorem setStand_store (st : Nat) (x : Stand) (s : State) : (setStand st x s).store = s.store := rfl
@[simp] theorem setStand_cust (st : Nat) (x : Stand) (s : State) : (setStand st x s).cust = s.cust := rfl
@[simp] theorem setStand_world (st : Nat) (x : Stand) (s : State) : (setStand st x s).world = s.world := rfl
@[simp] theorem setStand_allocs (st : Nat) (x : Stand) (s : State) : (setStand st x s).allocs = s.allocs := rfl
@[simp] theorem setStand_cores (st : Nat) (x : Stand) (s : State) : (setStand st x s).cores = s.cores := rfl
@[simp] theorem setStand_eth (st : Nat) (x : Stand) (s : State) : (setStand st x s).eth = s.eth := rfl
@[simp] theorem setStand_host (st : Nat) (x : Stand) (s : State) : (setStand st x s).host = s.host := rfl
@[simp] theorem setStand_mbox (st : Nat) (x : Stand) (s : State) : (setStand st x s).mbox = s.mbox := rfl
@[simp] theorem setStand_ctxs (st : Nat) (x : Stand) (s : State) : (setStand st x s).ctxs = s.ctxs := rfl
@[simp] theorem setStand_kcw (st : Nat) (x : Stand) (s : State) : (setStand st x s).kcw = s.kcw := rfl

@[simp] theorem setBank_pending (b : Nat) (x : Bank) (s : State) : (setBank b x s).pending = s.pending := rfl
@[simp] theorem setBank_free (b : Nat) (x : Bank) (s : State) : (setBank b x s).free = s.free := rfl
@[simp] theorem setBank_us (b : Nat) (x : Bank) (s : State) : (setBank b x s).us = s.us := rfl
@[simp] theorem setBank_mode (b : Nat) (x : Bank) (s : State) : (setBank b x s).mode = s.mode := rfl
@[simp] theorem setBank_start (b : Nat) (x : Bank) (s : State) : (setBank b x s).start = s.start := rfl
@[simp] theorem setBank_ident (b : Nat) (x : Bank) (s : State) : (setBank b x s).ident = s.ident := rfl
@[simp] theorem setBank_lc (b : Nat) (x : Bank) (s : State) : (setBank b x s).lc = s.lc := rfl
@[simp] theorem setBank_lko (b : Nat) (x : Bank) (s : State) : (setBank b x s).lko = s.lko := rfl
@[simp] theorem setBank_fbk (b : Nat) (x : Bank) (s : State) : (setBank b x s).fbk = s.fbk := rfl
@[simp] theorem setBank_commit (b : Nat) (x : Bank) (s : State) : (setBank b x s).commit = s.commit := rfl
@[simp] theorem setBank_log (b : Nat) (x : Bank) (s : State) : (setBank b x s).log = s.log := rfl
@[simp] theorem setBank_meter (b : Nat) (x : Bank) (s : State) : (setBank b x s).meter = s.meter := rfl
@[simp] theorem setBank_pwr (b : Nat) (x : Bank) (s : State) : (setBank b x s).pwr = s.pwr := rfl
@[simp] theorem setBank_vault (b : Nat) (x : Bank) (s : State) : (setBank b x s).vault = s.vault := rfl
@[simp] theorem setBank_store (b : Nat) (x : Bank) (s : State) : (setBank b x s).store = s.store := rfl
@[simp] theorem setBank_cust (b : Nat) (x : Bank) (s : State) : (setBank b x s).cust = s.cust := rfl
@[simp] theorem setBank_world (b : Nat) (x : Bank) (s : State) : (setBank b x s).world = s.world := rfl
@[simp] theorem setBank_allocs (b : Nat) (x : Bank) (s : State) : (setBank b x s).allocs = s.allocs := rfl
@[simp] theorem setBank_cores (b : Nat) (x : Bank) (s : State) : (setBank b x s).cores = s.cores := rfl
@[simp] theorem setBank_eth (b : Nat) (x : Bank) (s : State) : (setBank b x s).eth = s.eth := rfl
@[simp] theorem setBank_host (b : Nat) (x : Bank) (s : State) : (setBank b x s).host = s.host := rfl
@[simp] theorem setBank_mbox (b : Nat) (x : Bank) (s : State) : (setBank b x s).mbox = s.mbox := rfl
@[simp] theorem setBank_ctxs (b : Nat) (x : Bank) (s : State) : (setBank b x s).ctxs = s.ctxs := rfl
@[simp] theorem setBank_kcw (b : Nat) (x : Bank) (s : State) : (setBank b x s).kcw = s.kcw := rfl

@[simp] theorem setCore_pending (c : Nat) (x : Core) (s : State) : (setCore c x s).pending = s.pending := rfl
@[simp] theorem setCore_free (c : Nat) (x : Core) (s : State) : (setCore c x s).free = s.free := rfl
@[simp] theorem setCore_us (c : Nat) (x : Core) (s : State) : (setCore c x s).us = s.us := rfl
@[simp] theorem setCore_mode (c : Nat) (x : Core) (s : State) : (setCore c x s).mode = s.mode := rfl
@[simp] theorem setCore_start (c : Nat) (x : Core) (s : State) : (setCore c x s).start = s.start := rfl
@[simp] theorem setCore_ident (c : Nat) (x : Core) (s : State) : (setCore c x s).ident = s.ident := rfl
@[simp] theorem setCore_lc (c : Nat) (x : Core) (s : State) : (setCore c x s).lc = s.lc := rfl
@[simp] theorem setCore_lko (c : Nat) (x : Core) (s : State) : (setCore c x s).lko = s.lko := rfl
@[simp] theorem setCore_fbk (c : Nat) (x : Core) (s : State) : (setCore c x s).fbk = s.fbk := rfl
@[simp] theorem setCore_commit (c : Nat) (x : Core) (s : State) : (setCore c x s).commit = s.commit := rfl
@[simp] theorem setCore_log (c : Nat) (x : Core) (s : State) : (setCore c x s).log = s.log := rfl
@[simp] theorem setCore_meter (c : Nat) (x : Core) (s : State) : (setCore c x s).meter = s.meter := rfl
@[simp] theorem setCore_pwr (c : Nat) (x : Core) (s : State) : (setCore c x s).pwr = s.pwr := rfl
@[simp] theorem setCore_vault (c : Nat) (x : Core) (s : State) : (setCore c x s).vault = s.vault := rfl
@[simp] theorem setCore_store (c : Nat) (x : Core) (s : State) : (setCore c x s).store = s.store := rfl
@[simp] theorem setCore_cust (c : Nat) (x : Core) (s : State) : (setCore c x s).cust = s.cust := rfl
@[simp] theorem setCore_units (c : Nat) (x : Core) (s : State) : (setCore c x s).units = s.units := rfl
@[simp] theorem setCore_world (c : Nat) (x : Core) (s : State) : (setCore c x s).world = s.world := rfl
@[simp] theorem setCore_allocs (c : Nat) (x : Core) (s : State) : (setCore c x s).allocs = s.allocs := rfl
@[simp] theorem setCore_eth (c : Nat) (x : Core) (s : State) : (setCore c x s).eth = s.eth := rfl
@[simp] theorem setCore_host (c : Nat) (x : Core) (s : State) : (setCore c x s).host = s.host := rfl
@[simp] theorem setCore_mbox (c : Nat) (x : Core) (s : State) : (setCore c x s).mbox = s.mbox := rfl
@[simp] theorem setCore_ctxs (c : Nat) (x : Core) (s : State) : (setCore c x s).ctxs = s.ctxs := rfl
@[simp] theorem setCore_kcw (c : Nat) (x : Core) (s : State) : (setCore c x s).kcw = s.kcw := rfl

@[simp] theorem setAlloc_pending (f : Fn) (x : Alloc) (s : State) : (setAlloc f x s).pending = s.pending := rfl
@[simp] theorem setAlloc_free (f : Fn) (x : Alloc) (s : State) : (setAlloc f x s).free = s.free := rfl
@[simp] theorem setAlloc_us (f : Fn) (x : Alloc) (s : State) : (setAlloc f x s).us = s.us := rfl
@[simp] theorem setAlloc_mode (f : Fn) (x : Alloc) (s : State) : (setAlloc f x s).mode = s.mode := rfl
@[simp] theorem setAlloc_start (f : Fn) (x : Alloc) (s : State) : (setAlloc f x s).start = s.start := rfl
@[simp] theorem setAlloc_ident (f : Fn) (x : Alloc) (s : State) : (setAlloc f x s).ident = s.ident := rfl
@[simp] theorem setAlloc_lc (f : Fn) (x : Alloc) (s : State) : (setAlloc f x s).lc = s.lc := rfl
@[simp] theorem setAlloc_lko (f : Fn) (x : Alloc) (s : State) : (setAlloc f x s).lko = s.lko := rfl
@[simp] theorem setAlloc_fbk (f : Fn) (x : Alloc) (s : State) : (setAlloc f x s).fbk = s.fbk := rfl
@[simp] theorem setAlloc_commit (f : Fn) (x : Alloc) (s : State) : (setAlloc f x s).commit = s.commit := rfl
@[simp] theorem setAlloc_log (f : Fn) (x : Alloc) (s : State) : (setAlloc f x s).log = s.log := rfl
@[simp] theorem setAlloc_meter (f : Fn) (x : Alloc) (s : State) : (setAlloc f x s).meter = s.meter := rfl
@[simp] theorem setAlloc_pwr (f : Fn) (x : Alloc) (s : State) : (setAlloc f x s).pwr = s.pwr := rfl
@[simp] theorem setAlloc_vault (f : Fn) (x : Alloc) (s : State) : (setAlloc f x s).vault = s.vault := rfl
@[simp] theorem setAlloc_store (f : Fn) (x : Alloc) (s : State) : (setAlloc f x s).store = s.store := rfl
@[simp] theorem setAlloc_cust (f : Fn) (x : Alloc) (s : State) : (setAlloc f x s).cust = s.cust := rfl
@[simp] theorem setAlloc_units (f : Fn) (x : Alloc) (s : State) : (setAlloc f x s).units = s.units := rfl
@[simp] theorem setAlloc_world (f : Fn) (x : Alloc) (s : State) : (setAlloc f x s).world = s.world := rfl
@[simp] theorem setAlloc_cores (f : Fn) (x : Alloc) (s : State) : (setAlloc f x s).cores = s.cores := rfl
@[simp] theorem setAlloc_eth (f : Fn) (x : Alloc) (s : State) : (setAlloc f x s).eth = s.eth := rfl
@[simp] theorem setAlloc_host (f : Fn) (x : Alloc) (s : State) : (setAlloc f x s).host = s.host := rfl
@[simp] theorem setAlloc_mbox (f : Fn) (x : Alloc) (s : State) : (setAlloc f x s).mbox = s.mbox := rfl
@[simp] theorem setAlloc_ctxs (f : Fn) (x : Alloc) (s : State) : (setAlloc f x s).ctxs = s.ctxs := rfl
@[simp] theorem setAlloc_kcw (f : Fn) (x : Alloc) (s : State) : (setAlloc f x s).kcw = s.kcw := rfl

@[simp] theorem setOwner_pending (o : Nat) (x : Owner) (s : State) : (setOwner o x s).pending = s.pending := rfl
@[simp] theorem setOwner_free (o : Nat) (x : Owner) (s : State) : (setOwner o x s).free = s.free := rfl
@[simp] theorem setOwner_us (o : Nat) (x : Owner) (s : State) : (setOwner o x s).us = s.us := rfl
@[simp] theorem setOwner_mode (o : Nat) (x : Owner) (s : State) : (setOwner o x s).mode = s.mode := rfl
@[simp] theorem setOwner_start (o : Nat) (x : Owner) (s : State) : (setOwner o x s).start = s.start := rfl
@[simp] theorem setOwner_ident (o : Nat) (x : Owner) (s : State) : (setOwner o x s).ident = s.ident := rfl
@[simp] theorem setOwner_lc (o : Nat) (x : Owner) (s : State) : (setOwner o x s).lc = s.lc := rfl
@[simp] theorem setOwner_lko (o : Nat) (x : Owner) (s : State) : (setOwner o x s).lko = s.lko := rfl
@[simp] theorem setOwner_fbk (o : Nat) (x : Owner) (s : State) : (setOwner o x s).fbk = s.fbk := rfl
@[simp] theorem setOwner_commit (o : Nat) (x : Owner) (s : State) : (setOwner o x s).commit = s.commit := rfl
@[simp] theorem setOwner_log (o : Nat) (x : Owner) (s : State) : (setOwner o x s).log = s.log := rfl
@[simp] theorem setOwner_meter (o : Nat) (x : Owner) (s : State) : (setOwner o x s).meter = s.meter := rfl
@[simp] theorem setOwner_pwr (o : Nat) (x : Owner) (s : State) : (setOwner o x s).pwr = s.pwr := rfl
@[simp] theorem setOwner_vault (o : Nat) (x : Owner) (s : State) : (setOwner o x s).vault = s.vault := rfl
@[simp] theorem setOwner_cust (o : Nat) (x : Owner) (s : State) : (setOwner o x s).cust = s.cust := rfl
@[simp] theorem setOwner_units (o : Nat) (x : Owner) (s : State) : (setOwner o x s).units = s.units := rfl
@[simp] theorem setOwner_world (o : Nat) (x : Owner) (s : State) : (setOwner o x s).world = s.world := rfl
@[simp] theorem setOwner_allocs (o : Nat) (x : Owner) (s : State) : (setOwner o x s).allocs = s.allocs := rfl
@[simp] theorem setOwner_cores (o : Nat) (x : Owner) (s : State) : (setOwner o x s).cores = s.cores := rfl
@[simp] theorem setOwner_eth (o : Nat) (x : Owner) (s : State) : (setOwner o x s).eth = s.eth := rfl
@[simp] theorem setOwner_host (o : Nat) (x : Owner) (s : State) : (setOwner o x s).host = s.host := rfl
@[simp] theorem setOwner_mbox (o : Nat) (x : Owner) (s : State) : (setOwner o x s).mbox = s.mbox := rfl
@[simp] theorem setOwner_ctxs (o : Nat) (x : Owner) (s : State) : (setOwner o x s).ctxs = s.ctxs := rfl
@[simp] theorem setOwner_kcw (o : Nat) (x : Owner) (s : State) : (setOwner o x s).kcw = s.kcw := rfl

@[simp] theorem hostWrite_pending (a : Nat) (d : Bytes) (s : State) : (hostWrite a d s).pending = s.pending := rfl
@[simp] theorem hostWrite_free (a : Nat) (d : Bytes) (s : State) : (hostWrite a d s).free = s.free := rfl
@[simp] theorem hostWrite_us (a : Nat) (d : Bytes) (s : State) : (hostWrite a d s).us = s.us := rfl
@[simp] theorem hostWrite_mode (a : Nat) (d : Bytes) (s : State) : (hostWrite a d s).mode = s.mode := rfl
@[simp] theorem hostWrite_start (a : Nat) (d : Bytes) (s : State) : (hostWrite a d s).start = s.start := rfl
@[simp] theorem hostWrite_ident (a : Nat) (d : Bytes) (s : State) : (hostWrite a d s).ident = s.ident := rfl
@[simp] theorem hostWrite_lc (a : Nat) (d : Bytes) (s : State) : (hostWrite a d s).lc = s.lc := rfl
@[simp] theorem hostWrite_lko (a : Nat) (d : Bytes) (s : State) : (hostWrite a d s).lko = s.lko := rfl
@[simp] theorem hostWrite_fbk (a : Nat) (d : Bytes) (s : State) : (hostWrite a d s).fbk = s.fbk := rfl
@[simp] theorem hostWrite_commit (a : Nat) (d : Bytes) (s : State) : (hostWrite a d s).commit = s.commit := rfl
@[simp] theorem hostWrite_log (a : Nat) (d : Bytes) (s : State) : (hostWrite a d s).log = s.log := rfl
@[simp] theorem hostWrite_meter (a : Nat) (d : Bytes) (s : State) : (hostWrite a d s).meter = s.meter := rfl
@[simp] theorem hostWrite_pwr (a : Nat) (d : Bytes) (s : State) : (hostWrite a d s).pwr = s.pwr := rfl
@[simp] theorem hostWrite_vault (a : Nat) (d : Bytes) (s : State) : (hostWrite a d s).vault = s.vault := rfl
@[simp] theorem hostWrite_store (a : Nat) (d : Bytes) (s : State) : (hostWrite a d s).store = s.store := rfl
@[simp] theorem hostWrite_cust (a : Nat) (d : Bytes) (s : State) : (hostWrite a d s).cust = s.cust := rfl
@[simp] theorem hostWrite_units (a : Nat) (d : Bytes) (s : State) : (hostWrite a d s).units = s.units := rfl
@[simp] theorem hostWrite_world (a : Nat) (d : Bytes) (s : State) : (hostWrite a d s).world = s.world := rfl
@[simp] theorem hostWrite_allocs (a : Nat) (d : Bytes) (s : State) : (hostWrite a d s).allocs = s.allocs := rfl
@[simp] theorem hostWrite_cores (a : Nat) (d : Bytes) (s : State) : (hostWrite a d s).cores = s.cores := rfl
@[simp] theorem hostWrite_eth (a : Nat) (d : Bytes) (s : State) : (hostWrite a d s).eth = s.eth := rfl
@[simp] theorem hostWrite_mbox (a : Nat) (d : Bytes) (s : State) : (hostWrite a d s).mbox = s.mbox := rfl
@[simp] theorem hostWrite_ctxs (a : Nat) (d : Bytes) (s : State) : (hostWrite a d s).ctxs = s.ctxs := rfl
@[simp] theorem hostWrite_kcw (a : Nat) (d : Bytes) (s : State) : (hostWrite a d s).kcw = s.kcw := rfl

@[simp] theorem withQueue_free (q : List Instr) (s : State) : (s.withQueue q).free = s.free := rfl
@[simp] theorem withQueue_us (q : List Instr) (s : State) : (s.withQueue q).us = s.us := rfl
@[simp] theorem withQueue_mode (q : List Instr) (s : State) : (s.withQueue q).mode = s.mode := rfl
@[simp] theorem withQueue_start (q : List Instr) (s : State) : (s.withQueue q).start = s.start := rfl
@[simp] theorem withQueue_ident (q : List Instr) (s : State) : (s.withQueue q).ident = s.ident := rfl
@[simp] theorem withQueue_lc (q : List Instr) (s : State) : (s.withQueue q).lc = s.lc := rfl
@[simp] theorem withQueue_lko (q : List Instr) (s : State) : (s.withQueue q).lko = s.lko := rfl
@[simp] theorem withQueue_fbk (q : List Instr) (s : State) : (s.withQueue q).fbk = s.fbk := rfl
@[simp] theorem withQueue_commit (q : List Instr) (s : State) : (s.withQueue q).commit = s.commit := rfl
@[simp] theorem withQueue_log (q : List Instr) (s : State) : (s.withQueue q).log = s.log := rfl
@[simp] theorem withQueue_meter (q : List Instr) (s : State) : (s.withQueue q).meter = s.meter := rfl
@[simp] theorem withQueue_pwr (q : List Instr) (s : State) : (s.withQueue q).pwr = s.pwr := rfl
@[simp] theorem withQueue_vault (q : List Instr) (s : State) : (s.withQueue q).vault = s.vault := rfl
@[simp] theorem withQueue_store (q : List Instr) (s : State) : (s.withQueue q).store = s.store := rfl
@[simp] theorem withQueue_cust (q : List Instr) (s : State) : (s.withQueue q).cust = s.cust := rfl
@[simp] theorem withQueue_units (q : List Instr) (s : State) : (s.withQueue q).units = s.units := rfl
@[simp] theorem withQueue_world (q : List Instr) (s : State) : (s.withQueue q).world = s.world := rfl
@[simp] theorem withQueue_allocs (q : List Instr) (s : State) : (s.withQueue q).allocs = s.allocs := rfl
@[simp] theorem withQueue_cores (q : List Instr) (s : State) : (s.withQueue q).cores = s.cores := rfl
@[simp] theorem withQueue_eth (q : List Instr) (s : State) : (s.withQueue q).eth = s.eth := rfl
@[simp] theorem withQueue_host (q : List Instr) (s : State) : (s.withQueue q).host = s.host := rfl
@[simp] theorem withQueue_mbox (q : List Instr) (s : State) : (s.withQueue q).mbox = s.mbox := rfl
@[simp] theorem withQueue_ctxs (q : List Instr) (s : State) : (s.withQueue q).ctxs = s.ctxs := rfl
@[simp] theorem withQueue_kcw (q : List Instr) (s : State) : (s.withQueue q).kcw = s.kcw := rfl

@[simp] theorem idle_pending (s : State) : (idle s).pending = s.pending := rfl
@[simp] theorem idle_free (s : State) : (idle s).free = s.free := rfl
@[simp] theorem idle_mode (s : State) : (idle s).mode = s.mode := rfl
@[simp] theorem idle_start (s : State) : (idle s).start = s.start := rfl
@[simp] theorem idle_ident (s : State) : (idle s).ident = s.ident := rfl
@[simp] theorem idle_lc (s : State) : (idle s).lc = s.lc := rfl
@[simp] theorem idle_lko (s : State) : (idle s).lko = s.lko := rfl
@[simp] theorem idle_fbk (s : State) : (idle s).fbk = s.fbk := rfl
@[simp] theorem idle_commit (s : State) : (idle s).commit = s.commit := rfl
@[simp] theorem idle_log (s : State) : (idle s).log = s.log := rfl
@[simp] theorem idle_meter (s : State) : (idle s).meter = s.meter := rfl
@[simp] theorem idle_pwr (s : State) : (idle s).pwr = s.pwr := rfl
@[simp] theorem idle_vault (s : State) : (idle s).vault = s.vault := rfl
@[simp] theorem idle_store (s : State) : (idle s).store = s.store := rfl
@[simp] theorem idle_cust (s : State) : (idle s).cust = s.cust := rfl
@[simp] theorem idle_units (s : State) : (idle s).units = s.units := rfl
@[simp] theorem idle_world (s : State) : (idle s).world = s.world := rfl
@[simp] theorem idle_allocs (s : State) : (idle s).allocs = s.allocs := rfl
@[simp] theorem idle_cores (s : State) : (idle s).cores = s.cores := rfl
@[simp] theorem idle_eth (s : State) : (idle s).eth = s.eth := rfl
@[simp] theorem idle_host (s : State) : (idle s).host = s.host := rfl
@[simp] theorem idle_mbox (s : State) : (idle s).mbox = s.mbox := rfl
@[simp] theorem idle_ctxs (s : State) : (idle s).ctxs = s.ctxs := rfl
@[simp] theorem idle_kcw (s : State) : (idle s).kcw = s.kcw := rfl

@[simp] theorem modKey_pending (slot : Nat) (f : KeyRec → KeyRec) (s : State) : (modKey slot f s).pending = s.pending := rfl
@[simp] theorem modKey_free (slot : Nat) (f : KeyRec → KeyRec) (s : State) : (modKey slot f s).free = s.free := rfl
@[simp] theorem modKey_us (slot : Nat) (f : KeyRec → KeyRec) (s : State) : (modKey slot f s).us = s.us := rfl
@[simp] theorem modKey_mode (slot : Nat) (f : KeyRec → KeyRec) (s : State) : (modKey slot f s).mode = s.mode := rfl
@[simp] theorem modKey_start (slot : Nat) (f : KeyRec → KeyRec) (s : State) : (modKey slot f s).start = s.start := rfl
@[simp] theorem modKey_ident (slot : Nat) (f : KeyRec → KeyRec) (s : State) : (modKey slot f s).ident = s.ident := rfl
@[simp] theorem modKey_lc (slot : Nat) (f : KeyRec → KeyRec) (s : State) : (modKey slot f s).lc = s.lc := rfl
@[simp] theorem modKey_lko (slot : Nat) (f : KeyRec → KeyRec) (s : State) : (modKey slot f s).lko = s.lko := rfl
@[simp] theorem modKey_fbk (slot : Nat) (f : KeyRec → KeyRec) (s : State) : (modKey slot f s).fbk = s.fbk := rfl
@[simp] theorem modKey_commit (slot : Nat) (f : KeyRec → KeyRec) (s : State) : (modKey slot f s).commit = s.commit := rfl
@[simp] theorem modKey_log (slot : Nat) (f : KeyRec → KeyRec) (s : State) : (modKey slot f s).log = s.log := rfl
@[simp] theorem modKey_meter (slot : Nat) (f : KeyRec → KeyRec) (s : State) : (modKey slot f s).meter = s.meter := rfl
@[simp] theorem modKey_pwr (slot : Nat) (f : KeyRec → KeyRec) (s : State) : (modKey slot f s).pwr = s.pwr := rfl
@[simp] theorem modKey_vault (slot : Nat) (f : KeyRec → KeyRec) (s : State) : (modKey slot f s).vault = s.vault := rfl
@[simp] theorem modKey_cust (slot : Nat) (f : KeyRec → KeyRec) (s : State) : (modKey slot f s).cust = s.cust := rfl
@[simp] theorem modKey_units (slot : Nat) (f : KeyRec → KeyRec) (s : State) : (modKey slot f s).units = s.units := rfl
@[simp] theorem modKey_world (slot : Nat) (f : KeyRec → KeyRec) (s : State) : (modKey slot f s).world = s.world := rfl
@[simp] theorem modKey_allocs (slot : Nat) (f : KeyRec → KeyRec) (s : State) : (modKey slot f s).allocs = s.allocs := rfl
@[simp] theorem modKey_cores (slot : Nat) (f : KeyRec → KeyRec) (s : State) : (modKey slot f s).cores = s.cores := rfl
@[simp] theorem modKey_eth (slot : Nat) (f : KeyRec → KeyRec) (s : State) : (modKey slot f s).eth = s.eth := rfl
@[simp] theorem modKey_host (slot : Nat) (f : KeyRec → KeyRec) (s : State) : (modKey slot f s).host = s.host := rfl
@[simp] theorem modKey_mbox (slot : Nat) (f : KeyRec → KeyRec) (s : State) : (modKey slot f s).mbox = s.mbox := rfl
@[simp] theorem modKey_ctxs (slot : Nat) (f : KeyRec → KeyRec) (s : State) : (modKey slot f s).ctxs = s.ctxs := rfl
@[simp] theorem modKey_kcw (slot : Nat) (f : KeyRec → KeyRec) (s : State) : (modKey slot f s).kcw = s.kcw := rfl

/-- The queue a state is given. -/
@[simp] theorem withQueue_pending (q : List Instr) (s : State) : (s.withQueue q).pending = q := rfl

/-- The model's clock on an empty queue. -/
@[simp] theorem idle_us (s : State) : (idle s).us = s.us + 1 := rfl

end Sys2Proof.Machine
end

