-- ==== Sys2Proof/Laws/Mailbox.lean ====
section
/-! SUPPORT. What the frame of a command row does: how an accepted command's own part becomes an outcome, and what ending a command changes. -/

namespace Sys2Proof.Machine

open Sys2Proof.Safety

/-- An accepted command runs its own part. -/
theorem runCmd_accepted {mb : Mb} {op : Nat} {q : Req} {s : State} (h : Handler) (a : Accepted mb op q s) :
    runCmd mb op h s = .next (applyAns mb q (h mb q s)) := by
  obtain ⟨h1, h2, h3, h4, h5⟩ := a
  simp [runCmd, onUnit, h1, h2, h3, h4, h5]

/-- An accepted command whose own part replies ends with that reply. -/
theorem runCmd_reply {mb : Mb} {op : Nat} {q : Req} {s u : State} {r : Resp} (h : Handler) (a : Accepted mb op q s)
    (e : h mb q s = (.reply r, u)) : runCmd mb op h s = .next (finishMb mb r u) := by
  rw [runCmd_accepted h a, e]; rfl

/-- An accepted command whose own part waits keeps what it waits for. -/
theorem runCmd_hold {mb : Mb} {op : Nat} {q : Req} {s u : State} {w : MbWait} (h : Handler) (a : Accepted mb op q s)
    (e : h mb q s = (.hold w, u)) : runCmd mb op h s = .next (holdMb mb q.reqId w u) := by
  rw [runCmd_accepted h a, e]; rfl

/-- Checks that pass leave the command to its effect. -/
theorem direct_run {check : Mb → Req → State → Option Nat} {run : Handler} {mb : Mb} {q : Req} {s : State}
    (h : check mb q s = none) : direct check run mb q s = run mb q s := by simp [direct, h]

/-- A check that fails answers its status and changes nothing. -/
theorem direct_fail {check : Mb → Req → State → Option Nat} {run : Handler} {mb : Mb} {q : Req} {s : State} {st : Nat}
    (h : check mb q s = some st) : direct check run mb q s = (cmdFail st, s) := by simp [direct, h]

/-- The state without what an answer touches: host interface, mailboxes, log, and the stands whose request queues a command's job leaves. -/
def beyondAnswer (s : State) : State := { s with host := {}, mbox := [], log := {}, units := { s.units with stands := [] } }

/-- The state without the host interface. -/
def beyondHost (s : State) : State := { s with host := {} }

/-- The state without the log. -/
def beyondLog (s : State) : State := { s with log := {} }

theorem beyondAnswer_of_host {s t : State} (h : beyondHost s = beyondHost t) : beyondAnswer s = beyondAnswer t :=
  congrArg (fun x : State => ({ x with mbox := [], log := {}, units := { x.units with stands := [] } } : State)) h

theorem beyondAnswer_of_log {s t : State} (h : beyondLog s = beyondLog t) : beyondAnswer s = beyondAnswer t :=
  congrArg (fun x : State => ({ x with mbox := [], host := {}, units := { x.units with stands := [] } } : State)) h

/-- A message changes the host interface only. -/
theorem sendVec_only (f : Fn) (v : Nat) (s : State) : beyondHost (sendVec f v s) = beyondHost s := by
  unfold sendVec
  dsimp only
  repeat' split
  all_goals rfl

/-- An event changes the host interface only. -/
theorem raiseEvent_only (f : Fn) (b : Nat) (s : State) : beyondHost (raiseEvent f b s) = beyondHost s := by
  unfold raiseEvent
  dsimp only
  split
  · rfl
  · exact (sendVec_only f 0 _).trans rfl

/-- A record changes the log only. -/
theorem logPut_only (r : LogRec) (s : State) : beyondLog (logPut r s) = beyondLog s := by
  unfold logPut
  dsimp only
  repeat' split
  all_goals rfl

/-- A command's record changes the log only. -/
theorem commandRec_only (code : Nat) (mb : Mb) (op st ag : Nat) (s : State) : beyondLog (commandRec code mb op st ag s) = beyondLog s :=
  logPut_only _ s

@[simp] theorem beyondAnswer_setMb (mb : Mb) (b : Mbox) (s : State) : beyondAnswer (setMb mb b s) = beyondAnswer s := rfl

@[simp] theorem beyondAnswer_setFn (f : Fn) (x : FnState) (s : State) : beyondAnswer (setFn f x s) = beyondAnswer s := rfl

@[simp] theorem beyondAnswer_sendVec (f : Fn) (v : Nat) (s : State) : beyondAnswer (sendVec f v s) = beyondAnswer s :=
  beyondAnswer_of_host (sendVec_only f v s)

@[simp] theorem beyondAnswer_raiseEvent (f : Fn) (b : Nat) (s : State) : beyondAnswer (raiseEvent f b s) = beyondAnswer s :=
  beyondAnswer_of_host (raiseEvent_only f b s)

@[simp] theorem beyondAnswer_logPut (r : LogRec) (s : State) : beyondAnswer (logPut r s) = beyondAnswer s :=
  beyondAnswer_of_log (logPut_only r s)

@[simp] theorem beyondAnswer_commandRec (code : Nat) (mb : Mb) (op st ag : Nat) (s : State) :
    beyondAnswer (commandRec code mb op st ag s) = beyondAnswer s := beyondAnswer_logPut _ s

/-- A HUC request that leaves its queue changes the stands only. -/
@[simp] theorem beyondAnswer_hucDrop (r : HucSrc) (s : State) : beyondAnswer (hucDrop r s) = beyondAnswer s := rfl

/-- A command's job that ends changes its mailbox and the stands' queues only. -/
@[simp] theorem beyondAnswer_endJob (mb : Mb) (s : State) : beyondAnswer (endJob mb s) = beyondAnswer s := by
  unfold endJob; split <;> simp

/-- A response changes the mailboxes and the host interface only. -/
@[simp] theorem beyondAnswer_postResp (mb : Mb) (b : Bytes) (s : State) : beyondAnswer (postResp mb b s) = beyondAnswer s := by
  unfold postResp; simp

/-- Ending a command changes the log, the mailboxes, the host interface and the stands' queues only. -/
@[simp] theorem finishMb_only (mb : Mb) (r : Resp) (s : State) : beyondAnswer (finishMb mb r s) = beyondAnswer s := by
  unfold finishMb
  dsimp only
  split
  · simp
  · simp only [beyondAnswer_postResp, beyondAnswer_setMb]
    split <;> split <;> simp

@[simp] theorem finishMb_pending (mb : Mb) (r : Resp) (s : State) : (finishMb mb r s).pending = s.pending := by
  have h := congrArg State.pending (finishMb_only mb r s); exact h
@[simp] theorem finishMb_free (mb : Mb) (r : Resp) (s : State) : (finishMb mb r s).free = s.free := by
  have h := congrArg State.free (finishMb_only mb r s); exact h
@[simp] theorem finishMb_us (mb : Mb) (r : Resp) (s : State) : (finishMb mb r s).us = s.us := by
  have h := congrArg State.us (finishMb_only mb r s); exact h
@[simp] theorem finishMb_mode (mb : Mb) (r : Resp) (s : State) : (finishMb mb r s).mode = s.mode := by
  have h := congrArg State.mode (finishMb_only mb r s); exact h
@[simp] theorem finishMb_start (mb : Mb) (r : Resp) (s : State) : (finishMb mb r s).start = s.start := by
  have h := congrArg State.start (finishMb_only mb r s); exact h
@[simp] theorem finishMb_ident (mb : Mb) (r : Resp) (s : State) : (finishMb mb r s).ident = s.ident := by
  have h := congrArg State.ident (finishMb_only mb r s); exact h
@[simp] theorem finishMb_lc (mb : Mb) (r : Resp) (s : State) : (finishMb mb r s).lc = s.lc := by
  have h := congrArg State.lc (finishMb_only mb r s); exact h
@[simp] theorem finishMb_lko (mb : Mb) (r : Resp) (s : State) : (finishMb mb r s).lko = s.lko := by
  have h := congrArg State.lko (finishMb_only mb r s); exact h
@[simp] theorem finishMb_fbk (mb : Mb) (r : Resp) (s : State) : (finishMb mb r s).fbk = s.fbk := by
  have h := congrArg State.fbk (finishMb_only mb r s); exact h
@[simp] theorem finishMb_commit (mb : Mb) (r : Resp) (s : State) : (finishMb mb r s).commit = s.commit := by
  have h := congrArg State.commit (finishMb_only mb r s); exact h
@[simp] theorem finishMb_meter (mb : Mb) (r : Resp) (s : State) : (finishMb mb r s).meter = s.meter := by
  have h := congrArg State.meter (finishMb_only mb r s); exact h
@[simp] theorem finishMb_pwr (mb : Mb) (r : Resp) (s : State) : (finishMb mb r s).pwr = s.pwr := by
  have h := congrArg State.pwr (finishMb_only mb r s); exact h
@[simp] theorem finishMb_store (mb : Mb) (r : Resp) (s : State) : (finishMb mb r s).store = s.store := by
  have h := congrArg State.store (finishMb_only mb r s); exact h
@[simp] theorem finishMb_cust (mb : Mb) (r : Resp) (s : State) : (finishMb mb r s).cust = s.cust := by
  have h := congrArg State.cust (finishMb_only mb r s); exact h
/-- Ending a command changes the units in the stands' request queues only. -/
theorem finishMb_units (mb : Mb) (r : Resp) (s : State) :
    ({ (finishMb mb r s).units with stands := [] } : Units) = { s.units with stands := [] } := by
  have h := congrArg State.units (finishMb_only mb r s); exact h
@[simp] theorem finishMb_vault (mb : Mb) (r : Resp) (s : State) : (finishMb mb r s).vault = s.vault := by
  have h := congrArg State.vault (finishMb_only mb r s); exact h
@[simp] theorem finishMb_world (mb : Mb) (r : Resp) (s : State) : (finishMb mb r s).world = s.world := by
  have h := congrArg State.world (finishMb_only mb r s); exact h
@[simp] theorem finishMb_allocs (mb : Mb) (r : Resp) (s : State) : (finishMb mb r s).allocs = s.allocs := by
  have h := congrArg State.allocs (finishMb_only mb r s); exact h
@[simp] theorem finishMb_cores (mb : Mb) (r : Resp) (s : State) : (finishMb mb r s).cores = s.cores := by
  have h := congrArg State.cores (finishMb_only mb r s); exact h
@[simp] theorem finishMb_eth (mb : Mb) (r : Resp) (s : State) : (finishMb mb r s).eth = s.eth := by
  have h := congrArg State.eth (finishMb_only mb r s); exact h
@[simp] theorem finishMb_ctxs (mb : Mb) (r : Resp) (s : State) : (finishMb mb r s).ctxs = s.ctxs := by
  have h := congrArg State.ctxs (finishMb_only mb r s); exact h
@[simp] theorem finishMb_kcw (mb : Mb) (r : Resp) (s : State) : (finishMb mb r s).kcw = s.kcw := by
  have h := congrArg State.kcw (finishMb_only mb r s); exact h

@[simp] theorem holdMb_pending (mb : Mb) (id : Nat) (w : MbWait) (s : State) : (holdMb mb id w s).pending = s.pending := rfl
@[simp] theorem holdMb_free (mb : Mb) (id : Nat) (w : MbWait) (s : State) : (holdMb mb id w s).free = s.free := rfl
@[simp] theorem holdMb_us (mb : Mb) (id : Nat) (w : MbWait) (s : State) : (holdMb mb id w s).us = s.us := rfl
@[simp] theorem holdMb_mode (mb : Mb) (id : Nat) (w : MbWait) (s : State) : (holdMb mb id w s).mode = s.mode := rfl
@[simp] theorem holdMb_start (mb : Mb) (id : Nat) (w : MbWait) (s : State) : (holdMb mb id w s).start = s.start := rfl
@[simp] theorem holdMb_ident (mb : Mb) (id : Nat) (w : MbWait) (s : State) : (holdMb mb id w s).ident = s.ident := rfl
@[simp] theorem holdMb_lc (mb : Mb) (id : Nat) (w : MbWait) (s : State) : (holdMb mb id w s).lc = s.lc := rfl
@[simp] theorem holdMb_lko (mb : Mb) (id : Nat) (w : MbWait) (s : State) : (holdMb mb id w s).lko = s.lko := rfl
@[simp] theorem holdMb_fbk (mb : Mb) (id : Nat) (w : MbWait) (s : State) : (holdMb mb id w s).fbk = s.fbk := rfl
@[simp] theorem holdMb_commit (mb : Mb) (id : Nat) (w : MbWait) (s : State) : (holdMb mb id w s).commit = s.commit := rfl
@[simp] theorem holdMb_meter (mb : Mb) (id : Nat) (w : MbWait) (s : State) : (holdMb mb id w s).meter = s.meter := rfl
@[simp] theorem holdMb_pwr (mb : Mb) (id : Nat) (w : MbWait) (s : State) : (holdMb mb id w s).pwr = s.pwr := rfl
@[simp] theorem holdMb_store (mb : Mb) (id : Nat) (w : MbWait) (s : State) : (holdMb mb id w s).store = s.store := rfl
@[simp] theorem holdMb_cust (mb : Mb) (id : Nat) (w : MbWait) (s : State) : (holdMb mb id w s).cust = s.cust := rfl
@[simp] theorem holdMb_units (mb : Mb) (id : Nat) (w : MbWait) (s : State) : (holdMb mb id w s).units = s.units := rfl
@[simp] theorem holdMb_world (mb : Mb) (id : Nat) (w : MbWait) (s : State) : (holdMb mb id w s).world = s.world := rfl
@[simp] theorem holdMb_allocs (mb : Mb) (id : Nat) (w : MbWait) (s : State) : (holdMb mb id w s).allocs = s.allocs := rfl
@[simp] theorem holdMb_cores (mb : Mb) (id : Nat) (w : MbWait) (s : State) : (holdMb mb id w s).cores = s.cores := rfl
@[simp] theorem holdMb_eth (mb : Mb) (id : Nat) (w : MbWait) (s : State) : (holdMb mb id w s).eth = s.eth := rfl
@[simp] theorem holdMb_ctxs (mb : Mb) (id : Nat) (w : MbWait) (s : State) : (holdMb mb id w s).ctxs = s.ctxs := rfl
@[simp] theorem holdMb_vault (mb : Mb) (id : Nat) (w : MbWait) (s : State) : (holdMb mb id w s).vault = s.vault := rfl
@[simp] theorem holdMb_kcw (mb : Mb) (id : Nat) (w : MbWait) (s : State) : (holdMb mb id w s).kcw = s.kcw := rfl
@[simp] theorem holdMb_log (mb : Mb) (id : Nat) (w : MbWait) (s : State) : (holdMb mb id w s).log = s.log := rfl
@[simp] theorem holdMb_host (mb : Mb) (id : Nat) (w : MbWait) (s : State) : (holdMb mb id w s).host = s.host := rfl

/-- The mailbox just written is the one read. -/
@[simp] theorem getMb_setMb (mb : Mb) (b : Mbox) (s : State) : getMb mb (setMb mb b s) = b := by simp [getMb, setMb]

/-- A command's job that ends leaves the rest of its mailbox. -/
theorem getMb_endJob (mb : Mb) (s : State) : getMb mb (endJob mb s) = { getMb mb s with job := none } := by
  unfold endJob
  split
  · rename_i h
    cases e : getMb mb s with
    | mk => simp_all
  · exact getMb_setMb mb _ s

/-- A message leaves every mailbox alone. -/
@[simp] theorem getMb_sendVec (mb : Mb) (f : Fn) (v : Nat) (s : State) : getMb mb (sendVec f v s) = getMb mb s := by
  have h := congrArg (getMb mb) (sendVec_only f v s); exact h

/-- A record leaves every mailbox alone. -/
@[simp] theorem getMb_commandRec (mb : Mb) (c : Nat) (mb' : Mb) (op st ag : Nat) (s : State) : getMb mb (commandRec c mb' op st ag s) = getMb mb s := by
  have h := congrArg (getMb mb) (commandRec_only c mb' op st ag s); exact h

/-- A command that ends leaves its mailbox DONE with its response, and free for the next (R265, R268). -/
theorem finishMb_done (mb : Mb) (q : Req) (r : Resp) (s : State) (h : (getMb mb s).cur = some q) :
    (getMb mb (finishMb mb r s)).state = .done ∧ (getMb mb (finishMb mb r s)).cur = none ∧
    (getMb mb (finishMb mb r s)).resp = respBytes q.opcode q.reqId (getMb mb s).ctx (getMb mb s).token r.info r := by
  unfold finishMb postResp
  simp only [getMb_endJob, h]
  simp [setRec]

/-- A command that waits is kept in its mailbox. -/
theorem holdMb_wait (mb : Mb) (id : Nat) (w : MbWait) (s : State) :
    (getMb mb (holdMb mb id w s)).wait = w ∧ (getMb mb (holdMb mb id w s)).cur = (getMb mb s).cur := by
  simp [holdMb, setRec]

end Sys2Proof.Machine
end

