-- ==== Sys2Proof/Laws/Apart.lean ====
section
/-! SUPPORT. No command touches the queue or the model's clock, and only COMMIT_DONE touches the COMMIT partition: the relation, and how it goes through the shapes meanings are written in. -/

namespace Sys2Proof.Machine

/-- The queue, the model's clock and the COMMIT partition. -/
def apart (s : State) : List Instr × Nat × CommitPart := (s.pending, s.us, s.commit)

/-- They are the same in two states. -/
def Same (s t : State) : Prop := apart t = apart s

theorem Same.rfl {s : State} : Same s s := Eq.refl _

theorem Same.trans {s t u : State} (h : Same s t) (k : Same t u) : Same s u := Eq.trans k h

/-- A fold whose every step leaves them alone. -/
theorem Same.foldl {α : Type} {s x : State} {g : State → α → State} {l : List α} (h : ∀ s a, Same s (g s a)) (k : Same s x) :
    Same s (l.foldl g x) := by
  induction l generalizing x with
  | nil => exact k
  | cons a r ih => exact ih (k.trans (h x a))

/-- An outcome whose next state, if any, leaves them alone. -/
def SameO (s : State) (o : Out) : Prop := ∀ t, o = .next t → Same s t

theorem SameO.next {s x : State} (h : Same s x) : SameO s (.next x) := fun t e => by cases e; exact h

theorem SameO.onUnit {s x : State} {c : Bool} (h : Same s x) : SameO s (onUnit c x) := fun t e => by
  unfold Machine.onUnit at e; split at e
  · cases e; exact h
  · cases e

/-- A record update: the fields it gives. -/
theorem Same.mk {s : State} {a0 a1 a2 a3 a4 a5 a6 a7 a8 a9 a10 a11 a12 a13 a14 a15 a16 a17 a18 a19 a20 a21 a22 a23 a24} : Same s (State.mk a0 a1 a2 a3 a4 a5 a6 a7 a8 a9 a10 a11 a12 a13 a14 a15 a16 a17 a18 a19 a20 a21 a22 a23 a24) = ((a0, a2, a9) = apart s) := Eq.refl _

/-- The fields of one state again. -/
theorem Same.fold {s x : State} (h : Same s x) : (x.pending, x.us, x.commit) = apart s := h

theorem SameO.fault {s : State} {f : Fault} : SameO s (.fault f) := fun t e => by cases e

theorem SameO.refused {s : State} {f : Refusal} : SameO s (.refused f) := fun t e => by cases e

/-- What one meaning does inside another. -/
theorem Same.after {s x : State} {o : Out} (h : SameO x o) (k : Same s x) : Same s (after o x) := by
  unfold Machine.after
  split
  · exact k.trans (h _ (Eq.refl _))
  · exact k

/-- Either branch of a choice. -/
theorem Same.ite {s x y : State} {c : Prop} [Decidable c] (h : Same s x) (k : Same s y) : Same s (if c then x else y) := by
  split
  · exact h
  · exact k


theorem Same.direct {c : Mb → Req → State → Option Nat} {r : Handler} {mb : Mb} {q : Req} {s : State} (h : ∀ b0 b1 y, Same y (r b0 b1 y).2) :
    Same s (direct c r mb q s).2 := by
  unfold Machine.direct; split
  · exact Same.rfl
  · exact h _ _ _

theorem Same.guarded {c : Mb → Req → State → Option Nat} {d : Desig} {r : Handler} {mb : Mb} {q : Req} {s : State} (h : ∀ b0 b1 y, Same y (r b0 b1 y).2) :
    Same s (guarded c d r mb q s).2 := by
  unfold Machine.guarded; split
  · exact Same.rfl
  · split
    · exact Same.rfl
    · exact h _ _ _

theorem Same.designated {a : Auth} {c : Mb → Req → State → Option Nat} {r : Handler} {mb : Mb} {q : Req} {s : State} :
    Same s (designated a c r mb q s).2 := by
  unfold Machine.designated; split <;> exact Same.rfl

theorem Same.storeRun {r : Handler} {mb : Mb} {q : Req} {s : State} (h : ∀ b0 b1 y, Same y (r b0 b1 y).2) :
    Same s (storeRun r mb q s).2 := by
  unfold Machine.storeRun; split
  · exact h _ _ _
  · exact Same.rfl

theorem Same.storeCmd {c : Mb → Req → State → Option Nat} {r : Handler} {mb : Mb} {q : Req} {s : State} (h : ∀ b0 b1 y, Same y (r b0 b1 y).2) :
    Same s (storeCmd c r mb q s).2 := Same.direct (fun _ _ _ => Same.storeRun h)

theorem Same.storeRead {c : Mb → Req → State → Option Nat} {r : Handler} {mb : Mb} {q : Req} {s : State} (h : ∀ b0 b1 y, Same y (r b0 b1 y).2) :
    Same s (storeRead c r mb q s).2 := Same.direct h


end Sys2Proof.Machine
end

