-- ==== Sys2Proof/Laws/Apart1.lean ====
section
/-! SUPPORT. Operations and meanings that leave the queue, the clock and the COMMIT partition alone, callees first (1 of 6). -/

namespace Sys2Proof.Machine

theorem endUpdate_same {cause : Nat} {s : State} : Same s (endUpdate cause s) := by
  unfold endUpdate
  try dsimp only
  with_reducible repeat' first
    | apply Same.rfl
    | assumption
    | (simp only [Same.mk]; apply Same.fold)
    | apply Same.ite
    | split
    | intro _
    | dsimp only

theorem setFn_same {f : Fn} {x : FnState} {s : State} : Same s (setFn f x s) := by
  unfold setFn
  try dsimp only
  with_reducible repeat' first
    | apply Same.rfl
    | assumption
    | (simp only [Same.mk]; apply Same.fold)
    | intro _
    | dsimp only

theorem sendVec_same {f : Fn} {v : Nat} {s : State} : Same s (sendVec f v s) := by
  unfold sendVec
  try dsimp only
  with_reducible repeat' first
    | apply Same.rfl
    | assumption
    | apply Same.trans (k := setFn_same)
    | (simp only [Same.mk]; apply Same.fold)
    | apply Same.ite
    | split
    | intro _
    | dsimp only

theorem raiseEvent_same {f : Fn} {bit : Nat} {s : State} : Same s (raiseEvent f bit s) := by
  unfold raiseEvent
  try dsimp only
  with_reducible repeat' first
    | apply Same.rfl
    | assumption
    | apply Same.trans (k := setFn_same)
    | apply Same.trans (k := sendVec_same)
    | (simp only [Same.mk]; apply Same.fold)
    | apply Same.ite
    | split
    | intro _
    | dsimp only

theorem eventAllPfs_same {bit : Nat} {s : State} : Same s (eventAllPfs bit s) := by
  unfold eventAllPfs
  try dsimp only
  with_reducible repeat' first
    | apply Same.rfl
    | assumption
    | apply Same.trans (k := raiseEvent_same)
    | apply Same.foldl
    | intro _
    | dsimp only

theorem eventAllVfs_same {bit : Nat} {s : State} : Same s (eventAllVfs bit s) := by
  unfold eventAllVfs
  try dsimp only
  with_reducible repeat' first
    | apply Same.rfl
    | assumption
    | apply Same.trans (k := raiseEvent_same)
    | apply Same.foldl
    | intro _
    | dsimp only

theorem logPut_same {r : LogRec} {s : State} : Same s (logPut r s) := by
  unfold logPut
  try dsimp only
  with_reducible repeat' first
    | apply Same.rfl
    | assumption
    | (simp only [Same.mk]; apply Same.fold)
    | apply Same.ite
    | split
    | intro _
    | dsimp only

theorem logCode_same {code : Nat} {origin : Nat} {arg : List (Nat × Nat × Nat)} {s : State} : Same s (logCode code origin arg s) := by
  unfold logCode
  try dsimp only
  with_reducible repeat' first
    | apply Same.rfl
    | assumption
    | apply Same.trans (k := logPut_same)
    | intro _
    | dsimp only

theorem notifyApplets_same {k : NoteKind} {arg0 : Nat} {s : State} : Same s (notifyApplets k arg0 s) := by
  unfold notifyApplets
  try dsimp only
  with_reducible repeat' first
    | apply Same.rfl
    | assumption
    | (simp only [Same.mk]; apply Same.fold)
    | apply Same.ite
    | split
    | intro _
    | dsimp only

theorem changeMode_same {m : Nat} {s : State} : Same s (changeMode m s) := by
  unfold changeMode
  try dsimp only
  with_reducible repeat' first
    | apply Same.rfl
    | assumption
    | apply Same.trans (k := eventAllPfs_same)
    | apply Same.trans (k := eventAllVfs_same)
    | apply Same.trans (k := logCode_same)
    | apply Same.trans (k := notifyApplets_same)
    | (simp only [Same.mk]; apply Same.fold)
    | split
    | intro _
    | dsimp only

theorem refreshMode_same {s : State} : Same s (refreshMode s) := by
  unfold refreshMode
  try dsimp only
  with_reducible repeat' first
    | apply Same.rfl
    | assumption
    | apply Same.trans (k := changeMode_same)
    | apply Same.ite
    | split
    | intro _
    | dsimp only

theorem abandonUpdate_same {cause : Nat} {s : State} : Same s (abandonUpdate cause s) := by
  unfold abandonUpdate
  try dsimp only
  with_reducible repeat' first
    | apply Same.rfl
    | assumption
    | apply Same.trans (k := endUpdate_same)
    | apply Same.trans (k := refreshMode_same)
    | (simp only [Same.mk]; apply Same.fold)
    | apply Same.ite
    | split
    | intro _
    | dsimp only

theorem draw_same {s : State} : Same s (draw s).2 := by
  unfold draw
  try dsimp only
  with_reducible repeat' first
    | apply Same.rfl
    | assumption
    | (simp only [Same.mk]; apply Same.fold)
    | intro _
    | dsimp only

theorem draw_same_then {s : State} {s0_ : State} {r_ : _} {s_ : State} (h_ : (draw s) = (r_, s_)) (k_ : Same s0_ s) : Same s0_ s_ := by
  have j_ := k_.trans (@draw_same s); rw [h_] at j_; exact j_

theorem cutShort_same {x : Ctx} {s : State} : Same s (cutShort x s).2 := by
  unfold cutShort
  try dsimp only
  with_reducible repeat' first
    | apply Same.rfl
    | assumption
    | apply Same.trans (k := draw_same)
    | (apply draw_same_then; · assumption)
    | (simp only [Same.mk]; apply Same.fold)
    | apply Same.ite
    | split
    | intro _
    | dsimp only

theorem cutShort_same_then {x : Ctx} {s : State} {s0_ : State} {r_ : _} {s_ : State} (h_ : (cutShort x s) = (r_, s_)) (k_ : Same s0_ s) : Same s0_ s_ := by
  have j_ := k_.trans (@cutShort_same x s); rw [h_] at j_; exact j_

theorem earlyOut_same {x : Ctx} {s : State} : Same s (earlyOut x s).2 := by
  unfold earlyOut
  try dsimp only
  with_reducible repeat' first
    | apply Same.rfl
    | assumption
    | apply Same.trans (k := draw_same)
    | (apply draw_same_then; · assumption)
    | apply Same.ite
    | split
    | intro _
    | dsimp only

theorem earlyOut_same_then {x : Ctx} {s : State} {s0_ : State} {r_ : _} {s_ : State} (h_ : (earlyOut x s) = (r_, s_)) (k_ : Same s0_ s) : Same s0_ s_ := by
  have j_ := k_.trans (@earlyOut_same x s); rw [h_] at j_; exact j_

theorem setCtx_same {c : Nat} {x : Ctx} {s : State} : Same s (setCtx c x s) := by
  unfold setCtx
  try dsimp only
  with_reducible repeat' first
    | apply Same.rfl
    | assumption
    | (simp only [Same.mk]; apply Same.fold)
    | intro _
    | dsimp only

theorem setStand_same {st : Nat} {x : Stand} {s : State} : Same s (setStand st x s) := by
  unfold setStand
  try dsimp only
  with_reducible repeat' first
    | apply Same.rfl
    | assumption
    | (simp only [Same.mk]; apply Same.fold)
    | intro _
    | dsimp only

theorem countChecked_same {st : Nat} {n : Nat} {s : State} : Same s (countChecked st n s) := by
  unfold countChecked
  try dsimp only
  with_reducible repeat' first
    | apply Same.rfl
    | assumption
    | apply Same.trans (k := setStand_same)
    | (simp only [Same.mk]; apply Same.fold)
    | apply Same.ite
    | split
    | intro _
    | dsimp only

theorem setLane_same {g : Nat} {x : Lane} {s : State} : Same s (setLane g x s) := by
  unfold setLane
  try dsimp only
  with_reducible repeat' first
    | apply Same.rfl
    | assumption
    | (simp only [Same.mk]; apply Same.fold)
    | intro _
    | dsimp only

theorem countPorts_same {g : Nat} {a : Nat} {h : Nat} {s : State} : Same s (countPorts g a h s) := by
  unfold countPorts
  try dsimp only
  with_reducible repeat' first
    | apply Same.rfl
    | assumption
    | apply Same.trans (k := countChecked_same)
    | apply Same.trans (k := setLane_same)
    | (simp only [Same.mk]; apply Same.fold)
    | split
    | intro _
    | dsimp only

theorem countCut_same {x : Ctx} {s : State} : Same s (countCut x s) := by
  unfold countCut
  try dsimp only
  with_reducible repeat' first
    | apply Same.rfl
    | assumption
    | apply Same.trans (k := draw_same)
    | (apply draw_same_then; · assumption)
    | apply Same.trans (k := countPorts_same)
    | apply Same.ite
    | split
    | intro _
    | dsimp only

theorem meterAdd_same {owner : Nat} {n : Nat} {amount : Nat} {s : State} : Same s (meterAdd owner n amount s) := by
  unfold meterAdd
  try dsimp only
  with_reducible repeat' first
    | apply Same.rfl
    | assumption
    | (simp only [Same.mk]; apply Same.fold)
    | split
    | intro _
    | dsimp only

theorem meterJob_same {x : Ctx} {written : Nat} {s : State} : Same s (meterJob x written s) := by
  unfold meterJob
  try dsimp only
  with_reducible repeat' first
    | apply Same.rfl
    | assumption
    | apply Same.trans (k := meterAdd_same)
    | apply Same.ite
    | split
    | intro _
    | dsimp only

theorem settle_same {c : Nat} {o : CtxOutcome} {s : State} : Same s (settle c o s) := by
  unfold settle
  try dsimp only
  with_reducible repeat' first
    | apply Same.rfl
    | assumption
    | apply Same.trans (k := setCtx_same)
    | apply Same.trans (k := countCut_same)
    | apply Same.trans (k := meterJob_same)
    | (simp only [Same.mk]; apply Same.fold)
    | split
    | intro _
    | dsimp only

theorem abort_same {c : Nat} {status : Nat} {s : State} : Same s (abort c status s) := by
  unfold abort
  try dsimp only
  with_reducible repeat' first
    | apply Same.rfl
    | assumption
    | apply Same.trans (k := cutShort_same)
    | (apply cutShort_same_then; · assumption)
    | apply Same.trans (k := earlyOut_same)
    | (apply earlyOut_same_then; · assumption)
    | apply Same.trans (k := setCtx_same)
    | apply Same.trans (k := settle_same)
    | (simp only [Same.mk]; apply Same.fold)
    | apply Same.ite
    | split
    | intro _
    | dsimp only

theorem noteWake_same {aborted : Bool} {ap : Nat} {s : State} : Same s (noteWake aborted ap s) := by
  unfold noteWake
  try dsimp only
  with_reducible repeat' first
    | apply Same.rfl
    | assumption
    | (simp only [Same.mk]; apply Same.fold)
    | split
    | intro _
    | dsimp only

theorem commandRec_same {code : Nat} {mb : Mb} {op : Nat} {status : Nat} {agent : Nat} {s : State} : Same s (commandRec code mb op status agent s) := by
  unfold commandRec
  try dsimp only
  with_reducible repeat' first
    | apply Same.rfl
    | assumption
    | apply Same.trans (k := logCode_same)
    | split
    | intro _
    | dsimp only

theorem hucDrop_same {r : HucSrc} {s : State} : Same s (hucDrop r s) := by
  unfold hucDrop
  try dsimp only
  with_reducible repeat' first
    | apply Same.rfl
    | assumption
    | (simp only [Same.mk]; apply Same.fold)
    | intro _
    | dsimp only

theorem setMb_same {mb : Mb} {b : Mbox} {s : State} : Same s (setMb mb b s) := by
  unfold setMb
  try dsimp only
  with_reducible repeat' first
    | apply Same.rfl
    | assumption
    | (simp only [Same.mk]; apply Same.fold)
    | intro _
    | dsimp only

theorem endJob_same {mb : Mb} {s : State} : Same s (endJob mb s) := by
  unfold endJob
  try dsimp only
  with_reducible repeat' first
    | apply Same.rfl
    | assumption
    | apply Same.trans (k := hucDrop_same)
    | apply Same.trans (k := setMb_same)
    | (simp only [Same.mk]; apply Same.fold)
    | apply Same.ite
    | split
    | intro _
    | dsimp only

theorem postResp_same {mb : Mb} {bytes : Bytes} {s : State} : Same s (postResp mb bytes s) := by
  unfold postResp
  try dsimp only
  with_reducible repeat' first
    | apply Same.rfl
    | assumption
    | apply Same.trans (k := sendVec_same)
    | apply Same.trans (k := setMb_same)
    | (simp only [Same.mk]; apply Same.fold)
    | intro _
    | dsimp only

theorem finishMb_same {mb : Mb} {r : Resp} {s : State} : Same s (finishMb mb r s) := by
  unfold finishMb
  try dsimp only
  with_reducible repeat' first
    | apply Same.rfl
    | assumption
    | apply Same.trans (k := commandRec_same)
    | apply Same.trans (k := setMb_same)
    | apply Same.trans (k := endJob_same)
    | apply Same.trans (k := postResp_same)
    | (simp only [Same.mk]; apply Same.fold)
    | apply Same.ite
    | split
    | intro _
    | dsimp only

theorem deliver_same {mb : Mb} {op : Nat} {waits : MbWait → Bool} {a : Resp} {s : State} : Same s (deliver mb op waits a s) := by
  unfold deliver
  try dsimp only
  with_reducible repeat' first
    | apply Same.rfl
    | assumption
    | apply Same.trans (k := setMb_same)
    | apply Same.trans (k := finishMb_same)
    | (simp only [Same.mk]; apply Same.fold)
    | apply Same.ite
    | split
    | intro _
    | dsimp only

theorem watchAnswer_same {mb : Mb} {r : Resp} {s : State} : Same s (watchAnswer mb r s) := by
  unfold watchAnswer
  try dsimp only
  with_reducible repeat' first
    | apply Same.rfl
    | assumption
    | apply Same.trans (k := deliver_same)
    | intro _
    | dsimp only

theorem abortEntry_same {e : WatchEntry} {s : State} : Same s (abortEntry e s) := by
  unfold abortEntry
  try dsimp only
  with_reducible repeat' first
    | apply Same.rfl
    | assumption
    | apply Same.trans (k := noteWake_same)
    | apply Same.trans (k := watchAnswer_same)
    | (simp only [Same.mk]; apply Same.fold)
    | split
    | intro _
    | dsimp only

theorem abortWhere_same {p : Ctx → Bool} {status : Nat} {s : State} : Same s (abortWhere p status s) := by
  unfold abortWhere
  try dsimp only
  with_reducible repeat' first
    | apply Same.rfl
    | assumption
    | apply Same.trans (k := abort_same)
    | apply Same.foldl
    | intro _
    | dsimp only

theorem answerPlain_same {mb : Mb} {q : Req} {reqId : Nat} {ctx : Nat} {info : Nat} {r : Resp} {s : State} : Same s (answerPlain mb q reqId ctx info r s) := by
  unfold answerPlain
  try dsimp only
  with_reducible repeat' first
    | apply Same.rfl
    | assumption
    | apply Same.trans (k := postResp_same)
    | intro _
    | dsimp only

theorem replay_same {mb : Mb} {q : Req} {r : MbRec} {s : State} : Same s (replay mb q r s) := by
  unfold replay
  try dsimp only
  with_reducible repeat' first
    | apply Same.rfl
    | assumption
    | apply Same.trans (k := answerPlain_same)
    | split
    | intro _
    | dsimp only

theorem takeReq_same {mb : Mb} {q : Req} {ctx : Nat} {r : MbRec} {s : State} : Same s (takeReq mb q ctx r s) := by
  unfold takeReq
  try dsimp only
  with_reducible repeat' first
    | apply Same.rfl
    | assumption
    | apply Same.trans (k := setMb_same)
    | (simp only [Same.mk]; apply Same.fold)
    | split
    | intro _
    | dsimp only

theorem acceptReq_same {mb : Mb} {s : State} : Same s (acceptReq mb s) := by
  unfold acceptReq
  try dsimp only
  with_reducible repeat' first
    | apply Same.rfl
    | assumption
    | apply Same.trans (k := setMb_same)
    | apply Same.trans (k := finishMb_same)
    | apply Same.trans (k := answerPlain_same)
    | apply Same.trans (k := replay_same)
    | apply Same.trans (k := takeReq_same)
    | (simp only [Same.mk]; apply Same.fold)
    | apply Same.ite
    | split
    | intro _
    | dsimp only

theorem setAcu_same {a : Nat} {x : Acu} {s : State} : Same s (setAcu a x s) := by
  unfold setAcu
  try dsimp only
  with_reducible repeat' first
    | apply Same.rfl
    | assumption
    | (simp only [Same.mk]; apply Same.fold)
    | intro _
    | dsimp only

theorem acceptSeq_same {t : FabricTag} {target : Nat} {s : State} : Same s (acceptSeq t target s) := by
  unfold acceptSeq
  try dsimp only
  with_reducible repeat' first
    | apply Same.rfl
    | assumption
    | apply Same.trans (k := setAcu_same)
    | (simp only [Same.mk]; apply Same.fold)
    | split
    | intro _
    | dsimp only

theorem countFault_same {cls : Nat} {s : State} : Same s (countFault cls s) := by
  unfold countFault
  try dsimp only
  with_reducible repeat' first
    | apply Same.rfl
    | assumption
    | (simp only [Same.mk]; apply Same.fold)
    | intro _
    | dsimp only

theorem firstMode_same {s : State} : Same s (firstMode s) := by
  unfold firstMode
  try dsimp only
  with_reducible repeat' first
    | apply Same.rfl
    | assumption
    | (simp only [Same.mk]; apply Same.fold)
    | intro _
    | dsimp only

theorem enterQuarantine_same {s : State} : Same s (enterQuarantine s) := by
  unfold enterQuarantine
  try dsimp only
  with_reducible repeat' first
    | apply Same.rfl
    | assumption
    | apply Same.trans (k := refreshMode_same)
    | apply Same.trans (k := firstMode_same)
    | apply Same.ite
    | split
    | intro _
    | dsimp only

theorem lastFault_same {src : Nat} {cls : Nat} {inj : Bool} {unit : Nat} {s : State} : Same s (lastFault src cls inj unit s) := by
  unfold lastFault
  try dsimp only
  with_reducible repeat' first
    | apply Same.rfl
    | assumption
    | (simp only [Same.mk]; apply Same.fold)
    | intro _
    | dsimp only

theorem clearLinkKeys_same {s : State} : Same s (clearLinkKeys s) := by
  unfold clearLinkKeys
  try dsimp only
  with_reducible repeat' first
    | apply Same.rfl
    | assumption
    | (simp only [Same.mk]; apply Same.fold)
    | intro _
    | dsimp only

theorem mailboxesStop_same {s : State} : Same s (mailboxesStop s) := by
  unfold mailboxesStop
  try dsimp only
  with_reducible repeat' first
    | apply Same.rfl
    | assumption
    | (simp only [Same.mk]; apply Same.fold)
    | apply Same.ite
    | split
    | intro _
    | dsimp only

theorem mapBanks_same {f : Bank → Bank} {s : State} : Same s (mapBanks f s) := by
  unfold mapBanks
  try dsimp only
  with_reducible repeat' first
    | apply Same.rfl
    | assumption
    | (simp only [Same.mk]; apply Same.fold)
    | apply Same.foldl
    | intro _
    | dsimp only

theorem portsStop_same {local_ : Bool} {s : State} : Same s (portsStop local_ s) := by
  unfold portsStop
  try dsimp only
  with_reducible repeat' first
    | apply Same.rfl
    | assumption
    | (simp only [Same.mk]; apply Same.fold)
    | apply Same.foldl
    | split
    | intro _
    | dsimp only

theorem setWma_same {u : Nat} {w : Wma} {s : State} : Same s (setWma u w s) := by
  unfold setWma
  try dsimp only
  with_reducible repeat' first
    | apply Same.rfl
    | assumption
    | (simp only [Same.mk]; apply Same.fold)
    | intro _
    | dsimp only

theorem wmaEnds_same {core : Nat} {v : Nat} {s : State} : Same s (wmaEnds core v s) := by
  unfold wmaEnds
  try dsimp only
  with_reducible repeat' first
    | apply Same.rfl
    | assumption
    | (simp only [Same.mk]; apply Same.fold)
    | intro _
    | dsimp only

theorem flushWma_same {v : Nat} {u : Nat} {s : State} : Same s (flushWma v u s) := by
  unfold flushWma
  try dsimp only
  with_reducible repeat' first
    | apply Same.rfl
    | assumption
    | apply Same.trans (k := setWma_same)
    | apply Same.trans (k := wmaEnds_same)
    | (simp only [Same.mk]; apply Same.fold)
    | apply Same.foldl
    | apply Same.ite
    | split
    | intro _
    | dsimp only

theorem setDge_same {g : Nat} {d : Dge} {s : State} : Same s (setDge g d s) := by
  unfold setDge
  try dsimp only
  with_reducible repeat' first
    | apply Same.rfl
    | assumption
    | (simp only [Same.mk]; apply Same.fold)
    | intro _
    | dsimp only

theorem dropClaim_same {core : Nat} {s : State} : Same s (dropClaim core s) := by
  unfold dropClaim
  try dsimp only
  with_reducible repeat' first
    | apply Same.rfl
    | assumption
    | apply Same.trans (k := setDge_same)
    | (simp only [Same.mk]; apply Same.fold)
    | apply Same.ite
    | split
    | intro _
    | dsimp only

theorem restartIssue_same {p : Nat → Bool} {s : State} : Same s (restartIssue p s) := by
  unfold restartIssue
  try dsimp only
  with_reducible repeat' first
    | apply Same.rfl
    | assumption
    | (simp only [Same.mk]; apply Same.fold)
    | intro _
    | dsimp only

theorem setCore_same {c : Nat} {x : Core} {s : State} : Same s (setCore c x s) := by
  unfold setCore
  try dsimp only
  with_reducible repeat' first
    | apply Same.rfl
    | assumption
    | (simp only [Same.mk]; apply Same.fold)
    | intro _
    | dsimp only

theorem zeroFab_same {a : Nat} {n : Nat} {s : State} : Same s (zeroFab a n s) := by
  unfold zeroFab
  try dsimp only
  with_reducible repeat' first
    | apply Same.rfl
    | assumption
    | (simp only [Same.mk]; apply Same.fold)
    | split
    | intro _
    | dsimp only

theorem endScrub_same {core : Nat} {s : State} : Same s (endScrub core s) := by
  unfold endScrub
  try dsimp only
  with_reducible repeat' first
    | apply Same.rfl
    | assumption
    | apply Same.trans (k := dropClaim_same)
    | apply Same.trans (k := restartIssue_same)
    | apply Same.trans (k := setCore_same)
    | apply Same.trans (k := zeroFab_same)
    | (simp only [Same.mk]; apply Same.fold)
    | split
    | intro _
    | dsimp only

theorem orderedDone_same {st : Nat} {s : State} : Same s (orderedDone st s) := by
  unfold orderedDone
  try dsimp only
  with_reducible repeat' first
    | apply Same.rfl
    | assumption
    | apply Same.trans (k := endScrub_same)
    | apply Same.foldl
    | apply Same.ite
    | split
    | intro _
    | dsimp only

theorem cancelCall_same {core : Nat} {i : Nat} {s : State} : Same s (cancelCall core i s) := by
  unfold cancelCall
  try dsimp only
  with_reducible repeat' first
    | apply Same.rfl
    | assumption
    | apply Same.trans (k := setCore_same)
    | (simp only [Same.mk]; apply Same.fold)
    | apply Same.ite
    | split
    | intro _
    | dsimp only

theorem cancelCalls_same {core : Nat} {s : State} : Same s (cancelCalls core s) := by
  unfold cancelCalls
  try dsimp only
  with_reducible repeat' first
    | apply Same.rfl
    | assumption
    | apply Same.trans (k := cancelCall_same)
    | apply Same.foldl
    | intro _
    | dsimp only

theorem setBank_same {b : Nat} {x : Bank} {s : State} : Same s (setBank b x s) := by
  unfold setBank
  try dsimp only
  with_reducible repeat' first
    | apply Same.rfl
    | assumption
    | (simp only [Same.mk]; apply Same.fold)
    | intro _
    | dsimp only

theorem cancelPort_same {stand : Nat} {master : Nat} {s : State} : Same s (cancelPort stand master s) := by
  unfold cancelPort
  try dsimp only
  with_reducible repeat' first
    | apply Same.rfl
    | assumption
    | apply Same.trans (k := setBank_same)
    | (simp only [Same.mk]; apply Same.fold)
    | apply Same.ite
    | split
    | intro _
    | dsimp only

theorem beginScrub_same {core : Nat} {s : State} : Same s (beginScrub core s) := by
  unfold beginScrub
  try dsimp only
  with_reducible repeat' first
    | apply Same.rfl
    | assumption
    | apply Same.trans (k := setCore_same)
    | apply Same.trans (k := cancelCalls_same)
    | apply Same.trans (k := cancelPort_same)
    | (simp only [Same.mk]; apply Same.fold)
    | split
    | intro _
    | dsimp only

theorem endApplets_same {core : Nat} {st : AppState} {s : State} : Same s (endApplets core st s) := by
  unfold endApplets
  try dsimp only
  with_reducible repeat' first
    | apply Same.rfl
    | assumption
    | (simp only [Same.mk]; apply Same.fold)
    | apply Same.ite
    | split
    | intro _
    | dsimp only

theorem orderedScrub_same {core : Nat} {s : State} : Same s (orderedScrub core s) := by
  unfold orderedScrub
  try dsimp only
  with_reducible repeat' first
    | apply Same.rfl
    | assumption
    | apply Same.trans (k := setCore_same)
    | apply Same.trans (k := beginScrub_same)
    | apply Same.trans (k := endApplets_same)
    | (simp only [Same.mk]; apply Same.fold)
    | split
    | intro _
    | dsimp only

theorem scrubAll_same {s : State} : Same s (scrubAll s) := by
  unfold scrubAll
  try dsimp only
  with_reducible repeat' first
    | apply Same.rfl
    | assumption
    | apply Same.trans (k := flushWma_same)
    | apply Same.trans (k := orderedDone_same)
    | apply Same.trans (k := orderedScrub_same)
    | apply Same.foldl
    | split
    | intro _
    | dsimp only

theorem countStartFail_same {s : State} : Same s (countStartFail s) := by
  unfold countStartFail
  try dsimp only
  with_reducible repeat' first
    | apply Same.rfl
    | assumption
    | (simp only [Same.mk]; apply Same.fold)
    | apply Same.ite
    | split
    | intro _
    | dsimp only

theorem startLost_same {s : State} : Same s (startLost s) := by
  unfold startLost
  try dsimp only
  with_reducible repeat' first
    | apply Same.rfl
    | assumption
    | apply Same.trans (k := countStartFail_same)
    | (simp only [Same.mk]; apply Same.fold)
    | apply Same.ite
    | split
    | intro _
    | dsimp only

theorem voidCtx_same {c : Nat} {s : State} : Same s (voidCtx c s) := by
  unfold voidCtx
  try dsimp only
  with_reducible repeat' first
    | apply Same.rfl
    | assumption
    | apply Same.trans (k := cutShort_same)
    | (apply cutShort_same_then; · assumption)
    | apply Same.trans (k := earlyOut_same)
    | (apply earlyOut_same_then; · assumption)
    | apply Same.trans (k := setCtx_same)
    | apply Same.trans (k := countCut_same)
    | apply Same.trans (k := meterJob_same)
    | (simp only [Same.mk]; apply Same.fold)
    | split
    | intro _
    | dsimp only

theorem voidWhere_same {p : Ctx → Bool} {s : State} : Same s (voidWhere p s) := by
  unfold voidWhere
  try dsimp only
  with_reducible repeat' first
    | apply Same.rfl
    | assumption
    | apply Same.trans (k := voidCtx_same)
    | apply Same.foldl
    | intro _
    | dsimp only

theorem wipeDge_same {g : Nat} {s : State} : Same s (wipeDge g s) := by
  unfold wipeDge
  try dsimp only
  with_reducible repeat' first
    | apply Same.rfl
    | assumption
    | apply Same.trans (k := setDge_same)
    | (simp only [Same.mk]; apply Same.fold)
    | intro _
    | dsimp only

theorem wipeEngines_same {s : State} : Same s (wipeEngines s) := by
  unfold wipeEngines
  try dsimp only
  with_reducible repeat' first
    | apply Same.rfl
    | assumption
    | apply Same.trans (k := wipeDge_same)
    | (simp only [Same.mk]; apply Same.fold)
    | apply Same.foldl
    | split
    | intro _
    | dsimp only

theorem quarantineRun_same {src : Nat} {self : Bool} {inj : Bool} {unit : Nat} {s : State} : Same s (quarantineRun src self inj unit s) := by
  unfold quarantineRun
  try dsimp only
  with_reducible repeat' first
    | apply Same.rfl
    | assumption
    | apply Same.trans (k := endUpdate_same)
    | apply Same.trans (k := logPut_same)
    | apply Same.trans (k := clearLinkKeys_same)
    | apply Same.trans (k := mailboxesStop_same)
    | apply Same.trans (k := mapBanks_same)
    | apply Same.trans (k := portsStop_same)
    | apply Same.trans (k := scrubAll_same)
    | apply Same.trans (k := startLost_same)
    | apply Same.trans (k := voidWhere_same)
    | apply Same.trans (k := wipeEngines_same)
    | (simp only [Same.mk]; apply Same.fold)
    | apply Same.ite
    | split
    | intro _
    | dsimp only

theorem wakePend_same {code : Nat} {s : State} : Same s (wakePend code s) := by
  unfold wakePend
  try dsimp only
  with_reducible repeat' first
    | apply Same.rfl
    | assumption
    | (simp only [Same.mk]; apply Same.fold)
    | apply Same.ite
    | split
    | intro _
    | dsimp only

theorem fatalReport_same {src : Nat} {unit : Nat} {inj : Bool} {s : State} : Same s (fatalReport src unit inj s) := by
  unfold fatalReport
  try dsimp only
  with_reducible repeat' first
    | apply Same.rfl
    | assumption
    | apply Same.trans (k := countFault_same)
    | apply Same.trans (k := enterQuarantine_same)
    | apply Same.trans (k := lastFault_same)
    | apply Same.trans (k := quarantineRun_same)
    | apply Same.trans (k := wakePend_same)
    | apply Same.ite
    | split
    | intro _
    | dsimp only

theorem raiseLine_same {n : Nat} {s : State} : Same s (raiseLine n s) := by
  unfold raiseLine
  try dsimp only
  with_reducible repeat' first
    | apply Same.rfl
    | assumption
    | (simp only [Same.mk]; apply Same.fold)
    | intro _
    | dsimp only

theorem acuIntegrity_same {target : Nat} {t : FabricTag} {addr : Nat} {s : State} : Same s (acuIntegrity target t addr s) := by
  unfold acuIntegrity
  try dsimp only
  with_reducible repeat' first
    | apply Same.rfl
    | assumption
    | apply Same.trans (k := logCode_same)
    | apply Same.trans (k := setAcu_same)
    | apply Same.trans (k := fatalReport_same)
    | apply Same.trans (k := raiseLine_same)
    | (simp only [Same.mk]; apply Same.fold)
    | apply Same.ite
    | split
    | intro _
    | dsimp only

theorem acuProbe_same {target : Nat} {s : State} : Same s (acuProbe target s) := by
  unfold acuProbe
  try dsimp only
  with_reducible repeat' first
    | apply Same.rfl
    | assumption
    | apply Same.trans (k := setAcu_same)
    | (simp only [Same.mk]; apply Same.fold)
    | intro _
    | dsimp only

theorem faultRec_same {code : Nat} {src : Nat} {unit : Nat} {inj : Bool} {arg : List (Nat × Nat × Nat)} {s : State} : Same s (faultRec code src unit inj arg s) := by
  unfold faultRec
  try dsimp only
  with_reducible repeat' first
    | apply Same.rfl
    | assumption
    | apply Same.trans (k := logPut_same)
    | (simp only [Same.mk]; apply Same.fold)
    | split
    | intro _
    | dsimp only

theorem correctedReport_same {src : Nat} {unit : Nat} {inj : Bool} {s : State} : Same s (correctedReport src unit inj s) := by
  unfold correctedReport
  try dsimp only
  with_reducible repeat' first
    | apply Same.rfl
    | assumption
    | apply Same.trans (k := countFault_same)
    | apply Same.trans (k := faultRec_same)
    | intro _
    | dsimp only

theorem vecAllPfs_same {v : Nat} {s : State} : Same s (vecAllPfs v s) := by
  unfold vecAllPfs
  try dsimp only
  with_reducible repeat' first
    | apply Same.rfl
    | assumption
    | apply Same.trans (k := sendVec_same)
    | apply Same.foldl
    | intro _
    | dsimp only

theorem serviceReport_same {src : Nat} {unit : Nat} {inj : Bool} {s : State} : Same s (serviceReport src unit inj s) := by
  unfold serviceReport
  try dsimp only
  with_reducible repeat' first
    | apply Same.rfl
    | assumption
    | apply Same.trans (k := refreshMode_same)
    | apply Same.trans (k := countFault_same)
    | apply Same.trans (k := lastFault_same)
    | apply Same.trans (k := faultRec_same)
    | apply Same.trans (k := vecAllPfs_same)
    | (simp only [Same.mk]; apply Same.fold)
    | split
    | intro _
    | dsimp only

theorem acuRefuse_same {target : Nat} {t : FabricTag} {w : Bool} {e : Bool} {part : Nat} {parts : Nat} {addr : Nat} {s : State} : Same s (acuRefuse target t w e part parts addr s) := by
  unfold acuRefuse
  try dsimp only
  with_reducible repeat' first
    | apply Same.rfl
    | assumption
    | apply Same.trans (k := logCode_same)
    | apply Same.trans (k := setAcu_same)
    | apply Same.trans (k := raiseLine_same)
    | apply Same.trans (k := correctedReport_same)
    | apply Same.trans (k := serviceReport_same)
    | (simp only [Same.mk]; apply Same.fold)
    | apply Same.ite
    | split
    | intro _
    | dsimp only

theorem execAcuCommit_same {acu : Nat} {s : State} : SameO s (execAcuCommit acu s) := by
  unfold execAcuCommit
  try dsimp only
  with_reducible repeat' first
    | apply Same.rfl
    | assumption
    | apply Same.trans (k := setAcu_same)
    | (simp only [Same.mk]; apply Same.fold)
    | apply SameO.onUnit
    | apply SameO.next
    | split
    | intro _
    | dsimp only

theorem lowerLine_same {n : Nat} {s : State} : Same s (lowerLine n s) := by
  unfold lowerLine
  try dsimp only
  with_reducible repeat' first
    | apply Same.rfl
    | assumption
    | (simp only [Same.mk]; apply Same.fold)
    | intro _
    | dsimp only

theorem acuRegWrite_same {a : Nat} {o : Nat} {n : Nat} {v : Nat} {s : State} : Same s (acuRegWrite a o n v s) := by
  unfold acuRegWrite
  try dsimp only
  with_reducible repeat' first
    | apply Same.rfl
    | assumption
    | apply Same.trans (k := setAcu_same)
    | apply execAcuCommit_same
    | apply Same.trans (k := lowerLine_same)
    | (simp only [Same.mk]; apply Same.fold)
    | apply Same.after
    | apply Same.ite
    | split
    | intro _
    | dsimp only

theorem addDge_same {g : Nat} {msgs : Nat} {blocks : Nat} {s : State} : Same s (addDge g msgs blocks s) := by
  unfold addDge
  try dsimp only
  with_reducible repeat' first
    | apply Same.rfl
    | assumption
    | apply Same.trans (k := setDge_same)
    | (simp only [Same.mk]; apply Same.fold)
    | split
    | intro _
    | dsimp only

theorem setAlloc_same {f : Fn} {x : Alloc} {s : State} : Same s (setAlloc f x s) := by
  unfold setAlloc
  try dsimp only
  with_reducible repeat' first
    | apply Same.rfl
    | assumption
    | (simp only [Same.mk]; apply Same.fold)
    | intro _
    | dsimp only

theorem addGrant_same {fn : Fn} {n : NodeId} {excl : Bool} {amount : Nat} {s : State} : Same s (addGrant fn n excl amount s) := by
  unfold addGrant
  try dsimp only
  with_reducible repeat' first
    | apply Same.rfl
    | assumption
    | apply Same.trans (k := setAlloc_same)
    | (simp only [Same.mk]; apply Same.fold)
    | split
    | intro _
    | dsimp only

theorem addServiceDge_same {st : Nat} {msgs : Nat} {blocks : Nat} {s : State} : Same s (addServiceDge st msgs blocks s) := by
  unfold addServiceDge
  try dsimp only
  with_reducible repeat' first
    | apply Same.rfl
    | assumption
    | apply Same.trans (k := addDge_same)
    | split
    | intro _
    | dsimp only

theorem addWma_same {st : Nat} {n : Nat} {cycles : Nat} {s : State} : Same s (addWma st n cycles s) := by
  unfold addWma
  try dsimp only
  with_reducible repeat' first
    | apply Same.rfl
    | assumption
    | apply Same.trans (k := setWma_same)
    | (simp only [Same.mk]; apply Same.fold)
    | split
    | intro _
    | dsimp only

theorem setQ_same {k : Nat} {q : Queue} {s : State} : Same s (setQ k q s) := by
  unfold setQ
  try dsimp only
  with_reducible repeat' first
    | apply Same.rfl
    | assumption
    | (simp only [Same.mk]; apply Same.fold)
    | intro _
    | dsimp only

theorem settleFail_same {c : Nat} {status : Nat} {s : State} : Same s (settleFail c status s) := by
  unfold settleFail
  try dsimp only
  with_reducible repeat' first
    | apply Same.rfl
    | assumption
    | apply Same.trans (k := settle_same)
    | (simp only [Same.mk]; apply Same.fold)
    | intro _
    | dsimp only

theorem admitEntry_same {k : Nat} {no : Nat} {remaining : Nat} {e : Bytes} {s : State} : Same s (admitEntry k no remaining e s) := by
  unfold admitEntry
  try dsimp only
  with_reducible repeat' first
    | apply Same.rfl
    | assumption
    | apply Same.trans (k := setCtx_same)
    | apply Same.trans (k := setAlloc_same)
    | apply Same.trans (k := setQ_same)
    | apply Same.trans (k := settleFail_same)
    | (simp only [Same.mk]; apply Same.fold)
    | apply Same.ite
    | split
    | intro _
    | dsimp only

theorem admitAll_same {k : Nat} {a1 : Nat} {a2 : State} : Same a2 (admitAll k a1 a2) := by
  induction a1 generalizing a2 with
  | zero => exact Same.rfl
  | succ n ih =>
    unfold admitAll
    repeat' first
      | with_reducible apply Same.rfl
      | with_reducible apply Same.trans (k := ih)
      | with_reducible apply Same.trans (k := admitEntry_same)
      | with_reducible apply Same.trans (k := setQ_same)
      | split
      | dsimp only

theorem ctxRefused_same {x : Ctx} {w : Bool} {a : Nat} {s : State} : Same s (ctxRefused x w a s) := by
  unfold ctxRefused
  try dsimp only
  with_reducible repeat' first
    | apply Same.rfl
    | assumption
    | apply Same.trans (k := acuRefuse_same)
    | split
    | intro _
    | dsimp only

theorem admitChecks_same {x : Ctx} {s : State} {o : CtxOutcome} {s_ : State} (h : admitChecks x s = .error (o, s_)) {s0 : State} (k : Same s0 s) : Same s0 s_ := by
  unfold admitChecks at h
  dsimp only at h
  repeat' split at h
  all_goals first
    | (cases h; exact k)
    | (cases h; exact k.trans ctxRefused_same)
    | cases h

theorem admitQ_same {k : Nat} {s : State} : Same s (admitQ k s) := by
  unfold admitQ
  try dsimp only
  with_reducible repeat' first
    | apply Same.rfl
    | assumption
    | apply Same.trans (k := admitAll_same)
    | split
    | intro _
    | dsimp only

theorem holdMb_same {mb : Mb} {reqId : Nat} {w : MbWait} {s : State} : Same s (holdMb mb reqId w s) := by
  unfold holdMb
  try dsimp only
  with_reducible repeat' first
    | apply Same.rfl
    | assumption
    | apply Same.trans (k := setMb_same)
    | (simp only [Same.mk]; apply Same.fold)
    | split
    | intro _
    | dsimp only

theorem advance_same {mb : Mb} {op : Nat} {waits : MbWait → Bool} {w : MbWait} {s : State} : Same s (advance mb op waits w s) := by
  unfold advance
  try dsimp only
  with_reducible repeat' first
    | apply Same.rfl
    | assumption
    | apply Same.trans (k := setMb_same)
    | apply Same.trans (k := holdMb_same)
    | (simp only [Same.mk]; apply Same.fold)
    | apply Same.ite
    | split
    | intro _
    | dsimp only

theorem writeAnchor_same {s : State} : Same s (writeAnchor s) := by
  unfold writeAnchor
  try dsimp only
  with_reducible repeat' first
    | apply Same.rfl
    | assumption
    | (simp only [Same.mk]; apply Same.fold)
    | split
    | intro _
    | dsimp only

theorem anchorRefreshRun_same {a0 : Mb} {a1 : Req} {s : State} : Same s (anchorRefreshRun a0 a1 s).2 := by
  unfold anchorRefreshRun
  try dsimp only
  with_reducible repeat' first
    | apply Same.rfl
    | assumption
    | apply Same.trans (k := writeAnchor_same)
    | (simp only [Same.mk]; apply Same.fold)
    | split
    | intro _
    | dsimp only

theorem anchorRefreshRun_same_then {a0 : Mb} {a1 : Req} {s : State} {s0_ : State} {r_ : _} {s_ : State} (h_ : (anchorRefreshRun a0 a1 s) = (r_, s_)) (k_ : Same s0_ s) : Same s0_ s_ := by
  have j_ := k_.trans (@anchorRefreshRun_same a0 a1 s); rw [h_] at j_; exact j_

theorem answerStop_same {inst : Nat} {how : Nat} {s : State} : Same s (answerStop inst how s) := by
  unfold answerStop
  try dsimp only
  with_reducible repeat' first
    | apply Same.rfl
    | assumption
    | apply Same.trans (k := deliver_same)
    | (simp only [Same.mk]; apply Same.fold)
    | apply Same.foldl
    | split
    | intro _
    | dsimp only

theorem fabStore_same {a : Nat} {d : Bytes} {s : State} : Same s (fabStore a d s) := by
  unfold fabStore
  try dsimp only
  with_reducible repeat' first
    | apply Same.rfl
    | assumption
    | (simp only [Same.mk]; apply Same.fold)
    | intro _
    | dsimp only

theorem drawBytes_same {n : Nat} {s : State} : Same s (drawBytes n s).2 := by
  unfold drawBytes
  try dsimp only
  with_reducible repeat' first
    | apply Same.rfl
    | assumption
    | apply Same.trans (k := draw_same)
    | (apply draw_same_then; · assumption)
    | split
    | intro _
    | dsimp only

theorem drawBytes_same_then {n : Nat} {s : State} {s0_ : State} {r_ : _} {s_ : State} (h_ : (drawBytes n s) = (r_, s_)) (k_ : Same s0_ s) : Same s0_ s_ := by
  have j_ := k_.trans (@drawBytes_same n s); rw [h_] at j_; exact j_

theorem wmaUndefined_same {c : WmaCmd} {s : State} : Same s (wmaUndefined c s) := by
  unfold wmaUndefined
  try dsimp only
  with_reducible repeat' first
    | apply Same.rfl
    | assumption
    | apply Same.trans (k := fabStore_same)
    | apply Same.trans (k := drawBytes_same)
    | (apply drawBytes_same_then; · assumption)
    | split
    | intro _
    | dsimp only

theorem fabWrite_same {a : Nat} {d : Bytes} {s : State} : Same s (fabWrite a d s) := by
  unfold fabWrite
  try dsimp only
  with_reducible repeat' first
    | apply Same.rfl
    | assumption
    | apply Same.trans (k := fabStore_same)
    | apply Same.trans (k := wmaUndefined_same)
    | (simp only [Same.mk]; apply Same.fold)
    | apply Same.foldl
    | split
    | intro _
    | dsimp only

theorem setGranules_same {base : Nat} {n : Nat} {codeLen : Nat} {owner : Nat} {s : State} : Same s (setGranules base n codeLen owner s) := by
  unfold setGranules
  try dsimp only
  with_reducible repeat' first
    | apply Same.rfl
    | assumption
    | (simp only [Same.mk]; apply Same.fold)
    | apply Same.foldl
    | intro _
    | dsimp only

theorem loadApplet_same {b : Bytes} {owner : Nat} {base : Nat} {s : State} : Same s (loadApplet b owner base s).2 := by
  unfold loadApplet
  try dsimp only
  with_reducible repeat' first
    | apply Same.rfl
    | assumption
    | apply Same.trans (k := zeroFab_same)
    | apply Same.trans (k := fabWrite_same)
    | apply Same.trans (k := setGranules_same)
    | (simp only [Same.mk]; apply Same.fold)
    | split
    | intro _
    | dsimp only

theorem loadApplet_same_then {b : Bytes} {owner : Nat} {base : Nat} {s : State} {s0_ : State} {r_ : _} {s_ : State} (h_ : (loadApplet b owner base s) = (r_, s_)) (k_ : Same s0_ s) : Same s0_ s_ := by
  have j_ := k_.trans (@loadApplet_same b owner base s); rw [h_] at j_; exact j_

theorem appletLoadRun_same {mb : Mb} {q : Req} {s : State} : Same s (appletLoadRun mb q s).2 := by
  unfold appletLoadRun
  try dsimp only
  with_reducible repeat' first
    | apply Same.rfl
    | assumption
    | apply Same.trans (k := loadApplet_same)
    | (apply loadApplet_same_then; · assumption)
    | (simp only [Same.mk]; apply Same.fold)
    | apply Same.ite
    | split
    | intro _
    | dsimp only

theorem appletLoadRun_same_then {mb : Mb} {q : Req} {s : State} {s0_ : State} {r_ : _} {s_ : State} (h_ : (appletLoadRun mb q s) = (r_, s_)) (k_ : Same s0_ s) : Same s0_ s_ := by
  have j_ := k_.trans (@appletLoadRun_same mb q s); rw [h_] at j_; exact j_

theorem modApplet_same {inst : Nat} {f : Applet → Applet} {s : State} : Same s (modApplet inst f s) := by
  unfold modApplet
  try dsimp only
  with_reducible repeat' first
    | apply Same.rfl
    | assumption
    | (simp only [Same.mk]; apply Same.fold)
    | intro _
    | dsimp only

theorem setCsr_same {core : Nat} {a : Nat} {v : DWord} {s : State} : Same s (setCsr core a v s) := by
  unfold setCsr
  try dsimp only
  with_reducible repeat' first
    | apply Same.rfl
    | assumption
    | apply Same.trans (k := setCore_same)
    | (simp only [Same.mk]; apply Same.fold)
    | split
    | intro _
    | dsimp only

theorem putLoopCsrs_same {core : Nat} {t : Tab DWord} {s : State} : Same s (putLoopCsrs core t s) := by
  unfold putLoopCsrs
  try dsimp only
  with_reducible repeat' first
    | apply Same.rfl
    | assumption
    | apply Same.trans (k := setCsr_same)
    | (simp only [Same.mk]; apply Same.fold)
    | apply Same.foldl
    | apply Same.ite
    | split
    | intro _
    | dsimp only

theorem setPmp_same {core : Nat} {a : Applet} {s : State} : Same s (setPmp core a s) := by
  unfold setPmp
  try dsimp only
  with_reducible repeat' first
    | apply Same.rfl
    | assumption
    | apply Same.trans (k := setCsr_same)
    | apply Same.foldl
    | apply Same.ite
    | split
    | intro _
    | dsimp only

theorem setWindow_same {core : Nat} {a : Applet} {s : State} : Same s (setWindow core a s) := by
  unfold setWindow
  try dsimp only
  with_reducible repeat' first
    | apply Same.rfl
    | assumption
    | (simp only [Same.mk]; apply Same.fold)
    | split
    | intro _
    | dsimp only

theorem stampSlot_same {core : Nat} {slot : Nat} {s : State} : Same s (stampSlot core slot s) := by
  unfold stampSlot
  try dsimp only
  with_reducible repeat' first
    | apply Same.rfl
    | assumption
    | apply Same.trans (k := setCsr_same)
    | split
    | intro _
    | dsimp only

theorem setX_same {core : Nat} {r : Nat} {v : DWord} {s : State} : Same s (setX core r v s) := by
  unfold setX
  try dsimp only
  with_reducible repeat' first
    | apply Same.rfl
    | assumption
    | apply Same.trans (k := setCore_same)
    | (simp only [Same.mk]; apply Same.fold)
    | apply Same.ite
    | split
    | intro _
    | dsimp only

theorem tryUpcall_same {core : Nat} {s : State} : Same s (tryUpcall core s) := by
  unfold tryUpcall
  try dsimp only
  with_reducible repeat' first
    | apply Same.rfl
    | assumption
    | apply Same.trans (k := setCore_same)
    | apply Same.trans (k := fabWrite_same)
    | apply Same.trans (k := modApplet_same)
    | apply Same.trans (k := setX_same)
    | (simp only [Same.mk]; apply Same.fold)
    | split
    | intro _
    | dsimp only

theorem enterApplet_same {core : Nat} {slot : Nat} {s : State} : Same s (enterApplet core slot s) := by
  unfold enterApplet
  try dsimp only
  with_reducible repeat' first
    | apply Same.rfl
    | assumption
    | apply Same.trans (k := setCore_same)
    | apply Same.trans (k := setCsr_same)
    | apply Same.trans (k := putLoopCsrs_same)
    | apply Same.trans (k := setPmp_same)
    | apply Same.trans (k := setWindow_same)
    | apply Same.trans (k := stampSlot_same)
    | apply Same.trans (k := tryUpcall_same)
    | (simp only [Same.mk]; apply Same.fold)
    | split
    | intro _
    | dsimp only

theorem schedule_same {core : Nat} {last : Nat} {s : State} : Same s (schedule core last s) := by
  unfold schedule
  try dsimp only
  with_reducible repeat' first
    | apply Same.rfl
    | assumption
    | apply Same.trans (k := setCore_same)
    | apply Same.trans (k := enterApplet_same)
    | (simp only [Same.mk]; apply Same.fold)
    | split
    | intro _
    | dsimp only

theorem startApplet_same {inst : Nat} {core : Nat} {arg : Bytes} {via : Option Fn} {s : State} : Same s (startApplet inst core arg via s).2 := by
  unfold startApplet
  try dsimp only
  with_reducible repeat' first
    | apply Same.rfl
    | assumption
    | apply Same.trans (k := setCore_same)
    | apply Same.trans (k := zeroFab_same)
    | apply Same.trans (k := fabWrite_same)
    | apply Same.trans (k := modApplet_same)
    | apply Same.trans (k := schedule_same)
    | (simp only [Same.mk]; apply Same.fold)
    | apply Same.ite
    | split
    | intro _
    | dsimp only

theorem startApplet_same_then {inst : Nat} {core : Nat} {arg : Bytes} {via : Option Fn} {s : State} {s0_ : State} {r_ : _} {s_ : State} (h_ : (startApplet inst core arg via s) = (r_, s_)) (k_ : Same s0_ s) : Same s0_ s_ := by
  have j_ := k_.trans (@startApplet_same inst core arg via s); rw [h_] at j_; exact j_

theorem appletStartRun_same {mb : Mb} {q : Req} {s : State} : Same s (appletStartRun mb q s).2 := by
  unfold appletStartRun
  try dsimp only
  with_reducible repeat' first
    | apply Same.rfl
    | assumption
    | apply Same.trans (k := setCore_same)
    | apply Same.trans (k := endScrub_same)
    | apply Same.trans (k := beginScrub_same)
    | apply Same.trans (k := modApplet_same)
    | apply Same.trans (k := startApplet_same)
    | (apply startApplet_same_then; · assumption)
    | (simp only [Same.mk]; apply Same.fold)
    | apply Same.ite
    | split
    | intro _
    | dsimp only

theorem appletStartRun_same_then {mb : Mb} {q : Req} {s : State} {s0_ : State} {r_ : _} {s_ : State} (h_ : (appletStartRun mb q s) = (r_, s_)) (k_ : Same s0_ s) : Same s0_ s_ := by
  have j_ := k_.trans (@appletStartRun_same mb q s); rw [h_] at j_; exact j_

theorem putDge_same {g : Nat} {d : Dge} {s : State} : Same s (putDge g d s) := by
  unfold putDge
  try dsimp only
  with_reducible repeat' first
    | apply Same.rfl
    | assumption
    | apply Same.trans (k := setDge_same)
    | apply Same.trans (k := lowerLine_same)
    | apply Same.ite
    | split
    | intro _
    | dsimp only

theorem grantDge_same {core : Nat} {slot : Nat} {s : State} : Same s (grantDge core slot s) := by
  unfold grantDge
  try dsimp only
  with_reducible repeat' first
    | apply Same.rfl
    | assumption
    | apply Same.trans (k := setCore_same)
    | apply Same.trans (k := putDge_same)
    | (simp only [Same.mk]; apply Same.fold)
    | split
    | intro _
    | dsimp only

theorem passDge_same {core : Nat} {s : State} : Same s (passDge core s) := by
  unfold passDge
  try dsimp only
  with_reducible repeat' first
    | apply Same.rfl
    | assumption
    | apply Same.trans (k := modApplet_same)
    | apply Same.trans (k := grantDge_same)
    | (simp only [Same.mk]; apply Same.fold)
    | split
    | intro _
    | dsimp only

theorem releaseDge_same {core : Nat} {s : State} : Same s (releaseDge core s) := by
  unfold releaseDge
  try dsimp only
  with_reducible repeat' first
    | apply Same.rfl
    | assumption
    | apply Same.trans (k := setCore_same)
    | apply Same.trans (k := putDge_same)
    | apply Same.trans (k := passDge_same)
    | (simp only [Same.mk]; apply Same.fold)
    | split
    | intro _
    | dsimp only

theorem endApplet_same {inst : Nat} {st : AppState} {how : Nat} {s : State} : Same s (endApplet inst st how s) := by
  unfold endApplet
  try dsimp only
  with_reducible repeat' first
    | apply Same.rfl
    | assumption
    | apply Same.trans (k := setCore_same)
    | apply Same.trans (k := cancelCall_same)
    | apply Same.trans (k := answerStop_same)
    | apply Same.trans (k := modApplet_same)
    | apply Same.trans (k := releaseDge_same)
    | (simp only [Same.mk]; apply Same.fold)
    | apply Same.foldl
    | apply Same.ite
    | split
    | intro _
    | dsimp only

theorem forceStop_same {inst : Nat} {s : State} : Same s (forceStop inst s) := by
  unfold forceStop
  try dsimp only
  with_reducible repeat' first
    | apply Same.rfl
    | assumption
    | apply Same.trans (k := schedule_same)
    | apply Same.trans (k := endApplet_same)
    | apply Same.ite
    | split
    | intro _
    | dsimp only

theorem appletStopRun_same {mb : Mb} {q : Req} {s : State} : Same s (appletStopRun mb q s).2 := by
  unfold appletStopRun
  try dsimp only
  with_reducible repeat' first
    | apply Same.rfl
    | assumption
    | apply Same.trans (k := setCore_same)
    | apply Same.trans (k := modApplet_same)
    | apply Same.trans (k := forceStop_same)
    | (simp only [Same.mk]; apply Same.fold)
    | apply Same.ite
    | split
    | intro _
    | dsimp only

theorem appletStopRun_same_then {mb : Mb} {q : Req} {s : State} {s0_ : State} {r_ : _} {s_ : State} (h_ : (appletStopRun mb q s) = (r_, s_)) (k_ : Same s0_ s) : Same s0_ s_ := by
  have j_ := k_.trans (@appletStopRun_same mb q s); rw [h_] at j_; exact j_

theorem formBlock_same {page : Option Nat} {text : Bytes} {c : Content} {s : State} : Same s (formBlock page text c s) := by
  unfold formBlock
  try dsimp only
  with_reducible repeat' first
    | apply Same.rfl
    | assumption
    | (simp only [Same.mk]; apply Same.fold)
    | split
    | intro _
    | dsimp only

theorem storeChange_same {text : Bytes} {f : Content → Content} {s : State} : Same s (storeChange text f s) := by
  unfold storeChange
  try dsimp only
  with_reducible repeat' first
    | apply Same.rfl
    | assumption
    | apply Same.trans (k := formBlock_same)
    | intro _
    | dsimp only

theorem appletTrustRun_same {a0 : Mb} {q : Req} {s : State} : Same s (appletTrustRun a0 q s).2 := by
  unfold appletTrustRun
  try dsimp only
  with_reducible repeat' first
    | apply Same.rfl
    | assumption
    | apply Same.trans (k := storeChange_same)
    | (simp only [Same.mk]; apply Same.fold)
    | apply Same.ite
    | split
    | intro _
    | dsimp only

theorem appletTrustRun_same_then {a0 : Mb} {q : Req} {s : State} {s0_ : State} {r_ : _} {s_ : State} (h_ : (appletTrustRun a0 q s) = (r_, s_)) (k_ : Same s0_ s) : Same s0_ s_ := by
  have j_ := k_.trans (@appletTrustRun_same a0 q s); rw [h_] at j_; exact j_

theorem unloadApplet_same {inst : Nat} {s : State} : Same s (unloadApplet inst s) := by
  unfold unloadApplet
  try dsimp only
  with_reducible repeat' first
    | apply Same.rfl
    | assumption
    | apply Same.trans (k := zeroFab_same)
    | (simp only [Same.mk]; apply Same.fold)
    | split
    | intro _
    | dsimp only

theorem appletUnloadRun_same {mb : Mb} {q : Req} {s : State} : Same s (appletUnloadRun mb q s).2 := by
  unfold appletUnloadRun
  try dsimp only
  with_reducible repeat' first
    | apply Same.rfl
    | assumption
    | apply Same.trans (k := unloadApplet_same)
    | apply Same.ite
    | split
    | intro _
    | dsimp only

theorem appletUnloadRun_same_then {mb : Mb} {q : Req} {s : State} {s0_ : State} {r_ : _} {s_ : State} (h_ : (appletUnloadRun mb q s) = (r_, s_)) (k_ : Same s0_ s) : Same s0_ s_ := by
  have j_ := k_.trans (@appletUnloadRun_same mb q s); rw [h_] at j_; exact j_

theorem applyCal_same {s : State} {r : Bytes} : Same s (applyCal s r) := by
  unfold applyCal
  try dsimp only
  with_reducible repeat' first
    | apply Same.rfl
    | assumption
    | apply Same.trans (k := draw_same)
    | (apply draw_same_then; · assumption)
    | apply Same.trans (k := setBank_same)
    | (simp only [Same.mk]; apply Same.fold)
    | apply Same.foldl
    | apply Same.ite
    | split
    | intro _
    | dsimp only

theorem installKeys_same {o m : Nat} {ix : Bool} {pol : Nat → Nat} {l : List (Nat × KeyRec × Bytes)} {i j : Install} (h : installKeys o m ix pol l i = some j) : Same i.st j.st := by
  induction l generalizing i with
  | nil => cases h; exact Same.rfl
  | cons p r ih =>
    unfold installKeys at h
    dsimp only at h
    split at h
    · exact ih h
    · cases h
    · refine Same.trans ?_ (ih h)
      exact storeChange_same

theorem ownerChange_same {f : Content → Content} {s : State} : Same s (ownerChange f s) := by
  unfold ownerChange
  try dsimp only
  with_reducible repeat' first
    | apply Same.rfl
    | assumption
    | apply Same.trans (k := storeChange_same)
    | intro _
    | dsimp only

theorem putOwner_same {o : Nat} {x : Owner} {s : State} : Same s (putOwner o x s) := by
  unfold putOwner
  try dsimp only
  with_reducible repeat' first
    | apply Same.rfl
    | assumption
    | apply Same.trans (k := ownerChange_same)
    | (simp only [Same.mk]; apply Same.fold)
    | intro _
    | dsimp only

theorem installImage_same {mb : Mb} {o : Nat} {i : OwnerImg} {bits : Bytes} {a m : Nat} {s s_ : State} {x : Install} (h : installImage mb o i bits a m s = .ok (x, s_)) {s0 : State} (k : Same s0 s) : Same s0 s_ := by
  unfold installImage at h
  split at h
  · cases h
  · dsimp only at h
    repeat' split at h
    all_goals first
      | cases h
      | skip
    all_goals refine k.trans (Same.trans ?_ (installKeys_same (by assumption)))
    all_goals dsimp only
    all_goals repeat' first
      | with_reducible apply Same.rfl
      | with_reducible apply Same.trans (k := putOwner_same)
      | with_reducible apply Same.trans (k := ownerChange_same)
      | split
      | dsimp only

theorem usePrep_same {p : Prepare} {s : State} : Same s (usePrep p s) := by
  unfold usePrep
  try dsimp only
  with_reducible repeat' first
    | apply Same.rfl
    | assumption
    | (simp only [Same.mk]; apply Same.fold)
    | intro _
    | dsimp only

theorem applyOf_same {mb : Mb} {q : Req} {bits : Bytes} {s s_ : State} {x : Install} (h : applyOf mb q bits s = .ok (x, s_)) {s0 : State} (k : Same s0 s) : Same s0 s_ := by
  unfold applyOf at h
  split at h
  · cases h
  · exact installImage_same h (k.trans usePrep_same)

theorem applyRec_same {s : State} {r : LogRec} : Same s (applyRec s r) := by
  unfold applyRec
  try dsimp only
  with_reducible repeat' first
    | apply Same.rfl
    | assumption
    | apply Same.trans (k := setStand_same)
    | apply Same.trans (k := setLane_same)
    | apply Same.trans (k := setWma_same)
    | apply Same.trans (k := setDge_same)
    | apply Same.trans (k := setCore_same)
    | apply Same.trans (k := setBank_same)
    | (simp only [Same.mk]; apply Same.fold)
    | apply Same.ite
    | split
    | intro _
    | dsimp only

theorem applySwap_same {s : State} {r : LogRec} : Same s (applySwap s r) := by
  unfold applySwap
  try dsimp only
  with_reducible repeat' first
    | apply Same.rfl
    | assumption
    | apply Same.trans (k := setLane_same)
    | apply Same.trans (k := setCore_same)
    | (simp only [Same.mk]; apply Same.fold)
    | split
    | intro _
    | dsimp only

theorem waitFor_same {c : Nat} {x : Ctx} {ws : List CtxWait} {s : State} : Same s (waitFor c x ws s) := by
  unfold waitFor
  try dsimp only
  with_reducible repeat' first
    | apply Same.rfl
    | assumption
    | apply Same.trans (k := setCtx_same)
    | (simp only [Same.mk]; apply Same.fold)
    | intro _
    | dsimp only

theorem askKeys_same {c : Nat} {x : Ctx} {s : State} : Same s (askKeys c x s) := by
  unfold askKeys
  try dsimp only
  with_reducible repeat' first
    | apply Same.rfl
    | assumption
    | apply Same.trans (k := waitFor_same)
    | (simp only [Same.mk]; apply Same.fold)
    | apply Same.foldl
    | split
    | intro _
    | dsimp only

theorem askPiece_same {c : Nat} {x : Ctx} {stand : Nat} {master : Nat} {s : State} : Same s (askPiece c x stand master s) := by
  unfold askPiece
  try dsimp only
  with_reducible repeat' first
    | apply Same.rfl
    | assumption
    | apply Same.trans (k := setBank_same)
    | (simp only [Same.mk]; apply Same.fold)
    | split
    | intro _
    | dsimp only

theorem askSap_same {n : Nat} {s : State} : Same s (askSap n s) := by
  unfold askSap
  try dsimp only
  with_reducible repeat' first
    | apply Same.rfl
    | assumption
    | (simp only [Same.mk]; apply Same.fold)
    | intro _
    | dsimp only

theorem setFeed_same {st : Nat} {w : Nat} {f : Feed} {s : State} : Same s (setFeed st w f s) := by
  unfold setFeed
  try dsimp only
  with_reducible repeat' first
    | apply Same.rfl
    | assumption
    | apply Same.trans (k := setBank_same)
    | (simp only [Same.mk]; apply Same.fold)
    | intro _
    | dsimp only

theorem askWire_same {st : Nat} {w : Nat} {n : Nat} {s : State} : Same s (askWire st w n s) := by
  unfold askWire
  try dsimp only
  with_reducible repeat' first
    | apply Same.rfl
    | assumption
    | apply Same.trans (k := setFeed_same)
    | intro _
    | dsimp only

theorem holdAccess_same {st : Nat} {h : HeldAccess} {s : State} : Same s (holdAccess st h s) := by
  unfold holdAccess
  try dsimp only
  with_reducible repeat' first
    | apply Same.rfl
    | assumption
    | (simp only [Same.mk]; apply Same.fold)
    | intro _
    | dsimp only

theorem issue_same {t : FabricTag} {target : Nat} {s : State} : Same s (issue t target s).2 := by
  unfold issue
  try dsimp only
  with_reducible repeat' first
    | apply Same.rfl
    | assumption
    | (simp only [Same.mk]; apply Same.fold)
    | split
    | intro _
    | dsimp only

theorem issue_same_then {t : FabricTag} {target : Nat} {s : State} {s0_ : State} {r_ : _} {s_ : State} (h_ : (issue t target s) = (r_, s_)) (k_ : Same s0_ s) : Same s0_ s_ := by
  have j_ := k_.trans (@issue_same t target s); rw [h_] at j_; exact j_

theorem atPort_same {m : Nat} {st : Nat} {x : Nat} {n : Nat} {v : Nat} {f : FabricTag → State → State} {s : State} (h_f : ∀ b0 y, Same y (f b0 y)) : Same s (atPort m st x n v f s) := by
  unfold atPort
  try dsimp only
  with_reducible repeat' first
    | apply Same.rfl
    | assumption
    | apply Same.trans (k := acceptSeq_same)
    | apply Same.trans (k := acuRefuse_same)
    | apply Same.trans (k := holdAccess_same)
    | apply Same.trans (k := issue_same)
    | (apply issue_same_then; · assumption)
    | apply Same.trans (k := h_f _ _)
    | apply Same.ite
    | split
    | intro _
    | dsimp only

theorem lkoLine_same {n : Nat} {s : State} : Same s (lkoLine n s) := by
  unfold lkoLine
  try dsimp only
  with_reducible repeat' first
    | apply Same.rfl
    | assumption
    | apply Same.trans (k := raiseLine_same)
    | apply Same.trans (k := lowerLine_same)
    | apply Same.ite
    | split
    | intro _
    | dsimp only

theorem clearEnables_same {s : State} : Same s (clearEnables s) := by
  unfold clearEnables
  try dsimp only
  with_reducible repeat' first
    | apply Same.rfl
    | assumption
    | (simp only [Same.mk]; apply Same.fold)
    | intro _
    | dsimp only

theorem setIde_same {link : Nat} {n : Nat} {x : IdeStream} {s : State} : Same s (setIde link n x s) := by
  unfold setIde
  try dsimp only
  with_reducible repeat' first
    | apply Same.rfl
    | assumption
    | (simp only [Same.mk]; apply Same.fold)
    | intro _
    | dsimp only

theorem ideKm_same {link : Nat} {m : Bytes} {mask : Bytes} {s : State} : Same s (ideKm link m mask s) := by
  unfold ideKm
  try dsimp only
  with_reducible repeat' first
    | apply Same.rfl
    | assumption
    | apply Same.trans (k := setIde_same)
    | apply Same.ite
    | split
    | intro _
    | dsimp only

theorem takeHeart_same {n : Nat} {s : State} : Same s (takeHeart n s).2 := by
  unfold takeHeart
  try dsimp only
  with_reducible repeat' first
    | apply Same.rfl
    | assumption
    | (simp only [Same.mk]; apply Same.fold)
    | split
    | intro _
    | dsimp only

theorem takeHeart_same_then {n : Nat} {s : State} {s0_ : State} {r_ : _} {s_ : State} (h_ : (takeHeart n s) = (r_, s_)) (k_ : Same s0_ s) : Same s0_ s_ := by
  have j_ := k_.trans (@takeHeart_same n s); rw [h_] at j_; exact j_

theorem doeServe_same {p : Nat} {r : DoeRequest} {s : State} : Same s (doeServe p r s) := by
  unfold doeServe
  try dsimp only
  with_reducible repeat' first
    | apply Same.rfl
    | assumption
    | apply Same.trans (k := ideKm_same)
    | apply Same.trans (k := takeHeart_same)
    | (apply takeHeart_same_then; · assumption)
    | (simp only [Same.mk]; apply Same.fold)
    | apply Same.ite
    | split
    | intro _
    | dsimp only

theorem mctpSpdm_same {m : Bytes} {s : State} : Same s (mctpSpdm m s) := by
  unfold mctpSpdm
  try dsimp only
  with_reducible repeat' first
    | apply Same.rfl
    | assumption
    | apply Same.trans (k := takeHeart_same)
    | (apply takeHeart_same_then; · assumption)
    | (simp only [Same.mk]; apply Same.fold)
    | split
    | intro _
    | dsimp only

theorem doeResume_same {s : State} : Same s (doeResume s) := by
  unfold doeResume
  try dsimp only
  with_reducible repeat' first
    | apply Same.rfl
    | assumption
    | apply Same.trans (k := doeServe_same)
    | apply Same.trans (k := mctpSpdm_same)
    | (simp only [Same.mk]; apply Same.fold)
    | apply Same.foldl
    | split
    | intro _
    | dsimp only

theorem dropVfs_same {s : State} : Same s (dropVfs s) := by
  unfold dropVfs
  try dsimp only
  with_reducible repeat' first
    | apply Same.rfl
    | assumption
    | (simp only [Same.mk]; apply Same.fold)
    | apply Same.ite
    | split
    | intro _
    | dsimp only

theorem measureSet_same {idx : Nat} {text : Bytes} {s : State} : Same s (measureSet idx text s) := by
  unfold measureSet
  try dsimp only
  with_reducible repeat' first
    | apply Same.rfl
    | assumption
    | (simp only [Same.mk]; apply Same.fold)
    | intro _
    | dsimp only

theorem queueError_same {k : Nat} {c : QCause} {s : State} : Same s (queueError k c s) := by
  unfold queueError
  try dsimp only
  with_reducible repeat' first
    | apply Same.rfl
    | assumption
    | apply Same.trans (k := raiseEvent_same)
    | apply Same.trans (k := setQ_same)
    | (simp only [Same.mk]; apply Same.fold)
    | apply Same.ite
    | split
    | intro _
    | dsimp only

theorem ringError_same {k : Nat} {c : QCause} {s : State} : Same s (ringError k c s) := by
  unfold ringError
  try dsimp only
  with_reducible repeat' first
    | apply Same.rfl
    | assumption
    | apply Same.trans (k := raiseEvent_same)
    | (simp only [Same.mk]; apply Same.fold)
    | apply Same.ite
    | split
    | intro _
    | dsimp only

theorem queuesModeEnd_same {s : State} : Same s (queuesModeEnd s) := by
  unfold queuesModeEnd
  try dsimp only
  with_reducible repeat' first
    | apply Same.rfl
    | assumption
    | apply Same.trans (k := admitQ_same)
    | apply Same.trans (k := queueError_same)
    | apply Same.trans (k := ringError_same)
    | apply Same.foldl
    | split
    | intro _
    | dsimp only

theorem deviceStop_same {s : State} : Same s (deviceStop s) := by
  unfold deviceStop
  try dsimp only
  with_reducible repeat' first
    | apply Same.rfl
    | assumption
    | apply Same.trans (k := endUpdate_same)
    | apply Same.trans (k := mailboxesStop_same)
    | apply Same.trans (k := portsStop_same)
    | apply Same.trans (k := setCore_same)
    | apply Same.trans (k := cancelCalls_same)
    | apply Same.trans (k := endApplets_same)
    | apply Same.trans (k := voidWhere_same)
    | apply Same.trans (k := clearEnables_same)
    | apply Same.trans (k := doeResume_same)
    | apply Same.trans (k := dropVfs_same)
    | apply Same.trans (k := measureSet_same)
    | apply Same.trans (k := queuesModeEnd_same)
    | (simp only [Same.mk]; apply Same.fold)
    | apply Same.foldl
    | apply Same.ite
    | split
    | intro _
    | dsimp only

theorem setPort_same {n : Nat} {p : Port} {s : State} : Same s (setPort n p s) := by
  unfold setPort
  try dsimp only
  with_reducible repeat' first
    | apply Same.rfl
    | assumption
    | (simp only [Same.mk]; apply Same.fold)
    | intro _
    | dsimp only

theorem portDrop_same {n : Nat} {cause : Nat} {s : State} : Same s (portDrop n cause s) := by
  unfold portDrop
  try dsimp only
  with_reducible repeat' first
    | apply Same.rfl
    | assumption
    | apply Same.trans (k := setPort_same)
    | (simp only [Same.mk]; apply Same.fold)
    | split
    | intro _
    | dsimp only

theorem dropFrames_same {hit : Frame → Bool} {cause : Nat} {s : State} : Same s (dropFrames hit cause s) := by
  unfold dropFrames
  try dsimp only
  with_reducible repeat' first
    | apply Same.rfl
    | assumption
    | apply Same.trans (k := portDrop_same)
    | (simp only [Same.mk]; apply Same.fold)
    | apply Same.foldl
    | split
    | intro _
    | dsimp only

theorem ethSettle_same {s : State} : Same s (ethSettle s) := by
  unfold ethSettle
  try dsimp only
  with_reducible repeat' first
    | apply Same.rfl
    | assumption
    | apply Same.trans (k := setMb_same)
    | apply Same.trans (k := finishMb_same)
    | (simp only [Same.mk]; apply Same.fold)
    | apply Same.foldl
    | apply Same.ite
    | split
    | intro _
    | dsimp only

theorem ethSweep_same {s : State} : Same s (ethSweep s) := by
  unfold ethSweep
  try dsimp only
  with_reducible repeat' first
    | apply Same.rfl
    | assumption
    | (simp only [Same.mk]; apply Same.fold)
    | split
    | intro _
    | dsimp only

theorem putKeys_same {ks : Tab KeyRec} {s : State} : Same s (putKeys ks s) := by
  unfold putKeys
  try dsimp only
  with_reducible repeat' first
    | apply Same.rfl
    | assumption
    | (simp only [Same.mk]; apply Same.fold)
    | intro _
    | dsimp only

theorem modKey_same {slot : Nat} {f : KeyRec → KeyRec} {s : State} : Same s (modKey slot f s) := by
  unfold modKey
  try dsimp only
  with_reducible repeat' first
    | apply Same.rfl
    | assumption
    | apply Same.trans (k := putKeys_same)
    | intro _
    | dsimp only

theorem unpin_same {pair : Nat} {slot : Nat} {gen : Nat} {s : State} : Same s (unpin pair slot gen s) := by
  unfold unpin
  try dsimp only
  with_reducible repeat' first
    | apply Same.rfl
    | assumption
    | (simp only [Same.mk]; apply Same.fold)
    | apply Same.ite
    | split
    | intro _
    | dsimp only

theorem dropSa_same {sa : Nat} {s : State} : Same s (dropSa sa s) := by
  unfold dropSa
  try dsimp only
  with_reducible repeat' first
    | apply Same.rfl
    | assumption
    | apply Same.trans (k := modKey_same)
    | apply Same.trans (k := unpin_same)
    | (simp only [Same.mk]; apply Same.fold)
    | apply Same.ite
    | split
    | intro _
    | dsimp only

theorem removeSa_same {sa : Nat} {s : State} : Same s (removeSa sa s) := by
  unfold removeSa
  try dsimp only
  with_reducible repeat' first
    | apply Same.rfl
    | assumption
    | apply Same.trans (k := dropSa_same)
    | (simp only [Same.mk]; apply Same.fold)
    | apply Same.ite
    | split
    | intro _
    | dsimp only

theorem hostWrite_same {a : Nat} {d : Bytes} {s : State} : Same s (hostWrite a d s) := by
  unfold hostWrite
  try dsimp only
  with_reducible repeat' first
    | apply Same.rfl
    | assumption
    | (simp only [Same.mk]; apply Same.fold)
    | intro _
    | dsimp only

theorem ringEvent_same {kk ph : Nat} {e : Bytes} {s : State} {b : Bool} {s_ : State} (h : ringEvent kk ph e s = (s_, b)) {s0 : State} (k : Same s0 s) : Same s0 s_ := by
  have j : Same s (ringEvent kk ph e s).1 := by
    unfold ringEvent
    dsimp only
    repeat' first
      | with_reducible apply Same.rfl
      | with_reducible apply Same.trans (k := ringError_same)
      | with_reducible apply Same.trans (k := sendVec_same)
      | with_reducible apply Same.trans (k := hostWrite_same)
      | (simp only [Same.mk]; with_reducible apply Same.fold)
      | split
      | dsimp only
  rw [h] at j; exact k.trans j

theorem ringEvent_one {kk ph : Nat} {e : Bytes} {s : State} : Same s (ringEvent kk ph e s).1 :=
  ringEvent_same (h := rfl) Same.rfl

theorem secyCount_same {port : Nat} {i : Nat} {n : Nat} {s : State} : Same s (secyCount port i n s) := by
  unfold secyCount
  try dsimp only
  with_reducible repeat' first
    | apply Same.rfl
    | assumption
    | (simp only [Same.mk]; apply Same.fold)
    | intro _
    | dsimp only

end Sys2Proof.Machine
end

