-- ==== Sys2Proof/Laws/Apart2.lean ====
section
/-! SUPPORT. Operations and meanings that leave the queue, the clock and the COMMIT partition alone, callees first (2 of 6). -/

namespace Sys2Proof.Machine

theorem secyEvent_same {port : Nat} {kind : Nat} {sa : Nat} {pn : Nat} {s : State} : Same s (secyEvent port kind sa pn s) := by
  unfold secyEvent
  dsimp only
  split
  · exact Same.rfl
  · split
    · exact secyCount_same
    · split
      · rename_i h
        split at h
        · exact ringEvent_same h Same.rfl
        · cases h
      · rename_i h
        split at h
        · exact (ringEvent_same h Same.rfl).trans secyCount_same
        · cases h; exact secyCount_same

theorem clearSas_same {s : State} : Same s (clearSas s) := by
  unfold clearSas
  try dsimp only
  with_reducible repeat' first
    | apply Same.rfl
    | assumption
    | apply Same.trans (k := dropFrames_same)
    | apply Same.trans (k := ethSettle_same)
    | apply Same.trans (k := ethSweep_same)
    | apply Same.trans (k := removeSa_same)
    | apply Same.trans (k := secyEvent_same)
    | (simp only [Same.mk]; apply Same.fold)
    | apply Same.foldl
    | split
    | intro _
    | dsimp only

theorem orderClear_same {s : State} : Same s (orderClear s) := by
  unfold orderClear
  try dsimp only
  with_reducible repeat' first
    | apply Same.rfl
    | assumption
    | apply Same.trans (k := abortWhere_same)
    | apply Same.trans (k := clearLinkKeys_same)
    | apply Same.trans (k := mapBanks_same)
    | apply Same.trans (k := scrubAll_same)
    | apply Same.trans (k := wipeEngines_same)
    | apply Same.trans (k := clearEnables_same)
    | apply Same.trans (k := clearSas_same)
    | (simp only [Same.mk]; apply Same.fold)
    | split
    | intro _
    | dsimp only

theorem clearcutRun_same {n : Nat} {s : State} : Same s (clearcutRun n s) := by
  unfold clearcutRun
  try dsimp only
  with_reducible repeat' first
    | apply Same.rfl
    | assumption
    | apply Same.trans (k := logCode_same)
    | apply Same.trans (k := deviceStop_same)
    | apply Same.trans (k := orderClear_same)
    | (simp only [Same.mk]; apply Same.fold)
    | split
    | intro _
    | dsimp only

theorem setLkoSrc_same {n : Nat} {x : LkoSrc} {s : State} : Same s (setLkoSrc n x s) := by
  unfold setLkoSrc
  try dsimp only
  with_reducible repeat' first
    | apply Same.rfl
    | assumption
    | (simp only [Same.mk]; apply Same.fold)
    | intro _
    | dsimp only

theorem lkoRespond_same {n : Nat} {resp : Nat} {hold : Nat} {s : State} : Same s (lkoRespond n resp hold s) := by
  unfold lkoRespond
  try dsimp only
  with_reducible repeat' first
    | apply Same.rfl
    | assumption
    | apply Same.trans (k := notifyApplets_same)
    | apply Same.trans (k := wakePend_same)
    | apply Same.trans (k := vecAllPfs_same)
    | apply Same.trans (k := orderClear_same)
    | apply Same.trans (k := clearcutRun_same)
    | apply Same.trans (k := setLkoSrc_same)
    | (simp only [Same.mk]; apply Same.fold)
    | apply Same.ite
    | split
    | intro _
    | dsimp only

theorem lkoTrip_same {n : Nat} {s : State} : Same s (lkoTrip n s) := by
  unfold lkoTrip
  try dsimp only
  with_reducible repeat' first
    | apply Same.rfl
    | assumption
    | apply Same.trans (k := logPut_same)
    | apply Same.trans (k := refreshMode_same)
    | apply Same.trans (k := lkoLine_same)
    | apply Same.trans (k := setLkoSrc_same)
    | apply Same.trans (k := lkoRespond_same)
    | (simp only [Same.mk]; apply Same.fold)
    | split
    | intro _
    | dsimp only

theorem lkoEvent_same {n : Nat} {t : Nat} {s : State} : Same s (lkoEvent n t s) := by
  unfold lkoEvent
  try dsimp only
  with_reducible repeat' first
    | apply Same.rfl
    | assumption
    | apply Same.trans (k := setLkoSrc_same)
    | apply Same.trans (k := lkoTrip_same)
    | (simp only [Same.mk]; apply Same.fold)
    | apply Same.ite
    | split
    | intro _
    | dsimp only

theorem backupLoss_same {s : State} : Same s (backupLoss s) := by
  unfold backupLoss
  try dsimp only
  with_reducible repeat' first
    | apply Same.rfl
    | assumption
    | apply Same.trans (k := lkoEvent_same)
    | (simp only [Same.mk]; apply Same.fold)
    | apply Same.ite
    | split
    | intro _
    | dsimp only

theorem sbkAnswer_same {s : State} : Same s (sbkAnswer s) := by
  unfold sbkAnswer
  try dsimp only
  with_reducible repeat' first
    | apply Same.rfl
    | assumption
    | apply Same.trans (k := deliver_same)
    | (simp only [Same.mk]; apply Same.fold)
    | apply Same.foldl
    | intro _
    | dsimp only

theorem sbkNext_same {s : State} : Same s (sbkNext s) := by
  unfold sbkNext
  try dsimp only
  with_reducible repeat' first
    | apply Same.rfl
    | assumption
    | apply Same.trans (k := setBank_same)
    | apply Same.trans (k := sbkAnswer_same)
    | (simp only [Same.mk]; apply Same.fold)
    | split
    | intro _
    | dsimp only

theorem sbkStep_same {b : Nat} {s : State} : Same s (sbkStep b s) := by
  unfold sbkStep
  try dsimp only
  with_reducible repeat' first
    | apply Same.rfl
    | assumption
    | apply Same.trans (k := sbkNext_same)
    | apply Same.ite
    | split
    | intro _
    | dsimp only

theorem unitRec_same {code : Nat} {arg : List (Nat × Nat × Nat)} {inj : Bool} {s : State} : Same s (unitRec code arg inj s) := by
  unfold unitRec
  try dsimp only
  with_reducible repeat' first
    | apply Same.rfl
    | assumption
    | apply Same.trans (k := logPut_same)
    | (simp only [Same.mk]; apply Same.fold)
    | split
    | intro _
    | dsimp only

theorem unitReport_same {src : Nat} {unit : Nat} {inj : Bool} {s : State} : Same s (unitReport src unit inj s) := by
  unfold unitReport
  try dsimp only
  with_reducible repeat' first
    | apply Same.rfl
    | assumption
    | apply Same.trans (k := countFault_same)
    | apply Same.trans (k := lastFault_same)
    | apply Same.trans (k := raiseLine_same)
    | apply Same.trans (k := faultRec_same)
    | apply Same.trans (k := vecAllPfs_same)
    | (simp only [Same.mk]; apply Same.fold)
    | split
    | intro _
    | dsimp only

theorem isolateBank_same {b : Nat} {cause : Nat} {inj : Bool} {s : State} : Same s (isolateBank b cause inj s) := by
  unfold isolateBank
  try dsimp only
  with_reducible repeat' first
    | apply Same.rfl
    | assumption
    | apply Same.trans (k := refreshMode_same)
    | apply Same.trans (k := setBank_same)
    | apply Same.trans (k := sbkStep_same)
    | apply Same.trans (k := unitRec_same)
    | apply Same.trans (k := unitReport_same)
    | (simp only [Same.mk]; apply Same.fold)
    | apply Same.ite
    | split
    | intro _
    | dsimp only

theorem bankFail_same {b : Nat} {cause : Nat} {inj : Bool} {s : State} : Same s (bankFail b cause inj s) := by
  unfold bankFail
  try dsimp only
  with_reducible repeat' first
    | apply Same.rfl
    | assumption
    | apply Same.trans (k := countFault_same)
    | apply Same.trans (k := setBank_same)
    | apply Same.trans (k := isolateBank_same)
    | (simp only [Same.mk]; apply Same.fold)
    | apply Same.ite
    | split
    | intro _
    | dsimp only

theorem putLaneCtxs_same {g : Nat} {cs : List LaneCtx} {s : State} : Same s (putLaneCtxs g cs s) := by
  unfold putLaneCtxs
  try dsimp only
  with_reducible repeat' first
    | apply Same.rfl
    | assumption
    | apply Same.trans (k := setLane_same)
    | (simp only [Same.mk]; apply Same.fold)
    | apply Same.ite
    | split
    | intro _
    | dsimp only

theorem bindLane_same {g : Nat} {slot : Nat} {gen : Nat} {owner : Nat} {standing : Bool} {s : State} : Same s (bindLane g slot gen owner standing s) := by
  unfold bindLane
  try dsimp only
  with_reducible repeat' first
    | apply Same.rfl
    | assumption
    | apply Same.trans (k := putLaneCtxs_same)
    | (simp only [Same.mk]; apply Same.fold)
    | apply Same.ite
    | split
    | intro _
    | dsimp only

theorem takeWire_same {st : Nat} {w : Nat} {n : Nat} {s : State} : Same s (takeWire st w n s).2 := by
  unfold takeWire
  try dsimp only
  with_reducible repeat' first
    | apply Same.rfl
    | assumption
    | apply Same.trans (k := setFeed_same)
    | apply Same.trans (k := askWire_same)
    | split
    | intro _
    | dsimp only

theorem takeWire_same_then {st : Nat} {w : Nat} {n : Nat} {s : State} {s0_ : State} {r_ : _} {s_ : State} (h_ : (takeWire st w n s) = (r_, s_)) (k_ : Same s0_ s) : Same s0_ s_ := by
  have j_ := k_.trans (@takeWire_same st w n s); rw [h_] at j_; exact j_

theorem startIv_same {c : Nat} {st : Nat} {x : Ctx} {random : Bool} {s : State} : Same s (startIv c st x random s) := by
  unfold startIv
  try dsimp only
  with_reducible repeat' first
    | apply Same.rfl
    | assumption
    | apply Same.trans (k := setCtx_same)
    | apply Same.trans (k := takeWire_same)
    | (apply takeWire_same_then; · assumption)
    | (simp only [Same.mk]; apply Same.fold)
    | apply Same.ite
    | split
    | intro _
    | dsimp only

theorem beginLane_same {c : Nat} {st : Nat} {g : Nat} {slot : Nat} {gen : Nat} {x : Ctx} {k : KeyRec} {s : State} : Same s (beginLane c st g slot gen x k s) := by
  unfold beginLane
  try dsimp only
  with_reducible repeat' first
    | apply Same.rfl
    | assumption
    | apply Same.trans (k := bindLane_same)
    | apply Same.trans (k := startIv_same)
    | (simp only [Same.mk]; apply Same.fold)
    | intro _
    | dsimp only

theorem restartEvent_same {isEnd : Bool} {s : State} : Same s (restartEvent isEnd s) := by
  unfold restartEvent
  try dsimp only
  with_reducible repeat' first
    | apply Same.rfl
    | assumption
    | apply Same.trans (k := eventAllPfs_same)
    | apply Same.trans (k := eventAllVfs_same)
    | apply Same.ite
    | split
    | intro _
    | dsimp only

theorem beginRestart_same {reason : Nat} {s : State} : Same s (beginRestart reason s) := by
  unfold beginRestart
  try dsimp only
  with_reducible repeat' first
    | apply Same.rfl
    | assumption
    | apply Same.trans (k := endUpdate_same)
    | apply Same.trans (k := notifyApplets_same)
    | apply Same.trans (k := refreshMode_same)
    | apply Same.trans (k := restartEvent_same)
    | (simp only [Same.mk]; apply Same.fold)
    | apply Same.ite
    | split
    | intro _
    | dsimp only

theorem blobWrite_same {mb : Mb} {a : Nat} {d : Bytes} {r : Resp} {s : State} : Same s (blobWrite mb a d r s).2 := by
  unfold blobWrite
  try dsimp only
  with_reducible repeat' first
    | apply Same.rfl
    | assumption
    | apply Same.trans (k := hostWrite_same)
    | apply Same.ite
    | split
    | intro _
    | dsimp only

theorem blobWrite_same_then {mb : Mb} {a : Nat} {d : Bytes} {r : Resp} {s : State} {s0_ : State} {r_ : _} {s_ : State} (h_ : (blobWrite mb a d r s) = (r_, s_)) (k_ : Same s0_ s) : Same s0_ s_ := by
  have j_ := k_.trans (@blobWrite_same mb a d r s); rw [h_] at j_; exact j_

theorem measureExtend_same {ext : Nat} {idx : Nat} {ev : Bytes} {s : State} : Same s (measureExtend ext idx ev s) := by
  unfold measureExtend
  try dsimp only
  with_reducible repeat' first
    | apply Same.rfl
    | assumption
    | (simp only [Same.mk]; apply Same.fold)
    | split
    | intro _
    | dsimp only

theorem calibrateRun_same {a0 : Mb} {q : Req} {s : State} : Same s (calibrateRun a0 q s).2 := by
  unfold calibrateRun
  try dsimp only
  with_reducible repeat' first
    | apply Same.rfl
    | assumption
    | apply Same.trans (k := applyCal_same)
    | apply Same.trans (k := measureSet_same)
    | apply Same.trans (k := measureExtend_same)
    | (simp only [Same.mk]; apply Same.fold)
    | apply Same.foldl
    | split
    | intro _
    | dsimp only

theorem calibrateRun_same_then {a0 : Mb} {q : Req} {s : State} {s0_ : State} {r_ : _} {s_ : State} (h_ : (calibrateRun a0 q s) = (r_, s_)) (k_ : Same s0_ s) : Same s0_ s_ := by
  have j_ := k_.trans (@calibrateRun_same a0 q s); rw [h_] at j_; exact j_

theorem cancelApprovals_same {p : Nat → Approval → Bool} {s : State} : Same s (cancelApprovals p s) := by
  unfold cancelApprovals
  try dsimp only
  with_reducible repeat' first
    | apply Same.rfl
    | assumption
    | (simp only [Same.mk]; apply Same.fold)
    | split
    | intro _
    | dsimp only

theorem capFirst_same {s : State} : Same s (capFirst s) := by
  unfold capFirst
  try dsimp only
  with_reducible repeat' first
    | apply Same.rfl
    | assumption
    | (simp only [Same.mk]; apply Same.fold)
    | intro _
    | dsimp only

theorem linkWeights_same {s : State} : Same s (linkWeights s) := by
  unfold linkWeights
  try dsimp only
  with_reducible repeat' first
    | apply Same.rfl
    | assumption
    | apply Same.trans (k := setAlloc_same)
    | (simp only [Same.mk]; apply Same.fold)
    | apply Same.foldl
    | apply Same.ite
    | split
    | intro _
    | dsimp only

theorem recomputeWeights_same {s : State} : Same s (recomputeWeights s) := by
  unfold recomputeWeights
  try dsimp only
  with_reducible repeat' first
    | apply Same.rfl
    | assumption
    | apply Same.trans (k := raiseEvent_same)
    | apply Same.trans (k := linkWeights_same)
    | (simp only [Same.mk]; apply Same.fold)
    | apply Same.foldl
    | apply Same.ite
    | split
    | intro _
    | dsimp only

theorem capRewrite_same {s : State} : Same s (capRewrite s) := by
  unfold capRewrite
  try dsimp only
  with_reducible repeat' first
    | apply Same.rfl
    | assumption
    | apply Same.trans (k := eventAllPfs_same)
    | apply Same.trans (k := logCode_same)
    | apply Same.trans (k := recomputeWeights_same)
    | (simp only [Same.mk]; apply Same.fold)
    | apply Same.ite
    | split
    | intro _
    | dsimp only

theorem tryCommit_same {s : State} : Same s (tryCommit s) := by
  unfold tryCommit
  try dsimp only
  with_reducible repeat' first
    | apply Same.rfl
    | assumption
    | (simp only [Same.mk]; apply Same.fold)
    | apply Same.ite
    | split
    | intro _
    | dsimp only

theorem wantCommit_same {ceiling : Bool} {seq : Nat} {s : State} : Same s (wantCommit ceiling seq s) := by
  unfold wantCommit
  try dsimp only
  with_reducible repeat' first
    | apply Same.rfl
    | assumption
    | apply Same.trans (k := tryCommit_same)
    | (simp only [Same.mk]; apply Same.fold)
    | apply Same.ite
    | split
    | intro _
    | dsimp only

theorem extendUses_same {slot : Nat} {k : KeyRec} {s : State} : Same s (extendUses slot k s) := by
  unfold extendUses
  try dsimp only
  with_reducible repeat' first
    | apply Same.rfl
    | assumption
    | apply Same.trans (k := storeChange_same)
    | apply Same.trans (k := wantCommit_same)
    | (simp only [Same.mk]; apply Same.fold)
    | apply Same.ite
    | split
    | intro _
    | dsimp only

theorem chargeUse_same {slot : Nat} {s : State} : Same s (chargeUse slot s) := by
  unfold chargeUse
  try dsimp only
  with_reducible repeat' first
    | apply Same.rfl
    | assumption
    | apply Same.trans (k := putKeys_same)
    | apply Same.trans (k := extendUses_same)
    | (simp only [Same.mk]; apply Same.fold)
    | apply Same.ite
    | split
    | intro _
    | dsimp only

theorem serviceClear_same {kind : Nat} {s : State} : Same s (serviceClear kind s) := by
  unfold serviceClear
  try dsimp only
  with_reducible repeat' first
    | apply Same.rfl
    | assumption
    | (simp only [Same.mk]; apply Same.fold)
    | intro _
    | dsimp only

theorem serviceStands_same {src : Nat} {cond : Bool} {s : State} : Same s (serviceStands src cond s) := by
  unfold serviceStands
  try dsimp only
  with_reducible repeat' first
    | apply Same.rfl
    | assumption
    | apply Same.trans (k := serviceReport_same)
    | apply Same.ite
    | split
    | intro _
    | dsimp only

theorem checkPairs_same {s : State} : Same s (checkPairs s) := by
  unfold checkPairs
  try dsimp only
  with_reducible repeat' first
    | apply Same.rfl
    | assumption
    | apply Same.trans (k := serviceClear_same)
    | apply Same.trans (k := serviceStands_same)
    | apply Same.ite
    | split
    | intro _
    | dsimp only

theorem cutFrames_same {g : Nat} {fs : List Frame} {s : State} : Same s (cutFrames g fs s) := by
  unfold cutFrames
  try dsimp only
  with_reducible repeat' first
    | apply Same.rfl
    | assumption
    | apply Same.trans (k := draw_same)
    | (apply draw_same_then; · assumption)
    | apply Same.trans (k := countPorts_same)
    | apply Same.foldl
    | split
    | intro _
    | dsimp only

theorem dropLaneFrames_same {g : Nat} {s : State} : Same s (dropLaneFrames g s) := by
  unfold dropLaneFrames
  try dsimp only
  with_reducible repeat' first
    | apply Same.rfl
    | assumption
    | apply Same.trans (k := setStand_same)
    | apply Same.trans (k := dropFrames_same)
    | apply Same.trans (k := cutFrames_same)
    | (simp only [Same.mk]; apply Same.fold)
    | split
    | intro _
    | dsimp only

theorem restartLane_same {c : Nat} {g : Nat} {st : Nat} {slot : Nat} {gen : Nat} {x : Ctx} {s : State} : Same s (restartLane c g st slot gen x s) := by
  unfold restartLane
  try dsimp only
  with_reducible repeat' first
    | apply Same.rfl
    | assumption
    | apply Same.trans (k := setStand_same)
    | apply Same.trans (k := bindLane_same)
    | apply Same.trans (k := startIv_same)
    | (simp only [Same.mk]; apply Same.fold)
    | split
    | intro _
    | dsimp only

theorem extendCeiling_same {slot : Nat} {k : KeyRec} {s : State} : Same s (extendCeiling slot k s) := by
  unfold extendCeiling
  try dsimp only
  with_reducible repeat' first
    | apply Same.rfl
    | assumption
    | apply Same.trans (k := storeChange_same)
    | apply Same.trans (k := wantCommit_same)
    | (simp only [Same.mk]; apply Same.fold)
    | apply Same.ite
    | split
    | intro _
    | dsimp only

theorem takeInvocation_same {slot : Nat} {s : State} : Same s (takeInvocation slot s).2 := by
  unfold takeInvocation
  try dsimp only
  with_reducible repeat' first
    | apply Same.rfl
    | assumption
    | apply Same.trans (k := putKeys_same)
    | apply Same.trans (k := extendCeiling_same)
    | (simp only [Same.mk]; apply Same.fold)
    | apply Same.ite
    | split
    | intro _
    | dsimp only

theorem takeInvocation_same_then {slot : Nat} {s : State} {s0_ : State} {r_ : _} {s_ : State} (h_ : (takeInvocation slot s) = (r_, s_)) (k_ : Same s0_ s) : Same s0_ s_ := by
  have j_ := k_.trans (@takeInvocation_same slot s); rw [h_] at j_; exact j_

theorem redispatch_same {c : Nat} {s : State} : Same s (redispatch c s) := by
  unfold redispatch
  try dsimp only
  with_reducible repeat' first
    | apply Same.rfl
    | assumption
    | apply Same.trans (k := setCtx_same)
    | apply Same.trans (k := settle_same)
    | apply Same.trans (k := restartLane_same)
    | apply Same.trans (k := takeInvocation_same)
    | (apply takeInvocation_same_then; · assumption)
    | (simp only [Same.mk]; apply Same.fold)
    | apply Same.ite
    | split
    | intro _
    | dsimp only

theorem laneLost_same {c : Nat} {x : Ctx} {s : State} : Same s (laneLost c x s) := by
  unfold laneLost
  try dsimp only
  with_reducible repeat' first
    | apply Same.rfl
    | assumption
    | apply Same.trans (k := cutShort_same)
    | (apply cutShort_same_then; · assumption)
    | apply Same.trans (k := earlyOut_same)
    | (apply earlyOut_same_then; · assumption)
    | apply Same.trans (k := setCtx_same)
    | apply Same.trans (k := countCut_same)
    | apply Same.trans (k := settle_same)
    | apply Same.trans (k := redispatch_same)
    | (simp only [Same.mk]; apply Same.fold)
    | apply Same.ite
    | split
    | intro _
    | dsimp only

theorem isolateLane_same {g : Nat} {cause : Nat} {inj : Bool} {s : State} : Same s (isolateLane g cause inj s) := by
  unfold isolateLane
  try dsimp only
  with_reducible repeat' first
    | apply Same.rfl
    | assumption
    | apply Same.trans (k := setLane_same)
    | apply Same.trans (k := dropLaneFrames_same)
    | apply Same.trans (k := laneLost_same)
    | (simp only [Same.mk]; apply Same.fold)
    | apply Same.foldl
    | split
    | intro _
    | dsimp only

theorem laneRec_same {g : Nat} {s : State} : Same s (laneRec g s) := by
  unfold laneRec
  try dsimp only
  with_reducible repeat' first
    | apply Same.rfl
    | assumption
    | apply Same.trans (k := unitRec_same)
    | intro _
    | dsimp only

theorem returnJobs_same {st : Nat} {s : State} : Same s (returnJobs st s) := by
  unfold returnJobs
  try dsimp only
  with_reducible repeat' first
    | apply Same.rfl
    | assumption
    | (simp only [Same.mk]; apply Same.fold)
    | apply Same.ite
    | split
    | intro _
    | dsimp only

theorem standOffline_same {st : Nat} {s : State} : Same s (standOffline st s) := by
  unfold standOffline
  try dsimp only
  with_reducible repeat' first
    | apply Same.rfl
    | assumption
    | apply Same.trans (k := logCode_same)
    | apply Same.trans (k := setStand_same)
    | apply Same.trans (k := capRewrite_same)
    | apply Same.trans (k := returnJobs_same)
    | (simp only [Same.mk]; apply Same.fold)
    | apply Same.ite
    | split
    | intro _
    | dsimp only

theorem laneGone_same {g : Nat} {s : State} : Same s (laneGone g s) := by
  unfold laneGone
  try dsimp only
  with_reducible repeat' first
    | apply Same.rfl
    | assumption
    | apply Same.trans (k := laneRec_same)
    | apply Same.trans (k := standOffline_same)
    | intro _
    | dsimp only

theorem replaceLane_same {g : Nat} {s : State} : Same s (replaceLane g s) := by
  unfold replaceLane
  try dsimp only
  with_reducible repeat' first
    | apply Same.rfl
    | assumption
    | apply Same.trans (k := setStand_same)
    | apply Same.trans (k := setLane_same)
    | apply Same.trans (k := laneGone_same)
    | (simp only [Same.mk]; apply Same.fold)
    | apply Same.ite
    | split
    | intro _
    | dsimp only

theorem nextLanes_same {st : Nat} {s : State} : Same s (nextLanes st s) := by
  unfold nextLanes
  try dsimp only
  with_reducible repeat' first
    | apply Same.rfl
    | assumption
    | apply Same.trans (k := setStand_same)
    | apply Same.trans (k := replaceLane_same)
    | (simp only [Same.mk]; apply Same.fold)
    | apply Same.foldl
    | split
    | intro _
    | dsimp only

theorem spareLost_same {sp : Nat} {s : State} : Same s (spareLost sp s) := by
  unfold spareLost
  try dsimp only
  with_reducible repeat' first
    | apply Same.rfl
    | assumption
    | apply Same.trans (k := setStand_same)
    | apply Same.trans (k := laneRec_same)
    | apply Same.trans (k := standOffline_same)
    | apply Same.trans (k := laneGone_same)
    | apply Same.trans (k := nextLanes_same)
    | (simp only [Same.mk]; apply Same.fold)
    | split
    | intro _
    | dsimp only

theorem laneFail_same {src : Nat} {g : Nat} {cause : Nat} {inj : Bool} {s : State} : Same s (laneFail src g cause inj s) := by
  unfold laneFail
  try dsimp only
  with_reducible repeat' first
    | apply Same.rfl
    | assumption
    | apply Same.trans (k := refreshMode_same)
    | apply Same.trans (k := setStand_same)
    | apply Same.trans (k := countFault_same)
    | apply Same.trans (k := unitReport_same)
    | apply Same.trans (k := capRewrite_same)
    | apply Same.trans (k := isolateLane_same)
    | apply Same.trans (k := laneRec_same)
    | apply Same.trans (k := replaceLane_same)
    | apply Same.trans (k := nextLanes_same)
    | apply Same.trans (k := spareLost_same)
    | (simp only [Same.mk]; apply Same.fold)
    | apply Same.ite
    | split
    | intro _
    | dsimp only

theorem katChecker_same {c : Nat} {ok : Bool} {laneFailed : Bool} {s : State} : Same s (katChecker c ok laneFailed s) := by
  unfold katChecker
  try dsimp only
  with_reducible repeat' first
    | apply Same.rfl
    | assumption
    | apply Same.trans (k := refreshMode_same)
    | apply Same.trans (k := setStand_same)
    | apply Same.trans (k := setLane_same)
    | apply Same.trans (k := capRewrite_same)
    | apply Same.trans (k := isolateLane_same)
    | apply Same.trans (k := laneRec_same)
    | apply Same.trans (k := nextLanes_same)
    | apply Same.trans (k := laneFail_same)
    | (simp only [Same.mk]; apply Same.fold)
    | apply Same.ite
    | split
    | intro _
    | dsimp only

theorem katLane_same {g : Nat} {ok : Bool} {s : State} : Same s (katLane g ok s) := by
  unfold katLane
  try dsimp only
  with_reducible repeat' first
    | apply Same.rfl
    | assumption
    | apply Same.trans (k := setLane_same)
    | apply Same.trans (k := laneFail_same)
    | (simp only [Same.mk]; apply Same.fold)
    | apply Same.ite
    | split
    | intro _
    | dsimp only

theorem laneCorrected_same {g : Nat} {s : State} : Same s (laneCorrected g s) := by
  unfold laneCorrected
  try dsimp only
  with_reducible repeat' first
    | apply Same.rfl
    | assumption
    | apply Same.trans (k := setLane_same)
    | (simp only [Same.mk]; apply Same.fold)
    | split
    | intro _
    | dsimp only

theorem checkerKat_same {stand : Nat} {laneOk : Bool} {checkerOk : Bool} {s : State} : Same s (checkerKat stand laneOk checkerOk s) := by
  unfold checkerKat
  try dsimp only
  with_reducible repeat' first
    | apply Same.rfl
    | assumption
    | apply Same.trans (k := setLane_same)
    | apply Same.trans (k := correctedReport_same)
    | apply Same.trans (k := nextLanes_same)
    | apply Same.trans (k := katChecker_same)
    | apply Same.trans (k := katLane_same)
    | apply Same.trans (k := laneCorrected_same)
    | (simp only [Same.mk]; apply Same.fold)
    | apply Same.ite
    | split
    | intro _
    | dsimp only

theorem loseFrame_same {g : Nat} {i : Nat} {s : State} : Same s (loseFrame g i s) := by
  unfold loseFrame
  try dsimp only
  with_reducible repeat' first
    | apply Same.rfl
    | assumption
    | apply Same.trans (k := setStand_same)
    | apply Same.trans (k := portDrop_same)
    | apply Same.trans (k := cutFrames_same)
    | (simp only [Same.mk]; apply Same.fold)
    | split
    | intro _
    | dsimp only

theorem checkerMismatch_same {stand : Nat} {lane : Nat} {s : State} : Same s (checkerMismatch stand lane s) := by
  unfold checkerMismatch
  try dsimp only
  with_reducible repeat' first
    | apply Same.rfl
    | assumption
    | apply Same.trans (k := draw_same)
    | (apply draw_same_then; · assumption)
    | apply Same.trans (k := setStand_same)
    | apply Same.trans (k := setLane_same)
    | apply Same.trans (k := laneLost_same)
    | apply Same.trans (k := loseFrame_same)
    | (simp only [Same.mk]; apply Same.fold)
    | apply Same.ite
    | split
    | intro _
    | dsimp only

theorem useSapwood_same {slot : Nat} {k : KeyRec} {s : State} : Same s (useSapwood slot k s) := by
  unfold useSapwood
  try dsimp only
  with_reducible repeat' first
    | apply Same.rfl
    | assumption
    | (simp only [Same.mk]; apply Same.fold)
    | apply Same.ite
    | split
    | intro _
    | dsimp only

theorem takeLeases_same {c : Nat} {x : Ctx} {ks : List (Nat × KeyRec)} {s : State} : Same s (takeLeases c x ks s) := by
  unfold takeLeases
  try dsimp only
  with_reducible repeat' first
    | apply Same.rfl
    | assumption
    | apply Same.trans (k := setCtx_same)
    | apply Same.trans (k := chargeUse_same)
    | apply Same.trans (k := useSapwood_same)
    | (simp only [Same.mk]; apply Same.fold)
    | apply Same.foldl
    | apply Same.ite
    | split
    | intro _
    | dsimp only

theorem leaseTry_same {c : Nat} {x : Ctx} {s : State} : Same s (leaseTry c x s) := by
  unfold leaseTry
  try dsimp only
  with_reducible repeat' first
    | apply Same.rfl
    | assumption
    | apply Same.trans (k := setCtx_same)
    | apply Same.trans (k := settleFail_same)
    | apply Same.trans (k := waitFor_same)
    | apply Same.trans (k := extendUses_same)
    | apply Same.trans (k := takeLeases_same)
    | (simp only [Same.mk]; apply Same.fold)
    | apply Same.foldl
    | apply Same.ite
    | split
    | intro _
    | dsimp only

theorem classRow_same {k : Nat} {c : Nat} {s : State} : SameO s (classRow k c s) := by
  unfold classRow
  try dsimp only
  with_reducible repeat' first
    | apply Same.rfl
    | assumption
    | apply Same.trans (k := setCtx_same)
    | apply Same.trans (k := settle_same)
    | (apply admitChecks_same; · assumption)
    | apply Same.trans (k := leaseTry_same)
    | apply SameO.onUnit
    | apply SameO.next
    | apply Same.ite
    | split
    | intro _
    | dsimp only

theorem refuse_same {port : Nat} {cause : Nat} {s : State} : Same s (refuse port cause s).2 := by
  unfold refuse
  try dsimp only
  with_reducible repeat' first
    | apply Same.rfl
    | assumption
    | apply Same.trans (k := portDrop_same)
    | intro _
    | dsimp only

theorem refuse_same_then {port : Nat} {cause : Nat} {s : State} {s0_ : State} {r_ : _} {s_ : State} (h_ : (refuse port cause s) = (r_, s_)) (k_ : Same s0_ s) : Same s0_ s_ := by
  have j_ := k_.trans (@refuse_same port cause s); rw [h_] at j_; exact j_

theorem intoBuf_same {f : Frame} {buf : Nat} {s : State} : Same s (intoBuf f buf s).2 := by
  unfold intoBuf
  try dsimp only
  with_reducible repeat' first
    | apply Same.rfl
    | assumption
    | apply Same.trans (k := refuse_same)
    | (apply refuse_same_then; · assumption)
    | (simp only [Same.mk]; apply Same.fold)
    | apply Same.ite
    | split
    | intro _
    | dsimp only

theorem intoBuf_same_then {f : Frame} {buf : Nat} {s : State} {s0_ : State} {r_ : _} {s_ : State} (h_ : (intoBuf f buf s) = (r_, s_)) (k_ : Same s0_ s) : Same s0_ s_ := by
  have j_ := k_.trans (@intoBuf_same f buf s); rw [h_] at j_; exact j_

theorem egress_same {f : Frame} {n : Nat} {s : State} : Same s (egress f n s).2 := by
  unfold egress
  try dsimp only
  with_reducible repeat' first
    | apply Same.rfl
    | assumption
    | apply Same.trans (k := secyCount_same)
    | apply Same.trans (k := refuse_same)
    | (apply refuse_same_then; · assumption)
    | apply Same.trans (k := intoBuf_same)
    | (apply intoBuf_same_then; · assumption)
    | (simp only [Same.mk]; apply Same.fold)
    | apply Same.ite
    | split
    | intro _
    | dsimp only

theorem egress_same_then {f : Frame} {n : Nat} {s : State} {s0_ : State} {r_ : _} {s_ : State} (h_ : (egress f n s) = (r_, s_)) (k_ : Same s0_ s) : Same s0_ s_ := by
  have j_ := k_.trans (@egress_same f n s); rw [h_] at j_; exact j_

theorem forward_same {f : Frame} {s : State} : Same s (forward f s).2 := by
  unfold forward
  try dsimp only
  with_reducible repeat' first
    | apply Same.rfl
    | assumption
    | apply Same.trans (k := refuse_same)
    | (apply refuse_same_then; · assumption)
    | apply Same.trans (k := egress_same)
    | (apply egress_same_then; · assumption)
    | split
    | intro _
    | dsimp only

theorem forward_same_then {f : Frame} {s : State} {s0_ : State} {r_ : _} {s_ : State} (h_ : (forward f s) = (r_, s_)) (k_ : Same s0_ s) : Same s0_ s_ := by
  have j_ := k_.trans (@forward_same f s); rw [h_] at j_; exact j_

theorem scCount_same {id : Nat} {i : Nat} {s : State} : Same s (scCount id i s) := by
  unfold scCount
  try dsimp only
  with_reducible repeat' first
    | apply Same.rfl
    | assumption
    | (simp only [Same.mk]; apply Same.fold)
    | intro _
    | dsimp only

theorem setPos_same {p : Nat} {x : Position} {s : State} : Same s (setPos p x s) := by
  unfold setPos
  try dsimp only
  with_reducible repeat' first
    | apply Same.rfl
    | assumption
    | (simp only [Same.mk]; apply Same.fold)
    | intro _
    | dsimp only

theorem takeLane_same {pair : Nat} {pos : Nat} {a : Sa} {owner : Nat} {s : State} : Same s (takeLane pair pos a owner s).2 := by
  unfold takeLane
  try dsimp only
  with_reducible repeat' first
    | apply Same.rfl
    | assumption
    | apply Same.trans (k := bindLane_same)
    | apply Same.trans (k := useSapwood_same)
    | apply Same.trans (k := setPos_same)
    | (simp only [Same.mk]; apply Same.fold)
    | apply Same.ite
    | split
    | intro _
    | dsimp only

theorem takeLane_same_then {pair : Nat} {pos : Nat} {a : Sa} {owner : Nat} {s : State} {s0_ : State} {r_ : _} {s_ : State} (h_ : (takeLane pair pos a owner s) = (r_, s_)) (k_ : Same s0_ s) : Same s0_ s_ := by
  have j_ := k_.trans (@takeLane_same pair pos a owner s); rw [h_] at j_; exact j_

theorem rxPass_same {port : Nat} {y : Secy} {c : Sc} {id : Nat} {a : Sa} {t : Tagged} {f : Frame} {s : State} : Same s (rxPass port y c id a t f s).2 := by
  unfold rxPass
  try dsimp only
  with_reducible repeat' first
    | apply Same.rfl
    | assumption
    | apply Same.trans (k := refuse_same)
    | (apply refuse_same_then; · assumption)
    | apply Same.trans (k := scCount_same)
    | apply Same.trans (k := takeLane_same)
    | (apply takeLane_same_then; · assumption)
    | (simp only [Same.mk]; apply Same.fold)
    | apply Same.ite
    | split
    | intro _
    | dsimp only

theorem rxPass_same_then {port : Nat} {y : Secy} {c : Sc} {id : Nat} {a : Sa} {t : Tagged} {f : Frame} {s : State} {s0_ : State} {r_ : _} {s_ : State} (h_ : (rxPass port y c id a t f s) = (r_, s_)) (k_ : Same s0_ s) : Same s0_ s_ := by
  have j_ := k_.trans (@rxPass_same port y c id a t f s); rw [h_] at j_; exact j_

theorem saCount_same {id : Nat} {i : Nat} {s : State} : Same s (saCount id i s) := by
  unfold saCount
  try dsimp only
  with_reducible repeat' first
    | apply Same.rfl
    | assumption
    | (simp only [Same.mk]; apply Same.fold)
    | intro _
    | dsimp only

theorem unchecked_same {port : Nat} {y : Secy} {enc : Bool} {f : Frame} {user : Bytes} {s : State} : Same s (unchecked port y enc f user s).2 := by
  unfold unchecked
  try dsimp only
  with_reducible repeat' first
    | apply Same.rfl
    | assumption
    | apply Same.trans (k := refuse_same)
    | (apply refuse_same_then; · assumption)
    | apply Same.trans (k := forward_same)
    | (apply forward_same_then; · assumption)
    | (simp only [Same.mk]; apply Same.fold)
    | apply Same.ite
    | split
    | intro _
    | dsimp only

theorem unchecked_same_then {port : Nat} {y : Secy} {enc : Bool} {f : Frame} {user : Bytes} {s : State} {s0_ : State} {r_ : _} {s_ : State} (h_ : (unchecked port y enc f user s) = (r_, s_)) (k_ : Same s0_ s) : Same s0_ s_ := by
  have j_ := k_.trans (@unchecked_same port y enc f user s); rw [h_] at j_; exact j_

theorem rxSecy_same {port : Nat} {y : Secy} {f : Frame} {s : State} : Same s (rxSecy port y f s).2 := by
  unfold rxSecy
  try dsimp only
  with_reducible repeat' first
    | apply Same.rfl
    | assumption
    | apply Same.trans (k := secyCount_same)
    | apply Same.trans (k := refuse_same)
    | (apply refuse_same_then; · assumption)
    | apply Same.trans (k := forward_same)
    | (apply forward_same_then; · assumption)
    | apply Same.trans (k := scCount_same)
    | apply Same.trans (k := rxPass_same)
    | (apply rxPass_same_then; · assumption)
    | apply Same.trans (k := saCount_same)
    | apply Same.trans (k := unchecked_same)
    | (apply unchecked_same_then; · assumption)
    | apply Same.ite
    | split
    | intro _
    | dsimp only

theorem rxSecy_same_then {port : Nat} {y : Secy} {f : Frame} {s : State} {s0_ : State} {r_ : _} {s_ : State} (h_ : (rxSecy port y f s) = (r_, s_)) (k_ : Same s0_ s) : Same s0_ s_ := by
  have j_ := k_.trans (@rxSecy_same port y f s); rw [h_] at j_; exact j_

theorem classifyRx_same {port : Nat} {d : Bytes} {s : State} : Same s (classifyRx port d s).2 := by
  unfold classifyRx
  try dsimp only
  with_reducible repeat' first
    | apply Same.rfl
    | assumption
    | apply Same.trans (k := refuse_same)
    | (apply refuse_same_then; · assumption)
    | apply Same.trans (k := forward_same)
    | (apply forward_same_then; · assumption)
    | apply Same.trans (k := rxSecy_same)
    | (apply rxSecy_same_then; · assumption)
    | (simp only [Same.mk]; apply Same.fold)
    | apply Same.ite
    | split
    | intro _
    | dsimp only

theorem classifyRx_same_then {port : Nat} {d : Bytes} {s : State} {s0_ : State} {r_ : _} {s_ : State} (h_ : (classifyRx port d s) = (r_, s_)) (k_ : Same s0_ s) : Same s0_ s_ := by
  have j_ := k_.trans (@classifyRx_same port d s); rw [h_] at j_; exact j_

theorem takePn_same {n : Nat} {id : Nat} {y : Secy} {a : Sa} {s : State} : Same s (takePn n id y a s) := by
  unfold takePn
  try dsimp only
  with_reducible repeat' first
    | apply Same.rfl
    | assumption
    | apply Same.trans (k := secyEvent_same)
    | (simp only [Same.mk]; apply Same.fold)
    | apply Same.ite
    | split
    | intro _
    | dsimp only

theorem classifyTx_same {n : Nat} {f : Frame} {s : State} : Same s (classifyTx n f s).2 := by
  unfold classifyTx
  try dsimp only
  with_reducible repeat' first
    | apply Same.rfl
    | assumption
    | apply Same.trans (k := secyCount_same)
    | apply Same.trans (k := refuse_same)
    | (apply refuse_same_then; · assumption)
    | apply Same.trans (k := takeLane_same)
    | (apply takeLane_same_then; · assumption)
    | apply Same.trans (k := takePn_same)
    | (simp only [Same.mk]; apply Same.fold)
    | apply Same.ite
    | split
    | intro _
    | dsimp only

theorem classifyTx_same_then {n : Nat} {f : Frame} {s : State} {s0_ : State} {r_ : _} {s_ : State} (h_ : (classifyTx n f s) = (r_, s_)) (k_ : Same s0_ s) : Same s0_ s_ := by
  have j_ := k_.trans (@classifyTx_same n f s); rw [h_] at j_; exact j_

theorem clearApplets_same {core : Nat} {st : AppState} {s : State} : Same s (clearApplets core st s) := by
  unfold clearApplets
  try dsimp only
  with_reducible repeat' first
    | apply Same.rfl
    | assumption
    | apply Same.trans (k := endApplet_same)
    | apply Same.foldl
    | intro _
    | dsimp only

theorem modFn_same {f : Fn} {g : FnState → FnState} {s : State} : Same s (modFn f g s) := by
  unfold modFn
  try dsimp only
  with_reducible repeat' first
    | apply Same.rfl
    | assumption
    | apply Same.trans (k := setFn_same)
    | intro _
    | dsimp only

theorem queueCheck_same {k : Nat} {s : State} : Same s (queueCheck k s) := by
  unfold queueCheck
  try dsimp only
  with_reducible repeat' first
    | apply Same.rfl
    | assumption
    | apply Same.trans (k := deliver_same)
    | (simp only [Same.mk]; apply Same.fold)
    | apply Same.ite
    | split
    | intro _
    | dsimp only

theorem voidFn_same {fn : Fn} {s : State} : Same s (voidFn fn s).2 := by
  unfold voidFn
  try dsimp only
  with_reducible repeat' first
    | apply Same.rfl
    | assumption
    | apply Same.trans (k := voidWhere_same)
    | split
    | intro _
    | dsimp only

theorem voidFn_same_then {fn : Fn} {s : State} {s0_ : State} {r_ : _} {s_ : State} (h_ : (voidFn fn s) = (r_, s_)) (k_ : Same s0_ s) : Same s0_ s_ := by
  have j_ := k_.trans (@voidFn_same fn s); rw [h_] at j_; exact j_

theorem clearBme_same {fn : Fn} {s : State} : Same s (clearBme fn s) := by
  unfold clearBme
  try dsimp only
  with_reducible repeat' first
    | apply Same.rfl
    | assumption
    | apply Same.trans (k := logCode_same)
    | apply Same.trans (k := queueError_same)
    | apply Same.trans (k := ringError_same)
    | apply Same.trans (k := modFn_same)
    | apply Same.trans (k := queueCheck_same)
    | apply Same.trans (k := voidFn_same)
    | (apply voidFn_same_then; · assumption)
    | (simp only [Same.mk]; apply Same.fold)
    | apply Same.foldl
    | apply Same.ite
    | split
    | intro _
    | dsimp only

theorem clearEvents_same {fn : Fn} {v : Nat} {s : State} : Same s (clearEvents fn v s) := by
  unfold clearEvents
  try dsimp only
  with_reducible repeat' first
    | apply Same.rfl
    | assumption
    | apply Same.trans (k := modFn_same)
    | (simp only [Same.mk]; apply Same.fold)
    | intro _
    | dsimp only

theorem clearSapwood_same {s : State} : Same s (clearSapwood s) := by
  unfold clearSapwood
  try dsimp only
  with_reducible repeat' first
    | apply Same.rfl
    | assumption
    | (simp only [Same.mk]; apply Same.fold)
    | intro _
    | dsimp only

theorem clearcutResume_same {s : State} : Same s (clearcutResume s) := by
  unfold clearcutResume
  try dsimp only
  with_reducible repeat' first
    | apply Same.rfl
    | assumption
    | (simp only [Same.mk]; apply Same.fold)
    | apply Same.ite
    | split
    | intro _
    | dsimp only

theorem firstBlock_same {s : State} : Same s (firstBlock s) := by
  unfold firstBlock
  try dsimp only
  with_reducible repeat' first
    | apply Same.rfl
    | assumption
    | apply Same.trans (k := storeChange_same)
    | apply Same.trans (k := wantCommit_same)
    | split
    | intro _
    | dsimp only

theorem takeSap_same {n : Nat} {s : State} : Same s (takeSap n s).2 := by
  unfold takeSap
  try dsimp only
  with_reducible repeat' first
    | apply Same.rfl
    | assumption
    | apply Same.trans (k := askSap_same)
    | (simp only [Same.mk]; apply Same.fold)
    | split
    | intro _
    | dsimp only

theorem takeSap_same_then {n : Nat} {s : State} {s0_ : State} {r_ : _} {s_ : State} (h_ : (takeSap n s) = (r_, s_)) (k_ : Same s0_ s) : Same s0_ s_ := by
  have j_ := k_.trans (@takeSap_same n s); rw [h_] at j_; exact j_

theorem takeWarden_same {n : Nat} {s : State} : Same s (takeWarden n s).2 := by
  unfold takeWarden
  try dsimp only
  with_reducible repeat' first
    | apply Same.rfl
    | assumption
    | apply Same.trans (k := takeWire_same)
    | (apply takeWire_same_then; · assumption)
    | intro _
    | dsimp only

theorem takeWarden_same_then {n : Nat} {s : State} {s0_ : State} {r_ : _} {s_ : State} (h_ : (takeWarden n s) = (r_, s_)) (k_ : Same s0_ s) : Same s0_ s_ := by
  have j_ := k_.trans (@takeWarden_same n s); rw [h_] at j_; exact j_

theorem takeBoth_same {n : Nat} {m : Nat} {s : State} : Same s (takeBoth n m s).2 := by
  unfold takeBoth
  try dsimp only
  with_reducible repeat' first
    | apply Same.rfl
    | assumption
    | apply Same.trans (k := askSap_same)
    | apply Same.trans (k := askWire_same)
    | apply Same.trans (k := takeSap_same)
    | (apply takeSap_same_then; · assumption)
    | apply Same.trans (k := takeWarden_same)
    | (apply takeWarden_same_then; · assumption)
    | split
    | intro _
    | dsimp only

theorem takeBoth_same_then {n : Nat} {m : Nat} {s : State} {s0_ : State} {r_ : _} {s_ : State} (h_ : (takeBoth n m s) = (r_, s_)) (k_ : Same s0_ s) : Same s0_ s_ := by
  have j_ := k_.trans (@takeBoth_same n m s); rw [h_] at j_; exact j_

theorem takeKeyBits_same {asym : Bool} {n : Nat} {s : State} : Same s (takeKeyBits asym n s).2 := by
  unfold takeKeyBits
  try dsimp only
  with_reducible repeat' first
    | apply Same.rfl
    | assumption
    | apply Same.trans (k := takeSap_same)
    | (apply takeSap_same_then; · assumption)
    | apply Same.trans (k := takeBoth_same)
    | (apply takeBoth_same_then; · assumption)
    | apply Same.ite
    | split
    | intro _
    | dsimp only

theorem takeKeyBits_same_then {asym : Bool} {n : Nat} {s : State} {s0_ : State} {r_ : _} {s_ : State} (h_ : (takeKeyBits asym n s) = (r_, s_)) (k_ : Same s0_ s) : Same s0_ s_ := by
  have j_ := k_.trans (@takeKeyBits_same asym n s); rw [h_] at j_; exact j_

theorem recoverKey_same {slot : Nat} {s : State} : Same s (recoverKey slot s) := by
  unfold recoverKey
  try dsimp only
  with_reducible repeat' first
    | apply Same.rfl
    | assumption
    | apply Same.trans (k := takeKeyBits_same)
    | (apply takeKeyBits_same_then; · assumption)
    | (simp only [Same.mk]; apply Same.fold)
    | apply Same.ite
    | split
    | intro _
    | dsimp only

theorem resumeJournal_same {s : State} : Same s (resumeJournal s) := by
  unfold resumeJournal
  try dsimp only
  with_reducible repeat' first
    | apply Same.rfl
    | assumption
    | (simp only [Same.mk]; apply Same.fold)
    | split
    | intro _
    | dsimp only

theorem setStoreState_same {st : StoreState} {s : State} : Same s (setStoreState st s) := by
  unfold setStoreState
  try dsimp only
  with_reducible repeat' first
    | apply Same.rfl
    | assumption
    | apply Same.trans (k := eventAllPfs_same)
    | (simp only [Same.mk]; apply Same.fold)
    | apply Same.ite
    | split
    | intro _
    | dsimp only

theorem recoverDone_same {s : State} : Same s (recoverDone s) := by
  unfold recoverDone
  try dsimp only
  with_reducible repeat' first
    | apply Same.rfl
    | assumption
    | apply Same.trans (k := firstBlock_same)
    | apply Same.trans (k := recoverKey_same)
    | apply Same.trans (k := resumeJournal_same)
    | apply Same.trans (k := setStoreState_same)
    | (simp only [Same.mk]; apply Same.fold)
    | apply Same.foldl
    | split
    | intro _
    | dsimp only

theorem setJring_same {st : JrState} {s : State} : Same s (setJring st s) := by
  unfold setJring
  try dsimp only
  with_reducible repeat' first
    | apply Same.rfl
    | assumption
    | apply Same.trans (k := raiseEvent_same)
    | (simp only [Same.mk]; apply Same.fold)
    | apply Same.ite
    | split
    | intro _
    | dsimp only

theorem closeRecovery_same {ok : Bool} {s : State} : Same s (closeRecovery ok s) := by
  unfold closeRecovery
  try dsimp only
  with_reducible repeat' first
    | apply Same.rfl
    | assumption
    | apply Same.trans (k := setStoreState_same)
    | apply Same.trans (k := recoverDone_same)
    | apply Same.trans (k := setJring_same)
    | (simp only [Same.mk]; apply Same.fold)
    | apply Same.ite
    | split
    | intro _
    | dsimp only

theorem coalesce_same {k : Nat} {s : State} : Same s (coalesce k s) := by
  unfold coalesce
  try dsimp only
  with_reducible repeat' first
    | apply Same.rfl
    | assumption
    | apply Same.trans (k := sendVec_same)
    | apply Same.trans (k := setQ_same)
    | (simp only [Same.mk]; apply Same.fold)
    | apply Same.ite
    | split
    | intro _
    | dsimp only

theorem coldFrom_same {cause : Nat} {s : State} : Same s (coldFrom cause s) := by
  unfold coldFrom
  try dsimp only
  with_reducible repeat' first
    | apply Same.rfl
    | assumption
    | (simp only [Same.mk]; apply Same.fold)
    | split
    | intro _
    | dsimp only

theorem lcWrite_same {isEnd : Bool} {src : LcState} {dst : LcState} {authBy : Nat} {auth : Bytes} {s : State} : Same s (lcWrite isEnd src dst authBy auth s) := by
  unfold lcWrite
  try dsimp only
  with_reducible repeat' first
    | apply Same.rfl
    | assumption
    | (simp only [Same.mk]; apply Same.fold)
    | split
    | intro _
    | dsimp only

theorem lcStep_same {r : LcRun} {x : LcStep} {s : State} : Same s (lcStep r x s) := by
  unfold lcStep
  try dsimp only
  with_reducible repeat' first
    | apply Same.rfl
    | assumption
    | apply Same.trans (k := lcWrite_same)
    | (simp only [Same.mk]; apply Same.fold)
    | split
    | intro _
    | dsimp only

theorem lcTearEntry_same {v : Nat} {r : LcRun} {x : LcStep} {s : State} : Same s (lcTearEntry v r x s) := by
  unfold lcTearEntry
  try dsimp only
  with_reducible repeat' first
    | apply Same.rfl
    | assumption
    | apply Same.trans (k := lcStep_same)
    | (simp only [Same.mk]; apply Same.fold)
    | split
    | intro _
    | dsimp only

theorem lcTear_same {s : State} : Same s (lcTear s) := by
  unfold lcTear
  try dsimp only
  with_reducible repeat' first
    | apply Same.rfl
    | assumption
    | apply Same.trans (k := draw_same)
    | (apply draw_same_then; · assumption)
    | apply Same.trans (k := drawBytes_same)
    | (apply drawBytes_same_then; · assumption)
    | apply Same.trans (k := lcTearEntry_same)
    | (simp only [Same.mk]; apply Same.fold)
    | split
    | intro _
    | dsimp only

theorem coldReset_same {cause : Nat} {s : State} : Same s (coldReset cause s) := by
  unfold coldReset
  try dsimp only
  with_reducible repeat' first
    | apply Same.rfl
    | assumption
    | apply Same.trans (k := coldFrom_same)
    | apply Same.trans (k := lcTear_same)
    | intro _
    | dsimp only

theorem coldStart_same {cause : Nat} {s : State} : Same s (coldStart cause s) := by
  unfold coldStart
  try dsimp only
  with_reducible repeat' first
    | apply Same.rfl
    | assumption
    | apply Same.trans (k := coldReset_same)
    | apply Same.ite
    | split
    | intro _
    | dsimp only

theorem resolveWait_same {w : MbWait} {s : State} {r : Resp} {s_ : State} (h : resolveWait w s = some (r, s_)) {s0 : State} (k : Same s0 s) : Same s0 s_ := by
  unfold resolveWait at h
  dsimp only at h
  repeat' split at h
  all_goals first
    | (cases h; exact k)
    | cases h

theorem settleWaits_same {s : State} : Same s (settleWaits s) := by
  unfold settleWaits
  try dsimp only
  with_reducible repeat' first
    | apply Same.rfl
    | assumption
    | apply Same.trans (k := finishMb_same)
    | (apply resolveWait_same; · assumption)
    | apply Same.foldl
    | apply Same.ite
    | split
    | intro _
    | dsimp only

theorem windowDone_same {w : Nat} {k : Kcw} {s : State} : Same s (windowDone w k s) := by
  unfold windowDone
  try dsimp only
  with_reducible repeat' first
    | apply Same.rfl
    | assumption
    | apply Same.trans (k := deliver_same)
    | (simp only [Same.mk]; apply Same.fold)
    | apply Same.foldl
    | apply Same.ite
    | split
    | intro _
    | dsimp only

theorem windowsSettle_same {s : State} : Same s (windowsSettle s) := by
  unfold windowsSettle
  try dsimp only
  with_reducible repeat' first
    | apply Same.rfl
    | assumption
    | apply Same.trans (k := windowDone_same)
    | apply Same.foldl
    | apply Same.ite
    | split
    | intro _
    | dsimp only

theorem commitCovers_same {s : State} : Same s (commitCovers s) := by
  unfold commitCovers
  try dsimp only
  with_reducible repeat' first
    | apply Same.rfl
    | assumption
    | apply Same.trans (k := settleWaits_same)
    | apply Same.trans (k := windowsSettle_same)
    | (simp only [Same.mk]; apply Same.fold)
    | apply Same.foldl
    | apply Same.ite
    | split
    | intro _
    | dsimp only

theorem commitStop.stopRec_same {mb : Mb} {q : Req} {s : State} : Same s (commitStop.stopRec mb q s) := by
  unfold commitStop.stopRec
  try dsimp only
  with_reducible repeat' first
    | apply Same.rfl
    | assumption
    | apply Same.trans (k := logCode_same)
    | apply Same.foldl
    | apply Same.ite
    | split
    | intro _
    | dsimp only

theorem commitStop_same {s : State} : Same s (commitStop s) := by
  unfold commitStop
  try dsimp only
  with_reducible repeat' first
    | apply Same.rfl
    | assumption
    | apply Same.trans (k := finishMb_same)
    | apply Same.trans (k := commitStop.stopRec_same)
    | (simp only [Same.mk]; apply Same.fold)
    | apply Same.foldl
    | split
    | intro _
    | dsimp only

theorem loopOne_same {core l : Nat} {a n : DWord} {len : Nat} {s : State} {v : DWord} {b : Bool} {s_ : State} (h : loopOne core l a n len s = some (v, b, s_)) {s0 : State} (k : Same s0 s) : Same s0 s_ := by
  unfold loopOne at h
  dsimp only at h
  repeat' split at h
  all_goals first
    | (cases h; exact k.trans setCsr_same)
    | cases h

theorem stepEnd_same {core : Nat} {s : State} : Same s (stepEnd core s) := by
  unfold stepEnd
  try dsimp only
  with_reducible repeat' first
    | apply Same.rfl
    | assumption
    | (simp only [Same.mk]; apply Same.fold)
    | apply Same.ite
    | split
    | intro _
    | dsimp only

theorem complete_same {core : Nat} {a : DWord} {len : Nat} {n : DWord} {s : State} : Same s (complete core a len n s) := by
  unfold complete
  try dsimp only
  with_reducible repeat' first
    | apply Same.rfl
    | assumption
    | apply Same.trans (k := setCore_same)
    | (apply loopOne_same; · assumption)
    | apply Same.trans (k := stepEnd_same)
    | (simp only [Same.mk]; apply Same.fold)
    | split
    | intro _
    | dsimp only

theorem complete4_same {core : Nat} {s : State} : Same s (complete4 core s) := by
  unfold complete4
  try dsimp only
  with_reducible repeat' first
    | apply Same.rfl
    | assumption
    | apply Same.trans (k := complete_same)
    | split
    | intro _
    | dsimp only

theorem completeEpoch_same {s : State} : Same s (completeEpoch s) := by
  unfold completeEpoch
  try dsimp only
  with_reducible repeat' first
    | apply Same.rfl
    | assumption
    | (simp only [Same.mk]; apply Same.fold)
    | intro _
    | dsimp only

theorem consume_same {mb : Mb} {reqId : Nat} {id : Nat} {op : Nat} {s : State} : Same s (consume mb reqId id op s) := by
  unfold consume
  try dsimp only
  with_reducible repeat' first
    | apply Same.rfl
    | assumption
    | apply Same.trans (k := setMb_same)
    | apply Same.trans (k := cancelApprovals_same)
    | (simp only [Same.mk]; apply Same.fold)
    | split
    | intro _
    | dsimp only

theorem consumeNonce_same {s : State} : Same s (consumeNonce s) := by
  unfold consumeNonce
  try dsimp only
  with_reducible repeat' first
    | apply Same.rfl
    | assumption
    | (simp only [Same.mk]; apply Same.fold)
    | intro _
    | dsimp only

theorem wakeCalls_same {core : Nat} {s : State} : Same s (wakeCalls core s) := by
  unfold wakeCalls
  try dsimp only
  with_reducible repeat' first
    | apply Same.rfl
    | assumption
    | apply Same.trans (k := setCore_same)
    | apply Same.trans (k := modApplet_same)
    | (simp only [Same.mk]; apply Same.fold)
    | apply Same.foldl
    | apply Same.ite
    | split
    | intro _
    | dsimp only

theorem gateFinish_same {g : GateCall} {resp : Bytes} {s : State} : Same s (gateFinish g resp s) := by
  unfold gateFinish
  try dsimp only
  with_reducible repeat' first
    | apply Same.rfl
    | assumption
    | apply Same.trans (k := setCore_same)
    | apply Same.trans (k := fabWrite_same)
    | apply Same.trans (k := wakeCalls_same)
    | (simp only [Same.mk]; apply Same.fold)
    | apply Same.ite
    | split
    | intro _
    | dsimp only

theorem coreJobsEnd_same {core : Nat} {s : State} : Same s (coreJobsEnd core s) := by
  unfold coreJobsEnd
  try dsimp only
  with_reducible repeat' first
    | apply Same.rfl
    | assumption
    | apply Same.trans (k := abortWhere_same)
    | apply Same.trans (k := gateFinish_same)
    | apply Same.foldl
    | split
    | intro _
    | dsimp only

theorem coreRec_same {core : Nat} {lost : Bool} {s : State} : Same s (coreRec core lost s) := by
  unfold coreRec
  try dsimp only
  with_reducible repeat' first
    | apply Same.rfl
    | assumption
    | apply Same.trans (k := unitRec_same)
    | intro _
    | dsimp only

theorem faultApplets_same {core : Nat} {s : State} : Same s (faultApplets core s) := by
  unfold faultApplets
  try dsimp only
  with_reducible repeat' first
    | apply Same.rfl
    | assumption
    | apply Same.trans (k := modApplet_same)
    | apply Same.trans (k := endApplet_same)
    | (simp only [Same.mk]; apply Same.fold)
    | apply Same.foldl
    | intro _
    | dsimp only

theorem coreGone_same {core : Nat} {lost : Bool} {s : State} : Same s (coreGone core lost s) := by
  unfold coreGone
  try dsimp only
  with_reducible repeat' first
    | apply Same.rfl
    | assumption
    | apply Same.trans (k := capRewrite_same)
    | apply Same.trans (k := coreRec_same)
    | intro _
    | dsimp only

theorem replaceCore_same {core : Nat} {s : State} : Same s (replaceCore core s) := by
  unfold replaceCore
  try dsimp only
  with_reducible repeat' first
    | apply Same.rfl
    | assumption
    | apply Same.trans (k := setStand_same)
    | apply Same.trans (k := coreGone_same)
    | (simp only [Same.mk]; apply Same.fold)
    | apply Same.ite
    | split
    | intro _
    | dsimp only

theorem nextCores_same {st : Nat} {s : State} : Same s (nextCores st s) := by
  unfold nextCores
  try dsimp only
  with_reducible repeat' first
    | apply Same.rfl
    | assumption
    | apply Same.trans (k := refreshMode_same)
    | apply Same.trans (k := setStand_same)
    | apply Same.trans (k := checkPairs_same)
    | apply Same.trans (k := replaceCore_same)
    | (simp only [Same.mk]; apply Same.fold)
    | apply Same.foldl
    | split
    | intro _
    | dsimp only

theorem coreFail_same {src : Nat} {core : Nat} {inj : Bool} {s : State} : Same s (coreFail src core inj s) := by
  unfold coreFail
  try dsimp only
  with_reducible repeat' first
    | apply Same.rfl
    | assumption
    | apply Same.trans (k := refreshMode_same)
    | apply Same.trans (k := countFault_same)
    | apply Same.trans (k := dropClaim_same)
    | apply Same.trans (k := setCore_same)
    | apply Same.trans (k := cancelCalls_same)
    | apply Same.trans (k := cancelPort_same)
    | apply Same.trans (k := unitReport_same)
    | apply Same.trans (k := capRewrite_same)
    | apply Same.trans (k := checkPairs_same)
    | apply Same.trans (k := coreJobsEnd_same)
    | apply Same.trans (k := coreRec_same)
    | apply Same.trans (k := faultApplets_same)
    | apply Same.trans (k := replaceCore_same)
    | apply Same.trans (k := nextCores_same)
    | (simp only [Same.mk]; apply Same.fold)
    | apply Same.ite
    | split
    | intro _
    | dsimp only

theorem kickWatchdog_same {core : Nat} {s : State} : Same s (kickWatchdog core s) := by
  unfold kickWatchdog
  try dsimp only
  with_reducible repeat' first
    | apply Same.rfl
    | assumption
    | (simp only [Same.mk]; apply Same.fold)
    | intro _
    | dsimp only

theorem endTrapped_same {core : Nat} {s : State} {t : State} : Same t (endTrapped core s t) := by
  unfold endTrapped
  try dsimp only
  with_reducible repeat' first
    | apply Same.rfl
    | assumption
    | apply Same.trans (k := modApplet_same)
    | apply Same.trans (k := endApplet_same)
    | (simp only [Same.mk]; apply Same.fold)
    | apply Same.ite
    | split
    | intro _
    | dsimp only

theorem ownRow_same {core : Nat} {f : State → State} {s : State} (h_f : ∀  y, Same y (f  y)) : Same s (ownRow core f s) := by
  unfold ownRow
  try dsimp only
  with_reducible repeat' first
    | apply Same.rfl
    | assumption
    | apply Same.trans (k := endTrapped_same)
    | apply Same.trans (k := h_f _)
    | intro _
    | dsimp only

theorem putStatus_same {core : Nat} {ie : Bool} {pie : Bool} {mpp : Nat} {s : State} : Same s (putStatus core ie pie mpp s) := by
  unfold putStatus
  try dsimp only
  with_reducible repeat' first
    | apply Same.rfl
    | assumption
    | apply Same.trans (k := setCsr_same)
    | split
    | intro _
    | dsimp only

theorem takeTrap_same {core : Nat} {cause : Nat} {tval : DWord} {epc : DWord} {s : State} : Same s (takeTrap core cause tval epc s) := by
  unfold takeTrap
  try dsimp only
  with_reducible repeat' first
    | apply Same.rfl
    | assumption
    | apply Same.trans (k := setCore_same)
    | apply Same.trans (k := setCsr_same)
    | apply Same.trans (k := stepEnd_same)
    | apply Same.trans (k := putStatus_same)
    | (simp only [Same.mk]; apply Same.fold)
    | apply Same.ite
    | split
    | intro _
    | dsimp only

theorem trap_same {core : Nat} {cause : DWord} {tval : DWord} {s : State} : Same s (trap core cause tval s) := by
  unfold trap
  try dsimp only
  with_reducible repeat' first
    | apply Same.rfl
    | assumption
    | apply Same.trans (k := takeTrap_same)
    | apply Same.ite
    | split
    | intro _
    | dsimp only

theorem coreLocalWrite_same {core : Nat} {o : Nat} {n : Nat} {v : Nat} {s : State} : Same s (coreLocalWrite core o n v s) := by
  unfold coreLocalWrite
  try dsimp only
  with_reducible repeat' first
    | apply Same.rfl
    | assumption
    | apply Same.trans (k := setCore_same)
    | apply Same.trans (k := kickWatchdog_same)
    | apply Same.trans (k := ownRow_same ?_)
    | apply Same.trans (k := trap_same)
    | (simp only [Same.mk]; apply Same.fold)
    | apply Same.ite
    | split
    | intro _
    | dsimp only

theorem execScrub_same {core : Nat} {owner : Nat} {s : State} : SameO s (execScrub core owner s) := by
  unfold execScrub
  try dsimp only
  with_reducible repeat' first
    | apply Same.rfl
    | assumption
    | apply Same.trans (k := setCore_same)
    | apply Same.trans (k := beginScrub_same)
    | apply Same.trans (k := clearApplets_same)
    | (simp only [Same.mk]; apply Same.fold)
    | apply SameO.onUnit
    | apply SameO.next
    | apply Same.ite
    | split
    | intro _
    | dsimp only

theorem coreRegWrite_same {g : Nat} {o : Nat} {n : Nat} {v : Nat} {s : State} : Same s (coreRegWrite g o n v s) := by
  unfold coreRegWrite
  try dsimp only
  with_reducible repeat' first
    | apply Same.rfl
    | assumption
    | apply Same.trans (k := setCore_same)
    | apply execScrub_same
    | (simp only [Same.mk]; apply Same.fold)
    | apply Same.after
    | apply Same.ite
    | split
    | intro _
    | dsimp only

theorem countAccess_same {f : Fn} {s : State} : Same s (countAccess f s) := by
  unfold countAccess
  try dsimp only
  with_reducible repeat' first
    | apply Same.rfl
    | assumption
    | apply Same.trans (k := setFn_same)
    | apply Same.trans (k := raiseEvent_same)
    | (simp only [Same.mk]; apply Same.fold)
    | apply Same.ite
    | split
    | intro _
    | dsimp only

theorem countDoorbell_same {f : Fn} {s : State} : Same s (countDoorbell f s) := by
  unfold countDoorbell
  try dsimp only
  with_reducible repeat' first
    | apply Same.rfl
    | assumption
    | apply Same.trans (k := setFn_same)
    | apply Same.trans (k := raiseEvent_same)
    | (simp only [Same.mk]; apply Same.fold)
    | apply Same.ite
    | split
    | intro _
    | dsimp only

theorem countFree_same {st : Nat} {x : Ctx} {s : State} : Same s (countFree st x s) := by
  unfold countFree
  try dsimp only
  with_reducible repeat' first
    | apply Same.rfl
    | assumption
    | apply Same.trans (k := draw_same)
    | (apply draw_same_then; · assumption)
    | apply Same.trans (k := addServiceDge_same)
    | apply Same.trans (k := addWma_same)
    | apply Same.ite
    | split
    | intro _
    | dsimp only

theorem countTally_same {st : Nat} {x : Ctx} {r : JobEnd} {s : State} : Same s (countTally st x r s) := by
  unfold countTally
  try dsimp only
  with_reducible repeat' first
    | apply Same.rfl
    | assumption
    | apply Same.trans (k := addServiceDge_same)
    | apply Same.trans (k := addWma_same)
    | apply Same.ite
    | split
    | intro _
    | dsimp only

theorem countService_same {x : Ctx} {r : JobEnd} {s : State} : Same s (countService x r s) := by
  unfold countService
  try dsimp only
  with_reducible repeat' first
    | apply Same.rfl
    | assumption
    | apply Same.trans (k := countFree_same)
    | apply Same.trans (k := countTally_same)
    | apply Same.ite
    | split
    | intro _
    | dsimp only

theorem streamDrop_same {c : Nat} {s : State} : Same s (streamDrop c s) := by
  unfold streamDrop
  try dsimp only
  with_reducible repeat' first
    | apply Same.rfl
    | assumption
    | (simp only [Same.mk]; apply Same.fold)
    | intro _
    | dsimp only

theorem countStream_same {c : Nat} {x : Ctx} {whole : Bool} {s : State} : Same s (countStream c x whole s) := by
  unfold countStream
  try dsimp only
  with_reducible repeat' first
    | apply Same.rfl
    | assumption
    | apply Same.trans (k := draw_same)
    | (apply draw_same_then; · assumption)
    | apply Same.trans (k := addDge_same)
    | apply Same.trans (k := streamDrop_same)
    | apply Same.ite
    | split
    | intro _
    | dsimp only

theorem countUnit_same {c : Nat} {x : Ctx} {r : JobEnd} {s : State} : Same s (countUnit c x r s) := by
  unfold countUnit
  try dsimp only
  with_reducible repeat' first
    | apply Same.rfl
    | assumption
    | apply Same.trans (k := countPorts_same)
    | apply Same.trans (k := countService_same)
    | apply Same.trans (k := countStream_same)
    | apply Same.ite
    | split
    | intro _
    | dsimp only

theorem counterInc_same {n : Nat} {step : Nat} {durable : Bool} {k : Counter} {s : State} : Same s (counterInc n step durable k s).2 := by
  unfold counterInc
  try dsimp only
  with_reducible repeat' first
    | apply Same.rfl
    | assumption
    | apply Same.trans (k := storeChange_same)
    | apply Same.trans (k := wantCommit_same)
    | (simp only [Same.mk]; apply Same.fold)
    | apply Same.ite
    | split
    | intro _
    | dsimp only

theorem counterInc_same_then {n : Nat} {step : Nat} {durable : Bool} {k : Counter} {s : State} {s0_ : State} {r_ : _} {s_ : State} (h_ : (counterInc n step durable k s) = (r_, s_)) (k_ : Same s0_ s) : Same s0_ s_ := by
  have j_ := k_.trans (@counterInc_same n step durable k s); rw [h_] at j_; exact j_

theorem durableAns_same {r : Resp} {s : State} : Same s (durableAns r s).2 := by
  unfold durableAns
  try dsimp only
  with_reducible repeat' first
    | apply Same.rfl
    | assumption
    | apply Same.trans (k := wantCommit_same)
    | intro _
    | dsimp only

theorem durableAns_same_then {r : Resp} {s : State} {s0_ : State} {r_ : _} {s_ : State} (h_ : (durableAns r s) = (r_, s_)) (k_ : Same s0_ s) : Same s0_ s_ := by
  have j_ := k_.trans (@durableAns_same r s); rw [h_] at j_; exact j_

theorem maybeDurable_same {durable : Bool} {r : Resp} {s : State} : Same s (maybeDurable durable r s).2 := by
  unfold maybeDurable
  try dsimp only
  with_reducible repeat' first
    | apply Same.rfl
    | assumption
    | apply Same.trans (k := durableAns_same)
    | (apply durableAns_same_then; · assumption)
    | apply Same.ite
    | split
    | intro _
    | dsimp only

theorem maybeDurable_same_then {durable : Bool} {r : Resp} {s : State} {s0_ : State} {r_ : _} {s_ : State} (h_ : (maybeDurable durable r s) = (r_, s_)) (k_ : Same s0_ s) : Same s0_ s_ := by
  have j_ := k_.trans (@maybeDurable_same durable r s); rw [h_] at j_; exact j_

theorem counterIncRun_same {mb : Mb} {q : Req} {s : State} : Same s (counterIncRun mb q s).2 := by
  unfold counterIncRun
  try dsimp only
  with_reducible repeat' first
    | apply Same.rfl
    | assumption
    | apply Same.trans (k := counterInc_same)
    | (apply counterInc_same_then; · assumption)
    | apply Same.trans (k := maybeDurable_same)
    | (apply maybeDurable_same_then; · assumption)
    | (simp only [Same.mk]; apply Same.fold)
    | split
    | intro _
    | dsimp only

theorem counterIncRun_same_then {mb : Mb} {q : Req} {s : State} {s0_ : State} {r_ : _} {s_ : State} (h_ : (counterIncRun mb q s) = (r_, s_)) (k_ : Same s0_ s) : Same s0_ s_ := by
  have j_ := k_.trans (@counterIncRun_same mb q s); rw [h_] at j_; exact j_

theorem createKey_same {n : NewKey} {m : Bytes} {r : Bytes} {pub : Bytes} {s : State} : Same s (createKey n m r pub s).2 := by
  unfold createKey
  try dsimp only
  with_reducible repeat' first
    | apply Same.rfl
    | assumption
    | apply Same.trans (k := storeChange_same)
    | apply Same.trans (k := maybeDurable_same)
    | (apply maybeDurable_same_then; · assumption)
    | (simp only [Same.mk]; apply Same.fold)
    | apply Same.ite
    | split
    | intro _
    | dsimp only

theorem createKey_same_then {n : NewKey} {m : Bytes} {r : Bytes} {pub : Bytes} {s : State} {s0_ : State} {r_ : _} {s_ : State} (h_ : (createKey n m r pub s) = (r_, s_)) (k_ : Same s0_ s) : Same s0_ s_ := by
  have j_ := k_.trans (@createKey_same n m r pub s); rw [h_] at j_; exact j_

theorem credAddRun_same {mb : Mb} {q : Req} {s : State} : Same s (credAddRun mb q s).2 := by
  unfold credAddRun
  try dsimp only
  with_reducible repeat' first
    | apply Same.rfl
    | assumption
    | apply Same.trans (k := ownerChange_same)
    | (simp only [Same.mk]; apply Same.fold)
    | split
    | intro _
    | dsimp only

theorem credAddRun_same_then {mb : Mb} {q : Req} {s : State} {s0_ : State} {r_ : _} {s_ : State} (h_ : (credAddRun mb q s) = (r_, s_)) (k_ : Same s0_ s) : Same s0_ s_ := by
  have j_ := k_.trans (@credAddRun_same mb q s); rw [h_] at j_; exact j_

theorem credRevokeRun_same {a0 : Mb} {q : Req} {s : State} : Same s (credRevokeRun a0 q s).2 := by
  unfold credRevokeRun
  try dsimp only
  with_reducible repeat' first
    | apply Same.rfl
    | assumption
    | apply Same.trans (k := ownerChange_same)
    | (simp only [Same.mk]; apply Same.fold)
    | split
    | intro _
    | dsimp only

theorem credRevokeRun_same_then {a0 : Mb} {q : Req} {s : State} {s0_ : State} {r_ : _} {s_ : State} (h_ : (credRevokeRun a0 q s) = (r_, s_)) (k_ : Same s0_ s) : Same s0_ s_ := by
  have j_ := k_.trans (@credRevokeRun_same a0 q s); rw [h_] at j_; exact j_

theorem csrWrite_same {core : Nat} {a : Nat} {v : DWord} {s : State} : Same s (csrWrite core a v s) := by
  unfold csrWrite
  try dsimp only
  with_reducible repeat' first
    | apply Same.rfl
    | assumption
    | apply Same.trans (k := setCore_same)
    | apply Same.trans (k := cancelCall_same)
    | apply Same.trans (k := setCsr_same)
    | (simp only [Same.mk]; apply Same.fold)
    | apply Same.foldl
    | apply Same.ite
    | split
    | intro _
    | dsimp only

theorem ctxWrite_same {x : Ctx} {w : Nat × Bytes} {s : State} : Same s (ctxWrite x w s) := by
  unfold ctxWrite
  try dsimp only
  with_reducible repeat' first
    | apply Same.rfl
    | assumption
    | apply Same.trans (k := fabWrite_same)
    | apply Same.trans (k := hostWrite_same)
    | split
    | intro _
    | dsimp only

theorem cutService_same {x : Ctx} {s : State} : Same s (cutService x s) := by
  unfold cutService
  try dsimp only
  with_reducible repeat' first
    | apply Same.rfl
    | assumption
    | apply Same.trans (k := countFree_same)
    | split
    | intro _
    | dsimp only

theorem dbgRegWrite_same {core : Nat} {reg : Nat} {v : DWord} {s : State} : Same s (dbgRegWrite core reg v s) := by
  unfold dbgRegWrite
  try dsimp only
  with_reducible repeat' first
    | apply Same.rfl
    | assumption
    | apply Same.trans (k := setCore_same)
    | apply Same.trans (k := setX_same)
    | apply Same.trans (k := csrWrite_same)
    | (simp only [Same.mk]; apply Same.fold)
    | apply Same.ite
    | split
    | intro _
    | dsimp only

theorem grantDebug_same {st : Bytes} {s : State} : Same s (grantDebug st s) := by
  unfold grantDebug
  try dsimp only
  with_reducible repeat' first
    | apply Same.rfl
    | assumption
    | apply Same.trans (k := logCode_same)
    | apply Same.trans (k := measureSet_same)
    | apply Same.trans (k := measureExtend_same)
    | (simp only [Same.mk]; apply Same.fold)
    | apply Same.ite
    | split
    | intro _
    | dsimp only

theorem debugGrantRun_same {mb : Mb} {q : Req} {s : State} : Same s (debugGrantRun mb q s).2 := by
  unfold debugGrantRun
  try dsimp only
  with_reducible repeat' first
    | apply Same.rfl
    | assumption
    | apply Same.trans (k := consumeNonce_same)
    | apply Same.trans (k := grantDebug_same)
    | (simp only [Same.mk]; apply Same.fold)
    | split
    | intro _
    | dsimp only

theorem debugGrantRun_same_then {mb : Mb} {q : Req} {s : State} {s0_ : State} {r_ : _} {s_ : State} (h_ : (debugGrantRun mb q s) = (r_, s_)) (k_ : Same s0_ s) : Same s0_ s_ := by
  have j_ := k_.trans (@debugGrantRun_same mb q s); rw [h_] at j_; exact j_

theorem deliverKek_same {mask : Bytes} {s : State} : Same s (deliverKek mask s) := by
  unfold deliverKek
  try dsimp only
  with_reducible repeat' first
    | apply Same.rfl
    | assumption
    | (simp only [Same.mk]; apply Same.fold)
    | split
    | intro _
    | dsimp only

theorem writeNote_same {inst : Nat} {a : Applet} {n : Note} {s : State} : Same s (writeNote inst a n s) := by
  unfold writeNote
  try dsimp only
  with_reducible repeat' first
    | apply Same.rfl
    | assumption
    | apply Same.trans (k := fabWrite_same)
    | apply Same.trans (k := modApplet_same)
    | (simp only [Same.mk]; apply Same.fold)
    | apply Same.ite
    | split
    | intro _
    | dsimp only

theorem deliverNotes_same {core : Nat} {s : State} : Same s (deliverNotes core s) := by
  unfold deliverNotes
  try dsimp only
  with_reducible repeat' first
    | apply Same.rfl
    | assumption
    | apply Same.trans (k := setCore_same)
    | apply Same.trans (k := writeNote_same)
    | (simp only [Same.mk]; apply Same.fold)
    | apply Same.foldl
    | apply Same.ite
    | split
    | intro _
    | dsimp only

theorem deliverVf_same {n : Nat} {freeze : Bool} {r : Resp} {s : State} : Same s (deliverVf n freeze r s) := by
  unfold deliverVf
  try dsimp only
  with_reducible repeat' first
    | apply Same.rfl
    | assumption
    | apply Same.trans (k := deliver_same)
    | apply Same.foldl
    | apply Same.ite
    | split
    | intro _
    | dsimp only

theorem firebreakConfigRun_same {a0 : Mb} {q : Req} {s : State} : Same s (firebreakConfigRun a0 q s).2 := by
  unfold firebreakConfigRun
  try dsimp only
  with_reducible repeat' first
    | apply Same.rfl
    | assumption
    | (simp only [Same.mk]; apply Same.fold)
    | intro _
    | dsimp only

theorem firebreakConfigRun_same_then {a0 : Mb} {q : Req} {s : State} {s0_ : State} {r_ : _} {s_ : State} (h_ : (firebreakConfigRun a0 q s) = (r_, s_)) (k_ : Same s0_ s) : Same s0_ s_ := by
  have j_ := k_.trans (@firebreakConfigRun_same a0 q s); rw [h_] at j_; exact j_

theorem measureConfig_same {s : State} : Same s (measureConfig s) := by
  unfold measureConfig
  try dsimp only
  with_reducible repeat' first
    | apply Same.rfl
    | assumption
    | apply Same.trans (k := measureSet_same)
    | intro _
    | dsimp only

theorem imageCommitRun_same {a0 : Mb} {q : Req} {s : State} : Same s (imageCommitRun a0 q s).2 := by
  unfold imageCommitRun
  try dsimp only
  with_reducible repeat' first
    | apply Same.rfl
    | assumption
    | apply Same.trans (k := measureConfig_same)
    | (simp only [Same.mk]; apply Same.fold)
    | apply Same.ite
    | split
    | intro _
    | dsimp only

theorem imageCommitRun_same_then {a0 : Mb} {q : Req} {s : State} {s0_ : State} {r_ : _} {s_ : State} (h_ : (imageCommitRun a0 q s) = (r_, s_)) (k_ : Same s0_ s) : Same s0_ s_ := by
  have j_ := k_.trans (@imageCommitRun_same a0 q s); rw [h_] at j_; exact j_

theorem setSlot_same {n : Nat} {x : ImageSlot} {s : State} : Same s (setSlot n x s) := by
  unfold setSlot
  try dsimp only
  with_reducible repeat' first
    | apply Same.rfl
    | assumption
    | (simp only [Same.mk]; apply Same.fold)
    | apply Same.ite
    | split
    | intro _
    | dsimp only

theorem imageStageRun_same {mb : Mb} {q : Req} {s : State} : Same s (imageStageRun mb q s).2 := by
  unfold imageStageRun
  try dsimp only
  with_reducible repeat' first
    | apply Same.rfl
    | assumption
    | apply Same.trans (k := measureConfig_same)
    | apply Same.trans (k := setSlot_same)
    | (simp only [Same.mk]; apply Same.fold)
    | apply Same.ite
    | split
    | intro _
    | dsimp only

theorem imageStageRun_same_then {mb : Mb} {q : Req} {s : State} {s0_ : State} {r_ : _} {s_ : State} (h_ : (imageStageRun mb q s) = (r_, s_)) (k_ : Same s0_ s) : Same s0_ s_ := by
  have j_ := k_.trans (@imageStageRun_same mb q s); rw [h_] at j_; exact j_

theorem keyDeriveEnd_same {q : Req} {key : Bytes} {s : State} : Same s (keyDeriveEnd q key s).2 := by
  unfold keyDeriveEnd
  try dsimp only
  with_reducible repeat' first
    | apply Same.rfl
    | assumption
    | apply Same.trans (k := takeSap_same)
    | (apply takeSap_same_then; · assumption)
    | apply Same.trans (k := createKey_same)
    | (apply createKey_same_then; · assumption)
    | split
    | intro _
    | dsimp only

theorem keyDeriveEnd_same_then {q : Req} {key : Bytes} {s : State} {s0_ : State} {r_ : _} {s_ : State} (h_ : (keyDeriveEnd q key s) = (r_, s_)) (k_ : Same s0_ s) : Same s0_ s_ := by
  have j_ := k_.trans (@keyDeriveEnd_same q key s); rw [h_] at j_; exact j_

theorem hucTake_same {h : Nat} {rs : List HucReq} {s : State} : Same s (hucTake h rs s) := by
  unfold hucTake
  try dsimp only
  with_reducible repeat' first
    | apply Same.rfl
    | assumption
    | apply Same.trans (k := setStand_same)
    | apply Same.trans (k := askWire_same)
    | (simp only [Same.mk]; apply Same.fold)
    | apply Same.ite
    | split
    | intro _
    | dsimp only

theorem hucPut_same {h : Nat} {src : HucSrc} {blocks : Nat} {s : State} : Same s (hucPut h src blocks s) := by
  unfold hucPut
  try dsimp only
  with_reducible repeat' first
    | apply Same.rfl
    | assumption
    | apply Same.trans (k := hucTake_same)
    | (simp only [Same.mk]; apply Same.fold)
    | intro _
    | dsimp only

theorem useHeldAt_same {home : Nat} {mb : Mb} {slot : Nat} {k : KeyRec} {blocks : Nat} {j : MbJob} {s : State} : Same s (useHeldAt home mb slot k blocks j s).2 := by
  unfold useHeldAt
  try dsimp only
  with_reducible repeat' first
    | apply Same.rfl
    | assumption
    | apply Same.trans (k := setMb_same)
    | apply Same.trans (k := hucPut_same)
    | (simp only [Same.mk]; apply Same.fold)
    | apply Same.ite
    | split
    | intro _
    | dsimp only

theorem useHeldAt_same_then {home : Nat} {mb : Mb} {slot : Nat} {k : KeyRec} {blocks : Nat} {j : MbJob} {s : State} {s0_ : State} {r_ : _} {s_ : State} (h_ : (useHeldAt home mb slot k blocks j s) = (r_, s_)) (k_ : Same s0_ s) : Same s0_ s_ := by
  have j_ := k_.trans (@useHeldAt_same home mb slot k blocks j s); rw [h_] at j_; exact j_

theorem useHeld_same {mb : Mb} {slot : Nat} {k : KeyRec} {blocks : Nat} {j : MbJob} {s : State} : Same s (useHeld mb slot k blocks j s).2 := by
  unfold useHeld
  try dsimp only
  with_reducible repeat' first
    | apply Same.rfl
    | assumption
    | apply Same.trans (k := useHeldAt_same)
    | (apply useHeldAt_same_then; · assumption)
    | intro _
    | dsimp only

theorem useHeld_same_then {mb : Mb} {slot : Nat} {k : KeyRec} {blocks : Nat} {j : MbJob} {s : State} {s0_ : State} {r_ : _} {s_ : State} (h_ : (useHeld mb slot k blocks j s) = (r_, s_)) (k_ : Same s0_ s) : Same s0_ s_ := by
  have j_ := k_.trans (@useHeld_same mb slot k blocks j s); rw [h_] at j_; exact j_

theorem useKey_same {mb : Mb} {slot : Nat} {k : KeyRec} {blocks : Nat} {s : State} : Same s (useKey mb slot k blocks s).2 := by
  unfold useKey
  try dsimp only
  with_reducible repeat' first
    | apply Same.rfl
    | assumption
    | apply Same.trans (k := setMb_same)
    | apply Same.trans (k := extendUses_same)
    | apply Same.trans (k := chargeUse_same)
    | apply Same.trans (k := useSapwood_same)
    | apply Same.trans (k := useHeld_same)
    | (apply useHeld_same_then; · assumption)
    | (simp only [Same.mk]; apply Same.fold)
    | apply Same.ite
    | split
    | intro _
    | dsimp only

theorem useKey_same_then {mb : Mb} {slot : Nat} {k : KeyRec} {blocks : Nat} {s : State} {s0_ : State} {r_ : _} {s_ : State} (h_ : (useKey mb slot k blocks s) = (r_, s_)) (k_ : Same s0_ s) : Same s0_ s_ := by
  have j_ := k_.trans (@useKey_same mb slot k blocks s); rw [h_] at j_; exact j_

theorem keyDeriveRun_same {mb : Mb} {q : Req} {s : State} : Same s (keyDeriveRun mb q s).2 := by
  unfold keyDeriveRun
  try dsimp only
  with_reducible repeat' first
    | apply Same.rfl
    | assumption
    | apply Same.trans (k := keyDeriveEnd_same)
    | (apply keyDeriveEnd_same_then; · assumption)
    | apply Same.trans (k := useKey_same)
    | (apply useKey_same_then; · assumption)
    | split
    | intro _
    | dsimp only

theorem keyDeriveRun_same_then {mb : Mb} {q : Req} {s : State} {s0_ : State} {r_ : _} {s_ : State} (h_ : (keyDeriveRun mb q s) = (r_, s_)) (k_ : Same s0_ s) : Same s0_ s_ := by
  have j_ := k_.trans (@keyDeriveRun_same mb q s); rw [h_] at j_; exact j_

theorem revoke_same {slot : Nat} {replace : Bool} {uses : Nat} {drain : Nat} {s : State} : Same s (revoke slot replace uses drain s) := by
  unfold revoke
  try dsimp only
  with_reducible repeat' first
    | apply Same.rfl
    | assumption
    | apply Same.trans (k := storeChange_same)
    | apply Same.trans (k := wantCommit_same)
    | (simp only [Same.mk]; apply Same.fold)
    | split
    | intro _
    | dsimp only

theorem keyDestroyRun_same {a0 : Mb} {q : Req} {s : State} : Same s (keyDestroyRun a0 q s).2 := by
  unfold keyDestroyRun
  try dsimp only
  with_reducible repeat' first
    | apply Same.rfl
    | assumption
    | apply Same.trans (k := revoke_same)
    | split
    | intro _
    | dsimp only

theorem keyDestroyRun_same_then {a0 : Mb} {q : Req} {s : State} {s0_ : State} {r_ : _} {s_ : State} (h_ : (keyDestroyRun a0 q s) = (r_, s_)) (k_ : Same s0_ s) : Same s0_ s_ := by
  have j_ := k_.trans (@keyDestroyRun_same a0 q s); rw [h_] at j_; exact j_

theorem exportEnd_same {mb : Mb} {q : Req} {blob : Bytes} {s : State} : Same s (exportEnd mb q blob s).2 := by
  unfold exportEnd
  try dsimp only
  with_reducible repeat' first
    | apply Same.rfl
    | assumption
    | apply Same.trans (k := blobWrite_same)
    | (apply blobWrite_same_then; · assumption)
    | (simp only [Same.mk]; apply Same.fold)
    | apply Same.ite
    | split
    | intro _
    | dsimp only

theorem exportEnd_same_then {mb : Mb} {q : Req} {blob : Bytes} {s : State} {s0_ : State} {r_ : _} {s_ : State} (h_ : (exportEnd mb q blob s) = (r_, s_)) (k_ : Same s0_ s) : Same s0_ s_ := by
  have j_ := k_.trans (@exportEnd_same mb q blob s); rw [h_] at j_; exact j_

theorem keyExportRun_same {mb : Mb} {q : Req} {s : State} : Same s (keyExportRun mb q s).2 := by
  unfold keyExportRun
  try dsimp only
  with_reducible repeat' first
    | apply Same.rfl
    | assumption
    | apply Same.trans (k := takeWarden_same)
    | (apply takeWarden_same_then; · assumption)
    | apply Same.trans (k := useKey_same)
    | (apply useKey_same_then; · assumption)
    | apply Same.trans (k := exportEnd_same)
    | (apply exportEnd_same_then; · assumption)
    | apply Same.ite
    | split
    | intro _
    | dsimp only

theorem keyExportRun_same_then {mb : Mb} {q : Req} {s : State} {s0_ : State} {r_ : _} {s_ : State} (h_ : (keyExportRun mb q s) = (r_, s_)) (k_ : Same s0_ s) : Same s0_ s_ := by
  have j_ := k_.trans (@keyExportRun_same mb q s); rw [h_] at j_; exact j_

theorem keyGenerateRun_same {a0 : Mb} {q : Req} {s : State} : Same s (keyGenerateRun a0 q s).2 := by
  unfold keyGenerateRun
  try dsimp only
  with_reducible repeat' first
    | apply Same.rfl
    | assumption
    | apply Same.trans (k := takeKeyBits_same)
    | (apply takeKeyBits_same_then; · assumption)
    | apply Same.trans (k := createKey_same)
    | (apply createKey_same_then; · assumption)
    | split
    | intro _
    | dsimp only

theorem keyGenerateRun_same_then {a0 : Mb} {q : Req} {s : State} {s0_ : State} {r_ : _} {s_ : State} (h_ : (keyGenerateRun a0 q s) = (r_, s_)) (k_ : Same s0_ s) : Same s0_ s_ := by
  have j_ := k_.trans (@keyGenerateRun_same a0 q s); rw [h_] at j_; exact j_

theorem importEnd_same {q : Req} {w : KeyRec} {blob : Bytes} {s : State} : Same s (importEnd q w blob s).2 := by
  unfold importEnd
  try dsimp only
  with_reducible repeat' first
    | apply Same.rfl
    | assumption
    | apply Same.trans (k := takeSap_same)
    | (apply takeSap_same_then; · assumption)
    | apply Same.trans (k := createKey_same)
    | (apply createKey_same_then; · assumption)
    | split
    | intro _
    | dsimp only

theorem importEnd_same_then {q : Req} {w : KeyRec} {blob : Bytes} {s : State} {s0_ : State} {r_ : _} {s_ : State} (h_ : (importEnd q w blob s) = (r_, s_)) (k_ : Same s0_ s) : Same s0_ s_ := by
  have j_ := k_.trans (@importEnd_same q w blob s); rw [h_] at j_; exact j_

theorem keyImportRun_same {mb : Mb} {q : Req} {s : State} : Same s (keyImportRun mb q s).2 := by
  unfold keyImportRun
  try dsimp only
  with_reducible repeat' first
    | apply Same.rfl
    | assumption
    | apply Same.trans (k := createKey_same)
    | (apply createKey_same_then; · assumption)
    | apply Same.trans (k := useKey_same)
    | (apply useKey_same_then; · assumption)
    | apply Same.trans (k := importEnd_same)
    | (apply importEnd_same_then; · assumption)
    | apply Same.ite
    | split
    | intro _
    | dsimp only

theorem keyImportRun_same_then {mb : Mb} {q : Req} {s : State} {s0_ : State} {r_ : _} {s_ : State} (h_ : (keyImportRun mb q s) = (r_, s_)) (k_ : Same s0_ s) : Same s0_ s_ := by
  have j_ := k_.trans (@keyImportRun_same mb q s); rw [h_] at j_; exact j_

end Sys2Proof.Machine
end

