-- ==== Sys2Proof/Laws/Apart3.lean ====
section
/-! SUPPORT. Operations and meanings that leave the queue, the clock and the COMMIT partition alone, callees first (3 of 6). -/

namespace Sys2Proof.Machine

theorem keyReplaceRun_same {a0 : Mb} {q : Req} {s : State} : Same s (keyReplaceRun a0 q s).2 := by
  unfold keyReplaceRun
  try dsimp only
  with_reducible repeat' first
    | apply Same.rfl
    | assumption
    | apply Same.trans (k := revoke_same)
    | split
    | intro _
    | dsimp only

theorem keyReplaceRun_same_then {a0 : Mb} {q : Req} {s : State} {s0_ : State} {r_ : _} {s_ : State} (h_ : (keyReplaceRun a0 q s) = (r_, s_)) (k_ : Same s0_ s) : Same s0_ s_ := by
  have j_ := k_.trans (@keyReplaceRun_same a0 q s); rw [h_] at j_; exact j_

theorem keySetAttrRun_same {mb : Mb} {q : Req} {s : State} : Same s (keySetAttrRun mb q s).2 := by
  unfold keySetAttrRun
  try dsimp only
  with_reducible repeat' first
    | apply Same.rfl
    | assumption
    | apply Same.trans (k := storeChange_same)
    | apply Same.trans (k := durableAns_same)
    | (apply durableAns_same_then; · assumption)
    | (simp only [Same.mk]; apply Same.fold)
    | apply Same.ite
    | split
    | intro _
    | dsimp only

theorem keySetAttrRun_same_then {mb : Mb} {q : Req} {s : State} {s0_ : State} {r_ : _} {s_ : State} (h_ : (keySetAttrRun mb q s) = (r_, s_)) (k_ : Same s0_ s) : Same s0_ s_ := by
  have j_ := k_.trans (@keySetAttrRun_same mb q s); rw [h_] at j_; exact j_

theorem lcBegin_same {mb : Mb} {q : Req} {src : LcState} {dst : LcState} {auth : LcAuth} {text : Bytes} {entryNo : Bool} {todo : List LcStep} {s : State} : Same s (lcBegin mb q src dst auth text entryNo todo s).2 := by
  unfold lcBegin
  try dsimp only
  with_reducible repeat' first
    | apply Same.rfl
    | assumption
    | apply Same.trans (k := setMb_same)
    | (simp only [Same.mk]; apply Same.fold)
    | intro _
    | dsimp only

theorem lcBegin_same_then {mb : Mb} {q : Req} {src : LcState} {dst : LcState} {auth : LcAuth} {text : Bytes} {entryNo : Bool} {todo : List LcStep} {s : State} {s0_ : State} {r_ : _} {s_ : State} (h_ : (lcBegin mb q src dst auth text entryNo todo s) = (r_, s_)) (k_ : Same s0_ s) : Same s0_ s_ := by
  have j_ := k_.trans (@lcBegin_same mb q src dst auth text entryNo todo s); rw [h_] at j_; exact j_

theorem lcDone_same {r : LcRun} {s : State} : Same s (lcDone r s) := by
  unfold lcDone
  try dsimp only
  with_reducible repeat' first
    | apply Same.rfl
    | assumption
    | apply Same.trans (k := logCode_same)
    | (simp only [Same.mk]; apply Same.fold)
    | intro _
    | dsimp only

theorem lcAdvance_same {s : State} : Same s (lcAdvance s) := by
  unfold lcAdvance
  try dsimp only
  with_reducible repeat' first
    | apply Same.rfl
    | assumption
    | apply Same.trans (k := lcStep_same)
    | apply Same.trans (k := lcDone_same)
    | (simp only [Same.mk]; apply Same.fold)
    | apply Same.ite
    | split
    | intro _
    | dsimp only

theorem lcContinue_same {r : LcRun} {s : State} : Same s (lcContinue r s).2 := by
  unfold lcContinue
  try dsimp only
  with_reducible repeat' first
    | apply Same.rfl
    | assumption
    | apply Same.trans (k := lcAdvance_same)
    | apply Same.ite
    | split
    | intro _
    | dsimp only

theorem lcContinue_same_then {r : LcRun} {s : State} {s0_ : State} {r_ : _} {s_ : State} (h_ : (lcContinue r s) = (r_, s_)) (k_ : Same s0_ s) : Same s0_ s_ := by
  have j_ := k_.trans (@lcContinue_same r s); rw [h_] at j_; exact j_

theorem lcToProductionRun_same {mb : Mb} {q : Req} {s : State} : Same s (lcToProductionRun mb q s).2 := by
  unfold lcToProductionRun
  try dsimp only
  with_reducible repeat' first
    | apply Same.rfl
    | assumption
    | apply Same.trans (k := writeAnchor_same)
    | apply Same.trans (k := lcBegin_same)
    | (apply lcBegin_same_then; · assumption)
    | apply Same.trans (k := lcContinue_same)
    | (apply lcContinue_same_then; · assumption)
    | split
    | intro _
    | dsimp only

theorem lcToProductionRun_same_then {mb : Mb} {q : Req} {s : State} {s0_ : State} {r_ : _} {s_ : State} (h_ : (lcToProductionRun mb q s) = (r_, s_)) (k_ : Same s0_ s) : Same s0_ s_ := by
  have j_ := k_.trans (@lcToProductionRun_same mb q s); rw [h_] at j_; exact j_

theorem logClearRun_same {a0 : Mb} {a1 : Req} {s : State} : Same s (logClearRun a0 a1 s).2 := by
  unfold logClearRun
  try dsimp only
  with_reducible repeat' first
    | apply Same.rfl
    | assumption
    | (simp only [Same.mk]; apply Same.fold)
    | apply Same.foldl
    | split
    | intro _
    | dsimp only

theorem logClearRun_same_then {a0 : Mb} {a1 : Req} {s : State} {s0_ : State} {r_ : _} {s_ : State} (h_ : (logClearRun a0 a1 s) = (r_, s_)) (k_ : Same s0_ s) : Same s0_ s_ := by
  have j_ := k_.trans (@logClearRun_same a0 a1 s); rw [h_] at j_; exact j_

theorem lookoutConfigRun_same {a0 : Mb} {q : Req} {s : State} : Same s (lookoutConfigRun a0 q s).2 := by
  unfold lookoutConfigRun
  try dsimp only
  with_reducible repeat' first
    | apply Same.rfl
    | assumption
    | apply Same.trans (k := lkoLine_same)
    | apply Same.trans (k := measureSet_same)
    | apply Same.trans (k := measureExtend_same)
    | (simp only [Same.mk]; apply Same.fold)
    | apply Same.foldl
    | split
    | intro _
    | dsimp only

theorem lookoutConfigRun_same_then {a0 : Mb} {q : Req} {s : State} {s0_ : State} {r_ : _} {s_ : State} (h_ : (lookoutConfigRun a0 q s) = (r_, s_)) (k_ : Same s0_ s) : Same s0_ s_ := by
  have j_ := k_.trans (@lookoutConfigRun_same a0 q s); rw [h_] at j_; exact j_

theorem dgeWord_same {g : Nat} {w : DWord} {last : Bool} {d : Dge} {s : State} : Same s (dgeWord g w last d s) := by
  unfold dgeWord
  try dsimp only
  with_reducible repeat' first
    | apply Same.rfl
    | assumption
    | apply Same.trans (k := putDge_same)
    | (simp only [Same.mk]; apply Same.fold)
    | apply Same.ite
    | split
    | intro _
    | dsimp only

theorem dgeLease_same {g : Nat} {h : Nat} {owner : Nat} {slot : Nat} {k : KeyRec} {d : Dge} {s : State} : Same s (dgeLease g h owner slot k d s) := by
  unfold dgeLease
  try dsimp only
  with_reducible repeat' first
    | apply Same.rfl
    | assumption
    | apply Same.trans (k := putDge_same)
    | apply Same.trans (k := chargeUse_same)
    | apply Same.trans (k := useSapwood_same)
    | (simp only [Same.mk]; apply Same.fold)
    | split
    | intro _
    | dsimp only

theorem keyHandle_same {g : Nat} {t : FabricTag} {h : Nat} {d : Dge} {s : State} : Same s (keyHandle g t h d s) := by
  unfold keyHandle
  try dsimp only
  with_reducible repeat' first
    | apply Same.rfl
    | assumption
    | apply Same.trans (k := putDge_same)
    | apply Same.trans (k := dgeLease_same)
    | (simp only [Same.mk]; apply Same.fold)
    | apply Same.ite
    | split
    | intro _
    | dsimp only

theorem dgeEffect_same {g : Nat} {t : FabricTag} {o : Nat} {n : Nat} {v : Nat} {d : Dge} {s : State} : Same s (dgeEffect g t o n v d s) := by
  unfold dgeEffect
  try dsimp only
  with_reducible repeat' first
    | apply Same.rfl
    | assumption
    | apply Same.trans (k := putDge_same)
    | apply Same.trans (k := dgeWord_same)
    | apply Same.trans (k := keyHandle_same)
    | (simp only [Same.mk]; apply Same.fold)
    | apply Same.ite
    | split
    | intro _
    | dsimp only

theorem dgeClaimed_same {g : Nat} {w : DgeWrite} {s : State} : Same s (dgeClaimed g w s) := by
  unfold dgeClaimed
  try dsimp only
  with_reducible repeat' first
    | apply Same.rfl
    | assumption
    | apply Same.trans (k := putDge_same)
    | apply Same.trans (k := dgeEffect_same)
    | (simp only [Same.mk]; apply Same.fold)
    | apply Same.ite
    | split
    | intro _
    | dsimp only

theorem dgeTurn_same {g : Nat} {w : DgeWrite} {s : State} : Same s (dgeTurn g w s) := by
  unfold dgeTurn
  try dsimp only
  with_reducible repeat' first
    | apply Same.rfl
    | assumption
    | apply Same.trans (k := setDge_same)
    | apply Same.trans (k := extendUses_same)
    | apply Same.trans (k := dgeClaimed_same)
    | (simp only [Same.mk]; apply Same.fold)
    | apply Same.ite
    | split
    | intro _
    | dsimp only

theorem dgeResume_same {g : Nat} {s : State} : Same s (dgeResume g s) := by
  unfold dgeResume
  try dsimp only
  with_reducible repeat' first
    | apply Same.rfl
    | assumption
    | apply Same.trans (k := setDge_same)
    | apply Same.trans (k := dgeTurn_same)
    | (simp only [Same.mk]; apply Same.fold)
    | apply Same.foldl
    | apply Same.ite
    | split
    | intro _
    | dsimp only

theorem drainDges_same {s : State} : Same s (drainDges s) := by
  unfold drainDges
  try dsimp only
  with_reducible repeat' first
    | apply Same.rfl
    | assumption
    | apply Same.trans (k := putDge_same)
    | apply Same.trans (k := dgeResume_same)
    | apply Same.foldl
    | apply Same.ite
    | split
    | intro _
    | dsimp only

theorem dropWait_same {w : CtxWait} {s : State} : Same s (dropWait w s) := by
  unfold dropWait
  try dsimp only
  with_reducible repeat' first
    | apply Same.rfl
    | assumption
    | (simp only [Same.mk]; apply Same.fold)
    | intro _
    | dsimp only

theorem freezeEnded_same {n : Nat} {s : State} : Same s (freezeEnded n s) := by
  unfold freezeEnded
  try dsimp only
  with_reducible repeat' first
    | apply Same.rfl
    | assumption
    | apply Same.trans (k := notifyApplets_same)
    | apply Same.trans (k := refreshMode_same)
    | apply Same.trans (k := drainDges_same)
    | apply Same.trans (k := dropWait_same)
    | apply Same.ite
    | split
    | intro _
    | dsimp only

theorem lookoutReleaseRun_same {a0 : Mb} {q : Req} {s : State} : Same s (lookoutReleaseRun a0 q s).2 := by
  unfold lookoutReleaseRun
  try dsimp only
  with_reducible repeat' first
    | apply Same.rfl
    | assumption
    | apply Same.trans (k := setLkoSrc_same)
    | apply Same.trans (k := freezeEnded_same)
    | (simp only [Same.mk]; apply Same.fold)
    | apply Same.foldl
    | split
    | intro _
    | dsimp only

theorem lookoutReleaseRun_same_then {a0 : Mb} {q : Req} {s : State} {s0_ : State} {r_ : _} {s_ : State} (h_ : (lookoutReleaseRun a0 q s) = (r_, s_)) (k_ : Same s0_ s) : Same s0_ s_ := by
  have j_ := k_.trans (@lookoutReleaseRun_same a0 q s); rw [h_] at j_; exact j_

theorem ownerBackupRun_same {mb : Mb} {q : Req} {s : State} : Same s (ownerBackupRun mb q s).2 := by
  unfold ownerBackupRun
  try dsimp only
  with_reducible repeat' first
    | apply Same.rfl
    | assumption
    | apply Same.trans (k := blobWrite_same)
    | (apply blobWrite_same_then; · assumption)
    | apply Same.trans (k := takeWarden_same)
    | (apply takeWarden_same_then; · assumption)
    | apply Same.trans (k := useKey_same)
    | (apply useKey_same_then; · assumption)
    | (simp only [Same.mk]; apply Same.fold)
    | split
    | intro _
    | dsimp only

theorem ownerBackupRun_same_then {mb : Mb} {q : Req} {s : State} {s0_ : State} {r_ : _} {s_ : State} (h_ : (ownerBackupRun mb q s) = (r_, s_)) (k_ : Same s0_ s) : Same s0_ s_ := by
  have j_ := k_.trans (@ownerBackupRun_same mb q s); rw [h_] at j_; exact j_

theorem dropApplets_same {o : Nat} {s : State} : Same s (dropApplets o s) := by
  unfold dropApplets
  try dsimp only
  with_reducible repeat' first
    | apply Same.rfl
    | assumption
    | apply Same.trans (k := setCore_same)
    | apply Same.trans (k := beginScrub_same)
    | apply Same.trans (k := forceStop_same)
    | apply Same.trans (k := unloadApplet_same)
    | (simp only [Same.mk]; apply Same.fold)
    | apply Same.foldl
    | split
    | intro _
    | dsimp only

theorem removeSc_same {id : Nat} {s : State} : Same s (removeSc id s) := by
  unfold removeSc
  try dsimp only
  with_reducible repeat' first
    | apply Same.rfl
    | assumption
    | apply Same.trans (k := removeSa_same)
    | (simp only [Same.mk]; apply Same.fold)
    | apply Same.foldl
    | split
    | intro _
    | dsimp only

theorem removeSecy_same {n : Nat} {s : State} : Same s (removeSecy n s) := by
  unfold removeSecy
  try dsimp only
  with_reducible repeat' first
    | apply Same.rfl
    | assumption
    | apply Same.trans (k := removeSc_same)
    | (simp only [Same.mk]; apply Same.fold)
    | apply Same.foldl
    | split
    | intro _
    | dsimp only

theorem dropSecys_same {o : Nat} {s : State} : Same s (dropSecys o s) := by
  unfold dropSecys
  try dsimp only
  with_reducible repeat' first
    | apply Same.rfl
    | assumption
    | apply Same.trans (k := ethSweep_same)
    | apply Same.trans (k := removeSecy_same)
    | apply Same.foldl
    | intro _
    | dsimp only

theorem finishDelete_same {o : Nat} {s : State} : Same s (finishDelete o s) := by
  unfold finishDelete
  try dsimp only
  with_reducible repeat' first
    | apply Same.rfl
    | assumption
    | apply Same.trans (k := ownerChange_same)
    | apply Same.trans (k := cancelApprovals_same)
    | apply Same.trans (k := dropApplets_same)
    | apply Same.trans (k := dropSecys_same)
    | (simp only [Same.mk]; apply Same.fold)
    | split
    | intro _
    | dsimp only

theorem notifyOwner_same {k : NoteKind} {o : Nat} {s : State} : Same s (notifyOwner k o s) := by
  unfold notifyOwner
  try dsimp only
  with_reducible repeat' first
    | apply Same.rfl
    | assumption
    | (simp only [Same.mk]; apply Same.fold)
    | apply Same.ite
    | split
    | intro _
    | dsimp only

theorem suspendOwner_same {o : Nat} {s : State} : Same s (suspendOwner o s) := by
  unfold suspendOwner
  try dsimp only
  with_reducible repeat' first
    | apply Same.rfl
    | assumption
    | apply Same.trans (k := putOwner_same)
    | apply Same.trans (k := cancelApprovals_same)
    | apply Same.trans (k := notifyOwner_same)
    | (simp only [Same.mk]; apply Same.fold)
    | split
    | intro _
    | dsimp only

theorem ownerDeleteRun_same {a0 : Mb} {q : Req} {s : State} : Same s (ownerDeleteRun a0 q s).2 := by
  unfold ownerDeleteRun
  try dsimp only
  with_reducible repeat' first
    | apply Same.rfl
    | assumption
    | apply Same.trans (k := durableAns_same)
    | (apply durableAns_same_then; · assumption)
    | apply Same.trans (k := revoke_same)
    | apply Same.trans (k := finishDelete_same)
    | apply Same.trans (k := suspendOwner_same)
    | (simp only [Same.mk]; apply Same.fold)
    | apply Same.foldl
    | apply Same.ite
    | split
    | intro _
    | dsimp only

theorem ownerDeleteRun_same_then {a0 : Mb} {q : Req} {s : State} {s0_ : State} {r_ : _} {s_ : State} (h_ : (ownerDeleteRun a0 q s) = (r_, s_)) (k_ : Same s0_ s) : Same s0_ s_ := by
  have j_ := k_.trans (@ownerDeleteRun_same a0 q s); rw [h_] at j_; exact j_

theorem installAns_same {mapAddr : Nat} {r : Install} {s : State} : Same s (installAns mapAddr r s).2 := by
  unfold installAns
  try dsimp only
  with_reducible repeat' first
    | apply Same.rfl
    | assumption
    | apply Same.trans (k := wantCommit_same)
    | (simp only [Same.mk]; apply Same.fold)
    | intro _
    | dsimp only

theorem installAns_same_then {mapAddr : Nat} {r : Install} {s : State} {s0_ : State} {r_ : _} {s_ : State} (h_ : (installAns mapAddr r s) = (r_, s_)) (k_ : Same s0_ s) : Same s0_ s_ := by
  have j_ := k_.trans (@installAns_same mapAddr r s); rw [h_] at j_; exact j_

theorem restoreOf_same {mb : Mb} {q : Req} {i : OwnerImg} {bits : Bytes} {s s_ : State} {x : Install} (h : restoreOf mb q i bits s = .ok (x, s_)) {s0 : State} (k : Same s0 s) : Same s0 s_ := by
  unfold restoreOf at h
  exact installImage_same h k

theorem ownerRestoreRun_same {mb : Mb} {q : Req} {s : State} : Same s (ownerRestoreRun mb q s).2 := by
  unfold ownerRestoreRun
  try dsimp only
  with_reducible repeat' first
    | apply Same.rfl
    | assumption
    | apply Same.trans (k := takeSap_same)
    | (apply takeSap_same_then; · assumption)
    | apply Same.trans (k := useKey_same)
    | (apply useKey_same_then; · assumption)
    | apply Same.trans (k := installAns_same)
    | (apply installAns_same_then; · assumption)
    | (apply restoreOf_same; · assumption)
    | split
    | intro _
    | dsimp only

theorem ownerRestoreRun_same_then {mb : Mb} {q : Req} {s : State} {s0_ : State} {r_ : _} {s_ : State} (h_ : (ownerRestoreRun mb q s) = (r_, s_)) (k_ : Same s0_ s) : Same s0_ s_ := by
  have j_ := k_.trans (@ownerRestoreRun_same mb q s); rw [h_] at j_; exact j_

theorem policyCreateRun_same {a0 : Mb} {q : Req} {s : State} : Same s (policyCreateRun a0 q s).2 := by
  unfold policyCreateRun
  try dsimp only
  with_reducible repeat' first
    | apply Same.rfl
    | assumption
    | apply Same.trans (k := ownerChange_same)
    | (simp only [Same.mk]; apply Same.fold)
    | split
    | intro _
    | dsimp only

theorem policyCreateRun_same_then {a0 : Mb} {q : Req} {s : State} {s0_ : State} {r_ : _} {s_ : State} (h_ : (policyCreateRun a0 q s) = (r_, s_)) (k_ : Same s0_ s) : Same s0_ s_ := by
  have j_ := k_.trans (@policyCreateRun_same a0 q s); rw [h_] at j_; exact j_

theorem policyModifyRun_same {a0 : Mb} {q : Req} {s : State} : Same s (policyModifyRun a0 q s).2 := by
  unfold policyModifyRun
  try dsimp only
  with_reducible repeat' first
    | apply Same.rfl
    | assumption
    | apply Same.trans (k := ownerChange_same)
    | apply Same.trans (k := cancelApprovals_same)
    | (simp only [Same.mk]; apply Same.fold)
    | split
    | intro _
    | dsimp only

theorem policyModifyRun_same_then {a0 : Mb} {q : Req} {s : State} {s0_ : State} {r_ : _} {s_ : State} (h_ : (policyModifyRun a0 q s) = (r_, s_)) (k_ : Same s0_ s) : Same s0_ s_ := by
  have j_ := k_.trans (@policyModifyRun_same a0 q s); rw [h_] at j_; exact j_

theorem replicaExportRun_same {mb : Mb} {q : Req} {s : State} : Same s (replicaExportRun mb q s).2 := by
  unfold replicaExportRun
  try dsimp only
  with_reducible repeat' first
    | apply Same.rfl
    | assumption
    | apply Same.trans (k := putOwner_same)
    | apply Same.trans (k := blobWrite_same)
    | (apply blobWrite_same_then; · assumption)
    | apply Same.trans (k := wantCommit_same)
    | apply Same.trans (k := takeWarden_same)
    | (apply takeWarden_same_then; · assumption)
    | (simp only [Same.mk]; apply Same.fold)
    | apply Same.ite
    | split
    | intro _
    | dsimp only

theorem replicaExportRun_same_then {mb : Mb} {q : Req} {s : State} {s0_ : State} {r_ : _} {s_ : State} (h_ : (replicaExportRun mb q s) = (r_, s_)) (k_ : Same s0_ s) : Same s0_ s_ := by
  have j_ := k_.trans (@replicaExportRun_same mb q s); rw [h_] at j_; exact j_

theorem leaseReady_same {slot : Nat} {k : KeyRec} {s : State} : Same s (leaseReady slot k s).2 := by
  unfold leaseReady
  try dsimp only
  with_reducible repeat' first
    | apply Same.rfl
    | assumption
    | apply Same.trans (k := useSapwood_same)
    | apply Same.ite
    | split
    | intro _
    | dsimp only

theorem leaseReady_same_then {slot : Nat} {k : KeyRec} {s : State} {s0_ : State} {r_ : _} {s_ : State} (h_ : (leaseReady slot k s) = (r_, s_)) (k_ : Same s0_ s) : Same s0_ s_ := by
  have j_ := k_.trans (@leaseReady_same slot k s); rw [h_] at j_; exact j_

theorem pinLanes_same {pair : Nat} {slot : Nat} {gen : Nat} {owner : Nat} {s : State} : Same s (pinLanes pair slot gen owner s) := by
  unfold pinLanes
  try dsimp only
  with_reducible repeat' first
    | apply Same.rfl
    | assumption
    | apply Same.trans (k := bindLane_same)
    | apply Same.foldl
    | intro _
    | dsimp only

theorem saAddRun_same {a0 : Mb} {q : Req} {s : State} : Same s (saAddRun a0 q s).2 := by
  unfold saAddRun
  try dsimp only
  with_reducible repeat' first
    | apply Same.rfl
    | assumption
    | apply Same.trans (k := storeChange_same)
    | apply Same.trans (k := modKey_same)
    | apply Same.trans (k := durableAns_same)
    | (apply durableAns_same_then; · assumption)
    | apply Same.trans (k := leaseReady_same)
    | (apply leaseReady_same_then; · assumption)
    | apply Same.trans (k := pinLanes_same)
    | (simp only [Same.mk]; apply Same.fold)
    | apply Same.ite
    | split
    | intro _
    | dsimp only

theorem saAddRun_same_then {a0 : Mb} {q : Req} {s : State} {s0_ : State} {r_ : _} {s_ : State} (h_ : (saAddRun a0 q s) = (r_, s_)) (k_ : Same s0_ s) : Same s0_ s_ := by
  have j_ := k_.trans (@saAddRun_same a0 q s); rw [h_] at j_; exact j_

theorem svoutCtrlRun_same {a0 : Mb} {q : Req} {s : State} : Same s (svoutCtrlRun a0 q s).2 := by
  unfold svoutCtrlRun
  try dsimp only
  with_reducible repeat' first
    | apply Same.rfl
    | assumption
    | (simp only [Same.mk]; apply Same.fold)
    | apply Same.ite
    | split
    | intro _
    | dsimp only

theorem svoutCtrlRun_same_then {a0 : Mb} {q : Req} {s : State} {s0_ : State} {r_ : _} {s_ : State} (h_ : (svoutCtrlRun a0 q s) = (r_, s_)) (k_ : Same s0_ s) : Same s0_ s_ := by
  have j_ := k_.trans (@svoutCtrlRun_same a0 q s); rw [h_] at j_; exact j_

theorem finishUpdate_same {s : State} : Same s (finishUpdate s) := by
  unfold finishUpdate
  try dsimp only
  with_reducible repeat' first
    | apply Same.rfl
    | assumption
    | apply Same.trans (k := refreshMode_same)
    | (simp only [Same.mk]; apply Same.fold)
    | apply Same.ite
    | split
    | intro _
    | dsimp only

theorem updateApplyRun_same {a0 : Mb} {q : Req} {s : State} : Same s (updateApplyRun a0 q s).2 := by
  unfold updateApplyRun
  try dsimp only
  with_reducible repeat' first
    | apply Same.rfl
    | assumption
    | apply Same.trans (k := refreshMode_same)
    | apply Same.trans (k := finishUpdate_same)
    | (simp only [Same.mk]; apply Same.fold)
    | apply Same.ite
    | split
    | intro _
    | dsimp only

theorem updateApplyRun_same_then {a0 : Mb} {q : Req} {s : State} {s0_ : State} {r_ : _} {s_ : State} (h_ : (updateApplyRun a0 q s) = (r_, s_)) (k_ : Same s0_ s) : Same s0_ s_ := by
  have j_ := k_.trans (@updateApplyRun_same a0 q s); rw [h_] at j_; exact j_

theorem readmit_same {n : Nat} {es : List Suspended} {k : Nat} {s : State} : Same s (readmit n es k s) := by
  unfold readmit
  try dsimp only
  with_reducible repeat' first
    | apply Same.rfl
    | assumption
    | apply Same.trans (k := setQ_same)
    | apply Same.trans (k := admitQ_same)
    | (simp only [Same.mk]; apply Same.fold)
    | split
    | intro _
    | dsimp only

theorem setQueuesState_same {fn : Fn} {a : QState} {b : QState} {s : State} : Same s (setQueuesState fn a b s) := by
  unfold setQueuesState
  try dsimp only
  with_reducible repeat' first
    | apply Same.rfl
    | assumption
    | (simp only [Same.mk]; apply Same.fold)
    | apply Same.ite
    | split
    | intro _
    | dsimp only

theorem voidPrep_same {owner : Nat} {vf : Option Nat} {s : State} : Same s (voidPrep owner vf s) := by
  unfold voidPrep
  try dsimp only
  with_reducible repeat' first
    | apply Same.rfl
    | assumption
    | (simp only [Same.mk]; apply Same.fold)
    | intro _
    | dsimp only

theorem vfThawRun_same {a0 : Mb} {q : Req} {s : State} : Same s (vfThawRun a0 q s).2 := by
  unfold vfThawRun
  try dsimp only
  with_reducible repeat' first
    | apply Same.rfl
    | assumption
    | apply Same.trans (k := setAlloc_same)
    | apply Same.trans (k := readmit_same)
    | apply Same.trans (k := setQueuesState_same)
    | apply Same.trans (k := voidPrep_same)
    | (simp only [Same.mk]; apply Same.fold)
    | apply Same.foldl
    | split
    | intro _
    | dsimp only

theorem vfThawRun_same_then {a0 : Mb} {q : Req} {s : State} {s0_ : State} {r_ : _} {s_ : State} (h_ : (vfThawRun a0 q s) = (r_, s_)) (k_ : Same s0_ s) : Same s0_ s_ := by
  have j_ := k_.trans (@vfThawRun_same a0 q s); rw [h_] at j_; exact j_

theorem worldmapWriteRun_same {a0 : Mb} {q : Req} {s : State} : Same s (worldmapWriteRun a0 q s).2 := by
  unfold worldmapWriteRun
  try dsimp only
  with_reducible repeat' first
    | apply Same.rfl
    | assumption
    | (simp only [Same.mk]; apply Same.fold)
    | apply Same.ite
    | split
    | intro _
    | dsimp only

theorem worldmapWriteRun_same_then {a0 : Mb} {q : Req} {s : State} {s0_ : State} {r_ : _} {s_ : State} (h_ : (worldmapWriteRun a0 q s) = (r_, s_)) (k_ : Same s0_ s) : Same s0_ s_ := by
  have j_ := k_.trans (@worldmapWriteRun_same a0 q s); rw [h_] at j_; exact j_

theorem designatedCmd_same {e : Bool} {op : Nat} {d : Designated} (h : designatedCmd e op = some d) : ∀ b0 b1 y, Same y (d.run b0 b1 y).2 := by
  intro b0 b1 y
  unfold designatedCmd at h
  split at h
  all_goals first
    | (cases h; dsimp only; repeat' first
      | with_reducible apply anchorRefreshRun_same
      | with_reducible apply appletTrustRun_same
      | with_reducible apply calibrateRun_same
      | with_reducible apply credAddRun_same
      | with_reducible apply credRevokeRun_same
      | with_reducible apply debugGrantRun_same
      | with_reducible apply firebreakConfigRun_same
      | with_reducible apply imageCommitRun_same
      | with_reducible apply imageStageRun_same
      | with_reducible apply keyDeriveRun_same
      | with_reducible apply keyDestroyRun_same
      | with_reducible apply keyExportRun_same
      | with_reducible apply keyGenerateRun_same
      | with_reducible apply keyImportRun_same
      | with_reducible apply keyReplaceRun_same
      | with_reducible apply keySetAttrRun_same
      | with_reducible apply lcToProductionRun_same
      | with_reducible apply logClearRun_same
      | with_reducible apply lookoutConfigRun_same
      | with_reducible apply lookoutReleaseRun_same
      | with_reducible apply ownerBackupRun_same
      | with_reducible apply ownerDeleteRun_same
      | with_reducible apply ownerRestoreRun_same
      | with_reducible apply policyCreateRun_same
      | with_reducible apply policyModifyRun_same
      | with_reducible apply replicaExportRun_same
      | with_reducible apply saAddRun_same
      | with_reducible apply svoutCtrlRun_same
      | with_reducible apply updateApplyRun_same
      | with_reducible apply vfThawRun_same
      | with_reducible apply worldmapWriteRun_same
      | (with_reducible apply Same.storeRun)
      | intro _)
    | cases h

theorem writeWithin_same {mb : Mb} {addr : Nat} {max : Nat} {tooLong : Nat} {d : Bytes} {r : Resp} {s : State} : Same s (writeWithin mb addr max tooLong d r s).2 := by
  unfold writeWithin
  try dsimp only
  with_reducible repeat' first
    | apply Same.rfl
    | assumption
    | apply Same.trans (k := blobWrite_same)
    | (apply blobWrite_same_then; · assumption)
    | apply Same.ite
    | split
    | intro _
    | dsimp only

theorem writeWithin_same_then {mb : Mb} {addr : Nat} {max : Nat} {tooLong : Nat} {d : Bytes} {r : Resp} {s : State} {s0_ : State} {r_ : _} {s_ : State} (h_ : (writeWithin mb addr max tooLong d r s) = (r_, s_)) (k_ : Same s0_ s) : Same s0_ s_ := by
  have j_ := k_.trans (@writeWithin_same mb addr max tooLong d r s); rw [h_] at j_; exact j_

theorem deviceEvidenceRun_same {mb : Mb} {q : Req} {s : State} : Same s (deviceEvidenceRun mb q s).2 := by
  unfold deviceEvidenceRun
  try dsimp only
  with_reducible repeat' first
    | apply Same.rfl
    | assumption
    | apply Same.trans (k := writeWithin_same)
    | (apply writeWithin_same_then; · assumption)
    | (simp only [Same.mk]; apply Same.fold)
    | split
    | intro _
    | dsimp only

theorem deviceEvidenceRun_same_then {mb : Mb} {q : Req} {s : State} {s0_ : State} {r_ : _} {s_ : State} (h_ : (deviceEvidenceRun mb q s) = (r_, s_)) (k_ : Same s0_ s) : Same s0_ s_ := by
  have j_ := k_.trans (@deviceEvidenceRun_same mb q s); rw [h_] at j_; exact j_

theorem notifyStand_same {k : NoteKind} {arg0 : Nat} {st : Nat} {s : State} : Same s (notifyStand k arg0 st s) := by
  unfold notifyStand
  try dsimp only
  with_reducible repeat' first
    | apply Same.rfl
    | assumption
    | (simp only [Same.mk]; apply Same.fold)
    | apply Same.ite
    | split
    | intro _
    | dsimp only

theorem streamBind_same {g : Nat} {c : Nat} {s : State} : Same s (streamBind g c s) := by
  unfold streamBind
  try dsimp only
  with_reducible repeat' first
    | apply Same.rfl
    | assumption
    | apply Same.trans (k := setDge_same)
    | (simp only [Same.mk]; apply Same.fold)
    | split
    | intro _
    | dsimp only

theorem streamAgain_same {c : Nat} {x : Ctx} {s : State} : Same s (streamAgain c x s) := by
  unfold streamAgain
  try dsimp only
  with_reducible repeat' first
    | apply Same.rfl
    | assumption
    | apply Same.trans (k := setCtx_same)
    | apply Same.trans (k := abort_same)
    | apply Same.trans (k := streamBind_same)
    | (simp only [Same.mk]; apply Same.fold)
    | apply Same.ite
    | split
    | intro _
    | dsimp only

theorem streamLost_same {g : Nat} {c : Nat} {s : State} : Same s (streamLost g c s) := by
  unfold streamLost
  try dsimp only
  with_reducible repeat' first
    | apply Same.rfl
    | assumption
    | apply Same.trans (k := abort_same)
    | apply Same.trans (k := streamAgain_same)
    | (simp only [Same.mk]; apply Same.fold)
    | apply Same.ite
    | split
    | intro _
    | dsimp only

theorem dgeFail_same {g : Nat} {inj : Bool} {s : State} : Same s (dgeFail g inj s) := by
  unfold dgeFail
  try dsimp only
  with_reducible repeat' first
    | apply Same.rfl
    | assumption
    | apply Same.trans (k := countFault_same)
    | apply Same.trans (k := putDge_same)
    | apply Same.trans (k := unitRec_same)
    | apply Same.trans (k := unitReport_same)
    | apply Same.trans (k := capRewrite_same)
    | apply Same.trans (k := notifyStand_same)
    | apply Same.trans (k := streamLost_same)
    | (simp only [Same.mk]; apply Same.fold)
    | apply Same.foldl
    | apply Same.ite
    | split
    | intro _
    | dsimp only

theorem dgeKeyLoaded_same {g : Nat} {s : State} : Same s (dgeKeyLoaded g s) := by
  unfold dgeKeyLoaded
  try dsimp only
  with_reducible repeat' first
    | apply Same.rfl
    | assumption
    | apply Same.trans (k := putDge_same)
    | (simp only [Same.mk]; apply Same.fold)
    | apply Same.ite
    | split
    | intro _
    | dsimp only

theorem dgeWrite_same {g : Nat} {t : FabricTag} {o : Nat} {n : Nat} {v : Nat} {s : State} : Same s (dgeWrite g t o n v s) := by
  unfold dgeWrite
  try dsimp only
  with_reducible repeat' first
    | apply Same.rfl
    | assumption
    | apply Same.trans (k := dgeTurn_same)
    | apply Same.trans (k := dgeResume_same)
    | (simp only [Same.mk]; apply Same.fold)
    | apply Same.ite
    | split
    | intro _
    | dsimp only

theorem dgePort_same {g : Nat} {m : Nat} {o : Nat} {n : Nat} {v : Nat} {s : State} : Same s (dgePort g m o n v s) := by
  unfold dgePort
  try dsimp only
  with_reducible repeat' first
    | apply Same.rfl
    | assumption
    | apply Same.trans (k := atPort_same ?_)
    | apply Same.trans (k := dgeWrite_same)
    | intro _
    | dsimp only

theorem dgeStrobe_same {g : Nat} {m : Nat} {bit : Nat} {s : State} : Same s (dgeStrobe g m bit s) := by
  unfold dgeStrobe
  try dsimp only
  with_reducible repeat' first
    | apply Same.rfl
    | assumption
    | apply Same.trans (k := dgePort_same)
    | intro _
    | dsimp only

theorem hostAnswer_same {mb : Mb} {st : Nat} {s : State} : Same s (hostAnswer mb st s) := by
  unfold hostAnswer
  try dsimp only
  with_reducible repeat' first
    | apply Same.rfl
    | assumption
    | apply Same.trans (k := answerPlain_same)
    | split
    | intro _
    | dsimp only

theorem hostWake_same {s : State} : Same s (hostWake s) := by
  unfold hostWake
  try dsimp only
  with_reducible repeat' first
    | apply Same.rfl
    | assumption
    | (simp only [Same.mk]; apply Same.fold)
    | apply Same.ite
    | split
    | intro _
    | dsimp only

theorem ring_same {mb : Mb} {token : Nat} {s : State} : Same s (ring mb token s) := by
  unfold ring
  try dsimp only
  with_reducible repeat' first
    | apply Same.rfl
    | assumption
    | apply Same.trans (k := setMb_same)
    | (simp only [Same.mk]; apply Same.fold)
    | intro _
    | dsimp only

theorem doorbell_same {mb : Mb} {go : Bool} {token : Nat} {vfClosed : Bool} {s : State} : Same s (doorbell mb go token vfClosed s) := by
  unfold doorbell
  try dsimp only
  with_reducible repeat' first
    | apply Same.rfl
    | assumption
    | apply Same.trans (k := countDoorbell_same)
    | apply Same.trans (k := hostAnswer_same)
    | apply Same.trans (k := hostWake_same)
    | apply Same.trans (k := ring_same)
    | apply Same.ite
    | split
    | intro _
    | dsimp only

theorem ringDoorbell_same {k : Nat} {index : Nat} {head : Bool} {s : State} : Same s (ringDoorbell k index head s) := by
  unfold ringDoorbell
  try dsimp only
  with_reducible repeat' first
    | apply Same.rfl
    | assumption
    | apply Same.trans (k := ringError_same)
    | apply Same.trans (k := countDoorbell_same)
    | (simp only [Same.mk]; apply Same.fold)
    | apply Same.ite
    | split
    | intro _
    | dsimp only

theorem execQmgCqHead_same {fn : Fn} {qid : Nat} {index : Nat} {s : State} : SameO s (execQmgCqHead fn qid index s) := by
  unfold execQmgCqHead
  try dsimp only
  with_reducible repeat' first
    | apply Same.rfl
    | assumption
    | apply Same.trans (k := setQ_same)
    | apply Same.trans (k := queueError_same)
    | apply Same.trans (k := countDoorbell_same)
    | apply Same.trans (k := hostWake_same)
    | apply Same.trans (k := ringDoorbell_same)
    | (simp only [Same.mk]; apply Same.fold)
    | apply SameO.onUnit
    | apply SameO.next
    | apply Same.ite
    | split
    | intro _
    | dsimp only

theorem execQmgSqTail_same {fn : Fn} {qid : Nat} {index : Nat} {s : State} : SameO s (execQmgSqTail fn qid index s) := by
  unfold execQmgSqTail
  try dsimp only
  with_reducible repeat' first
    | apply Same.rfl
    | assumption
    | apply Same.trans (k := setQ_same)
    | apply Same.trans (k := queueError_same)
    | apply Same.trans (k := countDoorbell_same)
    | apply Same.trans (k := hostWake_same)
    | apply Same.trans (k := ringDoorbell_same)
    | (simp only [Same.mk]; apply Same.fold)
    | apply SameO.onUnit
    | apply SameO.next
    | apply Same.ite
    | split
    | intro _
    | dsimp only

theorem doorbellWrite_same {fn : Fn} {o : Nat} {v : Nat} {s : State} : Same s (doorbellWrite fn o v s) := by
  unfold doorbellWrite
  try dsimp only
  with_reducible repeat' first
    | apply Same.rfl
    | assumption
    | apply execQmgCqHead_same
    | apply execQmgSqTail_same
    | apply Same.after
    | apply Same.ite
    | split
    | intro _
    | dsimp only

theorem standUp_same {st : Nat} {s : State} : Same s (standUp st s) := by
  unfold standUp
  try dsimp only
  with_reducible repeat' first
    | apply Same.rfl
    | assumption
    | apply Same.trans (k := dropWait_same)
    | (simp only [Same.mk]; apply Same.fold)
    | apply Same.foldl
    | apply Same.ite
    | split
    | intro _
    | dsimp only

theorem dozeCtrlWrite_same {v : Nat} {s : State} : Same s (dozeCtrlWrite v s) := by
  unfold dozeCtrlWrite
  try dsimp only
  with_reducible repeat' first
    | apply Same.rfl
    | assumption
    | apply Same.trans (k := standUp_same)
    | (simp only [Same.mk]; apply Same.fold)
    | apply Same.foldl
    | apply Same.ite
    | split
    | intro _
    | dsimp only

theorem earlyWrites_same {x : Ctx} {s : State} : Same s (earlyWrites x s).2 := by
  unfold earlyWrites
  try dsimp only
  with_reducible repeat' first
    | apply Same.rfl
    | assumption
    | apply Same.trans (k := drawBytes_same)
    | (apply drawBytes_same_then; · assumption)
    | apply Same.ite
    | split
    | intro _
    | dsimp only

theorem earlyWrites_same_then {x : Ctx} {s : State} {s0_ : State} {r_ : _} {s_ : State} (h_ : (earlyWrites x s) = (r_, s_)) (k_ : Same s0_ s) : Same s0_ s_ := by
  have j_ := k_.trans (@earlyWrites_same x s); rw [h_] at j_; exact j_

theorem pieceCancel_same {c : Nat} {s : State} : Same s (pieceCancel c s) := by
  unfold pieceCancel
  try dsimp only
  with_reducible repeat' first
    | apply Same.rfl
    | assumption
    | apply Same.trans (k := cancelPort_same)
    | apply Same.foldl
    | split
    | intro _
    | dsimp only

theorem drainCtx_same {c : Nat} {x : Ctx} {s : State} : Same s (drainCtx c x s) := by
  unfold drainCtx
  try dsimp only
  with_reducible repeat' first
    | apply Same.rfl
    | assumption
    | apply Same.trans (k := setCtx_same)
    | apply Same.trans (k := hucDrop_same)
    | apply Same.trans (k := countStream_same)
    | apply Same.trans (k := ctxWrite_same)
    | apply Same.trans (k := cutService_same)
    | apply Same.trans (k := earlyWrites_same)
    | (apply earlyWrites_same_then; · assumption)
    | apply Same.trans (k := pieceCancel_same)
    | (simp only [Same.mk]; apply Same.fold)
    | apply Same.foldl
    | apply Same.ite
    | split
    | intro _
    | dsimp only

theorem drainEnds_same {slot : Nat} {first : Bytes} {s : State} : Same s (drainEnds slot first s) := by
  unfold drainEnds
  try dsimp only
  with_reducible repeat' first
    | apply Same.rfl
    | assumption
    | apply Same.trans (k := windowsSettle_same)
    | (simp only [Same.mk]; apply Same.fold)
    | apply Same.ite
    | split
    | intro _
    | dsimp only

theorem drawBits_same {x : Ctx} {s : State} : Same s (drawBits x s).2 := by
  unfold drawBits
  try dsimp only
  with_reducible repeat' first
    | apply Same.rfl
    | assumption
    | apply Same.trans (k := takeWire_same)
    | (apply takeWire_same_then; · assumption)
    | apply Same.ite
    | split
    | intro _
    | dsimp only

theorem drawBits_same_then {x : Ctx} {s : State} {s0_ : State} {r_ : _} {s_ : State} (h_ : (drawBits x s) = (r_, s_)) (k_ : Same s0_ s) : Same s0_ s_ := by
  have j_ := k_.trans (@drawBits_same x s); rw [h_] at j_; exact j_

theorem dropAtc_same {fn : Fn} {s : State} : Same s (dropAtc fn s) := by
  unfold dropAtc
  try dsimp only
  with_reducible repeat' first
    | apply Same.rfl
    | assumption
    | (simp only [Same.mk]; apply Same.fold)
    | intro _
    | dsimp only

theorem dropQueues_same {fn : Fn} {s : State} : Same s (dropQueues fn s) := by
  unfold dropQueues
  try dsimp only
  with_reducible repeat' first
    | apply Same.rfl
    | assumption
    | (simp only [Same.mk]; apply Same.fold)
    | split
    | intro _
    | dsimp only

theorem drrTurn_same {st : Nat} {i : Nat} {n : Nat} {s : State} : Same s (drrTurn st i n s).2 := by
  unfold drrTurn
  try dsimp only
  with_reducible repeat' first
    | apply Same.rfl
    | assumption
    | apply Same.trans (k := setStand_same)
    | (simp only [Same.mk]; apply Same.fold)
    | apply Same.ite
    | split
    | intro _
    | dsimp only

theorem drrTurn_same_then {st : Nat} {i : Nat} {n : Nat} {s : State} {s0_ : State} {r_ : _} {s_ : State} (h_ : (drrTurn st i n s) = (r_, s_)) (k_ : Same s0_ s) : Same s0_ s_ := by
  have j_ := k_.trans (@drrTurn_same st i n s); rw [h_] at j_; exact j_

theorem ecall_same {core : Nat} {n : Nat} {f : Nat → Applet → DWord → State → State} {s : State} (h_f : ∀ b0 b1 b2 y, Same y (f b0 b1 b2 y)) : SameO s (ecall core n f s) := by
  unfold ecall
  try dsimp only
  with_reducible repeat' first
    | apply Same.rfl
    | assumption
    | apply Same.trans (k := deliverNotes_same)
    | apply SameO.onUnit
    | apply SameO.next
    | apply Same.trans (k := h_f _ _ _ _)
    | apply Same.ite
    | split
    | intro _
    | dsimp only

theorem ecallRet_same {core : Nat} {v : DWord} {pc : DWord} {s : State} : Same s (ecallRet core v pc s) := by
  unfold ecallRet
  try dsimp only
  with_reducible repeat' first
    | apply Same.rfl
    | assumption
    | apply Same.trans (k := setCore_same)
    | apply Same.trans (k := setX_same)
    | (simp only [Same.mk]; apply Same.fold)
    | intro _
    | dsimp only

theorem eccCorrected_same {unit : Nat} {inj : Bool} {s : State} : Same s (eccCorrected unit inj s) := by
  unfold eccCorrected
  try dsimp only
  with_reducible repeat' first
    | apply Same.rfl
    | assumption
    | apply Same.trans (k := draw_same)
    | (apply draw_same_then; · assumption)
    | apply Same.trans (k := correctedReport_same)
    | apply Same.trans (k := laneCorrected_same)
    | apply Same.ite
    | split
    | intro _
    | dsimp only

theorem endRecovery_same {ok : Bool} {s : State} : Same s (endRecovery ok s) := by
  unfold endRecovery
  try dsimp only
  with_reducible repeat' first
    | apply Same.rfl
    | assumption
    | apply Same.trans (k := deliver_same)
    | apply Same.trans (k := closeRecovery_same)
    | split
    | intro _
    | dsimp only

theorem revokeSlot_same {slot : Nat} {s : State} : Same s (revokeSlot slot s) := by
  unfold revokeSlot
  try dsimp only
  with_reducible repeat' first
    | apply Same.rfl
    | assumption
    | apply Same.trans (k := putDge_same)
    | apply Same.foldl
    | apply Same.ite
    | split
    | intro _
    | dsimp only

theorem finishRevocations_same {s : State} : Same s (finishRevocations s) := by
  unfold finishRevocations
  try dsimp only
  with_reducible repeat' first
    | apply Same.rfl
    | assumption
    | apply Same.trans (k := endJob_same)
    | apply Same.trans (k := abortWhere_same)
    | apply Same.trans (k := revokeSlot_same)
    | (simp only [Same.mk]; apply Same.fold)
    | apply Same.foldl
    | split
    | intro _
    | dsimp only

theorem indeterminateAll_same {s : State} : Same s (indeterminateAll s) := by
  unfold indeterminateAll
  try dsimp only
  with_reducible repeat' first
    | apply Same.rfl
    | assumption
    | apply Same.trans (k := setMb_same)
    | apply Same.trans (k := endJob_same)
    | apply Same.trans (k := postResp_same)
    | (simp only [Same.mk]; apply Same.fold)
    | apply Same.foldl
    | split
    | intro _
    | dsimp only

theorem resumeWarden_same {s : State} : Same s (resumeWarden s) := by
  unfold resumeWarden
  try dsimp only
  with_reducible repeat' first
    | apply Same.rfl
    | assumption
    | apply Same.trans (k := finishRevocations_same)
    | apply Same.trans (k := indeterminateAll_same)
    | (simp only [Same.mk]; apply Same.fold)
    | apply Same.ite
    | split
    | intro _
    | dsimp only

theorem startSucceeded_same {s : State} : Same s (startSucceeded s) := by
  unfold startSucceeded
  try dsimp only
  with_reducible repeat' first
    | apply Same.rfl
    | assumption
    | (simp only [Same.mk]; apply Same.fold)
    | apply Same.ite
    | split
    | intro _
    | dsimp only

theorem endRestart_same {s : State} : Same s (endRestart s) := by
  unfold endRestart
  try dsimp only
  with_reducible repeat' first
    | apply Same.rfl
    | assumption
    | apply Same.trans (k := logCode_same)
    | apply Same.trans (k := notifyApplets_same)
    | apply Same.trans (k := refreshMode_same)
    | apply Same.trans (k := doeResume_same)
    | apply Same.trans (k := restartEvent_same)
    | apply Same.trans (k := dropWait_same)
    | apply Same.trans (k := resumeWarden_same)
    | apply Same.trans (k := startSucceeded_same)
    | (simp only [Same.mk]; apply Same.fold)
    | apply Same.ite
    | split
    | intro _
    | dsimp only

theorem endRevocation_one {slot : Nat} {k : KeyRec} {s : State} : Same s (endRevocation slot k s).1 := by
  unfold endRevocation
  dsimp only
  repeat' first
    | with_reducible apply Same.rfl
    | with_reducible apply Same.trans (k := storeChange_same)
    | (with_reducible apply takeKeyBits_same_then; · assumption)
    | split
    | dsimp only

theorem endRevocation_same {slot : Nat} {k : KeyRec} {s s_ : State} {b : Bool} (h : endRevocation slot k s = (s_, b)) {s0 : State} (j : Same s0 s) : Same s0 s_ := by
  have i := j.trans (endRevocation_one (slot := slot) (k := k)); rw [h] at i; exact i

theorem engineRefused_same {m : Nat} {ctx : Option Nat} {s : State} : Same s (engineRefused m ctx s) := by
  unfold engineRefused
  try dsimp only
  with_reducible repeat' first
    | apply Same.rfl
    | assumption
    | apply Same.trans (k := draw_same)
    | (apply draw_same_then; · assumption)
    | apply Same.trans (k := settleFail_same)
    | split
    | intro _
    | dsimp only

theorem faultEnd_same {c : Nat} {x : Ctx} {dst : Bool} {elem : Nat} {off : Nat} {before : Nat} {s : State} : Same s (faultEnd c x dst elem off before s) := by
  unfold faultEnd
  try dsimp only
  with_reducible repeat' first
    | apply Same.rfl
    | assumption
    | apply Same.trans (k := setCtx_same)
    | apply Same.trans (k := settle_same)
    | (simp only [Same.mk]; apply Same.fold)
    | apply Same.ite
    | split
    | intro _
    | dsimp only

theorem jobSettle_same {c : Nat} {x : Ctx} {r : JobEnd} {s : State} : Same s (jobSettle c x r s) := by
  unfold jobSettle
  try dsimp only
  with_reducible repeat' first
    | apply Same.rfl
    | assumption
    | apply Same.trans (k := setCtx_same)
    | apply Same.trans (k := settle_same)
    | (simp only [Same.mk]; apply Same.fold)
    | apply Same.ite
    | split
    | intro _
    | dsimp only

theorem finalEnd_same {c : Nat} {x : Ctx} {bits : Bytes} {s : State} : Same s (finalEnd c x bits s) := by
  unfold finalEnd
  try dsimp only
  with_reducible repeat' first
    | apply Same.rfl
    | assumption
    | apply Same.trans (k := ctxRefused_same)
    | apply Same.trans (k := countUnit_same)
    | apply Same.trans (k := faultEnd_same)
    | apply Same.trans (k := jobSettle_same)
    | (simp only [Same.mk]; apply Same.fold)
    | apply Same.ite
    | split
    | intro _
    | dsimp only

theorem serviceJoin_same {st : Nat} {c : Nat} {s : State} : Same s (serviceJoin st c s) := by
  unfold serviceJoin
  try dsimp only
  with_reducible repeat' first
    | apply Same.rfl
    | assumption
    | apply Same.trans (k := setStand_same)
    | (simp only [Same.mk]; apply Same.fold)
    | intro _
    | dsimp only

theorem retryJoin_same {c : Nat} {x : Ctx} {s : State} : Same s (retryJoin c x s) := by
  unfold retryJoin
  try dsimp only
  with_reducible repeat' first
    | apply Same.rfl
    | assumption
    | apply Same.trans (k := setCtx_same)
    | apply Same.trans (k := abort_same)
    | apply Same.trans (k := serviceJoin_same)
    | (simp only [Same.mk]; apply Same.fold)
    | split
    | intro _
    | dsimp only

theorem serviceRetry_same {c : Nat} {x : Ctx} {check : Bool} {s : State} : Same s (serviceRetry c x check s) := by
  unfold serviceRetry
  try dsimp only
  with_reducible repeat' first
    | apply Same.rfl
    | assumption
    | apply Same.trans (k := setCtx_same)
    | apply Same.trans (k := abort_same)
    | apply Same.trans (k := hucDrop_same)
    | apply Same.trans (k := serviceReport_same)
    | apply Same.trans (k := cutService_same)
    | apply Same.trans (k := retryJoin_same)
    | (simp only [Same.mk]; apply Same.fold)
    | apply Same.ite
    | split
    | intro _
    | dsimp only

theorem unitLoss_same {c : Nat} {x : Ctx} {s : State} : Same s (unitLoss c x s) := by
  unfold unitLoss
  try dsimp only
  with_reducible repeat' first
    | apply Same.rfl
    | assumption
    | apply Same.trans (k := laneLost_same)
    | apply Same.trans (k := countStream_same)
    | apply Same.trans (k := streamLost_same)
    | apply Same.trans (k := serviceRetry_same)
    | apply Same.ite
    | split
    | intro _
    | dsimp only

theorem engineStep_same {c : Nat} {x : Ctx} {e : EngineResult} {s : State} : Same s (engineStep c x e s) := by
  unfold engineStep
  try dsimp only
  with_reducible repeat' first
    | apply Same.rfl
    | assumption
    | apply Same.trans (k := drawBits_same)
    | (apply drawBits_same_then; · assumption)
    | apply Same.trans (k := faultEnd_same)
    | apply Same.trans (k := finalEnd_same)
    | apply Same.trans (k := serviceRetry_same)
    | apply Same.trans (k := unitLoss_same)
    | apply Same.ite
    | split
    | intro _
    | dsimp only

theorem enterSeedling_same {why : SeedReason} {s : State} : Same s (enterSeedling why s) := by
  unfold enterSeedling
  try dsimp only
  with_reducible repeat' first
    | apply Same.rfl
    | assumption
    | apply Same.trans (k := refreshMode_same)
    | apply Same.trans (k := deviceStop_same)
    | (simp only [Same.mk]; apply Same.fold)
    | split
    | intro _
    | dsimp only

theorem ethDown_same {s : State} : Same s (ethDown s) := by
  unfold ethDown
  try dsimp only
  with_reducible repeat' first
    | apply Same.rfl
    | assumption
    | apply Same.trans (k := setPort_same)
    | apply Same.trans (k := dropFrames_same)
    | apply Same.trans (k := secyCount_same)
    | (simp only [Same.mk]; apply Same.fold)
    | apply Same.foldl
    | apply Same.ite
    | split
    | intro _
    | dsimp only

theorem enterWatch_same {e : WatchEntry} {s : State} : Same s (enterWatch e s) := by
  unfold enterWatch
  try dsimp only
  with_reducible repeat' first
    | apply Same.rfl
    | assumption
    | apply Same.trans (k := refreshMode_same)
    | apply Same.trans (k := mapBanks_same)
    | apply Same.trans (k := wipeEngines_same)
    | apply Same.trans (k := clearEnables_same)
    | apply Same.trans (k := ethDown_same)
    | (simp only [Same.mk]; apply Same.fold)
    | split
    | intro _
    | dsimp only

theorem entropyEnd_same {c : Nat} {x : Ctx} {s : State} : Same s (entropyEnd c x s) := by
  unfold entropyEnd
  try dsimp only
  with_reducible repeat' first
    | apply Same.rfl
    | assumption
    | apply Same.trans (k := settle_same)
    | (simp only [Same.mk]; apply Same.fold)
    | apply Same.ite
    | split
    | intro _
    | dsimp only

theorem ethAnswer_same {kind : Nat} {id : Nat} {r : Resp} {s : State} : Same s (ethAnswer kind id r s).2 := by
  unfold ethAnswer
  try dsimp only
  with_reducible repeat' first
    | apply Same.rfl
    | assumption
    | apply Same.trans (k := ethSweep_same)
    | apply Same.ite
    | split
    | intro _
    | dsimp only

theorem ethAnswer_same_then {kind : Nat} {id : Nat} {r : Resp} {s : State} {s0_ : State} {r_ : _} {s_ : State} (h_ : (ethAnswer kind id r s) = (r_, s_)) (k_ : Same s0_ s) : Same s0_ s_ := by
  have j_ := k_.trans (@ethAnswer_same kind id r s); rw [h_] at j_; exact j_

theorem evict_same {n : Nat} {a1 : Nat} {a2 : State} : Same a2 (evict n a1 a2) := by
  induction a1 generalizing a2 with
  | zero => exact Same.rfl
  | succ n ih =>
    unfold evict
    repeat' first
      | with_reducible apply Same.rfl
      | with_reducible apply Same.trans (k := ih)
      | (simp only [Same.mk]; with_reducible apply Same.fold)
      | split
      | dsimp only

theorem execAgree_same {ctx : Nat} {s : State} : SameO s (execAgree ctx s) := by
  unfold execAgree
  try dsimp only
  with_reducible repeat' first
    | apply Same.rfl
    | assumption
    | apply classRow_same
    | apply Same.foldl
    | apply SameO.onUnit
    | apply SameO.next
    | apply Same.ite
    | split
    | intro _
    | dsimp only

theorem runCmd_same {mb : Mb} {op : Nat} {h : Handler} {s : State} (h_h : ∀ b0 b1 y, Same y (h b0 b1 y).2) : SameO s (runCmd mb op h s) := by
  unfold runCmd
  apply SameO.onUnit
  dsimp only
  split
  · exact Same.rfl
  · split
    · split
      · have j := h_h mb (by assumption) s
        unfold applyAns
        split
        · rename_i e; rw [e] at j; exact j.trans finishMb_same
        · rename_i e; rw [e] at j; exact j.trans holdMb_same
        · rename_i e; rw [e] at j; exact j
      · split
        · exact (resolveWait_same (by assumption) Same.rfl).trans finishMb_same
        · exact Same.rfl
    · exact Same.rfl

theorem execAppletLoad_same {mb : Mb} {s : State} : SameO s (execAppletLoad mb s) := by
  unfold execAppletLoad
  try dsimp only
  with_reducible repeat' first
    | apply Same.rfl
    | assumption
    | apply Same.trans (k := appletLoadRun_same)
    | (apply appletLoadRun_same_then; · assumption)
    | apply runCmd_same
    | apply SameO.onUnit
    | apply SameO.next
    | intro _
    | dsimp only

theorem execAppletQuery_same {mb : Mb} {s : State} : SameO s (execAppletQuery mb s) := by
  unfold execAppletQuery
  try dsimp only
  with_reducible repeat' first
    | apply Same.rfl
    | assumption
    | apply runCmd_same
    | (simp only [Same.mk]; apply Same.fold)
    | apply SameO.onUnit
    | apply SameO.next
    | split
    | intro _
    | dsimp only

theorem saveApplet_same {core : Nat} {pc : DWord} {s : State} : Same s (saveApplet core pc s) := by
  unfold saveApplet
  try dsimp only
  with_reducible repeat' first
    | apply Same.rfl
    | assumption
    | apply Same.trans (k := setCore_same)
    | apply Same.trans (k := modApplet_same)
    | (simp only [Same.mk]; apply Same.fold)
    | split
    | intro _
    | dsimp only

theorem switchOut_same {core : Nat} {slot : Nat} {pc : DWord} {s : State} : Same s (switchOut core slot pc s) := by
  unfold switchOut
  try dsimp only
  with_reducible repeat' first
    | apply Same.rfl
    | assumption
    | apply Same.trans (k := schedule_same)
    | apply Same.trans (k := saveApplet_same)
    | intro _
    | dsimp only

theorem execAppletSliceEnd_same {core : Nat} {s : State} : SameO s (execAppletSliceEnd core s) := by
  unfold execAppletSliceEnd
  try dsimp only
  with_reducible repeat' first
    | apply Same.rfl
    | assumption
    | apply Same.trans (k := schedule_same)
    | apply Same.trans (k := deliverNotes_same)
    | apply Same.trans (k := switchOut_same)
    | apply SameO.onUnit
    | apply SameO.next
    | apply Same.ite
    | split
    | intro _
    | dsimp only

theorem execAppletStart_same {mb : Mb} {s : State} : SameO s (execAppletStart mb s) := by
  unfold execAppletStart
  try dsimp only
  with_reducible repeat' first
    | apply Same.rfl
    | assumption
    | apply Same.trans (k := appletStartRun_same)
    | (apply appletStartRun_same_then; · assumption)
    | apply runCmd_same
    | apply SameO.onUnit
    | apply SameO.next
    | intro _
    | dsimp only

theorem execAppletStop_same {mb : Mb} {s : State} : SameO s (execAppletStop mb s) := by
  unfold execAppletStop
  try dsimp only
  with_reducible repeat' first
    | apply Same.rfl
    | assumption
    | apply Same.trans (k := appletStopRun_same)
    | (apply appletStopRun_same_then; · assumption)
    | apply runCmd_same
    | apply SameO.onUnit
    | apply SameO.next
    | intro _
    | dsimp only

theorem execAppletStopGraceExpiry_same {inst : Nat} {s : State} : SameO s (execAppletStopGraceExpiry inst s) := by
  unfold execAppletStopGraceExpiry
  try dsimp only
  with_reducible repeat' first
    | apply Same.rfl
    | assumption
    | apply Same.trans (k := forceStop_same)
    | apply SameO.onUnit
    | apply SameO.next
    | apply Same.ite
    | split
    | intro _
    | dsimp only

theorem execAppletTrust_same {mb : Mb} {s : State} : SameO s (execAppletTrust mb s) := by
  unfold execAppletTrust
  try dsimp only
  with_reducible repeat' first
    | apply Same.rfl
    | assumption
    | apply Same.trans (k := appletTrustRun_same)
    | (apply appletTrustRun_same_then; · assumption)
    | apply runCmd_same
    | apply SameO.onUnit
    | apply SameO.next
    | apply Same.guarded
    | apply Same.storeRun
    | intro _
    | dsimp only

theorem execAppletUnload_same {mb : Mb} {s : State} : SameO s (execAppletUnload mb s) := by
  unfold execAppletUnload
  try dsimp only
  with_reducible repeat' first
    | apply Same.rfl
    | assumption
    | apply Same.trans (k := appletUnloadRun_same)
    | (apply appletUnloadRun_same_then; · assumption)
    | apply runCmd_same
    | apply SameO.onUnit
    | apply SameO.next
    | intro _
    | dsimp only

theorem execAtsInvalidateRequest_same {fn : Fn} {addr : DWord} {len : Nat} {s : State} : SameO s (execAtsInvalidateRequest fn addr len s) := by
  unfold execAtsInvalidateRequest
  try dsimp only
  with_reducible repeat' first
    | apply Same.rfl
    | assumption
    | (simp only [Same.mk]; apply Same.fold)
    | apply SameO.onUnit
    | apply SameO.next
    | split
    | intro _
    | dsimp only

theorem execBackupDomainLoss_same {s : State} : SameO s (execBackupDomainLoss s) := by
  unfold execBackupDomainLoss
  try dsimp only
  with_reducible repeat' first
    | apply Same.rfl
    | assumption
    | (simp only [Same.mk]; apply Same.fold)
    | apply SameO.onUnit
    | apply SameO.next
    | apply Same.ite
    | split
    | intro _
    | dsimp only

theorem execBankTestDone_same {core : Nat} {ok : Bool} {s : State} : SameO s (execBankTestDone core ok s) := by
  unfold execBankTestDone
  try dsimp only
  with_reducible repeat' first
    | apply Same.rfl
    | assumption
    | apply Same.trans (k := setStand_same)
    | apply Same.trans (k := setCore_same)
    | apply Same.trans (k := zeroFab_same)
    | apply Same.trans (k := coreGone_same)
    | apply Same.trans (k := nextCores_same)
    | (simp only [Same.mk]; apply Same.fold)
    | apply SameO.onUnit
    | apply SameO.next
    | apply Same.ite
    | split
    | intro _
    | dsimp only

theorem execBusMasterEnableClear_same {fn : Fn} {s : State} : SameO s (execBusMasterEnableClear fn s) := by
  unfold execBusMasterEnableClear
  try dsimp only
  with_reducible repeat' first
    | apply Same.rfl
    | assumption
    | apply Same.trans (k := clearBme_same)
    | apply SameO.onUnit
    | apply SameO.next
    | apply Same.ite
    | split
    | intro _
    | dsimp only

theorem execBusMasterEnableSet_same {fn : Fn} {s : State} : SameO s (execBusMasterEnableSet fn s) := by
  unfold execBusMasterEnableSet
  try dsimp only
  with_reducible repeat' first
    | apply Same.rfl
    | assumption
    | apply Same.trans (k := setFn_same)
    | apply Same.trans (k := sendVec_same)
    | (simp only [Same.mk]; apply Same.fold)
    | apply Same.foldl
    | apply SameO.onUnit
    | apply SameO.next
    | apply Same.ite
    | split
    | intro _
    | dsimp only

theorem tapLoad_same {ok : Bool} {ir : Nat} {dr : Nat} {s : State} : Same s (tapLoad ok ir dr s) := by
  unfold tapLoad
  try dsimp only
  with_reducible repeat' first
    | apply Same.rfl
    | assumption
    | (simp only [Same.mk]; apply Same.fold)
    | apply Same.ite
    | split
    | intro _
    | dsimp only

theorem execBypass_same {s : State} : SameO s (execBypass s) := by
  unfold execBypass
  try dsimp only
  with_reducible repeat' first
    | apply Same.rfl
    | assumption
    | apply Same.trans (k := tapLoad_same)
    | (simp only [Same.mk]; apply Same.fold)
    | apply SameO.onUnit
    | apply SameO.next
    | intro _
    | dsimp only

theorem execCalQuery_same {mb : Mb} {s : State} : SameO s (execCalQuery mb s) := by
  unfold execCalQuery
  try dsimp only
  with_reducible repeat' first
    | apply Same.rfl
    | assumption
    | apply runCmd_same
    | (simp only [Same.mk]; apply Same.fold)
    | apply SameO.onUnit
    | apply SameO.next
    | apply Same.ite
    | split
    | intro _
    | dsimp only

theorem execCalibrate_same {mb : Mb} {s : State} : SameO s (execCalibrate mb s) := by
  unfold execCalibrate
  try dsimp only
  with_reducible repeat' first
    | apply Same.rfl
    | assumption
    | apply Same.trans (k := calibrateRun_same)
    | (apply calibrateRun_same_then; · assumption)
    | apply runCmd_same
    | apply SameO.onUnit
    | apply SameO.next
    | apply Same.guarded
    | intro _
    | dsimp only

theorem execCheckerKatDone_same {stand : Nat} {laneOk : Bool} {checkerOk : Bool} {s : State} : SameO s (execCheckerKatDone stand laneOk checkerOk s) := by
  unfold execCheckerKatDone
  try dsimp only
  with_reducible repeat' first
    | apply Same.rfl
    | assumption
    | apply Same.trans (k := checkerKat_same)
    | apply SameO.onUnit
    | apply SameO.next
    | intro _
    | dsimp only

theorem execCheckerMismatch_same {stand : Nat} {lane : Nat} {s : State} : SameO s (execCheckerMismatch stand lane s) := by
  unfold execCheckerMismatch
  try dsimp only
  with_reducible repeat' first
    | apply Same.rfl
    | assumption
    | apply Same.trans (k := checkerMismatch_same)
    | apply SameO.onUnit
    | apply SameO.next
    | apply Same.ite
    | split
    | intro _
    | dsimp only

theorem execCheckerReseed_same {stand : Nat} {s : State} : SameO s (execCheckerReseed stand s) := by
  unfold execCheckerReseed
  try dsimp only
  with_reducible repeat' first
    | apply Same.rfl
    | assumption
    | apply Same.trans (k := setStand_same)
    | apply Same.trans (k := takeWire_same)
    | (apply takeWire_same_then; · assumption)
    | (simp only [Same.mk]; apply Same.fold)
    | apply SameO.onUnit
    | apply SameO.next
    | apply Same.ite
    | split
    | intro _
    | dsimp only

theorem execCheckpointEpoch_same {s : State} : SameO s (execCheckpointEpoch s) := by
  unfold execCheckpointEpoch
  try dsimp only
  with_reducible repeat' first
    | apply Same.rfl
    | assumption
    | apply Same.trans (k := completeEpoch_same)
    | apply SameO.onUnit
    | apply SameO.next
    | apply Same.ite
    | split
    | intro _
    | dsimp only

theorem execClamp_same {s : State} : SameO s (execClamp s) := by
  unfold execClamp
  try dsimp only
  with_reducible repeat' first
    | apply Same.rfl
    | assumption
    | apply Same.trans (k := tapLoad_same)
    | (simp only [Same.mk]; apply Same.fold)
    | apply SameO.onUnit
    | apply SameO.next
    | apply Same.ite
    | split
    | intro _
    | dsimp only

theorem execCmacGen_same {ctx : Nat} {s : State} : SameO s (execCmacGen ctx s) := by
  unfold execCmacGen
  try dsimp only
  with_reducible repeat' first
    | apply Same.rfl
    | assumption
    | apply classRow_same
    | apply Same.foldl
    | apply SameO.onUnit
    | apply SameO.next
    | apply Same.ite
    | split
    | intro _
    | dsimp only

theorem execCmacVer_same {ctx : Nat} {s : State} : SameO s (execCmacVer ctx s) := by
  unfold execCmacVer
  try dsimp only
  with_reducible repeat' first
    | apply Same.rfl
    | assumption
    | apply classRow_same
    | apply Same.foldl
    | apply SameO.onUnit
    | apply SameO.next
    | apply Same.ite
    | split
    | intro _
    | dsimp only

theorem lcFinish_same {s : State} : Same s (lcFinish s) := by
  unfold lcFinish
  try dsimp only
  with_reducible repeat' first
    | apply Same.rfl
    | assumption
    | apply Same.trans (k := lcAdvance_same)
    | apply Same.foldl
    | split
    | intro _
    | dsimp only

theorem execColdStartAfterOrder_same {s : State} : SameO s (execColdStartAfterOrder s) := by
  unfold execColdStartAfterOrder
  try dsimp only
  with_reducible repeat' first
    | apply Same.rfl
    | assumption
    | apply Same.trans (k := coldReset_same)
    | apply Same.trans (k := coldStart_same)
    | apply Same.trans (k := lcFinish_same)
    | apply SameO.onUnit
    | apply SameO.next
    | apply Same.ite
    | split
    | intro _
    | dsimp only

theorem execCommitBucketRefill_same {s : State} : SameO s (execCommitBucketRefill s) := by
  unfold execCommitBucketRefill
  try dsimp only
  with_reducible repeat' first
    | apply Same.rfl
    | assumption
    | apply Same.trans (k := tryCommit_same)
    | (simp only [Same.mk]; apply Same.fold)
    | apply SameO.onUnit
    | apply SameO.next
    | intro _
    | dsimp only

theorem execCommitPeriodic_same {s : State} : SameO s (execCommitPeriodic s) := by
  unfold execCommitPeriodic
  try dsimp only
  with_reducible repeat' first
    | apply Same.rfl
    | assumption
    | (simp only [Same.mk]; apply Same.fold)
    | apply SameO.onUnit
    | apply SameO.next
    | apply Same.ite
    | split
    | intro _
    | dsimp only

theorem freeCtx_same {c : Nat} {posted : Bool} {s : State} : Same s (freeCtx c posted s) := by
  unfold freeCtx
  try dsimp only
  with_reducible repeat' first
    | apply Same.rfl
    | assumption
    | apply Same.trans (k := setAlloc_same)
    | apply Same.trans (k := setQ_same)
    | apply Same.trans (k := admitQ_same)
    | apply Same.trans (k := queueCheck_same)
    | (simp only [Same.mk]; apply Same.fold)
    | apply Same.ite
    | split
    | intro _
    | dsimp only

theorem gateAnswer_same {ticket : Nat} {resp : Bytes} {s : State} : Same s (gateAnswer ticket resp s) := by
  unfold gateAnswer
  try dsimp only
  with_reducible repeat' first
    | apply Same.rfl
    | assumption
    | apply Same.trans (k := fabWrite_same)
    | (simp only [Same.mk]; apply Same.fold)
    | apply Same.ite
    | split
    | intro _
    | dsimp only

theorem setKcw_same {w : Nat} {k : Kcw} {s : State} : Same s (setKcw w k s) := by
  unfold setKcw
  try dsimp only
  with_reducible repeat' first
    | apply Same.rfl
    | assumption
    | (simp only [Same.mk]; apply Same.fold)
    | intro _
    | dsimp only

theorem kcwFinish_same {w : Nat} {code : Nat} {kstat : Nat} {result : Bytes} {iv : Tab Word} {s : State} : Same s (kcwFinish w code kstat result iv s) := by
  unfold kcwFinish
  try dsimp only
  with_reducible repeat' first
    | apply Same.rfl
    | assumption
    | apply Same.trans (k := setKcw_same)
    | (simp only [Same.mk]; apply Same.fold)
    | apply Same.ite
    | split
    | intro _
    | dsimp only

theorem kstatOf_same {code : Nat} {s : State} : Same s (kstatOf code s).2 := by
  unfold kstatOf
  try dsimp only
  with_reducible repeat' first
    | apply Same.rfl
    | assumption
    | apply Same.trans (k := draw_same)
    | (apply draw_same_then; · assumption)
    | split
    | intro _
    | dsimp only

theorem kstatOf_same_then {code : Nat} {s : State} {s0_ : State} {r_ : _} {s_ : State} (h_ : (kstatOf code s) = (r_, s_)) (k_ : Same s0_ s) : Same s0_ s_ := by
  have j_ := k_.trans (@kstatOf_same code s); rw [h_] at j_; exact j_

theorem kcwFail_same {w : Nat} {code : Nat} {s : State} : Same s (kcwFail w code s) := by
  unfold kcwFail
  try dsimp only
  with_reducible repeat' first
    | apply Same.rfl
    | assumption
    | apply Same.trans (k := kcwFinish_same)
    | apply Same.trans (k := kstatOf_same)
    | (apply kstatOf_same_then; · assumption)
    | split
    | intro _
    | dsimp only

theorem kcwPost_same {w : Nat} {x : Ctx} {o : CtxOutcome} {s : State} : Same s (kcwPost w x o s) := by
  unfold kcwPost
  try dsimp only
  with_reducible repeat' first
    | apply Same.rfl
    | assumption
    | apply Same.trans (k := kcwFinish_same)
    | apply Same.trans (k := kcwFail_same)
    | apply Same.ite
    | split
    | intro _
    | dsimp only

theorem postQueue_same {c : Nat} {x : Ctx} {o : CtxOutcome} {fn : Fn} {qid : Nat} {s : State} : Same s (postQueue c x o fn qid s) := by
  unfold postQueue
  try dsimp only
  with_reducible repeat' first
    | apply Same.rfl
    | assumption
    | apply Same.trans (k := voidWhere_same)
    | apply Same.trans (k := setQ_same)
    | apply Same.trans (k := queueError_same)
    | apply Same.trans (k := hostWrite_same)
    | apply Same.trans (k := coalesce_same)
    | apply Same.trans (k := freeCtx_same)
    | (simp only [Same.mk]; apply Same.fold)
    | apply Same.ite
    | split
    | intro _
    | dsimp only

theorem execCompletionPost_same {ctx : Nat} {s : State} : SameO s (execCompletionPost ctx s) := by
  unfold execCompletionPost
  try dsimp only
  with_reducible repeat' first
    | apply Same.rfl
    | assumption
    | apply Same.trans (k := freeCtx_same)
    | apply Same.trans (k := gateAnswer_same)
    | apply Same.trans (k := kcwPost_same)
    | apply Same.trans (k := postQueue_same)
    | apply SameO.onUnit
    | apply SameO.next
    | apply Same.ite
    | split
    | intro _
    | dsimp only

theorem execContextDrained_same {ctx : Nat} {s : State} : SameO s (execContextDrained ctx s) := by
  unfold execContextDrained
  try dsimp only
  with_reducible repeat' first
    | apply Same.rfl
    | assumption
    | apply Same.trans (k := setCtx_same)
    | apply Same.trans (k := drainCtx_same)
    | apply Same.trans (k := freeCtx_same)
    | (simp only [Same.mk]; apply Same.fold)
    | apply SameO.onUnit
    | apply SameO.next
    | apply Same.ite
    | split
    | intro _
    | dsimp only

theorem serviceLeave_same {st : Nat} {c : Nat} {s : State} : Same s (serviceLeave st c s) := by
  unfold serviceLeave
  try dsimp only
  with_reducible repeat' first
    | apply Same.rfl
    | assumption
    | apply Same.trans (k := setStand_same)
    | (simp only [Same.mk]; apply Same.fold)
    | intro _
    | dsimp only

theorem retryTurn_same {c : Nat} {x : Ctx} {s : State} : Same s (retryTurn c x s) := by
  unfold retryTurn
  try dsimp only
  with_reducible repeat' first
    | apply Same.rfl
    | assumption
    | apply Same.trans (k := setCtx_same)
    | apply Same.trans (k := retryJoin_same)
    | apply Same.trans (k := serviceLeave_same)
    | (simp only [Same.mk]; apply Same.fold)
    | split
    | intro _
    | dsimp only

theorem runningWait_same {c : Nat} {x : Ctx} {s : State} : Same s (runningWait c x s) := by
  unfold runningWait
  try dsimp only
  with_reducible repeat' first
    | apply Same.rfl
    | assumption
    | apply Same.trans (k := startIv_same)
    | apply Same.trans (k := redispatch_same)
    | apply Same.trans (k := streamAgain_same)
    | apply Same.trans (k := retryTurn_same)
    | apply Same.ite
    | split
    | intro _
    | dsimp only

theorem runCtx_same {c : Nat} {x : Ctx} {s : State} : Same s (runCtx c x s) := by
  unfold runCtx
  try dsimp only
  with_reducible repeat' first
    | apply Same.rfl
    | assumption
    | apply Same.trans (k := setCtx_same)
    | (simp only [Same.mk]; apply Same.fold)
    | intro _
    | dsimp only

theorem withHuc_same {c : Nat} {st : Nat} {x : Ctx} {s : State} {go : State → State} (h_go : ∀  y, Same y (go  y)) : Same s (withHuc c st x s go) := by
  unfold withHuc
  try dsimp only
  with_reducible repeat' first
    | apply Same.rfl
    | assumption
    | apply Same.trans (k := settleFail_same)
    | apply Same.trans (k := hucPut_same)
    | apply Same.trans (k := h_go _)
    | apply Same.ite
    | split
    | intro _
    | dsimp only

theorem startHuc_same {c : Nat} {x : Ctx} {s : State} : Same s (startHuc c x s) := by
  unfold startHuc
  try dsimp only
  with_reducible repeat' first
    | apply Same.rfl
    | assumption
    | apply Same.trans (k := runCtx_same)
    | apply Same.trans (k := withHuc_same ?_)
    | (simp only [Same.mk]; apply Same.fold)
    | split
    | intro _
    | dsimp only

theorem laneDispatch_same {c : Nat} {st : Nat} {slot : Nat} {gen : Nat} {x : Ctx} {k : KeyRec} {s : State} : Same s (laneDispatch c st slot gen x k s) := by
  unfold laneDispatch
  try dsimp only
  with_reducible repeat' first
    | apply Same.rfl
    | assumption
    | apply Same.trans (k := settleFail_same)
    | apply Same.trans (k := waitFor_same)
    | apply Same.trans (k := beginLane_same)
    | apply Same.trans (k := takeInvocation_same)
    | (apply takeInvocation_same_then; · assumption)
    | (simp only [Same.mk]; apply Same.fold)
    | apply Same.ite
    | split
    | intro _
    | dsimp only

theorem takeIn_same {st : Nat} {x : Ctx} {s : State} : Same s (takeIn st x s).2 := by
  unfold takeIn
  try dsimp only
  with_reducible repeat' first
    | apply Same.rfl
    | assumption
    | apply Same.trans (k := drrTurn_same)
    | (apply drrTurn_same_then; · assumption)
    | apply Same.ite
    | split
    | intro _
    | dsimp only

theorem takeIn_same_then {st : Nat} {x : Ctx} {s : State} {s0_ : State} {r_ : _} {s_ : State} (h_ : (takeIn st x s) = (r_, s_)) (k_ : Same s0_ s) : Same s0_ s_ := by
  have j_ := k_.trans (@takeIn_same st x s); rw [h_] at j_; exact j_

theorem startLane_same {c : Nat} {x : Ctx} {s : State} : Same s (startLane c x s) := by
  unfold startLane
  try dsimp only
  with_reducible repeat' first
    | apply Same.rfl
    | assumption
    | apply Same.trans (k := waitFor_same)
    | apply Same.trans (k := laneDispatch_same)
    | apply Same.trans (k := takeIn_same)
    | (apply takeIn_same_then; · assumption)
    | (simp only [Same.mk]; apply Same.fold)
    | apply Same.ite
    | split
    | intro _
    | dsimp only

theorem startRandom_same {c : Nat} {x : Ctx} {s : State} : Same s (startRandom c x s) := by
  unfold startRandom
  try dsimp only
  with_reducible repeat' first
    | apply Same.rfl
    | assumption
    | apply Same.trans (k := setCtx_same)
    | apply Same.trans (k := waitFor_same)
    | apply Same.trans (k := askPiece_same)
    | (simp only [Same.mk]; apply Same.fold)
    | apply Same.ite
    | split
    | intro _
    | dsimp only

theorem startService_same {c : Nat} {x : Ctx} {s : State} : Same s (startService c x s) := by
  unfold startService
  try dsimp only
  with_reducible repeat' first
    | apply Same.rfl
    | assumption
    | apply Same.trans (k := setCtx_same)
    | apply Same.trans (k := settleFail_same)
    | apply Same.trans (k := waitFor_same)
    | apply Same.trans (k := serviceJoin_same)
    | apply Same.trans (k := serviceLeave_same)
    | apply Same.trans (k := runCtx_same)
    | apply Same.trans (k := withHuc_same ?_)
    | apply Same.trans (k := takeIn_same)
    | (apply takeIn_same_then; · assumption)
    | (simp only [Same.mk]; apply Same.fold)
    | apply Same.ite
    | split
    | intro _
    | dsimp only

theorem startStream_same {c : Nat} {x : Ctx} {s : State} : Same s (startStream c x s) := by
  unfold startStream
  try dsimp only
  with_reducible repeat' first
    | apply Same.rfl
    | assumption
    | apply Same.trans (k := settleFail_same)
    | apply Same.trans (k := waitFor_same)
    | apply Same.trans (k := streamBind_same)
    | apply Same.trans (k := runCtx_same)
    | apply Same.trans (k := takeIn_same)
    | (apply takeIn_same_then; · assumption)
    | (simp only [Same.mk]; apply Same.fold)
    | apply Same.ite
    | split
    | intro _
    | dsimp only

theorem waitStep_same {c : Nat} {x : Ctx} {s : State} : Same s (waitStep c x s) := by
  unfold waitStep
  try dsimp only
  with_reducible repeat' first
    | apply Same.rfl
    | assumption
    | apply Same.trans (k := askKeys_same)
    | apply Same.trans (k := leaseTry_same)
    | apply Same.trans (k := runningWait_same)
    | apply Same.trans (k := startHuc_same)
    | apply Same.trans (k := startLane_same)
    | apply Same.trans (k := startRandom_same)
    | apply Same.trans (k := startService_same)
    | apply Same.trans (k := startStream_same)
    | apply Same.ite
    | split
    | intro _
    | dsimp only

theorem execContextWaitSatisfied_same {ctx : Nat} {s : State} : SameO s (execContextWaitSatisfied ctx s) := by
  unfold execContextWaitSatisfied
  try dsimp only
  with_reducible repeat' first
    | apply Same.rfl
    | assumption
    | apply Same.trans (k := waitStep_same)
    | apply SameO.onUnit
    | apply SameO.next
    | split
    | intro _
    | dsimp only

theorem execCoppiceStep_same {slot : Nat} {s : State} : SameO s (execCoppiceStep slot s) := by
  unfold execCoppiceStep
  try dsimp only
  with_reducible repeat' first
    | apply Same.rfl
    | assumption
    | apply Same.trans (k := takeWire_same)
    | (apply takeWire_same_then; · assumption)
    | (simp only [Same.mk]; apply Same.fold)
    | apply SameO.onUnit
    | apply SameO.next
    | apply Same.ite
    | split
    | intro _
    | dsimp only

theorem execCoreFailure_same {core : Nat} {s : State} : SameO s (execCoreFailure core s) := by
  unfold execCoreFailure
  try dsimp only
  with_reducible repeat' first
    | apply Same.rfl
    | assumption
    | apply Same.trans (k := coreFail_same)
    | apply SameO.onUnit
    | apply SameO.next
    | intro _
    | dsimp only

theorem newCounter_same {o : Nat} {s : State} : Same s (newCounter o s).2 := by
  unfold newCounter
  try dsimp only
  with_reducible repeat' first
    | apply Same.rfl
    | assumption
    | apply Same.trans (k := storeChange_same)
    | (simp only [Same.mk]; apply Same.fold)
    | split
    | intro _
    | dsimp only

theorem newCounter_same_then {o : Nat} {s : State} {s0_ : State} {r_ : _} {s_ : State} (h_ : (newCounter o s) = (r_, s_)) (k_ : Same s0_ s) : Same s0_ s_ := by
  have j_ := k_.trans (@newCounter_same o s); rw [h_] at j_; exact j_

theorem execCounterCreate_same {mb : Mb} {s : State} : SameO s (execCounterCreate mb s) := by
  unfold execCounterCreate
  try dsimp only
  with_reducible repeat' first
    | apply Same.rfl
    | assumption
    | apply Same.trans (k := maybeDurable_same)
    | (apply maybeDurable_same_then; · assumption)
    | apply runCmd_same
    | apply Same.trans (k := newCounter_same)
    | (apply newCounter_same_then; · assumption)
    | (simp only [Same.mk]; apply Same.fold)
    | apply SameO.onUnit
    | apply SameO.next
    | apply Same.direct
    | apply Same.storeRun
    | apply Same.storeCmd
    | split
    | intro _
    | dsimp only

theorem execCounterDestroy_same {mb : Mb} {s : State} : SameO s (execCounterDestroy mb s) := by
  unfold execCounterDestroy
  try dsimp only
  with_reducible repeat' first
    | apply Same.rfl
    | assumption
    | apply Same.trans (k := storeChange_same)
    | apply runCmd_same
    | (simp only [Same.mk]; apply Same.fold)
    | apply SameO.onUnit
    | apply SameO.next
    | apply Same.direct
    | apply Same.storeRun
    | apply Same.storeCmd
    | intro _
    | dsimp only

theorem execCounterInc_same {mb : Mb} {s : State} : SameO s (execCounterInc mb s) := by
  unfold execCounterInc
  try dsimp only
  with_reducible repeat' first
    | apply Same.rfl
    | assumption
    | apply Same.trans (k := counterIncRun_same)
    | (apply counterIncRun_same_then; · assumption)
    | apply runCmd_same
    | apply SameO.onUnit
    | apply SameO.next
    | apply Same.direct
    | apply Same.storeRun
    | apply Same.storeCmd
    | intro _
    | dsimp only

theorem execCounterRead_same {mb : Mb} {s : State} : SameO s (execCounterRead mb s) := by
  unfold execCounterRead
  try dsimp only
  with_reducible repeat' first
    | apply Same.rfl
    | assumption
    | apply runCmd_same
    | (simp only [Same.mk]; apply Same.fold)
    | apply SameO.onUnit
    | apply SameO.next
    | apply Same.direct
    | apply Same.storeRead
    | split
    | intro _
    | dsimp only

theorem execCqCoalTimer_same {fn : Fn} {qid : Nat} {s : State} : SameO s (execCqCoalTimer fn qid s) := by
  unfold execCqCoalTimer
  try dsimp only
  with_reducible repeat' first
    | apply Same.rfl
    | assumption
    | apply Same.trans (k := sendVec_same)
    | apply Same.trans (k := setQ_same)
    | (simp only [Same.mk]; apply Same.fold)
    | apply SameO.onUnit
    | apply SameO.next
    | apply Same.ite
    | split
    | intro _
    | dsimp only

theorem execCredAdd_same {mb : Mb} {s : State} : SameO s (execCredAdd mb s) := by
  unfold execCredAdd
  try dsimp only
  with_reducible repeat' first
    | apply Same.rfl
    | assumption
    | apply Same.trans (k := credAddRun_same)
    | (apply credAddRun_same_then; · assumption)
    | apply runCmd_same
    | apply SameO.onUnit
    | apply SameO.next
    | apply Same.guarded
    | apply Same.storeRun
    | intro _
    | dsimp only

theorem execCredRevoke_same {mb : Mb} {s : State} : SameO s (execCredRevoke mb s) := by
  unfold execCredRevoke
  try dsimp only
  with_reducible repeat' first
    | apply Same.rfl
    | assumption
    | apply Same.trans (k := credRevokeRun_same)
    | (apply credRevokeRun_same_then; · assumption)
    | apply runCmd_same
    | apply SameO.onUnit
    | apply SameO.next
    | apply Same.guarded
    | apply Same.storeRun
    | intro _
    | dsimp only

theorem execCtr_same {ctx : Nat} {s : State} : SameO s (execCtr ctx s) := by
  unfold execCtr
  try dsimp only
  with_reducible repeat' first
    | apply Same.rfl
    | assumption
    | apply classRow_same
    | apply Same.foldl
    | apply SameO.onUnit
    | apply SameO.next
    | apply Same.ite
    | split
    | intro _
    | dsimp only

theorem releaseHeld_same {fn : Fn} {s : State} : Same s (releaseHeld fn s) := by
  unfold releaseHeld
  try dsimp only
  with_reducible repeat' first
    | apply Same.rfl
    | assumption
    | apply Same.trans (k := setFn_same)
    | apply Same.trans (k := sendVec_same)
    | (simp only [Same.mk]; apply Same.fold)
    | apply Same.foldl
    | apply Same.ite
    | split
    | intro _
    | dsimp only

theorem execD0Return_same {fn : Fn} {s : State} : SameO s (execD0Return fn s) := by
  unfold execD0Return
  try dsimp only
  with_reducible repeat' first
    | apply Same.rfl
    | assumption
    | apply Same.trans (k := modFn_same)
    | apply Same.trans (k := hostWake_same)
    | apply Same.trans (k := releaseHeld_same)
    | (simp only [Same.mk]; apply Same.fold)
    | apply Same.foldl
    | apply SameO.onUnit
    | apply SameO.next
    | apply Same.ite
    | split
    | intro _
    | dsimp only

theorem execD3hotEntry_same {fn : Fn} {s : State} : SameO s (execD3hotEntry fn s) := by
  unfold execD3hotEntry
  try dsimp only
  with_reducible repeat' first
    | apply Same.rfl
    | assumption
    | apply Same.trans (k := modFn_same)
    | (simp only [Same.mk]; apply Same.fold)
    | apply SameO.onUnit
    | apply SameO.next
    | apply Same.ite
    | split
    | intro _
    | dsimp only

theorem gateResult_same {result : Nat} {data : DWord} {s : State} : Same s (gateResult result data s) := by
  unfold gateResult
  try dsimp only
  with_reducible repeat' first
    | apply Same.rfl
    | assumption
    | (simp only [Same.mk]; apply Same.fold)
    | intro _
    | dsimp only

theorem gateCore_same {core : Nat} {f : State → State} {s : State} (h_f : ∀  y, Same y (f  y)) : Same s (gateCore core f s) := by
  unfold gateCore
  try dsimp only
  with_reducible repeat' first
    | apply Same.rfl
    | assumption
    | apply Same.trans (k := gateResult_same)
    | apply Same.trans (k := h_f _)
    | apply Same.ite
    | split
    | intro _
    | dsimp only

theorem portEnds_same {stand : Nat} {r : SbkReq} {result : Nat} {s : State} : Same s (portEnds stand r result s) := by
  unfold portEnds
  try dsimp only
  with_reducible repeat' first
    | apply Same.rfl
    | assumption
    | apply Same.trans (k := setBank_same)
    | (simp only [Same.mk]; apply Same.fold)
    | split
    | intro _
    | dsimp only

theorem portRefused_same {st : Nat} {s : State} : Same s (portRefused st s) := by
  unfold portRefused
  try dsimp only
  with_reducible repeat' first
    | apply Same.rfl
    | assumption
    | apply Same.trans (k := abort_same)
    | apply Same.trans (k := raiseLine_same)
    | apply Same.trans (k := setFeed_same)
    | apply Same.trans (k := portEnds_same)
    | split
    | intro _
    | dsimp only

theorem wmaOver_same {u : Nat} {core : Nat} {v : Nat} {s : State} : Same s (wmaOver u core v s) := by
  unfold wmaOver
  try dsimp only
  with_reducible repeat' first
    | apply Same.rfl
    | assumption
    | apply Same.trans (k := wmaEnds_same)
    | (simp only [Same.mk]; apply Same.fold)
    | intro _
    | dsimp only

theorem wmaRefused_same {u : Nat} {s : State} : Same s (wmaRefused u s) := by
  unfold wmaRefused
  try dsimp only
  with_reducible repeat' first
    | apply Same.rfl
    | assumption
    | apply Same.trans (k := setWma_same)
    | apply Same.trans (k := wmaOver_same)
    | (simp only [Same.mk]; apply Same.fold)
    | apply Same.ite
    | split
    | intro _
    | dsimp only

theorem masterFault_same {m : Nat} {cause : Nat} {addr : Nat} {ctx : Option Nat} {s : State} : Same s (masterFault m cause addr ctx s) := by
  unfold masterFault
  try dsimp only
  with_reducible repeat' first
    | apply Same.rfl
    | assumption
    | apply Same.trans (k := putDge_same)
    | apply Same.trans (k := dropFrames_same)
    | apply Same.trans (k := ownRow_same ?_)
    | apply Same.trans (k := trap_same)
    | apply Same.trans (k := dgeResume_same)
    | apply Same.trans (k := engineRefused_same)
    | apply Same.trans (k := portRefused_same)
    | apply Same.trans (k := wmaRefused_same)
    | (simp only [Same.mk]; apply Same.fold)
    | apply Same.ite
    | split
    | intro _
    | dsimp only

theorem gateTake_same {core : Nat} {addr : Nat} {s : State} : Same s (gateTake core addr s) := by
  unfold gateTake
  try dsimp only
  with_reducible repeat' first
    | apply Same.rfl
    | assumption
    | apply Same.trans (k := setCore_same)
    | apply Same.trans (k := acuProbe_same)
    | apply Same.trans (k := fabWrite_same)
    | (simp only [Same.mk]; apply Same.fold)
    | apply Same.ite
    | split
    | intro _
    | dsimp only

theorem gateRegWrite_same {master : Nat} {o : Nat} {n : Nat} {v : Nat} {s : State} : Same s (gateRegWrite master o n v s) := by
  unfold gateRegWrite
  try dsimp only
  with_reducible repeat' first
    | apply Same.rfl
    | assumption
    | apply Same.trans (k := setCore_same)
    | apply Same.trans (k := gateTake_same)
    | (simp only [Same.mk]; apply Same.fold)
    | apply Same.ite
    | split
    | intro _
    | dsimp only

end Sys2Proof.Machine
end

