-- ==== Sys2Proof/Laws/Apart4.lean ====
section
/-! SUPPORT. Operations and meanings that leave the queue, the clock and the COMMIT partition alone, callees first (4 of 6). -/

namespace Sys2Proof.Machine

theorem nonceResume_same {s : State} : Same s (nonceResume s) := by
  unfold nonceResume
  try dsimp only
  with_reducible repeat' first
    | apply Same.rfl
    | assumption
    | apply Same.trans (k := takeHeart_same)
    | (apply takeHeart_same_then; · assumption)
    | (simp only [Same.mk]; apply Same.fold)
    | apply Same.ite
    | split
    | intro _
    | dsimp only

theorem execHwdDbgCtrlNew_same {s : State} : SameO s (execHwdDbgCtrlNew s) := by
  unfold execHwdDbgCtrlNew
  try dsimp only
  with_reducible repeat' first
    | apply Same.rfl
    | assumption
    | apply Same.trans (k := nonceResume_same)
    | (simp only [Same.mk]; apply Same.fold)
    | apply SameO.onUnit
    | apply SameO.next
    | intro _
    | dsimp only

theorem execHwdDbgCtrlRevoke_same {s : State} : SameO s (execHwdDbgCtrlRevoke s) := by
  unfold execHwdDbgCtrlRevoke
  try dsimp only
  with_reducible repeat' first
    | apply Same.rfl
    | assumption
    | apply Same.trans (k := clearEnables_same)
    | apply SameO.onUnit
    | apply SameO.next
    | intro _
    | dsimp only

theorem trustedRestart_same {reason : Nat} {s : State} : Same s (trustedRestart reason s) := by
  unfold trustedRestart
  try dsimp only
  with_reducible repeat' first
    | apply Same.rfl
    | assumption
    | apply Same.trans (k := beginRestart_same)
    | apply Same.trans (k := enterSeedling_same)
    | apply Same.ite
    | split
    | intro _
    | dsimp only

theorem execHwdRestartReq_same {reason : Nat} {s : State} : SameO s (execHwdRestartReq reason s) := by
  unfold execHwdRestartReq
  try dsimp only
  with_reducible repeat' first
    | apply Same.rfl
    | assumption
    | apply Same.trans (k := trustedRestart_same)
    | apply SameO.onUnit
    | apply SameO.next
    | apply Same.ite
    | split
    | intro _
    | dsimp only

theorem hwdWrite_same {o : Nat} {n : Nat} {v : Nat} {s : State} : Same s (hwdWrite o n v s) := by
  unfold hwdWrite
  try dsimp only
  with_reducible repeat' first
    | apply Same.rfl
    | assumption
    | apply Same.trans (k := dozeCtrlWrite_same)
    | apply execHwdDbgCtrlNew_same
    | apply execHwdDbgCtrlRevoke_same
    | apply execHwdRestartReq_same
    | apply Same.after
    | apply Same.ite
    | split
    | intro _
    | dsimp only

theorem sapWrite_same {o : Nat} {n : Nat} {v : Nat} {s : State} : Same s (sapWrite o n v s) := by
  unfold sapWrite
  try dsimp only
  with_reducible repeat' first
    | apply Same.rfl
    | assumption
    | (simp only [Same.mk]; apply Same.fold)
    | apply Same.ite
    | split
    | intro _
    | dsimp only

theorem portReq_same {stand : Nat} {t : FabricTag} {addr : Nat} {count : Nat} {s : State} : Same s (portReq stand t addr count s) := by
  unfold portReq
  try dsimp only
  with_reducible repeat' first
    | apply Same.rfl
    | assumption
    | apply Same.trans (k := setBank_same)
    | apply Same.trans (k := lowerLine_same)
    | (simp only [Same.mk]; apply Same.fold)
    | apply Same.ite
    | split
    | intro _
    | dsimp only

theorem sbkCtrl_same {b : Nat} {v : Nat} {s : State} : Same s (sbkCtrl b v s) := by
  unfold sbkCtrl
  try dsimp only
  with_reducible repeat' first
    | apply Same.rfl
    | assumption
    | apply Same.trans (k := refreshMode_same)
    | apply Same.trans (k := setBank_same)
    | (simp only [Same.mk]; apply Same.fold)
    | apply Same.ite
    | split
    | intro _
    | dsimp only

theorem sbkRegWrite_same {b : Nat} {t : FabricTag} {o : Nat} {n : Nat} {v : Nat} {s : State} : Same s (sbkRegWrite b t o n v s) := by
  unfold sbkRegWrite
  try dsimp only
  with_reducible repeat' first
    | apply Same.rfl
    | assumption
    | apply Same.trans (k := setBank_same)
    | apply Same.trans (k := cancelPort_same)
    | apply Same.trans (k := portReq_same)
    | apply Same.trans (k := sbkCtrl_same)
    | (simp only [Same.mk]; apply Same.fold)
    | apply Same.ite
    | split
    | intro _
    | dsimp only

theorem standCtrlWrite_same {st : Nat} {o : Nat} {n : Nat} {v : Nat} {s : State} : Same s (standCtrlWrite st o n v s) := by
  unfold standCtrlWrite
  try dsimp only
  with_reducible repeat' first
    | apply Same.rfl
    | assumption
    | apply Same.trans (k := setStand_same)
    | (simp only [Same.mk]; apply Same.fold)
    | apply Same.ite
    | split
    | intro _
    | dsimp only

theorem vfCtrlWrite_same {f : Nat} {v : Nat} {s : State} : Same s (vfCtrlWrite f v s) := by
  unfold vfCtrlWrite
  try dsimp only
  with_reducible repeat' first
    | apply Same.rfl
    | assumption
    | apply Same.trans (k := setAlloc_same)
    | (simp only [Same.mk]; apply Same.fold)
    | apply Same.ite
    | split
    | intro _
    | dsimp only

theorem weightWrite_same {f : Nat} {v : Nat} {s : State} : Same s (weightWrite f v s) := by
  unfold weightWrite
  try dsimp only
  with_reducible repeat' first
    | apply Same.rfl
    | assumption
    | apply Same.trans (k := setAlloc_same)
    | (simp only [Same.mk]; apply Same.fold)
    | split
    | intro _
    | dsimp only

theorem regWrite_same {t : FabricTag} {x : Nat} {n : Nat} {v : Nat} {s : State} : Same s (regWrite t x n v s) := by
  unfold regWrite
  try dsimp only
  with_reducible repeat' first
    | apply Same.rfl
    | assumption
    | apply Same.trans (k := acuRegWrite_same)
    | apply Same.trans (k := coreRegWrite_same)
    | apply Same.trans (k := dgeWrite_same)
    | apply Same.trans (k := gateRegWrite_same)
    | apply Same.trans (k := hwdWrite_same)
    | apply Same.trans (k := sapWrite_same)
    | apply Same.trans (k := sbkRegWrite_same)
    | apply Same.trans (k := standCtrlWrite_same)
    | apply Same.trans (k := vfCtrlWrite_same)
    | apply Same.trans (k := weightWrite_same)
    | (simp only [Same.mk]; apply Same.fold)
    | apply Same.after
    | apply Same.ite
    | split
    | intro _
    | dsimp only

theorem perform_same {t : FabricTag} {target : Nat} {a : Access} {s : State} : Same s (perform t target a s) := by
  unfold perform
  try dsimp only
  with_reducible repeat' first
    | apply Same.rfl
    | assumption
    | apply Same.trans (k := fabWrite_same)
    | apply Same.trans (k := regWrite_same)
    | split
    | intro _
    | dsimp only

theorem transact_same {t : FabricTag} {target : Nat} {a : Access} {s : State} : Same s (transact t target a s) := by
  unfold transact
  try dsimp only
  with_reducible repeat' first
    | apply Same.rfl
    | assumption
    | apply Same.trans (k := acceptSeq_same)
    | apply Same.trans (k := acuIntegrity_same)
    | apply Same.trans (k := acuRefuse_same)
    | apply Same.trans (k := issue_same)
    | (apply issue_same_then; · assumption)
    | apply Same.trans (k := masterFault_same)
    | apply Same.trans (k := perform_same)
    | apply Same.ite
    | split
    | intro _
    | dsimp only

theorem gateFabric_same {t : FabricTag} {addr : Nat} {data : Nat} {write : Bool} {s : State} : Same s (gateFabric t addr data write s) := by
  unfold gateFabric
  try dsimp only
  with_reducible repeat' first
    | apply Same.rfl
    | assumption
    | apply Same.trans (k := holdAccess_same)
    | apply Same.trans (k := gateResult_same)
    | apply Same.trans (k := transact_same)
    | apply Same.ite
    | split
    | intro _
    | dsimp only

theorem gateHalted_same {core : Nat} {f : State → State} {s : State} (h_f : ∀  y, Same y (f  y)) : Same s (gateHalted core f s) := by
  unfold gateHalted
  try dsimp only
  with_reducible repeat' first
    | apply Same.rfl
    | assumption
    | apply Same.trans (k := gateResult_same)
    | apply Same.trans (k := gateCore_same ?_)
    | apply Same.trans (k := h_f _)
    | apply Same.ite
    | split
    | intro _
    | dsimp only

theorem gateSpace_same {addr : Nat} {data : Nat} {write : Bool} {s : State} : Same s (gateSpace addr data write s) := by
  unfold gateSpace
  try dsimp only
  with_reducible repeat' first
    | apply Same.rfl
    | assumption
    | apply Same.trans (k := gateResult_same)
    | apply Same.trans (k := hwdWrite_same)
    | apply Same.after
    | apply Same.ite
    | split
    | intro _
    | dsimp only

theorem gateAccess_same {a : DebugAccess} {s : State} : Same s (gateAccess a s) := by
  unfold gateAccess
  try dsimp only
  with_reducible repeat' first
    | apply Same.rfl
    | assumption
    | apply Same.trans (k := draw_same)
    | (apply draw_same_then; · assumption)
    | apply Same.trans (k := dbgRegWrite_same)
    | apply Same.trans (k := gateResult_same)
    | apply Same.trans (k := gateCore_same ?_)
    | apply Same.trans (k := gateFabric_same)
    | apply Same.trans (k := gateHalted_same ?_)
    | apply Same.trans (k := gateSpace_same)
    | (simp only [Same.mk]; apply Same.fold)
    | apply Same.ite
    | split
    | intro _
    | dsimp only

theorem execDbgAccess_same {a : DebugAccess} {s : State} : SameO s (execDbgAccess a s) := by
  unfold execDbgAccess
  try dsimp only
  with_reducible repeat' first
    | apply Same.rfl
    | assumption
    | apply Same.trans (k := tapLoad_same)
    | apply Same.trans (k := gateAccess_same)
    | apply SameO.onUnit
    | apply SameO.next
    | apply Same.ite
    | split
    | intro _
    | dsimp only

theorem execDbgNonce_same {s : State} : SameO s (execDbgNonce s) := by
  unfold execDbgNonce
  try dsimp only
  with_reducible repeat' first
    | apply Same.rfl
    | assumption
    | apply Same.trans (k := tapLoad_same)
    | apply SameO.onUnit
    | apply SameO.next
    | intro _
    | dsimp only

theorem execDbgStatus_same {s : State} : SameO s (execDbgStatus s) := by
  unfold execDbgStatus
  try dsimp only
  with_reducible repeat' first
    | apply Same.rfl
    | assumption
    | apply Same.trans (k := tapLoad_same)
    | apply SameO.onUnit
    | apply SameO.next
    | intro _
    | dsimp only

theorem execDbgToken_same {statement : Bytes} {s : State} : SameO s (execDbgToken statement s) := by
  unfold execDbgToken
  try dsimp only
  with_reducible repeat' first
    | apply Same.rfl
    | assumption
    | apply Same.trans (k := consumeNonce_same)
    | apply Same.trans (k := grantDebug_same)
    | apply Same.trans (k := tapLoad_same)
    | (simp only [Same.mk]; apply Same.fold)
    | apply SameO.onUnit
    | apply SameO.next
    | apply Same.ite
    | split
    | intro _
    | dsimp only

theorem execDeadlineExpiry_same {ctx : Nat} {s : State} : SameO s (execDeadlineExpiry ctx s) := by
  unfold execDeadlineExpiry
  try dsimp only
  with_reducible repeat' first
    | apply Same.rfl
    | assumption
    | apply Same.trans (k := abort_same)
    | apply SameO.onUnit
    | apply SameO.next
    | apply Same.ite
    | split
    | intro _
    | dsimp only

theorem execDebugGrant_same {mb : Mb} {s : State} : SameO s (execDebugGrant mb s) := by
  unfold execDebugGrant
  try dsimp only
  with_reducible repeat' first
    | apply Same.rfl
    | assumption
    | apply Same.trans (k := debugGrantRun_same)
    | (apply debugGrantRun_same_then; · assumption)
    | apply runCmd_same
    | apply SameO.onUnit
    | apply SameO.next
    | apply Same.guarded
    | apply Same.ite
    | split
    | intro _
    | dsimp only

theorem execDebugRevoke_same {mb : Mb} {s : State} : SameO s (execDebugRevoke mb s) := by
  unfold execDebugRevoke
  try dsimp only
  with_reducible repeat' first
    | apply Same.rfl
    | assumption
    | apply Same.trans (k := clearEnables_same)
    | apply runCmd_same
    | apply SameO.onUnit
    | apply SameO.next
    | intro _
    | dsimp only

theorem execDebugStatus_same {mb : Mb} {s : State} : SameO s (execDebugStatus mb s) := by
  unfold execDebugStatus
  try dsimp only
  with_reducible repeat' first
    | apply Same.rfl
    | assumption
    | apply runCmd_same
    | (simp only [Same.mk]; apply Same.fold)
    | apply SameO.onUnit
    | apply SameO.next
    | intro _
    | dsimp only

theorem execDerive_same {ctx : Nat} {s : State} : SameO s (execDerive ctx s) := by
  unfold execDerive
  try dsimp only
  with_reducible repeat' first
    | apply Same.rfl
    | assumption
    | apply classRow_same
    | apply Same.foldl
    | apply SameO.onUnit
    | apply SameO.next
    | apply Same.ite
    | split
    | intro _
    | dsimp only

theorem execDeviceEvidence_same {mb : Mb} {s : State} : SameO s (execDeviceEvidence mb s) := by
  unfold execDeviceEvidence
  try dsimp only
  with_reducible repeat' first
    | apply Same.rfl
    | assumption
    | apply Same.trans (k := deviceEvidenceRun_same)
    | (apply deviceEvidenceRun_same_then; · assumption)
    | apply runCmd_same
    | apply SameO.onUnit
    | apply SameO.next
    | intro _
    | dsimp only

theorem execDeviceIdentify_same {mb : Mb} {s : State} : SameO s (execDeviceIdentify mb s) := by
  unfold execDeviceIdentify
  try dsimp only
  with_reducible repeat' first
    | apply Same.rfl
    | assumption
    | apply runCmd_same
    | (simp only [Same.mk]; apply Same.fold)
    | apply SameO.onUnit
    | apply SameO.next
    | intro _
    | dsimp only

theorem execDeviceStatus_same {mb : Mb} {s : State} : SameO s (execDeviceStatus mb s) := by
  unfold execDeviceStatus
  try dsimp only
  with_reducible repeat' first
    | apply Same.rfl
    | assumption
    | apply runCmd_same
    | (simp only [Same.mk]; apply Same.fold)
    | apply SameO.onUnit
    | apply SameO.next
    | intro _
    | dsimp only

theorem execDgeAbort_same {g : Nat} {master : Nat} {s : State} : SameO s (execDgeAbort g master s) := by
  unfold execDgeAbort
  try dsimp only
  with_reducible repeat' first
    | apply Same.rfl
    | assumption
    | apply Same.trans (k := dgeStrobe_same)
    | apply SameO.onUnit
    | apply SameO.next
    | intro _
    | dsimp only

theorem refreshPmp_same {core : Nat} {s : State} : Same s (refreshPmp core s) := by
  unfold refreshPmp
  try dsimp only
  with_reducible repeat' first
    | apply Same.rfl
    | assumption
    | apply Same.trans (k := setPmp_same)
    | split
    | intro _
    | dsimp only

theorem execDgeAcquire_same {core : Nat} {s : State} : SameO s (execDgeAcquire core s) := by
  unfold execDgeAcquire
  try dsimp only
  with_reducible repeat' first
    | apply Same.rfl
    | assumption
    | apply Same.trans (k := modApplet_same)
    | apply Same.trans (k := schedule_same)
    | apply Same.trans (k := grantDge_same)
    | apply ecall_same
    | apply Same.trans (k := ecallRet_same)
    | apply Same.trans (k := saveApplet_same)
    | apply Same.trans (k := refreshPmp_same)
    | (simp only [Same.mk]; apply Same.fold)
    | apply SameO.onUnit
    | apply SameO.next
    | apply Same.ite
    | split
    | intro _
    | dsimp only

theorem execDgeCtrlConfig_same {g : Nat} {master : Nat} {value : DWord} {s : State} : SameO s (execDgeCtrlConfig g master value s) := by
  unfold execDgeCtrlConfig
  try dsimp only
  with_reducible repeat' first
    | apply Same.rfl
    | assumption
    | apply Same.trans (k := dgePort_same)
    | apply SameO.onUnit
    | apply SameO.next
    | intro _
    | dsimp only

theorem execDgeData_same {g : Nat} {master : Nat} {value : DWord} {s : State} : SameO s (execDgeData g master value s) := by
  unfold execDgeData
  try dsimp only
  with_reducible repeat' first
    | apply Same.rfl
    | assumption
    | apply Same.trans (k := dgePort_same)
    | apply SameO.onUnit
    | apply SameO.next
    | intro _
    | dsimp only

theorem execDgeFault_same {g : Nat} {s : State} : SameO s (execDgeFault g s) := by
  unfold execDgeFault
  try dsimp only
  with_reducible repeat' first
    | apply Same.rfl
    | assumption
    | apply Same.trans (k := dgeFail_same)
    | apply SameO.onUnit
    | apply SameO.next
    | intro _
    | dsimp only

theorem execDgeKeyClr_same {g : Nat} {master : Nat} {s : State} : SameO s (execDgeKeyClr g master s) := by
  unfold execDgeKeyClr
  try dsimp only
  with_reducible repeat' first
    | apply Same.rfl
    | assumption
    | apply Same.trans (k := dgeStrobe_same)
    | apply SameO.onUnit
    | apply SameO.next
    | intro _
    | dsimp only

theorem execDgeKeyLoaded_same {g : Nat} {s : State} : SameO s (execDgeKeyLoaded g s) := by
  unfold execDgeKeyLoaded
  try dsimp only
  with_reducible repeat' first
    | apply Same.rfl
    | assumption
    | apply Same.trans (k := dgeResume_same)
    | apply Same.trans (k := dgeKeyLoaded_same)
    | apply SameO.onUnit
    | apply SameO.next
    | intro _
    | dsimp only

theorem execDgeKeydata_same {g : Nat} {master : Nat} {value : DWord} {s : State} : SameO s (execDgeKeydata g master value s) := by
  unfold execDgeKeydata
  try dsimp only
  with_reducible repeat' first
    | apply Same.rfl
    | assumption
    | apply Same.trans (k := dgePort_same)
    | apply SameO.onUnit
    | apply SameO.next
    | intro _
    | dsimp only

theorem execDgeKeyhandle_same {g : Nat} {master : Nat} {value : DWord} {s : State} : SameO s (execDgeKeyhandle g master value s) := by
  unfold execDgeKeyhandle
  try dsimp only
  with_reducible repeat' first
    | apply Same.rfl
    | assumption
    | apply Same.trans (k := dgePort_same)
    | apply SameO.onUnit
    | apply SameO.next
    | intro _
    | dsimp only

theorem execDgeLastw_same {g : Nat} {master : Nat} {value : DWord} {s : State} : SameO s (execDgeLastw g master value s) := by
  unfold execDgeLastw
  try dsimp only
  with_reducible repeat' first
    | apply Same.rfl
    | assumption
    | apply Same.trans (k := dgePort_same)
    | apply SameO.onUnit
    | apply SameO.next
    | intro _
    | dsimp only

theorem messageDone_same {g : Nat} {s : State} : Same s (messageDone g s) := by
  unfold messageDone
  try dsimp only
  with_reducible repeat' first
    | apply Same.rfl
    | assumption
    | apply Same.trans (k := raiseLine_same)
    | apply Same.trans (k := drawBytes_same)
    | (apply drawBytes_same_then; · assumption)
    | apply Same.trans (k := putDge_same)
    | (simp only [Same.mk]; apply Same.fold)
    | apply Same.ite
    | split
    | intro _
    | dsimp only

theorem execDgeMessageDone_same {g : Nat} {s : State} : SameO s (execDgeMessageDone g s) := by
  unfold execDgeMessageDone
  try dsimp only
  with_reducible repeat' first
    | apply Same.rfl
    | assumption
    | apply Same.trans (k := dgeResume_same)
    | apply Same.trans (k := messageDone_same)
    | apply SameO.onUnit
    | apply SameO.next
    | intro _
    | dsimp only

theorem execDgeRelease_same {core : Nat} {s : State} : SameO s (execDgeRelease core s) := by
  unfold execDgeRelease
  try dsimp only
  with_reducible repeat' first
    | apply Same.rfl
    | assumption
    | apply Same.trans (k := releaseDge_same)
    | apply ecall_same
    | apply Same.trans (k := ecallRet_same)
    | apply Same.trans (k := refreshPmp_same)
    | apply SameO.onUnit
    | apply SameO.next
    | apply Same.ite
    | split
    | intro _
    | dsimp only

theorem execDgeRelease0_same {g : Nat} {master : Nat} {s : State} : SameO s (execDgeRelease0 g master s) := by
  unfold execDgeRelease0
  try dsimp only
  with_reducible repeat' first
    | apply Same.rfl
    | assumption
    | apply Same.trans (k := dgeStrobe_same)
    | apply SameO.onUnit
    | apply SameO.next
    | intro _
    | dsimp only

theorem execDgeRestore_same {g : Nat} {master : Nat} {s : State} : SameO s (execDgeRestore g master s) := by
  unfold execDgeRestore
  try dsimp only
  with_reducible repeat' first
    | apply Same.rfl
    | assumption
    | apply Same.trans (k := dgeStrobe_same)
    | apply SameO.onUnit
    | apply SameO.next
    | intro _
    | dsimp only

theorem execDgeSave_same {g : Nat} {master : Nat} {s : State} : SameO s (execDgeSave g master s) := by
  unfold execDgeSave
  try dsimp only
  with_reducible repeat' first
    | apply Same.rfl
    | assumption
    | apply Same.trans (k := dgeStrobe_same)
    | apply SameO.onUnit
    | apply SameO.next
    | intro _
    | dsimp only

theorem restoreRead_same {g : Nat} {t : FabricTag} {d : Dge} {b : Bytes} {s : State} : Same s (restoreRead g t d b s) := by
  unfold restoreRead
  try dsimp only
  with_reducible repeat' first
    | apply Same.rfl
    | assumption
    | apply Same.trans (k := putDge_same)
    | apply Same.trans (k := extendUses_same)
    | apply Same.trans (k := dgeLease_same)
    | (simp only [Same.mk]; apply Same.fold)
    | apply Same.ite
    | split
    | intro _
    | dsimp only

theorem restoreDone_same {g : Nat} {t : FabricTag} {d : Dge} {s : State} : Same s (restoreDone g t d s) := by
  unfold restoreDone
  try dsimp only
  with_reducible repeat' first
    | apply Same.rfl
    | assumption
    | apply Same.trans (k := acuProbe_same)
    | apply Same.trans (k := restoreRead_same)
    | apply Same.ite
    | split
    | intro _
    | dsimp only

theorem saveDone_same {g : Nat} {t : FabricTag} {d : Dge} {s : State} : Same s (saveDone g t d s) := by
  unfold saveDone
  try dsimp only
  with_reducible repeat' first
    | apply Same.rfl
    | assumption
    | apply Same.trans (k := acuProbe_same)
    | apply Same.trans (k := fabWrite_same)
    | apply Same.trans (k := putDge_same)
    | (simp only [Same.mk]; apply Same.fold)
    | apply Same.ite
    | split
    | intro _
    | dsimp only

theorem execDgeSaveDone_same {g : Nat} {s : State} : SameO s (execDgeSaveDone g s) := by
  unfold execDgeSaveDone
  try dsimp only
  with_reducible repeat' first
    | apply Same.rfl
    | assumption
    | apply Same.trans (k := dgeResume_same)
    | apply Same.trans (k := restoreDone_same)
    | apply Same.trans (k := saveDone_same)
    | apply SameO.onUnit
    | apply SameO.next
    | apply Same.ite
    | split
    | intro _
    | dsimp only

theorem execDoeRequest_same {p : Nat} {req : DoeRequest} {s : State} : SameO s (execDoeRequest p req s) := by
  unfold execDoeRequest
  try dsimp only
  with_reducible repeat' first
    | apply Same.rfl
    | assumption
    | apply Same.trans (k := doeServe_same)
    | (simp only [Same.mk]; apply Same.fold)
    | apply SameO.onUnit
    | apply SameO.next
    | apply Same.ite
    | split
    | intro _
    | dsimp only

theorem gateStand_same {st : Nat} {s : State} : Same s (gateStand st s) := by
  unfold gateStand
  try dsimp only
  with_reducible repeat' first
    | apply Same.rfl
    | assumption
    | (simp only [Same.mk]; apply Same.fold)
    | apply Same.ite
    | split
    | intro _
    | dsimp only

theorem execDozeEntry_same {stand : Nat} {s : State} : SameO s (execDozeEntry stand s) := by
  unfold execDozeEntry
  try dsimp only
  with_reducible repeat' first
    | apply Same.rfl
    | assumption
    | apply Same.trans (k := gateStand_same)
    | apply SameO.onUnit
    | apply SameO.next
    | apply Same.ite
    | split
    | intro _
    | dsimp only

theorem mailboxRevoked_same {slot : Nat} {mb : Mb} {s : State} : Same s (mailboxRevoked slot mb s) := by
  unfold mailboxRevoked
  try dsimp only
  with_reducible repeat' first
    | apply Same.rfl
    | assumption
    | apply Same.trans (k := finishMb_same)
    | apply Same.trans (k := consume_same)
    | apply Same.ite
    | split
    | intro _
    | dsimp only

theorem execDrainLimitExpiry_same {slot : Nat} {s : State} : SameO s (execDrainLimitExpiry slot s) := by
  unfold execDrainLimitExpiry
  try dsimp only
  with_reducible repeat' first
    | apply Same.rfl
    | assumption
    | apply Same.trans (k := abortWhere_same)
    | apply Same.trans (k := revokeSlot_same)
    | apply Same.trans (k := mailboxRevoked_same)
    | apply Same.foldl
    | apply SameO.onUnit
    | apply SameO.next
    | apply Same.ite
    | split
    | intro _
    | dsimp only

theorem execEngineEnd_same {ctx : Nat} {e : EngineResult} {s : State} : SameO s (execEngineEnd ctx e s) := by
  unfold execEngineEnd
  try dsimp only
  with_reducible repeat' first
    | apply Same.rfl
    | assumption
    | apply Same.trans (k := engineStep_same)
    | apply SameO.onUnit
    | apply SameO.next
    | split
    | intro _
    | dsimp only

theorem gateStarves_same {ticket : Nat} {s : State} : Same s (gateStarves ticket s) := by
  unfold gateStarves
  try dsimp only
  with_reducible repeat' first
    | apply Same.rfl
    | assumption
    | apply Same.trans (k := gateAnswer_same)
    | apply Same.ite
    | split
    | intro _
    | dsimp only

theorem mailboxStarves_same {mb : Mb} {s : State} : Same s (mailboxStarves mb s) := by
  unfold mailboxStarves
  try dsimp only
  with_reducible repeat' first
    | apply Same.rfl
    | assumption
    | apply Same.trans (k := finishMb_same)
    | apply Same.trans (k := consume_same)
    | apply Same.ite
    | split
    | intro _
    | dsimp only

theorem startFail_same {s : State} : Same s (startFail s) := by
  unfold startFail
  try dsimp only
  with_reducible repeat' first
    | apply Same.rfl
    | assumption
    | apply Same.trans (k := logCode_same)
    | apply Same.trans (k := countStartFail_same)
    | apply Same.trans (k := coldStart_same)
    | (simp only [Same.mk]; apply Same.fold)
    | apply Same.ite
    | split
    | intro _
    | dsimp only

theorem execEntropyWaitExpiry_same {who : Waiter} {s : State} : SameO s (execEntropyWaitExpiry who s) := by
  unfold execEntropyWaitExpiry
  try dsimp only
  with_reducible repeat' first
    | apply Same.rfl
    | assumption
    | apply Same.trans (k := cancelPort_same)
    | apply Same.trans (k := entropyEnd_same)
    | apply Same.trans (k := gateStarves_same)
    | apply Same.trans (k := mailboxStarves_same)
    | apply Same.trans (k := startFail_same)
    | apply SameO.onUnit
    | apply SameO.next
    | apply Same.ite
    | split
    | intro _
    | dsimp only

theorem linkDown_same {port : Nat} {s : State} : Same s (linkDown port s) := by
  unfold linkDown
  try dsimp only
  with_reducible repeat' first
    | apply Same.rfl
    | assumption
    | apply Same.trans (k := setPort_same)
    | apply Same.trans (k := secyEvent_same)
    | (simp only [Same.mk]; apply Same.fold)
    | apply Same.ite
    | split
    | intro _
    | dsimp only

theorem execEthLinkDown_same {port : Nat} {s : State} : SameO s (execEthLinkDown port s) := by
  unfold execEthLinkDown
  try dsimp only
  with_reducible repeat' first
    | apply Same.rfl
    | assumption
    | apply Same.trans (k := linkDown_same)
    | apply SameO.onUnit
    | apply SameO.next
    | intro _
    | dsimp only

theorem keepAwake_same {n : Nat} {s : State} : Same s (keepAwake n s) := by
  unfold keepAwake
  try dsimp only
  with_reducible repeat' first
    | apply Same.rfl
    | assumption
    | apply Same.trans (k := standUp_same)
    | apply Same.ite
    | split
    | intro _
    | dsimp only

theorem execEthLinkUp_same {port : Nat} {s : State} : SameO s (execEthLinkUp port s) := by
  unfold execEthLinkUp
  try dsimp only
  with_reducible repeat' first
    | apply Same.rfl
    | assumption
    | apply Same.trans (k := draw_same)
    | (apply draw_same_then; · assumption)
    | apply Same.trans (k := setPort_same)
    | apply Same.trans (k := secyEvent_same)
    | apply Same.trans (k := keepAwake_same)
    | (simp only [Same.mk]; apply Same.fold)
    | apply SameO.onUnit
    | apply SameO.next
    | apply Same.ite
    | split
    | intro _
    | dsimp only

theorem execExit_same {core : Nat} {s : State} : SameO s (execExit core s) := by
  unfold execExit
  try dsimp only
  with_reducible repeat' first
    | apply Same.rfl
    | assumption
    | apply Same.trans (k := modApplet_same)
    | apply Same.trans (k := schedule_same)
    | apply Same.trans (k := endApplet_same)
    | apply ecall_same
    | (simp only [Same.mk]; apply Same.fold)
    | apply SameO.onUnit
    | apply SameO.next
    | apply Same.ite
    | split
    | intro _
    | dsimp only

theorem execExtest_same {bits : Nat} {s : State} : SameO s (execExtest bits s) := by
  unfold execExtest
  try dsimp only
  with_reducible repeat' first
    | apply Same.rfl
    | assumption
    | apply Same.trans (k := draw_same)
    | (apply draw_same_then; · assumption)
    | apply Same.trans (k := tapLoad_same)
    | (simp only [Same.mk]; apply Same.fold)
    | apply SameO.onUnit
    | apply SameO.next
    | apply Same.ite
    | split
    | intro _
    | dsimp only

theorem execFabricTransaction_same {tag : FabricTag} {target : Nat} {acc : Access} {s : State} : SameO s (execFabricTransaction tag target acc s) := by
  unfold execFabricTransaction
  try dsimp only
  with_reducible repeat' first
    | apply Same.rfl
    | assumption
    | apply Same.trans (k := holdAccess_same)
    | apply Same.trans (k := transact_same)
    | apply SameO.onUnit
    | apply SameO.next
    | apply Same.ite
    | split
    | intro _
    | dsimp only

theorem hbmPageLost_same {addr : Nat} {inj : Bool} {s : State} : Same s (hbmPageLost addr inj s) := by
  unfold hbmPageLost
  try dsimp only
  with_reducible repeat' first
    | apply Same.rfl
    | assumption
    | apply Same.trans (k := zeroFab_same)
    | apply Same.trans (k := unitRec_same)
    | apply Same.trans (k := serviceStands_same)
    | (simp only [Same.mk]; apply Same.fold)
    | apply Same.ite
    | split
    | intro _
    | dsimp only

theorem hucEnd_same {r : HucReq} {s : State} : Same s (hucEnd r s) := by
  unfold hucEnd
  try dsimp only
  with_reducible repeat' first
    | apply Same.rfl
    | assumption
    | apply Same.trans (k := abort_same)
    | apply Same.trans (k := finishMb_same)
    | (simp only [Same.mk]; apply Same.fold)
    | split
    | intro _
    | dsimp only

theorem hucEnds_same {rs : List HucReq} {s : State} : Same s (hucEnds rs s) := by
  unfold hucEnds
  try dsimp only
  with_reducible repeat' first
    | apply Same.rfl
    | assumption
    | apply Same.trans (k := hucEnd_same)
    | apply Same.foldl
    | intro _
    | dsimp only

theorem hucFail_same {h : Nat} {inj : Bool} {s : State} : Same s (hucFail h inj s) := by
  unfold hucFail
  try dsimp only
  with_reducible repeat' first
    | apply Same.rfl
    | assumption
    | apply Same.trans (k := refreshMode_same)
    | apply Same.trans (k := setStand_same)
    | apply Same.trans (k := countFault_same)
    | apply Same.trans (k := serviceReport_same)
    | apply Same.trans (k := unitRec_same)
    | apply Same.trans (k := unitReport_same)
    | apply Same.trans (k := capRewrite_same)
    | apply Same.trans (k := hucTake_same)
    | apply Same.trans (k := hucEnds_same)
    | (simp only [Same.mk]; apply Same.fold)
    | apply Same.ite
    | split
    | intro _
    | dsimp only

theorem failover_same {s : State} : Same s (failover s) := by
  unfold failover
  try dsimp only
  with_reducible repeat' first
    | apply Same.rfl
    | assumption
    | apply Same.trans (k := restartIssue_same)
    | apply Same.trans (k := trustedRestart_same)
    | (simp only [Same.mk]; apply Same.fold)
    | apply Same.ite
    | split
    | intro _
    | dsimp only

theorem pairFault_same {pair : Nat} {inj : Bool} {s : State} : Same s (pairFault pair inj s) := by
  unfold pairFault
  try dsimp only
  with_reducible repeat' first
    | apply Same.rfl
    | assumption
    | apply Same.trans (k := abandonUpdate_same)
    | apply Same.trans (k := unitReport_same)
    | apply Same.trans (k := failover_same)
    | (simp only [Same.mk]; apply Same.fold)
    | apply Same.ite
    | split
    | intro _
    | dsimp only

theorem sapLost_same {s : State} : Same s (sapLost s) := by
  unfold sapLost
  try dsimp only
  with_reducible repeat' first
    | apply Same.rfl
    | assumption
    | apply Same.trans (k := draw_same)
    | (apply draw_same_then; · assumption)
    | (simp only [Same.mk]; apply Same.fold)
    | split
    | intro _
    | dsimp only

theorem selfCheckStop_same {inj : Bool} {s : State} : Same s (selfCheckStop inj s) := by
  unfold selfCheckStop
  try dsimp only
  with_reducible repeat' first
    | apply Same.rfl
    | assumption
    | apply Same.trans (k := enterQuarantine_same)
    | apply Same.trans (k := quarantineRun_same)
    | apply Same.trans (k := wakePend_same)
    | apply Same.ite
    | split
    | intro _
    | dsimp only

theorem restartService_same {core : Nat} {s : State} : Same s (restartService core s) := by
  unfold restartService
  try dsimp only
  with_reducible repeat' first
    | apply Same.rfl
    | assumption
    | apply Same.trans (k := endScrub_same)
    | apply Same.trans (k := beginScrub_same)
    | apply Same.trans (k := coreJobsEnd_same)
    | apply Same.ite
    | split
    | intro _
    | dsimp only

theorem watchdogExpiry_same {core : Nat} {inj : Bool} {s : State} : Same s (watchdogExpiry core inj s) := by
  unfold watchdogExpiry
  try dsimp only
  with_reducible repeat' first
    | apply Same.rfl
    | assumption
    | apply Same.trans (k := countFault_same)
    | apply Same.trans (k := setCore_same)
    | apply Same.trans (k := beginScrub_same)
    | apply Same.trans (k := correctedReport_same)
    | apply Same.trans (k := faultApplets_same)
    | apply Same.trans (k := coreFail_same)
    | apply Same.trans (k := restartService_same)
    | (simp only [Same.mk]; apply Same.fold)
    | apply Same.ite
    | split
    | intro _
    | dsimp only

theorem wmaTorn_same {c : WmaCmd} {s : State} : Same s (wmaTorn c s) := by
  unfold wmaTorn
  try dsimp only
  with_reducible repeat' first
    | apply Same.rfl
    | assumption
    | apply Same.trans (k := draw_same)
    | (apply draw_same_then; · assumption)
    | apply Same.trans (k := wmaUndefined_same)
    | apply Same.ite
    | split
    | intro _
    | dsimp only

theorem wmaFail_same {u : Nat} {inj : Bool} {s : State} : Same s (wmaFail u inj s) := by
  unfold wmaFail
  try dsimp only
  with_reducible repeat' first
    | apply Same.rfl
    | assumption
    | apply Same.trans (k := countFault_same)
    | apply Same.trans (k := setWma_same)
    | apply Same.trans (k := orderedDone_same)
    | apply Same.trans (k := unitRec_same)
    | apply Same.trans (k := unitReport_same)
    | apply Same.trans (k := capRewrite_same)
    | apply Same.trans (k := notifyStand_same)
    | apply Same.trans (k := wmaOver_same)
    | apply Same.trans (k := wmaTorn_same)
    | (simp only [Same.mk]; apply Same.fold)
    | apply Same.foldl
    | apply Same.ite
    | split
    | intro _
    | dsimp only

theorem faultArrives_same {inj : Bool} {src : Nat} {unit : Nat} {s : State} : Same s (faultArrives inj src unit s) := by
  unfold faultArrives
  try dsimp only
  with_reducible repeat' first
    | apply Same.rfl
    | assumption
    | apply Same.trans (k := refreshMode_same)
    | apply Same.trans (k := draw_same)
    | (apply draw_same_then; · assumption)
    | apply Same.trans (k := countFault_same)
    | apply Same.trans (k := fatalReport_same)
    | apply Same.trans (k := correctedReport_same)
    | apply Same.trans (k := serviceReport_same)
    | apply Same.trans (k := unitReport_same)
    | apply Same.trans (k := bankFail_same)
    | apply Same.trans (k := laneFail_same)
    | apply Same.trans (k := checkerMismatch_same)
    | apply Same.trans (k := coreFail_same)
    | apply Same.trans (k := dgeFail_same)
    | apply Same.trans (k := eccCorrected_same)
    | apply Same.trans (k := hbmPageLost_same)
    | apply Same.trans (k := hucFail_same)
    | apply Same.trans (k := pairFault_same)
    | apply Same.trans (k := sapLost_same)
    | apply Same.trans (k := selfCheckStop_same)
    | apply Same.trans (k := watchdogExpiry_same)
    | apply Same.trans (k := wmaFail_same)
    | (simp only [Same.mk]; apply Same.fold)
    | apply Same.ite
    | split
    | intro _
    | dsimp only

theorem execFaultReport_same {source : Nat} {unit : Nat} {s : State} : SameO s (execFaultReport source unit s) := by
  unfold execFaultReport
  try dsimp only
  with_reducible repeat' first
    | apply Same.rfl
    | assumption
    | apply Same.trans (k := faultArrives_same)
    | apply SameO.onUnit
    | apply SameO.next
    | apply SameO.fault
    | intro _
    | dsimp only

theorem execFbAliveToggle_same {s : State} : SameO s (execFbAliveToggle s) := by
  unfold execFbAliveToggle
  try dsimp only
  with_reducible repeat' first
    | apply Same.rfl
    | assumption
    | (simp only [Same.mk]; apply Same.fold)
    | apply SameO.onUnit
    | apply SameO.next
    | apply Same.ite
    | split
    | intro _
    | dsimp only

theorem inject_same {source : Nat} {unit : Nat} {s : State} : Same s (inject source unit s) := by
  unfold inject
  try dsimp only
  with_reducible repeat' first
    | apply Same.rfl
    | assumption
    | apply Same.trans (k := faultArrives_same)
    | intro _
    | dsimp only

theorem execFbkInjectGo_same {p : Nat} {source : Nat} {unit : Nat} {s : State} : SameO s (execFbkInjectGo p source unit s) := by
  unfold execFbkInjectGo
  try dsimp only
  with_reducible repeat' first
    | apply Same.rfl
    | assumption
    | apply Same.trans (k := countAccess_same)
    | apply Same.trans (k := inject_same)
    | (simp only [Same.mk]; apply Same.fold)
    | apply SameO.onUnit
    | apply SameO.next
    | apply SameO.fault
    | apply Same.ite
    | split
    | intro _
    | dsimp only

theorem execFirebreakConfig_same {mb : Mb} {s : State} : SameO s (execFirebreakConfig mb s) := by
  unfold execFirebreakConfig
  try dsimp only
  with_reducible repeat' first
    | apply Same.rfl
    | assumption
    | apply Same.trans (k := firebreakConfigRun_same)
    | (apply firebreakConfigRun_same_then; · assumption)
    | apply runCmd_same
    | apply SameO.onUnit
    | apply SameO.next
    | apply Same.guarded
    | intro _
    | dsimp only

theorem execFirebreakInject_same {mb : Mb} {s : State} : SameO s (execFirebreakInject mb s) := by
  unfold execFirebreakInject
  try dsimp only
  with_reducible repeat' first
    | apply Same.rfl
    | assumption
    | apply runCmd_same
    | apply Same.trans (k := inject_same)
    | apply SameO.onUnit
    | apply SameO.next
    | apply Same.ite
    | split
    | intro _
    | dsimp only

theorem execFirebreakQuery_same {mb : Mb} {s : State} : SameO s (execFirebreakQuery mb s) := by
  unfold execFirebreakQuery
  try dsimp only
  with_reducible repeat' first
    | apply Same.rfl
    | assumption
    | apply runCmd_same
    | (simp only [Same.mk]; apply Same.fold)
    | apply SameO.onUnit
    | apply SameO.next
    | split
    | intro _
    | dsimp only

theorem execFirebreakSelfCheck_same {s : State} : SameO s (execFirebreakSelfCheck s) := by
  unfold execFirebreakSelfCheck
  try dsimp only
  with_reducible repeat' first
    | apply Same.rfl
    | assumption
    | apply Same.trans (k := selfCheckStop_same)
    | apply SameO.onUnit
    | apply SameO.next
    | apply Same.ite
    | split
    | intro _
    | dsimp only

theorem execForceLow_same {p : Nat} {on : Bool} {s : State} : SameO s (execForceLow p on s) := by
  unfold execForceLow
  try dsimp only
  with_reducible repeat' first
    | apply Same.rfl
    | assumption
    | (simp only [Same.mk]; apply Same.fold)
    | apply SameO.onUnit
    | apply SameO.next
    | apply SameO.fault
    | apply Same.ite
    | split
    | intro _
    | dsimp only

theorem putFlight_same {r : Option Frame × State} {s : State} (h : Same s r.2) : Same s (putFlight r) := by
  unfold putFlight; split
  · exact h.trans (by exact Same.rfl)
  · exact h

theorem execFrameReceive_same {port : Nat} {frame : Bytes} {s : State} : SameO s (execFrameReceive port frame s) := by
  unfold execFrameReceive
  try dsimp only
  with_reducible repeat' first
    | apply Same.rfl
    | assumption
    | apply Same.trans (k := setPort_same)
    | apply Same.trans (k := portDrop_same)
    | apply Same.trans (k := classifyRx_same)
    | (apply classifyRx_same_then; · assumption)
    | apply putFlight_same
    | (simp only [Same.mk]; apply Same.fold)
    | apply SameO.onUnit
    | apply SameO.next
    | apply Same.ite
    | split
    | intro _
    | dsimp only

theorem ringDeliver_same {k : Nat} {f : Frame} {a2 : Nat} {a3 : State} : Same a3 (ringDeliver k f a2 a3) := by
  induction a2 generalizing a3 with
  | zero =>
    unfold ringDeliver; exact portDrop_same
  | succ n ih =>
    unfold ringDeliver
    repeat' first
      | with_reducible apply Same.rfl
      | with_reducible apply Same.trans (k := ih)
      | with_reducible apply Same.trans (k := portDrop_same)
      | with_reducible apply Same.trans (k := ringError_same)
      | with_reducible apply Same.trans (k := hostWrite_same)
      | with_reducible apply Same.trans (k := ringEvent_one)
      | (simp only [Same.mk]; with_reducible apply Same.fold)
      | split
      | dsimp only

theorem sendFrame_same {n : Nat} {f : Frame} {s : State} : Same s (sendFrame n f s) := by
  unfold sendFrame
  try dsimp only
  with_reducible repeat' first
    | apply Same.rfl
    | assumption
    | apply Same.trans (k := setPort_same)
    | apply Same.trans (k := portDrop_same)
    | (simp only [Same.mk]; apply Same.fold)
    | apply Same.ite
    | split
    | intro _
    | dsimp only

theorem leave_same {f : Frame} {s : State} : Same s (leave f s) := by
  unfold leave
  try dsimp only
  with_reducible repeat' first
    | apply Same.rfl
    | assumption
    | apply Same.trans (k := raiseLine_same)
    | apply Same.trans (k := portDrop_same)
    | apply Same.trans (k := ringDeliver_same)
    | apply Same.trans (k := sendFrame_same)
    | (simp only [Same.mk]; apply Same.fold)
    | apply Same.ite
    | split
    | intro _
    | dsimp only

theorem passBlocks_same {f : Frame} {s : State} : Same s (passBlocks f s) := by
  unfold passBlocks
  try dsimp only
  with_reducible repeat' first
    | apply Same.rfl
    | assumption
    | apply Same.trans (k := countPorts_same)
    | split
    | intro _
    | dsimp only

theorem passDone_same {f : Frame} {s : State} : Same s (passDone f s) := by
  unfold passDone
  try dsimp only
  with_reducible repeat' first
    | apply Same.rfl
    | assumption
    | apply Same.trans (k := meterAdd_same)
    | apply Same.trans (k := secyCount_same)
    | apply Same.ite
    | split
    | intro _
    | dsimp only

theorem replayUpdate_same {y : Secy} {id : Nat} {pn : Nat} {s : State} : Same s (replayUpdate y id pn s) := by
  unfold replayUpdate
  try dsimp only
  with_reducible repeat' first
    | apply Same.rfl
    | assumption
    | (simp only [Same.mk]; apply Same.fold)
    | split
    | intro _
    | dsimp only

theorem rxEnd_same {f : Frame} {id : Nat} {y : Secy} {a : Sa} {s : State} : Same s (rxEnd f id y a s).2 := by
  unfold rxEnd
  try dsimp only
  with_reducible repeat' first
    | apply Same.rfl
    | assumption
    | apply Same.trans (k := refuse_same)
    | (apply refuse_same_then; · assumption)
    | apply Same.trans (k := forward_same)
    | (apply forward_same_then; · assumption)
    | apply Same.trans (k := scCount_same)
    | apply Same.trans (k := saCount_same)
    | apply Same.trans (k := passDone_same)
    | apply Same.trans (k := replayUpdate_same)
    | (simp only [Same.mk]; apply Same.fold)
    | apply Same.ite
    | split
    | intro _
    | dsimp only

theorem rxEnd_same_then {f : Frame} {id : Nat} {y : Secy} {a : Sa} {s : State} {s0_ : State} {r_ : _} {s_ : State} (h_ : (rxEnd f id y a s) = (r_, s_)) (k_ : Same s0_ s) : Same s0_ s_ := by
  have j_ := k_.trans (@rxEnd_same f id y a s); rw [h_] at j_; exact j_

theorem passEnd_same {f : Frame} {s : State} : Same s (passEnd f s).2 := by
  unfold passEnd
  try dsimp only
  with_reducible repeat' first
    | apply Same.rfl
    | assumption
    | apply Same.trans (k := portDrop_same)
    | apply Same.trans (k := scCount_same)
    | apply Same.trans (k := saCount_same)
    | apply Same.trans (k := passBlocks_same)
    | apply Same.trans (k := passDone_same)
    | apply Same.trans (k := rxEnd_same)
    | (apply rxEnd_same_then; · assumption)
    | apply Same.ite
    | split
    | intro _
    | dsimp only

theorem passEnd_same_then {f : Frame} {s : State} {s0_ : State} {r_ : _} {s_ : State} (h_ : (passEnd f s) = (r_, s_)) (k_ : Same s0_ s) : Same s0_ s_ := by
  have j_ := k_.trans (@passEnd_same f s); rw [h_] at j_; exact j_

theorem steerFrame_same {pos : Nat} {i : Nat} {s : State} : Same s (steerFrame pos i s) := by
  unfold steerFrame
  try dsimp only
  with_reducible repeat' first
    | apply Same.rfl
    | assumption
    | apply Same.trans (k := takeLane_same)
    | (apply takeLane_same_then; · assumption)
    | (simp only [Same.mk]; apply Same.fold)
    | split
    | intro _
    | dsimp only

theorem steerWaiting_same {pos : Nat} {s : State} : Same s (steerWaiting pos s) := by
  unfold steerWaiting
  try dsimp only
  with_reducible repeat' first
    | apply Same.rfl
    | assumption
    | apply Same.trans (k := dropFrames_same)
    | apply Same.trans (k := steerFrame_same)
    | apply Same.foldl
    | split
    | intro _
    | dsimp only

theorem execFrameRelease_same {pos : Nat} {s : State} : SameO s (execFrameRelease pos s) := by
  unfold execFrameRelease
  try dsimp only
  with_reducible repeat' first
    | apply Same.rfl
    | assumption
    | apply Same.trans (k := setPos_same)
    | apply Same.trans (k := leave_same)
    | apply Same.trans (k := passEnd_same)
    | (apply passEnd_same_then; · assumption)
    | apply Same.trans (k := steerWaiting_same)
    | (simp only [Same.mk]; apply Same.fold)
    | apply SameO.onUnit
    | apply SameO.next
    | apply Same.ite
    | split
    | intro _
    | dsimp only

theorem execFrameRingCreate_same {mb : Mb} {s : State} : SameO s (execFrameRingCreate mb s) := by
  unfold execFrameRingCreate
  try dsimp only
  with_reducible repeat' first
    | apply Same.rfl
    | assumption
    | apply runCmd_same
    | (simp only [Same.mk]; apply Same.fold)
    | apply SameO.onUnit
    | apply SameO.next
    | apply Same.direct
    | split
    | intro _
    | dsimp only

theorem sendEntry_same {k : Nat} {fn : Fn} {r : Ring} {b : Bytes} {s : State} : Same s (sendEntry k fn r b s) := by
  unfold sendEntry
  try dsimp only
  with_reducible repeat' first
    | apply Same.rfl
    | assumption
    | apply Same.trans (k := ringError_same)
    | (apply ringEvent_same; · assumption)
    | apply Same.trans (k := ringEvent_one)
    | apply Same.trans (k := intoBuf_same)
    | (apply intoBuf_same_then; · assumption)
    | apply Same.trans (k := egress_same)
    | (apply egress_same_then; · assumption)
    | apply putFlight_same
    | (simp only [Same.mk]; apply Same.fold)
    | apply Same.ite
    | split
    | intro _
    | dsimp only

theorem execFrameRingTx_same {fn : Fn} {ring : Nat} {s : State} : SameO s (execFrameRingTx fn ring s) := by
  unfold execFrameRingTx
  try dsimp only
  with_reducible repeat' first
    | apply Same.rfl
    | assumption
    | apply Same.trans (k := ringError_same)
    | apply Same.trans (k := sendEntry_same)
    | apply SameO.onUnit
    | apply SameO.next
    | apply Same.ite
    | split
    | intro _
    | dsimp only

theorem execFrameTxClassify_same {port : Nat} {s : State} : SameO s (execFrameTxClassify port s) := by
  unfold execFrameTxClassify
  try dsimp only
  with_reducible repeat' first
    | apply Same.rfl
    | assumption
    | apply Same.trans (k := classifyTx_same)
    | (apply classifyTx_same_then; · assumption)
    | (simp only [Same.mk]; apply Same.fold)
    | apply SameO.onUnit
    | apply SameO.next
    | split
    | intro _
    | dsimp only

theorem execFreezeHoldExpiry_same {source : Nat} {s : State} : SameO s (execFreezeHoldExpiry source s) := by
  unfold execFreezeHoldExpiry
  try dsimp only
  with_reducible repeat' first
    | apply Same.rfl
    | assumption
    | apply Same.trans (k := setLkoSrc_same)
    | apply Same.trans (k := freezeEnded_same)
    | (simp only [Same.mk]; apply Same.fold)
    | apply SameO.onUnit
    | apply SameO.next
    | apply SameO.fault
    | apply Same.ite
    | split
    | intro _
    | dsimp only

theorem gateAccept_same {core : Nat} {rd : Nat} {frame : Nat} {service : Nat} {s : State} : Same s (gateAccept core rd frame service s) := by
  unfold gateAccept
  try dsimp only
  with_reducible repeat' first
    | apply Same.rfl
    | assumption
    | apply Same.trans (k := setCore_same)
    | apply Same.trans (k := fabWrite_same)
    | apply Same.trans (k := modApplet_same)
    | apply Same.trans (k := setX_same)
    | apply Same.trans (k := complete4_same)
    | apply Same.trans (k := gateFinish_same)
    | (simp only [Same.mk]; apply Same.fold)
    | apply Same.ite
    | split
    | intro _
    | dsimp only

theorem illegal_same {core : Nat} {insn : Nat} {s : State} : Same s (illegal core insn s) := by
  unfold illegal
  try dsimp only
  with_reducible repeat' first
    | apply Same.rfl
    | assumption
    | apply Same.trans (k := takeTrap_same)
    | intro _
    | dsimp only

theorem gateCall_same {core : Nat} {rd : Nat} {rs1 : Nat} {rs2 : Nat} {s : State} : Same s (gateCall core rd rs1 rs2 s) := by
  unfold gateCall
  try dsimp only
  with_reducible repeat' first
    | apply Same.rfl
    | assumption
    | apply Same.trans (k := acuRefuse_same)
    | apply Same.trans (k := setX_same)
    | apply Same.trans (k := complete4_same)
    | apply Same.trans (k := takeTrap_same)
    | apply Same.trans (k := gateAccept_same)
    | apply Same.trans (k := illegal_same)
    | apply Same.ite
    | split
    | intro _
    | dsimp only

theorem execGateCall_same {core : Nat} {rd : Nat} {rs1 : Nat} {rs2 : Nat} {s : State} : SameO s (execGateCall core rd rs1 rs2 s) := by
  unfold execGateCall
  try dsimp only
  with_reducible repeat' first
    | apply Same.rfl
    | assumption
    | apply Same.trans (k := ownRow_same ?_)
    | apply Same.trans (k := gateCall_same)
    | apply SameO.onUnit
    | apply SameO.next
    | intro _
    | dsimp only

theorem gateDurable_same {ticket : Nat} {durable : Bool} {body : Bytes} {s : State} : Same s (gateDurable ticket durable body s) := by
  unfold gateDurable
  try dsimp only
  with_reducible repeat' first
    | apply Same.rfl
    | assumption
    | apply Same.trans (k := wantCommit_same)
    | apply Same.trans (k := gateAnswer_same)
    | (simp only [Same.mk]; apply Same.fold)
    | apply Same.ite
    | split
    | intro _
    | dsimp only

theorem gateRow_same {ticket : Nat} {svc : Nat} {f : GateCall → State → State} {s : State} (h_f : ∀ b0 y, Same y (f b0 y)) : SameO s (gateRow ticket svc f s) := by
  unfold gateRow
  try dsimp only
  with_reducible repeat' first
    | apply Same.rfl
    | assumption
    | apply Same.trans (k := gateAnswer_same)
    | apply SameO.onUnit
    | apply SameO.next
    | apply Same.trans (k := h_f _ _)
    | apply Same.ite
    | split
    | intro _
    | dsimp only

theorem gateStore_same {ticket : Nat} {f : State → State} {s : State} (h_f : ∀  y, Same y (f  y)) : Same s (gateStore ticket f s) := by
  unfold gateStore
  try dsimp only
  with_reducible repeat' first
    | apply Same.rfl
    | assumption
    | apply Same.trans (k := gateAnswer_same)
    | apply Same.trans (k := h_f _)
    | apply Same.ite
    | split
    | intro _
    | dsimp only

theorem execGateCounterCreate_same {ticket : Nat} {s : State} : SameO s (execGateCounterCreate ticket s) := by
  unfold execGateCounterCreate
  try dsimp only
  with_reducible repeat' first
    | apply Same.rfl
    | assumption
    | apply Same.trans (k := gateAnswer_same)
    | apply Same.trans (k := newCounter_same)
    | (apply newCounter_same_then; · assumption)
    | apply Same.trans (k := gateDurable_same)
    | apply gateRow_same
    | apply Same.trans (k := gateStore_same ?_)
    | apply SameO.onUnit
    | apply SameO.next
    | apply Same.ite
    | split
    | intro _
    | dsimp only

theorem execGateCounterInc_same {ticket : Nat} {s : State} : SameO s (execGateCounterInc ticket s) := by
  unfold execGateCounterInc
  try dsimp only
  with_reducible repeat' first
    | apply Same.rfl
    | assumption
    | apply Same.trans (k := counterInc_same)
    | (apply counterInc_same_then; · assumption)
    | apply Same.trans (k := gateAnswer_same)
    | apply Same.trans (k := gateDurable_same)
    | apply gateRow_same
    | apply Same.trans (k := gateStore_same ?_)
    | apply SameO.onUnit
    | apply SameO.next
    | apply Same.ite
    | split
    | intro _
    | dsimp only

theorem execGateCounterRead_same {ticket : Nat} {s : State} : SameO s (execGateCounterRead ticket s) := by
  unfold execGateCounterRead
  try dsimp only
  with_reducible repeat' first
    | apply Same.rfl
    | assumption
    | apply Same.trans (k := gateAnswer_same)
    | apply gateRow_same
    | apply SameO.onUnit
    | apply SameO.next
    | split
    | intro _
    | dsimp only

theorem execGateRandom_same {ticket : Nat} {s : State} : SameO s (execGateRandom ticket s) := by
  unfold execGateRandom
  try dsimp only
  with_reducible repeat' first
    | apply Same.rfl
    | assumption
    | apply Same.trans (k := acuRefuse_same)
    | apply Same.trans (k := fabWrite_same)
    | apply Same.trans (k := takeWire_same)
    | (apply takeWire_same_then; · assumption)
    | apply Same.trans (k := gateAnswer_same)
    | apply gateRow_same
    | apply SameO.onUnit
    | apply SameO.next
    | apply Same.ite
    | split
    | intro _
    | dsimp only

theorem gateRet_same {core : Nat} {rs1 : Nat} {rs2 : Nat} {s : State} : Same s (gateRet core rs1 rs2 s) := by
  unfold gateRet
  try dsimp only
  with_reducible repeat' first
    | apply Same.rfl
    | assumption
    | apply Same.trans (k := complete4_same)
    | apply Same.trans (k := gateFinish_same)
    | apply Same.trans (k := takeTrap_same)
    | apply Same.trans (k := illegal_same)
    | (simp only [Same.mk]; apply Same.fold)
    | apply Same.ite
    | split
    | intro _
    | dsimp only

theorem execGateRet_same {core : Nat} {rs1 : Nat} {rs2 : Nat} {s : State} : SameO s (execGateRet core rs1 rs2 s) := by
  unfold execGateRet
  try dsimp only
  with_reducible repeat' first
    | apply Same.rfl
    | assumption
    | apply Same.trans (k := ownRow_same ?_)
    | apply Same.trans (k := gateRet_same)
    | apply SameO.onUnit
    | apply SameO.next
    | intro _
    | dsimp only

theorem execGateTake_same {core : Nat} {addr : Nat} {s : State} : SameO s (execGateTake core addr s) := by
  unfold execGateTake
  try dsimp only
  with_reducible repeat' first
    | apply Same.rfl
    | assumption
    | apply Same.trans (k := gateTake_same)
    | apply SameO.onUnit
    | apply SameO.next
    | intro _
    | dsimp only

theorem execGcmDec_same {ctx : Nat} {s : State} : SameO s (execGcmDec ctx s) := by
  unfold execGcmDec
  try dsimp only
  with_reducible repeat' first
    | apply Same.rfl
    | assumption
    | apply classRow_same
    | apply Same.foldl
    | apply SameO.onUnit
    | apply SameO.next
    | apply Same.ite
    | split
    | intro _
    | dsimp only

theorem execGcmEnc_same {ctx : Nat} {s : State} : SameO s (execGcmEnc ctx s) := by
  unfold execGcmEnc
  try dsimp only
  with_reducible repeat' first
    | apply Same.rfl
    | assumption
    | apply classRow_same
    | apply SameO.onUnit
    | apply SameO.next
    | intro _
    | dsimp only

theorem mctpReply_same {f : State → Bytes} {s : State} : Same s (mctpReply f s) := by
  unfold mctpReply
  try dsimp only
  with_reducible repeat' first
    | apply Same.rfl
    | assumption
    | (simp only [Same.mk]; apply Same.fold)
    | apply Same.ite
    | split
    | intro _
    | dsimp only

theorem execGetEndpointId_same {s : State} : SameO s (execGetEndpointId s) := by
  unfold execGetEndpointId
  try dsimp only
  with_reducible repeat' first
    | apply Same.rfl
    | assumption
    | apply Same.trans (k := mctpReply_same)
    | apply SameO.onUnit
    | apply SameO.next
    | intro _
    | dsimp only

theorem execGetEndpointUuid_same {s : State} : SameO s (execGetEndpointUuid s) := by
  unfold execGetEndpointUuid
  try dsimp only
  with_reducible repeat' first
    | apply Same.rfl
    | assumption
    | apply Same.trans (k := mctpReply_same)
    | apply SameO.onUnit
    | apply SameO.next
    | intro _
    | dsimp only

theorem vendorReply_same {cmd : Nat} {data : State → Bytes} {s : State} : SameO s (vendorReply cmd data s) := by
  unfold vendorReply
  try dsimp only
  with_reducible repeat' first
    | apply Same.rfl
    | assumption
    | apply Same.trans (k := mctpReply_same)
    | apply SameO.onUnit
    | apply SameO.next
    | apply Same.ite
    | split
    | intro _
    | dsimp only

theorem execGetLogTail_same {count : Nat} {s : State} : SameO s (execGetLogTail count s) := by
  unfold execGetLogTail
  try dsimp only
  with_reducible repeat' first
    | apply Same.rfl
    | assumption
    | apply Same.trans (k := mctpReply_same)
    | apply vendorReply_same
    | apply SameO.onUnit
    | apply SameO.next
    | apply Same.ite
    | split
    | intro _
    | dsimp only

theorem execGetMctpVersionSupport_same {s : State} : SameO s (execGetMctpVersionSupport s) := by
  unfold execGetMctpVersionSupport
  try dsimp only
  with_reducible repeat' first
    | apply Same.rfl
    | assumption
    | apply Same.trans (k := mctpReply_same)
    | apply SameO.onUnit
    | apply SameO.next
    | intro _
    | dsimp only

theorem execGetMessageTypeSupport_same {s : State} : SameO s (execGetMessageTypeSupport s) := by
  unfold execGetMessageTypeSupport
  try dsimp only
  with_reducible repeat' first
    | apply Same.rfl
    | assumption
    | apply Same.trans (k := mctpReply_same)
    | apply SameO.onUnit
    | apply SameO.next
    | apply Same.ite
    | split
    | intro _
    | dsimp only

theorem execGetSensors_same {s : State} : SameO s (execGetSensors s) := by
  unfold execGetSensors
  try dsimp only
  with_reducible repeat' first
    | apply Same.rfl
    | assumption
    | apply vendorReply_same
    | apply SameO.onUnit
    | apply SameO.next
    | intro _
    | dsimp only

theorem execGetStands_same {s : State} : SameO s (execGetStands s) := by
  unfold execGetStands
  try dsimp only
  with_reducible repeat' first
    | apply Same.rfl
    | assumption
    | apply vendorReply_same
    | apply SameO.onUnit
    | apply SameO.next
    | intro _
    | dsimp only

theorem execGetStatus_same {s : State} : SameO s (execGetStatus s) := by
  unfold execGetStatus
  try dsimp only
  with_reducible repeat' first
    | apply Same.rfl
    | assumption
    | apply Same.trans (k := mctpReply_same)
    | apply SameO.onUnit
    | apply SameO.next
    | intro _
    | dsimp only

theorem execGetVendorDefinedMsgSupport_same {s : State} : SameO s (execGetVendorDefinedMsgSupport s) := by
  unfold execGetVendorDefinedMsgSupport
  try dsimp only
  with_reducible repeat' first
    | apply Same.rfl
    | assumption
    | apply Same.trans (k := mctpReply_same)
    | apply SameO.onUnit
    | apply SameO.next
    | intro _
    | dsimp only

theorem measurePut_same {idx : Nat} {digest : Bytes} {s : State} : Same s (measurePut idx digest s) := by
  unfold measurePut
  try dsimp only
  with_reducible repeat' first
    | apply Same.rfl
    | assumption
    | (simp only [Same.mk]; apply Same.fold)
    | intro _
    | dsimp only

theorem monitorSwitched_same {n : Nat} {s : State} : Same s (monitorSwitched n s) := by
  unfold monitorSwitched
  try dsimp only
  with_reducible repeat' first
    | apply Same.rfl
    | assumption
    | apply Same.trans (k := measureExtend_same)
    | apply Same.trans (k := measurePut_same)
    | (simp only [Same.mk]; apply Same.fold)
    | split
    | intro _
    | dsimp only

theorem execGladeMonitorSwitched_same {core : Nat} {ok : Bool} {s : State} : SameO s (execGladeMonitorSwitched core ok s) := by
  unfold execGladeMonitorSwitched
  try dsimp only
  with_reducible repeat' first
    | apply Same.rfl
    | assumption
    | apply Same.trans (k := coreFail_same)
    | apply Same.trans (k := finishUpdate_same)
    | apply Same.trans (k := monitorSwitched_same)
    | (simp only [Same.mk]; apply Same.fold)
    | apply SameO.onUnit
    | apply SameO.next
    | apply Same.ite
    | split
    | intro _
    | dsimp only

theorem gladeStatusRun_same {mb : Mb} {q : Req} {s : State} : Same s (gladeStatusRun mb q s).2 := by
  unfold gladeStatusRun
  try dsimp only
  with_reducible repeat' first
    | apply Same.rfl
    | assumption
    | (simp only [Same.mk]; apply Same.fold)
    | apply Same.ite
    | split
    | intro _
    | dsimp only

theorem gladeStatusRun_same_then {mb : Mb} {q : Req} {s : State} {s0_ : State} {r_ : _} {s_ : State} (h_ : (gladeStatusRun mb q s) = (r_, s_)) (k_ : Same s0_ s) : Same s0_ s_ := by
  have j_ := k_.trans (@gladeStatusRun_same mb q s); rw [h_] at j_; exact j_

theorem execGladeStatus_same {mb : Mb} {s : State} : SameO s (execGladeStatus mb s) := by
  unfold execGladeStatus
  try dsimp only
  with_reducible repeat' first
    | apply Same.rfl
    | assumption
    | apply runCmd_same
    | apply Same.trans (k := gladeStatusRun_same)
    | (apply gladeStatusRun_same_then; · assumption)
    | apply SameO.onUnit
    | apply SameO.next
    | intro _
    | dsimp only

theorem execGmacGen_same {ctx : Nat} {s : State} : SameO s (execGmacGen ctx s) := by
  unfold execGmacGen
  try dsimp only
  with_reducible repeat' first
    | apply Same.rfl
    | assumption
    | apply classRow_same
    | apply Same.foldl
    | apply SameO.onUnit
    | apply SameO.next
    | apply Same.ite
    | split
    | intro _
    | dsimp only

theorem execGmacVer_same {ctx : Nat} {s : State} : SameO s (execGmacVer ctx s) := by
  unfold execGmacVer
  try dsimp only
  with_reducible repeat' first
    | apply Same.rfl
    | assumption
    | apply classRow_same
    | apply Same.foldl
    | apply SameO.onUnit
    | apply SameO.next
    | apply Same.ite
    | split
    | intro _
    | dsimp only

theorem pairTestFailed_same {s : State} : Same s (pairTestFailed s) := by
  unfold pairTestFailed
  try dsimp only
  with_reducible repeat' first
    | apply Same.rfl
    | assumption
    | apply Same.trans (k := serviceReport_same)
    | apply Same.trans (k := unitReport_same)
    | (simp only [Same.mk]; apply Same.fold)
    | apply Same.ite
    | split
    | intro _
    | dsimp only

theorem handoverDone_same {ok : Bool} {s : State} : Same s (handoverDone ok s) := by
  unfold handoverDone
  try dsimp only
  with_reducible repeat' first
    | apply Same.rfl
    | assumption
    | apply Same.trans (k := refreshMode_same)
    | apply Same.trans (k := deliver_same)
    | apply Same.trans (k := measureExtend_same)
    | apply Same.trans (k := finishUpdate_same)
    | apply Same.trans (k := measurePut_same)
    | apply Same.trans (k := pairTestFailed_same)
    | (simp only [Same.mk]; apply Same.fold)
    | apply Same.foldl
    | apply Same.ite
    | split
    | intro _
    | dsimp only

theorem measureHistory_same {s : State} : Same s (measureHistory s) := by
  unfold measureHistory
  try dsimp only
  with_reducible repeat' first
    | apply Same.rfl
    | assumption
    | apply Same.trans (k := measureExtend_same)
    | intro _
    | dsimp only

theorem swapPairs_same {s : State} : Same s (swapPairs s) := by
  unfold swapPairs
  try dsimp only
  with_reducible repeat' first
    | apply Same.rfl
    | assumption
    | apply Same.trans (k := completeEpoch_same)
    | apply Same.trans (k := measureHistory_same)
    | (simp only [Same.mk]; apply Same.fold)
    | apply Same.ite
    | split
    | intro _
    | dsimp only

theorem execHandoverStepDone_same {ok : Bool} {s : State} : SameO s (execHandoverStepDone ok s) := by
  unfold execHandoverStepDone
  try dsimp only
  with_reducible repeat' first
    | apply Same.rfl
    | assumption
    | apply Same.trans (k := abandonUpdate_same)
    | apply Same.trans (k := trustedRestart_same)
    | apply Same.trans (k := pairTestFailed_same)
    | apply Same.trans (k := handoverDone_same)
    | apply Same.trans (k := swapPairs_same)
    | (simp only [Same.mk]; apply Same.fold)
    | apply SameO.onUnit
    | apply SameO.next
    | apply Same.ite
    | split
    | intro _
    | dsimp only

theorem execHash_same {ctx : Nat} {s : State} : SameO s (execHash ctx s) := by
  unfold execHash
  try dsimp only
  with_reducible repeat' first
    | apply Same.rfl
    | assumption
    | apply classRow_same
    | apply Same.foldl
    | apply SameO.onUnit
    | apply SameO.next
    | apply Same.ite
    | split
    | intro _
    | dsimp only

theorem execHbmError_same {addr : Nat} {master : Nat} {s : State} : SameO s (execHbmError addr master s) := by
  unfold execHbmError
  try dsimp only
  with_reducible repeat' first
    | apply Same.rfl
    | assumption
    | apply Same.trans (k := refreshMode_same)
    | apply Same.trans (k := fatalReport_same)
    | apply Same.trans (k := unitReport_same)
    | apply Same.trans (k := masterFault_same)
    | apply Same.trans (k := hbmPageLost_same)
    | apply SameO.onUnit
    | apply SameO.next
    | apply Same.ite
    | split
    | intro _
    | dsimp only

theorem execHeartbeatTimeout_same {s : State} : SameO s (execHeartbeatTimeout s) := by
  unfold execHeartbeatTimeout
  try dsimp only
  with_reducible repeat' first
    | apply Same.rfl
    | assumption
    | apply Same.trans (k := trustedRestart_same)
    | apply SameO.onUnit
    | apply SameO.next
    | apply Same.ite
    | split
    | intro _
    | dsimp only

theorem execHighz_same {s : State} : SameO s (execHighz s) := by
  unfold execHighz
  try dsimp only
  with_reducible repeat' first
    | apply Same.rfl
    | assumption
    | apply Same.trans (k := tapLoad_same)
    | (simp only [Same.mk]; apply Same.fold)
    | apply SameO.onUnit
    | apply SameO.next
    | apply Same.ite
    | split
    | intro _
    | dsimp only

theorem execHmacGen_same {ctx : Nat} {s : State} : SameO s (execHmacGen ctx s) := by
  unfold execHmacGen
  try dsimp only
  with_reducible repeat' first
    | apply Same.rfl
    | assumption
    | apply classRow_same
    | apply Same.foldl
    | apply SameO.onUnit
    | apply SameO.next
    | apply Same.ite
    | split
    | intro _
    | dsimp only

theorem execHmacVer_same {ctx : Nat} {s : State} : SameO s (execHmacVer ctx s) := by
  unfold execHmacVer
  try dsimp only
  with_reducible repeat' first
    | apply Same.rfl
    | assumption
    | apply classRow_same
    | apply Same.foldl
    | apply SameO.onUnit
    | apply SameO.next
    | apply Same.ite
    | split
    | intro _
    | dsimp only

theorem noteAtc_same {fn : Fn} {addr : Nat} {s : State} : Same s (noteAtc fn addr s) := by
  unfold noteAtc
  try dsimp only
  with_reducible repeat' first
    | apply Same.rfl
    | assumption
    | (simp only [Same.mk]; apply Same.fold)
    | split
    | intro _
    | dsimp only

theorem sqFault_same {k : Nat} {s : State} : Same s (sqFault k s) := by
  unfold sqFault
  try dsimp only
  with_reducible repeat' first
    | apply Same.rfl
    | assumption
    | apply Same.trans (k := setQ_same)
    | apply Same.trans (k := queueError_same)
    | apply Same.trans (k := queueCheck_same)
    | (simp only [Same.mk]; apply Same.fold)
    | apply Same.ite
    | split
    | intro _
    | dsimp only

theorem readFault_same {r : HostRead} {s : State} : Same s (readFault r s) := by
  unfold readFault
  try dsimp only
  with_reducible repeat' first
    | apply Same.rfl
    | assumption
    | apply Same.trans (k := settle_same)
    | apply Same.trans (k := finishMb_same)
    | apply Same.trans (k := ringError_same)
    | apply Same.trans (k := setJring_same)
    | apply Same.trans (k := engineStep_same)
    | apply Same.trans (k := sqFault_same)
    | (simp only [Same.mk]; apply Same.fold)
    | apply Same.ite
    | split
    | intro _
    | dsimp only

theorem sqArrive_same {k : Nat} {data : Bytes} {s : State} : Same s (sqArrive k data s) := by
  unfold sqArrive
  try dsimp only
  with_reducible repeat' first
    | apply Same.rfl
    | assumption
    | apply Same.trans (k := setQ_same)
    | apply Same.trans (k := admitQ_same)
    | apply Same.trans (k := queueCheck_same)
    | (simp only [Same.mk]; apply Same.fold)
    | split
    | intro _
    | dsimp only

theorem execHostReadCompletion_same {r : HostRead} {data : Bytes} {ok : Bool} {s : State} : SameO s (execHostReadCompletion r data ok s) := by
  unfold execHostReadCompletion
  try dsimp only
  with_reducible repeat' first
    | apply Same.rfl
    | assumption
    | apply Same.trans (k := hostWrite_same)
    | apply Same.trans (k := noteAtc_same)
    | apply Same.trans (k := sqFault_same)
    | apply Same.trans (k := readFault_same)
    | apply Same.trans (k := sqArrive_same)
    | (simp only [Same.mk]; apply Same.fold)
    | apply SameO.onUnit
    | apply SameO.next
    | apply Same.ite
    | split
    | intro _
    | dsimp only

theorem execHucBlockDone_same {stand : Nat} {s : State} : SameO s (execHucBlockDone stand s) := by
  unfold execHucBlockDone
  try dsimp only
  with_reducible repeat' first
    | apply Same.rfl
    | assumption
    | apply Same.trans (k := draw_same)
    | (apply draw_same_then; · assumption)
    | apply Same.trans (k := setStand_same)
    | apply Same.trans (k := askWire_same)
    | apply Same.trans (k := takeWire_same)
    | (apply takeWire_same_then; · assumption)
    | (simp only [Same.mk]; apply Same.fold)
    | apply SameO.onUnit
    | apply SameO.next
    | apply Same.ite
    | split
    | intro _
    | dsimp only

theorem execHucFailure_same {stand : Nat} {s : State} : SameO s (execHucFailure stand s) := by
  unfold execHucFailure
  try dsimp only
  with_reducible repeat' first
    | apply Same.rfl
    | assumption
    | apply Same.trans (k := hucFail_same)
    | apply SameO.onUnit
    | apply SameO.next
    | intro _
    | dsimp only

theorem maskedWake_same {code : Nat} {bit : Nat} {s : State} : Same s (maskedWake code bit s) := by
  unfold maskedWake
  try dsimp only
  with_reducible repeat' first
    | apply Same.rfl
    | assumption
    | apply Same.trans (k := wakePend_same)
    | apply Same.ite
    | split
    | intro _
    | dsimp only

theorem execI2cAddressMatch_same {addr : Nat} {s : State} : SameO s (execI2cAddressMatch addr s) := by
  unfold execI2cAddressMatch
  try dsimp only
  with_reducible repeat' first
    | apply Same.rfl
    | assumption
    | apply Same.trans (k := maskedWake_same)
    | (simp only [Same.mk]; apply Same.fold)
    | apply SameO.onUnit
    | apply SameO.next
    | apply Same.ite
    | split
    | intro _
    | dsimp only

theorem execI2cTimeout_same {s : State} : SameO s (execI2cTimeout s) := by
  unfold execI2cTimeout
  try dsimp only
  with_reducible repeat' first
    | apply Same.rfl
    | assumption
    | (simp only [Same.mk]; apply Same.fold)
    | apply SameO.onUnit
    | apply SameO.next
    | intro _
    | dsimp only

theorem execIdcode_same {s : State} : SameO s (execIdcode s) := by
  unfold execIdcode
  try dsimp only
  with_reducible repeat' first
    | apply Same.rfl
    | assumption
    | apply Same.trans (k := tapLoad_same)
    | (simp only [Same.mk]; apply Same.fold)
    | apply SameO.onUnit
    | apply SameO.next
    | intro _
    | dsimp only

theorem execIdeTlpFail_same {link : Nat} {stream : Nat} {s : State} : SameO s (execIdeTlpFail link stream s) := by
  unfold execIdeTlpFail
  try dsimp only
  with_reducible repeat' first
    | apply Same.rfl
    | assumption
    | apply Same.trans (k := setIde_same)
    | (simp only [Same.mk]; apply Same.fold)
    | apply SameO.onUnit
    | apply SameO.next
    | intro _
    | dsimp only

theorem execImageCommit_same {mb : Mb} {s : State} : SameO s (execImageCommit mb s) := by
  unfold execImageCommit
  try dsimp only
  with_reducible repeat' first
    | apply Same.rfl
    | assumption
    | apply Same.trans (k := imageCommitRun_same)
    | (apply imageCommitRun_same_then; · assumption)
    | apply runCmd_same
    | apply SameO.onUnit
    | apply SameO.next
    | apply Same.guarded
    | intro _
    | dsimp only

theorem execImageQuery_same {mb : Mb} {s : State} : SameO s (execImageQuery mb s) := by
  unfold execImageQuery
  try dsimp only
  with_reducible repeat' first
    | apply Same.rfl
    | assumption
    | apply runCmd_same
    | (simp only [Same.mk]; apply Same.fold)
    | apply SameO.onUnit
    | apply SameO.next
    | intro _
    | dsimp only

theorem execImageStage_same {mb : Mb} {s : State} : SameO s (execImageStage mb s) := by
  unfold execImageStage
  try dsimp only
  with_reducible repeat' first
    | apply Same.rfl
    | assumption
    | apply Same.trans (k := imageStageRun_same)
    | (apply imageStageRun_same_then; · assumption)
    | apply runCmd_same
    | apply SameO.onUnit
    | apply SameO.next
    | apply Same.guarded
    | intro _
    | dsimp only

theorem writeVector_same {core : Nat} {i : CoreStep} {s : State} : Same s (writeVector core i s) := by
  unfold writeVector
  try dsimp only
  with_reducible repeat' first
    | apply Same.rfl
    | assumption
    | apply Same.trans (k := setCore_same)
    | apply Same.trans (k := setCsr_same)
    | (simp only [Same.mk]; apply Same.fold)
    | apply Same.foldl
    | apply Same.ite
    | split
    | intro _
    | dsimp only

theorem instruction_same {core : Nat} {i : CoreStep} {s : State} : Same s (instruction core i s) := by
  unfold instruction
  try dsimp only
  with_reducible repeat' first
    | apply Same.rfl
    | assumption
    | apply Same.trans (k := setX_same)
    | apply Same.trans (k := complete_same)
    | apply Same.trans (k := csrWrite_same)
    | apply Same.trans (k := illegal_same)
    | apply Same.trans (k := writeVector_same)
    | apply Same.ite
    | split
    | intro _
    | dsimp only

theorem takeIrq_same {core : Nat} {s : State} : Same s (takeIrq core s) := by
  unfold takeIrq
  try dsimp only
  with_reducible repeat' first
    | apply Same.rfl
    | assumption
    | apply Same.trans (k := takeTrap_same)
    | apply Same.ite
    | split
    | intro _
    | dsimp only

theorem irqNow_same {core : Nat} {s : State} : Same s (irqNow core s) := by
  unfold irqNow
  try dsimp only
  with_reducible repeat' first
    | apply Same.rfl
    | assumption
    | apply Same.trans (k := deliverNotes_same)
    | apply Same.trans (k := takeIrq_same)
    | apply Same.ite
    | split
    | intro _
    | dsimp only

theorem instrThenIrq_same {core : Nat} {i : CoreStep} {s : State} : Same s (instrThenIrq core i s) := by
  unfold instrThenIrq
  try dsimp only
  with_reducible repeat' first
    | apply Same.rfl
    | assumption
    | apply Same.trans (k := instruction_same)
    | apply Same.trans (k := irqNow_same)
    | apply Same.ite
    | split
    | intro _
    | dsimp only

theorem execInstruction_same {core : Nat} {i : CoreStep} {s : State} : SameO s (execInstruction core i s) := by
  unfold execInstruction
  try dsimp only
  with_reducible repeat' first
    | apply Same.rfl
    | assumption
    | apply Same.trans (k := ownRow_same ?_)
    | apply Same.trans (k := instrThenIrq_same)
    | apply SameO.onUnit
    | apply SameO.next
    | intro _
    | dsimp only

theorem execInterruptTaken_same {core : Nat} {s : State} : SameO s (execInterruptTaken core s) := by
  unfold execInterruptTaken
  try dsimp only
  with_reducible repeat' first
    | apply Same.rfl
    | assumption
    | apply Same.trans (k := irqNow_same)
    | apply SameO.onUnit
    | apply SameO.next
    | apply Same.ite
    | split
    | intro _
    | dsimp only

theorem jrEvent_same {seq : Nat} {len : Nat} {idx : Nat} {kind : Nat} {s : State} : Same s (jrEvent seq len idx kind s) := by
  unfold jrEvent
  try dsimp only
  with_reducible repeat' first
    | apply Same.rfl
    | assumption
    | apply Same.trans (k := sendVec_same)
    | apply Same.trans (k := hostWrite_same)
    | apply Same.trans (k := setJring_same)
    | (simp only [Same.mk]; apply Same.fold)
    | apply Same.ite
    | split
    | intro _
    | dsimp only

theorem execJournalBlockWrite_same {s : State} : SameO s (execJournalBlockWrite s) := by
  unfold execJournalBlockWrite
  try dsimp only
  with_reducible repeat' first
    | apply Same.rfl
    | assumption
    | apply Same.trans (k := hostWrite_same)
    | apply Same.trans (k := setJring_same)
    | apply Same.trans (k := jrEvent_same)
    | (simp only [Same.mk]; apply Same.fold)
    | apply SameO.onUnit
    | apply SameO.next
    | apply Same.ite
    | split
    | intro _
    | dsimp only

theorem journalPage_same {page : Nat} {s : State} : Same s (journalPage page s) := by
  unfold journalPage
  try dsimp only
  with_reducible repeat' first
    | apply Same.rfl
    | assumption
    | apply Same.trans (k := formBlock_same)
    | (simp only [Same.mk]; apply Same.fold)
    | split
    | intro _
    | dsimp only

theorem execJournalPageSweep_same {page : Nat} {s : State} : SameO s (execJournalPageSweep page s) := by
  unfold execJournalPageSweep
  try dsimp only
  with_reducible repeat' first
    | apply Same.rfl
    | assumption
    | apply Same.trans (k := journalPage_same)
    | apply SameO.onUnit
    | apply SameO.next
    | apply Same.ite
    | split
    | intro _
    | dsimp only

end Sys2Proof.Machine
end

