-- ==== Sys2Proof/Laws/Apart5.lean ====
section
/-! SUPPORT. Operations and meanings that leave the queue, the clock and the COMMIT partition alone, callees first (5 of 6). -/

namespace Sys2Proof.Machine

theorem execJringInputBlock_same {s : State} : SameO s (execJringInputBlock s) := by
  unfold execJringInputBlock
  try dsimp only
  with_reducible repeat' first
    | apply Same.rfl
    | assumption
    | apply Same.trans (k := setJring_same)
    | apply Same.trans (k := endRecovery_same)
    | apply Same.trans (k := jrEvent_same)
    | (simp only [Same.mk]; apply Same.fold)
    | apply SameO.onUnit
    | apply SameO.next
    | apply Same.ite
    | split
    | intro _
    | dsimp only

theorem jringSetupRun_same {mb : Mb} {q : Req} {s : State} : Same s (jringSetupRun mb q s).2 := by
  unfold jringSetupRun
  try dsimp only
  with_reducible repeat' first
    | apply Same.rfl
    | assumption
    | apply Same.trans (k := setJring_same)
    | (simp only [Same.mk]; apply Same.fold)
    | apply Same.ite
    | split
    | intro _
    | dsimp only

theorem jringSetupRun_same_then {mb : Mb} {q : Req} {s : State} {s0_ : State} {r_ : _} {s_ : State} (h_ : (jringSetupRun mb q s) = (r_, s_)) (k_ : Same s0_ s) : Same s0_ s_ := by
  have j_ := k_.trans (@jringSetupRun_same mb q s); rw [h_] at j_; exact j_

theorem execJringSetup_same {mb : Mb} {s : State} : SameO s (execJringSetup mb s) := by
  unfold execJringSetup
  try dsimp only
  with_reducible repeat' first
    | apply Same.rfl
    | assumption
    | apply runCmd_same
    | apply Same.trans (k := jringSetupRun_same)
    | (apply jringSetupRun_same_then; · assumption)
    | apply SameO.onUnit
    | apply SameO.next
    | apply Same.direct
    | intro _
    | dsimp only

theorem execJringStop_same {mb : Mb} {s : State} : SameO s (execJringStop mb s) := by
  unfold execJringStop
  try dsimp only
  with_reducible repeat' first
    | apply Same.rfl
    | assumption
    | apply Same.trans (k := setJring_same)
    | apply runCmd_same
    | (simp only [Same.mk]; apply Same.fold)
    | apply SameO.onUnit
    | apply SameO.next
    | apply Same.direct
    | intro _
    | dsimp only

theorem tdiError_same {n : Nat} {s : State} : Same s (tdiError n s) := by
  unfold tdiError
  try dsimp only
  with_reducible repeat' first
    | apply Same.rfl
    | assumption
    | apply Same.trans (k := raiseEvent_same)
    | (simp only [Same.mk]; apply Same.fold)
    | split
    | intro _
    | dsimp only

theorem kcwAssignRun_same {a0 : Mb} {q : Req} {s : State} : Same s (kcwAssignRun a0 q s).2 := by
  unfold kcwAssignRun
  try dsimp only
  with_reducible repeat' first
    | apply Same.rfl
    | assumption
    | apply Same.trans (k := setKcw_same)
    | apply Same.trans (k := tdiError_same)
    | (simp only [Same.mk]; apply Same.fold)
    | apply Same.ite
    | split
    | intro _
    | dsimp only

theorem kcwAssignRun_same_then {a0 : Mb} {q : Req} {s : State} {s0_ : State} {r_ : _} {s_ : State} (h_ : (kcwAssignRun a0 q s) = (r_, s_)) (k_ : Same s0_ s) : Same s0_ s_ := by
  have j_ := k_.trans (@kcwAssignRun_same a0 q s); rw [h_] at j_; exact j_

theorem execKcwAssign_same {mb : Mb} {s : State} : SameO s (execKcwAssign mb s) := by
  unfold execKcwAssign
  try dsimp only
  with_reducible repeat' first
    | apply Same.rfl
    | assumption
    | apply runCmd_same
    | apply Same.trans (k := kcwAssignRun_same)
    | (apply kcwAssignRun_same_then; · assumption)
    | apply SameO.onUnit
    | apply SameO.next
    | intro _
    | dsimp only

theorem kcwData_same {w : Nat} {value : Word} {s : State} : Same s (kcwData w value s) := by
  unfold kcwData
  try dsimp only
  with_reducible repeat' first
    | apply Same.rfl
    | assumption
    | apply Same.trans (k := setKcw_same)
    | apply Same.trans (k := kcwFail_same)
    | (simp only [Same.mk]; apply Same.fold)
    | apply Same.ite
    | split
    | intro _
    | dsimp only

theorem execKcwData_same {w : Nat} {value : Word} {s : State} : SameO s (execKcwData w value s) := by
  unfold execKcwData
  try dsimp only
  with_reducible repeat' first
    | apply Same.rfl
    | assumption
    | apply Same.trans (k := kcwData_same)
    | apply SameO.onUnit
    | apply SameO.next
    | intro _
    | dsimp only

theorem kcwStart_same {w : Nat} {c : Nat} {k : Kcw} {entry : Bytes} {aux : Bytes} {input : Bytes} {want : Nat} {s : State} : Same s (kcwStart w c k entry aux input want s) := by
  unfold kcwStart
  try dsimp only
  with_reducible repeat' first
    | apply Same.rfl
    | assumption
    | apply Same.trans (k := setCtx_same)
    | apply Same.trans (k := leaseTry_same)
    | apply Same.trans (k := setKcw_same)
    | (simp only [Same.mk]; apply Same.fold)
    | apply Same.ite
    | split
    | intro _
    | dsimp only

theorem kcwCipher_same {cls : Nat} {purpose : Nat} {w : Nat} {k : Kcw} {c : Nat} {s : State} : Same s (kcwCipher cls purpose w k c s) := by
  unfold kcwCipher
  try dsimp only
  with_reducible repeat' first
    | apply Same.rfl
    | assumption
    | apply Same.trans (k := kcwFail_same)
    | apply Same.trans (k := kcwStart_same)
    | apply Same.ite
    | split
    | intro _
    | dsimp only

theorem kcwRow_same {w : Nat} {func : Nat} {f : Kcw → Nat → State → State} {s : State} (h_f : ∀ b0 b1 y, Same y (f b0 b1 y)) : SameO s (kcwRow w func f s) := by
  unfold kcwRow
  try dsimp only
  with_reducible repeat' first
    | apply Same.rfl
    | assumption
    | apply Same.trans (k := kcwFail_same)
    | apply SameO.onUnit
    | apply SameO.next
    | apply Same.trans (k := h_f _ _ _)
    | apply Same.ite
    | split
    | intro _
    | dsimp only

theorem execKcwDecrypt_same {w : Nat} {s : State} : SameO s (execKcwDecrypt w s) := by
  unfold execKcwDecrypt
  try dsimp only
  with_reducible repeat' first
    | apply Same.rfl
    | assumption
    | apply Same.trans (k := kcwCipher_same)
    | apply kcwRow_same
    | apply SameO.onUnit
    | apply SameO.next
    | intro _
    | dsimp only

theorem kcwUnsupported_same {w : Nat} {func : Nat} {s : State} : SameO s (kcwUnsupported w func s) := by
  unfold kcwUnsupported
  try dsimp only
  with_reducible repeat' first
    | apply Same.rfl
    | assumption
    | apply Same.trans (k := kcwFinish_same)
    | apply SameO.onUnit
    | apply SameO.next
    | apply Same.ite
    | split
    | intro _
    | dsimp only

theorem execKcwDeleteKey_same {w : Nat} {s : State} : SameO s (execKcwDeleteKey w s) := by
  unfold execKcwDeleteKey
  try dsimp only
  with_reducible repeat' first
    | apply Same.rfl
    | assumption
    | apply kcwUnsupported_same
    | apply Same.foldl
    | apply SameO.onUnit
    | apply SameO.next
    | apply Same.ite
    | split
    | intro _
    | dsimp only

theorem execKcwEncrypt_same {w : Nat} {s : State} : SameO s (execKcwEncrypt w s) := by
  unfold execKcwEncrypt
  try dsimp only
  with_reducible repeat' first
    | apply Same.rfl
    | assumption
    | apply Same.trans (k := kcwCipher_same)
    | apply kcwRow_same
    | apply SameO.onUnit
    | apply SameO.next
    | intro _
    | dsimp only

theorem execKcwExportKey_same {w : Nat} {s : State} : SameO s (execKcwExportKey w s) := by
  unfold execKcwExportKey
  try dsimp only
  with_reducible repeat' first
    | apply Same.rfl
    | assumption
    | apply kcwUnsupported_same
    | apply Same.foldl
    | apply SameO.onUnit
    | apply SameO.next
    | apply Same.ite
    | split
    | intro _
    | dsimp only

theorem execKcwGenerateKey_same {w : Nat} {s : State} : SameO s (execKcwGenerateKey w s) := by
  unfold execKcwGenerateKey
  try dsimp only
  with_reducible repeat' first
    | apply Same.rfl
    | assumption
    | apply kcwUnsupported_same
    | apply SameO.onUnit
    | apply SameO.next
    | intro _
    | dsimp only

theorem kcwOk_same {w : Nat} {result : Bytes} {s : State} : Same s (kcwOk w result s) := by
  unfold kcwOk
  try dsimp only
  with_reducible repeat' first
    | apply Same.rfl
    | assumption
    | apply Same.trans (k := kcwFinish_same)
    | intro _
    | dsimp only

theorem execKcwIdent_same {w : Nat} {s : State} : SameO s (execKcwIdent w s) := by
  unfold execKcwIdent
  try dsimp only
  with_reducible repeat' first
    | apply Same.rfl
    | assumption
    | apply Same.trans (k := kcwFail_same)
    | apply kcwRow_same
    | apply Same.trans (k := kcwOk_same)
    | apply SameO.onUnit
    | apply SameO.next
    | apply Same.ite
    | split
    | intro _
    | dsimp only

theorem execKcwImportKey_same {w : Nat} {s : State} : SameO s (execKcwImportKey w s) := by
  unfold execKcwImportKey
  try dsimp only
  with_reducible repeat' first
    | apply Same.rfl
    | assumption
    | apply kcwUnsupported_same
    | apply Same.foldl
    | apply SameO.onUnit
    | apply SameO.next
    | apply Same.ite
    | split
    | intro _
    | dsimp only

theorem execKcwKeyCheck_same {w : Nat} {s : State} : SameO s (execKcwKeyCheck w s) := by
  unfold execKcwKeyCheck
  try dsimp only
  with_reducible repeat' first
    | apply Same.rfl
    | assumption
    | apply Same.trans (k := kcwFail_same)
    | apply kcwRow_same
    | apply Same.trans (k := kcwOk_same)
    | apply SameO.onUnit
    | apply SameO.next
    | apply Same.ite
    | split
    | intro _
    | dsimp only

theorem execKcwLoadComponents_same {w : Nat} {s : State} : SameO s (execKcwLoadComponents w s) := by
  unfold execKcwLoadComponents
  try dsimp only
  with_reducible repeat' first
    | apply Same.rfl
    | assumption
    | apply kcwUnsupported_same
    | apply Same.foldl
    | apply SameO.onUnit
    | apply SameO.next
    | apply Same.ite
    | split
    | intro _
    | dsimp only

theorem kcwMac_same {verify : Bool} {w : Nat} {k : Kcw} {c : Nat} {s : State} : Same s (kcwMac verify w k c s) := by
  unfold kcwMac
  try dsimp only
  with_reducible repeat' first
    | apply Same.rfl
    | assumption
    | apply Same.trans (k := kcwFail_same)
    | apply Same.trans (k := kcwStart_same)
    | apply Same.ite
    | split
    | intro _
    | dsimp only

theorem execKcwMacGen_same {w : Nat} {s : State} : SameO s (execKcwMacGen w s) := by
  unfold execKcwMacGen
  try dsimp only
  with_reducible repeat' first
    | apply Same.rfl
    | assumption
    | apply kcwRow_same
    | apply Same.trans (k := kcwMac_same)
    | apply SameO.onUnit
    | apply SameO.next
    | intro _
    | dsimp only

theorem execKcwMacVer_same {w : Nat} {s : State} : SameO s (execKcwMacVer w s) := by
  unfold execKcwMacVer
  try dsimp only
  with_reducible repeat' first
    | apply Same.rfl
    | assumption
    | apply kcwRow_same
    | apply Same.trans (k := kcwMac_same)
    | apply SameO.onUnit
    | apply SameO.next
    | intro _
    | dsimp only

theorem kcwMapEnd_same {b : Bytes} {kcv : Bytes} {s : State} : Same s (kcwMapEnd b kcv s).2 := by
  unfold kcwMapEnd
  try dsimp only
  with_reducible repeat' first
    | apply Same.rfl
    | assumption
    | apply Same.trans (k := setKcw_same)
    | (simp only [Same.mk]; apply Same.fold)
    | split
    | intro _
    | dsimp only

theorem kcwMapEnd_same_then {b : Bytes} {kcv : Bytes} {s : State} {s0_ : State} {r_ : _} {s_ : State} (h_ : (kcwMapEnd b kcv s) = (r_, s_)) (k_ : Same s0_ s) : Same s0_ s_ := by
  have j_ := k_.trans (@kcwMapEnd_same b kcv s); rw [h_] at j_; exact j_

theorem useSystem_same {home : Nat} {mb : Mb} {slot : Nat} {k : KeyRec} {blocks : Nat} {s : State} : Same s (useSystem home mb slot k blocks s).2 := by
  unfold useSystem
  try dsimp only
  with_reducible repeat' first
    | apply Same.rfl
    | assumption
    | apply Same.trans (k := setMb_same)
    | apply Same.trans (k := useSapwood_same)
    | apply Same.trans (k := useHeldAt_same)
    | (apply useHeldAt_same_then; · assumption)
    | (simp only [Same.mk]; apply Same.fold)
    | apply Same.ite
    | split
    | intro _
    | dsimp only

theorem useSystem_same_then {home : Nat} {mb : Mb} {slot : Nat} {k : KeyRec} {blocks : Nat} {s : State} {s0_ : State} {r_ : _} {s_ : State} (h_ : (useSystem home mb slot k blocks s) = (r_, s_)) (k_ : Same s0_ s) : Same s0_ s_ := by
  have j_ := k_.trans (@useSystem_same home mb slot k blocks s); rw [h_] at j_; exact j_

theorem kcwMapRun_same {mb : Mb} {q : Req} {s : State} : Same s (kcwMapRun mb q s).2 := by
  unfold kcwMapRun
  try dsimp only
  with_reducible repeat' first
    | apply Same.rfl
    | assumption
    | apply Same.trans (k := drawBytes_same)
    | (apply drawBytes_same_then; · assumption)
    | apply Same.trans (k := setKcw_same)
    | apply Same.trans (k := kcwMapEnd_same)
    | (apply kcwMapEnd_same_then; · assumption)
    | apply Same.trans (k := useSystem_same)
    | (apply useSystem_same_then; · assumption)
    | (simp only [Same.mk]; apply Same.fold)
    | apply Same.ite
    | split
    | intro _
    | dsimp only

theorem kcwMapRun_same_then {mb : Mb} {q : Req} {s : State} {s0_ : State} {r_ : _} {s_ : State} (h_ : (kcwMapRun mb q s) = (r_, s_)) (k_ : Same s0_ s) : Same s0_ s_ := by
  have j_ := k_.trans (@kcwMapRun_same mb q s); rw [h_] at j_; exact j_

theorem execKcwMap_same {mb : Mb} {s : State} : SameO s (execKcwMap mb s) := by
  unfold execKcwMap
  try dsimp only
  with_reducible repeat' first
    | apply Same.rfl
    | assumption
    | apply runCmd_same
    | apply Same.trans (k := kcwMapRun_same)
    | (apply kcwMapRun_same_then; · assumption)
    | apply SameO.onUnit
    | apply SameO.next
    | apply Same.direct
    | intro _
    | dsimp only

theorem kcwPin_same {w : Nat} {k : Kcw} {c : Nat} {s : State} : Same s (kcwPin w k c s) := by
  unfold kcwPin
  try dsimp only
  with_reducible repeat' first
    | apply Same.rfl
    | assumption
    | apply Same.trans (k := kcwFail_same)
    | apply Same.trans (k := kcwStart_same)
    | apply Same.ite
    | split
    | intro _
    | dsimp only

theorem execKcwPinXlate_same {w : Nat} {s : State} : SameO s (execKcwPinXlate w s) := by
  unfold execKcwPinXlate
  try dsimp only
  with_reducible repeat' first
    | apply Same.rfl
    | assumption
    | apply kcwRow_same
    | apply Same.trans (k := kcwPin_same)
    | apply SameO.onUnit
    | apply SameO.next
    | intro _
    | dsimp only

theorem kcwQueryRun_same {mb : Mb} {q : Req} {s : State} : Same s (kcwQueryRun mb q s).2 := by
  unfold kcwQueryRun
  try dsimp only
  with_reducible repeat' first
    | apply Same.rfl
    | assumption
    | (simp only [Same.mk]; apply Same.fold)
    | apply Same.ite
    | split
    | intro _
    | dsimp only

theorem kcwQueryRun_same_then {mb : Mb} {q : Req} {s : State} {s0_ : State} {r_ : _} {s_ : State} (h_ : (kcwQueryRun mb q s) = (r_, s_)) (k_ : Same s0_ s) : Same s0_ s_ := by
  have j_ := k_.trans (@kcwQueryRun_same mb q s); rw [h_] at j_; exact j_

theorem execKcwQuery_same {mb : Mb} {s : State} : SameO s (execKcwQuery mb s) := by
  unfold execKcwQuery
  try dsimp only
  with_reducible repeat' first
    | apply Same.rfl
    | assumption
    | apply runCmd_same
    | apply Same.trans (k := kcwQueryRun_same)
    | (apply kcwQueryRun_same_then; · assumption)
    | apply SameO.onUnit
    | apply SameO.next
    | intro _
    | dsimp only

theorem execKcwRandom_same {w : Nat} {s : State} : SameO s (execKcwRandom w s) := by
  unfold execKcwRandom
  try dsimp only
  with_reducible repeat' first
    | apply Same.rfl
    | assumption
    | apply Same.trans (k := kcwFail_same)
    | apply Same.trans (k := kcwStart_same)
    | apply kcwRow_same
    | apply SameO.onUnit
    | apply SameO.next
    | apply Same.ite
    | split
    | intro _
    | dsimp only

theorem kcwReset_same {w : Nat} {release : Bool} {s : State} : Same s (kcwReset w release s) := by
  unfold kcwReset
  try dsimp only
  with_reducible repeat' first
    | apply Same.rfl
    | assumption
    | apply Same.trans (k := voidCtx_same)
    | apply Same.trans (k := windowsSettle_same)
    | apply Same.trans (k := revoke_same)
    | apply Same.trans (k := setKcw_same)
    | (simp only [Same.mk]; apply Same.fold)
    | apply Same.foldl
    | apply Same.ite
    | split
    | intro _
    | dsimp only

theorem kcwReleaseRun_same {a0 : Mb} {q : Req} {s : State} : Same s (kcwReleaseRun a0 q s).2 := by
  unfold kcwReleaseRun
  try dsimp only
  with_reducible repeat' first
    | apply Same.rfl
    | assumption
    | apply Same.trans (k := tdiError_same)
    | apply Same.trans (k := kcwReset_same)
    | (simp only [Same.mk]; apply Same.fold)
    | apply Same.ite
    | split
    | intro _
    | dsimp only

theorem kcwReleaseRun_same_then {a0 : Mb} {q : Req} {s : State} {s0_ : State} {r_ : _} {s_ : State} (h_ : (kcwReleaseRun a0 q s) = (r_, s_)) (k_ : Same s0_ s) : Same s0_ s_ := by
  have j_ := k_.trans (@kcwReleaseRun_same a0 q s); rw [h_] at j_; exact j_

theorem execKcwRelease_same {mb : Mb} {s : State} : SameO s (execKcwRelease mb s) := by
  unfold execKcwRelease
  try dsimp only
  with_reducible repeat' first
    | apply Same.rfl
    | assumption
    | apply runCmd_same
    | apply Same.trans (k := kcwReleaseRun_same)
    | (apply kcwReleaseRun_same_then; · assumption)
    | apply SameO.onUnit
    | apply SameO.next
    | intro _
    | dsimp only

theorem execKcwReset_same {w : Nat} {s : State} : SameO s (execKcwReset w s) := by
  unfold execKcwReset
  try dsimp only
  with_reducible repeat' first
    | apply Same.rfl
    | assumption
    | apply Same.trans (k := setKcw_same)
    | apply Same.trans (k := kcwReset_same)
    | (simp only [Same.mk]; apply Same.fold)
    | apply SameO.onUnit
    | apply SameO.next
    | apply Same.ite
    | split
    | intro _
    | dsimp only

theorem execKcwSetClock_same {w : Nat} {s : State} : SameO s (execKcwSetClock w s) := by
  unfold execKcwSetClock
  try dsimp only
  with_reducible repeat' first
    | apply Same.rfl
    | assumption
    | apply kcwUnsupported_same
    | apply Same.foldl
    | apply SameO.onUnit
    | apply SameO.next
    | apply Same.ite
    | split
    | intro _
    | dsimp only

theorem execKcwUseQuery_same {w : Nat} {s : State} : SameO s (execKcwUseQuery w s) := by
  unfold execKcwUseQuery
  try dsimp only
  with_reducible repeat' first
    | apply Same.rfl
    | assumption
    | apply Same.trans (k := kcwFail_same)
    | apply kcwRow_same
    | apply Same.trans (k := kcwOk_same)
    | apply SameO.onUnit
    | apply SameO.next
    | apply Same.ite
    | split
    | intro _
    | dsimp only

theorem execKeyDerive_same {mb : Mb} {s : State} : SameO s (execKeyDerive mb s) := by
  unfold execKeyDerive
  try dsimp only
  with_reducible repeat' first
    | apply Same.rfl
    | assumption
    | apply Same.trans (k := keyDeriveRun_same)
    | (apply keyDeriveRun_same_then; · assumption)
    | apply runCmd_same
    | apply SameO.onUnit
    | apply SameO.next
    | apply Same.guarded
    | apply Same.storeRun
    | intro _
    | dsimp only

theorem execKeyDestroy_same {mb : Mb} {s : State} : SameO s (execKeyDestroy mb s) := by
  unfold execKeyDestroy
  try dsimp only
  with_reducible repeat' first
    | apply Same.rfl
    | assumption
    | apply Same.trans (k := keyDestroyRun_same)
    | (apply keyDestroyRun_same_then; · assumption)
    | apply runCmd_same
    | apply SameO.onUnit
    | apply SameO.next
    | apply Same.guarded
    | apply Same.storeRun
    | intro _
    | dsimp only

theorem finishDeletes_same {s : State} : Same s (finishDeletes s) := by
  unfold finishDeletes
  try dsimp only
  with_reducible repeat' first
    | apply Same.rfl
    | assumption
    | apply Same.trans (k := finishDelete_same)
    | apply Same.foldl
    | apply Same.ite
    | split
    | intro _
    | dsimp only

theorem finishedKey_same {slot : Nat} {s : State} : Same s (finishedKey slot s) := by
  unfold finishedKey
  try dsimp only
  with_reducible repeat' first
    | apply Same.rfl
    | assumption
    | (simp only [Same.mk]; apply Same.fold)
    | apply Same.ite
    | split
    | intro _
    | dsimp only

theorem wipeCopies_same {slot : Nat} {s : State} : Same s (wipeCopies slot s) := by
  unfold wipeCopies
  try dsimp only
  with_reducible repeat' first
    | apply Same.rfl
    | assumption
    | (simp only [Same.mk]; apply Same.fold)
    | intro _
    | dsimp only

theorem execKeyDrainDone_same {slot : Nat} {s : State} : SameO s (execKeyDrainDone slot s) := by
  unfold execKeyDrainDone
  try dsimp only
  with_reducible repeat' first
    | apply Same.rfl
    | assumption
    | apply Same.trans (k := wantCommit_same)
    | apply Same.trans (k := drainEnds_same)
    | (apply endRevocation_same; · assumption)
    | apply Same.trans (k := endRevocation_one)
    | apply Same.trans (k := finishDeletes_same)
    | apply Same.trans (k := finishedKey_same)
    | apply Same.trans (k := wipeCopies_same)
    | apply SameO.onUnit
    | apply SameO.next
    | apply Same.ite
    | split
    | intro _
    | dsimp only

theorem execKeyExport_same {mb : Mb} {s : State} : SameO s (execKeyExport mb s) := by
  unfold execKeyExport
  try dsimp only
  with_reducible repeat' first
    | apply Same.rfl
    | assumption
    | apply Same.trans (k := keyExportRun_same)
    | (apply keyExportRun_same_then; · assumption)
    | apply runCmd_same
    | apply SameO.onUnit
    | apply SameO.next
    | apply Same.guarded
    | intro _
    | dsimp only

theorem execKeyGenerate_same {mb : Mb} {s : State} : SameO s (execKeyGenerate mb s) := by
  unfold execKeyGenerate
  try dsimp only
  with_reducible repeat' first
    | apply Same.rfl
    | assumption
    | apply Same.trans (k := keyGenerateRun_same)
    | (apply keyGenerateRun_same_then; · assumption)
    | apply runCmd_same
    | apply SameO.onUnit
    | apply SameO.next
    | apply Same.guarded
    | apply Same.storeRun
    | intro _
    | dsimp only

theorem execKeyGetAttr_same {mb : Mb} {s : State} : SameO s (execKeyGetAttr mb s) := by
  unfold execKeyGetAttr
  try dsimp only
  with_reducible repeat' first
    | apply Same.rfl
    | assumption
    | apply runCmd_same
    | (simp only [Same.mk]; apply Same.fold)
    | apply SameO.onUnit
    | apply SameO.next
    | apply Same.direct
    | apply Same.storeRead
    | split
    | intro _
    | dsimp only

theorem execKeyImport_same {mb : Mb} {s : State} : SameO s (execKeyImport mb s) := by
  unfold execKeyImport
  try dsimp only
  with_reducible repeat' first
    | apply Same.rfl
    | assumption
    | apply Same.trans (k := keyImportRun_same)
    | (apply keyImportRun_same_then; · assumption)
    | apply runCmd_same
    | apply SameO.onUnit
    | apply SameO.next
    | apply Same.guarded
    | apply Same.storeRun
    | intro _
    | dsimp only

theorem execKeyInfo_same {ticket : Nat} {s : State} : SameO s (execKeyInfo ticket s) := by
  unfold execKeyInfo
  try dsimp only
  with_reducible repeat' first
    | apply Same.rfl
    | assumption
    | apply Same.trans (k := gateAnswer_same)
    | apply gateRow_same
    | apply SameO.onUnit
    | apply SameO.next
    | split
    | intro _
    | dsimp only

theorem execKeyOp_same {ticket : Nat} {s : State} : SameO s (execKeyOp ticket s) := by
  unfold execKeyOp
  try dsimp only
  with_reducible repeat' first
    | apply Same.rfl
    | assumption
    | apply Same.trans (k := setCtx_same)
    | apply Same.trans (k := settleFail_same)
    | apply Same.trans (k := gateAnswer_same)
    | apply gateRow_same
    | (simp only [Same.mk]; apply Same.fold)
    | apply SameO.onUnit
    | apply SameO.next
    | apply Same.ite
    | split
    | intro _
    | dsimp only

theorem execKeyReplace_same {mb : Mb} {s : State} : SameO s (execKeyReplace mb s) := by
  unfold execKeyReplace
  try dsimp only
  with_reducible repeat' first
    | apply Same.rfl
    | assumption
    | apply Same.trans (k := keyReplaceRun_same)
    | (apply keyReplaceRun_same_then; · assumption)
    | apply runCmd_same
    | apply SameO.onUnit
    | apply SameO.next
    | apply Same.guarded
    | apply Same.storeRun
    | intro _
    | dsimp only

theorem execKeySetAttr_same {mb : Mb} {s : State} : SameO s (execKeySetAttr mb s) := by
  unfold execKeySetAttr
  try dsimp only
  with_reducible repeat' first
    | apply Same.rfl
    | assumption
    | apply Same.trans (k := keySetAttrRun_same)
    | (apply keySetAttrRun_same_then; · assumption)
    | apply runCmd_same
    | apply SameO.onUnit
    | apply SameO.next
    | apply Same.guarded
    | apply Same.storeRun
    | intro _
    | dsimp only

theorem execLaneContextPrepare_same {lane : Nat} {slot : Nat} {s : State} : SameO s (execLaneContextPrepare lane slot s) := by
  unfold execLaneContextPrepare
  try dsimp only
  with_reducible repeat' first
    | apply Same.rfl
    | assumption
    | apply Same.trans (k := bindLane_same)
    | apply SameO.onUnit
    | apply SameO.next
    | apply Same.ite
    | split
    | intro _
    | dsimp only

theorem execLaneFailure_same {lane : Nat} {cause : Nat} {s : State} : SameO s (execLaneFailure lane cause s) := by
  unfold execLaneFailure
  try dsimp only
  with_reducible repeat' first
    | apply Same.rfl
    | assumption
    | apply Same.trans (k := laneFail_same)
    | apply SameO.onUnit
    | apply SameO.next
    | intro _
    | dsimp only

theorem execLaneSentinel_same {lane : Nat} {ok : Bool} {s : State} : SameO s (execLaneSentinel lane ok s) := by
  unfold execLaneSentinel
  try dsimp only
  with_reducible repeat' first
    | apply Same.rfl
    | assumption
    | apply Same.trans (k := setLane_same)
    | apply Same.trans (k := laneFail_same)
    | (simp only [Same.mk]; apply Same.fold)
    | apply SameO.onUnit
    | apply SameO.next
    | apply Same.ite
    | split
    | intro _
    | dsimp only

theorem execLcAnchorRefresh_same {mb : Mb} {s : State} : SameO s (execLcAnchorRefresh mb s) := by
  unfold execLcAnchorRefresh
  try dsimp only
  with_reducible repeat' first
    | apply Same.rfl
    | assumption
    | apply Same.trans (k := anchorRefreshRun_same)
    | (apply anchorRefreshRun_same_then; · assumption)
    | apply runCmd_same
    | apply SameO.onUnit
    | apply SameO.next
    | apply Same.designated
    | intro _
    | dsimp only

theorem execLcNonce_same {mb : Mb} {s : State} : SameO s (execLcNonce mb s) := by
  unfold execLcNonce
  try dsimp only
  with_reducible repeat' first
    | apply Same.rfl
    | assumption
    | apply Same.trans (k := takeHeart_same)
    | (apply takeHeart_same_then; · assumption)
    | apply runCmd_same
    | (simp only [Same.mk]; apply Same.fold)
    | apply SameO.onUnit
    | apply SameO.next
    | split
    | intro _
    | dsimp only

theorem lcResume_same {mb : Mb} {q : Req} {src : LcState} {dst : LcState} {auth : LcAuth} {text : Bytes} {entryNo : Bool} {s : State} : Same s (lcResume mb q src dst auth text entryNo s).2 := by
  unfold lcResume
  try dsimp only
  with_reducible repeat' first
    | apply Same.rfl
    | assumption
    | apply Same.trans (k := lcBegin_same)
    | (apply lcBegin_same_then; · assumption)
    | apply Same.ite
    | split
    | intro _
    | dsimp only

theorem lcResume_same_then {mb : Mb} {q : Req} {src : LcState} {dst : LcState} {auth : LcAuth} {text : Bytes} {entryNo : Bool} {s : State} {s0_ : State} {r_ : _} {s_ : State} (h_ : (lcResume mb q src dst auth text entryNo s) = (r_, s_)) (k_ : Same s0_ s) : Same s0_ s_ := by
  have j_ := k_.trans (@lcResume_same mb q src dst auth text entryNo s); rw [h_] at j_; exact j_

theorem runResume_same {kind : Nat} {mb : Mb} {q : Req} {s : State} : Same s (runResume kind mb q s).2 := by
  unfold runResume
  try dsimp only
  with_reducible repeat' first
    | apply Same.rfl
    | assumption
    | apply Same.trans (k := consumeNonce_same)
    | apply Same.trans (k := lcResume_same)
    | (apply lcResume_same_then; · assumption)
    | split
    | intro _
    | dsimp only

theorem runResume_same_then {kind : Nat} {mb : Mb} {q : Req} {s : State} {s0_ : State} {r_ : _} {s_ : State} (h_ : (runResume kind mb q s) = (r_, s_)) (k_ : Same s0_ s) : Same s0_ s_ := by
  have j_ := k_.trans (@runResume_same kind mb q s); rw [h_] at j_; exact j_

theorem execLcResume_same {mb : Mb} {s : State} : SameO s (execLcResume mb s) := by
  unfold execLcResume
  try dsimp only
  with_reducible repeat' first
    | apply Same.rfl
    | assumption
    | apply Same.trans (k := lcContinue_same)
    | (apply lcContinue_same_then; · assumption)
    | apply runCmd_same
    | apply Same.trans (k := runResume_same)
    | (apply runResume_same_then; · assumption)
    | apply SameO.onUnit
    | apply SameO.next
    | apply Same.ite
    | split
    | intro _
    | dsimp only

theorem lcTransitionRun_same {mb : Mb} {q : Req} {s : State} : Same s (lcTransitionRun mb q s).2 := by
  unfold lcTransitionRun
  try dsimp only
  with_reducible repeat' first
    | apply Same.rfl
    | assumption
    | apply Same.trans (k := consumeNonce_same)
    | apply Same.trans (k := lcBegin_same)
    | (apply lcBegin_same_then; · assumption)
    | apply Same.trans (k := runResume_same)
    | (apply runResume_same_then; · assumption)
    | apply Same.ite
    | split
    | intro _
    | dsimp only

theorem lcTransitionRun_same_then {mb : Mb} {q : Req} {s : State} {s0_ : State} {r_ : _} {s_ : State} (h_ : (lcTransitionRun mb q s) = (r_, s_)) (k_ : Same s0_ s) : Same s0_ s_ := by
  have j_ := k_.trans (@lcTransitionRun_same mb q s); rw [h_] at j_; exact j_

theorem execLcTransition_same {mb : Mb} {s : State} : SameO s (execLcTransition mb s) := by
  unfold execLcTransition
  try dsimp only
  with_reducible repeat' first
    | apply Same.rfl
    | assumption
    | apply Same.trans (k := lcContinue_same)
    | (apply lcContinue_same_then; · assumption)
    | apply Same.trans (k := lcToProductionRun_same)
    | (apply lcToProductionRun_same_then; · assumption)
    | apply runCmd_same
    | apply Same.trans (k := lcTransitionRun_same)
    | (apply lcTransitionRun_same_then; · assumption)
    | apply SameO.onUnit
    | apply SameO.next
    | apply Same.designated
    | apply Same.ite
    | split
    | intro _
    | dsimp only

theorem execLegacyMac_same {ctx : Nat} {s : State} : SameO s (execLegacyMac ctx s) := by
  unfold execLegacyMac
  try dsimp only
  with_reducible repeat' first
    | apply Same.rfl
    | assumption
    | apply classRow_same
    | apply Same.foldl
    | apply SameO.onUnit
    | apply SameO.next
    | apply Same.ite
    | split
    | intro _
    | dsimp only

theorem resetDoe_same {p : Nat} {s : State} : Same s (resetDoe p s) := by
  unfold resetDoe
  try dsimp only
  with_reducible repeat' first
    | apply Same.rfl
    | assumption
    | (simp only [Same.mk]; apply Same.fold)
    | apply Same.ite
    | split
    | intro _
    | dsimp only

theorem resetMb_same {mb : Mb} {s : State} : Same s (resetMb mb s) := by
  unfold resetMb
  try dsimp only
  with_reducible repeat' first
    | apply Same.rfl
    | assumption
    | apply Same.trans (k := endJob_same)
    | (simp only [Same.mk]; apply Same.fold)
    | split
    | intro _
    | dsimp only

theorem resetFn_same {fn : Fn} {enabled : Bool} {s : State} : Same s (resetFn fn enabled s) := by
  unfold resetFn
  try dsimp only
  with_reducible repeat' first
    | apply Same.rfl
    | assumption
    | apply Same.trans (k := setFn_same)
    | apply Same.trans (k := setAlloc_same)
    | apply Same.trans (k := voidFn_same)
    | (apply voidFn_same_then; · assumption)
    | apply Same.trans (k := dropQueues_same)
    | apply Same.trans (k := resetMb_same)
    | (simp only [Same.mk]; apply Same.fold)
    | apply Same.foldl
    | split
    | intro _
    | dsimp only

theorem resetVf_same {n : Nat} {enabled : Bool} {s : State} : Same s (resetVf n enabled s) := by
  unfold resetVf
  try dsimp only
  with_reducible repeat' first
    | apply Same.rfl
    | assumption
    | apply Same.trans (k := logCode_same)
    | apply Same.trans (k := voidFn_same)
    | (apply voidFn_same_then; · assumption)
    | apply Same.trans (k := kcwReset_same)
    | apply Same.trans (k := resetFn_same)
    | apply Same.foldl
    | apply Same.ite
    | split
    | intro _
    | dsimp only

theorem resetPf_same {p : Nat} {enabled : Bool} {s : State} : Same s (resetPf p enabled s) := by
  unfold resetPf
  try dsimp only
  with_reducible repeat' first
    | apply Same.rfl
    | assumption
    | apply Same.trans (k := dropAtc_same)
    | apply Same.trans (k := resetDoe_same)
    | apply Same.trans (k := resetFn_same)
    | apply Same.trans (k := resetVf_same)
    | apply Same.foldl
    | split
    | intro _
    | dsimp only

theorem linkReset_same {l : Nat} {s : State} : Same s (linkReset l s) := by
  unfold linkReset
  try dsimp only
  with_reducible repeat' first
    | apply Same.rfl
    | assumption
    | apply Same.trans (k := kcwReset_same)
    | apply Same.trans (k := resetPf_same)
    | (simp only [Same.mk]; apply Same.fold)
    | apply Same.foldl
    | apply Same.ite
    | split
    | intro _
    | dsimp only

theorem execLinkDown_same {link : Nat} {s : State} : SameO s (execLinkDown link s) := by
  unfold execLinkDown
  try dsimp only
  with_reducible repeat' first
    | apply Same.rfl
    | assumption
    | apply Same.trans (k := linkReset_same)
    | apply SameO.onUnit
    | apply SameO.next
    | apply Same.ite
    | split
    | intro _
    | dsimp only

theorem execLogAck_same {mb : Mb} {s : State} : SameO s (execLogAck mb s) := by
  unfold execLogAck
  try dsimp only
  with_reducible repeat' first
    | apply Same.rfl
    | assumption
    | apply runCmd_same
    | (simp only [Same.mk]; apply Same.fold)
    | apply SameO.onUnit
    | apply SameO.next
    | apply Same.ite
    | split
    | intro _
    | dsimp only

theorem execLogClear_same {mb : Mb} {s : State} : SameO s (execLogClear mb s) := by
  unfold execLogClear
  try dsimp only
  with_reducible repeat' first
    | apply Same.rfl
    | assumption
    | apply Same.trans (k := logClearRun_same)
    | (apply logClearRun_same_then; · assumption)
    | apply runCmd_same
    | apply SameO.onUnit
    | apply SameO.next
    | apply Same.designated
    | intro _
    | dsimp only

theorem execLogExport_same {mb : Mb} {s : State} : SameO s (execLogExport mb s) := by
  unfold execLogExport
  try dsimp only
  with_reducible repeat' first
    | apply Same.rfl
    | assumption
    | apply Same.trans (k := blobWrite_same)
    | (apply blobWrite_same_then; · assumption)
    | apply runCmd_same
    | (simp only [Same.mk]; apply Same.fold)
    | apply SameO.onUnit
    | apply SameO.next
    | apply Same.ite
    | split
    | intro _
    | dsimp only

theorem execLogPageOpen_same {s : State} : SameO s (execLogPageOpen s) := by
  unfold execLogPageOpen
  try dsimp only
  with_reducible repeat' first
    | apply Same.rfl
    | assumption
    | (simp only [Same.mk]; apply Same.fold)
    | apply SameO.onUnit
    | apply SameO.next
    | apply Same.ite
    | split
    | intro _
    | dsimp only

theorem execLogRecordProgrammed_same {s : State} : SameO s (execLogRecordProgrammed s) := by
  unfold execLogRecordProgrammed
  try dsimp only
  with_reducible repeat' first
    | apply Same.rfl
    | assumption
    | (simp only [Same.mk]; apply Same.fold)
    | apply Same.foldl
    | apply SameO.onUnit
    | apply SameO.next
    | apply Same.ite
    | split
    | intro _
    | dsimp only

theorem execLogRecordQueue_same {code : Nat} {origin : Nat} {arg : Bytes} {s : State} : SameO s (execLogRecordQueue code origin arg s) := by
  unfold execLogRecordQueue
  try dsimp only
  with_reducible repeat' first
    | apply Same.rfl
    | assumption
    | apply Same.trans (k := logPut_same)
    | (simp only [Same.mk]; apply Same.fold)
    | apply SameO.onUnit
    | apply SameO.next
    | apply Same.ite
    | split
    | intro _
    | dsimp only

theorem execLogStatus_same {mb : Mb} {s : State} : SameO s (execLogStatus mb s) := by
  unfold execLogStatus
  try dsimp only
  with_reducible repeat' first
    | apply Same.rfl
    | assumption
    | apply runCmd_same
    | (simp only [Same.mk]; apply Same.fold)
    | apply SameO.onUnit
    | apply SameO.next
    | split
    | intro _
    | dsimp only

theorem execLookoutConfig_same {mb : Mb} {s : State} : SameO s (execLookoutConfig mb s) := by
  unfold execLookoutConfig
  try dsimp only
  with_reducible repeat' first
    | apply Same.rfl
    | assumption
    | apply Same.trans (k := lookoutConfigRun_same)
    | (apply lookoutConfigRun_same_then; · assumption)
    | apply runCmd_same
    | apply SameO.onUnit
    | apply SameO.next
    | apply Same.designated
    | intro _
    | dsimp only

theorem execLookoutEvent_same {source : Nat} {t : Nat} {value : Int} {s : State} : SameO s (execLookoutEvent source t value s) := by
  unfold execLookoutEvent
  try dsimp only
  with_reducible repeat' first
    | apply Same.rfl
    | assumption
    | apply Same.trans (k := lkoEvent_same)
    | (simp only [Same.mk]; apply Same.fold)
    | apply SameO.onUnit
    | apply SameO.next
    | apply SameO.fault
    | apply Same.ite
    | split
    | intro _
    | dsimp only

theorem execLookoutQuery_same {mb : Mb} {s : State} : SameO s (execLookoutQuery mb s) := by
  unfold execLookoutQuery
  try dsimp only
  with_reducible repeat' first
    | apply Same.rfl
    | assumption
    | apply runCmd_same
    | (simp only [Same.mk]; apply Same.fold)
    | apply SameO.onUnit
    | apply SameO.next
    | apply Same.ite
    | split
    | intro _
    | dsimp only

theorem execLookoutRelease_same {mb : Mb} {s : State} : SameO s (execLookoutRelease mb s) := by
  unfold execLookoutRelease
  try dsimp only
  with_reducible repeat' first
    | apply Same.rfl
    | assumption
    | apply Same.trans (k := lookoutReleaseRun_same)
    | (apply lookoutReleaseRun_same_then; · assumption)
    | apply runCmd_same
    | apply SameO.onUnit
    | apply SameO.next
    | apply Same.designated
    | intro _
    | dsimp only

theorem execLookoutReset_same {s : State} : SameO s (execLookoutReset s) := by
  unfold execLookoutReset
  try dsimp only
  with_reducible repeat' first
    | apply Same.rfl
    | assumption
    | apply Same.trans (k := coldStart_same)
    | (simp only [Same.mk]; apply Same.fold)
    | apply SameO.onUnit
    | apply SameO.next
    | apply Same.ite
    | split
    | intro _
    | dsimp only

theorem latchTrip_same {n : Nat} {s : State} : Same s (latchTrip n s) := by
  unfold latchTrip
  try dsimp only
  with_reducible repeat' first
    | apply Same.rfl
    | assumption
    | (simp only [Same.mk]; apply Same.fold)
    | apply Same.ite
    | split
    | intro _
    | dsimp only

theorem loopEvent_same {t : Nat} {s : State} {n : Nat} : Same s (loopEvent t s n) := by
  unfold loopEvent
  try dsimp only
  with_reducible repeat' first
    | apply Same.rfl
    | assumption
    | apply Same.trans (k := setLkoSrc_same)
    | apply Same.trans (k := lkoEvent_same)
    | apply Same.trans (k := latchTrip_same)
    | (simp only [Same.mk]; apply Same.fold)
    | apply Same.ite
    | split
    | intro _
    | dsimp only

theorem execLoopCheck_same {t : Nat} {fails : List Bool} {lidHigh : List Bool} {s : State} : SameO s (execLoopCheck t fails lidHigh s) := by
  unfold execLoopCheck
  try dsimp only
  with_reducible repeat' first
    | apply Same.rfl
    | assumption
    | apply Same.trans (k := setLkoSrc_same)
    | apply Same.trans (k := loopEvent_same)
    | (simp only [Same.mk]; apply Same.fold)
    | apply Same.foldl
    | apply SameO.onUnit
    | apply SameO.next
    | split
    | intro _
    | dsimp only

theorem execMacsecStats_same {mb : Mb} {s : State} : SameO s (execMacsecStats mb s) := by
  unfold execMacsecStats
  try dsimp only
  with_reducible repeat' first
    | apply Same.rfl
    | assumption
    | apply runCmd_same
    | (simp only [Same.mk]; apply Same.fold)
    | apply SameO.onUnit
    | apply SameO.next
    | apply Same.direct
    | intro _
    | dsimp only

theorem execMailboxAccept_same {mb : Mb} {s : State} : SameO s (execMailboxAccept mb s) := by
  unfold execMailboxAccept
  try dsimp only
  with_reducible repeat' first
    | apply Same.rfl
    | assumption
    | apply Same.trans (k := acceptReq_same)
    | apply SameO.onUnit
    | apply SameO.next
    | apply Same.ite
    | split
    | intro _
    | dsimp only

theorem execMailboxDeadlineExpiry_same {mb : Mb} {s : State} : SameO s (execMailboxDeadlineExpiry mb s) := by
  unfold execMailboxDeadlineExpiry
  try dsimp only
  with_reducible repeat' first
    | apply Same.rfl
    | assumption
    | apply Same.trans (k := finishMb_same)
    | apply SameO.onUnit
    | apply SameO.next
    | apply Same.ite
    | split
    | intro _
    | dsimp only

theorem tearRec_same {s : State} : Same s (tearRec s) := by
  unfold tearRec
  try dsimp only
  with_reducible repeat' first
    | apply Same.rfl
    | assumption
    | apply Same.trans (k := draw_same)
    | (apply draw_same_then; · assumption)
    | apply Same.trans (k := drawBytes_same)
    | (apply drawBytes_same_then; · assumption)
    | (simp only [Same.mk]; apply Same.fold)
    | apply Same.ite
    | split
    | intro _
    | dsimp only

theorem execMainPowerLost_same {s : State} : SameO s (execMainPowerLost s) := by
  unfold execMainPowerLost
  try dsimp only
  with_reducible repeat' first
    | apply Same.rfl
    | assumption
    | apply Same.trans (k := coldReset_same)
    | apply Same.trans (k := tearRec_same)
    | (simp only [Same.mk]; apply Same.fold)
    | apply SameO.onUnit
    | apply SameO.next
    | apply Same.ite
    | split
    | intro _
    | dsimp only

theorem execMeshCheck_same {mesh : Nat} {t : Nat} {fails : Bool} {s : State} : SameO s (execMeshCheck mesh t fails s) := by
  unfold execMeshCheck
  try dsimp only
  with_reducible repeat' first
    | apply Same.rfl
    | assumption
    | apply Same.trans (k := takeHeart_same)
    | (apply takeHeart_same_then; · assumption)
    | apply Same.trans (k := setLkoSrc_same)
    | apply Same.trans (k := lkoEvent_same)
    | (simp only [Same.mk]; apply Same.fold)
    | apply SameO.onUnit
    | apply SameO.next
    | apply Same.ite
    | split
    | intro _
    | dsimp only

theorem execMeterClose_same {mb : Mb} {s : State} : SameO s (execMeterClose mb s) := by
  unfold execMeterClose
  try dsimp only
  with_reducible repeat' first
    | apply Same.rfl
    | assumption
    | apply Same.trans (k := logCode_same)
    | apply Same.trans (k := durableAns_same)
    | (apply durableAns_same_then; · assumption)
    | apply runCmd_same
    | apply Same.trans (k := journalPage_same)
    | (simp only [Same.mk]; apply Same.fold)
    | apply Same.foldl
    | apply SameO.onUnit
    | apply SameO.next
    | apply Same.ite
    | split
    | intro _
    | dsimp only

theorem execMeterConfig_same {mb : Mb} {s : State} : SameO s (execMeterConfig mb s) := by
  unfold execMeterConfig
  try dsimp only
  with_reducible repeat' first
    | apply Same.rfl
    | assumption
    | apply runCmd_same
    | (simp only [Same.mk]; apply Same.fold)
    | apply SameO.onUnit
    | apply SameO.next
    | apply Same.ite
    | split
    | intro _
    | dsimp only

theorem execMeterFlush_same {s : State} : SameO s (execMeterFlush s) := by
  unfold execMeterFlush
  try dsimp only
  with_reducible repeat' first
    | apply Same.rfl
    | assumption
    | apply Same.trans (k := journalPage_same)
    | (simp only [Same.mk]; apply Same.fold)
    | apply Same.foldl
    | apply SameO.onUnit
    | apply SameO.next
    | apply Same.ite
    | split
    | intro _
    | dsimp only

theorem execMeterRead_same {mb : Mb} {s : State} : SameO s (execMeterRead mb s) := by
  unfold execMeterRead
  try dsimp only
  with_reducible repeat' first
    | apply Same.rfl
    | assumption
    | apply Same.trans (k := blobWrite_same)
    | (apply blobWrite_same_then; · assumption)
    | apply runCmd_same
    | (simp only [Same.mk]; apply Same.fold)
    | apply SameO.onUnit
    | apply SameO.next
    | apply Same.ite
    | split
    | intro _
    | dsimp only

theorem execMeterSetUtc_same {mb : Mb} {s : State} : SameO s (execMeterSetUtc mb s) := by
  unfold execMeterSetUtc
  try dsimp only
  with_reducible repeat' first
    | apply Same.rfl
    | assumption
    | apply Same.trans (k := logPut_same)
    | apply runCmd_same
    | (simp only [Same.mk]; apply Same.fold)
    | apply SameO.onUnit
    | apply SameO.next
    | apply Same.ite
    | split
    | intro _
    | dsimp only

theorem execMeterStatus_same {mb : Mb} {s : State} : SameO s (execMeterStatus mb s) := by
  unfold execMeterStatus
  try dsimp only
  with_reducible repeat' first
    | apply Same.rfl
    | assumption
    | apply runCmd_same
    | (simp only [Same.mk]; apply Same.fold)
    | apply SameO.onUnit
    | apply SameO.next
    | intro _
    | dsimp only

theorem execMgateCancel_same {core : Nat} {mask : Nat} {s : State} : SameO s (execMgateCancel core mask s) := by
  unfold execMgateCancel
  try dsimp only
  with_reducible repeat' first
    | apply Same.rfl
    | assumption
    | apply Same.trans (k := cancelCall_same)
    | apply Same.trans (k := ownRow_same ?_)
    | apply Same.trans (k := illegal_same)
    | apply Same.foldl
    | apply SameO.onUnit
    | apply SameO.next
    | apply Same.ite
    | split
    | intro _
    | dsimp only

theorem mret_same {core : Nat} {s : State} : Same s (mret core s) := by
  unfold mret
  try dsimp only
  with_reducible repeat' first
    | apply Same.rfl
    | assumption
    | apply Same.trans (k := setCore_same)
    | apply Same.trans (k := setCsr_same)
    | apply Same.trans (k := tryUpcall_same)
    | apply Same.trans (k := complete_same)
    | apply Same.trans (k := putStatus_same)
    | apply Same.trans (k := illegal_same)
    | apply Same.trans (k := irqNow_same)
    | (simp only [Same.mk]; apply Same.fold)
    | apply Same.ite
    | split
    | intro _
    | dsimp only

theorem execMret_same {core : Nat} {s : State} : SameO s (execMret core s) := by
  unfold execMret
  try dsimp only
  with_reducible repeat' first
    | apply Same.rfl
    | assumption
    | apply Same.trans (k := ownRow_same ?_)
    | apply Same.trans (k := mret_same)
    | apply SameO.onUnit
    | apply SameO.next
    | intro _
    | dsimp only

theorem execMsixUnmask_same {fn : Fn} {vec : Nat} {s : State} : SameO s (execMsixUnmask fn vec s) := by
  unfold execMsixUnmask
  try dsimp only
  with_reducible repeat' first
    | apply Same.rfl
    | assumption
    | apply Same.trans (k := setFn_same)
    | apply Same.trans (k := sendVec_same)
    | (simp only [Same.mk]; apply Same.fold)
    | apply SameO.onUnit
    | apply SameO.next
    | apply Same.ite
    | split
    | intro _
    | dsimp only

theorem execNotifyReturn_same {core : Nat} {s : State} : SameO s (execNotifyReturn core s) := by
  unfold execNotifyReturn
  try dsimp only
  with_reducible repeat' first
    | apply Same.rfl
    | assumption
    | apply Same.trans (k := setCore_same)
    | apply Same.trans (k := modApplet_same)
    | apply Same.trans (k := putLoopCsrs_same)
    | apply Same.trans (k := tryUpcall_same)
    | apply ecall_same
    | apply Same.trans (k := ecallRet_same)
    | (simp only [Same.mk]; apply Same.fold)
    | apply SameO.onUnit
    | apply SameO.next
    | split
    | intro _
    | dsimp only

theorem execOwnerBackup_same {mb : Mb} {s : State} : SameO s (execOwnerBackup mb s) := by
  unfold execOwnerBackup
  try dsimp only
  with_reducible repeat' first
    | apply Same.rfl
    | assumption
    | apply Same.trans (k := ownerBackupRun_same)
    | (apply ownerBackupRun_same_then; · assumption)
    | apply runCmd_same
    | apply SameO.onUnit
    | apply SameO.next
    | apply Same.guarded
    | intro _
    | dsimp only

theorem ownerCreateRun_same {a0 : Mb} {q : Req} {s : State} : Same s (ownerCreateRun a0 q s).2 := by
  unfold ownerCreateRun
  try dsimp only
  with_reducible repeat' first
    | apply Same.rfl
    | assumption
    | apply Same.trans (k := putOwner_same)
    | apply Same.trans (k := takeWarden_same)
    | (apply takeWarden_same_then; · assumption)
    | (simp only [Same.mk]; apply Same.fold)
    | apply Same.ite
    | split
    | intro _
    | dsimp only

theorem ownerCreateRun_same_then {a0 : Mb} {q : Req} {s : State} {s0_ : State} {r_ : _} {s_ : State} (h_ : (ownerCreateRun a0 q s) = (r_, s_)) (k_ : Same s0_ s) : Same s0_ s_ := by
  have j_ := k_.trans (@ownerCreateRun_same a0 q s); rw [h_] at j_; exact j_

theorem execOwnerCreate_same {mb : Mb} {s : State} : SameO s (execOwnerCreate mb s) := by
  unfold execOwnerCreate
  try dsimp only
  with_reducible repeat' first
    | apply Same.rfl
    | assumption
    | apply runCmd_same
    | apply Same.trans (k := ownerCreateRun_same)
    | (apply ownerCreateRun_same_then; · assumption)
    | apply SameO.onUnit
    | apply SameO.next
    | apply Same.direct
    | apply Same.storeRun
    | apply Same.storeCmd
    | intro _
    | dsimp only

theorem execOwnerDelete_same {mb : Mb} {s : State} : SameO s (execOwnerDelete mb s) := by
  unfold execOwnerDelete
  try dsimp only
  with_reducible repeat' first
    | apply Same.rfl
    | assumption
    | apply Same.trans (k := ownerDeleteRun_same)
    | (apply ownerDeleteRun_same_then; · assumption)
    | apply runCmd_same
    | apply SameO.onUnit
    | apply SameO.next
    | apply Same.guarded
    | apply Same.storeRun
    | intro _
    | dsimp only

theorem execOwnerEvidence_same {mb : Mb} {s : State} : SameO s (execOwnerEvidence mb s) := by
  unfold execOwnerEvidence
  try dsimp only
  with_reducible repeat' first
    | apply Same.rfl
    | assumption
    | apply Same.trans (k := writeWithin_same)
    | (apply writeWithin_same_then; · assumption)
    | apply runCmd_same
    | (simp only [Same.mk]; apply Same.fold)
    | apply SameO.onUnit
    | apply SameO.next
    | apply Same.direct
    | apply Same.storeRead
    | split
    | intro _
    | dsimp only

theorem execOwnerQuery_same {mb : Mb} {s : State} : SameO s (execOwnerQuery mb s) := by
  unfold execOwnerQuery
  try dsimp only
  with_reducible repeat' first
    | apply Same.rfl
    | assumption
    | apply runCmd_same
    | (simp only [Same.mk]; apply Same.fold)
    | apply SameO.onUnit
    | apply SameO.next
    | apply Same.direct
    | apply Same.storeRead
    | split
    | intro _
    | dsimp only

theorem execOwnerRestore_same {mb : Mb} {s : State} : SameO s (execOwnerRestore mb s) := by
  unfold execOwnerRestore
  try dsimp only
  with_reducible repeat' first
    | apply Same.rfl
    | assumption
    | apply Same.trans (k := ownerRestoreRun_same)
    | (apply ownerRestoreRun_same_then; · assumption)
    | apply runCmd_same
    | apply SameO.onUnit
    | apply SameO.next
    | apply Same.guarded
    | apply Same.storeRun
    | intro _
    | dsimp only

theorem ownerSealRun_same {a0 : Mb} {q : Req} {s : State} : Same s (ownerSealRun a0 q s).2 := by
  unfold ownerSealRun
  try dsimp only
  with_reducible repeat' first
    | apply Same.rfl
    | assumption
    | apply Same.trans (k := putOwner_same)
    | apply Same.trans (k := takeWarden_same)
    | (apply takeWarden_same_then; · assumption)
    | (simp only [Same.mk]; apply Same.fold)
    | apply Same.ite
    | split
    | intro _
    | dsimp only

theorem ownerSealRun_same_then {a0 : Mb} {q : Req} {s : State} {s0_ : State} {r_ : _} {s_ : State} (h_ : (ownerSealRun a0 q s) = (r_, s_)) (k_ : Same s0_ s) : Same s0_ s_ := by
  have j_ := k_.trans (@ownerSealRun_same a0 q s); rw [h_] at j_; exact j_

theorem execOwnerSeal_same {mb : Mb} {s : State} : SameO s (execOwnerSeal mb s) := by
  unfold execOwnerSeal
  try dsimp only
  with_reducible repeat' first
    | apply Same.rfl
    | assumption
    | apply runCmd_same
    | apply Same.trans (k := ownerSealRun_same)
    | (apply ownerSealRun_same_then; · assumption)
    | apply SameO.onUnit
    | apply SameO.next
    | apply Same.direct
    | apply Same.storeRun
    | apply Same.storeCmd
    | intro _
    | dsimp only

theorem ownerSetQuotaRun_same {a0 : Mb} {q : Req} {s : State} : Same s (ownerSetQuotaRun a0 q s).2 := by
  unfold ownerSetQuotaRun
  try dsimp only
  with_reducible repeat' first
    | apply Same.rfl
    | assumption
    | apply Same.trans (k := putOwner_same)
    | (simp only [Same.mk]; apply Same.fold)
    | split
    | intro _
    | dsimp only

theorem ownerSetQuotaRun_same_then {a0 : Mb} {q : Req} {s : State} {s0_ : State} {r_ : _} {s_ : State} (h_ : (ownerSetQuotaRun a0 q s) = (r_, s_)) (k_ : Same s0_ s) : Same s0_ s_ := by
  have j_ := k_.trans (@ownerSetQuotaRun_same a0 q s); rw [h_] at j_; exact j_

theorem execOwnerSetQuota_same {mb : Mb} {s : State} : SameO s (execOwnerSetQuota mb s) := by
  unfold execOwnerSetQuota
  try dsimp only
  with_reducible repeat' first
    | apply Same.rfl
    | assumption
    | apply runCmd_same
    | apply Same.trans (k := ownerSetQuotaRun_same)
    | (apply ownerSetQuotaRun_same_then; · assumption)
    | apply SameO.onUnit
    | apply SameO.next
    | apply Same.direct
    | apply Same.storeRun
    | apply Same.storeCmd
    | intro _
    | dsimp only

theorem ownerSuspendRun_same {a0 : Mb} {q : Req} {s : State} : Same s (ownerSuspendRun a0 q s).2 := by
  unfold ownerSuspendRun
  try dsimp only
  with_reducible repeat' first
    | apply Same.rfl
    | assumption
    | apply Same.trans (k := putOwner_same)
    | apply Same.trans (k := notifyOwner_same)
    | apply Same.trans (k := suspendOwner_same)
    | (simp only [Same.mk]; apply Same.fold)
    | apply Same.ite
    | split
    | intro _
    | dsimp only

theorem ownerSuspendRun_same_then {a0 : Mb} {q : Req} {s : State} {s0_ : State} {r_ : _} {s_ : State} (h_ : (ownerSuspendRun a0 q s) = (r_, s_)) (k_ : Same s0_ s) : Same s0_ s_ := by
  have j_ := k_.trans (@ownerSuspendRun_same a0 q s); rw [h_] at j_; exact j_

theorem execOwnerSuspend_same {mb : Mb} {s : State} : SameO s (execOwnerSuspend mb s) := by
  unfold execOwnerSuspend
  try dsimp only
  with_reducible repeat' first
    | apply Same.rfl
    | assumption
    | apply runCmd_same
    | apply Same.trans (k := ownerSuspendRun_same)
    | (apply ownerSuspendRun_same_then; · assumption)
    | apply SameO.onUnit
    | apply SameO.next
    | apply Same.direct
    | apply Same.storeRun
    | apply Same.storeCmd
    | intro _
    | dsimp only

theorem execPairReloadDone_same {ok : Bool} {s : State} : SameO s (execPairReloadDone ok s) := by
  unfold execPairReloadDone
  try dsimp only
  with_reducible repeat' first
    | apply Same.rfl
    | assumption
    | apply Same.trans (k := pairTestFailed_same)
    | (simp only [Same.mk]; apply Same.fold)
    | apply SameO.onUnit
    | apply SameO.next
    | apply Same.ite
    | split
    | intro _
    | dsimp only

theorem execPcieCompletionTimeout_same {r : HostRead} {s : State} : SameO s (execPcieCompletionTimeout r s) := by
  unfold execPcieCompletionTimeout
  try dsimp only
  with_reducible repeat' first
    | apply Same.rfl
    | assumption
    | apply Same.trans (k := readFault_same)
    | apply SameO.onUnit
    | apply SameO.next
    | intro _
    | dsimp only

theorem execPcieLinkUp_same {p : Nat} {speed : Nat} {width : Nat} {flit : Bool} {s : State} : SameO s (execPcieLinkUp p speed width flit s) := by
  unfold execPcieLinkUp
  try dsimp only
  with_reducible repeat' first
    | apply Same.rfl
    | assumption
    | apply Same.trans (k := setFn_same)
    | (simp only [Same.mk]; apply Same.fold)
    | apply SameO.onUnit
    | apply SameO.next
    | apply Same.ite
    | split
    | intro _
    | dsimp only

theorem perstWake_same {trained : Bool} {s : State} : Same s (perstWake trained s) := by
  unfold perstWake
  try dsimp only
  with_reducible repeat' first
    | apply Same.rfl
    | assumption
    | apply Same.trans (k := draw_same)
    | (apply draw_same_then; · assumption)
    | apply Same.trans (k := hostWake_same)
    | apply Same.ite
    | split
    | intro _
    | dsimp only

theorem setPerst_same {l : Nat} {on : Bool} {s : State} : Same s (setPerst l on s) := by
  unfold setPerst
  try dsimp only
  with_reducible repeat' first
    | apply Same.rfl
    | assumption
    | (simp only [Same.mk]; apply Same.fold)
    | apply Same.foldl
    | intro _
    | dsimp only

theorem perstDown_same {l : Nat} {s : State} : Same s (perstDown l s) := by
  unfold perstDown
  try dsimp only
  with_reducible repeat' first
    | apply Same.rfl
    | assumption
    | apply Same.trans (k := linkReset_same)
    | apply Same.trans (k := perstWake_same)
    | apply Same.trans (k := setPerst_same)
    | (simp only [Same.mk]; apply Same.fold)
    | apply Same.ite
    | split
    | intro _
    | dsimp only

theorem execPerstAssert_same {link : Nat} {s : State} : SameO s (execPerstAssert link s) := by
  unfold execPerstAssert
  try dsimp only
  with_reducible repeat' first
    | apply Same.rfl
    | assumption
    | apply Same.trans (k := perstDown_same)
    | apply SameO.onUnit
    | apply SameO.next
    | intro _
    | dsimp only

theorem execPerstBothLinks_same {s : State} : SameO s (execPerstBothLinks s) := by
  unfold execPerstBothLinks
  try dsimp only
  with_reducible repeat' first
    | apply Same.rfl
    | assumption
    | apply Same.trans (k := coldStart_same)
    | apply Same.trans (k := setPerst_same)
    | apply Same.trans (k := perstDown_same)
    | apply SameO.onUnit
    | apply SameO.next
    | apply Same.ite
    | split
    | intro _
    | dsimp only

theorem execPerstDeassert_same {link : Nat} {s : State} : SameO s (execPerstDeassert link s) := by
  unfold execPerstDeassert
  try dsimp only
  with_reducible repeat' first
    | apply Same.rfl
    | assumption
    | apply Same.trans (k := setPerst_same)
    | apply SameO.onUnit
    | apply SameO.next
    | intro _
    | dsimp only

theorem execPfFlr_same {p : Nat} {s : State} : SameO s (execPfFlr p s) := by
  unfold execPfFlr
  try dsimp only
  with_reducible repeat' first
    | apply Same.rfl
    | assumption
    | apply Same.trans (k := resetPf_same)
    | apply SameO.onUnit
    | apply SameO.next
    | apply Same.ite
    | split
    | intro _
    | dsimp only

theorem execPfmDoorbell_same {p : Nat} {m : Nat} {go : Bool} {token : Nat} {s : State} : SameO s (execPfmDoorbell p m go token s) := by
  unfold execPfmDoorbell
  try dsimp only
  with_reducible repeat' first
    | apply Same.rfl
    | assumption
    | apply Same.trans (k := doorbell_same)
    | apply SameO.onUnit
    | apply SameO.next
    | apply Same.ite
    | split
    | intro _
    | dsimp only

theorem execPinXlate_same {ctx : Nat} {s : State} : SameO s (execPinXlate ctx s) := by
  unfold execPinXlate
  try dsimp only
  with_reducible repeat' first
    | apply Same.rfl
    | assumption
    | apply classRow_same
    | apply Same.foldl
    | apply SameO.onUnit
    | apply SameO.next
    | apply Same.ite
    | split
    | intro _
    | dsimp only

theorem execPllRelockAttempt_same {pll : Nat} {locked : Bool} {s : State} : SameO s (execPllRelockAttempt pll locked s) := by
  unfold execPllRelockAttempt
  try dsimp only
  with_reducible repeat' first
    | apply Same.rfl
    | assumption
    | apply Same.trans (k := refreshMode_same)
    | apply Same.trans (k := serviceClear_same)
    | (simp only [Same.mk]; apply Same.fold)
    | apply SameO.onUnit
    | apply SameO.next
    | apply Same.ite
    | split
    | intro _
    | dsimp only

theorem execPolicyCreate_same {mb : Mb} {s : State} : SameO s (execPolicyCreate mb s) := by
  unfold execPolicyCreate
  try dsimp only
  with_reducible repeat' first
    | apply Same.rfl
    | assumption
    | apply Same.trans (k := policyCreateRun_same)
    | (apply policyCreateRun_same_then; · assumption)
    | apply runCmd_same
    | apply SameO.onUnit
    | apply SameO.next
    | apply Same.guarded
    | apply Same.storeRun
    | intro _
    | dsimp only

theorem execPolicyModify_same {mb : Mb} {s : State} : SameO s (execPolicyModify mb s) := by
  unfold execPolicyModify
  try dsimp only
  with_reducible repeat' first
    | apply Same.rfl
    | assumption
    | apply Same.trans (k := policyModifyRun_same)
    | (apply policyModifyRun_same_then; · assumption)
    | apply runCmd_same
    | apply SameO.onUnit
    | apply SameO.next
    | apply Same.guarded
    | apply Same.storeRun
    | intro _
    | dsimp only

theorem execPolicyQuery_same {mb : Mb} {s : State} : SameO s (execPolicyQuery mb s) := by
  unfold execPolicyQuery
  try dsimp only
  with_reducible repeat' first
    | apply Same.rfl
    | assumption
    | apply runCmd_same
    | (simp only [Same.mk]; apply Same.fold)
    | apply SameO.onUnit
    | apply SameO.next
    | apply Same.direct
    | apply Same.storeRead
    | split
    | intro _
    | dsimp only

theorem portConfigRun_same {a0 : Mb} {q : Req} {s : State} : Same s (portConfigRun a0 q s).2 := by
  unfold portConfigRun
  try dsimp only
  with_reducible repeat' first
    | apply Same.rfl
    | assumption
    | apply Same.trans (k := setPos_same)
    | (simp only [Same.mk]; apply Same.fold)
    | apply Same.ite
    | split
    | intro _
    | dsimp only

theorem portConfigRun_same_then {a0 : Mb} {q : Req} {s : State} {s0_ : State} {r_ : _} {s_ : State} (h_ : (portConfigRun a0 q s) = (r_, s_)) (k_ : Same s0_ s) : Same s0_ s_ := by
  have j_ := k_.trans (@portConfigRun_same a0 q s); rw [h_] at j_; exact j_

theorem execPortConfig_same {mb : Mb} {s : State} : SameO s (execPortConfig mb s) := by
  unfold execPortConfig
  try dsimp only
  with_reducible repeat' first
    | apply Same.rfl
    | assumption
    | apply runCmd_same
    | apply Same.trans (k := portConfigRun_same)
    | (apply portConfigRun_same_then; · assumption)
    | apply SameO.onUnit
    | apply SameO.next
    | apply Same.direct
    | intro _
    | dsimp only

theorem execPortRetrain_same {mb : Mb} {s : State} : SameO s (execPortRetrain mb s) := by
  unfold execPortRetrain
  try dsimp only
  with_reducible repeat' first
    | apply Same.rfl
    | assumption
    | apply runCmd_same
    | apply Same.trans (k := linkDown_same)
    | (simp only [Same.mk]; apply Same.fold)
    | apply SameO.onUnit
    | apply SameO.next
    | apply Same.direct
    | split
    | intro _
    | dsimp only

theorem portSetRun_same {a0 : Mb} {q : Req} {s : State} : Same s (portSetRun a0 q s).2 := by
  unfold portSetRun
  try dsimp only
  with_reducible repeat' first
    | apply Same.rfl
    | assumption
    | apply Same.trans (k := setPort_same)
    | (simp only [Same.mk]; apply Same.fold)
    | split
    | intro _
    | dsimp only

theorem portSetRun_same_then {a0 : Mb} {q : Req} {s : State} {s0_ : State} {r_ : _} {s_ : State} (h_ : (portSetRun a0 q s) = (r_, s_)) (k_ : Same s0_ s) : Same s0_ s_ := by
  have j_ := k_.trans (@portSetRun_same a0 q s); rw [h_] at j_; exact j_

theorem execPortSet_same {mb : Mb} {s : State} : SameO s (execPortSet mb s) := by
  unfold execPortSet
  try dsimp only
  with_reducible repeat' first
    | apply Same.rfl
    | assumption
    | apply runCmd_same
    | apply Same.trans (k := portSetRun_same)
    | (apply portSetRun_same_then; · assumption)
    | apply SameO.onUnit
    | apply SameO.next
    | apply Same.direct
    | intro _
    | dsimp only

theorem execPortStatus_same {mb : Mb} {s : State} : SameO s (execPortStatus mb s) := by
  unfold execPortStatus
  try dsimp only
  with_reducible repeat' first
    | apply Same.rfl
    | assumption
    | apply runCmd_same
    | (simp only [Same.mk]; apply Same.fold)
    | apply SameO.onUnit
    | apply SameO.next
    | apply Same.direct
    | split
    | intro _
    | dsimp only

theorem powerConfigRun_same {a0 : Mb} {q : Req} {s : State} : Same s (powerConfigRun a0 q s).2 := by
  unfold powerConfigRun
  try dsimp only
  with_reducible repeat' first
    | apply Same.rfl
    | assumption
    | apply Same.trans (k := standUp_same)
    | (simp only [Same.mk]; apply Same.fold)
    | apply Same.foldl
    | apply Same.ite
    | split
    | intro _
    | dsimp only

theorem powerConfigRun_same_then {a0 : Mb} {q : Req} {s : State} {s0_ : State} {r_ : _} {s_ : State} (h_ : (powerConfigRun a0 q s) = (r_, s_)) (k_ : Same s0_ s) : Same s0_ s_ := by
  have j_ := k_.trans (@powerConfigRun_same a0 q s); rw [h_] at j_; exact j_

theorem execPowerConfig_same {mb : Mb} {s : State} : SameO s (execPowerConfig mb s) := by
  unfold execPowerConfig
  try dsimp only
  with_reducible repeat' first
    | apply Same.rfl
    | assumption
    | apply runCmd_same
    | apply Same.trans (k := powerConfigRun_same)
    | (apply powerConfigRun_same_then; · assumption)
    | apply SameO.onUnit
    | apply SameO.next
    | apply Same.direct
    | intro _
    | dsimp only

theorem execPowerOn_same {s : State} : SameO s (execPowerOn s) := by
  unfold execPowerOn
  try dsimp only
  with_reducible repeat' first
    | apply Same.rfl
    | assumption
    | apply Same.trans (k := coldReset_same)
    | apply SameO.onUnit
    | apply SameO.next
    | intro _
    | dsimp only

theorem powerWatchRun_same {mb : Mb} {q : Req} {s : State} : Same s (powerWatchRun mb q s).2 := by
  unfold powerWatchRun
  try dsimp only
  with_reducible repeat' first
    | apply Same.rfl
    | assumption
    | (simp only [Same.mk]; apply Same.fold)
    | intro _
    | dsimp only

theorem powerWatchRun_same_then {mb : Mb} {q : Req} {s : State} {s0_ : State} {r_ : _} {s_ : State} (h_ : (powerWatchRun mb q s) = (r_, s_)) (k_ : Same s0_ s) : Same s0_ s_ := by
  have j_ := k_.trans (@powerWatchRun_same mb q s); rw [h_] at j_; exact j_

theorem execPowerWatch_same {mb : Mb} {s : State} : SameO s (execPowerWatch mb s) := by
  unfold execPowerWatch
  try dsimp only
  with_reducible repeat' first
    | apply Same.rfl
    | assumption
    | apply runCmd_same
    | apply Same.trans (k := powerWatchRun_same)
    | (apply powerWatchRun_same_then; · assumption)
    | apply SameO.onUnit
    | apply SameO.next
    | apply Same.direct
    | intro _
    | dsimp only

theorem execProbationEnd_same {s : State} : SameO s (execProbationEnd s) := by
  unfold execProbationEnd
  try dsimp only
  with_reducible repeat' first
    | apply Same.rfl
    | assumption
    | (simp only [Same.mk]; apply Same.fold)
    | apply SameO.onUnit
    | apply SameO.next
    | apply Same.ite
    | split
    | intro _
    | dsimp only

theorem execQmgJrAck_same {p : Nat} {seq : DWord} {s : State} : SameO s (execQmgJrAck p seq s) := by
  unfold execQmgJrAck
  try dsimp only
  with_reducible repeat' first
    | apply Same.rfl
    | assumption
    | apply Same.trans (k := tryCommit_same)
    | apply Same.trans (k := countDoorbell_same)
    | apply Same.trans (k := hostWake_same)
    | (simp only [Same.mk]; apply Same.fold)
    | apply SameO.onUnit
    | apply SameO.next
    | apply Same.ite
    | split
    | intro _
    | dsimp only

theorem execQmgJrEvhead_same {p : Nat} {index : Nat} {s : State} : SameO s (execQmgJrEvhead p index s) := by
  unfold execQmgJrEvhead
  try dsimp only
  with_reducible repeat' first
    | apply Same.rfl
    | assumption
    | apply Same.trans (k := setJring_same)
    | apply Same.trans (k := countDoorbell_same)
    | apply Same.trans (k := hostWake_same)
    | (simp only [Same.mk]; apply Same.fold)
    | apply SameO.onUnit
    | apply SameO.next
    | apply Same.ite
    | split
    | intro _
    | dsimp only

theorem execQmgJrPost_same {p : Nat} {index : Nat} {s : State} : SameO s (execQmgJrPost p index s) := by
  unfold execQmgJrPost
  try dsimp only
  with_reducible repeat' first
    | apply Same.rfl
    | assumption
    | apply Same.trans (k := setJring_same)
    | apply Same.trans (k := countDoorbell_same)
    | apply Same.trans (k := hostWake_same)
    | (simp only [Same.mk]; apply Same.fold)
    | apply SameO.onUnit
    | apply SameO.next
    | apply Same.ite
    | split
    | intro _
    | dsimp only

theorem queueCreateRun_same {mb : Mb} {q : Req} {s : State} : Same s (queueCreateRun mb q s).2 := by
  unfold queueCreateRun
  try dsimp only
  with_reducible repeat' first
    | apply Same.rfl
    | assumption
    | apply Same.trans (k := setQ_same)
    | (simp only [Same.mk]; apply Same.fold)
    | intro _
    | dsimp only

theorem queueCreateRun_same_then {mb : Mb} {q : Req} {s : State} {s0_ : State} {r_ : _} {s_ : State} (h_ : (queueCreateRun mb q s) = (r_, s_)) (k_ : Same s0_ s) : Same s0_ s_ := by
  have j_ := k_.trans (@queueCreateRun_same mb q s); rw [h_] at j_; exact j_

theorem execQueueCreate_same {mb : Mb} {s : State} : SameO s (execQueueCreate mb s) := by
  unfold execQueueCreate
  try dsimp only
  with_reducible repeat' first
    | apply Same.rfl
    | assumption
    | apply runCmd_same
    | apply Same.trans (k := queueCreateRun_same)
    | (apply queueCreateRun_same_then; · assumption)
    | apply SameO.onUnit
    | apply SameO.next
    | apply Same.direct
    | intro _
    | dsimp only

theorem queueDestroyRun_same {mb : Mb} {q : Req} {s : State} : Same s (queueDestroyRun mb q s).2 := by
  unfold queueDestroyRun
  try dsimp only
  with_reducible repeat' first
    | apply Same.rfl
    | assumption
    | apply Same.trans (k := setQ_same)
    | (simp only [Same.mk]; apply Same.fold)
    | apply Same.ite
    | split
    | intro _
    | dsimp only

theorem queueDestroyRun_same_then {mb : Mb} {q : Req} {s : State} {s0_ : State} {r_ : _} {s_ : State} (h_ : (queueDestroyRun mb q s) = (r_, s_)) (k_ : Same s0_ s) : Same s0_ s_ := by
  have j_ := k_.trans (@queueDestroyRun_same mb q s); rw [h_] at j_; exact j_

theorem execQueueDestroy_same {mb : Mb} {s : State} : SameO s (execQueueDestroy mb s) := by
  unfold execQueueDestroy
  try dsimp only
  with_reducible repeat' first
    | apply Same.rfl
    | assumption
    | apply runCmd_same
    | apply Same.trans (k := queueDestroyRun_same)
    | (apply queueDestroyRun_same_then; · assumption)
    | apply SameO.onUnit
    | apply SameO.next
    | apply Same.direct
    | intro _
    | dsimp only

theorem queueQueryRun_same {mb : Mb} {q : Req} {s : State} : Same s (queueQueryRun mb q s).2 := by
  unfold queueQueryRun
  try dsimp only
  with_reducible repeat' first
    | apply Same.rfl
    | assumption
    | (simp only [Same.mk]; apply Same.fold)
    | split
    | intro _
    | dsimp only

theorem queueQueryRun_same_then {mb : Mb} {q : Req} {s : State} {s0_ : State} {r_ : _} {s_ : State} (h_ : (queueQueryRun mb q s) = (r_, s_)) (k_ : Same s0_ s) : Same s0_ s_ := by
  have j_ := k_.trans (@queueQueryRun_same mb q s); rw [h_] at j_; exact j_

theorem execQueueQuery_same {mb : Mb} {s : State} : SameO s (execQueueQuery mb s) := by
  unfold execQueueQuery
  try dsimp only
  with_reducible repeat' first
    | apply Same.rfl
    | assumption
    | apply runCmd_same
    | apply Same.trans (k := queueQueryRun_same)
    | (apply queueQueryRun_same_then; · assumption)
    | apply SameO.onUnit
    | apply SameO.next
    | apply Same.direct
    | intro _
    | dsimp only

theorem quorumApproveRun_same {mb : Mb} {q : Req} {s : State} : Same s (quorumApproveRun mb q s).2 := by
  unfold quorumApproveRun
  try dsimp only
  with_reducible repeat' first
    | apply Same.rfl
    | assumption
    | (simp only [Same.mk]; apply Same.fold)
    | apply Same.ite
    | split
    | intro _
    | dsimp only

theorem quorumApproveRun_same_then {mb : Mb} {q : Req} {s : State} {s0_ : State} {r_ : _} {s_ : State} (h_ : (quorumApproveRun mb q s) = (r_, s_)) (k_ : Same s0_ s) : Same s0_ s_ := by
  have j_ := k_.trans (@quorumApproveRun_same mb q s); rw [h_] at j_; exact j_

theorem execQuorumApprove_same {mb : Mb} {s : State} : SameO s (execQuorumApprove mb s) := by
  unfold execQuorumApprove
  try dsimp only
  with_reducible repeat' first
    | apply Same.rfl
    | assumption
    | apply runCmd_same
    | apply Same.trans (k := quorumApproveRun_same)
    | (apply quorumApproveRun_same_then; · assumption)
    | apply SameO.onUnit
    | apply SameO.next
    | intro _
    | dsimp only

theorem quorumCancelRun_same {mb : Mb} {q : Req} {s : State} : Same s (quorumCancelRun mb q s).2 := by
  unfold quorumCancelRun
  try dsimp only
  with_reducible repeat' first
    | apply Same.rfl
    | assumption
    | apply Same.trans (k := cancelApprovals_same)
    | split
    | intro _
    | dsimp only

theorem quorumCancelRun_same_then {mb : Mb} {q : Req} {s : State} {s0_ : State} {r_ : _} {s_ : State} (h_ : (quorumCancelRun mb q s) = (r_, s_)) (k_ : Same s0_ s) : Same s0_ s_ := by
  have j_ := k_.trans (@quorumCancelRun_same mb q s); rw [h_] at j_; exact j_

theorem execQuorumCancel_same {mb : Mb} {s : State} : SameO s (execQuorumCancel mb s) := by
  unfold execQuorumCancel
  try dsimp only
  with_reducible repeat' first
    | apply Same.rfl
    | assumption
    | apply runCmd_same
    | apply Same.trans (k := quorumCancelRun_same)
    | (apply quorumCancelRun_same_then; · assumption)
    | apply SameO.onUnit
    | apply SameO.next
    | intro _
    | dsimp only

theorem quorumAns_same {r : Resp} {s : State} : Same s (quorumAns r s).2 := by
  unfold quorumAns
  try dsimp only
  with_reducible repeat' first
    | apply Same.rfl
    | assumption
    | apply Same.trans (k := durableAns_same)
    | (apply durableAns_same_then; · assumption)
    | (simp only [Same.mk]; apply Same.fold)
    | apply Same.ite
    | split
    | intro _
    | dsimp only

theorem quorumAns_same_then {r : Resp} {s : State} {s0_ : State} {r_ : _} {s_ : State} (h_ : (quorumAns r s) = (r_, s_)) (k_ : Same s0_ s) : Same s0_ s_ := by
  have j_ := k_.trans (@quorumAns_same r s); rw [h_] at j_; exact j_

theorem runHeld_same {mb : Mb} {q : Req} {s : State} : Same s (runHeld mb q s).2 := by
  unfold runHeld
  try dsimp only
  with_reducible repeat' first
    | apply Same.rfl
    | assumption
    | (apply designatedCmd_same; · assumption)
    | apply Same.direct
    | apply Same.storeRun
    | split
    | intro _
    | dsimp only

theorem runHeld_same_then {mb : Mb} {q : Req} {s : State} {s0_ : State} {r_ : _} {s_ : State} (h_ : (runHeld mb q s) = (r_, s_)) (k_ : Same s0_ s) : Same s0_ s_ := by
  have j_ := k_.trans (@runHeld_same mb q s); rw [h_] at j_; exact j_

theorem quorumExecuteRun_same {mb : Mb} {q : Req} {s : State} : Same s (quorumExecuteRun mb q s).2 := by
  unfold quorumExecuteRun
  try dsimp only
  with_reducible repeat' first
    | apply Same.rfl
    | assumption
    | apply Same.trans (k := setMb_same)
    | apply Same.trans (k := consume_same)
    | apply Same.trans (k := quorumAns_same)
    | (apply quorumAns_same_then; · assumption)
    | apply Same.trans (k := runHeld_same)
    | (apply runHeld_same_then; · assumption)
    | (simp only [Same.mk]; apply Same.fold)
    | apply Same.direct
    | apply Same.ite
    | split
    | intro _
    | dsimp only

theorem quorumExecuteRun_same_then {mb : Mb} {q : Req} {s : State} {s0_ : State} {r_ : _} {s_ : State} (h_ : (quorumExecuteRun mb q s) = (r_, s_)) (k_ : Same s0_ s) : Same s0_ s_ := by
  have j_ := k_.trans (@quorumExecuteRun_same mb q s); rw [h_] at j_; exact j_

theorem execQuorumExecute_same {mb : Mb} {s : State} : SameO s (execQuorumExecute mb s) := by
  unfold execQuorumExecute
  try dsimp only
  with_reducible repeat' first
    | apply Same.rfl
    | assumption
    | apply runCmd_same
    | apply Same.trans (k := quorumExecuteRun_same)
    | (apply quorumExecuteRun_same_then; · assumption)
    | apply SameO.onUnit
    | apply SameO.next
    | intro _
    | dsimp only

theorem quorumOpenRun_same {mb : Mb} {q : Req} {s : State} : Same s (quorumOpenRun mb q s).2 := by
  unfold quorumOpenRun
  try dsimp only
  with_reducible repeat' first
    | apply Same.rfl
    | assumption
    | apply Same.trans (k := takeWarden_same)
    | (apply takeWarden_same_then; · assumption)
    | (simp only [Same.mk]; apply Same.fold)
    | split
    | intro _
    | dsimp only

theorem quorumOpenRun_same_then {mb : Mb} {q : Req} {s : State} {s0_ : State} {r_ : _} {s_ : State} (h_ : (quorumOpenRun mb q s) = (r_, s_)) (k_ : Same s0_ s) : Same s0_ s_ := by
  have j_ := k_.trans (@quorumOpenRun_same mb q s); rw [h_] at j_; exact j_

theorem execQuorumOpen_same {mb : Mb} {s : State} : SameO s (execQuorumOpen mb s) := by
  unfold execQuorumOpen
  try dsimp only
  with_reducible repeat' first
    | apply Same.rfl
    | assumption
    | apply runCmd_same
    | apply Same.trans (k := quorumOpenRun_same)
    | (apply quorumOpenRun_same_then; · assumption)
    | apply SameO.onUnit
    | apply SameO.next
    | apply Same.direct
    | intro _
    | dsimp only

theorem execRandom_same {ctx : Nat} {s : State} : SameO s (execRandom ctx s) := by
  unfold execRandom
  try dsimp only
  with_reducible repeat' first
    | apply Same.rfl
    | assumption
    | apply classRow_same
    | apply Same.foldl
    | apply SameO.onUnit
    | apply SameO.next
    | apply Same.ite
    | split
    | intro _
    | dsimp only

theorem internalWrite_same {t : FabricTag} {x : Nat} {n : Nat} {v : Nat} {s : State} : Same s (internalWrite t x n v s) := by
  unfold internalWrite
  try dsimp only
  with_reducible repeat' first
    | apply Same.rfl
    | assumption
    | apply Same.trans (k := coreLocalWrite_same)
    | apply execFabricTransaction_same
    | apply Same.after
    | apply Same.ite
    | split
    | intro _
    | dsimp only

theorem execVfmDoorbell_same {n : Nat} {go : Bool} {token : Nat} {s : State} : SameO s (execVfmDoorbell n go token s) := by
  unfold execVfmDoorbell
  try dsimp only
  with_reducible repeat' first
    | apply Same.rfl
    | assumption
    | apply Same.trans (k := doorbell_same)
    | apply SameO.onUnit
    | apply SameO.next
    | apply Same.ite
    | split
    | intro _
    | dsimp only

theorem mailboxWrite_same {mb : Mb} {size : Nat} {o : Nat} {n : Nat} {v : Nat} {s : State} : Same s (mailboxWrite mb size o n v s) := by
  unfold mailboxWrite
  try dsimp only
  with_reducible repeat' first
    | apply Same.rfl
    | assumption
    | apply Same.trans (k := setMb_same)
    | apply Same.trans (k := countAccess_same)
    | apply execPfmDoorbell_same
    | apply execVfmDoorbell_same
    | (simp only [Same.mk]; apply Same.fold)
    | apply Same.after
    | apply Same.ite
    | split
    | intro _
    | dsimp only

theorem msixWrite_same {fn : Fn} {o : Nat} {n : Nat} {v : Nat} {s : State} : Same s (msixWrite fn o n v s) := by
  unfold msixWrite
  try dsimp only
  with_reducible repeat' first
    | apply Same.rfl
    | assumption
    | apply Same.trans (k := setFn_same)
    | apply Same.trans (k := modFn_same)
    | apply execMsixUnmask_same
    | (simp only [Same.mk]; apply Same.fold)
    | apply Same.after
    | apply Same.ite
    | split
    | intro _
    | dsimp only

theorem injectWrite_same {p : Nat} {v : Nat} {s : State} : Same s (injectWrite p v s) := by
  unfold injectWrite
  try dsimp only
  with_reducible repeat' first
    | apply Same.rfl
    | assumption
    | apply Same.trans (k := countAccess_same)
    | apply execFbkInjectGo_same
    | (simp only [Same.mk]; apply Same.fold)
    | apply Same.after
    | apply Same.ite
    | split
    | intro _
    | dsimp only

theorem jrAckWrite_same {p : Nat} {o : Nat} {n : Nat} {v : Nat} {s : State} : Same s (jrAckWrite p o n v s) := by
  unfold jrAckWrite
  try dsimp only
  with_reducible repeat' first
    | apply Same.rfl
    | assumption
    | apply Same.trans (k := countDoorbell_same)
    | apply execQmgJrAck_same
    | (simp only [Same.mk]; apply Same.fold)
    | apply Same.after
    | apply Same.ite
    | split
    | intro _
    | dsimp only

theorem pfRegWrite_same {p : Nat} {o : Nat} {n : Nat} {v : Nat} {s : State} : Same s (pfRegWrite p o n v s) := by
  unfold pfRegWrite
  try dsimp only
  with_reducible repeat' first
    | apply Same.rfl
    | assumption
    | apply Same.trans (k := clearEvents_same)
    | apply Same.trans (k := countAccess_same)
    | apply Same.trans (k := doorbellWrite_same)
    | apply execForceLow_same
    | apply execQmgJrEvhead_same
    | apply execQmgJrPost_same
    | apply Same.trans (k := injectWrite_same)
    | apply Same.trans (k := jrAckWrite_same)
    | apply Same.after
    | apply Same.ite
    | split
    | intro _
    | dsimp only

theorem pfBarWrite_same {p : Nat} {o : Nat} {n : Nat} {v : Nat} {s : State} : Same s (pfBarWrite p o n v s) := by
  unfold pfBarWrite
  try dsimp only
  with_reducible repeat' first
    | apply Same.rfl
    | assumption
    | apply Same.trans (k := countAccess_same)
    | apply Same.trans (k := mailboxWrite_same)
    | apply Same.trans (k := msixWrite_same)
    | apply Same.trans (k := pfRegWrite_same)
    | apply Same.after
    | apply Same.ite
    | split
    | intro _
    | dsimp only

theorem vfBarWrite_same {k : Nat} {o : Nat} {n : Nat} {v : Nat} {s : State} : Same s (vfBarWrite k o n v s) := by
  unfold vfBarWrite
  try dsimp only
  with_reducible repeat' first
    | apply Same.rfl
    | assumption
    | apply Same.trans (k := clearEvents_same)
    | apply Same.trans (k := countAccess_same)
    | apply Same.trans (k := doorbellWrite_same)
    | apply Same.trans (k := mailboxWrite_same)
    | apply Same.trans (k := msixWrite_same)
    | apply Same.after
    | apply Same.ite
    | split
    | intro _
    | dsimp only

theorem vfBar0Write_same {n : Nat} {off : Nat} {bytes : Nat} {value : Nat} {s : State} : Same s (vfBar0Write n off bytes value s) := by
  unfold vfBar0Write
  try dsimp only
  with_reducible repeat' first
    | apply Same.rfl
    | assumption
    | apply Same.trans (k := vfBarWrite_same)
    | apply Same.ite
    | split
    | intro _
    | dsimp only

theorem kcwBadWrite_same {w : Nat} {data : Bool} {s : State} : Same s (kcwBadWrite w data s) := by
  unfold kcwBadWrite
  try dsimp only
  with_reducible repeat' first
    | apply Same.rfl
    | assumption
    | apply Same.trans (k := setKcw_same)
    | (simp only [Same.mk]; apply Same.fold)
    | apply Same.ite
    | split
    | intro _
    | dsimp only

theorem kcwCmd_same {w : Nat} {value : Word} {s : State} : Same s (kcwCmd w value s) := by
  unfold kcwCmd
  try dsimp only
  with_reducible repeat' first
    | apply Same.rfl
    | assumption
    | apply Same.trans (k := setKcw_same)
    | apply Same.trans (k := kcwFinish_same)
    | (simp only [Same.mk]; apply Same.fold)
    | apply Same.ite
    | split
    | intro _
    | dsimp only

theorem kcwField_same {w : Nat} {f : Kcw → Kcw} {s : State} : Same s (kcwField w f s) := by
  unfold kcwField
  try dsimp only
  with_reducible repeat' first
    | apply Same.rfl
    | assumption
    | apply Same.trans (k := setKcw_same)
    | (simp only [Same.mk]; apply Same.fold)
    | apply Same.ite
    | split
    | intro _
    | dsimp only

theorem kcwWrite_same {w : Nat} {off : Nat} {value : Word} {s : State} : Same s (kcwWrite w off value s) := by
  unfold kcwWrite
  try dsimp only
  with_reducible repeat' first
    | apply Same.rfl
    | assumption
    | apply Same.trans (k := setKcw_same)
    | apply Same.trans (k := kcwData_same)
    | apply Same.trans (k := kcwReset_same)
    | apply Same.trans (k := kcwCmd_same)
    | apply Same.trans (k := kcwField_same)
    | (simp only [Same.mk]; apply Same.fold)
    | apply Same.ite
    | split
    | intro _
    | dsimp only

theorem windowWrite_same {w : Nat} {o : Nat} {n : Nat} {v : Nat} {s : State} : Same s (windowWrite w o n v s) := by
  unfold windowWrite
  try dsimp only
  with_reducible repeat' first
    | apply Same.rfl
    | assumption
    | apply Same.trans (k := kcwBadWrite_same)
    | apply Same.trans (k := kcwWrite_same)
    | apply Same.ite
    | split
    | intro _
    | dsimp only

end Sys2Proof.Machine
end

