-- ==== Sys2Proof/Laws/Apart6.lean ====
section
/-! SUPPORT. Operations and meanings that leave the queue, the clock and the COMMIT partition alone, callees first (6 of 6). -/

namespace Sys2Proof.Machine

theorem vfBar2Write_same {n : Nat} {off : Nat} {bytes : Nat} {value : Nat} {s : State} : Same s (vfBar2Write n off bytes value s) := by
  unfold vfBar2Write
  try dsimp only
  with_reducible repeat' first
    | apply Same.rfl
    | assumption
    | apply Same.trans (k := windowWrite_same)
    | apply Same.ite
    | split
    | intro _
    | dsimp only

theorem vfPlainWrite_same {n : Nat} {bar2 : Bool} {off : Nat} {bytes : Nat} {value : Nat} {s : State} : Same s (vfPlainWrite n bar2 off bytes value s) := by
  unfold vfPlainWrite
  try dsimp only
  with_reducible repeat' first
    | apply Same.rfl
    | assumption
    | apply Same.trans (k := vfBar0Write_same)
    | apply Same.trans (k := vfBar2Write_same)
    | apply Same.ite
    | split
    | intro _
    | dsimp only

theorem execRegisterWrite_same {at_ : RegPort} {off : Nat} {bytes : Nat} {value : Nat} {s : State} : SameO s (execRegisterWrite at_ off bytes value s) := by
  unfold execRegisterWrite
  try dsimp only
  with_reducible repeat' first
    | apply Same.rfl
    | assumption
    | apply Same.trans (k := internalWrite_same)
    | apply Same.trans (k := pfBarWrite_same)
    | apply Same.trans (k := vfBar0Write_same)
    | apply Same.trans (k := windowWrite_same)
    | apply Same.trans (k := vfBar2Write_same)
    | apply Same.trans (k := vfPlainWrite_same)
    | apply SameO.onUnit
    | apply SameO.next
    | apply Same.after
    | apply Same.ite
    | split
    | intro _
    | dsimp only

theorem replicaApplyRun_same {mb : Mb} {q : Req} {s : State} : Same s (replicaApplyRun mb q s).2 := by
  unfold replicaApplyRun
  try dsimp only
  with_reducible repeat' first
    | apply Same.rfl
    | assumption
    | (apply applyOf_same; · assumption)
    | apply Same.trans (k := takeSap_same)
    | (apply takeSap_same_then; · assumption)
    | apply Same.trans (k := installAns_same)
    | (apply installAns_same_then; · assumption)
    | split
    | intro _
    | dsimp only

theorem replicaApplyRun_same_then {mb : Mb} {q : Req} {s : State} {s0_ : State} {r_ : _} {s_ : State} (h_ : (replicaApplyRun mb q s) = (r_, s_)) (k_ : Same s0_ s) : Same s0_ s_ := by
  have j_ := k_.trans (@replicaApplyRun_same mb q s); rw [h_] at j_; exact j_

theorem execReplicaApply_same {mb : Mb} {s : State} : SameO s (execReplicaApply mb s) := by
  unfold execReplicaApply
  try dsimp only
  with_reducible repeat' first
    | apply Same.rfl
    | assumption
    | apply runCmd_same
    | apply Same.trans (k := replicaApplyRun_same)
    | (apply replicaApplyRun_same_then; · assumption)
    | apply SameO.onUnit
    | apply SameO.next
    | apply Same.direct
    | apply Same.storeRun
    | apply Same.storeCmd
    | intro _
    | dsimp only

theorem execReplicaExport_same {mb : Mb} {s : State} : SameO s (execReplicaExport mb s) := by
  unfold execReplicaExport
  try dsimp only
  with_reducible repeat' first
    | apply Same.rfl
    | assumption
    | apply Same.trans (k := replicaExportRun_same)
    | (apply replicaExportRun_same_then; · assumption)
    | apply runCmd_same
    | apply SameO.onUnit
    | apply SameO.next
    | apply Same.guarded
    | intro _
    | dsimp only

theorem replicaPrepareRun_same {mb : Mb} {q : Req} {s : State} : Same s (replicaPrepareRun mb q s).2 := by
  unfold replicaPrepareRun
  try dsimp only
  with_reducible repeat' first
    | apply Same.rfl
    | assumption
    | apply Same.trans (k := takeWarden_same)
    | (apply takeWarden_same_then; · assumption)
    | apply Same.trans (k := writeWithin_same)
    | (apply writeWithin_same_then; · assumption)
    | (simp only [Same.mk]; apply Same.fold)
    | apply Same.ite
    | split
    | intro _
    | dsimp only

theorem replicaPrepareRun_same_then {mb : Mb} {q : Req} {s : State} {s0_ : State} {r_ : _} {s_ : State} (h_ : (replicaPrepareRun mb q s) = (r_, s_)) (k_ : Same s0_ s) : Same s0_ s_ := by
  have j_ := k_.trans (@replicaPrepareRun_same mb q s); rw [h_] at j_; exact j_

theorem execReplicaPrepare_same {mb : Mb} {s : State} : SameO s (execReplicaPrepare mb s) := by
  unfold execReplicaPrepare
  try dsimp only
  with_reducible repeat' first
    | apply Same.rfl
    | assumption
    | apply runCmd_same
    | apply Same.trans (k := replicaPrepareRun_same)
    | (apply replicaPrepareRun_same_then; · assumption)
    | apply SameO.onUnit
    | apply SameO.next
    | apply Same.direct
    | intro _
    | dsimp only

theorem execReqidQuery_same {mb : Mb} {s : State} : SameO s (execReqidQuery mb s) := by
  unfold execReqidQuery
  try dsimp only
  with_reducible repeat' first
    | apply Same.rfl
    | assumption
    | apply runCmd_same
    | (simp only [Same.mk]; apply Same.fold)
    | apply SameO.onUnit
    | apply SameO.next
    | split
    | intro _
    | dsimp only

theorem execResetN_same {low : Bool} {s : State} : SameO s (execResetN low s) := by
  unfold execResetN
  try dsimp only
  with_reducible repeat' first
    | apply Same.rfl
    | assumption
    | apply Same.trans (k := coldReset_same)
    | (simp only [Same.mk]; apply Same.fold)
    | apply SameO.onUnit
    | apply SameO.next
    | apply Same.ite
    | split
    | intro _
    | dsimp only

theorem restartJobs_same {core : Nat} {s : State} : Same s (restartJobs core s) := by
  unfold restartJobs
  try dsimp only
  with_reducible repeat' first
    | apply Same.rfl
    | assumption
    | apply Same.trans (k := abortWhere_same)
    | apply Same.trans (k := gateFinish_same)
    | apply Same.foldl
    | split
    | intro _
    | dsimp only

theorem restartUnits_same {s : State} : Same s (restartUnits s) := by
  unfold restartUnits
  try dsimp only
  with_reducible repeat' first
    | apply Same.rfl
    | assumption
    | apply Same.trans (k := abort_same)
    | apply Same.trans (k := flushWma_same)
    | apply Same.trans (k := setDge_same)
    | apply Same.trans (k := wipeDge_same)
    | (simp only [Same.mk]; apply Same.fold)
    | apply Same.foldl
    | apply Same.ite
    | split
    | intro _
    | dsimp only

theorem restartHold_same {s : State} : Same s (restartHold s) := by
  unfold restartHold
  try dsimp only
  with_reducible repeat' first
    | apply Same.rfl
    | assumption
    | apply Same.trans (k := restartIssue_same)
    | apply Same.trans (k := cancelPort_same)
    | apply Same.trans (k := restartJobs_same)
    | apply Same.trans (k := restartUnits_same)
    | apply Same.foldl
    | split
    | intro _
    | dsimp only

theorem restartImages_same {s : State} : Same s (restartImages s) := by
  unfold restartImages
  try dsimp only
  with_reducible repeat' first
    | apply Same.rfl
    | assumption
    | apply Same.trans (k := measurePut_same)
    | apply Same.trans (k := measureHistory_same)
    | (simp only [Same.mk]; apply Same.fold)
    | apply Same.ite
    | split
    | intro _
    | dsimp only

theorem execRestartStageDone_same {s : State} : SameO s (execRestartStageDone s) := by
  unfold execRestartStageDone
  try dsimp only
  with_reducible repeat' first
    | apply Same.rfl
    | assumption
    | apply Same.trans (k := endScrub_same)
    | apply Same.trans (k := beginScrub_same)
    | apply Same.trans (k := endRestart_same)
    | apply Same.trans (k := restartHold_same)
    | apply Same.trans (k := restartImages_same)
    | (simp only [Same.mk]; apply Same.fold)
    | apply Same.foldl
    | apply SameO.onUnit
    | apply SameO.next
    | apply Same.ite
    | split
    | intro _
    | dsimp only

theorem execRestartTimeout_same {s : State} : SameO s (execRestartTimeout s) := by
  unfold execRestartTimeout
  try dsimp only
  with_reducible repeat' first
    | apply Same.rfl
    | assumption
    | apply Same.trans (k := logCode_same)
    | apply Same.trans (k := countStartFail_same)
    | apply Same.trans (k := enterSeedling_same)
    | apply Same.trans (k := trustedRestart_same)
    | (simp only [Same.mk]; apply Same.fold)
    | apply SameO.onUnit
    | apply SameO.next
    | apply Same.ite
    | split
    | intro _
    | dsimp only

theorem execSaAdd_same {mb : Mb} {s : State} : SameO s (execSaAdd mb s) := by
  unfold execSaAdd
  try dsimp only
  with_reducible repeat' first
    | apply Same.rfl
    | assumption
    | apply Same.trans (k := saAddRun_same)
    | (apply saAddRun_same_then; · assumption)
    | apply runCmd_same
    | apply SameO.onUnit
    | apply SameO.next
    | apply Same.guarded
    | apply Same.storeRun
    | intro _
    | dsimp only

theorem execSaDrained_same {sa : Nat} {s : State} : SameO s (execSaDrained sa s) := by
  unfold execSaDrained
  try dsimp only
  with_reducible repeat' first
    | apply Same.rfl
    | assumption
    | apply Same.trans (k := ethSettle_same)
    | apply Same.trans (k := ethSweep_same)
    | apply Same.trans (k := dropSa_same)
    | apply SameO.onUnit
    | apply SameO.next
    | apply Same.ite
    | split
    | intro _
    | dsimp only

theorem execSaRemove_same {mb : Mb} {s : State} : SameO s (execSaRemove mb s) := by
  unfold execSaRemove
  try dsimp only
  with_reducible repeat' first
    | apply Same.rfl
    | assumption
    | apply Same.trans (k := removeSa_same)
    | apply Same.trans (k := ethAnswer_same)
    | (apply ethAnswer_same_then; · assumption)
    | apply runCmd_same
    | (simp only [Same.mk]; apply Same.fold)
    | apply SameO.onUnit
    | apply SameO.next
    | apply Same.direct
    | split
    | intro _
    | dsimp only

theorem execSaSet_same {mb : Mb} {s : State} : SameO s (execSaSet mb s) := by
  unfold execSaSet
  try dsimp only
  with_reducible repeat' first
    | apply Same.rfl
    | assumption
    | apply runCmd_same
    | (simp only [Same.mk]; apply Same.fold)
    | apply SameO.onUnit
    | apply SameO.next
    | apply Same.direct
    | split
    | intro _
    | dsimp only

theorem execSaSwitch_same {mb : Mb} {s : State} : SameO s (execSaSwitch mb s) := by
  unfold execSaSwitch
  try dsimp only
  with_reducible repeat' first
    | apply Same.rfl
    | assumption
    | apply runCmd_same
    | (simp only [Same.mk]; apply Same.fold)
    | apply SameO.onUnit
    | apply SameO.next
    | apply Same.direct
    | split
    | intro _
    | dsimp only

theorem execSamplePreload_same {bits : Nat} {s : State} : SameO s (execSamplePreload bits s) := by
  unfold execSamplePreload
  try dsimp only
  with_reducible repeat' first
    | apply Same.rfl
    | assumption
    | apply Same.trans (k := draw_same)
    | (apply draw_same_then; · assumption)
    | apply Same.trans (k := tapLoad_same)
    | (simp only [Same.mk]; apply Same.fold)
    | apply SameO.onUnit
    | apply SameO.next
    | split
    | intro _
    | dsimp only

theorem loadSapwood_same {slot : Nat} {s : State} : Same s (loadSapwood slot s) := by
  unfold loadSapwood
  try dsimp only
  with_reducible repeat' first
    | apply Same.rfl
    | assumption
    | apply Same.trans (k := askSap_same)
    | apply Same.trans (k := takeSap_same)
    | (apply takeSap_same_then; · assumption)
    | apply Same.trans (k := evict_same)
    | (simp only [Same.mk]; apply Same.fold)
    | apply Same.ite
    | split
    | intro _
    | dsimp only

theorem execSapwoodLoadDone_same {slot : Nat} {ok : Bool} {s : State} : SameO s (execSapwoodLoadDone slot ok s) := by
  unfold execSapwoodLoadDone
  try dsimp only
  with_reducible repeat' first
    | apply Same.rfl
    | assumption
    | apply Same.trans (k := fatalReport_same)
    | apply Same.trans (k := loadSapwood_same)
    | apply SameO.onUnit
    | apply SameO.next
    | apply Same.ite
    | split
    | intro _
    | dsimp only

theorem execSbkPortCancel_same {stand : Nat} {master : Nat} {s : State} : SameO s (execSbkPortCancel stand master s) := by
  unfold execSbkPortCancel
  try dsimp only
  with_reducible repeat' first
    | apply Same.rfl
    | assumption
    | apply Same.trans (k := cancelPort_same)
    | apply Same.trans (k := atPort_same ?_)
    | apply SameO.onUnit
    | apply SameO.next
    | intro _
    | dsimp only

theorem execSbkPortReq_same {stand : Nat} {master : Nat} {addr : Nat} {count : Nat} {s : State} : SameO s (execSbkPortReq stand master addr count s) := by
  unfold execSbkPortReq
  try dsimp only
  with_reducible repeat' first
    | apply Same.rfl
    | assumption
    | apply Same.trans (k := atPort_same ?_)
    | apply Same.trans (k := portReq_same)
    | apply SameO.onUnit
    | apply SameO.next
    | split
    | intro _
    | dsimp only

theorem pieceFault_same {c : Nat} {x : Ctx} {i : Nat} {off : Nat} {s : State} : Same s (pieceFault c x i off s) := by
  unfold pieceFault
  try dsimp only
  with_reducible repeat' first
    | apply Same.rfl
    | assumption
    | apply Same.trans (k := settle_same)
    | (simp only [Same.mk]; apply Same.fold)
    | apply Same.ite
    | split
    | intro _
    | dsimp only

theorem pieceDone_same {stand : Nat} {r : SbkReq} {c : Nat} {words : Bytes} {s : State} : Same s (pieceDone stand r c words s) := by
  unfold pieceDone
  try dsimp only
  with_reducible repeat' first
    | apply Same.rfl
    | assumption
    | apply Same.trans (k := setCtx_same)
    | apply Same.trans (k := askPiece_same)
    | apply Same.trans (k := hostWrite_same)
    | apply Same.trans (k := pieceFault_same)
    | (simp only [Same.mk]; apply Same.fold)
    | apply Same.foldl
    | apply Same.ite
    | split
    | intro _
    | dsimp only

theorem portDone_same {stand : Nat} {s : State} : Same s (portDone stand s) := by
  unfold portDone
  try dsimp only
  with_reducible repeat' first
    | apply Same.rfl
    | assumption
    | apply Same.trans (k := raiseLine_same)
    | apply Same.trans (k := acuProbe_same)
    | apply Same.trans (k := fabWrite_same)
    | apply Same.trans (k := takeWire_same)
    | (apply takeWire_same_then; · assumption)
    | apply Same.trans (k := portEnds_same)
    | apply Same.trans (k := pieceDone_same)
    | apply Same.ite
    | split
    | intro _
    | dsimp only

theorem execSbkPortRequestDone_same {stand : Nat} {s : State} : SameO s (execSbkPortRequestDone stand s) := by
  unfold execSbkPortRequestDone
  try dsimp only
  with_reducible repeat' first
    | apply Same.rfl
    | assumption
    | apply Same.trans (k := portDone_same)
    | apply SameO.onUnit
    | apply SameO.next
    | intro _
    | dsimp only

theorem execScAdd_same {mb : Mb} {s : State} : SameO s (execScAdd mb s) := by
  unfold execScAdd
  try dsimp only
  with_reducible repeat' first
    | apply Same.rfl
    | assumption
    | apply runCmd_same
    | (simp only [Same.mk]; apply Same.fold)
    | apply SameO.onUnit
    | apply SameO.next
    | apply Same.direct
    | split
    | intro _
    | dsimp only

theorem execScRemove_same {mb : Mb} {s : State} : SameO s (execScRemove mb s) := by
  unfold execScRemove
  try dsimp only
  with_reducible repeat' first
    | apply Same.rfl
    | assumption
    | apply Same.trans (k := removeSc_same)
    | apply Same.trans (k := ethAnswer_same)
    | (apply ethAnswer_same_then; · assumption)
    | apply runCmd_same
    | apply SameO.onUnit
    | apply SameO.next
    | apply Same.direct
    | intro _
    | dsimp only

theorem execScrubDone_same {core : Nat} {s : State} : SameO s (execScrubDone core s) := by
  unfold execScrubDone
  try dsimp only
  with_reducible repeat' first
    | apply Same.rfl
    | assumption
    | apply Same.trans (k := endScrub_same)
    | apply SameO.onUnit
    | apply SameO.next
    | apply Same.ite
    | split
    | intro _
    | dsimp only

theorem execSecondsFloorWrite_same {s : State} : SameO s (execSecondsFloorWrite s) := by
  unfold execSecondsFloorWrite
  try dsimp only
  with_reducible repeat' first
    | apply Same.rfl
    | assumption
    | (simp only [Same.mk]; apply Same.fold)
    | apply SameO.onUnit
    | apply SameO.next
    | apply Same.ite
    | split
    | intro _
    | dsimp only

theorem execSecondsTick_same {s : State} : SameO s (execSecondsTick s) := by
  unfold execSecondsTick
  try dsimp only
  with_reducible repeat' first
    | apply Same.rfl
    | assumption
    | apply Same.trans (k := logCode_same)
    | (simp only [Same.mk]; apply Same.fold)
    | apply Same.foldl
    | apply SameO.onUnit
    | apply SameO.next
    | apply Same.ite
    | split
    | intro _
    | dsimp only

theorem secyCreateRun_same {a0 : Mb} {q : Req} {s : State} : Same s (secyCreateRun a0 q s).2 := by
  unfold secyCreateRun
  try dsimp only
  with_reducible repeat' first
    | apply Same.rfl
    | assumption
    | apply Same.trans (k := keepAwake_same)
    | (simp only [Same.mk]; apply Same.fold)
    | split
    | intro _
    | dsimp only

theorem secyCreateRun_same_then {a0 : Mb} {q : Req} {s : State} {s0_ : State} {r_ : _} {s_ : State} (h_ : (secyCreateRun a0 q s) = (r_, s_)) (k_ : Same s0_ s) : Same s0_ s_ := by
  have j_ := k_.trans (@secyCreateRun_same a0 q s); rw [h_] at j_; exact j_

theorem execSecyCreate_same {mb : Mb} {s : State} : SameO s (execSecyCreate mb s) := by
  unfold execSecyCreate
  try dsimp only
  with_reducible repeat' first
    | apply Same.rfl
    | assumption
    | apply runCmd_same
    | apply Same.trans (k := secyCreateRun_same)
    | (apply secyCreateRun_same_then; · assumption)
    | apply SameO.onUnit
    | apply SameO.next
    | apply Same.direct
    | intro _
    | dsimp only

theorem execSecyDestroy_same {mb : Mb} {s : State} : SameO s (execSecyDestroy mb s) := by
  unfold execSecyDestroy
  try dsimp only
  with_reducible repeat' first
    | apply Same.rfl
    | assumption
    | apply Same.trans (k := removeSecy_same)
    | apply Same.trans (k := ethAnswer_same)
    | (apply ethAnswer_same_then; · assumption)
    | apply runCmd_same
    | (simp only [Same.mk]; apply Same.fold)
    | apply SameO.onUnit
    | apply SameO.next
    | apply Same.direct
    | split
    | intro _
    | dsimp only

theorem execSecySet_same {mb : Mb} {s : State} : SameO s (execSecySet mb s) := by
  unfold execSecySet
  try dsimp only
  with_reducible repeat' first
    | apply Same.rfl
    | assumption
    | apply runCmd_same
    | (simp only [Same.mk]; apply Same.fold)
    | apply SameO.onUnit
    | apply SameO.next
    | apply Same.direct
    | intro _
    | dsimp only

theorem seedbankConfigRun_same {a0 : Mb} {q : Req} {s : State} : Same s (seedbankConfigRun a0 q s).2 := by
  unfold seedbankConfigRun
  try dsimp only
  with_reducible repeat' first
    | apply Same.rfl
    | assumption
    | apply Same.trans (k := sbkNext_same)
    | (simp only [Same.mk]; apply Same.fold)
    | apply Same.ite
    | split
    | intro _
    | dsimp only

theorem seedbankConfigRun_same_then {a0 : Mb} {q : Req} {s : State} {s0_ : State} {r_ : _} {s_ : State} (h_ : (seedbankConfigRun a0 q s) = (r_, s_)) (k_ : Same s0_ s) : Same s0_ s_ := by
  have j_ := k_.trans (@seedbankConfigRun_same a0 q s); rw [h_] at j_; exact j_

theorem execSeedbankConfig_same {mb : Mb} {s : State} : SameO s (execSeedbankConfig mb s) := by
  unfold execSeedbankConfig
  try dsimp only
  with_reducible repeat' first
    | apply Same.rfl
    | assumption
    | apply runCmd_same
    | apply Same.trans (k := seedbankConfigRun_same)
    | (apply seedbankConfigRun_same_then; · assumption)
    | apply SameO.onUnit
    | apply SameO.next
    | intro _
    | dsimp only

theorem freqGate_same {b : Nat} {freqs : List Nat} {s : State} : Same s (freqGate b freqs s) := by
  unfold freqGate
  try dsimp only
  with_reducible repeat' first
    | apply Same.rfl
    | assumption
    | apply Same.trans (k := setBank_same)
    | apply Same.trans (k := bankFail_same)
    | (simp only [Same.mk]; apply Same.fold)
    | apply Same.foldl
    | apply Same.ite
    | split
    | intro _
    | dsimp only

theorem execSeedbankFreqGate_same {bank : Nat} {freqs : List Nat} {s : State} : SameO s (execSeedbankFreqGate bank freqs s) := by
  unfold execSeedbankFreqGate
  try dsimp only
  with_reducible repeat' first
    | apply Same.rfl
    | assumption
    | apply Same.trans (k := freqGate_same)
    | apply SameO.onUnit
    | apply SameO.next
    | intro _
    | dsimp only

theorem execSeedbankGaugeUpdate_same {bank : Nat} {temp : Nat} {agePpm : Int} {s : State} : SameO s (execSeedbankGaugeUpdate bank temp agePpm s) := by
  unfold execSeedbankGaugeUpdate
  try dsimp only
  with_reducible repeat' first
    | apply Same.rfl
    | assumption
    | apply Same.trans (k := setBank_same)
    | (simp only [Same.mk]; apply Same.fold)
    | apply SameO.onUnit
    | apply SameO.next
    | intro _
    | dsimp only

theorem sampleBank_same {b : Nat} {xs : List Nat} {s : State} : Same s (sampleBank b xs s).2 := by
  unfold sampleBank
  try dsimp only
  with_reducible repeat' first
    | apply Same.rfl
    | assumption
    | apply Same.trans (k := setBank_same)
    | (simp only [Same.mk]; apply Same.fold)
    | apply Same.ite
    | split
    | intro _
    | dsimp only

theorem sampleBank_same_then {b : Nat} {xs : List Nat} {s : State} {s0_ : State} {r_ : _} {s_ : State} (h_ : (sampleBank b xs s) = (r_, s_)) (k_ : Same s0_ s) : Same s0_ s_ := by
  have j_ := k_.trans (@sampleBank_same b xs s); rw [h_] at j_; exact j_

theorem healthFail_same {b : Nat} {found : HealthFault} {s : State} : Same s (healthFail b found s) := by
  unfold healthFail
  try dsimp only
  with_reducible repeat' first
    | apply Same.rfl
    | assumption
    | apply Same.trans (k := bankFail_same)
    | apply Same.trans (k := sampleBank_same)
    | (apply sampleBank_same_then; · assumption)
    | apply Same.ite
    | split
    | intro _
    | dsimp only

theorem execSeedbankHealthFail_same {bank : Nat} {found : HealthFault} {s : State} : SameO s (execSeedbankHealthFail bank found s) := by
  unfold execSeedbankHealthFail
  try dsimp only
  with_reducible repeat' first
    | apply Same.rfl
    | assumption
    | apply Same.trans (k := healthFail_same)
    | apply SameO.onUnit
    | apply SameO.next
    | intro _
    | dsimp only

theorem startupDeliver_same {b : Nat} {s : State} : Same s (startupDeliver b s) := by
  unfold startupDeliver
  try dsimp only
  with_reducible repeat' first
    | apply Same.rfl
    | assumption
    | apply Same.trans (k := refreshMode_same)
    | apply Same.trans (k := setBank_same)
    | apply Same.trans (k := sbkStep_same)
    | (simp only [Same.mk]; apply Same.fold)
    | apply Same.ite
    | split
    | intro _
    | dsimp only

theorem serveEarly_same {x : DWord} {s : State} : Same s (serveEarly x s) := by
  unfold serveEarly
  try dsimp only
  with_reducible repeat' first
    | apply Same.rfl
    | assumption
    | (simp only [Same.mk]; apply Same.fold)
    | apply Same.ite
    | split
    | intro _
    | dsimp only

theorem giveWord_same {b : Nat} {x : DWord} {s : State} {a3 : Asker} : Same s (giveWord b x s a3) := by
  unfold giveWord
  try dsimp only
  with_reducible repeat' first
    | apply Same.rfl
    | assumption
    | apply Same.trans (k := setStand_same)
    | apply Same.trans (k := setFeed_same)
    | (simp only [Same.mk]; apply Same.fold)
    | split
    | intro _
    | dsimp only

theorem serveWord_same {b : Nat} {x : DWord} {s : State} : Same s (serveWord b x s) := by
  unfold serveWord
  try dsimp only
  with_reducible repeat' first
    | apply Same.rfl
    | assumption
    | apply Same.trans (k := setBank_same)
    | apply Same.trans (k := setFeed_same)
    | apply Same.trans (k := giveWord_same)
    | (simp only [Same.mk]; apply Same.fold)
    | apply Same.ite
    | split
    | intro _
    | dsimp only

theorem releaseWindow_same {b : Nat} {bits : List Bool} {s : State} : Same s (releaseWindow b bits s) := by
  unfold releaseWindow
  try dsimp only
  with_reducible repeat' first
    | apply Same.rfl
    | assumption
    | apply Same.trans (k := setBank_same)
    | apply Same.trans (k := serveEarly_same)
    | apply Same.trans (k := serveWord_same)
    | (simp only [Same.mk]; apply Same.fold)
    | apply Same.foldl
    | apply Same.ite
    | split
    | intro _
    | dsimp only

theorem windowPassed_same {b : Nat} {samples : List Nat} {s : State} : Same s (windowPassed b samples s) := by
  unfold windowPassed
  try dsimp only
  with_reducible repeat' first
    | apply Same.rfl
    | assumption
    | apply Same.trans (k := setBank_same)
    | apply Same.trans (k := doeResume_same)
    | apply Same.trans (k := nonceResume_same)
    | apply Same.trans (k := releaseWindow_same)
    | (simp only [Same.mk]; apply Same.fold)
    | apply Same.ite
    | split
    | intro _
    | dsimp only

theorem startupTest_same {b n : Nat} : ∀ {xs : List Nat} {s : State}, Same s (startupTest b n xs s).2 := by
  induction n with
  | zero => intros; exact Same.rfl
  | succ n ih =>
    intro xs s
    unfold startupTest
    split
    · rename_i h; exact sampleBank_same_then h Same.rfl
    · rename_i h; exact (sampleBank_same_then h Same.rfl).trans (windowPassed_same.trans ih)

theorem startupTest_same_then {b n : Nat} {xs : List Nat} {s s0_ s_ : State} {r_ : Option Nat} (h_ : startupTest b n xs s = (r_, s_)) (k_ : Same s0_ s) : Same s0_ s_ := by
  have j_ := k_.trans (@startupTest_same b n xs s); rw [h_] at j_; exact j_

theorem startupDone_same {b : Nat} {samples : List Nat} {s : State} : Same s (startupDone b samples s) := by
  unfold startupDone
  try dsimp only
  with_reducible repeat' first
    | apply Same.rfl
    | assumption
    | apply Same.trans (k := bankFail_same)
    | apply Same.trans (k := startupDeliver_same)
    | apply Same.trans (k := startupTest_same)
    | (apply startupTest_same_then; · assumption)
    | apply Same.ite
    | split
    | intro _
    | dsimp only

theorem execSeedbankStartupDone_same {bank : Nat} {samples : List Nat} {s : State} : SameO s (execSeedbankStartupDone bank samples s) := by
  unfold execSeedbankStartupDone
  try dsimp only
  with_reducible repeat' first
    | apply Same.rfl
    | assumption
    | apply Same.trans (k := startupDone_same)
    | apply SameO.onUnit
    | apply SameO.next
    | intro _
    | dsimp only

theorem execSeedbankStatus_same {mb : Mb} {s : State} : SameO s (execSeedbankStatus mb s) := by
  unfold execSeedbankStatus
  try dsimp only
  with_reducible repeat' first
    | apply Same.rfl
    | assumption
    | apply runCmd_same
    | (simp only [Same.mk]; apply Same.fold)
    | apply Same.foldl
    | apply SameO.onUnit
    | apply SameO.next
    | intro _
    | dsimp only

theorem windowClose_same {b : Nat} {samples : List Nat} {s : State} : Same s (windowClose b samples s) := by
  unfold windowClose
  try dsimp only
  with_reducible repeat' first
    | apply Same.rfl
    | assumption
    | apply Same.trans (k := bankFail_same)
    | apply Same.trans (k := sampleBank_same)
    | (apply sampleBank_same_then; · assumption)
    | apply Same.trans (k := windowPassed_same)
    | apply Same.ite
    | split
    | intro _
    | dsimp only

theorem execSeedbankWindowClose_same {bank : Nat} {samples : List Nat} {s : State} : SameO s (execSeedbankWindowClose bank samples s) := by
  unfold execSeedbankWindowClose
  try dsimp only
  with_reducible repeat' first
    | apply Same.rfl
    | assumption
    | apply Same.trans (k := windowClose_same)
    | apply SameO.onUnit
    | apply SameO.next
    | intro _
    | dsimp only

theorem execSelf_same {core : Nat} {s : State} : SameO s (execSelf core s) := by
  unfold execSelf
  try dsimp only
  with_reducible repeat' first
    | apply Same.rfl
    | assumption
    | apply Same.trans (k := setX_same)
    | apply ecall_same
    | apply Same.trans (k := ecallRet_same)
    | apply SameO.onUnit
    | apply SameO.next
    | intro _
    | dsimp only

theorem serviceSwitched_same {n : Nat} {s : State} : Same s (serviceSwitched n s) := by
  unfold serviceSwitched
  try dsimp only
  with_reducible repeat' first
    | apply Same.rfl
    | assumption
    | apply Same.trans (k := measureExtend_same)
    | apply Same.trans (k := measurePut_same)
    | (simp only [Same.mk]; apply Same.fold)
    | split
    | intro _
    | dsimp only

theorem execServiceCoreSwitched_same {core : Nat} {ok : Bool} {s : State} : SameO s (execServiceCoreSwitched core ok s) := by
  unfold execServiceCoreSwitched
  try dsimp only
  with_reducible repeat' first
    | apply Same.rfl
    | assumption
    | apply Same.trans (k := endScrub_same)
    | apply Same.trans (k := beginScrub_same)
    | apply Same.trans (k := coreFail_same)
    | apply Same.trans (k := finishUpdate_same)
    | apply Same.trans (k := serviceSwitched_same)
    | (simp only [Same.mk]; apply Same.fold)
    | apply SameO.onUnit
    | apply SameO.next
    | apply Same.ite
    | split
    | intro _
    | dsimp only

theorem execServiceFaultClear_same {kind : Nat} {s : State} : SameO s (execServiceFaultClear kind s) := by
  unfold execServiceFaultClear
  try dsimp only
  with_reducible repeat' first
    | apply Same.rfl
    | assumption
    | apply Same.trans (k := refreshMode_same)
    | apply Same.trans (k := serviceClear_same)
    | apply SameO.onUnit
    | apply SameO.next
    | apply SameO.fault
    | apply Same.ite
    | split
    | intro _
    | dsimp only

theorem execSetEndpointId_same {eid : Nat} {s : State} : SameO s (execSetEndpointId eid s) := by
  unfold execSetEndpointId
  try dsimp only
  with_reducible repeat' first
    | apply Same.rfl
    | assumption
    | apply Same.trans (k := mctpReply_same)
    | (simp only [Same.mk]; apply Same.fold)
    | apply SameO.onUnit
    | apply SameO.next
    | apply Same.ite
    | split
    | intro _
    | dsimp only

theorem execSign_same {ctx : Nat} {s : State} : SameO s (execSign ctx s) := by
  unfold execSign
  try dsimp only
  with_reducible repeat' first
    | apply Same.rfl
    | assumption
    | apply classRow_same
    | apply Same.foldl
    | apply SameO.onUnit
    | apply SameO.next
    | apply Same.ite
    | split
    | intro _
    | dsimp only

theorem execSourceRearm_same {source : Nat} {s : State} : SameO s (execSourceRearm source s) := by
  unfold execSourceRearm
  try dsimp only
  with_reducible repeat' first
    | apply Same.rfl
    | assumption
    | apply Same.trans (k := lkoLine_same)
    | apply Same.trans (k := setLkoSrc_same)
    | (simp only [Same.mk]; apply Same.fold)
    | apply SameO.onUnit
    | apply SameO.next
    | apply SameO.fault
    | apply Same.ite
    | split
    | intro _
    | dsimp only

theorem execSpareCoreBootDone_same {core : Nat} {ok : Bool} {s : State} : SameO s (execSpareCoreBootDone core ok s) := by
  unfold execSpareCoreBootDone
  try dsimp only
  with_reducible repeat' first
    | apply Same.rfl
    | assumption
    | apply Same.trans (k := refreshMode_same)
    | apply Same.trans (k := restartIssue_same)
    | apply Same.trans (k := setCore_same)
    | apply Same.trans (k := unitRec_same)
    | apply Same.trans (k := capRewrite_same)
    | apply Same.trans (k := checkPairs_same)
    | apply Same.trans (k := coreRec_same)
    | apply Same.trans (k := nextCores_same)
    | (simp only [Same.mk]; apply Same.fold)
    | apply SameO.onUnit
    | apply SameO.next
    | apply Same.ite
    | split
    | intro _
    | dsimp only

theorem execSpareLaneKatDone_same {lane : Nat} {ok : Bool} {s : State} : SameO s (execSpareLaneKatDone lane ok s) := by
  unfold execSpareLaneKatDone
  try dsimp only
  with_reducible repeat' first
    | apply Same.rfl
    | assumption
    | apply Same.trans (k := refreshMode_same)
    | apply Same.trans (k := setStand_same)
    | apply Same.trans (k := setLane_same)
    | apply Same.trans (k := unitRec_same)
    | apply Same.trans (k := capRewrite_same)
    | apply Same.trans (k := laneRec_same)
    | apply Same.trans (k := nextLanes_same)
    | apply Same.trans (k := laneFail_same)
    | (simp only [Same.mk]; apply Same.fold)
    | apply SameO.onUnit
    | apply SameO.next
    | apply Same.ite
    | split
    | intro _
    | dsimp only

theorem execSpdmOverMctp_same {msg : Bytes} {s : State} : SameO s (execSpdmOverMctp msg s) := by
  unfold execSpdmOverMctp
  try dsimp only
  with_reducible repeat' first
    | apply Same.rfl
    | assumption
    | apply Same.trans (k := mctpSpdm_same)
    | (simp only [Same.mk]; apply Same.fold)
    | apply SameO.onUnit
    | apply SameO.next
    | apply Same.ite
    | split
    | intro _
    | dsimp only

theorem execSqFetch_same {fn : Fn} {qid : Nat} {s : State} : SameO s (execSqFetch fn qid s) := by
  unfold execSqFetch
  try dsimp only
  with_reducible repeat' first
    | apply Same.rfl
    | assumption
    | apply Same.trans (k := setQ_same)
    | (simp only [Same.mk]; apply Same.fold)
    | apply SameO.onUnit
    | apply SameO.next
    | apply Same.ite
    | split
    | intro _
    | dsimp only

theorem execStandWake_same {stand : Nat} {acc : HeldAccess} {s : State} : SameO s (execStandWake stand acc s) := by
  unfold execStandWake
  try dsimp only
  with_reducible repeat' first
    | apply Same.rfl
    | assumption
    | apply Same.trans (k := holdAccess_same)
    | apply SameO.onUnit
    | apply SameO.next
    | apply Same.ite
    | split
    | intro _
    | dsimp only

theorem proceed_same {h : HeldAccess} {s : State} : Same s (proceed h s) := by
  unfold proceed
  try dsimp only
  with_reducible repeat' first
    | apply Same.rfl
    | assumption
    | apply Same.trans (k := transact_same)
    | split
    | intro _
    | dsimp only

theorem execStandWakeDone_same {stand : Nat} {s : State} : SameO s (execStandWakeDone stand s) := by
  unfold execStandWakeDone
  try dsimp only
  with_reducible repeat' first
    | apply Same.rfl
    | assumption
    | apply Same.trans (k := standUp_same)
    | apply Same.trans (k := proceed_same)
    | (simp only [Same.mk]; apply Same.fold)
    | apply Same.foldl
    | apply SameO.onUnit
    | apply SameO.next
    | split
    | intro _
    | dsimp only

theorem execStandbyResumeTimeout_same {s : State} : SameO s (execStandbyResumeTimeout s) := by
  unfold execStandbyResumeTimeout
  try dsimp only
  with_reducible repeat' first
    | apply Same.rfl
    | assumption
    | apply Same.trans (k := trustedRestart_same)
    | (simp only [Same.mk]; apply Same.fold)
    | apply SameO.onUnit
    | apply SameO.next
    | apply Same.ite
    | split
    | intro _
    | dsimp only

theorem execStandbyResumed_same {s : State} : SameO s (execStandbyResumed s) := by
  unfold execStandbyResumed
  try dsimp only
  with_reducible repeat' first
    | apply Same.rfl
    | assumption
    | apply Same.trans (k := endUpdate_same)
    | apply Same.trans (k := refreshMode_same)
    | apply Same.trans (k := doeResume_same)
    | apply Same.trans (k := resumeWarden_same)
    | apply Same.trans (k := measureHistory_same)
    | (simp only [Same.mk]; apply Same.fold)
    | apply SameO.onUnit
    | apply SameO.next
    | apply Same.ite
    | split
    | intro _
    | dsimp only

theorem execStartStageTimeout_same {s : State} : SameO s (execStartStageTimeout s) := by
  unfold execStartStageTimeout
  try dsimp only
  with_reducible repeat' first
    | apply Same.rfl
    | assumption
    | apply Same.trans (k := startFail_same)
    | (simp only [Same.mk]; apply Same.fold)
    | apply SameO.onUnit
    | apply SameO.next
    | apply Same.ite
    | split
    | intro _
    | dsimp only

theorem storeCommitRun_same {a0 : Mb} {q : Req} {s : State} : Same s (storeCommitRun a0 q s).2 := by
  unfold storeCommitRun
  try dsimp only
  with_reducible repeat' first
    | apply Same.rfl
    | assumption
    | apply Same.trans (k := wantCommit_same)
    | (simp only [Same.mk]; apply Same.fold)
    | apply Same.ite
    | split
    | intro _
    | dsimp only

theorem storeCommitRun_same_then {a0 : Mb} {q : Req} {s : State} {s0_ : State} {r_ : _} {s_ : State} (h_ : (storeCommitRun a0 q s) = (r_, s_)) (k_ : Same s0_ s) : Same s0_ s_ := by
  have j_ := k_.trans (@storeCommitRun_same a0 q s); rw [h_] at j_; exact j_

theorem execStoreCommit_same {mb : Mb} {s : State} : SameO s (execStoreCommit mb s) := by
  unfold execStoreCommit
  try dsimp only
  with_reducible repeat' first
    | apply Same.rfl
    | assumption
    | apply runCmd_same
    | apply Same.trans (k := storeCommitRun_same)
    | (apply storeCommitRun_same_then; · assumption)
    | apply SameO.onUnit
    | apply SameO.next
    | apply Same.direct
    | intro _
    | dsimp only

theorem storeRebaseRun_same {a0 : Mb} {a1 : Req} {s : State} : Same s (storeRebaseRun a0 a1 s).2 := by
  unfold storeRebaseRun
  try dsimp only
  with_reducible repeat' first
    | apply Same.rfl
    | assumption
    | apply Same.trans (k := logCode_same)
    | apply Same.trans (k := clearSapwood_same)
    | apply Same.trans (k := firstBlock_same)
    | apply Same.trans (k := resumeJournal_same)
    | apply Same.trans (k := setStoreState_same)
    | (simp only [Same.mk]; apply Same.fold)
    | split
    | intro _
    | dsimp only

theorem storeRebaseRun_same_then {a0 : Mb} {a1 : Req} {s : State} {s0_ : State} {r_ : _} {s_ : State} (h_ : (storeRebaseRun a0 a1 s) = (r_, s_)) (k_ : Same s0_ s) : Same s0_ s_ := by
  have j_ := k_.trans (@storeRebaseRun_same a0 a1 s); rw [h_] at j_; exact j_

theorem execStoreRebase_same {mb : Mb} {s : State} : SameO s (execStoreRebase mb s) := by
  unfold execStoreRebase
  try dsimp only
  with_reducible repeat' first
    | apply Same.rfl
    | assumption
    | apply runCmd_same
    | apply Same.trans (k := storeRebaseRun_same)
    | (apply storeRebaseRun_same_then; · assumption)
    | apply SameO.onUnit
    | apply SameO.next
    | apply Same.direct
    | intro _
    | dsimp only

theorem storeRecoverRun_same {mb : Mb} {a1 : Req} {s : State} : Same s (storeRecoverRun mb a1 s).2 := by
  unfold storeRecoverRun
  try dsimp only
  with_reducible repeat' first
    | apply Same.rfl
    | assumption
    | apply Same.trans (k := setJring_same)
    | apply Same.trans (k := closeRecovery_same)
    | (simp only [Same.mk]; apply Same.fold)
    | apply Same.ite
    | split
    | intro _
    | dsimp only

theorem storeRecoverRun_same_then {mb : Mb} {a1 : Req} {s : State} {s0_ : State} {r_ : _} {s_ : State} (h_ : (storeRecoverRun mb a1 s) = (r_, s_)) (k_ : Same s0_ s) : Same s0_ s_ := by
  have j_ := k_.trans (@storeRecoverRun_same mb a1 s); rw [h_] at j_; exact j_

theorem execStoreRecover_same {mb : Mb} {s : State} : SameO s (execStoreRecover mb s) := by
  unfold execStoreRecover
  try dsimp only
  with_reducible repeat' first
    | apply Same.rfl
    | assumption
    | apply runCmd_same
    | apply Same.trans (k := storeRecoverRun_same)
    | (apply storeRecoverRun_same_then; · assumption)
    | apply SameO.onUnit
    | apply SameO.next
    | apply Same.direct
    | intro _
    | dsimp only

theorem execStoreStatus_same {mb : Mb} {s : State} : SameO s (execStoreStatus mb s) := by
  unfold execStoreStatus
  try dsimp only
  with_reducible repeat' first
    | apply Same.rfl
    | assumption
    | apply runCmd_same
    | (simp only [Same.mk]; apply Same.fold)
    | apply SameO.onUnit
    | apply SameO.next
    | split
    | intro _
    | dsimp only

theorem svoutFailed_same {s : State} : Same s (svoutFailed s) := by
  unfold svoutFailed
  try dsimp only
  with_reducible repeat' first
    | apply Same.rfl
    | assumption
    | apply Same.trans (k := logCode_same)
    | apply Same.trans (k := lkoEvent_same)
    | (simp only [Same.mk]; apply Same.fold)
    | apply Same.ite
    | split
    | intro _
    | dsimp only

theorem execSvoutCollapse_same {s : State} : SameO s (execSvoutCollapse s) := by
  unfold execSvoutCollapse
  try dsimp only
  with_reducible repeat' first
    | apply Same.rfl
    | assumption
    | apply Same.trans (k := svoutFailed_same)
    | apply SameO.onUnit
    | apply SameO.next
    | apply Same.ite
    | split
    | intro _
    | dsimp only

theorem execSvoutCtrl_same {mb : Mb} {s : State} : SameO s (execSvoutCtrl mb s) := by
  unfold execSvoutCtrl
  try dsimp only
  with_reducible repeat' first
    | apply Same.rfl
    | assumption
    | apply Same.trans (k := svoutCtrlRun_same)
    | (apply svoutCtrlRun_same_then; · assumption)
    | apply runCmd_same
    | apply SameO.onUnit
    | apply SameO.next
    | apply Same.designated
    | intro _
    | dsimp only

theorem execSvoutRampEnd_same {ok : Bool} {s : State} : SameO s (execSvoutRampEnd ok s) := by
  unfold execSvoutRampEnd
  try dsimp only
  with_reducible repeat' first
    | apply Same.rfl
    | assumption
    | apply Same.trans (k := svoutFailed_same)
    | (simp only [Same.mk]; apply Same.fold)
    | apply SameO.onUnit
    | apply SameO.next
    | apply Same.ite
    | split
    | intro _
    | dsimp only

theorem execSvoutRetryTimer_same {s : State} : SameO s (execSvoutRetryTimer s) := by
  unfold execSvoutRetryTimer
  try dsimp only
  with_reducible repeat' first
    | apply Same.rfl
    | assumption
    | (simp only [Same.mk]; apply Same.fold)
    | apply SameO.onUnit
    | apply SameO.next
    | apply Same.ite
    | split
    | intro _
    | dsimp only

theorem execTally_same {ctx : Nat} {s : State} : SameO s (execTally ctx s) := by
  unfold execTally
  try dsimp only
  with_reducible repeat' first
    | apply Same.rfl
    | assumption
    | apply classRow_same
    | apply Same.foldl
    | apply SameO.onUnit
    | apply SameO.next
    | apply Same.ite
    | split
    | intro _
    | dsimp only

theorem execTapReset_same {s : State} : SameO s (execTapReset s) := by
  unfold execTapReset
  try dsimp only
  with_reducible repeat' first
    | apply Same.rfl
    | assumption
    | (simp only [Same.mk]; apply Same.fold)
    | apply SameO.onUnit
    | apply SameO.next
    | intro _
    | dsimp only

theorem execTdispMessage_same {n : Nat} {m : TdispMsg} {s : State} : SameO s (execTdispMessage n m s) := by
  unfold execTdispMessage
  try dsimp only
  with_reducible repeat' first
    | apply Same.rfl
    | assumption
    | (simp only [Same.mk]; apply Same.fold)
    | apply SameO.onUnit
    | apply SameO.next
    | apply Same.ite
    | split
    | intro _
    | dsimp only

theorem execTime_same {core : Nat} {s : State} : SameO s (execTime core s) := by
  unfold execTime
  try dsimp only
  with_reducible repeat' first
    | apply Same.rfl
    | assumption
    | apply ecall_same
    | apply Same.trans (k := ecallRet_same)
    | apply SameO.onUnit
    | apply SameO.next
    | intro _
    | dsimp only

theorem execTpScan_same {instr : Nat} {s : State} : SameO s (execTpScan instr s) := by
  unfold execTpScan
  try dsimp only
  with_reducible repeat' first
    | apply Same.rfl
    | assumption
    | apply Same.trans (k := draw_same)
    | (apply draw_same_then; · assumption)
    | apply Same.trans (k := tapLoad_same)
    | apply SameO.onUnit
    | apply SameO.next
    | split
    | intro _
    | dsimp only

theorem execTrap_same {core : Nat} {cause : DWord} {tval : DWord} {s : State} : SameO s (execTrap core cause tval s) := by
  unfold execTrap
  try dsimp only
  with_reducible repeat' first
    | apply Same.rfl
    | assumption
    | apply Same.trans (k := ownRow_same ?_)
    | apply Same.trans (k := trap_same)
    | apply Same.trans (k := deliverNotes_same)
    | apply Same.trans (k := ecallRet_same)
    | apply SameO.onUnit
    | apply SameO.next
    | apply Same.ite
    | split
    | intro _
    | dsimp only

theorem execTrlVectorSend_same {p : Nat} {s : State} : SameO s (execTrlVectorSend p s) := by
  unfold execTrlVectorSend
  try dsimp only
  with_reducible repeat' first
    | apply Same.rfl
    | assumption
    | apply Same.trans (k := sendVec_same)
    | (simp only [Same.mk]; apply Same.fold)
    | apply SameO.onUnit
    | apply SameO.next
    | apply SameO.fault
    | apply Same.ite
    | split
    | intro _
    | dsimp only

theorem execUnwrap_same {ctx : Nat} {s : State} : SameO s (execUnwrap ctx s) := by
  unfold execUnwrap
  try dsimp only
  with_reducible repeat' first
    | apply Same.rfl
    | assumption
    | apply classRow_same
    | apply Same.foldl
    | apply SameO.onUnit
    | apply SameO.next
    | apply Same.ite
    | split
    | intro _
    | dsimp only

theorem execUpdateAbandon_same {mb : Mb} {s : State} : SameO s (execUpdateAbandon mb s) := by
  unfold execUpdateAbandon
  try dsimp only
  with_reducible repeat' first
    | apply Same.rfl
    | assumption
    | apply Same.trans (k := abandonUpdate_same)
    | apply runCmd_same
    | (simp only [Same.mk]; apply Same.fold)
    | apply SameO.onUnit
    | apply SameO.next
    | apply Same.ite
    | split
    | intro _
    | dsimp only

theorem execUpdateApply_same {mb : Mb} {s : State} : SameO s (execUpdateApply mb s) := by
  unfold execUpdateApply
  try dsimp only
  with_reducible repeat' first
    | apply Same.rfl
    | assumption
    | apply Same.trans (k := updateApplyRun_same)
    | (apply updateApplyRun_same_then; · assumption)
    | apply runCmd_same
    | apply SameO.onUnit
    | apply SameO.next
    | apply Same.guarded
    | intro _
    | dsimp only

theorem execUpdateStatus_same {mb : Mb} {s : State} : SameO s (execUpdateStatus mb s) := by
  unfold execUpdateStatus
  try dsimp only
  with_reducible repeat' first
    | apply Same.rfl
    | assumption
    | apply runCmd_same
    | (simp only [Same.mk]; apply Same.fold)
    | apply SameO.onUnit
    | apply SameO.next
    | intro _
    | dsimp only

theorem execVerify_same {ctx : Nat} {s : State} : SameO s (execVerify ctx s) := by
  unfold execVerify
  try dsimp only
  with_reducible repeat' first
    | apply Same.rfl
    | assumption
    | apply classRow_same
    | apply Same.foldl
    | apply SameO.onUnit
    | apply SameO.next
    | apply Same.ite
    | split
    | intro _
    | dsimp only

theorem execVfBind_same {mb : Mb} {s : State} : SameO s (execVfBind mb s) := by
  unfold execVfBind
  try dsimp only
  with_reducible repeat' first
    | apply Same.rfl
    | assumption
    | apply Same.trans (k := setAlloc_same)
    | apply runCmd_same
    | apply Same.trans (k := tdiError_same)
    | (simp only [Same.mk]; apply Same.fold)
    | apply SameO.onUnit
    | apply SameO.next
    | apply Same.direct
    | split
    | intro _
    | dsimp only

theorem execVfEnableSet_same {p : Nat} {s : State} : SameO s (execVfEnableSet p s) := by
  unfold execVfEnableSet
  try dsimp only
  with_reducible repeat' first
    | apply Same.rfl
    | assumption
    | apply Same.trans (k := modFn_same)
    | (simp only [Same.mk]; apply Same.fold)
    | apply Same.foldl
    | apply SameO.onUnit
    | apply SameO.next
    | apply Same.ite
    | split
    | intro _
    | dsimp only

theorem execVfFlr_same {n : Nat} {s : State} : SameO s (execVfFlr n s) := by
  unfold execVfFlr
  try dsimp only
  with_reducible repeat' first
    | apply Same.rfl
    | assumption
    | apply Same.trans (k := dropAtc_same)
    | apply Same.trans (k := resetVf_same)
    | apply SameO.onUnit
    | apply SameO.next
    | apply Same.ite
    | split
    | intro _
    | dsimp only

theorem suspendEntry_same {n : Nat} {e : Suspended} {s : State} : Same s (suspendEntry n e s) := by
  unfold suspendEntry
  try dsimp only
  with_reducible repeat' first
    | apply Same.rfl
    | assumption
    | apply Same.trans (k := setAlloc_same)
    | (simp only [Same.mk]; apply Same.fold)
    | split
    | intro _
    | dsimp only

theorem suspendCtx_same {n : Nat} {c : Nat} {s : State} : Same s (suspendCtx n c s) := by
  unfold suspendCtx
  try dsimp only
  with_reducible repeat' first
    | apply Same.rfl
    | assumption
    | apply Same.trans (k := drainCtx_same)
    | apply Same.trans (k := freeCtx_same)
    | apply Same.trans (k := suspendEntry_same)
    | (simp only [Same.mk]; apply Same.fold)
    | apply Same.ite
    | split
    | intro _
    | dsimp only

theorem suspendFetched_same {n : Nat} {k : Nat} {s : State} : Same s (suspendFetched n k s) := by
  unfold suspendFetched
  try dsimp only
  with_reducible repeat' first
    | apply Same.rfl
    | assumption
    | apply Same.trans (k := setQ_same)
    | apply Same.trans (k := suspendEntry_same)
    | (simp only [Same.mk]; apply Same.fold)
    | apply Same.foldl
    | split
    | intro _
    | dsimp only

theorem execVfFreeze_same {mb : Mb} {s : State} : SameO s (execVfFreeze mb s) := by
  unfold execVfFreeze
  try dsimp only
  with_reducible repeat' first
    | apply Same.rfl
    | assumption
    | apply Same.trans (k := setAlloc_same)
    | apply Same.trans (k := setQueuesState_same)
    | apply runCmd_same
    | apply Same.trans (k := tdiError_same)
    | apply Same.trans (k := suspendCtx_same)
    | apply Same.trans (k := suspendFetched_same)
    | (simp only [Same.mk]; apply Same.fold)
    | apply Same.foldl
    | apply SameO.onUnit
    | apply SameO.next
    | apply Same.direct
    | split
    | intro _
    | dsimp only

theorem execVfFreezeComplete_same {n : Nat} {s : State} : SameO s (execVfFreezeComplete n s) := by
  unfold execVfFreezeComplete
  try dsimp only
  with_reducible repeat' first
    | apply Same.rfl
    | assumption
    | apply Same.trans (k := setAlloc_same)
    | apply Same.trans (k := deliverVf_same)
    | (simp only [Same.mk]; apply Same.fold)
    | apply SameO.onUnit
    | apply SameO.next
    | apply Same.ite
    | split
    | intro _
    | dsimp only

theorem execVfGrant_same {mb : Mb} {s : State} : SameO s (execVfGrant mb s) := by
  unfold execVfGrant
  try dsimp only
  with_reducible repeat' first
    | apply Same.rfl
    | assumption
    | apply Same.trans (k := addGrant_same)
    | apply Same.trans (k := capRewrite_same)
    | apply runCmd_same
    | (simp only [Same.mk]; apply Same.fold)
    | apply SameO.onUnit
    | apply SameO.next
    | apply Same.direct
    | split
    | intro _
    | dsimp only

theorem execVfGrants_same {mb : Mb} {s : State} : SameO s (execVfGrants mb s) := by
  unfold execVfGrants
  try dsimp only
  with_reducible repeat' first
    | apply Same.rfl
    | assumption
    | apply runCmd_same
    | (simp only [Same.mk]; apply Same.fold)
    | apply SameO.onUnit
    | apply SameO.next
    | apply Same.direct
    | apply Same.ite
    | split
    | intro _
    | dsimp only

theorem vfPrepareRun_same {mb : Mb} {q : Req} {s : State} : Same s (vfPrepareRun mb q s).2 := by
  unfold vfPrepareRun
  try dsimp only
  with_reducible repeat' first
    | apply Same.rfl
    | assumption
    | apply Same.trans (k := setAlloc_same)
    | apply Same.trans (k := hostWrite_same)
    | apply Same.trans (k := takeWarden_same)
    | (apply takeWarden_same_then; · assumption)
    | (simp only [Same.mk]; apply Same.fold)
    | apply Same.ite
    | split
    | intro _
    | dsimp only

theorem vfPrepareRun_same_then {mb : Mb} {q : Req} {s : State} {s0_ : State} {r_ : _} {s_ : State} (h_ : (vfPrepareRun mb q s) = (r_, s_)) (k_ : Same s0_ s) : Same s0_ s_ := by
  have j_ := k_.trans (@vfPrepareRun_same mb q s); rw [h_] at j_; exact j_

theorem execVfPrepare_same {mb : Mb} {s : State} : SameO s (execVfPrepare mb s) := by
  unfold execVfPrepare
  try dsimp only
  with_reducible repeat' first
    | apply Same.rfl
    | assumption
    | apply runCmd_same
    | apply Same.trans (k := vfPrepareRun_same)
    | (apply vfPrepareRun_same_then; · assumption)
    | apply SameO.onUnit
    | apply SameO.next
    | apply Same.direct
    | intro _
    | dsimp only

theorem execVfQuery_same {mb : Mb} {s : State} : SameO s (execVfQuery mb s) := by
  unfold execVfQuery
  try dsimp only
  with_reducible repeat' first
    | apply Same.rfl
    | assumption
    | apply runCmd_same
    | (simp only [Same.mk]; apply Same.fold)
    | apply SameO.onUnit
    | apply SameO.next
    | apply Same.direct
    | split
    | intro _
    | dsimp only

theorem execVfQuiesce_same {mb : Mb} {s : State} : SameO s (execVfQuiesce mb s) := by
  unfold execVfQuiesce
  try dsimp only
  with_reducible repeat' first
    | apply Same.rfl
    | assumption
    | apply Same.trans (k := setAlloc_same)
    | apply Same.trans (k := setQueuesState_same)
    | apply runCmd_same
    | (simp only [Same.mk]; apply Same.fold)
    | apply SameO.onUnit
    | apply SameO.next
    | apply Same.direct
    | split
    | intro _
    | dsimp only

theorem execVfQuiesceComplete_same {n : Nat} {s : State} : SameO s (execVfQuiesceComplete n s) := by
  unfold execVfQuiesceComplete
  try dsimp only
  with_reducible repeat' first
    | apply Same.rfl
    | assumption
    | apply Same.trans (k := setAlloc_same)
    | apply Same.trans (k := deliverVf_same)
    | (simp only [Same.mk]; apply Same.fold)
    | apply SameO.onUnit
    | apply SameO.next
    | apply Same.ite
    | split
    | intro _
    | dsimp only

theorem takeGrants_same {fn : Fn} {l : List (Nat × Nat × Nat × Nat)} {s : State} {s_ : State} (h : takeGrants fn l s = some s_) {s0 : State} (k : Same s0 s) : Same s0 s_ := by
  induction l generalizing s with
  | nil => cases h; exact k
  | cons p r ih =>
    unfold takeGrants at h
    split at h
    · exact ih h (k.trans addGrant_same)
    · cases h

theorem openVfImage_same {mb : Mb} {q : Req} {s : State} {i : Image} {v : Bytes} {p : Prepare} {s_ : State} (h : openVfImage mb q s = .ok (i, v, p, s_)) {s0 : State} (k : Same s0 s) : Same s0 s_ := by
  unfold openVfImage at h
  dsimp only at h
  repeat' split at h
  all_goals first
    | (cases h; exact takeGrants_same (by assumption) k)
    | cases h

theorem vfRestoreRun_same {mb : Mb} {q : Req} {s : State} : Same s (vfRestoreRun mb q s).2 := by
  unfold vfRestoreRun
  try dsimp only
  with_reducible repeat' first
    | apply Same.rfl
    | assumption
    | apply Same.trans (k := setMb_same)
    | apply Same.trans (k := setAlloc_same)
    | apply Same.trans (k := setQ_same)
    | apply Same.trans (k := storeChange_same)
    | apply Same.trans (k := usePrep_same)
    | apply Same.trans (k := capRewrite_same)
    | apply Same.trans (k := modFn_same)
    | apply Same.trans (k := durableAns_same)
    | (apply durableAns_same_then; · assumption)
    | (apply openVfImage_same; · assumption)
    | (simp only [Same.mk]; apply Same.fold)
    | apply Same.foldl
    | apply Same.ite
    | split
    | intro _
    | dsimp only

theorem vfRestoreRun_same_then {mb : Mb} {q : Req} {s : State} {s0_ : State} {r_ : _} {s_ : State} (h_ : (vfRestoreRun mb q s) = (r_, s_)) (k_ : Same s0_ s) : Same s0_ s_ := by
  have j_ := k_.trans (@vfRestoreRun_same mb q s); rw [h_] at j_; exact j_

theorem execVfRestore_same {mb : Mb} {s : State} : SameO s (execVfRestore mb s) := by
  unfold execVfRestore
  try dsimp only
  with_reducible repeat' first
    | apply Same.rfl
    | assumption
    | apply runCmd_same
    | apply Same.trans (k := vfRestoreRun_same)
    | (apply vfRestoreRun_same_then; · assumption)
    | apply SameO.onUnit
    | apply SameO.next
    | apply Same.direct
    | apply Same.storeRun
    | intro _
    | dsimp only

theorem execVfResume_same {mb : Mb} {s : State} : SameO s (execVfResume mb s) := by
  unfold execVfResume
  try dsimp only
  with_reducible repeat' first
    | apply Same.rfl
    | assumption
    | apply Same.trans (k := setAlloc_same)
    | apply Same.trans (k := setQueuesState_same)
    | apply runCmd_same
    | (simp only [Same.mk]; apply Same.fold)
    | apply SameO.onUnit
    | apply SameO.next
    | apply Same.direct
    | apply Same.ite
    | split
    | intro _
    | dsimp only

theorem execVfRevoke_same {mb : Mb} {s : State} : SameO s (execVfRevoke mb s) := by
  unfold execVfRevoke
  try dsimp only
  with_reducible repeat' first
    | apply Same.rfl
    | assumption
    | apply Same.trans (k := setAlloc_same)
    | apply Same.trans (k := forceStop_same)
    | apply Same.trans (k := capRewrite_same)
    | apply runCmd_same
    | (simp only [Same.mk]; apply Same.fold)
    | apply Same.foldl
    | apply SameO.onUnit
    | apply SameO.next
    | apply Same.direct
    | split
    | intro _
    | dsimp only

theorem vfSaveRun_same {mb : Mb} {q : Req} {s : State} : Same s (vfSaveRun mb q s).2 := by
  unfold vfSaveRun
  try dsimp only
  with_reducible repeat' first
    | apply Same.rfl
    | assumption
    | apply Same.trans (k := setAlloc_same)
    | apply Same.trans (k := storeChange_same)
    | apply Same.trans (k := wantCommit_same)
    | apply Same.trans (k := takeWarden_same)
    | (apply takeWarden_same_then; · assumption)
    | (simp only [Same.mk]; apply Same.fold)
    | split
    | intro _
    | dsimp only

theorem vfSaveRun_same_then {mb : Mb} {q : Req} {s : State} {s0_ : State} {r_ : _} {s_ : State} (h_ : (vfSaveRun mb q s) = (r_, s_)) (k_ : Same s0_ s) : Same s0_ s_ := by
  have j_ := k_.trans (@vfSaveRun_same mb q s); rw [h_] at j_; exact j_

theorem execVfSave_same {mb : Mb} {s : State} : SameO s (execVfSave mb s) := by
  unfold execVfSave
  try dsimp only
  with_reducible repeat' first
    | apply Same.rfl
    | assumption
    | apply runCmd_same
    | apply Same.trans (k := vfSaveRun_same)
    | (apply vfSaveRun_same_then; · assumption)
    | apply SameO.onUnit
    | apply SameO.next
    | apply Same.direct
    | apply Same.storeRun
    | intro _
    | dsimp only

theorem execVfSetLimits_same {mb : Mb} {s : State} : SameO s (execVfSetLimits mb s) := by
  unfold execVfSetLimits
  try dsimp only
  with_reducible repeat' first
    | apply Same.rfl
    | assumption
    | apply Same.trans (k := setAlloc_same)
    | apply Same.trans (k := modFn_same)
    | apply runCmd_same
    | (simp only [Same.mk]; apply Same.fold)
    | apply SameO.onUnit
    | apply SameO.next
    | apply Same.direct
    | split
    | intro _
    | dsimp only

theorem execVfThaw_same {mb : Mb} {s : State} : SameO s (execVfThaw mb s) := by
  unfold execVfThaw
  try dsimp only
  with_reducible repeat' first
    | apply Same.rfl
    | assumption
    | apply Same.trans (k := vfThawRun_same)
    | (apply vfThawRun_same_then; · assumption)
    | apply runCmd_same
    | apply SameO.onUnit
    | apply SameO.next
    | apply Same.guarded
    | intro _
    | dsimp only

theorem execVfUnbind_same {mb : Mb} {s : State} : SameO s (execVfUnbind mb s) := by
  unfold execVfUnbind
  try dsimp only
  with_reducible repeat' first
    | apply Same.rfl
    | assumption
    | apply Same.trans (k := setAlloc_same)
    | apply Same.trans (k := capRewrite_same)
    | apply Same.trans (k := modFn_same)
    | apply Same.trans (k := voidPrep_same)
    | apply Same.trans (k := dropQueues_same)
    | apply runCmd_same
    | apply Same.trans (k := tdiError_same)
    | (simp only [Same.mk]; apply Same.fold)
    | apply SameO.onUnit
    | apply SameO.next
    | apply Same.direct
    | apply Same.ite
    | split
    | intro _
    | dsimp only

theorem execWait_same {core : Nat} {s : State} : SameO s (execWait core s) := by
  unfold execWait
  try dsimp only
  with_reducible repeat' first
    | apply Same.rfl
    | assumption
    | apply Same.trans (k := setCore_same)
    | apply Same.trans (k := modApplet_same)
    | apply Same.trans (k := schedule_same)
    | apply ecall_same
    | apply Same.trans (k := ecallRet_same)
    | apply Same.trans (k := saveApplet_same)
    | (simp only [Same.mk]; apply Same.fold)
    | apply SameO.onUnit
    | apply SameO.next
    | apply Same.ite
    | split
    | intro _
    | dsimp only

theorem execWakeIn_same {s : State} : SameO s (execWakeIn s) := by
  unfold execWakeIn
  try dsimp only
  with_reducible repeat' first
    | apply Same.rfl
    | assumption
    | apply Same.trans (k := maskedWake_same)
    | apply SameO.onUnit
    | apply SameO.next
    | intro _
    | dsimp only

theorem wakeBits_same {n : Nat} {s : State} : Same s (wakeBits n s).2 := by
  unfold wakeBits
  try dsimp only
  with_reducible repeat' first
    | apply Same.rfl
    | assumption
    | apply Same.trans (k := takeHeart_same)
    | (apply takeHeart_same_then; · assumption)
    | apply Same.ite
    | split
    | intro _
    | dsimp only

theorem wakeBits_same_then {n : Nat} {s : State} {s0_ : State} {r_ : _} {s_ : State} (h_ : (wakeBits n s) = (r_, s_)) (k_ : Same s0_ s) : Same s0_ s_ := by
  have j_ := k_.trans (@wakeBits_same n s); rw [h_] at j_; exact j_

theorem wakeDone_same {s : State} : Same s (wakeDone s) := by
  unfold wakeDone
  try dsimp only
  with_reducible repeat' first
    | apply Same.rfl
    | assumption
    | apply Same.trans (k := refreshMode_same)
    | (simp only [Same.mk]; apply Same.fold)
    | intro _
    | dsimp only

theorem wakeLinks_same {s : State} : Same s (wakeLinks s) := by
  unfold wakeLinks
  try dsimp only
  with_reducible repeat' first
    | apply Same.rfl
    | assumption
    | apply Same.trans (k := linkReset_same)
    | (simp only [Same.mk]; apply Same.fold)
    | apply Same.foldl
    | split
    | intro _
    | dsimp only

theorem wakeWarden_same {s : State} : Same s (wakeWarden s) := by
  unfold wakeWarden
  try dsimp only
  with_reducible repeat' first
    | apply Same.rfl
    | assumption
    | apply Same.trans (k := watchAnswer_same)
    | (simp only [Same.mk]; apply Same.fold)
    | apply Same.ite
    | split
    | intro _
    | dsimp only

theorem wakeWork_same {n : Nat} {d : Bytes} {s : State} : Same s (wakeWork n d s) := by
  unfold wakeWork
  try dsimp only
  with_reducible repeat' first
    | apply Same.rfl
    | assumption
    | apply Same.trans (k := noteWake_same)
    | apply Same.trans (k := restartIssue_same)
    | apply Same.trans (k := endScrub_same)
    | apply Same.trans (k := beginScrub_same)
    | apply Same.trans (k := deliverKek_same)
    | apply Same.trans (k := wakeDone_same)
    | apply Same.trans (k := wakeLinks_same)
    | apply Same.trans (k := wakeWarden_same)
    | (simp only [Same.mk]; apply Same.fold)
    | apply Same.foldl
    | apply Same.ite
    | split
    | intro _
    | dsimp only

theorem execWakeStepDone_same {s : State} : SameO s (execWakeStepDone s) := by
  unfold execWakeStepDone
  try dsimp only
  with_reducible repeat' first
    | apply Same.rfl
    | assumption
    | apply Same.trans (k := wakeBits_same)
    | (apply wakeBits_same_then; · assumption)
    | apply Same.trans (k := wakeWork_same)
    | (simp only [Same.mk]; apply Same.fold)
    | apply SameO.onUnit
    | apply SameO.next
    | apply Same.ite
    | split
    | intro _
    | dsimp only

theorem execWakeTimeout_same {s : State} : SameO s (execWakeTimeout s) := by
  unfold execWakeTimeout
  try dsimp only
  with_reducible repeat' first
    | apply Same.rfl
    | assumption
    | apply Same.trans (k := logCode_same)
    | apply Same.trans (k := coldStart_same)
    | (simp only [Same.mk]; apply Same.fold)
    | apply SameO.onUnit
    | apply SameO.next
    | apply Same.ite
    | split
    | intro _
    | dsimp only

theorem execWakeTimer_same {s : State} : SameO s (execWakeTimer s) := by
  unfold execWakeTimer
  try dsimp only
  with_reducible repeat' first
    | apply Same.rfl
    | assumption
    | apply Same.trans (k := wakePend_same)
    | apply SameO.onUnit
    | apply SameO.next
    | apply Same.ite
    | split
    | intro _
    | dsimp only

theorem execWardenFailover_same {s : State} : SameO s (execWardenFailover s) := by
  unfold execWardenFailover
  try dsimp only
  with_reducible repeat' first
    | apply Same.rfl
    | assumption
    | apply Same.trans (k := failover_same)
    | apply SameO.onUnit
    | apply SameO.next
    | apply Same.ite
    | split
    | intro _
    | dsimp only

theorem wardenHandoverRun_same {a0 : Mb} {a1 : Req} {s : State} : Same s (wardenHandoverRun a0 a1 s).2 := by
  unfold wardenHandoverRun
  try dsimp only
  with_reducible repeat' first
    | apply Same.rfl
    | assumption
    | apply Same.trans (k := refreshMode_same)
    | (simp only [Same.mk]; apply Same.fold)
    | intro _
    | dsimp only

theorem wardenHandoverRun_same_then {a0 : Mb} {a1 : Req} {s : State} {s0_ : State} {r_ : _} {s_ : State} (h_ : (wardenHandoverRun a0 a1 s) = (r_, s_)) (k_ : Same s0_ s) : Same s0_ s_ := by
  have j_ := k_.trans (@wardenHandoverRun_same a0 a1 s); rw [h_] at j_; exact j_

theorem execWardenHandover_same {mb : Mb} {s : State} : SameO s (execWardenHandover mb s) := by
  unfold execWardenHandover
  try dsimp only
  with_reducible repeat' first
    | apply Same.rfl
    | assumption
    | apply runCmd_same
    | apply Same.trans (k := wardenHandoverRun_same)
    | (apply wardenHandoverRun_same_then; · assumption)
    | apply SameO.onUnit
    | apply SameO.next
    | apply Same.direct
    | intro _
    | dsimp only

theorem execWardenHeartbeat_same {s : State} : SameO s (execWardenHeartbeat s) := by
  unfold execWardenHeartbeat
  try dsimp only
  with_reducible repeat' first
    | apply Same.rfl
    | assumption
    | (simp only [Same.mk]; apply Same.fold)
    | apply SameO.onUnit
    | apply SameO.next
    | apply Same.ite
    | split
    | intro _
    | dsimp only

theorem forgetWatch_same {mb : Mb} {s : State} : Same s (forgetWatch mb s) := by
  unfold forgetWatch
  try dsimp only
  with_reducible repeat' first
    | apply Same.rfl
    | assumption
    | apply Same.trans (k := setMb_same)
    | (simp only [Same.mk]; apply Same.fold)
    | apply Same.ite
    | split
    | intro _
    | dsimp only

theorem passAp1_same {s : State} : Same s (passAp1 s) := by
  unfold passAp1
  try dsimp only
  with_reducible repeat' first
    | apply Same.rfl
    | assumption
    | apply Same.trans (k := cancelPort_same)
    | apply Same.trans (k := standUp_same)
    | apply Same.foldl
    | split
    | intro _
    | dsimp only

theorem passPoint_same {e : WatchEntry} {s : State} : Same s (passPoint e s) := by
  unfold passPoint
  try dsimp only
  with_reducible repeat' first
    | apply Same.rfl
    | assumption
    | apply Same.trans (k := completeEpoch_same)
    | apply Same.trans (k := enterWatch_same)
    | apply Same.trans (k := passAp1_same)
    | (simp only [Same.mk]; apply Same.fold)
    | split
    | intro _
    | dsimp only

theorem execWatchAbortPoint_same {point : Nat} {s : State} : SameO s (execWatchAbortPoint point s) := by
  unfold execWatchAbortPoint
  try dsimp only
  with_reducible repeat' first
    | apply Same.rfl
    | assumption
    | apply Same.trans (k := abortEntry_same)
    | apply Same.trans (k := forgetWatch_same)
    | apply Same.trans (k := passPoint_same)
    | (simp only [Same.mk]; apply Same.fold)
    | apply SameO.onUnit
    | apply SameO.next
    | apply Same.ite
    | split
    | intro _
    | dsimp only

theorem execWatchEntryTimeout_same {s : State} : SameO s (execWatchEntryTimeout s) := by
  unfold execWatchEntryTimeout
  try dsimp only
  with_reducible repeat' first
    | apply Same.rfl
    | assumption
    | apply Same.trans (k := watchAnswer_same)
    | (simp only [Same.mk]; apply Same.fold)
    | apply SameO.onUnit
    | apply SameO.next
    | apply Same.ite
    | split
    | intro _
    | dsimp only

theorem execWatchdogExpiry_same {core : Nat} {s : State} : SameO s (execWatchdogExpiry core s) := by
  unfold execWatchdogExpiry
  try dsimp only
  with_reducible repeat' first
    | apply Same.rfl
    | assumption
    | apply Same.trans (k := watchdogExpiry_same)
    | apply SameO.onUnit
    | apply SameO.next
    | intro _
    | dsimp only

theorem execWatchdogKick_same {core : Nat} {s : State} : SameO s (execWatchdogKick core s) := by
  unfold execWatchdogKick
  try dsimp only
  with_reducible repeat' first
    | apply Same.rfl
    | assumption
    | apply Same.trans (k := kickWatchdog_same)
    | apply SameO.onUnit
    | apply SameO.next
    | apply Same.ite
    | split
    | intro _
    | dsimp only

theorem execWearIndexUpdate_same {stand : Nat} {s : State} : SameO s (execWearIndexUpdate stand s) := by
  unfold execWearIndexUpdate
  try dsimp only
  with_reducible repeat' first
    | apply Same.rfl
    | assumption
    | apply Same.trans (k := logCode_same)
    | (simp only [Same.mk]; apply Same.fold)
    | apply SameO.onUnit
    | apply SameO.next
    | apply SameO.fault
    | apply Same.ite
    | split
    | intro _
    | dsimp only

theorem wfi_same {core : Nat} {s : State} : Same s (wfi core s) := by
  unfold wfi
  try dsimp only
  with_reducible repeat' first
    | apply Same.rfl
    | assumption
    | apply Same.trans (k := setCore_same)
    | apply Same.trans (k := complete4_same)
    | apply Same.trans (k := illegal_same)
    | (simp only [Same.mk]; apply Same.fold)
    | apply Same.ite
    | split
    | intro _
    | dsimp only

theorem execWfi_same {core : Nat} {s : State} : SameO s (execWfi core s) := by
  unfold execWfi
  try dsimp only
  with_reducible repeat' first
    | apply Same.rfl
    | assumption
    | apply Same.trans (k := ownRow_same ?_)
    | apply Same.trans (k := wfi_same)
    | apply SameO.onUnit
    | apply SameO.next
    | intro _
    | dsimp only

theorem wmaDone_same {u : Nat} {s : State} : Same s (wmaDone u s) := by
  unfold wmaDone
  try dsimp only
  with_reducible repeat' first
    | apply Same.rfl
    | assumption
    | apply Same.trans (k := setWma_same)
    | apply Same.trans (k := orderedDone_same)
    | apply Same.trans (k := fabStore_same)
    | apply Same.trans (k := wmaUndefined_same)
    | apply Same.trans (k := wmaOver_same)
    | (simp only [Same.mk]; apply Same.fold)
    | apply Same.ite
    | split
    | intro _
    | dsimp only

theorem execWmaCmdDone_same {unit : Nat} {s : State} : SameO s (execWmaCmdDone unit s) := by
  unfold execWmaCmdDone
  try dsimp only
  with_reducible repeat' first
    | apply Same.rfl
    | assumption
    | apply Same.trans (k := wmaDone_same)
    | apply SameO.onUnit
    | apply SameO.next
    | intro _
    | dsimp only

theorem wmaStart_same {u : Nat} {s : State} : Same s (wmaStart u s) := by
  unfold wmaStart
  try dsimp only
  with_reducible repeat' first
    | apply Same.rfl
    | assumption
    | apply Same.trans (k := setWma_same)
    | apply Same.trans (k := acuProbe_same)
    | apply Same.trans (k := wmaOver_same)
    | (simp only [Same.mk]; apply Same.fold)
    | apply Same.ite
    | split
    | intro _
    | dsimp only

theorem execWmaCmdStart_same {unit : Nat} {s : State} : SameO s (execWmaCmdStart unit s) := by
  unfold execWmaCmdStart
  try dsimp only
  with_reducible repeat' first
    | apply Same.rfl
    | assumption
    | apply Same.trans (k := wmaStart_same)
    | apply SameO.onUnit
    | apply SameO.next
    | intro _
    | dsimp only

theorem execWmaFault_same {unit : Nat} {s : State} : SameO s (execWmaFault unit s) := by
  unfold execWmaFault
  try dsimp only
  with_reducible repeat' first
    | apply Same.rfl
    | assumption
    | apply Same.trans (k := wmaFail_same)
    | apply SameO.onUnit
    | apply SameO.next
    | intro _
    | dsimp only

theorem wmaIssue_same {core : Nat} {u : Nat} {addr : Nat} {s : State} : Same s (wmaIssue core u addr s) := by
  unfold wmaIssue
  try dsimp only
  with_reducible repeat' first
    | apply Same.rfl
    | assumption
    | apply Same.trans (k := setWma_same)
    | apply Same.trans (k := wmaOver_same)
    | (simp only [Same.mk]; apply Same.fold)
    | apply Same.ite
    | split
    | intro _
    | dsimp only

theorem wmaGo_same {core : Nat} {rs1 : Nat} {unit : Nat} {s : State} : Same s (wmaGo core rs1 unit s) := by
  unfold wmaGo
  try dsimp only
  with_reducible repeat' first
    | apply Same.rfl
    | assumption
    | apply Same.trans (k := complete4_same)
    | apply Same.trans (k := illegal_same)
    | apply Same.trans (k := wmaIssue_same)
    | apply Same.ite
    | split
    | intro _
    | dsimp only

theorem execWmaGo_same {core : Nat} {rs1 : Nat} {unit : Nat} {s : State} : SameO s (execWmaGo core rs1 unit s) := by
  unfold execWmaGo
  try dsimp only
  with_reducible repeat' first
    | apply Same.rfl
    | assumption
    | apply Same.trans (k := ownRow_same ?_)
    | apply Same.trans (k := wmaGo_same)
    | apply SameO.onUnit
    | apply SameO.next
    | intro _
    | dsimp only

theorem wmaWait_same {core : Nat} {rd : Nat} {s : State} : Same s (wmaWait core rd s) := by
  unfold wmaWait
  try dsimp only
  with_reducible repeat' first
    | apply Same.rfl
    | assumption
    | apply Same.trans (k := setX_same)
    | apply Same.trans (k := complete4_same)
    | apply Same.trans (k := illegal_same)
    | (simp only [Same.mk]; apply Same.fold)
    | apply Same.ite
    | split
    | intro _
    | dsimp only

theorem execWmaWait_same {core : Nat} {rd : Nat} {s : State} : SameO s (execWmaWait core rd s) := by
  unfold execWmaWait
  try dsimp only
  with_reducible repeat' first
    | apply Same.rfl
    | assumption
    | apply Same.trans (k := ownRow_same ?_)
    | apply Same.trans (k := wmaWait_same)
    | apply SameO.onUnit
    | apply SameO.next
    | intro _
    | dsimp only

theorem worldmapReadRun_same {a0 : Mb} {q : Req} {s : State} : Same s (worldmapReadRun a0 q s).2 := by
  unfold worldmapReadRun
  try dsimp only
  with_reducible repeat' first
    | apply Same.rfl
    | assumption
    | (simp only [Same.mk]; apply Same.fold)
    | apply Same.ite
    | split
    | intro _
    | dsimp only

theorem worldmapReadRun_same_then {a0 : Mb} {q : Req} {s : State} {s0_ : State} {r_ : _} {s_ : State} (h_ : (worldmapReadRun a0 q s) = (r_, s_)) (k_ : Same s0_ s) : Same s0_ s_ := by
  have j_ := k_.trans (@worldmapReadRun_same a0 q s); rw [h_] at j_; exact j_

theorem execWorldmapRead_same {mb : Mb} {s : State} : SameO s (execWorldmapRead mb s) := by
  unfold execWorldmapRead
  try dsimp only
  with_reducible repeat' first
    | apply Same.rfl
    | assumption
    | apply runCmd_same
    | apply Same.trans (k := worldmapReadRun_same)
    | (apply worldmapReadRun_same_then; · assumption)
    | apply SameO.onUnit
    | apply SameO.next
    | intro _
    | dsimp only

theorem worldmapForm_same {mb : Mb} {q : Req} {s : State} : Same s (worldmapForm mb q s).2 := by
  unfold worldmapForm
  try dsimp only
  with_reducible repeat' first
    | apply Same.rfl
    | assumption
    | apply Same.trans (k := worldmapWriteRun_same)
    | (apply worldmapWriteRun_same_then; · assumption)
    | apply Same.guarded
    | apply Same.ite
    | split
    | intro _
    | dsimp only

theorem worldmapForm_same_then {mb : Mb} {q : Req} {s : State} {s0_ : State} {r_ : _} {s_ : State} (h_ : (worldmapForm mb q s) = (r_, s_)) (k_ : Same s0_ s) : Same s0_ s_ := by
  have j_ := k_.trans (@worldmapForm_same mb q s); rw [h_] at j_; exact j_

theorem execWorldmapWrite_same {mb : Mb} {s : State} : SameO s (execWorldmapWrite mb s) := by
  unfold execWorldmapWrite
  try dsimp only
  with_reducible repeat' first
    | apply Same.rfl
    | assumption
    | apply runCmd_same
    | apply Same.trans (k := worldmapForm_same)
    | (apply worldmapForm_same_then; · assumption)
    | apply SameO.onUnit
    | apply SameO.next
    | apply Same.guarded
    | intro _
    | dsimp only

theorem execWrap_same {ctx : Nat} {s : State} : SameO s (execWrap ctx s) := by
  unfold execWrap
  try dsimp only
  with_reducible repeat' first
    | apply Same.rfl
    | assumption
    | apply classRow_same
    | apply Same.foldl
    | apply SameO.onUnit
    | apply SameO.next
    | apply Same.ite
    | split
    | intro _
    | dsimp only

theorem execYield_same {core : Nat} {s : State} : SameO s (execYield core s) := by
  unfold execYield
  try dsimp only
  with_reducible repeat' first
    | apply Same.rfl
    | assumption
    | apply Same.trans (k := setX_same)
    | apply ecall_same
    | apply Same.trans (k := switchOut_same)
    | apply SameO.onUnit
    | apply SameO.next
    | apply Same.ite
    | split
    | intro _
    | dsimp only

theorem finishEnds_same {s : State} : Same s (finishEnds s) := by
  unfold finishEnds
  try dsimp only
  with_reducible repeat' first
    | apply Same.rfl
    | assumption
    | apply Same.trans (k := indeterminateAll_same)
    | (simp only [Same.mk]; apply Same.fold)
    | apply Same.ite
    | split
    | intro _
    | dsimp only

theorem latchedTrip_same {k : Nat} {s : State} : Same s (latchedTrip k s) := by
  unfold latchedTrip
  try dsimp only
  with_reducible repeat' first
    | apply Same.rfl
    | assumption
    | apply Same.trans (k := logPut_same)
    | apply Same.trans (k := setLkoSrc_same)
    | apply Same.trans (k := lkoRespond_same)
    | (simp only [Same.mk]; apply Same.fold)
    | apply Same.ite
    | split
    | intro _
    | dsimp only

theorem modeReached_same {s : State} : Same s (modeReached s) := by
  unfold modeReached
  try dsimp only
  with_reducible repeat' first
    | apply Same.rfl
    | assumption
    | apply Same.trans (k := countStartFail_same)
    | apply Same.trans (k := startSucceeded_same)
    | apply Same.ite
    | split
    | intro _
    | dsimp only

theorem pfGrants_same {s : State} : Same s (pfGrants s) := by
  unfold pfGrants
  try dsimp only
  with_reducible repeat' first
    | apply Same.rfl
    | assumption
    | apply Same.trans (k := setFn_same)
    | apply Same.trans (k := setAlloc_same)
    | (simp only [Same.mk]; apply Same.fold)
    | apply Same.foldl
    | intro _
    | dsimp only

theorem rebuildRoot_same {nonce : Bytes} {s : State} : Same s (rebuildRoot nonce s) := by
  unfold rebuildRoot
  try dsimp only
  with_reducible repeat' first
    | apply Same.rfl
    | assumption
    | (simp only [Same.mk]; apply Same.fold)
    | split
    | intro _
    | dsimp only

theorem setOwner_same {o : Nat} {x : Owner} {s : State} : Same s (setOwner o x s) := by
  unfold setOwner
  try dsimp only
  with_reducible repeat' first
    | apply Same.rfl
    | assumption
    | (simp only [Same.mk]; apply Same.fold)
    | intro _
    | dsimp only

theorem stageBits_same {n : Nat} {s : State} : Same s (stageBits n s).2 := by
  unfold stageBits
  try dsimp only
  with_reducible repeat' first
    | apply Same.rfl
    | assumption
    | apply Same.trans (k := takeHeart_same)
    | (apply takeHeart_same_then; · assumption)
    | apply Same.ite
    | split
    | intro _
    | dsimp only

theorem stageBits_same_then {n : Nat} {s : State} {s0_ : State} {r_ : _} {s_ : State} (h_ : (stageBits n s) = (r_, s_)) (k_ : Same s0_ s) : Same s0_ s_ := by
  have j_ := k_.trans (@stageBits_same n s); rw [h_] at j_; exact j_

theorem stageClocks_same {s : State} : Same s (stageClocks s) := by
  unfold stageClocks
  try dsimp only
  with_reducible repeat' first
    | apply Same.rfl
    | assumption
    | apply Same.trans (k := applyRec_same)
    | apply Same.trans (k := applySwap_same)
    | apply Same.trans (k := serviceStands_same)
    | (simp only [Same.mk]; apply Same.fold)
    | apply Same.foldl
    | split
    | intro _
    | dsimp only

theorem stageImages_same {s : State} {s_ : State} (h : stageImages s = some s_) {s0 : State} (k : Same s0 s) : Same s0 s_ := by
  unfold stageImages at h
  dsimp only at h
  repeat' split at h
  all_goals first
    | (cases h; exact k)
    | (cases h; exact k.trans (Same.trans (by exact Same.rfl) logCode_same))
    | cases h

theorem stageMap_same {s : State} : Same s (stageMap s) := by
  unfold stageMap
  try dsimp only
  with_reducible repeat' first
    | apply Same.rfl
    | assumption
    | apply Same.trans (k := logCode_same)
    | apply Same.trans (k := measureSet_same)
    | (simp only [Same.mk]; apply Same.fold)
    | apply Same.foldl
    | apply Same.ite
    | split
    | intro _
    | dsimp only

theorem stageWarden_same {s : State} : Same s (stageWarden s) := by
  unfold stageWarden
  try dsimp only
  with_reducible repeat' first
    | apply Same.rfl
    | assumption
    | apply Same.trans (k := measureSet_same)
    | apply Same.trans (k := capFirst_same)
    | apply Same.trans (k := recomputeWeights_same)
    | apply Same.trans (k := measureConfig_same)
    | apply Same.trans (k := measurePut_same)
    | apply Same.trans (k := pfGrants_same)
    | (simp only [Same.mk]; apply Same.fold)
    | apply Same.ite
    | split
    | intro _
    | dsimp only

end Sys2Proof.Machine
end

