-- ==== Sys2Proof/Laws/Beside.lean ====
section
/-! SUPPORT. The operations that answer, report and settle touch only the service cores, the fault counts, the host side, the log, the mode, the mailboxes and the key-change windows. -/

namespace Sys2Proof.Machine

/-- Everything else. -/
def beside (s : State) := (s.pending, s.free, s.us, s.start, s.ident, s.lc, s.lko, s.commit, s.meter, s.pwr, s.vault, s.store, s.cust, s.units, s.world, s.allocs, s.eth, s.ctxs)

/-- It is the same in two states. -/
def Beside (s t : State) : Prop := beside t = beside s

theorem Beside.rfl {s : State} : Beside s s := Eq.refl _

theorem Beside.trans {s t u : State} (h : Beside s t) (k : Beside t u) : Beside s u := Eq.trans k h

theorem Beside.foldl {α : Type} {s x : State} {g : State → α → State} {l : List α} (h : ∀ s a, Beside s (g s a)) (k : Beside s x) :
    Beside s (l.foldl g x) := by
  induction l generalizing x with
  | nil => exact k
  | cons a r ih => exact ih (k.trans (h x a))

theorem Beside.mk {s : State} {a0 a1 a2 a3 a4 a5 a6 a7 a8 a9 a10 a11 a12 a13 a14 a15 a16 a17 a18 a19 a20 a21 a22 a23 a24} : Beside s (State.mk a0 a1 a2 a3 a4 a5 a6 a7 a8 a9 a10 a11 a12 a13 a14 a15 a16 a17 a18 a19 a20 a21 a22 a23 a24) = ((a0, a1, a2, a4, a5, a6, a7, a9, a11, a12, a13, a14, a15, a16, a17, a18, a20, a23) = beside s) := Eq.refl _

theorem Beside.fold {s x : State} (h : Beside s x) : (x.pending, x.free, x.us, x.start, x.ident, x.lc, x.lko, x.commit, x.meter, x.pwr, x.vault, x.store, x.cust, x.units, x.world, x.allocs, x.eth, x.ctxs) = beside s := h

theorem Beside.ite {s x y : State} {c : Prop} [Decidable c] (h : Beside s x) (k : Beside s y) : Beside s (if c then x else y) := by
  split
  · exact h
  · exact k

theorem setFn_beside {f : Fn} {x : FnState} {s : State} : Beside s (setFn f x s) := by
  unfold setFn
  try dsimp only
  with_reducible repeat' first
    | apply Beside.rfl
    | assumption
    | (simp only [Beside.mk]; apply Beside.fold)
    | intro _
    | dsimp only

theorem sendVec_beside {f : Fn} {v : Nat} {s : State} : Beside s (sendVec f v s) := by
  unfold sendVec
  try dsimp only
  with_reducible repeat' first
    | apply Beside.rfl
    | assumption
    | apply Beside.trans (k := setFn_beside)
    | (simp only [Beside.mk]; apply Beside.fold)
    | apply Beside.ite
    | split
    | intro _
    | dsimp only

theorem raiseEvent_beside {f : Fn} {bit : Nat} {s : State} : Beside s (raiseEvent f bit s) := by
  unfold raiseEvent
  try dsimp only
  with_reducible repeat' first
    | apply Beside.rfl
    | assumption
    | apply Beside.trans (k := setFn_beside)
    | apply Beside.trans (k := sendVec_beside)
    | (simp only [Beside.mk]; apply Beside.fold)
    | apply Beside.ite
    | split
    | intro _
    | dsimp only

theorem eventAllPfs_beside {bit : Nat} {s : State} : Beside s (eventAllPfs bit s) := by
  unfold eventAllPfs
  try dsimp only
  with_reducible repeat' first
    | apply Beside.rfl
    | assumption
    | apply Beside.trans (k := raiseEvent_beside)
    | apply Beside.foldl
    | intro _
    | dsimp only

theorem eventAllVfs_beside {bit : Nat} {s : State} : Beside s (eventAllVfs bit s) := by
  unfold eventAllVfs
  try dsimp only
  with_reducible repeat' first
    | apply Beside.rfl
    | assumption
    | apply Beside.trans (k := raiseEvent_beside)
    | apply Beside.foldl
    | intro _
    | dsimp only

theorem logPut_beside {r : LogRec} {s : State} : Beside s (logPut r s) := by
  unfold logPut
  try dsimp only
  with_reducible repeat' first
    | apply Beside.rfl
    | assumption
    | (simp only [Beside.mk]; apply Beside.fold)
    | apply Beside.ite
    | split
    | intro _
    | dsimp only

theorem logCode_beside {code : Nat} {origin : Nat} {arg : List (Nat × Nat × Nat)} {s : State} : Beside s (logCode code origin arg s) := by
  unfold logCode
  try dsimp only
  with_reducible repeat' first
    | apply Beside.rfl
    | assumption
    | apply Beside.trans (k := logPut_beside)
    | intro _
    | dsimp only

theorem notifyApplets_beside {k : NoteKind} {arg0 : Nat} {s : State} : Beside s (notifyApplets k arg0 s) := by
  unfold notifyApplets
  try dsimp only
  with_reducible repeat' first
    | apply Beside.rfl
    | assumption
    | (simp only [Beside.mk]; apply Beside.fold)
    | apply Beside.ite
    | split
    | intro _
    | dsimp only

theorem changeMode_beside {m : Nat} {s : State} : Beside s (changeMode m s) := by
  unfold changeMode
  try dsimp only
  with_reducible repeat' first
    | apply Beside.rfl
    | assumption
    | apply Beside.trans (k := eventAllPfs_beside)
    | apply Beside.trans (k := eventAllVfs_beside)
    | apply Beside.trans (k := logCode_beside)
    | apply Beside.trans (k := notifyApplets_beside)
    | (simp only [Beside.mk]; apply Beside.fold)
    | split
    | intro _
    | dsimp only

theorem refreshMode_beside {s : State} : Beside s (refreshMode s) := by
  unfold refreshMode
  try dsimp only
  with_reducible repeat' first
    | apply Beside.rfl
    | assumption
    | apply Beside.trans (k := changeMode_beside)
    | apply Beside.ite
    | split
    | intro _
    | dsimp only

theorem commandRec_beside {code : Nat} {mb : Mb} {op : Nat} {status : Nat} {agent : Nat} {s : State} : Beside s (commandRec code mb op status agent s) := by
  unfold commandRec
  try dsimp only
  with_reducible repeat' first
    | apply Beside.rfl
    | assumption
    | apply Beside.trans (k := logCode_beside)
    | split
    | intro _
    | dsimp only

theorem setMb_beside {mb : Mb} {b : Mbox} {s : State} : Beside s (setMb mb b s) := by
  unfold setMb
  try dsimp only
  with_reducible repeat' first
    | apply Beside.rfl
    | assumption
    | (simp only [Beside.mk]; apply Beside.fold)
    | intro _
    | dsimp only

theorem postResp_beside {mb : Mb} {bytes : Bytes} {s : State} : Beside s (postResp mb bytes s) := by
  unfold postResp
  try dsimp only
  with_reducible repeat' first
    | apply Beside.rfl
    | assumption
    | apply Beside.trans (k := sendVec_beside)
    | apply Beside.trans (k := setMb_beside)
    | (simp only [Beside.mk]; apply Beside.fold)
    | intro _
    | dsimp only

theorem countFault_beside {cls : Nat} {s : State} : Beside s (countFault cls s) := by
  unfold countFault
  try dsimp only
  with_reducible repeat' first
    | apply Beside.rfl
    | assumption
    | (simp only [Beside.mk]; apply Beside.fold)
    | intro _
    | dsimp only

theorem lastFault_beside {src : Nat} {cls : Nat} {inj : Bool} {unit : Nat} {s : State} : Beside s (lastFault src cls inj unit s) := by
  unfold lastFault
  try dsimp only
  with_reducible repeat' first
    | apply Beside.rfl
    | assumption
    | (simp only [Beside.mk]; apply Beside.fold)
    | intro _
    | dsimp only

theorem setCore_beside {c : Nat} {x : Core} {s : State} : Beside s (setCore c x s) := by
  unfold setCore
  try dsimp only
  with_reducible repeat' first
    | apply Beside.rfl
    | assumption
    | (simp only [Beside.mk]; apply Beside.fold)
    | intro _
    | dsimp only

theorem faultRec_beside {code : Nat} {src : Nat} {unit : Nat} {inj : Bool} {arg : List (Nat × Nat × Nat)} {s : State} : Beside s (faultRec code src unit inj arg s) := by
  unfold faultRec
  try dsimp only
  with_reducible repeat' first
    | apply Beside.rfl
    | assumption
    | apply Beside.trans (k := logPut_beside)
    | (simp only [Beside.mk]; apply Beside.fold)
    | split
    | intro _
    | dsimp only

theorem correctedReport_beside {src : Nat} {unit : Nat} {inj : Bool} {s : State} : Beside s (correctedReport src unit inj s) := by
  unfold correctedReport
  try dsimp only
  with_reducible repeat' first
    | apply Beside.rfl
    | assumption
    | apply Beside.trans (k := countFault_beside)
    | apply Beside.trans (k := faultRec_beside)
    | intro _
    | dsimp only

theorem vecAllPfs_beside {v : Nat} {s : State} : Beside s (vecAllPfs v s) := by
  unfold vecAllPfs
  try dsimp only
  with_reducible repeat' first
    | apply Beside.rfl
    | assumption
    | apply Beside.trans (k := sendVec_beside)
    | apply Beside.foldl
    | intro _
    | dsimp only

theorem serviceReport_beside {src : Nat} {unit : Nat} {inj : Bool} {s : State} : Beside s (serviceReport src unit inj s) := by
  unfold serviceReport
  try dsimp only
  with_reducible repeat' first
    | apply Beside.rfl
    | assumption
    | apply Beside.trans (k := refreshMode_beside)
    | apply Beside.trans (k := countFault_beside)
    | apply Beside.trans (k := lastFault_beside)
    | apply Beside.trans (k := faultRec_beside)
    | apply Beside.trans (k := vecAllPfs_beside)
    | (simp only [Beside.mk]; apply Beside.fold)
    | split
    | intro _
    | dsimp only

theorem setQ_beside {k : Nat} {q : Queue} {s : State} : Beside s (setQ k q s) := by
  unfold setQ
  try dsimp only
  with_reducible repeat' first
    | apply Beside.rfl
    | assumption
    | (simp only [Beside.mk]; apply Beside.fold)
    | intro _
    | dsimp only

theorem holdMb_beside {mb : Mb} {reqId : Nat} {w : MbWait} {s : State} : Beside s (holdMb mb reqId w s) := by
  unfold holdMb
  try dsimp only
  with_reducible repeat' first
    | apply Beside.rfl
    | assumption
    | apply Beside.trans (k := setMb_beside)
    | (simp only [Beside.mk]; apply Beside.fold)
    | split
    | intro _
    | dsimp only

theorem modApplet_beside {inst : Nat} {f : Applet → Applet} {s : State} : Beside s (modApplet inst f s) := by
  unfold modApplet
  try dsimp only
  with_reducible repeat' first
    | apply Beside.rfl
    | assumption
    | (simp only [Beside.mk]; apply Beside.fold)
    | intro _
    | dsimp only

theorem setX_beside {core : Nat} {r : Nat} {v : DWord} {s : State} : Beside s (setX core r v s) := by
  unfold setX
  try dsimp only
  with_reducible repeat' first
    | apply Beside.rfl
    | assumption
    | apply Beside.trans (k := setCore_beside)
    | (simp only [Beside.mk]; apply Beside.fold)
    | apply Beside.ite
    | split
    | intro _
    | dsimp only

theorem hostWrite_beside {a : Nat} {d : Bytes} {s : State} : Beside s (hostWrite a d s) := by
  unfold hostWrite
  try dsimp only
  with_reducible repeat' first
    | apply Beside.rfl
    | assumption
    | (simp only [Beside.mk]; apply Beside.fold)
    | intro _
    | dsimp only

theorem serviceClear_beside {kind : Nat} {s : State} : Beside s (serviceClear kind s) := by
  unfold serviceClear
  try dsimp only
  with_reducible repeat' first
    | apply Beside.rfl
    | assumption
    | (simp only [Beside.mk]; apply Beside.fold)
    | intro _
    | dsimp only

theorem serviceStands_beside {src : Nat} {cond : Bool} {s : State} : Beside s (serviceStands src cond s) := by
  unfold serviceStands
  try dsimp only
  with_reducible repeat' first
    | apply Beside.rfl
    | assumption
    | apply Beside.trans (k := serviceReport_beside)
    | apply Beside.ite
    | split
    | intro _
    | dsimp only

theorem modFn_beside {f : Fn} {g : FnState → FnState} {s : State} : Beside s (modFn f g s) := by
  unfold modFn
  try dsimp only
  with_reducible repeat' first
    | apply Beside.rfl
    | assumption
    | apply Beside.trans (k := setFn_beside)
    | intro _
    | dsimp only

theorem setJring_beside {st : JrState} {s : State} : Beside s (setJring st s) := by
  unfold setJring
  try dsimp only
  with_reducible repeat' first
    | apply Beside.rfl
    | assumption
    | apply Beside.trans (k := raiseEvent_beside)
    | (simp only [Beside.mk]; apply Beside.fold)
    | apply Beside.ite
    | split
    | intro _
    | dsimp only

theorem resolveWait_beside {w : MbWait} {s : State} {r : Resp} {s_ : State} (h : resolveWait w s = some (r, s_)) {s0 : State} (k : Beside s0 s) : Beside s0 s_ := by
  unfold resolveWait at h
  dsimp only at h
  repeat' split at h
  all_goals first
    | (cases h; exact k)
    | cases h

theorem notifyOwner_beside {k : NoteKind} {o : Nat} {s : State} : Beside s (notifyOwner k o s) := by
  unfold notifyOwner
  try dsimp only
  with_reducible repeat' first
    | apply Beside.rfl
    | assumption
    | (simp only [Beside.mk]; apply Beside.fold)
    | apply Beside.ite
    | split
    | intro _
    | dsimp only

theorem setKcw_beside {w : Nat} {k : Kcw} {s : State} : Beside s (setKcw w k s) := by
  unfold setKcw
  try dsimp only
  with_reducible repeat' first
    | apply Beside.rfl
    | assumption
    | (simp only [Beside.mk]; apply Beside.fold)
    | intro _
    | dsimp only

/-- Everything else but the stands. -/
def besideQ (s : State) := (s.pending, s.free, s.us, s.start, s.ident, s.lc, s.lko, s.commit, s.meter, s.pwr, s.vault, s.store, s.cust, ({ s.units with stands := [] } : Units), s.world, s.allocs, s.eth, s.ctxs)

/-- It is the same in two states. -/
def BesideQ (s t : State) : Prop := besideQ t = besideQ s

theorem BesideQ.rfl {s : State} : BesideQ s s := Eq.refl _

theorem BesideQ.trans {s t u : State} (h : BesideQ s t) (k : BesideQ t u) : BesideQ s u := Eq.trans k h

theorem BesideQ.foldl {α : Type} {s x : State} {g : State → α → State} {l : List α} (h : ∀ s a, BesideQ s (g s a)) (k : BesideQ s x) :
    BesideQ s (l.foldl g x) := by
  induction l generalizing x with
  | nil => exact k
  | cons a r ih => exact ih (k.trans (h x a))

theorem BesideQ.mk {s : State} {a0 a1 a2 a3 a4 a5 a6 a7 a8 a9 a10 a11 a12 a13 a14 a15 a16 a17 a18 a19 a20 a21 a22 a23 a24} : BesideQ s (State.mk a0 a1 a2 a3 a4 a5 a6 a7 a8 a9 a10 a11 a12 a13 a14 a15 a16 a17 a18 a19 a20 a21 a22 a23 a24) = ((a0, a1, a2, a4, a5, a6, a7, a9, a11, a12, a13, a14, a15, ({ a16 with stands := [] } : Units), a17, a18, a20, a23) = besideQ s) := Eq.refl _

theorem BesideQ.fold {s x : State} (h : BesideQ s x) : (x.pending, x.free, x.us, x.start, x.ident, x.lc, x.lko, x.commit, x.meter, x.pwr, x.vault, x.store, x.cust, ({ x.units with stands := [] } : Units), x.world, x.allocs, x.eth, x.ctxs) = besideQ s := h

theorem BesideQ.ite {s x y : State} {c : Prop} [Decidable c] (h : BesideQ s x) (k : BesideQ s y) : BesideQ s (if c then x else y) := by
  split
  · exact h
  · exact k

theorem Beside.weak {s t : State} (h : Beside s t) : BesideQ s t := by
  have k := congrArg (fun p => (p.1, p.2.1, p.2.2.1, p.2.2.2.1, p.2.2.2.2.1, p.2.2.2.2.2.1, p.2.2.2.2.2.2.1, p.2.2.2.2.2.2.2.1, p.2.2.2.2.2.2.2.2.1, p.2.2.2.2.2.2.2.2.2.1, p.2.2.2.2.2.2.2.2.2.2.1, p.2.2.2.2.2.2.2.2.2.2.2.1, p.2.2.2.2.2.2.2.2.2.2.2.2.1, ({ p.2.2.2.2.2.2.2.2.2.2.2.2.2.1 with stands := [] } : Units), p.2.2.2.2.2.2.2.2.2.2.2.2.2.2.1, p.2.2.2.2.2.2.2.2.2.2.2.2.2.2.2.1, p.2.2.2.2.2.2.2.2.2.2.2.2.2.2.2.2.1, p.2.2.2.2.2.2.2.2.2.2.2.2.2.2.2.2.2)) h
  exact k


theorem resolveWait_besideq {w : MbWait} {s : State} {r : Resp} {s_ : State} (h : resolveWait w s = some (r, s_)) {s0 : State} (k : BesideQ s0 s) : BesideQ s0 s_ := by
  unfold resolveWait at h
  dsimp only at h
  repeat' split at h
  all_goals first
    | (cases h; exact k)
    | cases h

theorem hucDrop_besideq {r : HucSrc} {s : State} : BesideQ s (hucDrop r s) := by
  unfold hucDrop
  try dsimp only
  with_reducible repeat' first
    | apply BesideQ.rfl
    | assumption
    | (simp only [BesideQ.mk]; apply BesideQ.fold)
    | intro _
    | dsimp only

theorem endJob_besideq {mb : Mb} {s : State} : BesideQ s (endJob mb s) := by
  unfold endJob
  try dsimp only
  with_reducible repeat' first
    | apply BesideQ.rfl
    | assumption
    | apply BesideQ.trans (k := hucDrop_besideq)
    | apply BesideQ.trans (k := (setMb_beside).weak)
    | (simp only [BesideQ.mk]; apply BesideQ.fold)
    | apply BesideQ.ite
    | split
    | intro _
    | dsimp only

theorem finishMb_besideq {mb : Mb} {r : Resp} {s : State} : BesideQ s (finishMb mb r s) := by
  unfold finishMb
  try dsimp only
  with_reducible repeat' first
    | apply BesideQ.rfl
    | assumption
    | apply BesideQ.trans (k := (commandRec_beside).weak)
    | apply BesideQ.trans (k := (setMb_beside).weak)
    | apply BesideQ.trans (k := endJob_besideq)
    | apply BesideQ.trans (k := (postResp_beside).weak)
    | (simp only [BesideQ.mk]; apply BesideQ.fold)
    | apply BesideQ.ite
    | split
    | intro _
    | dsimp only

theorem deliver_besideq {mb : Mb} {op : Nat} {waits : MbWait → Bool} {a : Resp} {s : State} : BesideQ s (deliver mb op waits a s) := by
  unfold deliver
  try dsimp only
  with_reducible repeat' first
    | apply BesideQ.rfl
    | assumption
    | apply BesideQ.trans (k := (setMb_beside).weak)
    | apply BesideQ.trans (k := finishMb_besideq)
    | (simp only [BesideQ.mk]; apply BesideQ.fold)
    | apply BesideQ.ite
    | split
    | intro _
    | dsimp only

theorem settleWaits_besideq {s : State} : BesideQ s (settleWaits s) := by
  unfold settleWaits
  try dsimp only
  with_reducible repeat' first
    | apply BesideQ.rfl
    | assumption
    | apply BesideQ.trans (k := finishMb_besideq)
    | (apply resolveWait_besideq; · assumption)
    | apply BesideQ.foldl
    | apply BesideQ.ite
    | split
    | intro _
    | dsimp only

theorem windowDone_besideq {w : Nat} {k : Kcw} {s : State} : BesideQ s (windowDone w k s) := by
  unfold windowDone
  try dsimp only
  with_reducible repeat' first
    | apply BesideQ.rfl
    | assumption
    | apply BesideQ.trans (k := deliver_besideq)
    | (simp only [BesideQ.mk]; apply BesideQ.fold)
    | apply BesideQ.foldl
    | apply BesideQ.ite
    | split
    | intro _
    | dsimp only

theorem windowsSettle_besideq {s : State} : BesideQ s (windowsSettle s) := by
  unfold windowsSettle
  try dsimp only
  with_reducible repeat' first
    | apply BesideQ.rfl
    | assumption
    | apply BesideQ.trans (k := windowDone_besideq)
    | apply BesideQ.foldl
    | apply BesideQ.ite
    | split
    | intro _
    | dsimp only

@[simp] theorem refreshMode_pending (s : State) : (refreshMode s).pending = s.pending := congrArg (fun p => p.1) (refreshMode_beside : Beside s (refreshMode s))
@[simp] theorem refreshMode_free (s : State) : (refreshMode s).free = s.free := congrArg (fun p => p.2.1) (refreshMode_beside : Beside s (refreshMode s))
@[simp] theorem refreshMode_us (s : State) : (refreshMode s).us = s.us := congrArg (fun p => p.2.2.1) (refreshMode_beside : Beside s (refreshMode s))
@[simp] theorem refreshMode_start (s : State) : (refreshMode s).start = s.start := congrArg (fun p => p.2.2.2.1) (refreshMode_beside : Beside s (refreshMode s))
@[simp] theorem refreshMode_ident (s : State) : (refreshMode s).ident = s.ident := congrArg (fun p => p.2.2.2.2.1) (refreshMode_beside : Beside s (refreshMode s))
@[simp] theorem refreshMode_lc (s : State) : (refreshMode s).lc = s.lc := congrArg (fun p => p.2.2.2.2.2.1) (refreshMode_beside : Beside s (refreshMode s))
@[simp] theorem refreshMode_lko (s : State) : (refreshMode s).lko = s.lko := congrArg (fun p => p.2.2.2.2.2.2.1) (refreshMode_beside : Beside s (refreshMode s))
@[simp] theorem refreshMode_commit (s : State) : (refreshMode s).commit = s.commit := congrArg (fun p => p.2.2.2.2.2.2.2.1) (refreshMode_beside : Beside s (refreshMode s))
@[simp] theorem refreshMode_meter (s : State) : (refreshMode s).meter = s.meter := congrArg (fun p => p.2.2.2.2.2.2.2.2.1) (refreshMode_beside : Beside s (refreshMode s))
@[simp] theorem refreshMode_pwr (s : State) : (refreshMode s).pwr = s.pwr := congrArg (fun p => p.2.2.2.2.2.2.2.2.2.1) (refreshMode_beside : Beside s (refreshMode s))
@[simp] theorem refreshMode_vault (s : State) : (refreshMode s).vault = s.vault := congrArg (fun p => p.2.2.2.2.2.2.2.2.2.2.1) (refreshMode_beside : Beside s (refreshMode s))
@[simp] theorem refreshMode_store (s : State) : (refreshMode s).store = s.store := congrArg (fun p => p.2.2.2.2.2.2.2.2.2.2.2.1) (refreshMode_beside : Beside s (refreshMode s))
@[simp] theorem refreshMode_cust (s : State) : (refreshMode s).cust = s.cust := congrArg (fun p => p.2.2.2.2.2.2.2.2.2.2.2.2.1) (refreshMode_beside : Beside s (refreshMode s))
@[simp] theorem refreshMode_units (s : State) : (refreshMode s).units = s.units := congrArg (fun p => p.2.2.2.2.2.2.2.2.2.2.2.2.2.1) (refreshMode_beside : Beside s (refreshMode s))
@[simp] theorem refreshMode_world (s : State) : (refreshMode s).world = s.world := congrArg (fun p => p.2.2.2.2.2.2.2.2.2.2.2.2.2.2.1) (refreshMode_beside : Beside s (refreshMode s))
@[simp] theorem refreshMode_allocs (s : State) : (refreshMode s).allocs = s.allocs := congrArg (fun p => p.2.2.2.2.2.2.2.2.2.2.2.2.2.2.2.1) (refreshMode_beside : Beside s (refreshMode s))
@[simp] theorem refreshMode_eth (s : State) : (refreshMode s).eth = s.eth := congrArg (fun p => p.2.2.2.2.2.2.2.2.2.2.2.2.2.2.2.2.1) (refreshMode_beside : Beside s (refreshMode s))
@[simp] theorem refreshMode_ctxs (s : State) : (refreshMode s).ctxs = s.ctxs := congrArg (fun p => p.2.2.2.2.2.2.2.2.2.2.2.2.2.2.2.2.2) (refreshMode_beside : Beside s (refreshMode s))

@[simp] theorem serviceStands_pending (src : Nat) (cond : Bool) (s : State) : (serviceStands src cond s).pending = s.pending := congrArg (fun p => p.1) (serviceStands_beside : Beside s (serviceStands src cond s))
@[simp] theorem serviceStands_free (src : Nat) (cond : Bool) (s : State) : (serviceStands src cond s).free = s.free := congrArg (fun p => p.2.1) (serviceStands_beside : Beside s (serviceStands src cond s))
@[simp] theorem serviceStands_us (src : Nat) (cond : Bool) (s : State) : (serviceStands src cond s).us = s.us := congrArg (fun p => p.2.2.1) (serviceStands_beside : Beside s (serviceStands src cond s))
@[simp] theorem serviceStands_start (src : Nat) (cond : Bool) (s : State) : (serviceStands src cond s).start = s.start := congrArg (fun p => p.2.2.2.1) (serviceStands_beside : Beside s (serviceStands src cond s))
@[simp] theorem serviceStands_ident (src : Nat) (cond : Bool) (s : State) : (serviceStands src cond s).ident = s.ident := congrArg (fun p => p.2.2.2.2.1) (serviceStands_beside : Beside s (serviceStands src cond s))
@[simp] theorem serviceStands_lc (src : Nat) (cond : Bool) (s : State) : (serviceStands src cond s).lc = s.lc := congrArg (fun p => p.2.2.2.2.2.1) (serviceStands_beside : Beside s (serviceStands src cond s))
@[simp] theorem serviceStands_lko (src : Nat) (cond : Bool) (s : State) : (serviceStands src cond s).lko = s.lko := congrArg (fun p => p.2.2.2.2.2.2.1) (serviceStands_beside : Beside s (serviceStands src cond s))
@[simp] theorem serviceStands_commit (src : Nat) (cond : Bool) (s : State) : (serviceStands src cond s).commit = s.commit := congrArg (fun p => p.2.2.2.2.2.2.2.1) (serviceStands_beside : Beside s (serviceStands src cond s))
@[simp] theorem serviceStands_meter (src : Nat) (cond : Bool) (s : State) : (serviceStands src cond s).meter = s.meter := congrArg (fun p => p.2.2.2.2.2.2.2.2.1) (serviceStands_beside : Beside s (serviceStands src cond s))
@[simp] theorem serviceStands_pwr (src : Nat) (cond : Bool) (s : State) : (serviceStands src cond s).pwr = s.pwr := congrArg (fun p => p.2.2.2.2.2.2.2.2.2.1) (serviceStands_beside : Beside s (serviceStands src cond s))
@[simp] theorem serviceStands_vault (src : Nat) (cond : Bool) (s : State) : (serviceStands src cond s).vault = s.vault := congrArg (fun p => p.2.2.2.2.2.2.2.2.2.2.1) (serviceStands_beside : Beside s (serviceStands src cond s))
@[simp] theorem serviceStands_store (src : Nat) (cond : Bool) (s : State) : (serviceStands src cond s).store = s.store := congrArg (fun p => p.2.2.2.2.2.2.2.2.2.2.2.1) (serviceStands_beside : Beside s (serviceStands src cond s))
@[simp] theorem serviceStands_cust (src : Nat) (cond : Bool) (s : State) : (serviceStands src cond s).cust = s.cust := congrArg (fun p => p.2.2.2.2.2.2.2.2.2.2.2.2.1) (serviceStands_beside : Beside s (serviceStands src cond s))
@[simp] theorem serviceStands_units (src : Nat) (cond : Bool) (s : State) : (serviceStands src cond s).units = s.units := congrArg (fun p => p.2.2.2.2.2.2.2.2.2.2.2.2.2.1) (serviceStands_beside : Beside s (serviceStands src cond s))
@[simp] theorem serviceStands_world (src : Nat) (cond : Bool) (s : State) : (serviceStands src cond s).world = s.world := congrArg (fun p => p.2.2.2.2.2.2.2.2.2.2.2.2.2.2.1) (serviceStands_beside : Beside s (serviceStands src cond s))
@[simp] theorem serviceStands_allocs (src : Nat) (cond : Bool) (s : State) : (serviceStands src cond s).allocs = s.allocs := congrArg (fun p => p.2.2.2.2.2.2.2.2.2.2.2.2.2.2.2.1) (serviceStands_beside : Beside s (serviceStands src cond s))
@[simp] theorem serviceStands_eth (src : Nat) (cond : Bool) (s : State) : (serviceStands src cond s).eth = s.eth := congrArg (fun p => p.2.2.2.2.2.2.2.2.2.2.2.2.2.2.2.2.1) (serviceStands_beside : Beside s (serviceStands src cond s))
@[simp] theorem serviceStands_ctxs (src : Nat) (cond : Bool) (s : State) : (serviceStands src cond s).ctxs = s.ctxs := congrArg (fun p => p.2.2.2.2.2.2.2.2.2.2.2.2.2.2.2.2.2) (serviceStands_beside : Beside s (serviceStands src cond s))

@[simp] theorem serviceReport_pending (src : Nat) (unit : Nat) (inj : Bool) (s : State) : (serviceReport src unit inj s).pending = s.pending := congrArg (fun p => p.1) (serviceReport_beside : Beside s (serviceReport src unit inj s))
@[simp] theorem serviceReport_free (src : Nat) (unit : Nat) (inj : Bool) (s : State) : (serviceReport src unit inj s).free = s.free := congrArg (fun p => p.2.1) (serviceReport_beside : Beside s (serviceReport src unit inj s))
@[simp] theorem serviceReport_us (src : Nat) (unit : Nat) (inj : Bool) (s : State) : (serviceReport src unit inj s).us = s.us := congrArg (fun p => p.2.2.1) (serviceReport_beside : Beside s (serviceReport src unit inj s))
@[simp] theorem serviceReport_start (src : Nat) (unit : Nat) (inj : Bool) (s : State) : (serviceReport src unit inj s).start = s.start := congrArg (fun p => p.2.2.2.1) (serviceReport_beside : Beside s (serviceReport src unit inj s))
@[simp] theorem serviceReport_ident (src : Nat) (unit : Nat) (inj : Bool) (s : State) : (serviceReport src unit inj s).ident = s.ident := congrArg (fun p => p.2.2.2.2.1) (serviceReport_beside : Beside s (serviceReport src unit inj s))
@[simp] theorem serviceReport_lc (src : Nat) (unit : Nat) (inj : Bool) (s : State) : (serviceReport src unit inj s).lc = s.lc := congrArg (fun p => p.2.2.2.2.2.1) (serviceReport_beside : Beside s (serviceReport src unit inj s))
@[simp] theorem serviceReport_lko (src : Nat) (unit : Nat) (inj : Bool) (s : State) : (serviceReport src unit inj s).lko = s.lko := congrArg (fun p => p.2.2.2.2.2.2.1) (serviceReport_beside : Beside s (serviceReport src unit inj s))
@[simp] theorem serviceReport_commit (src : Nat) (unit : Nat) (inj : Bool) (s : State) : (serviceReport src unit inj s).commit = s.commit := congrArg (fun p => p.2.2.2.2.2.2.2.1) (serviceReport_beside : Beside s (serviceReport src unit inj s))
@[simp] theorem serviceReport_meter (src : Nat) (unit : Nat) (inj : Bool) (s : State) : (serviceReport src unit inj s).meter = s.meter := congrArg (fun p => p.2.2.2.2.2.2.2.2.1) (serviceReport_beside : Beside s (serviceReport src unit inj s))
@[simp] theorem serviceReport_pwr (src : Nat) (unit : Nat) (inj : Bool) (s : State) : (serviceReport src unit inj s).pwr = s.pwr := congrArg (fun p => p.2.2.2.2.2.2.2.2.2.1) (serviceReport_beside : Beside s (serviceReport src unit inj s))
@[simp] theorem serviceReport_vault (src : Nat) (unit : Nat) (inj : Bool) (s : State) : (serviceReport src unit inj s).vault = s.vault := congrArg (fun p => p.2.2.2.2.2.2.2.2.2.2.1) (serviceReport_beside : Beside s (serviceReport src unit inj s))
@[simp] theorem serviceReport_store (src : Nat) (unit : Nat) (inj : Bool) (s : State) : (serviceReport src unit inj s).store = s.store := congrArg (fun p => p.2.2.2.2.2.2.2.2.2.2.2.1) (serviceReport_beside : Beside s (serviceReport src unit inj s))
@[simp] theorem serviceReport_cust (src : Nat) (unit : Nat) (inj : Bool) (s : State) : (serviceReport src unit inj s).cust = s.cust := congrArg (fun p => p.2.2.2.2.2.2.2.2.2.2.2.2.1) (serviceReport_beside : Beside s (serviceReport src unit inj s))
@[simp] theorem serviceReport_units (src : Nat) (unit : Nat) (inj : Bool) (s : State) : (serviceReport src unit inj s).units = s.units := congrArg (fun p => p.2.2.2.2.2.2.2.2.2.2.2.2.2.1) (serviceReport_beside : Beside s (serviceReport src unit inj s))
@[simp] theorem serviceReport_world (src : Nat) (unit : Nat) (inj : Bool) (s : State) : (serviceReport src unit inj s).world = s.world := congrArg (fun p => p.2.2.2.2.2.2.2.2.2.2.2.2.2.2.1) (serviceReport_beside : Beside s (serviceReport src unit inj s))
@[simp] theorem serviceReport_allocs (src : Nat) (unit : Nat) (inj : Bool) (s : State) : (serviceReport src unit inj s).allocs = s.allocs := congrArg (fun p => p.2.2.2.2.2.2.2.2.2.2.2.2.2.2.2.1) (serviceReport_beside : Beside s (serviceReport src unit inj s))
@[simp] theorem serviceReport_eth (src : Nat) (unit : Nat) (inj : Bool) (s : State) : (serviceReport src unit inj s).eth = s.eth := congrArg (fun p => p.2.2.2.2.2.2.2.2.2.2.2.2.2.2.2.2.1) (serviceReport_beside : Beside s (serviceReport src unit inj s))
@[simp] theorem serviceReport_ctxs (src : Nat) (unit : Nat) (inj : Bool) (s : State) : (serviceReport src unit inj s).ctxs = s.ctxs := congrArg (fun p => p.2.2.2.2.2.2.2.2.2.2.2.2.2.2.2.2.2) (serviceReport_beside : Beside s (serviceReport src unit inj s))

@[simp] theorem correctedReport_pending (src : Nat) (unit : Nat) (inj : Bool) (s : State) : (correctedReport src unit inj s).pending = s.pending := congrArg (fun p => p.1) (correctedReport_beside : Beside s (correctedReport src unit inj s))
@[simp] theorem correctedReport_free (src : Nat) (unit : Nat) (inj : Bool) (s : State) : (correctedReport src unit inj s).free = s.free := congrArg (fun p => p.2.1) (correctedReport_beside : Beside s (correctedReport src unit inj s))
@[simp] theorem correctedReport_us (src : Nat) (unit : Nat) (inj : Bool) (s : State) : (correctedReport src unit inj s).us = s.us := congrArg (fun p => p.2.2.1) (correctedReport_beside : Beside s (correctedReport src unit inj s))
@[simp] theorem correctedReport_start (src : Nat) (unit : Nat) (inj : Bool) (s : State) : (correctedReport src unit inj s).start = s.start := congrArg (fun p => p.2.2.2.1) (correctedReport_beside : Beside s (correctedReport src unit inj s))
@[simp] theorem correctedReport_ident (src : Nat) (unit : Nat) (inj : Bool) (s : State) : (correctedReport src unit inj s).ident = s.ident := congrArg (fun p => p.2.2.2.2.1) (correctedReport_beside : Beside s (correctedReport src unit inj s))
@[simp] theorem correctedReport_lc (src : Nat) (unit : Nat) (inj : Bool) (s : State) : (correctedReport src unit inj s).lc = s.lc := congrArg (fun p => p.2.2.2.2.2.1) (correctedReport_beside : Beside s (correctedReport src unit inj s))
@[simp] theorem correctedReport_lko (src : Nat) (unit : Nat) (inj : Bool) (s : State) : (correctedReport src unit inj s).lko = s.lko := congrArg (fun p => p.2.2.2.2.2.2.1) (correctedReport_beside : Beside s (correctedReport src unit inj s))
@[simp] theorem correctedReport_commit (src : Nat) (unit : Nat) (inj : Bool) (s : State) : (correctedReport src unit inj s).commit = s.commit := congrArg (fun p => p.2.2.2.2.2.2.2.1) (correctedReport_beside : Beside s (correctedReport src unit inj s))
@[simp] theorem correctedReport_meter (src : Nat) (unit : Nat) (inj : Bool) (s : State) : (correctedReport src unit inj s).meter = s.meter := congrArg (fun p => p.2.2.2.2.2.2.2.2.1) (correctedReport_beside : Beside s (correctedReport src unit inj s))
@[simp] theorem correctedReport_pwr (src : Nat) (unit : Nat) (inj : Bool) (s : State) : (correctedReport src unit inj s).pwr = s.pwr := congrArg (fun p => p.2.2.2.2.2.2.2.2.2.1) (correctedReport_beside : Beside s (correctedReport src unit inj s))
@[simp] theorem correctedReport_vault (src : Nat) (unit : Nat) (inj : Bool) (s : State) : (correctedReport src unit inj s).vault = s.vault := congrArg (fun p => p.2.2.2.2.2.2.2.2.2.2.1) (correctedReport_beside : Beside s (correctedReport src unit inj s))
@[simp] theorem correctedReport_store (src : Nat) (unit : Nat) (inj : Bool) (s : State) : (correctedReport src unit inj s).store = s.store := congrArg (fun p => p.2.2.2.2.2.2.2.2.2.2.2.1) (correctedReport_beside : Beside s (correctedReport src unit inj s))
@[simp] theorem correctedReport_cust (src : Nat) (unit : Nat) (inj : Bool) (s : State) : (correctedReport src unit inj s).cust = s.cust := congrArg (fun p => p.2.2.2.2.2.2.2.2.2.2.2.2.1) (correctedReport_beside : Beside s (correctedReport src unit inj s))
@[simp] theorem correctedReport_units (src : Nat) (unit : Nat) (inj : Bool) (s : State) : (correctedReport src unit inj s).units = s.units := congrArg (fun p => p.2.2.2.2.2.2.2.2.2.2.2.2.2.1) (correctedReport_beside : Beside s (correctedReport src unit inj s))
@[simp] theorem correctedReport_world (src : Nat) (unit : Nat) (inj : Bool) (s : State) : (correctedReport src unit inj s).world = s.world := congrArg (fun p => p.2.2.2.2.2.2.2.2.2.2.2.2.2.2.1) (correctedReport_beside : Beside s (correctedReport src unit inj s))
@[simp] theorem correctedReport_allocs (src : Nat) (unit : Nat) (inj : Bool) (s : State) : (correctedReport src unit inj s).allocs = s.allocs := congrArg (fun p => p.2.2.2.2.2.2.2.2.2.2.2.2.2.2.2.1) (correctedReport_beside : Beside s (correctedReport src unit inj s))
@[simp] theorem correctedReport_eth (src : Nat) (unit : Nat) (inj : Bool) (s : State) : (correctedReport src unit inj s).eth = s.eth := congrArg (fun p => p.2.2.2.2.2.2.2.2.2.2.2.2.2.2.2.2.1) (correctedReport_beside : Beside s (correctedReport src unit inj s))
@[simp] theorem correctedReport_ctxs (src : Nat) (unit : Nat) (inj : Bool) (s : State) : (correctedReport src unit inj s).ctxs = s.ctxs := congrArg (fun p => p.2.2.2.2.2.2.2.2.2.2.2.2.2.2.2.2.2) (correctedReport_beside : Beside s (correctedReport src unit inj s))

@[simp] theorem settleWaits_pending (s : State) : (settleWaits s).pending = s.pending := congrArg (fun p => p.1) (settleWaits_besideq : BesideQ s (settleWaits s))
@[simp] theorem settleWaits_free (s : State) : (settleWaits s).free = s.free := congrArg (fun p => p.2.1) (settleWaits_besideq : BesideQ s (settleWaits s))
@[simp] theorem settleWaits_us (s : State) : (settleWaits s).us = s.us := congrArg (fun p => p.2.2.1) (settleWaits_besideq : BesideQ s (settleWaits s))
@[simp] theorem settleWaits_start (s : State) : (settleWaits s).start = s.start := congrArg (fun p => p.2.2.2.1) (settleWaits_besideq : BesideQ s (settleWaits s))
@[simp] theorem settleWaits_ident (s : State) : (settleWaits s).ident = s.ident := congrArg (fun p => p.2.2.2.2.1) (settleWaits_besideq : BesideQ s (settleWaits s))
@[simp] theorem settleWaits_lc (s : State) : (settleWaits s).lc = s.lc := congrArg (fun p => p.2.2.2.2.2.1) (settleWaits_besideq : BesideQ s (settleWaits s))
@[simp] theorem settleWaits_lko (s : State) : (settleWaits s).lko = s.lko := congrArg (fun p => p.2.2.2.2.2.2.1) (settleWaits_besideq : BesideQ s (settleWaits s))
@[simp] theorem settleWaits_commit (s : State) : (settleWaits s).commit = s.commit := congrArg (fun p => p.2.2.2.2.2.2.2.1) (settleWaits_besideq : BesideQ s (settleWaits s))
@[simp] theorem settleWaits_meter (s : State) : (settleWaits s).meter = s.meter := congrArg (fun p => p.2.2.2.2.2.2.2.2.1) (settleWaits_besideq : BesideQ s (settleWaits s))
@[simp] theorem settleWaits_pwr (s : State) : (settleWaits s).pwr = s.pwr := congrArg (fun p => p.2.2.2.2.2.2.2.2.2.1) (settleWaits_besideq : BesideQ s (settleWaits s))
@[simp] theorem settleWaits_vault (s : State) : (settleWaits s).vault = s.vault := congrArg (fun p => p.2.2.2.2.2.2.2.2.2.2.1) (settleWaits_besideq : BesideQ s (settleWaits s))
@[simp] theorem settleWaits_store (s : State) : (settleWaits s).store = s.store := congrArg (fun p => p.2.2.2.2.2.2.2.2.2.2.2.1) (settleWaits_besideq : BesideQ s (settleWaits s))
@[simp] theorem settleWaits_cust (s : State) : (settleWaits s).cust = s.cust := congrArg (fun p => p.2.2.2.2.2.2.2.2.2.2.2.2.1) (settleWaits_besideq : BesideQ s (settleWaits s))
@[simp] theorem settleWaits_world (s : State) : (settleWaits s).world = s.world := congrArg (fun p => p.2.2.2.2.2.2.2.2.2.2.2.2.2.2.1) (settleWaits_besideq : BesideQ s (settleWaits s))
@[simp] theorem settleWaits_allocs (s : State) : (settleWaits s).allocs = s.allocs := congrArg (fun p => p.2.2.2.2.2.2.2.2.2.2.2.2.2.2.2.1) (settleWaits_besideq : BesideQ s (settleWaits s))
@[simp] theorem settleWaits_eth (s : State) : (settleWaits s).eth = s.eth := congrArg (fun p => p.2.2.2.2.2.2.2.2.2.2.2.2.2.2.2.2.1) (settleWaits_besideq : BesideQ s (settleWaits s))
@[simp] theorem settleWaits_ctxs (s : State) : (settleWaits s).ctxs = s.ctxs := congrArg (fun p => p.2.2.2.2.2.2.2.2.2.2.2.2.2.2.2.2.2) (settleWaits_besideq : BesideQ s (settleWaits s))

@[simp] theorem windowsSettle_pending (s : State) : (windowsSettle s).pending = s.pending := congrArg (fun p => p.1) (windowsSettle_besideq : BesideQ s (windowsSettle s))
@[simp] theorem windowsSettle_free (s : State) : (windowsSettle s).free = s.free := congrArg (fun p => p.2.1) (windowsSettle_besideq : BesideQ s (windowsSettle s))
@[simp] theorem windowsSettle_us (s : State) : (windowsSettle s).us = s.us := congrArg (fun p => p.2.2.1) (windowsSettle_besideq : BesideQ s (windowsSettle s))
@[simp] theorem windowsSettle_start (s : State) : (windowsSettle s).start = s.start := congrArg (fun p => p.2.2.2.1) (windowsSettle_besideq : BesideQ s (windowsSettle s))
@[simp] theorem windowsSettle_ident (s : State) : (windowsSettle s).ident = s.ident := congrArg (fun p => p.2.2.2.2.1) (windowsSettle_besideq : BesideQ s (windowsSettle s))
@[simp] theorem windowsSettle_lc (s : State) : (windowsSettle s).lc = s.lc := congrArg (fun p => p.2.2.2.2.2.1) (windowsSettle_besideq : BesideQ s (windowsSettle s))
@[simp] theorem windowsSettle_lko (s : State) : (windowsSettle s).lko = s.lko := congrArg (fun p => p.2.2.2.2.2.2.1) (windowsSettle_besideq : BesideQ s (windowsSettle s))
@[simp] theorem windowsSettle_commit (s : State) : (windowsSettle s).commit = s.commit := congrArg (fun p => p.2.2.2.2.2.2.2.1) (windowsSettle_besideq : BesideQ s (windowsSettle s))
@[simp] theorem windowsSettle_meter (s : State) : (windowsSettle s).meter = s.meter := congrArg (fun p => p.2.2.2.2.2.2.2.2.1) (windowsSettle_besideq : BesideQ s (windowsSettle s))
@[simp] theorem windowsSettle_pwr (s : State) : (windowsSettle s).pwr = s.pwr := congrArg (fun p => p.2.2.2.2.2.2.2.2.2.1) (windowsSettle_besideq : BesideQ s (windowsSettle s))
@[simp] theorem windowsSettle_vault (s : State) : (windowsSettle s).vault = s.vault := congrArg (fun p => p.2.2.2.2.2.2.2.2.2.2.1) (windowsSettle_besideq : BesideQ s (windowsSettle s))
@[simp] theorem windowsSettle_store (s : State) : (windowsSettle s).store = s.store := congrArg (fun p => p.2.2.2.2.2.2.2.2.2.2.2.1) (windowsSettle_besideq : BesideQ s (windowsSettle s))
@[simp] theorem windowsSettle_cust (s : State) : (windowsSettle s).cust = s.cust := congrArg (fun p => p.2.2.2.2.2.2.2.2.2.2.2.2.1) (windowsSettle_besideq : BesideQ s (windowsSettle s))
@[simp] theorem windowsSettle_world (s : State) : (windowsSettle s).world = s.world := congrArg (fun p => p.2.2.2.2.2.2.2.2.2.2.2.2.2.2.1) (windowsSettle_besideq : BesideQ s (windowsSettle s))
@[simp] theorem windowsSettle_allocs (s : State) : (windowsSettle s).allocs = s.allocs := congrArg (fun p => p.2.2.2.2.2.2.2.2.2.2.2.2.2.2.2.1) (windowsSettle_besideq : BesideQ s (windowsSettle s))
@[simp] theorem windowsSettle_eth (s : State) : (windowsSettle s).eth = s.eth := congrArg (fun p => p.2.2.2.2.2.2.2.2.2.2.2.2.2.2.2.2.1) (windowsSettle_besideq : BesideQ s (windowsSettle s))
@[simp] theorem windowsSettle_ctxs (s : State) : (windowsSettle s).ctxs = s.ctxs := congrArg (fun p => p.2.2.2.2.2.2.2.2.2.2.2.2.2.2.2.2.2) (windowsSettle_besideq : BesideQ s (windowsSettle s))

@[simp] theorem deliver_pending (mb : Sys2Proof.Mb) (op : Nat) (waits : MbWait → Bool) (a : Resp) (s : State) : (deliver mb op waits a s).pending = s.pending := congrArg (fun p => p.1) (deliver_besideq : BesideQ s (deliver mb op waits a s))
@[simp] theorem deliver_free (mb : Sys2Proof.Mb) (op : Nat) (waits : MbWait → Bool) (a : Resp) (s : State) : (deliver mb op waits a s).free = s.free := congrArg (fun p => p.2.1) (deliver_besideq : BesideQ s (deliver mb op waits a s))
@[simp] theorem deliver_us (mb : Sys2Proof.Mb) (op : Nat) (waits : MbWait → Bool) (a : Resp) (s : State) : (deliver mb op waits a s).us = s.us := congrArg (fun p => p.2.2.1) (deliver_besideq : BesideQ s (deliver mb op waits a s))
@[simp] theorem deliver_start (mb : Sys2Proof.Mb) (op : Nat) (waits : MbWait → Bool) (a : Resp) (s : State) : (deliver mb op waits a s).start = s.start := congrArg (fun p => p.2.2.2.1) (deliver_besideq : BesideQ s (deliver mb op waits a s))
@[simp] theorem deliver_ident (mb : Sys2Proof.Mb) (op : Nat) (waits : MbWait → Bool) (a : Resp) (s : State) : (deliver mb op waits a s).ident = s.ident := congrArg (fun p => p.2.2.2.2.1) (deliver_besideq : BesideQ s (deliver mb op waits a s))
@[simp] theorem deliver_lc (mb : Sys2Proof.Mb) (op : Nat) (waits : MbWait → Bool) (a : Resp) (s : State) : (deliver mb op waits a s).lc = s.lc := congrArg (fun p => p.2.2.2.2.2.1) (deliver_besideq : BesideQ s (deliver mb op waits a s))
@[simp] theorem deliver_lko (mb : Sys2Proof.Mb) (op : Nat) (waits : MbWait → Bool) (a : Resp) (s : State) : (deliver mb op waits a s).lko = s.lko := congrArg (fun p => p.2.2.2.2.2.2.1) (deliver_besideq : BesideQ s (deliver mb op waits a s))
@[simp] theorem deliver_commit (mb : Sys2Proof.Mb) (op : Nat) (waits : MbWait → Bool) (a : Resp) (s : State) : (deliver mb op waits a s).commit = s.commit := congrArg (fun p => p.2.2.2.2.2.2.2.1) (deliver_besideq : BesideQ s (deliver mb op waits a s))
@[simp] theorem deliver_meter (mb : Sys2Proof.Mb) (op : Nat) (waits : MbWait → Bool) (a : Resp) (s : State) : (deliver mb op waits a s).meter = s.meter := congrArg (fun p => p.2.2.2.2.2.2.2.2.1) (deliver_besideq : BesideQ s (deliver mb op waits a s))
@[simp] theorem deliver_pwr (mb : Sys2Proof.Mb) (op : Nat) (waits : MbWait → Bool) (a : Resp) (s : State) : (deliver mb op waits a s).pwr = s.pwr := congrArg (fun p => p.2.2.2.2.2.2.2.2.2.1) (deliver_besideq : BesideQ s (deliver mb op waits a s))
@[simp] theorem deliver_vault (mb : Sys2Proof.Mb) (op : Nat) (waits : MbWait → Bool) (a : Resp) (s : State) : (deliver mb op waits a s).vault = s.vault := congrArg (fun p => p.2.2.2.2.2.2.2.2.2.2.1) (deliver_besideq : BesideQ s (deliver mb op waits a s))
@[simp] theorem deliver_store (mb : Sys2Proof.Mb) (op : Nat) (waits : MbWait → Bool) (a : Resp) (s : State) : (deliver mb op waits a s).store = s.store := congrArg (fun p => p.2.2.2.2.2.2.2.2.2.2.2.1) (deliver_besideq : BesideQ s (deliver mb op waits a s))
@[simp] theorem deliver_cust (mb : Sys2Proof.Mb) (op : Nat) (waits : MbWait → Bool) (a : Resp) (s : State) : (deliver mb op waits a s).cust = s.cust := congrArg (fun p => p.2.2.2.2.2.2.2.2.2.2.2.2.1) (deliver_besideq : BesideQ s (deliver mb op waits a s))
@[simp] theorem deliver_world (mb : Sys2Proof.Mb) (op : Nat) (waits : MbWait → Bool) (a : Resp) (s : State) : (deliver mb op waits a s).world = s.world := congrArg (fun p => p.2.2.2.2.2.2.2.2.2.2.2.2.2.2.1) (deliver_besideq : BesideQ s (deliver mb op waits a s))
@[simp] theorem deliver_allocs (mb : Sys2Proof.Mb) (op : Nat) (waits : MbWait → Bool) (a : Resp) (s : State) : (deliver mb op waits a s).allocs = s.allocs := congrArg (fun p => p.2.2.2.2.2.2.2.2.2.2.2.2.2.2.2.1) (deliver_besideq : BesideQ s (deliver mb op waits a s))
@[simp] theorem deliver_eth (mb : Sys2Proof.Mb) (op : Nat) (waits : MbWait → Bool) (a : Resp) (s : State) : (deliver mb op waits a s).eth = s.eth := congrArg (fun p => p.2.2.2.2.2.2.2.2.2.2.2.2.2.2.2.2.1) (deliver_besideq : BesideQ s (deliver mb op waits a s))
@[simp] theorem deliver_ctxs (mb : Sys2Proof.Mb) (op : Nat) (waits : MbWait → Bool) (a : Resp) (s : State) : (deliver mb op waits a s).ctxs = s.ctxs := congrArg (fun p => p.2.2.2.2.2.2.2.2.2.2.2.2.2.2.2.2.2) (deliver_besideq : BesideQ s (deliver mb op waits a s))

@[simp] theorem raiseEvent_pending (f : Sys2Proof.Fn) (bit : Nat) (s : State) : (raiseEvent f bit s).pending = s.pending := congrArg (fun p => p.1) (raiseEvent_beside : Beside s (raiseEvent f bit s))
@[simp] theorem raiseEvent_free (f : Sys2Proof.Fn) (bit : Nat) (s : State) : (raiseEvent f bit s).free = s.free := congrArg (fun p => p.2.1) (raiseEvent_beside : Beside s (raiseEvent f bit s))
@[simp] theorem raiseEvent_us (f : Sys2Proof.Fn) (bit : Nat) (s : State) : (raiseEvent f bit s).us = s.us := congrArg (fun p => p.2.2.1) (raiseEvent_beside : Beside s (raiseEvent f bit s))
@[simp] theorem raiseEvent_start (f : Sys2Proof.Fn) (bit : Nat) (s : State) : (raiseEvent f bit s).start = s.start := congrArg (fun p => p.2.2.2.1) (raiseEvent_beside : Beside s (raiseEvent f bit s))
@[simp] theorem raiseEvent_ident (f : Sys2Proof.Fn) (bit : Nat) (s : State) : (raiseEvent f bit s).ident = s.ident := congrArg (fun p => p.2.2.2.2.1) (raiseEvent_beside : Beside s (raiseEvent f bit s))
@[simp] theorem raiseEvent_lc (f : Sys2Proof.Fn) (bit : Nat) (s : State) : (raiseEvent f bit s).lc = s.lc := congrArg (fun p => p.2.2.2.2.2.1) (raiseEvent_beside : Beside s (raiseEvent f bit s))
@[simp] theorem raiseEvent_lko (f : Sys2Proof.Fn) (bit : Nat) (s : State) : (raiseEvent f bit s).lko = s.lko := congrArg (fun p => p.2.2.2.2.2.2.1) (raiseEvent_beside : Beside s (raiseEvent f bit s))
@[simp] theorem raiseEvent_commit (f : Sys2Proof.Fn) (bit : Nat) (s : State) : (raiseEvent f bit s).commit = s.commit := congrArg (fun p => p.2.2.2.2.2.2.2.1) (raiseEvent_beside : Beside s (raiseEvent f bit s))
@[simp] theorem raiseEvent_meter (f : Sys2Proof.Fn) (bit : Nat) (s : State) : (raiseEvent f bit s).meter = s.meter := congrArg (fun p => p.2.2.2.2.2.2.2.2.1) (raiseEvent_beside : Beside s (raiseEvent f bit s))
@[simp] theorem raiseEvent_pwr (f : Sys2Proof.Fn) (bit : Nat) (s : State) : (raiseEvent f bit s).pwr = s.pwr := congrArg (fun p => p.2.2.2.2.2.2.2.2.2.1) (raiseEvent_beside : Beside s (raiseEvent f bit s))
@[simp] theorem raiseEvent_vault (f : Sys2Proof.Fn) (bit : Nat) (s : State) : (raiseEvent f bit s).vault = s.vault := congrArg (fun p => p.2.2.2.2.2.2.2.2.2.2.1) (raiseEvent_beside : Beside s (raiseEvent f bit s))
@[simp] theorem raiseEvent_store (f : Sys2Proof.Fn) (bit : Nat) (s : State) : (raiseEvent f bit s).store = s.store := congrArg (fun p => p.2.2.2.2.2.2.2.2.2.2.2.1) (raiseEvent_beside : Beside s (raiseEvent f bit s))
@[simp] theorem raiseEvent_cust (f : Sys2Proof.Fn) (bit : Nat) (s : State) : (raiseEvent f bit s).cust = s.cust := congrArg (fun p => p.2.2.2.2.2.2.2.2.2.2.2.2.1) (raiseEvent_beside : Beside s (raiseEvent f bit s))
@[simp] theorem raiseEvent_units (f : Sys2Proof.Fn) (bit : Nat) (s : State) : (raiseEvent f bit s).units = s.units := congrArg (fun p => p.2.2.2.2.2.2.2.2.2.2.2.2.2.1) (raiseEvent_beside : Beside s (raiseEvent f bit s))
@[simp] theorem raiseEvent_world (f : Sys2Proof.Fn) (bit : Nat) (s : State) : (raiseEvent f bit s).world = s.world := congrArg (fun p => p.2.2.2.2.2.2.2.2.2.2.2.2.2.2.1) (raiseEvent_beside : Beside s (raiseEvent f bit s))
@[simp] theorem raiseEvent_allocs (f : Sys2Proof.Fn) (bit : Nat) (s : State) : (raiseEvent f bit s).allocs = s.allocs := congrArg (fun p => p.2.2.2.2.2.2.2.2.2.2.2.2.2.2.2.1) (raiseEvent_beside : Beside s (raiseEvent f bit s))
@[simp] theorem raiseEvent_eth (f : Sys2Proof.Fn) (bit : Nat) (s : State) : (raiseEvent f bit s).eth = s.eth := congrArg (fun p => p.2.2.2.2.2.2.2.2.2.2.2.2.2.2.2.2.1) (raiseEvent_beside : Beside s (raiseEvent f bit s))
@[simp] theorem raiseEvent_ctxs (f : Sys2Proof.Fn) (bit : Nat) (s : State) : (raiseEvent f bit s).ctxs = s.ctxs := congrArg (fun p => p.2.2.2.2.2.2.2.2.2.2.2.2.2.2.2.2.2) (raiseEvent_beside : Beside s (raiseEvent f bit s))

@[simp] theorem sendVec_pending (f : Sys2Proof.Fn) (v : Nat) (s : State) : (sendVec f v s).pending = s.pending := congrArg (fun p => p.1) (sendVec_beside : Beside s (sendVec f v s))
@[simp] theorem sendVec_free (f : Sys2Proof.Fn) (v : Nat) (s : State) : (sendVec f v s).free = s.free := congrArg (fun p => p.2.1) (sendVec_beside : Beside s (sendVec f v s))
@[simp] theorem sendVec_us (f : Sys2Proof.Fn) (v : Nat) (s : State) : (sendVec f v s).us = s.us := congrArg (fun p => p.2.2.1) (sendVec_beside : Beside s (sendVec f v s))
@[simp] theorem sendVec_start (f : Sys2Proof.Fn) (v : Nat) (s : State) : (sendVec f v s).start = s.start := congrArg (fun p => p.2.2.2.1) (sendVec_beside : Beside s (sendVec f v s))
@[simp] theorem sendVec_ident (f : Sys2Proof.Fn) (v : Nat) (s : State) : (sendVec f v s).ident = s.ident := congrArg (fun p => p.2.2.2.2.1) (sendVec_beside : Beside s (sendVec f v s))
@[simp] theorem sendVec_lc (f : Sys2Proof.Fn) (v : Nat) (s : State) : (sendVec f v s).lc = s.lc := congrArg (fun p => p.2.2.2.2.2.1) (sendVec_beside : Beside s (sendVec f v s))
@[simp] theorem sendVec_lko (f : Sys2Proof.Fn) (v : Nat) (s : State) : (sendVec f v s).lko = s.lko := congrArg (fun p => p.2.2.2.2.2.2.1) (sendVec_beside : Beside s (sendVec f v s))
@[simp] theorem sendVec_commit (f : Sys2Proof.Fn) (v : Nat) (s : State) : (sendVec f v s).commit = s.commit := congrArg (fun p => p.2.2.2.2.2.2.2.1) (sendVec_beside : Beside s (sendVec f v s))
@[simp] theorem sendVec_meter (f : Sys2Proof.Fn) (v : Nat) (s : State) : (sendVec f v s).meter = s.meter := congrArg (fun p => p.2.2.2.2.2.2.2.2.1) (sendVec_beside : Beside s (sendVec f v s))
@[simp] theorem sendVec_pwr (f : Sys2Proof.Fn) (v : Nat) (s : State) : (sendVec f v s).pwr = s.pwr := congrArg (fun p => p.2.2.2.2.2.2.2.2.2.1) (sendVec_beside : Beside s (sendVec f v s))
@[simp] theorem sendVec_vault (f : Sys2Proof.Fn) (v : Nat) (s : State) : (sendVec f v s).vault = s.vault := congrArg (fun p => p.2.2.2.2.2.2.2.2.2.2.1) (sendVec_beside : Beside s (sendVec f v s))
@[simp] theorem sendVec_store (f : Sys2Proof.Fn) (v : Nat) (s : State) : (sendVec f v s).store = s.store := congrArg (fun p => p.2.2.2.2.2.2.2.2.2.2.2.1) (sendVec_beside : Beside s (sendVec f v s))
@[simp] theorem sendVec_cust (f : Sys2Proof.Fn) (v : Nat) (s : State) : (sendVec f v s).cust = s.cust := congrArg (fun p => p.2.2.2.2.2.2.2.2.2.2.2.2.1) (sendVec_beside : Beside s (sendVec f v s))
@[simp] theorem sendVec_units (f : Sys2Proof.Fn) (v : Nat) (s : State) : (sendVec f v s).units = s.units := congrArg (fun p => p.2.2.2.2.2.2.2.2.2.2.2.2.2.1) (sendVec_beside : Beside s (sendVec f v s))
@[simp] theorem sendVec_world (f : Sys2Proof.Fn) (v : Nat) (s : State) : (sendVec f v s).world = s.world := congrArg (fun p => p.2.2.2.2.2.2.2.2.2.2.2.2.2.2.1) (sendVec_beside : Beside s (sendVec f v s))
@[simp] theorem sendVec_allocs (f : Sys2Proof.Fn) (v : Nat) (s : State) : (sendVec f v s).allocs = s.allocs := congrArg (fun p => p.2.2.2.2.2.2.2.2.2.2.2.2.2.2.2.1) (sendVec_beside : Beside s (sendVec f v s))
@[simp] theorem sendVec_eth (f : Sys2Proof.Fn) (v : Nat) (s : State) : (sendVec f v s).eth = s.eth := congrArg (fun p => p.2.2.2.2.2.2.2.2.2.2.2.2.2.2.2.2.1) (sendVec_beside : Beside s (sendVec f v s))
@[simp] theorem sendVec_ctxs (f : Sys2Proof.Fn) (v : Nat) (s : State) : (sendVec f v s).ctxs = s.ctxs := congrArg (fun p => p.2.2.2.2.2.2.2.2.2.2.2.2.2.2.2.2.2) (sendVec_beside : Beside s (sendVec f v s))

@[simp] theorem logCode_pending (code : Nat) (origin : Nat) (arg : List (Nat × Nat × Nat)) (s : State) : (logCode code origin arg s).pending = s.pending := congrArg (fun p => p.1) (logCode_beside : Beside s (logCode code origin arg s))
@[simp] theorem logCode_free (code : Nat) (origin : Nat) (arg : List (Nat × Nat × Nat)) (s : State) : (logCode code origin arg s).free = s.free := congrArg (fun p => p.2.1) (logCode_beside : Beside s (logCode code origin arg s))
@[simp] theorem logCode_us (code : Nat) (origin : Nat) (arg : List (Nat × Nat × Nat)) (s : State) : (logCode code origin arg s).us = s.us := congrArg (fun p => p.2.2.1) (logCode_beside : Beside s (logCode code origin arg s))
@[simp] theorem logCode_start (code : Nat) (origin : Nat) (arg : List (Nat × Nat × Nat)) (s : State) : (logCode code origin arg s).start = s.start := congrArg (fun p => p.2.2.2.1) (logCode_beside : Beside s (logCode code origin arg s))
@[simp] theorem logCode_ident (code : Nat) (origin : Nat) (arg : List (Nat × Nat × Nat)) (s : State) : (logCode code origin arg s).ident = s.ident := congrArg (fun p => p.2.2.2.2.1) (logCode_beside : Beside s (logCode code origin arg s))
@[simp] theorem logCode_lc (code : Nat) (origin : Nat) (arg : List (Nat × Nat × Nat)) (s : State) : (logCode code origin arg s).lc = s.lc := congrArg (fun p => p.2.2.2.2.2.1) (logCode_beside : Beside s (logCode code origin arg s))
@[simp] theorem logCode_lko (code : Nat) (origin : Nat) (arg : List (Nat × Nat × Nat)) (s : State) : (logCode code origin arg s).lko = s.lko := congrArg (fun p => p.2.2.2.2.2.2.1) (logCode_beside : Beside s (logCode code origin arg s))
@[simp] theorem logCode_commit (code : Nat) (origin : Nat) (arg : List (Nat × Nat × Nat)) (s : State) : (logCode code origin arg s).commit = s.commit := congrArg (fun p => p.2.2.2.2.2.2.2.1) (logCode_beside : Beside s (logCode code origin arg s))
@[simp] theorem logCode_meter (code : Nat) (origin : Nat) (arg : List (Nat × Nat × Nat)) (s : State) : (logCode code origin arg s).meter = s.meter := congrArg (fun p => p.2.2.2.2.2.2.2.2.1) (logCode_beside : Beside s (logCode code origin arg s))
@[simp] theorem logCode_pwr (code : Nat) (origin : Nat) (arg : List (Nat × Nat × Nat)) (s : State) : (logCode code origin arg s).pwr = s.pwr := congrArg (fun p => p.2.2.2.2.2.2.2.2.2.1) (logCode_beside : Beside s (logCode code origin arg s))
@[simp] theorem logCode_vault (code : Nat) (origin : Nat) (arg : List (Nat × Nat × Nat)) (s : State) : (logCode code origin arg s).vault = s.vault := congrArg (fun p => p.2.2.2.2.2.2.2.2.2.2.1) (logCode_beside : Beside s (logCode code origin arg s))
@[simp] theorem logCode_store (code : Nat) (origin : Nat) (arg : List (Nat × Nat × Nat)) (s : State) : (logCode code origin arg s).store = s.store := congrArg (fun p => p.2.2.2.2.2.2.2.2.2.2.2.1) (logCode_beside : Beside s (logCode code origin arg s))
@[simp] theorem logCode_cust (code : Nat) (origin : Nat) (arg : List (Nat × Nat × Nat)) (s : State) : (logCode code origin arg s).cust = s.cust := congrArg (fun p => p.2.2.2.2.2.2.2.2.2.2.2.2.1) (logCode_beside : Beside s (logCode code origin arg s))
@[simp] theorem logCode_units (code : Nat) (origin : Nat) (arg : List (Nat × Nat × Nat)) (s : State) : (logCode code origin arg s).units = s.units := congrArg (fun p => p.2.2.2.2.2.2.2.2.2.2.2.2.2.1) (logCode_beside : Beside s (logCode code origin arg s))
@[simp] theorem logCode_world (code : Nat) (origin : Nat) (arg : List (Nat × Nat × Nat)) (s : State) : (logCode code origin arg s).world = s.world := congrArg (fun p => p.2.2.2.2.2.2.2.2.2.2.2.2.2.2.1) (logCode_beside : Beside s (logCode code origin arg s))
@[simp] theorem logCode_allocs (code : Nat) (origin : Nat) (arg : List (Nat × Nat × Nat)) (s : State) : (logCode code origin arg s).allocs = s.allocs := congrArg (fun p => p.2.2.2.2.2.2.2.2.2.2.2.2.2.2.2.1) (logCode_beside : Beside s (logCode code origin arg s))
@[simp] theorem logCode_eth (code : Nat) (origin : Nat) (arg : List (Nat × Nat × Nat)) (s : State) : (logCode code origin arg s).eth = s.eth := congrArg (fun p => p.2.2.2.2.2.2.2.2.2.2.2.2.2.2.2.2.1) (logCode_beside : Beside s (logCode code origin arg s))
@[simp] theorem logCode_ctxs (code : Nat) (origin : Nat) (arg : List (Nat × Nat × Nat)) (s : State) : (logCode code origin arg s).ctxs = s.ctxs := congrArg (fun p => p.2.2.2.2.2.2.2.2.2.2.2.2.2.2.2.2.2) (logCode_beside : Beside s (logCode code origin arg s))

@[simp] theorem notifyApplets_pending (k : NoteKind) (arg0 : Nat) (s : State) : (notifyApplets k arg0 s).pending = s.pending := congrArg (fun p => p.1) (notifyApplets_beside : Beside s (notifyApplets k arg0 s))
@[simp] theorem notifyApplets_free (k : NoteKind) (arg0 : Nat) (s : State) : (notifyApplets k arg0 s).free = s.free := congrArg (fun p => p.2.1) (notifyApplets_beside : Beside s (notifyApplets k arg0 s))
@[simp] theorem notifyApplets_us (k : NoteKind) (arg0 : Nat) (s : State) : (notifyApplets k arg0 s).us = s.us := congrArg (fun p => p.2.2.1) (notifyApplets_beside : Beside s (notifyApplets k arg0 s))
@[simp] theorem notifyApplets_start (k : NoteKind) (arg0 : Nat) (s : State) : (notifyApplets k arg0 s).start = s.start := congrArg (fun p => p.2.2.2.1) (notifyApplets_beside : Beside s (notifyApplets k arg0 s))
@[simp] theorem notifyApplets_ident (k : NoteKind) (arg0 : Nat) (s : State) : (notifyApplets k arg0 s).ident = s.ident := congrArg (fun p => p.2.2.2.2.1) (notifyApplets_beside : Beside s (notifyApplets k arg0 s))
@[simp] theorem notifyApplets_lc (k : NoteKind) (arg0 : Nat) (s : State) : (notifyApplets k arg0 s).lc = s.lc := congrArg (fun p => p.2.2.2.2.2.1) (notifyApplets_beside : Beside s (notifyApplets k arg0 s))
@[simp] theorem notifyApplets_lko (k : NoteKind) (arg0 : Nat) (s : State) : (notifyApplets k arg0 s).lko = s.lko := congrArg (fun p => p.2.2.2.2.2.2.1) (notifyApplets_beside : Beside s (notifyApplets k arg0 s))
@[simp] theorem notifyApplets_commit (k : NoteKind) (arg0 : Nat) (s : State) : (notifyApplets k arg0 s).commit = s.commit := congrArg (fun p => p.2.2.2.2.2.2.2.1) (notifyApplets_beside : Beside s (notifyApplets k arg0 s))
@[simp] theorem notifyApplets_meter (k : NoteKind) (arg0 : Nat) (s : State) : (notifyApplets k arg0 s).meter = s.meter := congrArg (fun p => p.2.2.2.2.2.2.2.2.1) (notifyApplets_beside : Beside s (notifyApplets k arg0 s))
@[simp] theorem notifyApplets_pwr (k : NoteKind) (arg0 : Nat) (s : State) : (notifyApplets k arg0 s).pwr = s.pwr := congrArg (fun p => p.2.2.2.2.2.2.2.2.2.1) (notifyApplets_beside : Beside s (notifyApplets k arg0 s))
@[simp] theorem notifyApplets_vault (k : NoteKind) (arg0 : Nat) (s : State) : (notifyApplets k arg0 s).vault = s.vault := congrArg (fun p => p.2.2.2.2.2.2.2.2.2.2.1) (notifyApplets_beside : Beside s (notifyApplets k arg0 s))
@[simp] theorem notifyApplets_store (k : NoteKind) (arg0 : Nat) (s : State) : (notifyApplets k arg0 s).store = s.store := congrArg (fun p => p.2.2.2.2.2.2.2.2.2.2.2.1) (notifyApplets_beside : Beside s (notifyApplets k arg0 s))
@[simp] theorem notifyApplets_cust (k : NoteKind) (arg0 : Nat) (s : State) : (notifyApplets k arg0 s).cust = s.cust := congrArg (fun p => p.2.2.2.2.2.2.2.2.2.2.2.2.1) (notifyApplets_beside : Beside s (notifyApplets k arg0 s))
@[simp] theorem notifyApplets_units (k : NoteKind) (arg0 : Nat) (s : State) : (notifyApplets k arg0 s).units = s.units := congrArg (fun p => p.2.2.2.2.2.2.2.2.2.2.2.2.2.1) (notifyApplets_beside : Beside s (notifyApplets k arg0 s))
@[simp] theorem notifyApplets_world (k : NoteKind) (arg0 : Nat) (s : State) : (notifyApplets k arg0 s).world = s.world := congrArg (fun p => p.2.2.2.2.2.2.2.2.2.2.2.2.2.2.1) (notifyApplets_beside : Beside s (notifyApplets k arg0 s))
@[simp] theorem notifyApplets_allocs (k : NoteKind) (arg0 : Nat) (s : State) : (notifyApplets k arg0 s).allocs = s.allocs := congrArg (fun p => p.2.2.2.2.2.2.2.2.2.2.2.2.2.2.2.1) (notifyApplets_beside : Beside s (notifyApplets k arg0 s))
@[simp] theorem notifyApplets_eth (k : NoteKind) (arg0 : Nat) (s : State) : (notifyApplets k arg0 s).eth = s.eth := congrArg (fun p => p.2.2.2.2.2.2.2.2.2.2.2.2.2.2.2.2.1) (notifyApplets_beside : Beside s (notifyApplets k arg0 s))
@[simp] theorem notifyApplets_ctxs (k : NoteKind) (arg0 : Nat) (s : State) : (notifyApplets k arg0 s).ctxs = s.ctxs := congrArg (fun p => p.2.2.2.2.2.2.2.2.2.2.2.2.2.2.2.2.2) (notifyApplets_beside : Beside s (notifyApplets k arg0 s))

@[simp] theorem setJring_pending (st : JrState) (s : State) : (setJring st s).pending = s.pending := congrArg (fun p => p.1) (setJring_beside : Beside s (setJring st s))
@[simp] theorem setJring_free (st : JrState) (s : State) : (setJring st s).free = s.free := congrArg (fun p => p.2.1) (setJring_beside : Beside s (setJring st s))
@[simp] theorem setJring_us (st : JrState) (s : State) : (setJring st s).us = s.us := congrArg (fun p => p.2.2.1) (setJring_beside : Beside s (setJring st s))
@[simp] theorem setJring_start (st : JrState) (s : State) : (setJring st s).start = s.start := congrArg (fun p => p.2.2.2.1) (setJring_beside : Beside s (setJring st s))
@[simp] theorem setJring_ident (st : JrState) (s : State) : (setJring st s).ident = s.ident := congrArg (fun p => p.2.2.2.2.1) (setJring_beside : Beside s (setJring st s))
@[simp] theorem setJring_lc (st : JrState) (s : State) : (setJring st s).lc = s.lc := congrArg (fun p => p.2.2.2.2.2.1) (setJring_beside : Beside s (setJring st s))
@[simp] theorem setJring_lko (st : JrState) (s : State) : (setJring st s).lko = s.lko := congrArg (fun p => p.2.2.2.2.2.2.1) (setJring_beside : Beside s (setJring st s))
@[simp] theorem setJring_commit (st : JrState) (s : State) : (setJring st s).commit = s.commit := congrArg (fun p => p.2.2.2.2.2.2.2.1) (setJring_beside : Beside s (setJring st s))
@[simp] theorem setJring_meter (st : JrState) (s : State) : (setJring st s).meter = s.meter := congrArg (fun p => p.2.2.2.2.2.2.2.2.1) (setJring_beside : Beside s (setJring st s))
@[simp] theorem setJring_pwr (st : JrState) (s : State) : (setJring st s).pwr = s.pwr := congrArg (fun p => p.2.2.2.2.2.2.2.2.2.1) (setJring_beside : Beside s (setJring st s))
@[simp] theorem setJring_vault (st : JrState) (s : State) : (setJring st s).vault = s.vault := congrArg (fun p => p.2.2.2.2.2.2.2.2.2.2.1) (setJring_beside : Beside s (setJring st s))
@[simp] theorem setJring_store (st : JrState) (s : State) : (setJring st s).store = s.store := congrArg (fun p => p.2.2.2.2.2.2.2.2.2.2.2.1) (setJring_beside : Beside s (setJring st s))
@[simp] theorem setJring_cust (st : JrState) (s : State) : (setJring st s).cust = s.cust := congrArg (fun p => p.2.2.2.2.2.2.2.2.2.2.2.2.1) (setJring_beside : Beside s (setJring st s))
@[simp] theorem setJring_units (st : JrState) (s : State) : (setJring st s).units = s.units := congrArg (fun p => p.2.2.2.2.2.2.2.2.2.2.2.2.2.1) (setJring_beside : Beside s (setJring st s))
@[simp] theorem setJring_world (st : JrState) (s : State) : (setJring st s).world = s.world := congrArg (fun p => p.2.2.2.2.2.2.2.2.2.2.2.2.2.2.1) (setJring_beside : Beside s (setJring st s))
@[simp] theorem setJring_allocs (st : JrState) (s : State) : (setJring st s).allocs = s.allocs := congrArg (fun p => p.2.2.2.2.2.2.2.2.2.2.2.2.2.2.2.1) (setJring_beside : Beside s (setJring st s))
@[simp] theorem setJring_eth (st : JrState) (s : State) : (setJring st s).eth = s.eth := congrArg (fun p => p.2.2.2.2.2.2.2.2.2.2.2.2.2.2.2.2.1) (setJring_beside : Beside s (setJring st s))
@[simp] theorem setJring_ctxs (st : JrState) (s : State) : (setJring st s).ctxs = s.ctxs := congrArg (fun p => p.2.2.2.2.2.2.2.2.2.2.2.2.2.2.2.2.2) (setJring_beside : Beside s (setJring st s))

@[simp] theorem eventAllPfs_pending (bit : Nat) (s : State) : (eventAllPfs bit s).pending = s.pending := congrArg (fun p => p.1) (eventAllPfs_beside : Beside s (eventAllPfs bit s))
@[simp] theorem eventAllPfs_free (bit : Nat) (s : State) : (eventAllPfs bit s).free = s.free := congrArg (fun p => p.2.1) (eventAllPfs_beside : Beside s (eventAllPfs bit s))
@[simp] theorem eventAllPfs_us (bit : Nat) (s : State) : (eventAllPfs bit s).us = s.us := congrArg (fun p => p.2.2.1) (eventAllPfs_beside : Beside s (eventAllPfs bit s))
@[simp] theorem eventAllPfs_start (bit : Nat) (s : State) : (eventAllPfs bit s).start = s.start := congrArg (fun p => p.2.2.2.1) (eventAllPfs_beside : Beside s (eventAllPfs bit s))
@[simp] theorem eventAllPfs_ident (bit : Nat) (s : State) : (eventAllPfs bit s).ident = s.ident := congrArg (fun p => p.2.2.2.2.1) (eventAllPfs_beside : Beside s (eventAllPfs bit s))
@[simp] theorem eventAllPfs_lc (bit : Nat) (s : State) : (eventAllPfs bit s).lc = s.lc := congrArg (fun p => p.2.2.2.2.2.1) (eventAllPfs_beside : Beside s (eventAllPfs bit s))
@[simp] theorem eventAllPfs_lko (bit : Nat) (s : State) : (eventAllPfs bit s).lko = s.lko := congrArg (fun p => p.2.2.2.2.2.2.1) (eventAllPfs_beside : Beside s (eventAllPfs bit s))
@[simp] theorem eventAllPfs_commit (bit : Nat) (s : State) : (eventAllPfs bit s).commit = s.commit := congrArg (fun p => p.2.2.2.2.2.2.2.1) (eventAllPfs_beside : Beside s (eventAllPfs bit s))
@[simp] theorem eventAllPfs_meter (bit : Nat) (s : State) : (eventAllPfs bit s).meter = s.meter := congrArg (fun p => p.2.2.2.2.2.2.2.2.1) (eventAllPfs_beside : Beside s (eventAllPfs bit s))
@[simp] theorem eventAllPfs_pwr (bit : Nat) (s : State) : (eventAllPfs bit s).pwr = s.pwr := congrArg (fun p => p.2.2.2.2.2.2.2.2.2.1) (eventAllPfs_beside : Beside s (eventAllPfs bit s))
@[simp] theorem eventAllPfs_vault (bit : Nat) (s : State) : (eventAllPfs bit s).vault = s.vault := congrArg (fun p => p.2.2.2.2.2.2.2.2.2.2.1) (eventAllPfs_beside : Beside s (eventAllPfs bit s))
@[simp] theorem eventAllPfs_store (bit : Nat) (s : State) : (eventAllPfs bit s).store = s.store := congrArg (fun p => p.2.2.2.2.2.2.2.2.2.2.2.1) (eventAllPfs_beside : Beside s (eventAllPfs bit s))
@[simp] theorem eventAllPfs_cust (bit : Nat) (s : State) : (eventAllPfs bit s).cust = s.cust := congrArg (fun p => p.2.2.2.2.2.2.2.2.2.2.2.2.1) (eventAllPfs_beside : Beside s (eventAllPfs bit s))
@[simp] theorem eventAllPfs_units (bit : Nat) (s : State) : (eventAllPfs bit s).units = s.units := congrArg (fun p => p.2.2.2.2.2.2.2.2.2.2.2.2.2.1) (eventAllPfs_beside : Beside s (eventAllPfs bit s))
@[simp] theorem eventAllPfs_world (bit : Nat) (s : State) : (eventAllPfs bit s).world = s.world := congrArg (fun p => p.2.2.2.2.2.2.2.2.2.2.2.2.2.2.1) (eventAllPfs_beside : Beside s (eventAllPfs bit s))
@[simp] theorem eventAllPfs_allocs (bit : Nat) (s : State) : (eventAllPfs bit s).allocs = s.allocs := congrArg (fun p => p.2.2.2.2.2.2.2.2.2.2.2.2.2.2.2.1) (eventAllPfs_beside : Beside s (eventAllPfs bit s))
@[simp] theorem eventAllPfs_eth (bit : Nat) (s : State) : (eventAllPfs bit s).eth = s.eth := congrArg (fun p => p.2.2.2.2.2.2.2.2.2.2.2.2.2.2.2.2.1) (eventAllPfs_beside : Beside s (eventAllPfs bit s))
@[simp] theorem eventAllPfs_ctxs (bit : Nat) (s : State) : (eventAllPfs bit s).ctxs = s.ctxs := congrArg (fun p => p.2.2.2.2.2.2.2.2.2.2.2.2.2.2.2.2.2) (eventAllPfs_beside : Beside s (eventAllPfs bit s))

end Sys2Proof.Machine
end

