-- ==== Sys2Proof/Laws/Crypto.lean ====
section
/-! SUPPORT. What the ciphers and digests are known to do whatever their inputs: lengths, AES and its inverse, the key wraps and their inverses. -/

namespace Sys2Proof.Machine

open Sys2Proof

/-! Multiplication in GF(2^8) -/

theorem bitOf_xor (x y i : Nat) : bitOf (x ^^^ y) i = (bitOf x i ^^ bitOf y i) := by
  have h (v : Nat) : bitOf v i = v.testBit i := by rw [Nat.testBit_eq_decide_div_mod_eq]; rfl
  rw [h, h, h, Nat.testBit_xor]

theorem xor_swap (a b c d : Nat) : a ^^^ b ^^^ (c ^^^ d) = a ^^^ c ^^^ (b ^^^ d) := by
  rw [Nat.xor_assoc, Nat.xor_assoc, ← Nat.xor_assoc b, ← Nat.xor_assoc c, Nat.xor_comm b c]

/-- The bits of the second factor add up. -/
theorem gf8_xor (a x y : Nat) : gf8 a (x ^^^ y) = gf8 a x ^^^ gf8 a y := by
  have h (l : List Nat) : ∀ c d a : Nat,
      (l.foldl (fun (p : Nat × Nat) i => (if bitOf (x ^^^ y) i then p.1 ^^^ p.2 else p.1, if 128 ≤ p.2 then (2 * p.2) ^^^ 0x11B else 2 * p.2)) (c ^^^ d, a)).1 =
      (l.foldl (fun (p : Nat × Nat) i => (if bitOf x i then p.1 ^^^ p.2 else p.1, if 128 ≤ p.2 then (2 * p.2) ^^^ 0x11B else 2 * p.2)) (c, a)).1 ^^^
      (l.foldl (fun (p : Nat × Nat) i => (if bitOf y i then p.1 ^^^ p.2 else p.1, if 128 ≤ p.2 then (2 * p.2) ^^^ 0x11B else 2 * p.2)) (d, a)).1 := by
    induction l with
    | nil => intro c d a; rfl
    | cons i l ih =>
      intro c d a
      simp only [List.foldl_cons]
      rw [← ih]
      congr 3
      rw [bitOf_xor]
      cases bitOf x i <;> cases bitOf y i
      · rfl
      · exact Nat.xor_assoc c d a
      · show c ^^^ d ^^^ a = c ^^^ a ^^^ d
        rw [Nat.xor_assoc, Nat.xor_comm d a, ← Nat.xor_assoc]
      · show c ^^^ d = c ^^^ a ^^^ (d ^^^ a)
        rw [Nat.xor_comm d a, Nat.xor_assoc, ← Nat.xor_assoc a, Nat.xor_self, Nat.zero_xor]
  have := h (List.range 8) 0 0 a
  rwa [Nat.xor_self] at this

theorem gf8_zero (a : Nat) : gf8 a 0 = 0 := by
  have := gf8_xor a 0 0
  rwa [Nat.xor_self, Nat.xor_self] at this

/-- The matrices of MixColumns and its inverse multiply to the identity. -/
theorem mix_products : ∀ x < 256,
    gf8 14 (gf8 2 x) ^^^ gf8 11 (gf8 1 x) ^^^ gf8 13 (gf8 1 x) ^^^ gf8 9 (gf8 3 x) = x ∧
    gf8 14 (gf8 3 x) ^^^ gf8 11 (gf8 2 x) ^^^ gf8 13 (gf8 1 x) ^^^ gf8 9 (gf8 1 x) = 0 ∧
    gf8 14 (gf8 1 x) ^^^ gf8 11 (gf8 3 x) ^^^ gf8 13 (gf8 2 x) ^^^ gf8 9 (gf8 1 x) = 0 ∧
    gf8 14 (gf8 1 x) ^^^ gf8 11 (gf8 1 x) ^^^ gf8 13 (gf8 3 x) ^^^ gf8 9 (gf8 2 x) = 0 := by decide +kernel

/-! The state of a block: sixteen bytes. -/

/-- A state of AES: sixteen numbers below 256. -/
def AesState (st : List Nat) : Prop := st.length = 16 ∧ ∀ x ∈ st, x < 256

theorem AesState.get {st : List Nat} (h : AesState st) (i : Nat) : st.getD i 0 < 256 := by
  rw [List.getD_eq_getElem?_getD]
  cases e : st[i]? with
  | none => decide
  | some x => exact h.2 x (List.mem_of_getElem? e)

theorem getD_range (f : Nat → Nat) (j : Nat) (h : j < 16) : ((List.range 16).map f).getD j 0 = f j := by
  simp [List.getD_eq_getElem?_getD, h]

theorem state_ext {a b : List Nat} (ha : a.length = 16) (hb : b.length = 16) (h : ∀ i < 16, a.getD i 0 = b.getD i 0) : a = b := by
  apply List.ext_getElem (by rw [ha, hb])
  intro i h1 h2
  have := h i (by omega)
  simpa [List.getD_eq_getElem?_getD, h1, h2] using this

theorem shift_back (st : List Nat) (h : st.length = 16) : aesShift 3 (aesShift 1 st) = st := by
  refine state_ext (by simp [aesShift]) h (fun i hi => ?_)
  have e : ((i + 4 * 3 * (i % 4)) % 16 + 4 * 1 * ((i + 4 * 3 * (i % 4)) % 16 % 4)) % 16 = i := by
    revert i; decide
  rw [aesShift, getD_range _ _ hi, aesShift, getD_range _ _ (Nat.mod_lt _ (by decide)), e]

theorem mix_get (m st : List Nat) (c r : Nat) (hc : c < 4) (hr : r < 4) : (aesMix m st).getD (4 * c + r) 0 =
    gf8 (m.getD ((4 - r) % 4) 0) (st.getD (4 * c) 0) ^^^ gf8 (m.getD ((5 - r) % 4) 0) (st.getD (4 * c + 1) 0) ^^^
    gf8 (m.getD ((6 - r) % 4) 0) (st.getD (4 * c + 2) 0) ^^^ gf8 (m.getD ((7 - r) % 4) 0) (st.getD (4 * c + 3) 0) := by
  have e1 : (4 * c + r) % 4 = r := by omega
  have e2 : (4 * c + r) / 4 * 4 = 4 * c := by omega
  rw [aesMix, getD_range _ _ (by omega), e1, e2]
  simp only [show List.range 4 = [0, 1, 2, 3] from rfl, List.foldl_cons, List.foldl_nil, Nat.zero_xor, Nat.add_zero, Nat.zero_add, Nat.reduceAdd, Nat.add_comm _ 4]

theorem mix_back (st : List Nat) (h : AesState st) : aesMix [14, 11, 13, 9] (aesMix [2, 3, 1, 1] st) = st := by
  refine state_ext (by simp [aesMix]) h.1 (fun i hi => ?_)
  have e : i = 4 * (i / 4) + i % 4 := by omega
  have hc : i / 4 < 4 := by omega
  have hr : i % 4 < 4 := by omega
  rw [e]
  generalize i / 4 = c at hc ⊢
  generalize i % 4 = r at hr ⊢
  have b (j : Nat) := mix_products (st.getD j 0) (h.get j)
  have c0 := mix_get [2, 3, 1, 1] st c 0 hc (by decide)
  rw [Nat.add_zero] at c0
  rw [mix_get _ _ _ _ hc hr, c0, mix_get _ _ _ _ hc (by decide), mix_get _ _ _ _ hc (by decide), mix_get _ _ _ _ hc (by decide)]
  have b0 := b (4 * c); have b1 := b (4 * c + 1); have b2 := b (4 * c + 2); have b3 := b (4 * c + 3)
  generalize h0 : st.getD (4 * c) 0 = x0 at b0 ⊢
  generalize h1 : st.getD (4 * c + 1) 0 = x1 at b1 ⊢
  generalize h2 : st.getD (4 * c + 2) 0 = x2 at b2 ⊢
  generalize h3 : st.getD (4 * c + 3) 0 = x3 at b3 ⊢
  let E0 (x : Nat) : Nat := gf8 14 (gf8 2 x) ^^^ gf8 11 (gf8 1 x) ^^^ gf8 13 (gf8 1 x) ^^^ gf8 9 (gf8 3 x)
  let E1 (x : Nat) : Nat := gf8 14 (gf8 3 x) ^^^ gf8 11 (gf8 2 x) ^^^ gf8 13 (gf8 1 x) ^^^ gf8 9 (gf8 1 x)
  let E2 (x : Nat) : Nat := gf8 14 (gf8 1 x) ^^^ gf8 11 (gf8 3 x) ^^^ gf8 13 (gf8 2 x) ^^^ gf8 9 (gf8 1 x)
  let E3 (x : Nat) : Nat := gf8 14 (gf8 1 x) ^^^ gf8 11 (gf8 1 x) ^^^ gf8 13 (gf8 3 x) ^^^ gf8 9 (gf8 2 x)
  have z (a b c d : Nat) (hb : E1 b = 0) (hc : E2 c = 0) (hd : E3 d = 0) (ha : E0 a = a) : E0 a ^^^ E1 b ^^^ E2 c ^^^ E3 d = a := by
    rw [ha, hb, hc, hd, Nat.xor_zero, Nat.xor_zero, Nat.xor_zero]
  match r, hr with
  | 0, _ => rw [Nat.add_zero, h0]; refine Eq.trans ?_ (z x0 x1 x2 x3 b1.2.1 b2.2.2.1 b3.2.2.2 b0.1); simp only [gf8_xor, E0, E1, E2, E3]; simp; ac_rfl
  | 1, _ => rw [h1]; refine Eq.trans ?_ (z x1 x2 x3 x0 b2.2.1 b3.2.2.1 b0.2.2.2 b1.1); simp only [gf8_xor, E0, E1, E2, E3]; simp; ac_rfl
  | 2, _ => rw [h2]; refine Eq.trans ?_ (z x2 x3 x0 x1 b3.2.1 b0.2.2.1 b1.2.2.2 b2.1); simp only [gf8_xor, E0, E1, E2, E3]; simp; ac_rfl
  | 3, _ => rw [h3]; refine Eq.trans ?_ (z x3 x0 x1 x2 b0.2.1 b1.2.2.1 b2.2.2.2 b3.1); simp only [gf8_xor, E0, E1, E2, E3]; simp; ac_rfl

theorem gf8_small : ∀ m ∈ [1, 2, 3], ∀ x < 256, gf8 m x < 256 := by decide +kernel

theorem xor_small {x y : Nat} (hx : x < 256) (hy : y < 256) : x ^^^ y < 256 := Nat.xor_lt_two_pow (n := 8) hx hy

theorem boxAt_small (t : List Nat) (b : Nat) : boxAt t b < 256 := Nat.mod_lt _ (by decide)

theorem box_back : ∀ b < 256, boxAt aesSboxInv (boxAt aesSbox b) = b := by decide +kernel

theorem add_small {a k : List Nat} (ha : ∀ x ∈ a, x < 256) (hk : ∀ x ∈ k, x < 256) : ∀ x ∈ List.zipWith (· ^^^ ·) a k, x < 256 := by
  intro x hx
  obtain ⟨i, hi, rfl⟩ := List.getElem_of_mem hx
  rw [List.getElem_zipWith]
  exact xor_small (ha _ (List.getElem_mem _)) (hk _ (List.getElem_mem _))

theorem AesState.add {a k : List Nat} (ha : AesState a) (hk : AesState k) : AesState (List.zipWith (· ^^^ ·) a k) :=
  ⟨by simp [ha.1, hk.1], add_small ha.2 hk.2⟩

theorem AesState.sub {a : List Nat} (ha : AesState a) (t : List Nat) : AesState (a.map (fun b => boxAt t b)) :=
  ⟨by simp [ha.1], fun x hx => by obtain ⟨b, -, rfl⟩ := List.mem_map.1 hx; exact boxAt_small t b⟩

theorem AesState.shift {a : List Nat} (ha : AesState a) (k : Nat) : AesState (aesShift k a) :=
  ⟨by simp [aesShift], fun x hx => by obtain ⟨b, -, rfl⟩ := List.mem_map.1 hx; exact ha.get _⟩

theorem AesState.mix {a : List Nat} (ha : AesState a) : AesState (aesMix [2, 3, 1, 1] a) := by
  refine ⟨by simp [aesMix], fun x hx => ?_⟩
  obtain ⟨i, hi, rfl⟩ := List.mem_map.1 hx
  have m (j : Nat) : [2, 3, 1, 1].getD ((j + 4 - i % 4) % 4) 0 ∈ [1, 2, 3] := by
    have h := Nat.mod_lt (j + 4 - i % 4) (y := 4) (by decide)
    generalize (j + 4 - i % 4) % 4 = u at h ⊢
    revert u; decide
  have g (j : Nat) := gf8_small _ (m j) _ (ha.get (i / 4 * 4 + j))
  simp only [show List.range 4 = [0, 1, 2, 3] from rfl, List.foldl_cons, List.foldl_nil]
  exact xor_small (xor_small (xor_small (xor_small (by decide) (g 0)) (g 1)) (g 2)) (g 3)

theorem sub_back {a : List Nat} (ha : AesState a) : (a.map (fun b => boxAt aesSbox b)).map (fun b => boxAt aesSboxInv b) = a := by
  rw [List.map_map]
  conv => rhs; rw [← List.map_id a]
  exact List.map_congr_left (fun x hx => box_back x (ha.2 x hx))

theorem add_back {a k : List Nat} (h : a.length = k.length) : List.zipWith (· ^^^ ·) (List.zipWith (· ^^^ ·) a k) k = a := by
  apply List.ext_getElem (by simp [h])
  intro i h1 h2
  simp [Nat.xor_assoc]

/-! The round keys. -/

/-- The words of a key schedule: four bytes each. -/
def AesWords (ws : List (List Nat)) : Prop := ∀ w ∈ ws, w.length = 4 ∧ ∀ x ∈ w, x < 256

theorem rcon_small (l : List Nat) : ∀ r < 256, l.foldl (fun r _ => gf8 2 r) r < 256 := by
  induction l with
  | nil => intro r h; exact h
  | cons a l ih => intro r h; exact ih _ (gf8_small 2 (by decide) r h)

theorem expand_words (nk : Nat) (hk : 1 ≤ nk) : ∀ (n i : Nat) (ws : List (List Nat)), AesWords ws → nk ≤ ws.length →
    AesWords (aesExpand nk n i ws) ∧ (aesExpand nk n i ws).length = ws.length + n := by
  intro n
  induction n with
  | zero => intro i ws h hl; exact ⟨h, rfl⟩
  | succ n ih =>
    intro i ws h hl
    have word (j : Nat) (hj : j < ws.length) : (ws.getD j []).length = 4 ∧ ∀ x ∈ ws.getD j [], x < 256 := by
      rw [List.getD_eq_getElem?_getD, List.getElem?_eq_getElem hj]; exact h _ (List.getElem_mem hj)
    have t0 := word 0 (by omega)
    have tk := word (nk - 1) (by omega)
    have sub (w : List Nat) (hw : w.length = 4) : (w.map (fun b => boxAt aesSbox b)).length = 4 ∧ ∀ x ∈ w.map (fun b => boxAt aesSbox b), x < 256 :=
      ⟨by simp [hw], fun x hx => by obtain ⟨b, -, rfl⟩ := List.mem_map.1 hx; exact boxAt_small _ b⟩
    have rot : ((ws.getD 0 []).drop 1 ++ (ws.getD 0 []).take 1).length = 4 := by rw [List.length_append, List.length_drop, List.length_take, t0.1]; rfl
    have rc := rcon_small (List.range (i / nk - 1)) 1 (by decide)
    rw [aesExpand]
    generalize (List.range (i / nk - 1)).foldl (fun r _ => gf8 2 r) 1 = rcon at rc
    have new : ∀ u : List Nat, u.length = 4 ∧ (∀ x ∈ u, x < 256) →
        AesWords (List.zipWith (· ^^^ ·) (ws.getD (nk - 1) []) u :: ws) := by
      intro u hu w hw
      rcases List.mem_cons.1 hw with rfl | hw
      · exact ⟨by rw [List.length_zipWith, tk.1, hu.1]; rfl, add_small tk.2 hu.2⟩
      · exact h w hw
    have fin (u : List Nat) (hu : u.length = 4 ∧ ∀ x ∈ u, x < 256) := ih (i + 1) _ (new u hu) (by rw [List.length_cons]; omega)
    have done (u : List Nat) (hu : u.length = 4 ∧ ∀ x ∈ u, x < 256) :
        AesWords (aesExpand nk n (i + 1) (List.zipWith (· ^^^ ·) (ws.getD (nk - 1) []) u :: ws)) ∧
        (aesExpand nk n (i + 1) (List.zipWith (· ^^^ ·) (ws.getD (nk - 1) []) u :: ws)).length = ws.length + (n + 1) := by
      refine ⟨(fin u hu).1, ?_⟩
      rw [(fin u hu).2, List.length_cons]; omega
    apply done
    split
    · refine ⟨by rw [List.length_zipWith, (sub _ rot).1]; rfl, add_small (sub _ rot).2 ?_⟩
      intro x hx; simp at hx; rcases hx with rfl | rfl <;> omega
    · split
      · exact sub _ t0.1
      · exact t0

theorem keys_ok (key : Bytes) (hk : 4 ≤ key.length) (h4 : key.length % 4 = 0) :
    (∀ k ∈ aesKeys key, AesState k) ∧ (aesKeys key).length = key.length / 4 + 7 := by
  refine ⟨fun k hk' => ?_, by simp [aesKeys]⟩
  have w0 : AesWords ((List.range (key.length / 4)).map (fun i => ((key.drop (4 * i)).take 4).map (·.toNat))).reverse := by
    intro w hw
    obtain ⟨i, hi, rfl⟩ := List.mem_map.1 (List.mem_reverse.1 hw)
    have hi := List.mem_range.1 hi
    refine ⟨by simp; omega, fun x hx => ?_⟩
    obtain ⟨b, -, rfl⟩ := List.mem_map.1 hx
    exact b.isLt
  have e := expand_words (key.length / 4) (by omega) (4 * (key.length / 4 + 7) - key.length / 4) (key.length / 4) _ w0 (by simp)
  obtain ⟨r, hr, rfl⟩ := List.mem_map.1 hk'
  have hr := List.mem_range.1 hr
  rw [List.length_reverse, List.length_map, List.length_range] at e
  generalize aesExpand _ _ _ _ = ws at e ⊢
  have l : ((ws.reverse.drop (4 * r)).take 4).length = 4 := by simp [e.2]; omega
  have m : ∀ w ∈ (ws.reverse.drop (4 * r)).take 4, w.length = 4 ∧ ∀ x ∈ w, x < 256 :=
    fun w hw => e.1 w (List.mem_reverse.1 (List.mem_of_mem_drop (List.mem_of_mem_take hw)))
  generalize (ws.reverse.drop (4 * r)).take 4 = u at l m
  constructor
  · match u, l with
    | [a, b, c, d], _ => simp [(m a (by simp)).1, (m b (by simp)).1, (m c (by simp)).1, (m d (by simp)).1]
  · intro x hx
    obtain ⟨w, hw, hx⟩ := List.mem_flatten.1 hx
    exact (m w hw).2 x hx

/-! A block and its inverse. -/

/-- The rounds between the first and the last, and their inverse. -/
def aesRound (st k : List Nat) : List Nat := List.zipWith (· ^^^ ·) (aesMix [2, 3, 1, 1] (aesShift 1 (st.map (fun b => boxAt aesSbox b)))) k
def aesUnround (st k : List Nat) : List Nat := aesMix [14, 11, 13, 9] (List.zipWith (· ^^^ ·) ((aesShift 3 st).map (fun b => boxAt aesSboxInv b)) k)

theorem AesState.round {a k : List Nat} (ha : AesState a) (hk : AesState k) : AesState (aesRound a k) := (((ha.sub _).shift 1).mix).add hk

theorem rounds_state (ks : List (List Nat)) (h : ∀ k ∈ ks, AesState k) : ∀ st, AesState st → AesState (ks.foldl aesRound st) := by
  induction ks with
  | nil => intro st hs; exact hs
  | cons k ks ih => intro st hs; exact ih (fun x hx => h x (List.mem_cons_of_mem _ hx)) _ (hs.round (h k (List.mem_cons_self ..)))

/-- What the inverse reads after a round of AES, before its matrix. -/
theorem unround_round {a k : List Nat} (ha : AesState a) (hk : AesState k) :
    aesMix [14, 11, 13, 9] (List.zipWith (· ^^^ ·) (aesRound a k) k) = aesShift 1 (a.map (fun b => boxAt aesSbox b)) := by
  have s := ((ha.sub aesSbox).shift 1)
  rw [aesRound, add_back (by rw [s.mix.1, hk.1]), mix_back _ s]

theorem unshift {a : List Nat} (ha : AesState a) : (aesShift 3 (aesShift 1 (a.map (fun b => boxAt aesSbox b)))).map (fun b => boxAt aesSboxInv b) = a := by
  rw [shift_back _ (ha.sub _).1, sub_back ha]

/-- The inverse rounds, from the shifted and substituted state, undo the rounds. -/
theorem unrounds (ks : List (List Nat)) (h : ∀ k ∈ ks, AesState k) (st : List Nat) (hs : AesState st) :
    ks.reverse.foldl aesUnround (aesShift 1 ((ks.foldl aesRound st).map (fun b => boxAt aesSbox b))) = aesShift 1 (st.map (fun b => boxAt aesSbox b)) := by
  induction ks generalizing st with
  | nil => rfl
  | cons k ks ih =>
    have hk := h k (List.mem_cons_self ..)
    have hr := hs.round hk
    rw [List.foldl_cons, List.reverse_cons, List.foldl_append, ih (fun x hx => h x (List.mem_cons_of_mem _ hx)) _ hr, List.foldl_cons, List.foldl_nil, aesUnround,
      unshift hr, unround_round hs hk]

theorem bytes_nats (l : Bytes) : (l.map (·.toNat)).map (BitVec.ofNat 8) = l := by
  rw [List.map_map]
  conv => rhs; rw [← List.map_id l]
  exact List.map_congr_left (fun x _ => by simp)

theorem nats_bytes (l : List Nat) (h : ∀ x ∈ l, x < 256) : (l.map (BitVec.ofNat 8)).map (·.toNat) = l := by
  rw [List.map_map]
  conv => rhs; rw [← List.map_id l]
  exact List.map_congr_left (fun x hx => by simp [Nat.mod_eq_of_lt (h x hx)])

theorem padTo_length (n : Nat) (b : Bytes) : (padTo n b).length = n := by simp [padTo]; omega

theorem padTo_eq {n : Nat} {b : Bytes} (h : b.length = n) : padTo n b = b := by simp [padTo, ← h]

/-- A key schedule: its first row, those of the rounds, its last row. -/
theorem rows_split (ks : List (List Nat)) (h : 2 ≤ ks.length) :
    ks = ks.getD 0 [] :: ((ks.drop 1).take (ks.length - 1 - 1) ++ [ks.getD (ks.length - 1) []]) := by
  match ks, h with
  | a :: r, h =>
    have hr : r ≠ [] := by rintro rfl; simp at h
    have e := List.dropLast_concat_getLast hr
    simp only [List.getD_cons_zero, List.drop_succ_cons, List.drop_zero, List.length_cons, Nat.add_sub_cancel]
    rw [← List.dropLast_eq_take, List.getD_eq_getElem?_getD, show r.length = r.length - 1 + 1 by cases r <;> simp_all, List.getElem?_cons_succ,
      ← List.getLast?_eq_getElem?, List.getLast?_eq_some_getLast hr, Option.getD_some, e]

/-- AES written over its schedule. -/
theorem aes_rows (key blk : Bytes) (a z : List Nat) (m : List (List Nat)) (h : aesKeys key = a :: (m ++ [z])) :
    aes key blk = (List.zipWith (· ^^^ ·) (aesShift 1 ((m.foldl aesRound (List.zipWith (· ^^^ ·) ((padTo 16 blk).map (·.toNat)) a)).map (fun b => boxAt aesSbox b))) z).map
      (BitVec.ofNat 8) := by
  unfold aes
  simp only [h, List.length_cons, List.length_append, List.length_nil, Nat.zero_add, Nat.add_sub_cancel, List.drop_succ_cons, List.drop_zero, List.getD_cons_zero,
    List.getD_cons_succ, List.take_left]
  congr 2
  simp [List.getD_eq_getElem?_getD]

theorem aesInv_rows (key blk : Bytes) (a z : List Nat) (m : List (List Nat)) (h : aesKeys key = a :: (m ++ [z])) :
    aesInv key blk = (List.zipWith (· ^^^ ·) ((aesShift 3 (m.reverse.foldl aesUnround (List.zipWith (· ^^^ ·) ((padTo 16 blk).map (·.toNat)) z))).map
      (fun b => boxAt aesSboxInv b)) a).map (BitVec.ofNat 8) := by
  have e : (aesKeys key).reverse = z :: (m.reverse ++ [a]) := by simp [h]
  unfold aesInv
  simp only [e, List.length_cons, List.length_append, List.length_nil, Nat.zero_add, Nat.add_sub_cancel, List.drop_succ_cons, List.drop_zero, List.getD_cons_zero,
    List.getD_cons_succ, List.take_left]
  congr 2
  simp [List.getD_eq_getElem?_getD]

theorem aes_parts (key : Bytes) (hk : 4 ≤ key.length) (h4 : key.length % 4 = 0) :
    ∃ a z m, aesKeys key = a :: (m ++ [z]) ∧ AesState a ∧ AesState z ∧ ∀ k ∈ m, AesState k := by
  have k := keys_ok key hk h4
  have e := rows_split (aesKeys key) (by omega)
  have all := k.1
  rw [e] at all
  exact ⟨_, _, _, e, all _ (by simp), all _ (by simp), fun x hx => all _ (List.mem_cons_of_mem _ (List.mem_append_left _ hx))⟩

theorem aes_length (key blk : Bytes) (hk : 4 ≤ key.length) (h4 : key.length % 4 = 0) : (aes key blk).length = 16 := by
  obtain ⟨a, z, m, e, -, hz, -⟩ := aes_parts key hk h4
  rw [aes_rows key blk a z m e]
  simp [aesShift, hz.1]

/-- FIPS 197: the inverse cipher undoes the cipher. -/
theorem aesInv_aes (key blk : Bytes) (hk : 4 ≤ key.length) (h4 : key.length % 4 = 0) (hb : blk.length = 16) : aesInv key (aes key blk) = blk := by
  obtain ⟨a, z, m, e, ha, hz, hm⟩ := aes_parts key hk h4
  have s0 : AesState ((padTo 16 blk).map (·.toNat)) :=
    ⟨by simp [padTo_length], fun x hx => by obtain ⟨b, -, rfl⟩ := List.mem_map.1 hx; exact b.isLt⟩
  have s1 := s0.add ha
  have sm := rounds_state m hm _ s1
  have sf := ((sm.sub aesSbox).shift 1)
  rw [aesInv_rows key _ a z m e, padTo_eq (aes_length key blk hk h4), aes_rows key blk a z m e, nats_bytes _ (sf.add hz).2, add_back (by rw [sf.1, hz.1]),
    unrounds m hm _ s1, unshift s1, add_back (by rw [s0.1, ha.1]), bytes_nats, padTo_eq hb]

/-! Key wrap (SP 800-38F). -/

theorem xorBytes_back {a k : Bytes} (h : a.length = k.length) : xorBytes (xorBytes a k) k = a := by
  apply List.ext_getElem (by simp [xorBytes, h])
  intro i h1 h2
  simp [xorBytes, BitVec.xor_assoc]

theorem beBytes_length (n v : Nat) : (beBytes n v).length = n := by simp [beBytes]

/-- One step of W over semiblocks of h bytes, and its inverse. -/
def wStep (h : Nat) (enc : Bytes → Bytes) (p : Bytes × List Bytes) (t : Nat) : Bytes × List Bytes :=
  (xorBytes ((enc (p.1 ++ p.2.headD [])).take h) (beBytes h (t + 1)), p.2.drop 1 ++ [(enc (p.1 ++ p.2.headD [])).drop h])
def wUnstep (h : Nat) (dec : Bytes → Bytes) (m : Nat) (p : Bytes × List Bytes) (t : Nat) : Bytes × List Bytes :=
  ((dec (xorBytes p.1 (beBytes h (m - t)) ++ p.2.getLast?.getD [])).take h, (dec (xorBytes p.1 (beBytes h (m - t)) ++ p.2.getLast?.getD [])).drop h :: p.2.dropLast)

/-- The registers of W: n semiblocks of h bytes and one more. -/
def WRegs (h n : Nat) (p : Bytes × List Bytes) : Prop := p.1.length = h ∧ p.2.length = n ∧ ∀ x ∈ p.2, x.length = h

theorem wStep_regs {h n : Nat} {enc : Bytes → Bytes} (he : ∀ b, b.length = 2 * h → (enc b).length = 2 * h) (hn : 1 ≤ n) {p : Bytes × List Bytes} (hp : WRegs h n p) (t : Nat) :
    WRegs h n (wStep h enc p t) := by
  obtain ⟨a, r⟩ := p
  obtain ⟨ha, hr, hx⟩ := hp
  simp only at ha hr hx
  match r, hr, hn with
  | [], hr, hn => simp at hr; omega
  | x :: r, hr, _ =>
    have hx0 := hx x (by simp)
    have l : (enc (a ++ x)).length = 2 * h := he _ (by simp at ha ⊢; omega)
    refine ⟨by simp [wStep, xorBytes, beBytes_length, l]; omega, by simp [wStep] at hr ⊢; omega, ?_⟩
    intro y hy
    simp [wStep] at hy
    rcases hy with hy | rfl
    · exact hx y (by simp [hy])
    · simp [l]; omega

theorem wUnstep_wStep {h n : Nat} {enc dec : Bytes → Bytes} (he : ∀ b, b.length = 2 * h → (enc b).length = 2 * h) (hd : ∀ b, b.length = 2 * h → dec (enc b) = b)
    (hn : 1 ≤ n) {p : Bytes × List Bytes} (hp : WRegs h n p) (m t : Nat) (ht : m - t = u + 1) : wUnstep h dec m (wStep h enc p u) t = p := by
  obtain ⟨a, r⟩ := p
  obtain ⟨ha, hr, hx⟩ := hp
  simp only at ha hr hx
  match r, hr, hn with
  | [], hr, hn => simp at hr; omega
  | x :: r, hr, _ =>
    have hx0 := hx x (by simp)
    have ln : (a ++ x).length = 2 * h := by simp at ha ⊢; omega
    have l := he _ ln
    simp only [wUnstep, wStep, ht, List.headD_cons, List.drop_succ_cons, List.drop_zero, List.getLast?_append, List.getLast?_singleton, Option.or_some, Option.some_or, Option.getD_some,
      List.dropLast_concat]
    rw [xorBytes_back (by rw [List.length_take, beBytes_length, l]; omega), List.take_append_drop, hd _ ln]
    simp [← ha]

theorem wSteps {h n : Nat} {enc : Bytes → Bytes} (he : ∀ b, b.length = 2 * h → (enc b).length = 2 * h) (hn : 1 ≤ n) {p : Bytes × List Bytes} (hp : WRegs h n p) (m : Nat) :
    WRegs h n ((List.range m).foldl (wStep h enc) p) := by
  induction m with
  | zero => exact hp
  | succ m ih => rw [List.range_succ, List.foldl_append]; exact wStep_regs he hn ih m

theorem wUnsteps {h n : Nat} {enc dec : Bytes → Bytes} (he : ∀ b, b.length = 2 * h → (enc b).length = 2 * h) (hd : ∀ b, b.length = 2 * h → dec (enc b) = b)
    (hn : 1 ≤ n) {p : Bytes × List Bytes} (hp : WRegs h n p) (m : Nat) :
    (List.range m).foldl (wUnstep h dec m) ((List.range m).foldl (wStep h enc) p) = p := by
  induction m with
  | zero => rfl
  | succ m ih =>
    have w := wSteps he hn hp m
    have s : (List.range (m + 1)).foldl (wStep h enc) p = wStep h enc ((List.range m).foldl (wStep h enc) p) m := by
      rw [List.range_succ, List.foldl_append, List.foldl_cons, List.foldl_nil]
    rw [s, List.range_succ_eq_map, List.foldl_cons, wUnstep_wStep he hd hn w (m + 1) 0 (by omega), List.foldl_map]
    have e : (fun p t => wUnstep h dec (m + 1) p (Nat.succ t)) = wUnstep h dec m := by
      funext p t; simp only [wUnstep, Nat.succ_eq_add_one, Nat.add_sub_add_right]
    rw [e]; exact ih

theorem semis_regs (h : Nat) (hh : 0 < h) (d : Bytes) (n : Nat) (hd : d.length = n * h) : (semis h d).length = n ∧ ∀ x ∈ semis h d, x.length = h := by
  have e : d.length / h = n := by rw [hd, Nat.mul_div_cancel _ hh]
  refine ⟨by simp [semis, e], fun x hx => ?_⟩
  obtain ⟨i, hi, rfl⟩ := List.mem_map.1 hx
  rw [e] at hi
  have hi := List.mem_range.1 hi
  have : h * i + h ≤ n * h := by rw [Nat.mul_comm n, ← Nat.mul_succ]; exact Nat.mul_le_mul_left h hi
  simp; omega

theorem semis_flatten (h : Nat) (hh : 0 < h) : ∀ r : List Bytes, (∀ x ∈ r, x.length = h) → semis h r.flatten = r := by
  intro r
  induction r with
  | nil => intro _; simp [semis]
  | cons x r ih =>
    intro hx
    have hx0 := hx x (by simp)
    have hr := ih (fun y hy => hx y (List.mem_cons_of_mem _ hy))
    have e : (x ++ r.flatten).length / h = r.flatten.length / h + 1 := by rw [List.length_append, hx0, Nat.add_div_left _ hh]
    rw [List.flatten_cons, semis, e, List.range_succ_eq_map, List.map_cons, List.map_map]
    congr 1
    · simp [← hx0]
    · refine Eq.trans ?_ hr
      rw [semis]
      refine List.map_congr_left (fun i _ => ?_)
      have : h * (i + 1) = x.length + h * i := by rw [Nat.mul_succ, hx0, Nat.add_comm]
      simp only [Function.comp_def, Nat.succ_eq_add_one, this, List.drop_append]
      rw [List.drop_eq_nil_of_le (by omega), List.nil_append, Nat.add_sub_cancel_left]

theorem flatten_semis (h : Nat) (hh : 0 < h) : ∀ (n : Nat) (d : Bytes), d.length = n * h → (semis h d).flatten = d
  | 0, d, hd => by
    have : d = [] := List.eq_nil_of_length_eq_zero (by omega)
    subst this; simp [semis]
  | n + 1, d, hd => by
    have e : d.length / h = n + 1 := by rw [hd, Nat.mul_div_cancel _ hh]
    have e' : (d.drop h).length / h = n := by rw [List.length_drop, hd, Nat.succ_mul, Nat.add_sub_cancel, Nat.mul_div_cancel _ hh]
    have hr := flatten_semis h hh n (d.drop h) (by rw [List.length_drop, hd, Nat.succ_mul, Nat.add_sub_cancel])
    rw [semis, e'] at hr
    rw [semis, e, List.range_succ_eq_map, List.map_cons, List.flatten_cons, List.map_map]
    conv => rhs; rw [← List.take_append_drop h d]
    rw [Nat.mul_zero, List.drop_zero]
    congr 1
    · refine Eq.trans ?_ hr
      congr 1
      refine List.map_congr_left (fun i _ => ?_)
      simp only [Function.comp_def, Nat.succ_eq_add_one, List.drop_drop]
      rw [Nat.mul_succ, Nat.add_comm]

/-- W and its inverse, on n semiblocks of h bytes. -/
theorem unwrapW_wrapW {h n : Nat} {enc dec : Bytes → Bytes} (he : ∀ b, b.length = 2 * h → (enc b).length = 2 * h) (hd : ∀ b, b.length = 2 * h → dec (enc b) = b)
    (hh : 0 < h) (hn : 1 ≤ n) {a d : Bytes} (ha : a.length = h) (hl : d.length = n * h) : unwrapW h dec (wrapW h enc a d) = (a, d) := by
  have regs : WRegs h n (a, semis h d) := ⟨ha, (semis_regs h hh d n hl).1, (semis_regs h hh d n hl).2⟩
  have e : d.length / h = n := by rw [hl, Nat.mul_div_cancel _ hh]
  have w : wrapW h enc a d = ((List.range (6 * n)).foldl (wStep h enc) (a, semis h d)).1 ++ ((List.range (6 * n)).foldl (wStep h enc) (a, semis h d)).2.flatten := by
    unfold wrapW; rw [e]; rfl
  have z := wSteps he hn regs (6 * n)
  have back := wUnsteps he hd hn regs (6 * n)
  rw [w]
  generalize (List.range (6 * n)).foldl (wStep h enc) (a, semis h d) = q at z back
  obtain ⟨x, r⟩ := q
  obtain ⟨hx, hr, hs⟩ := z
  have fl : r.flatten.length = n * h := by
    have : r.map List.length = List.replicate n h := by
      rw [← hr, ← List.map_const']; exact List.map_congr_left (fun y hy => hs y hy)
    rw [List.length_flatten, this, List.sum_replicate_nat]
  simp only at hx
  have e1 : (x ++ r.flatten).length / h - 1 = n := by
    rw [List.length_append, hx, fl, Nat.add_comm, ← Nat.succ_mul, Nat.mul_div_cancel _ hh]; rfl
  unfold unwrapW
  simp only [e1]
  rw [List.take_left' hx, List.drop_left' hx, semis_flatten h hh r hs]
  have b1 := congrArg Prod.fst back
  have b2 := congrArg Prod.snd back
  exact Prod.ext b1 ((congrArg List.flatten b2).trans (flatten_semis h hh n d hl))

theorem aes_pair (key : Bytes) (hk : 4 ≤ key.length) (h4 : key.length % 4 = 0) :
    (∀ b, b.length = 2 * 8 → (aes key b).length = 2 * 8) ∧ ∀ b, b.length = 2 * 8 → aesInv key (aes key b) = b :=
  ⟨fun b _ => aes_length key b hk h4, fun b hb => aesInv_aes key b hk h4 hb⟩

/-- AES-KW undone (SP 800-38F). -/
theorem kwUnwrap_kwWrap {n : Nat} (key d : Bytes) (hk : 4 ≤ key.length) (h4 : key.length % 4 = 0) (hn : 1 ≤ n) (hd : d.length = n * 8) :
    keyUnwrap 1 key (keyWrap 1 key d) = some d := by
  have a := aes_pair key hk h4
  simp only [keyUnwrap, keyWrap, kwUnwrap, kwWrap]
  rw [unwrapW_wrapW a.1 a.2 (by decide) hn (by simp [wrapIv]) hd]
  rfl

theorem wrapW_length {n : Nat} (key a d : Bytes) (hk : 4 ≤ key.length) (h4 : key.length % 4 = 0) (hn : 1 ≤ n) (ha : a.length = 8) (hd : d.length = n * 8) :
    (wrapW 8 (aes key) a d).length = 8 * (n + 1) := by
  have regs : WRegs 8 n (a, semis 8 d) := ⟨ha, (semis_regs 8 (by decide) d n hd).1, (semis_regs 8 (by decide) d n hd).2⟩
  have e : d.length / 8 = n := by rw [hd, Nat.mul_div_cancel _ (by decide)]
  have z := wSteps (aes_pair key hk h4).1 hn regs (6 * n)
  have w : wrapW 8 (aes key) a d = ((List.range (6 * n)).foldl (wStep 8 (aes key)) (a, semis 8 d)).1 ++ ((List.range (6 * n)).foldl (wStep 8 (aes key)) (a, semis 8 d)).2.flatten := by
    unfold wrapW; rw [e]; rfl
  rw [w]
  generalize (List.range (6 * n)).foldl (wStep 8 (aes key)) (a, semis 8 d) = q at z
  have : q.2.map List.length = List.replicate n 8 := by
    rw [← z.2.1, ← List.map_const']; exact List.map_congr_left (fun y hy => z.2.2 y hy)
  rw [List.length_append, z.1, List.length_flatten, this, List.sum_replicate_nat]; omega

/-- AES-KWP of whole semiblocks, two or more, undone (SP 800-38F). -/
theorem kwpUnwrap_kwpWrap {n : Nat} (key d : Bytes) (hk : 4 ≤ key.length) (h4 : key.length % 4 = 0) (hn : 2 ≤ n) (hs : n < 2 ^ 28) (hd : d.length = n * 8) :
    keyUnwrap 2 key (keyWrap 2 key d) = some d ∧ (keyWrap 2 key d).length = 8 * (n + 1) := by
  have a := aes_pair key hk h4
  have p : padTo ((d.length + 7) / 8 * 8) d = d := padTo_eq (by omega)
  have hv : (([0xA6, 0x59, 0x59, 0xA6] : Bytes) ++ beBytes 4 d.length).length = 8 := by simp [beBytes_length]
  have wr : keyWrap 2 key d = wrapW 8 (aes key) ([0xA6, 0x59, 0x59, 0xA6] ++ beBytes 4 d.length) d := by
    simp only [keyWrap, kwpWrap, p]; rw [if_neg (by omega)]
  have wl := wrapW_length key _ d hk h4 (by omega : 1 ≤ n) hv hd
  have be : beNat (beBytes 4 d.length) = d.length := by
    rw [beBytes, beNat, List.reverse_reverse, leNat_leBytes]; exact Nat.mod_eq_of_lt (by omega)
  refine ⟨?_, by rw [wr, wl]⟩
  rw [wr]
  have ne : ¬ (wrapW 8 (aes key) ([0xA6, 0x59, 0x59, 0xA6] ++ beBytes 4 d.length) d).length = 16 := by rw [wl]; omega
  simp only [keyUnwrap, kwpUnwrap, ne, if_false, unwrapW_wrapW a.1 a.2 (by decide) (by omega : 1 ≤ n) hv hd]
  simp [be]

/-! Lengths of digests, derived keys and tags. -/

theorem be_words_length {w : Nat} (ws : List (BitVec w)) : (ofBeWords ws).length = ws.length * (w / 8) := by
  rw [ofBeWords, List.length_flatten, List.map_map, show List.length ∘ (fun x : BitVec w => beBytes (w / 8) x.toNat) = fun _ => w / 8 from funext (fun x => by simp [beBytes]),
    List.map_const', List.sum_replicate_nat]

theorem sha_rounds_length {w : Nat} (l : List (BitVec w × BitVec w)) : ∀ h : List (BitVec w), h.length = 8 → (l.foldl shaRound h).length = 8 := by
  induction l with
  | nil => intro h e; exact e
  | cons a l ih => intro h e; exact ih _ (by rfl)

theorem compress_length {alg : Nat} (ha : alg = 2 ∨ alg = 3) (c b : Bytes) (h : c.length = chainLen alg) : (compress alg c b).length = chainLen alg := by
  rcases ha with rfl | rfl
  · have e : (beWords 32 c).length = 8 := by simp [beWords, h, chainLen]
    simp only [compress, sha2, Nat.reduceLeDiff, if_false, if_true, be_words_length, List.length_zipWith, e, sha_rounds_length _ _ e]
    decide
  · have e : (beWords 64 c).length = 8 := by simp [beWords, h, chainLen]
    simp only [compress, sha2, Nat.reduceLeDiff, if_false, if_true, be_words_length, List.length_zipWith, e, sha_rounds_length _ _ e]
    decide

theorem absorb_length {alg : Nat} (ha : alg = 2 ∨ alg = 3) : ∀ (n : Nat) (c t : Bytes), c.length = chainLen alg → (absorb alg n c t).1.length = chainLen alg
  | 0, _, _, h => h
  | n + 1, c, t, h => by
    rw [absorb]; split
    · exact h
    · exact absorb_length ha n _ _ (compress_length ha _ _ h)

theorem iv_length {alg : Nat} (ha : alg = 2 ∨ alg = 3) : (hashIv alg).length = chainLen alg := by
  rcases ha with rfl | rfl <;> (simp only [hashIv, sha2Iv, be_words_length]; decide +kernel)

theorem finish_length {alg : Nat} (ha : alg = 2 ∨ alg = 3) (c : Bytes) (n : Nat) (t : Bytes) (h : c.length = chainLen alg) : (finish alg c n t).length = digestLen alg := by
  simp only [finish, List.length_take]
  rw [absorb_length ha 3 _ _ (absorb_length ha _ _ _ h)]
  rcases ha with rfl | rfl <;> rfl

theorem digest_length {alg : Nat} (ha : alg = 2 ∨ alg = 3) (m : Bytes) : (digest alg m).length = digestLen alg := finish_length ha _ _ _ (iv_length ha)

theorem hmac_length (key m : Bytes) : (hmac 2 key m).length = 32 :=
  finish_length (.inl rfl) _ _ _ (compress_length (.inl rfl) _ _ (iv_length (.inl rfl)))

theorem kdf_length (key fixed : Bytes) : (kdf 32 0 key fixed).length = 32 := by
  have e : ((List.range (32 / 16 + 1)).map (fun i => if (0 : Nat) = 0 then hmac 2 key (beBytes 4 (i + 1) ++ fixed) else aesCmac key (beBytes 4 (i + 1) ++ fixed))).map List.length =
      List.replicate 3 32 := by
    simp only [List.map_map, Function.comp_def, ↓reduceIte, hmac_length]
    rfl
  unfold kdf
  rw [List.length_take, List.length_flatten, e]
  rfl

theorem gmul_length (x y : Bytes) : (gmul x y).length = 16 := beBytes_length 16 _

theorem ghash_length (h a c : Bytes) : (ghash h a c).length = 16 := by
  have f (l : List Bytes) : ∀ y : Bytes, y.length = 16 → (l.foldl (fun y b => gmul (xorBytes y (padTo 16 b)) h) y).length = 16 := by
    induction l with
    | nil => intro y e; exact e
    | cons x l ih => intro y _; exact ih _ (gmul_length _ _)
  exact f _ _ (by simp)

theorem gcmTag_length (key iv a c : Bytes) (hk : 4 ≤ key.length) (h4 : key.length % 4 = 0) : (gcmTag key iv a c).length = 16 := by
  rw [gcmTag, xorBytes, List.length_zipWith, aes_length key _ hk h4, ghash_length]; rfl

end Sys2Proof.Machine
end

