-- ==== Sys2Proof/Laws/Store.lean ====
section
/-! SUPPORT. What journalling a change, asking for a commit, drawing random bits and creating a key do. -/

namespace Sys2Proof.Machine

open Sys2Proof.Safety

/-- Asking for a commit changes only when one starts, not what the store holds. -/
theorem tryCommit_only (s : State) :
    (tryCommit s).store.c = s.store.c ∧ (tryCommit s).store.nextSeq = s.store.nextSeq ∧ (tryCommit s).store.hist = s.store.hist ∧
    (tryCommit s).store.committed = s.store.committed ∧ (tryCommit s).mbox = s.mbox ∧ (tryCommit s).host = s.host ∧ (tryCommit s).log = s.log := by
  unfold tryCommit
  dsimp only
  split <;> simp

@[simp] theorem tryCommit_c (s : State) : (tryCommit s).store.c = s.store.c := (tryCommit_only s).1
@[simp] theorem tryCommit_nextSeq (s : State) : (tryCommit s).store.nextSeq = s.store.nextSeq := (tryCommit_only s).2.1
@[simp] theorem tryCommit_hist (s : State) : (tryCommit s).store.hist = s.store.hist := (tryCommit_only s).2.2.1
@[simp] theorem tryCommit_committed (s : State) : (tryCommit s).store.committed = s.store.committed := (tryCommit_only s).2.2.2.1
@[simp] theorem tryCommit_mbox (s : State) : (tryCommit s).mbox = s.mbox := (tryCommit_only s).2.2.2.2.1

@[simp] theorem wantCommit_c (b : Bool) (n : Nat) (s : State) : (wantCommit b n s).store.c = s.store.c := by
  unfold wantCommit; split <;> simp
@[simp] theorem wantCommit_nextSeq (b : Bool) (n : Nat) (s : State) : (wantCommit b n s).store.nextSeq = s.store.nextSeq := by
  unfold wantCommit; split <;> simp
@[simp] theorem wantCommit_hist (b : Bool) (n : Nat) (s : State) : (wantCommit b n s).store.hist = s.store.hist := by
  unfold wantCommit; split <;> simp
@[simp] theorem wantCommit_committed (b : Bool) (n : Nat) (s : State) : (wantCommit b n s).store.committed = s.store.committed := by
  unfold wantCommit; split <;> simp
@[simp] theorem wantCommit_mbox (b : Bool) (n : Nat) (s : State) : (wantCommit b n s).mbox = s.mbox := by
  unfold wantCommit; split <;> simp

/-- A change and its journal entry. -/
@[simp] theorem storeChange_c (x : Bytes) (f : Content → Content) (s : State) : (storeChange x f s).store.c = f s.store.c := rfl
@[simp] theorem storeChange_nextSeq (x : Bytes) (f : Content → Content) (s : State) : (storeChange x f s).store.nextSeq = s.store.nextSeq + 1 := rfl
@[simp] theorem storeChange_mbox (x : Bytes) (f : Content → Content) (s : State) : (storeChange x f s).mbox = s.mbox := rfl
@[simp] theorem storeChange_committed (x : Bytes) (f : Content → Content) (s : State) : (storeChange x f s).store.committed = s.store.committed := rfl

/-- Drawing random bits changes only how many have been drawn. -/
@[simp] theorem drawBytes_store (n : Nat) (s : State) : (drawBytes n s).2.store = s.store := rfl
@[simp] theorem drawBytes_mbox (n : Nat) (s : State) : (drawBytes n s).2.mbox = s.mbox := rfl

/-- Where a key goes depends on what the store holds only. -/
theorem placeKey_store (n : NewKey) {s u : State} (h : s.store = u.store) : placeKey n s = placeKey n u := by
  unfold placeKey; rw [h]

/-- A new key's first ceiling is one whole reservation above its first value (R71, R74). -/
theorem nextCeiling_first (k : KeyRec) : nextCeiling 1 k = 1 + reservation k := by
  unfold nextCeiling invocationLimit reservation
  repeat' split
  all_goals omega

/-- A created key stands in its slot, and its command ends or waits for the commit. -/
theorem createKey_creates (n : NewKey) (m r pub : Bytes) (s : State) (slot : Nat) (h : placeKey n s = .ok slot) :
    ∃ a u, createKey n m r pub s = (a, u) ∧ a ≠ .stay ∧ Created n slot s u := by
  unfold createKey maybeDurable durableAns
  simp only [h]
  split
  · refine ⟨_, _, rfl, by simp, ⟨_, by simp; rfl, ?_⟩, by simp, fun i hi => by simp [tget_tset_other, hi]⟩
    simp [newRecord, nextCeiling_first, reservation]
  · refine ⟨_, _, rfl, by simp, ⟨_, by simp; rfl, ?_⟩, by simp, fun i hi => by simp [tget_tset_other, hi]⟩
    simp [newRecord, nextCeiling_first, reservation]

/-- What a creation left is still there after its command's answer or wait. -/
theorem applyAns_created {mb : Mb} {q : Req} {n : NewKey} {slot : Nat} {s u : State} (a : Ans) (h : Created n slot s u) :
    Created n slot s (applyAns mb q (a, u)) := by
  unfold Created at *
  cases a <;> simpa [applyAns] using h

/-- A guarded command whose checks pass and that needs no quorum runs its effect. -/
theorem guarded_run {check : Mb → Req → State → Option Nat} {d : Desig} {run : Handler} {mb : Mb} {q : Req} {s : State}
    (h : check mb q s = none) (hd : d mb q s = none) : guarded check d run mb q s = run mb q s := by simp [guarded, h, hd]

/-- A store-changing effect runs once entries can be journalled. -/
theorem storeRun_run {run : Handler} {mb : Mb} {q : Req} {s : State} (h : canChange s = true) : storeRun run mb q s = run mb q s := by
  simp [storeRun, h]

end Sys2Proof.Machine
end

