-- ==== Sys2Proof/Laws/Wear.lean ====
section
/-! SUPPORT. What the COMMIT partition's operations keep (R539-R541): no page stands twice, the usable pages only fall, an erase count only rises. -/

namespace Sys2Proof.Machine
open Sys2Proof.Safety

theorem commitLe_rfl {c : CommitPart} : CommitLe c c := ⟨Nat.le_refl _, fun _ => Nat.le_refl _⟩

theorem commitLe_trans {a b c : CommitPart} (h : CommitLe a b) (k : CommitLe b c) : CommitLe a c :=
  ⟨Nat.le_trans k.1 h.1, fun p => Nat.le_trans (h.2 p) (k.2 p)⟩

theorem commitRetire_pages {c : CommitPart} (h : PagesWf c) : PagesWf (commitRetire c) := by
  obtain ⟨h, b⟩ := h
  unfold commitRetire
  split
  · rename_i sp r e
    rw [e] at h b
    have h' := List.nodup_append.1 h
    have hsp := List.nodup_cons.1 h'.2.1
    refine ⟨List.nodup_append.2 ⟨h'.1.set (fun m => h'.2.2 sp m sp (by simp) rfl), hsp.2, ?_⟩, ?_⟩
    · intro x hx y hy e'
      rcases List.mem_or_eq_of_mem_set hx with m | rfl
      · exact h'.2.2 x m y (by simp [hy]) e'
      · exact hsp.1 (e' ▸ hy)
    · intro p hp
      rcases List.mem_append.1 hp with m | m
      · rcases List.mem_or_eq_of_mem_set m with m | rfl
        · exact b p (by simp [m])
        · exact b _ (by simp)
      · exact b p (by simp [m])
  · rename_i e
    rw [e] at h b
    simp only [List.append_nil] at h b
    refine ⟨?_, ?_⟩
    · simpa [e] using h.sublist (List.eraseIdx_sublist c.ring c.cur)
    · intro p hp
      simp only [e, List.append_nil] at hp
      exact b p ((List.eraseIdx_sublist c.ring c.cur).subset hp)

theorem commitRetire_le {c : CommitPart} : CommitLe c (commitRetire c) := by
  unfold commitRetire
  split
  · rename_i e
    refine ⟨?_, fun _ => Nat.le_refl _⟩
    simp [commitU, e]
  · rename_i e
    refine ⟨?_, fun _ => Nat.le_refl _⟩
    simpa [commitU, e] using (List.eraseIdx_sublist c.ring c.cur).length_le

theorem commitRetire_slot {c : CommitPart} : (commitRetire c).slot = c.slot := by
  unfold commitRetire; split <;> rfl

theorem eraseOne_le {t : Tab Nat} {q : Nat} (p : Nat) : tgetD t p 0 ≤ tgetD (tset t q (tgetD t q 0 + 1)) p 0 := by
  by_cases e : p = q
  · subst e; simp
  · rw [tgetD_tset_other _ _ _ _ _ e]

/-- All that preparing a page can do. -/
theorem commitPrepare_spec {no k : Nat} {c : CommitPart} (h : PagesWf c) :
    PagesWf (commitPrepare no k c) ∧ CommitLe c (commitPrepare no k c) ∧
    ((commitPrepare no k c).slot = 0 ∨ (commitPrepare no k c).slot = c.slot) ∧
    ((commitPrepare no k c).stopped = true ∨
      (commitPrepare no k c).slot = 0 ∧ (commitPrepare no k c).cur < (commitPrepare no k c).ring.length) := by
  induction k generalizing c with
  | zero => exact ⟨h, commitLe_rfl, .inr rfl, .inl rfl⟩
  | succ k ih =>
    unfold commitPrepare
    split
    · exact ⟨h, commitLe_rfl, .inr rfl, .inl rfl⟩
    · rename_i p e
      split
      · exact ⟨h, commitLe_rfl, .inr rfl, .inl rfl⟩
      · dsimp only
        have le : CommitLe c { c with slot := 0, erase := tset c.erase p (tgetD c.erase p 0 + 1), first := tset c.first p no } :=
          ⟨Nat.le_refl _, fun q => eraseOne_le q⟩
        split
        · exact ⟨h, le, .inl rfl, .inr ⟨rfl, (List.getElem?_eq_some_iff.1 e).1⟩⟩
        · obtain ⟨a, b, d, f⟩ := ih (c := commitRetire { c with slot := 0, erase := tset c.erase p (tgetD c.erase p 0 + 1), first := tset c.first p no })
            (commitRetire_pages h)
          refine ⟨a, commitLe_trans (commitLe_trans le commitRetire_le) b, ?_, f⟩
          rcases d with d | d
          · exact .inl d
          · exact .inl (by rw [d, commitRetire_slot])

theorem commitPut_spec {c : CommitPart} (h : PagesWf c) (w : c.stopped = true ∧ c.slot ≤ 32 ∨ c.slot < 32 ∧ c.cur < c.ring.length) :
    CommitWf (commitPut c) ∧ CommitLe c (commitPut c) := by
  unfold commitPut
  rcases w with ⟨a, b⟩ | ⟨a, b⟩
  · rw [a]; exact ⟨⟨h, b, .inl a⟩, commitLe_rfl⟩
  · split
    · rename_i e; exact ⟨⟨h, Nat.le_of_lt a, .inl e⟩, commitLe_rfl⟩
    · exact ⟨⟨h, a, .inr b⟩, ⟨Nat.le_refl _, fun _ => Nat.le_refl _⟩⟩

/-- A commit record keeps the partition well formed; the usable pages do not grow and no erase count falls. -/
theorem commitAppend_spec {ok : Bool} {no : Nat} {c : CommitPart} (h : CommitWf c) :
    CommitWf (commitAppend ok no c).1 ∧ CommitLe c (commitAppend ok no c).1 := by
  have key : ∀ d : CommitPart, PagesWf d → CommitLe c d → (d.stopped = true ∧ d.slot ≤ 32 ∨ d.slot < 32 ∧ d.cur < d.ring.length) →
      CommitWf (if (d.stopped || ok) = true then (commitPut d, false)
        else (commitPut (commitPrepare no (commitU d + 1) (commitRetire d)), true)).1 ∧
      CommitLe c (if (d.stopped || ok) = true then (commitPut d, false)
        else (commitPut (commitPrepare no (commitU d + 1) (commitRetire d)), true)).1 := by
    intro d p l w
    split
    · exact ⟨(commitPut_spec p w).1, commitLe_trans l (commitPut_spec p w).2⟩
    · obtain ⟨a, b, e, f⟩ := commitPrepare_spec (no := no) (k := commitU d + 1) (commitRetire_pages p)
      have g : (commitRetire d).slot ≤ 32 := by
        rw [commitRetire_slot]; rcases w with w | w <;> omega
      have x := commitPut_spec a (by
        rcases f with f | ⟨f, f'⟩
        · left; refine ⟨f, ?_⟩; rcases e with e | e <;> omega
        · right; exact ⟨by omega, f'⟩)
      exact ⟨x.1, commitLe_trans (commitLe_trans (commitLe_trans l commitRetire_le) b) x.2⟩
  obtain ⟨p, sl, st⟩ := h
  unfold commitAppend
  dsimp only
  by_cases lt : c.slot < 32
  · rw [if_pos lt]
    exact key c p commitLe_rfl (by rcases st with st | st <;> [left; right] <;> exact ⟨by assumption, by omega⟩)
  · rw [if_neg lt]
    unfold commitAdvance
    obtain ⟨a, b, e, f⟩ := commitPrepare_spec (no := no) (k := commitU c + 1) (c := { c with cur := (c.cur + 1) % c.ring.length }) p
    refine key _ a b ?_
    rcases f with f | ⟨f, f'⟩
    · left; refine ⟨f, ?_⟩; rcases e with e | e
      · omega
      · rw [e]; exact sl
    · right; exact ⟨by omega, f'⟩

theorem eraseAll_le {ps : List Nat} {e : Tab Nat} (p : Nat) : tgetD e p 0 ≤ tgetD (eraseAll ps e) p 0 := by
  induction ps generalizing e with
  | nil => exact Nat.le_refl _
  | cons q r ih => exact Nat.le_trans (eraseOne_le p) ih

/-- The erase of the whole partition at stage LC keeps it well formed too. -/
theorem commitErase_spec {c : CommitPart} (h : PagesWf c) : CommitWf (commitErase c) ∧ CommitLe c (commitErase c) := by
  obtain ⟨nd, bd⟩ := h
  have fold : ∀ (f : CommitPart → Nat → Bool) (l : List Nat) (d : CommitPart), PagesWf d → CommitLe c d →
      PagesWf (l.foldl (fun d i => if f d i = true then commitRetire { d with cur := i } else d) d) ∧
      CommitLe c (l.foldl (fun d i => if f d i = true then commitRetire { d with cur := i } else d) d) := by
    intro f l
    induction l with
    | nil => exact fun d p q => ⟨p, q⟩
    | cons i r ih =>
      intro d p q
      rw [List.foldl_cons]
      apply ih
      · split
        · exact commitRetire_pages (c := { d with cur := i }) p
        · exact p
      · split
        · exact commitLe_trans q (commitLe_trans (b := { d with cur := i }) ⟨Nat.le_refl _, fun _ => Nat.le_refl _⟩ commitRetire_le)
        · exact q
  unfold commitErase
  dsimp only
  obtain ⟨a, b⟩ := fold (fun d i => decide (100000 ≤ tgetD (eraseAll (c.ring ++ c.spares) c.erase) (d.ring.getD i 0) 0)) (List.range c.ring.length).reverse
    { c with erase := eraseAll (c.ring ++ c.spares) c.erase, first := [], spares := c.spares.filter (fun p => !decide (100000 ≤ tgetD (eraseAll (c.ring ++ c.spares) c.erase) p 0)) }
    (by
      refine ⟨List.Nodup.sublist (List.Sublist.append_left List.filter_sublist _) nd, fun p hp => bd p ?_⟩
      exact (List.Sublist.append_left List.filter_sublist _).subset hp)
    ⟨by simpa [commitU] using List.length_filter_le _ _, fun p => eraseAll_le p⟩
  refine ⟨⟨a, by simp, ?_⟩, ?_⟩
  · dsimp only
    cases e : (List.foldl _ _ _ : CommitPart).ring with
    | nil => exact .inl rfl
    | cons => exact .inr (by simp)
  · exact ⟨b.1, b.2⟩

end Sys2Proof.Machine
end

