-- ==== Sys2Proof/Laws/Worn.lean ====
section
/-! SUPPORT. What every command does to the queue, the clock and the COMMIT partition. -/

namespace Sys2Proof.Machine
open Sys2Proof.Safety

/-- The queue and the clock are the same; a well-formed COMMIT partition stays so and only wears. -/
def Worn (s t : State) : Prop :=
  t.pending = s.pending ∧ t.us = s.us ∧ (CommitWf s.commit → CommitWf t.commit ∧ CommitLe s.commit t.commit)

/-- An outcome whose next state, if any, stands in that relation. -/
def WornO (s : State) (o : Out) : Prop := ∀ t, o = .next t → Worn s t

theorem Same.worn {s t : State} (h : Same s t) : Worn s t := by
  obtain ⟨a, b, c⟩ : t.pending = s.pending ∧ t.us = s.us ∧ t.commit = s.commit := by
    simpa [Same, apart] using h
  exact ⟨a, b, by rw [c]; exact fun w => ⟨w, commitLe_rfl⟩⟩

theorem SameO.worn {s : State} {o : Out} (h : SameO s o) : WornO s o := fun t e => (h t e).worn

theorem Worn.trans {s t u : State} (h : Worn s t) (k : Worn t u) : Worn s u :=
  ⟨k.1.trans h.1, k.2.1.trans h.2.1, fun w => ⟨(k.2.2 (h.2.2 w).1).1, commitLe_trans (h.2.2 w).2 (k.2.2 (h.2.2 w).1).2⟩⟩

theorem execCommitDone_worn {ok : Bool} {s : State} : WornO s (execCommitDone ok s) := by
  intro t e
  unfold execCommitDone at e
  cases e
  split
  · exact Same.rfl.worn
  · dsimp only
    refine Worn.trans (t := { s with commit := (commitAppend ok (s.store.commitNo + 1) s.commit).1, store.committing := false })
      ⟨rfl, rfl, commitAppend_spec⟩ ?_
    generalize commitAppend ok (s.store.commitNo + 1) s.commit = c
    refine Same.worn (Same.trans (Same.trans (Same.trans (Same.trans ?_ finishEnds_same) tryCommit_same) serviceStands_same) refreshMode_same)
    split
    · refine Same.trans ?_ commitStop_same
      split
      · exact correctedReport_same
      · exact Same.rfl
    · refine Same.trans ?_ commitCovers_same
      simp only [Same.mk]
      apply Same.fold
      split
      · exact correctedReport_same
      · exact Same.rfl

theorem lcWork_worn {s : State} : Worn s (lcWork s) := by
  unfold lcWork
  dsimp only
  have er : ∀ t : State, t.pending = s.pending → t.us = s.us → t.commit = commitErase s.commit → Worn s t :=
    fun t a b c => ⟨a, b, by rw [c]; exact fun w => commitErase_spec w.1⟩
  split
  · exact Same.rfl.worn
  · split
    · exact er _ rfl rfl rfl
    · exact er _ rfl rfl rfl
    · exact er _ rfl rfl rfl
    · exact Same.worn rfl

theorem stageLc_worn {s : State} : Worn s (stageLc s) := by
  unfold stageLc
  refine Worn.trans (Worn.trans (Same.worn (rfl : Same s { s with lc.decoded := lcDecode s.lc })) lcWork_worn) (Same.worn ?_)
  generalize lcWork { s with lc.decoded := lcDecode s.lc } = u
  dsimp only
  split
  · refine Same.trans ?_ firstMode_same
    exact rfl
  · with_reducible repeat' first
      | apply Same.rfl
      | apply Same.trans (k := measureSet_same)
      | apply Same.trans (k := backupLoss_same)
      | apply Same.trans (k := clearcutResume_same)
      | apply Same.trans (k := latchedTrip_same)
      | apply Same.foldl
      | (simp only [Same.mk]; apply Same.fold)
      | apply Same.ite
      | intro _

theorem stageWork_worn {n : Nat} {ok : Bool} {d : Bytes} {s : State} : Worn s (stageWork n ok d s) := by
  unfold stageWork
  split
  · exact Same.worn rfl
  · exact stageLc_worn
  · exact rebuildRoot_same.worn
  · exact Same.worn rfl
  · exact stageClocks_same.worn
  · exact deliverKek_same.worn
  · exact stageMap_same.worn
  · exact stageWarden_same.worn
  · apply Same.worn
    split
    · exact rfl
    · refine Same.trans (Same.trans ?_ unitReport_same) serviceReport_same
      exact rfl
  · refine (Same.trans (Same.trans ?_ firstMode_same) modeReached_same).worn
    exact rfl
  · exact Same.rfl.worn

theorem execStartStageDone_worn {ok : Bool} {s : State} : WornO s (execStartStageDone ok s) := by
  intro t e
  unfold execStartStageDone at e
  cases e
  dsimp only
  split
  · exact Same.rfl.worn
  · split
    · exact Same.worn rfl
    · split
      · exact startFail_same.worn
      · split
        · split
          · rename_i h; exact ((stageImages_same h Same.rfl).trans (by exact rfl)).worn
          · exact startFail_same.worn
        · split
          · exact Same.rfl.worn
          · split
            · rename_i h; exact (stageBits_same_then h Same.rfl).worn
            · rename_i h; exact Worn.trans ((stageBits_same_then h Same.rfl).trans (by exact rfl)).worn stageWork_worn

/-- What a command can do to the queue, the clock and the COMMIT partition. -/
theorem exec_worn (c : Instr) (s : State) : WornO s (exec c s) := by
  cases c with
  | powerOn => exact execPowerOn_same.worn
  | mainPowerLost => exact execMainPowerLost_same.worn
  | resetN => exact execResetN_same.worn
  | perstAssert => exact execPerstAssert_same.worn
  | perstBothLinks => exact execPerstBothLinks_same.worn
  | linkDown => exact execLinkDown_same.worn
  | pfFlr => exact execPfFlr_same.worn
  | vfFlr => exact execVfFlr_same.worn
  | busMasterEnableClear => exact execBusMasterEnableClear_same.worn
  | d3hotEntry => exact execD3hotEntry_same.worn
  | d0Return => exact execD0Return_same.worn
  | startStageDone => exact execStartStageDone_worn
  | startStageTimeout => exact execStartStageTimeout_same.worn
  | coldStartAfterOrder => exact execColdStartAfterOrder_same.worn
  | fabricTransaction => exact execFabricTransaction_same.worn
  | registerWrite => exact execRegisterWrite_same.worn
  | keyGenerate => exact execKeyGenerate_same.worn
  | keyImport => exact execKeyImport_same.worn
  | keyExport => exact execKeyExport_same.worn
  | keyDerive => exact execKeyDerive_same.worn
  | keyDestroy => exact execKeyDestroy_same.worn
  | keyReplace => exact execKeyReplace_same.worn
  | keyGetAttr => exact execKeyGetAttr_same.worn
  | keySetAttr => exact execKeySetAttr_same.worn
  | storeCommit => exact execStoreCommit_same.worn
  | storeStatus => exact execStoreStatus_same.worn
  | storeRecover => exact execStoreRecover_same.worn
  | counterCreate => exact execCounterCreate_same.worn
  | counterInc => exact execCounterInc_same.worn
  | counterRead => exact execCounterRead_same.worn
  | counterDestroy => exact execCounterDestroy_same.worn
  | drainLimitExpiry => exact execDrainLimitExpiry_same.worn
  | keyDrainDone => exact execKeyDrainDone_same.worn
  | sapwoodLoadDone => exact execSapwoodLoadDone_same.worn
  | coppiceStep => exact execCoppiceStep_same.worn
  | journalBlockWrite => exact execJournalBlockWrite_same.worn
  | journalPageSweep => exact execJournalPageSweep_same.worn
  | commitPeriodic => exact execCommitPeriodic_same.worn
  | commitBucketRefill => exact execCommitBucketRefill_same.worn
  | commitDone => exact execCommitDone_worn
  | ownerCreate => exact execOwnerCreate_same.worn
  | ownerSeal => exact execOwnerSeal_same.worn
  | ownerQuery => exact execOwnerQuery_same.worn
  | ownerSetQuota => exact execOwnerSetQuota_same.worn
  | ownerSuspend => exact execOwnerSuspend_same.worn
  | ownerDelete => exact execOwnerDelete_same.worn
  | ownerEvidence => exact execOwnerEvidence_same.worn
  | credAdd => exact execCredAdd_same.worn
  | credRevoke => exact execCredRevoke_same.worn
  | policyCreate => exact execPolicyCreate_same.worn
  | policyModify => exact execPolicyModify_same.worn
  | policyQuery => exact execPolicyQuery_same.worn
  | quorumOpen => exact execQuorumOpen_same.worn
  | quorumApprove => exact execQuorumApprove_same.worn
  | quorumExecute => exact execQuorumExecute_same.worn
  | quorumCancel => exact execQuorumCancel_same.worn
  | replicaPrepare => exact execReplicaPrepare_same.worn
  | replicaExport => exact execReplicaExport_same.worn
  | replicaApply => exact execReplicaApply_same.worn
  | ownerBackup => exact execOwnerBackup_same.worn
  | ownerRestore => exact execOwnerRestore_same.worn
  | storeRebase => exact execStoreRebase_same.worn
  | laneSentinel => exact execLaneSentinel_same.worn
  | laneContextPrepare => exact execLaneContextPrepare_same.worn
  | checkerMismatch => exact execCheckerMismatch_same.worn
  | checkerKatDone => exact execCheckerKatDone_same.worn
  | checkerReseed => exact execCheckerReseed_same.worn
  | laneFailure => exact execLaneFailure_same.worn
  | spareLaneKatDone => exact execSpareLaneKatDone_same.worn
  | hucBlockDone => exact execHucBlockDone_same.worn
  | hucFailure => exact execHucFailure_same.worn
  | engineEnd => exact execEngineEnd_same.worn
  | deadlineExpiry => exact execDeadlineExpiry_same.worn
  | contextWaitSatisfied => exact execContextWaitSatisfied_same.worn
  | contextDrained => exact execContextDrained_same.worn
  | completionPost => exact execCompletionPost_same.worn
  | dgeCtrlConfig => exact execDgeCtrlConfig_same.worn
  | dgeAbort => exact execDgeAbort_same.worn
  | dgeKeyClr => exact execDgeKeyClr_same.worn
  | dgeRelease0 => exact execDgeRelease0_same.worn
  | dgeSave => exact execDgeSave_same.worn
  | dgeRestore => exact execDgeRestore_same.worn
  | dgeSaveDone => exact execDgeSaveDone_same.worn
  | dgeData => exact execDgeData_same.worn
  | dgeLastw => exact execDgeLastw_same.worn
  | dgeKeydata => exact execDgeKeydata_same.worn
  | dgeKeyhandle => exact execDgeKeyhandle_same.worn
  | dgeKeyLoaded => exact execDgeKeyLoaded_same.worn
  | dgeMessageDone => exact execDgeMessageDone_same.worn
  | dgeFault => exact execDgeFault_same.worn
  | wmaGo => exact execWmaGo_same.worn
  | wmaWait => exact execWmaWait_same.worn
  | wmaCmdStart => exact execWmaCmdStart_same.worn
  | wmaCmdDone => exact execWmaCmdDone_same.worn
  | wmaFault => exact execWmaFault_same.worn
  | seedbankHealthFail => exact execSeedbankHealthFail_same.worn
  | seedbankWindowClose => exact execSeedbankWindowClose_same.worn
  | seedbankFreqGate => exact execSeedbankFreqGate_same.worn
  | seedbankStartupDone => exact execSeedbankStartupDone_same.worn
  | seedbankConfig => exact execSeedbankConfig_same.worn
  | seedbankStatus => exact execSeedbankStatus_same.worn
  | seedbankGaugeUpdate => exact execSeedbankGaugeUpdate_same.worn
  | sbkPortReq => exact execSbkPortReq_same.worn
  | sbkPortCancel => exact execSbkPortCancel_same.worn
  | sbkPortRequestDone => exact execSbkPortRequestDone_same.worn
  | queueCreate => exact execQueueCreate_same.worn
  | queueDestroy => exact execQueueDestroy_same.worn
  | queueQuery => exact execQueueQuery_same.worn
  | qmgSqTail => exact execQmgSqTail_same.worn
  | qmgCqHead => exact execQmgCqHead_same.worn
  | sqFetch => exact execSqFetch_same.worn
  | cqCoalTimer => exact execCqCoalTimer_same.worn
  | msixUnmask => exact execMsixUnmask_same.worn
  | jringSetup => exact execJringSetup_same.worn
  | jringStop => exact execJringStop_same.worn
  | qmgJrPost => exact execQmgJrPost_same.worn
  | qmgJrEvhead => exact execQmgJrEvhead_same.worn
  | qmgJrAck => exact execQmgJrAck_same.worn
  | jringInputBlock => exact execJringInputBlock_same.worn
  | doeRequest => exact execDoeRequest_same.worn
  | ideTlpFail => exact execIdeTlpFail_same.worn
  | tdispMessage => exact execTdispMessage_same.worn
  | pfmDoorbell => exact execPfmDoorbell_same.worn
  | vfmDoorbell => exact execVfmDoorbell_same.worn
  | mailboxAccept => exact execMailboxAccept_same.worn
  | mailboxDeadlineExpiry => exact execMailboxDeadlineExpiry_same.worn
  | deviceIdentify => exact execDeviceIdentify_same.worn
  | deviceStatus => exact execDeviceStatus_same.worn
  | deviceEvidence => exact execDeviceEvidence_same.worn
  | reqidQuery => exact execReqidQuery_same.worn
  | checkpointEpoch => exact execCheckpointEpoch_same.worn
  | wardenHeartbeat => exact execWardenHeartbeat_same.worn
  | wardenFailover => exact execWardenFailover_same.worn
  | standbyResumed => exact execStandbyResumed_same.worn
  | standbyResumeTimeout => exact execStandbyResumeTimeout_same.worn
  | heartbeatTimeout => exact execHeartbeatTimeout_same.worn
  | pairReloadDone => exact execPairReloadDone_same.worn
  | gcmEnc => exact execGcmEnc_same.worn
  | gcmDec => exact execGcmDec_same.worn
  | gmacGen => exact execGmacGen_same.worn
  | gmacVer => exact execGmacVer_same.worn
  | ctr => exact execCtr_same.worn
  | cmacGen => exact execCmacGen_same.worn
  | cmacVer => exact execCmacVer_same.worn
  | hash => exact execHash_same.worn
  | hmacGen => exact execHmacGen_same.worn
  | hmacVer => exact execHmacVer_same.worn
  | wrap => exact execWrap_same.worn
  | unwrap => exact execUnwrap_same.worn
  | sign => exact execSign_same.worn
  | verify => exact execVerify_same.worn
  | agree => exact execAgree_same.worn
  | derive => exact execDerive_same.worn
  | random => exact execRandom_same.worn
  | tally => exact execTally_same.worn
  | pinXlate => exact execPinXlate_same.worn
  | legacyMac => exact execLegacyMac_same.worn
  | frameReceive => exact execFrameReceive_same.worn
  | frameTxClassify => exact execFrameTxClassify_same.worn
  | frameRelease => exact execFrameRelease_same.worn
  | frameRingTx => exact execFrameRingTx_same.worn
  | ethLinkUp => exact execEthLinkUp_same.worn
  | ethLinkDown => exact execEthLinkDown_same.worn
  | portConfig => exact execPortConfig_same.worn
  | portSet => exact execPortSet_same.worn
  | portStatus => exact execPortStatus_same.worn
  | portRetrain => exact execPortRetrain_same.worn
  | secyCreate => exact execSecyCreate_same.worn
  | secySet => exact execSecySet_same.worn
  | secyDestroy => exact execSecyDestroy_same.worn
  | scAdd => exact execScAdd_same.worn
  | scRemove => exact execScRemove_same.worn
  | saAdd => exact execSaAdd_same.worn
  | saRemove => exact execSaRemove_same.worn
  | saDrained => exact execSaDrained_same.worn
  | saSwitch => exact execSaSwitch_same.worn
  | saSet => exact execSaSet_same.worn
  | macsecStats => exact execMacsecStats_same.worn
  | frameRingCreate => exact execFrameRingCreate_same.worn
  | instruction => exact execInstruction_same.worn
  | trap => exact execTrap_same.worn
  | interruptTaken => exact execInterruptTaken_same.worn
  | mret => exact execMret_same.worn
  | wfi => exact execWfi_same.worn
  | gateCall => exact execGateCall_same.worn
  | gateRet => exact execGateRet_same.worn
  | gateTake => exact execGateTake_same.worn
  | mgateCancel => exact execMgateCancel_same.worn
  | gateRandom => exact execGateRandom_same.worn
  | gateCounterCreate => exact execGateCounterCreate_same.worn
  | gateCounterInc => exact execGateCounterInc_same.worn
  | gateCounterRead => exact execGateCounterRead_same.worn
  | keyOp => exact execKeyOp_same.worn
  | keyInfo => exact execKeyInfo_same.worn
  | yield => exact execYield_same.worn
  | exit => exact execExit_same.worn
  | time => exact execTime_same.worn
  | wait => exact execWait_same.worn
  | dgeAcquire => exact execDgeAcquire_same.worn
  | dgeRelease => exact execDgeRelease_same.worn
  | notifyReturn => exact execNotifyReturn_same.worn
  | self => exact execSelf_same.worn
  | appletSliceEnd => exact execAppletSliceEnd_same.worn
  | scrub => exact execScrub_same.worn
  | scrubDone => exact execScrubDone_same.worn
  | coreFailure => exact execCoreFailure_same.worn
  | bankTestDone => exact execBankTestDone_same.worn
  | spareCoreBootDone => exact execSpareCoreBootDone_same.worn
  | watchdogKick => exact execWatchdogKick_same.worn
  | watchdogExpiry => exact execWatchdogExpiry_same.worn
  | appletTrust => exact execAppletTrust_same.worn
  | appletLoad => exact execAppletLoad_same.worn
  | appletStart => exact execAppletStart_same.worn
  | appletStop => exact execAppletStop_same.worn
  | appletStopGraceExpiry => exact execAppletStopGraceExpiry_same.worn
  | appletUnload => exact execAppletUnload_same.worn
  | appletQuery => exact execAppletQuery_same.worn
  | gladeStatus => exact execGladeStatus_same.worn
  | vfBind => exact execVfBind_same.worn
  | vfUnbind => exact execVfUnbind_same.worn
  | vfQuery => exact execVfQuery_same.worn
  | vfSetLimits => exact execVfSetLimits_same.worn
  | vfGrant => exact execVfGrant_same.worn
  | vfRevoke => exact execVfRevoke_same.worn
  | vfGrants => exact execVfGrants_same.worn
  | vfQuiesce => exact execVfQuiesce_same.worn
  | vfQuiesceComplete => exact execVfQuiesceComplete_same.worn
  | vfResume => exact execVfResume_same.worn
  | vfFreeze => exact execVfFreeze_same.worn
  | vfFreezeComplete => exact execVfFreezeComplete_same.worn
  | vfThaw => exact execVfThaw_same.worn
  | vfPrepare => exact execVfPrepare_same.worn
  | vfSave => exact execVfSave_same.worn
  | vfRestore => exact execVfRestore_same.worn
  | worldmapWrite => exact execWorldmapWrite_same.worn
  | worldmapRead => exact execWorldmapRead_same.worn
  | acuCommit => exact execAcuCommit_same.worn
  | imageStage => exact execImageStage_same.worn
  | imageQuery => exact execImageQuery_same.worn
  | updateApply => exact execUpdateApply_same.worn
  | updateStatus => exact execUpdateStatus_same.worn
  | updateAbandon => exact execUpdateAbandon_same.worn
  | imageCommit => exact execImageCommit_same.worn
  | wardenHandover => exact execWardenHandover_same.worn
  | handoverStepDone => exact execHandoverStepDone_same.worn
  | probationEnd => exact execProbationEnd_same.worn
  | serviceCoreSwitched => exact execServiceCoreSwitched_same.worn
  | gladeMonitorSwitched => exact execGladeMonitorSwitched_same.worn
  | calibrate => exact execCalibrate_same.worn
  | calQuery => exact execCalQuery_same.worn
  | hwdRestartReq => exact execHwdRestartReq_same.worn
  | restartStageDone => exact execRestartStageDone_same.worn
  | restartTimeout => exact execRestartTimeout_same.worn
  | lcNonce => exact execLcNonce_same.worn
  | lcTransition => exact execLcTransition_same.worn
  | lcResume => exact execLcResume_same.worn
  | lcAnchorRefresh => exact execLcAnchorRefresh_same.worn
  | debugGrant => exact execDebugGrant_same.worn
  | debugStatus => exact execDebugStatus_same.worn
  | debugRevoke => exact execDebugRevoke_same.worn
  | hwdDbgCtrlNew => exact execHwdDbgCtrlNew_same.worn
  | hwdDbgCtrlRevoke => exact execHwdDbgCtrlRevoke_same.worn
  | tapReset => exact execTapReset_same.worn
  | extest => exact execExtest_same.worn
  | samplePreload => exact execSamplePreload_same.worn
  | idcode => exact execIdcode_same.worn
  | clamp => exact execClamp_same.worn
  | highz => exact execHighz_same.worn
  | bypass => exact execBypass_same.worn
  | dbgNonce => exact execDbgNonce_same.worn
  | dbgToken => exact execDbgToken_same.worn
  | dbgAccess => exact execDbgAccess_same.worn
  | dbgStatus => exact execDbgStatus_same.worn
  | tpScan => exact execTpScan_same.worn
  | lookoutEvent => exact execLookoutEvent_same.worn
  | lookoutReset => exact execLookoutReset_same.worn
  | meshCheck => exact execMeshCheck_same.worn
  | loopCheck => exact execLoopCheck_same.worn
  | sourceRearm => exact execSourceRearm_same.worn
  | freezeHoldExpiry => exact execFreezeHoldExpiry_same.worn
  | secondsTick => exact execSecondsTick_same.worn
  | secondsFloorWrite => exact execSecondsFloorWrite_same.worn
  | svoutRampEnd => exact execSvoutRampEnd_same.worn
  | svoutRetryTimer => exact execSvoutRetryTimer_same.worn
  | svoutCollapse => exact execSvoutCollapse_same.worn
  | lookoutConfig => exact execLookoutConfig_same.worn
  | lookoutQuery => exact execLookoutQuery_same.worn
  | lookoutRelease => exact execLookoutRelease_same.worn
  | svoutCtrl => exact execSvoutCtrl_same.worn
  | faultReport => exact execFaultReport_same.worn
  | firebreakSelfCheck => exact execFirebreakSelfCheck_same.worn
  | serviceFaultClear => exact execServiceFaultClear_same.worn
  | pllRelockAttempt => exact execPllRelockAttempt_same.worn
  | fbAliveToggle => exact execFbAliveToggle_same.worn
  | hbmError => exact execHbmError_same.worn
  | wearIndexUpdate => exact execWearIndexUpdate_same.worn
  | firebreakQuery => exact execFirebreakQuery_same.worn
  | firebreakConfig => exact execFirebreakConfig_same.worn
  | firebreakInject => exact execFirebreakInject_same.worn
  | fbkInjectGo => exact execFbkInjectGo_same.worn
  | forceLow => exact execForceLow_same.worn
  | logRecordQueue => exact execLogRecordQueue_same.worn
  | logRecordProgrammed => exact execLogRecordProgrammed_same.worn
  | logPageOpen => exact execLogPageOpen_same.worn
  | trlVectorSend => exact execTrlVectorSend_same.worn
  | logStatus => exact execLogStatus_same.worn
  | logExport => exact execLogExport_same.worn
  | logAck => exact execLogAck_same.worn
  | logClear => exact execLogClear_same.worn
  | meterFlush => exact execMeterFlush_same.worn
  | meterStatus => exact execMeterStatus_same.worn
  | meterClose => exact execMeterClose_same.worn
  | meterRead => exact execMeterRead_same.worn
  | meterSetUtc => exact execMeterSetUtc_same.worn
  | meterConfig => exact execMeterConfig_same.worn
  | dozeEntry => exact execDozeEntry_same.worn
  | standWake => exact execStandWake_same.worn
  | standWakeDone => exact execStandWakeDone_same.worn
  | powerWatch => exact execPowerWatch_same.worn
  | powerConfig => exact execPowerConfig_same.worn
  | watchAbortPoint => exact execWatchAbortPoint_same.worn
  | watchEntryTimeout => exact execWatchEntryTimeout_same.worn
  | wakeIn => exact execWakeIn_same.worn
  | i2cAddressMatch => exact execI2cAddressMatch_same.worn
  | wakeTimer => exact execWakeTimer_same.worn
  | wakeStepDone => exact execWakeStepDone_same.worn
  | wakeTimeout => exact execWakeTimeout_same.worn
  | i2cTimeout => exact execI2cTimeout_same.worn
  | setEndpointId => exact execSetEndpointId_same.worn
  | getEndpointId => exact execGetEndpointId_same.worn
  | getEndpointUuid => exact execGetEndpointUuid_same.worn
  | getMctpVersionSupport => exact execGetMctpVersionSupport_same.worn
  | getMessageTypeSupport => exact execGetMessageTypeSupport_same.worn
  | getVendorDefinedMsgSupport => exact execGetVendorDefinedMsgSupport_same.worn
  | getStatus => exact execGetStatus_same.worn
  | getSensors => exact execGetSensors_same.worn
  | getStands => exact execGetStands_same.worn
  | getLogTail => exact execGetLogTail_same.worn
  | spdmOverMctp => exact execSpdmOverMctp_same.worn
  | kcwAssign => exact execKcwAssign_same.worn
  | kcwRelease => exact execKcwRelease_same.worn
  | kcwMap => exact execKcwMap_same.worn
  | kcwQuery => exact execKcwQuery_same.worn
  | kcwData => exact execKcwData_same.worn
  | kcwReset => exact execKcwReset_same.worn
  | kcwIdent => exact execKcwIdent_same.worn
  | kcwEncrypt => exact execKcwEncrypt_same.worn
  | kcwDecrypt => exact execKcwDecrypt_same.worn
  | kcwMacGen => exact execKcwMacGen_same.worn
  | kcwMacVer => exact execKcwMacVer_same.worn
  | kcwPinXlate => exact execKcwPinXlate_same.worn
  | kcwRandom => exact execKcwRandom_same.worn
  | kcwKeyCheck => exact execKcwKeyCheck_same.worn
  | kcwUseQuery => exact execKcwUseQuery_same.worn
  | kcwGenerateKey => exact execKcwGenerateKey_same.worn
  | kcwLoadComponents => exact execKcwLoadComponents_same.worn
  | kcwImportKey => exact execKcwImportKey_same.worn
  | kcwExportKey => exact execKcwExportKey_same.worn
  | kcwDeleteKey => exact execKcwDeleteKey_same.worn
  | kcwSetClock => exact execKcwSetClock_same.worn
  | entropyWaitExpiry => exact execEntropyWaitExpiry_same.worn
  | hostReadCompletion => exact execHostReadCompletion_same.worn
  | pcieCompletionTimeout => exact execPcieCompletionTimeout_same.worn
  | perstDeassert => exact execPerstDeassert_same.worn
  | pcieLinkUp => exact execPcieLinkUp_same.worn
  | vfEnableSet => exact execVfEnableSet_same.worn
  | busMasterEnableSet => exact execBusMasterEnableSet_same.worn
  | atsInvalidateRequest => exact execAtsInvalidateRequest_same.worn
  | backupDomainLoss => exact execBackupDomainLoss_same.worn

end Sys2Proof.Machine
end

