-- ==== Sys2Proof/Tests/Slice0.lean ====
section
/-! SUPPORT. Tests: ill-formed commands are refused, worked values of the spec's tables, and for each statement with hypotheses a state and operands that meet them. -/

namespace Sys2Proof.Tests

open Sys2Proof Sys2Proof.Machine Sys2Proof.Safety

set_option Elab.async false

/-- A started device: mode 4, life cycle PRODUCTION, store READY, the PFs enabled by their links. -/
def up : State :=
  { mode := { mode := 4, chosen := true }, start := { starting := false, stage := 13, standby := .ready }
    lc := { decoded := .production, wiped := .production }, pwr := { canopyGood := true }, store := { state := .ready }
    host := { fns := [(0, { enabled := true, busMaster := true })], links := [(0, { up := true, perst := false })] }
    world := { source := .default, locked := true } }

/-- A request of opcode op with fields at their offsets in a body of n bytes. -/
def rq (op n : Nat) (fs : List (Nat × Nat × Nat)) : Req := { opcode := op, bodyLen := n, reqId := 1, body := layout n fs }

/-- Mailbox 0 of PF 0. -/
abbrev mb0 : Mb := .pf 0 0

/-- The state with request q accepted in mailbox mb. -/
def took (mb : Mb) (q : Req) (s : State) : State :=
  setMb mb { state := .busy, mode := s.mode.mode, cur := some q, recs := [{ reqId := q.reqId, hashed := hashText q, state := .inProgress, opcode := q.opcode }] } s

/-- The state with request q accepted in mailbox 0 of PF 0. -/
abbrev on0 (q : Req) (s : State) : State := took mb0 q s

theorem accepted {mb : Mb} {op : Nat} {q : Req} {s : State} (h : mbOk mb = true) (ho : q.opcode = op) (hw : wardenAnswers s = true) :
    Accepted mb op q (took mb q s) := by
  refine ⟨h, ?_, ho, hw, ?_⟩ <;> simp [took, getMb, setMb]

/-- Mailbox mb executes approval a of an opcode op: a check that can be evaluated. -/
def isApproved (mb : Mb) (op : Nat) (q : Req) (a : Approval) (s : State) : Bool :=
  decide (Accepted mb 0x0212 q s) && decide ((namedApproval mb (fld q.body 0 4) s).toOption = some a) && decide (a.req.opcode = op) &&
    approvedEnough a s && decide (acceptCheckIn (getMb mb s).mode mb a.req s = none)

theorem approved {mb op q a s} (h : isApproved mb op q a s = true) : Approved mb op q a s := by
  simp only [isApproved, Bool.and_eq_true, decide_eq_true_eq] at h
  obtain ⟨⟨⟨⟨h1, h2⟩, h3⟩, h4⟩, h5⟩ := h
  refine ⟨h1, ?_, h3, h4, h5⟩
  cases e : namedApproval mb (fld q.body 0 4) s with
  | error _ => simp [e, Except.toOption] at h2
  | ok x => simp [e, Except.toOption] at h2; rw [h2]

/-- An approval of a held request that has its two custodians. -/
def apOf (r : Req) : Approval := { policy := 1, owner := 0, req := r, notAfter := 60, nonce := [], digest := [], approved := [5, 6] }

/-- The execution of approval 1. -/
def exq : Req := rq 0x0212 4 [(0, 4, 1)]

/-- The state in which mailbox 0 of PF 0 executes the approval of request r. -/
def held (r : Req) (s : State) : State :=
  on0 exq { s with cust.approvals := [(1, apOf r)], store.c.policies := tset s.store.c.policies 1 { owner := 0, m := 2, n := 2, creds := [5, 6] }, store.c.creds := tset (tset s.store.c.creds 5 { alg := 1, owner := 0 }) 6 { alg := 1, owner := 0 } }

/-- A tag of master m, privileged, of world T. -/
def tagT (m : Nat) : FabricTag := { master := m, worldU := false, priv := true, owner := 0, ctx := 0, opclass := 0, seq := 0, parityOk := true }

/-- Owners 0 and 1 are ACTIVE under policies 1 and 2, of two custodians each; owner 2 is PENDING; owner 1 has an AES-256 key that may be exported, a wrapping key, a derivation key and a counter. -/
def owned : State :=
  { up with
    host := { up.host with jring := { state := .output } }
    units := { banks := [(0, { state := .delivering, feeds := [(5, { got := List.replicate 20 3 })] })], sapFeed := { got := List.replicate 16 5 } }
    store := { state := .ready, nextSeq := 9, committed := 8, c := {
      owners := [(0, { state := .active, adminPolicy := 1, estate := true, keyQuota := 100, counterQuota := 8, vfQuota := 8, appletQuota := 8 }),
        (1, { state := .active, adminPolicy := 2, domainId := 3, keyQuota := 100, counterQuota := 8, vfQuota := 8, appletQuota := 8, root := List.replicate 32 1, anchor := true, nextMember := 1 }),
        (2, { keyQuota := 10 })]
      policies := [(1, { owner := 0, m := 2, n := 2, creds := [5, 6] }), (2, { owner := 1, m := 2, n := 2, creds := [7, 8] }),
        (3, { owner := 2, m := 2, n := 2, creds := [9, 10] })]
      creds := [(5, { alg := 1, owner := 0 }), (6, { alg := 1, owner := 0 }), (7, { alg := 1, owner := 1 }), (8, { alg := 1, owner := 1 }),
        (9, { alg := 1, owner := 2 }), (10, { alg := 1, owner := 2 }), (11, { alg := 1, owner := 0 })]
      keys := [(1, { type := 2, owner := 1, length := 256, purpose := 1, attr := 0x101, ceiling := 1025, shareA := List.replicate 32 0, shareB := List.replicate 32 7 }),
        (2, { type := 1, owner := 1, length := 128, purpose := 3, shareA := List.replicate 16 0, shareB := List.replicate 16 8 }),
        (3, { type := 3, owner := 1, length := 256, purpose := 4, shareA := List.replicate 32 0, shareB := List.replicate 32 9 })]
      counters := [(0, { owner := 1, value := 4, ceiling := 65536, ceilOld := 65536 })] } } }

/-- A request about key 1. -/
def keyRq (op n : Nat) : Req := rq op n [(0, 8, handleOf 1 1), (0x0C, 4, if op = 0x0306 then 5 else 0)]

/-- One command waits before the state's others. -/
def waitingFor (c : Instr) (rest : List Instr) (s : State) : State := { s with pending := c :: rest }

theorem witness_QueueStatements :
    (waitingFor .secondsTick [.commitPeriodic] up).pending = [.secondsTick, .commitPeriodic] ∧ up.pending = [] ∧
    (match step (waitingFor .secondsTick [.commitPeriodic] up) with | .next t => decide (t.pending = [.commitPeriodic]) | _ => false) = true := by
  refine ⟨?_, ?_, ?_⟩ <;> decide +kernel

theorem witness_CommitPartitionStaysLegal : CommitWf up.commit ∧ (match step (waitingFor .commitPeriodic [] up) with | .next t => decide (t.pending = []) | _ => false) = true := by
  refine ⟨?_, by decide +kernel⟩
  have e : up.commit.ring ++ up.commit.spares = List.range 640 := by
    have f : (fun x => x + 512) = (fun x => 512 + x) := funext fun x => Nat.add_comm x 512
    have g : ∀ a b : Nat, List.range a ++ (List.range b).map (fun x => a + x) = List.range (a + b) := fun a b => List.range_add.symm
    simp only [up, f]
    exact g 512 128
  refine ⟨⟨?_, ?_⟩, by decide +kernel, by decide +kernel⟩
  · rw [e]; exact List.nodup_range
  · rw [e]; exact fun p h => List.mem_range.mp h

/-- The device in a life-cycle state. -/
def lcAt0 (x : LcState) : State := { up with lc := { up.lc with decoded := x } }

theorem witness_ModeIsTheFirstRow :
    (∀ x ∈ [LcState.scrapped, .production, .returned, .blank, .test, .personalise, .invalid], lcIs (lcAt0 x) x = true ∧ (x ≠ .scrapped → lcIs (lcAt0 x) .scrapped = false)) ∧
    ({ up with fbk := { up.fbk with fatal := true } }.fbk.fatal = true ∧ { up with start := { up.start with clearcutLatch := true } }.start.clearcutLatch = true) ∧
    (up.fbk.fatal = false ∧ up.start.clearcutLatch = false ∧ up.start.seedling.isSome = false ∧ up.mode.chosen = true ∧ chooseMode up = up.mode.mode) ∧
    (chooseMode (lcAt0 .returned) = 11 ∧ (lcAt0 .returned).mode.mode = 4) := by
  refine ⟨?_, ?_, ?_, ?_⟩ <;> decide +kernel

/-- A request of WORLDMAP_WRITE that holds the default map. -/
def mapRq : Req := { opcode := 0x0A30, bodyLen := 0x840, reqId := 1, body := mapBytes {} 0 }

theorem drop_words (f : Nat → Bytes) (hf : ∀ n, (f n).length = 4) : ∀ (l : List Nat) (n : Nat), ((l.map f).flatten).drop (4 * n) = ((l.drop n).map f).flatten
  | [], n => by simp
  | a :: l, 0 => by simp
  | a :: l, n + 1 => by
    have h : 4 * (n + 1) = (f a).length + 4 * n := by rw [hf]; omega
    rw [List.map_cons, List.flatten_cons, h, List.drop_append, List.drop_succ_cons, ← drop_words f hf l n]
    simp

theorem fld_word (h : Bytes) (f : Nat → Bytes) (hf : ∀ n, (f n).length = 4) (n : Nat) (hn : n < 512) :
    fld (h ++ ((List.range 512).map f).flatten) (h.length + 4 * n) 4 = leNat (f n) := by
  have e : (List.range 512).drop n = n :: (List.range 512).drop (n + 1) := by
    rw [List.drop_eq_getElem_cons (by simp; omega)]; simp
  simp [fld, slice, drop_words f hf, e]
  rw [List.take_append_of_le_length (by rw [hf] <;> omega), List.take_of_length_le (by rw [hf] <;> omega)]

theorem fld_head (h r : Bytes) (o n : Nat) (e : o + n ≤ h.length) : fld (h ++ r) o n = fld h o n := by
  simp only [fld, slice]
  rw [List.drop_append_of_le_length (by omega), List.take_append_of_le_length (by simp; omega)]

theorem default_map_written : writeFault (padTo 0x840 (mapBytes {} 0)) = none := by
  have hl : (mapBytes {} 0).length = 0x840 := by
    rw [mapBytes, List.length_append, List.length_flatten, List.map_map, layout_length,
      show List.length ∘ (fun n => leBytes 4 (lineOf {} n)) = fun _ => 4 from funext (fun n => leBytes_length 4 _)]
    decide +kernel
  have hp : padTo 0x840 (mapBytes {} 0) = mapBytes {} 0 := by simp [padTo, ← hl]
  have hw (n : Nat) (h : n ∈ List.range 512) : fld (mapBytes {} 0) (0x40 + 4 * n) 4 = lineDefault n := by
    have hn : n < 512 := by simpa using h
    have := fld_word (layout 0x40 [(0, 8, 0x3150414D_57394C4F), (8, 2, 1), (0x0C, 4, 0), (0x10, 8, 0), (0x20, 8, 0xC0C0C0C0C0C0C0C0), (0x28, 2, 0xAAAA),
      (0x2A, 2, 0xAAAA), (0x2C, 1, 0)]) (fun n => leBytes 4 (lineDefault n)) (by simp) n hn
    rw [leNat_leBytes, Nat.mod_eq_of_lt (by unfold lineDefault; grind), layout_length] at this
    exact this
  have hm : mapOf (mapBytes {} 0) 0 = {} := by
    unfold mapOf
    rw [show (List.range 512).filterMap (fun n => let e := fld (mapBytes {} 0) (0x40 + 4 * n) 4; if e = lineDefault n then none else some (n, e)) = []
      from List.filterMap_eq_nil_iff.2 (fun n h => by simp [hw n h])]
    unfold mapBytes
    rw [fld_head _ _ _ _ (by simp), fld_head _ _ _ _ (by simp), fld_head _ _ _ _ (by simp), fld_head _ _ _ _ (by simp)]
    decide +kernel
  rw [hp, writeFault, hm]
  unfold mapBytes
  rw [fld_head _ _ _ _ (by simp), fld_head _ _ _ _ (by simp), fld_head _ _ _ _ (by simp), fld_head _ _ _ _ (by simp), fld_head _ _ _ _ (by simp)]
  decide +kernel

theorem witness_WorldMapAndFabricComplete :
    (Accepted mb0 0x0A30 (rq 0x0A30 8 []) (on0 (rq 0x0A30 8 []) up) ∧ writeFault (padTo 0x840 (rq 0x0A30 8 []).body) = some 1) ∧
    (Accepted mb0 0x0A31 (rq 0x0A31 1 [(0, 1, 2)]) (on0 (rq 0x0A31 1 [(0, 1, 2)]) up) ∧ 1 < fld (rq 0x0A31 1 [(0, 1, 2)]).body 0 1) ∧
    (Accepted mb0 0x0A31 (rq 0x0A31 1 []) (on0 (rq 0x0A31 1 []) up) ∧ fld (rq 0x0A31 1 []).body 0 1 = 0) ∧
    (Accepted mb0 0x0A31 (rq 0x0A31 1 [(0, 1, 1)]) (on0 (rq 0x0A31 1 [(0, 1, 1)]) up) ∧ pendingMap (on0 (rq 0x0A31 1 [(0, 1, 1)]) up) = none) ∧
    pendingMap { up with world.copyA := .valid {} } = some {} := by
  decide +kernel

theorem witness_WorldmapWriteAsks :
    Accepted mb0 0x0A30 mapRq (on0 mapRq up) ∧ writeFault (padTo 0x840 mapRq.body) = none ∧
      policySuspended 0x0A30 ((adminOf 0 (on0 mapRq up)).getD 0) (on0 mapRq up) = false :=
  ⟨accepted (by decide) rfl (by decide +kernel), default_map_written, by decide +kernel⟩

theorem witness_WorldmapApproved :
    Approved mb0 0x0A30 exq (apOf mapRq) (held mapRq up) ∧ writeFault (padTo 0x840 (apOf mapRq).req.body) = none :=
  ⟨approved (by decide +kernel), default_map_written⟩

/-- A tag as its interface issues it, and the state its issue leaves. -/
def issuedTag (t : FabricTag) (s : State) : FabricTag × State := (builtTag t s, (issue (builtTag t s) 8 s).2)

theorem witness_FabricTransactions :
    (4096 < 4095 % 4096 + [0, (0 : Byte)].length) ∧
    (integrityOk (issuedTag { tagT 0x3FF with parityOk := false } up).1 8 (issuedTag { tagT 0x3FF with parityOk := false } up).2 = false ∧ standHolds 8 up = false) ∧
    (integrityOk (issuedTag (tagT 0x180) up).1 8 (issuedTag (tagT 0x180) up).2 = true ∧
      judge (issuedTag (tagT 0x180) up).1 8 0x220000000 1 true false (acceptSeq (issuedTag (tagT 0x180) up).1 8 (issuedTag (tagT 0x180) up).2) = .ok ∧
      rowOf 8 0x220000000 = .buffers ∧ up.fbk.poisoned.contains (0x220000000 / 4096) = false ∧ pagePoisoned 8 0x220000000 up = false ∧
      judge (issuedTag (tagT 0x180) up).1 8 0x220000000 1 false false (acceptSeq (issuedTag (tagT 0x180) up).1 8 (issuedTag (tagT 0x180) up).2) = .ok) ∧
    (integrityOk (issuedTag (tagT 0x3FF) up).1 8 (issuedTag (tagT 0x3FF) up).2 = true ∧ 0x188 ≤ (issuedTag (tagT 0x3FF) up).1.master ∧
      judge (issuedTag (tagT 0x3FF) up).1 8 0x220000000 1 true false (acceptSeq (issuedTag (tagT 0x3FF) up).1 8 (issuedTag (tagT 0x3FF) up).2) = .refused 0 1 0x220000000) ∧
    (ctxBound 1 = true ∧ (getCtx 3 { up with ctxs := [(3, { src := .queue (.pf 0) 0 0, owner := 7, entry := [] })] }).isSome = true ∧
      issuedClass { tagT 0x100 with opclass := 1, ctx := 3 } { up with ctxs := [(3, { src := .queue (.pf 0) 0 0, owner := 7, entry := [] })] } = 1) ∧
    coreU 7 up = true := by
  decide +kernel

theorem witness_MasterRights :
    (∀ m ∈ [0xC0, 0xCB, 0x13F, 0x3FF], fixedPriv m = some true) ∧ (∀ m ∈ [0x48, 0x8F, 0x180, 0x187], fixedPriv m = some false ∧ fixedT m = true) ∧
      issuedClass (ownRights { tagT 0x100 with opclass := 1, ctx := 3 }) { up with ctxs := [(3, { src := .queue (.pf 0) 0 0, owner := 7, entry := [] })] } = 1 := by
  decide +kernel

theorem witness_RegistersAndDebugComplete :
    (fnOk (.pf 0) = true ∧ barOpen (.pf 0) up = true ∧ barOpen (.pf 1) up = false ∧ barOpen (.vf 7) up = false) ∧
    (∀ x ∈ [Tdi.run, .locked], tgetD { up with host.tdis := [(4095, x)] }.host.tdis 4095 .unlocked = x) ∧
    (fnOk (.vf 4095) = true ∧ barOpen (.vf 4095) { up with host.fns := [(4099, { enabled := true })] } = true) ∧
    (coreRuns 70 up = true ∧ (getCore 70 up).wfi = false ∧ (getCore 70 up).user = false) ∧
    (coreActive 7 up = true ∧ coreInvasive 7 { up with lc.enables := 0xF, lc.halted := [7], cores.cores := [(7, { owner := some 0 })] } = true ∧ coreInvasive 7 { up with lc.enables := 8 } = false) ∧
    (standHolds 7 { up with pwr.dozed := 0x80 } = true ∧ standHolds 7 up = false ∧ tget { up with pwr.waking := [(7, [.job 0])] }.pwr.waking 7 = some [.job 0]) := by
  decide +kernel

theorem witness_DeviceEvidence :
    (Accepted mb0 0x0103 (rq 0x0103 0x2C [(0x28, 4, 0xFFFFFFFF)]) (on0 (rq 0x0103 0x2C [(0x28, 4, 0xFFFFFFFF)]) up)) ∧
    (∀ n, (evidence n up).length ≤ 0xFFFFFFFF ∧ 0 < (evidence n up).length ∧ hostOk (mbFn mb0) 0 (evidence n up).length up = true) := by
  refine ⟨by decide +kernel, fun n => ?_⟩
  have h : ((List.range 10).map (fun i => measValue (i + 1) up)).flatten.length = 480 := by decide +kernel
  have c : (certChain up).length < 65536 := by simp only [certChain, prim, leBytes_length]; omega
  have l : (evidence n up).length = 0x30 + 32 + 480 + 8 + (certChain up).length + 96 := by
    simp only [evidence, evidBody, attSign, prim, List.length_append, layout_length, h, leBytes_length, padTo, List.length_take, List.length_replicate]; omega
  have r : up.host.refused = [] := rfl
  refine ⟨by omega, by omega, ?_⟩
  rw [hostOk, r]
  simp; omega

/-- A device in a cold start that has completed stage n, with every source delivering and 256 conditioned bits for the Heartwood. -/
def atStage (n : Nat) : State :=
  { start := { stage := n }, lc := { copies := List.replicate 3 (lcWord .production) }
    units := { banks := [(0, { state := .delivering }), (8, { state := .delivering })], heartFeed := { got := [1, 2, 3, 4] } } }

/-- A device whose running stage is n, on slot A or on no intact slot. -/
def bootSlots (n : Nat) (a : Bool) : State :=
  { atStage 7 with start := { (atStage 7).start with preferred := n, slotA := if a then (atStage 7).start.slotA else {} } }

theorem witness_ColdStartStages :
    (∀ n ∈ [0, 1, 2, 3, 4, 5, 6, 8, 9, 10, 11, 12], (atStage n).start.starting = true ∧ (atStage n).start.halted = false ∧ (atStage n).pwr.resetLow = false ∧
      (atStage n).pwr.state ≠ .backup ∧ nextStage (atStage n) = n + 1 ∧ delivers earlyBank (atStage n) = true ∧ entropyOk (atStage n) = true ∧
      (takeHeart 32 (atStage n)).1.isSome = true ∧ (atStage n).fbk.fatal = false) ∧
    (∀ n ∈ [2, 4], nextStage { atStage n with units := {} } = n + 1 ∧ delivers earlyBank { atStage n with units := {} } = false ∧
      entropyOk { atStage n with units := {} } = false) ∧
    (nextStage (atStage 7) = 8 ∧ (atStage 7).start.seedlingFw = false ∧ slotPasses (atStage 7).start.preferred (atStage 7) = true) ∧
    (nextStage (bootSlots 1 true) = 8 ∧ slotPasses 1 (bootSlots 1 true) = false ∧ slotPasses (1 - 1) (bootSlots 1 true) = true) ∧
    (nextStage (bootSlots 0 false) = 8 ∧ slotPasses 0 (bootSlots 0 false) = false ∧ slotPasses (1 - 0) (bootSlots 0 false) = false ∧
      (bootSlots 0 false).fbk.fatal = false) ∧
    (lcDecode (atStage 1).lc = .production ∧ lcDecode { copies := List.replicate 3 (lcWord .scrapped) } = .scrapped) ∧
    ({ up with pwr.orderedCold := some 6 }.pwr.orderedCold = some 6 ∧ up.lc.run = none ∧ up.pwr.resetLow = false ∧ up.fbk.fatal = false) := by
  decide +kernel

theorem witness_ProgrammingAlone :
    ∀ b ∈ [true, false], let r : LcRun := { src := .test, dst := .personalise, authBy := 1, auth := [], mb := mb0, reqId := 1, entryNo := true, todo := [.fin] }
      let s := (if b then up else on0 (rq 0x0702 16 []) up); lcAlone r { s with lc.run := some r } = b ∧ s.pwr.resetLow = false := by
  decide +kernel

/-- A device whose standby takes over. -/
def takingOver : State := { up with start := { up.start with failingOver := true } }

/-- A device in stage n of a trusted restart. -/
def inRestart (n : Nat) : State := { up with start := { up.start with restarting := true, stage := n }, lc := { decoded := .personalise } }

/-- The multiplier of service core 2 runs a command. -/
def multiplies (s : State) : State := { s with units.wmas := [(2, { cmds := [{ core := 2, addr := 0, tag := tagT 0x182, block := [], running := true }] })] }

theorem witness_WardenPairsAndRestart :
    (wardenUp up = true ∧ up.start.standby = .ready ∧ up.fbk.fatal = false ∧ lcIs up .production = true ∧ (recentRestarts up).length < 2 ∧
      2 ≤ (recentRestarts { up with start := { up.start with restartTimes := [0, 0] } }).length) ∧
    (wardenUp { up with start := { up.start with standby := .loading } } = true ∧ up.start.handStep = 0) ∧
    (takingOver.start.failingOver = true ∧ takingOver.start.handStep ≠ 5 ∧ restarting takingOver = false ∧ takingOver.fbk.fatal = false ∧
      9 ≤ takingOver.start.stage ∧ takingOver.pwr.state = .active ∧ (recentRestarts takingOver).length < 2) ∧
    ({ takingOver with start.handStep := 5, start.upd.state := .running }.start.handStep = 5 ∧
      { takingOver with start.handStep := 5, start.upd.state := .running }.start.failingOver = true) ∧
    (takingOver.store.c.keys = [] ∧ takingOver.store.finishSeq ≤ takingOver.store.committed ∧
      mbOk mb0 = true ∧ (getMb mb0 (on0 (rq 0x0101 0 []) takingOver)).cur = some (rq 0x0101 0 [])) ∧
    (∀ n ∈ [0x21, 0x22, 0x23, 0x24, 0x25, 0x26], restarting (inRestart n) = true ∧ 0x21 ≤ (inRestart n).start.stage ∧ (inRestart n).start.stage < 0x27 ∧
      imagesIntact (inRestart n) = true ∧ wmasIdle (inRestart n) = true ∧ lcDecode (inRestart n).lc ≠ .production ∧ lcIs (inRestart n) .production = false ∧
      (inRestart n).start.seedling = none ∧ (inRestart n).fbk.fatal = false ∧ (inRestart n).pwr.state = .active) ∧
    imagesIntact { inRestart 0x23 with start := { (inRestart 0x23).start with slotA := { intact := false } } } = false ∧
    (restarting (multiplies (inRestart 0x25)) = true ∧ wmasIdle (multiplies (inRestart 0x25)) = false) := by
  decide +kernel

/-- A device in SEEDLING with REASON START_FAILS. -/
def seedling : State :=
  { up with mode := { mode := 7, chosen := true }, start := { up.start with seedlingFw := true, seedling := some .startFails, startFails := 3 } }

/-- A device whose slot B holds an image, with different components. -/
def twoSlots : State :=
  { up with start := { up.start with slotB := { valid := true, info := { up.start.slotA.info with svn := 1, wdnDigest := [1], svcDigest := [1], monDigest := [1] } } } }

/-- A device in a live update to slot B of the components comps, in step h of the handover. -/
def inUpdate (comps h : Nat) : State :=
  { twoSlots with mode := { mode := 6, chosen := true }
                  start := { twoSlots.start with handStep := h, upd := { state := .running, comps := comps, src := 0, dst := 1 } } }

/-- A monitor update whose service cores run slot B already. -/
def monTurn : State := { inUpdate 4 0 with start := { (inUpdate 4 0).start with runS := 1 } }

theorem witness_UpdateCommandsComplete :
    (recovering seedling = true ∧ Accepted mb0 0x0A06 (rq 0x0A06 1 []) (on0 (rq 0x0A06 1 []) seedling) ∧
      imageCommitCheck mb0 (rq 0x0A06 1 []) (on0 (rq 0x0A06 1 []) seedling) = none) ∧
    (Accepted mb0 0x0A06 (rq 0x0A06 1 []) (on0 (rq 0x0A06 1 []) up) ∧ imageCommitCheck mb0 (rq 0x0A06 1 []) (on0 (rq 0x0A06 1 []) up) = none ∧
      recovering (on0 (rq 0x0A06 1 []) up) = false ∧
      policySuspended 0x0A06 ((adminOf 0 (on0 (rq 0x0A06 1 []) up)).getD 0) (on0 (rq 0x0A06 1 []) up) = false) ∧
    (Accepted mb0 0x0A03 (rq 0x0A03 2 [(0, 1, 1), (1, 1, 7)]) (on0 (rq 0x0A03 2 [(0, 1, 1), (1, 1, 7)]) twoSlots) ∧
      updateApplyCheck mb0 (rq 0x0A03 2 [(0, 1, 1), (1, 1, 7)]) (on0 (rq 0x0A03 2 [(0, 1, 1), (1, 1, 7)]) twoSlots) = none ∧
      policySuspended 0x0A03 ((adminOf 0 twoSlots).getD 0) twoSlots = false) ∧
    Accepted mb0 0x0A02 (rq 0x0A02 0 []) (on0 (rq 0x0A02 0 []) up) ∧ Accepted mb0 0x0A04 (rq 0x0A04 0 []) (on0 (rq 0x0A04 0 []) up) ∧
    (Accepted mb0 0x0A21 (rq 0x0A21 2 [(0, 1, 4), (1, 1, 7)]) (on0 (rq 0x0A21 2 [(0, 1, 4), (1, 1, 7)]) up) ∧ calIndexOk 4 7 = true) ∧
    (Accepted mb0 0x0A05 (rq 0x0A05 0 []) (on0 (rq 0x0A05 0 []) (inUpdate 7 0)) ∧ (on0 (rq 0x0A05 0 []) (inUpdate 7 0)).start.upd.state = .running) ∧
    (Accepted mb0 0x0A05 (rq 0x0A05 0 []) (on0 (rq 0x0A05 0 []) up) ∧ (on0 (rq 0x0A05 0 []) up).start.upd.state ≠ .running) ∧
    (Accepted mb0 0x0A08 (rq 0x0A08 0 []) (on0 (rq 0x0A08 0 []) up) ∧ wardenHandoverCheck mb0 (rq 0x0A08 0 []) (on0 (rq 0x0A08 0 []) up) = none) ∧
    (∀ h ∈ [1, 2, 3, 4, 5, 6], wardenUp (inUpdate 1 h) = true ∧ (inUpdate 1 h).start.handStep = h ∧ (inUpdate 1 h).start.upd.state = .running) ∧
    ((serviceCores (inUpdate 2 0)).contains 0 = true ∧ serviceTurn (inUpdate 2 0) = true ∧ (inUpdate 2 0).start.upd.svcDone.contains 0 = false ∧
      allIn [0] (serviceCores (inUpdate 2 0)) = false) ∧
    ((gladeCores monTurn).contains 7 = true ∧ compNeeded 2 monTurn = true ∧ compDone 1 monTurn = true ∧ monTurn.start.handStep = 0 ∧
      monTurn.start.runM ≠ monTurn.start.upd.dst ∧ allIn [7] (gladeCores monTurn) = false ∧ allIn [6, 7] [6, 7] = true) := by
  refine ⟨?_, ?_, ?_, ?_, ?_, ?_, ?_, ?_, ?_, ?_, ?_, ?_⟩ <;> decide +kernel

theorem witness_UpdatesApproved :
    (Approved mb0 0x0A06 exq (apOf (rq 0x0A06 1 [])) (held (rq 0x0A06 1 []) up) ∧
      imageCommitCheck mb0 (rq 0x0A06 1 []) (held (rq 0x0A06 1 []) up) = none ∧ recovering (held (rq 0x0A06 1 []) up) = false) ∧
    (Approved mb0 0x0A03 exq (apOf (rq 0x0A03 2 [(0, 1, 1), (1, 1, 7)])) (held (rq 0x0A03 2 [(0, 1, 1), (1, 1, 7)]) twoSlots) ∧
      updateApplyCheck mb0 (rq 0x0A03 2 [(0, 1, 1), (1, 1, 7)]) (held (rq 0x0A03 2 [(0, 1, 1), (1, 1, 7)]) twoSlots) = none) :=
  ⟨⟨approved (by decide +kernel), by decide +kernel⟩, approved (by decide +kernel), by decide +kernel⟩

/-- A CALIBRATE of one record, of the seven channels' sensor 0, index 1. -/
def calRq : Req := rq 0x0A20 40 [(0, 1, 1), (8, 1, 0), (9, 1, 1), (12, 4, 5), (0x14, 4, 9)]

/-- Where the readings judged under a record are good. -/
theorem witness_CalibrateCompletes (h : ∀ p l, Config.verdict p l = true) :
    (Accepted mb0 0x0A20 calRq (on0 calRq up) ∧ calibrateCheck mb0 calRq (on0 calRq up) = none ∧
      policySuspended 0x0A20 ((adminOf 0 (on0 calRq up)).getD 0) (on0 calRq up) = false) ∧
    Approved mb0 0x0A20 exq (apOf calRq) (held calRq up) ∧ calibrateCheck mb0 calRq (held calRq up) = none ∧
    (∀ r ∈ calRecords calRq, fld r 0 1 ≠ 4) ∧ fld calRq.body 0 1 = 1 ∧ ∃ r, calRecords calRq = [r] := by
  have e (s : State) : calibrateCheck mb0 calRq s = none := by
    have hl : fld calRq.body 0 1 = 1 ∧ calRq.body.length = 40 := by decide +kernel
    have hr : ∀ r ∈ calRecords calRq, calIndexOk (fld r 0 1) (fld r 1 1) = true ∧ (fld r 4 4 == fld r 0x0C 4) = false := by decide +kernel
    have ha : ((calRecords calRq).any (fun r => !calIndexOk (fld r 0 1) (fld r 1 1) || fld r 4 4 == fld r 0x0C 4 || !Config.verdict .reading [r, leBytes 8 s.us])) = false := by
      rw [List.any_eq_false]; intro r m; simp [hr r m, h]
    simp [calibrateCheck, hl, ha]
  refine ⟨⟨by decide +kernel, e _, by decide +kernel⟩, approved (by decide +kernel), e _, by decide +kernel, by decide +kernel, ⟨_, rfl⟩⟩

/-- A component of 4 KiB of zero bytes. -/
def comp : Bytes := List.replicate 4096 0

/-- The place of its signatures. -/
def sigs : Bytes := List.replicate 3405 0

/-- The header of a bundle of three such components, with SVN 1. -/
def hdr : Bytes :=
  layout 0x30 [(0, 8, 0x3153474D_49394C4F), (8, 2, 1), (0x0C, 4, 1), (0x10, 2, 0x0402), (0x12, 2, 0x0402), (0x14, 2, 0x0104), (0x18, 2, 1), (0x1A, 2, 1),
    (0x20, 4, 4096), (0x24, 4, 4096), (0x28, 4, 4096)] ++ (sha384 comp ++ (sha384 comp ++ (sha384 comp ++ layout 0x40 [(0, 2, 0x6412), (2, 1, 0xB1)])))

/-- The bundle. -/
def bundle : Bytes := hdr ++ (sigs ++ (comp ++ (comp ++ comp)))

theorem read_back (b : Bytes) (a : Nat) : memReadN (memWriteN [] a b) a b.length = b := by
  have h (n : Nat) : ∀ i, memReadN (memWriteN [] a b) (a + i) n = (List.range n).map (fun k => memRead (memWriteN [] a b) (a + i + k)) := by
    induction n with
    | zero => intro i; rfl
    | succ n ih =>
      intro i
      rw [memReadN, Nat.add_assoc, ih (i + 1), List.range_succ_eq_map, List.map_cons, List.map_map]
      simp only [Nat.add_zero, Function.comp_def, List.cons.injEq, true_and]
      congr 1; funext k; congr 1; omega
  have := h b.length 0
  rw [Nat.add_zero] at this
  rw [this]
  apply List.ext_getElem (by simp)
  intro i h1 h2
  simp only [List.getElem_map, List.getElem_range]
  rw [memRead_memWriteN b [] a (a + i) (by rfl), if_pos (by omega)]
  simp [h2]

theorem sha_length (m : Bytes) : (sha384 m).length = 48 := digest_length (.inr rfl) m

theorem comp_length : comp.length = 4096 := List.length_replicate

theorem sigs_length : sigs.length = 3405 := List.length_replicate

theorem hdr_length : hdr.length = 256 := by simp [hdr, sha_length]

theorem slice_app (a b : Bytes) (o n : Nat) (h : a.length ≤ o) : slice (a ++ b) o n = slice b (o - a.length) n := by
  simp [slice, List.drop_append, List.drop_eq_nil_of_le h]

theorem slice_all (a b : Bytes) (n : Nat) (h : a.length = n) : slice (a ++ b) 0 n = a := by simp [slice, ← h]

/-- IMAGE_STAGE of the bundle at address 0 of the host. -/
def stageRq : Req := rq 0x0A01 12 [(8, 4, 15949)]

/-- A state whose host memory holds b. -/
def holding (b : Bytes) (s : State) : State := { s with host := { s.host with mem := memWriteN [] 0 b } }

/-- A state whose host memory holds the bundle. -/
abbrev bundled (s : State) : State := holding bundle s

theorem bundle_length : bundle.length = 15949 := by
  rw [bundle]; simp only [List.length_append, hdr_length, sigs_length, comp_length]

theorem blob_back (q : Req) (b : Bytes) (s : State) (h : s.host.refused = []) (hb : b.length ≤ 2 ^ 64) :
    blobRead mb0 0 b.length (on0 q (holding b s)) = some b := by
  have hr : (on0 q (holding b s)).host.refused = [] := h
  have hm : (on0 q (holding b s)).host.mem = memWriteN [] 0 b := rfl
  have e : hostOk (mbFn mb0) 0 b.length (on0 q (holding b s)) = true := by
    rw [hostOk, hr, Nat.zero_add, decide_eq_true hb]; rfl
  rw [blobRead, hm, read_back, if_pos e]

theorem staged (q : Req) (b : Bytes) (s : State) (h : s.host.refused = []) (e : fld q.body 0 8 = 0) (l : fld q.body 8 4 = b.length)
    (hb : b.length ≤ 2 ^ 64) : stagedBundle mb0 q (on0 q (holding b s)) = some b := by rw [stagedBundle, e, l]; exact blob_back q b s h hb

theorem freeSlot_holding (q : Req) (b : Bytes) (s : State) : freeSlot (on0 q (holding b s)) = freeSlot s := rfl

theorem svn_holding (q : Req) (b : Bytes) (s : State) : (on0 q (holding b s)).start.deviceSvn = s.start.deviceSvn := rfl

theorem bundle_staged (s : State) (h : s.host.refused = []) : stagedBundle mb0 stageRq (on0 stageRq (bundled s)) = some bundle :=
  staged stageRq bundle s h (by decide +kernel) (by rw [bundle_length]; decide +kernel) (by rw [bundle_length] <;> decide)

theorem bundle_take : bundle.take 256 = hdr := by rw [bundle, ← hdr_length, List.take_left']; rfl

theorem fld_bundle (o n : Nat) (h : o + n ≤ 256) : fld bundle o n = fld hdr o n := fld_head hdr _ o n (by rw [hdr_length]; exact h)

theorem header_good : headerOk hdr = true ∧ fld hdr 0x20 4 = 4096 ∧ fld hdr 0x24 4 = 4096 ∧ fld hdr 0x28 4 = 4096 ∧ fld hdr 0x0C 4 = 1 := by decide +kernel

theorem components_good : componentsOk bundle = true := by
  have h1 : slice bundle 3661 4096 = comp := by
    rw [bundle, slice_app _ _ _ _ (by rw [hdr_length] <;> decide), slice_app _ _ _ _ (by rw [hdr_length, sigs_length] <;> decide), hdr_length, sigs_length]
    exact slice_all comp _ 4096 comp_length
  have h2 : slice bundle (3661 + 4096) 4096 = comp := by
    rw [bundle, slice_app _ _ _ _ (by rw [hdr_length] <;> decide), slice_app _ _ _ _ (by rw [hdr_length, sigs_length] <;> decide),
      slice_app _ _ _ _ (by rw [hdr_length, sigs_length, comp_length] <;> decide), hdr_length, sigs_length, comp_length]
    exact slice_all comp _ 4096 comp_length
  have h3 : slice bundle (3661 + 4096 + 4096) 4096 = comp := by
    rw [bundle, slice_app _ _ _ _ (by rw [hdr_length] <;> decide), slice_app _ _ _ _ (by rw [hdr_length, sigs_length] <;> decide),
      slice_app _ _ _ _ (by rw [hdr_length, sigs_length, comp_length] <;> decide), slice_app _ _ _ _ (by rw [hdr_length, sigs_length, comp_length] <;> decide),
      hdr_length, sigs_length, comp_length]
    exact List.take_of_length_le (Nat.le_of_eq comp_length)
  have g1 : slice hdr 0x30 48 = sha384 comp := by
    rw [hdr, slice_app _ _ _ _ (by simp), layout_length]; exact slice_all _ _ 48 (sha_length _)
  have g2 : slice hdr 0x60 48 = sha384 comp := by
    rw [hdr, slice_app _ _ _ _ (by simp), slice_app _ _ _ _ (by simp [sha_length]), layout_length, sha_length]; exact slice_all _ _ 48 (sha_length _)
  have g3 : slice hdr 0x90 48 = sha384 comp := by
    rw [hdr, slice_app _ _ _ _ (by simp), slice_app _ _ _ _ (by simp [sha_length]), slice_app _ _ _ _ (by simp [sha_length]), layout_length, sha_length]
    exact slice_all _ _ 48 (sha_length _)
  simp [componentsOk, bundle_take, header_good, h1, h2, h3, g1, g2, g3]

/-- Where both signatures verify. -/
theorem witness_ImageStageCompletes (h : ∀ p l, Config.verdict p l = true) :
    (Accepted mb0 0x0A01 stageRq (on0 stageRq (bundled seedling)) ∧ imageStageCheck mb0 stageRq (on0 stageRq (bundled seedling)) = none ∧
      recovering (on0 stageRq (bundled seedling)) = true ∧ stagedBundle mb0 stageRq (on0 stageRq (bundled seedling)) = some bundle ∧
      freeSlot (on0 stageRq (bundled seedling)) = some 1 ∧ componentsOk bundle = true) ∧
    (Accepted mb0 0x0A01 stageRq (on0 stageRq (bundled up)) ∧ imageStageCheck mb0 stageRq (on0 stageRq (bundled up)) = none ∧
      recovering (on0 stageRq (bundled up)) = false ∧
      policySuspended 0x0A01 ((adminOf 0 (on0 stageRq (bundled up))).getD 0) (on0 stageRq (bundled up)) = false) := by
  have c (s : State) (hr : s.host.refused = []) (hv : s.start.deviceSvn = 0) (hf : (freeSlot s).isNone = false) :
      imageStageCheck mb0 stageRq (on0 stageRq (bundled s)) = none := by
    have hf' : (freeSlot (on0 stageRq (bundled s))).isNone = false := by rw [freeSlot_holding]; exact hf
    have hv' : (on0 stageRq (bundled s)).start.deviceSvn = 0 := by rw [svn_holding]; exact hv
    have e : fld stageRq.body 8 4 = 15949 := by decide +kernel
    have hb : bundleLen bundle = 15949 := by
      rw [bundleLen, fld_bundle _ _ (by decide), fld_bundle _ _ (by decide), fld_bundle _ _ (by decide)]; simp [header_good]
    have hl : fld bundle 0x0C 4 = 1 := by rw [fld_bundle _ _ (by decide)]; exact header_good.2.2.2.2
    simp only [imageStageCheck, bundle_staged s hr, e, hb, hl, bundle_take, header_good.1, bundleSigned, h, hf', hv']
    decide
  exact ⟨⟨accepted (by decide) (by decide +kernel) (by decide +kernel), c _ (by rfl) (by rfl) (by decide +kernel), by decide +kernel,
    bundle_staged _ (by rfl), by decide +kernel, components_good⟩,
    accepted (by decide) (by decide +kernel) (by decide +kernel), c _ (by rfl) (by rfl) (by decide +kernel), by decide +kernel, by decide +kernel⟩

/-- KEY_GENERATE for owner 1 of an AES-256 key for encryption. -/
def genRq : Req := rq 0x0301 0x20 [(0, 4, 1), (4, 1, 2), (5, 1, 1), (6, 2, 256)]

/-- KEY_DERIVE of such a key from key 3, with a label of one byte. -/
def derRq : Req := rq 0x0304 0x21 [(0, 4, 1), (4, 1, 2), (5, 1, 1), (6, 2, 256), (0x0C, 4, 4), (0x10, 8, handleOf 3 1), (0x19, 1, 1)]

/-- KEY_IMPORT of a public P-256 key, of 65 bytes. -/
def impRq : Req := rq 0x0302 (0x30 + 65) [(0, 4, 1), (4, 1, 0x20), (5, 1, 7), (6, 2, 256), (0x28, 1, 5), (0x2A, 2, 65)]

/-- Mailbox 0 of PF 0 runs request q and has key slot of owner 1 in use: its lease, its shares in the Sapwood, its HUC blocks done. -/
def usingKey (slot : Nat) (q : Req) : State :=
  let s := on0 q owned
  setMb mb0 { getMb mb0 s with job := some { slot := slot, gen := 1, huc := true } }
    { s with store.sap := [(slot, { gen := 1, shareA := List.replicate 32 0, shareB := List.replicate 32 9, entries := 1 })] }

/-- KEY_IMPORT in FORMAT 1 of 16 bytes 5 that key 2 wraps. -/
def wrapRq : Req :=
  rq 0x0302 (0x30 + 24) [(0, 4, 1), (4, 1, 1), (5, 1, 2), (6, 2, 128), (0x20, 8, handleOf 2 1), (0x28, 1, 1), (0x2A, 2, 24), (0x30, 8, beNat (leBytes 8 0x76d5b988fbdb73e1)),
    (0x38, 8, beNat (leBytes 8 0x9d00669db3fbc9d0)), (0x40, 8, beNat (leBytes 8 0x786bc3f1f494f4f2))]

/-- The owner's derivation key counts its uses. -/
def countedParent : State :=
  { owned with store.c.keys := tset owned.store.c.keys 3 { type := 3, owner := 1, length := 256, purpose := 4, attr := 2 ^ attrUseCount, uses := 9, usesFloor := 0, shareA := List.replicate 32 0, shareB := List.replicate 32 9 } }

theorem witness_KeyCreationStoresTheKey :
    (Accepted mb0 0x0301 genRq (on0 genRq owned) ∧ storeCheck keyGenerateCheck mb0 genRq (on0 genRq owned) = none ∧
      keyGenerateDesig mb0 genRq (on0 genRq owned) = none ∧ canChange (on0 genRq owned) = true ∧
      (takeKeyBits (asymmetric (newKeyOf genRq.body 0).type) (privLen (newKeyOf genRq.body 0).type (newKeyOf genRq.body 0).length) (on0 genRq owned)).1.isSome = true ∧
      (placeKey (newKeyOf genRq.body 0) (on0 genRq owned)).toOption = some 4) ∧
    (Accepted mb0 0x0302 impRq (on0 impRq owned) ∧ storeCheck keyImportCheck mb0 impRq (on0 impRq owned) = none ∧
      keyImportDesig mb0 impRq (on0 impRq owned) = none ∧ canChange (on0 impRq owned) = true ∧ fld impRq.body 0x28 1 = 5 ∧
      importBlob mb0 impRq (on0 impRq owned) = some (List.replicate 65 0) ∧ (placeKey (importNew impRq.body) (on0 impRq owned)).toOption = some 4) ∧
    (Accepted mb0 0x0302 wrapRq (usingKey 2 wrapRq) ∧ storeCheck keyImportCheck mb0 wrapRq (usingKey 2 wrapRq) = none ∧
      keyImportDesig mb0 wrapRq (usingKey 2 wrapRq) = none ∧ canChange (usingKey 2 wrapRq) = true ∧
      (wrapKey mb0 (fld wrapRq.body 0x20 8) (fld wrapRq.body 0 4) (fld wrapRq.body 0x28 1) true (usingKey 2 wrapRq)).toOption.map (·.1) = some 2 ∧
      (∀ w ∈ tget owned.store.c.keys 2, KeyInUse mb0 2 w (usingKey 2 wrapRq) ∧ ∀ blob ∈ importBlob mb0 wrapRq (usingKey 2 wrapRq),
        (importMaterial wrapRq w blob).toOption = some (List.replicate 16 5, [])) ∧
      (takeSap 16 (usingKey 2 wrapRq)).1.isSome = true ∧ (placeKey (importNew wrapRq.body) (usingKey 2 wrapRq)).toOption = some 4) ∧
    (Accepted mb0 0x0304 derRq (usingKey 3 derRq) ∧ storeCheck keyDeriveCheck mb0 derRq (usingKey 3 derRq) = none ∧
      keyDeriveDesig mb0 derRq (usingKey 3 derRq) = none ∧ canChange (usingKey 3 derRq) = true ∧
      ((parentKey mb0 (fld derRq.body 0 4) (fld derRq.body 0x10 8) (fld derRq.body 0x18 1) (usingKey 3 derRq)).toOption.map (fun p => (p.1.map (·.1), p.2)))
        = some (some 3, List.replicate 32 9) ∧
      (∀ k ∈ tget owned.store.c.keys 3, KeyInUse mb0 3 k (usingKey 3 derRq)) ∧
      (takeSap (privLen (deriveNew derRq.body).type (deriveNew derRq.body).length) (usingKey 3 derRq)).1.isSome = true ∧
      (placeKey (deriveNew derRq.body) (usingKey 3 derRq)).toOption = some 4) ∧
    (Accepted mb0 0x0304 derRq (on0 derRq countedParent) ∧ NoKeyInUse mb0 (on0 derRq countedParent) ∧ canChange (on0 derRq countedParent) = true ∧
      storeCheck keyDeriveCheck mb0 derRq (on0 derRq countedParent) = none ∧ keyDeriveDesig mb0 derRq (on0 derRq countedParent) = none ∧
      ((parentKey mb0 (fld derRq.body 0 4) (fld derRq.body 0x10 8) (fld derRq.body 0x18 1) (on0 derRq countedParent)).toOption.map (fun p => p.1.map (·.1))) = some (some 3) ∧
      ∀ k ∈ tget countedParent.store.c.keys 3, pinFits [(3, k)] (on0 derRq countedParent) = true ∧ useReady k (on0 derRq countedParent) = true ∧
        bitOf k.attr attrUseCount = true ∧ inSapwood 3 k (on0 derRq countedParent) = false) := by
  refine ⟨?_, ?_, ?_, ?_, ?_⟩ <;> decide +kernel

/-- KEY_EXPORT of key 1 under key 2 in FORMAT f, with the flags i. -/
def expRq (f i : Nat) : Req := rq 0x0303 0x24 [(0, 8, handleOf 1 1), (8, 8, handleOf 2 1), (0x10, 1, f), (0x14, 4, i), (0x20, 4, 2000)]

/-- An export uses key 2, of type t and l bits. -/
def exporting (t l : Nat) (q : Req) : State :=
  let s := usingKey 2 q
  { s with store.c.keys := tset s.store.c.keys 2 { type := t, owner := 1, length := l, purpose := 3, shareA := List.replicate (l / 8) 0, shareB := List.replicate (l / 8) 8 } }

/-- KEY_EXPORT of the public part of key 1 in FORMAT 5, with the flags i, where key 1 is of type 0x20. -/
def pubRq (i : Nat) : Req := rq 0x0303 0x24 [(0, 8, handleOf 1 1), (0x10, 1, 5), (0x14, 4, i), (0x20, 4, 2000)]

/-- Owner 1's key 1 is a P-256 key. -/
def pair : State := { owned with store.c.keys := tset owned.store.c.keys 1 { type := 0x20, owner := 1, length := 256, purpose := 5, pub := List.replicate 65 4 } }

theorem witness_KeysNamed :
    ((resolve (fld (keyRq 0x0305 0x0C).body 0 8) none owned).map (·.1) = some 1 ∧ Accepted mb0 0x0305 (keyRq 0x0305 0x0C) (on0 (keyRq 0x0305 0x0C) owned) ∧
      keyDestroyDesig mb0 (keyRq 0x0305 0x0C) (on0 (keyRq 0x0305 0x0C) owned) = none ∧
      storeCheck keyDestroyCheck mb0 (keyRq 0x0305 0x0C) (on0 (keyRq 0x0305 0x0C) owned) = none) ∧
    (Accepted mb0 0x0306 (keyRq 0x0306 0x10) (on0 (keyRq 0x0306 0x10) owned) ∧
      storeCheck keyReplaceCheck mb0 (keyRq 0x0306 0x10) (on0 (keyRq 0x0306 0x10) owned) = none) ∧
    (Accepted mb0 0x0307 (keyRq 0x0307 8) (on0 (keyRq 0x0307 8) owned) ∧ storeRefuse (on0 (keyRq 0x0307 8) owned) = none) ∧
    (∀ i ∈ [0, 4], ∀ p ∈ [(2, 1, 128), (4, 0x30, 512)], Accepted mb0 0x0303 (expRq p.1 i) (exporting p.2.1 p.2.2 (expRq p.1 i)) ∧
      keyExportDesig mb0 (expRq p.1 i) (exporting p.2.1 p.2.2 (expRq p.1 i)) = none ∧ bitOf (fld (expRq p.1 i).body 0x14 4) 2 = decide (i = 4) ∧
      (resolve (fld (expRq p.1 i).body 0 8) none (exporting p.2.1 p.2.2 (expRq p.1 i))).map (·.1) = some 1 ∧
      readCheck keyExportCheck mb0 (expRq p.1 i) (exporting p.2.1 p.2.2 (expRq p.1 i)) = none ∧ hostOk (mbFn mb0) 0 2000 (exporting p.2.1 p.2.2 (expRq p.1 i)) = true ∧
      (exportOf mb0 (expRq p.1 i) (exporting p.2.1 p.2.2 (expRq p.1 i))).toOption =
        (tget owned.store.c.keys 1).bind (fun k => (tget (exporting p.2.1 p.2.2 (expRq p.1 i)).store.c.keys 2).map (fun w => (k, some (2, w)))) ∧
      (∀ w ∈ tget (exporting p.2.1 p.2.2 (expRq p.1 i)).store.c.keys 2, KeyInUse mb0 2 w (exporting p.2.1 p.2.2 (expRq p.1 i))) ∧
      (takeWarden 64 (exporting p.2.1 p.2.2 (expRq p.1 i))).1.isSome = true) ∧
    (∀ i ∈ [0, 4], Accepted mb0 0x0303 (pubRq i) (on0 (pubRq i) pair) ∧ keyExportDesig mb0 (pubRq i) (on0 (pubRq i) pair) = none ∧
      readCheck keyExportCheck mb0 (pubRq i) (on0 (pubRq i) pair) = none ∧ hostOk (mbFn mb0) 0 65 (on0 (pubRq i) pair) = true ∧
      (exportOf mb0 (pubRq i) (on0 (pubRq i) pair)).toOption.map (fun p => (p.1.pub, p.2)) = some (List.replicate 65 4, none)) ∧
    (Accepted mb0 0x0308 (keyRq 0x0308 0x1C) (on0 (keyRq 0x0308 0x1C) owned) ∧
      storeCheck keySetAttrCheck mb0 (keyRq 0x0308 0x1C) (on0 (keyRq 0x0308 0x1C) owned) = none ∧
      keySetAttrDesig mb0 (keyRq 0x0308 0x1C) (on0 (keyRq 0x0308 0x1C) owned) = none) := by
  refine ⟨?_, ?_, ?_, ?_, ?_, ?_⟩ <;> decide +kernel

/-- COUNTER_INC of counter 0 by 1. -/
def incRq (d : Nat) : Req := rq 0x030D 0x0C [(4, 2, 1), (8, 4, d)]

theorem witness_SecureCountersCount :
    (Accepted mb0 0x030C (rq 0x030C 8 [(0, 4, 1)]) (on0 (rq 0x030C 8 [(0, 4, 1)]) owned) ∧
      storeCheck counterCreateCheck mb0 (rq 0x030C 8 [(0, 4, 1)]) (on0 (rq 0x030C 8 [(0, 4, 1)]) owned) = none) ∧
    (∀ d ∈ [0, 1], Accepted mb0 0x030D (incRq d) (on0 (incRq d) owned) ∧ storeCheck counterIncCheck mb0 (incRq d) (on0 (incRq d) owned) = none ∧
      bitOf (fld (incRq d).body 8 4) 0 = decide (d = 1) ∧
      ((getCounter (fld (incRq d).body 0 4) none (on0 (incRq d) owned)).map (fun k => decide (k.value + 1 < (if k.ceilSeq ≤ owned.store.committed then k.ceiling else k.ceilOld)))) = some true) ∧
    (Accepted mb0 0x030E (rq 0x030E 4 []) (on0 (rq 0x030E 4 []) owned) ∧ (getCounter 0 none owned).isSome = true) ∧
    (Accepted mb0 0x030F (rq 0x030F 4 []) (on0 (rq 0x030F 4 []) owned) ∧ storeCheck counterCheck mb0 (rq 0x030F 4 []) (on0 (rq 0x030F 4 []) owned) = none) := by
  refine ⟨?_, ?_, ?_, ?_⟩ <;> decide +kernel

/-- A store that recovers from the host. -/
def loading : State := { owned with store := { owned.store with state := .loading } }

theorem witness_StoreCommandsComplete :
    Accepted mb0 0x030A (rq 0x030A 0 []) (on0 (rq 0x030A 0 []) owned) ∧
    (∀ i ∈ [125, 10000], ∀ f ∈ [0, 1], Accepted mb0 0x0309 (rq 0x0309 8 [(0, 4, i), (4, 4, f)]) (on0 (rq 0x0309 8 [(0, 4, i), (4, 4, f)]) owned) ∧
      fld (rq 0x0309 8 [(0, 4, i), (4, 4, f)]).body 0 4 = i ∧ bitOf (fld (rq 0x0309 8 [(0, 4, i), (4, 4, f)]).body 4 4) 0 = decide (f = 1)) ∧
    { owned with store := { owned.store with committed := 2 } }.store.committed < lastSeq { owned with store := { owned.store with committed := 2 } } ∧
    (Accepted mb0 0x030B (rq 0x030B 0x10 [(0, 8, 1), (8, 8, 8)]) (on0 (rq 0x030B 0x10 [(0, 8, 1), (8, 8, 8)]) loading) ∧ storeRecoverCheck mb0 (rq 0x030B 0x10 [(0, 8, 1), (8, 8, 8)]) (on0 (rq 0x030B 0x10 [(0, 8, 1), (8, 8, 8)]) loading) = none ∧ (on0 (rq 0x030B 0x10 [(0, 8, 1), (8, 8, 8)]) loading).store.floor ≤ (on0 (rq 0x030B 0x10 [(0, 8, 1), (8, 8, 8)]) loading).store.committed) ∧
    (0 < owned.store.tokens ∧ owned.store.committing = false ∧ owned.commit.stopped = false ∧ owned.store.wanted = false ∧ owned.commit.slot < 32) ∧
    ({ owned with store := { owned.store with committing := true } }.store.committing = true ∧ { up with commit := { up.commit with slot := 31 } }.commit.slot < 32) ∧
    (owned.store.state = .ready ∧ canChange owned = true ∧ (contentPages owned.store.c).contains 0 = true) := by
  refine ⟨?_, ?_, ?_, ?_, ?_, ?_, ?_⟩ <;> decide +kernel

/-- A block waits for the host, and one buffer of 8 KiB at 0x1000 is posted. -/
def posted : State :=
  { owned with
    host := { owned.host with
      mem := memWriteN [] 0x100 (leBytes 8 0x1000 ++ leBytes 4 0x2000)
      jring := { state := .output, ringAddr := 0x100, evtAddr := 0x8000, head := 0, tail := 1, blocks := [{ seq := 9 }] } } }

theorem witness_JournalBlockGoesToTheHost :
    posted.host.jring.blocks.find? (fun b => !b.written) = some { seq := 9 } ∧
    (posted.host.jring.state = .output ∧ posted.host.jring.pf = 0 ∧ pfWrites posted.host.jring.pf posted = true ∧ posted.host.jring.head ≠ posted.host.jring.tail ∧
      posted.host.jring.evHeld < jrSize posted ∧ unacked posted < 4096) ∧
    (hostOk (.pf 0) (posted.host.jring.ringAddr + 16 * posted.host.jring.head) 16 posted = true ∧
      blockLen (tgetD posted.store.hist 9 {}) ≤ (jrBuffer posted).2 ∧ hostOk (.pf 0) (jrBuffer posted).1 (blockLen (tgetD posted.store.hist 9 {})) posted = true ∧
      hostOk (.pf 0) (posted.host.jring.evtAddr + 16 * posted.host.jring.evTail) 16 posted = true) ∧ memWf posted.host.mem = true := by
  refine ⟨?_, ?_, ?_, ?_⟩ <;> decide +kernel

/-- Key 1 is REVOKING. -/
def revoking : State :=
  { owned with store := { owned.store with c := { owned.store.c with keys := tmod owned.store.c.keys 1 (fun k => { k with state := .revoking }) } } }

/-- A context that waits for key 1, and a mailbox whose command holds a lease on it. -/
def leasing : Ctx := { state := .leasing, src := .mailbox mb0, leases := [(1, 1)] }
def jobBox : Mbox := { state := .busy, cur := some derRq, job := some { slot := 1, gen := 1 } }

/-- Key 1 lies in the Sapwood, and its slice's bank delivers and holds words for the re-masking. -/
def inSap : State :=
  { owned with
    units := { owned.units with banks := [(0, { state := .delivering, feeds := [(6, { got := List.replicate 8 3 })] })] }
    store := { owned.store with c := { owned.store.c with keys := tmod owned.store.c.keys 1 (fun k => { k with attr := 0x111 }) }, sap := [(1, { gen := 1, shareA := List.replicate 32 1, shareB := List.replicate 32 2, entries := 1 })] } }

/-- The loads of key 1 wait, and its cold slot is sealed under the boot's key. -/
def loadsKey : State :=
  { owned with store.loading := [(1, 1)], store.cold := [(1, { sealed := [7], mac := prim 8 .mac [[], leBytes 4 1, leBytes 8 0, [7]] })] }

theorem witness_DrainAndSapwood :
    ((tget revoking.store.c.keys 1).map (fun k => (k.state, k.replace, decide (k.gen < 0xFFFFFFFF))) = some (.revoking, false, true) ∧
      leased 1 revoking = false ∧ canChange revoking = true ∧ revoking.store.deleting = []) ∧
    (leasing.state = .leasing ∧ leasing.leases.any (fun l => l.1 == 1) = true ∧
      { revoking with ctxs := [(0, leasing)], units := {} }.ctxs = [(0, leasing)] ∧ { revoking with ctxs := [(0, leasing)], units := {} }.units.dges = [] ∧
      { revoking with ctxs := [(0, leasing)], units := {} }.mbox = [] ∧
      (tget { revoking with ctxs := [(0, leasing)], units := {} }.store.c.keys 1).map (·.state) = some .revoking) ∧
    (({ revoking with mbox := [(mbKey mb0, jobBox)] }.ctxs = [] ∧ { revoking with mbox := [(mbKey mb0, jobBox)] }.units.dges = [] ∧
      mbOk mb0 = true ∧ jobBox.cur = some derRq ∧ jobBox.inner = none ∧ jobBox.job = some { slot := 1, gen := 1 })) ∧
    (loadsKey.store.loading.any (fun l => l.1 == 1) = true ∧ restarting loadsKey = false ∧
      (tget loadsKey.store.c.keys 1).all (fun k => sapOccupied loadsKey + sapEntries k ≤ 262144 && k.shareA.length == 32 && k.shareB.length == 32) = true ∧
      (tget loadsKey.store.c.keys 1).isSome = true ∧ (takeSap 32 loadsKey).1.isSome = true) ∧
    ((tget inSap.store.c.keys 1).map (fun k => decide (maskMode k inSap ≠ 0)) = some true ∧
      (tget inSap.store.sap 1).map (fun i => (decide (i.shareA.length = i.shareB.length), decide (i.shareA.length ≤ 32 * i.entries), delivers (sliceOf i.index) inSap,
        (takeWire (sliceOf i.index) 6 (32 * i.entries) inSap).1.isSome)) = some (true, true, true, true)) := by
  refine ⟨?_, ?_, ?_, ?_, ?_⟩ <;> decide +kernel

theorem witness_ColdSlotVerifies : coldVerifies 1 loadsKey = true := by
  have k : ((tget loadsKey.store.c.keys 1).map (keySlots 1)).getD [] = [1] := by decide +kernel
  have c : (tget loadsKey.store.cold 1) = some { sealed := [7], mac := prim 8 .mac [[], leBytes 4 1, leBytes 8 0, [7]] } := by rfl
  have v : loadsKey.vault.hbmKey = [] := by rfl
  unfold coldVerifies
  cases e : tget loadsKey.store.c.keys 1 with
  | none => rfl
  | some x => rw [e] at k; simp only [Option.map_some, Option.getD_some] at k; simp [k, c, v, coldOk]

/-- A request that names an owner, with v at offset 4. -/
def own (op n o v : Nat) : Req := rq op n [(0, 4, o), (4, 4, v)]

/-- OWNER_EVIDENCE of owner 1. -/
def evRq : Req := rq 0x0207 0x34 [(0, 4, 1), (0x30, 4, 0x20000)]

theorem witness_OwnerCommandsComplete :
    (∀ o ∈ [0xFFFFFFFF, 0xFFFFF], Accepted mb0 0x0201 (own 0x0201 0x10 o 10) (on0 (own 0x0201 0x10 o 10) owned) ∧
      storeCheck ownerCreateCheck mb0 (own 0x0201 0x10 o 10) (on0 (own 0x0201 0x10 o 10) owned) = none) ∧
    (Accepted mb0 0x0202 (own 0x0202 8 2 3) (on0 (own 0x0202 8 2 3) owned) ∧ storeCheck ownerSealCheck mb0 (own 0x0202 8 2 3) (on0 (own 0x0202 8 2 3) owned) = none ∧
      (getOwner 2 owned).isSome = true ∧ canChange (on0 (own 0x0202 8 2 3) owned) = true ∧
      (takeWarden 4 (on0 (own 0x0202 8 2 3) owned)).1.isSome = true ∧ (takeWarden 32 (on0 (own 0x0202 8 2 3) owned)).1.isSome = true) ∧
    (Accepted mb0 0x0203 (own 0x0203 4 1 0) (on0 (own 0x0203 4 1 0) owned) ∧ storeRefuse (on0 (own 0x0203 4 1 0) owned) = none ∧
      ownerNamed mb0 1 (on0 (own 0x0203 4 1 0) owned) = none) ∧
    (Accepted mb0 0x0204 (own 0x0204 0x10 1 7) (on0 (own 0x0204 0x10 1 7) owned) ∧ storeCheck ownerCheck mb0 (own 0x0204 0x10 1 7) (on0 (own 0x0204 0x10 1 7) owned) = none) ∧
    (Accepted mb0 0x0205 (own 0x0205 8 1 0) (on0 (own 0x0205 8 1 0) owned) ∧ storeCheck ownerSuspendCheck mb0 (own 0x0205 8 1 0) (on0 (own 0x0205 8 1 0) owned) = none) ∧
    (Accepted mb0 0x0207 evRq (on0 evRq owned) ∧ storeRefuse (on0 evRq owned) = none ∧ ownerNamed mb0 (fld evRq.body 0 4) (on0 evRq owned) = none ∧
      (getOwner (fld evRq.body 0 4) (on0 evRq owned)).isSome = true) ∧
    (Accepted mb0 0x0220 (rq 0x0220 0 []) (on0 (rq 0x0220 0 []) { owned with store := { owned.store with state := .failed } })) := by
  refine ⟨?_, ?_, ?_, ?_, ?_, ?_, ?_⟩ <;> decide +kernel

theorem witness_OwnerEvidenceFits (x : Owner) : (ownerEvidence (fld evRq.body 0 4) x (slice evRq.body 8 32) (on0 evRq owned)).length ≤ fld evRq.body 0x30 4 ∧
    hostOk (mbFn mb0) (fld evRq.body 0x28 8) (ownerEvidence (fld evRq.body 0 4) x (slice evRq.body 8 32) (on0 evRq owned)).length (on0 evRq owned) = true := by
  have h1 : fld evRq.body 0 4 = 1 ∧ fld evRq.body 0x30 4 = 0x20000 ∧ fld evRq.body 0x28 8 = 0 ∧ (slice evRq.body 8 32).length = 32 := by decide +kernel
  have hp : (ownerPolicies 1 (on0 evRq owned).store.c).map (fun p => (padTo 256 (policyBytes p.2)).length) = [256] := by decide +kernel
  have hc : (ownerCreds 1 (on0 evRq owned).store.c).map (fun p => p.2.key) = [[], []] := by decide +kernel
  have hc' : ((ownerCreds 1 (on0 evRq owned).store.c).map (fun p => sha256 p.2.key)).flatten.length ≤ 100 := by
    have e : (ownerCreds 1 (on0 evRq owned).store.c).map (fun p => sha256 p.2.key) = ((ownerCreds 1 (on0 evRq owned).store.c).map (fun p => p.2.key)).map sha256 := by
      rw [List.map_map]; rfl
    have l : (sha256 []).length ≤ 48 := by simp only [sha256, digest, finish, List.length_take]; exact Nat.le_trans (Nat.min_le_left _ _) (by decide)
    rw [e, hc]; simp; omega
  have hm : (((List.range 10).map (fun i => measValue (i + 1) (on0 evRq owned))).flatten).length = 480 := by decide +kernel
  have hcert : (certChain (on0 evRq owned)).length < 65536 := by rw [certChain, prim, leBytes_length]; exact Nat.mod_lt _ (by decide)
  have len : (ownerEvidence 1 x (slice evRq.body 8 32) (on0 evRq owned)).length ≤ 70000 := by
    have hq : (((ownerPolicies 1 (on0 evRq owned).store.c).map (fun p => padTo 256 (policyBytes p.2))).flatten).length = 256 := by
      rw [List.length_flatten, List.map_map]; exact (congrArg List.sum hp)
    have hn : (padTo 32 (slice evRq.body 8 32)).length = 32 := by decide +kernel
    simp only [ownerEvidence, evidence, evidBody, attSign, prim, ownerBytes, List.length_append, layout_length, leBytes_length, hq, hn, hm, h1]
    omega
  have r : (on0 evRq owned).host.refused = [] := rfl
  rw [h1.1, h1.2.1, h1.2.2.1]
  refine ⟨by omega, ?_⟩
  rw [hostOk, r]; simp; omega

/-- CRED_ADD for owner 2 of the base point of P-384. -/
def credRq : Req :=
  { opcode := 0x0208, bodyLen := 129, reqId := 1
    body := layout 0x20 [(0, 4, 2), (4, 1, 1), (6, 2, 97)] ++ [4] ++
      beBytes 48 0xAA87CA22BE8B05378EB1C71EF320AD746E1D3B628BA79B9859F741E082542A385502F25DBF55296C3A545E3872760AB7 ++
      beBytes 48 0x3617DE4A96262C6F5D9E98BF9292DC29F8F41DBD289A147CE9DA3113B5F0B8C00A60B1CE1D7E819D7A431D7C90EA0E5F }

/-- A policy of 2 of 2 for op about n, that is owner 2 or policy 3. -/
def polRq (op n : Nat) : Req := rq op 0x18 [(0, 4, n), (4, 1, 2), (5, 1, 2), (6, 1, 3), (8, 2, 600), (0x10, 4, 9), (0x14, 4, 10)]

theorem witness_CredentialsAndPolicies :
    (Accepted mb0 0x0208 credRq (on0 credRq owned) ∧ storeCheck credAddCheck mb0 credRq (on0 credRq owned) = none ∧
      activeDesig (fld credRq.body 0 4) (on0 credRq owned) = none ∧ (credKey mb0 credRq (on0 credRq owned)).isSome = true) ∧
    (Accepted mb0 0x0209 (own 0x0209 4 9 0) (on0 (own 0x0209 4 9 0) owned) ∧ storeCheck credRevokeCheck mb0 (own 0x0209 4 9 0) (on0 (own 0x0209 4 9 0) owned) = none ∧
      credRevokeDesig mb0 (own 0x0209 4 9 0) (on0 (own 0x0209 4 9 0) owned) = none) ∧
    (Accepted mb0 0x020A (polRq 0x020A 2) (on0 (polRq 0x020A 2) owned) ∧ storeCheck policyCreateCheck mb0 (polRq 0x020A 2) (on0 (polRq 0x020A 2) owned) = none) ∧
    (Accepted mb0 0x020B (polRq 0x020B 3) (on0 (polRq 0x020B 3) owned) ∧ storeCheck policyModifyCheck mb0 (polRq 0x020B 3) (on0 (polRq 0x020B 3) owned) = none ∧
      policyModifyDesig mb0 (polRq 0x020B 3) (on0 (polRq 0x020B 3) owned) = none) ∧
    (Accepted mb0 0x020C (own 0x020C 4 1 0) (on0 (own 0x020C 4 1 0) owned) ∧ (policyNamed mb0 1 (on0 (own 0x020C 4 1 0) owned)).toOption.isSome = true) := by
  refine ⟨?_, ?_, ?_, ?_, ?_⟩ <;> decide +kernel

/-- QUORUM_OPEN of a CRED_REVOKE of credential 11 of owner 0. -/
def openRq : Req := rq 0x0210 (8 + 68) [(0, 2, 68), (8, 2, 0x0209), (10, 1, 1), (12, 4, 4), (72, 4, 11)]

/-- QUORUM_APPROVE of approval 1 by credential 6, with 96 bytes of signature. -/
def apRq : Req := rq 0x0211 (0x10 + 96) [(0, 4, 1), (4, 4, 6), (8, 2, 96)]

/-- Approval 1 of a request has one custodian. -/
def half (r : Req) : State := { owned with cust := { approvals := [(1, { apOf r with approved := [5] })], nextId := 2 } }

/-- CRED_REVOKE of credential 11 of owner 0, the estate. -/
def rev11 : Req := own 0x0209 4 11 0

/-- SVOUT_CTRL, which journals nothing. -/
def lwRq : Req := rq 0x0904 1 []

theorem witness_DualControl :
    (Accepted mb0 0x0210 openRq (on0 openRq owned) ∧ quorumOpenCheck mb0 openRq (on0 openRq owned) = none ∧ (takeWarden 32 (on0 openRq owned)).1.isSome = true ∧
      openPolicy mb0 (bitOf (fld openRq.body 4 4) 0) (embeddedReq (embedded openRq.body)) (on0 openRq owned) = some 1) ∧
    (Accepted mb0 0x0212 exq (on0 exq (half rev11)) ∧ (namedApproval mb0 1 (on0 exq (half rev11))).toOption = some { apOf rev11 with approved := [5] } ∧
      (getMb mb0 (on0 exq (half rev11))).inner = none ∧ approvedEnough { apOf rev11 with approved := [5] } (on0 exq (half rev11)) = false) ∧
    (approvedEnough (apOf rev11) (on0 exq owned) = true ∧ (runHeld mb0 rev11 (on0 exq owned)).1 = .reply {} ∧ (runHeld mb0 (own 0x0209 4 99 0) (on0 exq owned)).1 = .reply { status := 0x0201 }) ∧
    ((runHeld mb0 (keyRq 0x0305 0x0C) (on0 exq owned)).1 = .hold (.drainKey [1] {}) ∧ (runHeld mb0 lwRq (on0 exq owned)).1 = .reply { body := [0] } ∧
      lastSeq (runHeld mb0 lwRq (on0 exq owned)).2 ≤ (runHeld mb0 lwRq (on0 exq owned)).2.store.committed) ∧
    (Accepted mb0 0x0213 (own 0x0213 4 1 0) (on0 (own 0x0213 4 1 0) (half rev11)) ∧ scopeOk mb0 0 owned = true) ∧
    (Accepted mb0 0x0209 rev11 (on0 rev11 owned) ∧ storeCheck credRevokeCheck mb0 rev11 (on0 rev11 owned) = none ∧
      credRevokeDesig mb0 rev11 (on0 rev11 owned) = some 1 ∧ policySuspended 0x0209 1 (on0 rev11 owned) = false) := by
  refine ⟨?_, ?_, ?_, ?_, ?_, ?_⟩ <;> decide +kernel

/-- Where the signature verifies. -/
theorem witness_QuorumApprove (h : ∀ p l, Config.verdict p l = true) :
    Accepted mb0 0x0211 apRq (on0 apRq (half rev11)) ∧
    (namedApproval mb0 (fld apRq.body 0 4) (on0 apRq (half rev11))).toOption = some { apOf rev11 with approved := [5] } ∧
    bodyBlob mb0 apRq 0x10 (fld apRq.body 8 2) (bitOf (fld apRq.body 0x0C 4) 2) (on0 apRq (half rev11)) = some (List.replicate 96 0) ∧
    approvalGood (fld apRq.body 0 4) (fld apRq.body 4 4) { apOf rev11 with approved := [5] } (List.replicate 96 0) (on0 apRq (half rev11)) = true := by
  refine ⟨by decide +kernel, by decide +kernel, by decide +kernel, ?_⟩
  have a : tget (on0 apRq (half rev11)).store.c.creds (fld apRq.body 4 4) = some { alg := 1, owner := 0 } := by decide +kernel
  have b : tget (on0 apRq (half rev11)).store.c.policies 1 = some { owner := 0, m := 2, n := 2, creds := [5, 6] } := by decide +kernel
  have c : fld apRq.body 4 4 = 6 := by decide +kernel
  have b' : tget (on0 apRq (half rev11)).store.c.policies (apOf rev11).policy = some { owner := 0, m := 2, n := 2, creds := [5, 6] } := b
  rw [c] at a
  simp only [approvalGood, a, b', h, c]
  decide

/-- OWNER_RESTORE into owner 2, which is PENDING, under key 2. -/
def resRq : Req := rq 0x021C 0x2C [(0, 4, 2), (8, 8, handleOf 2 1), (0x18, 4, 82)]

/-- The state in which mailbox 0 runs q under the lease on key 2, an AES-256 key-encryption key of owner 1, and holds b in its host's memory. -/
def underKek (q : Req) (b : Bytes) : State := { exporting 2 256 q with host.mem := memWriteN [] 0 b, store.sap := [(2, { gen := 1, shareA := List.replicate 32 0, shareB := List.replicate 32 8, entries := 1 })] }

/-- The key-encryption key. -/
def kek : KeyRec := { type := 2, owner := 1, length := 256, purpose := 3, shareA := List.replicate 32 0, shareB := List.replicate 32 8 }

/-- The image key. -/
def imgK : Bytes := List.replicate 32 6

/-- The header of a backup of owner 2. -/
def resHead : Bytes := backupHeader 2 3 (handleOf 2 1) 1 (wrapImageKey (material kek) imgK)

/-- A backup with an empty body, sealed under the image key. -/
def resImg : Bytes := resHead ++ gcmTag imgK (List.replicate 12 0) resHead []

/-- The empty image. -/
def noImg : OwnerImg := { readOwnerImg [] with member := none }

theorem tag_length (iv a c : Bytes) : (gcmTag imgK iv a c).length = 16 := gcmTag_length _ _ _ _ (by decide) (by decide)

theorem kek_wrap (k : Bytes) (h : k.length = 32) : unwrapImageKey k (wrapImageKey k imgK) = some imgK ∧ (wrapImageKey k imgK).length = 40 :=
  kwpUnwrap_kwpWrap (n := 4) k imgK (by omega) (by omega) (by decide) (by decide) (by decide)

theorem openImage_empty (h : Bytes) (n : Nat) (e : h.length = n) : openImage imgK n (h ++ gcmTag imgK (List.replicate 12 0) h []) = some [] := by
  have l : (h ++ gcmTag imgK (List.replicate 12 0) h []).length = n + 16 := by rw [List.length_append, e, tag_length]
  have t : (h ++ gcmTag imgK (List.replicate 12 0) h []).take n = h := List.take_left' e
  have d : (h ++ gcmTag imgK (List.replicate 12 0) h []).drop n = gcmTag imgK (List.replicate 12 0) h [] := List.drop_left' e
  have z : n + 16 - n - 16 = 0 := by omega
  have y : n + 16 - 16 = n := by omega
  simp only [openImage, l, t, d, z, y]
  simp [gcmCrypt, xorBytes]

theorem slice_left (a b : Bytes) (o n : Nat) (h : o + n ≤ a.length) : slice (a ++ b) o n = slice a o n := by
  simp only [slice]
  rw [List.drop_append_of_le_length (by omega), List.take_append_of_le_length (by simp; omega)]

theorem resHead_length : resHead.length = 66 := by simp [resHead, backupHeader, padTo_length]

theorem resImg_length : resImg.length = 82 := by rw [resImg, List.length_append, resHead_length, tag_length]

theorem resHead_wrap : slice resHead 26 40 = wrapImageKey (material kek) imgK := by
  have w := (kek_wrap (material kek) (by decide +kernel)).2
  rw [resHead, backupHeader, padTo_eq w, slice_app _ _ _ _ (by simp)]
  simp [slice, ← w]

/-- The state of the restore. -/
def restoring : State := underKek resRq resImg

set_option maxRecDepth 20000 in
/-- What the restore finds, whatever the host's memory holds. -/
theorem restore_there (b : Bytes) : hostOk (mbFn mb0) 0 82 (underKek resRq b) = true ∧ (underKek resRq b).host.mem = memWriteN [] 0 b ∧
    backupKek mb0 2 (handleOf 2 1) (underKek resRq b) = .ok (2, kek) ∧ ownerActive 2 (underKek resRq b) = false ∧ storeRefuse (underKek resRq b) = none ∧
    installOwner mb0 resRq (underKek resRq b) = none ∧ storeStopped (underKek resRq b) = false ∧ Accepted mb0 0x021C resRq (underKek resRq b) ∧
    activeDesig 2 (underKek resRq b) = none ∧ canChange (underKek resRq b) = true ∧ KeyInUse mb0 2 kek (underKek resRq b) :=
  ⟨rfl, rfl, rfl, rfl, rfl, rfl, rfl, ⟨rfl, rfl, rfl, rfl, rfl⟩, rfl, rfl, rfl, rfl, rfl⟩

theorem restore_installs (b : Bytes) : ∃ p, restoreOf mb0 resRq noImg [] (underKek resRq b) = .ok p := ⟨_, rfl⟩

theorem restore_bits (b : Bytes) : takeSap (maskNeed noImg) (underKek resRq b) = (some [], underKek resRq b) := rfl

theorem restoreCheck_ok (mb : Mb) (q : Req) (s : State) (o : Nat × OwnerImg) (p : Install × State) (n : storeRefuse s = none) (i : installOwner mb q s = none)
    (h : openBackup mb q s = .ok o) (e : restoreOf mb q o.2 [] s = .ok p) (w : storeStopped s = false) : storeCheck ownerRestoreCheck mb q s = none := by
  simp [storeCheck, n, ownerRestoreCheck, i, h, e, w]

theorem openBackup_ok (mb : Mb) (q : Req) (s : State) (img k : Bytes) (r : KeyRec) (slot o : Nat) (g : OwnerImg) (ho : fld q.body 0 4 = o)
    (hk : backupKek mb o (fld q.body 8 8) s = .ok (slot, r)) (hb : blobRead mb (fld q.body 0x10 8) (fld q.body 0x18 4) s = some img)
    (hf : (fld img 0 2 == 1 && fld img 2 4 == o) = true) (hu : unwrapImageKey (material r) (slice img 26 40) = some k)
    (hi : openImage k 66 img = some []) (ha : ownerActive o s = false) (hg : { readOwnerImg [] with member := none } = g) :
    openBackup mb q s = .ok (slot, g) := by
  subst ho
  subst hg
  simp only [openBackup, backupHead, hk, hb, hf, hu, hi, ha, if_true, Option.bind_some]
  rfl

theorem opens_backup : openBackup mb0 resRq restoring = .ok (2, noImg) := by
  have f : fld resRq.body 0 4 = 2 ∧ fld resRq.body 8 8 = handleOf 2 1 ∧ fld resRq.body 0x10 8 = 0 ∧ fld resRq.body 0x18 4 = 82 := by decide +kernel
  have b : blobRead mb0 0 82 restoring = some resImg := by
    have e : hostOk (mbFn mb0) 0 82 restoring = true := (restore_there resImg).1
    have m : restoring.host.mem = memWriteN [] 0 resImg := (restore_there resImg).2.1
    have r := read_back resImg 0
    rw [resImg_length] at r
    rw [blobRead, if_pos e, m, r]
  have o : fld resImg 0 2 = 1 ∧ fld resImg 2 4 = 2 := by
    rw [resImg, fld_head _ _ _ _ (by rw [resHead_length] <;> decide), fld_head _ _ _ _ (by rw [resHead_length] <;> decide)]; decide +kernel
  have w : slice resImg 26 40 = wrapImageKey (material kek) imgK := by rw [resImg, slice_left _ _ _ _ (by rw [resHead_length] <;> decide), resHead_wrap]
  have u := (kek_wrap (material kek) (by decide +kernel)).1
  have t := restore_there resImg
  refine openBackup_ok mb0 resRq restoring resImg imgK kek 2 2 noImg f.1 (by rw [f.2.1]; exact t.2.2.1) (by rw [f.2.2.1, f.2.2.2]; exact b) ?_ (by rw [w]; exact u)
    (openImage_empty resHead 66 resHead_length) t.2.2.2.1 rfl
  rw [o.1, o.2]; rfl

theorem witness_OwnerRestore :
    Accepted mb0 0x021C resRq restoring ∧ activeDesig (fld resRq.body 0 4) restoring = none ∧ canChange restoring = true ∧
    storeCheck ownerRestoreCheck mb0 resRq restoring = none ∧ openBackup mb0 resRq restoring = .ok (2, noImg) ∧
    backupKek mb0 (fld resRq.body 0 4) (fld resRq.body 8 8) restoring = .ok (2, kek) ∧ KeyInUse mb0 2 kek restoring ∧
    ∃ bits v r u, takeSap (maskNeed noImg) restoring = (some bits, v) ∧ restoreOf mb0 resRq noImg bits v = .ok (r, u) := by
  have f : fld resRq.body 0 4 = 2 ∧ fld resRq.body 8 8 = handleOf 2 1 := by decide +kernel
  obtain ⟨_, _, k, _, n, i, w, a, d, c, y⟩ := restore_there resImg
  obtain ⟨⟨r, u⟩, e⟩ := restore_installs resImg
  exact ⟨a, by rw [f.1]; exact d, c, restoreCheck_ok _ _ _ _ _ n i opens_backup e w, opens_backup, by rw [f.1, f.2]; exact k, y, [], restoring, r, u, restore_bits resImg, e⟩

/-- REPLICA_APPLY into owner 2, which is PENDING. -/
def appRq : Req := rq 0x021A 0x24 [(0, 4, 2), (0x10, 4, 1752)]

/-- The transfer key a replica without ciphertext opens with. -/
def appKey : Bytes := openFrom [] (List.replicate 1568 0) (List.replicate 97 0) replLabel (leBytes 8 0 ++ []) 2

/-- The header of a replica of owner 2 for this device. -/
def appHead : Bytes := replHeader 2 3 0 [] [] (wrapImageKey appKey imgK)

/-- A replica with an empty body. -/
def appImg : Bytes := appHead ++ gcmTag imgK (List.replicate 12 0) appHead []

/-- The prepare it was sealed for, and a later one. -/
def prep1 : Prepare := { owner := 2, nonce := [], until_ := 600 }
def prep2 : Prepare := { owner := 2, nonce := [1], until_ := 700 }

/-- The state in which REPLICA_APPLY runs. -/
def applyWith (b : Bytes) : State := { on0 appRq owned with cust := { prepares := [prep1, prep2] }, host.mem := memWriteN [] 0 b }
def applying : State := applyWith appImg

theorem from_length (p c x l n : Bytes) (o : Nat) : (openFrom p c x l n o).length = 32 := by
  unfold openFrom transferKey; exact kdf_length _ _

theorem appKey_wrap : unwrapImageKey appKey (wrapImageKey appKey imgK) = some imgK ∧ (wrapImageKey appKey imgK).length = 40 := kek_wrap _ (from_length _ _ _ _ _ _)

theorem appHead_length : appHead.length = 1736 := by
  simp only [appHead, replHeader, List.length_append, layout_length, padTo_length, List.length_replicate]; rfl

theorem appImg_length : appImg.length = 1752 := by rw [appImg, List.length_append, appHead_length, tag_length]

/-- The parts of the header. -/
theorem appHead_parts : slice appHead 0x18 1568 = List.replicate 1568 0 ∧ slice appHead 0x638 97 = List.replicate 97 0 ∧ slice appHead 0x6A0 40 = wrapImageKey appKey imgK := by
  have a : appHead = (replLabel ++ layout 16 [(0, 4, 2), (4, 4, 3), (8, 8, 0)]) ++ (List.replicate 1568 0 ++ (List.replicate 97 0 ++ (List.replicate 7 0 ++ wrapImageKey appKey imgK))) := by
    have z (n : Nat) : padTo n [] = List.replicate n 0 := by simp [padTo]
    simp only [appHead, replHeader, padTo_eq appKey_wrap.2, z, List.append_assoc]
  have l : (replLabel ++ layout 16 [(0, 4, 2), (4, 4, 3), (8, 8, 0)]).length = 24 := by rw [List.length_append, layout_length]; rfl
  rw [a]
  refine ⟨?_, ?_, ?_⟩
  · rw [slice_app _ _ _ _ (by rw [l] <;> decide), l]; exact slice_all _ _ _ List.length_replicate
  · rw [slice_app _ _ _ _ (by rw [l] <;> decide), l, slice_app _ _ _ _ (by rw [List.length_replicate] <;> decide), List.length_replicate]
    exact slice_all _ _ _ List.length_replicate
  · rw [slice_app _ _ _ _ (by rw [l] <;> decide), l, slice_app _ _ _ _ (by rw [List.length_replicate] <;> decide), List.length_replicate,
      slice_app _ _ _ _ (by rw [List.length_replicate] <;> decide), List.length_replicate, slice_app _ _ _ _ (by rw [List.length_replicate] <;> decide), List.length_replicate]
    exact List.take_of_length_le (Nat.le_of_eq appKey_wrap.2)

theorem apply_host (b : Bytes) : (applyWith b).host.mem = memWriteN [] 0 b ∧ (applyWith b).host.refused = [] ∧ (applyWith b).ident.deviceRef = 0 ∧
    usablePreps 2 none (applyWith b) = [prep1, prep2] ∧ ownerActive 2 (applyWith b) = false := ⟨rfl, rfl, rfl, rfl, rfl⟩

theorem openReplica_ok (mb : Mb) (q : Req) (s : State) (img k d : Bytes) (p : Prepare) (ps : List Prepare)
    (hb : blobRead mb (fld q.body 8 8) (fld q.body 0x10 4) s = some img) (hp : usablePreps (fld q.body 0 4) none s = p :: ps)
    (hh : (img.take 8 == replLabel && fld img 8 4 == fld q.body 0 4 && fld img 0x10 8 == s.ident.deviceRef) = true)
    (hk : unwrapImageKey (openFrom p.priv (slice img 0x18 1568) (slice img 0x638 97) replLabel (leBytes 8 s.ident.deviceRef ++ p.nonce) (fld q.body 0 4))
      (slice img 0x6A0 40) = some k)
    (ho : openImage k replHead img = some d) (ha : ownerActive (fld q.body 0 4) s = false) : openReplica mb q s = .ok (p, readOwnerImg d) := by
  unfold openReplica openWith
  simp only [hb, hp, hh, hk, ho, ha, if_true, Option.bind_some, Bool.false_and, List.findSome?_cons, Option.map_some]
  rfl

theorem opens_replica : openReplica mb0 appRq applying = .ok (prep1, readOwnerImg []) := by
  have f : fld appRq.body 0 4 = 2 ∧ fld appRq.body 8 8 = 0 ∧ fld appRq.body 0x10 4 = 1752 := by decide +kernel
  have b : blobRead mb0 0 1752 applying = some appImg := by
    have e : hostOk (mbFn mb0) 0 1752 applying = true := by
      have r : applying.host.refused = [] := (apply_host appImg).2.1
      rw [hostOk, r]; decide
    have m : applying.host.mem = memWriteN [] 0 appImg := (apply_host appImg).1
    have r := read_back appImg 0
    rw [appImg_length] at r
    rw [blobRead, if_pos e, m, r]
  have l (o n : Nat) (e : o + n ≤ 1736) : slice appImg o n = slice appHead o n := by rw [appImg, slice_left _ _ _ _ (by rw [appHead_length] <;> exact e)]
  have g (o n : Nat) (e : o + n ≤ 1736) : fld appImg o n = fld appHead o n := by rw [fld, l o n e, fld]
  have o : fld appHead 8 4 = 2 ∧ fld appHead 0x10 8 = 0 ∧ appHead.take 8 = replLabel := by decide +kernel
  have t8 : appImg.take 8 = replLabel := by rw [appImg, List.take_append_of_le_length (by rw [appHead_length] <;> decide)]; exact o.2.2
  have r : applying.ident.deviceRef = 0 := (apply_host appImg).2.2.1
  have u : usablePreps 2 none applying = [prep1, prep2] := (apply_host appImg).2.2.2.1
  have a : ownerActive 2 applying = false := (apply_host appImg).2.2.2.2
  have p := appHead_parts
  have i : openImage imgK 1736 appImg = some [] := openImage_empty appHead 1736 appHead_length
  have k : unwrapImageKey (openFrom prep1.priv (List.replicate 1568 0) (List.replicate 97 0) replLabel (leBytes 8 0 ++ prep1.nonce) 2) (wrapImageKey appKey imgK) = some imgK := appKey_wrap.1
  refine openReplica_ok mb0 appRq applying appImg imgK [] prep1 [prep2] (by rw [f.2.1, f.2.2]; exact b) (by rw [f.1]; exact u) ?_ ?_ i (by rw [f.1]; exact a)
  · rw [t8, g _ _ (by decide), g _ _ (by decide), o.1, o.2.1, f.1, r]; rfl
  · rw [l _ _ (by decide), l _ _ (by decide), l _ _ (by decide), p.1, p.2.1, p.2.2, f.1, r]; exact k

theorem apply_installs (b : Bytes) : ∃ p, installImage mb0 (fld appRq.body 0 4) (readOwnerImg []) [] (fld appRq.body 0x18 8) (fld appRq.body 0x20 4)
    (usePrep prep1 (applyWith b)) = .ok p := ⟨_, rfl⟩

theorem apply_bits (b : Bytes) : takeSap (maskNeed (readOwnerImg [])) (applyWith b) = (some [], applyWith b) := rfl

set_option maxRecDepth 20000 in
theorem apply_runs (b : Bytes) : storeRefuse (applyWith b) = none ∧ installOwner mb0 appRq (applyWith b) = none ∧ storeStopped (applyWith b) = false ∧
    Accepted mb0 0x021A appRq (applyWith b) ∧ canChange (applyWith b) = true := ⟨rfl, rfl, rfl, ⟨rfl, rfl, rfl, rfl, rfl⟩, rfl⟩

theorem applyOf_ok (mb : Mb) (q : Req) (bits : Bytes) (s : State) (p : Prepare) (i : OwnerImg) (r : Install × State) (h : openReplica mb q s = .ok (p, i))
    (e : installImage mb (fld q.body 0 4) i bits (fld q.body 0x18 8) (fld q.body 0x20 4) (usePrep p s) = .ok r) : applyOf mb q bits s = .ok r := by
  simp only [applyOf, h, e]

theorem applyCheck_ok (mb : Mb) (q : Req) (s : State) (p : Install × State) (n : storeRefuse s = none) (i : installOwner mb q s = none) (h : applyOf mb q [] s = .ok p)
    (w : storeStopped s = false) : storeCheck replicaApplyCheck mb q s = none := by
  simp [storeCheck, n, replicaApplyCheck, i, h, w]

theorem witness_ReplicaApply :
    Accepted mb0 0x021A appRq applying ∧ canChange applying = true ∧ storeCheck replicaApplyCheck mb0 appRq applying = none ∧
    openReplica mb0 appRq applying = .ok (prep1, readOwnerImg []) ∧
    ∃ bits v r u, takeSap (maskNeed (readOwnerImg [])) applying = (some bits, v) ∧ applyOf mb0 appRq bits v = .ok (r, u) := by
  obtain ⟨n, i, w, x, y⟩ := apply_runs appImg
  obtain ⟨⟨r, u⟩, e⟩ := apply_installs appImg
  have a := applyOf_ok mb0 appRq [] applying _ _ (r, u) opens_replica e
  exact ⟨x, y, applyCheck_ok _ _ _ _ n i a w, opens_replica, [], applying, r, u, apply_bits appImg, a⟩

/-- A prepare blob of a destination with no domain: evidence of 30 bytes in mode 4, level 4.2. -/
def destBlob : Bytes := layout 8 [(4, 2, 0xFFFF)] ++ List.replicate 1700 0 ++ layout 34 [(0, 4, 30), (4 + 0x18, 1, 4), (4 + 0x1C, 2, 0x0402)] ++ List.replicate 96 0

/-- REPLICA_EXPORT of owner 1 for that destination. -/
def rexRq : Req := rq 0x0219 0x2C [(0, 4, 1), (0x10, 4, 1838), (0x20, 8, 0x10000), (0x28, 4, 0xFFFFFFFF)]

/-- OWNER_BACKUP of owner 1 under key 2. -/
def bakRq : Req := rq 0x021B 0x1C [(0, 4, 1), (8, 8, handleOf 2 1), (0x18, 4, 0xFFFFFFFF)]

/-- OWNER_DELETE of owner 1. -/
def delRq : Req := rq 0x0206 8 [(0, 4, 1)]

theorem export_checks (h : ∀ p l, Config.verdict p l = true) (s : State) (hr : blobRead mb0 0 1838 s = some destBlob)
    (hn : ownerForKeys mb0 1 s = none) (ho : getOwner 1 s = getOwner 1 owned) (hk : ownerKeys 1 s.store.c = ownerKeys 1 owned.store.c)
    (hi : ∀ x ks, (ownerImage 1 x ks 0 s.store.c).length = (ownerImage 1 x ks 0 owned.store.c).length) (hf : s.host.refused = []) :
    replicaExportCheck mb0 rexRq s = none := by
  have f : fld rexRq.body 0 4 = 1 ∧ fld rexRq.body 8 8 = 0 ∧ fld rexRq.body 0x10 4 = 1838 ∧ fld rexRq.body 0x28 4 = 0xFFFFFFFF ∧
      fld rexRq.body 0x20 8 = 0x10000 ∧ bitOf (fld rexRq.body 4 4) 0 = false := by decide +kernel
  have d : destinationOk (readPrep destBlob) = true := by
    have e : ((fld (readPrep destBlob).evidence 0x18 1 == 4 || fld (readPrep destBlob).evidence 0x18 1 == 5) && !bitOf (fld (readPrep destBlob).evidence 0x0A 2) 0 &&
      fld (readPrep destBlob).evidence 0x1C 2 == 0x0402) = true := by decide +kernel
    simp only [Bool.and_eq_true] at e
    simp only [destinationOk, h, Bool.and_true, e]
  have m : fld (readPrep destBlob).body 4 2 = 0xFFFF := by decide +kernel
  have k : exportKeys mb0 rexRq s = .ok (ownerKeys 1 owned.store.c) := by
    have a : (ownerKeys 1 owned.store.c).filter (fun p => p.2.state != .revoking) = ownerKeys 1 owned.store.c := by decide +kernel
    simp only [exportKeys, f.1, f.2.2.2.2.2, hk, a]; rfl
  have r : ((ownerKeys 1 owned.store.c).any (fun k => randomIv k.2)) = false := by decide +kernel
  have x : getOwner 1 owned = some { state := .active, adminPolicy := 2, domainId := 3, keyQuota := 100, counterQuota := 8, vfQuota := 8, appletQuota := 8, root := List.replicate 32 1, anchor := true, nextMember := 1 } := rfl
  have n : (ownerImage 1 { state := .active, adminPolicy := 2, domainId := 3, keyQuota := 100, counterQuota := 8, vfQuota := 8, appletQuota := 8, root := List.replicate 32 1, anchor := true, nextMember := 1 }
    (ownerKeys 1 owned.store.c) 0 owned.store.c).length < 100000 := by decide +kernel
  simp only [replicaExportCheck, f.1, f.2.1, f.2.2.1, f.2.2.2.1, f.2.2.2.2.1, hn, ho, x, hr, d, m, k, r, hi, hostOk, hf, replHead]
  generalize (ownerImage _ _ _ _ _).length = z at n ⊢
  simp [noMember]
  rw [if_neg (by omega), if_neg (by omega)]

theorem rex_there (b : Bytes) : ownerForKeys mb0 1 (on0 rexRq (holding b owned)) = none ∧ getOwner 1 (on0 rexRq (holding b owned)) = getOwner 1 owned ∧
    (on0 rexRq (holding b owned)).store.c = owned.store.c ∧ (on0 rexRq (holding b owned)).host.refused = [] := ⟨rfl, rfl, rfl, rfl⟩

theorem rex_held (b : Bytes) : ownerForKeys mb0 1 (held rexRq (holding b owned)) = none ∧ getOwner 1 (held rexRq (holding b owned)) = getOwner 1 owned ∧
    (held rexRq (holding b owned)).store.c = owned.store.c ∧ (held rexRq (holding b owned)).host.refused = [] ∧
    held rexRq (holding b owned) = on0 exq (holding b (held rexRq owned)) := ⟨rfl, rfl, rfl, rfl, rfl⟩

/-- Where the destination's evidence verifies. -/
theorem witness_ReplicaExport (h : ∀ p l, Config.verdict p l = true) :
    (Accepted mb0 0x0219 rexRq (on0 rexRq (holding destBlob owned)) ∧ storeCheck replicaExportCheck mb0 rexRq (on0 rexRq (holding destBlob owned)) = none ∧
      policySuspended 0x0219 ((adminOf (fld rexRq.body 0 4) (on0 rexRq (holding destBlob owned))).getD 0) (on0 rexRq (holding destBlob owned)) = false) := by
  have b : blobRead mb0 0 1838 (on0 rexRq (holding destBlob owned)) = some destBlob := by
    have l : destBlob.length = 1838 := by decide +kernel
    have := blob_back rexRq destBlob owned rfl (by rw [l] <;> decide)
    rwa [l] at this
  have t := rex_there destBlob
  have c := export_checks h _ b t.1 t.2.1 (by rw [t.2.2.1]) (fun _ _ => by rw [t.2.2.1]) t.2.2.2
  have n : storeRefuse (on0 rexRq (holding destBlob owned)) = none := by decide +kernel
  refine ⟨accepted (by decide) (by decide +kernel) (by decide +kernel), ?_, by decide +kernel⟩
  simp only [storeCheck, n, c]
  decide +kernel

theorem witness_ReplicationAndBackup :
    (Accepted mb0 0x0218 (rq 0x0218 0x14 [(0, 4, 1), (0x10, 4, 0xFFFFFFFF)]) (on0 (rq 0x0218 0x14 [(0, 4, 1), (0x10, 4, 0xFFFFFFFF)]) owned) ∧
      readCheck replicaPrepareCheck mb0 (rq 0x0218 0x14 [(0, 4, 1), (0x10, 4, 0xFFFFFFFF)]) (on0 (rq 0x0218 0x14 [(0, 4, 1), (0x10, 4, 0xFFFFFFFF)]) owned) = none) ∧
    (Accepted mb0 0x0206 delRq (on0 delRq owned) ∧ storeCheck ownerDeleteCheck mb0 delRq (on0 delRq owned) = none ∧
      policySuspended 0x0206 ((adminOf 1 (on0 delRq owned)).getD 0) (on0 delRq owned) = false) ∧
    (Accepted mb0 0x021B bakRq (exporting 2 256 bakRq) ∧ readCheck ownerBackupCheck mb0 bakRq (exporting 2 256 bakRq) = none ∧
      policySuspended 0x021B ((adminOf 1 (exporting 2 256 bakRq)).getD 0) (exporting 2 256 bakRq) = false) ∧
    (takeWarden 144 (on0 (rq 0x0218 0x14 [(0, 4, 1), (0x10, 4, 0xFFFFFFFF)]) owned)).1.isSome = true := by
  refine ⟨?_, ?_, ?_, ?_⟩ <;> decide +kernel

theorem witness_ReplicaPrepareBlob (d m v : Nat) (n p : Bytes) :
    (prepBlob d m v n p owned).length ≤ 0xFFFFFFFF ∧ hostOk (mbFn mb0) 0 (prepBlob d m v n p owned).length owned = true := by
  have h : ((List.range 10).map (fun i => measValue (i + 1) owned)).flatten.length = 480 := by decide +kernel
  have c : (certChain owned).length < 65536 := by simp only [certChain, prim, leBytes_length]; omega
  have l : (prepBlob d m v n p owned).length ≤ 100000 := by
    simp only [prepBlob, prepBody, prepPublic, evidence, evidBody, attSign, prim, List.length_append, layout_length, h, leBytes_length, padTo, List.length_take,
      List.length_replicate, List.length_cons, List.length_nil]; omega
  have r : owned.host.refused = [] := rfl
  refine ⟨by omega, ?_⟩
  rw [hostOk, r]
  simp; omega

/-- The approved backup runs, under its lease on the key-encryption key. -/
def heldBackup : State :=
  let s := held bakRq { owned with store.c.keys := tset owned.store.c.keys 2 kek }
  setMb mb0 { getMb mb0 s with job := some { slot := 2, gen := 1, huc := true } }
    { s with store.sap := [(2, { gen := 1, shareA := List.replicate 32 0, shareB := List.replicate 32 8, entries := 1 })] }

theorem witness_ApprovedCustodyCommands (h : ∀ p l, Config.verdict p l = true) :
    (getOwner (fld delRq.body 0 4) (held delRq owned) = getOwner 1 owned ∧ Approved mb0 0x0206 exq (apOf delRq) (held delRq owned) ∧
      storeCheck ownerDeleteCheck mb0 delRq (held delRq owned) = none ∧ canChange (held delRq owned) = true ∧ ownerKeys 1 (held delRq owned).store.c ≠ []) ∧
    (Approved mb0 0x021B exq (apOf bakRq) heldBackup ∧ readCheck ownerBackupCheck mb0 bakRq heldBackup = none ∧ (takeWarden 32 heldBackup).1.isSome = true ∧
      backupKek mb0 1 (handleOf 2 1) heldBackup = .ok (2, kek) ∧ KeyInUse mb0 2 kek heldBackup ∧ hostOk (mbFn mb0) 0 5000 heldBackup = true) ∧
    (Approved mb0 0x0219 exq (apOf rexRq) (held rexRq (holding destBlob owned)) ∧ storeCheck replicaExportCheck mb0 rexRq (held rexRq (holding destBlob owned)) = none ∧
      ((getOwner 1 (held rexRq (holding destBlob owned))).map (·.anchor)) = some true ∧ canChange (held rexRq (holding destBlob owned)) = true ∧
      (takeWarden 112 (held rexRq (holding destBlob owned))).1.isSome = true ∧ blobRead mb0 0 1838 (held rexRq (holding destBlob owned)) = some destBlob ∧
      (exportKeys mb0 rexRq (held rexRq (holding destBlob owned))).toOption.isSome = true) := by
  refine ⟨⟨by decide +kernel, approved (by decide +kernel), by decide +kernel, by decide +kernel, by decide +kernel⟩,
    ⟨approved (by decide +kernel), by decide +kernel, by decide +kernel, rfl, by decide +kernel, by decide +kernel⟩,
    approved (by decide +kernel), ?_, by decide +kernel, by decide +kernel, by decide +kernel, ?b, by decide +kernel⟩
  case b =>
    have l : destBlob.length = 1838 := by decide +kernel
    have := blob_back exq destBlob (held rexRq owned) rfl (by rw [l] <;> decide)
    rw [l, ← (rex_held destBlob).2.2.2.2] at this
    exact this
  have l : destBlob.length = 1838 := by decide +kernel
  have t := rex_held destBlob
  have b : blobRead mb0 0 1838 (held rexRq (holding destBlob owned)) = some destBlob := by
    have := blob_back exq destBlob (held rexRq owned) rfl (by rw [l] <;> decide)
    rw [l, ← t.2.2.2.2] at this
    exact this
  have c := export_checks h _ b t.1 t.2.1 (by rw [t.2.2.1]) (fun _ _ => by rw [t.2.2.1]) t.2.2.2.1
  have n : storeRefuse (held rexRq (holding destBlob owned)) = none := by decide +kernel
  simp only [storeCheck, n, c]
  decide +kernel

/-- A lane in one state. -/
def laneIn (g : Nat) (x : Lane) (s : State) : State := { s with units := { s.units with lanes := tset s.units.lanes g x } }

/-- Context 300 holds a lease on key 1. -/
def leaseHeld : State := { inSap with ctxs := [(300, { src := .mailbox mb0, leases := [(1, 1)] })] }

/-- The checker of stand 7 is seeded. -/
def checking : State := { up with units := { stands := [(7, { checkSeed := some 5 })] } }

/-- Lane 0 and the checker of stand 0 are SUSPECT. -/
def suspects : State := laneIn 0 { state := .suspect } (laneIn 8 { state := .suspect } inSap)

/-- Spare lane 71 of stand 7 fills in for lane 63. -/
def filling : State :=
  { up with units := { lanes := [(63, { state := .isolated }), (71, { state := .filling })], stands := [(7, { filling := some 63 })] } }

/-- Wire 1 of stand 0 has brought one word, wire 3 of stand 7 the bits of one block slot. -/
def seeds : State := { up with units := { banks := [(0, { state := .delivering, feeds := [(1, { got := [7] })] }), (7, { state := .delivering, feeds := [(3, { got := List.replicate 8 7 })] })] } }

theorem witness_LaneCommandsComplete :
    (laneEnabled (getLane 0 up) = true ∧ laneEnabled (getLane 71 up) = true ∧ laneEnabled (getLane 63 filling) = false) ∧
    ((tget leaseHeld.store.c.keys 1).map laneKey = some true ∧ (getLane 0 leaseHeld).state = .active ∧ leased 1 leaseHeld = true ∧
      (tget leaseHeld.store.c.keys 1).map (fun k => (inSapwood 1 k leaseHeld, laneTakes 0 1 k.gen leaseHeld)) = some (true, true) ∧
      (getLane 0 leaseHeld).ctxs.length ≤ 32) ∧
    (checks 7 checking = true ∧ checkerOf 7 checking = some 71 ∧ (getLane 63 checking).state = .active ∧ 63 / 9 = 7) ∧
    ((getLane (9 * 0 + 8) suspects).state = .suspect ∧ (getStand 0 suspects).waiting = [] ∧
      (standUnits 0).find? (fun g => (getLane g suspects).state == .suspect && g != 9 * 0 + 8) = some 0) ∧
    ((checkerOf 0 seeds).isSome = true ∧ (takeWire 0 1 8 seeds).1.isSome = true ∧ (takeWire 1 1 8 seeds).1.isSome = false) ∧
    ((getLane 71 filling).state = .filling ∧ (getStand (71 / 9) filling).filling = some 63 ∧ (getStand (71 / 9) filling).waiting = []) := by
  refine ⟨?_, ?_, ?_, ?_, ?_, ?_⟩ <;> decide +kernel

/-- Stand 7's unwrap core has n blocks left for context 300. -/
def unwrapping (n : Nat) (s : State) : State := { s with units := { s.units with stands := [(7, { hucQueue := [{ src := .ctx 300, left := n }] })] } }

theorem witness_HucCommandsComplete :
    (∀ n ∈ [1, 2], (getStand 7 (unwrapping n up)).hucQueue[(getStand 7 (unwrapping n up)).hucNext % max 1 (getStand 7 (unwrapping n up)).hucQueue.length]? =
      some { src := .ctx 300, left := n } ∧ (getStand 7 (unwrapping n up)).hucHeld = []) ∧
    ((takeWire 7 3 hucBits (unwrapping 1 up)).1 = none ∧ (takeWire 7 3 hucBits (unwrapping 1 seeds)).1.isSome = true) ∧
    ((getStand 0 up).hucIsolated = false ∧ (getStand 0 { up with units := { stands := [(0, { hucIsolated := true })] } }).hucIsolated = true) := by
  refine ⟨?_, ?_, ?_⟩ <;> decide +kernel

/-- Engine 1 of stand 0 is d; the core that glade core 7 is writes to it. -/
def dgeIs (d : Dge) (s : State) : State := { s with units := { s.units with dges := [(1, d)] } }

/-- An engine of world U with a message open. -/
def opened : Dge := { worldU := true, slot := .open_, claim := some 7, msg := { text := [1] } }

/-- A key of HMAC-SHA-256 for purpose MAC. -/
def macKey : KeyRec := { type := 3, owner := 1, length := 256, purpose := 5, shareA := List.replicate 32 0, shareB := List.replicate 32 9 }

/-- Core 7 works for owner 1, which has an HMAC key in slot 4. -/
def coreOfOne : State :=
  { owned with cores := { cores := [(7, { owner := some 1 })] }, store := { owned.store with c := { owned.store.c with keys := tset owned.store.c.keys 4 macKey } } }

theorem witness_DigestControlCompletes :
    (∀ o ∈ [0, 0x20, 0x28, 0x30, 0x38], DgeTakes 1 7 o { worldU := true } (dgeIs { worldU := true } coreOfOne) ∧ DgeTakes 1 7 o opened (dgeIs opened coreOfOne)) ∧
    (slotBusy { worldU := true } = false ∧ opened.err = 0 ∧ opened.slot ≠ .finishing ∧ opened.slot ≠ .done) ∧ (0xFFFF#64).toNat < 2 ^ 16 := by
  refine ⟨?_, ?_, ?_⟩ <;> decide +kernel

/-- An engine that waits for the shares of key 4, which the Sapwood has. -/
def loadsKeyDge : Dge := { worldU := true, keyLoading := true, keySrc := .handle, lease := some (4, 1) }
def keyedCore : State :=
  { coreOfOne with store.sap := [(4, { gen := 1, shareA := List.replicate 32 0, shareB := List.replicate 32 9, entries := 1 })] }

theorem witness_DigestDataCompletes :
    (opened.held = [] ∧ fifoUsed opened < 32 ∧ msgLen opened.msg + 8 ≤ 2 ^ 61 - 1 ∧ opened.lastCnt ≤ 8) ∧
    (frozen coreOfOne = false ∧ startErr { worldU := true } = none ∧ ({ worldU := true } : Dge).keyed = false ∧ 0 < ({ worldU := true } : Dge).keyLen ∧
      ({ worldU := true } : Dge).keyLen ≤ 128 ∧ ({ worldU := true } : Dge).keyLoading = false) ∧
    ((dgeKeyOf (handleOf 4 1) (masterTag 7 (dgeIs { worldU := true } coreOfOne)).owner (dgeIs { worldU := true } coreOfOne)).toOption = some (4, macKey) ∧
      leaseWaits 4 macKey (dgeIs { worldU := true } coreOfOne) = false) ∧
    ((getDge 1 (dgeIs loadsKeyDge keyedCore)).lease = some (4, 1) ∧ tget keyedCore.store.c.keys 4 = some macKey ∧ inSapwood 4 macKey (dgeIs loadsKeyDge keyedCore) = true) ∧
    (8 * keyWords { worldU := true, keyLoading := true, keySrc := .raw, keyLen := 8, keyBuf := List.replicate 8 0 } ≤ (List.replicate 8 (0 : Byte)).length) := by
  refine ⟨?_, ?_, ?_, ?_, ?_⟩ <;> decide +kernel

/-- Engine 1 saves its slot to, or restores it from, its stand's bank of core 7. -/
def transfers (r : Bool) : Dge := { worldU := true, xfer := some { restore := r, tag := masterTag 7 coreOfOne }, saveAddr := 0x0C700000 }

theorem witness_DigestEndsComplete :
    ((getDge 1 (dgeIs { worldU := true, slot := .finishing, msg := { text := [1] } } coreOfOne)).slot = .finishing) ∧
    (∀ r ∈ [true, false], probeOk (masterTag 7 coreOfOne) (targetOf 0 (transfers r).saveAddr) (transfers r).saveAddr 512 (!r) (dgeIs (transfers r) coreOfOne) = true) ∧
    (fld (memReadN (dgeIs (transfers true) coreOfOne).units.fab (imageAddr 1 (transfers true)) 512) 0 2 ≠ 2 ∧
      imageOk (memReadN (dgeIs (transfers true) coreOfOne).units.fab (imageAddr 1 (transfers true)) 512) (masterTag 7 coreOfOne) [] = false) ∧
    imageOk (layout 512 [(0, 2, 1), (4, 4, 1), (8, 1, 1)]) (masterTag 7 coreOfOne) [] = true := by
  refine ⟨?_, ?_, ?_, ?_⟩ <;> decide +kernel

/-- Bank 7 delivers, bank 0 starts; the early source delivers. -/
def banks : State :=
  { up with units := { banks := [(0, { tested := 4096, gated := true }), (7, { state := .delivering }), (8, { state := .delivering })] } }

/-- Samples of a window: every cell alternates, or none does. -/
def swings (n : Nat) : List Nat := ((List.range (n / 2)).map (fun _ => [0, 2 ^ 64 - 1])).flatten
def flat (n : Nat) : List Nat := List.replicate n 0

theorem witness_SeedbankHealthCompletes :
    (∀ b ∈ [0, 7], bankRuns b banks = true ∧ (sampleBank b ((flat 16).take (windowSamples b)) banks).1 = some (if b = 0 then 3 else 2) ∧ (flat 16).length = windowSamples b ∧
      (sampleBank b ((swings 16).take (windowSamples b)) banks).1 = none ∧ (swings 16).length = windowSamples b) ∧
    (bankRuns 8 banks = true ∧ (sampleBank 8 ((swings 128).take (windowSamples 8)) banks).1 = none ∧ (swings 128).length = windowSamples 8) ∧
    ((getBank 0 banks).state = .starting ∧ (getBank 7 banks).state = .delivering ∧ (getBank 0 banks).badStarts = 0 ∧
      (getBank 0 { banks with units := { banks := [(0, { badStarts := 2 })] } }).badStarts = 2) ∧
    (200 * (((32768 :: [32768]).max?.getD 0) - ((32768 :: [32768]).min?.getD 0)) < (32768 :: [32768]).foldl (· + ·) 0 / (32768 :: [32768]).length ∧
      meanOk 7 ((32760 :: [33000]).foldl (· + ·) 0 / (32760 :: [33000]).length) banks = true ∧
      (32760 :: [33000]).foldl (· + ·) 0 / (32760 :: [33000]).length ≤ 200 * (((32760 :: [33000]).max?.getD 0) - ((32760 :: [33000]).min?.getD 0))) ∧
    ((startupTest 0 ((flat 16).length / windowSamples 0) (flat 16) banks).1 = some 3 ∧
      (startupTest 0 ((swings 32).length / windowSamples 0) (swings 32) banks).1 = none ∧
      4096 ≤ (getBank 0 (startupTest 0 ((swings 32).length / windowSamples 0) (swings 32) banks).2).tested ∧ (getBank 0 banks).gated = true ∧ banks.units.sbkNow ≠ some 0 ∧
      (startupTest 0 0 [] { banks with units := {} }).1 = none ∧ (getBank 0 (startupTest 0 0 [] { banks with units := {} }).2).tested < 4096) := by
  refine ⟨?_, ?_, ?_, ?_, ?_⟩ <;> decide +kernel

/-- Bank 7 has a request of one word for the bank of core 63, and its reservoir a word. -/
def asked (addr : Nat) (c : Option Nat) : State :=
  { up with units := { banks := [(7, { state := .delivering, feeds := [(5, { got := [9] })], queue := [{ master := 63, owner := 0, priv := true, addr := addr, count := 1, ctx := c }] })] } }

/-- SEEDBANK_CONFIG of banks 0 and 7. -/
def sbkRq : Req := rq 0x0120 2 [(0, 1, 0x81), (1, 1, 1)]

/-- The port's tag for that request. -/
def askTag (addr : Nat) : FabricTag := portTag 7 { master := 63, owner := 0, priv := true, addr := addr, count := 1 } (takeWire 7 5 8 (asked addr none)).2

theorem witness_SeedbankPortsComplete :
    (standHolds 0 up = false ∧ permits (nextTag 0 0 up) 0 (0x0D500000 + 0x1000 * 0 + 0x100) true false (issue (masterTag 0 up) 0 up).2 = true ∧ (getBank 0 up).queue.length < 8 ∧
      (portStat (getBank 0 up) (masterTag 0 up).master).state ≠ 2) ∧
    (∀ c ∈ [none, some 4], (getBank 7 (asked 0x220000000 c)).queue = [{ master := 63, owner := 0, priv := true, addr := 0x220000000, count := 1, ctx := c }] ∧
      (takeWire 7 5 (8 * 1) (asked 0x220000000 c)).1.isSome = true ∧ (takeWire 7 5 (8 * 2) (asked 0x220000000 c)).1 = none) ∧
    (probeOk (askTag 0x100000000) (targetOf 7 0x100000000) 0x100000000 8 true (takeWire 7 5 8 (asked 0x100000000 none)).2 = true ∧
      probeOk (askTag 0x220000000) (targetOf 7 0x220000000) 0x220000000 8 true (takeWire 7 5 8 (asked 0x220000000 none)).2 = false) ∧
    Accepted mb0 0x0121 (rq 0x0121 0 []) (on0 (rq 0x0121 0 []) up) ∧
    (Accepted mb0 0x0120 sbkRq (on0 sbkRq banks) ∧ fld sbkRq.body 1 1 ≤ 1 ∧ (on0 sbkRq banks).units.sbkNow = none ∧
      stands.filter (fun b => bitOf (fld sbkRq.body 0 1) b && !bankLost b (on0 sbkRq banks)) = 0 :: [7] ∧
      stands.filter (fun b => bitOf (fld (rq 0x0120 2 []).body 0 1) b && !bankLost b (on0 sbkRq banks)) = []) := by
  refine ⟨?_, ?_, ?_, ?_, ?_⟩ <;> decide +kernel

/-- Queue 0 of PF 0. -/
def qOf (q : Queue) (s : State) : State := { s with host := { s.host with queues := [(0, q)] } }

/-- An ACTIVE queue with one entry to fetch. -/
def busyQ : Queue := { state := .active, sqTail := 1 }

/-- PF 0 holds credit; vector 0 is unmasked. -/
def served : State :=
  { owned with
    host := { owned.host with fns := [(0, { enabled := true, busMaster := true, credit := 1024, unmasked := [0], pendingVec := [3] })] }
    allocs := [(0, { queues := 256 })] }

theorem witness_LinksAndFunctionsComplete :
    (up.pwr.state ≠ .backup ∧ up.pwr.resetLow = false ∧ up.pwr.quiet = false ∧ { up with pwr := { up.pwr with quiet := true } }.pwr.quiet = true) ∧
    ({ up with mode := { mode := 8, chosen := true } }.mode.mode = 8 ∧ up.mode.mode ≠ 8) ∧
    (mayTrain 2 { up with host := { up.host with links := [(2, { perst := false })] } } = true ∧ trainOk 2 6 16 true up = true ∧ trainOk 2 1 1 false up = true) ∧
    ((getFn (.pf 0) up).enabled = true ∧ hasVfs up = true ∧ (pfVfs 0 up).contains 2047 = true) ∧
    ((getFn (.vf 4095) { up with host := { fns := [(4099, { enabled := true })] } }).enabled = true) ∧
    ((getFn (.pf 0) up).busMaster = true ∧ (getFn (.pf 0) { up with host := { fns := [(0, { enabled := true })] } }).busMaster = false ∧
      getQ (qKey (.pf 0) 0) (qOf busyQ up) = some busyQ ∧ 0 / 256 = fnKey (.pf 0)) ∧
    ((getFn (.pf 0) { up with host := { fns := [(0, { d3hot := true })] } }).d3hot = true ∧ mbOk (.vf 4095) = true) ∧
    (qidOk (.pf 3) 255 = true ∧ qidOk (.vf 4095) 63 = true ∧ ({ busyQ with reading := [0] } : Queue).reading ≠ []) := by
  refine ⟨?_, ?_, ?_, ?_, ?_, ?_, ?_, ?_⟩ <;> decide +kernel

/-- An IDE_KM object of a code for stream 16 and key set 1, in an SPDM vendor message. -/
def kmMsg (code : Nat) : Bytes := layout 60 [(0, 1, 0x13), (1, 1, 0xFE), (12, 1, code), (15, 1, 16), (17, 1, 1)]

/-- The Heartwood holds eleven words; a session is open at DOE instance 0. -/
def keying : State := { up with units := { heartFeed := { got := List.replicate 11 1 } }, host := { up.host with spdm := [(0, 1)] } }

theorem witness_SecurityMessagesComplete :
    (pfPresent up 0 = true ∧ inD3 (.pf 0) up = false ∧ up.host.doeBusy.contains 0 = false ∧ up.mode.chosen = true ∧ restarting up = false ∧
      up.start.failingOver = false ∧ restarting (inRestart 0x21) = true ∧ (takeHeart 88 up).1 = none ∧
      (takeHeart 88 keying).1.isSome = true) ∧
    (∀ c ∈ [2, 4, 5], 0 < tgetD keying.host.spdm 0 0 ∧ spdmIs 0xFE (kmMsg c) = true ∧ fld (kmMsg c) 11 1 = 0 ∧ fld (kmMsg c) 15 1 = 16 ∧ fld (kmMsg c) 17 1 % 2 = 1 ∧ fld (kmMsg c) 12 1 = c) ∧
    (tgetD up.host.tdis 5 .unlocked = .unlocked ∧ (getAlloc (.vf 5) { up with allocs := [(9, { owner := some 1 })] }).owner.isSome = true ∧
      tgetD { up with host := { tdis := [(5, .locked)] } }.host.tdis 5 .unlocked = .locked) := by
  refine ⟨?_, ?_, ?_⟩ <;> decide +kernel

/-- QUEUE_CREATE of queue q. -/
def qcRq (q : Nat) : Req := rq 0x0420 0x20 [(0, 2, q), (2, 1, 4), (3, 1, 4), (4, 2, 16)]

/-- A request about queue 0. -/
def qRq (op : Nat) : Req := rq op 2 []

theorem witness_QueuesComplete :
    (inD3 (.pf 0) (qOf busyQ served) = false ∧ served.pwr.entry = none ∧ getQ (qKey (.pf 0) 0) (qOf busyQ served) = some busyQ ∧ busyQ.destroying = none ∧
      15 < sqSize busyQ ∧ sqSize busyQ ≤ 16 ∧ 15 < cqSize busyQ) ∧
    (getQ (qKey (.pf 0) 255) served = none ∧ tget served.eth.rings (qKey (.pf 0) 255) = none ∧ (getFn (.pf 0) served).dbErr < 65535) ∧
    (cqFull busyQ = false ∧ queuesEnabled (qOf busyQ served) = true ∧ fetchCount (.pf 0) busyQ (qOf busyQ served) ≠ 0 ∧ stopIntake served = false ∧
      (getFn (.pf 0) served).busMaster = true) ∧
    ({ served with host := { served.host with coalDue := [0] } }.host.coalDue.contains (qKey (.pf 0) 0) = true ∧ (getFn (.pf 0) served).maskAll = false ∧
      (getFn (.pf 0) served).unmasked.contains busyQ.vector = true ∧ (getFn (.pf 0) served).pendingVec.contains 3 = true ∧
      (getFn (.pf 0) served).pendingVec.contains 4 = false) ∧
    (Accepted mb0 0x0420 (qcRq 255) (on0 (qcRq 255) served) ∧ queueCreateCheck mb0 (qcRq 255) (on0 (qcRq 255) served) = none) ∧
    (getQ (qKey (.pf 0) 0) { served with eth := { rings := [(0, { dir := 0, log2 := 4, vector := 0, addr := 0, evt := 0 })] }, host.coalDue := [0] } = none ∧
      tget { served with eth := { rings := [(0, { dir := 0, log2 := 4, vector := 0, addr := 0, evt := 0 })] }, host.coalDue := [0] }.eth.rings (qKey (.pf 0) 0) = some { dir := 0, log2 := 4, vector := 0, addr := 0, evt := 0 } ∧ qidOk (.pf 0) 0 = true) ∧
    (∀ op ∈ [0x0421, 0x0422], Accepted mb0 op (qRq op) (on0 (qRq op) (qOf busyQ served)) ∧ queueNamed mb0 (qRq op) (on0 (qRq op) (qOf busyQ served)) = none ∧
      getQ (qKey (mbFn mb0) (fld (qRq op).body 0 2)) (on0 (qRq op) (qOf busyQ served)) = some busyQ) ∧
    (busyQ.held = 0 ∧ busyQ.fetched = [] ∧ busyQ.reading = [] ∧ ({ busyQ with held := 1 } : Queue).held ≠ 0) := by
  refine ⟨?_, ?_, ?_, ?_, ?_, ?_, ?_, ?_⟩ <;> decide +kernel

/-- JRING_SETUP of a ring of 64 buffers. -/
def jrRq : Req := rq 0x0310 0x18 [(0, 8, 0x1000), (8, 8, 0x2000), (0x10, 1, 6)]

/-- The ring recovers: the buffer at 0x1000 holds the block of SEQ n, in 48 bytes. -/
def inputs (n lastIn : Nat) : State :=
  { loading with
    store := { loading.store with lastIn := lastIn }
    host := { loading.host with
      mem := memWriteN (memWriteN [] 0x100 (leBytes 8 0x1000 ++ leBytes 4 48)) 0x1000 (layout 48 [(8, 8, n)])
      jring := { state := .input, ringAddr := 0x100, evtAddr := 0x8000, head := 0, tail := 1 } } }

theorem witness_JournalRingCommandsComplete :
    (Accepted mb0 0x0310 jrRq (on0 jrRq owned) ∧ jringSetupCheck mb0 jrRq (on0 jrRq owned) = none ∧ (on0 jrRq owned).store.recoverMb = none) ∧
    (Accepted mb0 0x0311 (rq 0x0311 0 []) (on0 (rq 0x0311 0 []) owned) ∧ jringStopCheck mb0 (rq 0x0311 0 []) (on0 (rq 0x0311 0 []) owned) = none) ∧
    (owned.host.jring.pf = 0 ∧ owned.host.jring.state = .output ∧ 63 < jrSize owned ∧ jrSize owned ≤ 64) ∧
    ({ posted with host := { posted.host with jring := { posted.host.jring with blocks := [{ seq := 9, written := true }] } } }.host.jring.blocks.any
        (fun b => b.seq == (9#64).toNat && b.written) = true ∧ owned.host.jring.blocks.any (fun b => b.seq == (9#64).toNat && b.written) = false) ∧
    (∀ p ∈ [(5, 5), (7, 5), (8, 7)], (inputs p.1 p.2).host.jring.state = .input ∧ (inputs p.1 p.2).host.jring.pf = 0 ∧ pfWrites 0 (inputs p.1 p.2) = true ∧
      hostOk (.pf 0) ((inputs p.1 p.2).host.jring.ringAddr + 16 * 0) 16 (inputs p.1 p.2) = true ∧ hostOk (.pf 0) (jrBuffer (inputs p.1 p.2)).1 (jrBuffer (inputs p.1 p.2)).2 (inputs p.1 p.2) = true ∧
      fld (memReadN (inputs p.1 p.2).host.mem (jrBuffer (inputs p.1 p.2)).1 (jrBuffer (inputs p.1 p.2)).2) 8 8 = p.1 ∧
      (inputs p.1 p.2).store.lastIn = p.2 ∧ (inputs p.1 p.2).store.committed = 8) := by
  refine ⟨?_, ?_, ?_, ?_, ?_⟩ <;> decide +kernel

/-- A recovering store whose journal holds the entry blocks 7 after 5 and 8 after 7, with the commit record c of block 8. -/
def chained (last : Nat) (c : Bytes) : State := { loading with store := { loading.store with lastIn := last, hist := [(7, { prev := 5 }), (8, { prev := 7 })], commitRec := c } }

/-- That record. -/
def rec8 : Bytes := List.replicate 16 0 ++ headAfter 8 { prev := 7 } (chained 7 [])

theorem block_fields (seq : Nat) (d : JDesc) (s : State) : fld (blockBytes seq d s) 8 8 = fld (blockHead seq d s) 8 8 := by
  have l : (blockHead seq d s).length = 48 := by rw [blockHead, layout_length]
  unfold blockBytes
  rw [fld_head _ _ _ _ (by rw [List.length_append, l]; omega), fld_head _ _ _ _ (by omega)]

theorem head_there (c : Bytes) : headOf 8 (chained 7 c) = headAfter 8 { prev := 7 } (chained 7 c) := rfl

theorem head_same (c : Bytes) : headAfter 8 { prev := 7 } (chained 7 c) = headAfter 8 { prev := 7 } (chained 7 []) := by
  simp only [headAfter, blockBytes, blockHead, chained]

theorem rec_head (h : Bytes) (e : h.length = 32) : commitHead (List.replicate 16 0 ++ h) = h := by
  rw [commitHead, slice_app _ _ _ _ (by simp)]
  exact List.take_of_length_le (Nat.le_of_eq e)

/-- The blocks the device wrote verify, and a host that holds one gives it back; block 8 ends the recovery with its head hash or, with another record's, fails it. -/
theorem witness_JournalBlockVerifies :
    (∀ p ∈ [(7, 5), (8, 7)], ∀ c, blockVerifies (blockBytes p.1 { prev := p.2 } (chained p.2 c)) (chained p.2 c) = true ∧ fld (blockBytes p.1 { prev := p.2 } (chained p.2 c)) 8 8 = p.1 ∧
      (chained p.2 c).store.lastIn < p.1 ∧ p.1 ≤ (chained p.2 c).store.committed ∧
      ∀ a, memReadN (memWriteN [] a (blockBytes p.1 { prev := p.2 } (chained p.2 c))) a (blockBytes p.1 { prev := p.2 } (chained p.2 c)).length = blockBytes p.1 { prev := p.2 } (chained p.2 c)) ∧
    headOf 8 (chained 7 rec8) = commitHead (chained 7 rec8).store.commitRec ∧ headOf 8 (chained 7 []) ≠ commitHead (chained 7 []).store.commitRec := by
  have l (c : Bytes) : (headAfter 8 { prev := 7 } (chained 7 c)).length = 32 := by
    rw [headAfter, sha256]; exact digest_length (.inl rfl) _
  refine ⟨?_, ?_, ?_⟩
  · intro p hp c
    simp only [List.mem_cons, List.not_mem_nil, or_false] at hp
    have z (n m : Nat) (h : tget (chained m c).store.hist n = some { prev := m }) (f : fld (blockHead n { prev := m } (chained m c)) 8 8 = n) :
        blockVerifies (blockBytes n { prev := m } (chained m c)) (chained m c) = true ∧ fld (blockBytes n { prev := m } (chained m c)) 8 8 = n := by
      have e := (block_fields n { prev := m } (chained m c)).trans f
      have i : (({ prev := m } : JDesc).prev == (chained m c).store.lastIn) = true := beq_self_eq_true m
      exact ⟨by unfold blockVerifies; simp only [e, h, i, beq_self_eq_true, Bool.and_self], e⟩
    rcases hp with rfl | rfl
    · have := z 7 5 rfl (by rw [show blockHead 7 { prev := 5 } (chained 5 c) = blockHead 7 { prev := 5 } (chained 5 []) from by simp only [blockHead, chained]]; decide +kernel)
      exact ⟨this.1, this.2, show 5 < 7 by decide, show 7 ≤ 8 by decide, fun a => read_back _ a⟩
    · have := z 8 7 rfl (by rw [show blockHead 8 { prev := 7 } (chained 7 c) = blockHead 8 { prev := 7 } (chained 7 []) from by simp only [blockHead, chained]]; decide +kernel)
      exact ⟨this.1, this.2, show 7 < 8 by decide, show 8 ≤ 8 by decide, fun a => read_back _ a⟩
  · exact (head_there rec8).trans ((head_same rec8).trans (rec_head _ (l [])).symm)
  · rw [head_there]
    exact fun h => absurd ((l []).symm.trans (congrArg List.length h)) (by decide)

/-- A mailbox that waits for the Warden with a request header in its buffer. -/
def ringing (hdr : Bytes) (b : Mbox) : State := setMb mb0 { b with state := .busy, buf := memWriteN [] 0 hdr } up

/-- A header of DEVICE_IDENTIFY with REQ_ID id. -/
def idHdr (ver id : Nat) : Bytes := layout 16 [(0, 2, 0x0101), (2, 1, ver), (8, 8, id)]

/-- The record of a request that is DONE. -/
def doneRec : MbRec := { reqId := 5, hashed := hashText { opcode := 0x0101 }, state := .done, opcode := 0x0101 }

theorem witness_RequestIdClasses :
    (reqClass { high := none } 7 = .new ∧ reqClass { high := some 5 } (5 + 1) = .new ∧ reqClass { high := some 5 } (5 + 2 ^ 20) = .new ∧
      reqClass { high := some 5 } (5 + 2 ^ 20 + 1) = .outOfRange ∧ reqClass { high := some 5 } (2 ^ 64 + 5 - 2 ^ 20) = .outOfRange ∧
      reqClass { high := some 5 } (2 ^ 64 + 5 - 2 ^ 20 + 1) = .stale ∧ reqClass { high := some 5 } 5 = .stale ∧
      reqClass { high := some 5, recs := [doneRec] } 5 = .repeat_ doneRec) ∧
    (∀ id ∈ [4, 6, 5 + 2 ^ 21], (getMb mb0 (ringing (idHdr 1 id) { high := some 5 })).state = .busy ∧ wardenAnswers (ringing (idHdr 1 id) { high := some 5 }) = true ∧
      (readReq mb0 (getMb mb0 (ringing (idHdr 1 id) { high := some 5 }))).reqId = id ∧ reqVer (getMb mb0 (ringing (idHdr 1 id) { high := some 5 })) = 1 ∧
      mbCtx mb0 (ringing (idHdr 1 id) { high := some 5 }) = some 0 ∧ swapping (ringing (idHdr 1 id) { high := some 5 }) = false) := by
  refine ⟨?_, ?_⟩ <;> decide +kernel

theorem witness_MailboxAcceptChecksInOrder :
    (reqVer (getMb mb0 (ringing (idHdr 2 6) {})) ≠ 1 ∧ mbCtx mb0 up = some 0) ∧
    mbCtx (.vf 1) { up with ctxs := (List.range 224).map (fun i => (i + 32, { src := .mailbox mb0 })) } = none ∧
    (reqClass { high := some 5, recs := [doneRec] } (readReq mb0 (getMb mb0 (ringing (idHdr 1 5) {}))).reqId = .repeat_ doneRec ∧
      recMatches doneRec (readReq mb0 (getMb mb0 (ringing (idHdr 1 5) {}))) = true ∧ recMatches doneRec { opcode := 0x0102 } = false) ∧
    (acceptCheck mb0 { opcode := 0x0101 } up = none ∧ acceptCheck mb0 { opcode := 0x9999 } up = some 0x0101) := by
  refine ⟨?_, ?_, ?_, ?_⟩ <;> decide +kernel

theorem witness_AcceptedCommandChecks :
    (cmdTable.find? (fun r => r.1 == 0x9999) = none ∧ cmdTable.find? (fun r => r.1 == 0x0120) = some (0x0120, 2, 0) ∧
      cmdTable.find? (fun r => r.1 == 0x0201) = some (0x0201, 0x0D, 2) ∧ cmdTable.find? (fun r => r.1 == 0x0301) = some (0x0301, 0x20, 1)) ∧
    (mbIsVf (.vf 0) = true ∧ mbOwner (.vf 0) up = none ∧ mbOwner (.vf 0) { up with allocs := [(4, { owner := some 1 })] } ≠ none) ∧
    (modeAllows { opcode := 0x0101 } up = true ∧ modeAllows { opcode := 0x0301 } { up with mode := { mode := 8, chosen := true } } = false) := by
  refine ⟨?_, ?_, ?_⟩ <;> decide +kernel

theorem witness_DoorbellsAndDeadlines :
    (pfPresent up 0 = true ∧ inD3 (.pf 0) up = false ∧ (getMb (.pf 0 7) up).state ≠ .busy ∧ restarting up = false ∧ restarting (inRestart 0x21) = true ∧
      (getMb (.pf 0 7) (inRestart 0x21)).cur = none ∧ (getMb mb0 (on0 (rq 0x0101 0 []) up)).state = .busy) ∧
    ((getFn (.vf 0) { up with host := { fns := [(4, { enabled := true })] } }).enabled = true ∧ (getAlloc (.vf 0) up).quiesce = false ∧ (getAlloc (.vf 0) up).frozen = false) ∧
    ((getMb mb0 (on0 (rq 0x0301 0x20 []) up)).cur = some (rq 0x0301 0x20 []) ∧ (getMb mb0 (on0 (rq 0x0301 0x20 []) up)).rank8 = false ∧
      (getMb mb0 (on0 (rq 0x0301 0x20 []) up)).wait = .none ∧ wardenAnswers (on0 (rq 0x0301 0x20 []) up) = true) := by
  refine ⟨?_, ?_, ?_⟩ <;> decide +kernel

theorem witness_IdentityCommandsAnswer :
    Accepted mb0 0x0101 (rq 0x0101 0 []) (on0 (rq 0x0101 0 []) up) ∧ Accepted mb0 0x0102 (rq 0x0102 0 []) (on0 (rq 0x0102 0 []) up) ∧
    (Accepted mb0 0x0105 (rq 0x0105 8 [(0, 8, 9)]) (on0 (rq 0x0105 8 [(0, 8, 9)]) up) ∧
      (getMb mb0 (on0 (rq 0x0105 8 [(0, 8, 9)]) up)).recs.find? (fun r => r.reqId == fld (rq 0x0105 8 [(0, 8, 9)]).body 0 8) = none) ∧
    ((getMb mb0 (on0 (rq 0x0105 8 [(0, 8, 1)]) up)).recs.find? (fun r => r.reqId == fld (rq 0x0105 8 [(0, 8, 1)]).body 0 8)).isSome = true := by
  refine ⟨?_, ?_, ?_, ?_⟩ <;> decide +kernel

/-- A submission entry of a class, with fields at their offsets. -/
def ent (cls : Nat) (fs : List (Nat × Nat × Nat)) : Bytes := layout 64 ((0, 1, cls) :: fs)

/-- An AES-256 key of owner 1 for purpose p. -/
def forUse (t p : Nat) : KeyRec :=
  { type := t, owner := 1, length := 256, purpose := p, ceiling := 1025, shareA := List.replicate 32 0, shareB := List.replicate 32 p }

/-- Owner 1 has a key for every class, in slots 10 to 21. -/
def suited : State :=
  { owned with
    store := { owned.store with c := { owned.store.c with
      keys := [(10, forUse 2 1), (11, forUse 2 2), (12, forUse 2 5), (13, forUse 2 3), (14, forUse 3 5), (15, forUse 0x20 6), (16, forUse 0x20 7),
        (17, forUse 0x20 8), (18, forUse 3 4), (19, forUse 5 2), (20, forUse 5 1), (21, forUse 4 5)] } } }

/-- An entry of each class that passes every check. -/
def goodEntries : List Bytes :=
  let e (cls key S D : Nat) (fs : List (Nat × Nat × Nat)) : Bytes :=
    ent cls ([(8, 8, if key = 0 then 0 else handleOf key 1), (0x10, 8, 0x1000), (0x18, 4, S), (0x1C, 4, D), (0x20, 8, 0x2000)] ++ fs)
  [e 1 10 32 32 [(0x2C, 1, 16)], e 2 11 32 32 [(0x2C, 1, 16)], e 3 12 16 0 [(0x2C, 1, 12)], e 4 12 16 0 [(0x2C, 1, 12)], e 5 10 16 16 [],
    e 6 12 0 16 [(0x2C, 1, 16)], e 7 12 0 0 [(0x2C, 1, 16)], e 8 0 3 64 [(0x28, 1, 1)], e 9 14 3 64 [(0x28, 1, 1)], e 0x0A 14 3 0 [(0x28, 1, 1)],
    e 0x0B 13 16 24 [(0x28, 1, 1)], e 0x0C 13 24 16 [(0x28, 1, 1)], e 0x0D 15 5 64 [(0x28, 1, 3), (0x29, 1, 2)],
    e 0x0E 16 5 0 [(0x28, 1, 3), (0x29, 1, 2), (0x2C, 4, 64)], e 0x0F 17 65 66 [], e 0x10 18 4 32 [(0x29, 1, 4), (0x2C, 4, 32)], e 0x11 0 0 64 [],
    e 0x12 14 32 80 [], e 0x13 19 20 8 [(0x28, 8, handleOf 20 1), (0x32, 1, 12)], e 0x14 21 8 8 [(0x28, 1, 1), (0x29, 1, 8)]]

/-- Context 300 works on an entry for owner 1. -/
def job (e : Bytes) : Ctx := { src := .mailbox mb0, owner := 1, entry := e }

/-- The state in which context 300 is x. -/
def ctxIs (x : Ctx) (s : State) : State := { s with ctxs := [(300, x)] }

/-- An entry passes steps 2 to 5 of its checks. -/
def passed (x : Ctx) (s : State) : Option Ctx :=
  match admitChecks x s with
  | .ok y => some y
  | .error _ => none

theorem witness_ClassRowsComplete :
    (∀ e ∈ goodEntries, getCtx 300 (ctxIs (job e) suited) = some (job e) ∧ fieldsOk e = true ∧
      ∃ y ks, passed (job e) (ctxIs (job e) suited) = some y ∧ (entryKeys y (ctxIs (job e) suited)).toOption = some ks ∧
        restartHolds (ctxClass y) ks (ctxIs (job e) suited) = false ∧ frozen (ctxIs (job e) suited) = false ∧ finishing (ctxIs (job e) suited) = false ∧ pinFits ks (ctxIs (job e) suited) = true ∧
        (∀ q ∈ ks, useReady q.2 (ctxIs (job e) suited) = true) ∧
        keyLengthOk y ((ks.head?.map Prod.snd).getD (forUse 2 1)) = true ∧ outNeed y ((ks.head?.map Prod.snd).getD (forUse 2 1)) ≤ destRoom y) ∧
    goodEntries.map (fun e => fld e 0 1) = (List.range 20).map (· + 1) ∧
    (∀ p ∈ [(5, (0x2D, 1, 6)), (8, (0x28, 1, 0)), (9, (0x28, 1, 5)), (0x0A, (0x28, 1, 5)), (0x0B, (0x28, 1, 6)), (0x0C, (0x28, 1, 5)), (0x0D, (0x28, 1, 9)), (0x0E, (0x28, 1, 9)),
      (0x10, (0x28, 1, 2)), (0x13, (0x30, 1, 2)), (0x14, (0x28, 1, 3))], fieldsOk (ent p.1 [p.2]) = false) ∧
    (∀ p ∈ [(1, (0x2C, 1, 11)), (2, (0x2C, 1, 17)), (3, (0x18, 4, 0)), (4, (0x18, 4, 0)), (5, (0x18, 4, 0)), (6, (0x2C, 1, 7)), (7, (0x2C, 1, 17)), (0x11, (0x1C, 4, 65537)), (0x12, (0x18, 4, 31))],
      fieldsOk (ent p.1 [p.2]) = true ∧ lengthsOk (ent p.1 [p.2]) (fld (ent p.1 [p.2]) 0x18 4) (fld (ent p.1 [p.2]) 0x1C 4) = false) ∧
    (∃ y, passed (job (goodEntries.headD [])) (ctxIs (job (goodEntries.headD [])) owned) = some y ∧
      (entryKeys y (ctxIs (job (goodEntries.headD [])) owned)).toOption = none) := by
  refine ⟨?_, by decide +kernel, by decide +kernel, by decide +kernel, ⟨_, rfl, by decide +kernel⟩⟩
  have h : ∀ e ∈ goodEntries, (match passed (job e) (ctxIs (job e) suited) with
      | none => false
      | some y => match (entryKeys y (ctxIs (job e) suited)).toOption with
        | none => false
        | some ks => decide (getCtx 300 (ctxIs (job e) suited) = some (job e) ∧ fieldsOk e = true ∧
            restartHolds (ctxClass y) ks (ctxIs (job e) suited) = false ∧ frozen (ctxIs (job e) suited) = false ∧ finishing (ctxIs (job e) suited) = false ∧ pinFits ks (ctxIs (job e) suited) = true ∧
            (∀ q ∈ ks, useReady q.2 (ctxIs (job e) suited) = true) ∧
            keyLengthOk y ((ks.head?.map Prod.snd).getD (forUse 2 1)) = true ∧ outNeed y ((ks.head?.map Prod.snd).getD (forUse 2 1)) ≤ destRoom y)) = true := by decide +kernel
  intro e he
  have h := h e he
  split at h
  · simp at h
  · rename_i y hy
    split at h
    · simp at h
    · rename_i ks hk
      obtain ⟨a, b, c⟩ := of_decide_eq_true h
      exact ⟨a, b, y, ks, hy, hk, c⟩

/-- The keys of owner 1 lie in the Sapwood, and every bank delivers. -/
def atWork : State :=
  { suited with
    units := { banks := (List.range 8).map (fun b => (b, { state := .delivering })) }
    store := { suited.store with sap := (List.range 12).map (fun i => (10 + i, { gen := 1, shareA := List.replicate 32 1, shareB := List.replicate 32 2, entries := 1 })) } }

/-- Entry n of the good ones waits under its leases. -/
def waits (n : Nat) (ls : List (Nat × Nat)) : Ctx := { job (goodEntries.getD n []) with state := .leasing, admitted := true, leases := ls, stand := some 0 }

/-- Entry n of the good ones runs. -/
def runs (n : Nat) (ls : List (Nat × Nat)) : Ctx := { waits n ls with state := .running, srcElems := [{ addr := 0x1000, len := 3 }], dstElems := [{ addr := 0x2000, len := 64 }] }

/-- Entry n of the good ones waits, with context 300 its only context. -/
abbrev waiting0 (n : Nat) (ls : List (Nat × Nat)) : State := ctxIs (waits n ls) atWork

/-- What a context with leases has at hand when it may run. -/
abbrev ready (x : Ctx) : Prop :=
  x.state = .leasing ∧ x.admitted = true ∧ x.waits = [] ∧ keysHere x (ctxIs x atWork) = true

theorem witness_ContextsRun :
    (unsettled CtxState.posting = false ∧ unsettled CtxState.leasing = true) ∧
    (∀ n ∈ [0, 1], ready (waits n [(10 + n, 1)]) ∧ laneClass (ctxClass (waits n [(10 + n, 1)])) = true ∧
      (leaseKey (waits n [(10 + n, 1)]) 0 (waiting0 n [(10 + n, 1)])).map (encrypts (waits n []).entry) = some (decide (n = 0)) ∧
      dozing 0 atWork = false ∧ frozen atWork = false ∧ (getStand 0 atWork).lookasideEn = true ∧ (getStand 0 atWork).offline = false ∧
      (takeIn 0 (waits n [(10 + n, 1)]) (waiting0 n [(10 + n, 1)])).1.isSome = true ∧
      (laneForKey 0 (10 + n) 1 (takeIn 0 (waits n [(10 + n, 1)]) (waiting0 n [(10 + n, 1)])).2).isSome = true) ∧
    (takeInvocation 10 (takeIn 0 (waits 0 [(10, 1)]) (waiting0 0 [(10, 1)])).2).1.isSome = true ∧
    (ready (waits 7 []) ∧ streamClass (ctxClass (waits 7 [])) = true ∧ streamNone (waits 7 []) (waiting0 7 []) = false ∧
      (streamPlace (waits 7 []) (waiting0 7 [])).any (fun g => (freeStream (getDge g (waiting0 7 []))).isSome && !dozing (g / 2) (waiting0 7 []) &&
        (takeIn (g / 2) { waits 7 [] with stand := some (g / 2) } (waiting0 7 [])).1.isSome) = true) ∧
    (ready (waits 14 [(17, 1)]) ∧ serviceClass (ctxClass (waits 14 [(17, 1)])) = true ∧ restarting atWork = false ∧
      serviceStandOk (waits 14 [(17, 1)]) (waiting0 14 [(17, 1)]) 0 = true ∧
      (ctxStands (waits 14 [(17, 1)]) (waiting0 14 [(17, 1)])).any (serviceStandOk (waits 14 [(17, 1)]) (waiting0 14 [(17, 1)])) = true ∧
      (serviceGrant 0 300 (serviceJoin 0 300 (setCtx 300 (waits 14 [(17, 1)]) (waiting0 14 [(17, 1)])))).isSome = true ∧
      (takeIn 0 (waits 14 [(17, 1)]) (serviceJoin 0 300 (setCtx 300 (waits 14 [(17, 1)]) (waiting0 14 [(17, 1)])))).1.any (fun y => hucWork y atWork == 0) = true) ∧
    ((takeIn 0 { waits 10 [(13, 1)] with srcElems := [{ addr := 0x1000, len := 16 }] } (serviceJoin 0 300 (setCtx 300 (waits 10 [(13, 1)]) (waiting0 10 [(13, 1)])))).1.any
      (fun y => hucWork y atWork == 12) = true ∧ (hucFor 0 atWork).isSome = true ∧ serviceClass (ctxClass (waits 10 [(13, 1)])) = true) ∧
    (ready (waits 16 []) ∧ ctxClass (waits 16 []) = 0x11 ∧ randomStand (waits 16 []) (waiting0 16 []) = some 0 ∧ (getBank 0 atWork).queue.length < 8 ∧
      (portStat (getBank 0 atWork) (systemEngine (waits 16 []) atWork)).state ≠ 2) := by
  refine ⟨?_, ?_, ?_, ?_, ?_, ?_, ?_⟩ <;> decide +kernel

theorem witness_ContextsEnd :
    notEnded 300 (runs 7 []) (ctxIs (runs 7 []) atWork) = false ∧ ctxCall (runs 7 []) (ctxIs (runs 7 []) atWork) = none ∧ ctxClass (runs 7 []) = 8 ∧ (runs 7 []).lane = none ∧
    (∀ d, d ≤ 64 → jobFault (runs 7 []) d (ctxIs (runs 7 []) atWork) = none) ∧
    (ctxClass (runs 6 [(12, 1)]) = 7 ∧ (leaseKey (runs 6 [(12, 1)]) 0 (ctxIs (runs 6 [(12, 1)]) atWork)).isSome = true ∧ notEnded 300 (runs 6 [(12, 1)]) (ctxIs (runs 6 [(12, 1)]) atWork) = false ∧
      ctxCall (runs 6 [(12, 1)]) (ctxIs (runs 6 [(12, 1)]) atWork) = none ∧ jobFault (runs 6 [(12, 1)]) 0 (ctxIs (runs 6 [(12, 1)]) atWork) = none) ∧
    (∀ dst : Bool, (if dst then (runs 7 []).dstElems else (runs 7 []).srcElems)[1 - 1]?.any (fun e => decide (2 < e.len)) = true ∧ (runs 7 []).ingress = none) ∧
    (∀ fn q n, ({ runs 7 [] with state := .draining } : Ctx).src ≠ .queue fn q n) ∧
    (starved { runs 14 [(17, 1)] with waits := [.entropy] } (ctxIs { runs 14 [(17, 1)] with waits := [.entropy] } suited) = true ∧
      starved { runs 16 [] with stand := some 7, outLen := 64 } (ctxIs { runs 16 [] with stand := some 7, outLen := 64 } suited) = true) := by
  refine ⟨by decide +kernel, by decide +kernel, by decide +kernel, rfl, fun d _ => ?_, by decide +kernel, by decide +kernel, fun _ _ _ => nofun, by decide +kernel⟩
  rfl

/-- Port 0 is up and clear and forwards to a ring of PF 0; port 1 has a SecY of owner 1 with a transmit SC 0, a receive SC 1 and an SA in each; port 2 is down. -/
def ether : State :=
  { atWork with
    eth := { positions := [(0, { mode := 3 })]
             ports := [(0, { up := true, clear := true, fwd := .ring 0 3 }), (1, { up := true })]
             secys := [(1, { owner := 1, suite := 2, txSc := 0, encAn := some 0, protect := true, conf := true })]
             scs := [(0, { port := 1, tx := true, sci := 6, ssci := 1 }), (1, { port := 1, tx := false, sci := 7, ssci := 2 })]
             sas := [(0, { slot := 10, gen := 1, next := 5 }), (4, { slot := 11, gen := 1, next := 5, lowest := 2, enable := true })] } }

/-- A frame of EtherType t and n more bytes, without its FCS. -/
def frameOf (t n : Nat) (more : Bytes) : Bytes := List.replicate 12 2 ++ beBytes 2 t ++ more ++ List.replicate n 0

/-- A MACsec frame of SCI 7, AN 0 and PN 9 with 48 bytes of data and an ICV. -/
def tagged : Bytes := frameOf 0x88E5 64 (leBytes 2 0x2C ++ beBytes 4 9 ++ beBytes 8 7)

/-- A frame with its own FCS at its end. -/
theorem fcs_at_end (d : Bytes) :
    (d ++ fcs d).length = d.length + 4 ∧ (d ++ fcs d).take ((d ++ fcs d).length - 4) = d ∧
    (d ++ fcs d).drop ((d ++ fcs d).length - 4) = fcs ((d ++ fcs d).take ((d ++ fcs d).length - 4)) := by
  have l : (d ++ fcs d).length - 4 = d.length := by simp [fcs]
  refine ⟨by simp [fcs], ?_, ?_⟩ <;> rw [l] <;> simp

/-- The state with frame f in flight. -/
def flies (f : Frame) (s : State) : State := { s with eth := { s.eth with flight := [f] } }

/-- A frame from port 0 to port n, at the buffer b. -/
def fly (n b : Nat) : Frame := { source := 0, dest := .port n, controlled := true, buf := b, data := List.replicate 60 0 }

/-- PF 0's transmit ring 9 with an entry of len bytes for port 0 at 0x100. -/
def txRing (len : Nat) : State :=
  { ether with
    eth := { ether.eth with rings := [(9, { dir := 1, log2 := 4, vector := 16, addr := 0x100, evt := 0x200, tail := 1 })] }
    host := { ether.host with mem := memWriteN [] 0x100 (layout 16 [(0, 8, 0x1000), (8, 2, len)]) } }

theorem witness_FramesComplete :
    (portRuns 0 ether = true ∧ portRuns 1 ether = true ∧ inWatch ether = false ∧ frozen ether = false ∧ pairLost 0 ether = false ∧ pairLost 1 ether = false) ∧
    (List.replicate 8 0 : Bytes).drop (8 - 4) ≠ fcs ((List.replicate 8 0).take (8 - 4)) ∧
    (64 ≤ (frameOf 0x800 60 []).length + 4 ∧ (frameOf 0x800 60 []).length + 4 ≤ (getPort 0 ether).mtu ∧ etherType (frameOf 0x800 60 []) = 0x800 ∧
      bufRoom (2 * (0 / 4)) (frameOf 0x800 60 []).length ether = true ∧ getSecy 0 ether = none ∧ (getPort 0 ether).clear = true ∧ (getPort 0 ether).fwd = .ring 0 3) ∧
    (64 ≤ tagged.length + 4 ∧ tagged.length + 4 ≤ (getPort 1 ether).mtu ∧ etherType tagged = 0x88E5 ∧ bufRoom (2 * (1 / 4)) tagged.length ether = true) ∧
    ((getSecy 1 ether).map (fun y => (isXpn y.suite, y.offset)) = some (false, 0) ∧
      (parseTag false tagged).map (fun t => (t.sci, t.an, t.pn, bitOf t.tci 3)) = some (some 7, 0, 9, true) ∧
      ether.eth.scs.find? (fun p => p.2.port == 1 && !p.2.tx && !p.2.removing && p.2.sci == 7) = some (1, { port := 1, tx := false, sci := 7, ssci := 2 }) ∧
      (liveSa (4 * 1 + 0) ether).map (fun a => (a.enable, decide (a.lowest ≤ recoverPn 2 9 a.lowest))) = some (true, true) ∧ (inlineLane (1 / 8) 11 1 ether).isSome = true) ∧
    ((flies { fly 1 0 with classify := true } ether).eth.flight.findIdx? (fun f => f.classify && f.dest == .port 1) = some 0 ∧
      (getSecy 1 ether).map (fun y => (y.encAn, y.txSc)) = some (some 0, 0) ∧ (liveSa (4 * 0 + 0) ether).map (·.exhausted) = some false) ∧
    ((nextRelease 0 true (steerWaiting 0 (flies (fly 0 0) ether))) = some (0, fly 0 0) ∧
      (nextRelease 0 true (steerWaiting 0 (flies { fly 1 0 with port := 1, sa := some 0, lane := some 0 } ether))).map (fun p => (p.2.sa, p.2.rx, p.2.dest)) = some (some 0, false, .port 1) ∧
      (nextRelease 0 true (steerWaiting 0 (flies { fly 1 0 with port := 1, sa := some 4, rx := true, icvOk := false } ether))).map (fun p => (p.2.sa, p.2.rx, p.2.icvOk, p.2.keepBad)) = some (some 4, true, false, false)) ∧
    (∀ n ∈ [59, 60], qidOk (.pf 0) 9 = true ∧ queuesEnabled (txRing n) = true ∧ (ringServes (qKey (.pf 0) 9) 1 (txRing n)).isSome = true ∧
      hostOk (.pf 0) (0x100 + 16 * 0) 16 (txRing n) = true ∧ fld (memReadN (txRing n).host.mem (0x100 + 16 * 0) 16) 8 2 = n ∧ fld (memReadN (txRing n).host.mem (0x100 + 16 * 0) 16) 0x0A 1 = 0 ∧
      hostOk (.pf 0) (0x200 + 16 * 0) 16 (txRing n) = true ∧ maySend (.pf 0) 0 (txRing n) = true ∧ n + 4 ≤ (getPort 0 (txRing n)).mtu ∧ hostOk (.pf 0) 0x1000 n (txRing n) = true ∧
      bufRoom (2 * (0 / 4) + 1) n (txRing n) = true ∧ bitOf (fld (memReadN (txRing n).host.mem (0x100 + 16 * 0) 16) 0x0B 1) 0 = false) ∧
    (portExists 2 ether = true ∧ (getPort 2 ether).up = false ∧ (getPos (2 / 4) ether).stopped = false ∧ (getPort 31 ether).up = false) := by
  refine ⟨?_, ?_, ?_, ?_, ?_, ?_, ?_, ?_, ?_⟩ <;> decide +kernel

/-- A frame protected under an SA is no longer than its port's MTU and 32 bytes. -/
theorem witness_ProtectedFrameFits :
    (protectFrame { owner := 1, suite := 2, txSc := 0, conf := true } { port := 1, tx := true, sci := 6, ssci := 1 } 0 5 { slot := 10, gen := 1, next := 5 }
      (saKey { slot := 10, gen := 1, next := 5 } ether) (fly 1 0).data).length + 4 ≤ (getPort 1 ether).mtu + 32 := by
  have t : ∀ k iv a c : Bytes, (gcmTag k iv a c).length ≤ 16 := fun k iv a c => by
    rw [gcmTag, xorBytes, List.length_zipWith, ghash_length]; exact Nat.min_le_right _ _
  have x : ∀ k iv d : Bytes, (gcmCrypt k iv d).length ≤ d.length := fun k iv d => by simp [gcmCrypt, xorBytes, Nat.min_le_left]
  have m : (getPort 1 ether).mtu = 1522 := by decide +kernel
  generalize saKey _ ether = k
  have l : ((fly 1 0).data.drop 12).length = 48 := by decide
  have g : ∀ d : Bytes, (secTag { owner := 1, suite := 2, txSc := 0, conf := true } 6 0 5 48 d).length = 16 := fun d => by simp [secTag, beBytes]
  have h := t k
  have y := x k
  simp only [protectFrame, List.length_append, l, m, g, if_true]
  have y' := y (macsecIv 2 6 1 5 []) (((fly 1 0).data.drop 12).drop 0)
  have z : (((fly 1 0).data.drop 12).drop 0).length = 48 := by decide
  have w : ((fly 1 0).data.take 12).length = 12 := by decide
  have v : (((fly 1 0).data.drop 12).take 0).length = 0 := by decide
  rw [z] at y'
  rw [w, v]
  refine Nat.le_trans (Nat.add_le_add_right (Nat.add_le_add (Nat.add_le_add_left y' _) (h _ _ _)) 4) ?_
  decide

/-- A request of opcode op about port, SC or SA n. -/
def ethRq (op len n : Nat) (fs : List (Nat × Nat × Nat)) : Req := rq op len ((0, 1, n) :: fs)

theorem witness_MacsecCommandsComplete :
    (let q := ethRq 0x0501 4 7 [(1, 1, 3), (2, 1, 3)]; Accepted mb0 0x0501 q (on0 q ether) ∧ portConfigCheck mb0 q (on0 q ether) = none) ∧
    (∀ v ∈ [0, 1, 2], let q := ethRq 0x0502 0x0E 2 [(2, 2, 9216), (4, 1, v), (5, 1, 31), (0x0A, 2, 0xFFFF)]; Accepted mb0 0x0502 q (on0 q ether) ∧ portSetCheck mb0 q (on0 q ether) = none) ∧
    (∀ op ∈ [0x0503, 0x0504], let q := ethRq op 1 3 []; Accepted mb0 op q (on0 q ether) ∧ portNamed mb0 3 (on0 q ether) = none) ∧
    (let q := ethRq 0x0508 0x28 2 [(1, 1, 4), (2, 1, 50), (3, 1, 2), (4, 4, 1), (0x1C, 2, 0xFFFF)]; Accepted mb0 0x0508 q (on0 q ether) ∧ secyCreateCheck mb0 q (on0 q ether) = none) ∧
    (let q := ethRq 0x0509 0x2C 1 []; Accepted mb0 0x0509 q (on0 q ether) ∧ secySetCheck mb0 q (on0 q ether) = none) ∧
    (let q := ethRq 0x050A 1 1 []
      let s := { ether with eth := { ether.eth with sas := [] } }
      Accepted mb0 0x050A q (on0 q s) ∧ secyNamed mb0 1 (on0 q s) = none ∧ (s.eth.secys.map Prod.fst).Pairwise (· < ·) ∧ (s.eth.scs.map Prod.fst).Pairwise (· < ·)) ∧
    (let q := ethRq 0x0510 0x10 1 []; Accepted mb0 0x0510 q (on0 q ether) ∧ scAddCheck mb0 q (on0 q ether) = none) ∧
    (let q := ethRq 0x0511 4 1 []
      let s := { ether with eth := { ether.eth with sas := [] } }
      Accepted mb0 0x0511 q (on0 q s) ∧ scRemoveCheck mb0 q (on0 q s) = none) ∧
    (∀ p ∈ [(0, 10), (1, 11)], let q := ethRq 0x0518 0x24 p.1 [(4, 1, 3), (8, 8, handleOf p.2 1), (0x17, 1, 1)]
      Accepted mb0 0x0518 q (on0 q ether) ∧ storeCheck saAddCheck mb0 q (on0 q ether) = none ∧ saAddDesig mb0 q (on0 q ether) = none ∧ canChange (on0 q ether) = true ∧
        ((resolve (fld q.body 8 8) none (on0 q ether)).map (fun k => (k.1, inSapwood k.1 k.2 (on0 q ether), pinFits [k] (on0 q ether)))) = some (p.2, true, true) ∧
        (tget ether.eth.scs (fld q.body 0 4)).map (·.tx) = some (p.1 == 0)) ∧
    (let q := ethRq 0x0519 4 4 []; Accepted mb0 0x0519 q (on0 q ether) ∧ saRemoveCheck mb0 q (on0 q ether) = none ∧ saFlight 4 (on0 q ether) = 0 ∧ (tget ether.eth.sas 4).isSome = true) ∧
    ((tget ({ ether with eth := { ether.eth with sas := tmod ether.eth.sas 4 (fun a => { a with removing := true }) } } : State).eth.sas 4).map (·.removing) = some true) ∧
    (let q := ethRq 0x051A 2 1 [(1, 1, 0)]; Accepted mb0 0x051A q (on0 q ether) ∧ saSwitchCheck mb0 q (on0 q ether) = none ∧ (getSecy 1 (on0 q ether)).isSome = true) ∧
    (let q := ethRq 0x051B 0x10 4 [(15, 1, 2)]; Accepted mb0 0x051B q (on0 q ether) ∧ saSetCheck mb0 q (on0 q ether) = none) ∧
    (∀ p ∈ [(0, 1), (1, 1), (2, 4)], let q := ethRq 0x0520 8 p.1 [(4, 4, p.2)]; Accepted mb0 0x0520 q (on0 q ether) ∧ macsecStatsCheck mb0 q (on0 q ether) = none) ∧
    (let q := ethRq 0x0528 0x1A 255 [(2, 1, 2), (3, 1, 12), (4, 2, 255), (8, 8, 0x1000), (0x10, 8, 0x2000)]; Accepted mb0 0x0528 q (on0 q ether) ∧ frameRingCheck mb0 q (on0 q ether) = none) := by
  refine ⟨?_, ?_, ?_, ?_, ?_, ?_, ?_, ?_, ?_, ?_, ?_, ?_, ?_, ?_, ?_⟩ <;> decide +kernel

/-- Core 7's registers are c. -/
def coreIs (c : Core) (s : State) : State := { s with cores := { s.cores with cores := [(7, c)] } }

/-- An interrupt is enabled and pending at the core. -/
def alarmed : Core := { csr := [(0x300, 8), (0x304, 8), (0x305, 0x1001)], msip := true }

/-- A command of core 0 to WMA unit 0, which adds the product of two words to a third. -/
def wmaCmd (run : Bool) (al : Nat) : WmaCmd :=
  { core := 0, addr := 0x0C000000, tag := coreTag 0 up, running := run
    block := layout 32 [(0, 8, 0x0C001000), (8, 8, 0x0C002000), (0x10, 8, 0x0C003000), (0x18, 2, al), (0x1A, 2, 1), (0x1C, 2, 2)]
    a := List.replicate (8 * al) 0, b := List.replicate 8 0, acc := List.replicate 16 0 }

/-- Unit 0 holds a command. -/
def wmaIn (c : WmaCmd) : State := { up with units := { wmas := [(0, { cmds := [c] })] } }

theorem witness_IllegalCsr :
    ∀ a ∈ [0xC00, 0x7FF], let i : CoreStep := { addr := 0x10000, len := 4, nextPc := 0x10004, wrote := none, csr := some (a, 0) }
      (getCore 7 up).pc = i.addr ∧ csrDenied 7 i up = true ∧ curApplet 7 up = none ∧ coreRuns 7 up = true := by
  decide +kernel

theorem witness_CoresTrapAndReturn :
    (coreRuns 7 up = true ∧ (getCore 7 up).wfi = false ∧ (getCore 7 (coreIs alarmed up)).wfi = false ∧ (getCore 7 up).pc = 0x10000 ∧ csrRaw 7 0x802 up = 0 ∧ csrRaw 7 0x805 up = 0) ∧
    ((2#64).getLsbD 63 = false ∧ curApplet 7 up = none) ∧
    (irqEnabled 7 (coreIs alarmed up) = true ∧ irqs 7 (coreIs alarmed up) = [3] ∧ coreRuns 7 (coreIs alarmed up) = true) ∧
    ((getCore 7 up).user = false ∧ irqs 7 up = [] ∧ (getCore 7 (coreIs alarmed up)).user = false) := by
  refine ⟨?_, ?_, ?_, ?_⟩ <;> decide +kernel

theorem witness_WmaCommandsComplete :
    (wmaOutstanding 70 up = false ∧ (getWma (2 * (70 / 9) + 1) up).isolated = false ∧ (getCore 70 up).user = false ∧ coreRuns 70 up = true ∧ (getCore 70 up).wfi = false) ∧
    orderedCores (0 / 2) up = [] ∧ (getWma 0 (wmaIn { wmaCmd true 1 with touched := true })).cmds.map (·.touched) = [true] ∧
    (∀ p ∈ [(false, 1), (true, 1), (false, 0)], (getWma 0 (wmaIn (wmaCmd p.1 p.2))).cmds = [wmaCmd p.1 p.2] ∧
      wmaFormOk 0 (wmaCmd p.1 p.2) (wmaIn (wmaCmd p.1 p.2)) = decide (p.2 = 1) ∧ (p.2 = 1 → wmaProbe 0 (wmaCmd p.1 p.2) (wmaIn (wmaCmd p.1 p.2)) = true)) ∧
    (∀ p ∈ [(0x0C001000, 0x18), (0x0C002000, 0x1A), (0x0C003000, 0x1C)],
      memReadN (wmaIn (wmaCmd true 1)).units.fab (fabAddr (0 / 2) p.1) (8 * fld (wmaCmd true 1).block p.2 2) = List.replicate (8 * fld (wmaCmd true 1).block p.2 2) 0) ∧
    ((getWma 15 up).isolated = false ∧ orderedCores (15 / 2) up = [] ∧ (getWma 15 { up with units := { wmas := [(15, { isolated := true })] } }).isolated = true) := by
  refine ⟨?_, ?_, ?_, ?_⟩ <;> decide +kernel

/-- Applet 1 of owner 1, which may use the digest engine and every service. -/
def app : Applet :=
  { owner := 1, kind := 1, state := .running, core := 7, codeLen := 4096, dataLen := 0, bssLen := 0, localLen := 4096, entry := 0, notifyEntry := 0,
    notifyOffset := 0, perms := 3, services := 15 }

/-- Applet 1 runs in U-mode on glade core 7 and calls function n of the monitor. -/
def calls (n : Nat) : State :=
  { atWork with cores := { cores := [(7, { state := .running, owner := some 1, user := true, cur := some 0, slots := [(0, 1)], done := 3, x := [(10, 1), (17, BitVec.ofNat 64 n)] })], applets := [(1, app)] } }

theorem witness_MonitorFunctionsComplete :
    (∀ n ∈ [0, 1, 2, 3, 4, 5, 7], Ecalls 7 n 1 app (calls n) ∧ (getCore 7 (calls n)).notes = []) ∧
    (getCore 7 (calls 3)).done &&& ((getX 7 10 (calls 3)).toNat % 16) ≠ 0 ∧
    (bitOf app.perms 1 = true ∧ (getDge (dge1 7) (calls 4)).isolated = false ∧ (getDge (dge1 7) (calls 4)).claim = none) ∧
    (getCore 7 (coreIs { getCore 7 (calls 5) with dgeHolder := some 0 } (calls 5))).dgeHolder = some app.slot ∧
    wmaOutstanding 7 (calls 0) = false ∧
    (let a := { app with upcall := some { pc := 0x2000 } }; Ecalls 7 6 1 a { calls 6 with cores := { (calls 6).cores with applets := [(1, a)] } } ∧ a.upcallDue = []) ∧
    (coreU 7 (calls 0) = true ∧ (getCore 7 (calls 0)).user = true ∧ curApplet 7 (calls 0) = some (1, app)) := by
  refine ⟨?_, ?_, ?_, ?_, ?_, ?_, ?_⟩ <;> decide +kernel

/-- A gate call of applet 1 for a service, taken by service core 0. -/
def call (svc : Nat) (req : Bytes) : GateCall := { ticket := 4, core := 7, index := 0, slot := 0, owner := 1, service := svc, frame := 0x700000, request := req, server := some 0 }

/-- That call has been taken; granule 0 belongs to owner 1. -/
def taken4 (g : GateCall) : State := { calls 9 with world := { up.world with granules := [(0, 2 ^ 20 + 1)] }, cores := { (calls 9).cores with taken := [g] } }

/-- Core 7 calls from M-mode with its frame's address in x5 and service 0x011 in x6; out says which calls are outstanding. -/
def caller (out : Nat) : State := coreIs { owner := some 1, out := out, x := [(5, 0x0C700080), (6, 0x11)] } atWork

theorem witness_GateCompletes :
    (∀ o ∈ [7, 15], coreRuns 7 (caller o) = true ∧ coreU 7 (caller o) = true ∧ (getCore 7 (caller o)).user = false ∧ (getCore 7 (caller o)).out = o ∧
      pmpStoreOk 7 (getX 7 5 (caller o)).toNat 128 (caller o) = true ∧ (getX 7 5 (caller o)).toNat % 128 = 0 ∧
      inOwnBank 7 (getX 7 5 (caller o)).toNat 128 (caller o) = true ∧ (getX 7 6 (caller o)).toNat < 4096 ∧
      judge (coreTag 7 (caller o)) (7 / 9) (getX 7 5 (caller o)).toNat 128 true false (caller o) = .ok ∧ pairUnserved (7 / 9) (caller o) = false) ∧
    (let s := { atWork with cores := { gate := [(0, [call 0x11 []])] } };
      coreRuns 0 s = true ∧ coreU 0 s = false ∧ (gateServes (0 / 9) s).find? (fun st => !(tgetD s.cores.gate st []).isEmpty) = some 0 ∧
      inOwnBank 0 (0x0C00007F / 128 * 128 % 2 ^ 48) 128 s = true) ∧
    (let s := { taken4 (call 0x11 []) with cores := { (taken4 (call 0x11 [])).cores with cores := [(0, { x := [(5, 0x0C000000), (6, 4)] })] } };
      coreRuns 0 s = true ∧ (getCore 0 s).wfi = false ∧ coreU 0 s = false ∧ (getCore 0 s).user = false ∧ (getX 0 5 s).toNat % 64 = 0 ∧ inOwnBank 0 (getX 0 5 s).toNat 64 s = true ∧
      s.cores.taken.find? (fun g => g.ticket == (getX 0 6 s).toNat) = some (call 0x11 [])) ∧
    (coreRuns 70 up = true ∧ (getCore 70 up).user = false) := by
  refine ⟨?_, ?_, ?_, ?_⟩ <;> decide +kernel

/-- KEY_OP's request of a key agreement. -/
def opReq : Bytes := ent 0x0F [(8, 8, handleOf 17 1)]

theorem witness_GateServicesComplete :
    (∀ p ∈ [(0x001, 0, layout 12 [(0, 8, 0x150000000), (8, 4, 4096)]), (0x010, 1, []), (0x011, 1, layout 12 [(4, 2, 9)]), (0x012, 1, []), (0x020, 2, opReq), (0x021, 3, leBytes 8 (handleOf 10 1))],
      GateServed 4 p.1 p.2.1 (call p.1 p.2.2) (taken4 (call p.1 p.2.2))) ∧
    (let g := call 1 (layout 12 [(0, 8, 0x150000000), (8, 4, 4096)]);
      fld g.request 8 4 = 4096 ∧ probeOk (gateTag g (taken4 g)) (targetOf (g.core / 9) (fld g.request 0 8)) (fld g.request 0 8) (fld g.request 8 4) true (taken4 g) = true ∧
      (takeWire (g.server.getD 0 / 9) 5 (fld g.request 8 4) (taken4 g)).1 = none ∧
      (takeWire (g.server.getD 0 / 9) 5 (fld g.request 8 4) { taken4 g with units := { (taken4 g).units with banks := [(0, { state := .delivering, feeds := [(5, { got := List.replicate 512 3 })] })] } }).1.map List.length = some 4096) ∧
    (storeRefuse (calls 9) = none ∧ storeStopped (calls 9) = false ∧ canChange (calls 9) = true ∧ counterRoom 1 (calls 9) = none) ∧
    ((getCounter 0 (some 1) (calls 9)).map (fun k => decide (k.value + 9 < 2 ^ 64 ∧ k.value + 9 < (if k.ceilSeq ≤ (calls 9).store.committed then k.ceiling else k.ceilOld))) = some true) ∧
    (gateClass (fld (padTo 64 opReq) 0 1) = true ∧ freePool (calls 9) = some 32 ∧ fld (padTo 64 opReq) 1 1 < 8) ∧
    (resolve (handleOf 10 1) (some 1) (calls 9)).isSome = true := by
  refine ⟨?_, ?_, ?_, ?_, ?_, ?_⟩ <;> decide +kernel

/-- VF 5 is enabled, with this allotment. -/
def vfOn (a : Alloc) : State :=
  { owned with
    host := { owned.host with fns := [(0, { enabled := true, busMaster := true }), (9, { enabled := true, busMaster := true, credit := 16 })] }
    allocs := [(9, a)] }

/-- A command about VF 5. -/
def vfRq (op n : Nat) (fs : List (Nat × Nat × Nat)) : Req := rq op n ((0, 2, if 0x0404 ≤ op && op ≤ 0x0407 then 0x1005 else 5) :: fs)

/-- VF_GRANT of a share of 2 of the device's lanes to VF 5. -/
def grRq : Req := vfRq 0x0405 16 [(2, 2, 0), (8, 1, 2), (0x0C, 4, 2)]

/-- A grant of VF 5. -/
def grant3 : Grant := { id := 3, node := { kind := 0, tier := 3 }, exclusive := false, amount := 2 }

theorem witness_VfCommandsComplete :
    (let q := vfRq 0x0401 8 [(4, 4, 1)]; Accepted mb0 0x0401 q (on0 q (vfOn {})) ∧ vfBindCheck mb0 q (on0 q (vfOn {})) = none ∧ tget (vfOn {}).host.tdis 5 = none) ∧
    (let q := vfRq 0x0402 4 []; Accepted mb0 0x0402 q (on0 q (vfOn { owner := some 1, quiesced := true })) ∧ vfNamed 5 (vfOn {}) = true) ∧
    (let q := vfRq 0x0403 4 []; Accepted mb0 0x0403 q (on0 q (vfOn {})) ∧ vfQueryCheck mb0 q (on0 q (vfOn {})) = none ∧ vfQueried mb0 q = 5) ∧
    (let q := rq 0x0403 4 [(0, 2, 0xFFFF)]; Accepted (.vf 5) 0x0403 q (took (.vf 5) q (vfOn {})) ∧ vfQueryCheck (.vf 5) q (took (.vf 5) q (vfOn {})) = none ∧ vfQueried (.vf 5) q = 5) ∧
    (let q := vfRq 0x0404 8 [(2, 1, 64), (4, 2, 7936)]; Accepted mb0 0x0404 q (on0 q (vfOn {})) ∧ vfSetLimitsCheck mb0 q (on0 q (vfOn {})) = none ∧ fnNamed 0x1005 (vfOn {}) = some (.vf 5)) ∧
    (Accepted mb0 0x0405 grRq (on0 grRq (vfOn {})) ∧ vfGrantCheck mb0 grRq (on0 grRq (vfOn {})) = none ∧ nodeOf (fld grRq.body 2 2) = some { kind := 0, tier := 3 }) ∧
    (let q := vfRq 0x0406 4 [(2, 1, 3)]; Accepted mb0 0x0406 q (on0 q (vfOn { grants := [grant3] })) ∧ grantNamed q (on0 q (vfOn { grants := [grant3] })) = some (.vf 5, grant3) ∧
      grantApplets (.vf 5) grant3 (on0 q (vfOn { grants := [grant3] })) = []) ∧
    (let q := vfRq 0x0407 4 []; Accepted mb0 0x0407 q (on0 q (vfOn {})) ∧ fld q.body 0 2 = 0x1005) ∧
    (∀ op ∈ [0x0408, 0x0410], let q := vfRq op 4 []; Accepted mb0 op q (on0 q (vfOn { owner := some 1 })) ∧ vfIntake (getAlloc (.vf 5) (on0 q (vfOn { owner := some 1 }))) = none ∧
      (on0 q (vfOn { owner := some 1 })).ctxs = []) ∧
    (let q := vfRq 0x0409 4 []; Accepted mb0 0x0409 q (on0 q (vfOn { owner := some 1, quiesced := true }))) ∧
    (∀ b ∈ [true, false], let s := vfOn { owner := some 1, quiesce := b, freeze := !b, draining := true }; (getAlloc (.vf 5) s).draining = true ∧ vfIdle 5 s = true) ∧
    (let q := vfRq 0x0411 4 []; Accepted mb0 0x0411 q (on0 q (vfOn { owner := some 1, freeze := true, frozen := true }))) ∧
    (let q := vfRq 0x0412 0x14 [(0x10, 4, 0xFFFFFFFF)]; Accepted mb0 0x0412 q (on0 q (vfOn { owner := some 1 })) ∧ vfPrepareCheck mb0 q (on0 q (vfOn { owner := some 1 })) = none ∧
      (takeWarden 144 (on0 q (vfOn { owner := some 1 }))).1.isSome = true) := by
  refine ⟨?_, ?_, ?_, ?_, ?_, ?_, ?_, ?_, ?_, ?_, ?_, ?_, ?_⟩ <;> decide +kernel

/-- VF 5 after the bits of its prepare have been drawn. -/
def drawn144 : State := (takeWarden 144 (on0 (vfRq 0x0412 0x14 [(0x10, 4, 0xFFFFFFFF)]) (vfOn { owner := some 1 }))).2

theorem witness_VfPrepareBlob (d m v : Nat) (n p : Bytes) :
    (prepBlob d m v n p drawn144).length ≤ 0xFFFFFFFF ∧
    hostOk (mbFn mb0) 0 (prepBlob d m v n p drawn144).length (on0 (vfRq 0x0412 0x14 [(0x10, 4, 0xFFFFFFFF)]) (vfOn { owner := some 1 })) = true := by
  have h : ((List.range 10).map (fun i => measValue (i + 1) drawn144)).flatten.length = 480 := by decide +kernel
  have c : (certChain drawn144).length < 65536 := by simp only [certChain, prim, leBytes_length]; omega
  have l : (prepBlob d m v n p drawn144).length ≤ 100000 := by
    simp only [prepBlob, prepBody, prepPublic, evidence, evidBody, attSign, prim, List.length_append, layout_length, h, leBytes_length, padTo, List.length_take,
      List.length_replicate, List.length_cons, List.length_nil]; omega
  have r : (on0 (vfRq 0x0412 0x14 [(0x10, 4, 0xFFFFFFFF)]) (vfOn { owner := some 1 })).host.refused = [] := rfl
  refine ⟨by omega, ?_⟩
  rw [hostOk, r]
  simp; omega

/-- A prepare blob of a destination in domain 3: evidence of 30 bytes in mode 4, level 4.2. -/
def vfDest : Bytes := layout 8 [(0, 4, 3), (6, 2, 5)] ++ List.replicate 1700 0 ++ layout 34 [(0, 4, 30), (4 + 0x18, 1, 4), (4 + 0x1C, 2, 0x0402)] ++ List.replicate 96 0

/-- VF_SAVE of VF 5 for that destination. -/
def saveRq : Req := vfRq 0x0413 0x24 [(0x10, 4, 1838), (0x18, 8, 0x10000), (0x20, 4, 0xFFFFFFFF)]

/-- VF 5 of owner 1 is FROZEN. -/
def frozenVf : State := vfOn { owner := some 1, freeze := true, frozen := true }

theorem storeCheck_ok (f : Mb → Req → State → Option Nat) (mb : Mb) (q : Req) (s : State) (n : storeRefuse s = none) (c : f mb q s = none) (w : storeStopped s = false) :
    storeCheck f mb q s = none := by simp [storeCheck, n, c, w]

theorem save_there (b : Bytes) : getAlloc (.vf 5) (on0 saveRq (holding b frozenVf)) = getAlloc (.vf 5) frozenVf ∧ vfNamed 5 (on0 saveRq (holding b frozenVf)) = vfNamed 5 frozenVf ∧
    getOwner 1 (on0 saveRq (holding b frozenVf)) = getOwner 1 frozenVf ∧ (on0 saveRq (holding b frozenVf)).host.tdis = [] ∧ (on0 saveRq (holding b frozenVf)).kcw = [] ∧
    fnRings (.vf 5) (on0 saveRq (holding b frozenVf)) = [] ∧ vfNamedByPorts 5 (on0 saveRq (holding b frozenVf)) = false ∧
    imgBody 5 (on0 saveRq (holding b frozenVf)) = imgBody 5 (on0 saveRq frozenVf) ∧ (on0 saveRq (holding b frozenVf)).host.refused = [] :=
  ⟨rfl, rfl, rfl, rfl, rfl, rfl, rfl, rfl, rfl⟩

/-- Where the destination's evidence verifies. -/
theorem witness_VfSave (h : ∀ p l, Config.verdict p l = true) :
    Accepted mb0 0x0413 saveRq (on0 saveRq (holding vfDest frozenVf)) ∧ storeCheck vfSaveCheck mb0 saveRq (on0 saveRq (holding vfDest frozenVf)) = none ∧
    canChange (on0 saveRq (holding vfDest frozenVf)) = true ∧ (getAlloc (.vf 5) (on0 saveRq (holding vfDest frozenVf))).owner = some 1 ∧
    (getOwner 1 (on0 saveRq (holding vfDest frozenVf))).isSome = true ∧
    blobRead mb0 (fld saveRq.body 8 8) (fld saveRq.body 0x10 4) (on0 saveRq (holding vfDest frozenVf)) = some vfDest ∧ (takeWarden 128 (on0 saveRq (holding vfDest frozenVf))).1.isSome = true := by
  have l : vfDest.length = 1838 := by decide +kernel
  have f : fld saveRq.body 0 2 = 5 ∧ fld saveRq.body 8 8 = 0 ∧ fld saveRq.body 0x10 4 = 1838 ∧ fld saveRq.body 0x18 8 = 0x10000 ∧ fld saveRq.body 0x20 4 = 0xFFFFFFFF := by decide +kernel
  have b : blobRead mb0 0 1838 (on0 saveRq (holding vfDest frozenVf)) = some vfDest := by
    have := blob_back saveRq vfDest frozenVf rfl (by rw [l] <;> decide)
    rwa [l] at this
  have d : destinationOk (readPrep vfDest) = true := by
    have e : ((fld (readPrep vfDest).evidence 0x18 1 == 4 || fld (readPrep vfDest).evidence 0x18 1 == 5) && !bitOf (fld (readPrep vfDest).evidence 0x0A 2) 0 &&
      fld (readPrep vfDest).evidence 0x1C 2 == 0x0402) = true := by decide +kernel
    simp only [Bool.and_eq_true] at e
    simp only [destinationOk, h, Bool.and_true, e]
  have m : (readPrep vfDest).domain = 3 := by decide +kernel
  have n : storeRefuse (on0 saveRq (holding vfDest frozenVf)) = none := by decide +kernel
  obtain ⟨t1, t2, t3, t4, t5, t6, t7, t8, t9⟩ := save_there vfDest
  have a : getAlloc (.vf 5) frozenVf = { owner := some 1, freeze := true, frozen := true } := rfl
  have o : (getOwner 1 frozenVf).map (·.domainId) = some 3 := by decide +kernel
  have v : vfNamed 5 frozenVf = true := by decide +kernel
  have z : (imgBody 5 (on0 saveRq frozenVf)).length < 100000 := by decide +kernel
  have c : vfSaveCheck mb0 saveRq (on0 saveRq (holding vfDest frozenVf)) = none := by
    cases x : getOwner 1 frozenVf with
    | none => simp [x] at o
    | some x' =>
      simp only [x, Option.map_some, Option.some.injEq] at o
      simp only [vfSaveCheck, vfCheck, f.1, f.2.1, f.2.2.1, f.2.2.2.1, f.2.2.2.2, t1, t2, t3, t4, t5, t6, t7, t8, hostOk, t9, a, v, b, d, m, x, o, Option.bind_some]
      generalize (imgBody 5 (on0 saveRq frozenVf)).length = k at z ⊢
      simp [tget]
      omega
  refine ⟨accepted (by decide) (by decide +kernel) (by decide +kernel), ?_, by decide +kernel, by rw [t1, a], by decide +kernel, by rw [f.2.1, f.2.2.1, b], by decide +kernel⟩
  exact storeCheck_ok _ _ _ _ n c (by decide +kernel)

/-- VF_RESTORE into VF 5. -/
def restRq : Req := vfRq 0x0414 0x24 [(0x10, 4, 1808)]

/-- The fields of the header of an image of 1,808 bytes for owner 1 and this device. -/
def vfBase : Bytes := layout 0x6C8 [(0, 8, 0x474D494656394C4F), (8, 2, 1), (0x0C, 4, 1), (0x38, 4, 1808)]

/-- The transfer key such an image opens with. -/
def vfKey : Bytes := openFrom [] (slice vfBase 0x40 1568) (slice vfBase 0x660 97) vfLabel (leBytes 8 0 ++ []) 1

/-- The header, with its image key wrapped. -/
def vfHead : Bytes := vfBase ++ (wrapImageKey vfKey imgK ++ List.replicate 16 0)

/-- The image, with an empty body. -/
def vfImg : Bytes := vfHead ++ gcmTag imgK (List.replicate 12 0) vfHead []

theorem vfKey_wrap : unwrapImageKey vfKey (wrapImageKey vfKey imgK) = some imgK ∧ (wrapImageKey vfKey imgK).length = 40 := kek_wrap _ (from_length _ _ _ _ _ _)

/-- VF 5 of owner 1 has been prepared. -/
def readied : State := { vfOn { owner := some 1, freeze := true, frozen := true } with cust := { prepares := [{ owner := 1, vf := some 5, nonce := [], until_ := 600 }] } }

theorem openVfImage_ok (mb : Mb) (q : Req) (s : State) (img k d : Bytes) (p : Prepare) (ps : List Prepare) (o : Nat) (u : State)
    (hb : blobRead mb (fld q.body 8 8) (fld q.body 0x10 4) s = some img) (hc : fld q.body 0x14 4 = 0)
    (ha : (getAlloc (.vf (fld q.body 0 2)) s).owner = some o) (hp : usablePreps o (some (fld q.body 0 2)) s = p :: ps)
    (hh : (fld img 0 8 == 0x474D494656394C4F && fld img 8 2 == 1 && fld img 0x0C 4 == o && fld img 0x20 8 == s.ident.deviceRef && fld img 0x38 4 == img.length) = true)
    (hk : unwrapImageKey (openFrom p.priv (slice img 0x40 1568) (slice img 0x660 97) vfLabel (leBytes 8 s.ident.deviceRef ++ p.nonce) o) (slice img 0x6C8 40) = some k)
    (ho : openImage k 0x700 img = some d) (ht : tgetD s.store.c.migr o [] = [])
    (hq : ¬ (getAlloc (.vf (fld q.body 0 2)) s).queues < fld d 2 1) (hi : ¬ (getAlloc (.vf (fld q.body 0 2)) s).queues < (readImage [] d).queues.length)
    (hr : ¬ (getFn (.vf (fld q.body 0 2)) s).credit < fld d 4 2) (hg : takeGrants (.vf (fld q.body 0 2)) (imgGrants d) s = some u) :
    openVfImage mb q s = .ok (readImage [] d, slice img 0x28 16, p, u) := by
  unfold openVfImage openWith
  simp only [hb, hc, ha, hp, hh, hk, ho, ht, hg, if_true, Option.bind_some, List.any_nil, List.findSome?_cons, Option.map_some]
  simp [hq, hi, hr, hg]

theorem vfBase_fields : fld vfBase 0 8 = 0x474D494656394C4F ∧ fld vfBase 8 2 = 1 ∧ fld vfBase 0x0C 4 = 1 ∧ fld vfBase 0x20 8 = 0 ∧ fld vfBase 0x38 4 = 1808 := by
  decide +kernel

theorem rest_there (b : Bytes) : getAlloc (.vf 5) (on0 restRq (holding b readied)) = { owner := some 1, freeze := true, frozen := true } ∧
    usablePreps 1 (some 5) (on0 restRq (holding b readied)) = [{ owner := 1, vf := some 5, nonce := [], until_ := 600 }] ∧
    (on0 restRq (holding b readied)).ident.deviceRef = 0 ∧ tgetD (on0 restRq (holding b readied)).store.c.migr 1 [] = [] ∧
    takeGrants (.vf 5) [] (on0 restRq (holding b readied)) = some (on0 restRq (holding b readied)) := ⟨rfl, rfl, rfl, rfl, rfl⟩

theorem witness_VfRestore :
    Accepted mb0 0x0414 restRq (on0 restRq (holding vfImg readied)) ∧ canChange (on0 restRq (holding vfImg readied)) = true ∧
    storeCheck vfRestoreCheck mb0 restRq (on0 restRq (holding vfImg readied)) = none ∧
    ∃ i token p u, openVfImage mb0 restRq (on0 restRq (holding vfImg readied)) = .ok (i, token, p, u) := by
  have bl : vfBase.length = 0x6C8 := layout_length _ _
  have hl : vfHead.length = 1792 := by simp only [vfHead, List.length_append, bl, vfKey_wrap.2, List.length_replicate]
  have il : vfImg.length = 1808 := by rw [vfImg, List.length_append, hl, tag_length]
  have f : fld restRq.body 0 2 = 5 ∧ fld restRq.body 8 8 = 0 ∧ fld restRq.body 0x10 4 = vfImg.length ∧ fld restRq.body 0x14 4 = 0 := by rw [il]; decide +kernel
  have b : blobRead mb0 (fld restRq.body 8 8) (fld restRq.body 0x10 4) (on0 restRq (holding vfImg readied)) = some vfImg := by
    rw [f.2.1, f.2.2.1]
    exact blob_back restRq vfImg readied rfl (by rw [il] <;> decide)
  have lh (o n : Nat) (e : o + n ≤ 1792) : slice vfImg o n = slice vfHead o n := by rw [vfImg, slice_left _ _ _ _ (by rw [hl] <;> exact e)]
  have l (o n : Nat) (e : o + n ≤ 0x6C8) : slice vfImg o n = slice vfBase o n := by
    rw [lh o n (by omega), vfHead, slice_left _ _ _ _ (by rw [bl] <;> exact e)]
  have g (o n : Nat) (e : o + n ≤ 0x6C8) : fld vfImg o n = fld vfBase o n := by rw [fld, l o n e, fld]
  have o := vfBase_fields
  have w40 : slice vfImg 0x6C8 40 = wrapImageKey vfKey imgK := by
    rw [lh _ _ (by decide), vfHead, slice_app _ _ _ _ (by rw [bl] <;> decide), bl]; exact slice_all _ _ 40 vfKey_wrap.2
  obtain ⟨t1, t2, t3, t4, t5⟩ := rest_there vfImg
  have w : openVfImage mb0 restRq (on0 restRq (holding vfImg readied)) = .ok (readImage [] [], slice vfImg 0x28 16, { owner := 1, vf := some 5, nonce := [], until_ := 600 }, on0 restRq (holding vfImg readied)) := by
    refine openVfImage_ok mb0 restRq _ vfImg imgK [] { owner := 1, vf := some 5, nonce := [], until_ := 600 } [] 1 _ b f.2.2.2 ?_ ?_ ?_ ?_
      (openImage_empty vfHead 1792 hl) t4 ?_ ?_ ?_ ?_
    · rw [f.1, t1]
    · rw [f.1, t2]
    · rw [g _ _ (by decide), g _ _ (by decide), g _ _ (by decide), g _ _ (by decide), g _ _ (by decide), o.1, o.2.1, o.2.2.1, o.2.2.2.1, o.2.2.2.2, il, t3]; rfl
    · rw [l _ _ (by decide), l _ _ (by decide), w40, t3]; exact vfKey_wrap.1
    · decide
    · decide
    · decide +kernel
    · rw [f.1]; exact t5
  refine ⟨accepted (by decide) (by decide +kernel) (by decide +kernel), by decide +kernel, ?_, _, _, _, _, w⟩
  have n : storeRefuse (on0 restRq (holding vfImg readied)) = none := by decide +kernel
  have v : vfNamed 5 (on0 restRq (holding vfImg readied)) = true := by decide +kernel
  have c : vfRestoreCheck mb0 restRq (on0 restRq (holding vfImg readied)) = none := by simp only [vfRestoreCheck, f.1, v, w]; rfl
  exact storeCheck_ok _ _ _ _ n c (by decide +kernel)

/-- Core 7 is scrubbing for owner 1. -/
def scrubs : State := coreIs { state := .scrubbing, next := some 1 } up

/-- Spare core 8 tests its bank, or boots, in place of core 7. -/
def spares (boot : Bool) : State :=
  { up with
    cores := { cores := [(7, { state := .isolated }), (8, { state := .spare })] }
    units := { stands := [(0, { coreFill := some (if boot then 7 else 8), coreBoot := boot })] } }

theorem witness_CoreCareCompletes :
    ((getCore 7 scrubs).state = .scrubbing ∧ (getCore 7 scrubs).ordered = false ∧ wmaOutstanding 7 scrubs = false ∧ (getDge (dge1 7) scrubs).xfer = none) ∧
    ((getCore 70 up).state ≠ .scrubbing ∧ coreActive 70 up = true ∧ coreU 70 up = true) ∧
    ((getCore 71 up).state ≠ .isolated ∧ (getCore 71 up).state ≠ .retired ∧ (getCore 7 (spares true)).state = .isolated) ∧
    ((getStand (8 / 9) (spares false)).coreFill = some 8 ∧ (getStand (8 / 9) (spares false)).coreBoot = false ∧ (getStand (8 / 9) (spares false)).coreWait = []) ∧
    ((getStand (8 / 9) (spares true)).coreFill = some 7 ∧ (getCore 8 (spares true)).state = .spare ∧ (getStand (8 / 9) (spares true)).coreBoot = true ∧
      (getStand (8 / 9) (spares true)).coreWait = []) ∧
    (coreRuns 7 up = true ∧ (getCore 7 up).user = false) ∧
    (∀ l ∈ [[0], [0, 0]], let s := { up with fbk := { up.fbk with wdTimes := [(7, l)] } };
      coreActive 7 s = true ∧ ((tgetD s.fbk.wdTimes 7 []).filter (fun t => seconds s ≤ t + 600)).length = l.length ∧ (getCore 7 s).state ≠ .isolated ∧
        (getCore 7 s).state ≠ .retired ∧ coreU 7 s = true) := by
  refine ⟨?_, ?_, ?_, ?_, ?_, ?_, ?_⟩ <;> decide +kernel

/-- The header of a package of 4,096 bytes of code for owner 1, signed by Svatum. -/
def pkgHead : Bytes :=
  layout 256 [(0, 8, 0x544C505041394C4F), (8, 2, 1), (0x0A, 1, 1), (0x0B, 1, 1), (0x0C, 4, 1), (0x1E, 1, 0xFF), (0x20, 4, 4096), (0x2C, 4, 4096), (0x40, 4, 15), (0x44, 4, 15)]

/-- The package: header, code, signature. -/
def pkg : Bytes := pkgHead ++ (List.replicate 4096 0 ++ List.replicate 96 0)

/-- APPLET_LOAD of that package. -/
def loadRq : Req := rq 0x0602 0x14 [(0, 4, 1), (0x10, 4, 4448)]

theorem pkg_fields : pkgHeaderOk pkgHead = true ∧ fld pkgHead 0x20 4 = 4096 ∧ fld pkgHead 0x24 4 = 0 ∧ fld pkgHead 0x28 4 = 0 ∧ fld pkgHead 0x0B 1 = 1 ∧ fld pkgHead 0x0A 1 = 1 ∧
    fld pkgHead 0x0C 4 = 1 ∧ fld pkgHead 0x1E 1 = 255 ∧ fld pkgHead 0x1C 2 = 0 := by decide +kernel

theorem load_there (b : Bytes) : findGranules 1 (on0 loadRq (holding b owned)) = some 0 ∧ (getOwner 1 (on0 loadRq (holding b owned))).map (·.appletQuota) = some 8 ∧
    ownerApplets 1 (on0 loadRq (holding b owned)) = 0 := ⟨rfl, rfl, rfl⟩

/-- Where Svatum's signature verifies. -/
theorem witness_AppletLoad (h : ∀ p l, Config.verdict p l = true) :
    Accepted mb0 0x0602 loadRq (on0 loadRq (holding pkg owned)) ∧ fld loadRq.body 0x10 4 ≤ 2 ^ 25 ∧
    blobRead mb0 (fld loadRq.body 8 8) (fld loadRq.body 0x10 4) (on0 loadRq (holding pkg owned)) = some pkg ∧
    pkgCheck mb0 (fld loadRq.body 0 4) pkg (on0 loadRq (holding pkg owned)) = none ∧ (on0 loadRq (holding pkg owned)).mode.mode ≠ 2 ∧
    findGranules (pkgGranules pkg) (on0 loadRq (holding pkg owned)) = some 0 := by
  have hl : pkgHead.length = 256 := by simp [pkgHead]
  have pl : pkg.length = 4448 := by rw [pkg, List.length_append, List.length_append, hl, List.length_replicate, List.length_replicate]
  have f : fld loadRq.body 0 4 = 1 ∧ fld loadRq.body 8 8 = 0 ∧ fld loadRq.body 0x10 4 = 4448 := by decide +kernel
  have b : blobRead mb0 0 4448 (on0 loadRq (holding pkg owned)) = some pkg := by
    have := blob_back loadRq pkg owned rfl (by rw [pl] <;> decide)
    rwa [pl] at this
  have g (o n : Nat) (e : o + n ≤ 256) : fld pkg o n = fld pkgHead o n := fld_head _ _ _ _ (by rw [hl] <;> exact e)
  have k : pkgHeaderOk pkg = pkgHeaderOk pkgHead := by
    simp only [pkgHeaderOk]
    repeat rw [g _ _ (by decide)]
  obtain ⟨t1, t2, t3⟩ := load_there pkg
  obtain ⟨p1, p2, p3, p4, p5, p6, p7, p8, p9⟩ := pkg_fields
  have n : pkgGranules pkg = 1 := by simp only [pkgGranules, g _ _ (show 0x20 + 4 ≤ 256 by decide), g _ _ (show 0x24 + 4 ≤ 256 by decide), g _ _ (show 0x28 + 4 ≤ 256 by decide), p2, p3, p4]
  refine ⟨accepted (by decide) (by decide +kernel) (by decide +kernel), by rw [f.2.2]; decide, by rw [f.2.1, f.2.2, b], ?_, by decide +kernel, by rw [n, t1]⟩
  cases x : getOwner 1 (on0 loadRq (holding pkg owned)) with
  | none => simp [x] at t2
  | some o =>
    simp only [x, Option.map_some, Option.some.injEq] at t2
    simp only [pkgCheck, pkgSigner, f.1, k, n, t1, t3, pl, p1, h, x, t2, g _ _ (show 0x20 + 4 ≤ 256 by decide), g _ _ (show 0x24 + 4 ≤ 256 by decide),
      g _ _ (show 0x0B + 1 ≤ 256 by decide), g _ _ (show 0x0A + 1 ≤ 256 by decide), g _ _ (show 0x0C + 4 ≤ 256 by decide), g _ _ (show 0x1E + 1 ≤ 256 by decide),
      g _ _ (show 0x1C + 2 ≤ 256 by decide), p2, p3, p5, p6, p7, p8, p9, pkgSigLen]
    simp [scopeOk, mbIsVf]

/-- Applet 1 in some state, and core 7 of its owner. -/
def appIn (st : AppState) : State := { owned with cores := { cores := [(7, { owner := some 1 })], applets := [(1, { app with state := st })] } }

/-- A command about applet 1. -/
def appRq1 (op n : Nat) (fs : List (Nat × Nat × Nat)) : Req := rq op n ((0, 4, 1) :: fs)

/-- APPLET_TRUST of key 3 in slot 2 of owner 1. -/
def trustRq : Req := appRq1 0x0601 16 [(4, 1, 2), (8, 8, handleOf 3 1)]

theorem witness_AppletCommandsComplete :
    (let q := appRq1 0x0603 8 [(4, 1, 7)];
      Accepted mb0 0x0603 q (on0 q (appIn .loaded)) ∧ (appletNamed mb0 1 (on0 q (appIn .loaded))).toOption = some { app with state := .loaded } ∧
        appletAlive { app with state := .loaded } = false ∧ app.kind = 1 ∧ (on0 q (appIn .loaded)).mode.mode ≠ 2 ∧ ownerActive 1 (on0 q (appIn .loaded)) = true ∧
        (startCore mb0 { app with state := .loaded } 7 (on0 q (appIn .loaded))).toOption = some (7, false)) ∧
    (∀ g ∈ [0, 9], let q := appRq1 0x0604 6 [(4, 2, g)];
      Accepted mb0 0x0604 q (on0 q (appIn .running)) ∧ (appletNamed mb0 1 (on0 q (appIn .running))).toOption = some app ∧ appletAlive app = true ∧ fld q.body 4 2 = g ∧
        wmaOutstanding app.core (on0 q (appIn .running)) = false) ∧
    ((tget (appIn .stopping).cores.applets 1).map (·.state) = some .stopping ∧ wmaOutstanding 7 (appIn .stopping) = false) ∧
    (∀ op ∈ [0x0605, 0x0606], let q := appRq1 op 4 [];
      Accepted mb0 op q (on0 q (appIn .exited)) ∧ (appletNamed mb0 1 (on0 q (appIn .exited))).toOption = some { app with state := .exited } ∧ appletAlive { app with state := .exited } = false) ∧
    (let q := rq 0x0607 1 [(0, 1, 71)]; Accepted mb0 0x0607 q (on0 q up) ∧ fld q.body 0 1 < 72) ∧
    (Accepted mb0 0x0601 trustRq (on0 trustRq owned) ∧ storeCheck appletTrustCheck mb0 trustRq (on0 trustRq owned) = none ∧
      policySuspended 0x0601 ((adminOf 1 (on0 trustRq owned)).getD 0) (on0 trustRq owned) = false) ∧
    (isApproved mb0 0x0601 exq (apOf trustRq) (held trustRq owned) = true ∧ storeCheck appletTrustCheck mb0 trustRq (held trustRq owned) = none ∧
      canChange (held trustRq owned) = true ∧ fld trustRq.body 8 8 ≠ 0) := by
  refine ⟨?_, ?_, ?_, ?_, ?_, ?_, ?_⟩ <;> decide +kernel

/-- A statement of a kind for a transition, or for debug enables, with a nonce of zeros and one block of Svatum's. -/
def stmt (kind src dst mask : Nat) : Bytes :=
  [0x4F, 0x4C, 0x39, 0x4C, 0x43, 0x41, 0x55, 0x31] ++ layout 56 [(0, 1, kind), (1, 1, src), (2, 1, dst), (3, 1, mask)] ++ layout 12 [(0, 1, 1)]

/-- A command of family 0x07 that carries a statement inline. -/
def lcRq (op dst : Nat) (b : Bytes) : Req := { opcode := op, bodyLen := 16 + b.length, reqId := 1, body := layout 16 [(0, 1, dst), (8, 4, b.length)] ++ b }

/-- The device in a life-cycle state, with a nonce of zeros outstanding. -/
def lcAt (x : LcState) : State := { owned with lc := { decoded := x, wiped := x, copies := List.replicate 3 (lcWord x), nonce := some (List.replicate 32 0) } }

/-- A transition from TEST to PERSONALISE is open. -/
def lcOpened : State :=
  { owned with
    lc := { decoded := .test, copies := List.replicate 3 (lcWord .test), nonce := some (List.replicate 32 0), journal := [{ isEnd := false, src := .test, dst := .personalise, authBy := 1, no := 1, seconds := 0 }] } }

/-- The block of Svatum's such a statement carries. -/
def svBlock : SigBlock := { signer := 0, alg := 0, key := [], sig := [] }

theorem stmt_parts : ∀ p ∈ [(2, 1, 2, 0), (3, 1, 2, 0), (1, 0, 0xFF, 1)],
    parseStatement (stmt p.1 p.2.1 p.2.2.1 p.2.2.2) = some ((stmt p.1 p.2.1 p.2.2.1 p.2.2.2).take 64, [svBlock]) ∧
    some (slice ((stmt p.1 p.2.1 p.2.2.1 p.2.2.2).take 64) 0x20 32) = (lcAt .test).lc.nonce ∧ fld ((stmt p.1 p.2.1 p.2.2.1 p.2.2.2).take 64) 8 1 = p.1 ∧
    fld ((stmt p.1 p.2.1 p.2.2.1 p.2.2.2).take 64) 9 1 = p.2.1 ∧ fld ((stmt p.1 p.2.1 p.2.2.1 p.2.2.2).take 64) 10 1 = p.2.2.1 ∧
    fld ((stmt p.1 p.2.1 p.2.2.1 p.2.2.2).take 64) 0x10 8 = 0 ∧ fld ((stmt p.1 p.2.1 p.2.2.1 p.2.2.2).take 64) 11 1 = p.2.2.2 := by decide +kernel

/-- Where Svatum's signature verifies, the statements are accepted. -/
theorem witness_StatementsAccepted (h : ∀ p l, Config.verdict p l = true) (q : Req) :
    judgeStatement 2 1 2 .svatum (stmt 2 1 2 0) (on0 q (lcAt .test)) = none ∧ judgeStatement 3 1 2 .svatum (stmt 3 1 2 0) (on0 q lcOpened) = none ∧
    judgeDebug (stmt 1 0 0xFF 1) (on0 q (lcAt .test)) = .ok ((stmt 1 0 0xFF 1).take 64) ∧ judgeDebug (stmt 1 0 0xFF 1) (lcAt .test) = .ok ((stmt 1 0 0xFF 1).take 64) := by
  have d (b : Bytes) (s : State) (hd : s.lc.decoded = .test) : enablesOk s 1 b [svBlock] = true := by
    simp [enablesOk, List.range, List.range.loop, bitOf, hd, enableAuth, authMet, svatumMet, svBlock, blockOk, h]
  have n (q : Req) : (on0 q (lcAt .test)).lc = (lcAt .test).lc ∧ (on0 q (lcAt .test)).ident.deviceRef = 0 ∧ (on0 q lcOpened).lc.nonce = (lcAt .test).lc.nonce ∧
    (on0 q lcOpened).ident.deviceRef = 0 ∧ (lcAt .test).ident.deviceRef = 0 := ⟨rfl, rfl, rfl, rfl, rfl⟩
  obtain ⟨n1, n2, n3, n4, n5⟩ := n q
  refine ⟨?_, ?_, ?_, ?_⟩
  · obtain ⟨a, b, c, e, f, g, _⟩ := stmt_parts (2, 1, 2, 0) (by simp)
    simp only at a b c e f g
    simp [judgeStatement, a, b, c, e, f, g, n1, n2, authMet, svatumMet, svBlock, blockOk, h]
  · obtain ⟨a, b, c, e, f, g, _⟩ := stmt_parts (3, 1, 2, 0) (by simp)
    simp only at a b c e f g
    simp [judgeStatement, a, b, c, e, f, g, n3, n4, authMet, svatumMet, svBlock, blockOk, h]
  · obtain ⟨a, b, c, e, f, g, m⟩ := stmt_parts (1, 0, 0xFF, 1) (by simp)
    simp only at a b c e f g m
    simp [judgeDebug, a, b, c, f, g, m, n1, n2, d _ (on0 q (lcAt .test)) rfl]
  · obtain ⟨a, b, c, e, f, g, m⟩ := stmt_parts (1, 0, 0xFF, 1) (by simp)
    simp only at a b c e f g m
    simp [judgeDebug, a, b, c, f, g, m, n5, d _ (lcAt .test) rfl]

/-- The Heartwood holds six words of its bits. -/
def hearted (s : State) : State := { s with units := { s.units with heartFeed := { got := List.replicate 6 3 } } }

/-- The state in which a programming that request q began in mailbox 0 has these writes to make. -/
def programming (q : Req) (todo : List LcStep) (s : State) : State :=
  { s with lc.run := some { src := .test, dst := .personalise, authBy := 1, auth := [], mb := mb0, reqId := q.reqId, entryNo := true, todo := todo } }

theorem witness_LifeCycleProgramming :
    ∀ todo ∈ [[LcStep.begin_, .fin], [.fin], [.copy 2 .personalise]],
      (let q := lcRq 0x0702 2 (stmt 2 1 2 0); let s := programming q todo (on0 q (lcAt .test)); Accepted mb0 0x0702 q s ∧ (lcOurs mb0 q s).map (·.todo) = some todo) ∧
      (let q := lcRq 0x0703 0 (stmt 3 1 2 0); let s := programming q todo (on0 q lcOpened); Accepted mb0 0x0703 q s ∧ (lcOurs mb0 q s).map (·.todo) = some todo) ∧
      (let q := rq 0x0702 16 [(0, 1, 3)]; let s := programming q todo (held q (lcAt .personalise));
        isApproved mb0 0x0702 exq (apOf q) s = true ∧ s.lc.decoded = .personalise ∧ lcToProductionCheck mb0 q s = none ∧ (lcOurs mb0 q s).map (·.todo) = some todo) := by
  decide +kernel

theorem witness_LifeCycleCommandsComplete :
    ((takeHeart 32 (on0 (rq 0x0701 0 []) (hearted (lcAt .test)))).1.isSome = true ∧ (takeHeart 32 (lcAt .test)).1 = none ∧
      Accepted mb0 0x0701 (rq 0x0701 0 []) (on0 (rq 0x0701 0 []) (hearted (lcAt .test)))) ∧
    (∀ p ∈ [(0x0701, LcState.test), (0x0709, .production), (0x070A, .production)], Accepted mb0 p.1 (rq p.1 0 []) (on0 (rq p.1 0 []) (lcAt p.2))) ∧
    (let q := lcRq 0x0702 2 (stmt 2 1 2 0); let s := on0 q (lcAt .test);
      Accepted mb0 0x0702 q s ∧ fld q.body 8 4 ≤ 65536 ∧ lcTaken s = false ∧ s.lc.decoded = .test ∧ fld q.body 0 1 = 2 ∧ lcOfCode 2 = some .personalise ∧
        lcRow s.lc.decoded .personalise = some .svatum ∧ s.lc.journal.length ≤ 318 ∧ authBytes mb0 q s = some (stmt 2 1 2 0)) ∧
    (judgeStatement 2 1 2 .svatum (stmt 2 1 2 0) owned).isSome = true ∧
    (let q := rq 0x0702 16 [(0, 1, 3)]; let s := on0 q (lcAt .personalise);
      Accepted mb0 0x0702 q s ∧ s.lc.decoded = .personalise ∧ fld q.body 0 1 = 3 ∧ lcToProductionCheck mb0 q s = none ∧ policySuspended 0x0702 ((adminOf 0 s).getD 0) s = false) ∧
    (let q := rq 0x0702 16 [(0, 1, 3)]; let s := held q (lcAt .personalise);
      isApproved mb0 0x0702 exq (apOf q) s = true ∧ s.lc.decoded = .personalise ∧ lcTaken s = false ∧ lcToProductionCheck mb0 q s = none) ∧
    (let q := lcRq 0x0703 0 (stmt 3 1 2 0); let s := on0 q lcOpened;
      Accepted mb0 0x0703 q s ∧ fld q.body 8 4 ≤ 65536 ∧ lcTaken s = false ∧ (lcOpen s.lc.journal).isSome = true ∧ authBytes mb0 q s = some (stmt 3 1 2 0) ∧
        lcNamed s.lc.journal = (.test, .personalise) ∧ s.lc.copies.any (fun c => c &&& lcWord .personalise != lcWord .personalise) = false) ∧
    (let q := rq 0x0704 0 []; let s := on0 q (lcAt .production);
      Accepted mb0 0x0704 q s ∧ s.lc.decoded = .production ∧ policySuspended 0x0704 ((adminOf 0 s).getD 0) s = false) ∧
    (let q := rq 0x0704 0 []; let s := held q (lcAt .production);
      isApproved mb0 0x0704 exq (apOf q) s = true ∧ s.lc.decoded = .production ∧ (estatePolicyKeys s).isSome = true) ∧
    (let q := lcRq 0x0708 0 (stmt 1 0 0xFF 1); let s := on0 q (lcAt .test);
      Accepted mb0 0x0708 q s ∧ fld q.body 8 4 ≤ 65536 ∧ authBytes mb0 q s = some (stmt 1 0 0xFF 1) ∧ debugScoped s (stmt 1 0 0xFF 1) = false) ∧
    ((∃ e, (match judgeDebug (stmt 1 0 0xFF 1) owned with | .error st => some st | .ok _ => none) = some e) ∧
      ({ up with pwr := { up.pwr with resetLow := true } } : State).pwr.resetLow = true ∧ up.pwr.resetLow = false ∧ lcIs up .scrapped = false ∧
      lcIs (lcAt .scrapped) .scrapped = true ∧ lcIs (lcAt .test) .test = true ∧ lcIs (lcAt .test) .blank = false) := by
  refine ⟨?_, ?_, ?_, ?_, ?_, ?_, ?_, ?_, ?_, ?_, ⟨0x0302, ?_⟩, ?_⟩ <;> decide +kernel

/-- The state in which source n is configured and stands as given. -/
def lkoIs (n : Nat) (c : LkoCfg) (x : LkoSrc) (s : State) : State := { s with lko := { s.lko with cfg := [(n, c)], src := [(n, x)] } }

/-- An armed configuration of a response that trips at n events. -/
def armed (r n : Nat) : LkoCfg := { enable := true, n := n, wMs := 10, response := r, holdS := 30 }

/-- LOOKOUT_CONFIG of source 0x0E. -/
def lkoRq : Req := rq 0x0901 24 [(0, 1, 1), (8, 1, 0x0E), (9, 1, 2), (10, 1, 1), (12, 4, 5), (16, 4, 10)]

theorem witness_LookoutCompletes :
    (∀ r ∈ [0, 1, 2, 3], let s := lkoIs 0x0E (armed r 1) {} up;
      lkoSourceOk 0x0E = true ∧ lkoSampled s 0x0E = true ∧ (lkoCfg s 0x0E).enable = true ∧ (lkoSrc s 0x0E).disarmed = false ∧
        (lkoCfg s 0x0E).n ≤ ((lkoWindow (lkoCfg s 0x0E) (lkoSrc s 0x0E) 7).take 255).length ∧ (lkoApplied s (lkoCfg s 0x0E)).1 = r) ∧
    (let s := lkoIs 0x13 (armed 2 3) {} up; ((lkoWindow (lkoCfg s 0x13) (lkoSrc s 0x13) 7).take 255).length < (lkoCfg s 0x13).n ∧ lkoSampled s 0x13 = true) ∧
    (let s := lkoIs 1 (armed 2 1) { holding := true, holdS := 30, lastEvent := 0 } { up with lko := { up.lko with seconds := 30 } };
      (lkoSrc s 1).holding = true ∧ 0 < (lkoSrc s 1).holdS ∧ (lkoSrc s 1).lastEvent + (lkoSrc s 1).holdS ≤ seconds s) ∧
    (let s := lkoIs 0x16 (armed 2 1) {} { up with pwr := { up.pwr with state := .backup } };
      (lkoCfg s 0x1A).polarity = false ∧ (lkoCfg s 0x1B).polarity = false ∧ (lkoCfg s 0x16).enable = true ∧ s.lko.copyValid = true ∧ lcIs s .scrapped = false ∧
        (lkoCfg s 0x16).n ≤ ((lkoWindow (lkoCfg s 0x16) (lkoSrc s 0x16) 7).take 255).length) ∧
    (up.pwr.state ≠ .backup ∧ ({ up with pwr := { up.pwr with state := .backup } } : State).pwr.state = .backup ∧ up.log.rates = []) ∧
    (∀ n ∈ [2, 3], ({ up with lko := { up.lko with svout := .softstart, svRetries := n } } : State).lko.svRetries = n) ∧
    (∀ v ∈ [Svout.wait, .on, .softstart, .off], ({ up with lko := { up.lko with svout := v, svRetries := 2 } } : State).lko.svout = v) ∧
    (∀ b ∈ [true, false], let s := { up with lko := { up.lko with resetDue := some 9 }, log := { up.log with queue := if b then [{ code := 0x0701, flags := 0, arg := padTo 12 [9] }] else [] } };
      s.lko.resetDue = some 9 ∧ s.pwr.resetLow = false ∧ s.fbk.fatal = false ∧ (s.log.queue.any (fun r => r.code == 0x0701 && fld r.arg 0 1 == 9)) = b) ∧
    ((takeHeart 4 (hearted up)).1.isSome = true ∧ (takeHeart 4 up).1 = none) := by
  refine ⟨?_, ?_, ?_, ?_, ?_, ?_, ?_, ?_, ?_⟩ <;> decide +kernel

theorem witness_LookoutCommandsComplete :
    (let q := rq 0x0902 1 [(0, 1, 0x1D)]; Accepted mb0 0x0902 q (on0 q owned) ∧ lkoSourceOk (fld q.body 0 1) = true) ∧
    (policySuspended 0x0901 ((adminOf 0 (on0 lkoRq owned)).getD 0) (on0 lkoRq owned) = false ∧ Accepted mb0 0x0901 lkoRq (on0 lkoRq owned) ∧
      lookoutConfigCheck mb0 lkoRq (on0 lkoRq owned) = none) ∧
    (∀ n ∈ [0xFF, 5], let q := rq 0x0903 1 [(0, 1, n)]; let s := on0 q (lkoIs 5 (armed 2 1) { holding := true } owned);
      Accepted mb0 0x0903 q s ∧ lookoutReleaseCheck mb0 q s = none ∧ policySuspended 0x0903 ((adminOf 0 s).getD 0) s = false) ∧
    (∀ n ∈ [0, 1], let q := rq 0x0904 1 [(0, 1, n)]; let s := on0 q owned;
      Accepted mb0 0x0904 q s ∧ svoutCtrlCheck mb0 q s = none ∧ policySuspended 0x0904 ((adminOf 0 s).getD 0) s = false) ∧
    (isApproved mb0 0x0901 exq (apOf lkoRq) (held lkoRq owned) = true ∧ lookoutConfigCheck mb0 lkoRq (held lkoRq owned) = none) ∧
    (let q := rq 0x0903 1 [(0, 1, 5)]; let s := held q (lkoIs 5 (armed 2 1) { holding := true } owned);
      isApproved mb0 0x0903 exq (apOf q) s = true ∧ lookoutReleaseCheck mb0 q s = none ∧ fld q.body 0 1 = 5 ∧ (lkoSrc s 5).holdS = 0 ∧ 5 ∈ lkoHolders s) ∧
    (∀ n ∈ [0, 1], let q := rq 0x0904 1 [(0, 1, n)]; isApproved mb0 0x0904 exq (apOf q) (held q owned) = true ∧ fld q.body 0 1 = n ∧ (held q owned).lko.svout = .off) := by
  refine ⟨?_, ?_, ?_, ?_, ?_, ?_, ?_⟩ <;> decide +kernel

theorem witness_FirebreakCompletes :
    (up.mode.mode ≠ 12 ∧ up.pwr.state ≠ .backup ∧ up.fbk.fatal = false ∧ up.mode.chosen = true ∧ lcIs up .scrapped = false ∧ fbkSourceOk 0x00 = false) ∧
    (let s := { up with fbk := { up.fbk with service := 3 }, lko := { up.lko with seconds := 60 } };
      s.fbk.service.getLsbD 1 = true ∧ tgetD s.fbk.serviceAt 1 0 + 60 ≤ seconds s ∧ seconds up < tgetD up.fbk.serviceAt 0 0 + 60) ∧
    (let s := { up with fbk := { up.fbk with lostPlls := [2] } }; s.fbk.lostPlls.contains 2 = true ∧ without s.fbk.lostPlls 2 = []) ∧
    (let s := { up with fbk := { up.fbk with running := true } }; s.fbk.running = true ∧ s.fbk.fatal = false ∧ s.fbk.forceLow = false ∧ s.pwr.resetLow = false) ∧
    (hbmFatalRegion 0x100000000 = true ∧ hbmFatalRegion 0x140000000 = false ∧ up.fbk.remap.length < 4096 ∧
      4096 ≤ ({ up with fbk := { up.fbk with remap := List.replicate 4096 (0, 0) } } : State).fbk.remap.length) ∧
    ((getBank 7 up).state ≠ .retired ∧ (getBank 7 { up with units := { banks := [(7, { state := .retired })] } }).state = .retired) ∧
    (({ up with mode := { mode := 2, chosen := true } } : State).mode.mode = 2 ∧ up.mode.mode ≠ 2 ∧ (getFn (.pf 3) up).accessErr < 65535) ∧
    (let q := rq 0x0910 0 []; Accepted mb0 0x0910 q (on0 q owned)) ∧
    (∀ p ∈ [LcState.test, .production], ∀ v ∈ [(10, 50), (10000, 100)], let q := rq 0x0911 3 [(0, 2, v.1), (2, 1, v.2)]; let s := on0 q (lcAt p);
      Accepted mb0 0x0911 q s ∧ firebreakConfigCheck mb0 q s = none ∧ lcIs s .production = decide (p = .production) ∧ policySuspended 0x0911 ((adminOf 0 s).getD 0) s = false) ∧
    (let q := rq 0x0911 3 [(0, 2, 10), (2, 1, 50)]; isApproved mb0 0x0911 exq (apOf q) (held q owned) = true ∧ firebreakConfigCheck mb0 q (held q owned) = none) ∧
    (∀ n ∈ [0x01, 0x00], let q := rq 0x0912 4 [(0, 1, n)]; let s := on0 q { owned with mode := { mode := 2, chosen := true } };
      Accepted mb0 0x0912 q s ∧ s.mode.mode = 2 ∧ fbkSourceOk (fld q.body 0 1) = (n != 0)) := by
  refine ⟨?_, ?_, ?_, ?_, ⟨by decide +kernel, by decide +kernel, by decide +kernel, ?_⟩, ?_, ?_, ?_, ?_, ?_, ?_⟩
  rotate_left 4
  · simp only [List.length_replicate]; exact Nat.le_refl _
  all_goals decide +kernel

/-- The log has a page with n records, an erased page, and a critical record queued. -/
def logged (n : Nat) : State :=
  { owned with
    log := { owned.log with nextSeq := n + 1, queue := [{ code := 0x0802, flags := codeFlags 0x0802, arg := padTo 12 [9] }], erased := [3]
                            pages := [{ num := 2, firstSeq := 1, recs := (List.range n).map (fun i => { seq := i + 1, record := { code := 1, flags := 0, arg := padTo 12 [] }, check := [] }) }] } }

theorem witness_LogWriterCompletes :
    (lcIs (lcAt .scrapped) .scrapped = true ∧ lcIs up .scrapped = false ∧ bitOf (codeFlags 0x0802) 0 = true ∧ bitOf (codeFlags 0x0605) 0 = false ∧ up.log.queue.length < 512) ∧
    ((logged 1).log.queue.length = 1 ∧ trlRoom (logged 63).log = true ∧ trlRoom (logged 64).log = false) ∧
    ((logged 0).log.pages.getLast?.map (·.recs) = some [] ∧ (logged 1).log.pages.getLast?.map (fun p => decide (p.recs = [])) = some false ∧ (logged 1).log.erased = [3]) ∧
    (({ up with log := { up.log with vecDue := [3] } } : State).log.vecDue.contains 3 = true ∧ up.log.vecDue.contains 3 = false) := by
  refine ⟨?_, ?_, ?_, ?_⟩ <;> decide +kernel

theorem witness_LogQueueFull : 512 ≤ ({ up with log := { up.log with queue := List.replicate 512 { code := 1, flags := 0, arg := [] } } } : State).log.queue.length := by
  simp only [List.length_replicate]; exact Nat.le_refl _

/-- LOG_EXPORT, accepted when the log held its three records. -/
def exportingLog (q : Req) : State := setMb mb0 { getMb mb0 (on0 q (logged 3)) with logHead := 3 } (on0 q (logged 3))

theorem witness_LogExportFits :
    let rs := (heldRecs (logged 3).log).take 2
    hostOk (mbFn mb0) 0 (exportHeader (logged 3) 1 rs ++ (rs.map recBytes).flatten).length (logged 3) = true := by decide +kernel

theorem witness_LogAndMeterCommandsComplete :
    (∀ op ∈ [0x0801, 0x0804, 0x0810, 0x0813], let q := rq op 8 []; Accepted mb0 op q (on0 q (logged 3))) ∧
    (let q := rq 0x0802 0x20 [(0, 8, 1), (8, 4, 2), (0x18, 4, 128)];
      Accepted mb0 0x0802 q (exportingLog q) ∧ 96 ≤ fld q.body 0x18 4 ∧
        (((heldRecs (exportingLog q).log).filter (fun x => decide (fld q.body 0 8 ≤ x.seq ∧ x.seq ≤ (getMb mb0 (exportingLog q)).logHead))).take (min (fld q.body 8 4) ((fld q.body 0x18 4 - 64) / 32))).length = 2) ∧
    (∀ n ∈ [3, 4], let q := rq 0x0803 8 [(0, 8, n)]; Accepted mb0 0x0803 q (on0 q (logged 3)) ∧ decide (trlHead (on0 q (logged 3)).log < fld q.body 0 8) = (n == 4)) ∧
    (let q := rq 0x0804 0 []; isApproved mb0 0x0804 exq (apOf q) (held q (logged 3)) = true ∧ ∀ x ∈ heldRecs (held q (logged 3)).log, bitOf x.record.flags 1 = false) ∧
    (∀ n ∈ [2, 5], let q := rq 0x0811 4 [(0, 4, n)]; let s := on0 q { owned with meter := { owned.meter with period := 2 } };
      Accepted mb0 0x0811 q s ∧ decide (fld q.body 0 4 = s.meter.period) = (n == 2)) ∧
    (∀ n ∈ [1, 2], let q := rq 0x0812 0x14 [(0x10, 4, 72)]; let s := took (.vf 5) q { vfOn { owner := some 1 } with meter := { owned.meter with period := n } };
      Accepted (.vf 5) 0x0812 q s ∧ s.meter.period = n ∧ mbOwner (.vf 5) s = some 1 ∧ (meterEntry s.meter 1).length ≤ fld q.body 0x10 4 ∧ hostOk (mbFn (.vf 5)) (fld q.body 8 8) (meterEntry s.meter 1).length s = true) ∧
    (∀ n ∈ [9, 10, 3600, 3601], let q := rq 0x0814 2 [(0, 2, n)]; Accepted mb0 0x0814 q (on0 q owned) ∧ fld q.body 0 2 = n) ∧
    (canChange owned = true ∧ canChange { owned with host := { owned.host with jring := {} } } = false) := by
  refine ⟨?_, ?_, ?_, ?_, ?_, ?_, ?_, ?_⟩ <;> decide +kernel

/-- The device's power fields are p. -/
def pwrIs (p : Power) (s : State) : State := { s with pwr := p }

/-- An entry into WATCH stands before an abort point. -/
def entering (ap wakes : Nat) : State :=
  pwrIs { up.pwr with entry := some { mb := mb0, mask := 3, afterS := 9, waitMs := 5, ap := ap }, pendingWakes := BitVec.ofNat 6 wakes } up

/-- The device is in WATCH, or on its way out of it. -/
def watching (step : Nat) (mask : Nat) : State :=
  pwrIs { up.pwr with state := .watch, wakeStep := step, pendingWakes := 2#6, entered := some { mb := mb0, mask := mask, afterS := 9, waitMs := 5 } } { up with lko := { up.lko with seconds := 9 } }

/-- POWER_CONFIG and POWER_WATCH. -/
def pwrRq : Req := rq 0x0131 4 [(0, 2, 10)]

/-- POWER_WATCH with WAKE_IN and the I2C address as sources. -/
def watchRq : Req := rq 0x0130 10 [(0, 1, 3), (4, 4, 9), (8, 2, 10000)]

theorem witness_PowerCompletes :
    (up.pwr.state ≠ .backup ∧ up.pwr.resetLow = false ∧ (pwrIs { up.pwr with resetLow := true } up).pwr.resetLow = true) ∧
    (wardenUp up = true ∧ up.pwr.entry = none ∧ up.fbk.fatal = false ∧ dozing 7 up = false ∧ dozeIdle 7 up = true) ∧
    (Accepted mb0 0x0131 pwrRq (on0 pwrRq up) ∧ powerConfigCheck mb0 pwrRq (on0 pwrRq up) = none ∧ fld pwrRq.body 0 2 ≠ 0 ∧ bitOf (fld pwrRq.body 3 1) 0 = false ∧ up.pwr.enable = 0xFF) ∧
    (Accepted mb0 0x0130 watchRq (on0 watchRq up) ∧ powerWatchCheck mb0 watchRq (on0 watchRq up) = none) ∧
    (∀ ap ∈ [0, 1, 2, 3], ∀ w ∈ [0, 5], (entering ap w).pwr.entry.map (·.ap) = some ap ∧ decide ((entering ap w).pwr.pendingWakes = 0) = (w == 0) ∧ restarting (entering ap w) = false) ∧
    ((watchReq (entering 0 0)).map (·.mask) = some 3 ∧ (watchReq (watching 0 2)).map (fun e => (bitOf e.mask 1, bitOf e.mask 0, e.afterS)) = some (true, false, 9) ∧
      (watchReq (watching 0 1)).map (fun e => (bitOf e.mask 1, bitOf e.mask 0)) = some (false, true) ∧ (watching 0 1).pwr.ap3Seconds + 9 ≤ seconds (watching 0 1)) ∧
    (∀ n ∈ [0, 1, 2, 7], (watching n 3).pwr.state = .watch ∧ (watching n 3).pwr.resetLow = false ∧ (watching n 3).pwr.pendingWakes ≠ 0 ∧ (watching n 3).pwr.wakeStep = n) ∧
    (∀ n ∈ [4, 5], (watching n 3).pwr.state = .watch ∧ (watching n 3).pwr.wakeStep = n ∧ (takeHeart 32 (watching n 3)).1 = none) ∧
    imagesIntact { watching 5 3 with start := { (watching 5 3).start with slotA := { (watching 5 3).start.slotA with intact := false } } } = false ∧ up.fbk.fatal = false := by
  refine ⟨?_, ?_, ?_, ?_, ?_, ?_, ?_, ?_, ?_, ?_⟩ <;> decide +kernel

theorem witness_ManagementInterfaceCompletes :
    (up.pwr.state ≠ .backup ∧ up.pwr.resetLow = false ∧ up.mode.mode ≠ 12 ∧ up.mode.mode ≠ 8 ∧ up.pwr.state ≠ .watch ∧ up.mode.chosen = true ∧
      restarting up = false ∧ up.start.failingOver = false) ∧
    ((inRestart 0x21).mode.mode ≠ 8 ∧ (inRestart 0x21).mode.chosen = true ∧ restarting (inRestart 0x21) = true ∧ takingOver.start.failingOver = true) ∧
    (({ up with mode := { mode := 12, chosen := true } } : State).mode.mode = 12 ∧ ({ up with mode := { mode := 8, chosen := true } } : State).mode.mode = 8) ∧
    8 ≤ 8 ∧ 254 ≤ 254 ∧ 7 < 8 ∧ 254 < 255 ∧ (takeHeart 48 (hearted up)).1.isSome = true ∧ (takeHeart 48 up).1 = none := by
  refine ⟨?_, ?_, ?_, ?_, ?_, ?_, ?_, ?_, ?_⟩ <;> decide +kernel

/-- Window 3 of PF 0, for owner 1, is k. -/
def winIs (k : Kcw) : State := { atWork with kcw := [(3, { k with assign := .pf 0 1 })] }

/-- A command that waits with its input complete. -/
def waiting (cmd len : Nat) : Kcw :=
  { assign := .pf 0 1, phase := .wait, cmd := BitVec.ofNat 32 cmd, capLen := len, capKey := 5, words := List.replicate ((len + 3) / 4) 0, map := [(5, { first := BitVec.ofNat 64 (handleOf 20 1) })] }

theorem witness_WindowFunctionsComplete :
    (∀ p ∈ [(0x10, 4096), (0x11, 8), (0x10, 4097), (0x11, 7), (0x12 + 4 * 1024, 4096), (0x13 + 8 * 1024, 1), (0x12 + 3 * 1024, 8), (0x13 + 9 * 1024, 8),
      (0x18, 20), (0x18 + 4 * 65536, 35), (0x28, 4096), (0x28, 1), (0x01, 0), (0x2C, 0), (0x2D, 0)],
      WindowWaits 3 (p.1 % 256) 32 (waiting p.1 p.2) (winIs (waiting p.1 p.2)) ∧ (waiting p.1 p.2).capLen = p.2) ∧
    (∀ n ∈ [3, 4, 8, 9], bits (waiting (0x12 + n * 1024) 8).cmd.toNat 13 10 = n) ∧
    (pinFmtOk (bits (waiting 0x18 20).cmd.toNat 19 16) = true ∧ pinFmtOk (bits (waiting (0x18 + 4 * 65536) 35).cmd.toNat 23 20) = true ∧
      pinBlock (bits (waiting 0x18 20).cmd.toNat 19 16) + 12 ≤ 20 ∧ 35 ≤ pinBlock (bits (waiting (0x18 + 4 * 65536) 35).cmd.toNat 19 16) + 19) ∧
    ((tget (waiting 0x2C 0).map 5).isSome = true ∧ (resolve (handleOf 20 1) (kcwOwner (waiting 0x2C 0) (winIs (waiting 0x2C 0))) (winIs (waiting 0x2C 0))).isSome = true ∧
      tget ({ waiting 0x2C 0 with capKey := 6 } : Kcw).map 6 = none ∧ (kcwFirst (waiting 0x2D 0) (winIs (waiting 0x2D 0))).isSome = true) ∧
    (∀ f ∈ [0x20, 0x21, 0x22, 0x23, 0x24, 0x30], (getKcw 3 (winIs (waiting f 0))).phase = .wait ∧ kcwFunc (getKcw 3 (winIs (waiting f 0))) = f ∧ (getKcw 3 (winIs (waiting f 0))).overrun = false) ∧
    (∀ p ∈ [(true, KcwPhase.input), (false, .idle), (false, .wait)], let s := winIs { drq := p.1, phase := p.2, capLen := 8 };
      kcwLive (getKcw 3 s) = true ∧ (getKcw 3 s).drq = p.1 ∧ (getKcw 3 s).phase = p.2) ∧
    (let s := winIs { phase := .resetting }; (getKcw 3 s).phase = .resetting ∧ kcwLive (getKcw 3 s) = true) ∧
    (let s := winIs {}; (∀ p ∈ s.kcw, p.2.phase ≠ .resetting) ∧ (getKcw 3 s).ctx = none ∧ kcwExpiring (getKcw 3 s) s = [] ∧ kcwLive (getKcw 3 s) = true) := by
  refine ⟨?_, ?_, ?_, ?_, ?_, ?_, ?_, ?_⟩ <;> decide +kernel

/-- A window command. -/
def kcwRq (op n w : Nat) (fs : List (Nat × Nat × Nat)) : Req := rq op n ((0, 1, w) :: fs)

/-- KCW_MAP of key n in window 3, under the lease of its check value. -/
def mapping (n : Nat) : State :=
  let s := on0 (kcwRq 0x0432 24 3 [(2, 2, 4095), (8, 8, handleOf n 1)]) (winIs {})
  setMb mb0 { getMb mb0 s with job := some { slot := n, gen := 1, huc := true } } s

theorem witness_WindowMapFormsCheckValue :
    ∀ n ∈ [10, 20], let q := kcwRq 0x0432 24 3 [(2, 2, 4095), (8, 8, handleOf n 1)]; Accepted mb0 0x0432 q (mapping n) ∧ readCheck kcwMapCheck mb0 q (mapping n) = none ∧
      ∀ r ∈ tget atWork.store.c.keys n, (resolve (fld q.body 8 8) (kcwOwner (getKcw 3 (mapping n)) (mapping n)) (mapping n)) = some (n, r) ∧
        r.gen = 1 ∧ KeyInUse mb0 n r (mapping n) ∧ decide (r.type ≤ 2) = (n == 10) := by decide +kernel

theorem witness_WindowCommandsComplete :
    (let q := kcwRq 0x0430 8 15 [(1, 1, 7), (2, 2, 0), (4, 4, 1)]; let s := on0 q atWork;
      Accepted mb0 0x0430 q s ∧ kcwLive (getKcw 15 s) = false ∧ fnOfCode (fld q.body 2 2) = some (.pf 0) ∧ pfPresent s 0 = true ∧ kcwHome (fld q.body 1 1) (.pf 0) s = some 7 ∧
        ownerActive (fld q.body 4 4) s = true) ∧
    (let q := kcwRq 0x0430 8 15 [(1, 1, 0xFF), (2, 2, 0x1005)]; let s := on0 q (vfOn { owner := some 1 });
      Accepted mb0 0x0430 q s ∧ fnOfCode (fld q.body 2 2) = some (.vf 5) ∧ (getFn (.vf 5) s).enabled = true ∧ s.kcw = [] ∧ (kcwHome (fld q.body 1 1) (.vf 5) s).isSome = true ∧
        (getAlloc (.vf 5) s).owner = some 1 ∧ ownerActive 1 s = true) ∧
    (let q := kcwRq 0x0431 1 3 []; let s := on0 q (winIs {}); Accepted mb0 0x0431 q s ∧ (getKcw 3 s).assign = .pf 0 1 ∧ (∀ p ∈ s.kcw, p.2.phase ≠ .resetting) ∧
      (getKcw 3 s).ctx = none ∧ kcwExpiring (getKcw 3 s) s = []) ∧
    (let q := kcwRq 0x0432 24 3 [(2, 2, 4095), (8, 8, handleOf 20 1)]; let s := on0 q (winIs {}); Accepted mb0 0x0432 q s ∧ readCheck kcwMapCheck mb0 q s = none ∧ fld q.body 8 8 ≠ 0 ∧
      (resolve (fld q.body 8 8) (kcwOwner (getKcw 3 s) s) s).isSome = true) ∧
    (let q := kcwRq 0x0432 24 3 []; let s := on0 q (winIs {}); Accepted mb0 0x0432 q s ∧ readCheck kcwMapCheck mb0 q s = none ∧ fld q.body 8 8 = 0 ∧ fld q.body 0x10 8 = 0) ∧
    (let q := kcwRq 0x0433 1 3 []; Accepted mb0 0x0433 q (on0 q (winIs {}))) := by
  refine ⟨?_, ?_, ?_, ?_, ?_, ?_⟩ <;> decide +kernel

/-- Context 300 posts its outcome for a source. -/
def posts (src : CtxSrc) (st : Nat) (s : State) : State := ctxIs { state := .posting, src := src, outcome := some { status := st } } s

/-- A completion queue at 0x4000 with n entries the host has not released. -/
def cqAt (n : Nat) (s : State) : State := qOf { busyQ with cqAddr := 0x4000, unreleased := n } s

theorem witness_PostingComplete :
    (∀ n ∈ [0, 16], let s := posts (.queue (.pf 0) 0 0) 0 (cqAt n atWork); (getQ (qKey (.pf 0) 0) s).map (fun q => (cqFull q, q.fetched.isEmpty, q.destroying.isNone, hostOk (.pf 0) (q.cqAddr + 32 * q.cqTail) 32 s)) =
        some (n == 16, true, true, true) ∧ inD3 (.pf 0) s = false ∧ (getQ (qKey (.pf 0) 0) s).map (fun q => (q.cause == .cqFault || q.cause == .bme)) = some false) ∧
    (∀ st ∈ [0, 0x0504], let s := posts (.kcw 3) st (winIs { phase := .running, ctx := some 300 }); (getCtx 300 s).map (fun x => (x.state, x.src, x.outcome.map (·.status))) =
        some (.posting, .kcw 3, some st) ∧ (getKcw 3 s).phase = .running ∧ (getKcw 3 s).overrun = false) ∧
    (posts (.gate 4) 0 (taken4 (call 0x20 []))).cores.taken.find? (fun g => g.ticket == 4) = some (call 0x20 []) ∧
    (getCtx 300 (posts (.mailbox mb0) 0 atWork)).map (·.src) = some (.mailbox mb0) := by
  refine ⟨?_, ?_, ?_, ?_⟩ <;> decide +kernel

/-- Each kind of number that names nothing is refused. -/
theorem smoke_ill_formed :
    WellFormed (.keyGenerate (.pf 4 0)) = false ∧ WellFormed (.keyGenerate (.pf 0 8)) = false ∧ WellFormed (.keyGenerate (.vf 4096)) = false ∧
    WellFormed (.wmaWait 72 0) = false ∧ WellFormed (.engineEnd 8192 .final) = false ∧ WellFormed (.kcwData 16 0) = false ∧ WellFormed (.dgeCtrlConfig 16 0 0) = false ∧
    WellFormed (.pfFlr 4) = false ∧ WellFormed (.checkerKatDone 8 true true) = false ∧ WellFormed (.vfFlr 4096) = false ∧ WellFormed (.d3hotEntry (.pf 4)) = false ∧
    WellFormed (.seedbankHealthFail 9 .parity) = false ∧ WellFormed (.drainLimitExpiry 33554432) = false ∧ WellFormed (.frameReceive 32 []) = false ∧ WellFormed (.perstAssert 2) = false ∧
    WellFormed (.wmaCmdStart 16) = false ∧ WellFormed (.laneSentinel 72 true) = false ∧ WellFormed (.sbkPortReq 8 0 0 1) = false ∧ WellFormed (.sbkPortReq 0 256 0 1) = false ∧
    WellFormed (.frameRingTx (.pf 0) 256) = false ∧ WellFormed (.checkerMismatch 0 72) = false ∧ WellFormed (.laneContextPrepare 0 33554432) = false ∧
    WellFormed (.wmaGo 0 0 32) = false ∧ WellFormed (.acuCommit 16) = false ∧ WellFormed (.fabricTransaction (tagT 1024) 0 (.read 0 1)) = false ∧
    WellFormed (.registerWrite (.pfBar0 4) 0 4 0) = false ∧ WellFormed (.registerWrite (.internal { tagT 0 with owner := 2 ^ 20 }) 0 4 0) = false ∧
    WellFormed (.entropyWaitExpiry (.port 8 0)) = false ∧ WellFormed (.entropyWaitExpiry (.gate (2 ^ 32))) = false ∧ WellFormed (.hostReadCompletion (.sq (.vf 0) 256) [] true) = false ∧
    WellFormed (.hostReadCompletion (.ctx 8192 0 0 false false 0) [] true) = false ∧ WellFormed (.hostReadCompletion (.sq (.vf 0) 64) [] true) = false := by decide +kernel

/-- So is each kind of number past its table, window or range. -/
theorem smoke_ill_formed_fields :
    WellFormed (.fabricTransaction (tagT 0) 16 (.read 0 1)) = false ∧ WellFormed (.fabricTransaction { tagT 0 with opclass := 64 } 0 (.read 0 1)) = false ∧ WellFormed (.fabricTransaction { tagT 0 with ctx := 2 ^ 13 } 0 (.read 0 1)) = false ∧ WellFormed (.fabricTransaction { tagT 0 with seq := 2 ^ 13 } 0 (.read 0 1)) = false ∧
    WellFormed (.saDrained 131072) = false ∧ WellFormed (.frameRelease 8) = false ∧ WellFormed (.frameTxClassify 32) = false ∧ WellFormed (.ideTlpFail 2 0) = false ∧
    WellFormed (.ideTlpFail 0 17) = false ∧ WellFormed (.tdispMessage 4096 .start) = false ∧ WellFormed (.vfmDoorbell 4096 true 0) = false ∧ WellFormed (.pfmDoorbell 4 0 true 0) = false ∧
    WellFormed (.pfmDoorbell 0 8 true 0) = false ∧ WellFormed (.doeRequest 4 (.discovery 0)) = false ∧ WellFormed (.meshCheck 3 0 false) = false ∧ WellFormed (.lookoutEvent 0 0 0) = false ∧
    WellFormed (.lookoutEvent 30 0 0) = false ∧ WellFormed (.sourceRearm 0) = false ∧ WellFormed (.freezeHoldExpiry 30) = false ∧ WellFormed (.serviceFaultClear 8) = false ∧
    WellFormed (.wearIndexUpdate 8) = false ∧ WellFormed (.watchAbortPoint 4) = false ∧ WellFormed (.standWake 8 (.job 0)) = false ∧ WellFormed (.dozeEntry 8) = false ∧
    WellFormed (.seedbankStartupDone 9 []) = false ∧ WellFormed (.seedbankFreqGate 8 []) = false ∧ WellFormed (.qmgSqTail (.pf 0) 256 0) = false ∧
    WellFormed (.qmgCqHead (.vf 0) 64 0) = false ∧ WellFormed (.cqCoalTimer (.vf 4096) 0) = false ∧ WellFormed (.frameRingTx (.vf 0) 64) = false ∧ WellFormed (.gateCall 0 32 0 0) = false ∧
    WellFormed (.gateCall 0 0 32 0) = false ∧ WellFormed (.gateCall 0 0 0 32) = false ∧ WellFormed (.gateRet 0 32 0) = false ∧ WellFormed (.gateRet 0 0 32) = false ∧
    WellFormed (.wmaGo 0 32 0) = false ∧ WellFormed (.wmaWait 0 32) = false ∧ WellFormed (.trap 72 0 0) = false ∧ WellFormed (.scrub 72 0) = false ∧
    WellFormed (.trlVectorSend 4) = false ∧ WellFormed (.forceLow 4 false) = false ∧ WellFormed (.linkDown 2) = false ∧ WellFormed (.pcieLinkUp 4 0 0 false) = false ∧
    WellFormed (.entropyWaitExpiry (.context 8192)) = false ∧ WellFormed (.entropyWaitExpiry (.port 0 512)) = false ∧ WellFormed (.registerWrite (.vfBar0 4096) 0 4 0) = false ∧ WellFormed (.registerWrite (.pfBar2 4) 0 4 0) = false := by decide +kernel

/-- The tag of chapter 15's example: core 24, world U, owner 0x2A41, OPCLASS APPLET. -/
theorem test_tag_word : tagWord { master := 24, worldU := true, priv := false, owner := 0x2A41, ctx := 0, opclass := 0x2A, seq := 0, parityOk := true } % 2 ^ 63 = 0x0005400002A41418 := by decide +kernel

/-- QMG_QSTAT of chapter 09's example: ACTIVE, fetch head 4. -/
theorem test_qstat : qstatWord { busyQ with sqHead := 4 } = 0x401 := by decide +kernel

/-- Every bank delivers; bank 5 stands at 71.5 °C. -/
def allBanks : State :=
  { up with units := { banks := (List.range 8).map (fun b => (b, { state := .delivering, temp := 0x23C })) } }

/-- The isolation of chapter 08's example: SBK_HSTAT<5>, GBL_MODE and GBL_MODE_COND. -/
theorem test_bank_isolated :
    (match exec (.seedbankWindowClose 5 (flat 16)) allBanks with
      | .next t => (sbkHWord 5 t == 0x23C53) && (modeWord t == 0x145) && (condValue t == 0x10008#32)
      | _ => false) = true := by decide +kernel

/-- GBL_LC of chapter 17's example: copy 1 invalid with the transition open, then complete. -/
theorem test_lc_words :
    let e (n : Bool) : LcEntry := { isEnd := n, src := .production, dst := .returned, authBy := 3, no := 0, seconds := 0 }
    let a : Option Anchor := some { gen := 1, m := 2, entries := [] }
    lcGblWord { copies := [lcWord .returned, 0xC3F0, lcWord .production], journal := List.replicate 6 (e true) ++ [e false], decoded := .invalid, wiped := .production, anchor := a } = 0x0407436D ∧
    lcGblWord { copies := List.replicate 3 (lcWord .returned), journal := List.replicate 8 (e true), decoded := .returned, wiped := .returned, anchor := a } = 0x0608003C := by decide +kernel

/-- GBL_MODE of chapter 17's example: CLEARCUT from SERVICE-DEGRADED, count 3, tampered. -/
theorem test_mode_word : modeWord { up with mode := { mode := 9, prev := 5, count := 3, chosen := true }, lko := { up.lko with tampered := true } } = 0x10359 := by decide +kernel

/-- WATCH in chapter 21's example: GBL_MODE and GBL_MODE_COND at AP3. -/
theorem test_watch_words :
    (match exec (.watchAbortPoint 3) (entering 3 0) with | .next t => (modeWord t == 0x14A) && (condValue t == 0x808#32) | _ => false) = true := by decide +kernel

end Sys2Proof.Tests
end

section
/-! Registers, device evidence, the debug gate and stands that wake (O9): what each write, access and wake does, and the statement they make up. -/

namespace Sys2Proof.Machine

open Sys2Proof.Safety

/-! REGISTER_WRITE -/

/-- A REGISTER_WRITE is the write of its port. -/
theorem exec_registerWrite (at_ : RegPort) (off n v : Nat) (s : State) :
    exec (.registerWrite at_ off n v) s = execRegisterWrite at_ off n v s := rfl

/-- An address between a range's bounds is in it. -/
theorem inRange_of_bounds {x a n : Nat} (hl : a ≤ x) (hu : x < a + n) : inRange x a n = true := by simp [inRange, hl, hu]

/-- A write at a PF's BAR0 that answers is the write of that BAR (R236). -/
theorem exec_pfBar0_open {p off n v : Nat} {s : State} (hp : p < 4) (ho : barOpen (.pf p) s = true) :
    exec (.registerWrite (.pfBar0 p) off n v) s = .next (pfBarWrite p off n v s) := by
  simp [exec_registerWrite, execRegisterWrite, onUnit, hp, ho]

/-- A PF's BARs that do not answer ignore a write (R236, R578). -/
theorem exec_pfBars_closed {p : Nat} {s : State} (hp : p < 4) (ho : barOpen (.pf p) s = false) (off n v : Nat) :
    exec (.registerWrite (.pfBar0 p) off n v) s = .next s ∧ exec (.registerWrite (.pfBar2 p) off n v) s = .next s := by
  simp [exec_registerWrite, execRegisterWrite, onUnit, hp, ho]

/-- A write at a VF's BAR0 that answers is the write of that BAR (R236). -/
theorem exec_vfBar0_open {k off n v : Nat} {s : State} (hk : k < 4096) (ho : barOpen (.vf k) s = true) :
    exec (.registerWrite (.vfBar0 k) off n v) s = .next (vfBarWrite k off n v s) := by
  simp [exec_registerWrite, execRegisterWrite, onUnit, vfBar0Write, hk, ho]

/-- A VF's BARs that do not answer ignore a write (R236, R578). -/
theorem exec_vfBars_closed {k : Nat} {s : State} (hk : k < 4096) (ho : barOpen (.vf k) s = false) (off n v : Nat) :
    exec (.registerWrite (.vfBar0 k) off n v) s = .next s ∧ exec (.registerWrite (.vfBar2 k) off n v) s = .next s := by
  simp [exec_registerWrite, execRegisterWrite, onUnit, vfBar0Write, vfBar2Write, hk, ho]

/-- The BARs of a running TDI ignore a write without the TEE bit (R235). -/
theorem exec_vfPlain_run {k : Nat} {s : State} (hk : k < 4096) (hr : tgetD s.host.tdis k .unlocked = .run) (bar2 : Bool) (off n v : Nat) :
    exec (.registerWrite (.vfPlain k bar2) off n v) s = .next s := by
  simp [exec_registerWrite, execRegisterWrite, onUnit, vfPlainWrite, hk, hr]

/-- While a TDI does not run, a write without the TEE bit is any other write at its VF's BAR (R235). -/
theorem exec_vfPlain_other {k : Nat} {s : State} (hr : tgetD s.host.tdis k .unlocked ≠ .run) (off n v : Nat) :
    exec (.registerWrite (.vfPlain k false) off n v) s = exec (.registerWrite (.vfBar0 k) off n v) s ∧
    exec (.registerWrite (.vfPlain k true) off n v) s = exec (.registerWrite (.vfBar2 k) off n v) s := by
  simp [exec_registerWrite, execRegisterWrite, vfPlainWrite, hr]

/-- The event register of a PF takes a write of ones (R7, R242). -/
theorem pfBarWrite_events (p v : Nat) (s : State) : pfBarWrite p 0x14 4 v s = clearEvents (.pf p) v s := by
  simp [pfBarWrite, pfRegWrite, inRange, isWord]

/-- The event register of a VF takes a write of ones (R7, R242). -/
theorem vfBarWrite_events (k v : Nat) (s : State) : vfBarWrite k 0x1C 4 v s = clearEvents (.vf k) v s := by
  simp [vfBarWrite, inRange, isWord]

/-- A request buffer takes a write of any width that stays inside it (R240, R264). -/
theorem mailboxWrite_buffer {mb : Mb} {size o n v : Nat} {s : State} (h : o + n ≤ size) :
    mailboxWrite mb size o n v s = setMb mb { getMb mb s with buf := memWriteN (getMb mb s).buf o (leBytes n v) } s :=
  if_pos h

/-- Mailbox m of a PF stands at 0x10000 + 0x4000 m of its BAR0 (R264). -/
theorem pfBarWrite_mailbox {p m o n v : Nat} {s : State} (hm : m < 8) (ho : o < 0x4000) :
    pfBarWrite p (0x10000 + 0x4000 * m + o) n v s = mailboxWrite (.pf p m) 0x1000 o n v s := by
  have hin : inRange (0x10000 + 0x4000 * m + o) 0x10000 0x20000 = true := inRange_of_bounds (by omega) (by omega)
  have hdiv : (0x10000 + 0x4000 * m + o - 0x10000) / 0x4000 = m := by omega
  have hmod : (0x10000 + 0x4000 * m + o) % 0x4000 = o := by omega
  rw [pfBarWrite, if_pos hin, hdiv, hmod]

/-- A VF's mailbox stands at 0x1000 of its BAR0 (R264). -/
theorem vfBarWrite_mailbox {k o n v : Nat} {s : State} (ho : o < 0x1000) :
    vfBarWrite k (0x1000 + o) n v s = mailboxWrite (.vf k) 0x400 o n v s := by
  have hin : inRange (0x1000 + o) 0x1000 0x1000 = true := inRange_of_bounds (by omega) (by omega)
  rw [vfBarWrite, if_pos hin, Nat.add_sub_cancel_left]

/-- Eight bytes written at a 64-bit register replace it whole. -/
theorem setBytes_whole (old v : Nat) : setBytes old 0 8 v = v % 2 ^ 64 := by
  simp [setBytes, List.drop_eq_nil_of_le, leNat_leBytes]

/-- A 64-bit register written whole holds the value's low 64 bits. -/
theorem ofNat_setBytes_whole (old v : Nat) : BitVec.ofNat 64 (setBytes old 0 8 v) = BitVec.ofNat 64 v :=
  BitVec.eq_of_toNat_eq (by simp [setBytes_whole])

/-- A running core in M-mode writes its own timer compare (R350). -/
theorem coreLocalWrite_mtimecmp {core v : Nat} {s : State} (hr : coreRuns core s = true) (hw : (getCore core s).wfi = false)
    (hu : (getCore core s).user = false) :
    coreLocalWrite core 0x1008 8 v s = setCore core { getCore core s with mtimecmp := BitVec.ofNat 64 v } s := by
  simp [coreLocalWrite, hr, hw, hu, inRange, isHalf, isWord, isDouble, ofNat_setBytes_whole]

/-- An internal master below 72 is a core, and the first 8 KiB are its own page (R350). -/
theorem exec_internal_corePage {t : FabricTag} {off n v : Nat} {s : State} (ht : t.master < 72) (ho : off < 0x2000) :
    exec (.registerWrite (.internal t) off n v) s = .next (coreLocalWrite t.master off n v s) := by
  have hm : t.master < 1024 := by omega
  simp [exec_registerWrite, execRegisterWrite, onUnit, internalWrite, hm, ht, ho]

/-! DEVICE_EVIDENCE -/

/-- A blob within OUT_MAX at pages the function reaches is written (R89). -/
theorem writeWithin_fits {mb : Mb} {addr max tooLong : Nat} {d : Bytes} {r : Resp} {s : State}
    (hl : d.length ≤ max) (hh : hostOk (mbFn mb) addr d.length s = true) :
    writeWithin mb addr max tooLong d r s = (.reply r, hostWrite addr d s) := by
  simp [writeWithin, blobWrite, hh, Nat.not_lt.mpr hl]

/-- A blob past OUT_MAX is refused, and nothing changes. -/
theorem writeWithin_tooLong {mb : Mb} {addr max tooLong : Nat} {d : Bytes} {r : Resp} {s : State} (hl : max < d.length) :
    writeWithin mb addr max tooLong d r s = (.reply (fail tooLong), s) := if_pos hl

/-- DEVICE_EVIDENCE writes the evidence of the request's nonce and answers its length (R449). -/
theorem exec_deviceEvidence_fits {mb : Mb} {q : Req} {s : State} (a : Accepted mb 0x0103 q s)
    (hl : (evidence (slice q.body 0 32) s).length ≤ fld q.body 0x28 4)
    (hh : hostOk (mbFn mb) (fld q.body 0x20 8) (evidence (slice q.body 0 32) s).length s = true) :
    Ends (.deviceEvidence mb) s mb { body := leBytes 4 (evidence (slice q.body 0 32) s).length }
      (hostWrite (fld q.body 0x20 8) (evidence (slice q.body 0 32) s) s) :=
  runCmd_reply deviceEvidenceRun a (writeWithin_fits hl hh)

/-- DEVICE_EVIDENCE answers DEST_TOO_SMALL, and writes nothing, where the evidence is longer than OUT_MAX. -/
theorem exec_deviceEvidence_tooLong {mb : Mb} {q : Req} {s : State} (a : Accepted mb 0x0103 q s)
    (hl : fld q.body 0x28 4 < (evidence (slice q.body 0 32) s).length) :
    Ends (.deviceEvidence mb) s mb { status := St.destTooSmall } s :=
  runCmd_reply deviceEvidenceRun a (writeWithin_tooLong hl)

/-! DBG_ACCESS -/

/-- With no enable in force a debug access loads BYPASS (R489; that it does is the model's choice, log entry 20). -/
theorem exec_dbgAccess_bypass {a : DebugAccess} {s : State} (h : s.lc.enables = 0) :
    exec (.dbgAccess a) s = .next { s with lc.ir := 0xFF, lc.dr := 0, lc.drive := .normal } :=
  congrArg (fun t => (.next t : Out)) (if_pos h)

/-- With an enable in force a debug access goes through the gate (R490). -/
theorem exec_dbgAccess_gate {a : DebugAccess} {s : State} (h : s.lc.enables ≠ 0) :
    exec (.dbgAccess a) s = .next (gateAccess a (tapLoad true 0x12 0 s)) :=
  congrArg (fun t => (.next t : Out)) (if_neg h)

/-- Loading an instruction into the TAP leaves the cores, the enables and the halted cores. -/
@[simp] theorem tapLoad_cores (ir dr : Nat) (s : State) : (tapLoad true ir dr s).cores = s.cores := rfl
@[simp] theorem tapLoad_halted (ir dr : Nat) (s : State) : (tapLoad true ir dr s).lc.halted = s.lc.halted := rfl
@[simp] theorem coreActive_tapLoad (core ir dr : Nat) (s : State) : coreActive core (tapLoad true ir dr s) = coreActive core s := rfl
@[simp] theorem coreInvasive_tapLoad (core ir dr : Nat) (s : State) : coreInvasive core (tapLoad true ir dr s) = coreInvasive core s := rfl
@[simp] theorem getX_tapLoad (core r ir dr : Nat) (s : State) : getX core r (tapLoad true ir dr s) = getX core r s := rfl

/-- A register of a core is written in the cores only. -/
@[simp] theorem setX_tapLoad_cores (core r ir dr : Nat) (v : DWord) (s : State) :
    (setX core r v (tapLoad true ir dr s)).cores = (setX core r v s).cores := by
  unfold setX
  split <;> rfl

@[simp] theorem gateResult_cores (r : Nat) (d : DWord) (s : State) : (gateResult r d s).cores = s.cores := rfl
@[simp] theorem gateResult_halted (r : Nat) (d : DWord) (s : State) : (gateResult r d s).lc.halted = s.lc.halted := rfl
@[simp] theorem gateResult_dbgResult (r : Nat) (d : DWord) (s : State) : (gateResult r d s).lc.dbgResult = r := rfl
@[simp] theorem gateResult_dbgData (r : Nat) (d : DWord) (s : State) : (gateResult r d s).lc.dbgData = d := rfl

section Gate
variable {core : Nat} {s : State} (hc : core < 72) (ha : coreActive core s = true)
include hc ha

/-- Once the TAP has loaded it, an access to a core in service under its world's enable is done (R490). -/
theorem gateCore_invasive {f : State → State} {ir dr : Nat} (hi : coreInvasive core s = true) :
    gateCore core f (tapLoad true ir dr s) = f (tapLoad true ir dr s) := by
  simp [gateCore, ha, hi, Nat.not_le.mpr hc]

/-- Once the TAP has loaded it, an access to a core in service without its world's enable reads NOT_ENABLED (R490). -/
theorem gateCore_notEnabled {f : State → State} {ir dr : Nat} (hi : coreInvasive core s = false) :
    gateCore core f (tapLoad true ir dr s) = gateResult 3 0 (tapLoad true ir dr s) := by
  simp [gateCore, ha, hi, Nat.not_le.mpr hc]

/-- Once the TAP has loaded it, an access that needs a halted core is done on one that is halted (R490). -/
theorem gateHalted_invasive {f : State → State} {ir dr : Nat} (hi : coreInvasive core s = true)
    (hh : s.lc.halted.contains core = true) :
    gateHalted core f (tapLoad true ir dr s) = f (tapLoad true ir dr s) := by
  rw [gateHalted, gateCore_invasive hc ha hi, tapLoad_halted, if_pos hh]

variable (he : s.lc.enables ≠ 0)
include he

/-- The gate halts a core under its world's enable (R490). -/
theorem exec_halt (hi : coreInvasive core s = true) :
    ∃ t, exec (.dbgAccess (.halt core)) s = .next t ∧ t.lc.halted = addNew s.lc.halted core ∧ t.lc.dbgResult = 0 ∧ t.cores = s.cores := by
  refine ⟨_, exec_dbgAccess_gate he, ?_⟩
  rw [gateAccess, gateCore_invasive hc ha hi]
  simp

/-- The gate resumes a core under its world's enable (R490). -/
theorem exec_resume (hi : coreInvasive core s = true) :
    ∃ t, exec (.dbgAccess (.resume core)) s = .next t ∧ t.lc.halted = without s.lc.halted core ∧ t.lc.dbgResult = 0 ∧ t.cores = s.cores := by
  refine ⟨_, exec_dbgAccess_gate he, ?_⟩
  rw [gateAccess, gateCore_invasive hc ha hi]
  simp

/-- The gate reads an integer register of a halted core, numbers 0 to 31 (R490; the numbers are the model's choice, log entry 139). -/
theorem exec_readReg {r : Nat} (hi : coreInvasive core s = true) (hr : r < 32) (hh : s.lc.halted.contains core = true) :
    ∃ t, exec (.dbgAccess (.readReg core r)) s = .next t ∧ t.lc.dbgResult = 0 ∧ t.lc.dbgData = getX core r s ∧ t.cores = s.cores := by
  refine ⟨_, exec_dbgAccess_gate he, ?_⟩
  rw [gateAccess, gateHalted_invasive hc ha hi hh]
  simp [dbgRegRead, hr]

/-- The gate writes an integer register of a halted core, numbers 0 to 31 (R490; the numbers are the model's choice, log entry 139). -/
theorem exec_writeReg {r : Nat} {v : DWord} (hi : coreInvasive core s = true) (hr : r < 32) (hh : s.lc.halted.contains core = true) :
    ∃ t, exec (.dbgAccess (.writeReg core r v)) s = .next t ∧ t.lc.dbgResult = 0 ∧ t.cores = (setX core r v s).cores := by
  refine ⟨_, exec_dbgAccess_gate he, ?_⟩
  rw [gateAccess, gateHalted_invasive hc ha hi hh]
  simp [dbgRegWrite, hr]

/-- Without its world's enable a core is neither halted nor resumed: NOT_ENABLED (R490). -/
theorem exec_dbgAccess_notEnabled {a : DebugAccess} (hi : coreInvasive core s = false) (h : a = .halt core ∨ a = .resume core) :
    ∃ t, exec (.dbgAccess a) s = .next t ∧ t.lc.dbgResult = 3 ∧ t.lc.halted = s.lc.halted ∧ t.cores = s.cores := by
  refine ⟨_, exec_dbgAccess_gate he, ?_⟩
  obtain rfl | rfl := h <;>
  · rw [gateAccess, gateCore_notEnabled hc ha hi]
    simp

end Gate

/-! STAND_WAKE and STAND_WAKE_DONE -/

/-- An access to a gated or waking stand is held; one to a stand that is awake is not (R582). -/
theorem exec_standWake {st : Nat} (h : HeldAccess) (s : State) (hst : st < 8) :
    exec (.standWake st h) s = .next (if standHolds st s = true then holdAccess st h s else s) := by
  change execStandWake st h s = _
  simp [execStandWake, onUnit, hst]

/-- A job, a key or a gate call that proceeds goes on by its own row (R582). -/
theorem proceed_of_not_fabric {h : HeldAccess} (hf : ∀ t n a, h ≠ .fabric t n a) (s : State) : proceed h s = s := by
  cases h with
  | fabric t n a => exact absurd rfl (hf t n a)
  | job _ | key _ | gate _ => rfl

/-- Held accesses none of which is a fabric transaction proceed by their own rows. -/
theorem foldl_proceed_of_not_fabric {hs : List HeldAccess} (hf : ∀ x ∈ hs, ∀ t n a, x ≠ .fabric t n a) (s : State) :
    hs.foldl (fun s h => proceed h s) s = s := by
  induction hs with
  | nil => rfl
  | cons h hs ih =>
    rw [List.foldl_cons, proceed_of_not_fabric (hf h List.mem_cons_self)]
    exact ih fun x hx => hf x (List.mem_cons_of_mem h hx)

/-- A stand that has woken is up, and what it held proceeds in order (R582). -/
theorem exec_standWakeDone {st : Nat} {hs : List HeldAccess} {s : State} (hst : st < 8) (hw : tget s.pwr.waking st = some hs) :
    exec (.standWakeDone st) s =
      .next (hs.foldl (fun s h => proceed h s) (standUp st { s with pwr.waking := tdel s.pwr.waking st })) := by
  change execStandWakeDone st s = _
  simp [execStandWakeDone, onUnit, hst, hw]

/-- Settles O9: one lemma for each kind of write, access and wake. -/
theorem registersAndDebugComplete : Obligations.RegistersAndDebugComplete := by
  unfold Obligations.RegistersAndDebugComplete
  refine ⟨fun fn v s hfn => ⟨?pf, ?vf⟩, ?timer, ?evidence, ?debug, ?stand⟩
  case pf =>
    rintro p rfl
    have hp : p < 4 := of_decide_eq_true hfn
    refine ⟨fun ho => ?_, fun ho off n => exec_pfBars_closed hp ho off n v, fun ho m o n hm hon hn => ?_⟩
    · rw [exec_pfBar0_open hp ho, pfBarWrite_events, clearEvents]
    · rw [exec_pfBar0_open hp ho, pfBarWrite_mailbox hm (by omega), mailboxWrite_buffer hon]
  case vf =>
    rintro k rfl
    have hk : k < 4096 := of_decide_eq_true hfn
    refine ⟨fun ho => ?_, fun ho off n => exec_vfBars_closed hk ho off n v, fun ho o n hon hn => ?_,
      fun off n hr => ⟨exec_vfPlain_run hk hr false off n v, exec_vfPlain_run hk hr true off n v⟩,
      fun off n hr => exec_vfPlain_other hr off n v⟩
    · rw [exec_vfBar0_open hk ho, vfBarWrite_events, clearEvents]
    · rw [exec_vfBar0_open hk ho, vfBarWrite_mailbox (by omega), mailboxWrite_buffer hon]
  case timer =>
    intro t v s ht hr hw hu
    rw [exec_internal_corePage ht (by omega), coreLocalWrite_mtimecmp hr hw hu]
  case evidence =>
    exact fun mb q s a => ⟨exec_deviceEvidence_fits a, fun hl => ⟨_, exec_deviceEvidence_tooLong a hl⟩⟩
  case debug =>
    refine fun a s => ⟨exec_dbgAccess_bypass, fun core he hc ha => ⟨fun hi => ⟨?_, ?_, ?_, ?_⟩, exec_dbgAccess_notEnabled hc ha he⟩⟩
    · rintro rfl; exact exec_halt hc ha he hi
    · rintro rfl; exact exec_resume hc ha he hi
    · rintro r rfl; exact exec_readReg hc ha he hi
    · rintro r v rfl; exact exec_writeReg hc ha he hi
  case stand =>
    refine fun st h s hst => ⟨fun hh => ?_, fun hh => ?_, fun hs hw hf => ?_⟩
    · rw [exec_standWake h s hst, if_pos hh, holdAccess]
    · rw [exec_standWake h s hst, if_neg (by simp [hh])]
    · rw [exec_standWakeDone hst hw, foldl_proceed_of_not_fabric hf]

end Sys2Proof.Machine
end

section
/-! Warden pairs and trusted restart (O11): what ending work, stopping and answering leave alone, what each row of the pairs and the restart does, and the statement they make up. -/

namespace Sys2Proof.Machine

/-! ### What the ends of work leave alone -/

/-- What no end of a job, a call, a scrub or a message changes: the start and the pairs, custody, the key store and the mailboxes. -/
def kept (s : State) : Start × Custody × Store × Tab Mbox := (s.start, s.cust, s.store, s.mbox)

theorem kept_iff {s t : State} : kept t = kept s ↔ t.start = s.start ∧ t.cust = s.cust ∧ t.store = s.store ∧ t.mbox = s.mbox := by
  simp [kept]

theorem start_of_kept {s t : State} (h : kept t = kept s) : t.start = s.start := congrArg (·.1) h
theorem store_of_kept {s t : State} (h : kept t = kept s) : t.store = s.store := congrArg (·.2.2.1) h

/-- A fold whose every step keeps a reading of the state keeps it. -/
theorem foldl_keeps {α σ β : Type} {f : σ → β} {g : σ → α → σ} (h : ∀ s a, f (g s a) = f s) (l : List α) (s : σ) :
    f (l.foldl g s) = f s := by
  induction l generalizing s with
  | nil => rfl
  | cons a r ih => exact (ih (g s a)).trans (h s a)

/-! Messages, records, notifications and the mode -/

theorem kept_of_beyondHost {s t : State} (h : beyondHost t = beyondHost s) : kept t = kept s := by
  have k := congrArg kept h
  exact k

theorem kept_of_beyondLog {s t : State} (h : beyondLog t = beyondLog s) : kept t = kept s := by
  have k := congrArg kept h
  exact k

@[simp] theorem kept_logCode (code origin : Nat) (arg : List (Nat × Nat × Nat)) (s : State) : kept (logCode code origin arg s) = kept s :=
  kept_of_beyondLog (logPut_only _ s)

@[simp] theorem kept_raiseEvent (f : Fn) (b : Nat) (s : State) : kept (raiseEvent f b s) = kept s := kept_of_beyondHost (raiseEvent_only f b s)

@[simp] theorem kept_eventAllPfs (b : Nat) (s : State) : kept (eventAllPfs b s) = kept s := foldl_keeps (fun s _ => kept_raiseEvent _ _ s) _ s

@[simp] theorem kept_eventAllVfs (b : Nat) (s : State) : kept (eventAllVfs b s) = kept s := foldl_keeps (fun s _ => kept_raiseEvent _ _ s) _ s

@[simp] theorem kept_notifyApplets (k : NoteKind) (a : Nat) (s : State) : kept (notifyApplets k a s) = kept s := rfl

@[simp] theorem kept_restartEvent (e : Bool) (s : State) : kept (restartEvent e s) = kept s := by simp [restartEvent]

@[simp] theorem kept_changeMode (m : Nat) (s : State) : kept (changeMode m s) = kept s := by
  simp only [changeMode, kept_notifyApplets, kept_eventAllVfs, kept_eventAllPfs, kept_logCode]
  rfl

@[simp] theorem kept_refreshMode (s : State) : kept (refreshMode s) = kept s := by
  unfold refreshMode
  split
  · rfl
  · split
    · rfl
    · exact kept_changeMode _ s

/-! Answers that waited for the Warden -/

@[simp] theorem kept_takeHeart (n : Nat) (s : State) : kept (takeHeart n s).2 = kept s := by
  unfold takeHeart
  dsimp only
  split <;> rfl

@[simp] theorem kept_ideKm (link : Nat) (m mask : Bytes) (s : State) : kept (ideKm link m mask s) = kept s := by
  unfold ideKm
  dsimp only
  repeat' split
  all_goals rfl

@[simp] theorem kept_doeServe (p : Nat) (r : DoeRequest) (s : State) : kept (doeServe p r s) = kept s := by
  unfold doeServe
  split
  · rfl
  · have h := kept_takeHeart 88 s
    split
    · rename_i u e
      rw [e] at h
      exact h
    · rename_i bits u e
      rw [e] at h
      refine Eq.trans ?_ h
      dsimp only
      split
      · exact kept_ideKm _ _ _ _
      · rfl

@[simp] theorem kept_mctpSpdm (m : Bytes) (s : State) : kept (mctpSpdm m s) = kept s := by
  have h := kept_takeHeart 48 s
  unfold mctpSpdm
  dsimp only
  split <;> rename_i e <;> rw [e] at h <;> exact h

@[simp] theorem kept_doeResume (s : State) : kept (doeResume s) = kept s :=
  (foldl_keeps (fun s m => kept_mctpSpdm m s) _ _).trans (foldl_keeps (f := kept) (fun s (x : Nat × DoeRequest) => kept_doeServe x.1 x.2 s) _ { s with host.doeWait := [] })

/-! Contexts that end -/

@[simp] theorem kept_meterJob (x : Ctx) (w : Nat) (s : State) : kept (meterJob x w s) = kept s := by
  unfold meterJob
  dsimp only
  repeat' split
  all_goals rfl

@[simp] theorem kept_countChecked (st n : Nat) (s : State) : kept (countChecked st n s) = kept s := by
  unfold countChecked
  split <;> rfl

@[simp] theorem kept_countPorts (g a h : Nat) (s : State) : kept (countPorts g a h s) = kept s := kept_countChecked _ _ _

@[simp] theorem kept_countCut (x : Ctx) (s : State) : kept (countCut x s) = kept s := by
  unfold countCut
  split
  · rfl
  · split
    · rfl
    · exact kept_countPorts _ _ _ _

@[simp] theorem kept_cutShort (x : Ctx) (s : State) : kept (cutShort x s).2 = kept s := by
  unfold cutShort
  split <;> rfl

@[simp] theorem kept_earlyOut (x : Ctx) (s : State) : kept (earlyOut x s).2 = kept s := by
  unfold earlyOut
  dsimp only
  repeat' split
  all_goals rfl

@[simp] theorem kept_settle (c : Nat) (o : CtxOutcome) (s : State) : kept (settle c o s) = kept s := by
  unfold settle
  split
  · rfl
  · exact (kept_meterJob _ _ _).trans (kept_countCut _ s)

@[simp] theorem kept_abort (c st : Nat) (s : State) : kept (abort c st s) = kept s := by
  unfold abort
  split
  · rfl
  · rename_i x _
    exact (kept_settle _ _ _).trans ((kept_earlyOut _ _).trans (kept_cutShort x s))

@[simp] theorem kept_abortWhere (p : Ctx → Bool) (st : Nat) (s : State) : kept (abortWhere p st s) = kept s :=
  foldl_keeps (fun s _ => kept_abort _ st s) _ s

@[simp] theorem kept_voidCtx (c : Nat) (s : State) : kept (voidCtx c s) = kept s := by
  unfold voidCtx
  split
  · rfl
  · rename_i x _
    exact (kept_meterJob _ _ _).trans ((kept_countCut _ _).trans ((kept_earlyOut _ _).trans (kept_cutShort x s)))

@[simp] theorem kept_voidWhere (p : Ctx → Bool) (s : State) : kept (voidWhere p s) = kept s :=
  foldl_keeps (fun s (q : Nat × Ctx) => kept_voidCtx q.1 s) _ s

/-! Calls, ports, scrubs and units of the cores -/

@[simp] theorem kept_cancelCall (core i : Nat) (s : State) : kept (cancelCall core i s) = kept s := by
  unfold cancelCall
  dsimp only
  split <;> rfl

@[simp] theorem kept_cancelCalls (core : Nat) (s : State) : kept (cancelCalls core s) = kept s := foldl_keeps (fun s i => kept_cancelCall core i s) _ s

@[simp] theorem kept_cancelPort (st m : Nat) (s : State) : kept (cancelPort st m s) = kept s := by
  unfold cancelPort
  dsimp only
  split <;> rfl

@[simp] theorem kept_beginScrub (core : Nat) (s : State) : kept (beginScrub core s) = kept s :=
  (kept_cancelPort _ _ _).trans (kept_cancelCalls core s)

@[simp] theorem kept_dropClaim (core : Nat) (s : State) : kept (dropClaim core s) = kept s := by
  unfold dropClaim
  dsimp only
  repeat' split
  all_goals rfl

@[simp] theorem kept_endScrub (core : Nat) (s : State) : kept (endScrub core s) = kept s := by
  have h := kept_dropClaim core s
  unfold endScrub
  generalize dropClaim core s = u at h
  dsimp only
  split <;> exact h

@[simp] theorem kept_fabWrite (a : Nat) (d : Bytes) (s : State) : kept (fabWrite a d s) = kept s :=
  foldl_keeps (f := kept) (fun s (p : Nat × WmaCmd) => show kept (wmaUndefined p.2 s) = kept s from rfl) _ _

@[simp] theorem kept_wakeCalls (core : Nat) (s : State) : kept (wakeCalls core s) = kept s := by
  refine foldl_keeps (fun s p => ?_) _ s
  dsimp only
  repeat' split
  all_goals rfl

@[simp] theorem kept_gateFinish (g : GateCall) (resp : Bytes) (s : State) : kept (gateFinish g resp s) = kept s :=
  (kept_wakeCalls _ _).trans (kept_fabWrite _ _ s)

@[simp] theorem kept_restartJobs (core : Nat) (s : State) : kept (restartJobs core s) = kept s :=
  (foldl_keeps (fun s g => kept_gateFinish g _ s) _ _).trans (kept_abortWhere _ _ s)

@[simp] theorem kept_flushWma (v u : Nat) (s : State) : kept (flushWma v u s) = kept s := by
  unfold flushWma
  dsimp only
  split
  · rfl
  · exact foldl_keeps (f := kept) (fun s (c : WmaCmd) => show kept (wmaEnds c.core v s) = kept s from rfl) _ s

@[simp] theorem kept_restartUnits (s : State) : kept (restartUnits s) = kept s := by
  refine (foldl_keeps (fun s u => ?_) _ _).trans (foldl_keeps (fun s g => ?_) _ s)
  · split
    · rfl
    · exact kept_flushWma _ _ s
  · dsimp only
    split
    · rfl
    · refine foldl_keeps (f := kept) (fun s p => ?_) _ s
      split
      · exact kept_abort _ _ s
      · rfl

@[simp] theorem kept_restartHold (s : State) : kept (restartHold s) = kept s :=
  (kept_restartUnits _).trans (foldl_keeps (fun s c => (kept_cancelPort _ _ _).trans (kept_restartJobs c s)) _ s)

@[simp] theorem kept_putDge (g : Nat) (d : Dge) (s : State) : kept (putDge g d s) = kept s := by
  unfold putDge
  dsimp only
  split <;> rfl

@[simp] theorem kept_revokeSlot (slot : Nat) (s : State) : kept (revokeSlot slot s) = kept s := by
  refine foldl_keeps (fun s p => ?_) _ s
  split
  · exact kept_putDge _ _ s
  · rfl

/-! The queues and rings of a device stop -/

@[simp] theorem kept_queueError (k : Nat) (c : QCause) (s : State) : kept (queueError k c s) = kept s := by
  unfold queueError
  split
  · rfl
  · split
    · rfl
    · exact kept_raiseEvent _ _ _

@[simp] theorem kept_ringError (k : Nat) (c : QCause) (s : State) : kept (ringError k c s) = kept s := by
  unfold ringError
  split
  · rfl
  · split
    · rfl
    · exact kept_raiseEvent _ _ _

@[simp] theorem kept_admitEntry (k no rem : Nat) (e : Bytes) (s : State) : kept (admitEntry k no rem e s) = kept s := by
  unfold admitEntry
  dsimp only
  split
  · split <;> rfl
  · split
    · split
      · exact kept_settle _ _ _
      · rfl
    · rfl

@[simp] theorem kept_admitAll (k n : Nat) (s : State) : kept (admitAll k n s) = kept s := by
  induction n generalizing s with
  | zero => rfl
  | succ n ih =>
    unfold admitAll
    split
    · rfl
    · split
      · rfl
      · split
        · rfl
        · exact (ih _).trans (kept_admitEntry _ _ _ _ _)

@[simp] theorem kept_admitQ (k : Nat) (s : State) : kept (admitQ k s) = kept s := by
  unfold admitQ
  split
  · rfl
  · exact kept_admitAll _ _ s

@[simp] theorem kept_queuesModeEnd (s : State) : kept (queuesModeEnd s) = kept s :=
  (foldl_keeps (fun s (p : Nat × Ring) => kept_ringError p.1 _ s) _ _).trans
    (foldl_keeps (fun s (p : Nat × Queue) => (kept_queueError p.1 _ _).trans (kept_admitQ p.1 s)) _ s)

/-! ### A Warden that resumes -/

/-- A revocation's end, a job's end and an answer are no part of the start or of custody. -/
def startCust (s : State) : Start × Custody := (s.start, s.cust)

theorem startCust_of_kept {s t : State} (h : kept t = kept s) : startCust t = startCust s := by
  have k := congrArg (fun x : Start × Custody × Store × Tab Mbox => (x.1, x.2.1)) h
  exact k

theorem startCust_of_beyondAnswer {s t : State} (h : beyondAnswer t = beyondAnswer s) : startCust t = startCust s := by
  have k := congrArg startCust h
  exact k

/-- The slots whose revocation was interrupted. -/
def revokingSlots (s : State) : List Nat := (s.store.c.keys.filter (fun p => p.2.state == .revoking)).map (·.1)

/-- Every command's job ends. -/
def endJobs (s : State) : State := s.mbox.foldl (fun s p => endJob (mbOfKey p.1) s) s

/-- An unanswered command is answered INDETERMINATE (R287). -/
def answerIndeterminate (mb : Mb) (s : State) : State :=
  let s := endJob mb s
  let b := getMb mb s
  match b.cur with
  | none => s
  | some q =>
    let b := setRec q.reqId (fun x => { x with state := .indeterminate }) b
    let s := setMb mb { b with cur := none, inner := none, wait := .none, rank8 := false, ctx := 0xFFFF } s
    postResp mb (respBytes q.opcode q.reqId b.ctx b.token 0 (fail St.indeterminate)) s

theorem indeterminateAll_eq (s : State) : indeterminateAll s = s.mbox.foldl (fun s p => answerIndeterminate (mbOfKey p.1) s) s := rfl

theorem finishRevocations_eq (s : State) :
    finishRevocations s =
      { (revokingSlots s).foldl (fun s k => revokeSlot k (abortWhere (fun x => x.leases.any (fun l => l.1 == k)) St.keyRevoked s)) (endJobs s) with
        store.finish := revokingSlots s } := rfl

theorem beyondAnswer_answerIndeterminate (mb : Mb) (s : State) : beyondAnswer (answerIndeterminate mb s) = beyondAnswer s := by
  unfold answerIndeterminate
  dsimp only
  split <;> simp

theorem beyondAnswer_indeterminateAll (s : State) : beyondAnswer (indeterminateAll s) = beyondAnswer s := by
  rw [indeterminateAll_eq]
  exact foldl_keeps (fun s (p : Nat × Mbox) => beyondAnswer_answerIndeterminate (mbOfKey p.1) s) _ s

theorem beyondAnswer_endJobs (s : State) : beyondAnswer (endJobs s) = beyondAnswer s :=
  foldl_keeps (fun s (p : Nat × Mbox) => beyondAnswer_endJob (mbOfKey p.1) s) _ s

@[simp] theorem endJobs_store (s : State) : (endJobs s).store = s.store := by
  have h := congrArg State.store (beyondAnswer_endJobs s)
  exact h

theorem startCust_finishRevocations (s : State) : startCust (finishRevocations s) = startCust s := by
  rw [finishRevocations_eq]
  refine Eq.trans ?_ (startCust_of_beyondAnswer (beyondAnswer_endJobs s))
  exact foldl_keeps (f := startCust) (fun s (k : Nat) => startCust_of_kept ((kept_revokeSlot k _).trans (kept_abortWhere _ _ s)))
    (revokingSlots s) (endJobs s)

theorem startCust_resumeWarden (s : State) : startCust (resumeWarden s) = startCust s := by
  unfold resumeWarden
  dsimp only
  split
  · exact startCust_finishRevocations s
  · exact (startCust_of_beyondAnswer (beyondAnswer_indeterminateAll _)).trans (startCust_finishRevocations s)

@[simp] theorem resumeWarden_start (s : State) : (resumeWarden s).start = s.start := congrArg (·.1) (startCust_resumeWarden s)
@[simp] theorem resumeWarden_cust (s : State) : (resumeWarden s).cust = s.cust := congrArg (·.2) (startCust_resumeWarden s)

/-! ### What becomes of an accepted command -/

theorem mbKey_mbOfKey (k : Nat) : mbKey (mbOfKey k) = k := by
  unfold mbOfKey
  split <;> simp only [mbKey] <;> omega

/-- A mailbox is where its key is. -/
theorem getMb_congr {mb mb' : Mb} (h : mbKey mb = mbKey mb') (s : State) : getMb mb s = getMb mb' s := by
  unfold getMb
  rw [h]

/-- Two mailboxes are apart where their keys are. -/
theorem getMb_setMb_other {mb mb' : Mb} (h : mbKey mb ≠ mbKey mb') (b : Mbox) (s : State) : getMb mb (setMb mb' b s) = getMb mb s :=
  tgetD_tset_other _ _ _ _ _ h

theorem getMb_endJob_other {mb mb' : Mb} (h : mbKey mb ≠ mbKey mb') (s : State) : getMb mb (endJob mb' s) = getMb mb s := by
  unfold endJob
  split
  · rfl
  · exact getMb_setMb_other h _ s

/-- A job that ends leaves every mailbox its command. -/
theorem endJob_cur (mb mb' : Mb) (s : State) : (getMb mb (endJob mb' s)).cur = (getMb mb s).cur := by
  by_cases h : mbKey mb = mbKey mb'
  · rw [getMb_congr h, getMb_congr h, getMb_endJob]
  · rw [getMb_endJob_other h]

theorem endJobs_cur (mb : Mb) (s : State) : (getMb mb (endJobs s)).cur = (getMb mb s).cur :=
  foldl_keeps (f := fun s => (getMb mb s).cur) (fun s (p : Nat × Mbox) => endJob_cur mb (mbOfKey p.1) s) _ s

/-- A mailbox that is DONE and holds no command. -/
def answered (b : Mbox) : Prop := b.cur = none ∧ b.state = .done

theorem answerIndeterminate_other {mb mb' : Mb} (h : mbKey mb ≠ mbKey mb') (s : State) : getMb mb (answerIndeterminate mb' s) = getMb mb s := by
  unfold answerIndeterminate postResp
  dsimp only
  split <;> simp [getMb_endJob_other h, getMb_setMb_other h]

/-- A mailbox whose command is unanswered, or that is answered already, is answered after it. -/
theorem answerIndeterminate_answered {mb : Mb} {s : State} (h : (getMb mb s).cur.isSome ∨ answered (getMb mb s)) :
    answered (getMb mb (answerIndeterminate mb s)) := by
  unfold answerIndeterminate postResp
  simp only [getMb_endJob]
  cases hc : (getMb mb s).cur with
  | some q => simp [answered, setRec]
  | none =>
    obtain h | ⟨-, hd⟩ := h
    · simp [hc] at h
    · simp [answered, getMb_endJob, hc, hd]

/-- Answers to the mailboxes under a list of keys leave a mailbox under one of them answered. -/
theorem foldl_answerIndeterminate {mb : Mb} (ps : List (Nat × Mbox)) (s : State)
    (h : (mbKey mb ∈ ps.map (·.1) ∧ (getMb mb s).cur.isSome) ∨ answered (getMb mb s)) :
    answered (getMb mb (ps.foldl (fun s p => answerIndeterminate (mbOfKey p.1) s) s)) := by
  induction ps generalizing s with
  | nil => simpa using h
  | cons p ps ih =>
    rw [List.foldl_cons]
    apply ih
    by_cases hk : mbKey mb = p.1
    · refine .inr ?_
      have e : mbKey mb = mbKey (mbOfKey p.1) := by rw [mbKey_mbOfKey, hk]
      rw [getMb_congr e] at h ⊢
      exact answerIndeterminate_answered (h.imp_left And.right)
    · have e : mbKey mb ≠ mbKey (mbOfKey p.1) := by rwa [mbKey_mbOfKey]
      rw [answerIndeterminate_other e]
      simpa [hk] using h

theorem mem_keys_of_tget {α : Type} {t : Tab α} {k : Nat} {x : α} (h : tget t k = some x) : k ∈ t.map (·.1) := by
  induction t with
  | nil => simp at h
  | cons p r ih =>
    obtain ⟨j, v⟩ := p
    by_cases e : j = k
    · simp [e]
    · simp only [tget, if_neg e] at h
      simp [ih h]

/-- A mailbox that holds a command stands in the table. -/
theorem mbKey_mem_of_cur {mb : Mb} {s : State} (h : (getMb mb s).cur.isSome) : mbKey mb ∈ s.mbox.map (·.1) := by
  unfold getMb tgetD at h
  cases e : tget s.mbox (mbKey mb) with
  | none => simp [e] at h
  | some b => exact mem_keys_of_tget e

/-- Every accepted command is answered (R287). -/
theorem indeterminateAll_answers {mb : Mb} {s : State} (h : (getMb mb s).cur.isSome) : answered (getMb mb (indeterminateAll s)) := by
  rw [indeterminateAll_eq]
  exact foldl_answerIndeterminate _ s (.inl ⟨mbKey_mem_of_cur h, h⟩)

/-- A Warden that has no destruction to complete answers every command. -/
theorem resumeWarden_of_not_finishing {s : State} (h : finishing (finishRevocations s) = false) :
    resumeWarden s = indeterminateAll (finishRevocations s) := if_neg (by simp [h])

/-- With no destruction interrupted, a Warden that resumes answers every accepted command (R287). -/
theorem resumeWarden_answers {mb : Mb} {s : State} (hk : ∀ p ∈ s.store.c.keys, p.2.state ≠ .revoking)
    (hf : s.store.finishSeq ≤ s.store.committed) (h : (getMb mb s).cur.isSome) : answered (getMb mb (resumeWarden s)) := by
  have hr : revokingSlots s = [] := by
    simp only [revokingSlots, List.map_eq_nil_iff, List.filter_eq_nil_iff, beq_iff_eq]
    exact hk
  have hfr : finishRevocations s = { endJobs s with store.finish := [] } := by rw [finishRevocations_eq, hr, List.foldl_nil]
  have hn : finishing (finishRevocations s) = false := by simp [hfr, finishing, hf]
  rw [resumeWarden_of_not_finishing hn]
  apply indeterminateAll_answers
  rw [hfr]
  exact (congrArg Option.isSome (endJobs_cur mb s)).trans h

/-! ### Epochs, heartbeats, the pair that is loaded and a failover -/

theorem wardenUp_iff {s : State} :
    wardenUp s = true ↔ 9 ≤ s.start.stage ∧ restarting s = false ∧ s.start.failingOver = false ∧ s.pwr.state = .active := by
  simp [wardenUp, and_assoc]

theorem exec_checkpointEpoch {s : State} (h : wardenUp s = true) :
    exec .checkpointEpoch s = .next { s with start.epoch := s.start.epoch + 1, cust.saved := s.cust.approvals } :=
  congrArg (fun t => (.next t : Out)) (if_pos h)

theorem exec_wardenHeartbeat {s : State} (h : wardenUp s = true) : exec .wardenHeartbeat s = .next { s with start.heartbeatAt := s.us } :=
  congrArg (fun t => (.next t : Out)) (if_pos h)

/-- PAIR_RELOAD_DONE of the pair that is loaded (R452). -/
theorem exec_pairReloadDone {ok : Bool} {s : State} (h : wardenUp s = true) (hl : s.start.standby = .loading) (hh : s.start.handStep = 0) :
    exec (.pairReloadDone ok) s = .next (if ok then { s with start.standby := .ready, start.pairFails := 0 } else pairTestFailed s) := by
  change execPairReloadDone ok s = _
  simp [execPairReloadDone, h, hl, hh]

/-- A UNIT report changes neither the start nor the store. -/
theorem unitReport_start_store (src unit : Nat) (inj : Bool) (s : State) :
    (unitReport src unit inj s).start = s.start ∧ (unitReport src unit inj s).store = s.store := by
  have h : Beside _ (unitReport src unit inj s) := Beside.trans vecAllPfs_beside faultRec_beside
  exact ⟨congrArg (fun p => p.2.2.2.1) h, congrArg (fun p => p.2.2.2.2.2.2.2.2.2.2.2.1) h⟩

/-- A failed self-test is counted, the second in a row leaves the device without a standby, and the store stays (R452). -/
theorem pairTestFailed_counts (s : State) :
    (pairTestFailed s).start.pairFails = s.start.pairFails + 1 ∧
    (pairTestFailed s).start.standby = (if 1 ≤ s.start.pairFails then .absent else .loading) ∧ (pairTestFailed s).store = s.store := by
  obtain ⟨hs, hst⟩ := unitReport_start_store 0x0E (1 - s.start.active) false { s with start.pairFails := s.start.pairFails + 1 }
  unfold pairTestFailed
  dsimp only
  by_cases h : 1 ≤ s.start.pairFails
  · rw [if_pos (by omega : 2 ≤ s.start.pairFails + 1), if_pos h, serviceReport_start, serviceReport_store]
    exact ⟨congrArg Start.pairFails hs, rfl, hst⟩
  · rw [if_neg (by omega : ¬ 2 ≤ s.start.pairFails + 1), if_neg h]
    exact ⟨congrArg Start.pairFails hs, rfl, hst⟩

/-- WARDEN_FAILOVER to a READY standby (R286, R450). -/
theorem exec_wardenFailover {s : State} (h : wardenUp s = true) (hr : s.start.standby = .ready) :
    exec .wardenFailover s =
      .next (restartIssue wardenMaster { s with start.failingOver := true, start.failovers := min 65535 (s.start.failovers + 1) }) := by
  obtain ⟨hst, hn, hf, hp⟩ := wardenUp_iff.1 h
  change execWardenFailover s = _
  simp [execWardenFailover, failover, hp, hn, hf, hr, Nat.not_lt.mpr hst]

/-! ### A trusted restart is ordered -/

/-- The restart rate of R34 allows one more. -/
def rateAllows (s : State) : Prop := lcIs s .production = false ∨ (recentRestarts s).length < 2

/-- What an order for a trusted restart meets where it is not absorbed (R453, R457). -/
structure Restartable (s : State) : Prop where
  idle : restarting s = false
  sound : s.fbk.fatal = false
  started : 9 ≤ s.start.stage
  active : s.pwr.state = .active

theorem restartable_of_wardenUp {s : State} (h : wardenUp s = true) (hf : s.fbk.fatal = false) : Restartable s := by
  obtain ⟨hst, hn, -, hp⟩ := wardenUp_iff.1 h
  exact ⟨hn, hf, hst, hp⟩

theorem trustedRestart_begins {r : Nat} {s : State} (h : Restartable s) (hr : rateAllows s) : trustedRestart r s = beginRestart r s := by
  obtain ⟨hn, hf, hst, hp⟩ := h
  have hq : ¬ (lcIs s .production && decide (2 ≤ (recentRestarts s).length)) = true := by
    obtain hl | hl := hr
    · simp [hl]
    · simp [Nat.not_le.mpr hl]
  rw [trustedRestart, if_neg (by simp [hn, hf, hp, hst]), if_neg hq]

theorem trustedRestart_seedling {r : Nat} {s : State} (h : Restartable s) (hl : lcIs s .production = true)
    (hr : 2 ≤ (recentRestarts s).length) : trustedRestart r s = enterSeedling .restartRate s := by
  obtain ⟨hn, hf, hst, hp⟩ := h
  rw [trustedRestart, if_neg (by simp [hn, hf, hp, hst]), if_pos (by simp [hl, hr])]

/-- A trusted restart has begun at stage 0x21, counted, with no approval left and the store as it was (R108, R454). -/
structure Restarted (r : Nat) (s t : State) : Prop where
  restarting : t.start.restarting = true
  stage : t.start.stage = 0x21
  reason : t.start.restartReason = r
  restarts : t.start.restarts = min 65535 (s.start.restarts + 1)
  lastStage : t.start.lastStage = s.start.lastStage
  failingOver : t.start.failingOver = false
  approvals : t.cust.approvals = []
  store : t.store = s.store

/-- An update that ends changes only the update. -/
theorem endUpdate_only (c : Nat) (s : State) : endUpdate c s = { s with start.upd := (endUpdate c s).start.upd } := by
  unfold endUpdate
  split <;> rfl

theorem beginRestart_restarted (r : Nat) (s : State) : Restarted r s (beginRestart r s) := by
  have h : kept (beginRestart r s) = kept _ := (kept_refreshMode _).trans ((kept_notifyApplets _ _ _).trans (kept_restartEvent _ _))
  obtain ⟨hs, hc, hst, -⟩ := kept_iff.1 h
  rw [endUpdate_only] at hs hc hst
  constructor <;> simp only [hs, hc, hst]

/-! ### The third within 600 s -/

/-- The contexts, calls and applets that a device stop ends. -/
def stopWork (s : State) : State :=
  let s := voidWhere (fun _ => true) (clearEnables s)
  let s := (List.range 72).foldl (fun s c => cancelCalls c s) s
  (coresInService s).foldl (fun s c => endApplets c .exited (setCore c { getCore c s with state := .idle } s)) s

/-- The queues, VFs, mailboxes and ports that a device stop ends. -/
def stopHost (s : State) : State :=
  let s := queuesModeEnd s
  portsStop false (mailboxesStop (if s.start.clearcutLatch then s else dropVfs s))

/-- The Warden is held and its Seedling image runs, with empty caches (R37). -/
def seedlingRuns (s : State) : State :=
  { s with
    store.sap := [], store.loading := []
    units.lanes := tmap s.units.lanes (fun _ l => { l with ctxs := [] })
    start.restarting := false, start.failingOver := false, start.handStep := 0, start.handPlain := false
    start.slot := 2
    ident.wdnLevel := 0x0402, ident.svcLevel := 0 }

theorem deviceStop_eq (s : State) :
    deviceStop s =
      doeResume (measureSet 6 romImage (seedlingRuns (stopHost
        { stopWork (endUpdate 5 { s with pwr.entry := none, pwr.pendingWakes := if inWatch s then s.pwr.pendingWakes else 0 }) with
          start.seedlingFw := true }))) := by
  unfold deviceStop stopHost stopWork seedlingRuns
  with_reducible rfl

theorem stopWork_start (s : State) : (stopWork s).start = s.start := by
  have hv : kept (voidWhere (fun _ => true) (clearEnables s)) = kept s := kept_voidWhere _ _
  have ha : ∀ (t : State) (c : Nat), kept (endApplets c .exited (setCore c { getCore c t with state := .idle } t)) = kept t := fun _ _ => rfl
  unfold stopWork
  dsimp only
  rw [start_of_kept (foldl_keeps (f := kept) ha _ _), start_of_kept (foldl_keeps (f := kept) (fun t c => kept_cancelCalls c t) _ _), start_of_kept hv]

theorem stopHost_start (s : State) : (stopHost s).start = s.start := by
  refine Eq.trans ?_ (start_of_kept (kept_queuesModeEnd s))
  unfold stopHost
  dsimp only
  split <;> rfl

/-- A device stop keeps the Seedling latch, ends a restart, runs the Seedling firmware and empties the Sapwood (R37). -/
theorem deviceStop_stops (s : State) :
    (deviceStop s).start.seedling = s.start.seedling ∧ (deviceStop s).start.restarting = false ∧ (deviceStop s).start.seedlingFw = true ∧
    (deviceStop s).store.sap = [] := by
  rw [deviceStop_eq, start_of_kept (kept_doeResume _), store_of_kept (kept_doeResume _)]
  simp only [measureSet, seedlingRuns, stopHost_start, stopWork_start]
  rw [endUpdate_only]
  simp

/-- SEEDLING is entered with the latch set (R34, R37). -/
theorem enterSeedling_latches (why : SeedReason) (s : State) :
    (enterSeedling why s).start.seedling.isSome = true ∧ (enterSeedling why s).start.restarting = false ∧
    (enterSeedling why s).start.seedlingFw = true ∧ (enterSeedling why s).store.sap = [] := by
  obtain ⟨hl, hr, hf, hs⟩ := deviceStop_stops { s with start.seedling := s.start.seedling.orElse (fun _ => some why) }
  unfold enterSeedling
  dsimp only
  rw [start_of_kept (kept_refreshMode _), store_of_kept (kept_refreshMode _), hl, hr, hf, hs]
  cases s.start.seedling <;> simp

/-! ### Who orders it -/

section Ordered
variable {s : State} (h : wardenUp s = true)
include h

theorem exec_hwdRestartReq (r : Nat) : exec (.hwdRestartReq r) s = .next (trustedRestart (r % 65536) s) :=
  congrArg (fun t => (.next t : Out)) (if_pos h)

theorem exec_heartbeatTimeout : exec .heartbeatTimeout s = .next (trustedRestart 0 s) :=
  congrArg (fun t => (.next t : Out)) (if_pos h)

end Ordered

/-- A standby that does not resume (R453). -/
theorem exec_standbyResumeTimeout {s : State} (h : s.start.failingOver = true) :
    exec .standbyResumeTimeout s = .next (trustedRestart 0 { s with start.failingOver := false }) :=
  congrArg (fun t => (.next t : Out)) (if_pos h)

/-! ### The standby resumes -/

/-- The pairs have swapped and the approvals are those of the last epoch (R108, R286). -/
def swapRoles (s : State) : State :=
  { s with
    start.failingOver := false, start.active := 1 - s.start.active, start.standby := .loading, start.pairFails := 0
    start.handStep := 0, start.handPlain := false, start.heartbeatAt := s.us, cust.approvals := s.cust.saved }

/-- In probation the update is abandoned and the old pair runs its old image (R461). -/
def leaveProbation (s : State) : State :=
  let s := endUpdate 3 { s with start.runW := s.start.upd.src }
  { s with ident.wdnLevel := (slotInfo s.start.runW s).wdnLevel }

/-- The state in which the standby's firmware resumes. -/
def takeOver (s : State) : State :=
  if s.start.handStep == 5 && s.start.upd.state == .running then leaveProbation (swapRoles s) else swapRoles s

theorem exec_standbyResumed {s : State} (h : s.start.failingOver = true) :
    exec .standbyResumed s = .next (refreshMode (doeResume (resumeWarden (measureHistory (takeOver s))))) := by
  change execStandbyResumed s = _
  unfold execStandbyResumed
  rw [if_neg (by simp [h])]
  rfl

@[simp] theorem measureHistory_store (s : State) : (measureHistory s).store = s.store := rfl
@[simp] theorem measureHistory_mbox (s : State) : (measureHistory s).mbox = s.mbox := rfl

/-- Two states with the same mailbox table have the same mailboxes. -/
theorem getMb_of_mbox {mb : Mb} {s t : State} (h : t.mbox = s.mbox) : getMb mb t = getMb mb s := 
  congrArg (fun m => tgetD m (mbKey mb) ({} : Mbox)) h

/-- The old pair runs its old image; beyond that the pairs swap (R461). -/
theorem takeOver_frame (s : State) :
    (takeOver s).start.active = 1 - s.start.active ∧ (takeOver s).start.standby = .loading ∧ (takeOver s).start.failingOver = false ∧
    (takeOver s).start.handStep = 0 ∧ (takeOver s).cust.approvals = s.cust.saved ∧ (takeOver s).store = s.store ∧ (takeOver s).mbox = s.mbox := by
  unfold takeOver
  split
  · unfold leaveProbation
    rw [endUpdate_only]
    simp [swapRoles]
  · simp [swapRoles]

/-- In probation the running update is abandoned with CAUSE 3 and its source slot runs (R461, R464). -/
theorem takeOver_probation {s : State} (hh : s.start.handStep = 5) (hu : s.start.upd.state = .running) :
    (takeOver s).start.upd.state = .abandoned ∧ (takeOver s).start.upd.cause = 3 ∧ (takeOver s).start.runW = s.start.upd.src := by
  rw [takeOver, if_pos (by simp [hh, hu]), leaveProbation, endUpdate, if_pos (show (swapRoles s).start.upd.state = .running from hu)]
  exact ⟨rfl, rfl, rfl⟩

/-- What the firmware's own answers and the mode leave alone of a Warden that has resumed. -/
theorem resumed_kept (s : State) : kept (refreshMode (doeResume s)) = kept s := (kept_refreshMode _).trans (kept_doeResume s)

/-- With no destruction interrupted, every accepted command has its answer once the standby has resumed (R286, R287). -/
theorem standbyResumed_answers {mb : Mb} {q : Req} {s : State} (hk : ∀ p ∈ s.store.c.keys, p.2.state ≠ .revoking)
    (hf : s.store.finishSeq ≤ s.store.committed) (hq : (getMb mb s).cur = some q) :
    answered (getMb mb (refreshMode (doeResume (resumeWarden (measureHistory (takeOver s)))))) := by
  obtain ⟨-, -, -, -, -, hst, hmb⟩ := takeOver_frame s
  obtain ⟨-, -, -, hkept⟩ := kept_iff.1 (resumed_kept (resumeWarden (measureHistory (takeOver s))))
  rw [getMb_of_mbox hkept]
  apply resumeWarden_answers
  · rwa [measureHistory_store, hst]
  · rwa [measureHistory_store, hst]
  · rw [getMb_of_mbox (measureHistory_mbox _), getMb_of_mbox hmb, hq, Option.isSome_some]

/-! ### The stages of a restart -/

/-- What a stage of R454 does once it completes. -/
def restartStageWork (n : Nat) (s : State) : State :=
  match n with
  | 0x22 => restartHold s
  | 0x23 => (serviceCores s).foldl (fun s c => beginScrub c s) s
  | 0x24 => restartImages s
  | 0x26 => (serviceCores s).foldl (fun s c => endScrub c s) s
  | 0x27 => endRestart s
  | _ => s

section Stages
variable {s : State} (hr : restarting s = true)
include hr

theorem exec_restartStageDone (hi : s.start.stage = 0x23 → imagesIntact s = true) (hw : s.start.stage = 0x25 → wmasIdle s = true) :
    exec .restartStageDone s = .next (restartStageWork (s.start.stage + 1) { s with start.stage := s.start.stage + 1 }) := by
  change execRestartStageDone s = _
  unfold execRestartStageDone
  rw [if_neg (by simp [hr])]
  dsimp only
  rw [if_neg]
  · rfl
  · simp only [Nat.reduceEqDiff, Bool.or_eq_true, Bool.and_eq_true, decide_eq_true_eq, Bool.not_eq_true', not_or, not_and, Bool.not_eq_false]
    exact ⟨hi, hw⟩

/-- A running image that no longer reads as its header says holds the restart at 0x23, a world-T multiplier that runs at 0x25 (R189, R454). -/
theorem exec_restartStageDone_held (h : (s.start.stage = 0x23 ∧ imagesIntact s = false) ∨ (s.start.stage = 0x25 ∧ wmasIdle s = false)) :
    exec .restartStageDone s = .next s := by
  change execRestartStageDone s = _
  unfold execRestartStageDone
  rw [if_neg (by simp [hr])]
  dsimp only
  rw [if_pos (by simpa using h)]

end Stages

/-- A component that an abandoned update had switched is back in its former slot (R457). -/
def revertSlots (s : State) : State :=
  let u := s.start.upd
  if u.state == .abandoned && u.cause == 4 then
    { s with
      start.runW := if bitOf u.comps 0 then u.src else s.start.runW
      start.runS := if bitOf u.comps 1 then u.src else s.start.runS
      start.upd := { u with wdnDone := false, svcDone := [] } }
  else s

/-- The levels and digests of the images that run are taken anew, but for the Seedling firmware's (R454). -/
def measureImages (s : State) : State :=
  if s.start.seedlingFw then measureHistory s
  else
    let w := slotInfo s.start.runW s
    let v := slotInfo s.start.runS s
    let s := { s with ident.wdnLevel := w.wdnLevel, ident.svcLevel := v.svcLevel }
    measureHistory (measurePut 7 v.svcDigest (measurePut 6 w.wdnDigest s))

theorem restartImages_eq (s : State) : restartImages s = measureImages (revertSlots s) := by
  unfold restartImages measureImages revertSlots
  with_reducible rfl

/-- The images are read again without the stage or the restart changing. -/
theorem restartImages_start (s : State) :
    (restartImages s).start.stage = s.start.stage ∧ (restartImages s).start.restarting = s.start.restarting := by
  have hb : (revertSlots s).start.stage = s.start.stage ∧ (revertSlots s).start.restarting = s.start.restarting := by
    unfold revertSlots
    dsimp only
    split <;> exact ⟨rfl, rfl⟩
  rw [restartImages_eq, ← hb.1, ← hb.2]
  generalize revertSlots s = u
  unfold measureImages
  split <;> exact ⟨rfl, rfl⟩

/-- A start that succeeds changes the count of failures only. -/
theorem startSucceeded_only (s : State) : startSucceeded s = { s with start.startFails := (startSucceeded s).start.startFails } := by
  unfold startSucceeded
  split <;> rfl

/-- The restart ends with pair 0 active and, unless the Seedling firmware runs, pair 1 as standby (R454). -/
theorem endRestart_start (s : State) :
    (endRestart s).start.stage = s.start.stage ∧ (endRestart s).start.restarting = false ∧ (endRestart s).start.active = 0 ∧
    (endRestart s).start.standby = (if s.start.seedlingFw then .absent else .ready) := by
  have hw : ∀ t : State, kept (refreshMode (doeResume (dropWait .restart t))) = kept t := fun t => resumed_kept _
  unfold endRestart
  dsimp only
  rw [← resumeWarden_start s]
  generalize resumeWarden s = u
  rw [startSucceeded_only]
  dsimp only
  rw [start_of_kept (hw _), start_of_kept (kept_notifyApplets _ _ _), start_of_kept (kept_restartEvent _ _), start_of_kept (kept_logCode _ _ _ _)]
  exact ⟨rfl, rfl, rfl, rfl⟩

/-- A stage that completes leaves the stage that is shown. -/
theorem restartStageWork_stage (n : Nat) (s : State) : (restartStageWork n s).start.stage = s.start.stage := by
  unfold restartStageWork
  split
  · exact congrArg Start.stage (start_of_kept (kept_restartHold s))
  · exact congrArg Start.stage (start_of_kept (foldl_keeps (fun s c => kept_beginScrub c s) _ s))
  · exact (restartImages_start s).1
  · exact congrArg Start.stage (start_of_kept (foldl_keeps (fun s c => kept_endScrub c s) _ s))
  · exact (endRestart_start s).1
  · rfl

/-- Only the last stage ends the restart. -/
theorem restartStageWork_restarting {n : Nat} (hn : n ≠ 0x27) (s : State) : (restartStageWork n s).start.restarting = s.start.restarting := by
  unfold restartStageWork
  split
  · exact congrArg Start.restarting (start_of_kept (kept_restartHold s))
  · exact congrArg Start.restarting (start_of_kept (foldl_keeps (fun s c => kept_beginScrub c s) _ s))
  · exact (restartImages_start s).2
  · exact congrArg Start.restarting (start_of_kept (foldl_keeps (fun s c => kept_endScrub c s) _ s))
  · exact absurd rfl hn
  · rfl

/-- The last stage ends it (R454). -/
theorem restartStageWork_last {n : Nat} (hn : n = 0x27) (s : State) :
    (restartStageWork n s).start.restarting = false ∧ (restartStageWork n s).start.active = 0 ∧
    (restartStageWork n s).start.standby = (if s.start.seedlingFw then .absent else .ready) := by
  subst hn
  exact (endRestart_start s).2

/-! ### A restart that fails -/

/-- A restart that has failed is recorded with its stage and is over. -/
def restartFailed (s : State) : State :=
  { logCode 0x0102 0 [(0, 1, s.start.stage), (1, 1, 1)] { s with start.lastStage := s.start.stage } with start.restarting := false }

theorem restartFailed_start (s : State) : (restartFailed s).start = { s.start with lastStage := s.start.stage, restarting := false } := by
  simp [restartFailed]

theorem restartFailed_store (s : State) : (restartFailed s).store = s.store := by simp [restartFailed]

theorem restartFailed_rate {s : State} (h : lcIs s .production = false) : rateAllows (restartFailed s) := by
  refine .inl (Eq.trans ?_ h)
  simp [lcIs, restartFailed]

theorem logCode_fbk (code origin : Nat) (arg : List (Nat × Nat × Nat)) (s : State) : (logCode code origin arg s).fbk = s.fbk := by
  have h := congrArg State.fbk (logPut_only (mkRec code origin arg) s)
  exact h

theorem restartFailed_restartable {s : State} (hf : s.fbk.fatal = false) (hst : 9 ≤ s.start.stage) (hp : s.pwr.state = .active) :
    Restartable (restartFailed s) := by
  constructor <;> simp [restarting, restartFailed, logCode_fbk, hf, hst, hp]

/-- Only in PRODUCTION does a failed start count (R34). -/
theorem countStartFail_of_not_production {s : State} (h : lcDecode s.lc ≠ .production) : countStartFail s = s := if_pos h

/-- A restart that fails outside PRODUCTION is not counted as a failed start and is ordered again (R34, R456). -/
theorem exec_restartTimeout {s : State} (hr : restarting s = true) (hl : lcDecode s.lc ≠ .production) (hs : s.start.seedling = none) :
    exec .restartTimeout s = .next (trustedRestart s.start.restartReason (restartFailed s)) := by
  change execRestartTimeout s = _
  unfold execRestartTimeout
  rw [if_neg (by simp [hr])]
  dsimp only
  rw [countStartFail_of_not_production (by rwa [logCode_lc]), if_neg (by simp [hs])]
  have hreason : (restartFailed s).start.restartReason = s.start.restartReason := by rw [restartFailed_start]
  exact congrArg (fun r => (.next (trustedRestart r (restartFailed s)) : Out)) hreason

/-! ### The statement -/

/-- Settles O11: one lemma for each row of the pairs and for each order, stage and failure of a trusted restart. -/
theorem wardenPairsAndRestart : Obligations.WardenPairsAndRestart := by
  unfold Obligations.WardenPairsAndRestart
  refine ⟨fun s hup => ⟨exec_checkpointEpoch hup, exec_wardenHeartbeat hup, ?reload, exec_wardenFailover hup, fun r hf => ⟨?restart, ?third⟩⟩,
    fun s hf => ⟨?resumed, ?late⟩, fun s hr h21 h27 => ⟨?stage, ?image, ?multiplier, ?failed⟩⟩
  case reload =>
    exact fun hl hh => ⟨exec_pairReloadDone hup hl hh, _, exec_pairReloadDone hup hl hh, pairTestFailed_counts s⟩
  case restart =>
    intro hrate
    have hs := restartable_of_wardenUp hup hf
    have t := beginRestart_restarted (r % 65536) s
    have u := beginRestart_restarted 0 s
    refine ⟨_, _, exec_hwdRestartReq hup r, exec_heartbeatTimeout hup, ?_⟩
    rw [trustedRestart_begins hs hrate, trustedRestart_begins hs hrate]
    exact ⟨t.restarting, t.stage, t.reason, t.restarts, t.approvals, u.restarting, u.stage, u.reason, t.store, u.store⟩
  case third =>
    intro hl h2
    refine ⟨_, exec_hwdRestartReq hup r, ?_⟩
    rw [trustedRestart_seedling (restartable_of_wardenUp hup hf) hl h2]
    exact enterSeedling_latches .restartRate s
  case resumed =>
    refine ⟨_, exec_standbyResumed hf, ?_⟩
    obtain ⟨hact, hsb, hfo, hhs, happ, -, -⟩ := takeOver_frame s
    obtain ⟨hst, hcu, -, -⟩ := kept_iff.1 (resumed_kept (resumeWarden (measureHistory (takeOver s))))
    rw [hst, hcu, resumeWarden_start, resumeWarden_cust]
    refine ⟨hact, hsb, hfo, hhs, happ, takeOver_probation, fun hk hfin mb q _ hq => standbyResumed_answers hk hfin hq⟩
  case late =>
    intro hn hfat hst hp hrate
    have hs : Restartable { s with start.failingOver := false } := ⟨hn, hfat, hst, hp⟩
    have t := beginRestart_restarted 0 { s with start.failingOver := false }
    refine ⟨_, exec_standbyResumeTimeout hf, ?_⟩
    rw [trustedRestart_begins hs hrate]
    exact ⟨t.restarting, t.stage, t.failingOver, t.store⟩
  case stage =>
    intro hi hw
    refine ⟨_, exec_restartStageDone hr hi hw, restartStageWork_stage _ _, ?_, fun h => ?_⟩
    · by_cases h : s.start.stage = 0x26
      · rw [(restartStageWork_last (by omega) _).1]
        exact iff_of_false Bool.false_ne_true (not_not_intro h)
      · rw [restartStageWork_restarting (by omega)]
        exact iff_of_true hr h
    · exact (restartStageWork_last (by omega) _).2
  case image => exact fun h hi => exec_restartStageDone_held hr (.inl ⟨h, hi⟩)
  case multiplier => exact fun h hw => exec_restartStageDone_held hr (.inr ⟨h, hw⟩)
  case failed =>
    intro hl hp hsd hfat hpw
    have t := beginRestart_restarted s.start.restartReason (restartFailed s)
    refine ⟨_, exec_restartTimeout hr hl hsd, ?_⟩
    rw [trustedRestart_begins (restartFailed_restartable hfat (by omega) hpw) (restartFailed_rate hp)]
    refine ⟨?_, t.restarting, t.stage, ?_, t.store.trans (restartFailed_store s)⟩
    · rw [t.lastStage, restartFailed_start]
    · rw [t.restarts, restartFailed_start]

end Sys2Proof.Machine
end

section
/-! Cold start (O10): what the Clearcut procedure and the Lookout's responses leave of the life cycle, what each stage does, how a start fails and what a cold start keeps, and the statement they make up. -/

namespace Sys2Proof.Machine

/-! ### The life cycle under the ends of work -/

theorem lc_of_beside {s t : State} (h : Beside s t) : t.lc = s.lc := congrArg (fun p => p.2.2.2.2.2.1) h

@[simp] theorem logPut_lc (r : LogRec) (s : State) : (logPut r s).lc = s.lc := lc_of_beside logPut_beside
@[simp] theorem vecAllPfs_lc (v : Nat) (s : State) : (vecAllPfs v s).lc = s.lc := lc_of_beside vecAllPfs_beside

/-- The Heartwood's draw changes its own feed only. -/
theorem takeHeart_only (n : Nat) (s : State) : (takeHeart n s).2 = { s with units.heartFeed := (takeHeart n s).2.units.heartFeed } := by
  unfold takeHeart
  dsimp only
  split <;> rfl

@[simp] theorem takeHeart_lc (n : Nat) (s : State) : (takeHeart n s).2.lc = s.lc := by rw [takeHeart_only]
theorem takeHeart_vault (n : Nat) (s : State) : (takeHeart n s).2.vault = s.vault := by rw [takeHeart_only]

/-! Contexts that end -/

@[simp] theorem meterJob_lc (x : Ctx) (w : Nat) (s : State) : (meterJob x w s).lc = s.lc := by
  unfold meterJob
  dsimp only
  repeat' split
  all_goals rfl

@[simp] theorem countPorts_lc (g a h : Nat) (s : State) : (countPorts g a h s).lc = s.lc := by
  unfold countPorts countChecked
  dsimp only
  split <;> rfl

@[simp] theorem countCut_lc (x : Ctx) (s : State) : (countCut x s).lc = s.lc := by
  unfold countCut
  split
  · rfl
  · split
    · rfl
    · exact countPorts_lc _ _ _ _

@[simp] theorem cutShort_lc (x : Ctx) (s : State) : (cutShort x s).2.lc = s.lc := by
  unfold cutShort
  split <;> rfl

@[simp] theorem earlyOut_lc (x : Ctx) (s : State) : (earlyOut x s).2.lc = s.lc := by
  unfold earlyOut
  dsimp only
  repeat' split
  all_goals rfl

@[simp] theorem settle_lc (c : Nat) (o : CtxOutcome) (s : State) : (settle c o s).lc = s.lc := by
  unfold settle
  split
  · rfl
  · exact (meterJob_lc _ _ _).trans (countCut_lc _ s)

@[simp] theorem abort_lc (c st : Nat) (s : State) : (abort c st s).lc = s.lc := by
  unfold abort
  split
  · rfl
  · rename_i x _
    exact (settle_lc _ _ _).trans ((earlyOut_lc _ _).trans (cutShort_lc x s))

@[simp] theorem abortWhere_lc (p : Ctx → Bool) (st : Nat) (s : State) : (abortWhere p st s).lc = s.lc :=
  foldl_keeps (fun s (q : Nat × Ctx) => abort_lc q.1 st s) _ s

@[simp] theorem voidCtx_lc (c : Nat) (s : State) : (voidCtx c s).lc = s.lc := by
  unfold voidCtx
  split
  · rfl
  · rename_i x _
    exact (meterJob_lc _ _ _).trans ((countCut_lc _ _).trans ((earlyOut_lc _ _).trans (cutShort_lc x s)))

@[simp] theorem voidWhere_lc (p : Ctx → Bool) (s : State) : (voidWhere p s).lc = s.lc :=
  foldl_keeps (fun s (q : Nat × Ctx) => voidCtx_lc q.1 s) _ s

/-! Cores, engines and multipliers -/

@[simp] theorem cancelCall_lc (core i : Nat) (s : State) : (cancelCall core i s).lc = s.lc := by
  unfold cancelCall
  dsimp only
  split <;> rfl

@[simp] theorem cancelCalls_lc (core : Nat) (s : State) : (cancelCalls core s).lc = s.lc :=
  foldl_keeps (fun s i => cancelCall_lc core i s) _ s

@[simp] theorem cancelPort_lc (st m : Nat) (s : State) : (cancelPort st m s).lc = s.lc := by
  unfold cancelPort
  dsimp only
  split <;> rfl

@[simp] theorem beginScrub_lc (core : Nat) (s : State) : (beginScrub core s).lc = s.lc :=
  (cancelPort_lc _ _ _).trans (cancelCalls_lc core s)

@[simp] theorem endApplets_lc (core : Nat) (st : AppState) (s : State) : (endApplets core st s).lc = s.lc := rfl

@[simp] theorem orderedScrub_lc (core : Nat) (s : State) : (orderedScrub core s).lc = s.lc := by simp [orderedScrub]

@[simp] theorem dropClaim_lc (core : Nat) (s : State) : (dropClaim core s).lc = s.lc := by
  unfold dropClaim
  dsimp only
  repeat' split
  all_goals rfl

@[simp] theorem endScrub_lc (core : Nat) (s : State) : (endScrub core s).lc = s.lc := by
  have h := dropClaim_lc core s
  unfold endScrub
  generalize dropClaim core s = u at h
  dsimp only
  split <;> exact h

@[simp] theorem orderedDone_lc (st : Nat) (s : State) : (orderedDone st s).lc = s.lc := by
  unfold orderedDone
  split
  · exact foldl_keeps (fun s c => endScrub_lc c s) _ s
  · rfl

@[simp] theorem flushWma_lc (v u : Nat) (s : State) : (flushWma v u s).lc = s.lc := by
  unfold flushWma
  dsimp only
  split
  · rfl
  · exact foldl_keeps (f := State.lc) (fun s (c : WmaCmd) => show (wmaEnds c.core v s).lc = s.lc from rfl) _ s

@[simp] theorem scrubAll_lc (s : State) : (scrubAll s).lc = s.lc :=
  (foldl_keeps (fun s st => orderedDone_lc st s) _ _).trans
    ((foldl_keeps (fun s c => orderedScrub_lc c s) _ _).trans (foldl_keeps (fun s u => flushWma_lc 2 u s) _ s))

@[simp] theorem wipeEngines_lc (s : State) : (wipeEngines s).lc = s.lc :=
  foldl_keeps (f := State.lc) (fun s g => show (wipeDge g s).lc = s.lc from rfl) _ _

/-! Queues, rings and SAs -/

@[simp] theorem queueError_lc (k : Nat) (c : QCause) (s : State) : (queueError k c s).lc = s.lc := by
  unfold queueError
  repeat' split
  · rfl
  · rfl
  · exact raiseEvent_lc _ _ _

@[simp] theorem ringError_lc (k : Nat) (c : QCause) (s : State) : (ringError k c s).lc = s.lc := by
  unfold ringError
  repeat' split
  · rfl
  · rfl
  · exact raiseEvent_lc _ _ _

@[simp] theorem admitEntry_lc (k no rem : Nat) (e : Bytes) (s : State) : (admitEntry k no rem e s).lc = s.lc := by
  unfold admitEntry
  dsimp only
  split
  · split <;> rfl
  · split
    · split
      · exact settle_lc _ _ _
      · rfl
    · rfl

@[simp] theorem admitAll_lc (k n : Nat) (s : State) : (admitAll k n s).lc = s.lc := by
  induction n generalizing s with
  | zero => rfl
  | succ n ih =>
    unfold admitAll
    repeat' split
    · rfl
    · rfl
    · rfl
    · exact (ih _).trans (admitEntry_lc _ _ _ _ _)

@[simp] theorem admitQ_lc (k : Nat) (s : State) : (admitQ k s).lc = s.lc := by
  unfold admitQ
  split
  · rfl
  · exact admitAll_lc _ _ s

@[simp] theorem queuesModeEnd_lc (s : State) : (queuesModeEnd s).lc = s.lc :=
  (foldl_keeps (fun s (p : Nat × Ring) => ringError_lc p.1 _ s) _ _).trans
    (foldl_keeps (fun s (p : Nat × Queue) => (queueError_lc p.1 _ _).trans (admitQ_lc p.1 s)) _ s)

@[simp] theorem ringEvent_lc (k p : Nat) (e : Bytes) (s : State) : (ringEvent k p e s).1.lc = s.lc := by
  unfold ringEvent
  dsimp only
  repeat' split
  all_goals simp

@[simp] theorem secyEvent_lc (port kind sa pn : Nat) (s : State) : (secyEvent port kind sa pn s).lc = s.lc := by
  have hr : ∀ k (c : Prop) [Decidable c] e, (if c then ringEvent k 2 e s else (s, false)).1.lc = s.lc := by
    intro k c _ e
    split <;> simp
  unfold secyEvent
  split
  · rfl
  · dsimp only
    split
    · rfl
    · split <;> rename_i h <;> exact (congrArg (fun x => x.1.lc) h).symm.trans (hr _ _ _)

@[simp] theorem removeSa_lc (sa : Nat) (s : State) : (removeSa sa s).lc = s.lc := by
  have hd : (dropSa sa s).lc = s.lc := by
    unfold dropSa unpin
    dsimp only
    repeat' split
    all_goals rfl
  unfold removeSa
  split
  · rfl
  · split
    · exact hd
    · rfl

@[simp] theorem ethSettle_lc (s : State) : (ethSettle s).lc = s.lc := by
  refine foldl_keeps (fun s p => ?_) _ s
  dsimp only
  split
  · exact finishMb_lc _ _ _
  · rfl

@[simp] theorem clearSas_lc (s : State) : (clearSas s).lc = s.lc :=
  (ethSettle_lc _).trans ((foldl_keeps (f := State.lc) (fun s (p : Nat × Sa) => (removeSa_lc p.1 _).trans (secyEvent_lc _ _ _ _ s)) _ _).trans
    (foldl_keeps (f := State.lc) (fun s (f : Frame) => show (portDrop (framePort f) 2 s).lc = s.lc from rfl) _ _))

/-! Answers that waited for the Warden -/

@[simp] theorem ideKm_lc (link : Nat) (m mask : Bytes) (s : State) : (ideKm link m mask s).lc = s.lc := by
  unfold ideKm
  dsimp only
  repeat' split
  all_goals rfl

@[simp] theorem doeServe_lc (p : Nat) (r : DoeRequest) (s : State) : (doeServe p r s).lc = s.lc := by
  unfold doeServe
  split
  · rfl
  · have h := takeHeart_lc 88 s
    split <;> rename_i e <;> rw [e] at h
    · exact h
    · refine Eq.trans ?_ h
      dsimp only
      split
      · exact ideKm_lc _ _ _ _
      · rfl

@[simp] theorem mctpSpdm_lc (m : Bytes) (s : State) : (mctpSpdm m s).lc = s.lc := by
  have h := takeHeart_lc 48 s
  unfold mctpSpdm
  dsimp only
  split <;> rename_i e <;> rw [e] at h <;> exact h

@[simp] theorem doeResume_lc (s : State) : (doeResume s).lc = s.lc :=
  (foldl_keeps (fun s m => mctpSpdm_lc m s) _ _).trans
    (foldl_keeps (f := State.lc) (fun s (x : Nat × DoeRequest) => doeServe_lc x.1 x.2 s) _ { s with host.doeWait := [] })

/-! ### The life cycle under Clearcut and the Lookout -/

@[simp] theorem mapBanks_lc (f : Bank → Bank) (s : State) : (mapBanks f s).lc = s.lc := rfl
@[simp] theorem clearLinkKeys_lc (s : State) : (clearLinkKeys s).lc = s.lc := rfl

/-- A Lookout CLEAR clears the debug enables and nothing else of the life cycle (R487, R488). -/
theorem orderClear_lc (s : State) : (orderClear s).lc = (clearEnables s).lc := by simp [orderClear]

theorem clearEnables_decoded (s : State) : (clearEnables s).lc.decoded = s.lc.decoded := rfl

theorem stopWork_lc (s : State) : (stopWork s).lc = (clearEnables s).lc := by
  have hv : (voidWhere (fun _ => true) (clearEnables s)).lc = (clearEnables s).lc := voidWhere_lc _ _
  have ha : ∀ (t : State) (c : Nat), (endApplets c .exited (setCore c { getCore c t with state := .idle } t)).lc = t.lc := fun _ _ => rfl
  unfold stopWork
  dsimp only
  rw [foldl_keeps (f := State.lc) ha, foldl_keeps (f := State.lc) (fun t c => cancelCalls_lc c t), hv]

theorem stopHost_lc (s : State) : (stopHost s).lc = s.lc := by
  refine Eq.trans ?_ (queuesModeEnd_lc s)
  unfold stopHost
  dsimp only
  split <;> rfl

@[simp] theorem measureSet_lc (idx : Nat) (text : Bytes) (s : State) : (measureSet idx text s).lc = s.lc := rfl
theorem seedlingRuns_lc (s : State) : (seedlingRuns s).lc = s.lc := rfl

/-- A device stop clears the debug enables and nothing else of the life cycle (R37, R487). -/
theorem deviceStop_lc (s : State) : (deviceStop s).lc = (clearEnables s).lc := by
  rw [deviceStop_eq, doeResume_lc, measureSet_lc, seedlingRuns_lc, stopHost_lc]
  dsimp only
  rw [stopWork_lc, endUpdate_only]
  rfl

@[simp] theorem clearcutRun_decoded (n : Nat) (s : State) : (clearcutRun n s).lc.decoded = s.lc.decoded := by
  unfold clearcutRun
  dsimp only
  rw [logCode_lc, deviceStop_lc, clearEnables_decoded, orderClear_lc, clearEnables_decoded]

@[simp] theorem wakePend_lc (code : Nat) (s : State) : (wakePend code s).lc = s.lc := by
  unfold wakePend
  split <;> rfl

@[simp] theorem lkoLine_lc (n : Nat) (s : State) : (lkoLine n s).lc = s.lc := by
  unfold lkoLine
  split <;> rfl

/-- No response of the Lookout changes the state decoded (R500). -/
@[simp] theorem lkoRespond_decoded (n resp hold : Nat) (s : State) : (lkoRespond n resp hold s).lc.decoded = s.lc.decoded := by
  have h : ∀ c : Prop, [Decidable c] → (wakePend 3 (if c then notifyApplets .tamper (n + 2 ^ 24) (vecAllPfs 11 s) else s)).lc = s.lc := by
    intro c _
    split <;> simp
  unfold lkoRespond
  dsimp only
  rw [← h (1 ≤ resp)]
  generalize wakePend 3 _ = u
  split
  · rfl
  · rw [orderClear_lc, clearEnables_decoded]
  · exact clearcutRun_decoded n u
  · rfl
  · rfl

@[simp] theorem lkoTrip_decoded (n : Nat) (s : State) : (lkoTrip n s).lc.decoded = s.lc.decoded := by
  unfold lkoTrip
  simp [setLkoSrc]

@[simp] theorem lkoEvent_decoded (n t : Nat) (s : State) : (lkoEvent n t s).lc.decoded = s.lc.decoded := by
  unfold lkoEvent
  dsimp only
  repeat' split
  · rfl
  · exact lkoTrip_decoded n _
  · rfl

/-! ### Stage LC -/

@[simp] theorem latchedTrip_decoded (k : Nat) (s : State) : (latchedTrip k s).lc.decoded = s.lc.decoded := by
  unfold latchedTrip
  dsimp only
  repeat' split
  · rfl
  · simp [setLkoSrc]
  · simp [setLkoSrc]

theorem latchedTrips_decoded (ks : List Nat) (s : State) : (ks.foldl (fun s k => latchedTrip k s) s).lc.decoded = s.lc.decoded :=
  foldl_keeps (f := fun s => s.lc.decoded) (fun s k => latchedTrip_decoded k s) ks s

@[simp] theorem backupLoss_decoded (s : State) : (backupLoss s).lc.decoded = s.lc.decoded := by
  unfold backupLoss
  split
  · rfl
  · exact lkoEvent_decoded _ _ _

@[simp] theorem lcWork_decoded (s : State) : (lcWork s).lc.decoded = s.lc.decoded := by
  unfold lcWork
  dsimp only
  repeat' split
  all_goals rfl

@[simp] theorem clearcutResume_lc (s : State) : (clearcutResume s).lc = s.lc := by
  unfold clearcutResume
  split <;> rfl

/-- SVOUT starts where the flash enables it (R444). -/
def svoutStarts (s : State) : State := if s.lko.svEnabled then { s with lko.svout := .softstart } else s

/-- Index 3 is set, and it is decided whether the Seedling firmware runs (R444, R447). -/
def firmwareDecided (s : State) : State :=
  let s := measureSet 3 (leBytes 1 (lcCode s.lc.decoded) ++ leBytes 1 (b2n s.start.clearcutLatch) ++ leBytes 1 (b2n s.start.seedling.isSome)) s
  if s.lc.decoded = .invalid || s.start.clearcutLatch || s.start.seedling.isSome then { s with start.seedlingFw := true, start.slot := 2 } else s

/-- The latches of the backup domain and a Clearcut that was interrupted are carried out (R505, R506, R512). -/
def latchesApplied (s : State) : State :=
  { (backupLoss ((List.range 6).foldl (fun s k => latchedTrip k s) (clearcutResume s))) with lko.copyValid := true }

/-- The state is decoded and its wipes are made (R471, R480). -/
def decodedAndWiped (s : State) : State := lcWork { s with lc.decoded := lcDecode s.lc }

theorem stageLc_eq (s : State) :
    stageLc s = if (decodedAndWiped s).lc.decoded = .scrapped then firstMode { decodedAndWiped s with start.starting := false }
      else firmwareDecided (svoutStarts (latchesApplied (decodedAndWiped s))) := by
  unfold stageLc firmwareDecided svoutStarts latchesApplied decodedAndWiped
  with_reducible rfl

theorem decodedAndWiped_decoded (s : State) : (decodedAndWiped s).lc.decoded = lcDecode s.lc := lcWork_decoded _

theorem latchesApplied_decoded (s : State) : (latchesApplied s).lc.decoded = s.lc.decoded := by
  unfold latchesApplied
  dsimp only
  rw [backupLoss_decoded, latchedTrips_decoded, clearcutResume_lc]

theorem svoutStarts_lc (s : State) : (svoutStarts s).lc = s.lc := by
  unfold svoutStarts
  split <;> rfl

theorem firmwareDecided_lc (s : State) : (firmwareDecided s).lc = s.lc := by
  unfold firmwareDecided
  dsimp only
  split <;> rfl

/-- Stage LC leaves the state that the copies and the journal decode to (R444, R471). -/
theorem stageLc_decoded (s : State) : (stageLc s).lc.decoded = lcDecode s.lc := by
  rw [stageLc_eq]
  split
  · exact decodedAndWiped_decoded s
  · rw [firmwareDecided_lc, svoutStarts_lc, latchesApplied_decoded, decodedAndWiped_decoded]

/-- A part that decodes as SCRAPPED has chosen its mode (R444). -/
theorem stageLc_scrapped {s : State} (h : lcDecode s.lc = .scrapped) : (stageLc s).mode.mode = 12 ∧ (stageLc s).mode.chosen = true := by
  have hd : (decodedAndWiped s).lc.decoded = .scrapped := (decodedAndWiped_decoded s).trans h
  rw [stageLc_eq, if_pos hd]
  simp [firstMode, chooseMode, lcIs, hd]

/-! ### The other stages -/

/-- A substitution of the log changes lanes and cores only. -/
theorem applySwap_start (s : State) (r : LogRec) : (applySwap s r).start = s.start := by
  unfold applySwap
  dsimp only
  split <;> rfl

/-- A retirement of the log changes units and pages only. -/
theorem applyRec_start (s : State) (r : LogRec) : (applyRec s r).start = s.start := by
  unfold applyRec
  dsimp only
  repeat' split
  all_goals rfl

theorem stageClocks_start (s : State) : (stageClocks s).start = s.start := by
  unfold stageClocks
  dsimp only
  rw [serviceStands_start, serviceStands_start, serviceStands_start, foldl_keeps (f := State.start) applyRec_start,
    foldl_keeps (f := State.start) applySwap_start]

/-- Stage MAP takes the map that the copies give, locked, and leaves the stage (R418). -/
theorem stageMap_takes (s : State) :
    (stageMap s).start.stage = s.start.stage ∧ (stageMap s).world.map = (chooseMap s.world).1 ∧
    (stageMap s).world.source = (chooseMap s.world).2.1 ∧ (stageMap s).world.locked = true := by
  unfold stageMap
  obtain ⟨m, src, inA⟩ := chooseMap s.world
  dsimp only
  split
  · rw [logCode_start, logCode_world]
    exact ⟨rfl, rfl, rfl, rfl⟩
  · exact ⟨rfl, rfl, rfl, rfl⟩

theorem pfGrants_start (s : State) : (pfGrants s).start = s.start :=
  foldl_keeps (f := State.start) (fun s p => show (setFn (.pf p) _ (setAlloc (.pf p) _ s)).start = s.start from rfl) _ s

theorem linkWeights_start (s : State) : (linkWeights s).start = s.start := by
  refine foldl_keeps (f := State.start) (fun t l => ?_) _ s
  dsimp only
  split <;> rfl

theorem recomputeWeights_start (s : State) : (recomputeWeights s).start = s.start := by
  refine (foldl_keeps (f := State.start) (fun t a => ?_) _ _).trans (linkWeights_start s)
  dsimp only
  split
  · rfl
  · exact raiseEvent_start _ _ _

theorem capFirst_start (s : State) : (capFirst s).start = s.start := rfl

/-- What the start holds besides the measurements. -/
def unmeasured (s : State) : Start := { s.start with meas := [] }

@[simp] theorem unmeasured_measureSet (idx : Nat) (text : Bytes) (s : State) : unmeasured (measureSet idx text s) = unmeasured s := rfl
@[simp] theorem unmeasured_measurePut (idx : Nat) (d : Bytes) (s : State) : unmeasured (measurePut idx d s) = unmeasured s := rfl

/-- The primary pair runs, the other loads unless the Seedling firmware runs alone, and the store loads what was committed (R444, R450). -/
def pairStarts (s : State) : State :=
  { s with
    ident.wdnLevel := if s.start.seedlingFw then 0x0402 else (slotInfo s.start.slot s).wdnLevel
    ident.svcLevel := if s.start.seedlingFw then 0 else (slotInfo s.start.slot s).svcLevel
    start.active := 0, start.standby := if s.start.seedlingFw then .absent else .loading, start.heartbeatAt := s.us
    store.state := if s.store.commitNo = 0 then .ready else .loading }

/-- The indexes of the images, or of the Seedling firmware alone, are set (R447). -/
def measureFirmware (seed : Bool) (i : ImageInfo) (s : State) : State :=
  let s := measureSet 2 romImage (measureSet 1 (leBytes 8 (Config.prim .deviceId [[3]])) s)
  let s := measureSet 5 (calImage s) s
  if seed then measureSet 6 romImage s
  else measurePut 8 i.monDigest (measurePut 7 i.svcDigest (measurePut 6 i.wdnDigest s))

theorem stageWarden_eq (s : State) :
    stageWarden s = recomputeWeights (capFirst (pfGrants (measureConfig
      (measureFirmware s.start.seedlingFw (slotInfo s.start.slot s) (pairStarts s))))) := by
  unfold stageWarden measureFirmware pairStarts
  with_reducible rfl

@[simp] theorem unmeasured_measureFirmware (seed : Bool) (i : ImageInfo) (s : State) : unmeasured (measureFirmware seed i s) = unmeasured s := by
  unfold measureFirmware
  dsimp only
  split <;> simp

/-- Of the start, stage WARDEN changes the pairs and the measurements only. -/
theorem stageWarden_unmeasured (s : State) : unmeasured (stageWarden s) = unmeasured (pairStarts s) := by
  have hg (t : State) : unmeasured (recomputeWeights (capFirst (pfGrants t))) = unmeasured t := by
    rw [unmeasured, recomputeWeights_start, capFirst_start, pfGrants_start, unmeasured]
  rw [stageWarden_eq, hg, measureConfig, unmeasured_measureSet, unmeasured_measureFirmware]

/-- Stage WARDEN: pair 0 runs, the other loads unless the Seedling firmware runs alone, and the stage is left (R444, R450). -/
theorem stageWarden_starts (s : State) :
    (stageWarden s).start.stage = s.start.stage ∧ (stageWarden s).start.active = 0 ∧
    (stageWarden s).start.standby = (if s.start.seedlingFw then .absent else .loading) ∧ (stageWarden s).start.heartbeatAt = s.us := by
  have h := stageWarden_unmeasured s
  exact ⟨(congrArg Start.stage h :), (congrArg Start.active h :), (congrArg Start.standby h :), (congrArg Start.heartbeatAt h :)⟩

theorem countStartFail_startFails (s : State) :
    (countStartFail s).start.startFails = if lcDecode s.lc = .production then s.start.startFails + 1 else s.start.startFails := by
  unfold countStartFail
  split <;> simp_all

/-- A failed start that is counted changes the count and the Seedling latch only. -/
theorem countStartFail_only (s : State) :
    countStartFail s = { s with start.startFails := (countStartFail s).start.startFails, start.seedling := (countStartFail s).start.seedling } := by
  unfold countStartFail
  split <;> rfl

/-- A mode once chosen changes the count and the Seedling latch only (R34). -/
theorem modeReached_only (s : State) :
    modeReached s = { s with start.startFails := (modeReached s).start.startFails, start.seedling := (modeReached s).start.seedling } := by
  unfold modeReached
  split
  · exact countStartFail_only s
  · unfold startSucceeded
    split <;> rfl

/-- A start that ends in a working mode returns the count of failures to 0; one that ends in QUARANTINE is counted in PRODUCTION, unless the Seedling firmware runs (R34, R444). -/
theorem modeReached_startFails (s : State) :
    (modeReached s).start.startFails =
      if [4, 5, 6].contains s.mode.mode then 0
      else if s.mode.mode = 8 ∧ s.start.seedlingFw = false ∧ lcDecode s.lc = .production then s.start.startFails + 1 else s.start.startFails := by
  unfold modeReached
  by_cases h : (s.mode.mode = 8 ∧ s.start.seedlingFw = false)
  · obtain ⟨hm, hf⟩ := h
    rw [if_pos (by simp [hm, hf]), countStartFail_startFails]
    simp [hm, hf]
  · have hn : ¬ (s.mode.mode = 8 ∧ s.start.seedlingFw = false ∧ lcDecode s.lc = .production) := fun ⟨hm, hf, _⟩ => h ⟨hm, hf⟩
    rw [if_neg (by simpa using h), if_neg hn]
    unfold startSucceeded
    split <;> rfl

/-- The mode does not depend on the stage or on whether the start is over. -/
theorem chooseMode_stage (n : Nat) (b : Bool) (s : State) : chooseMode { s with start.stage := n, start.starting := b } = chooseMode s := rfl

/-- No stage but LC changes the stage that is shown by its work. -/
theorem stageWork_stage {n : Nat} (hn : n ≠ 2) (d : Bytes) (s : State) : (stageWork n true d s).start.stage = s.start.stage := by
  unfold stageWork
  split
  · rfl
  · exact absurd rfl hn
  · rfl
  · rfl
  · exact congrArg Start.stage (stageClocks_start s)
  · rfl
  · exact (stageMap_takes s).1
  · exact (stageWarden_starts s).1
  · rfl
  · rw [modeReached_only]; rfl
  · rfl

/-! ### A stage that completes, and one that does not -/

/-- A cold start is under way. -/
structure ColdStarting (s : State) : Prop where
  starting : s.start.starting = true
  running : s.start.halted = false
  released : s.pwr.resetLow = false
  powered : s.pwr.state ≠ .backup

theorem stageBits_other {n : Nat} (hn : ¬ (n = 3 ∨ n = 6)) (s : State) : stageBits n s = (some [], s) := if_neg hn

/-- A stage that draws no bits does its work on the state as it is. -/
theorem eq_of_stageBits {n : Nat} {d : Bytes} {s u : State} (h : stageBits n s = (some d, u)) (hn : ¬ (n = 3 ∨ n = 6)) : u = s := by
  rw [stageBits_other hn] at h
  exact (Prod.mk.inj h).2.symm

/-- A stage has the bits it draws where the Heartwood has them. -/
theorem stageBits_drawn {n : Nat} {s : State} (h : n = 3 ∨ n = 6 → (takeHeart 32 s).1.isSome = true) :
    ∃ d u, stageBits n s = (some d, u) := by
  by_cases hn : n = 3 ∨ n = 6
  · obtain ⟨d, hd⟩ := Option.isSome_iff_exists.1 (h hn)
    exact ⟨d, _, (if_pos hn).trans (Prod.ext hd rfl)⟩
  · exact ⟨_, _, stageBits_other hn s⟩

theorem stageNoise_iff {n : Nat} {s : State} :
    stageNoise n s = true ↔ (n = 3 → delivers earlyBank s = true) ∧ (n = 5 → entropyOk s = true) := by
  unfold stageNoise
  split
  · simp
  · simp
  · simp_all

section Stages
variable {s : State} (h : ColdStarting s)
include h

/-- A stage that completes shows its code and does its work (R445). -/
theorem exec_startStageDone {n : Nat} {d : Bytes} {u : State} (hn : nextStage s = n) (h8 : n ≠ 8) (hz : stageNoise n s = true)
    (hb : stageBits n s = (some d, u)) : exec (.startStageDone true) s = .next (stageWork n true d { u with start.stage := n }) := by
  obtain ⟨hs, hh, hr, hp⟩ := h
  change execStartStageDone true s = _
  simp [execStartStageDone, hs, hh, hr, hp, hn, h8, hz, hb]

/-- Without the noise it needs a stage does not complete (R215, R445). -/
theorem exec_startStageDone_held (h8 : nextStage s ≠ 8) (hz : stageNoise (nextStage s) s = false) : exec (.startStageDone true) s = .next s := by
  obtain ⟨hs, hh, hr, hp⟩ := h
  change execStartStageDone true s = _
  simp [execStartStageDone, hs, hh, hr, hp, h8, hz]

/-- Stage IMAGES takes the slot that passes (R443). -/
theorem exec_startStageDone_slot {t : State} (h8 : nextStage s = 8) (hi : stageImages s = some t) :
    exec (.startStageDone true) s = .next { t with start.stage := 8 } := by
  obtain ⟨hs, hh, hr, hp⟩ := h
  change execStartStageDone true s = _
  simp [execStartStageDone, hs, hh, hr, hp, h8, hi]

/-- With no slot that passes the start fails (R443, R446). -/
theorem exec_startStageDone_noSlot (h8 : nextStage s = 8) (hi : stageImages s = none) : exec (.startStageDone true) s = .next (startFail s) := by
  obtain ⟨hs, hh, hr, hp⟩ := h
  change execStartStageDone true s = _
  simp [execStartStageDone, hs, hh, hr, hp, h8, hi]

/-- A failed stage fails the start, but for stage ROM and the stages whose units have a substitute (R446). -/
theorem exec_startStageDone_fails {n : Nat} (hn : nextStage s = n) (h2 : 2 ≤ n) (h10 : n ≠ 10) (h11 : n ≠ 11) (h12 : n ≠ 12) :
    exec (.startStageDone false) s = .next (startFail s) := by
  obtain ⟨hs, hh, hr, hp⟩ := h
  have h1 : n ≠ 1 := by omega
  change execStartStageDone false s = _
  simp [execStartStageDone, hs, hh, hr, hp, hn, h1, h10, h11, h12]

/-- A failure of stage ROM halts the device (R446). -/
theorem exec_startStageDone_rom (h0 : s.start.stage = 0) : exec (.startStageDone false) s = .next { s with start.halted := true } := by
  obtain ⟨hs, hh, hr, hp⟩ := h
  have h1 : nextStage s = 1 := by simp [nextStage, h0]
  change execStartStageDone false s = _
  simp [execStartStageDone, hs, hh, hr, hp, h1]

/-- A stage that exceeds its time halts the device in stage ROM and fails the start after it (R446). -/
theorem exec_startStageTimeout :
    exec .startStageTimeout s = .next (if s.start.stage = 0 then { s with start.halted := true } else startFail s) := by
  obtain ⟨hs, hh, hr, hp⟩ := h
  change execStartStageTimeout s = _
  simp [execStartStageTimeout, hs, hh, hr, hp]

end Stages

/-! Stage IMAGES -/

theorem stageImages_preferred {s : State} (hf : s.start.seedlingFw = false) (hp : slotPasses s.start.preferred s = true) :
    stageImages s = some { s with
      start.slot := s.start.preferred, start.runW := s.start.preferred, start.runS := s.start.preferred, start.runM := s.start.preferred } := by
  simp [stageImages, hf, hp]

/-- Where the preferred slot fails and the other passes, the other is taken, as a fallback (R443). -/
theorem stageImages_other {s : State} (hf : s.start.seedlingFw = false) (hp : slotPasses s.start.preferred s = false)
    (ho : slotPasses (1 - s.start.preferred) s = true) :
    ∃ t, stageImages s = some t ∧ t.start.slot = 1 - s.start.preferred ∧ t.start.fallback = true := by
  simp [stageImages, hf, hp, ho]

theorem stageImages_none {s : State} (hf : s.start.seedlingFw = false) (hp : slotPasses s.start.preferred s = false)
    (ho : slotPasses (1 - s.start.preferred) s = false) : stageImages s = none := by
  simp [stageImages, hf, hp, ho]

/-! ### A new cold start -/

/-- A write that a reset stops leaves the start alone. -/
@[simp] theorem lcTear_start (s : State) : (lcTear s).start = s.start := by
  have he : ∀ v r x t, (lcTearEntry v r x t).start = t.start := by
    intro v r x t
    unfold lcTearEntry
    split
    · rfl
    · rfl
    · unfold lcStep
      split <;> rfl
  unfold lcTear
  split
  · rfl
  · split
    · rfl
    · split
      · rfl
      · exact he _ _ _ _
      · exact he _ _ _ _

@[simp] theorem lcTear_commit (s : State) : (lcTear s).commit = s.commit :=
  congrArg (fun p => p.2.2) (lcTear_same : Same s (lcTear s))

/-- A cold start begins at stage 0 with its cause, and keeps the Heartwood flash's slots and count of failures and the COMMIT partition (R446, R576). -/
theorem coldReset_begins (c : Nat) (s : State) :
    (coldReset c s).pwr.cause = c ∧ (coldReset c s).start.stage = 0 ∧ (coldReset c s).start.lastStage = s.start.lastStage ∧
    (coldReset c s).start.startFails = s.start.startFails ∧ (coldReset c s).commit = s.commit :=
  ⟨rfl, rfl, (congrArg Start.lastStage (lcTear_start s) :), (congrArg Start.startFails (lcTear_start s) :), lcTear_commit s⟩

/-- A cold start begins unless RESET_N or a FATAL fault holds it off (R38, R576). -/
theorem coldStart_eq_coldReset {c : Nat} {s : State} (hr : s.pwr.resetLow = false) (hf : s.fbk.fatal = false ∨ c = 2) :
    coldStart c s = coldReset c s := by
  obtain hf | hf := hf <;> simp [coldStart, hr, hf]

/-- A failed start begins anew with cause 5 and LAST_STAGE, and is counted in PRODUCTION unless the Seedling firmware runs (R34, R444, R446). -/
structure StartFailed (s t : State) : Prop where
  cause : t.pwr.cause = 5
  lastStage : t.start.lastStage = s.start.stage
  stage : t.start.stage = 0
  commit : t.commit = s.commit
  startFails : t.start.startFails =
    if s.start.seedlingFw || lcDecode s.lc != .production then s.start.startFails else s.start.startFails + 1

/-- A start that fails is recorded with its stage. -/
def startFailRecorded (s : State) : State :=
  logCode 0x0102 0 [(0, 1, s.start.stage), (1, 1, 0)] { s with start.lastStage := s.start.stage }

/-- A start with the Seedling firmware is not counted (R444). -/
def startFailCounted (s : State) : State := if s.start.seedlingFw then s else countStartFail s

theorem startFail_eq (s : State) : startFail s = coldStart 5 (startFailCounted (startFailRecorded s)) := rfl

/-- Counting a failed start changes the count and the Seedling latch only. -/
theorem startFailCounted_only (s : State) :
    startFailCounted s = { s with start.startFails := (startFailCounted s).start.startFails, start.seedling := (startFailCounted s).start.seedling } := by
  unfold startFailCounted
  split
  · rfl
  · exact countStartFail_only s

theorem startFailCounted_startFails (s : State) :
    (startFailCounted s).start.startFails =
      if s.start.seedlingFw || lcDecode s.lc != .production then s.start.startFails else s.start.startFails + 1 := by
  unfold startFailCounted
  cases hf : s.start.seedlingFw
  · by_cases hl : lcDecode s.lc = .production <;> simp [countStartFail_startFails, hl]
  · simp

theorem startFail_failed {s : State} (hr : s.pwr.resetLow = false) (hf : s.fbk.fatal = false) : StartFailed s (startFail s) := by
  have hs : (startFailRecorded s).start = { s.start with lastStage := s.start.stage } := logCode_start _ _ _ _
  have hl : (startFailRecorded s).lc = s.lc := logCode_lc _ _ _ _
  have hc : (startFailRecorded s).commit = s.commit := logCode_commit _ _ _ _
  have hp : (startFailRecorded s).pwr = s.pwr := logCode_pwr _ _ _ _
  have hk : (startFailRecorded s).fbk = s.fbk := logCode_fbk _ _ _ _
  have hn := startFailCounted_startFails (startFailRecorded s)
  have ho := startFailCounted_only (startFailRecorded s)
  have hb : startFail s = coldReset 5 (startFailCounted (startFailRecorded s)) := by
    rw [startFail_eq, coldStart_eq_coldReset]
    · rw [ho]; exact (congrArg Power.resetLow hp).trans hr
    · rw [ho]; exact .inl ((congrArg Firebreak.fatal hk).trans hf)
  obtain ⟨hcause, hstage, hlast, hfails, hcommit⟩ := coldReset_begins 5 (startFailCounted (startFailRecorded s))
  rw [hb]
  refine ⟨hcause, hlast.trans ?_, hstage, hcommit.trans ?_, hfails.trans (hn.trans ?_)⟩
  · rw [ho]; exact congrArg Start.lastStage hs
  · rw [ho]; exact hc
  · rw [hs, hl]

/-! An ordered cold start -/

/-- The cold start of a life-cycle programming that stands alone completes its writes first (R46, R481). -/
theorem exec_coldStartAfterOrder_programming {r : LcRun} {s : State} (hl : s.lc.run = some r) (hr : s.pwr.resetLow = false) :
    exec .coldStartAfterOrder s = .next (if lcAlone r s then coldReset 4 (lcFinish s) else s) := by
  change execColdStartAfterOrder s = _
  simp [execColdStartAfterOrder, hl, hr]

theorem exec_coldStartAfterOrder {c : Nat} {s : State} (hl : s.lc.run = none) (ho : s.pwr.orderedCold = some c) (hr : s.pwr.resetLow = false)
    (hf : s.fbk.fatal = false ∨ c = 2) : exec .coldStartAfterOrder s = .next (coldReset c s) := by
  change execColdStartAfterOrder s = _
  simp only [execColdStartAfterOrder, hl, ho]
  rw [coldStart_eq_coldReset hr hf]

/-- With no life-cycle write in progress a reset tears none. -/
theorem coldReset_of_no_run {s : State} (h : s.lc.run = none) (c : Nat) : coldReset c s = coldFrom c s := by
  rw [coldReset, lcTear, h]

/-- The mode is chosen and the start is over (R445, R644). -/
def modeChosen (n : Nat) (s : State) : State := modeReached (firstMode { s with start.stage := n, start.starting := false })

theorem stageWork_last (d : Bytes) (n : Nat) (s : State) : stageWork 13 true d { s with start.stage := n } = modeChosen n s := rfl

/-- The last stage chooses the mode with no change recorded, and the start is over and, in QUARANTINE, counted (R34, R445, R644). -/
theorem modeChosen_ends (n : Nat) (s : State) :
    (modeChosen n s).mode = { mode := chooseMode s, prev := 0, count := 0, chosen := true } ∧
    (modeChosen n s).start.starting = false ∧ (modeChosen n s).log = s.log ∧
    (modeChosen n s).start.startFails =
      (if [4, 5, 6].contains (chooseMode s) then 0
        else if chooseMode s = 8 ∧ s.start.seedlingFw = false ∧ lcDecode s.lc = .production then s.start.startFails + 1 else s.start.startFails) := by
  have hm : (firstMode { s with start.stage := n, start.starting := false }).mode =
      { mode := chooseMode s, prev := 0, count := 0, chosen := true } := by
    rw [firstMode, chooseMode_stage]
  rw [modeChosen, modeReached_startFails, modeReached_only, hm]
  exact ⟨hm, rfl, rfl, rfl⟩

/-- The stages that draw bits hold them, and what they were drawn from (R56, R445). -/
theorem takeHeart_of_stageBits {n : Nat} {d : Bytes} {s u : State} (h : stageBits n s = (some d, u)) (hn : n = 3 ∨ n = 6) :
    takeHeart 32 s = (some d, u) := by
  rwa [stageBits, if_pos hn] at h

/-! ### The statement -/

/-- Settles O10: one lemma for each stage and for each way a start fails or is ordered. -/
theorem coldStartStages : Obligations.ColdStartStages := by
  unfold Obligations.ColdStartStages
  refine ⟨fun s hs hh hr hp => ?_, fun r s hl hr => ⟨fun ha => ⟨?_, rfl⟩, fun ha => ?_⟩, fun c s hl ho hr hf => ?ordered⟩
  · have h : ColdStarting s := ⟨hs, hh, hr, hp⟩
    refine ⟨fun n hn _ _ h8 h3 h5 hb => ?done, fun hn hd => ?quiet, fun hn he => ?starved,
      fun h8 hf => ⟨fun ht => ?slot, fun ht ho => ?other, fun ht ho hfat => ?none⟩,
      fun n hn h2 _ h10 h11 h12 hfat => ?failed, fun h0 => ⟨exec_startStageDone_rom h h0, ?_⟩, fun h0 hfat => ?late⟩
    case done =>
      obtain ⟨d, u, hbits⟩ := stageBits_drawn hb
      refine ⟨_, exec_startStageDone h hn h8 (stageNoise_iff.2 ⟨h3, h5⟩) hbits, fun h2 => stageWork_stage h2 _ _, ?straps, ?lc, ?root, ?hbm, ?same, ?map,
        ?warden, ?standby, ?mode⟩
      case straps =>
        rintro rfl
        cases eq_of_stageBits hbits (by decide)
        rfl
      case lc =>
        rintro rfl
        cases eq_of_stageBits hbits (by decide)
        exact ⟨stageLc_decoded _, fun hd => stageLc_scrapped (s := { s with start.stage := 2 }) hd⟩
      case root =>
        rintro rfl
        exact ⟨d, u, takeHeart_of_stageBits hbits (by decide), rfl, rfl⟩
      case hbm =>
        rintro rfl
        have ht := takeHeart_of_stageBits hbits (by decide)
        have hv : u.vault = s.vault := by rw [← takeHeart_vault 32 s, ht]
        exact ⟨d, u, ht, rfl, rfl, congrArg (fun v : Vault => xorBytes v.kek d) hv⟩
      case same =>
        rintro (rfl | rfl) <;> cases eq_of_stageBits hbits (by decide) <;> rfl
      case map =>
        rintro rfl
        cases eq_of_stageBits hbits (by decide)
        exact (stageMap_takes _).2
      case warden =>
        rintro rfl
        cases eq_of_stageBits hbits (by decide)
        exact (stageWarden_starts _).2
      case standby =>
        rintro rfl
        cases eq_of_stageBits hbits (by decide)
        rfl
      case mode =>
        rintro rfl
        cases eq_of_stageBits hbits (by decide)
        exact modeChosen_ends 13 s
    case quiet => exact exec_startStageDone_held h (by omega) (by rw [hn]; exact hd)
    case starved => exact exec_startStageDone_held h (by omega) (by rw [hn]; exact he)
    case slot => exact exec_startStageDone_slot h h8 (stageImages_preferred hf ht)
    case other =>
      obtain ⟨t, hi, hslot, hfall⟩ := stageImages_other hf ht ho
      exact ⟨_, exec_startStageDone_slot h h8 hi, hslot, hfall, rfl⟩
    case none =>
      have t := startFail_failed hr hfat
      exact ⟨_, exec_startStageDone_noSlot h h8 (stageImages_none hf ht ho), t.cause, t.lastStage, t.stage⟩
    case failed =>
      have t := startFail_failed hr hfat
      exact ⟨_, exec_startStageDone_fails h hn h2 h10 h11 h12, t.cause, t.lastStage, t.stage, t.commit, t.startFails⟩
    case late =>
      have t := startFail_failed hr hfat
      exact ⟨_, (exec_startStageTimeout h).trans (by rw [if_neg h0]), t.cause, t.lastStage, t.stage, t.commit⟩
    · rw [exec_startStageTimeout h, if_pos h0]
  · rw [exec_coldStartAfterOrder_programming hl hr, if_pos ha]
  · rw [exec_coldStartAfterOrder_programming hl hr, if_neg (by simp [ha])]
  case ordered =>
    refine ⟨_, exec_coldStartAfterOrder hl ho hr hf, ?_⟩
    rw [coldReset_of_no_run hl]
    exact ⟨rfl, rfl, rfl, rfl, rfl, rfl, rfl, rfl, rfl, rfl, rfl, rfl⟩

end Sys2Proof.Machine
end

section
/-! Keys (O13, O14, O15): what drawing bits, using a key, revoking and exporting do to the store and the mailbox, what each key command ends as, and the statements they make up. -/

namespace Sys2Proof.Machine

open Sys2Proof.Safety

/-! ### The frame of the key commands -/

/-- A store-changing command that passes its checks and needs no quorum runs its effect. -/
theorem runCmd_store {mb : Mb} {op : Nat} {q : Req} {s : State} {check : Mb → Req → State → Option Nat} {d : Desig} (run : Handler)
    (a : Accepted mb op q s) (hs : canChange s = true) (hc : storeCheck check mb q s = none) (hd : d mb q s = none) :
    runCmd mb op (guarded (storeCheck check) d (storeRun run)) s = .next (applyAns mb q (run mb q s)) := by
  rw [runCmd_accepted _ a, guarded_run hc hd, storeRun_run hs]

/-- A handle resolves to the record under its slot number (R48, R50). -/
theorem slot_of_resolve {h slot : Nat} {o : Option Nat} {s : State} {k : KeyRec} (hr : resolve h o s = some (slot, k)) :
    h % 2 ^ 25 = slot ∧ tget s.store.c.keys slot = some k := by
  unfold resolve at hr
  dsimp only at hr
  split at hr
  · cases hr
  · split at hr
    · cases hr
    · rename_i x hx
      split at hr
      · cases hr
        exact ⟨rfl, hx⟩
      · cases hr

/-! ### Random bits -/

@[simp] theorem takeSap_store (n : Nat) (s : State) : (takeSap n s).2.store = s.store := by
  unfold takeSap
  split <;> rfl

@[simp] theorem takeWarden_store (n : Nat) (s : State) : (takeWarden n s).2.store = s.store := by
  unfold takeWarden takeWire
  split <;> rfl

theorem takeKeyBits_store (asym : Bool) (n : Nat) (s : State) : (takeKeyBits asym n s).2.store = s.store := by
  unfold takeKeyBits
  split
  · unfold takeBoth
    split
    · simp
    · rfl
  · have h := takeSap_store (2 * n) s
    split <;> rename_i e <;> rw [e] at h <;> exact h

/-! ### Creations -/

/-- What a creation is depends on what the store held before it only. -/
theorem created_of_store {n : NewKey} {slot : Nat} {s u t : State} (h : u.store = s.store) (c : Created n slot u t) : Created n slot s t := by
  simpa only [Created, h] using c

/-- A key created after bits were drawn stands in its slot once its command has been answered or waits (R52, R79). -/
theorem created_of_createKey {mb : Mb} {q : Req} {n : NewKey} {m r pub : Bytes} {slot : Nat} {s u : State} {o : Out}
    (e : o = .next (applyAns mb q (createKey n m r pub u))) (hu : u.store = s.store) (hp : placeKey n s = .ok slot) :
    ∃ t, o = .next t ∧ Created n slot s t := by
  obtain ⟨a, v, hv, -, hc⟩ := createKey_creates n m r pub u slot (by rw [placeKey_store n hu, hp])
  exact ⟨_, e, by rw [hv]; exact applyAns_created a (created_of_store hu hc)⟩

/-- A key that a command holds under its lease, in the Sapwood and with its HUC blocks done, is ready and changes nothing (R59, R64, R145). -/
theorem useKey_ready {mb : Mb} {slot : Nat} {k : KeyRec} {s : State} (h : KeyInUse mb slot k s) (blocks : Nat) :
    useKey mb slot k blocks s = (.ready, s) := by
  obtain ⟨hj, hi, hb⟩ := h
  simp [useKey, hj, useHeld, useHeldAt, hi, hb]

/-- The material and public part that random bits give the key KEY_GENERATE asks for (R58). -/
def generated (q : Req) (bits : Bytes) : Bytes × Bytes := keyFrom (newKeyOf q.body 0).type (newKeyOf q.body 0).length bits

theorem exec_keyGenerate {mb : Mb} {q : Req} {s u : State} {bits : Bytes × Bytes} (hs : canChange s = true) (a : Accepted mb 0x0301 q s)
    (hc : storeCheck keyGenerateCheck mb q s = none) (hd : keyGenerateDesig mb q s = none)
    (hb : takeKeyBits (asymmetric (newKeyOf q.body 0).type) (privLen (newKeyOf q.body 0).type (newKeyOf q.body 0).length) s = (some bits, u)) :
    exec (.keyGenerate mb) s =
      .next (applyAns mb q (createKey (newKeyOf q.body 0) (generated q bits.1).1 bits.2 (generated q bits.1).2 u)) := by
  refine (runCmd_store keyGenerateRun a hs hc hd).trans ?_
  simp [keyGenerateRun, hb, generated]

/-- FORMAT 5 creates a record of the blob's public material (R59). -/
theorem exec_keyImport_public {mb : Mb} {q : Req} {s : State} {blob : Bytes} (hs : canChange s = true) (a : Accepted mb 0x0302 q s)
    (hc : storeCheck keyImportCheck mb q s = none) (hd : keyImportDesig mb q s = none) (hb : importBlob mb q s = some blob)
    (h5 : fld q.body 0x28 1 = 5) :
    exec (.keyImport mb) s = .next (applyAns mb q (createKey (importNew q.body) [] [] blob s)) := by
  refine (runCmd_store keyImportRun a hs hc hd).trans ?_
  simp [keyImportRun, hb, h5]

/-- The other formats create a record of what the wrapping key unwraps (R59). -/
theorem exec_keyImport_wrapped {mb : Mb} {q : Req} {s u : State} {blob m pub r : Bytes} {n : Nat} {w : KeyRec} (hs : canChange s = true)
    (a : Accepted mb 0x0302 q s) (hc : storeCheck keyImportCheck mb q s = none) (hd : keyImportDesig mb q s = none)
    (hb : importBlob mb q s = some blob) (h5 : fld q.body 0x28 1 ≠ 5)
    (hw : wrapKey mb (fld q.body 0x20 8) (fld q.body 0 4) (fld q.body 0x28 1) true s = .ok (n, w)) (hu : KeyInUse mb n w s)
    (hm : importMaterial q w blob = .ok (m, pub)) (hr : takeSap m.length s = (some r, u)) :
    exec (.keyImport mb) s = .next (applyAns mb q (createKey (importNew q.body) m r pub u)) := by
  refine (runCmd_store keyImportRun a hs hc hd).trans ?_
  simp [keyImportRun, hb, h5, hw, useKey_ready hu, importEnd, hm, hr]

/-- What KEY_DERIVE derives from a parent's secret (R57). -/
def derived (q : Req) (key : Bytes) : Bytes :=
  let n := deriveNew q.body
  let len := privLen n.type n.length
  kdf len (fld q.body 0x18 1) key (fixedInput (slice q.body 0x20 (fld q.body 0x19 1))
    (slice q.body (0x20 + fld q.body 0x19 1) (fld q.body 0x1A 2)) n.owner n.type n.purpose (8 * len))

theorem keyDeriveEnd_derived {q : Req} {key r : Bytes} {s u : State}
    (h : takeSap (privLen (deriveNew q.body).type (deriveNew q.body).length) s = (some r, u)) :
    keyDeriveEnd q key s = createKey (deriveNew q.body) (derived q key) r [] u := by
  simp [keyDeriveEnd, h, derived]

theorem exec_keyDerive {mb : Mb} {q : Req} {s u : State} {p : Option (Nat × KeyRec)} {key r : Bytes} (hs : canChange s = true)
    (a : Accepted mb 0x0304 q s) (hc : storeCheck keyDeriveCheck mb q s = none) (hd : keyDeriveDesig mb q s = none)
    (hp : parentKey mb (fld q.body 0 4) (fld q.body 0x10 8) (fld q.body 0x18 1) s = .ok (p, key))
    (hu : ∀ n k, p = some (n, k) → KeyInUse mb n k s)
    (hr : takeSap (privLen (deriveNew q.body).type (deriveNew q.body).length) s = (some r, u)) :
    exec (.keyDerive mb) s = .next (applyAns mb q (createKey (deriveNew q.body) (derived q key) r [] u)) := by
  refine (runCmd_store keyDeriveRun a hs hc hd).trans ?_
  match p, hp, hu with
  | none, hp, _ => simp [keyDeriveRun, hp, keyDeriveEnd_derived hr]
  | some (n, k), hp, hu => simp [keyDeriveRun, hp, useKey_ready (hu n k rfl), keyDeriveEnd_derived hr]

/-! ### A lease taken -/

@[simp] theorem wantCommit_sap (b : Bool) (n : Nat) (s : State) : (wantCommit b n s).store.sap = s.store.sap := by
  unfold wantCommit tryCommit
  dsimp only
  repeat' split
  all_goals rfl

/-- The load of a key's shares into the Sapwood is asked for (R64). -/
def loadAsked (slot : Nat) (k : KeyRec) (s : State) : State := { s with store.loading := addNew s.store.loading (slot, k.gen) }

/-- A key in no Sapwood entry asks for its load and counts a miss (R64). -/
theorem useSapwood_miss {slot : Nat} {k : KeyRec} {s : State} (h : inSapwood slot k s = false) :
    useSapwood slot k s = loadAsked slot k { s with store.misses := s.store.misses + 1 } := by
  simp [useSapwood, h, loadAsked]

/-- Journalling a key's next reservation of uses leaves its uses, the other keys, what the Sapwood holds, and the mailboxes (R74). -/
theorem extendUses_only (slot : Nat) (k : KeyRec) (s : State) (hk : tget s.store.c.keys slot = some k) :
    (tget (extendUses slot k s).store.c.keys slot).map (·.uses) = some k.uses ∧
    (∀ i, i ≠ slot → tget (extendUses slot k s).store.c.keys i = tget s.store.c.keys i) ∧
    (extendUses slot k s).store.sap = s.store.sap ∧ (extendUses slot k s).mbox = s.mbox := by
  unfold extendUses
  split
  · simp +contextual [tget_tset_other, storeChange, formBlock]
  · simp [hk]

/-- A record after one use (R55). -/
def charged (k : KeyRec) : KeyRec :=
  { k with uses := k.uses - 1, state := if k.uses ≤ 1 && k.state == .active then .exhausted else k.state }

theorem chargeUse_eq {slot : Nat} {k : KeyRec} {s : State} (hk : tget s.store.c.keys slot = some k) (hc : bitOf k.attr attrUseCount = true) :
    chargeUse slot s = extendUses slot (charged k) (putKeys (tset s.store.c.keys slot (charged k)) s) := by
  simp [chargeUse, hk, hc, charged]

/-- One use of a key that counts its uses is charged, and nothing else of the keys, the Sapwood and the mailboxes changes (R55). -/
theorem chargeUse_only {slot : Nat} {k : KeyRec} {s : State} (hk : tget s.store.c.keys slot = some k) (hc : bitOf k.attr attrUseCount = true) :
    (tget (chargeUse slot s).store.c.keys slot).map (·.uses) = some (k.uses - 1) ∧
    (∀ i, i ≠ slot → tget (chargeUse slot s).store.c.keys i = tget s.store.c.keys i) ∧
    (chargeUse slot s).store.sap = s.store.sap ∧ (chargeUse slot s).mbox = s.mbox := by
  rw [chargeUse_eq hk hc]
  obtain ⟨hu, ho, hp, hm⟩ := extendUses_only slot (charged k) (putKeys (tset s.store.c.keys slot (charged k)) s) (tget_tset_same _ _ _)
  exact ⟨hu, fun i hi => (ho i hi).trans (tget_tset_other _ _ _ _ hi), hp, hm⟩

theorem inSapwood_of_sap {slot : Nat} {k : KeyRec} {s t : State} (h : t.store.sap = s.store.sap) : inSapwood slot k t = inSapwood slot k s := by
  unfold inSapwood
  rw [h]

/-- A command's lease on a key is taken: its load is asked for, one use is charged, and the mailbox holds the job (R55, R64, R70). -/
def leaseTaken (mb : Mb) (slot : Nat) (k : KeyRec) (s : State) : State :=
  let u := chargeUse slot (useSapwood slot k s)
  setMb mb { getMb mb u with job := some { slot := slot, gen := k.gen } } u

/-- A command with no key in use takes its lease and waits for the load of the key's shares (R55, R64, R65, R70, R74). -/
theorem useKey_takesLease {mb : Mb} {slot : Nat} {k : KeyRec} {s : State} (hn : NoKeyInUse mb s) (hf : pinFits [(slot, k)] s = true)
    (hr : useReady k s = true) (hi : inSapwood slot k (leaseTaken mb slot k s) = false) (blocks : Nat) :
    useKey mb slot k blocks s = (.wait, loadAsked slot k (leaseTaken mb slot k s)) := by
  have hj : (getMb mb s).job = none := hn
  have hu : useKey mb slot k blocks s = useHeld mb slot k blocks { slot := slot, gen := k.gen } (leaseTaken mb slot k s) := by
    simp [useKey, hj, hf, hr, leaseTaken]
  rw [hu]
  simp [useHeld, useHeldAt, hi, loadAsked]

/-- What taking a lease does to the mailbox and to the keys (R55, R64, R70). -/
theorem leaseTaken_only {mb : Mb} {slot : Nat} {k : KeyRec} {s : State} (hk : tget s.store.c.keys slot = some k)
    (hc : bitOf k.attr attrUseCount = true) (hi : inSapwood slot k s = false) :
    getMb mb (leaseTaken mb slot k s) = { getMb mb s with job := some { slot := slot, gen := k.gen } } ∧
    (tget (leaseTaken mb slot k s).store.c.keys slot).map (·.uses) = some (k.uses - 1) ∧
    (∀ i, i ≠ slot → tget (leaseTaken mb slot k s).store.c.keys i = tget s.store.c.keys i) ∧ inSapwood slot k (leaseTaken mb slot k s) = false := by
  unfold leaseTaken
  rw [useSapwood_miss hi]
  obtain ⟨hu, ho, hp, hm⟩ := chargeUse_only
    (s := loadAsked slot k { s with store.misses := s.store.misses + 1 }) hk hc
  refine ⟨?_, hu, ho, (inSapwood_of_sap hp).trans hi⟩
  rw [getMb_setMb, getMb_of_mbox hm]
  rfl

theorem mem_addNew {α : Type} [DecidableEq α] (l : List α) (x : α) : x ∈ addNew l x := by
  unfold addNew
  split
  · assumption
  · simp

/-- KEY_DERIVE takes its lease on the parent, charges one use and waits for the parent's shares (R55, R57, R70; that one row both takes the lease and, sent again, answers is the model's choice, log entry 147). -/
theorem exec_keyDerive_takesLease {mb : Mb} {q : Req} {s : State} {n : Nat} {k : KeyRec} {key : Bytes} (hs : canChange s = true)
    (a : Accepted mb 0x0304 q s) (hn : NoKeyInUse mb s) (hc : storeCheck keyDeriveCheck mb q s = none) (hd : keyDeriveDesig mb q s = none)
    (hp : parentKey mb (fld q.body 0 4) (fld q.body 0x10 8) (fld q.body 0x18 1) s = .ok (some (n, k), key))
    (hf : pinFits [(n, k)] s = true) (hr : useReady k s = true) (hi : inSapwood n k (leaseTaken mb n k s) = false) :
    exec (.keyDerive mb) s = .next (loadAsked n k (leaseTaken mb n k s)) := by
  refine (runCmd_store keyDeriveRun a hs hc hd).trans ?_
  simp [keyDeriveRun, hp, useKey_takesLease hn hf hr hi, applyAns]

/-- Settles O13: each creation ends in createKey on the state that the bits were drawn from, or takes its parent's lease. -/
theorem keyCreationStoresTheKey : Obligations.KeyCreationStoresTheKey := by
  unfold Obligations.KeyCreationStoresTheKey
  refine fun mb q s slot hs => ⟨?generate, ?imports, ?derive, ?lease⟩
  case generate =>
    intro bits u a hc hd hb hp
    have hu : u.store = s.store := (congrArg (·.2.store) hb).symm.trans (takeKeyBits_store _ _ s)
    exact created_of_createKey (exec_keyGenerate hs a hc hd hb) hu hp
  case imports =>
    refine fun blob a hc hd hb hp => ⟨fun h5 => ?_, fun n w m pub r u h5 hw hk hm hr => ?_⟩
    · exact created_of_createKey (exec_keyImport_public hs a hc hd hb h5) rfl hp
    · have hu : u.store = s.store := (congrArg (·.2.store) hr).symm.trans (takeSap_store _ s)
      exact created_of_createKey (exec_keyImport_wrapped hs a hc hd hb h5 hw hk hm hr) hu hp
  case derive =>
    intro p key r u a hc hd hpk hk hr hp
    have hu : u.store = s.store := (congrArg (·.2.store) hr).symm.trans (takeSap_store _ s)
    exact created_of_createKey (exec_keyDerive hs a hc hd hpk hk hr) hu hp
  case lease =>
    intro n k key a hn hc hd hp hk hf hr hb hi
    have ⟨_, hq, _⟩ := a
    obtain ⟨hm, hu, ho, hi'⟩ := leaseTaken_only (mb := mb) hk hb hi
    refine ⟨_, exec_keyDerive_takesLease hs a hn hc hd hp hf hr hi', ?_, ?_, hu, List.contains_iff_mem.mpr (mem_addNew _ _), ho⟩
    · exact congrArg Mbox.job hm
    · exact (congrArg Mbox.cur hm).trans hq

/-! ### Revocation -/

/-- Step 1 of R82: the record reads REVOKING, one entry is journalled, and no other record changes. -/
theorem revoke_only {slot : Nat} {k : KeyRec} {s : State} (hk : tget s.store.c.keys slot = some k) (replace : Bool) (uses drain : Nat) :
    (revoke slot replace uses drain s).store.nextSeq = s.store.nextSeq + 1 ∧
    tget (revoke slot replace uses drain s).store.c.keys slot =
      some { k with state := .revoking, replace := replace, newUses := uses, drainUs := drain } ∧
    ∀ i, i ≠ slot → tget (revoke slot replace uses drain s).store.c.keys i = tget s.store.c.keys i := by
  simp +contextual [revoke, tget_tmod, hk]

theorem exec_keyDestroy {mb : Mb} {q : Req} {s : State} (hs : canChange s = true) (a : Accepted mb 0x0305 q s)
    (hc : storeCheck keyDestroyCheck mb q s = none) (hd : keyDestroyDesig mb q s = none) :
    Holds (.keyDestroy mb) s mb q (.drainKey [fld q.body 0 8 % 2 ^ 25] {})
      (revoke (fld q.body 0 8 % 2 ^ 25) false 0 (drainLimit (fld q.body 8 4) s) s) :=
  runCmd_store keyDestroyRun a hs hc hd

theorem exec_keyReplace {mb : Mb} {q : Req} {s : State} (hs : canChange s = true) (a : Accepted mb 0x0306 q s)
    (hc : storeCheck keyReplaceCheck mb q s = none) (hd : keyDestroyDesig mb q s = none) :
    Holds (.keyReplace mb) s mb q (.drainKey [fld q.body 0 8 % 2 ^ 25] {})
      (revoke (fld q.body 0 8 % 2 ^ 25) true (fld q.body 0x0C 4) (drainLimit (fld q.body 8 4) s) s) :=
  runCmd_store keyReplaceRun a hs hc hd

/-- Settles O14: both commands revoke the record their handle names, and wait for its leases to drain. -/
theorem keyDestroyRevokesAtOnce : Obligations.KeyDestroyRevokesAtOnce := by
  unfold Obligations.KeyDestroyRevokesAtOnce
  intro mb q s slot k hr hs hd
  obtain ⟨rfl, hk⟩ := slot_of_resolve hr
  exact ⟨fun a hc => ⟨_, exec_keyDestroy hs a hc hd, (holdMb_wait _ _ _ _).1, revoke_only hk _ _ _⟩,
    fun a hc => ⟨_, exec_keyReplace hs a hc hd, (holdMb_wait _ _ _ _).1, revoke_only hk _ _ _⟩⟩

/-! ### Attributes and exports -/

theorem exec_keyGetAttr {mb : Mb} {q : Req} {s : State} {slot : Nat} {k : KeyRec} (a : Accepted mb 0x0307 q s) (hs : storeRefuse s = none)
    (hr : resolve (fld q.body 0 8) (mbOwner mb s) s = some (slot, k)) :
    Ends (.keyGetAttr mb) s mb { body := recordBytes slot k } s := by
  refine runCmd_reply _ a ?_
  simp [storeRead, direct, hs, handleCheck, hr]

/-- KEY_EXPORT ends with its blob in the response, or in host memory where the request asks for that (R87, R89). -/
def Exports (mb : Mb) (q : Req) (blob : Bytes) (s u : State) : Prop :=
  (bitOf (fld q.body 0x14 4) 2 = false →
    Ends (.keyExport mb) s mb { body := leBytes 4 blob.length ++ leBytes 4 0 ++ blob } u) ∧
  (bitOf (fld q.body 0x14 4) 2 = true → hostOk (mbFn mb) (fld q.body 0x18 8) blob.length u = true →
    Ends (.keyExport mb) s mb { body := leBytes 4 blob.length } (hostWrite (fld q.body 0x18 8) blob u))

/-- A blob that has been made leaves. -/
theorem exports_of_exportEnd {mb : Mb} {q : Req} {blob : Bytes} {s u : State} (a : Accepted mb 0x0303 q s)
    (hc : readCheck keyExportCheck mb q s = none) (hd : keyExportDesig mb q s = none) (h : keyExportRun mb q s = exportEnd mb q blob u) :
    Exports mb q blob s u := by
  have hg : guarded (readCheck keyExportCheck) keyExportDesig keyExportRun mb q s = exportEnd mb q blob u := (guarded_run hc hd).trans h
  refine ⟨fun hb => runCmd_reply _ a (hg.trans ?_), fun hb hh => runCmd_reply _ a (hg.trans ?_)⟩
  · simp [exportEnd, hb]
  · simp [exportEnd, hb, blobWrite, hh]

theorem keyExportRun_public {mb : Mb} {q : Req} {s : State} {k : KeyRec} (he : exportOf mb q s = .ok (k, none)) :
    keyExportRun mb q s = exportEnd mb q k.pub s := by
  simp [keyExportRun, he]

/-- Formats 0 to 2 take no random bits (R59). -/
theorem keyExportRun_wrapped {mb : Mb} {q : Req} {s : State} {k x : KeyRec} {n : Nat} (he : exportOf mb q s = .ok (k, some (n, x)))
    (hu : KeyInUse mb n x s) (hf : fld q.body 0x10 1 ≤ 2) :
    keyExportRun mb q s = exportEnd mb q (exportBlob (fld q.body 0x10 1) k x []) s := by
  simp [keyExportRun, he, useKey_ready hu, hf]

/-- Formats 3 and 4 take 64 bytes of random bits; the amount is the model's (R59). -/
theorem keyExportRun_random {mb : Mb} {q : Req} {s u : State} {k x : KeyRec} {n : Nat} {bits : Bytes}
    (he : exportOf mb q s = .ok (k, some (n, x))) (hu : KeyInUse mb n x s) (hf : 2 < fld q.body 0x10 1)
    (hb : takeWarden 64 s = (some bits, u)) :
    keyExportRun mb q s = exportEnd mb q (exportBlob (fld q.body 0x10 1) k x bits) u := by
  simp [keyExportRun, he, useKey_ready hu, Nat.not_le.mpr hf, hb]

/-- The record as KEY_SET_ATTR leaves it (R88). -/
def attrRecord (b : Bytes) (k : KeyRec) : KeyRec :=
  let uses := if bitOf (fld b 0x18 4) 0 then fld b 0x10 4 else k.uses
  { k with
    attr := newAttr b k, uses := uses, policy := if bitOf (fld b 0x18 4) 1 then fld b 0x14 4 else k.policy
    usesFloor := min k.usesFloor (usesFloorOf uses), usesFloorOld := min k.usesFloorOld (usesFloorOf uses)
    state := if bitOf (newAttr b k) attrUseCount && uses = 0 then .exhausted else k.state }

/-- The store with one key's record replaced, and the change journalled. -/
def recordChange (slot : Nat) (k : KeyRec) (s : State) : State := storeChange [] (fun c => { c with keys := tset c.keys slot k }) s

/-- KEY_SET_ATTR replaces the one record it names and waits for the commit (R79, R88). -/
theorem exec_keySetAttr {mb : Mb} {q : Req} {s : State} {slot : Nat} {k : KeyRec} (hs : canChange s = true) (a : Accepted mb 0x0308 q s)
    (hc : storeCheck keySetAttrCheck mb q s = none) (hd : keySetAttrDesig mb q s = none)
    (hr : resolve (fld q.body 0 8) (mbOwner mb s) s = some (slot, k)) :
    Holds (.keySetAttr mb) s mb q
      (.commit s.store.nextSeq { body := leBytes 4 (newAttr q.body k) ++ leBytes 4 (attrRecord q.body k).uses })
      (wantCommit false s.store.nextSeq (recordChange slot (attrRecord q.body k) s)) := by
  refine (runCmd_store keySetAttrRun a hs hc hd).trans ?_
  simp only [keySetAttrRun, hr]
  rfl

/-- Replacing a key's record leaves every other record, and asking for its commit leaves them all. -/
theorem recordChange_committed (slot : Nat) (k : KeyRec) (b : Bool) (n : Nat) (s : State) :
    tget (wantCommit b n (recordChange slot k s)).store.c.keys slot = some k ∧
    ∀ i, i ≠ slot → tget (wantCommit b n (recordChange slot k s)).store.c.keys i = tget s.store.c.keys i := by
  simp +contextual [recordChange, tget_tset_other]

/-- Settles O15: the record's bytes, the three ways to the blob, and the record that KEY_SET_ATTR leaves. -/
theorem keyAttributesAndExport : Obligations.KeyAttributesAndExport := by
  unfold Obligations.KeyAttributesAndExport
  refine fun mb q s slot k hr => ⟨fun a hs => exec_keyGetAttr a hs hr, ?blob, ?set⟩
  case blob =>
    intro w blob u a hc hd he hw
    change Exports mb q blob s u
    refine exports_of_exportEnd a hc hd ?_
    obtain ⟨rfl, rfl, rfl⟩ | ⟨n, x, rfl, hu, ⟨hf, rfl, rfl⟩ | ⟨hf, bits, hb, rfl⟩⟩ := hw
    · exact keyExportRun_public he
    · exact keyExportRun_wrapped he hu hf
    · exact keyExportRun_random he hu hf hb
  case set =>
    intro a hc hd hs
    obtain ⟨hk, ho⟩ := recordChange_committed slot (attrRecord q.body k) false s.store.nextSeq s
    exact ⟨_, _, _, _, exec_keySetAttr hs a hc hd hr, (holdMb_wait _ _ _ _).1, rfl, hk, rfl, rfl, rfl, rfl, rfl, ho⟩

end Sys2Proof.Machine
end

section
/-! Secure counters (O16): what each counter command changes and answers, and the statement they make up. -/

namespace Sys2Proof.Machine

open Sys2Proof.Safety

/-- A store-changing command with no quorum that passes its checks runs its effect. -/
theorem runCmd_storeCmd {mb : Mb} {op : Nat} {q : Req} {s : State} {check : Mb → Req → State → Option Nat} (run : Handler)
    (a : Accepted mb op q s) (hs : canChange s = true) (hc : storeCheck check mb q s = none) :
    runCmd mb op (storeCmd check run) s = .next (applyAns mb q (run mb q s)) := by
  rw [runCmd_accepted _ a, storeCmd, direct_run hc, storeRun_run hs]

/-- A response's body follows its 32 bytes of header (R268). -/
theorem respBytes_body (op reqId ctx token info : Nat) (r : Resp) : (respBytes op reqId ctx token info r).drop 32 = r.body :=
  List.drop_left' (layout_length 32 _)

/-- An accepted command that ends in a state with the same mailboxes reads DONE there, its answer behind the header (R265, R268). -/
theorem finishMb_answers {mb : Mb} {op : Nat} {q : Req} {s u : State} (a : Accepted mb op q s) (h : u.mbox = s.mbox) (r : Resp) :
    (getMb mb (finishMb mb r u)).state = .done ∧ (getMb mb (finishMb mb r u)).resp.drop 32 = r.body := by
  obtain ⟨-, hq, -⟩ := a
  obtain ⟨hd, -, hr⟩ := finishMb_done mb q r u (by rw [getMb_of_mbox h]; exact hq)
  exact ⟨hd, by rw [hr, respBytes_body]⟩

/-- The store with one counter replaced, and the change journalled. -/
def counterChange (n : Nat) (k : Counter) (s : State) : State := storeChange [] (fun c => { c with counters := tset c.counters n k }) s

theorem counterChange_counters (n : Nat) (k : Counter) (s : State) :
    (counterChange n k s).store.c.counters = tset s.store.c.counters n k := rfl

theorem counterChange_mbox (n : Nat) (k : Counter) (s : State) : (counterChange n k s).mbox = s.mbox := rfl

/-- A table of L entries has a free number among 0 to L, so the lowest there is free (R85). -/
theorem freeCounter_free (c : Content) : tget c.counters (freeCounter c) = none := by
  unfold freeCounter
  cases h : (List.range (c.counters.length + 1)).find? (fun n => (tget c.counters n).isNone) with
  | some n => simpa using List.find?_some h
  | none =>
    have hall : List.range (c.counters.length + 1) ⊆ c.counters.map (·.1) := by
      intro n hn
      have hs := List.find?_eq_none.mp h n hn
      obtain ⟨x, hx⟩ := Option.ne_none_iff_exists'.mp (by simpa using hs)
      exact mem_keys_of_tget hx
    have := (List.nodup_range.subperm hall).length_le
    simp at this

/-- A counter at 0 with its first ceiling (R85, R86). -/
def firstCounter (o : Nat) (s : State) : Counter :=
  { owner := o, ceiling := counterTop 0, ceilOld := counterTop 0, ceilSeq := s.store.nextSeq }

theorem newCounter_eq (o : Nat) (s : State) :
    newCounter o s = (freeCounter s.store.c, counterChange (freeCounter s.store.c) (firstCounter o s) s) := rfl

theorem exec_counterCreate {mb : Mb} {q : Req} {s : State} (hs : canChange s = true) (a : Accepted mb 0x030C q s)
    (hc : storeCheck counterCreateCheck mb q s = none) (hd : bitOf (fld q.body 4 4) 0 = false) :
    Ends (.counterCreate mb) s mb { body := leBytes 4 (freeCounter s.store.c) }
      (counterChange (freeCounter s.store.c) (firstCounter (fld q.body 0 4) s) s) := by
  refine (runCmd_storeCmd _ a hs hc).trans ?_
  simp [newCounter_eq, maybeDurable, hd, applyAns]

/-- A counter whose sum is its ceiling too, in force from the entry seq on (R86). -/
def durableSum (step seq : Nat) (k : Counter) : Counter :=
  { k with value := k.value + step, ceiling := k.value + step, ceilOld := k.value + step, ceilSeq := seq }

/-- A durable increment journals the sum as value and ceiling (R86). -/
theorem counterInc_durable (n step : Nat) (k : Counter) (s : State) :
    counterInc n step true k s = (some (k.value + step), counterChange n (durableSum step s.store.nextSeq k) s) := rfl

/-- An increment below the ceiling in force issues the sum, whether or not the next ceiling is journalled with it (R86). -/
theorem counterInc_below {n step : Nat} {k : Counter} {s : State}
    (h : k.value + step < (if k.ceilSeq ≤ s.store.committed then k.ceiling else k.ceilOld)) :
    ∃ u, counterInc n step false k s = (some (k.value + step), u) ∧ u.mbox = s.mbox ∧
      (tget u.store.c.counters n).map (fun x => (x.owner, x.value)) = some (k.owner, k.value + step) ∧
      ∀ i, i ≠ n → tget u.store.c.counters i = tget s.store.c.counters i := by
  simp only [counterInc, Bool.false_eq_true, if_false, h, decide_true, Bool.true_or, if_true]
  refine ⟨_, rfl, ?_⟩
  split <;> simp +contextual [tget_tset_other]

/-- A counter that its caller may name stands in the table (R85). -/
theorem tget_of_getCounter {n : Nat} {o : Option Nat} {s : State} {k : Counter} (h : getCounter n o s = some k) :
    tget s.store.c.counters n = some k := (Option.filter_eq_some_iff.mp h).1

theorem exec_counterInc_durable {mb : Mb} {q : Req} {s : State} {k : Counter} (hs : canChange s = true) (a : Accepted mb 0x030D q s)
    (hc : storeCheck counterIncCheck mb q s = none) (hk : getCounter (fld q.body 0 4) (mbOwner mb s) s = some k)
    (hd : bitOf (fld q.body 8 4) 0 = true) :
    Holds (.counterInc mb) s mb q (.commit s.store.nextSeq { body := leBytes 8 (k.value + fld q.body 4 2) })
      (wantCommit false s.store.nextSeq (counterChange (fld q.body 0 4) (durableSum (fld q.body 4 2) s.store.nextSeq k) s)) := by
  refine (runCmd_storeCmd counterIncRun a hs hc).trans ?_
  simp only [counterIncRun, hk, hd, counterInc_durable]
  rfl

theorem exec_counterInc_below {mb : Mb} {q : Req} {s u : State} {k : Counter} {v : Nat} (hs : canChange s = true) (a : Accepted mb 0x030D q s)
    (hc : storeCheck counterIncCheck mb q s = none) (hk : getCounter (fld q.body 0 4) (mbOwner mb s) s = some k)
    (hd : bitOf (fld q.body 8 4) 0 = false) (hi : counterInc (fld q.body 0 4) (fld q.body 4 2) false k s = (some v, u)) :
    Ends (.counterInc mb) s mb { body := leBytes 8 v } u := by
  refine (runCmd_storeCmd counterIncRun a hs hc).trans ?_
  simp [counterIncRun, hk, hd, hi, maybeDurable, applyAns]

theorem exec_counterRead {mb : Mb} {q : Req} {s : State} {k : Counter} (a : Accepted mb 0x030E q s) (hs : storeRefuse s = none)
    (hk : getCounter (fld q.body 0 4) (mbOwner mb s) s = some k) : Ends (.counterRead mb) s mb { body := leBytes 8 k.value } s := by
  refine runCmd_reply _ a ?_
  simp [storeRead, direct, hs, counterCheck, hk, tget_of_getCounter hk]

theorem exec_counterDestroy {mb : Mb} {q : Req} {s : State} (hs : canChange s = true) (a : Accepted mb 0x030F q s)
    (hc : storeCheck counterCheck mb q s = none) :
    Ends (.counterDestroy mb) s mb {} (storeChange [] (fun c => { c with counters := tdel c.counters (fld q.body 0 4) }) s) :=
  runCmd_storeCmd _ a hs hc

/-- Settles O16: each command by the counter it writes or takes away and by its answer. -/
theorem secureCountersCount : Obligations.SecureCountersCount := by
  unfold Obligations.SecureCountersCount
  refine fun mb q s hs => ⟨?create, ?durable, ?below, fun k a hr hk => exec_counterRead a hr hk, ?destroy⟩
  case create =>
    intro a hc hd
    refine ⟨_, _, exec_counterCreate hs a hc hd, freeCounter_free _, ?_, ?_, finishMb_answers a (counterChange_mbox _ _ _) _⟩
    · simp [counterChange_counters, firstCounter]
    · intro i hi
      rw [finishMb_store, counterChange_counters, tget_tset_other _ _ _ _ hi]
  case durable =>
    intro k a hc hk hd
    refine ⟨_, _, exec_counterInc_durable hs a hc hk hd, (holdMb_wait _ _ _ _).1, ?_⟩
    rw [holdMb_store, wantCommit_c, counterChange_counters]
    exact ⟨by simp [durableSum], fun i hi => tget_tset_other _ _ _ _ hi⟩
  case below =>
    intro k a hc hk hd hv
    obtain ⟨u, hi, hm, hn, ho⟩ := counterInc_below hv
    refine ⟨_, exec_counterInc_below hs a hc hk hd hi, (finishMb_answers a hm _).2, ?_⟩
    rw [finishMb_store]
    exact ⟨hn, ho⟩
  case destroy =>
    intro a hc
    refine ⟨_, exec_counterDestroy hs a hc, ?_, ?_, (finishMb_answers a (storeChange_mbox _ _ _) _).1⟩ <;> rw [finishMb_store, storeChange_c]
    · exact tget_tdel_same _ _
    · exact fun i hi => tget_tdel_other _ _ _ hi

end Sys2Proof.Machine
end

section
/-! The journal ring (O35): what messages and answers leave of the ring and of host memory, what each of its commands and doorbells does, how a recovery takes a block and ends, and the statement they make up. -/

namespace Sys2Proof.Machine

open Sys2Proof.Safety

/-! ### What messages, events and answers leave -/

/-- The journal ring and host memory, which no message, event, record or answer touches. -/
def ringMem (s : State) : JRing × Mem := (s.host.jring, s.host.mem)

theorem ringMem_of_beyondLog {s t : State} (h : beyondLog t = beyondLog s) : ringMem t = ringMem s := by
  have k := congrArg ringMem h
  exact k

@[simp] theorem ringMem_sendVec (f : Fn) (v : Nat) (s : State) : ringMem (sendVec f v s) = ringMem s := by
  unfold sendVec
  dsimp only
  repeat' split
  all_goals rfl

theorem sendVec_jring (f : Fn) (v : Nat) (s : State) : (sendVec f v s).host.jring = s.host.jring := congrArg Prod.fst (ringMem_sendVec f v s)
theorem sendVec_mem (f : Fn) (v : Nat) (s : State) : (sendVec f v s).host.mem = s.host.mem := congrArg Prod.snd (ringMem_sendVec f v s)

@[simp] theorem ringMem_raiseEvent (f : Fn) (b : Nat) (s : State) : ringMem (raiseEvent f b s) = ringMem s := by
  unfold raiseEvent
  dsimp only
  split
  · rfl
  · exact ringMem_sendVec _ _ _

@[simp] theorem ringMem_endJob (mb : Mb) (s : State) : ringMem (endJob mb s) = ringMem s := by
  unfold endJob
  split <;> rfl

@[simp] theorem ringMem_commandRec (code : Nat) (mb : Mb) (op st ag : Nat) (s : State) : ringMem (commandRec code mb op st ag s) = ringMem s :=
  ringMem_of_beyondLog (commandRec_only code mb op st ag s)

@[simp] theorem ringMem_postResp (mb : Mb) (b : Bytes) (s : State) : ringMem (postResp mb b s) = ringMem s := ringMem_sendVec _ _ _

@[simp] theorem ringMem_setMb (mb : Mb) (b : Mbox) (s : State) : ringMem (setMb mb b s) = ringMem s := rfl

/-- An answer leaves the ring and host memory. -/
@[simp] theorem ringMem_finishMb (mb : Mb) (r : Resp) (s : State) : ringMem (finishMb mb r s) = ringMem s := by
  unfold finishMb
  dsimp only
  split
  · simp
  · simp only [ringMem_postResp, ringMem_setMb]
    split <;> split <;> simp

@[simp] theorem ringMem_deliver (mb : Mb) (op : Nat) (w : MbWait → Bool) (a : Resp) (s : State) : ringMem (deliver mb op w a s) = ringMem s := by
  unfold deliver
  dsimp only
  split
  · exact ringMem_finishMb _ _ _
  · split <;> rfl

/-- A change of the ring's state changes nothing else of the ring, nor host memory. -/
@[simp] theorem ringMem_setJring (st : JrState) (s : State) : ringMem (setJring st s) = ({ s.host.jring with state := st }, s.host.mem) := by
  unfold setJring
  split
  · rename_i h
    rw [← h]
    rfl
  · exact ringMem_raiseEvent _ _ _

theorem setJring_jring (st : JrState) (s : State) : (setJring st s).host.jring = { s.host.jring with state := st } :=
  congrArg Prod.fst (ringMem_setJring st s)

theorem setJring_mem (st : JrState) (s : State) : (setJring st s).host.mem = s.host.mem := congrArg Prod.snd (ringMem_setJring st s)

/-! ### Setting up and stopping -/

/-- The ring as JRING_SETUP places it: empty, every block to be written again (R258, R642). -/
def ringPlaced (p : Nat) (b : Bytes) (j : JRing) : JRing :=
  { j with
    pf := p, ringAddr := fld b 0 8, evtAddr := fld b 8 8, log2 := fld b 0x10 1, head := 0, tail := 0, evTail := 0
    evHead := 0, evHeld := 0, phase := true, blocks := j.blocks.map (fun x => { x with written := false }), stalled := false }

theorem exec_jringSetup {p m : Nat} {q : Req} {s : State} (a : Accepted (.pf p m) 0x0310 q s) (hc : jringSetupCheck (.pf p m) q s = none)
    (hr : s.store.recoverMb = none) :
    Ends (.jringSetup (.pf p m)) s (.pf p m) { body := layout 16 [(0, 8, s.store.head), (8, 8, s.host.jring.ackedSeq)] }
      (setJring .output { s with host.jring := ringPlaced p q.body s.host.jring }) := by
  refine runCmd_reply _ a ((direct_run hc).trans ?_)
  simp [jringSetupRun, hr, ringPlaced]

theorem exec_jringStop {mb : Mb} {q : Req} {s : State} (a : Accepted mb 0x0311 q s) (hc : jringStopCheck mb q s = none) :
    Ends (.jringStop mb) s mb { body := leBytes 8 s.host.jring.ackedSeq } (setJring .off s) :=
  runCmd_reply _ a (direct_run hc)

/-! ### Doorbells -/

theorem getFn_setFn (f : Fn) (x : FnState) (s : State) : getFn f (setFn f x s) = x := by simp [getFn, setFn]

/-- A message counts no doorbell. -/
theorem sendVec_dbErr (f : Fn) (v : Nat) (s : State) : (getFn f (sendVec f v s)).dbErr = (getFn f s).dbErr := by
  unfold sendVec
  dsimp only
  repeat' split
  · rw [getFn_setFn]
  · rw [getFn_setFn]
  · rfl

theorem raiseEvent_dbErr (f : Fn) (b : Nat) (s : State) : (getFn f (raiseEvent f b s)).dbErr = (getFn f s).dbErr := by
  unfold raiseEvent
  dsimp only
  split
  · rfl
  · rw [sendVec_dbErr, getFn_setFn]

/-- A dropped doorbell is counted, and no more than its function changes (R250). -/
theorem countDoorbell_counts {f : Fn} {s : State} (h : (getFn f s).dbErr < 65535) :
    (getFn f (countDoorbell f s)).dbErr = (getFn f s).dbErr + 1 ∧ (countDoorbell f s).host.jring = s.host.jring ∧
    (countDoorbell f s).store = s.store := by
  simp only [countDoorbell, h, if_true, raiseEvent_dbErr, getFn_setFn, raiseEvent_store, setFn_store, true_and, and_true]
  exact congrArg Prod.fst (ringMem_raiseEvent _ _ _)


/-- With no entry of WATCH under way a doorbell wakes nothing (R585). -/
theorem hostWake_idle {s : State} (h : s.pwr.entry = none) : hostWake s = s := by
  simp [hostWake, h]

section Doorbells
variable {p : Nat} {s : State} (hp : p < 4) (hd : inD3 (.pf p) s = false) (he : s.pwr.entry = none) (hj : s.host.jring.pf = p)
include hp hd he hj

/-- A post inside the ring moves its tail, one past it is an error (R250, R259; the error is a deduction, log entry 40). -/
theorem exec_qmgJrPost (hs : s.host.jring.state = .output ∨ s.host.jring.state = .input) (index : Nat) :
    exec (.qmgJrPost p index) s = .next (if jrSize s ≤ index then setJring .error s else { s with host.jring.tail := index }) := by
  change execQmgJrPost p index s = _
  obtain hs | hs := hs <;> simp [execQmgJrPost, onUnit, hp, hd, hostWake_idle he, hj, hs]

/-- A release of events inside the ring moves its event head, one past it is an error (R250, R262; log entry 40). -/
theorem exec_qmgJrEvhead (hs : s.host.jring.state = .output ∨ s.host.jring.state = .input) (index : Nat) :
    exec (.qmgJrEvhead p index) s = .next (if jrSize s ≤ index then setJring .error s else
      { s with host.jring.evHead := index, host.jring.evHeld :=
          s.host.jring.evHeld - (index + jrSize s - s.host.jring.evHead) % jrSize s }) := by
  change execQmgJrEvhead p index s = _
  obtain hs | hs := hs <;> simp [execQmgJrEvhead, onUnit, hp, hd, hostWake_idle he, hj, hs]

/-- The SEQ written to QMG_JR_ACK is latched (R260). -/
def ackLatched (p : Nat) (seq : DWord) (s : State) : State := { s with host.jring.ackShadow := tset s.host.jring.ackShadow p seq }

/-- An acknowledgement of no written block is counted as a doorbell dropped (R250, R260). -/
theorem exec_qmgJrAck_unwritten (hs : s.host.jring.state ≠ .off) {seq : DWord}
    (hb : s.host.jring.blocks.any (fun b => b.seq == seq.toNat && b.written) = false) :
    exec (.qmgJrAck p seq) s = .next (countDoorbell (.pf p) (ackLatched p seq s)) := by
  change execQmgJrAck p seq s = _
  simp [execQmgJrAck, onUnit, hp, hd, hostWake_idle he, hj, hs, hb, ackLatched]

/-- The ring once a written block is durable in host storage: the block is gone, and the contiguous acknowledged SEQ has moved (R76, R260). -/
def ringAcked (p : Nat) (seq : DWord) (j : JRing) : JRing :=
  let blocks := j.blocks.filter (fun b => b.seq != seq.toNat)
  let c := contiguous blocks (seq.toNat :: j.acked) j.ackedSeq
  { j with ackShadow := tset j.ackShadow p seq, blocks := blocks, ackedSeq := c, acked := (seq.toNat :: j.acked).filter (c < ·) }

/-- Whether the ring stalls is looked at again (R260). -/
def stallNoted (s : State) : State := { s with host.jring.stalled := decide (4096 ≤ unacked s) }

theorem exec_qmgJrAck_written (hs : s.host.jring.state ≠ .off) {seq : DWord}
    (hb : s.host.jring.blocks.any (fun b => b.seq == seq.toNat && b.written) = true) :
    exec (.qmgJrAck p seq) s = .next (tryCommit (stallNoted { s with host.jring := ringAcked p seq s.host.jring })) := by
  change execQmgJrAck p seq s = _
  simp only [execQmgJrAck, onUnit, hp, hd, hostWake_idle he]
  simp [hj, hs, hb, stallNoted, ringAcked]

end Doorbells

/-! ### Blocks of a recovery -/

/-- The event ring once an event entry is written at its tail (R262). -/
def eventPut (j : JRing) : JRing :=
  let t := (j.evTail + 1) % 2 ^ j.log2
  { j with evTail := t, evHeld := j.evHeld + 1, phase := if t = 0 then !j.phase else j.phase }

/-- An event entry (R262). -/
def eventEntry (seq len idx kind : Nat) (phase : Bool) : Bytes :=
  layout 16 [(0, 8, seq), (8, 4, len), (0x0C, 2, idx), (0x0E, 1, kind), (0x0F, 1, b2n phase)]

/-- Where host memory takes it, an event is an entry at the event ring's tail and a message (R259, R262). -/
theorem jrEvent_eq {s : State} (h : hostOk (.pf s.host.jring.pf) (s.host.jring.evtAddr + 16 * s.host.jring.evTail) 16 s = true)
    (seq len idx kind : Nat) :
    jrEvent seq len idx kind s = sendVec (.pf s.host.jring.pf) 9
      { hostWrite (s.host.jring.evtAddr + 16 * s.host.jring.evTail) (eventEntry seq len idx kind s.host.jring.phase) s with
        host.jring := eventPut s.host.jring } := by
  unfold jrEvent
  simp only [h]
  rfl

/-- An event that is written touches the event ring and its entry in host memory, and no key (R262). -/
theorem jrEvent_only {s : State} (h : hostOk (.pf s.host.jring.pf) (s.host.jring.evtAddr + 16 * s.host.jring.evTail) 16 s = true)
    (seq len idx kind : Nat) :
    (jrEvent seq len idx kind s).store = s.store ∧ (jrEvent seq len idx kind s).host.jring = eventPut s.host.jring ∧
    (jrEvent seq len idx kind s).host.mem =
      memWriteN s.host.mem (s.host.jring.evtAddr + 16 * s.host.jring.evTail) (eventEntry seq len idx kind s.host.jring.phase) := by
  rw [jrEvent_eq h, sendVec_store, sendVec_jring, sendVec_mem]
  simp only [hostWrite, and_self]

/-- The ring's head passes the buffer that was read. -/
def pastBuffer (s : State) : State := { s with host.jring.head := (s.host.jring.head + 1) % jrSize s }

/-- The event of a block read from the buffer at the head (R262). -/
def blockEvent (seq kind : Nat) (s : State) : State := jrEvent seq (jrBuffer s).2 s.host.jring.head kind (pastBuffer s)

/-- A block is the last consumed, and its event says that it is good (R80, R262). -/
def blockTaken (seq : Nat) (s : State) : State :=
  jrEvent seq (jrBuffer s).2 s.host.jring.head 0x80 { pastBuffer s with store.lastIn := seq }

/-- A block can be read and its event written: the ring is in input direction, a buffer is posted, the event ring has room, and the PF reaches the three places (R259, R261). -/
structure BlockReads (d : Bytes) (s : State) : Prop where
  input : s.host.jring.state = .input
  writes : pfWrites s.host.jring.pf s = true
  posted : s.host.jring.head ≠ s.host.jring.tail
  room : s.host.jring.evHeld < jrSize s
  entryOk : hostOk (.pf s.host.jring.pf) (s.host.jring.ringAddr + 16 * s.host.jring.head) 16 s = true
  bufferOk : hostOk (.pf s.host.jring.pf) (jrBuffer s).1 (jrBuffer s).2 s = true
  block : memReadN s.host.mem (jrBuffer s).1 (jrBuffer s).2 = d
  eventOk : hostOk (.pf s.host.jring.pf) (s.host.jring.evtAddr + 16 * s.host.jring.evTail) 16 s = true

section Input
variable {d : Bytes} {s : State} (h : BlockReads d s)
include h

/-- What JRING_INPUT_BLOCK makes of the block it reads (R80, R261, R262). -/
theorem exec_jringInputBlock :
    exec .jringInputBlock s = .next (
      if fld d 8 8 ≤ s.store.lastIn then blockEvent (fld d 8 8) 0x83 s
      else if s.store.committed < fld d 8 8 then blockEvent (fld d 8 8) 0x80 s
      else if !blockVerifies d s then endRecovery false (blockEvent (fld d 8 8) 0x81 s)
      else if fld d 8 8 = s.store.committed then
        endRecovery (headOf (fld d 8 8) s == commitHead s.store.commitRec) (blockTaken (fld d 8 8) s)
      else blockTaken (fld d 8 8) s) := by
  obtain ⟨hi, hw, hp, hr, he, hb, rfl, -⟩ := h
  change execJringInputBlock s = _
  have hg : (s.host.jring.state != .input || !pfWrites s.host.jring.pf s || s.host.jring.head == s.host.jring.tail ||
      decide (jrSize s ≤ s.host.jring.evHeld)) = false := by simp [hi, hw, hp, hr]
  unfold execJringInputBlock
  simp only [hg, he, hb, Bool.not_true, Bool.false_eq_true, if_false]
  rfl

/-- The event of a block leaves the store, moves the ring's head, and stands in host memory (R262). -/
theorem blockEvent_only (seq kind : Nat) :
    (blockEvent seq kind s).store = s.store ∧ (blockEvent seq kind s).host.jring.head = (s.host.jring.head + 1) % jrSize s ∧
    (blockEvent seq kind s).host.mem = memWriteN s.host.mem (s.host.jring.evtAddr + 16 * s.host.jring.evTail)
      (eventEntry seq (jrBuffer s).2 s.host.jring.head kind s.host.jring.phase) := by
  obtain ⟨hs, hj, hm⟩ := jrEvent_only (s := pastBuffer s) h.eventOk seq (jrBuffer s).2 s.host.jring.head kind
  exact ⟨hs, congrArg JRing.head hj, hm⟩

/-- Taking a block notes its SEQ, moves the ring's head, and its event stands in host memory (R80, R262). -/
theorem blockTaken_only (seq : Nat) :
    (blockTaken seq s).store = { s.store with lastIn := seq } ∧ (blockTaken seq s).host.jring.head = (s.host.jring.head + 1) % jrSize s ∧
    (blockTaken seq s).host.mem = memWriteN s.host.mem (s.host.jring.evtAddr + 16 * s.host.jring.evTail)
      (eventEntry seq (jrBuffer s).2 s.host.jring.head 0x80 s.host.jring.phase) := by
  obtain ⟨hs, hj, hm⟩ := jrEvent_only (s := { pastBuffer s with store.lastIn := seq }) h.eventOk seq (jrBuffer s).2 s.host.jring.head 0x80
  exact ⟨hs, congrArg JRing.head hj, hm⟩

/-- A block at or below the last consumed is reported as repeated (R261, R262). -/
theorem exec_jringInputBlock_repeated (hl : fld d 8 8 ≤ s.store.lastIn) :
    exec .jringInputBlock s = .next (blockEvent (fld d 8 8) 0x83 s) := by
  rw [exec_jringInputBlock h, if_pos hl]

/-- A good block below the committed SEQ is taken (R80; that good means one the model made for that SEQ is its own choice, log entry 26). -/
theorem exec_jringInputBlock_good (hl : s.store.lastIn < fld d 8 8) (hc : fld d 8 8 < s.store.committed) (hv : blockVerifies d s = true) :
    exec .jringInputBlock s = .next (blockTaken (fld d 8 8) s) := by
  rw [exec_jringInputBlock h, if_neg (by omega), if_neg (by omega), if_neg (by simp [hv]), if_neg (by omega)]

/-- The good block at the committed SEQ ends the recovery, well if its head hash is the commit record's (R80). -/
theorem exec_jringInputBlock_last (hl : s.store.lastIn < fld d 8 8) (hc : fld d 8 8 = s.store.committed) (hv : blockVerifies d s = true) :
    exec .jringInputBlock s =
      .next (endRecovery (headOf (fld d 8 8) s == commitHead s.store.commitRec) (blockTaken (fld d 8 8) s)) := by
  rw [exec_jringInputBlock h, if_neg (by omega), if_neg (by omega), if_neg (by simp [hv]), if_pos hc]

/-- A block that does not verify fails the recovery (R80). -/
theorem exec_jringInputBlock_false (hl : s.store.lastIn < fld d 8 8) (hc : fld d 8 8 ≤ s.store.committed) (hv : blockVerifies d s = false) :
    exec .jringInputBlock s = .next (endRecovery false (blockEvent (fld d 8 8) 0x81 s)) := by
  rw [exec_jringInputBlock h, if_neg (by omega), if_neg (by omega), if_pos (by simp [hv])]

end Input

/-! ### The end of a recovery -/

@[simp] theorem wantCommit_recoverMb (b : Bool) (n : Nat) (s : State) : (wantCommit b n s).store.recoverMb = s.store.recoverMb := by
  unfold wantCommit tryCommit
  dsimp only
  repeat' split
  all_goals rfl

/-- What a recovery does to one record is no part of its command (R80). -/
theorem recoverKey_recoverMb (slot : Nat) (s : State) : (recoverKey slot s).store.recoverMb = s.store.recoverMb := by
  unfold recoverKey
  split
  · rfl
  · rename_i k _
    split
    · have h := takeKeyBits_store (decide (0x10 ≤ k.type)) k.shareA.length s
      split <;> rename_i e <;> rw [e] at h
      · have hm := congrArg Store.recoverMb h
        exact hm
      · exact congrArg Store.recoverMb h
    · split <;> rfl

theorem setStoreState_store (st : StoreState) (s : State) : (setStoreState st s).store = { s.store with state := st } := by
  unfold setStoreState
  split
  · rename_i h
    rw [← h]
  · exact eventAllPfs_store _ _

theorem firstBlock_recoverMb (s : State) : (firstBlock s).store.recoverMb = s.store.recoverMb := wantCommit_recoverMb _ _ _

/-- A recovery that reaches the committed head makes the store READY (R80). -/
theorem recoverDone_ready (s : State) : (recoverDone s).store.state = .ready ∧ (recoverDone s).store.recoverMb = s.store.recoverMb := by
  unfold recoverDone
  dsimp only
  rw [setStoreState_store, firstBlock_recoverMb]
  exact ⟨rfl, foldl_keeps (f := fun s : State => s.store.recoverMb) (fun s k => recoverKey_recoverMb k s) _ _⟩

/-- A good recovery leaves the store READY, with no recovery under way and the ring in output direction (R80, R261). -/
theorem closeRecovery_good (s : State) :
    (closeRecovery true s).store.state = .ready ∧ (closeRecovery true s).store.recoverMb = none ∧
    (closeRecovery true s).host.jring.state = .output := by
  unfold closeRecovery
  dsimp only
  rw [setJring_store, setJring_jring]
  obtain ⟨hr, hm⟩ := recoverDone_ready { s with store.recoverMb := none }
  exact ⟨hr, hm, rfl⟩

/-- A failed recovery leaves the store FAILED and empty, with no recovery under way and the ring in output direction (R80, R261). -/
theorem closeRecovery_failed (s : State) :
    (closeRecovery false s).store.state = .failed ∧ (closeRecovery false s).store.c = {} ∧ (closeRecovery false s).store.recoverMb = none ∧
    (closeRecovery false s).host.jring.state = .output := by
  unfold closeRecovery
  dsimp only
  rw [setJring_store, setJring_jring, if_neg Bool.false_ne_true, setStoreState_store]
  exact ⟨rfl, rfl, rfl, rfl⟩

/-- Answering STORE_RECOVER leaves the store and the ring as the recovery's end leaves them. -/
theorem endRecovery_closes (ok : Bool) (s : State) :
    (endRecovery ok s).store = (closeRecovery ok s).store ∧ (endRecovery ok s).host.jring = (closeRecovery ok s).host.jring := by
  unfold endRecovery
  dsimp only
  split
  · exact ⟨rfl, rfl⟩
  · exact ⟨deliver_store _ _ _ _ _, congrArg Prod.fst (ringMem_deliver _ _ _ _ _)⟩

theorem endRecovery_good (s : State) :
    (endRecovery true s).store.state = .ready ∧ (endRecovery true s).store.recoverMb = none ∧ (endRecovery true s).host.jring.state = .output := by
  obtain ⟨hs, hj⟩ := endRecovery_closes true s
  rw [hs, hj]
  exact closeRecovery_good s

theorem endRecovery_failed (s : State) :
    (endRecovery false s).store.state = .failed ∧ (endRecovery false s).store.c = {} ∧ (endRecovery false s).store.recoverMb = none ∧
    (endRecovery false s).host.jring.state = .output := by
  obtain ⟨hs, hj⟩ := endRecovery_closes false s
  rw [hs, hj]
  exact closeRecovery_failed s

/-- Settles O35: the ring's commands, its doorbells, its acknowledgements, and the ways a block of a recovery goes. -/
theorem journalRingCommandsComplete : Obligations.JournalRingCommandsComplete := by
  unfold Obligations.JournalRingCommandsComplete
  refine ⟨fun mb q s => ⟨?setup, ?stop⟩, ?doorbells, ?ack, ?input⟩
  case setup =>
    rintro p m rfl a hc hr
    refine ⟨_, exec_jringSetup a hc hr, ?_⟩
    rw [setJring_jring, setJring_store, setJring_mem]
    exact ⟨rfl, rfl, rfl, rfl, rfl, rfl, rfl, rfl, rfl, rfl, rfl⟩
  case stop =>
    intro a hc
    refine ⟨_, exec_jringStop a hc, ?_⟩
    rw [setJring_jring, setJring_store]
    exact ⟨rfl, rfl, rfl⟩
  case doorbells =>
    intro p index s hp hd he hj hs
    rw [exec_qmgJrPost hp hd he hj hs, exec_qmgJrEvhead hp hd he hj hs]
    refine ⟨fun hi => ?_, fun hi => ⟨setJring .error s, setJring .error s, ?_⟩⟩
    · simp only [if_neg (Nat.not_le.mpr hi), and_self]
    · simp [hi, setJring_jring]
  case ack =>
    intro p seq s hp hd he hj hs
    refine ⟨fun hb => ⟨_, exec_qmgJrAck_written hp hd he hj hs hb, ?_⟩, fun hb hn => ⟨_, exec_qmgJrAck_unwritten hp hd he hj hs hb, ?_⟩⟩
    · obtain ⟨hc, -, hh, -, -, hho, -⟩ := tryCommit_only (stallNoted { s with host.jring := ringAcked p seq s.host.jring })
      rw [hc, hh, hho]
      exact ⟨rfl, rfl, rfl, rfl, rfl, rfl⟩
    · obtain ⟨hf, hr, hst⟩ := countDoorbell_counts (f := .pf p) (s := ackLatched p seq s) hn
      rw [hf, hr, hst]
      exact ⟨rfl, rfl, rfl, rfl⟩
  case input =>
    intro d s hi hw hp hr he hb hd ho
    have h : BlockReads d s := ⟨hi, hw, hp, hr, he, hb, hd, ho⟩
    refine ⟨fun hl => ⟨_, exec_jringInputBlock_repeated h hl, blockEvent_only h _ _⟩,
      fun hl hc hv => ⟨_, exec_jringInputBlock_good h hl hc hv, blockTaken_only h _⟩, fun hl hc hv hh => ⟨_, exec_jringInputBlock_last h hl hc hv, ?_⟩,
      fun hl hc hf => ?_⟩
    · rw [beq_iff_eq.mpr hh]
      exact endRecovery_good _
    · obtain hv | hv := Bool.eq_false_or_eq_true (blockVerifies d s)
      · obtain ⟨hc, hh⟩ := hf.resolve_left (by simp [hv])
        refine ⟨_, exec_jringInputBlock_last h hl hc hv, ?_⟩
        rw [beq_false_of_ne hh]
        exact endRecovery_failed _
      · exact ⟨_, exec_jringInputBlock_false h hl hc hv, endRecovery_failed _⟩

end Sys2Proof.Machine
end

section
/-! Custody, shared: what drawing from the Warden's port, journalling an owner's entry, cancelling an approval and asking for a quorum do. -/

namespace Sys2Proof.Machine

open Sys2Proof.Safety

/-! ### Bits, host pages and time -/

/-- A draw of the Warden's firmware leaves the store, custody, the Lookout with its seconds counter, and the host side (R206). -/
theorem takeWarden_leaves {n : Nat} {s u : State} {r : Option Bytes} (h : takeWarden n s = (r, u)) :
    u.store = s.store ∧ u.cust = s.cust ∧ u.lko = s.lko ∧ u.host = s.host := by
  obtain rfl : (takeWarden n s).2 = u := congrArg Prod.snd h
  unfold takeWarden takeWire askWire setFeed
  split <;> simp

/-- The seconds counter is the Lookout's. -/
theorem seconds_of_lko {s u : State} (h : u.lko = s.lko) : seconds u = seconds s := congrArg (fun l => l.seconds.toNat) h

/-- Which pages a function reaches depends on the host side only (R89). -/
theorem hostOk_of_host {s u : State} (h : u.host = s.host) (fn : Fn) (a n : Nat) : hostOk fn a n u = hostOk fn a n s := by
  unfold hostOk
  rw [h]

/-! ### Commands that read the store, and commands that need a quorum -/

/-- A command that only reads the store answers from a store that is not refused. -/
theorem runCmd_storeRead {mb : Mb} {op : Nat} {q : Req} {s : State} {check : Mb → Req → State → Option Nat} (run : Handler)
    (a : Accepted mb op q s) (hs : storeRefuse s = none) (hc : check mb q s = none) :
    runCmd mb op (storeRead check run) s = .next (applyAns mb q (run mb q s)) := by
  rw [runCmd_accepted _ a, storeRead, direct_run (by simp [hs, hc])]

/-- A designated command sent directly, past its checks, answers QUORUM_MISSING and changes nothing (R102). -/
theorem runCmd_quorumMissing {mb : Mb} {op p : Nat} {q : Req} {s : State} {check : Mb → Req → State → Option Nat} {d : Desig} (run : Handler)
    (a : Accepted mb op q s) (hc : check mb q s = none) (hd : d mb q s = some p) (hp : policySuspended q.opcode p s = false) :
    runCmd mb op (guarded check d run) s = .next (finishMb mb { status := St.quorumMissing } s) :=
  runCmd_reply _ a (by simp [guarded, hc, hd, hp, cmdFail, fail])

/-! ### Owners and approvals -/

/-- Putting an owner's entry is one journal entry that changes no other owner and no key (R91). -/
theorem putOwner_only (o : Nat) (x : Owner) (s : State) :
    tget (putOwner o x s).store.c.owners o = some x ∧ (∀ i, i ≠ o → tget (putOwner o x s).store.c.owners i = tget s.store.c.owners i) ∧
    (putOwner o x s).store.c.keys = s.store.c.keys ∧ (putOwner o x s).store.nextSeq = s.store.nextSeq + 1 := by
  simp +contextual [putOwner, ownerChange, tget_tset_other]

/-- Cancelling one approval takes it out of the open ones and leaves the others (R108, R109). -/
theorem cancelApproval_approvals (id : Nat) (s : State) :
    (cancelApprovals (fun k _ => k == id) s).cust.approvals = tdel s.cust.approvals id := rfl

/-- No approval that a cancellation picks is open after it (R108). -/
theorem not_picked_of_mem_cancelApprovals {p : Nat → Approval → Bool} {s : State} {e : Nat × Approval}
    (h : e ∈ (cancelApprovals p s).cust.approvals) : p e.1 e.2 = false := by
  simpa using (List.mem_filter.mp h).2

end Sys2Proof.Machine
end

section
/-! Owners (O20): what each owner command changes and answers, what STORE_REBASE leaves, and the statement they make up. -/

namespace Sys2Proof.Machine

open Sys2Proof.Safety

/-! ### OWNER_CREATE and OWNER_SEAL -/

/-- The number OWNER_CREATE takes depends on the store only. -/
theorem newOwnerNo_of_store {s u : State} (h : u.store = s.store) (n : Nat) : newOwnerNo n u = newOwnerNo n s := by
  unfold newOwnerNo
  rw [h]

/-- The entry that OWNER_CREATE asks for, with the ROOT drawn (R56, R111). -/
def createdOwner (b : Bytes) (o : Nat) (root : Bytes) : Owner :=
  { estate := decide (o = 0), keyQuota := fld b 4 4, counterQuota := fld b 8 2, vfQuota := fld b 0x0A 2, appletQuota := fld b 0x0C 1, root := root }

/-- A deleted owner's number is used again, and its meter record says so. -/
def meterReused (o : Nat) (s : State) : State :=
  { s with meter.live := tmod s.meter.live o (fun m => if m.deleted then { m with deleted := false, reused := true } else m) }

theorem exec_ownerCreate {mb : Mb} {q : Req} {s u : State} {root : Bytes} {o : Nat} (a : Accepted mb 0x0201 q s)
    (hc : storeCheck ownerCreateCheck mb q s = none) (hs : canChange s = true) (hr : takeWarden 32 s = (some root, u))
    (ho : newOwnerNo (fld q.body 0 4) s = o) :
    Ends (.ownerCreate mb) s mb { body := leBytes 4 o } (putOwner o (createdOwner q.body o root) (meterReused o u)) := by
  obtain ⟨hu, -⟩ := takeWarden_leaves hr
  refine (runCmd_storeCmd ownerCreateRun a hs hc).trans ?_
  simp only [ownerCreateRun, hr, newOwnerNo_of_store hu, ho]
  rfl

/-- The entry as OWNER_SEAL makes it ACTIVE, the anchor of a new domain (R111, R113). -/
def sealedOwner (policy domain : Nat) (x : Owner) : Owner :=
  { x with state := .active, adminPolicy := policy, domainId := domain, member := 0, anchor := true, nextMember := 1 }

/-- Sealing owner 0 ends the wait for the estate after a rebase (R122). -/
def estateSealed (o : Nat) (s : State) : State := if o = 0 then { s with store.rebased := false } else s

theorem estateSealed_store (o : Nat) (s : State) :
    (estateSealed o s).store = { s.store with rebased := s.store.rebased && decide (o ≠ 0) } := by
  unfold estateSealed
  split
  · simp [*]
  · simp [*]

/-- The entry of a seal is the journal's next. -/
theorem lastSeq_estateSealed {s u : State} (h : u.store = s.store) (o : Nat) (x : Owner) :
    lastSeq (estateSealed o (putOwner o x u)) = s.store.nextSeq := by
  obtain ⟨-, -, -, hn⟩ := putOwner_only o x u
  rw [lastSeq, estateSealed_store, hn, h, Nat.add_sub_cancel]

theorem exec_ownerSeal {mb : Mb} {q : Req} {s u : State} {x : Owner} {d : Bytes} (a : Accepted mb 0x0202 q s)
    (hc : storeCheck ownerSealCheck mb q s = none) (hs : canChange s = true) (hd : takeWarden 4 s = (some d, u))
    (hx : getOwner (fld q.body 0 4) s = some x) :
    Ends (.ownerSeal mb) s mb { body := layout 16 [(0, 4, leNat d), (8, 8, s.store.nextSeq)] }
      (estateSealed (fld q.body 0 4) (putOwner (fld q.body 0 4) (sealedOwner (fld q.body 4 4) (leNat d) x) u)) := by
  obtain ⟨hu, -⟩ := takeWarden_leaves hd
  refine (runCmd_storeCmd ownerSealRun a hs hc).trans ?_
  rw [← lastSeq_estateSealed hu (fld q.body 0 4) (sealedOwner (fld q.body 4 4) (leNat d) x)]
  simp only [ownerSealRun, hx, hd]
  rfl

/-! ### The other owner commands -/

/-- An owner's applets are told, and nothing else changes (R370). -/
theorem notifyOwner_leaves (k : NoteKind) (o : Nat) (s : State) : (notifyOwner k o s).store = s.store ∧ (notifyOwner k o s).cust = s.cust := ⟨rfl, rfl⟩

/-- Suspending an owner puts its entry SUSPENDED, cancels its approvals and tells its applets (R93, R108, R370). -/
theorem suspendOwner_eq {o : Nat} {x : Owner} {s : State} (hx : getOwner o s = some x) :
    suspendOwner o s = notifyOwner .ownerSuspended o (cancelApprovals (fun _ a => a.owner == o) (putOwner o { x with state := .suspended } s)) := by
  simp [suspendOwner, hx]

theorem exec_ownerSuspend_resumes {mb : Mb} {q : Req} {s : State} {x : Owner} (a : Accepted mb 0x0205 q s)
    (hc : storeCheck ownerSuspendCheck mb q s = none) (hs : canChange s = true) (hx : getOwner (fld q.body 0 4) s = some x)
    (hb : bitOf (fld q.body 4 4) 0 = true) :
    Ends (.ownerSuspend mb) s mb {} (notifyOwner .ownerResumed (fld q.body 0 4) (putOwner (fld q.body 0 4) { x with state := .active } s)) := by
  refine (runCmd_storeCmd ownerSuspendRun a hs hc).trans ?_
  simp [ownerSuspendRun, hb, hx, applyAns]

theorem exec_ownerSuspend_suspends {mb : Mb} {q : Req} {s : State} (a : Accepted mb 0x0205 q s)
    (hc : storeCheck ownerSuspendCheck mb q s = none) (hs : canChange s = true) (hb : bitOf (fld q.body 4 4) 0 = false) :
    Ends (.ownerSuspend mb) s mb {} (suspendOwner (fld q.body 0 4) s) := by
  refine (runCmd_storeCmd ownerSuspendRun a hs hc).trans ?_
  simp [ownerSuspendRun, hb, applyAns]

theorem exec_ownerSetQuota {mb : Mb} {q : Req} {s : State} {x : Owner} (a : Accepted mb 0x0204 q s)
    (hc : storeCheck ownerCheck mb q s = none) (hs : canChange s = true) (hx : getOwner (fld q.body 0 4) s = some x) :
    Ends (.ownerSetQuota mb) s mb {} (putOwner (fld q.body 0 4)
      { x with keyQuota := fld q.body 4 4, counterQuota := fld q.body 8 2, vfQuota := fld q.body 0x0A 2, appletQuota := fld q.body 0x0C 1 } s) := by
  refine (runCmd_storeCmd ownerSetQuotaRun a hs hc).trans ?_
  simp [ownerSetQuotaRun, hx, applyAns]

theorem exec_ownerQuery {mb : Mb} {q : Req} {s : State} {x : Owner} (a : Accepted mb 0x0203 q s) (hs : storeRefuse s = none)
    (hn : ownerNamed mb (fld q.body 0 4) s = none) (hx : getOwner (fld q.body 0 4) s = some x) :
    Ends (.ownerQuery mb) s mb { body := ownerBytes (fld q.body 0 4) x s.store.c } s := by
  refine (runCmd_storeRead _ a hs hn).trans ?_
  simp [hx, applyAns]

theorem exec_ownerEvidence {mb : Mb} {q : Req} {s : State} {x : Owner} {e : Bytes} (a : Accepted mb 0x0207 q s) (hs : storeRefuse s = none)
    (hn : ownerNamed mb (fld q.body 0 4) s = none) (hx : getOwner (fld q.body 0 4) s = some x)
    (he : ownerEvidence (fld q.body 0 4) x (slice q.body 8 32) s = e) (hl : e.length ≤ fld q.body 0x30 4)
    (hh : hostOk (mbFn mb) (fld q.body 0x28 8) e.length s = true) :
    Ends (.ownerEvidence mb) s mb { body := leBytes 4 e.length } (hostWrite (fld q.body 0x28 8) e s) := by
  refine (runCmd_storeRead _ a hs hn).trans ?_
  simp [hx, he, writeWithin_fits hl hh, applyAns]

/-! ### STORE_REBASE -/

/-- The SEQ a journal resumes at is at least 2^36 above the committed one (R639; log entry 145). -/
theorem resumeSeq_ge (s : State) : s.store.committed + 2 ^ 36 ≤ resumeSeq s := by
  unfold resumeSeq
  rw [List.foldl_max]
  exact le_max_left _ _

/-- The store as a rebase empties it, before its first block (R121). -/
def emptied (s : State) : State :=
  { resumeJournal s with store.c := {}, store.floor := resumeSeq s, store.rebased := true, store.sweep := [], meter.live := [], cust := {} }

/-- Asking for a commit decides when one starts; floor, custody and whether the store was rebased are not its business. -/
theorem wantCommit_leaves (b : Bool) (n : Nat) (s : State) :
    (wantCommit b n s).store.floor = s.store.floor ∧ (wantCommit b n s).store.rebased = s.store.rebased ∧ (wantCommit b n s).cust = s.cust := by
  unfold wantCommit tryCommit
  dsimp only
  repeat' split
  all_goals exact ⟨rfl, rfl, rfl⟩

/-- The emptied store's first block changes nothing and stands at the SEQ the journal resumes at (R639; log entry 145). -/
theorem firstBlock_emptied (s : State) :
    (firstBlock (emptied s)).store.c = {} ∧ (firstBlock (emptied s)).store.floor = resumeSeq s ∧ (firstBlock (emptied s)).store.rebased = true ∧
    (tget (firstBlock (emptied s)).store.hist (resumeSeq s)).map (fun d => d.after) = some {} ∧ (firstBlock (emptied s)).cust = {} ∧
    (firstBlock (emptied s)).mbox = s.mbox := by
  unfold firstBlock
  dsimp only
  obtain ⟨hf, hr, hc⟩ := wantCommit_leaves true (lastSeq (storeChange [] (renewAll (emptied s).store.nextSeq) (emptied s)))
    (storeChange [] (renewAll (emptied s).store.nextSeq) (emptied s))
  rw [wantCommit_c, hf, hr, wantCommit_hist, hc, wantCommit_mbox]
  refine ⟨rfl, rfl, rfl, ?_, rfl, rfl⟩
  exact congrArg (Option.map JDesc.after) (tget_tset_same _ _ _)

/-- The rebased store is READY, with nothing in the Sapwood, and the log says so (R121). -/
def rebased (s : State) : State :=
  setStoreState .ready (logCode 0x0201 0 [(0, 8, resumeSeq s)] (clearSapwood (firstBlock (emptied s))))

theorem exec_storeRebase {mb : Mb} {q : Req} {s : State} (a : Accepted mb 0x0220 q s) (hf : s.store.state = .failed) :
    Ends (.storeRebase mb) s mb { body := leBytes 8 (resumeSeq s) } (rebased s) :=
  runCmd_reply _ a (direct_run (by simp [storeRebaseCheck, hf]))

/-- A change of the store's state, with its event to every PF, touches neither custody nor a mailbox. -/
theorem setStoreState_leaves (st : StoreState) (s : State) : (setStoreState st s).cust = s.cust ∧ (setStoreState st s).mbox = s.mbox := by
  unfold setStoreState
  split
  · exact ⟨rfl, rfl⟩
  · obtain ⟨-, hc, -, hm⟩ := kept_iff.mp (kept_eventAllPfs 1 { s with store.state := st })
    exact ⟨hc, hm⟩

/-- What a rebase makes of the state that the first block leaves. -/
theorem rebased_of_firstBlock (s : State) :
    (rebased s).store = { (firstBlock (emptied s)).store with state := .ready, sap := [], loading := [] } ∧
    (rebased s).cust = (firstBlock (emptied s)).cust ∧ (rebased s).mbox = (firstBlock (emptied s)).mbox := by
  obtain ⟨hc, hm⟩ := setStoreState_leaves .ready (logCode 0x0201 0 [(0, 8, resumeSeq s)] (clearSapwood (firstBlock (emptied s))))
  obtain ⟨-, hc', -, hm'⟩ := kept_iff.mp (kept_logCode 0x0201 0 [(0, 8, resumeSeq s)] (clearSapwood (firstBlock (emptied s))))
  refine ⟨?_, hc.trans hc', hm.trans hm'⟩
  rw [rebased, setStoreState_store, logCode_store]
  rfl

/-- Settles O20: each owner command by the entry it puts and by its answer, and STORE_REBASE by the first block of the emptied store. -/
theorem ownerCommandsComplete : Obligations.OwnerCommandsComplete := by
  unfold Obligations.OwnerCommandsComplete
  refine fun mb q s => ⟨?create, ?seals, fun x a hr hn hx => exec_ownerQuery a hr hn hx, fun x a hc hs hx => exec_ownerSetQuota a hc hs hx, ?suspend,
    fun x a hr hn hx hl hh => exec_ownerEvidence a hr hn hx rfl hl hh, ?rebase⟩
  case create =>
    rintro root a hc hs ⟨u, hr⟩
    obtain ⟨hu, -⟩ := takeWarden_leaves hr
    obtain ⟨hx, ho, hk, hn⟩ := putOwner_only (newOwnerNo (fld q.body 0 4) s) (createdOwner q.body (newOwnerNo (fld q.body 0 4) s) root)
      (meterReused (newOwnerNo (fld q.body 0 4) s) u)
    have hm : (meterReused (newOwnerNo (fld q.body 0 4) s) u).store = s.store := hu
    rw [hm] at ho hk hn
    refine ⟨_, exec_ownerCreate a hc hs hr rfl, ?_⟩
    rw [finishMb_store]
    exact ⟨_, hx, rfl, rfl, rfl, rfl, rfl, rfl, rfl, hn, hk, ho⟩
  case seals =>
    rintro x d a hc hs ⟨u, hd⟩ hx
    obtain ⟨hu, -⟩ := takeWarden_leaves hd
    obtain ⟨hn, ho, hk, -⟩ := putOwner_only (fld q.body 0 4) (sealedOwner (fld q.body 4 4) (leNat d) x) u
    refine ⟨_, exec_ownerSeal a hc hs hd hx, ?_⟩
    rw [finishMb_store, estateSealed_store, ← hu]
    exact ⟨hn, ho, hk, rfl⟩
  case suspend =>
    intro x a hc hs hx
    obtain hb | hb := Bool.eq_false_or_eq_true (bitOf (fld q.body 4 4) 0)
    · obtain ⟨hn, ho, hk, -⟩ := putOwner_only (fld q.body 0 4) { x with state := .active } s
      refine ⟨_, exec_ownerSuspend_resumes a hc hs hx hb, ?_⟩
      rw [finishMb_store, (notifyOwner_leaves _ _ _).1, hb]
      exact ⟨hn, ho, hk, fun h => absurd h (by decide)⟩
    · obtain ⟨hn, ho, hk, -⟩ := putOwner_only (fld q.body 0 4) { x with state := .suspended } s
      refine ⟨_, exec_ownerSuspend_suspends a hc hs hb, ?_⟩
      rw [finishMb_store, finishMb_cust, suspendOwner_eq hx, (notifyOwner_leaves _ _ _).1, (notifyOwner_leaves _ _ _).2, hb]
      exact ⟨hn, ho, hk, fun _ p hp => by simpa using not_picked_of_mem_cancelApprovals hp⟩
  case rebase =>
    intro a hf
    obtain ⟨hs, hc, hm⟩ := rebased_of_firstBlock s
    obtain ⟨hempty, hfloor, hrebased, hhist, hcust, hmbox⟩ := firstBlock_emptied s
    have ⟨_, hq, _⟩ := a
    refine ⟨_, exec_storeRebase a hf, ?_⟩
    rw [finishMb_store, finishMb_cust, hs, hc]
    refine ⟨hempty, rfl, hrebased, hfloor, resumeSeq_ge s, hhist, hcust, (finishMb_done mb q _ _ ?_).2.1⟩
    rw [getMb_of_mbox (hm.trans hmbox), hq]

end Sys2Proof.Machine
end

section
/-! Dual control (O22): what opening, approving, executing and cancelling an approval do, what a designated command sent directly answers, and the statement they make up. -/

namespace Sys2Proof.Machine

open Sys2Proof.Safety

/-- An approval is written under its number. -/
def approvalPut (id : Nat) (a : Approval) (s : State) : State := { s with cust.approvals := tset s.cust.approvals id a }

/-- Writing an approval leaves the others (R103, R105). -/
theorem approvalPut_approvals (id : Nat) (a : Approval) (s : State) :
    tget (approvalPut id a s).cust.approvals id = some a ∧ ∀ i, i ≠ id → tget (approvalPut id a s).cust.approvals i = tget s.cust.approvals i :=
  ⟨tget_tset_same _ _ _, fun _ hi => tget_tset_other _ _ _ _ hi⟩

/-! ### QUORUM_OPEN -/

/-- Taking a blob in line changes the body of a held request only (R103). -/
theorem holdBlob_opcode (mb : Mb) (r : Req) (s : State) : (holdBlob mb r s).2.opcode = r.opcode := by
  unfold holdBlob
  split
  · rfl
  · split
    · rfl
    · split <;> rfl

/-- The approval that QUORUM_OPEN holds under policy p, which is x, with the nonce drawn (R103). -/
def heldApproval (mb : Mb) (q : Req) (p : Nat) (x : Policy) (nonce : Bytes) (s : State) : Approval :=
  let held := holdBlob mb (embeddedReq (embedded q.body)) s
  { policy := p, owner := x.owner, req := held.2, blob := held.1, notAfter := seconds s + x.life, nonce := nonce,
    digest := sha256 (embedded q.body ++ held.1.getD []) }

/-- The answer to QUORUM_OPEN (R123). -/
def openAnswer (id : Nat) (x : Policy) (a : Approval) : Resp :=
  { body := layout 16 [(0, 4, id), (4, 4, a.policy), (8, 1, x.m), (12, 4, a.notAfter)] ++ a.nonce ++ a.digest }

/-- The next approval's number is one more. -/
def numberTaken (s : State) : State := { s with cust.nextId := s.cust.nextId + 1 }

theorem exec_quorumOpen {mb : Mb} {q : Req} {s u : State} {p : Nat} {x : Policy} {n : Bytes} {a : Approval} (h : Accepted mb 0x0210 q s)
    (hc : quorumOpenCheck mb q s = none) (hn : takeWarden 32 s = (some n, u))
    (hp : openPolicy mb (bitOf (fld q.body 4 4) 0) (embeddedReq (embedded q.body)) s = some p) (hx : tget s.store.c.policies p = some x)
    (ha : heldApproval mb q p x n u = a) :
    Ends (.quorumOpen mb) s mb (openAnswer u.cust.nextId x a) (numberTaken (approvalPut u.cust.nextId a u)) := by
  subst ha
  refine runCmd_reply _ h ((direct_run hc).trans ?_)
  simp only [quorumOpenRun, hp, hx, hn, Option.bind_some, Option.map_some]
  rfl

/-! ### QUORUM_APPROVE and QUORUM_CANCEL -/

/-- An approval with one more credential's approval (R105). -/
def approvedBy (cred : Nat) (a : Approval) : Approval := { a with approved := a.approved ++ [cred] }

/-- The number of approvals that an approval's policy needs. -/
def approvalsNeeded (a : Approval) (s : State) : Nat := match tget s.store.c.policies a.policy with | some p => p.m | none => 0

theorem exec_quorumApprove {mb : Mb} {q : Req} {s : State} {a b : Approval} {sig : Bytes} (h : Accepted mb 0x0211 q s)
    (hn : namedApproval mb (fld q.body 0 4) s = .ok a)
    (hb : bodyBlob mb q 0x10 (fld q.body 8 2) (bitOf (fld q.body 0x0C 4) 2) s = some sig)
    (hg : approvalGood (fld q.body 0 4) (fld q.body 4 4) a sig s = true) (ha : approvedBy (fld q.body 4 4) a = b) :
    Ends (.quorumApprove mb) s mb { body := layout 2 [(0, 1, b.approved.length), (1, 1, approvalsNeeded b s)] } (approvalPut (fld q.body 0 4) b s) := by
  subst ha
  refine runCmd_reply _ h ?_
  simp only [quorumApproveRun, hn, hb, hg]
  rfl

theorem exec_quorumCancel {mb : Mb} {q : Req} {s : State} {a : Approval} (h : Accepted mb 0x0213 q s)
    (hn : namedApproval mb (fld q.body 0 4) s = .ok a) :
    Ends (.quorumCancel mb) s mb {} (cancelApprovals (fun k _ => k == fld q.body 0 4) s) := by
  refine runCmd_reply _ h ?_
  simp only [quorumCancelRun, hn]

/-! ### QUORUM_EXECUTE -/

/-- A consumed approval is open no more (R107). -/
theorem tget_consume (mb : Mb) (reqId id op : Nat) (s : State) : tget (consume mb reqId id op s).cust.approvals id = none :=
  tget_tdel_same s.cust.approvals id

/-- With nothing uncommitted, success under a quorum is answered at once, as durable (R79, R107; that it does not wait is the model's choice, log entry 136). -/
theorem quorumAns_committed {r : Resp} {s : State} (h : lastSeq s ≤ s.store.committed) :
    quorumAns r s = (.reply { r with info := r.info ||| St.durable }, s) := if_pos h

section Execute
variable {mb : Mb} {q : Req} {s u : State} {a : Approval} (h : Accepted mb 0x0212 q s) (hn : namedApproval mb (fld q.body 0 4) s = .ok a)
include h hn

/-- Too few approvals: QUORUM_MISSING, and nothing changes (R107). -/
theorem exec_quorumExecute_missing (hi : (getMb mb s).inner = none) (he : approvedEnough a s = false) :
    Ends (.quorumExecute mb) s mb { status := St.quorumMissing } s := by
  refine runCmd_reply _ h ?_
  simp [quorumExecuteRun, hn, hi, he, cmdFail, fail]

variable (he : approvedEnough a s = true)
include he

/-- The held request fails: its own answer, and the approval is consumed (R107). -/
theorem exec_quorumExecute_fails {r : Resp} (hr : runHeld mb a.req s = (.reply r, u)) (hs : r.status ≠ 0) :
    Ends (.quorumExecute mb) s mb r (consume mb q.reqId (fld q.body 0 4) a.req.opcode u) := by
  refine runCmd_reply _ h ?_
  simp [quorumExecuteRun, hn, he, hr, hs]

/-- The held request succeeds with nothing uncommitted: its own answer, durable, and the approval is consumed (R107; log entry 136). -/
theorem exec_quorumExecute_succeeds {r : Resp} (hr : runHeld mb a.req s = (.reply r, u)) (hs : r.status = 0)
    (hc : lastSeq u ≤ u.store.committed) :
    Ends (.quorumExecute mb) s mb { r with info := r.info ||| St.durable } (consume mb q.reqId (fld q.body 0 4) a.req.opcode u) := by
  have hq := quorumAns_committed (r := r) (s := consume mb q.reqId (fld q.body 0 4) a.req.opcode u) hc
  refine runCmd_reply _ h ?_
  simp [quorumExecuteRun, hn, he, hr, hs, hq]

/-- The held request waits: so does the execution, and the approval is consumed (R107). -/
theorem exec_quorumExecute_holds {w : MbWait} (hr : runHeld mb a.req s = (.hold w, u)) :
    Holds (.quorumExecute mb) s mb q w (consume mb q.reqId (fld q.body 0 4) a.req.opcode u) := by
  refine runCmd_hold _ h ?_
  simp [quorumExecuteRun, hn, he, hr]

end Execute

/-- Settles O22: each command by what it does to the open approvals, and the held request by each way its run can go. -/
theorem dualControl : Obligations.DualControl := by
  unfold Obligations.DualControl
  refine fun mb q s => ⟨?opens, ?approve, ?execute, ?cancel, ?direct⟩
  case opens =>
    rintro p x n h hc ⟨u, hn⟩ hp hx
    obtain ⟨hs, hcu, hl, -⟩ := takeWarden_leaves hn
    refine ⟨_, exec_quorumOpen h hc hn hp hx rfl, ?_⟩
    have hid : u.cust.nextId + 1 = s.cust.nextId + 1 := by rw [hcu]
    rw [finishMb_store, finishMb_cust, hcu]
    refine ⟨_, (approvalPut_approvals _ _ _).1, hid, rfl, rfl, rfl, ?_, rfl, holdBlob_opcode _ _ _, hs⟩
    exact congrArg (· + x.life) (seconds_of_lko hl)
  case approve =>
    intro a sig h hn hb hg
    refine ⟨_, exec_quorumApprove h hn hb hg rfl, ?_⟩
    rw [finishMb_store, finishMb_cust]
    obtain ⟨hi, ho⟩ := approvalPut_approvals (fld q.body 0 4) (approvedBy (fld q.body 4 4) a) s
    exact ⟨hi, ho, rfl⟩
  case execute =>
    exact fun a h hn hi => ⟨exec_quorumExecute_missing h hn hi, fun r u he hr hs => exec_quorumExecute_fails h hn he hr hs,
      fun r u he hr hs hc => exec_quorumExecute_succeeds h hn he hr hs hc, fun w u he hr => exec_quorumExecute_holds h hn he hr,
      fun u => tget_consume _ _ _ _ _⟩
  case cancel =>
    intro a h hn
    refine ⟨_, exec_quorumCancel h hn, ?_⟩
    rw [finishMb_store, finishMb_cust, cancelApproval_approvals]
    exact ⟨tget_tdel_same _ _, rfl, fun i hi => tget_tdel_other _ _ _ hi⟩
  case direct =>
    intro p h hc hd hp
    have ⟨_, _, ho, _⟩ := h
    exact runCmd_quorumMissing (storeRun credRevokeRun) h hc hd (by rw [ho]; exact hp)

end Sys2Proof.Machine
end

section
/-! Replication and backup (O23): what REPLICA_PREPARE writes and keeps, how an image that opens is installed, and the statement they make up. -/

namespace Sys2Proof.Machine

open Sys2Proof.Safety

/-! ### REPLICA_PREPARE -/

/-- A prepare is kept (R114). -/
def prepareKept (p : Prepare) (s : State) : State := { s with cust.prepares := s.cust.prepares ++ [p] }

/-- The prepare of an owner: nonce and secret part from the bits drawn, usable for 600 s (R114). -/
def prepareOf (o : Nat) (bits : Bytes) (s : State) : Prepare :=
  { owner := o, nonce := bits.take 32, priv := bits.drop 32, until_ := seconds s + 600 }

/-- The blob goes to host memory, and the prepare is kept (R114; the model's 0xFFFF stands for a PENDING owner's member index and for no VF, log entry 29). -/
theorem exec_replicaPrepare {mb : Mb} {q : Req} {s u : State} {x : Owner} {bits blob : Bytes} (a : Accepted mb 0x0218 q s)
    (hc : readCheck replicaPrepareCheck mb q s = none) (hx : getOwner (fld q.body 0 4) s = some x) (hb : takeWarden 144 s = (some bits, u))
    (hp : prepBlob x.domainId (if x.state = .pending then 0xFFFF else x.member) 0xFFFF (bits.take 32) (bits.drop 32) u = blob)
    (hl : blob.length ≤ fld q.body 0x10 4) (hh : hostOk (mbFn mb) (fld q.body 8 8) blob.length u = true) :
    Ends (.replicaPrepare mb) s mb { body := leBytes 4 blob.length }
      (prepareKept (prepareOf (fld q.body 0 4) bits u) (hostWrite (fld q.body 8 8) blob u)) := by
  refine runCmd_reply _ a ((direct_run hc).trans ?_)
  simp only [replicaPrepareRun, hx, hb, noMember, hp, writeWithin_fits hl hh]
  rfl

/-- An answer leaves host memory. -/
theorem finishMb_mem (mb : Mb) (r : Resp) (s : State) : (finishMb mb r s).host.mem = s.host.mem := congrArg Prod.snd (ringMem_finishMb mb r s)

/-! ### Installing an image -/

/-- An installation's answer waits for the commit of its last entry, and carries the handle map (R116). -/
abbrev installWait (addr : Nat) (r : Install) (u : State) : MbWait :=
  .commitWrite (lastSeq u) addr r.map { body := layout 16 [(0, 4, r.n), (4, 4, r.moved), (8, 8, lastSeq u)] }

theorem exec_replicaApply {mb : Mb} {q : Req} {s v u : State} {p : Prepare} {i : OwnerImg} {bits : Bytes} {r : Install}
    (a : Accepted mb 0x021A q s) (hc : storeCheck replicaApplyCheck mb q s = none) (hs : canChange s = true)
    (ho : openReplica mb q s = .ok (p, i)) (hb : takeSap (maskNeed i) s = (some bits, v)) (hr : applyOf mb q bits v = .ok (r, u)) :
    Holds (.replicaApply mb) s mb q (installWait (fld q.body 0x18 8) r u) (wantCommit false (lastSeq u) u) := by
  refine (runCmd_storeCmd replicaApplyRun a hs hc).trans ?_
  simp only [replicaApplyRun, ho, hb, hr]
  rfl

/-- A PENDING owner's restore needs no quorum; its KEK is one the caller may act for (R93, R120; whose KEK it is, log entry 134). -/
theorem exec_ownerRestore {mb : Mb} {q : Req} {s v u : State} {n slot : Nat} {w : KeyRec} {i : OwnerImg} {bits : Bytes} {r : Install}
    (a : Accepted mb 0x021C q s) (hc : storeCheck ownerRestoreCheck mb q s = none) (hd : activeDesig (fld q.body 0 4) s = none)
    (hs : canChange s = true) (ho : openBackup mb q s = .ok (n, i)) (hk : backupKek mb (fld q.body 0 4) (fld q.body 8 8) s = .ok (slot, w))
    (hu : KeyInUse mb slot w s) (hb : takeSap (maskNeed i) s = (some bits, v)) (hr : restoreOf mb q i bits v = .ok (r, u)) :
    Holds (.ownerRestore mb) s mb q (installWait (fld q.body 0x20 8) r u) (wantCommit false (lastSeq u) u) := by
  refine (runCmd_store ownerRestoreRun a hs hc hd).trans ?_
  simp only [ownerRestoreRun, ho, hk, useKey_ready hu, hb, hr]
  rfl

/-- Settles O23: the blob and the prepare kept, the two installations, and the three commands that ask for their owner's quorum. -/
theorem replicationAndBackup : Obligations.ReplicationAndBackup := by
  unfold Obligations.ReplicationAndBackup
  refine fun mb q s => ⟨?prepare, fun p i bits v r u a hc hs ho hb hr => exec_replicaApply a hc hs ho hb hr,
    fun n w slot i bits v r u a hc hd hs ho hk hu hb hr => exec_ownerRestore a hc hd hs ho hk hu hb hr,
    fun hp => ⟨fun a hc => ?delete, fun a hc => ?replica, fun a hc => ?backup⟩⟩
  case prepare =>
    intro x bits u blob a hc hx hb hp hl hh
    obtain ⟨hs, hcu, hlk, hho⟩ := takeWarden_leaves hb
    refine ⟨_, exec_replicaPrepare a hc hx hb hp hl ((hostOk_of_host hho _ _ _).trans hh), ?_⟩
    rw [finishMb_mem, finishMb_store, finishMb_cust, ← hho, ← hcu, ← seconds_of_lko hlk]
    exact ⟨rfl, hs, rfl, rfl⟩
  case delete => exact runCmd_quorumMissing (storeRun ownerDeleteRun) a hc rfl hp
  case replica => exact runCmd_quorumMissing replicaExportRun a hc rfl hp
  case backup => exact runCmd_quorumMissing ownerBackupRun a hc rfl hp

end Sys2Proof.Machine
end

section
/-! Hardened unwrap cores (O26): what a block slot's end does to the core's stand, what the ends of work leave of an isolated core, and the statement they make up. -/

namespace Sys2Proof.Machine

/-! ### A stand's record -/

@[simp] theorem getStand_setStand_same (st : Nat) (x : Stand) (s : State) : getStand st (setStand st x s) = x := tgetD_tset_same _ _ _ _

theorem getStand_setStand_other {i j : Nat} (h : i ≠ j) (x : Stand) (s : State) : getStand i (setStand j x s) = getStand i s :=
  tgetD_tset_other _ _ _ _ _ h

@[simp] theorem getStand_askWire (i st w n : Nat) (s : State) : getStand i (askWire st w n s) = getStand i s := rfl

/-- A draw from a wire changes the banks only (R206, R216). -/
theorem takeWire_only (st w n : Nat) (s : State) : (takeWire st w n s).2 = { s with units.banks := (takeWire st w n s).2.units.banks } := by
  unfold takeWire
  split <;> rfl

/-- What a block slot puts into the core's registers does not depend on the banks. -/
theorem hucRegsOf_takeWire {st w n : Nat} {s u : State} {o : Option Bytes} (h : takeWire st w n s = (o, u)) (r : HucReq) (d : Bytes) :
    hucRegsOf (hucSlot r u) d u = hucRegsOf (hucSlot r s) d s := by
  obtain rfl : (takeWire st w n s).2 = u := congrArg Prod.snd h
  rw [takeWire_only]
  rfl

theorem getStand_takeWire {i st w n : Nat} {s u : State} {o : Option Bytes} (h : takeWire st w n s = (o, u)) : getStand i u = getStand i s := by
  obtain rfl : (takeWire st w n s).2 = u := congrArg Prod.snd h
  rw [takeWire_only]
  rfl

/-! ### HUC_BLOCK_DONE -/

/-- The place in the queue of the request served in turn (R145). -/
abbrev hucIndex (x : Stand) : Nat := x.hucNext % max 1 x.hucQueue.length

/-- A turn moves requests only. -/
theorem hucTurn_leaves (x : Stand) :
    (hucTurn x).hucStall = x.hucStall ∧ (hucTurn x).hucBlocks = x.hucBlocks ∧ (hucTurn x).hucRegs = x.hucRegs := by
  unfold hucTurn
  dsimp only
  split
  · exact ⟨rfl, rfl, rfl⟩
  · split <;> exact ⟨rfl, rfl, rfl⟩

/-- A request with blocks left stays in its place, and the turn passes on (R142, R145). -/
theorem hucTurn_more {x : Stand} {r : HucReq} (hr : x.hucQueue[hucIndex x]? = some r) (hl : 1 < r.left) :
    hucTurn x = { x with hucQueue := x.hucQueue.set (hucIndex x) { r with left := r.left - 1 }, hucNext := hucIndex x + 1 } := by
  simp only [hucTurn, hr, if_neg (Nat.not_le.2 hl)]

/-- A request whose last block is done leaves, and the queue fills from the sources (R142, R145). -/
theorem hucTurn_last {x : Stand} {r : HucReq} (hr : x.hucQueue[hucIndex x]? = some r) (hl : r.left ≤ 1) :
    hucTurn x = hucFill { x with hucQueue := x.hucQueue.eraseIdx (hucIndex x), hucNext := hucIndex x } := by
  simp only [hucTurn, hr, if_pos hl]

theorem hucFill_none_held {x : Stand} (h : x.hucHeld = []) : (hucFill x).hucQueue = x.hucQueue := by
  simp [hucFill, h]

/-- The stand of a core whose block slot has run, before the turn passes: the slot counted, its key shares, mask and rounds in the registers (R143). -/
def hucSlotRun (st : Nat) (r : HucReq) (d : Bytes) (s : State) : Stand :=
  { getStand st s with hucStall := false, hucBlocks := (getStand st s).hucBlocks + 1, hucRegs := hucRegsOf (hucSlot r s) d s }

/-- Without the slot's random bits the core stalls and counts the cycles (R144; how many is the model's free value, log entry 143). -/
theorem exec_hucBlockDone_stalls {st : Nat} {r : HucReq} {s u : State} (hst : st < 8)
    (hr : (getStand st s).hucQueue[hucIndex (getStand st s)]? = some r) (hw : takeWire st 3 hucBits s = (none, u)) :
    exec (.hucBlockDone st) s =
      .next (setStand st { getStand st s with hucStall := true, hucStalls := (getStand st s).hucStalls + BitVec.ofNat 64 (draw u).1 } (draw u).2) := by
  have hg : getStand st (draw u).2 = getStand st s := (getStand_takeWire hw : getStand st u = getStand st s)
  change execHucBlockDone st s = _
  simp only [execHucBlockDone, onUnit, hst, decide_true, if_true, hr, hw, hg]

/-- With them the slot has run and the turn passes (R142, R143, R145). -/
theorem exec_hucBlockDone_serves {st : Nat} {r : HucReq} {d : Bytes} {s u : State} (hst : st < 8)
    (hr : (getStand st s).hucQueue[hucIndex (getStand st s)]? = some r) (hw : takeWire st 3 hucBits s = (some d, u)) :
    ∃ t, exec (.hucBlockDone st) s = .next t ∧ getStand st t = hucTurn (hucSlotRun st r d s) ∧ t.store = s.store ∧ t.ctxs = s.ctxs := by
  have hu : u = { s with units.banks := u.units.banks } := by
    have h := takeWire_only st 3 hucBits s
    rwa [hw] at h
  change ∃ t, execHucBlockDone st s = .next t ∧ _
  simp only [execHucBlockDone, onUnit, hst, decide_true, if_true, hr, hw, getStand_takeWire hw, hucRegsOf_takeWire hw]
  have hstore : u.store = s.store := by rw [hu]
  have hctxs : u.ctxs = s.ctxs := by rw [hu]
  refine ⟨_, rfl, ?_⟩
  split <;> exact ⟨getStand_setStand_same _ _ _, hstore, hctxs⟩

/-! ### A core out of service -/

/-- Whether a stand's core is isolated, with the requests queued at it and held for it. -/
def hucView (h : Nat) (s : State) : Bool × List HucReq × List HucReq :=
  ((getStand h s).hucIsolated, (getStand h s).hucQueue, (getStand h s).hucHeld)

/-- A core is isolated and no request waits for it (R536). -/
def HucGone (h : Nat) (s : State) : Prop := hucView h s = (true, [], [])

theorem hucGone_iff {h : Nat} {s : State} :
    HucGone h s ↔ (getStand h s).hucIsolated = true ∧ (getStand h s).hucQueue = [] ∧ (getStand h s).hucHeld = [] := by
  simp only [HucGone, hucView, Prod.mk.injEq]

theorem HucGone.of_view {h : Nat} {s t : State} (k : HucGone h s) (e : hucView h t = hucView h s) : HucGone h t := e.trans k

theorem hucView_of_units {s t : State} (e : t.units = s.units) (h : Nat) : hucView h t = hucView h s := by
  unfold hucView getStand
  rw [e]

theorem units_of_beside {s t : State} (h : Beside s t) : t.units = s.units := congrArg (fun p => p.2.2.2.2.2.2.2.2.2.2.2.2.2.1) h

/-! A context that ends -/

/-- A stand's counters are no part of the view of its core. -/
theorem hucView_countChecked (h st n : Nat) (s : State) : hucView h (countChecked st n s) = hucView h s := by
  unfold countChecked
  split
  · by_cases e : h = st
    · subst e
      simp only [hucView, getStand_setStand_same]
    · simp only [hucView, getStand_setStand_other e]
  · rfl

theorem hucView_countCut (h : Nat) (x : Ctx) (s : State) : hucView h (countCut x s) = hucView h s := by
  unfold countCut
  split
  · rfl
  · split
    · rfl
    · exact hucView_countChecked _ _ _ _

theorem meterJob_units (x : Ctx) (w : Nat) (s : State) : (meterJob x w s).units = s.units := by
  unfold meterJob
  dsimp only
  repeat' split
  all_goals rfl

theorem hucView_settle (h c : Nat) (o : CtxOutcome) (s : State) : hucView h (settle c o s) = hucView h s := by
  unfold settle
  split
  · rfl
  · exact (hucView_of_units (meterJob_units _ _ _) h).trans (hucView_countCut h _ s)

theorem cutShort_units (x : Ctx) (s : State) : (cutShort x s).2.units = s.units := by
  unfold cutShort
  split <;> rfl

theorem earlyOut_units (x : Ctx) (s : State) : (earlyOut x s).2.units = s.units := by
  unfold earlyOut
  dsimp only
  repeat' split
  all_goals rfl

theorem hucView_abort (h c status : Nat) (s : State) : hucView h (abort c status s) = hucView h s := by
  unfold abort
  split
  · rfl
  · rename_i x _
    exact (hucView_settle _ _ _ _).trans (hucView_of_units ((earlyOut_units _ _).trans (cutShort_units x s)) h)

/-! A command that ends -/

theorem getStand_hucDrop (h : Nat) (r : HucSrc) (s : State) : getStand h (hucDrop r s) = hucKeep (fun q => q.src != r) (getStand h s) := by
  simp only [getStand, hucDrop, tgetD, tget_tmap]
  cases tget s.units.stands h <;> rfl

/-- Requests that leave the cores add none to a core that has none. -/
theorem hucDrop_gone {h : Nat} {s : State} (k : HucGone h s) (r : HucSrc) : HucGone h (hucDrop r s) := by
  obtain ⟨hi, hq, hh⟩ := hucGone_iff.1 k
  simp [hucGone_iff, getStand_hucDrop, hucKeep, hucFill, hi, hq, hh]

theorem endJob_gone {h : Nat} {s : State} (k : HucGone h s) (mb : Mb) : HucGone h (endJob mb s) := by
  unfold endJob
  split
  · exact k
  · exact hucDrop_gone (k.of_view (hucView_of_units (setMb_units _ _ _) h)) _

/-- Of the units, the end of a command changes what the end of its job does. -/
theorem finishMb_units_endJob (mb : Mb) (r : Resp) (s : State) : (finishMb mb r s).units = (endJob mb s).units := by
  have hrec (code op status agent : Nat) (t : State) : (commandRec code mb op status agent t).units = t.units := units_of_beside commandRec_beside
  have hpost (b : Bytes) (t : State) : (postResp mb b t).units = t.units := units_of_beside postResp_beside
  unfold finishMb
  dsimp only
  split
  · rfl
  · rw [hpost, setMb_units]
    split <;> split <;> simp only [hrec]

theorem finishMb_gone {h : Nat} {s : State} (k : HucGone h s) (mb : Mb) (r : Resp) : HucGone h (finishMb mb r s) :=
  (endJob_gone k mb).of_view (hucView_of_units (finishMb_units_endJob mb r s) h)

/-! The requests of a core that fails -/

theorem hucEnd_gone {h : Nat} {s : State} (k : HucGone h s) (r : HucReq) : HucGone h (hucEnd r s) := by
  unfold hucEnd
  split
  · exact k.of_view (hucView_abort _ _ _ _)
  · exact finishMb_gone k _ _

theorem hucEnds_gone {h : Nat} {s : State} (k : HucGone h s) (rs : List HucReq) : HucGone h (hucEnds rs s) := by
  induction rs generalizing s with
  | nil => exact k
  | cons r rs ih => exact ih (hucEnd_gone k r)

/-- Requests move to a core in service (R536). -/
theorem hucFor_in_service {h k : Nat} {s : State} (e : hucFor h s = some k) : (getStand k s).hucIsolated = false := by
  unfold hucFor at e
  dsimp only at e
  split at e
  · rename_i ok
    cases e
    simpa using ok
  · split at e
    · rename_i ok
      cases e
      simpa using ok
    · simpa using List.find?_some e

theorem hucTake_gone {h k : Nat} {s : State} (g : HucGone h s) (hk : (getStand k s).hucIsolated = false) (rs : List HucReq) :
    HucGone h (hucTake k rs s) := by
  have hn : h ≠ k := by
    rintro rfl
    exact Bool.false_ne_true (hk.symm.trans (hucGone_iff.1 g).1)
  unfold hucTake
  dsimp only
  split
  · exact g
  · refine g.of_view ?_
    simp only [hucView, getStand_askWire, getStand_setStand_other hn]

/-! Reports, records and the directory -/

theorem unitRec_units (code : Nat) (arg : List (Nat × Nat × Nat)) (inj : Bool) (s : State) : (unitRec code arg inj s).units = s.units :=
  units_of_beside logPut_beside

theorem linkWeights_units (s : State) : (linkWeights s).units = s.units := by
  refine foldl_keeps (f := State.units) (fun t l => ?_) _ s
  dsimp only
  split <;> rfl

theorem recomputeWeights_units (s : State) : (recomputeWeights s).units = s.units := by
  refine (foldl_keeps (f := State.units) (fun t a => ?_) _ _).trans (linkWeights_units s)
  dsimp only
  split
  · rfl
  · exact raiseEvent_units _ _ _

/-- A rewrite of the directory leaves the stands (R26). -/
theorem capRewrite_stands (s : State) : (capRewrite s).units.stands = s.units.stands := by
  unfold capRewrite
  split
  · rw [recomputeWeights_units]
  · dsimp only
    rw [recomputeWeights_units, eventAllPfs_units, logCode_units]

/-- The mode, the directory and the record that end a core's failure leave the cores. -/
theorem hucView_retired (h code : Nat) (arg : List (Nat × Nat × Nat)) (inj : Bool) (s : State) :
    hucView h (refreshMode (capRewrite (unitRec code arg inj s))) = hucView h s := by
  have hstands : (refreshMode (capRewrite (unitRec code arg inj s))).units.stands = s.units.stands := by
    rw [units_of_beside refreshMode_beside, capRewrite_stands, unitRec_units]
  unfold hucView getStand
  rw [hstands]

/-! ### HUC_FAILURE -/

/-- A core that fails is isolated, and whatever its requests end as or move to, none is queued at it again (R145, R536). -/
theorem hucFail_gone {h : Nat} {inj : Bool} {s : State} (hi : (getStand h s).hucIsolated = false) : HucGone h (hucFail h inj s) := by
  unfold hucFail
  simp only [hi, Bool.false_eq_true, if_false]
  refine HucGone.of_view ?_ (hucView_retired _ _ _ _ _)
  generalize hv : hucEnds _ _ = v
  have hg : HucGone h v := by
    rw [← hv]
    refine hucEnds_gone ?_ _
    rw [hucGone_iff, getStand_setStand_same]
    exact ⟨rfl, rfl, rfl⟩
  split
  · rename_i k e
    exact hucTake_gone hg (hucFor_in_service e) _
  · exact (hucEnds_gone hg _).of_view (hucView_of_units (units_of_beside serviceReport_beside) h)

theorem hucFail_commit (h : Nat) (inj : Bool) (s : State) : (hucFail h inj s).commit = s.commit :=
  congrArg (fun p => p.2.2) (hucFail_same : Same s (hucFail h inj s))

theorem exec_hucFailure {st : Nat} (hst : st < 8) (s : State) : exec (.hucFailure st) s = .next (hucFail st false s) := by
  change execHucFailure st s = _
  simp [execHucFailure, onUnit, hst]

/-- A core already isolated is only counted. -/
theorem hucFail_isolated {h : Nat} {inj : Bool} {s : State} (hi : (getStand h s).hucIsolated = true) : hucFail h inj s = countFault 0 s := by
  simp only [hucFail, hi, if_true]

/-- Settles O26: the stall, the block served with its request kept or gone, and the failure. -/
theorem hucCommandsComplete : Obligations.HucCommandsComplete := by
  unfold Obligations.HucCommandsComplete
  refine fun st s hst => ⟨fun r hr => ⟨fun u hw => exec_hucBlockDone_stalls hst hr hw, ?served⟩, ?failed, ?isolated⟩
  case served =>
    intro d u hw
    obtain ⟨t, he, hg, hstore, hctxs⟩ := exec_hucBlockDone_serves hst hr hw
    obtain ⟨hstall, hblocks, hregs⟩ := hucTurn_leaves (hucSlotRun st r d s)
    rw [← hg] at hstall hblocks hregs
    refine ⟨t, he, hstall, hblocks, hregs, congrArg HucRegs.mask hregs, hstore, hctxs, fun hl => ?_, fun hl => ?_⟩
    · rw [hg, hucTurn_more (x := hucSlotRun st r d s) hr hl]
      exact ⟨rfl, rfl⟩
    · rw [hg, hucTurn_last (x := hucSlotRun st r d s) hr hl]
      exact ⟨rfl, fun hh => hucFill_none_held hh⟩
  case failed =>
    intro hi
    obtain ⟨hiso, hqueue, -⟩ := hucGone_iff.1 (hucFail_gone (inj := false) hi)
    exact ⟨_, exec_hucFailure hst s, hiso, hqueue, hucFail_commit st false s⟩
  case isolated =>
    intro hi
    rw [exec_hucFailure hst, hucFail_isolated hi]

end Sys2Proof.Machine
end

section
/-! Digest engines, shared: an engine's record, and what a write that its port takes does (R159, R161). -/

namespace Sys2Proof.Machine

open Sys2Proof.Safety

/-! ### An engine's record -/

@[simp] theorem getDge_setDge_same (g : Nat) (d : Dge) (s : State) : getDge g (setDge g d s) = d := tgetD_tset_same _ _ _ _

theorem getDge_setDge_other {i g : Nat} (h : i ≠ g) (d : Dge) (s : State) : getDge i (setDge g d s) = getDge i s :=
  tgetD_tset_other _ _ _ _ _ h

theorem putDge_units (g : Nat) (d : Dge) (s : State) : (putDge g d s).units = (setDge g d s).units := by
  unfold putDge
  split <;> rfl

theorem getDge_of_units {s t : State} (h : t.units = s.units) (i : Nat) : getDge i t = getDge i s := by
  unfold getDge
  rw [h]

/-- From s to t engine g's record has become d; no other engine's has, and the key store is the same. -/
def EngineBecomes (g : Nat) (d : Dge) (s t : State) : Prop :=
  getDge g t = d ∧ (∀ i, i ≠ g → getDge i t = getDge i s) ∧ t.store = s.store

theorem putDge_becomes (g : Nat) (d : Dge) (s : State) : EngineBecomes g d s (putDge g d s) := by
  have h := getDge_of_units (putDge_units g d s)
  refine ⟨?_, fun i hi => ?_, store_of_kept (kept_putDge g d s)⟩
  · rw [h, getDge_setDge_same]
  · rw [h, getDge_setDge_other hi]

/-- With no writer stalled there is no write to try again. -/
theorem dgeResume_none_stalled {g : Nat} {s : State} (h : (getDge g s).stalled = []) : dgeResume g s = s := by
  simp [dgeResume, h]

theorem dgeResume_putDge {g : Nat} {d : Dge} (s : State) (h : d.stalled = []) : dgeResume g (putDge g d s) = putDge g d s :=
  dgeResume_none_stalled ((congrArg Dge.stalled (putDge_becomes g d s).1).trans h)

/-! ### A write at the port -/

/-- The state in which an access of engine g by a master is taken: issued in its stream, its SEQ accepted (R22, R426). -/
def accepted (g m : Nat) (s : State) : State :=
  acceptSeq (nextTag m (g / 2) s) (g / 2) (issue (masterTag m s) (g / 2) s).2

/-- An engine with its claim taken by a master where the write is one of DGE_CTRL (R161). -/
def claimedBy (m o n : Nat) (d : Dge) : Dge := if o == 0 && isWord o n then { d with claim := some m } else d

/-- A write of slot 0's own or first master has its effect (R161). -/
theorem dgeClaimed_own {g : Nat} {w : DgeWrite} {d : Dge} {s : State} (hd : getDge g s = d) (hc : d.claim = none ∨ d.claim = some w.tag.master) :
    dgeClaimed g w s = dgeEffect g w.tag w.off w.bytes w.value (claimedBy w.tag.master w.off w.bytes d) s := by
  obtain hc | hc := hc
  · simp only [dgeClaimed, hd, hc, claimedBy]
  · have e : claimedBy w.tag.master w.off w.bytes d = d := by
      unfold claimedBy
      split
      · rw [← hc]
      · rfl
    simp only [dgeClaimed, hd, hc, e, if_true]

/-- A write that the port takes, and that need not wait, has its effect (R159, R161, R163). -/
theorem dgePort_effect {g m o n v : Nat} {d : Dge} {s : State} (h : DgeTakes g m o d s)
    (hw : dgeStalls { tag := nextTag m (g / 2) s, off := o, bytes := n, value := v } d (accepted g m s) = false) :
    dgePort g m o n v s = dgeResume g (dgeEffect g (nextTag m (g / 2) s) o n v (claimedBy (masterTag m s).master o n d) (accepted g m s)) := by
  obtain ⟨-, hd, hawake, hperm, hin, -, hstalled, hclaim⟩ := h
  have ha : getDge g (accepted g m s) = d := hd
  have hport : dgePort g m o n v s = dgeWrite g (nextTag m (g / 2) s) o n v (accepted g m s) := by
    simp only [dgePort, atPort, hawake, Bool.false_eq_true, if_false]
    exact if_pos hperm
  rw [hport, dgeWrite, ha, hin, dgeTurn, ha, hstalled, hw]
  simp only [List.any_nil, Bool.or_self, Bool.false_eq_true, if_false]
  rw [dgeClaimed_own ha hclaim]
  rfl

section Waits
variable {t : FabricTag} {o n v : Nat} {d : Dge} (s : State) (hx : d.xfer = none)
include hx

/-- A write at another register than DGE_DATA, DGE_LASTW and DGE_KEYHANDLE waits for nothing but a save or restore (R175). -/
theorem dgeStalls_register (h28 : o ≠ 0x28) (h30 : o ≠ 0x30) (h38 : o ≠ 0x38) :
    dgeStalls { tag := t, off := o, bytes := n, value := v } d s = false := by
  simp [dgeStalls, handleWait, hx, h28, h30, h38]

/-- A message word waits for room in the FIFO only (R163). -/
theorem dgeStalls_word (h28 : o ≠ 0x28) (hf : fifoUsed d < 32) : dgeStalls { tag := t, off := o, bytes := n, value := v } d s = false := by
  simp [dgeStalls, handleWait, hx, h28, Nat.not_le.2 hf]

/-- A handle whose lease need not wait does not either (R169, R171). -/
theorem dgeStalls_handle {slot : Nat} {k : KeyRec} (hk : dgeKeyOf v t.owner s = .ok (slot, k)) (hl : leaseWaits slot k s = false) :
    dgeStalls { tag := t, off := 0x28, bytes := n, value := v } d s = false := by
  simp [dgeStalls, handleWait, hx, hk, hl]

end Waits

/-- Where the effect of a write is to put slot 0 back, that is all the port does. -/
theorem dgePort_puts {g m o n v : Nat} {d e : Dge} {s : State} (h : DgeTakes g m o d s)
    (hw : dgeStalls { tag := nextTag m (g / 2) s, off := o, bytes := n, value := v } d (accepted g m s) = false)
    (he : dgeEffect g (nextTag m (g / 2) s) o n v (claimedBy (masterTag m s).master o n d) (accepted g m s) = putDge g e (accepted g m s))
    (hs : e.stalled = []) : EngineBecomes g e s (dgePort g m o n v s) := by
  rw [dgePort_effect h hw, he, dgeResume_putDge _ hs]
  exact putDge_becomes g e (accepted g m s)

end Sys2Proof.Machine
end

section
/-! Digest control (O27): what a value of DGE_CTRL and each of its strobes does to slot 0, and the statement they make up. -/

namespace Sys2Proof.Machine

open Sys2Proof.Safety

/-! ### DGE_CTRL -/

/-- The fields of a DGE_CTRL value. -/
def configured (v : Nat) (d : Dge) : Dge := { d with alg := bits v 3 0, keyed := bitOf v 4, compare := bitOf v 5, cmpLen := bits v 12 6 }

theorem dgeKeyClr_stalled (d : Dge) : (dgeKeyClr d).stalled = d.stalled := by
  unfold dgeKeyClr
  split <;> rfl

theorem dgeRelease_stalled (d : Dge) : (dgeRelease d).stalled = d.stalled := by
  unfold dgeRelease
  split <;> rfl

theorem dgeSave_stalled (t : FabricTag) (d : Dge) : (dgeSave t d).stalled = d.stalled := by
  unfold dgeSave
  repeat' split
  all_goals rfl

theorem dgeRestore_stalled (t : FabricTag) (d : Dge) : (dgeRestore t d).stalled = d.stalled := by
  unfold dgeRestore
  repeat' split
  all_goals rfl

/-- No strobe tells the writes that wait. -/
theorem ctrlWrite_stalled (t : FabricTag) (v : Nat) (d : Dge) : (ctrlWrite t v d).stalled = d.stalled := by
  have habort (d : Dge) : (dgeAbort d).stalled = d.stalled := rfl
  simp only [ctrlWrite, apply_ite Dge.stalled, habort, dgeKeyClr_stalled, dgeRelease_stalled, dgeSave_stalled, dgeRestore_stalled, ite_self]

/-- A write of DGE_CTRL that the port takes gives the writer the claim, then does what its value says (R161). -/
theorem dgePort_ctrl {g m : Nat} {d : Dge} {s : State} (h : DgeTakes g m 0 d s) (v : Nat) :
    EngineBecomes g (ctrlWrite (nextTag m (g / 2) s) v { d with claim := some (masterTag m s).master }) s (dgePort g m 0 4 v s) := by
  obtain ⟨-, -, -, -, -, hx, hstalled, -⟩ := id h
  exact dgePort_puts h (dgeStalls_register _ hx (by decide) (by decide) (by decide)) rfl ((ctrlWrite_stalled _ _ _).trans hstalled)

/-- A value with no strobe sets the fields. -/
theorem ctrlWrite_config (t : FabricTag) {v : Nat} (hv : v < 2 ^ 16) (d : Dge) : ctrlWrite t v d = configured v d := by
  have hno {j : Nat} (hj : 16 ≤ j) : bitOf v j = false := by
    have : v / 2 ^ j = 0 := Nat.div_eq_of_lt (hv.trans_le (Nat.pow_le_pow_right (by decide) hj))
    simp [bitOf, this]
  simp [ctrlWrite, configured, hno]

theorem b2n_le_one (b : Bool) : b2n b ≤ 1 := by cases b <;> decide

theorem b2n_beq_one (b : Bool) : (b2n b == 1) = b := by cases b <;> rfl

section Fields
variable (d : Dge)

theorem ctrlFields_lt : ctrlFields d < 2 ^ 13 := by
  have hkeyed := b2n_le_one d.keyed
  have hcompare := b2n_le_one d.compare
  unfold ctrlFields
  omega

/-- The fields of DGE_CTRL as they stand, written back with a higher bit, are what its bits hold of them. -/
theorem configured_ctrlFields_add {j : Nat} (hj : 13 ≤ j) : configured (ctrlFields d + 2 ^ j) d = ctrlBits d := by
  obtain ⟨k, rfl⟩ := Nat.exists_eq_add_of_le hj
  have hk := b2n_le_one d.keyed
  have hc := b2n_le_one d.compare
  have halg : bits (ctrlFields d + 2 ^ (13 + k)) 3 0 = d.alg % 16 := by
    simp only [bits, ctrlFields, Nat.pow_add]
    omega
  have hkeyed : (ctrlFields d + 2 ^ (13 + k)) / 2 ^ 4 % 2 = b2n d.keyed := by
    simp only [ctrlFields, Nat.pow_add]
    omega
  have hcompare : (ctrlFields d + 2 ^ (13 + k)) / 2 ^ 5 % 2 = b2n d.compare := by
    simp only [ctrlFields, Nat.pow_add]
    omega
  have hlen : bits (ctrlFields d + 2 ^ (13 + k)) 12 6 = d.cmpLen % 128 := by
    simp only [bits, ctrlFields, Nat.pow_add]
    omega
  simp only [configured, bitOf, halg, hkeyed, hcompare, hlen, b2n_beq_one]

/-- A strobe's value has no other strobe. -/
theorem bitOf_strobe {j k : Nat} (hk : 13 ≤ k) (hj : 13 ≤ j) : bitOf (ctrlFields d + 2 ^ k) j = decide (k = j) := by
  have hlow {i : Nat} (hi : 13 ≤ i) : ctrlFields d < 2 ^ i := (ctrlFields_lt d).trans_le (Nat.pow_le_pow_right (by decide) hi)
  have hbit (v : Nat) : bitOf v j = v.testBit j := by rw [Nat.testBit_eq_decide_div_mod_eq]; rfl
  have hor := Nat.two_pow_add_eq_or_of_lt (hlow hk) 1
  rw [Nat.mul_one] at hor
  rw [hbit, Nat.add_comm, hor, Nat.testBit_or, Nat.testBit_two_pow, Nat.testBit_lt_two_pow (hlow hj), Bool.or_false]

end Fields

/-- The strobes in bit order, of which only that of bit j is set. -/
def strobed (t : FabricTag) (j : Nat) (d : Dge) : Dge :=
  let d := if j = 16 then dgeAbort d else d
  let d := if j = 17 then dgeKeyClr d else d
  let d := if j = 18 then dgeRelease d else d
  let d := if j = 19 then dgeSave t d else d
  if j = 20 then dgeRestore t d else d

/-- A value of the fields as they stand with one strobe does that strobe's part (R161, R168, R170, R172, R174). -/
theorem ctrlWrite_strobe (t : FabricTag) {j : Nat} (hj : 13 ≤ j) (d : Dge) : ctrlWrite t (ctrlFields d + 2 ^ j) d = strobed t j (ctrlBits d) := by
  have hbit {i : Nat} (hi : 13 ≤ i) : (bitOf (ctrlFields d + 2 ^ j) i = true) = (j = i) := by rw [bitOf_strobe d hj hi, decide_eq_true_eq]
  rw [← configured_ctrlFields_add d hj]
  simp only [ctrlWrite, hbit (show 13 ≤ 16 by decide), hbit (show 13 ≤ 17 by decide), hbit (show 13 ≤ 18 by decide),
    hbit (show 13 ≤ 19 by decide), hbit (show 13 ≤ 20 by decide), strobed, configured]

/-- An engine with its fields as DGE_CTRL's bits hold them, and its claim the writer's. -/
abbrev ctrlTaken (m : Nat) (d : Dge) : Dge := ctrlBits { d with claim := some m }

/-- A strobe that the port takes gives the writer the claim, and does its part (R161). -/
theorem dgeStrobe_takes {g m j : Nat} {d : Dge} {s : State} (h : DgeTakes g m 0 d s) (hj : 13 ≤ j) :
    EngineBecomes g (strobed (nextTag m (g / 2) s) j (ctrlTaken (masterTag m s).master d)) s (dgeStrobe g m j s) := by
  obtain ⟨-, hd, -⟩ := id h
  rw [dgeStrobe, hd, ← ctrlWrite_strobe (nextTag m (g / 2) s) hj { d with claim := some (masterTag m s).master }]
  exact dgePort_ctrl h _

/-! ### The strobes' rows -/

section Strobes
variable {g m : Nat} {d : Dge} {s : State} (h : DgeTakes g m 0 d s)
include h

/-- ABORT puts slot 0 back to IDLE (R168). -/
theorem exec_dgeAbort : ∃ t, exec (.dgeAbort g m) s = .next t ∧ EngineBecomes g (dgeAbort (ctrlTaken (masterTag m s).master d)) s t :=
  ⟨_, if_pos (decide_eq_true h.1), dgeStrobe_takes h (by decide)⟩

/-- KEY_CLR of a slot that is not busy clears its key (R168, R170). -/
theorem exec_dgeKeyClr (hb : slotBusy d = false) :
    ∃ t, exec (.dgeKeyClr g m) s = .next t ∧ EngineBecomes g (clearSlotKey (ctrlTaken (masterTag m s).master d)) s t := by
  have hp := dgeStrobe_takes h (j := 17) (by decide)
  have he : strobed (nextTag m (g / 2) s) 17 (ctrlTaken (masterTag m s).master d) = clearSlotKey (ctrlTaken (masterTag m s).master d) :=
    if_neg (ne_true_of_eq_false hb)
  rw [he] at hp
  exact ⟨_, if_pos (decide_eq_true h.1), hp⟩

/-- RELEASE of a slot that is not busy gives the claim up (R161). -/
theorem exec_dgeRelease0 (hb : slotBusy d = false) :
    ∃ t, exec (.dgeRelease0 g m) s = .next t ∧ EngineBecomes g (ctrlBits { d with claim := none }) s t := by
  have hp := dgeStrobe_takes h (j := 18) (by decide)
  have he : strobed (nextTag m (g / 2) s) 18 (ctrlTaken (masterTag m s).master d) = ctrlBits { d with claim := none } :=
    if_neg (ne_true_of_eq_false hb)
  rw [he] at hp
  exact ⟨_, if_pos (decide_eq_true h.1), hp⟩

/-- SAVE of a slot whose message is not ending begins a transfer under the writer's tag (R172). -/
theorem exec_dgeSave (he : d.err = 0) (hf : d.slot ≠ .finishing) (hd : d.slot ≠ .done) :
    ∃ t, exec (.dgeSave g m) s = .next t ∧
      EngineBecomes g { ctrlTaken (masterTag m s).master d with xfer := some { restore := false, tag := nextTag m (g / 2) s } } s t := by
  have hp := dgeStrobe_takes h (j := 19) (by decide)
  have hs : strobed (nextTag m (g / 2) s) 19 (ctrlTaken (masterTag m s).master d) =
      { ctrlTaken (masterTag m s).master d with xfer := some { restore := false, tag := nextTag m (g / 2) s } } := by
    simp [strobed, dgeSave, he, hf, hd]
  rw [hs] at hp
  exact ⟨_, if_pos (decide_eq_true h.1), hp⟩

/-- RESTORE of an idle slot begins a transfer under the writer's tag (R174). -/
theorem exec_dgeRestore (he : d.err = 0) (hi : d.slot = .idle) :
    ∃ t, exec (.dgeRestore g m) s = .next t ∧
      EngineBecomes g { ctrlTaken (masterTag m s).master d with xfer := some { restore := true, tag := nextTag m (g / 2) s } } s t := by
  have hp := dgeStrobe_takes h (j := 20) (by decide)
  have hs : strobed (nextTag m (g / 2) s) 20 (ctrlTaken (masterTag m s).master d) =
      { ctrlTaken (masterTag m s).master d with xfer := some { restore := true, tag := nextTag m (g / 2) s } } := by
    simp [strobed, dgeRestore, he, hi]
  rw [hs] at hp
  exact ⟨_, if_pos (decide_eq_true h.1), hp⟩

/-- A write of DGE_CTRL's fields alone sets them, and gives the writer the claim (R161). -/
theorem exec_dgeCtrlConfig {v : DWord} (hv : v.toNat < 2 ^ 16) :
    ∃ t, exec (.dgeCtrlConfig g m v) s = .next t ∧ EngineBecomes g (configured v.toNat { d with claim := some (masterTag m s).master }) s t := by
  have hp := dgePort_ctrl h v.toNat
  rw [ctrlWrite_config _ hv] at hp
  have hmod : v.toNat % 2 ^ 32 = v.toNat := Nat.mod_eq_of_lt (by omega)
  refine ⟨_, if_pos (decide_eq_true h.1), ?_⟩
  rwa [hmod]

end Strobes

/-- Settles O27: each strobe's part and the configuration's fields, put back as the engine's record. -/
theorem digestControlCompletes : Obligations.DigestControlCompletes := by
  unfold Obligations.DigestControlCompletes
  refine fun g m d s h => ⟨?abort, fun hb => exec_dgeKeyClr h hb, fun hb => exec_dgeRelease0 h hb, fun he hf hd => ?save, fun he hi => ?restore,
    fun v hv => ?config⟩
  case abort =>
    obtain ⟨t, ht, hg, hframe⟩ := exec_dgeAbort h
    refine ⟨t, ht, ?_⟩
    rw [hg]
    exact ⟨rfl, rfl, rfl, rfl, hframe⟩
  case save =>
    obtain ⟨t, ht, hg, hframe⟩ := exec_dgeSave h he hf hd
    refine ⟨t, ht, ?_⟩
    rw [hg]
    exact ⟨rfl, rfl, hframe⟩
  case restore =>
    obtain ⟨t, ht, hg, hframe⟩ := exec_dgeRestore h he hi
    refine ⟨t, ht, ?_⟩
    rw [hg]
    exact ⟨rfl, hframe⟩
  case config =>
    obtain ⟨t, ht, hg, hframe⟩ := exec_dgeCtrlConfig h hv
    refine ⟨t, ht, ?_⟩
    rw [hg]
    exact ⟨rfl, rfl, rfl, rfl, rfl, rfl, hframe⟩

end Sys2Proof.Machine
end

section
/-! Digest data (O28): what slot 0 makes of message words and key words, what a handle and a whole key do, and the statement they make up. -/

namespace Sys2Proof.Machine

open Sys2Proof.Safety

/-! ### Message words -/

/-- The bytes a word adds to a message: a last word's count of them (R162, R165). -/
def wordBytes (w : DWord × Option Nat) : Bytes :=
  match w.2 with
  | some n => (leBytes 8 w.1.toNat).take n
  | none => leBytes 8 w.1.toNat

theorem wordBytes_length_le (w : DWord × Option Nat) : (wordBytes w).length ≤ 8 := by
  unfold wordBytes
  split <;> simp

/-- An engine whose message a word has joined, or finished (R162, R165). -/
def joined (w : DWord × Option Nat) (d : Dge) : Dge :=
  { d with msg := { d.msg with text := d.msg.text ++ wordBytes w }, slot := if w.2.isSome then .finishing else .open_ }

/-- A word within the longest message joins it (R162, R164, R165). -/
theorem takeWord_joins (w : DWord × Option Nat) {d : Dge} (h : msgLen d.msg + 8 ≤ 2 ^ 61 - 1) : takeWord w d = joined w d :=
  if_neg (Nat.not_lt.2 ((Nat.add_le_add_left (wordBytes_length_le w) _).trans h))

theorem drainWords_none_held (frz : Bool) (n : Nat) {d : Dge} (h : d.held = []) : drainWords frz n d = d := by
  cases n with
  | zero => rfl
  | succ n => simp only [drainWords, h]

section Drain
variable {d : Dge} {w : DWord × Option Nat} {r : List (DWord × Option Nat)} (hh : d.held = w :: r)
include hh

/-- The first word of the FIFO joins an open message. -/
theorem drainWords_open (frz : Bool) (n : Nat) (hs : d.slot = .open_) :
    drainWords frz (n + 1) d = drainWords frz n (takeWord w { d with held := r }) := by
  simp only [drainWords, hh, hs]

/-- The first word of the FIFO starts a message in an idle slot that may start one (R167, R171). -/
theorem drainWords_idle (n : Nat) (hs : d.slot = .idle) (he : startErr d = none) :
    drainWords false (n + 1) d = drainWords false n (takeWord w (startMsg { d with held := r })) := by
  simp only [drainWords, hh, hs, he, Bool.false_eq_true, if_false]

end Drain

section OneWord
variable {d : Dge} (hh : d.held = [])
include hh

/-- The only word of the FIFO joins an open message. -/
theorem drainWords_joins (frz : Bool) (n : Nat) (w : DWord × Option Nat) (hs : d.slot = .open_) (hl : msgLen d.msg + 8 ≤ 2 ^ 61 - 1) :
    drainWords frz (n + 1) { d with held := [w] } = joined w d := by
  have hd : { d with held := [] } = d := by rw [← hh]
  rw [drainWords_open (d := { d with held := [w] }) rfl frz n hs]
  change drainWords frz n (takeWord w { d with held := [] }) = _
  rw [hd, takeWord_joins w hl]
  exact drainWords_none_held frz n hh

/-- The only word of the FIFO starts a message in an idle slot. -/
theorem drainWords_starts (n : Nat) (w : DWord × Option Nat) (hs : d.slot = .idle) (he : startErr d = none) :
    drainWords false (n + 1) { d with held := [w] } = joined w (startMsg d) := by
  have hd : { d with held := [] } = d := by rw [← hh]
  rw [drainWords_idle (d := { d with held := [w] }) rfl n hs he]
  change drainWords false n (takeWord w (startMsg { d with held := [] })) = _
  rw [hd, takeWord_joins w (Nat.le_of_ble_eq_true rfl)]
  exact drainWords_none_held false n hh

end OneWord

/-- With no error and an empty FIFO a word goes to the slot, a last one with DGE_LASTW's count (R162, R163, R165). -/
theorem dgeWord_puts {d : Dge} (g : Nat) (v : DWord) {last : Bool} (s : State) (he : d.err = 0) (hh : d.held = []) (hc : last = true → d.lastCnt ≤ 8) :
    dgeWord g v last d s = putDge g (drainWords (frozen s) 64 { d with held := [(v, if last then some d.lastCnt else none)] }) s := by
  have hbad : (last && decide (8 < d.lastCnt)) = false := by simpa using hc
  simp only [dgeWord, he, hh, hbad, ne_eq, not_true_eq_false, if_false, Bool.false_eq_true, List.nil_append]

section Words
variable {g m : Nat} {v : DWord} {d e : Dge} {s : State} (he : d.err = 0) (hh : d.held = []) (hf : fifoUsed d < 32)
include he hh hf

/-- A word at DGE_DATA goes to the slot by way of the FIFO (R162, R163). -/
theorem exec_dgeData (h : DgeTakes g m 0x30 d s) (hw : drainWords (frozen s) 64 { d with held := [(v, none)] } = e) (hs : e.stalled = d.stalled) :
    ∃ t, exec (.dgeData g m v) s = .next t ∧ EngineBecomes g e s t := by
  obtain ⟨hg, -, -, -, -, hx, hst, -⟩ := id h
  refine ⟨_, if_pos (decide_eq_true hg), dgePort_puts h (dgeStalls_word _ hx (by decide) hf) ?_ (hs.trans hst)⟩
  have hv : BitVec.ofNat 64 v.toNat = v := by simp
  have hput := dgeWord_puts g v (last := false) (accepted g m s) he hh (by simp)
  rw [← hw]
  change dgeWord g (BitVec.ofNat 64 v.toNat) false d (accepted g m s) = _
  rw [hv, hput]
  rfl

/-- A word at DGE_LASTW goes to the slot with its count of bytes (R162, R165). -/
theorem exec_dgeLastw (h : DgeTakes g m 0x38 d s) (hc : d.lastCnt ≤ 8) (hw : drainWords (frozen s) 64 { d with held := [(v, some d.lastCnt)] } = e)
    (hs : e.stalled = d.stalled) : ∃ t, exec (.dgeLastw g m v) s = .next t ∧ EngineBecomes g e s t := by
  obtain ⟨hg, -, -, -, -, hx, hst, -⟩ := id h
  refine ⟨_, if_pos (decide_eq_true hg), dgePort_puts h (dgeStalls_word _ hx (by decide) hf) ?_ (hs.trans hst)⟩
  have hv : BitVec.ofNat 64 v.toNat = v := by simp
  have hput := dgeWord_puts g v (last := true) (accepted g m s) he hh (fun _ => hc)
  rw [← hw]
  change dgeWord g (BitVec.ofNat 64 v.toNat) true d (accepted g m s) = _
  rw [hv, hput]
  rfl

end Words

/-! ### Keys -/

/-- A key word with no load going on starts one (R169, R170). -/
theorem keyWord_starts (w : DWord) {d : Dge} (hb : slotBusy d = false) (hl : 0 < d.keyLen) (hu : d.keyLen ≤ 128) (hk : d.keyLoading = false) :
    keyWord w d = { clearSlotKey d with keyLoading := true, keySrc := .raw, keyBuf := leBytes 8 w.toNat } := by
  simp [keyWord, hb, hl.ne', Nat.not_lt.2 hu, hk, clearSlotKey]

/-- DGE_KEYDATA starts a raw key in a slot that is not busy (R169). -/
theorem exec_dgeKeydata {g m : Nat} {v : DWord} {d : Dge} {s : State} (h : DgeTakes g m 0x20 d s) (hb : slotBusy d = false) (hl : 0 < d.keyLen)
    (hu : d.keyLen ≤ 128) (hk : d.keyLoading = false) :
    ∃ t, exec (.dgeKeydata g m v) s = .next t ∧
      EngineBecomes g { clearSlotKey d with keyLoading := true, keySrc := .raw, keyBuf := leBytes 8 v.toNat } s t := by
  obtain ⟨hg, -, -, -, -, hx, hs, -⟩ := id h
  refine ⟨_, if_pos (decide_eq_true hg), dgePort_puts h (dgeStalls_register _ hx (by decide) (by decide) (by decide)) ?_ hs⟩
  have hv : BitVec.ofNat 64 v.toNat = v := by simp
  change putDge g (keyWord (BitVec.ofNat 64 v.toNat) d) (accepted g m s) = _
  rw [hv, keyWord_starts v hb hl hu hk]

theorem wantCommit_units (b : Bool) (n : Nat) (s : State) : (wantCommit b n s).units = s.units := by
  unfold wantCommit tryCommit
  dsimp only
  repeat' split
  all_goals rfl

theorem extendUses_units (slot : Nat) (k : KeyRec) (s : State) : (extendUses slot k s).units = s.units := by
  unfold extendUses
  split
  · exact wantCommit_units _ _ _
  · rfl

theorem chargeUse_units (slot : Nat) (s : State) : (chargeUse slot s).units = s.units := by
  unfold chargeUse
  split
  · rfl
  · split
    · rfl
    · exact extendUses_units _ _ _

theorem useSapwood_units (slot : Nat) (k : KeyRec) (s : State) : (useSapwood slot k s).units = s.units := by
  unfold useSapwood
  split <;> rfl

/-- An engine that has leased a key by its handle and asked for its shares (R64, R169). -/
def keyAsked (h owner slot gen : Nat) (d : Dge) : Dge :=
  { clearSlotKey d with keyLoading := true, keySrc := .handle, handle := h, lease := some (slot, gen), leaseOwner := owner }

/-- A lease is charged and the key asked for in the store, not in the engine (R55, R64). -/
theorem getDge_dgeLease (g h owner slot : Nat) (k : KeyRec) (d : Dge) (s : State) :
    getDge g (dgeLease g h owner slot k d s) = keyAsked h owner slot k.gen d := by
  have hu : (dgeLease g h owner slot k d s).units = (putDge g (keyAsked h owner slot k.gen d) s).units :=
    (chargeUse_units _ _).trans (useSapwood_units _ _ _)
  rw [getDge_of_units hu, (putDge_becomes g _ s).1]

/-- DGE_KEYHANDLE leases the key its handle names and asks for it (R64, R169). -/
theorem exec_dgeKeyhandle {g m slot : Nat} {v : DWord} {k : KeyRec} {d : Dge} {s : State} (h : DgeTakes g m 0x28 d s) (he : d.err = 0)
    (hb : slotBusy d = false) (hk : dgeKeyOf v.toNat (masterTag m s).owner s = .ok (slot, k)) (hl : leaseWaits slot k s = false) :
    ∃ t, exec (.dgeKeyhandle g m v) s = .next t ∧ getDge g t = keyAsked v.toNat (masterTag m s).owner slot k.gen d := by
  obtain ⟨hg, -, -, -, -, hx, hs, -⟩ := id h
  have hk' : dgeKeyOf v.toNat (nextTag m (g / 2) s).owner (accepted g m s) = .ok (slot, k) := hk
  have hput : dgeEffect g (nextTag m (g / 2) s) 0x28 8 v.toNat d (accepted g m s) =
      dgeLease g v.toNat (masterTag m s).owner slot k d (accepted g m s) := by
    change keyHandle g (nextTag m (g / 2) s) v.toNat d (accepted g m s) = _
    simp only [keyHandle, he, hb, hk', ne_eq, not_true_eq_false, if_false, Bool.false_eq_true]
    rfl
  have hget := getDge_dgeLease g v.toNat (masterTag m s).owner slot k d (accepted g m s)
  refine ⟨_, if_pos (decide_eq_true hg), ?_⟩
  rw [dgePort_effect h (dgeStalls_handle _ hx hk' hl)]
  change getDge g (dgeResume g (dgeEffect g (nextTag m (g / 2) s) 0x28 8 v.toNat d (accepted g m s))) = _
  rw [hput, dgeResume_none_stalled ((congrArg Dge.stalled hget).trans hs), hget]

/-- An engine whose key is whole (R169). -/
def keyWhole (key : Bytes) (n : Nat) (d : Dge) : Dge :=
  { d with keyLoading := false, keyLoaded := true, keyBuf := key, blocks := d.blocks + BitVec.ofNat 64 (keyBlocks d.alg n) }

section Loading
variable {g : Nat} {d : Dge} {s : State} (hg : g < 16) (hd : getDge g s = d) (hk : d.keyLoading = true) (hi : d.isolated = false) (hs : d.stalled = [])
include hg hd hs

/-- DGE_KEY_LOADED of an engine with no writer stalled puts the whole key into the slot, and that is all. -/
theorem exec_dgeKeyLoaded {e : Dge} (hl : dgeKeyLoaded g s = putDge g e s) (he : e.stalled = []) :
    ∃ t, exec (.dgeKeyLoaded g) s = .next t ∧ EngineBecomes g e s t := by
  refine ⟨_, if_pos (decide_eq_true hg), ?_⟩
  rw [dgeResume_none_stalled ((congrArg Dge.stalled hd).trans hs), hl, dgeResume_putDge s he]
  exact putDge_becomes g e s

include hk hi

/-- A leased key whose shares are in the Sapwood becomes the slot's key (R64, R169). -/
theorem exec_dgeKeyLoaded_leased {slot : Nat} {k : KeyRec} (hr : d.keySrc ≠ .raw) (hl : d.lease = some (slot, k.gen))
    (ht : tget s.store.c.keys slot = some k) (hp : inSapwood slot k s = true) :
    ∃ t, exec (.dgeKeyLoaded g) s = .next t ∧ EngineBecomes g (keyWhole (material k) (material k).length d) s t := by
  have hkey : leasedKey d s = some k := by simp [leasedKey, hl, ht]
  refine exec_dgeKeyLoaded hg hd hs ?_ hs
  unfold dgeKeyLoaded
  simp only [hd, hk, hi, hkey, hl, hp, keyWhole, Bool.not_true, Bool.or_self, Bool.false_eq_true, if_false, if_true]

/-- A raw key all of whose words are there becomes the slot's key (R169). -/
theorem exec_dgeKeyLoaded_raw (hr : d.keySrc = .raw) (hw : 8 * keyWords d ≤ d.keyBuf.length) :
    ∃ t, exec (.dgeKeyLoaded g) s = .next t ∧ EngineBecomes g (keyWhole (d.keyBuf.take d.keyLen) d.keyLen d) s t := by
  refine exec_dgeKeyLoaded hg hd hs ?_ hs
  unfold dgeKeyLoaded
  simp only [hd, hk, hi, hr, Nat.not_lt.2 hw, keyWhole, Bool.not_true, Bool.or_self, Bool.false_eq_true, if_false]

end Loading

/-- Settles O28: a word's way into slot 0, the start of a raw key, the lease of a handle, and the two ways a key gets whole. -/
theorem digestDataCompletes : Obligations.DigestDataCompletes := by
  unfold Obligations.DigestDataCompletes
  refine fun g m v d s => ⟨fun h he hh hf => ⟨fun hs hl => ?joins, fun hs hz hst hk => ?starts⟩, fun h he hh hf hs hc hl => ?last,
    fun h hb hl hu hk => ?keyWord, fun slot k h he hb hk hl => ?handle, fun slot k hg hd hk hi hst hr hl ht hp => ?leased, fun hg hd hk hi hst hr hw => ?raw⟩
  case joins =>
    obtain ⟨t, ht, hget, hframe⟩ := exec_dgeData he hh hf h (drainWords_joins hh (frozen s) 63 (v, none) hs hl) rfl
    refine ⟨t, ht, ?_⟩
    rw [hget]
    exact ⟨rfl, rfl, hframe⟩
  case starts =>
    have hw : drainWords (frozen s) 64 { d with held := [(v, none)] } = joined (v, none) (startMsg d) := by
      rw [hz]
      exact drainWords_starts hh 63 (v, none) hs hst
    obtain ⟨t, ht, hget, -, hstore⟩ := exec_dgeData he hh hf h hw rfl
    refine ⟨t, ht, ?_⟩
    rw [hget]
    refine ⟨rfl, ?_, hstore⟩
    simp [joined, startMsg, hk, wordBytes]
  case last =>
    obtain ⟨t, ht, hget, -, hstore⟩ := exec_dgeLastw he hh hf h hc (drainWords_joins hh (frozen s) 63 (v, some d.lastCnt) hs hl) rfl
    refine ⟨t, ht, ?_⟩
    rw [hget]
    exact ⟨rfl, rfl, hstore⟩
  case keyWord =>
    obtain ⟨t, ht, hget, -, hstore⟩ := exec_dgeKeydata h hb hl hu hk
    refine ⟨t, ht, ?_⟩
    rw [hget]
    exact ⟨rfl, rfl, rfl, hstore⟩
  case handle =>
    obtain ⟨t, ht, hget⟩ := exec_dgeKeyhandle h he hb hk hl
    refine ⟨t, ht, ?_⟩
    rw [hget]
    exact ⟨rfl, rfl, rfl, rfl⟩
  case leased =>
    obtain ⟨t, ht, hget, -, hstore⟩ := exec_dgeKeyLoaded_leased hg hd hk hi hst hr hl ht hp
    refine ⟨t, ht, ?_⟩
    rw [hget]
    exact ⟨rfl, rfl, rfl, hstore⟩
  case raw =>
    obtain ⟨t, ht, hget, -, hstore⟩ := exec_dgeKeyLoaded_raw hg hd hk hi hst hr hw
    refine ⟨t, ht, ?_⟩
    rw [hget]
    exact ⟨rfl, rfl, rfl, hstore⟩

end Sys2Proof.Machine
end

section
/-! Digest ends (O29): a save whose image falls on the ACC of a WMA command that no WMA.WAIT has returned changes more of the memory than its image. -/

namespace Sys2Proof.Machine

/-! ### What a write behind the fabric leaves in the memory -/

/-- A write that falls on the one open command's words also leaves its ACC undefined, all its words (R183; undefined values are free values, log entry 2). -/
theorem fabWrite_fab_of_meets {a core : Nat} {d : Bytes} {c : WmaCmd} {s : State} (ho : s.units.wmaOpen = [(core, c)]) (hm : wmaMeets a d.length c = true) :
    (fabWrite a d s).units.fab = memWriteN (memWriteN s.units.fab a d) (fabAddr (c.core / 9) (wmaOps c.block).2.2.1)
      (leBytes (wmaOps c.block).2.2.2 (Config.freeValue s.free)) := by
  have hf : s.units.wmaOpen.filter (fun p => wmaMeets a d.length p.2) = [(core, c)] := by simp [ho, hm]
  unfold fabWrite
  change (List.foldl _ _ (s.units.wmaOpen.filter (fun p => wmaMeets a d.length p.2)) : State).units.fab = _
  rw [hf]
  rfl

/-- A write behind the fabric is no write at an engine. -/
theorem getDge_fabWrite (i a : Nat) (d : Bytes) (s : State) : getDge i (fabWrite a d s) = getDge i s :=
  foldl_keeps (f := getDge i) (fun s (p : Nat × WmaCmd) => show getDge i (wmaUndefined p.2 s) = getDge i s from rfl) _ _

/-- An engine whose save has ended (R172). -/
def savedOnce (d : Dge) : Dge := { d with xfer := none, saveNo := d.saveNo + 1 }

/-- Of the memory, an unkeyed save changes what the write of its image does (R172). -/
theorem exec_dgeSaveDone_fab {g : Nat} {d : Dge} {t : FabricTag} {s : State} (hg : g < 16) (hd : getDge g s = d) (hi : d.isolated = false)
    (hs : d.stalled = []) (hx : d.xfer = some { restore := false, tag := t }) (hk : (if d.slot = .open_ then d.msg.keyed else d.keyed) = false)
    (hp : probeOk t (targetOf (g / 2) d.saveAddr) d.saveAddr 512 true s = true) :
    ∃ u, exec (.dgeSaveDone g) s = .next u ∧
      u.units.fab = (fabWrite (imageAddr g d) (dgeImage d t []) (putDge g (savedOnce d) s)).units.fab := by
  refine ⟨_, if_pos (decide_eq_true hg), ?_⟩
  have hdone : saveDone g t d s = fabWrite (imageAddr g d) (dgeImage d t []) (putDge g (savedOnce d) s) := by
    simp only [saveDone, hp, hk, wrapWith, Bool.not_true, Bool.false_and, Bool.false_eq_true, if_false]
    rfl
  have hrest : getDge g (saveDone g t d s) = savedOnce d := by
    rw [hdone, getDge_fabWrite, (putDge_becomes g _ s).1]
  simp only [hd, hx, hi, Bool.false_eq_true, if_false]
  rw [dgeResume_none_stalled ((congrArg Dge.stalled hrest).trans hs), hdone]

/-! ### The counterexample -/

/-- The Warden's tag. -/
def savingTag : FabricTag := { master := 0xC0, worldU := false, priv := true, owner := 0, ctx := 0, opclass := 0, seq := 0, parityOk := true }

/-- Engine 0 saves slot 0 to stand 0's SRAM for the Warden. -/
def savingDge : Dge := { xfer := some { restore := false, tag := savingTag }, saveAddr := 0x0C000040 }

/-- Core 0's command has ended and waits for its WMA.WAIT; its ACC is two words, of which the second is the first of the image. -/
def endedCmd : WmaCmd :=
  { core := 0, addr := 0x0C000000, tag := { master := 0, worldU := false, priv := true, owner := 0, ctx := 0, opclass := 0, seq := 0, parityOk := true },
    block := layout 64 [(0x10, 8, 0x0C000038), (0x1C, 2, 2)] }

/-- Where ACC's first byte stands in the memory: before the image. -/
def accByte : Nat := fabAddr 0 0x0C000038

/-- The engine saves over the command's ACC, whose first byte is b. -/
def savesOverAcc (b : Byte) : State :=
  { units := { dges := [(0, savingDge)], wmaOpen := [(0, endedCmd)], fab := memWrite [] accByte b } }

theorem savingDge_probes (b : Byte) :
    probeOk savingTag (targetOf (0 / 2) savingDge.saveAddr) savingDge.saveAddr 512 true (savesOverAcc b) = true := by
  have h : probeOk savingTag (targetOf (0 / 2) savingDge.saveAddr) savingDge.saveAddr 512 true (savesOverAcc 0) = true := by decide +kernel
  exact h

/-- Whatever the image is, it falls on the command's ACC. -/
theorem endedCmd_meets (n : Nat) : wmaMeets (imageAddr 0 savingDge) n endedCmd = true := by
  have hacc : (wmaOps endedCmd.block).2.2 = (0x0C000038, 16) := by decide +kernel
  have hstand : endedCmd.core / 9 = 0 := rfl
  have himage : imageAddr 0 savingDge = accByte + 8 := rfl
  have hover : overlaps accByte 16 (accByte + 8) n = true := by
    simp only [overlaps, Bool.and_eq_true, decide_eq_true_eq]
    omega
  simp only [wmaMeets, hacc, hstand, himage, List.any_cons, List.any_nil, Bool.or_false]
  simp [show fabAddr 0 0x0C000038 = accByte from rfl, hover]

/-- The save leaves in ACC's first byte the undefined value's, though that byte stands before the image. -/
theorem savesOverAcc_accByte (b : Byte) : ∃ t, exec (.dgeSaveDone 0) (savesOverAcc b) = .next t ∧
    memRead t.units.fab accByte = BitVec.ofNat 8 (Config.freeValue 0) := by
  obtain ⟨t, ht, hfab⟩ := exec_dgeSaveDone_fab (g := 0) (d := savingDge) (t := savingTag) (s := savesOverAcc b) (by decide) rfl rfl rfl rfl rfl
    (savingDge_probes b)
  have hacc : (wmaOps endedCmd.block).2.2 = (0x0C000038, 16) := by decide +kernel
  have hwf : memWf (memWrite [] accByte b) = true := memWf_memWrite [] accByte b rfl
  refine ⟨t, ht, ?_⟩
  rw [hfab, fabWrite_fab_of_meets (core := 0) rfl (endedCmd_meets _), hacc]
  change memRead (memWriteN (memWriteN (memWrite [] accByte b) (accByte + 8) _) accByte (leBytes 16 (Config.freeValue 0))) accByte = _
  rw [memRead_memWriteN _ _ _ _ (memWf_memWriteN _ _ _ hwf)]
  simp [leBytes]

/-- A write of the image alone leaves ACC's first byte. -/
theorem savesOverAcc_image (b : Byte) (img : Bytes) :
    memRead (memWriteN (savesOverAcc b).units.fab (imageAddr 0 savingDge) img) accByte = b := by
  have himage : imageAddr 0 savingDge = accByte + 8 := rfl
  change memRead (memWriteN (memWrite [] accByte b) (imageAddr 0 savingDge) img) accByte = b
  rw [himage, memRead_memWriteN _ _ _ _ (memWf_memWrite [] accByte b rfl), if_neg (by omega), memRead_memWrite _ _ _ _ rfl, if_pos rfl]

/-- Refutes O29: its clause on a save has the memory change by the image alone, but where the image falls on the ACC of a command that no
WMA.WAIT has returned, that ACC becomes undefined, all its words (R183), and so a byte before the image changes. -/
theorem not_digestEndsComplete : ¬ Obligations.DigestEndsComplete := by
  unfold Obligations.DigestEndsComplete
  intro h
  have hb (b : Byte) : BitVec.ofNat 8 (Config.freeValue 0) = b := by
    obtain ⟨-, hsave, -⟩ := h 0 savingDge (savesOverAcc b) (by decide) rfl rfl rfl
    obtain ⟨t, ht, hfab, -⟩ := hsave savingTag rfl rfl (savingDge_probes b)
    obtain ⟨u, hu, hbyte⟩ := savesOverAcc_accByte b
    obtain rfl : u = t := Host.Outcome.next.inj (hu.symm.trans ht)
    rw [← hbyte, hfab, savesOverAcc_image]
  exact absurd ((hb 0).symm.trans (hb 1)) (by decide)

end Sys2Proof.Machine
end

section
/-! Wide multipliers (O46): what an instruction that completes leaves of its core, what giving, starting, ending and losing a command does to a unit's queue, and the statement they make up. -/

namespace Sys2Proof.Machine

open Sys2Proof.Safety

/-! ### A unit's record -/

@[simp] theorem getWma_setWma_same (u : Nat) (w : Wma) (s : State) : getWma u (setWma u w s) = w := tgetD_tset_same _ _ _ _

theorem getWma_setWma_other {i u : Nat} (h : i ≠ u) (w : Wma) (s : State) : getWma i (setWma u w s) = getWma i s :=
  tgetD_tset_other _ _ _ _ _ h

theorem getWma_of_wmas {s t : State} (h : t.units.wmas = s.units.wmas) (i : Nat) : getWma i t = getWma i s := by
  unfold getWma
  rw [h]

/-! ### An instruction that completes -/

/-- What the end of an instruction leaves: the units, the key store, and the core's integer registers and mode. -/
def afterStep (core : Nat) (s : State) : Units × Store × Tab DWord × Bool :=
  (s.units, s.store, (getCore core s).x, (getCore core s).user)

@[simp] theorem getCore_setCore_same (core : Nat) (c : Core) (s : State) : getCore core (setCore core c s) = c := tgetD_tset_same _ _ _ _

theorem afterStep_setCsr (core a : Nat) (v : DWord) (s : State) : afterStep core (setCsr core a v s) = afterStep core s := by
  simp [afterStep, setCsr]

theorem afterStep_stepEnd (core : Nat) (s : State) : afterStep core (stepEnd core s) = afterStep core s := by
  unfold stepEnd
  split <;> rfl

/-- The loop rule writes a loop's count alone (R359). -/
theorem afterStep_loopOne {core l len : Nat} {a n m : DWord} {b : Bool} {s t : State} (h : loopOne core l a n len s = some (m, b, t)) :
    afterStep core t = afterStep core s := by
  unfold loopOne at h
  dsimp only at h
  split at h
  · split at h <;> cases h <;> exact afterStep_setCsr _ _ _ _
  · cases h

/-- An instruction has completed, with its next pc (R359). -/
def stepTo (core : Nat) (n : DWord) (s : State) : State :=
  stepEnd core (setCore core { getCore core s with pc := n, minstret := countedInstr core s } s)

theorem afterStep_stepTo (core : Nat) (n : DWord) (s : State) : afterStep core (stepTo core n s) = afterStep core s :=
  (afterStep_stepEnd _ _).trans (by simp [afterStep])

/-- Loop 0 is tested, and the rule goes on (R359). -/
def testLoop0 (core : Nat) (a : DWord) (len : Nat) (n : DWord) (s : State) : State :=
  match loopOne core 0 a n len s with
  | some (_, _, t) => t
  | none => s

theorem afterStep_testLoop0 (core len : Nat) (a n : DWord) (s : State) : afterStep core (testLoop0 core a len n s) = afterStep core s := by
  unfold testLoop0
  split
  · rename_i h
    exact afterStep_loopOne h
  · rfl

/-- Loop 1 is tested, after loop 0 has not stopped the rule (R359). -/
def testLoop1 (core : Nat) (a : DWord) (len : Nat) (n : DWord) (s : State) : State :=
  match loopOne core 1 a n len s with
  | some (m, _, t) => stepTo core m t
  | none => stepTo core n s

theorem afterStep_testLoop1 (core len : Nat) (a n : DWord) (s : State) : afterStep core (testLoop1 core a len n s) = afterStep core s := by
  unfold testLoop1
  split
  · rename_i h
    exact (afterStep_stepTo _ _ _).trans (afterStep_loopOne h)
  · exact afterStep_stepTo _ _ _

theorem afterStep_complete (core len : Nat) (a n : DWord) (s : State) : afterStep core (complete core a len n s) = afterStep core s := by
  unfold complete
  cases h : loopOne core 0 a n len s with
  | none => exact afterStep_testLoop1 core len a n s
  | some r =>
    obtain ⟨m, stops, t⟩ := r
    have ht := afterStep_loopOne h
    cases stops with
    | true => exact (afterStep_stepTo core m t).trans ht
    | false => exact (afterStep_testLoop1 core len a n _).trans ((afterStep_testLoop0 core len a n t).trans ht)

theorem afterStep_complete4 (core : Nat) (s : State) : afterStep core (complete4 core s) = afterStep core s := afterStep_complete _ _ _ _ _

theorem complete4_units (core : Nat) (s : State) : (complete4 core s).units = s.units := congrArg (·.1) (afterStep_complete4 core s)
theorem complete4_store (core : Nat) (s : State) : (complete4 core s).store = s.store := congrArg (·.2.1) (afterStep_complete4 core s)
theorem complete4_user (core : Nat) (s : State) : (getCore core (complete4 core s)).user = (getCore core s).user :=
  congrArg (·.2.2.2) (afterStep_complete4 core s)

theorem complete4_getX (core k : Nat) (s : State) : getX core k (complete4 core s) = getX core k s := by
  have h : (getCore core (complete4 core s)).x = (getCore core s).x := congrArg (·.2.2.1) (afterStep_complete4 core s)
  unfold getX
  rw [h]

/-- A row that completes an instruction in the mode it began in ends no applet (R366). -/
theorem ownRow_complete4 {core : Nat} {f : State → State} {s t : State} (hf : f s = complete4 core t)
    (hu : (getCore core t).user = (getCore core s).user) : ownRow core f s = complete4 core t := by
  have hsame : (getCore core (f s)).user = (getCore core s).user := by rw [hf, complete4_user, hu]
  rw [ownRow, endTrapped, hsame]
  simp [hf]

theorem getX_setX_same {core r : Nat} (hr : r ≠ 0) (v : DWord) (s : State) : getX core r (setX core r v s) = v := by
  simp [getX, setX, hr]

theorem getX_setX_other {core r k : Nat} (hk : k ≠ r) (v : DWord) (s : State) : getX core k (setX core r v s) = getX core k s := by
  by_cases hr : r = 0
  · simp [setX, hr]
  · simp [getX, setX, hr, tgetD_tset_other _ _ _ _ _ hk]

theorem setX_user (core r : Nat) (v : DWord) (s : State) : (getCore core (setX core r v s)).user = (getCore core s).user := by
  by_cases hr : r = 0 <;> simp [setX, hr]

theorem setX_units (core r : Nat) (v : DWord) (s : State) : (setX core r v s).units = s.units := units_of_beside setX_beside

theorem getWma_complete4 (i core : Nat) (s : State) : getWma i (complete4 core s) = getWma i s :=
  getWma_of_wmas (congrArg Units.wmas (complete4_units core s)) i

/-! ### WMA.GO and WMA.WAIT -/

/-- The command that WMA.GO gives a unit: the block as it stands in the stand's SRAM, under the core's tag (R181). -/
def goCmd (core addr : Nat) (s : State) : WmaCmd :=
  { core := core, addr := addr, tag := coreTag core s, block := memReadN s.units.fab (fabAddr (core / 9) addr) 32 }

/-- A unit in service queues the command behind those it holds (R181). -/
theorem wmaIssue_queues {core u addr : Nat} {s : State} (hs : u / 2 = core / 9) (hi : (getWma u s).isolated = false) :
    wmaIssue core u addr s =
      setWma u { getWma u s with cmds := (getWma u s).cmds ++ [goCmd core addr s] } { s with units.wmaOpen := tdel s.units.wmaOpen core } := by
  simp only [wmaIssue, hi, hs, Bool.false_eq_true, if_false]
  rfl

/-- A core in M-mode, and one in U-mode with xolucfg.WMA set, may multiply (R357). -/
theorem wma_allowed {core : Nat} {s : State} (hx : (getCore core s).user = false ∨ bitOf (csrRaw core 0x7C0 s).toNat 0 = true) :
    ((getCore core s).user && !bitOf (csrRaw core 0x7C0 s).toNat 0) = false := by
  obtain h | h := hx <;> simp [h]

section Core
variable {core : Nat} {s : State} (hr : coreRuns core s = true) (hw : (getCore core s).wfi = false)
  (hx : (getCore core s).user = false ∨ bitOf (csrRaw core 0x7C0 s).toNat 0 = true) (ho : wmaOutstanding core s = false)
include hr hw hx ho

/-- A core that may multiply and has no command outstanding gives its command (R181, R357). -/
theorem wmaGo_issues {rs1 u : Nat} (hu : u < 2) :
    wmaGo core rs1 u s = complete4 core (wmaIssue core (2 * (core / 9) + u) (getX core rs1 s).toNat s) := by
  simp [wmaGo, hr, hw, ho, wma_allowed hx, show ¬ 1 < u by omega]

/-- A core that may multiply and has no command outstanding reads its last command's value (R182, R357). -/
theorem wmaWait_answers (rd : Nat) :
    wmaWait core rd s =
      complete4 core (setX core rd (BitVec.ofNat 64 (tgetD s.units.wmaVal core 0)) { s with units.wmaOpen := tdel s.units.wmaOpen core }) := by
  simp [wmaWait, hr, hw, ho, wma_allowed hx]

/-- WMA.GO puts its command at the end of the unit's queue, and of the units changes no other (R181). -/
theorem exec_wmaGo {rs1 u : Nat} (hc : core < 72) (hrs : rs1 < 32) (hu : u < 2) (hi : (getWma (2 * (core / 9) + u) s).isolated = false) :
    ∃ t, exec (.wmaGo core rs1 u) s = .next t ∧
      (getWma (2 * (core / 9) + u) t).cmds = (getWma (2 * (core / 9) + u) s).cmds ++ [goCmd core (getX core rs1 s).toNat s] ∧
      (∀ i, i ≠ 2 * (core / 9) + u → getWma i t = getWma i s) ∧ t.store = s.store := by
  have hstand : (2 * (core / 9) + u) / 2 = core / 9 := by omega
  have hgo := wmaGo_issues hr hw hx ho (rs1 := rs1) hu
  rw [wmaIssue_queues hstand hi] at hgo
  have hrow : exec (.wmaGo core rs1 u) s = .next (ownRow core (wmaGo core rs1 u) s) := by
    change execWmaGo core rs1 u s = _
    simp [execWmaGo, onUnit, hc, hrs, show u < 32 by omega]
  rw [ownRow_complete4 hgo rfl] at hrow
  refine ⟨_, hrow, ?_, fun i hne => ?_, complete4_store _ _⟩
  · rw [getWma_complete4, getWma_setWma_same]
  · rw [getWma_complete4, getWma_setWma_other hne]
    rfl

/-- WMA.WAIT puts the value into its register, and of the units forgets the command that waited for it (R182, R183). -/
theorem exec_wmaWait {rd : Nat} (hc : core < 72) (hrd : rd < 32) :
    ∃ t, exec (.wmaWait core rd) s = .next t ∧ (rd ≠ 0 → getX core rd t = BitVec.ofNat 64 (tgetD s.units.wmaVal core 0)) ∧
      (∀ k, k ≠ rd → getX core k t = getX core k s) ∧ t.units = { s.units with wmaOpen := tdel s.units.wmaOpen core } := by
  have hrow : exec (.wmaWait core rd) s = .next (ownRow core (wmaWait core rd) s) := by
    change execWmaWait core rd s = _
    simp [execWmaWait, onUnit, hc, hrd]
  rw [ownRow_complete4 (wmaWait_answers hr hw hx ho rd) (setX_user _ _ _ _)] at hrow
  refine ⟨_, hrow, fun h0 => ?_, fun k hk => ?_, ?_⟩
  · rw [complete4_getX, getX_setX_same h0]
  · rw [complete4_getX, getX_setX_other hk]
    rfl
  · rw [complete4_units, setX_units]

end Core

/-! ### A unit's rows -/

theorem exec_wmaCmdStart {u : Nat} (hu : u < 16) (s : State) : exec (.wmaCmdStart u) s = .next (wmaStart u s) := by
  change execWmaCmdStart u s = _
  simp [execWmaCmdStart, onUnit, hu]

theorem exec_wmaCmdDone {u : Nat} (hu : u < 16) (s : State) : exec (.wmaCmdDone u) s = .next (wmaDone u s) := by
  change execWmaCmdDone u s = _
  simp [execWmaCmdDone, onUnit, hu]

theorem exec_wmaFault {u : Nat} (hu : u < 16) (s : State) : exec (.wmaFault u) s = .next (wmaFail u false s) := by
  change execWmaFault u s = _
  simp [execWmaFault, onUnit, hu]

/-! ### The head of a queue starts or is refused -/

/-- A command with its operands read from the stand's SRAM (R184, R185). -/
def startedCmd (u : Nat) (c : WmaCmd) (s : State) : WmaCmd :=
  { c with
    running := true
    a := memReadN s.units.fab (fabAddr (u / 2) (fld c.block 0 8)) (8 * fld c.block 0x18 2)
    b := memReadN s.units.fab (fabAddr (u / 2) (fld c.block 8 8)) (8 * fld c.block 0x1A 2)
    acc := memReadN s.units.fab (fabAddr (u / 2) (fld c.block 0x10 8)) (8 * fld c.block 0x1C 2) }

section Head
variable {u : Nat} {c : WmaCmd} {r : List WmaCmd} {s : State} (hq : (getWma u s).cmds = c :: r)
include hq

/-- A valid head that waits starts (R184, R185). -/
theorem wmaStart_starts (hi : (getWma u s).isolated = false) (hn : c.running = false) (hf : wmaFormOk u c s = true) (hp : wmaProbe u c s = true) :
    wmaStart u s = setWma u { getWma u s with cmds := startedCmd u c s :: r, last := some c.core } s := by
  simp only [wmaStart, hq, hn, hi, hf, hp, Bool.or_self, Bool.and_self, Bool.false_eq_true, if_false, if_true]
  rfl

/-- A malformed head that waits ends with WMA_EFAIL, and nothing is stored (R184). -/
theorem wmaStart_refuses (hi : (getWma u s).isolated = false) (hn : c.running = false) (hf : wmaFormOk u c s = false) :
    (getWma u (wmaStart u s)).cmds = r ∧ tgetD (wmaStart u s).units.wmaVal c.core 0 = 1 ∧ (wmaStart u s).units.fab = s.units.fab := by
  simp only [wmaStart, hq, hn, hi, hf, Bool.or_self, Bool.false_and, Bool.false_eq_true, if_false]
  exact ⟨congrArg Wma.cmds (getWma_setWma_same _ _ _), tgetD_tset_same _ _ _ _, rfl⟩

end Head

/-! ### The running command ends -/

/-- The ordered scrubs of a stand look at its cores alone. -/
theorem orderedCores_of_cores {s t : State} (h : t.cores = s.cores) (st : Nat) : orderedCores st t = orderedCores st s := by
  unfold orderedCores getCore
  rw [h]

/-- With no scrub waiting, idle multipliers let none take place (R189). -/
theorem orderedDone_none {st : Nat} {s : State} (h : orderedCores st s = []) : orderedDone st s = s := by
  simp [orderedDone, h]

/-- The running command leaves its unit's queue, counted, and waits for its WMA.WAIT (R183, R186). -/
def takeDone (u : Nat) (c : WmaCmd) (r : List WmaCmd) (s : State) : State :=
  setWma u { getWma u s with cmds := r, done := (getWma u s).done + 1, busy := (getWma u s).busy + BitVec.ofNat 64 (wmaCycles c.block) }
    { s with units.wmaOpen := tset s.units.wmaOpen c.core c }

/-- What stands in ACC's place in the memory once a command ends: an undefined value if its operands were touched, else its result (R180, R183). -/
def putAcc (u : Nat) (c : WmaCmd) (s : State) : State :=
  if c.touched then wmaUndefined c s
  else fabStore (fabAddr (u / 2) (fld c.block 0x10 8)) (wmaProduct (bitOf (fld c.block 0x1E 1) 0) c.a c.b c.acc) s

theorem putAcc_wmas (u : Nat) (c : WmaCmd) (s : State) : (putAcc u c s).units.wmas = s.units.wmas := by
  unfold putAcc
  split <;> rfl

theorem putAcc_cores (u : Nat) (c : WmaCmd) (s : State) : (putAcc u c s).cores = s.cores := by
  unfold putAcc
  split <;> rfl

theorem putAcc_store (u : Nat) (c : WmaCmd) (s : State) : (putAcc u c s).store = s.store := by
  unfold putAcc
  split <;> rfl

section Done
variable {u : Nat} {c : WmaCmd} {r : List WmaCmd} {s : State} (hq : (getWma u s).cmds = c :: r) (hrun : c.running = true)
  (hord : orderedCores (u / 2) s = [])
include hq hrun hord

/-- A running command ends with value 0 once its ACC stands, and no scrub follows (R182, R186). -/
theorem wmaDone_head : wmaDone u s = wmaOver u c.core 0 (putAcc u c (takeDone u c r s)) := by
  have hdone : wmaDone u s = orderedDone (u / 2) (wmaOver u c.core 0 (putAcc u c (takeDone u c r s))) := by
    simp only [wmaDone, hq, hrun, Bool.not_true, Bool.false_eq_true, if_false]
    rfl
  have hcores : (wmaOver u c.core 0 (putAcc u c (takeDone u c r s))).cores = s.cores := putAcc_cores _ _ _
  rw [hdone, orderedDone_none ((orderedCores_of_cores hcores _).trans hord)]

/-- It leaves the queue, is counted, and gives its core the value 0 (R182, R186). -/
theorem wmaDone_counts : (getWma u (wmaDone u s)).cmds = r ∧ (getWma u (wmaDone u s)).done = (getWma u s).done + 1 ∧
    tgetD (wmaDone u s).units.wmaVal c.core 0 = 0 ∧ (wmaDone u s).store = s.store := by
  rw [wmaDone_head hq hrun hord]
  have hget : getWma u (wmaOver u c.core 0 (putAcc u c (takeDone u c r s))) = getWma u (takeDone u c r s) := getWma_of_wmas (putAcc_wmas _ _ _) u
  rw [hget, takeDone, getWma_setWma_same]
  exact ⟨rfl, rfl, tgetD_tset_same _ _ _ _, putAcc_store _ _ _⟩

/-- Operands left alone since WMA.GO: ACC + A × B is stored (R180, R183). -/
theorem wmaDone_stores (ht : c.touched = false) : (wmaDone u s).units.fab =
    memWriteN s.units.fab (fabAddr (u / 2) (fld c.block 0x10 8)) (wmaProduct (bitOf (fld c.block 0x1E 1) 0) c.a c.b c.acc) := by
  rw [wmaDone_head hq hrun hord, putAcc, if_neg (by simp [ht])]
  rfl

end Done

/-! ### A unit fails -/

/-- The multipliers' queues, the values for WMA.WAIT, and the key store. -/
def multipliers (s : State) : Tab Wma × Tab Nat × Store := (s.units.wmas, s.units.wmaVal, s.store)

theorem multipliers_of_beside {s t : State} (h : Beside s t) : multipliers t = multipliers s :=
  congrArg (fun p => (p.2.2.2.2.2.2.2.2.2.2.2.2.2.1.wmas, p.2.2.2.2.2.2.2.2.2.2.2.2.2.1.wmaVal, p.2.2.2.2.2.2.2.2.2.2.2.1)) h

theorem multipliers_unitReport (src unit : Nat) (inj : Bool) (s : State) : multipliers (unitReport src unit inj s) = multipliers s := by
  have h := multipliers_of_beside (Beside.trans vecAllPfs_beside faultRec_beside : Beside _ (unitReport src unit inj s))
  exact h

theorem cores_of_beyondHost {s t : State} (h : beyondHost t = beyondHost s) : t.cores = s.cores := by
  have k := congrArg State.cores h
  exact k

theorem cores_of_beyondLog {s t : State} (h : beyondLog t = beyondLog s) : t.cores = s.cores := by
  have k := congrArg State.cores h
  exact k

/-- A UNIT report is no order to a core. -/
theorem unitReport_cores (src unit : Nat) (inj : Bool) (s : State) : (unitReport src unit inj s).cores = s.cores := by
  have hvec (t : State) : (vecAllPfs 11 t).cores = t.cores :=
    foldl_keeps (f := State.cores) (fun t p => cores_of_beyondHost (sendVec_only (.pf p) 11 t)) _ t
  exact (cores_of_beyondLog (logPut_only _ _)).trans (hvec _)

theorem wmaTorn_leaves (c : WmaCmd) (s : State) : multipliers (wmaTorn c s) = multipliers s ∧ (wmaTorn c s).cores = s.cores := by
  unfold wmaTorn
  dsimp only
  split <;> exact ⟨rfl, rfl⟩

theorem multipliers_recomputeWeights (s : State) : multipliers (recomputeWeights s) = multipliers s := by
  have hlinks : multipliers (linkWeights s) = multipliers s := by
    refine foldl_keeps (f := multipliers) (fun t l => ?_) _ s
    dsimp only
    split <;> rfl
  refine (foldl_keeps (f := multipliers) (fun t a => ?_) _ _).trans hlinks
  dsimp only
  split
  · rfl
  · exact (multipliers_of_beside raiseEvent_beside).trans rfl

theorem multipliers_capRewrite (s : State) : multipliers (capRewrite s) = multipliers s := by
  unfold capRewrite
  split
  · exact multipliers_recomputeWeights s
  · refine (multipliers_recomputeWeights _).trans ((multipliers_of_beside eventAllPfs_beside).trans ?_)
    exact (multipliers_of_beside logCode_beside).trans rfl

/-- Commands that end with one value change no key and no core. -/
theorem foldl_wmaOver_leaves (u v : Nat) (cs : List WmaCmd) (s : State) :
    (cs.foldl (fun s c => wmaOver u c.core v s) s).store = s.store ∧ (cs.foldl (fun s c => wmaOver u c.core v s) s).cores = s.cores :=
  ⟨foldl_keeps (f := State.store) (g := fun s c => wmaOver u c.core v s) (fun _ _ => rfl) cs s,
    foldl_keeps (f := State.cores) (g := fun s c => wmaOver u c.core v s) (fun _ _ => rfl) cs s⟩

/-- The value a core reads after commands have ended with one value: that one if a command was its own. -/
theorem foldl_wmaOver_value (u v core : Nat) (cs : List WmaCmd) (s : State) :
    tgetD (cs.foldl (fun s c => wmaOver u c.core v s) s).units.wmaVal core 0 = if core ∈ cs.map (·.core) then v else tgetD s.units.wmaVal core 0 := by
  induction cs generalizing s with
  | nil => simp
  | cons c cs ih =>
    have hval : (wmaOver u c.core v s).units.wmaVal = tset s.units.wmaVal c.core v := rfl
    rw [List.foldl_cons, ih, hval]
    by_cases hc : core = c.core
    · simp [hc]
    · simp [hc, tgetD_tset_other _ _ _ _ _ hc]

/-- The failure is reported, and the running command's ACC is old or undefined (R190). -/
def tearAcc (u : Nat) (inj : Bool) (s : State) : State :=
  ((getWma u s).cmds.filter (·.running)).foldl (fun s c => wmaTorn c s) (unitReport 0x09 u inj s)

theorem tearAcc_leaves (u : Nat) (inj : Bool) (s : State) : (tearAcc u inj s).store = s.store ∧ (tearAcc u inj s).cores = s.cores := by
  have hm : multipliers (tearAcc u inj s) = multipliers s :=
    (foldl_keeps (fun t c => (wmaTorn_leaves c t).1) _ _).trans (multipliers_unitReport 0x09 u inj s)
  exact ⟨congrArg (·.2.2) hm, (foldl_keeps (fun t c => (wmaTorn_leaves c t).2) _ _).trans (unitReport_cores 0x09 u inj s)⟩

/-- Then every command ends with WMA_EFAULT (R190). -/
def faultCmds (u : Nat) (inj : Bool) (s : State) : State :=
  (getWma u s).cmds.foldl (fun s c => wmaOver u c.core 3 s) (tearAcc u inj s)

theorem faultCmds_leaves (u : Nat) (inj : Bool) (s : State) : (faultCmds u inj s).store = s.store ∧ (faultCmds u inj s).cores = s.cores := by
  obtain ⟨hstore, hcores⟩ := foldl_wmaOver_leaves u 3 (getWma u s).cmds (tearAcc u inj s)
  obtain ⟨hstore', hcores'⟩ := tearAcc_leaves u inj s
  exact ⟨hstore.trans hstore', hcores.trans hcores'⟩

/-- A unit that fails is isolated with nothing queued, and beyond its commands' ends keeps every value and key (R190). -/
theorem multipliers_wmaFail {u : Nat} {inj : Bool} {s : State} (hi : (getWma u s).isolated = false) (hord : orderedCores (u / 2) s = []) :
    multipliers (wmaFail u inj s) = multipliers (setWma u { getWma u s with isolated := true, cmds := [] } (faultCmds u inj s)) := by
  have hcores : (setWma u { getWma u s with isolated := true, cmds := [] } (faultCmds u inj s)).cores = s.cores := (faultCmds_leaves u inj s).2
  have hnone := orderedDone_none ((orderedCores_of_cores hcores (u / 2)).trans hord)
  have htail (t : State) (b : Bool) :
      multipliers (capRewrite (unitRec 0x0507 [(0, 1, 2), (1, 1, u)] inj (if b then notifyStand .unitLost 0 (u / 2) t else t))) = multipliers t := by
    refine (multipliers_capRewrite _).trans ((multipliers_of_beside logPut_beside).trans ?_)
    split <;> rfl
  rw [faultCmds, tearAcc] at hnone
  simp only [wmaFail, hi, Bool.false_eq_true, if_false, hnone, htail]
  rfl

/-- A unit in service that fails: isolated, its queue empty, each of its commands ended with WMA_EFAULT (R190). -/
theorem wmaFail_ends {u : Nat} {inj : Bool} {s : State} (hi : (getWma u s).isolated = false) (hord : orderedCores (u / 2) s = []) :
    (getWma u (wmaFail u inj s)).isolated = true ∧ (getWma u (wmaFail u inj s)).cmds = [] ∧ (wmaFail u inj s).store = s.store ∧
      ∀ c ∈ (getWma u s).cmds, tgetD (wmaFail u inj s).units.wmaVal c.core 0 = 3 := by
  have hm := multipliers_wmaFail (inj := inj) hi hord
  have hget := (getWma_of_wmas (congrArg (·.1) hm) u).trans (getWma_setWma_same _ _ _)
  have hval : (wmaFail u inj s).units.wmaVal = (faultCmds u inj s).units.wmaVal := congrArg (·.2.1) hm
  have hstore : (wmaFail u inj s).store = (faultCmds u inj s).store := congrArg (·.2.2) hm
  rw [hget, hval, hstore]
  refine ⟨rfl, rfl, (faultCmds_leaves u inj s).1, fun c hc => ?_⟩
  rw [faultCmds, foldl_wmaOver_value, if_pos (List.mem_map_of_mem hc)]

/-- A unit already isolated is only counted (R190). -/
theorem wmaFail_isolated {u : Nat} {inj : Bool} {s : State} (hi : (getWma u s).isolated = true) : wmaFail u inj s = countFault 0 s := by
  simp only [wmaFail, hi, if_true]

/-- Settles O46: one lemma for each instruction of a core, each end of a queue's head, and the failure. -/
theorem wmaCommandsComplete : Obligations.WmaCommandsComplete := by
  unfold Obligations.WmaCommandsComplete
  refine ⟨fun core rs1 u s hc hrs hu hr hw hx ho hi => exec_wmaGo hr hw hx ho hc hrs hu hi,
    fun core rd s hc hrd hr hw hx ho => exec_wmaWait hr hw hx ho hc hrd,
    fun u c r s hu hi hq => ⟨?starts, ?refused, ?touched, ?stored⟩, fun u s hu => ⟨?failed, ?isolated⟩⟩
  case starts =>
    intro hn hf hp
    refine ⟨_, startedCmd u c s, exec_wmaCmdStart hu s, ?_⟩
    rw [wmaStart_starts hq hi hn hf hp, getWma_setWma_same]
    exact ⟨rfl, rfl, rfl, rfl, rfl, rfl, rfl, rfl, rfl⟩
  case refused =>
    exact fun hn hf => ⟨_, exec_wmaCmdStart hu s, wmaStart_refuses hq hi hn hf⟩
  case touched =>
    exact fun hrun _ hord => ⟨_, exec_wmaCmdDone hu s, wmaDone_counts hq hrun hord⟩
  case stored =>
    intro hrun ht hord
    obtain ⟨hcmds, hdone, hval, -⟩ := wmaDone_counts hq hrun hord
    exact ⟨_, exec_wmaCmdDone hu s, hcmds, hdone, hval, wmaDone_stores hq hrun hord ht⟩
  case failed =>
    exact fun hi hord => ⟨_, exec_wmaFault hu s, wmaFail_ends hi hord⟩
  case isolated =>
    intro hi
    rw [exec_wmaFault hu, wmaFail_isolated hi]

end Sys2Proof.Machine
end

section
/-! Seedbank health (O30): what tested samples leave of a bank, what a failed bank's isolation leaves, what a closed window releases, and the statement they make up. -/

namespace Sys2Proof.Machine

/-! ### A bank's record -/

@[simp] theorem getBank_setBank_same (b : Nat) (k : Bank) (s : State) : getBank b (setBank b k s) = k := tgetD_tset_same _ _ _ _

theorem getBank_setBank_other {i b : Nat} (h : i ≠ b) (k : Bank) (s : State) : getBank i (setBank b k s) = getBank i s :=
  tgetD_tset_other _ _ _ _ _ h

/-- A bank's record and the store. -/
def bankStore (b : Nat) (s : State) : Bank × Store := (getBank b s, s.store)

theorem bankStore_of_besideQ {s t : State} (b : Nat) (h : BesideQ s t) : bankStore b t = bankStore b s :=
  congrArg (fun q => (tgetD q.2.2.2.2.2.2.2.2.2.2.2.2.2.1.banks b {}, q.2.2.2.2.2.2.2.2.2.2.2.1)) h

theorem bankStore_of_beside {s t : State} (b : Nat) (h : Beside s t) : bankStore b t = bankStore b s := bankStore_of_besideQ b h.weak

theorem bankRuns_iff {b : Nat} {s : State} :
    bankRuns b s = true ↔
      bankLive b s = true ∧ (getBank b s).enable = true ∧ ((getBank b s).state = .starting ∨ (getBank b s).state = .delivering) := by
  simp [bankRuns, and_assoc]

/-! ### SEEDBANK_CONFIG's banks in turn (R226) -/

/-- The answer of SEEDBANK_CONFIG changes no bank. -/
theorem bankStore_sbkAnswer (b : Nat) (s : State) : bankStore b (sbkAnswer s) = bankStore b s :=
  foldl_keeps (f := bankStore b) (fun _ _ => bankStore_of_besideQ b deliver_besideq) s.mbox _

/-- The next bank to be reconfigured is one still named, and not one that is lost. -/
theorem bankStore_sbkNext {b : Nat} {s : State} (h : bankLost b s = true ∨ b ∉ s.units.sbkTodo) : bankStore b (sbkNext s) = bankStore b s := by
  unfold sbkNext
  split
  next c r hc =>
    obtain ⟨hmem, hlost⟩ := List.mem_filter.1 (hc ▸ List.mem_cons_self : c ∈ s.units.sbkTodo.filter (fun b => !bankLost b s))
    have hne : b ≠ c := by
      rintro rfl
      rcases h with h | h
      · simp [h] at hlost
      · exact h hmem
    exact congrArg (·, s.store) (getBank_setBank_other hne _ _)
  next => exact bankStore_sbkAnswer b s

theorem bankStore_sbkStep {b : Nat} {s : State} (h : s.units.sbkNow ≠ some b ∨ bankLost b s = true ∨ b ∉ s.units.sbkTodo) :
    bankStore b (sbkStep b s) = bankStore b s := by
  unfold sbkStep
  split
  next hnow => exact bankStore_sbkNext (h.resolve_left (fun hn => hn hnow))
  next => rfl

/-! ### A bank that fails (R210, R211) -/

theorem bankStore_unitReport (b src unit : Nat) (inj : Bool) (s : State) : bankStore b (unitReport src unit inj s) = bankStore b s := by
  have h : Beside _ (unitReport src unit inj s) := Beside.trans vecAllPfs_beside faultRec_beside
  have k := bankStore_of_beside b h
  exact k

/-- Consecutive cold starts at which the bank was isolated, once it is isolated now (R211). -/
def badStartsAfter (b : Nat) (s : State) : Nat :=
  (getBank b s).badStarts + b2n (!(getBank b s).failed && ((getBank b s).fresh || s.start.starting))

/-- In t the bank is isolated with this cause, or retired at its third bad start; the store is as in s. -/
abbrev BankLostWith (b cause bad : Nat) (s t : State) : Prop :=
  (getBank b t).cause = cause ∧ (getBank b t).badStarts = bad ∧ (getBank b t).state = (if 3 ≤ bad then .retired else .isolated) ∧ t.store = s.store

/-- The record of a bank that fails: isolated, or retired, with nothing held (R210, R211). -/
def lostBank (b cause : Nat) (s : State) : Bank :=
  { getBank b s with
    state := if 3 ≤ badStartsAfter b s then .retired else .isolated, cause := cause
    failed := (getBank b s).failed || (getBank b s).badStarts < badStartsAfter b s, badStarts := badStartsAfter b s, part := [], cells := [] }

theorem lostBank_lost {b cause : Nat} {s t : State} (h : getBank b t = lostBank b cause s) : bankLost b t = true := by
  simp only [bankLost, h, lostBank]
  split <;> rfl

/-- The isolation's report, record and mode change no bank: the bank is left lost. -/
theorem bankStore_isolateBank (b cause : Nat) (inj : Bool) (s : State) : bankStore b (isolateBank b cause inj s) = (lostBank b cause s, s.store) := by
  have hbad : (if !(getBank b s).failed && ((getBank b s).fresh || s.start.starting) then (getBank b s).badStarts + 1 else (getBank b s).badStarts) =
      badStartsAfter b s := by
    unfold badStartsAfter
    cases (!(getBank b s).failed && ((getBank b s).fresh || s.start.starting)) <;> rfl
  have hrec (arg : List (Nat × Nat × Nat)) (t : State) : bankStore b (unitRec 0x0506 arg inj t) = bankStore b t :=
    bankStore_of_beside b logPut_beside
  have hreported (arg : List (Nat × Nat × Nat)) :
      bankStore b (refreshMode (unitRec 0x0506 arg inj (unitReport 0x0C b inj (setBank b (lostBank b cause s) s)))) = (lostBank b cause s, s.store) := by
    rw [bankStore_of_beside b refreshMode_beside, hrec, bankStore_unitReport, bankStore, getBank_setBank_same]
    rfl
  unfold isolateBank
  dsimp only
  rw [hbad]
  exact (bankStore_sbkStep (.inr (.inl (lostBank_lost (congrArg Prod.fst (hreported _)))))).trans (hreported _)

/-- What a failure's outcome depends on beside its cause. -/
def judged (k : Bank) : SbkState × Bool × Bool × Nat := (k.state, k.failed, k.fresh, k.badStarts)

/-- A running bank that fails after the judgement of its samples or frequencies, which leaves u, is lost (R210, R211). -/
theorem bankFail_loses {b cause : Nat} {s u : State} (hb : b < 8) (hr : bankRuns b s = true) (hk : judged (getBank b u) = judged (getBank b s))
    (hstart : u.start = s.start) (hstore : u.store = s.store) : BankLostWith b cause (badStartsAfter b s) s (bankFail b cause false u) := by
  obtain ⟨-, -, hstate⟩ := bankRuns_iff.1 hr
  simp only [judged, Prod.mk.injEq] at hk
  obtain ⟨hks, hkf, hkr, hkb⟩ := hk
  have hin : bankLost b u = false := by
    rcases hstate with h | h <;> simp [bankLost, hks, h]
  have hbad : badStartsAfter b u = badStartsAfter b s := by simp only [badStartsAfter, hkf, hkr, hkb, hstart]
  have hfail : bankFail b cause false u = isolateBank b cause false u := by
    simp only [bankFail, hin, Bool.false_eq_true, if_false]
    exact if_neg (show b ≠ 8 by omega)
  have h := bankStore_isolateBank b cause false u
  have hget : getBank b (isolateBank b cause false u) = lostBank b cause u := congrArg Prod.fst h
  rw [hfail, BankLostWith, hget, ← hbad]
  exact ⟨rfl, rfl, rfl, (congrArg Prod.snd h).trans hstore⟩

/-! ### Samples judged (R207, R208, R212) -/

/-- From s to u the bank's tests have judged samples: its registers of the tests moved, n more samples counted as passed, and nothing else changed. -/
def Sampled (b n : Nat) (s u : State) : Prop :=
  u = { s with units.banks := u.units.banks } ∧
  ∃ rs m a c, getBank b u = { getBank b s with cells := rs, rctMax := m, aptMax := a, rctCell := c, tested := (getBank b s).tested + n }

theorem Sampled.trans {b m n : Nat} {s u v : State} (h : Sampled b m s u) (k : Sampled b n u v) : Sampled b (m + n) s v := by
  obtain ⟨hu, rs, m', a, c, hk⟩ := h
  obtain ⟨hv, rs', m'', a', c', hk'⟩ := k
  refine ⟨hv.trans (by rw [hu]), rs', m'', a', c', ?_⟩
  rw [hk', hk]
  simp only [Nat.add_assoc]

theorem Sampled.refl (b : Nat) (s : State) : Sampled b 0 s s := ⟨rfl, _, _, _, _, rfl⟩

theorem Sampled.tested {b n : Nat} {s u : State} (h : Sampled b n s u) : (getBank b u).tested = (getBank b s).tested + n := by
  obtain ⟨-, rs, m, a, c, hk⟩ := h
  rw [hk]

theorem Sampled.keeps {b n : Nat} {s u : State} (h : Sampled b n s u) :
    judged (getBank b u) = judged (getBank b s) ∧ (getBank b u).gated = (getBank b s).gated ∧ (getBank b u).outBits = (getBank b s).outBits ∧
      (getBank b u).cond = (getBank b s).cond ∧ u.start = s.start ∧ u.store = s.store ∧ u.units.sbkNow = s.units.sbkNow ∧ u.units.sbkTodo = s.units.sbkTodo := by
  obtain ⟨hu, rs, m, a, c, hk⟩ := h
  rw [hk]
  refine ⟨rfl, rfl, rfl, rfl, ?_⟩
  rw [hu]
  exact ⟨rfl, rfl, rfl, rfl⟩

theorem Sampled.state {b n : Nat} {s u : State} (h : Sampled b n s u) : (getBank b u).state = (getBank b s).state := congrArg (·.1) h.keeps.1

/-- A running bank whose judged samples failed is lost. -/
theorem Sampled.loses {b n cause : Nat} {s u : State} (h : Sampled b n s u) (hb : b < 8) (hr : bankRuns b s = true) :
    BankLostWith b cause (badStartsAfter b s) s (bankFail b cause false u) := by
  obtain ⟨hk, -, -, -, hstart, hstore, -⟩ := h.keeps
  exact bankFail_loses hb hr hk hstart hstore

theorem sampleBank_sampled {b : Nat} {xs : List Nat} {s u : State} {o : Option Nat} (h : sampleBank b xs s = (o, u)) : Sampled b 0 s u := by
  obtain rfl : (sampleBank b xs s).2 = u := congrArg Prod.snd h
  exact ⟨rfl, _, _, _, _, getBank_setBank_same _ _ _⟩

/-- Samples that pass while the start-up test runs count for it. -/
theorem windowPassed_starting {b : Nat} {s : State} (xs : List Nat) (h : (getBank b s).state = .starting) :
    windowPassed b xs s = setBank b { getBank b s with tested := (getBank b s).tested + xs.length } s := if_pos h

theorem windowPassed_sampled {b : Nat} {s : State} (xs : List Nat) (h : (getBank b s).state = .starting) :
    Sampled b xs.length s (windowPassed b xs s) := by
  rw [windowPassed_starting xs h]
  exact ⟨rfl, _, _, _, _, getBank_setBank_same _ _ _⟩

/-- The windows of the start-up test, up to the first that fails, count one after another (R212). -/
theorem startupTest_sampled {b n : Nat} {xs : List Nat} {s u : State} {o : Option Nat} (hs : (getBank b s).state = .starting)
    (hn : n * windowSamples b ≤ xs.length) (h : startupTest b n xs s = (o, u)) :
    ∃ m, Sampled b m s u ∧ (o = none → m = n * windowSamples b) := by
  induction n generalizing xs s with
  | zero =>
    obtain ⟨rfl, rfl⟩ := Prod.mk.inj h
    exact ⟨0, .refl b s, fun _ => (Nat.zero_mul _).symm⟩
  | succ n ih =>
    rw [Nat.succ_mul] at hn
    unfold startupTest at h
    split at h
    next c v hv =>
      obtain ⟨rfl, rfl⟩ := Prod.mk.inj h
      exact ⟨0, sampleBank_sampled hv, fun hc => nomatch hc⟩
    next v hv =>
      have hjudged := sampleBank_sampled hv
      have hpassed := hjudged.trans (windowPassed_sampled (xs.take (windowSamples b)) (hjudged.state.trans hs))
      obtain ⟨m, hm, hall⟩ := ih (hpassed.state.trans hs) (by rw [List.length_drop]; omega) h
      refine ⟨_, hpassed.trans hm, fun ho => ?_⟩
      rw [hall ho, List.length_take, Nat.succ_mul]
      omega

/-! ### What a closed window releases (R205, R218) -/

/-- A change of a bank's record that is no release keeps every bank's count of bits. -/
theorem outBits_setBank {i b : Nat} {k : Bank} {s : State} (h : k.outBits = (getBank b s).outBits) :
    (getBank i (setBank b k s)).outBits = (getBank i s).outBits := by
  by_cases hi : i = b
  · rw [hi, getBank_setBank_same, h]
  · rw [getBank_setBank_other hi]

theorem outBits_setFeed (i st w : Nat) (f : Feed) (s : State) : (getBank i (setFeed st w f s)).outBits = (getBank i s).outBits := outBits_setBank rfl

theorem outBits_setLast (i b : Nat) (l : List Bool) (s : State) :
    (getBank i (setBank b { getBank b s with last := l } s)).outBits = (getBank i s).outBits := outBits_setBank rfl

theorem outBits_setTurn (i b n : Nat) (s : State) :
    (getBank i (setBank b { getBank b s with turn := n } s)).outBits = (getBank i s).outBits := outBits_setBank rfl

theorem outBits_giveWord (i b : Nat) (x : DWord) (s : State) (a : Asker) : (getBank i (giveWord b x s a)).outBits = (getBank i s).outBits := by
  cases a with
  | wire st w => exact outBits_setFeed _ _ _ _ _
  | key st => rfl
  | sap => rfl
  | heart => rfl

/-- Serving a word counts no bits. -/
theorem outBits_serveWord (i b : Nat) (x : DWord) (s : State) : (getBank i (serveWord b x s)).outBits = (getBank i s).outBits := by
  unfold serveWord
  dsimp only
  split
  · exact (outBits_setLast i b _ _).trans (outBits_setFeed i b 6 _ s)
  · split
    next a _ => exact (outBits_setTurn i b _ _).trans ((outBits_setLast i b _ _).trans (outBits_giveWord i b x s a))
    next =>
      refine (outBits_setLast i b _ _).trans ?_
      split
      · exact outBits_setFeed i b 5 _ s
      · rfl

theorem outBits_serveEarly (i : Nat) (x : DWord) (s : State) : (getBank i (serveEarly x s)).outBits = (getBank i s).outBits := by
  unfold serveEarly
  split <;> rfl

/-- A release counts its bits, and no word that it serves counts again. -/
theorem outBits_releaseWindow (b : Nat) (bits : List Bool) (s : State) :
    (getBank b (releaseWindow b bits s)).outBits = (getBank b s).outBits + BitVec.ofNat 64 bits.length := by
  unfold releaseWindow
  dsimp only
  refine (foldl_keeps (f := fun t => (getBank b t).outBits) (fun t x => ?_) _ _).trans (congrArg Bank.outBits (getBank_setBank_same _ _ _))
  split
  · exact outBits_serveEarly b x t
  · exact outBits_serveWord b b x t

/-! ### The frequency gate (R224) -/

/-- The bank mean over its cells' frequencies. -/
def freqMean (fs : List Nat) : Nat := fs.foldl (· + ·) 0 / fs.length

/-- The cells' spread. -/
def freqSpread (fs : List Nat) : Nat := fs.max?.getD 0 - fs.min?.getD 0

/-- A mean out of its range, or cells that lie within 0.5 % of it. -/
def freqBad (b : Nat) (fs : List Nat) (s : State) : Bool := !meanOk b (freqMean fs) s || 200 * freqSpread fs < freqMean fs

/-- The gate's figures, and whether one has closed. -/
def gateClosed (b : Nat) (fs : List Nat) (s : State) : State :=
  setBank b { getBank b s with mean := min 65535 (freqMean fs), spread := min 65535 (freqSpread fs), gated := (getBank b s).gated || !freqBad b fs s } s

/-- Of a running bank of the Canopy the gate is closed, and a bad one fails it. -/
theorem freqGate_runs {b f : Nat} {fs : List Nat} {s : State} (hb : b < 8) (hr : bankRuns b s = true) :
    freqGate b (f :: fs) s =
      if freqBad b (f :: fs) s then bankFail b 4 false (gateClosed b (f :: fs) s) else gateClosed b (f :: fs) s := by
  obtain ⟨hlive, henable, hstate⟩ := bankRuns_iff.1 hr
  have hpower : s.pwr.canopyGood = true := by simpa [bankLive, earlyBank, show b ≠ 8 by omega] using hlive
  have hruns : bankRuns b (gateClosed b (f :: fs) s) = true := by
    rw [bankRuns_iff, gateClosed, getBank_setBank_same]
    exact ⟨hlive, henable, hstate⟩
  have hguard : (!s.pwr.canopyGood || (getBank b s).state == .off || (getBank b s).state == .retired || (f :: fs).isEmpty) = false := by
    rcases hstate with h | h <;> simp [hpower, h]
  unfold freqGate
  dsimp only
  rw [hguard]
  change (if bankRuns b (gateClosed b (f :: fs) s) && freqBad b (f :: fs) s then _ else _) = _
  rw [hruns, Bool.true_and]
  rfl

/-! ### The end of the start-up test (R212, R213) -/

/-- A bank that has passed its test and its gate delivers, whichever bank SEEDBANK_CONFIG turns to next. -/
theorem startupDeliver_delivers {b : Nat} {s : State} (ht : 4096 ≤ (getBank b s).tested) (hg : (getBank b s).gated = true ∨ b = 8)
    (hnext : s.units.sbkNow ≠ some b ∨ b ∉ s.units.sbkTodo) :
    (getBank b (startupDeliver b s)).state = .delivering ∧ (getBank b (startupDeliver b s)).cause = 0 ∧ (startupDeliver b s).store = s.store := by
  have hgo : (decide ((getBank b s).tested < startupSamples) || !((getBank b s).gated || b == earlyBank)) = false := by
    rw [Bool.or_eq_false_iff, decide_eq_false_iff_not]
    exact ⟨Nat.not_lt.2 ht, by rcases hg with h | h <;> simp [earlyBank, h]⟩
  have h : bankStore b (startupDeliver b s) = ({ getBank b s with state := .delivering, cause := 0, fresh := false }, s.store) := by
    unfold startupDeliver
    dsimp only
    rw [hgo, if_neg Bool.false_ne_true, bankStore_sbkStep (by rw [refreshMode_units]; exact hnext.imp_right .inr), bankStore_of_beside b refreshMode_beside,
      bankStore, getBank_setBank_same]
    rfl
  have hget : getBank b (startupDeliver b s) = { getBank b s with state := .delivering, cause := 0, fresh := false } := congrArg Prod.fst h
  rw [hget]
  exact ⟨rfl, rfl, congrArg Prod.snd h⟩

theorem startupDeliver_waits {b : Nat} {s : State} (h : (getBank b s).tested < 4096 ∨ ((getBank b s).gated = false ∧ b ≠ 8)) :
    startupDeliver b s = s := by
  refine if_pos ?_
  rw [Bool.or_eq_true, decide_eq_true_eq]
  simpa [startupSamples, earlyBank] using h

/-! ### The rows -/

section Judgements

variable {b : Nat} {s : State} (hb : b ≤ 8) (hr : bankRuns b s = true)
include hb hr

theorem exec_seedbankHealthFail_parity : exec (.seedbankHealthFail b .parity) s = .next (bankFail b 5 false s) := by
  refine (if_pos (decide_eq_true hb)).trans (congrArg _ ?_)
  simp [healthFail, hr]

/-- Samples that fail no test are no fault (R210). -/
theorem exec_seedbankHealthFail_samples {xs : List Nat} {o : Option Nat} {u : State} (h : sampleBank b (xs.take (windowSamples b)) s = (o, u)) :
    exec (.seedbankHealthFail b (.samples xs)) s = .next (o.elim s (fun c => bankFail b c false u)) := by
  refine (if_pos (decide_eq_true hb)).trans (congrArg _ ?_)
  cases o <;> simp [healthFail, hr, h]

theorem exec_seedbankWindowClose {xs : List Nat} {o : Option Nat} {u : State} (hx : xs.length = windowSamples b) (h : sampleBank b xs s = (o, u)) :
    exec (.seedbankWindowClose b xs) s = .next (o.elim (windowPassed b xs u) (fun c => bankFail b c false u)) := by
  refine (if_pos (decide_eq_true hb)).trans (congrArg _ ?_)
  cases o <;> simp [windowClose, hr, hx, h]

theorem exec_seedbankStartupDone {xs : List Nat} {o : Option Nat} {u : State} (hs : (getBank b s).state = .starting)
    (h : startupTest b (xs.length / windowSamples b) xs s = (o, u)) :
    exec (.seedbankStartupDone b xs) s = .next (o.elim (startupDeliver b u) (fun c => bankFail b c false u)) := by
  refine (if_pos (decide_eq_true hb)).trans (congrArg _ ?_)
  cases o <;> simp [startupDone, hr, hs, h]

end Judgements

theorem exec_seedbankFreqGate {b f : Nat} {fs : List Nat} {s : State} (hb : b < 8) (hr : bankRuns b s = true) :
    exec (.seedbankFreqGate b (f :: fs)) s =
      .next (if freqBad b (f :: fs) s then bankFail b 4 false (gateClosed b (f :: fs) s) else gateClosed b (f :: fs) s) :=
  (if_pos (decide_eq_true hb)).trans (congrArg _ (freqGate_runs hb hr))

/-- Settles O30: each judgement by what it leaves of the bank, and each outcome by the bank's isolation, release or delivery. -/
theorem seedbankHealthCompletes : Obligations.SeedbankHealthCompletes := by
  unfold Obligations.SeedbankHealthCompletes
  refine fun b s => ⟨fun bad hb hr hbad => ⟨?parity, ?samples, ?window, ?startup, ?frequency⟩, ?passes, ?closes, ?gate, ?starts, ?gauge⟩
  case parity =>
    rw [hbad]
    exact ⟨_, exec_seedbankHealthFail_parity hb.le hr, (Sampled.refl b s).loses hb hr⟩
  case samples =>
    intro xs c u h
    rw [hbad]
    exact ⟨_, exec_seedbankHealthFail_samples hb.le hr h, (sampleBank_sampled h).loses hb hr⟩
  case window =>
    intro xs c u hx h
    rw [hbad]
    exact ⟨_, exec_seedbankWindowClose hb.le hr hx h, (sampleBank_sampled h).loses hb hr⟩
  case startup =>
    intro xs c u hs h
    obtain ⟨m, hm, -⟩ := startupTest_sampled hs (Nat.div_mul_le_self _ _) h
    rw [hbad]
    exact ⟨_, exec_seedbankStartupDone hb.le hr hs h, hm.loses hb hr⟩
  case frequency =>
    intro f fs hspread
    have hfail : freqBad b (f :: fs) s = true := by
      rw [freqBad, Bool.or_eq_true]
      exact .inr (decide_eq_true hspread)
    have hjudged : judged (getBank b (gateClosed b (f :: fs) s)) = judged (getBank b s) := by
      rw [gateClosed, getBank_setBank_same]
      rfl
    rw [hbad]
    exact ⟨_, (exec_seedbankFreqGate hb hr).trans (by rw [if_pos hfail]), bankFail_loses hb hr hjudged rfl rfl⟩
  case passes =>
    exact fun xs u hb hr h => exec_seedbankHealthFail_samples hb hr h
  case closes =>
    intro xs u hb hr hx h
    have hu := sampleBank_sampled h
    obtain ⟨-, -, hbits, hcond, -⟩ := hu.keeps
    refine ⟨fun hs => ?_, fun hd => ⟨_, rfl, ?_, ?_⟩⟩
    · rw [exec_seedbankWindowClose hb hr hx h, Option.elim_none, windowPassed_starting xs (hu.state.trans hs), hu.tested, hx]
      rfl
    · rw [exec_seedbankWindowClose hb hr hx h, ← hcond]
      exact congrArg _ (if_neg (by rw [hu.state, hd]; exact nofun))
    · rw [outBits_releaseWindow, hbits]
  case gate =>
    rintro f fs mean spread hb hr rfl rfl hmean hspread
    have hgood : freqBad b (f :: fs) s = false := by
      rw [freqBad, Bool.or_eq_false_iff]
      exact ⟨congrArg (!·) hmean, decide_eq_false (Nat.not_lt.2 hspread)⟩
    rw [exec_seedbankFreqGate hb hr, hgood, gateClosed, hgood, Bool.not_false, Bool.or_true]
    rfl
  case starts =>
    intro xs u hb hr hs h
    obtain ⟨m, hm, hall⟩ := startupTest_sampled hs (Nat.div_mul_le_self _ _) h
    obtain rfl := hall rfl
    obtain ⟨-, hgated, -, -, -, hstore, hnow, htodo⟩ := hm.keeps
    have hexec := exec_seedbankStartupDone hb hr hs h
    refine ⟨hm.tested, fun ht hg hnext => ?_, fun hw => ?_⟩
    · obtain ⟨hstate, hcause, hkept⟩ := startupDeliver_delivers ht (by rwa [hgated]) (by rwa [hnow, htodo])
      exact ⟨_, hexec, hstate, hcause, hkept.trans hstore⟩
    · rw [hexec, Option.elim_none, startupDeliver_waits (by rwa [hgated])]
  case gauge =>
    exact fun temp age hb => if_pos (decide_eq_true hb)

end Sys2Proof.Machine
end

section
/-! Seedbank ports (O31): a port's burst that falls on the ACC of a WMA command that no WMA.WAIT has returned changes more of the memory than the request's words. -/

namespace Sys2Proof.Machine

/-! ### What a port's burst leaves in the memory -/

/-- A wire that holds the bytes gives them (R206). -/
theorem takeWire_held {st w n : Nat} {d : Bytes} {s : State} (h : (getFeed st w s).bytes n = some d) :
    takeWire st w n s = (some d, setFeed st w ((getFeed st w s).drop n) s) := by
  rw [takeWire, h]

/-- Of the memory, a port's request that the ACU permits changes what the write of its words does (R221). -/
theorem exec_sbkPortRequestDone_fab {st : Nat} {r : SbkReq} {rest : List SbkReq} {d : Bytes} {s u : State} (hst : st < 8)
    (hq : (getBank st s).queue = r :: rest) (hw : takeWire st 5 (8 * r.count) s = (some d, u)) (hc : r.ctx = none)
    (hp : probeOk (portTag st r u) (targetOf st r.addr) r.addr d.length true u = true) :
    ∃ t, exec (.sbkPortRequestDone st) s = .next t ∧ t.units.fab = (fabWrite (fabAddr (targetOf st r.addr) r.addr) d u).units.fab := by
  refine ⟨_, if_pos (decide_eq_true hst), ?_⟩
  simp only [portDone, hq, hw, hc, hp, if_true]
  rfl

/-! ### The counterexample -/

/-- A world-T core of stand 0 has asked its stand's port for one word, at the second word of endedCmd's ACC. -/
def overAccReq : SbkReq := { master := 6, owner := 0, priv := true, addr := 0x0C000040, count := 1 }

/-- A region of stand 0's ACU that lets world T write the bank of core 0 (R431). -/
def bankRegion : AcuRegion := { start := 0x0C000000, stop := 0x0C0FFFFC, attr := 0x15 }

/-- The reservoir holds the request's word, the ACU permits its write, and the first byte of the command's ACC is b. -/
def portOverAcc (b : Byte) : State :=
  { units := { banks := [(0, { feeds := [(5, { got := [0] })], queue := [overAccReq] })], wmaOpen := [(0, endedCmd)], fab := memWrite [] accByte b },
    world := { acus := [(0, { regions := [(0, bankRegion)] })] } }

/-- The state once the request has taken its word. -/
def portTaken (b : Byte) : State := setFeed 0 5 ((getFeed 0 5 (portOverAcc b)).drop 8) (portOverAcc b)

theorem portOverAcc_takes (b : Byte) : takeWire 0 5 (8 * overAccReq.count) (portOverAcc b) = (some (leBytes 8 0), portTaken b) :=
  takeWire_held rfl

/-- A probe does not look at the memory. -/
theorem probeOk_fab (t : FabricTag) (target x len : Nat) (w : Bool) (m : Mem) (s : State) :
    probeOk t target x len w { s with units.fab := m } = probeOk t target x len w s := rfl

theorem portTaken_probes (b : Byte) :
    probeOk (portTag 0 overAccReq (portTaken b)) (targetOf 0 overAccReq.addr) overAccReq.addr (leBytes 8 0).length true (portTaken b) = true := by
  have h : probeOk (portTag 0 overAccReq (portTaken 0)) (targetOf 0 overAccReq.addr) overAccReq.addr (leBytes 8 0).length true (portTaken 0) = true := by
    decide +kernel
  exact (probeOk_fab _ _ _ _ _ (memWrite [] accByte b) (portTaken 0)).trans h

/-- The request's words go where savingDge's image would. -/
theorem overAccReq_addr : fabAddr (targetOf 0 overAccReq.addr) overAccReq.addr = imageAddr 0 savingDge := rfl

/-- The burst leaves in ACC's first byte the undefined value's, though that byte stands before the words. -/
theorem portOverAcc_accByte (b : Byte) : ∃ t, exec (.sbkPortRequestDone 0) (portOverAcc b) = .next t ∧
    memRead t.units.fab accByte = BitVec.ofNat 8 (Config.freeValue 0) := by
  obtain ⟨t, ht, hfab⟩ := exec_sbkPortRequestDone_fab (by decide) rfl (portOverAcc_takes b) rfl (portTaken_probes b)
  have hacc : (wmaOps endedCmd.block).2.2 = (0x0C000038, 16) := by decide +kernel
  have hwf : memWf (memWrite [] accByte b) = true := memWf_memWrite [] accByte b rfl
  refine ⟨t, ht, ?_⟩
  rw [hfab, overAccReq_addr, fabWrite_fab_of_meets (core := 0) rfl (endedCmd_meets _), hacc]
  change memRead (memWriteN (memWriteN (memWrite [] accByte b) (accByte + 8) _) accByte (leBytes 16 (Config.freeValue 0))) accByte = _
  rw [memRead_memWriteN _ _ _ _ (memWf_memWriteN _ _ _ hwf)]
  simp [leBytes]

/-- Refutes O31: its clause on a permitted request has the memory change by the request's words alone, but where they fall on the ACC of a command
that no WMA.WAIT has returned, that ACC becomes undefined, all its words (R183), and so a byte before the words changes. -/
theorem not_seedbankPortsComplete : ¬ Obligations.SeedbankPortsComplete := by
  unfold Obligations.SeedbankPortsComplete
  intro ⟨_, hdone, _⟩
  have hb (b : Byte) : BitVec.ofNat 8 (Config.freeValue 0) = b := by
    obtain ⟨-, htaken⟩ := hdone 0 overAccReq [] (portOverAcc b) (by decide) rfl
    obtain ⟨-, hwritten, -⟩ := htaken _ _ (portOverAcc_takes b)
    obtain ⟨t, ht, -, -, -, hfab, -⟩ := hwritten rfl (portTaken_probes b)
    obtain ⟨u, hu, hbyte⟩ := portOverAcc_accByte b
    obtain rfl : u = t := Host.Outcome.next.inj (hu.symm.trans ht)
    rw [← hbyte, hfab, overAccReq_addr]
    exact savesOverAcc_image b (leBytes 8 0)
  exact absurd ((hb 0).symm.trans (hb 1)) (by decide)

end Sys2Proof.Machine
end

section
/-! Security messages (O33): what a DOE request does to its mailbox, how an SPDM answer and a key message change sessions and key sets, and the statement they make up. -/

namespace Sys2Proof.Machine

/-! ### IDE streams -/

@[simp] theorem getIde_setIde_same (l n : Nat) (x : IdeStream) (s : State) : getIde l n (setIde l n x s) = x := tgetD_tset_same _ _ _ _

theorem getIde_setIde_other {i n : Nat} (h : i ≠ n) (l : Nat) (x : IdeStream) (s : State) : getIde l i (setIde l n x s) = getIde l i s :=
  tgetD_tset_other _ _ _ _ _ (by omega)

/-- A key message changes the links' streams only. -/
theorem ideKm_only (l : Nat) (m mask : Bytes) (s : State) : ideKm l m mask s = { s with host.ide := (ideKm l m mask s).host.ide } := by
  unfold ideKm
  dsimp only
  repeat' split
  all_goals rfl

/-- What a key message makes of the stream it names, by its object's code (R234). -/
def ideObject (m mask : Bytes) (x : IdeStream) : IdeStream :=
  match fld m 12 1 with
  | 2 => ideProg m mask x
  | 4 => ideGo (fld m 17 1 % 2) x
  | 5 => ideStop (fld m 17 1 % 2) x
  | _ => x

/-- A key message does what its object says to the stream it names, and nothing to another (R234). -/
theorem getIde_ideKm {m : Bytes} (hv : spdmIs 0xFE m = true) (hk : fld m 11 1 = 0) (hn : fld m 15 1 ≤ 16) (l i : Nat) (mask : Bytes) (s : State) :
    getIde l i (ideKm l m mask s) = if i = fld m 15 1 then ideObject m mask (getIde l i s) else getIde l i s := by
  have hc : (!spdmIs 0xFE m || fld m 11 1 != 0 || decide (16 < fld m 15 1)) = false := by simp [hv, hk, Nat.not_lt.mpr hn]
  unfold ideKm ideObject
  dsimp only
  rw [if_neg (by simp [hc])]
  generalize fld m 12 1 = code
  by_cases hi : i = fld m 15 1
  · subst hi
    rw [if_pos rfl]
    match code with
    | 2 | 4 | 5 => exact getIde_setIde_same _ _ _ _
    | 0 | 1 | 3 | _ + 6 => rfl
  · rw [if_neg hi]
    match code with
    | 2 | 4 | 5 => exact getIde_setIde_other hi _ _ _
    | 0 | 1 | 3 | _ + 6 => rfl

/-! ### DOE requests -/

/-- The Heartwood's draw leaves the host side. -/
@[simp] theorem takeHeart_host (n : Nat) (s : State) : (takeHeart n s).2.host = s.host := by rw [takeHeart_only]

theorem not_contains_without {α : Type} [DecidableEq α] (l : List α) (x : α) : (without l x).contains x = false := by
  simp [without]

/-- A DOE mailbox takes a request: its PF is there and in D0, it does not show Busy, and the mode answers DOE (R233). -/
structure DoeTakes (p : Nat) (s : State) : Prop where
  is_pf : p < 4
  present : pfPresent s p = true
  awake : inD3 (.pf p) s = false
  idle : s.host.doeBusy.contains p = false
  chosen : s.mode.chosen = true
  not_watch : s.mode.mode ≠ 10
  not_scrapped : s.mode.mode ≠ 12
  not_quarantine : s.mode.mode ≠ 8

/-- The mailbox shows Busy. -/
def doeTaken (p : Nat) (s : State) : State := { s with host.doeBusy := s.host.doeBusy ++ [p] }

/-- The Heartwood's draw does not look at the mailbox. -/
theorem takeHeart_doeTaken (n p : Nat) (s : State) : takeHeart n (doeTaken p s) = ((takeHeart n s).1, doeTaken p (takeHeart n s).2) := by
  unfold takeHeart doeTaken
  dsimp only
  split <;> rfl

/-- The request waits for what its answer needs. -/
def doeWaits (p : Nat) (r : DoeRequest) (s : State) : State := { s with host.doeWait := s.host.doeWait ++ [(p, r)] }

theorem exec_doeRequest {p : Nat} {s : State} (h : DoeTakes p s) (r : DoeRequest) :
    exec (.doeRequest p r) s = .next (if restarting s || s.start.failingOver then doeWaits p r (doeTaken p s) else doeServe p r (doeTaken p s)) := by
  have hb : addNew s.host.doeBusy p = s.host.doeBusy ++ [p] := if_neg (by simpa using h.idle)
  have hd : (!pfPresent s p || inD3 (.pf p) s || s.host.doeBusy.contains p || !s.mode.chosen || s.mode.mode == 10 || s.mode.mode == 12) = false := by
    simp [h.present, h.awake, h.idle, h.chosen, h.not_watch, h.not_scrapped, -List.contains_eq_mem]
  change execDoeRequest p r s = _
  unfold execDoeRequest
  dsimp only
  rw [hd, hb]
  simp only [onUnit, h.is_pf, decide_true, if_true, beq_eq_false_iff_ne.mpr h.not_quarantine, Bool.false_eq_true, if_false]
  rfl

/-- The state in which an SPDM request is answered from its bits: a key message of an open session does what it says, then the sessions are counted (R233, R234). -/
def spdmAnswered (p : Nat) (secured : Bool) (m bits : Bytes) (s : State) : State :=
  let n := tgetD s.host.spdm p 0
  let u := { s with host.doeBusy := without s.host.doeBusy p }
  let v := if secured && decide (0 < n) then ideKm (p / 2) m (bits.drop 48) u else u
  { v with
    host.doeResp := tset v.host.doeResp p (spdmResponse n secured m (bits.take 48) s)
    host.spdm := tset v.host.spdm p (spdmSessions 4 n secured m) }

theorem doeServe_spdm {p : Nat} {secured : Bool} {m bits : Bytes} {s u : State} (h : takeHeart 88 s = (some bits, u)) :
    doeServe p (.spdm secured m) s = spdmAnswered p secured m bits u := by
  simp only [doeServe, h]
  rfl

theorem doeServe_spdm_waits {p : Nat} {secured : Bool} {m : Bytes} {s u : State} (h : takeHeart 88 s = (none, u)) :
    doeServe p (.spdm secured m) s = doeWaits p (.spdm secured m) u := by
  simp only [doeServe, h]
  rfl

/-- An SPDM answer changes, beside the streams, its own mailbox and session count only (R233). -/
theorem spdmAnswered_only (p : Nat) (secured : Bool) (m bits : Bytes) (s : State) :
    spdmAnswered p secured m bits s =
      { s with
        host.doeBusy := without s.host.doeBusy p
        host.doeResp := tset s.host.doeResp p (spdmResponse (tgetD s.host.spdm p 0) secured m (bits.take 48) s)
        host.spdm := tset s.host.spdm p (spdmSessions 4 (tgetD s.host.spdm p 0) secured m)
        host.ide := (spdmAnswered p secured m bits s).host.ide } := by
  unfold spdmAnswered
  dsimp only
  split
  · rw [ideKm_only]
  · rfl

/-- In an open session the answer does to the stream that a key message names what its object says, and nothing to another (R234). -/
theorem getIde_spdmAnswered {p : Nat} {m : Bytes} {s : State} (hs : 0 < tgetD s.host.spdm p 0) (hv : spdmIs 0xFE m = true) (hk : fld m 11 1 = 0)
    (hn : fld m 15 1 ≤ 16) (bits : Bytes) (i : Nat) : getIde (p / 2) i (spdmAnswered p true m bits s) =
      if i = fld m 15 1 then ideObject m (bits.drop 48) (getIde (p / 2) i s) else getIde (p / 2) i s := by
  have h := getIde_ideKm hv hk hn (p / 2) i (bits.drop 48) { s with host.doeBusy := without s.host.doeBusy p }
  unfold spdmAnswered
  simp only [hs, decide_true, Bool.and_self, if_true]
  exact h

/-! ### The statement -/

/-- A TDISP message of an enabled VF is acted on outside QUARANTINE, trusted restarts and failovers (R235). -/
theorem tdisp_taken {n : Nat} {s : State} (he : (getFn (.vf n) s).enabled = true) (hr : restarting s = false) (hf : s.start.failingOver = false)
    (h8 : s.mode.mode ≠ 8) : (!(getFn (.vf n) s).enabled || restarting s || s.start.failingOver || s.mode.mode == 8) = false := by
  simp [he, hr, hf, h8]

/-- Settles O33: one lemma for each way a DOE request goes, the key message by the stream it names, and each TDISP message by the TDI's state. -/
theorem securityMessagesComplete : Obligations.SecurityMessagesComplete := by
  unfold Obligations.SecurityMessagesComplete
  refine ⟨?doe, ?tlp, ?tdisp⟩
  case doe =>
    intro p s hp hpf hd hb hc h10 h12 h8
    have h : DoeTakes p s := ⟨hp, hpf, hd, hb, hc, h10, h12, h8⟩
    refine ⟨fun req hr => by rw [exec_doeRequest h, hr]; rfl, fun hr hf => ?_⟩
    have hexec (r : DoeRequest) : exec (.doeRequest p r) s = .next (doeServe p r (doeTaken p s)) := by
      rw [exec_doeRequest h, hr, hf]
      rfl
    refine ⟨fun i => ?discovery, fun secured m hn => ?waits, fun secured m hs => ?answers, fun m bits u n k hb hs hv ho hm hn hk => ?keys⟩
    case discovery =>
      exact ⟨_, hexec _, tget_tset_same _ _ _, not_contains_without _ _, rfl, rfl⟩
    case waits =>
      have hw : takeHeart 88 (doeTaken p s) = (none, doeTaken p (takeHeart 88 s).2) := by rw [takeHeart_doeTaken, hn]
      refine ⟨_, (hexec _).trans (congrArg _ (doeServe_spdm_waits hw)), ?_, ?_, ?_, store_of_kept (kept_takeHeart 88 s)⟩ <;> simp [doeWaits, doeTaken]
    case answers =>
      obtain ⟨bits, hb⟩ := Option.isSome_iff_exists.mp hs
      have hw : takeHeart 88 (doeTaken p s) = (some bits, doeTaken p (takeHeart 88 s).2) := by rw [takeHeart_doeTaken, hb]
      refine ⟨_, _, (hexec _).trans (congrArg _ ((doeServe_spdm hw).trans (spdmAnswered_only _ _ _ _ _))), tget_tset_same _ _ _,
        not_contains_without _ _, (tgetD_tset_same _ _ _ _).trans ?_, store_of_kept (kept_takeHeart 88 s), ?_⟩ <;> simp [doeTaken]
    case keys =>
      subst hm hk
      have hw : takeHeart 88 (doeTaken p s) = (some bits, doeTaken p u) := by rw [takeHeart_doeTaken, hb]
      have hh : u.host = s.host := by simpa [hb] using takeHeart_host 88 s
      have hide (i : Nat) : getIde (p / 2) i (doeTaken p u) = getIde (p / 2) i s := by simp [getIde, doeTaken, hh]
      have hopen : 0 < tgetD (doeTaken p u).host.spdm p 0 := by simpa [doeTaken, hh] using hs
      have hget (i : Nat) := (getIde_spdmAnswered hopen hv ho hn bits i).trans (by rw [hide])
      refine ⟨_, (hexec _).trans (congrArg _ (doeServe_spdm hw)), fun i hi => (hget i).trans (if_neg hi), fun h2 => ?_, fun h4 => ?_, fun h5 => ?_⟩
      · rw [hget, if_pos rfl, ideObject, h2]; rfl
      · rw [hget, if_pos rfl, ideObject, h4]; rfl
      · rw [hget, if_pos rfl, ideObject, h5]; rfl
  case tlp =>
    exact fun l n s hl hn => if_pos (by simp [hl, hn])
  case tdisp =>
    intro n s hn he hr hf h8
    have hexec (m : TdispMsg) : exec (.tdispMessage n m) s = execTdispMessage n m s := rfl
    simp only [hexec, execTdispMessage, onUnit, decide_eq_true hn, tdisp_taken he hr hf h8, if_true, Bool.false_eq_true, if_false]
    refine ⟨fun k hu ho h1 h16 => ?_, fun hl => ?_, trivial, trivial⟩
    · simp [hu, ho, h1, h16]
    · simp [hl]

end Sys2Proof.Machine
end

section
/-! Queue pairs and vectors (O34): what messages and events leave of the host side, what the doorbells, fetches, timers and masks do, how queues come and go, and the statement they make up. -/

namespace Sys2Proof.Machine

open Sys2Proof.Safety

/-! ### What messages and events leave -/

/-- The state without what messages, events and counts of dropped doorbells touch: the functions' states and the messages sent. -/
def beyondMsgs (s : State) : State := { s with host.fns := [], host.msgs := [] }

@[simp] theorem beyondMsgs_setFn (f : Fn) (x : FnState) (s : State) : beyondMsgs (setFn f x s) = beyondMsgs s := rfl

@[simp] theorem beyondMsgs_sendVec (f : Fn) (v : Nat) (s : State) : beyondMsgs (sendVec f v s) = beyondMsgs s := by
  unfold sendVec
  dsimp only
  repeat' split
  all_goals rfl

@[simp] theorem beyondMsgs_raiseEvent (f : Fn) (b : Nat) (s : State) : beyondMsgs (raiseEvent f b s) = beyondMsgs s := by
  unfold raiseEvent
  dsimp only
  split
  · rfl
  · rw [beyondMsgs_sendVec, beyondMsgs_setFn]

@[simp] theorem beyondMsgs_countDoorbell (f : Fn) (s : State) : beyondMsgs (countDoorbell f s) = beyondMsgs s := by
  unfold countDoorbell
  dsimp only
  split
  · rw [beyondMsgs_raiseEvent, beyondMsgs_setFn]
  · rfl

section
variable {s t : State} (h : beyondMsgs t = beyondMsgs s)
include h

theorem store_of_beyondMsgs : t.store = s.store := by
  have k := congrArg (fun u : State => u.store) h
  exact k
theorem eth_of_beyondMsgs : t.eth = s.eth := by
  have k := congrArg (fun u : State => u.eth) h
  exact k
theorem queues_of_beyondMsgs : t.host.queues = s.host.queues := by
  have k := congrArg (fun u : State => u.host.queues) h
  exact k
theorem coalDue_of_beyondMsgs : t.host.coalDue = s.host.coalDue := by
  have k := congrArg (fun u : State => u.host.coalDue) h
  exact k
theorem getQ_of_beyondMsgs (k : Nat) : getQ k t = getQ k s := by
  have e := congrArg (getQ k) h
  exact e

end

/-- A message changes of its function the held messages and the pending bits only. -/
theorem getFn_sendVec (f : Fn) (v : Nat) (s : State) :
    { getFn f (sendVec f v s) with heldMsgs := [], pendingVec := [] } = { getFn f s with heldMsgs := [], pendingVec := [] } := by
  unfold sendVec
  dsimp only
  repeat' split
  · rw [getFn_setFn]
  · rw [getFn_setFn]
  · rfl

theorem sendVec_events (f : Fn) (v : Nat) (s : State) : (getFn f (sendVec f v s)).events = (getFn f s).events := by
  have e := congrArg FnState.events (getFn_sendVec f v s)
  exact e

theorem sendVec_unmasked (f : Fn) (v : Nat) (s : State) : (getFn f (sendVec f v s)).unmasked = (getFn f s).unmasked := by
  have e := congrArg FnState.unmasked (getFn_sendVec f v s)
  exact e

/-- A function in D0 that may issue requests sends an unmasked vector's message at once (R244). -/
theorem sendVec_sends {f : Fn} {v : Nat} {s : State} (hd : inD3 f s = false) (hm : (getFn f s).maskAll = false)
    (hu : (getFn f s).unmasked.contains v = true) (hb : (getFn f s).busMaster = true) : sendVec f v s = { s with host.msgs := (f, v) :: s.host.msgs } := by
  unfold sendVec
  simp [hd, hm, hu, hb, -List.contains_eq_mem]

/-- An event that is raised reads 1 (R242). -/
theorem raiseEvent_raised {b : Nat} (hb : b < 32) (f : Fn) (s : State) : (getFn f (raiseEvent f b s)).events.getLsbD b = true := by
  unfold raiseEvent
  dsimp only
  split
  · assumption
  · rw [sendVec_events, getFn_setFn, BitVec.getLsbD_or, BitVec.getLsbD_ofNat, Nat.testBit_two_pow_self]
    simp [hb]

/-- Whether a function is in D0 is told by the D3hot bits alone (R578). -/
theorem inD3_setFn {f : Fn} {x : FnState} {s : State} (h : x.d3hot = (getFn f s).d3hot) : inD3 f (setFn f x s) = inD3 f s := by
  have hpf : ∀ n, f = .vf n → getFn (.pf (pfOf s f)) (setFn f x s) = getFn (.pf (pfOf s f)) s := by
    rintro n rfl
    refine tgetD_tset_other _ _ _ _ _ ?_
    simp only [fnKey, pfOf]
    split <;> omega
  unfold inD3
  rw [getFn_setFn, h]
  cases f with
  | pf p => rfl
  | vf n => exact congrArg (fun y : FnState => (getFn (.vf n) s).d3hot || y.d3hot) (hpf n rfl)

/-! ### Queues -/

@[simp] theorem getQ_setQ_same (k : Nat) (q : Queue) (s : State) : getQ k (setQ k q s) = some q := tget_tset_same _ _ _
theorem getQ_setQ_other {i k : Nat} (h : i ≠ k) (q : Queue) (s : State) : getQ i (setQ k q s) = getQ i s := tget_tset_other _ _ _ _ h

/-- A key names its function and its number (R245). -/
theorem qOfKey_qKey {fn : Fn} {qid : Nat} (h : qidOk fn qid = true) : qOfKey (qKey fn qid) = (fn, qid) := by
  have hlt : qid < 256 := by
    cases fn with
    | pf p => exact of_decide_eq_true (Bool.and_eq_true_iff.mp h).2
    | vf n => exact Nat.lt_trans (of_decide_eq_true (Bool.and_eq_true_iff.mp h).2) (by decide)
  have hdiv : qKey fn qid / 256 = fnKey fn := by
    simp only [qKey]
    omega
  have hmod : qKey fn qid % 256 = qid := by
    simp only [qKey]
    omega
  unfold qOfKey
  rw [hdiv, hmod]
  cases fn with
  | pf p => exact congrArg (·, qid) (if_pos (of_decide_eq_true (Bool.and_eq_true_iff.mp h).1))
  | vf n => simp [fnKey]

theorem queueErrBit_lt (fn : Fn) : queueErrBit fn < 32 := by cases fn <;> simp [queueErrBit]

/-- The state in which a queue's coalescing timer sends its vector: nothing is unsignalled any more (R255). -/
def coalesced (k : Nat) (q : Queue) (s : State) : State := { setQ k { q with unsignalled := 0 } s with host.coalDue := without s.host.coalDue k }

/-- The same for a frame ring. -/
def ringCoalesced (k : Nat) (r : Ring) (s : State) : State :=
  { s with eth.rings := tset s.eth.rings k { r with unsignalled := 0 }, host.coalDue := without s.host.coalDue k }

section Numbered
variable {fn : Fn} {qid : Nat} {s : State} (hk : qidOk fn qid = true)
include hk

theorem queueError_of_serving {q : Queue} (hq : getQ (qKey fn qid) s = some q) (he : q.state ≠ .error) (c : QCause) :
    queueError (qKey fn qid) c s = raiseEvent fn (queueErrBit fn) (setQ (qKey fn qid) { q with state := .error, cause := c } s) := by
  unfold queueError
  simp only [hq, beq_eq_false_iff_ne.mpr he, Bool.false_eq_true, if_false, qOfKey_qKey hk]

/-- A queue that serves goes to ERROR, its function's event is raised, and no other queue changes (R255, R256). -/
theorem queueError_enters {q : Queue} (hq : getQ (qKey fn qid) s = some q) (he : q.state ≠ .error) (c : QCause) :
    getQ (qKey fn qid) (queueError (qKey fn qid) c s) = some { q with state := .error, cause := c } ∧
    (getFn fn (queueError (qKey fn qid) c s)).events.getLsbD (queueErrBit fn) = true ∧
    (∀ i, i ≠ qKey fn qid → getQ i (queueError (qKey fn qid) c s) = getQ i s) ∧ (queueError (qKey fn qid) c s).store = s.store := by
  rw [queueError_of_serving hk hq he]
  have hb := beyondMsgs_raiseEvent fn (queueErrBit fn) (setQ (qKey fn qid) { q with state := .error, cause := c } s)
  refine ⟨?_, raiseEvent_raised (queueErrBit_lt fn) _ _, fun i hi => ?_, (store_of_beyondMsgs hb :)⟩
  · rw [getQ_of_beyondMsgs hb, getQ_setQ_same]
  · rw [getQ_of_beyondMsgs hb, getQ_setQ_other hi]

/-! ### Doorbells -/

section Doorbell
variable (hm : s.mode.mode ≠ 8) (hd : inD3 fn s = false) (he : s.pwr.entry = none)
include hm hd he

/-- A tail inside a serving queue is taken, one past it is an error (R250, R256). -/
theorem exec_qmgSqTail_serving {q : Queue} (hq : getQ (qKey fn qid) s = some q) (hn : q.destroying = none) (hs : q.state = .active ∨ q.state = .paused)
    (index : Nat) : exec (.qmgSqTail fn qid index) s =
      .next (if sqSize q ≤ index then queueError (qKey fn qid) .dbRange s else setQ (qKey fn qid) { q with sqTail := index } s) := by
  change execQmgSqTail fn qid index s = _
  obtain hs | hs := hs <;> simp [execQmgSqTail, onUnit, hk, hm, hd, hostWake_idle he, hq, hn, hs]

/-- A head inside a serving queue releases the entries before it, one past it is an error (R250, R253). -/
theorem exec_qmgCqHead_serving {q : Queue} (hq : getQ (qKey fn qid) s = some q) (hs : q.state = .active ∨ q.state = .paused)
    (index : Nat) : exec (.qmgCqHead fn qid index) s = .next (if cqSize q ≤ index then queueError (qKey fn qid) .dbRange s
      else setQ (qKey fn qid) { q with cqHead := index, unreleased := q.unreleased - (index + cqSize q - q.cqHead) % cqSize q } s) := by
  change execQmgCqHead fn qid index s = _
  obtain hs | hs := hs <;> simp [execQmgCqHead, onUnit, hk, hm, hd, hostWake_idle he, hq, hs]

theorem exec_qmgSqTail_absent (hq : getQ (qKey fn qid) s = none) (hr : tget s.eth.rings (qKey fn qid) = none) (index : Nat) :
    exec (.qmgSqTail fn qid index) s = .next (countDoorbell fn s) := by
  change execQmgSqTail fn qid index s = _
  simp [execQmgSqTail, onUnit, hk, hm, hd, hostWake_idle he, hq, ringDoorbell, hr, qOfKey_qKey hk]

theorem exec_qmgCqHead_absent (hq : getQ (qKey fn qid) s = none) (hr : tget s.eth.rings (qKey fn qid) = none) (index : Nat) :
    exec (.qmgCqHead fn qid index) s = .next (countDoorbell fn s) := by
  change execQmgCqHead fn qid index s = _
  simp [execQmgCqHead, onUnit, hk, hm, hd, hostWake_idle he, hq, ringDoorbell, hr, qOfKey_qKey hk]

end Doorbell

/-! ### Fetches and timers -/

/-- An active queue of a function that may read fetches what its tail, the ring's end and the credit allow (R251, R275). -/
theorem exec_sqFetch_fetches {q : Queue} (hq : getQ (qKey fn qid) s = some q) (ha : q.state = .active) (hn : q.destroying = none) (hr : q.reading = [])
    (hb : (getFn fn s).busMaster = true) (hd : inD3 fn s = false) (hf : cqFull q = false) (he : queuesEnabled s = true) (hc : fetchCount fn q s ≠ 0)
    (hi : stopIntake s = false) : exec (.sqFetch fn qid) s = .next (setQ (qKey fn qid)
      { q with reading := (List.range (fetchCount fn q s)).map (· + q.sqHead), sqHead := (q.sqHead + fetchCount fn q s) % sqSize q } s) := by
  change execSqFetch fn qid s = _
  simp [execSqFetch, onUnit, hk, hq, ha, hn, hr, hb, hd, hf, he, hc, hi]

theorem exec_cqCoalTimer_queue {q : Queue} (hq : getQ (qKey fn qid) s = some q) (hc : s.host.coalDue.contains (qKey fn qid) = true) :
    exec (.cqCoalTimer fn qid) s = .next (sendVec fn q.vector (coalesced (qKey fn qid) q s)) := by
  change execCqCoalTimer fn qid s = _
  simp only [execCqCoalTimer, onUnit, hk, hq, hc, if_true]
  rfl

theorem exec_cqCoalTimer_ring {r : Ring} (hq : getQ (qKey fn qid) s = none) (hr : tget s.eth.rings (qKey fn qid) = some r)
    (hc : s.host.coalDue.contains (qKey fn qid) = true) : exec (.cqCoalTimer fn qid) s = .next (sendVec fn r.vector (ringCoalesced (qKey fn qid) r s)) := by
  change execCqCoalTimer fn qid s = _
  simp only [execCqCoalTimer, onUnit, hk, hq, hr, hc, if_true]
  rfl

end Numbered

/-! ### Vectors -/

/-- A vector's message waits only for its own mask. -/
def pendingSends (fn : Fn) (vec : Nat) (s : State) : Bool := (getFn fn s).pendingVec.contains vec && !(getFn fn s).maskAll

/-- The state in which a vector's mask is clear, and its pending bit where the message goes. -/
def vecUnmasked (fn : Fn) (vec : Nat) (s : State) : State :=
  setFn fn { getFn fn s with
    unmasked := addNew (getFn fn s).unmasked vec
    pendingVec := if pendingSends fn vec s then without (getFn fn s).pendingVec vec else (getFn fn s).pendingVec } s

theorem exec_msixUnmask {fn : Fn} (h : fnOk fn = true) (vec : Nat) (s : State) :
    exec (.msixUnmask fn vec) s = .next (if pendingSends fn vec s then sendVec fn vec (vecUnmasked fn vec s) else vecUnmasked fn vec s) :=
  if_pos h

theorem getFn_vecUnmasked (fn : Fn) (vec : Nat) (s : State) : getFn fn (vecUnmasked fn vec s) =
    { getFn fn s with
      unmasked := addNew (getFn fn s).unmasked vec
      pendingVec := if pendingSends fn vec s then without (getFn fn s).pendingVec vec else (getFn fn s).pendingVec } := getFn_setFn _ _ _

theorem vecUnmasked_contains (fn : Fn) (vec : Nat) (s : State) : (getFn fn (vecUnmasked fn vec s)).unmasked.contains vec = true := by
  simp [getFn_vecUnmasked, mem_addNew]

/-- A pending vector whose mask clears is sent, and is pending no more (R244). -/
theorem vecUnmasked_sends {fn : Fn} {vec : Nat} {s : State} (hp : pendingSends fn vec s = true) (hd : inD3 fn s = false)
    (hm : (getFn fn s).maskAll = false) (hb : (getFn fn s).busMaster = true) :
    (sendVec fn vec (vecUnmasked fn vec s)).host.msgs = (fn, vec) :: s.host.msgs ∧
    (getFn fn (sendVec fn vec (vecUnmasked fn vec s))).pendingVec.contains vec = false := by
  have hd' : inD3 fn (vecUnmasked fn vec s) = false := by rwa [vecUnmasked, inD3_setFn (by rfl)]
  have hget : (getFn fn (vecUnmasked fn vec s)).pendingVec = without (getFn fn s).pendingVec vec := by rw [getFn_vecUnmasked, if_pos hp]
  rw [sendVec_sends hd' (by rw [getFn_vecUnmasked]; exact hm) (vecUnmasked_contains _ _ _) (by rw [getFn_vecUnmasked]; exact hb)]
  refine ⟨rfl, ?_⟩
  change (getFn fn (vecUnmasked fn vec s)).pendingVec.contains vec = false
  rw [hget]
  exact not_contains_without _ _

/-! ### Queues come and go -/

/-- An idle queue that is destroyed is ABSENT (R246). -/
def queueGone (k : Nat) (s : State) : State := { s with host.queues := tdel s.host.queues k, host.coalDue := without s.host.coalDue k }

section Commands
variable {mb : Mb} {q : Req} {x : Queue} {s : State}

theorem exec_queueCreate (a : Accepted mb 0x0420 q s) (hc : queueCreateCheck mb q s = none) :
    Ends (.queueCreate mb) s mb { body := leBytes 4 (dbOffset (mbFn mb) (fld q.body 0 2)) } (setQ (qKey (mbFn mb) (fld q.body 0 2)) (newQueue q.body) s) :=
  runCmd_reply _ a (direct_run hc)

theorem exec_queueDestroy_idle (a : Accepted mb 0x0421 q s) (hn : queueNamed mb q s = none) (hq : getQ (qKey (mbFn mb) (fld q.body 0 2)) s = some x)
    (hh : x.held = 0) (hf : x.fetched = []) (hr : x.reading = []) :
    Ends (.queueDestroy mb) s mb { body := leBytes 4 0 } (queueGone (qKey (mbFn mb) (fld q.body 0 2)) s) := by
  refine runCmd_reply _ a ((direct_run hn).trans ?_)
  simp [queueDestroyRun, hq, hh, hf, hr, queueGone]

theorem exec_queueDestroy_drains (a : Accepted mb 0x0421 q s) (hn : queueNamed mb q s = none) (hq : getQ (qKey (mbFn mb) (fld q.body 0 2)) s = some x)
    (hh : x.held ≠ 0) (hd : x.destroying = none) :
    Holds (.queueDestroy mb) s mb q (.queueDrain (qKey (mbFn mb) (fld q.body 0 2)))
      (setQ (qKey (mbFn mb) (fld q.body 0 2)) { x with destroying := some mb, posted := 0 } s) := by
  refine runCmd_hold _ a ((direct_run hn).trans ?_)
  simp [queueDestroyRun, hq, hh, hd]

theorem exec_queueQuery (a : Accepted mb 0x0422 q s) (hn : queueNamed mb q s = none) (hq : getQ (qKey (mbFn mb) (fld q.body 0 2)) s = some x) :
    Ends (.queueQuery mb) s mb { body := layout 16 [(0, 4, qstatWord x), (4, 2, x.sqTail), (6, 2, x.cqTail), (8, 2, x.cqHead), (0x0C, 4, x.held)] } s := by
  refine runCmd_reply _ a ((direct_run hn).trans ?_)
  simp [queueQueryRun, hq]

end Commands

/-! ### The statement -/

/-- Settles O34: one lemma for each doorbell, fetch, timer, mask and command, put together with what a message or an event leaves. -/
theorem queuesComplete : Obligations.QueuesComplete := by
  unfold Obligations.QueuesComplete
  refine ⟨?doorbells, ?serving, ?rings, ?vectors, fun mb q s => ⟨?create, ?destroy, ?query⟩⟩
  case doorbells =>
    intro fn qid s hk hm hd he
    refine ⟨fun q index hq hn hs => ?_, fun hq hr hc index => ?_⟩
    · rw [exec_qmgSqTail_serving hk hm hd he hq hn hs, exec_qmgCqHead_serving hk hm hd he hq hs]
      refine ⟨fun hi => by rw [if_neg (Nat.not_le.mpr hi)], fun hi => by rw [if_neg (Nat.not_le.mpr hi)], fun hi => ?_⟩
      rw [if_pos hi]
      have hne : q.state ≠ .error := by obtain hs | hs := hs <;> simp [hs]
      obtain ⟨hget, hev, hother, hstore⟩ := queueError_enters hk hq hne .dbRange
      exact ⟨_, _, rfl, hget, rfl, rfl, rfl, hev, hother, hstore⟩
    · obtain ⟨hcount, -, -⟩ := countDoorbell_counts hc
      have hqs := queues_of_beyondMsgs (beyondMsgs_countDoorbell fn s)
      exact ⟨_, _, exec_qmgSqTail_absent hk hm hd he hq hr index, exec_qmgCqHead_absent hk hm hd he hq hr index, hcount, hcount, hqs, hqs⟩
  case serving =>
    intro fn qid q s hk hq
    refine ⟨exec_sqFetch_fetches hk hq, fun hc => ?_⟩
    have hb := beyondMsgs_sendVec fn q.vector (coalesced (qKey fn qid) q s)
    refine ⟨_, exec_cqCoalTimer_queue hk hq hc, ?_, coalDue_of_beyondMsgs hb, (store_of_beyondMsgs hb :), fun hd hm hu hbm => ?_⟩
    · rw [getQ_of_beyondMsgs hb]
      exact getQ_setQ_same _ _ _
    · rw [sendVec_sends (s := coalesced (qKey fn qid) q s) hd hm hu hbm]
      rfl
  case rings =>
    intro fn qid r s hk hq hr hc
    have hb := beyondMsgs_sendVec fn r.vector (ringCoalesced (qKey fn qid) r s)
    refine ⟨_, exec_cqCoalTimer_ring hk hq hr hc, coalDue_of_beyondMsgs hb, ?_, (store_of_beyondMsgs hb :)⟩
    rw [eth_of_beyondMsgs hb]
    exact tget_tset_same _ _ _
  case vectors =>
    intro fn vec s hf
    refine ⟨_, exec_msixUnmask hf vec s, ?_, ?_, ?_, fun hp hm hd hb => ?_, fun hp => ?_⟩
    · split
      · rw [sendVec_unmasked, vecUnmasked_contains]
      · exact vecUnmasked_contains _ _ _
    · split
      · exact store_of_beyondMsgs (beyondMsgs_sendVec _ _ _)
      · rfl
    · split
      · exact queues_of_beyondMsgs (beyondMsgs_sendVec _ _ _)
      · rfl
    · have hs : pendingSends fn vec s = true := by rw [pendingSends, hp, hm]; rfl
      rw [if_pos hs]
      exact vecUnmasked_sends hs hd hm hb
    · have hs : pendingSends fn vec s = false := by rw [pendingSends, hp]; rfl
      rw [hs]
      rfl
  case create =>
    exact exec_queueCreate
  case destroy =>
    intro x a hn hq
    refine ⟨fun hh hf hr => ⟨_, exec_queueDestroy_idle a hn hq hh hf hr, ?_, fun i hi => ?_, rfl⟩, exec_queueDestroy_drains a hn hq⟩
    · exact tget_tdel_same _ _
    · exact tget_tdel_other _ _ _ hi
  case query =>
    exact fun x => exec_queueQuery

end Sys2Proof.Machine
end

section
/-! Window commands and the posting of completions (O60): what an answer leaves of the other mailboxes, what the window commands do, how a context that has been posted is freed, and the statement they make up. -/

namespace Sys2Proof.Machine

open Sys2Proof.Safety

/-! ### What an answer leaves of the other mailboxes -/

/-- An answer at a mailbox leaves the others. -/
theorem getMb_finishMb_other {mb mb' : Mb} (h : mbKey mb ≠ mbKey mb') (r : Resp) (s : State) : getMb mb (finishMb mb' r s) = getMb mb s := by
  unfold finishMb postResp
  dsimp only
  split
  · exact getMb_endJob_other h s
  · rw [getMb_sendVec, getMb_setMb_other h, getMb_setMb_other h]
    split <;> split <;> simp [getMb_endJob_other h]

/-- What has come for a command touches no more than an answer does. -/
@[simp] theorem beyondAnswer_deliver (mb : Mb) (op : Nat) (waits : MbWait → Bool) (a : Resp) (s : State) :
    beyondAnswer (deliver mb op waits a s) = beyondAnswer s := by
  unfold deliver
  dsimp only
  split
  · exact finishMb_only _ _ _
  · split <;> rfl

/-- What has come for another command leaves a command and its wait. -/
theorem deliver_leaves {mb : Mb} {waits : MbWait → Bool} {s : State} (hw : waits (getMb mb s).wait = false) (mb' : Mb) (op : Nat) (a : Resp) :
    (getMb mb (deliver mb' op waits a s)).cur = (getMb mb s).cur ∧ (getMb mb (deliver mb' op waits a s)).wait = (getMb mb s).wait := by
  unfold deliver
  dsimp only
  by_cases h : mbKey mb = mbKey mb'
  · rw [← getMb_congr h, hw, Bool.and_false, if_neg Bool.false_ne_true]
    split
    · rw [getMb_congr h, getMb_setMb]
      exact ⟨rfl, rfl⟩
    · exact ⟨rfl, rfl⟩
  · split
    · rw [getMb_finishMb_other h]
      exact ⟨rfl, rfl⟩
    · split
      · rw [getMb_setMb_other h]
        exact ⟨rfl, rfl⟩
      · exact ⟨rfl, rfl⟩

/-! ### Windows -/

@[simp] theorem getKcw_setKcw_same (w : Nat) (k : Kcw) (s : State) : getKcw w (setKcw w k s) = k := tgetD_tset_same _ _ _ _
theorem getKcw_setKcw_other {i w : Nat} (h : i ≠ w) (k : Kcw) (s : State) : getKcw i (setKcw w k s) = getKcw i s := tgetD_tset_other _ _ _ _ _ h

theorem getKcw_of_kcw {s t : State} (h : t.kcw = s.kcw) (w : Nat) : getKcw w t = getKcw w s := by
  unfold getKcw
  rw [h]

/-- An unassigned window stands at reset values (R619). -/
theorem getKcw_tdel_same {w : Nat} {s t : State} (h : t.kcw = tdel s.kcw w) : getKcw w t = {} := by
  simp [getKcw, h, tgetD]

theorem getKcw_tdel_other {i w : Nat} {s t : State} (h : t.kcw = tdel s.kcw w) (hi : i ≠ w) : getKcw i t = getKcw i s := by
  simp [getKcw, h, tgetD, tget_tdel_other _ _ _ hi]

theorem mem_of_tget {α : Type} {t : Tab α} {k : Nat} {x : α} (h : tget t k = some x) : (k, x) ∈ t := by
  induction t with
  | nil => simp at h
  | cons p t ih =>
    obtain ⟨j, y⟩ := p
    unfold tget at h
    split at h
    · rename_i e
      obtain rfl := Option.some.inj h
      exact e ▸ List.mem_cons_self
    · exact List.mem_cons_of_mem _ (ih h)

/-- No window is in a reset when none that was ever assigned is. -/
theorem phase_ne_resetting {s : State} (hs : ∀ p ∈ s.kcw, p.2.phase ≠ .resetting) (w : Nat) : (getKcw w s).phase ≠ .resetting := by
  unfold getKcw tgetD
  cases h : tget s.kcw w with
  | none => simp
  | some k => exact hs _ (mem_of_tget h)

/-- A TDI that goes to ERROR touches the host side only. -/
theorem tdiError_only (n : Nat) (s : State) : beyondHost (tdiError n s) = beyondHost s := by
  unfold tdiError
  split
  · exact raiseEvent_only _ _ _
  · exact raiseEvent_only _ _ _
  · rfl

theorem tdiError_leaves (n : Nat) (s : State) :
    (tdiError n s).kcw = s.kcw ∧ (tdiError n s).mbox = s.mbox ∧ (tdiError n s).store = s.store := by
  have hkcw := congrArg State.kcw (tdiError_only n s)
  have hmbox := congrArg State.mbox (tdiError_only n s)
  have hstore := congrArg State.store (tdiError_only n s)
  exact ⟨hkcw, hmbox, hstore⟩

section Assign
variable {mb : Mb} {q : Req} {w h : Nat} {s : State} (a : Accepted mb 0x0430 q s) (hb : fld q.body 0 1 = w) (hw : w < 16)
  (hl : kcwLive (getKcw w s) = false)
include a hb hw hl

/-- KCW_ASSIGN to a PF that is there, for an ACTIVE owner (R619, R635). -/
theorem exec_kcwAssign_pf {p : Nat} (hf : fnOfCode (fld q.body 2 2) = some (.pf p)) (hp : pfPresent s p = true)
    (hh : kcwHome (fld q.body 1 1) (.pf p) s = some h) (ho : ownerActive (fld q.body 4 4) s = true) :
    Ends (.kcwAssign mb) s mb { body := leBytes 1 h } (setKcw w { assign := .pf p (fld q.body 4 4), stand := h } s) := by
  refine runCmd_reply _ a ?_
  simp [kcwAssignRun, hb, Nat.not_lt.mpr (Nat.le_of_lt_succ hw), hl, hf, hp, hh, kcwOwner, ho]

/-- KCW_ASSIGN to an enabled VF that has no window yet and an ACTIVE owner; its TDI, if locked, goes to ERROR (R235, R619, R635). -/
theorem exec_kcwAssign_vf {n o : Nat} (hf : fnOfCode (fld q.body 2 2) = some (.vf n)) (he : (getFn (.vf n) s).enabled = true)
    (ht : ∀ p ∈ s.kcw, p.2.assign ≠ .vf n) (hh : kcwHome (fld q.body 1 1) (.vf n) s = some h) (hn : (getAlloc (.vf n) s).owner = some o)
    (ho : ownerActive o s = true) :
    Ends (.kcwAssign mb) s mb { body := leBytes 1 h } (setKcw w { assign := .vf n, stand := h } (tdiError n s)) := by
  have hany : s.kcw.any (fun p => p.2.assign == .vf n) = false := by simpa using fun i k hk => ht (i, k) hk
  refine runCmd_reply _ a ?_
  simp [kcwAssignRun, hb, Nat.not_lt.mpr (Nat.le_of_lt_succ hw), hl, hf, hany, he, hh, kcwOwner, hn, ho]

end Assign

/-! ### KCW_RELEASE -/

/-- A table after a write is the written pair among pairs that were there. -/
theorem tset_eq_append {α : Type} (t : Tab α) (j : Nat) (x : α) : ∃ l r, tset t j x = l ++ (j, x) :: r ∧ (∀ p ∈ l, p ∈ t) ∧ ∀ p ∈ r, p ∈ t := by
  induction t with
  | nil => exact ⟨[], [], rfl, by simp, by simp⟩
  | cons p t ih =>
    obtain ⟨k, v⟩ := p
    unfold tset
    split
    · exact ⟨[], t, rfl, by simp, fun p hp => List.mem_cons_of_mem _ hp⟩
    · split
      · exact ⟨[], (k, v) :: t, rfl, by simp, fun p hp => hp⟩
      · obtain ⟨l, r, e, hl, hr⟩ := ih
        refine ⟨(k, v) :: l, r, by rw [e]; rfl, fun p hp => ?_, fun p hp => List.mem_cons_of_mem _ (hr p hp)⟩
        obtain rfl | hp := List.mem_cons.mp hp
        · exact List.mem_cons_self
        · exact List.mem_cons_of_mem _ (hl p hp)

/-- One window of the settlement: its reset ends if it waits for nothing more (R630). -/
def windowSettles (s : State) (p : Nat × Kcw) : State :=
  if p.2.phase = .resetting ∧ p.2.drain = [] ∧ p.2.resetSeq ≤ s.store.committed then windowDone p.1 p.2 s else s

/-- Windows with no reset in progress settle nothing. -/
theorem foldl_windowSettles_none {l : Tab Kcw} (h : ∀ p ∈ l, p.2.phase ≠ .resetting) (s : State) : l.foldl windowSettles s = s := by
  induction l generalizing s with
  | nil => rfl
  | cons p l ih =>
    have hp : windowSettles s p = s := if_neg fun hr => h p List.mem_cons_self hr.1
    rw [List.foldl_cons, hp, ih fun p hp => h p (List.mem_cons_of_mem _ hp)]

/-- The one reset in progress, which waits for nothing, ends (R630). -/
theorem windowsSettle_setKcw {w : Nat} {k : Kcw} {s : State} (hs : ∀ p ∈ s.kcw, p.2.phase ≠ .resetting) (hp : k.phase = .resetting)
    (hd : k.drain = []) (hc : k.resetSeq ≤ s.store.committed) : windowsSettle (setKcw w k s) = windowDone w k (setKcw w k s) := by
  obtain ⟨l, r, e, hl, hr⟩ := tset_eq_append s.kcw w k
  change (tset s.kcw w k).foldl windowSettles (setKcw w k s) = _
  rw [e, List.foldl_append, List.foldl_cons, foldl_windowSettles_none (fun p h => hs p (hl p h)), foldl_windowSettles_none (fun p h => hs p (hr p h))]
  exact if_pos ⟨hp, hd, hc⟩

/-- The window as the reset of a release with no key to destroy leaves it (R630, R635). -/
def windowReleasing (k : Kcw) : Kcw :=
  { k with phase := .resetting, drq := false, ctx := none, drain := [], resetSeq := 0, destroyed := 0, releasing := true }

/-- A release that voids and destroys nothing ends at once (R630, R635). -/
theorem kcwReset_releases {w : Nat} {s : State} (hl : kcwLive (getKcw w s) = true) (hs : ∀ p ∈ s.kcw, p.2.phase ≠ .resetting)
    (hc : (getKcw w s).ctx = none) (he : kcwExpiring (getKcw w s) s = []) :
    kcwReset w true s = windowDone w (windowReleasing (getKcw w s)) (setKcw w (windowReleasing (getKcw w s)) s) := by
  unfold kcwReset
  simp only [hl, phase_ne_resetting hs w, hc, he, Bool.not_true, Bool.false_eq_true, if_false, List.foldl_nil, List.length_nil]
  exact windowsSettle_setKcw hs rfl rfl (Nat.zero_le _)

/-- A window that is released is unassigned, and of the rest no more than answers touch changes (R635). -/
theorem windowDone_releasing {w : Nat} {k : Kcw} (hk : k.releasing = true) (s : State) :
    (windowDone w k s).kcw = tdel s.kcw w ∧ (windowDone w k s).store = s.store := by
  have h : beyondAnswer (windowDone w k s) = beyondAnswer { s with kcw := tdel s.kcw w } := by
    unfold windowDone
    simp only [hk, if_true]
    exact foldl_keeps (fun s (p : Nat × Mbox) => beyondAnswer_deliver (mbOfKey p.1) _ _ _ s) _ _
  have hkcw := congrArg State.kcw h
  have hstore := congrArg State.store h
  exact ⟨hkcw, hstore⟩

/-- A command that does not wait for the window's release stays accepted through it. -/
theorem windowDone_releasing_cur {mb : Mb} {s : State} (hn : (getMb mb s).wait = .none) {k : Kcw} (hk : k.releasing = true) (w : Nat) :
    (getMb mb (windowDone w k s)).cur = (getMb mb s).cur := by
  unfold windowDone
  simp only [hk, if_true]
  refine (List.foldlRecOn (motive := fun u => (getMb mb u).cur = (getMb mb s).cur ∧ (getMb mb u).wait = .none) _ _
    (b := { s with kcw := tdel s.kcw w }) ⟨rfl, hn⟩ ?_).1
  intro u hu p _
  obtain ⟨hcur, hwait⟩ := deliver_leaves (mb := mb) (waits := (· == .window w)) (s := u) (by rw [hu.2]; rfl) (mbOfKey p.1) 0x0431
    { body := leBytes 4 k.destroyed }
  exact ⟨hcur.trans hu.1, hwait.trans hu.2⟩

/-- KCW_RELEASE of a PF's window with nothing to void or destroy answers at once that it destroyed no key (R635). -/
theorem exec_kcwRelease_pf {mb : Mb} {q : Req} {w p o : Nat} {s : State} (a : Accepted mb 0x0431 q s) (hb : fld q.body 0 1 = w) (hw : w < 16)
    (hp : (getKcw w s).assign = .pf p o) (hs : ∀ p ∈ s.kcw, p.2.phase ≠ .resetting)
    (hc : (getKcw w s).ctx = none) (he : kcwExpiring (getKcw w s) s = []) :
    Ends (.kcwRelease mb) s mb { body := leBytes 4 0 }
      (windowDone w (windowReleasing (getKcw w s)) (setKcw w (windowReleasing (getKcw w s)) s)) := by
  have hl : kcwLive (getKcw w s) = true := by simp [kcwLive, hp]
  have hgone : kcwLive (getKcw w (kcwReset w true s)) = false := by
    rw [kcwReset_releases hl hs hc he, getKcw_tdel_same (windowDone_releasing rfl _).1]
    rfl
  refine runCmd_reply _ a ?_
  simp only [kcwReleaseRun, hb, Nat.not_lt.mpr (Nat.le_of_lt_succ hw), hl, hp, hgone, Bool.not_true, Bool.false_eq_true, if_false]
  rw [kcwReset_releases hl hs hc he]

/-! ### KCW_MAP and KCW_QUERY -/

/-- A system operation's key that a command holds is ready as one of a use is (R629). -/
theorem useSystem_ready {mb : Mb} {slot : Nat} {k : KeyRec} {s : State} (h : KeyInUse mb slot k s) (home blocks : Nat) :
    useSystem home mb slot k blocks s = (.ready, s) := by
  obtain ⟨hj, hi, hb⟩ := h
  simp [useSystem, hj, useHeldAt, hi, hb]

/-- KCW_MAP stores both handles with the check value of the first one's key (R629). -/
theorem exec_kcwMap_keys {mb : Mb} {q : Req} {slot : Nat} {r : KeyRec} {s : State} (a : Accepted mb 0x0432 q s)
    (hc : readCheck kcwMapCheck mb q s = none) (h0 : fld q.body 8 8 ≠ 0)
    (hr : resolve (fld q.body 8 8) (kcwOwner (getKcw (fld q.body 0 1) s) s) s = some (slot, r)) (hk : KeyInUse mb slot r s) :
    Ends (.kcwMap mb) s mb { body := kcvOf r } (kcwMapEnd q.body (kcvOf r) s).2 := by
  refine runCmd_reply _ a ((direct_run hc).trans ?_)
  simp only [kcwMapRun, h0, false_and, if_false, hr, useSystem_ready hk]
  rfl

/-- KCW_MAP with no handle takes the number out of the map (R629). -/
theorem exec_kcwMap_none {mb : Mb} {q : Req} {s : State} (a : Accepted mb 0x0432 q s) (hc : readCheck kcwMapCheck mb q s = none)
    (h0 : fld q.body 8 8 = 0) (h1 : fld q.body 0x10 8 = 0) :
    Ends (.kcwMap mb) s mb { body := leBytes 3 0 } (setKcw (fld q.body 0 1) { getKcw (fld q.body 0 1) s with
      map := tdel (getKcw (fld q.body 0 1) s).map (fld q.body 2 2) } s) := by
  refine runCmd_reply _ a ((direct_run hc).trans ?_)
  simp only [kcwMapRun, h0, h1, and_self, if_true]

/-- The body of KCW_QUERY's answer (R635). -/
def windowReport (w : Nat) (s : State) : Bytes :=
  layout 16 [(0, 2, match kcwFn (getKcw w s) with | some f => fnCode f | none => 0xFFFF), (2, 1, (getKcw w s).stand),
    (4, 4, (kcwOwner (getKcw w s) s).getD 0), (8, 2, (getKcw w s).map.length), (0x0C, 4, kcwStatus (getKcw w s))]

theorem exec_kcwQuery {mb : Mb} {q : Req} {w : Nat} {s : State} (a : Accepted mb 0x0433 q s) (hb : fld q.body 0 1 = w) (hw : w < 16)
    (hn : mbIsVf mb = false ∨ kcwNamed mb w s = true) : Ends (.kcwQuery mb) s mb { body := windowReport w s } s := by
  have hd : (mbIsVf mb && !kcwNamed mb w s) = false := by obtain h | h := hn <;> simp [h]
  refine runCmd_reply _ a ?_
  simp only [kcwQueryRun, hb, Nat.not_lt.mpr (Nat.le_of_lt_succ hw), hd, Bool.false_eq_true, if_false]
  rfl

/-! ### A context that is freed -/

/-- The state without a context, whatever it served. -/
def ctxGone (c : Nat) (s : State) : State :=
  { s with
    ctxs := tdel s.ctxs c, world.issued := s.world.issued.filter (fun e => e.2.2.1 != c)
    units.stands := tmap s.units.stands (fun _ k => { k with service := without k.service c }) }

/-- From s to t context c has become free, and no other context and no key has changed. -/
def Freed (c : Nat) (s t : State) : Prop := getCtx c t = none ∧ (∀ i, i ≠ c → getCtx i t = getCtx i s) ∧ t.store = s.store

theorem freed_of_ctxGone {c : Nat} {s u t : State} (hu : u.ctxs = s.ctxs) (hs : u.store = s.store) (ht : t.ctxs = (ctxGone c u).ctxs)
    (hst : t.store = u.store) : Freed c s t := by
  have e : t.ctxs = tdel s.ctxs c := ht.trans (congrArg (tdel · c) hu)
  refine ⟨?_, fun i hi => ?_, hst.trans hs⟩
  · rw [getCtx, e, tget_tdel_same]
  · rw [getCtx, e, tget_tdel_other _ _ _ hi, getCtx]

/-- A context of no queue is free once its outcome has been posted (R277). -/
theorem freeCtx_noQueue {c : Nat} {x : Ctx} {s : State} (hx : getCtx c s = some x) (hq : ∀ fn qid n, x.src ≠ .queue fn qid n) (posted : Bool) :
    freeCtx c posted s = ctxGone c s := by
  unfold freeCtx
  rw [hx]
  dsimp only
  split
  · rename_i e
    exact absurd e (hq _ _ _)
  · rfl

/-- A draining function counts an entry that its queue posted (R395). -/
def drainCounts (fn : Fn) (posted : Bool) (s : State) : State :=
  if posted && (getAlloc fn s).draining then setAlloc fn { getAlloc fn s with posted := (getAlloc fn s).posted + 1 } s else s

theorem drainCounts_only (fn : Fn) (posted : Bool) (s : State) : drainCounts fn posted s = { s with allocs := (drainCounts fn posted s).allocs } := by
  unfold drainCounts
  split <;> rfl

/-- The queue once a context of it has ended. -/
def ctxReleased (no : Nat) (posted : Bool) (q : Queue) : Queue :=
  { q with held := q.held - 1, liveNos := without q.liveNos no, posted := q.posted + b2n posted }

/-- A queue with nothing fetched admits nothing, and one that is not being destroyed stays. -/
theorem freeCtx_queue {c qid no : Nat} {x : Ctx} {fn : Fn} {q : Queue} {s : State} (hx : getCtx c s = some x) (hs : x.src = .queue fn qid no)
    (hq : getQ (qKey fn qid) s = some q) (hf : q.fetched = []) (hd : q.destroying = none) (posted : Bool) :
    freeCtx c posted s = setQ (qKey fn qid) (ctxReleased no posted q) (drainCounts fn posted (ctxGone c s)) := by
  have hget : getQ (qKey fn qid) (drainCounts fn posted (ctxGone c s)) = some q := by rw [drainCounts_only]; exact hq
  have hadmit : admitQ (qKey fn qid) (setQ (qKey fn qid) (ctxReleased no posted q) (drainCounts fn posted (ctxGone c s))) =
      setQ (qKey fn qid) (ctxReleased no posted q) (drainCounts fn posted (ctxGone c s)) := by
    rw [admitQ, getQ_setQ_same]
    simp only [ctxReleased, hf]
    rfl
  unfold freeCtx
  rw [hx]
  dsimp only
  rw [hs]
  dsimp only
  change (match getQ (qKey fn qid) (drainCounts fn posted (ctxGone c s)) with
    | none => drainCounts fn posted (ctxGone c s)
    | some q => queueCheck (qKey fn qid) (admitQ (qKey fn qid) (setQ (qKey fn qid) (ctxReleased no posted q) (drainCounts fn posted (ctxGone c s))))) = _
  rw [hget]
  dsimp only
  rw [hadmit, queueCheck, getQ_setQ_same]
  simp only [ctxReleased, hd]

/-! ### Entries of a completion queue -/

/-- The state without what a message or a queue's entry touches. -/
def beyondQueues (s : State) : State := { s with host.fns := [], host.msgs := [], host.queues := [], host.coalDue := [] }

theorem beyondQueues_of_beyondMsgs {s t : State} (h : beyondMsgs t = beyondMsgs s) : beyondQueues t = beyondQueues s :=
  congrArg (fun u : State => ({ u with host.queues := [], host.coalDue := [] } : State)) h

/-- Signalling an entry touches messages, queues and timers only (R255). -/
theorem beyondQueues_coalesce (k : Nat) (s : State) : beyondQueues (coalesce k s) = beyondQueues s := by
  unfold coalesce
  split
  · rfl
  · dsimp only
    split
    · exact (beyondQueues_of_beyondMsgs (beyondMsgs_sendVec _ _ _)).trans rfl
    · rfl

theorem coalesce_leaves (k : Nat) (s : State) :
    (coalesce k s).ctxs = s.ctxs ∧ (coalesce k s).store = s.store ∧ (coalesce k s).host.mem = s.host.mem := by
  have hctxs := congrArg State.ctxs (beyondQueues_coalesce k s)
  have hstore := congrArg State.store (beyondQueues_coalesce k s)
  have hmem := congrArg (fun u : State => u.host.mem) (beyondQueues_coalesce k s)
  exact ⟨hctxs, hstore, hmem⟩

/-- Signalling an entry changes of its queue the count of unsignalled ones only (R255). -/
theorem getQ_coalesce {k : Nat} {q : Queue} {s : State} (hq : getQ k s = some q) : ∃ n, getQ k (coalesce k s) = some { q with unsignalled := n } := by
  unfold coalesce
  rw [hq]
  dsimp only
  split
  · refine ⟨0, ?_⟩
    rw [getQ_of_beyondMsgs (beyondMsgs_sendVec _ _ _)]
    exact getQ_setQ_same _ _ _
  · exact ⟨_, getQ_setQ_same _ _ _⟩

/-- The queue once an entry stands at its tail (R253). -/
def cqPosted (q : Queue) : Queue :=
  { q with
    cqTail := (q.cqTail + 1) % cqSize q, unreleased := q.unreleased + 1
    phase := if (q.cqTail + 1) % cqSize q = 0 then !q.phase else q.phase }

/-! ### Results -/

/-- A window once its command has ended (R624, R627, R628). -/
def windowEnded (k : Kcw) (code kstat : Nat) (result : Bytes) (iv : Tab Word) : Kcw :=
  { k with
    phase := .idle, drq := false, done := true, error := kstat != 0, kstat := kstat, code := code, rlen := result.length, rbuf := result, iv := iv
    ctx := none }

theorem kcwFinish_kept {w : Nat} {s : State} (ho : (getKcw w s).overrun = false) (code kstat : Nat) (result : Bytes) (iv : Tab Word) :
    kcwFinish w code kstat result iv s = setKcw w (windowEnded (getKcw w s) code kstat result iv) s := by
  simp only [kcwFinish, windowEnded, ho, Bool.false_eq_true, if_false]

theorem windowEnded_done (c w code kstat : Nat) (result : Bytes) (iv : Tab Word) (s : State) :
    WindowDone w kstat code result s (ctxGone c (setKcw w (windowEnded (getKcw w s) code kstat result iv) s)) := by
  have hget (i : Nat) (k : Kcw) : getKcw i (ctxGone c (setKcw w k s)) = getKcw i (setKcw w k s) := getKcw_of_kcw rfl i
  unfold WindowDone
  rw [hget, getKcw_setKcw_same]
  exact ⟨rfl, rfl, rfl, rfl, rfl, rfl, rfl, rfl, rfl, rfl, fun i hi => (hget i _).trans (getKcw_setKcw_other hi _ _)⟩

theorem freed_window (c w : Nat) (k : Kcw) (s : State) : Freed c s (ctxGone c (setKcw w k s)) := freed_of_ctxGone rfl rfl rfl rfl

section Window
variable {w : Nat} {x : Ctx} {o : CtxOutcome} {s : State} (hr : (getKcw w s).phase = .running) (ho : (getKcw w s).overrun = false)
include hr ho

/-- An outcome of OK gives the window its result (R624). -/
theorem kcwPost_ok (h : o.status = 0) :
    kcwPost w x o s = setKcw w (windowEnded (getKcw w s) 0 0 x.delivered (kcwChain (getKcw w s) x.delivered s)) s := by
  simp only [kcwPost, hr, h, ne_eq, not_true_eq_false, if_false, kcwFinish_kept ho]

/-- A check value that does not match gives it Knarox 2's status 8 (R628). -/
theorem kcwPost_tagMismatch (h : o.status = St.tagMismatch) :
    kcwPost w x o s = setKcw w (windowEnded (getKcw w s) St.tagMismatch 8 [] (getKcw w s).iv) s := by
  have hks : kstatOf St.tagMismatch s = (8, s) := rfl
  have hne : St.tagMismatch ≠ 0 := by decide
  simp only [kcwPost, hr, h, ne_eq, not_true_eq_false, hne, not_false_eq_true, if_true, if_false, kcwFail, hks, kcwFinish_kept ho]

end Window

theorem fabWrite_ctxs (a : Nat) (d : Bytes) (s : State) : (fabWrite a d s).ctxs = s.ctxs :=
  foldl_keeps (f := State.ctxs) (fun s (p : Nat × WmaCmd) => show (wmaUndefined p.2 s).ctxs = s.ctxs from rfl) _ _

/-- A gate call's answer changes the memory behind the fabric as its write does, and no context and no key (R371). -/
theorem gateAnswer_leaves {ticket : Nat} {g : GateCall} {s : State} (resp : Bytes) (hg : s.cores.taken.find? (fun g => g.ticket == ticket) = some g) :
    (gateAnswer ticket resp s).ctxs = s.ctxs ∧ (gateAnswer ticket resp s).store = s.store ∧
    (gateAnswer ticket resp s).units.fab = (fabWrite (g.buffer + 0x40) resp s).units.fab := by
  unfold gateAnswer
  rw [hg]
  exact ⟨fabWrite_ctxs _ _ _, store_of_kept (kept_fabWrite _ _ _), rfl⟩

/-- An entry stands at the queue's tail. -/
def entryWritten (k : Nat) (q : Queue) (e : Bytes) (s : State) : State := setQ k (cqPosted q) (hostWrite (q.cqAddr + 32 * q.cqTail) e s)

/-- The entry is signalled, at once or by its timer (R255). -/
def entrySignalled (k : Nat) (q : Queue) (e : Bytes) (s : State) : State := coalesce k (entryWritten k q e s)

/-- A posting context's outcome goes where its command came from (R253, R277, R371, R624). -/
def outcomePosted (c : Nat) (x : Ctx) (o : CtxOutcome) (s : State) : State :=
  match x.src with
  | .queue fn qid _ => postQueue c x o fn qid s
  | .gate t => freeCtx c false (gateAnswer t (gateResp o.status o.info (gateCompletion x o)) s)
  | .kcw w => freeCtx c false (kcwPost w x o s)
  | .mailbox _ => freeCtx c false s

section Posting
variable {c : Nat} {x : Ctx} {o : CtxOutcome} {s : State} (hc : c < 8192) (hx : getCtx c s = some x) (hp : x.state = .posting) (ho : x.outcome = some o)
include hc hx hp ho

theorem exec_completionPost : exec (.completionPost c) s = .next (outcomePosted c x o s) := by
  change execCompletionPost c s = _
  simp only [execCompletionPost, ctxOk, onUnit, hc, decide_true, if_true, hx, hp, bne_self_eq_false, Bool.false_eq_true, if_false, ho, Option.getD_some]
  rfl

section OfQueue
variable {fn : Fn} {qid n : Nat} {q : Queue} (hs : x.src = .queue fn qid n) (hq : getQ (qKey fn qid) s = some q) (hd : inD3 fn s = false)
  (hcq : q.cause ≠ .cqFault) (hb : q.cause ≠ .bme)
include hs hq hd hcq hb

/-- With a full CQ the context waits (R253). -/
theorem exec_completionPost_full (hf : cqFull q = true) : exec (.completionPost c) s = .next s := by
  rw [exec_completionPost hc hx hp ho, outcomePosted, hs]
  simp [postQueue, hq, hd, hcq, hb, hf]

/-- With room in the CQ the entry is written at its tail and the context is free (R249, R253, R277). -/
theorem exec_completionPost_entry (hf : cqFull q = false) (hok : hostOk fn (q.cqAddr + 32 * q.cqTail) 32 s = true) (hft : q.fetched = [])
    (hdst : q.destroying = none) :
    ∃ t m, exec (.completionPost c) s = .next t ∧ getQ (qKey fn qid) t = some (ctxReleased n true { cqPosted q with unsignalled := m }) ∧
      t.host.mem = memWriteN s.host.mem (q.cqAddr + 32 * q.cqTail) (cqEntry q qid x o) ∧ Freed c s t := by
  have hpost : exec (.completionPost c) s = .next (freeCtx c true (entrySignalled (qKey fn qid) q (cqEntry q qid x o) s)) := by
    rw [exec_completionPost hc hx hp ho, outcomePosted, hs]
    simp only [postQueue, hq, hd, beq_eq_false_iff_ne.mpr hcq, beq_eq_false_iff_ne.mpr hb, hf, hok, Bool.or_self, Bool.not_true, Bool.false_eq_true, if_false]
    rfl
  generalize cqEntry q qid x o = e at hpost ⊢
  obtain ⟨m, hm⟩ := getQ_coalesce (k := qKey fn qid) (s := entryWritten (qKey fn qid) q e s) (getQ_setQ_same _ _ _)
  obtain ⟨hctxs, hstore, hmem⟩ := coalesce_leaves (qKey fn qid) (entryWritten (qKey fn qid) q e s)
  have hfree := freeCtx_queue ((congrArg (tget · c) hctxs).trans hx) hs hm hft hdst true
  refine ⟨_, m, hpost.trans (congrArg _ hfree), getQ_setQ_same _ _ _, ?_, ?_⟩
  · rw [drainCounts_only]
    exact hmem
  · refine freed_of_ctxGone hctxs hstore ?_ ?_ <;> rw [drainCounts_only] <;> rfl

end OfQueue

/-! ### Results of windows and of gate calls -/

/-- A context of a window whose result leaves only the window changed is free (R624). -/
theorem exec_completionPost_window {w : Nat} {k : Kcw} (hs : x.src = .kcw w) (hk : kcwPost w x o s = setKcw w k s) :
    exec (.completionPost c) s = .next (ctxGone c (setKcw w k s)) := by
  rw [exec_completionPost hc hx hp ho, outcomePosted, hs]
  dsimp only
  rw [hk]
  exact congrArg _ (freeCtx_noQueue (s := setKcw w k s) hx (by simp [hs]) false)

/-- A gate call's answer stands in its take buffer and its context is free (R371; its place is the model's choice, log entry 28). -/
theorem exec_completionPost_gate {ticket : Nat} {g : GateCall} (hs : x.src = .gate ticket)
    (hg : s.cores.taken.find? (fun g => g.ticket == ticket) = some g) :
    ∃ t, exec (.completionPost c) s = .next t ∧
      t.units.fab = (fabWrite (g.buffer + 0x40) (gateResp o.status o.info (gateCompletion x o)) s).units.fab ∧ Freed c s t := by
  have hexec := exec_completionPost hc hx hp ho
  rw [outcomePosted, hs] at hexec
  dsimp only at hexec
  generalize gateResp o.status o.info (gateCompletion x o) = resp at hexec ⊢
  obtain ⟨hctxs, hstore, hfab⟩ := gateAnswer_leaves resp hg
  have hfree := freeCtx_noQueue ((congrArg (tget · c) hctxs).trans hx) (by simp [hs]) false
  exact ⟨_, hexec.trans (congrArg _ hfree), hfab, freed_of_ctxGone hctxs hstore rfl rfl⟩

/-- A mailbox's context is free: its command answers it (R277). -/
theorem exec_completionPost_mailbox {mb : Mb} (hs : x.src = .mailbox mb) : exec (.completionPost c) s = .next (ctxGone c s) := by
  rw [exec_completionPost hc hx hp ho, outcomePosted, hs]
  exact congrArg _ (freeCtx_noQueue hx (by simp [hs]) false)

end Posting

/-! ### The statement -/

/-- Settles O60: each window command by what it leaves of the windows, and the posting of a context by where its command came from. -/
theorem windowCommandsAndPostingComplete : Obligations.WindowCommandsAndPostingComplete := by
  unfold Obligations.WindowCommandsAndPostingComplete
  refine ⟨fun mb q w s hb hw => ⟨?assignPf, ?assignVf, ?release, ?mapKeys, ?mapNone, ?query⟩,
    fun c x o s hc hx hp ho => ⟨?queue, ?window, ?gate, ?mailbox⟩⟩
  case assignPf =>
    exact fun p h a hl hf hp hh ha => exec_kcwAssign_pf a hb hw hl hf hp hh ha
  case assignVf =>
    intro n h o a hl hf he ht hh hn ho
    obtain ⟨hkcw, hmbox, hstore⟩ := tdiError_leaves n s
    refine ⟨_, exec_kcwAssign_vf a hb hw hl hf he ht hh hn ho, (finishMb_answers (u := setKcw w _ (tdiError n s)) a hmbox _).1, ?_, fun i hi => ?_, ?_⟩
    · rw [getKcw_of_kcw (finishMb_kcw _ _ _), getKcw_setKcw_same]
    · rw [getKcw_of_kcw (finishMb_kcw _ _ _), getKcw_setKcw_other hi, getKcw_of_kcw hkcw]
    · rw [finishMb_store]
      exact hstore
  case release =>
    intro p o a hp hs hc he
    obtain ⟨hkcw, hstore⟩ := windowDone_releasing (w := w) (k := windowReleasing (getKcw w s)) rfl (setKcw w (windowReleasing (getKcw w s)) s)
    have ⟨_, hq, _, _, hwait⟩ := a
    have hcur := windowDone_releasing_cur (s := setKcw w (windowReleasing (getKcw w s)) s) hwait (k := windowReleasing (getKcw w s)) rfl w
    obtain ⟨hdone, hnone, -⟩ := finishMb_done mb q { body := leBytes 4 0 } _ (hcur.trans hq)
    refine ⟨_, exec_kcwRelease_pf a hb hw hp hs hc he, hdone, hnone, ?_, fun i hi => ?_, ?_⟩
    · rw [getKcw_of_kcw (finishMb_kcw _ _ _), getKcw_tdel_same hkcw]
    · rw [getKcw_of_kcw (finishMb_kcw _ _ _), getKcw_tdel_other hkcw hi, getKcw_setKcw_other hi]
    · rw [finishMb_store, hstore]
      rfl
  case mapKeys =>
    intro slot r a hc h0 hr hk
    subst hb
    exact ⟨kcvOf r, rfl, exec_kcwMap_keys a hc h0 hr hk⟩
  case mapNone =>
    subst hb
    exact exec_kcwMap_none
  case query =>
    exact fun a hn => exec_kcwQuery a hb hw hn
  case queue =>
    intro fn qid n q hs hq hd hcq hbm
    refine ⟨exec_completionPost_full hc hx hp ho hs hq hd hcq hbm, fun hf hok hft hdst => ?_⟩
    obtain ⟨t, m, ht, hget, hmem, hgone, hother, hstore⟩ := exec_completionPost_entry hc hx hp ho hs hq hd hcq hbm hf hok hft hdst
    exact ⟨t, _, ht, hgone, hget, rfl, rfl, rfl, rfl, hmem, hother, hstore⟩
  case window =>
    intro w hs hr hov
    refine ⟨fun h0 => ?_, fun h4 => ?_⟩
    · obtain ⟨hgone, -, hstore⟩ := freed_window c w _ s
      exact ⟨_, exec_completionPost_window hc hx hp ho hs (kcwPost_ok hr hov h0), hgone, windowEnded_done _ _ _ _ _ _ _, hstore⟩
    · obtain ⟨hgone, -, hstore⟩ := freed_window c w _ s
      exact ⟨_, exec_completionPost_window hc hx hp ho hs (kcwPost_tagMismatch hr hov h4), hgone, windowEnded_done _ _ _ _ _ _ _, hstore⟩
  case gate =>
    intro ticket g hs hg
    obtain ⟨t, ht, hfab, hgone, hother, hstore⟩ := exec_completionPost_gate hc hx hp ho hs hg
    exact ⟨t, ht, hgone, hfab, hother, hstore⟩
  case mailbox =>
    exact fun mb hs => ⟨_, exec_completionPost_mailbox hc hx hp ho hs, freed_of_ctxGone rfl rfl rfl rfl⟩

end Sys2Proof.Machine
end

section
/-! Requests at the mailboxes (O36, O37, O38, O40): the classes of a REQ_ID, the checks of R269 in their order, what an answer leaves alone, and the statements they make up. -/

namespace Sys2Proof.Machine

open Sys2Proof.Safety

/-! ### Steps 4 to 7 of R269 -/

theorem acceptCheck_unknown {mb : Mb} {q : Req} {s : State} (h : cmdTable.find? (fun r => r.1 == q.opcode) = none) :
    acceptCheck mb q s = some 0x0101 := by
  simp only [acceptCheck, acceptCheckIn, h]
  rfl

section Known
variable {mb : Mb} {q : Req} {s : State} {op len vf : Nat} (h : cmdTable.find? (fun r => r.1 == q.opcode) = some (op, len, vf))
include h

/-- A command that no VF mailbox takes (R269). -/
theorem acceptCheck_functionDenied (hv : mbIsVf mb = true) (h0 : vf = 0) : acceptCheck mb q s = some 0x0308 := by
  simp only [acceptCheck, acceptCheckIn, h, hv, h0]
  rfl

/-- A command of another owner than the VF's: the estate's, or any but family 0x01 while the VF has no owner (R269). -/
theorem acceptCheck_ownerDenied (hv : mbIsVf mb = true) (ho : vf = 2 ∨ (vf = 1 ∧ q.opcode / 256 ≠ 1 ∧ mbOwner mb s = none)) :
    acceptCheck mb q s = some 0x0305 := by
  obtain rfl | ⟨rfl, hf, hn⟩ := ho
  · simp only [acceptCheck, acceptCheckIn, h, hv]
    rfl
  · simp only [acceptCheck, acceptCheckIn, h, hv, hn, bne_iff_ne.mpr hf]
    rfl

/-- A mailbox that takes the command leaves the mode and the body's length to be judged, in that order (R41, R43, R269). -/
theorem acceptCheck_taken (ht : mbIsVf mb = false ∨ (vf = 1 ∧ (q.opcode / 256 = 1 ∨ mbOwner mb s ≠ none))) :
    acceptCheck mb q s = if !modeAllows q s || (mbIsVf mb && !modeVfs s.mode.mode) then some 0x0603
      else if q.bodyLen < len then some 0x0103 else none := by
  have hf : (mbIsVf mb && vf == 0) = false := by obtain hv | ⟨rfl, -⟩ := ht <;> simp [*]
  have ho : (mbIsVf mb && (vf == 2 || (q.opcode / 256 != 1 && (mbOwner mb s).isNone))) = false := by
    obtain hv | ⟨rfl, hq | hn⟩ := ht
    · simp [hv]
    · simp [hq]
    · simp [Option.isNone_eq_false_iff.mpr (Option.isSome_iff_ne_none.mpr hn)]
  simp only [acceptCheck, acceptCheckIn, h, hf, ho, Bool.false_eq_true, if_false]
  rfl

end Known

/-- Settles O38: an undefined opcode, and a defined one by the kind of the mailbox, then the mode, then the length. -/
theorem acceptedCommandChecks : Obligations.AcceptedCommandChecks := by
  unfold Obligations.AcceptedCommandChecks
  intro mb q s
  refine ⟨acceptCheck_unknown, fun op len vf h => ⟨acceptCheck_functionDenied h, fun hv h2 => acceptCheck_ownerDenied h hv (.inl h2),
    fun hv h1 hf hn => acceptCheck_ownerDenied h hv (.inr ⟨h1, hf, hn⟩), fun ht => ⟨fun hm => ?denied, fun hm hv => ?permitted⟩⟩⟩
  case denied =>
    rw [acceptCheck_taken h ht]
    obtain hm | ⟨hv, hm⟩ := hm
    · simp [hm]
    · simp [hv, hm]
  case permitted =>
    have hp : (!modeAllows q s || (mbIsVf mb && !modeVfs s.mode.mode)) = false := by simpa [hm] using hv
    rw [acceptCheck_taken h ht, hp]
    exact ⟨fun hl => by simp [hl], fun hl => by simp [Nat.not_lt.mpr hl]⟩

/-! ### Classes of a REQ_ID -/

theorem reqClass_first {b : Mbox} (h : b.high = none) (id : Nat) : reqClass b id = .new := by simp only [reqClass, h]

/-- How far a REQ_ID lies after HIGH, modulo 2^64 (R270). -/
abbrev reqAfter (h id : Nat) : Nat := (id + 2 ^ 64 - h) % 2 ^ 64

theorem reqAfter_ahead {h d : Nat} (hh : h < 2 ^ 64) (hd : d < 2 ^ 64) : reqAfter h ((h + d) % 2 ^ 64) = d := by
  unfold reqAfter
  omega

theorem reqAfter_behind {h e id : Nat} (hi : id < 2 ^ 64) (he : e < 2 ^ 64) (hs : (id + e) % 2 ^ 64 = h) : reqAfter h id = (2 ^ 64 - e) % 2 ^ 64 := by
  unfold reqAfter
  omega

section Later
variable {b : Mbox} {h id : Nat} (hb : b.high = some h)
include hb

theorem reqClass_ahead (h1 : 1 ≤ reqAfter h id) (h2 : reqAfter h id ≤ 2 ^ 20) : reqClass b id = .new := by
  simp only [reqClass, hb]
  exact if_pos ⟨h1, h2⟩

/-- Up to 2^20 - 1 behind HIGH the records decide (R270, R271). -/
theorem reqClass_behind (hd : reqAfter h id = 0 ∨ 2 ^ 64 - 2 ^ 20 + 1 ≤ reqAfter h id) :
    (∀ r, b.recs.find? (fun r => r.reqId == id) = some r → reqClass b id = .repeat_ r) ∧
    (b.recs.find? (fun r => r.reqId == id) = none → reqClass b id = .stale) := by
  have hn : ¬ (1 ≤ reqAfter h id ∧ reqAfter h id ≤ 2 ^ 20) := by omega
  refine ⟨fun r hr => ?_, fun hr => ?_⟩ <;>
    · simp only [reqClass, hb, hr]
      rw [if_neg hn, if_pos hd]

theorem reqClass_beyond (h1 : 2 ^ 20 < reqAfter h id) (h2 : reqAfter h id ≤ 2 ^ 64 - 2 ^ 20) : reqClass b id = .outOfRange := by
  have hn : ¬ (1 ≤ reqAfter h id ∧ reqAfter h id ≤ 2 ^ 20) := by omega
  have hm : ¬ (reqAfter h id = 0 ∨ 2 ^ 64 - 2 ^ 20 + 1 ≤ reqAfter h id) := by omega
  simp only [reqClass, hb]
  rw [if_neg hn, if_neg hm]

end Later

/-! ### What an answer leaves alone -/

/-- The state without what an answer at a mailbox touches: the mailboxes, the log, the functions' states and the messages. -/
def beyondMailboxes (s : State) : State := { s with mbox := [], log := {}, host := { s.host with fns := [], msgs := [] } }

theorem onlyMailbox_iff {mb : Mb} {s t : State} :
    OnlyMailbox mb s t ↔ beyondMailboxes t = beyondMailboxes s ∧ ∀ k, k ≠ mbKey mb → tget t.mbox k = tget s.mbox k := by
  refine and_congr_left fun _ => ⟨fun h => ?_, fun h => ?_⟩
  · exact (congrArg beyondMailboxes h : _)
  · exact (congrArg (fun u : State => ({ u with mbox := s.mbox, log := s.log, host := { u.host with fns := s.host.fns, msgs := s.host.msgs } } : State)) h : _)

theorem onlyMailbox_refl (mb : Mb) (s : State) : OnlyMailbox mb s s := onlyMailbox_iff.mpr ⟨rfl, fun _ _ => rfl⟩

theorem onlyMailbox_trans {mb : Mb} {s t u : State} (h : OnlyMailbox mb s t) (k : OnlyMailbox mb t u) : OnlyMailbox mb s u := by
  rw [onlyMailbox_iff] at h k ⊢
  exact ⟨k.1.trans h.1, fun i hi => (k.2 i hi).trans (h.2 i hi)⟩

theorem onlyMailbox_setMb (mb : Mb) (b : Mbox) (s : State) : OnlyMailbox mb s (setMb mb b s) :=
  onlyMailbox_iff.mpr ⟨rfl, fun _ hi => tget_tset_other _ _ _ _ hi⟩

theorem onlyMailbox_sendVec (mb : Mb) (f : Fn) (v : Nat) (s : State) : OnlyMailbox mb s (sendVec f v s) := by
  have h := congrArg beyondMailboxes (beyondMsgs_sendVec f v s)
  have hm := congrArg State.mbox (beyondMsgs_sendVec f v s)
  exact onlyMailbox_iff.mpr ⟨h, fun k _ => congrArg (tget · k) hm⟩

theorem onlyMailbox_commandRec (mb : Mb) (code : Nat) (mb' : Mb) (op st ag : Nat) (s : State) : OnlyMailbox mb s (commandRec code mb' op st ag s) := by
  have h := congrArg beyondMailboxes (commandRec_only code mb' op st ag s)
  have hm := congrArg State.mbox (commandRec_only code mb' op st ag s)
  exact onlyMailbox_iff.mpr ⟨h, fun k _ => congrArg (tget · k) hm⟩

theorem onlyMailbox_postResp (mb : Mb) (bytes : Bytes) (s : State) : OnlyMailbox mb s (postResp mb bytes s) :=
  onlyMailbox_trans (onlyMailbox_setMb mb _ s) (onlyMailbox_sendVec mb _ _ _)

/-- A command that ends changes, beside its job's end, its mailbox, the log and the messages only (R265, R267). -/
theorem onlyMailbox_finishMb (mb : Mb) (r : Resp) (s : State) : OnlyMailbox mb (endJob mb s) (finishMb mb r s) := by
  unfold finishMb
  dsimp only
  split
  · exact onlyMailbox_refl mb _
  · refine onlyMailbox_trans ?_ (onlyMailbox_trans (onlyMailbox_setMb mb _ _) (onlyMailbox_postResp mb _ _))
    split <;> split
    · exact onlyMailbox_commandRec _ _ _ _ _ _ _
    · exact onlyMailbox_trans (onlyMailbox_commandRec _ _ _ _ _ _ _) (onlyMailbox_commandRec _ _ _ _ _ _ _)
    · exact onlyMailbox_refl mb _
    · exact onlyMailbox_commandRec _ _ _ _ _ _ _

/-- A command that uses no key has no job to end (R70). -/
theorem endJob_noKey {mb : Mb} {s : State} (h : NoKeyInUse mb s) : endJob mb s = s := if_pos (Option.isNone_iff_eq_none.mpr h)

/-- A command's end leaves HIGH and ACCEPTED of its mailbox (R265, R270). -/
theorem finishMb_keeps (mb : Mb) (r : Resp) (s : State) :
    (getMb mb (finishMb mb r s)).high = (getMb mb s).high ∧ (getMb mb (finishMb mb r s)).accepted = (getMb mb s).accepted := by
  unfold finishMb postResp
  simp only [getMb_endJob]
  split <;> simp [getMb_endJob, setRec]

/-! ### DEVICE_IDENTIFY, DEVICE_STATUS and REQID_QUERY -/

/-- Settles O40: each command by its answer, and what an answer leaves alone. -/
theorem identityCommandsAnswer : Obligations.IdentityCommandsAnswer := by
  unfold Obligations.IdentityCommandsAnswer
  refine fun mb q s => ⟨fun a => ?identify, fun a => ?status, fun a => ⟨fun hr => ?absent, fun r hr => ?recorded⟩,
    fun r _ => ⟨onlyMailbox_finishMb mb r s, endJob_noKey⟩⟩
  case identify =>
    change execDeviceIdentify mb s = _
    exact runCmd_reply _ a rfl
  case status =>
    change execDeviceStatus mb s = _
    exact runCmd_reply _ a rfl
  case absent =>
    change execReqidQuery mb s = _
    exact runCmd_reply _ a (by simp only [hr])
  case recorded =>
    change execReqidQuery mb s = _
    exact runCmd_reply _ a (by simp only [hr])

/-! ### Answers without a record -/

/-- Mailbox mb has been answered these bytes from s to t: its records and HIGH are what they were (R269). -/
def AnsweredPlain (mb : Mb) (bytes : Bytes) (s t : State) : Prop :=
  Answered mb t bytes ∧ (getMb mb t).recs = (getMb mb s).recs ∧ (getMb mb t).high = (getMb mb s).high

theorem answerPlain_answers {mb : Mb} {s : State} (h : (getMb mb s).cur = none) (q : Req) (reqId ctx info : Nat) (r : Resp) :
    AnsweredPlain mb (respBytes q.opcode reqId ctx (getMb mb s).token info r) s (answerPlain mb q reqId ctx info r s) := by
  have hm : getMb mb (answerPlain mb q reqId ctx info r s) = { getMb mb s with
      state := .done, resp := respBytes q.opcode reqId ctx (getMb mb s).token info r
      respLen := (respBytes q.opcode reqId ctx (getMb mb s).token info r).length } := by
    simp only [answerPlain, postResp, getMb_sendVec, getMb_setMb]
  simp only [AnsweredPlain, Answered, hm, h, and_self]

theorem onlyMailbox_answerPlain (mb : Mb) (q : Req) (reqId ctx info : Nat) (r : Resp) (s : State) :
    OnlyMailbox mb s (answerPlain mb q reqId ctx info r s) := onlyMailbox_postResp mb _ s

/-! ### A request becomes the mailbox's command -/

/-- The record of a request that has been accepted (R271). -/
abbrev acceptedRec (q : Req) : MbRec := { reqId := q.reqId, hashed := hashText q, state := .inProgress, opcode := q.opcode }

/-- A new request is the mailbox's command, its REQ_ID is HIGH (R270, R271). -/
abbrev newTaken (mb : Mb) (q : Req) (ctx : Nat) (s : State) : State :=
  takeReq mb q ctx (acceptedRec q) (setMb mb { getMb mb s with high := some q.reqId, accepted := true } s)

theorem onlyMailbox_takeReq (mb : Mb) (q : Req) (ctx : Nat) (r : MbRec) (b : Mbox) (s : State) :
    OnlyMailbox mb s (takeReq mb q ctx r (setMb mb b s)) := onlyMailbox_trans (onlyMailbox_setMb mb b s) (onlyMailbox_setMb mb _ _)

/-- A request just taken uses no key, so refusing it touches its mailbox only. -/
theorem onlyMailbox_refused (mb : Mb) (q : Req) (ctx : Nat) (r : MbRec) (st : Nat) (s : State) :
    OnlyMailbox mb (takeReq mb q ctx r s) (finishMb mb (fail st) (takeReq mb q ctx r s)) := by
  have hn : NoKeyInUse mb (takeReq mb q ctx r s) := by simp [NoKeyInUse, takeReq]
  have h := onlyMailbox_finishMb mb (fail st) (takeReq mb q ctx r s)
  rwa [endJob_noKey hn] at h

theorem recCap_pos (mb : Mb) : 0 < recCap mb := by cases mb <;> exact Nat.succ_pos _

/-- The records kept of a mailbox end with the newest (R271). -/
theorem getLast?_kept (old : List MbRec) (r : MbRec) (mb : Mb) : ((old ++ [r]).drop (old.length + 1 - recCap mb)).getLast? = some r := by
  have hc := recCap_pos mb
  rw [List.getLast?_drop, List.getLast?_concat, if_neg (by simp only [List.length_append, List.length_singleton]; omega)]

/-- What a new request leaves in its mailbox (R270, R271, R274). -/
theorem newTaken_mb (mb : Mb) (q : Req) (ctx : Nat) (s : State) :
    (getMb mb (newTaken mb q ctx s)).high = some q.reqId ∧ (getMb mb (newTaken mb q ctx s)).accepted = true ∧
    (getMb mb (newTaken mb q ctx s)).cur = some q ∧ (getMb mb (newTaken mb q ctx s)).state = (getMb mb s).state ∧
    (getMb mb (newTaken mb q ctx s)).ctx = ctx ∧ (getMb mb (newTaken mb q ctx s)).token = (getMb mb s).token ∧
    (getMb mb (newTaken mb q ctx s)).recs.getLast? = some (acceptedRec q) := by
  simp only [newTaken, takeReq, getMb_setMb, getLast?_kept, and_self]

/-! ### MAILBOX_ACCEPT -/

/-- A doorbell waits at a mailbox for the Warden, which may take it (R41, R265, R288). -/
abbrev Rings (mb : Mb) (s : State) : Prop :=
  mbOk mb = true ∧ (getMb mb s).state = .busy ∧ (getMb mb s).accepted = false ∧ (getMb mb s).cur = none ∧ wardenAnswers s = true ∧
  swapping s = false ∧ (mbIsVf mb = true → s.mode.mode ≠ 8)

theorem exec_mailboxAccept {mb : Mb} {s : State} (h : Rings mb s) : exec (.mailboxAccept mb) s = .next (acceptReq mb s) := by
  obtain ⟨hok, hst, hac, hcur, hw, hsw, hv⟩ := h
  have hq : (mbIsVf mb && s.mode.mode == 8) = false := by simpa using hv
  change execMailboxAccept mb s = _
  simp [execMailboxAccept, onUnit, hok, hst, hac, hcur, hw, hsw, hq]

section Accept
variable {mb : Mb} {q : Req} {s : State} (hq : readReq mb (getMb mb s) = q)
include hq

theorem acceptReq_badHeader (h : reqVer (getMb mb s) ≠ 1 ∨ bodyLimit mb < q.bodyLen) :
    acceptReq mb s = answerPlain mb q 0 0xFFFF 0 (fail St.headerInvalid) s := by
  simp only [acceptReq, hq, h, if_true]

variable (hv : reqVer (getMb mb s) = 1) (hl : q.bodyLen ≤ bodyLimit mb)
include hv hl

theorem acceptReq_noContext (hc : mbCtx mb s = none) : acceptReq mb s = answerPlain mb q q.reqId 0xFFFF 0 (fail St.creditExhausted) s := by
  simp only [acceptReq, hq, hv, Nat.not_lt.mpr hl, ne_eq, not_true_eq_false, or_self, if_false, hc]

variable {ctx : Nat} (hc : mbCtx mb s = some ctx)
include hc

theorem acceptReq_stale (hr : reqClass (getMb mb s) q.reqId = .stale) :
    acceptReq mb s = answerPlain mb q q.reqId ctx 0 (fail St.requestStale) s := by
  simp only [acceptReq, hq, hv, Nat.not_lt.mpr hl, ne_eq, not_true_eq_false, or_self, if_false, hc, hr]

theorem acceptReq_outOfRange (hr : reqClass (getMb mb s) q.reqId = .outOfRange) :
    acceptReq mb s = answerPlain mb q q.reqId ctx 0 (fail St.requestIdRange) s := by
  simp only [acceptReq, hq, hv, Nat.not_lt.mpr hl, ne_eq, not_true_eq_false, or_self, if_false, hc, hr]

/-- A REQ_ID that stands for another request (R271). -/
theorem acceptReq_conflict {r : MbRec} (hr : reqClass (getMb mb s) q.reqId = .repeat_ r) (hm : recMatches r q = false) :
    acceptReq mb s = answerPlain mb q q.reqId ctx 0 (fail St.requestConflict) s := by
  simp only [acceptReq, hq, hv, Nat.not_lt.mpr hl, ne_eq, not_true_eq_false, or_self, if_false, hc, hr, hm, Bool.not_false, if_true]

theorem acceptReq_replay {r : MbRec} (hr : reqClass (getMb mb s) q.reqId = .repeat_ r) (hm : recMatches r q = true) (hd : r.state = .done) :
    acceptReq mb s = replay mb q r s := by
  simp only [acceptReq, hq, hv, Nat.not_lt.mpr hl, ne_eq, not_true_eq_false, or_self, if_false, hc, hr, hm, Bool.not_true, Bool.false_eq_true, hd, if_true]

/-- A new request that passes steps 4 to 7 stays the mailbox's command (R269). -/
theorem acceptReq_new_passes (hr : reqClass (getMb mb s) q.reqId = .new) (ha : acceptCheck mb q (newTaken mb q ctx s) = none) :
    acceptReq mb s = newTaken mb q ctx s := by
  simp only [acceptReq, hq, hv, Nat.not_lt.mpr hl, ne_eq, not_true_eq_false, or_self, if_false, hc, hr, ha]

/-- A new request that steps 4 to 7 refuse ends with the refusal, and is recorded (R269). -/
theorem acceptReq_new_refused {st : Nat} (hr : reqClass (getMb mb s) q.reqId = .new) (ha : acceptCheck mb q (newTaken mb q ctx s) = some st) :
    acceptReq mb s = finishMb mb (fail st) (newTaken mb q ctx s) := by
  simp only [acceptReq, hq, hv, Nat.not_lt.mpr hl, ne_eq, not_true_eq_false, or_self, if_false, hc, hr, ha]

/-- Either way the new request's REQ_ID is HIGH and ACCEPTED reads 1 (R265, R270). -/
theorem acceptReq_new_high (hr : reqClass (getMb mb s) q.reqId = .new) :
    (getMb mb (acceptReq mb s)).high = some q.reqId ∧ (getMb mb (acceptReq mb s)).accepted = true := by
  obtain ⟨hh, ha, -⟩ := newTaken_mb mb q ctx s
  cases h : acceptCheck mb q (newTaken mb q ctx s) with
  | none => rw [acceptReq_new_passes hq hv hl hc hr h]; exact ⟨hh, ha⟩
  | some st =>
    obtain ⟨kh, ka⟩ := finishMb_keeps mb (fail st) (newTaken mb q ctx s)
    rw [acceptReq_new_refused hq hv hl hc hr h, kh, ka]
    exact ⟨hh, ha⟩

end Accept

/-- Whatever becomes of the request, only its mailbox, the messages and the log are touched (R269). -/
theorem onlyMailbox_acceptReq (mb : Mb) (s : State) : OnlyMailbox mb s (acceptReq mb s) := by
  unfold acceptReq
  dsimp only
  split
  · exact onlyMailbox_answerPlain _ _ _ _ _ _ _
  · split
    · exact onlyMailbox_answerPlain _ _ _ _ _ _ _
    · split
      case h_1 => exact onlyMailbox_answerPlain _ _ _ _ _ _ _
      case h_2 => exact onlyMailbox_answerPlain _ _ _ _ _ _ _
      case h_3 r _ =>
        split
        · exact onlyMailbox_answerPlain _ _ _ _ _ _ _
        · split
          · exact onlyMailbox_answerPlain _ _ _ _ _ _ _
          · split
            · exact onlyMailbox_trans (onlyMailbox_takeReq _ _ _ _ _ _) (onlyMailbox_refused _ _ _ _ _ _)
            · exact onlyMailbox_takeReq _ _ _ _ _ _
      case h_4 =>
        split
        · exact onlyMailbox_trans (onlyMailbox_takeReq _ _ _ _ _ _) (onlyMailbox_refused _ _ _ _ _ _)
        · exact onlyMailbox_takeReq _ _ _ _ _ _

/-- Settles O36: the classes by the distance from HIGH, and what MAILBOX_ACCEPT makes of each. -/
theorem requestIdClasses : Obligations.RequestIdClasses := by
  unfold Obligations.RequestIdClasses
  refine ⟨fun b id h hi hh => ⟨fun hn => reqClass_first hn id, fun hb => ⟨?ahead, ?behind, ?beyond⟩⟩, ?accept⟩
  case ahead =>
    rintro d h1 h2 rfl
    have e := reqAfter_ahead (d := d) hh (by omega)
    exact reqClass_ahead hb (by omega) (by omega)
  case behind =>
    intro e he hs
    have k := reqAfter_behind hi (by omega) hs
    exact reqClass_behind hb (by omega)
  case beyond =>
    rintro d h1 h2 rfl
    have e := reqAfter_ahead (d := d) hh (by omega)
    exact reqClass_beyond hb (by omega) (by omega)
  case accept =>
    intro mb ctx s q hok hst hac hcur hw hsw hm hq hv hl hc
    refine ⟨_, exec_mailboxAccept ⟨hok, hst, hac, hcur, hw, hsw, hm⟩, fun hr => (acceptReq_new_high hq hv hl hc hr).1, fun hr => ?_, fun hr => ?_⟩
    · rw [acceptReq_stale hq hv hl hc hr]
      obtain ⟨⟨-, hresp, hnone⟩, -, hhigh⟩ := answerPlain_answers hcur q q.reqId ctx 0 (fail St.requestStale)
      exact ⟨hhigh, hnone, hresp⟩
    · rw [acceptReq_outOfRange hq hv hl hc hr]
      obtain ⟨⟨-, hresp, hnone⟩, -, hhigh⟩ := answerPlain_answers hcur q q.reqId ctx 0 (fail St.requestIdRange)
      exact ⟨hhigh, hnone, hresp⟩

/-- Settles O37: the first check that fails by its answer, and a new request by what it leaves in its mailbox. -/
theorem mailboxAcceptChecksInOrder : Obligations.MailboxAcceptChecksInOrder := by
  unfold Obligations.MailboxAcceptChecksInOrder
  intro mb s q hok hst hac hcur hw hsw hm hq
  have plain (id ctx info : Nat) (r : Resp) (h : acceptReq mb s = answerPlain mb q id ctx info r s) :
      Answered mb (acceptReq mb s) (respBytes q.opcode id ctx (getMb mb s).token info r) ∧ (getMb mb (acceptReq mb s)).recs = (getMb mb s).recs := by
    obtain ⟨ha, hr, -⟩ := answerPlain_answers hcur q id ctx info r
    rw [h]
    exact ⟨ha, hr⟩
  refine ⟨_, exec_mailboxAccept ⟨hok, hst, hac, hcur, hw, hsw, hm⟩, onlyMailbox_acceptReq mb s, fun hb => plain _ _ _ _ (acceptReq_badHeader hq hb),
    fun hv hl => ⟨fun hc => plain _ _ _ _ (acceptReq_noContext hq hv hl hc), fun ctx hc => ⟨fun hr => plain _ _ _ _ (acceptReq_stale hq hv hl hc hr),
      fun hr => plain _ _ _ _ (acceptReq_outOfRange hq hv hl hc hr), fun r hr hn => plain _ _ _ _ (acceptReq_conflict hq hv hl hc hr hn),
      fun r hr hn hd => plain _ _ _ _ (acceptReq_replay hq hv hl hc hr hn hd), fun hr => ?new⟩⟩⟩
  obtain ⟨-, -, hcmd, hbusy, hctx, htok, hlast⟩ := newTaken_mb mb q ctx s
  obtain ⟨hhigh, hacc⟩ := acceptReq_new_high hq hv hl hc hr
  refine ⟨hhigh, hacc, fun hp => ?passes, fun st hp => ?refused⟩
  case passes =>
    rw [acceptReq_new_passes hq hv hl hc hr hp]
    exact ⟨hcmd, hbusy.trans hst, hctx, hlast⟩
  case refused =>
    obtain ⟨hdone, hnone, hresp⟩ := finishMb_done mb q (fail st) (newTaken mb q ctx s) hcmd
    rw [acceptReq_new_refused hq hv hl hc hr hp]
    rw [hctx, htok] at hresp
    exact ⟨hdone, hresp, hnone⟩

end Sys2Proof.Machine
end

section
/-! The ends and starts of contexts (O42): what counting, drawing and dispatching leave alone, how a context settles, starts, ends and drains, and the statement they make up. -/

namespace Sys2Proof.Machine

open Sys2Proof.Safety

/-! ### A context's record -/

@[simp] theorem getCtx_setCtx_same (c : Nat) (x : Ctx) (s : State) : getCtx c (setCtx c x s) = some x := tget_tset_same _ _ _

theorem getCtx_setCtx_other {i c : Nat} (h : i ≠ c) (x : Ctx) (s : State) : getCtx i (setCtx c x s) = getCtx i s := tget_tset_other _ _ _ _ h

theorem getCtx_of_ctxs {s t : State} (h : t.ctxs = s.ctxs) (i : Nat) : getCtx i t = getCtx i s := congrArg (tget · i) h

/-- From s to t context c becomes z; no other context, no key and nothing of the host side has changed. -/
def CtxBecomes (c : Nat) (z : Ctx) (s t : State) : Prop :=
  getCtx c t = some z ∧ (∀ i, i ≠ c → getCtx i t = getCtx i s) ∧ t.store = s.store ∧ t.host = s.host

theorem ctxBecomes_setCtx (c : Nat) (z : Ctx) (s : State) : CtxBecomes c z s (setCtx c z s) :=
  ⟨getCtx_setCtx_same c z s, fun _ hi => getCtx_setCtx_other hi z s, rfl, rfl⟩

theorem CtxBecomes.trans {c : Nat} {y z : Ctx} {s t u : State} (h : CtxBecomes c y s t) (k : CtxBecomes c z t u) : CtxBecomes c z s u := by
  obtain ⟨-, ho, hs, hh⟩ := h
  obtain ⟨kc, ko, ks, kh⟩ := k
  exact ⟨kc, fun i hi => (ko i hi).trans (ho i hi), ks.trans hs, kh.trans hh⟩

/-- The state without what running, counting and placing a job touch: free values, units and meters. -/
def beyondWork (s : State) : State := { s with free := 0, units := {}, meter := {} }

/-- A reading of the state that looks at none of those is the same in states that differ there only. -/
theorem ctxs_of_beyondWork {s t : State} (h : beyondWork t = beyondWork s) : t.ctxs = s.ctxs := by
  have k := congrArg State.ctxs h
  exact k
theorem store_of_beyondWork {s t : State} (h : beyondWork t = beyondWork s) : t.store = s.store := by
  have k := congrArg State.store h
  exact k
theorem host_of_beyondWork {s t : State} (h : beyondWork t = beyondWork s) : t.host = s.host := by
  have k := congrArg State.host h
  exact k

/-- Work after a context's change keeps it. -/
theorem CtxBecomes.work {c : Nat} {z : Ctx} {s t u : State} (h : CtxBecomes c z s t) (w : beyondWork u = beyondWork t) : CtxBecomes c z s u := by
  obtain ⟨hc, ho, hs, hh⟩ := h
  have hx := ctxs_of_beyondWork w
  exact ⟨(getCtx_of_ctxs hx c).trans hc, fun i hi => (getCtx_of_ctxs hx i).trans (ho i hi), (store_of_beyondWork w).trans hs, (host_of_beyondWork w).trans hh⟩

/-- Work before a context's change is no other change. -/
theorem CtxBecomes.after {c : Nat} {z : Ctx} {s t u : State} (h : CtxBecomes c z t u) (w : beyondWork t = beyondWork s) : CtxBecomes c z s u := by
  obtain ⟨hc, ho, hs, hh⟩ := h
  exact ⟨hc, fun i hi => (ho i hi).trans (getCtx_of_ctxs (ctxs_of_beyondWork w) i), hs.trans (store_of_beyondWork w), hh.trans (host_of_beyondWork w)⟩

/-! ### Counting -/

@[simp] theorem beyondWork_meterJob (x : Ctx) (n : Nat) (s : State) : beyondWork (meterJob x n s) = beyondWork s := by
  unfold meterJob
  dsimp only
  repeat' split
  all_goals rfl

@[simp] theorem beyondWork_countChecked (st n : Nat) (s : State) : beyondWork (countChecked st n s) = beyondWork s := by
  unfold countChecked
  split <;> rfl

@[simp] theorem beyondWork_countPorts (g a h : Nat) (s : State) : beyondWork (countPorts g a h s) = beyondWork s := beyondWork_countChecked _ _ _

@[simp] theorem beyondWork_countCut (x : Ctx) (s : State) : beyondWork (countCut x s) = beyondWork s := by
  unfold countCut
  split
  · rfl
  · split
    · rfl
    · exact beyondWork_countPorts _ _ _ _

@[simp] theorem beyondWork_cutShort (x : Ctx) (s : State) : beyondWork (cutShort x s).2 = beyondWork s := by
  unfold cutShort
  split <;> rfl

@[simp] theorem beyondWork_earlyOut (x : Ctx) (s : State) : beyondWork (earlyOut x s).2 = beyondWork s := by
  unfold earlyOut
  dsimp only
  repeat' split
  all_goals rfl

@[simp] theorem beyondWork_addWma (st n k : Nat) (s : State) : beyondWork (addWma st n k s) = beyondWork s := by
  unfold addWma
  split <;> rfl

@[simp] theorem beyondWork_addServiceDge (st m b : Nat) (s : State) : beyondWork (addServiceDge st m b s) = beyondWork s := by
  unfold addServiceDge
  split <;> rfl

@[simp] theorem beyondWork_countTally (st : Nat) (x : Ctx) (r : JobEnd) (s : State) : beyondWork (countTally st x r s) = beyondWork s := by
  unfold countTally
  dsimp only
  split <;> simp

@[simp] theorem beyondWork_countFree (st : Nat) (x : Ctx) (s : State) : beyondWork (countFree st x s) = beyondWork s := by
  unfold countFree
  dsimp only [draw]
  split <;> split
  · rw [beyondWork_addServiceDge, beyondWork_addWma]
    rfl
  · rw [beyondWork_addWma]
    rfl
  · rw [beyondWork_addServiceDge]
    rfl
  · rfl

@[simp] theorem beyondWork_countService (x : Ctx) (r : JobEnd) (s : State) : beyondWork (countService x r s) = beyondWork s := by
  unfold countService
  split
  · split <;> simp
  · rfl

@[simp] theorem beyondWork_cutService (x : Ctx) (s : State) : beyondWork (cutService x s) = beyondWork s := by
  unfold cutService
  split <;> simp

@[simp] theorem beyondWork_countStream (c : Nat) (x : Ctx) (whole : Bool) (s : State) : beyondWork (countStream c x whole s) = beyondWork s := by
  unfold countStream
  split
  · rfl
  · dsimp only
    split <;> rfl

@[simp] theorem beyondWork_countUnit (c : Nat) (x : Ctx) (r : JobEnd) (s : State) : beyondWork (countUnit c x r s) = beyondWork s := by
  unfold countUnit
  split
  · simp
  · split
    · simp
    · split <;> simp

@[simp] theorem beyondWork_cancelPort (st m : Nat) (s : State) : beyondWork (cancelPort st m s) = beyondWork s := by
  unfold cancelPort
  dsimp only
  split <;> rfl

@[simp] theorem beyondWork_pieceCancel (c : Nat) (s : State) : beyondWork (pieceCancel c s) = beyondWork s := by
  refine foldl_keeps (fun s st => ?_) stands s
  split
  · exact beyondWork_cancelPort _ _ _
  · rfl

@[simp] theorem beyondWork_hucDrop (r : HucSrc) (s : State) : beyondWork (hucDrop r s) = beyondWork s := rfl

/-! ### Settlement -/

/-- The first candidate for a context whose outcome is open settles it (R278). -/
theorem settle_becomes {c : Nat} {x : Ctx} {s : State} (hx : getCtx c s = some x) (hu : unsettled x.state = true) (o : CtxOutcome) :
    CtxBecomes c { x with state := .draining, outcome := some o } s (settle c o s) := by
  have hl : liveCtx c s = some x := by simp [liveCtx, hx, hu]
  unfold settle
  rw [hl]
  exact ((ctxBecomes_setCtx c _ (countCut x s)).after (beyondWork_countCut x s)).work (beyondWork_meterJob _ _ _)

/-- A context that does not run has no work to count in the units. -/
theorem settle_units {c : Nat} {x : Ctx} {s : State} (hx : getCtx c s = some x) (hr : x.state ≠ .running) (o : CtxOutcome) :
    (settle c o s).units = s.units := by
  have hc : countCut x s = s := by
    unfold countCut
    split
    · rfl
    · simp [hr]
  unfold settle
  split
  · rfl
  · rename_i y hy
    obtain rfl : x = y := by
      rw [liveCtx, hx, Option.filter_eq_some_iff] at hy
      exact Option.some.inj hy.1
    rw [meterJob_units, hc]
    rfl

@[simp] theorem cutShort_state (x : Ctx) (s : State) : (cutShort x s).1.state = x.state := by
  unfold cutShort
  split <;> rfl

theorem earlyOut_not_running {x : Ctx} {s : State} (h : x.state ≠ .running) : earlyOut x s = (0, s) := by simp [earlyOut, h]

/-- An abort settles with its status; before the context runs nothing has been released and no unit has worked (R279). -/
theorem abort_becomes {c : Nat} {x : Ctx} {s : State} (hx : getCtx c s = some x) (hu : unsettled x.state = true) (st : Nat) :
    ∃ z o, CtxBecomes c z s (abort c st s) ∧ z.state = .draining ∧ z.outcome = some o ∧ o.status = st ∧
      (x.state ≠ .running → o.done = 0 ∧ o.info = 0 ∧ (abort c st s).units = s.units) := by
  have hl : liveCtx c s = some x := by simp [liveCtx, hx, hu]
  have hw := (beyondWork_earlyOut (cutShort x s).1 (cutShort x s).2).trans (beyondWork_cutShort x s)
  have hunits := (earlyOut_units (cutShort x s).1 (cutShort x s).2).trans (cutShort_units x s)
  have hstate := cutShort_state x s
  have hnone : x.state ≠ .running → (earlyOut (cutShort x s).1 (cutShort x s).2).1 = 0 := fun h => by rw [earlyOut_not_running (by rwa [hstate])]
  unfold abort
  rw [hl]
  dsimp only
  generalize (cutShort x s).1 = y at *
  generalize earlyOut y (cutShort x s).2 = e at *
  obtain ⟨done, u⟩ := e
  have hy : getCtx c (setCtx c { y with released := done } u) = some { y with released := done } := getCtx_setCtx_same _ _ _
  refine ⟨_, _, ((ctxBecomes_setCtx c _ u).after hw).trans (settle_becomes hy (by rw [hstate]; exact hu) _), rfl, rfl, rfl, fun h => ?_⟩
  obtain rfl : done = 0 := hnone h
  exact ⟨rfl, rfl, (settle_units hy (by rwa [hstate]) _).trans hunits⟩

/-! ### Deadlines -/

section Deadline
variable {c : Nat} {x : Ctx} {s : State} (hc : c < 8192) (hx : getCtx c s = some x)
include hc hx

/-- A settled context has no deadline any more (R278). -/
theorem exec_deadlineExpiry_settled (hu : unsettled x.state = false) : exec (.deadlineExpiry c) s = .next s := by
  have hl : liveCtx c s = none := by simp [liveCtx, hx, hu]
  change execDeadlineExpiry c s = _
  simp [execDeadlineExpiry, onUnit, ctxOk, hc, hl]

theorem exec_deadlineExpiry_open (hu : unsettled x.state = true) :
    exec (.deadlineExpiry c) s = .next (abort c (if restartWait x s then St.deviceRestarting else St.timeout) s) := by
  have hl : liveCtx c s = some x := by simp [liveCtx, hx, hu]
  change execDeadlineExpiry c s = _
  simp [execDeadlineExpiry, onUnit, ctxOk, hc, hl]

end Deadline

/-! ### Source data taken in -/

/-- A turn at a stand's buffer changes the stands only (R137). -/
theorem drrTurn_only (st i n : Nat) (s : State) : (drrTurn st i n s).2 = { s with units.stands := (drrTurn st i n s).2.units.stands } := by
  unfold drrTurn
  dsimp only
  split <;> rfl

/-- Taking in a job's data changes the stands only, and of the job its copy of the data (R139). -/
theorem takeIn_only {st : Nat} {x y : Ctx} {s u : State} (h : takeIn st x s = (some y, u)) :
    u = { s with units.stands := u.units.stands } ∧ y = { x with ingress := y.ingress, srcFault := y.srcFault } := by
  have fetched_only (v : State) : fetched x v = { x with ingress := (fetched x v).ingress, srcFault := (fetched x v).srcFault } := by
    unfold fetched
    split <;> rfl
  unfold takeIn at h
  split at h
  · cases h
    exact ⟨rfl, rfl⟩
  · split at h
    · cases h
    · split at h
      · cases h
        exact ⟨rfl, fetched_only s⟩
      · rename_i i _
        have hd := drrTurn_only st i (ingressBytes x) s
        dsimp only at h
        split at h
        · cases h
          exact ⟨hd, fetched_only _⟩
        · cases h

theorem takeIn_work {st : Nat} {x y : Ctx} {s u : State} (h : takeIn st x s = (some y, u)) : beyondWork u = beyondWork s := by
  rw [(takeIn_only h).1]
  rfl

/-! ### A lane message begins -/

@[simp] theorem beyondWork_takeWire (st w n : Nat) (s : State) : beyondWork (takeWire st w n s).2 = beyondWork s := by
  rw [takeWire_only]
  rfl

@[simp] theorem beyondWork_putLaneCtxs (g : Nat) (cs : List LaneCtx) (s : State) : beyondWork (putLaneCtxs g cs s) = beyondWork s := by
  unfold putLaneCtxs
  dsimp only
  split <;> rfl

@[simp] theorem beyondWork_bindLane (g slot gen owner : Nat) (b : Bool) (s : State) : beyondWork (bindLane g slot gen owner b s) = beyondWork s := by
  unfold bindLane
  dsimp only
  repeat' split
  all_goals simp

/-- A message starts with its IV drawn, waited for, or of no concern (R132). -/
theorem startIv_becomes (c st : Nat) (x : Ctx) (random : Bool) (s : State) :
    ∃ iv ws, CtxBecomes c { x with iv := iv, waits := ws } s (startIv c st x random s) ∧ (random = false → ws = []) := by
  unfold startIv
  split
  · exact ⟨x.iv, [], ctxBecomes_setCtx _ _ _, fun _ => rfl⟩
  · rename_i hr
    have hw := beyondWork_takeWire st 2 ivBytes s
    split <;> rename_i e <;> rw [e] at hw
    · exact ⟨_, _, (ctxBecomes_setCtx _ _ _).after hw, fun h => by simp [h] at hr⟩
    · exact ⟨_, _, (ctxBecomes_setCtx _ _ _).after hw, fun h => by simp [h] at hr⟩

/-- A lane message runs on its lane (R132, R277). -/
theorem beginLane_becomes (c st g slot gen : Nat) (x : Ctx) (k : KeyRec) (s : State) :
    ∃ iv ws, CtxBecomes c { x with lane := some g, state := .running, bytesIn := elemsLen x.srcElems, iv := iv, waits := ws } s
      (beginLane c st g slot gen x k s) ∧ (encrypts x.entry k = false → ws = []) := by
  obtain ⟨iv, ws, h, hw⟩ := startIv_becomes c st { x with lane := some g, state := .running, bytesIn := elemsLen x.srcElems } (drawsIv x k)
    (bindLane g slot gen x.owner false s)
  exact ⟨iv, ws, h.after (beyondWork_bindLane _ _ _ _ _ _), fun he => hw (by simp [drawsIv, he])⟩

/-- Taking an invocation value changes no context (R71, R74). -/
theorem takeInvocation_ctxs (slot : Nat) (s : State) : (takeInvocation slot s).2.ctxs = s.ctxs := by
  have extend (k : KeyRec) (u : State) : (extendCeiling slot k u).ctxs = u.ctxs := by
    unfold extendCeiling wantCommit tryCommit
    dsimp only
    repeat' split
    all_goals rfl
  unfold takeInvocation
  split
  · rfl
  · split
    · rfl
    · split
      · exact extend _ _
      · exact extend _ _

/-- A key that gives a value had one to give (R71). -/
theorem valuesSpent_of_taken {slot v : Nat} {k : KeyRec} {s w : State} (hk : tget s.store.c.keys slot = some k)
    (h : takeInvocation slot s = (some v, w)) : valuesSpent k = false := by
  by_contra hs
  rw [Bool.not_eq_false] at hs
  simp [takeInvocation, hk, hs] at h

/-! ### A service job starts -/

/-- The oldest job of a stand's queue leaves it for a core (R193). -/
def serviceStarted (c st g : Nat) (x : Ctx) (s : State) : State := serviceLeave st c (runCtx c { x with core := some g } s)

theorem serviceStarted_becomes (c st g : Nat) (x : Ctx) (s : State) :
    CtxBecomes c { x with state := .running, core := some g, waits := [], bytesIn := elemsLen x.srcElems } s (serviceStarted c st g x s) :=
  (ctxBecomes_setCtx c _ s).work rfl

@[simp] theorem beyondWork_hucPut (h : Nat) (r : HucSrc) (n : Nat) (s : State) : beyondWork (hucPut h r n s) = beyondWork s := rfl

/-- A HUC that has taken a request works for its source, or is to (R145). -/
theorem hucPut_busy (h : Nat) (r : HucSrc) (n : Nat) (s : State) : hucBusy r (hucPut h r n s) = true := by
  have hm := mem_of_tget (tget_tset_same s.units.stands h (hucFill { getStand h s with hucHeld := (getStand h s).hucHeld ++ [{ src := r, left := n }] }))
  refine List.any_eq_true.mpr ⟨_, hm, List.any_eq_true.mpr ⟨{ src := r, left := n }, ?_, beq_self_eq_true r⟩⟩
  simp [hucFill, List.append_assoc]

/-- A RANDOM job placed on a stand runs there (R277, R293). -/
abbrev randomPlaced (st : Nat) (x : Ctx) : Ctx := { x with stand := some st, state := .running, waits := [] }

/-! ### A context whose waits are satisfied -/

/-- A context has its leases and waits for no commit (R70, R277). -/
abbrev Leased (x : Ctx) (s : State) : Prop :=
  x.state = .leasing ∧ x.admitted = true ∧ (∀ n, CtxWait.commit n ∉ x.waits) ∧ keysHere x s = true

/-- It starts where its class runs (R292). -/
theorem waitStep_leased {c : Nat} {x : Ctx} {s : State} (h : Leased x s) :
    waitStep c x s = if laneClass (ctxClass x) then startLane c x s else if streamClass (ctxClass x) then startStream c x s
      else if serviceClass (ctxClass x) then startService c x s else if ctxClass x = 0x11 then startRandom c x s
      else if ctxClass x = 0x40 || ctxClass x = 0x41 then startHuc c x s else s := by
  obtain ⟨hs, ha, hn, hk⟩ := h
  unfold waitStep
  rw [if_neg (by simp [hs]), if_neg (by simp [hs]), if_neg (by simp [ha]), if_neg ?commits, if_neg (by simp [hk])]
  case commits =>
    rw [Bool.not_eq_true, List.any_eq_false]
    rintro (_ | _ | _ | _ | _ | _ | _ | _ | _ | _ | n) hw
    case commit => exact absurd hw (hn n)
    all_goals exact Bool.false_ne_true

theorem laneClass_of_streamClass {k : Nat} (h : streamClass k = true) : laneClass k = false := by
  simp [streamClass, laneClass] at *
  omega

theorem not_lane_stream_of_serviceClass {k : Nat} (h : serviceClass k = true) : laneClass k = false ∧ streamClass k = false := by
  simp [serviceClass, streamClass, laneClass] at *
  omega

section Starts
variable {c : Nat} {x : Ctx} {s : State} (hc : c < 8192) (hx : getCtx c s = some x)
include hc hx

theorem exec_contextWaitSatisfied : exec (.contextWaitSatisfied c) s = .next (waitStep c x s) := by
  change execContextWaitSatisfied c s = _
  simp [execContextWaitSatisfied, onUnit, ctxOk, hc, hx]

variable (hl : Leased x s)
include hl

section Lane
variable {slot gen st g : Nat} {k : KeyRec} {y : Ctx} {u : State} (hcl : laneClass (ctxClass x) = true)
  (hh : x.leases.head? = some (slot, gen)) (hk : leaseKey x 0 s = some k) (hst : x.stand = some st) (hf : frozen s = false)
  (hd : dozing st s = false) (he : (getStand st s).lookasideEn = true) (ho : (getStand st s).offline = false)
  (ht : takeIn st x s = (some y, u)) (hg : laneForKey st slot gen u = some g)
include hcl hh hk hst hf hd he ho ht

/-- A lane job placed on a stand that takes it goes to a lane with its data in the buffer (R137, R138). -/
theorem exec_wait_lane : exec (.contextWaitSatisfied c) s = .next (laneDispatch c st slot gen y k u) := by
  have hp : ({ x with stand := some st } : Ctx) = x := by rw [← hst]
  rw [exec_contextWaitSatisfied hc hx, waitStep_leased hl, if_pos hcl]
  simp only [startLane, ctxKey, hh, hk, hst, hp, hf, hd, he, ho, ht, Bool.not_true, Bool.or_self, Bool.false_eq_true, if_false]

include hg

theorem exec_wait_lane_plain (hn : encrypts x.entry k = false) :
    ∃ iv, ∃ t, exec (.contextWaitSatisfied c) s = .next t ∧
      CtxBecomes c { y with lane := some g, state := .running, bytesIn := elemsLen y.srcElems, iv := iv, waits := [] } s t := by
  obtain ⟨-, hy⟩ := takeIn_only ht
  have hn' : encrypts y.entry k = false := by rw [hy]; exact hn
  obtain ⟨iv, ws, h, hw⟩ := beginLane_becomes c st g slot gen y k u
  obtain rfl := hw hn'
  refine ⟨iv, _, (exec_wait_lane hc hx hl hcl hh hk hst hf hd he ho ht).trans ?_, h.after (takeIn_work ht)⟩
  simp only [laneDispatch, hg, hn', Bool.not_false, if_true]

/-- An encryption takes its invocation value on the way, which changes its key's record and no context (R71, R74). -/
theorem exec_wait_lane_encrypts {v : Nat} {w : State} (hn : encrypts x.entry k = true) (hv : takeInvocation slot u = (some v, w)) :
    ∃ iv ws t, exec (.contextWaitSatisfied c) s = .next t ∧ w.ctxs = s.ctxs ∧
      CtxBecomes c { y with lane := some g, state := .running, bytesIn := elemsLen y.srcElems, iv := iv, waits := ws, invocation := some v } w t := by
  obtain ⟨hu, hy⟩ := takeIn_only ht
  have hn' : encrypts y.entry k = true := by rw [hy]; exact hn
  have hkey : tget u.store.c.keys slot = some k := by
    rw [hu]
    rw [leaseKey, ← List.head?_eq_getElem?, hh, Option.bind_some, Option.filter_eq_some_iff] at hk
    exact hk.1
  have hctxs : w.ctxs = s.ctxs := by
    have h := takeInvocation_ctxs slot u
    rw [hv] at h
    rw [h, hu]
  obtain ⟨iv, ws, h, -⟩ := beginLane_becomes c st g slot gen { y with invocation := some v } k w
  refine ⟨iv, ws, _, (exec_wait_lane hc hx hl hcl hh hk hst hf hd he ho ht).trans ?_, hctxs, h⟩
  simp only [laneDispatch, hg, hn', Bool.not_true, Bool.false_eq_true, if_false, valuesSpent_of_taken hkey hv, hv]

end Lane

/-- A digest job takes the lowest free slot of its engine (R160, R176). -/
theorem exec_wait_stream {g i : Nat} {y : Ctx} {u : State} (hcl : streamClass (ctxClass x) = true) (hf : frozen s = false)
    (hn : streamNone x s = false) (hp : streamPlace x s = some g) (hi : freeStream (getDge g s) = some i) (hd : dozing (g / 2) s = false)
    (ht : takeIn (g / 2) { x with stand := some (g / 2) } s = (some y, u)) :
    ∃ t, exec (.contextWaitSatisfied c) s = .next t ∧ CtxBecomes c { y with state := .running, waits := [], bytesIn := elemsLen y.srcElems } s t ∧
      (getDge g t).streams = tset (getDge g s).streams i c := by
  obtain ⟨hu, -⟩ := takeIn_only ht
  have hdge : getDge g (runCtx c y u) = getDge g s := by rw [hu]; rfl
  have hbind : streamBind g c (runCtx c y u) = setDge g { getDge g s with streams := tset (getDge g s).streams i c } (runCtx c y u) := by
    simp only [streamBind, hdge, hi]
  refine ⟨_, ?_, ((ctxBecomes_setCtx c _ u).after (takeIn_work ht)).work (u := streamBind g c (runCtx c y u)) (by rw [hbind]; rfl), ?_⟩
  · rw [exec_contextWaitSatisfied hc hx, waitStep_leased hl, laneClass_of_streamClass hcl, if_neg Bool.false_ne_true, if_pos hcl]
    simp only [startStream, hf, hn, hp, hd, ht, Bool.false_eq_true, if_false]
  · rw [hbind, getDge_setDge_same]

section Service
variable {st g : Nat} {v u : State} {y : Ctx} (hcl : serviceClass (ctxClass x) = true) (hr : restarting s = false) (hst : x.stand = some st)
  (hok : serviceStandOk x s st = true) (hany : (ctxStands x s).any (serviceStandOk x s) = true) (hd : dozing st s = false)
  (hv : v = serviceJoin st c (setCtx c x s)) (hg : serviceGrant st c v = some g) (ht : takeIn st x v = (some y, u))
include hcl hr hst hok hany hd hv hg ht

/-- A service job at the head of its stand's queue starts on a free core, through the HUC where one works for it (R145, R193). -/
theorem exec_wait_service : exec (.contextWaitSatisfied c) s = .next (withHuc c st y u (serviceStarted c st g y)) := by
  have hp : ({ x with stand := some st } : Ctx) = x := by rw [← hst]
  have hhome : serviceHome x s = some st := by simp only [serviceHome, hst, hok, if_true]
  have hdv : dozing st (serviceJoin st c (setCtx c x s)) = false := hd
  obtain ⟨hnl, hns⟩ := not_lane_stream_of_serviceClass hcl
  subst hv
  rw [exec_contextWaitSatisfied hc hx, waitStep_leased hl, hnl, hns, if_neg Bool.false_ne_true, if_neg Bool.false_ne_true, if_pos hcl]
  simp only [startService, hr, hany, hhome, hp, hdv, hg, ht, Bool.not_true, Bool.and_false, Bool.false_eq_true, if_false]
  rfl

theorem exec_wait_service_runs (hh : hucWork y u ≠ 0 → (hucFor st u).isSome = true) :
    ∃ t, exec (.contextWaitSatisfied c) s = .next t ∧
      CtxBecomes c { y with state := .running, core := some g, waits := [], bytesIn := elemsLen y.srcElems } s t ∧
      (hucWork y u ≠ 0 → hucBusy (.ctx c) t = true) := by
  have hjoin : CtxBecomes c x s v := by
    rw [hv]
    exact (ctxBecomes_setCtx c x s).work rfl
  have hstart := hjoin.trans ((serviceStarted_becomes c st g y u).after (takeIn_work ht))
  have hexec := exec_wait_service hc hx hl hcl hr hst hok hany hd hv hg ht
  by_cases hw : hucWork y u = 0
  · rw [withHuc, if_pos hw] at hexec
    exact ⟨_, hexec, hstart, fun h => absurd hw h⟩
  · obtain ⟨k, hk⟩ := Option.isSome_iff_exists.mp (hh hw)
    rw [withHuc, if_neg hw, hk] at hexec
    exact ⟨_, hexec, hstart.work (beyondWork_hucPut _ _ _ _), fun _ => hucPut_busy _ _ _ _⟩

end Service

/-- A RANDOM job asks the port it is placed on for its first piece (R309). -/
theorem exec_wait_random {st : Nat} (hcl : ctxClass x = 0x11) (hp : randomStand x s = some st) (hq : (getBank st s).queue.length < 8)
    (hs : (portStat (getBank st s) (systemEngine x s)).state ≠ 2) :
    ∃ t r, exec (.contextWaitSatisfied c) s = .next t ∧ CtxBecomes c (randomPlaced st x) s t ∧
      (getBank st t).queue = (getBank st s).queue ++ [r] ∧ r.ctx = some c ∧ r.master = systemEngine x s := by
  have hbusy : (decide (8 ≤ (getBank st s).queue.length) || decide ((portStat (getBank st s) (systemEngine x s)).state = 2)) = false := by
    simp [hs, hq]
  have hstart : startRandom c x s = askPiece c (randomPlaced st x) st (systemEngine x s) (setCtx c (randomPlaced st x) s) := by
    simp only [startRandom, hp, hbusy]
    rfl
  refine ⟨_, { master := systemEngine x s, owner := 0, priv := true, addr := 0, count := (pieceBytes x + 7) / 8, ctx := some c }, ?_,
    (ctxBecomes_setCtx c (randomPlaced st x) s).work (u := startRandom c x s) (by rw [hstart]; rfl), ?_, rfl, rfl⟩
  · rw [exec_contextWaitSatisfied hc hx, waitStep_leased hl, hcl]
    rfl
  · rw [hstart, askPiece, getBank_setBank_same]
    rfl

end Starts

/-! ### A job's own end -/

@[simp] theorem scatterFrom_nil (es : List Elem) (off : Nat) : scatterFrom es off [] = [] := by
  induction es generalizing off with
  | nil => rfl
  | cons e r ih =>
    unfold scatterFrom
    split
    · exact ih _
    · rfl

/-- A context with the output that its drain will write (R277). -/
abbrev withOutput (out : Bytes) (x : Ctx) : Ctx := { x with writes := scatterFrom x.dstElems 0 out }

section Settles
variable {x : Ctx} {r : JobEnd} (hi : x.input.isSome = false) (h11 : ctxClass x ≠ 0x11)
include hi h11

/-- A job that failed its check settles with that status (R278, R314). -/
theorem jobSettle_fails (hs : r.status ≠ 0) (c : Nat) (s : State) : ∃ info, jobSettle c x r s =
    settle c { status := r.status, info := info, done := r.released, result := r.result } (setCtx c (withOutput r.out x) s) := by
  unfold jobSettle
  simp only [hi, h11, Bool.false_or, decide_false, Bool.false_eq_true, if_false]
  rw [if_pos hs]
  exact ⟨_, rfl⟩

/-- A job with no AUX area to write settles OK with the bytes of its output (R277, R278). -/
theorem jobSettle_ok (hs : r.status = 0) (ha : r.aux = none) (c : Nat) (s : State) : jobSettle c x r s =
    settle c { info := runInfo x, done := r.out.length, result := r.result } (setCtx c (withOutput r.out x) s) := by
  unfold jobSettle
  simp only [hi, h11, ha, hs, Bool.false_or, decide_false, Bool.false_and, Bool.false_eq_true, if_false, ne_eq, not_true_eq_false]

end Settles

/-- A context in a state that may settle, and its settlement (R278). -/
theorem setCtx_settle_becomes {y : Ctx} (hy : unsettled y.state = true) (c : Nat) (o : CtxOutcome) (s : State) :
    CtxBecomes c { y with state := .draining, outcome := some o } s (settle c o (setCtx c y s)) :=
  (ctxBecomes_setCtx c y s).trans (settle_becomes (getCtx_setCtx_same c y s) hy o)

/-- A job whose data meets no fault settles with its engine's result, counted in its unit (R277, R278). -/
theorem finalEnd_completes {c : Nat} {x : Ctx} {bits : Bytes} {r : JobEnd} {s : State} (hr : jobEnd x bits s = r) (hj : jobFault x r.out.length s = none) :
    finalEnd c x bits s = jobSettle c { x with lane := none, core := none } r (countUnit c x r s) := by
  simp only [finalEnd, hr, hj]

theorem jobEnd_hash {x : Ctx} {bits : Bytes} {s : State} (hk : leaseKey x 0 s = none) (hc : ctxClass x = 8) :
    jobEnd x bits s = { out := digest (classSel x.entry) (jobData x s), result := (digest (classSel x.entry) (jobData x s)).length } := by
  simp only [jobEnd, hk, hc, if_true, streamEnd]

theorem jobEnd_cmacVer {x : Ctx} {bits : Bytes} {k : KeyRec} {s : State} (hk : leaseKey x 0 s = some k) (hc : ctxClass x = 7) :
    jobEnd x bits s = verdictEnd ((aesCmac (material k) (jobData x s)).take (fld x.entry 0x2C 1) == auxTag x) := by
  simp only [jobEnd, hk, hc, laneEnd]
  rfl

theorem drawBits_none {x : Ctx} {s : State} (h : needBits x s = 0) : drawBits x s = (some [], s) := if_pos h

/-- A fault in a job's data ends it with the element and the offset, and nothing delivered where nothing is released early (R284, R285). -/
theorem faultEnd_becomes {x : Ctx} (hr : x.state = .running) (c : Nat) (dst : Bool) (elem off before : Nat) (s : State) :
    ∃ z o, CtxBecomes c z s (faultEnd c x dst elem off before s) ∧ z.state = .draining ∧ z.outcome = some o ∧ o.status = 0x0502 ∧
      o.elem = elem + (if dst then 0x8000 else 0) ∧ o.offset = off ∧ (x.early = false → o.done = 0) := by
  unfold faultEnd
  dsimp only
  refine ⟨_, _, setCtx_settle_becomes (by rw [hr]; rfl) c _ s, rfl, rfl, rfl, rfl, rfl, fun he => ?_⟩
  simp only [he, Bool.not_false, if_true]

section Ends
variable {c : Nat} {x : Ctx} {s : State} (hc : c < 8192) (hx : getCtx c s = some x)
include hc hx

theorem exec_engineEnd (e : EngineResult) : exec (.engineEnd c e) s = .next (engineStep c x e s) := by
  change execEngineEnd c e s = _
  simp [execEngineEnd, onUnit, ctxOk, hc, hx]

variable (hr : x.state = .running)
include hr

/-- The final end of a job that draws no bits (R277, R278). -/
theorem exec_engineEnd_final (hn : notEnded c x s = false) (hb : needBits x s = 0) : exec (.engineEnd c .final) s = .next (finalEnd c x [] s) := by
  rw [exec_engineEnd hc hx]
  simp only [engineStep, hr, hn, drawBits_none hb, bne_self_eq_false, Bool.false_eq_true, if_false]

/-- A job whose data meets no fault and whose check fails drains with that status (R278). -/
theorem exec_engineEnd_fails {r : JobEnd} (hn : notEnded c x s = false) (hb : needBits x s = 0) (hi : x.input.isSome = false) (h11 : ctxClass x ≠ 0x11)
    (hj : jobEnd x [] s = r) (hf : jobFault x r.out.length s = none) (hs : r.status ≠ 0) :
    ∃ t info, exec (.engineEnd c .final) s = .next t ∧ CtxBecomes c { withOutput r.out x with
      lane := none, core := none, state := .draining,
      outcome := some { status := r.status, info := info, done := r.released, result := r.result } } s t := by
  obtain ⟨info, he⟩ := jobSettle_fails (x := { x with lane := none, core := none }) hi h11 hs c (countUnit c x r s)
  refine ⟨_, info, (exec_engineEnd_final hc hx hr hn hb).trans (congrArg _ ((finalEnd_completes hj hf).trans he)),
    (setCtx_settle_becomes (y := withOutput r.out { x with lane := none, core := none }) ?_ c _ _).after (beyondWork_countUnit c x r s)⟩
  simp only [hr, unsettled]

/-- A job whose data meets no fault and that writes no AUX area drains with its output (R277, R278). -/
theorem exec_engineEnd_ok {r : JobEnd} (hn : notEnded c x s = false) (hb : needBits x s = 0) (hi : x.input.isSome = false) (h11 : ctxClass x ≠ 0x11)
    (hj : jobEnd x [] s = r) (hf : jobFault x r.out.length s = none) (hs : r.status = 0) (ha : r.aux = none) :
    ∃ t, exec (.engineEnd c .final) s = .next t ∧ CtxBecomes c { withOutput r.out x with
      lane := none, core := none, state := .draining, outcome := some { info := runInfo x, done := r.out.length, result := r.result } } s t := by
  have he := jobSettle_ok (x := { x with lane := none, core := none }) hi h11 hs ha c (countUnit c x r s)
  refine ⟨_, (exec_engineEnd_final hc hx hr hn hb).trans (congrArg _ ((finalEnd_completes hj hf).trans he)),
    (setCtx_settle_becomes (y := withOutput r.out { x with lane := none, core := none }) ?_ c _ _).after (beyondWork_countUnit c x r s)⟩
  simp only [hr, unsettled]

/-- An address fault in an element that the job's engine reads or writes (R284). -/
theorem exec_engineEnd_addressFault {dst : Bool} {i off : Nat} {e : Elem} (hi : x.input = none) (h0 : i ≠ 0)
    (he : (if dst then x.dstElems else x.srcElems)[i - 1]? = some e) (hl : off < e.len) (hg : dst = true ∨ x.ingress = none ∨ heldWhole x = false) :
    exec (.engineEnd c (.addressFault dst i off)) s =
      .next (faultEnd c x dst i off (elemsLen ((if dst then x.dstElems else x.srcElems).take (i - 1)) + off) s) := by
  have hin : (x.ingress.isSome && heldWhole x && !dst) = false := by obtain h | h | h := hg <;> simp [h]
  rw [exec_engineEnd hc hx]
  simp only [engineStep, hr, he, hi, h0, hin, Nat.not_le.mpr hl, bne_self_eq_false, Option.isSome_none, Bool.false_eq_true, decide_false, Bool.or_self, if_false]

/-- A running job whose random bits do not come ends with ENTROPY_UNAVAILABLE and what it has delivered (R132, R196, R309). -/
theorem exec_entropyWaitExpiry_starved (hs : starved x s = true) :
    ∃ t z o, exec (.entropyWaitExpiry (.context c)) s = .next t ∧ CtxBecomes c z s t ∧ z.state = .draining ∧ z.outcome = some o ∧ o.status = 0x0701 ∧
      (ctxClass x ≠ 0x11 → o.done = 0) ∧ (ctxClass x = 0x11 → o.done = x.delivered.length) := by
  have hexec : exec (.entropyWaitExpiry (.context c)) s = .next (entropyEnd c x s) := by
    change execEntropyWaitExpiry (.context c) s = _
    simp [execEntropyWaitExpiry, onUnit, ctxOk, hc, hx]
  have hu : unsettled x.state = true := by rw [hr]; rfl
  rw [hexec]
  unfold entropyEnd
  simp only [hr, hs, beq_self_eq_true, Bool.and_self, Bool.true_or, if_true]
  split
  · rename_i h
    exact ⟨_, _, _, rfl, settle_becomes hx hu _, rfl, rfl, rfl, fun hn => absurd h hn, fun _ => rfl⟩
  · rename_i h
    exact ⟨_, _, _, rfl, settle_becomes hx hu _, rfl, rfl, rfl, fun _ => rfl, fun he => absurd he h⟩

end Ends

/-! ### Draining -/

/-- The output writes of a context that serves no gate call go to host memory (R277). -/
theorem foldl_ctxWrite {x : Ctx} {s : State} (h : ctxCall x s = none) (ws : List (Nat × Bytes)) :
    ws.foldl (fun s w => ctxWrite x w s) s = { s with host.mem := ws.foldl (fun m w => memWriteN m w.1 w.2) s.host.mem } := by
  induction ws generalizing s with
  | nil => rfl
  | cons w ws ih =>
    have hw : ctxWrite x w s = hostWrite w.1 w.2 s := by rw [ctxWrite, h]
    rw [List.foldl_cons, hw, ih (s := hostWrite w.1 w.2 s) h]
    rfl

/-- A context that holds nothing any more (R277, R279). -/
abbrev drainedCtx (x : Ctx) : Ctx := { x with leases := [], lane := none, core := none, stand := none, ingress := none, writes := [], waits := [] }

/-- The host memory with a context's output written. -/
abbrev outputWritten (x : Ctx) (s : State) : State := { s with host.mem := x.writes.foldl (fun m w => memWriteN m w.1 w.2) s.host.mem }

/-- The units let go of a context (R145, R160, R222, R277). -/
def unitsLeft (c : Nat) (x : Ctx) (s : State) : State := pieceCancel c (hucDrop (.ctx c) (countStream c x false (cutService x s)))

theorem beyondWork_unitsLeft (c : Nat) (x : Ctx) (s : State) : beyondWork (unitsLeft c x s) = beyondWork s := by
  simp only [unitsLeft, beyondWork_pieceCancel, beyondWork_hucDrop, beyondWork_countStream, beyondWork_cutService]

/-- A context that releases nothing early drains by its writes, and holds nothing after (R277, R279). -/
theorem drainCtx_eq {x : Ctx} {s : State} (he : x.early = false) (hg : ctxCall x s = none) (c : Nat) :
    drainCtx c x s = setCtx c (drainedCtx x) (unitsLeft c x (outputWritten x s)) := by
  have hw : earlyWrites x s = ([], s) := by
    unfold earlyWrites
    split
    · rfl
    · simp [he]
  have hn : (if (x.outcome.map (·.status)) != some St.tagMismatch then earlyWrites x s else ([], s)) = ([], s) := by
    rw [hw, ite_self]
  unfold drainCtx
  rw [hn]
  dsimp only
  rw [List.nil_append, foldl_ctxWrite hg]
  rfl

theorem drainCtx_becomes {x : Ctx} {s : State} (he : x.early = false) (hg : ctxCall x s = none) (c : Nat) :
    CtxBecomes c (drainedCtx x) (outputWritten x s) (drainCtx c x s) := by
  rw [drainCtx_eq he hg]
  exact (ctxBecomes_setCtx c _ _).after (beyondWork_unitsLeft c x _)

theorem pieceCancel_stands (c : Nat) (s : State) : (pieceCancel c s).units.stands = s.units.stands := by
  have cancel (st m : Nat) (u : State) : (cancelPort st m u).units.stands = u.units.stands := by
    unfold cancelPort
    dsimp only
    split <;> rfl
  unfold pieceCancel
  refine foldl_keeps (f := fun u : State => u.units.stands) (fun u st => ?_) stands s
  split
  · exact cancel _ _ _
  · rfl

/-- No HUC works for a source whose requests have left (R145). -/
theorem hucBusy_hucDrop (r : HucSrc) (s : State) : hucBusy r (hucDrop r s) = false := by
  refine List.any_eq_false.mpr fun p hp => ?_
  obtain ⟨q, -, rfl⟩ := List.mem_map.mp hp
  simp [hucKeep, hucFill]

theorem hucBusy_of_stands {s t : State} (h : t.units.stands = s.units.stands) (r : HucSrc) : hucBusy r t = hucBusy r s := by
  unfold hucBusy
  rw [h]

theorem unitsLeft_idle (c : Nat) (x : Ctx) (s : State) : hucBusy (.ctx c) (unitsLeft c x s) = false := by
  rw [unitsLeft, hucBusy_of_stands (pieceCancel_stands c _), hucBusy_hucDrop]

theorem hucBusy_setCtx (r : HucSrc) (c : Nat) (x : Ctx) (s : State) : hucBusy r (setCtx c x s) = hucBusy r s := rfl

theorem freed_ctxGone (c : Nat) (s : State) : Freed c s (ctxGone c s) := freed_of_ctxGone rfl rfl rfl rfl

section Drains
variable {c : Nat} {x : Ctx} {s : State} (hc : c < 8192) (hx : getCtx c s = some x)
include hc hx

/-- A drained context whose function takes its writes has written them, holds nothing and posts (R277, R578). -/
theorem exec_contextDrained_draining (hd : x.state = .draining) (he : x.early = false) (hg : ctxCall x s = none)
    (hf : ∀ fn q n, x.src = .queue fn q n → inD3 fn s = false) :
    ∃ t, exec (.contextDrained c) s = .next t ∧ CtxBecomes c { drainedCtx x with state := .posting } (outputWritten x s) t ∧ hucBusy (.ctx c) t = false := by
  have hget := (drainCtx_becomes he hg c).1
  have hexec : exec (.contextDrained c) s = .next (setCtx c { drainedCtx x with state := .posting } (drainCtx c x s)) := by
    change execContextDrained c s = _
    unfold execContextDrained
    rw [hx]
    dsimp only
    rw [onUnit, if_pos (show ctxOk c = true from decide_eq_true hc), if_pos (beq_iff_eq.mpr hd), if_neg ?d3, hget]
    case d3 =>
      split
      · rename_i fn q n h
        rw [hf fn q n h]
        exact Bool.false_ne_true
      · exact Bool.false_ne_true
  refine ⟨_, hexec, (drainCtx_becomes he hg c).trans (ctxBecomes_setCtx c _ _), ?_⟩
  rw [drainCtx_eq he hg, hucBusy_setCtx, hucBusy_setCtx, unitsLeft_idle]

/-- A voided context of a mailbox is free once drained (R277). -/
theorem exec_contextDrained_voided {mb : Mb} (hv : x.state = .voided) (hs : x.src = .mailbox mb) (he : x.early = false) :
    ∃ t, exec (.contextDrained c) s = .next t ∧ Freed c s t := by
  have hg : ctxCall x s = none := by rw [ctxCall, hs]
  obtain ⟨hget, hother, hstore, -⟩ := drainCtx_becomes he hg c
  have hfree := freeCtx_noQueue hget (by simp [hs]) false
  have hexec : exec (.contextDrained c) s = .next (ctxGone c (drainCtx c x s)) := by
    change execContextDrained c s = _
    unfold execContextDrained
    rw [hx]
    dsimp only
    rw [onUnit, if_pos (show ctxOk c = true from decide_eq_true hc), if_neg (by simp [hv]), if_pos (beq_iff_eq.mpr hv), hfree]
  obtain ⟨hgone, hrest, hst⟩ := freed_ctxGone c (drainCtx c x s)
  exact ⟨_, hexec, hgone, fun i hi => (hrest i hi).trans (hother i hi), hst.trans hstore⟩

end Drains

/-! ### The statement -/

/-- Settles O42: the two ends of a deadline, the four ways to start, the ends of a run, and the two ways to drain. -/
theorem contextsRunAndEnd : Obligations.ContextsRunAndEnd := by
  unfold Obligations.ContextsRunAndEnd
  refine fun c x s hc hx => ⟨exec_deadlineExpiry_settled hc hx, fun hu => ?deadline, ?lane, ?stream, ?service, ?random, ?hash, ?verify, ?fault, ?drained,
    ?voided, ?starved⟩
  case deadline =>
    obtain ⟨z, o, ⟨hz, hother, hstore, hhost⟩, hst, ho, hstatus, hidle⟩ := abort_becomes hx hu (if restartWait x s then St.deviceRestarting else St.timeout)
    exact ⟨_, z, o, exec_deadlineExpiry_open hc hx hu, hz, hst, ho, hstatus, hidle, hother, hstore, hhost⟩
  case lane =>
    intro slot gen k st g y u hl ha hn hk hcl hh hkey hst hf hd he ho ht hg
    obtain ⟨-, hy⟩ := takeIn_only ht
    refine ⟨fun hp => ?plain, fun v w hp hv => ?encrypts⟩
    case plain =>
      obtain ⟨iv, t, hexec, hz, hother, hstore, -⟩ := exec_wait_lane_plain hc hx ⟨hl, ha, hn, hk⟩ hcl hh hkey hst hf hd he ho ht hg hp
      exact ⟨t, _, hexec, hz, rfl, rfl, by rw [hy]; exact hst, rfl, rfl, by rw [hy], hother, hstore⟩
    case encrypts =>
      obtain ⟨iv, ws, t, hexec, hctxs, hz, hother, hstore, -⟩ := exec_wait_lane_encrypts hc hx ⟨hl, ha, hn, hk⟩ hcl hh hkey hst hf hd he ho ht hg hp hv
      exact ⟨t, _, hexec, hz, rfl, rfl, rfl, fun i hi => (hother i hi).trans (getCtx_of_ctxs hctxs i), hstore⟩
  case stream =>
    intro g i y u hl ha hn hk hcl hf hnone hp hi hd ht
    obtain ⟨-, hy⟩ := takeIn_only ht
    obtain ⟨t, hexec, ⟨hz, hother, hstore, -⟩, hslots⟩ := exec_wait_stream hc hx ⟨hl, ha, hn, hk⟩ hcl hf hnone hp hi hd ht
    refine ⟨t, _, hexec, hz, rfl, by rw [hy], ?_, fun j hj => ?_, hother, hstore⟩
    · rw [hslots, tget_tset_same]
    · rw [hslots, tget_tset_other _ _ _ _ hj]
  case service =>
    intro st g v y u hl ha hn hk hcl hr hst hok hany hd hv hg ht hh
    obtain ⟨-, hy⟩ := takeIn_only ht
    obtain ⟨t, hexec, ⟨hz, hother, hstore, -⟩, hbusy⟩ := exec_wait_service_runs hc hx ⟨hl, ha, hn, hk⟩ hcl hr hst hok hany hd hv hg ht hh
    exact ⟨t, _, hexec, hz, rfl, rfl, by rw [hy]; exact hst, rfl, hbusy, hother, hstore⟩
  case random =>
    intro st hl ha hn hk hcl hp hq hs
    obtain ⟨t, r, hexec, ⟨hz, -, hstore, -⟩, hqueue, hctx, hmaster⟩ := exec_wait_random hc hx ⟨hl, ha, hn, hk⟩ hcl hp hq hs
    exact ⟨t, _, r, hexec, hz, rfl, hqueue, hctx, hmaster, hstore⟩
  case hash =>
    intro hr hn hcl hnl hi hcall hlane hf
    have hk : leaseKey x 0 s = none := by simp [leaseKey, hnl]
    obtain ⟨t, hexec, hz, hother, hstore, hhost⟩ := exec_engineEnd_ok hc hx hr hn (by simp only [needBits, hk]) (by rw [hi]; rfl) (by rw [hcl]; decide)
      (jobEnd_hash hk hcl) hf rfl rfl
    exact ⟨t, _, _, hexec, hz, rfl, rfl, rfl, rfl, rfl, rfl, rfl, hother, hhost, hstore⟩
  case verify =>
    intro k hr hn hcl hk hi hcall hf
    have hb : needBits x s = 0 := by simp only [needBits, hk, hcl]
    have hin : x.input.isSome = false := by rw [hi]; rfl
    have h11 : ctxClass x ≠ 0x11 := by rw [hcl]; decide
    by_cases hv : (aesCmac (material k) (jobData x s)).take (fld x.entry 0x2C 1) = auxTag x
    · have hj : jobEnd x [] s = {} := by rw [jobEnd_cmacVer hk hcl, hv, beq_self_eq_true]; rfl
      obtain ⟨t, hexec, hz, -, hstore, hhost⟩ := exec_engineEnd_ok hc hx hr hn hb hin h11 hj hf rfl rfl
      exact ⟨t, _, _, hexec, hz, rfl, rfl, scatterFrom_nil _ _, rfl, (if_pos hv).symm, hhost, hstore⟩
    · have hj : jobEnd x [] s = { status := St.tagMismatch } := by rw [jobEnd_cmacVer hk hcl, beq_false_of_ne hv]; rfl
      obtain ⟨t, info, hexec, hz, -, hstore, hhost⟩ := exec_engineEnd_fails hc hx hr hn hb hin h11 hj hf (by decide)
      exact ⟨t, _, _, hexec, hz, rfl, rfl, scatterFrom_nil _ _, rfl, (if_neg hv).symm, hhost, hstore⟩
  case fault =>
    intro dst i off e hr hi h0 he hl hg
    obtain ⟨z, o, ⟨hz, -, hstore, hhost⟩, hst, ho, hstatus, helem, hoff, hdone⟩ := faultEnd_becomes hr c dst i off _ s
    exact ⟨_, z, o, exec_engineEnd_addressFault hc hx hr hi h0 he hl hg, hz, hst, ho, hstatus, by rw [helem]; cases dst <;> rfl, hoff, hdone, hhost, hstore⟩
  case drained =>
    intro hd he hg hf
    obtain ⟨t, hexec, ⟨hz, hother, hstore, hhost⟩, hidle⟩ := exec_contextDrained_draining hc hx hd he hg hf
    exact ⟨t, _, hexec, hz, rfl, rfl, rfl, rfl, rfl, by rw [hhost], hidle, hother, hstore⟩
  case voided =>
    intro mb hv hs he
    exact exec_contextDrained_voided hc hx hv hs he
  case starved =>
    intro hr hs
    obtain ⟨t, z, o, hexec, ⟨hz, -, hstore, hhost⟩, hst, ho, hstatus, hn, hr11⟩ := exec_entropyWaitExpiry_starved hc hx hr hs
    exact ⟨t, z, o, hexec, hz, hst, ho, hstatus, hn, hr11, hhost, hstore⟩

end Sys2Proof.Machine
end

section
/-! The step, the queue, the COMMIT partition, reset and refusals (O1, O2, O3, O4, O5, O6): what one step is, what each command's row can answer, what the registers read at reset, and the statements they make up. -/

namespace Sys2Proof.Machine

open Sys2Proof.Safety

/-! ### The step -/

/-- Settles O1. -/
theorem stepRunsTheFrontCommand : Obligations.StepRunsTheFrontCommand := by
  unfold Obligations.StepRunsTheFrontCommand
  intro c rest s h
  simp only [step, h]

/-- Settles O2. -/
theorem emptyQueueIdles : Obligations.EmptyQueueIdles := by
  unfold Obligations.EmptyQueueIdles
  intro s h
  simp only [step, h, idle]

/-- A step is the front command's effect on the state with the queue's rest, whose clock, queue and wear are as `exec_worn` says. -/
theorem step_worn {c : Instr} {rest : List Instr} {s t : State} (hq : s.pending = c :: rest) (h : step s = .next t) :
    Worn (s.withQueue rest) t :=
  exec_worn c (s.withQueue rest) t (by rw [← h, stepRunsTheFrontCommand c rest s hq])

/-- Settles O3: no command touches the queue it is given or the clock. -/
theorem queueIsFirstInFirstOut : Obligations.QueueIsFirstInFirstOut := by
  unfold Obligations.QueueIsFirstInFirstOut
  intro c rest s t hq h
  obtain ⟨hpending, hus, -⟩ := step_worn hq h
  exact ⟨hpending, hus⟩

/-- Settles O4: an idle step leaves the partition, and a command keeps it legal and only wears it (`exec_worn`). -/
theorem commitPartitionStaysLegal : Obligations.CommitPartitionStaysLegal := by
  unfold Obligations.CommitPartitionStaysLegal
  intro s t hwf h
  cases hq : s.pending with
  | nil =>
    rw [emptyQueueIdles s hq] at h
    cases h
    exact ⟨hwf, commitLe_rfl⟩
  | cons c rest =>
    obtain ⟨-, -, hcommit⟩ := step_worn hq h
    exact hcommit hwf

/-! ### What a row can answer -/

/-- The outcome goes on, or is the fault of a unit the device does not have; it goes on where the command is well formed. -/
def Answers (wf : Bool) (o : Out) : Prop := (wf = true → Continues o) ∧ (Continues o ∨ o = .fault .noSuchUnit)

section Rows
variable {wf c : Bool} {t : State}

theorem answers_next : Answers wf (.next t) := ⟨fun _ => ⟨t, rfl⟩, .inl ⟨t, rfl⟩⟩

theorem answers_onUnit (h : wf = true → c = true) : Answers wf (onUnit c t) := by
  cases c with
  | true => exact answers_next
  | false => exact ⟨fun hw => absurd (h hw) Bool.false_ne_true, .inr rfl⟩

/-- The guard of a row written out as a choice. -/
theorem answers_ite {p : Prop} [Decidable p] (h : wf = true → p) : Answers wf (if p then .next t else .fault .noSuchUnit) := by
  by_cases hp : p
  · rw [if_pos hp]; exact answers_next
  · exact ⟨fun hw => absurd (h hw) hp, .inr (if_neg hp)⟩

end Rows

theorem mbOk_eq_wfMb (mb : Mb) : mbOk mb = wfMb mb := by cases mb <;> rfl
theorem fnOk_eq_wfFn (fn : Fn) : fnOk fn = wfFn fn := by cases fn <;> rfl
theorem qidOk_eq_wfQid (fn : Fn) (qid : Nat) : qidOk fn qid = wfQid fn qid := by cases fn <;> rfl
theorem readOk_eq_wfRead (r : HostRead) : readOk r = wfRead r := by
  cases r with
  | sq fn qid => exact qidOk_eq_wfQid fn qid
  | ctx => rfl
  | blob mb => exact mbOk_eq_wfMb mb
  | jrBuffer => rfl
  | frame fn ring => exact qidOk_eq_wfQid fn ring

theorem answers_mailbox {mb : Mb} {t : State} : Answers (wfMb mb) (onUnit (mbOk mb) t) := answers_onUnit fun h => (mbOk_eq_wfMb mb).trans h
theorem answers_function {fn : Fn} {t : State} : Answers (wfFn fn) (onUnit (fnOk fn) t) := answers_onUnit fun h => (fnOk_eq_wfFn fn).trans h
theorem answers_queue {fn : Fn} {qid : Nat} {t : State} : Answers (wfQid fn qid) (onUnit (qidOk fn qid) t) :=
  answers_onUnit fun h => (qidOk_eq_wfQid fn qid).trans h
theorem answers_read {r : HostRead} {t : State} : Answers (wfRead r) (onUnit (readOk r) t) := answers_onUnit fun h => (readOk_eq_wfRead r).trans h

/-! ### The rows that split before they answer -/

theorem execRegisterWrite_answers {at_ : RegPort} {off n v : Nat} {s : State} : Answers (wfPort at_) (execRegisterWrite at_ off n v s) := by
  cases at_ with
  | internal tag => exact answers_onUnit fun h => by simp only [wfPort, wfTag, Bool.and_eq_true] at h; exact h.1.1.1.1
  | pfBar0 | pfBar2 | vfBar0 | vfBar2 | vfPlain => exact answers_onUnit id

theorem execEntropyWaitExpiry_answers {who : Waiter} {s : State} : Answers (wfWaiter who) (execEntropyWaitExpiry who s) := by
  cases who with
  | mailbox mb => exact answers_mailbox
  | context c => exact answers_onUnit id
  | port st m => exact answers_onUnit fun h => (Bool.and_eq_true_iff.mp h).1
  | gate t => exact answers_next
  | start => exact answers_next

theorem execServiceFaultClear_answers {kind : Nat} {s : State} : Answers (decide (kind < 8)) (execServiceFaultClear kind s) := by
  unfold execServiceFaultClear
  by_cases h : kind < 2
  · rw [if_pos h]; exact answers_next
  · rw [if_neg h]; exact answers_ite of_decide_eq_true

theorem execLookoutReset_answers {wf : Bool} {s : State} : Answers wf (execLookoutReset s) := by
  unfold execLookoutReset
  split
  · exact answers_next
  · split <;> exact answers_next

theorem execSecondsTick_answers {wf : Bool} {s : State} : Answers wf (execSecondsTick s) := by
  unfold execSecondsTick
  dsimp only
  split <;> exact answers_next

theorem execLogRecordProgrammed_answers {wf : Bool} {s : State} : Answers wf (execLogRecordProgrammed s) := by
  unfold execLogRecordProgrammed
  split
  · exact answers_next
  · split <;> exact answers_next

theorem execLogPageOpen_answers {wf : Bool} {s : State} : Answers wf (execLogPageOpen s) := by
  unfold execLogPageOpen
  split
  · exact answers_next
  · split <;> exact answers_next

theorem execDbgToken_answers {wf : Bool} {b : Bytes} {s : State} : Answers wf (execDbgToken b s) := by
  unfold execDbgToken
  split <;> exact answers_next

theorem execHbmError_answers {wf : Bool} {a m : Nat} {s : State} : Answers wf (execHbmError a m s) := by
  unfold execHbmError
  split <;> exact answers_next

theorem execGetLogTail_answers {wf : Bool} {n : Nat} {s : State} : Answers wf (execGetLogTail n s) := by
  unfold execGetLogTail
  split <;> exact answers_next

/-- What each command's row answers: the kinds of row are few, and each arm names its own. -/
theorem exec_answers (c : Instr) (s : State) : Answers (WellFormed c) (exec c s) := by
  cases c with
  | powerOn | mainPowerLost | resetN | perstBothLinks | startStageDone | startStageTimeout | coldStartAfterOrder | journalBlockWrite
    | journalPageSweep | commitBucketRefill | commitDone | jringInputBlock | checkpointEpoch | wardenHeartbeat | wardenFailover | standbyResumed
    | standbyResumeTimeout | heartbeatTimeout | pairReloadDone | appletStopGraceExpiry | handoverStepDone | probationEnd | hwdRestartReq
    | restartStageDone | restartTimeout | hwdDbgCtrlNew | hwdDbgCtrlRevoke | tapReset | extest | idcode | clamp | highz | bypass | dbgNonce
    | dbgAccess | dbgStatus | secondsFloorWrite | svoutRampEnd | svoutRetryTimer | svoutCollapse | faultReport | firebreakSelfCheck
    | pllRelockAttempt | logRecordQueue | watchEntryTimeout | wakeIn | i2cAddressMatch | wakeTimer | wakeStepDone | wakeTimeout | i2cTimeout
    | setEndpointId | getEndpointId | getEndpointUuid | getMctpVersionSupport | getMessageTypeSupport | getVendorDefinedMsgSupport | getStatus
    | spdmOverMctp | backupDomainLoss | gateRandom | gateCounterCreate | gateCounterInc | gateCounterRead | keyOp | keyInfo | getSensors | getStands
    | commitPeriodic | samplePreload | tpScan | loopCheck | fbAliveToggle | meterFlush => exact answers_next
  | keyGenerate | keyImport | keyExport | keyDerive | keyDestroy | keyReplace | keyGetAttr | keySetAttr | storeCommit | storeStatus | storeRecover
    | counterCreate | counterInc | counterRead | counterDestroy | ownerCreate | ownerSeal | ownerQuery | ownerSetQuota | ownerSuspend | ownerDelete
    | ownerEvidence | credAdd | credRevoke | policyCreate | policyModify | policyQuery | quorumOpen | quorumApprove | quorumExecute | quorumCancel
    | replicaPrepare | replicaExport | replicaApply | ownerBackup | ownerRestore | storeRebase | seedbankConfig | seedbankStatus | queueCreate
    | queueDestroy | queueQuery | jringSetup | jringStop | deviceIdentify | deviceStatus | deviceEvidence | reqidQuery | portConfig | portSet
    | portStatus | portRetrain | secyCreate | secySet | secyDestroy | scAdd | scRemove | saAdd | saRemove | saSwitch | saSet | macsecStats
    | frameRingCreate | appletTrust | appletLoad | appletStart | appletStop | appletUnload | appletQuery | gladeStatus | vfBind | vfUnbind | vfQuery
    | vfSetLimits | vfGrant | vfRevoke | vfGrants | vfQuiesce | vfResume | vfFreeze | vfThaw | vfPrepare | vfSave | vfRestore | worldmapWrite
    | worldmapRead | imageStage | imageQuery | updateApply | updateStatus | updateAbandon | imageCommit | wardenHandover | calibrate | calQuery
    | lcNonce | lcTransition | lcResume | lcAnchorRefresh | debugGrant | debugStatus | debugRevoke | lookoutConfig | lookoutQuery | lookoutRelease
    | svoutCtrl | firebreakQuery | firebreakConfig | firebreakInject | logStatus | logExport | logAck | logClear | meterStatus | meterClose
    | meterRead | meterSetUtc | meterConfig | powerWatch | powerConfig | kcwAssign | kcwRelease | kcwMap | kcwQuery | mailboxAccept
    | mailboxDeadlineExpiry => exact answers_mailbox
  | busMasterEnableClear | d3hotEntry | d0Return | msixUnmask | busMasterEnableSet | atsInvalidateRequest => exact answers_function
  | qmgSqTail | qmgCqHead | sqFetch | cqCoalTimer | frameRingTx => exact answers_queue
  | hostReadCompletion | pcieCompletionTimeout => exact answers_read
  | fabricTransaction => exact answers_onUnit fun h => (Bool.and_eq_true_iff.mp h).2
  | sbkPortReq | sbkPortCancel => exact answers_onUnit fun h => (Bool.and_eq_true_iff.mp h).1
  | registerWrite => exact execRegisterWrite_answers
  | seedbankHealthFail | seedbankWindowClose | seedbankStartupDone => exact answers_onUnit fun h => decide_eq_true (Nat.le_of_lt_succ (of_decide_eq_true h))
  | entropyWaitExpiry => exact execEntropyWaitExpiry_answers
  | lookoutEvent | sourceRearm | freezeHoldExpiry => exact answers_ite id
  | fbkInjectGo | forceLow | trlVectorSend | wearIndexUpdate => exact answers_ite of_decide_eq_true
  | serviceFaultClear => exact execServiceFaultClear_answers
  | lookoutReset => exact execLookoutReset_answers
  | logRecordProgrammed => exact execLogRecordProgrammed_answers
  | logPageOpen => exact execLogPageOpen_answers
  | secondsTick => exact execSecondsTick_answers
  | dbgToken => exact execDbgToken_answers
  | hbmError => exact execHbmError_answers
  | getLogTail => exact execGetLogTail_answers
  | perstAssert | linkDown | perstDeassert | pfFlr | qmgJrPost | qmgJrEvhead | qmgJrAck | doeRequest | pcieLinkUp | vfEnableSet | vfFlr
    | tdispMessage | vfmDoorbell | vfQuiesceComplete | vfFreezeComplete | drainLimitExpiry | keyDrainDone | sapwoodLoadDone | coppiceStep
    | laneSentinel | laneFailure | spareLaneKatDone | laneContextPrepare | checkerMismatch | checkerKatDone | checkerReseed | hucBlockDone
    | hucFailure | sbkPortRequestDone | dozeEntry | standWake | standWakeDone | engineEnd | deadlineExpiry | contextWaitSatisfied | contextDrained
    | completionPost | dgeCtrlConfig | dgeAbort | dgeKeyClr | dgeRelease0 | dgeSave | dgeRestore | dgeSaveDone | dgeData | dgeLastw | dgeKeydata
    | dgeKeyhandle | dgeKeyLoaded | dgeMessageDone | dgeFault | wmaGo | wmaWait | wmaCmdStart | wmaCmdDone | wmaFault | seedbankFreqGate
    | seedbankGaugeUpdate | ideTlpFail | pfmDoorbell | gcmEnc | gcmDec | gmacGen | gmacVer | ctr | cmacGen | cmacVer | hash | hmacGen | hmacVer
    | wrap | unwrap | sign | verify | agree | derive | random | tally | pinXlate | legacyMac | frameReceive | frameTxClassify | ethLinkUp
    | ethLinkDown | frameRelease | saDrained | instruction | trap | interruptTaken | mret | wfi | gateTake | mgateCancel | appletSliceEnd | scrub
    | scrubDone | coreFailure | bankTestDone | spareCoreBootDone | watchdogKick | watchdogExpiry | serviceCoreSwitched | gladeMonitorSwitched
    | gateCall | gateRet | yield | exit | time | wait | dgeAcquire | dgeRelease | notifyReturn | self | acuCommit | meshCheck | watchAbortPoint
    | kcwData | kcwReset | kcwIdent | kcwEncrypt | kcwDecrypt | kcwMacGen | kcwMacVer | kcwPinXlate | kcwRandom | kcwKeyCheck | kcwUseQuery
    | kcwGenerateKey | kcwLoadComponents | kcwImportKey | kcwExportKey | kcwDeleteKey | kcwSetClock => exact answers_onUnit id
/-- Settles O6. -/
theorem noCommandIsRefused : Obligations.NoCommandIsRefused := by
  unfold Obligations.NoCommandIsRefused
  exact exec_answers

/-! ### Reset -/

/-- The ring and the spares of a part as manufactured are its 640 pages in order (R539). -/
theorem reset_commitPages : State.reset.commit.ring ++ State.reset.commit.spares = List.range 640 := by decide +kernel

theorem reset_commitWf : CommitWf State.reset.commit := by
  refine ⟨⟨?nodup, ?below⟩, by decide +kernel, .inr (by decide +kernel)⟩
  case nodup => rw [reset_commitPages]; exact List.nodup_range
  case below => rw [reset_commitPages]; exact fun p h => List.mem_range.mp h

theorem reset_memoriesWf : MemoriesWf State.reset := ⟨rfl, rfl, fun _ h => nomatch h⟩

/-- Settles O5: the empty tables are the defaults of their types, and each table of registers is read off the reset state. -/
theorem resetLeaves : Obligations.ResetLeaves := by
  unfold Obligations.ResetLeaves
  refine ⟨rfl, reset_commitWf, reset_memoriesWf, rfl, rfl, rfl, rfl, rfl, ?functions, ?masters⟩
  case functions => decide +kernel
  case masters => decide +kernel

end Sys2Proof.Machine
end

section
/-! Class rows (O41): what the checks of an admitted entry pass on, what its leases leave alone, and the statement they make up. -/

namespace Sys2Proof.Machine

open Sys2Proof.Safety

/-! ### The rows -/

/-- The lookaside classes and their rows (R292). -/
abbrev classRows : List (Nat × (Nat → Instr)) :=
  [(0x01, .gcmEnc), (0x02, .gcmDec), (0x03, .gmacGen), (0x04, .gmacVer), (0x05, .ctr), (0x06, .cmacGen), (0x07, .cmacVer), (0x08, .hash),
    (0x09, .hmacGen), (0x0A, .hmacVer), (0x0B, .wrap), (0x0C, .unwrap), (0x0D, .sign), (0x0E, .verify), (0x0F, .agree), (0x10, .derive),
    (0x11, .random), (0x12, .tally), (0x13, .pinXlate), (0x14, .legacyMac)]

theorem exec_classRows : ∀ p ∈ classRows, ∀ (c : Nat) (s : State), exec (p.2 c) s = classRow p.1 c s := by
  simp only [classRows, List.forall_mem_cons]
  refine ⟨?_, ?_, ?_, ?_, ?_, ?_, ?_, ?_, ?_, ?_, ?_, ?_, ?_, ?_, ?_, ?_, ?_, ?_, ?_, ?_, fun _ h => nomatch h⟩ <;> exact fun _ _ => rfl

section Row
variable {k c : Nat} {x : Ctx} {s : State} (hc : c < 8192) (hx : getCtx c s = some x) (ha : x.state = .admitted) (hk : ctxClass x = k)
include hc hx ha hk

/-- An entry that fails a check settles with what the check found (R295). -/
theorem classRow_refused {o : CtxOutcome} {u : State} (h : admitChecks x s = .error (o, u)) : classRow k c s = .next (settle c o u) := by
  simp [classRow, onUnit, ctxOk, hc, hx, ha, hk, h]

/-- An entry that passes them goes on to its leases (R295). -/
theorem classRow_checked {y : Ctx} (h : admitChecks x s = .ok y) : classRow k c s = .next (leaseTry c y (setCtx c y s)) := by
  simp [classRow, onUnit, ctxOk, hc, hx, ha, hk, h]

end Row

/-! ### The checks -/

theorem admitChecks_fields {x : Ctx} {s : State} (h : fieldsOk x.entry = false) :
    admitChecks x s = .error ({ status := 0x0103 }, s) := by
  unfold admitChecks
  dsimp only
  rw [if_pos (by rw [h]; rfl)]
  rfl

/-- With no list the lengths are the entry's own and are judged at once (R247, R295). -/
theorem admitChecks_lengths {x : Ctx} {s : State} (hf : fieldsOk x.entry = true) (h0 : bitOf (fld x.entry 1 1) 0 = false)
    (h1 : bitOf (fld x.entry 1 1) 1 = false) (h : lengthsOk x.entry (fld x.entry 0x18 4) (fld x.entry 0x1C 4) = false) :
    admitChecks x s = .error ({ status := 0x0104 }, s) := by
  unfold admitChecks
  dsimp only
  rw [if_neg (by simp [hf]), if_pos (by simp [h0, h1, h])]
  rfl

/-- Checks that pass take the context to LEASING, with its entry, its leases and its invocation value as they were (R277, R295). -/
theorem admitChecks_ok {x y : Ctx} {s : State} (h : admitChecks x s = .ok y) :
    y.state = .leasing ∧ ctxClass y = ctxClass x ∧ y.leases = x.leases ∧ y.invocation = x.invocation := by
  unfold admitChecks at h
  dsimp only at h
  repeat' split at h
  all_goals cases h
  exact ⟨rfl, rfl, rfl, rfl⟩

/-- A context that is not RUNNING has nothing to count: its settlement changes its record only (R278, R561). -/
theorem settle_waiting {c : Nat} {x : Ctx} {s : State} (hx : getCtx c s = some x) (hu : unsettled x.state = true) (hr : x.state ≠ .running)
    (o : CtxOutcome) : settle c o s = setCtx c { x with state := .draining, outcome := some o } s := by
  have hl : liveCtx c s = some x := by simp [liveCtx, hx, hu]
  have hcut : countCut x s = s := by
    unfold countCut
    split
    · rfl
    · simp [hr]
  unfold settle
  rw [hl]
  dsimp only
  rw [hcut]
  simp [meterJob, hr]

/-! ### The keys -/

/-- The keys an entry names are read in the store, the owners and the entry alone. -/
theorem entryKeys_setCtx (c : Nat) (y z : Ctx) (s : State) : entryKeys y (setCtx c z s) = entryKeys y s := rfl

/-- An entry whose keys pass has one for each handle it names (R295). -/
theorem entryKeys_length {y : Ctx} {s : State} {ks : List (Nat × KeyRec)} (h : entryKeys y s = .ok ks) : ks.length = (entryHandles y.entry).length := by
  by_contra hn
  unfold entryKeys at h
  dsimp only at h
  repeat' split at h
  all_goals cases h
  contradiction

/-- A class without keys: HASH and RANDOM (R292). -/
theorem unkeyed_of_no_keys {y : Ctx} {s : State} (h : entryKeys y s = .ok []) : fld y.entry 0 1 = 0x08 ∨ fld y.entry 0 1 = 0x11 := by
  have hl := entryKeys_length h
  unfold entryHandles keyed at hl
  by_contra hn
  rw [not_or] at hn
  simp only [bne_iff_ne.mpr hn.1, bne_iff_ne.mpr hn.2] at hl
  split at hl
  · contradiction
  · split at hl <;> simp at hl

/-- The lengths a key decides are the same under any key where the class has none (R295). -/
theorem keyLengths_unkeyed {y : Ctx} (h : fld y.entry 0 1 = 0x08 ∨ fld y.entry 0 1 = 0x11) (k k' : KeyRec) :
    keyLengthOk y k = keyLengthOk y k' ∧ outNeed y k = outNeed y k' := by
  cases h with
  | inl h => simp only [keyLengthOk, outNeed, h, and_self]
  | inr h => simp only [keyLengthOk, outNeed, h, and_self]

/-! ### The leases -/

/-- A value that a function reads the same replaces another without any reading of the table noticing. -/
theorem any_tset {α : Type} {t : Tab α} {j : Nat} {x y : α} (f : α → Bool) (h : tget t j = some x) (hf : f y = f x) :
    (tset t j y).any (fun p => f p.2) = t.any (fun p => f p.2) := by
  induction t with
  | nil => cases h
  | cons p r ih =>
    obtain ⟨k, v⟩ := p
    by_cases hk : k = j
    · have hv : v = x := by simpa [tget, hk] using h
      simp [tset, hk, hf, hv]
    · have hr : tget r j = some x := by simpa [tget, hk] using h
      by_cases hj : j < k
      · have hm : f x = true → r.any (fun p => f p.2) = true := fun hx => List.any_eq_true.mpr ⟨(j, x), mem_of_tget hr, hx⟩
        cases hfx : f x with
        | false => simp [tset, hk, hj, hf, hfx]
        | true => simp [tset, hk, hj, hf, hfx, hm hfx]
      · simp [tset, hk, hj, ih hr]

/-- A context's new record with its old leases leaves what is leased, and so what may be pinned (R65, R70). -/
theorem pinFits_setCtx {c : Nat} {x y : Ctx} {s : State} (hx : getCtx c s = some x) (hl : y.leases = x.leases) (ks : List (Nat × KeyRec)) :
    pinFits ks (setCtx c y s) = pinFits ks s := by
  have hleased : ∀ slot, leased slot (setCtx c y s) = leased slot s := by
    intro slot
    have h := any_tset (fun z : Ctx => z.leases.any (fun l => l.1 == slot)) hx (y := y) (by rw [hl])
    unfold leased
    exact congrArg (fun b => b || _ || _ || _) h
  unfold pinFits pinClaim
  simp only [hleased]
  rfl

/-- The state without the store and the journal ring. -/
def beyondStore (s : State) : State := { s with store := {}, host := { s.host with jring := {} } }

theorem fields_of_beyondStore {s t : State} (h : beyondStore t = beyondStore s) :
    t.ctxs = s.ctxs ∧ t.units = s.units ∧ t.cores = s.cores ∧ t.mbox = s.mbox := by
  have hctxs := congrArg State.ctxs h
  have hunits := congrArg State.units h
  have hcores := congrArg State.cores h
  have hmbox := congrArg State.mbox h
  exact ⟨hctxs, hunits, hcores, hmbox⟩

theorem beyondStore_wantCommit (b : Bool) (n : Nat) (s : State) : beyondStore (wantCommit b n s) = beyondStore s := by
  unfold wantCommit tryCommit
  dsimp only
  repeat' split
  all_goals rfl

theorem beyondStore_extendUses (slot : Nat) (k : KeyRec) (s : State) : beyondStore (extendUses slot k s) = beyondStore s := by
  unfold extendUses
  split
  · exact beyondStore_wantCommit _ _ _
  · rfl

/-- Charging a use changes the store and the journal only (R55, R74). -/
theorem beyondStore_chargeUse (slot : Nat) (s : State) : beyondStore (chargeUse slot s) = beyondStore s := by
  unfold chargeUse
  split
  · rfl
  · split
    · rfl
    · exact beyondStore_extendUses _ _ _

/-- Finding a key in the Sapwood, or asking for it, changes the store only (R64). -/
theorem beyondStore_useSapwood (slot : Nat) (k : KeyRec) (s : State) : beyondStore (useSapwood slot k s) = beyondStore s := by
  unfold useSapwood
  split <;> rfl

/-- The context of an admission: its leases, in force, and what it waits for (R64, R70, R277). -/
abbrev leasedCtx (x : Ctx) (ks : List (Nat × KeyRec)) (ws : List CtxWait) : Ctx :=
  { x with leases := ks.map (fun p => (p.1, p.2.gen)), admitted := true, waits := ws }

/-- Admitting leases changes the context's record, the store and the journal only. -/
theorem takeLeases_leases (c : Nat) (x : Ctx) (ks : List (Nat × KeyRec)) (s : State) :
    ∃ ws u, takeLeases c x ks s = setCtx c (leasedCtx x ks ws) u ∧ beyondStore u = beyondStore s := by
  have h := foldl_keeps (f := beyondStore) (g := fun s (p : Nat × KeyRec) => chargeUse p.1 (useSapwood p.1 p.2 s))
    (fun s p => (beyondStore_chargeUse p.1 _).trans (beyondStore_useSapwood p.1 p.2 s)) ks s
  unfold takeLeases
  dsimp only
  exact ⟨_, _, rfl, h⟩

/-- The key that decides lengths: the first of the entry's, or none (R295). -/
theorem lengths_of_head {y : Ctx} {s : State} {ks : List (Nat × KeyRec)} {k : KeyRec} (h : entryKeys y s = .ok ks)
    (hk : ∀ q, ks.head? = some q → q.2 = k) (d : KeyRec) :
    keyLengthOk y ((ks.head?.map (·.2)).getD d) = keyLengthOk y k ∧ outNeed y ((ks.head?.map (·.2)).getD d) = outNeed y k := by
  cases ks with
  | nil => exact keyLengths_unkeyed (unkeyed_of_no_keys h) _ _
  | cons q r =>
    obtain rfl : q.2 = k := hk q rfl
    exact ⟨rfl, rfl⟩

/-- Leases that can be taken, of keys whose lengths fit, are taken (R64, R65, R70, R257, R289, R295). -/
theorem leaseTry_leases {c : Nat} {y : Ctx} {s : State} {ks : List (Nat × KeyRec)} {k : KeyRec} (h : entryKeys y s = .ok ks)
    (hk : ∀ q, ks.head? = some q → q.2 = k) (hfrozen : frozen s = false) (hrestart : restartHolds (ctxClass y) ks s = false)
    (hfinish : finishing s = false) (hpin : pinFits ks s = true) (huse : ∀ q ∈ ks, useReady q.2 s = true) (hlen : keyLengthOk y k = true)
    (hroom : outNeed y k ≤ destRoom y) :
    ∃ e v ws u, leaseTry c y s = setCtx c (leasedCtx { y with outLen := outNeed y k, early := e, unverified := v } ks ws) u ∧
      beyondStore u = beyondStore s := by
  have hall : ks.all (fun p => useReady p.2 s) = true := List.all_eq_true.mpr huse
  unfold leaseTry
  rw [h]
  dsimp only
  rw [if_neg (by simp [hfrozen]), if_neg (by simp [hrestart]), if_neg (by simp [hfinish]), if_neg (by simp [hpin]), if_neg (by simp [hall])]
  generalize hd : ((ks.head?.map (·.2)).getD _ : KeyRec) = d
  have hl : keyLengthOk y d = true := by rw [← hd, (lengths_of_head h hk _).1, hlen]
  have hn : outNeed y d = outNeed y k := by rw [← hd, (lengths_of_head h hk _).2]
  have hl' : keyLengthOk { y with outLen := outNeed y d, early := ctxClass y == 1 || streamsDec y || ctxClass y == 5, unverified := streamsDec y } d = true := hl
  rw [if_neg (by simp [hl]), if_neg (by simp [hn, Nat.not_lt.mpr hroom]), hn]
  obtain ⟨ws, u, ht, hu⟩ := takeLeases_leases c _ ks s
  exact ⟨_, _, ws, u, ht, hu⟩

/-! ### The statement -/

/-- Settles O41: the row of the class, then the four ends of R295's checks in their order. -/
theorem classRowsComplete : Obligations.ClassRowsComplete := by
  unfold Obligations.ClassRowsComplete
  intro p hp c x s hc hx ha hk
  rw [exec_classRows p hp c s]
  have early : unsettled x.state = true ∧ x.state ≠ .running := by simp [ha, unsettled]
  refine ⟨fun hf => ?fields, fun hf h0 h1 hl => ?lengths, fun y st hy he => ?key, fun y ks k hy he hhead hfr hrs hfi hpin huse hlen hroom => ?leases⟩
  case fields => rw [classRow_refused hc hx ha hk (admitChecks_fields hf), settle_waiting hx early.1 early.2]
  case lengths => rw [classRow_refused hc hx ha hk (admitChecks_lengths hf h0 h1 hl), settle_waiting hx early.1 early.2]
  case key =>
    obtain ⟨hleasing, -, -, -⟩ := admitChecks_ok hy
    refine ⟨_, classRow_checked hc hx ha hk hy, ?_⟩
    unfold leaseTry
    rw [entryKeys_setCtx, he]
    dsimp only [settleFail]
    rw [settle_waiting (getCtx_setCtx_same c y _) (by rw [hleasing]; rfl) (by simp [hleasing])]
    exact ⟨getCtx_setCtx_same _ _ _, fun i hi => by simp only [getCtx_setCtx_other hi], rfl, rfl, rfl⟩
  case leases =>
    obtain ⟨hleasing, hclass, hleases, hinv⟩ := admitChecks_ok hy
    obtain ⟨e, v, ws, u, ht, hu⟩ := leaseTry_leases (s := setCtx c y s) ((entryKeys_setCtx c y y s).trans he) hhead hfr (by rw [hclass, hk]; exact hrs) hfi
      ((pinFits_setCtx hx hleases ks).trans hpin) huse hlen hroom
    obtain ⟨hctxs, hunits, hcores, hmbox⟩ := fields_of_beyondStore hu
    refine ⟨_, _, (classRow_checked hc hx ha hk hy).trans (congrArg _ ht), getCtx_setCtx_same _ _ _, hleasing, rfl, rfl, rfl, rfl, rfl, hinv, fun i hi => ?_,
      hunits, hcores, hmbox⟩
    rw [getCtx_setCtx_other hi, getCtx_of_ctxs hctxs, getCtx_setCtx_other hi]

end Sys2Proof.Machine
end

section
/-! Held requests, shared (O12, O52, O53, O56): what the execution of an approval leaves of the state its held request's effect has come to. -/

namespace Sys2Proof.Machine

open Sys2Proof.Safety

/-- The log without its writer's queue: the ring, its counters and what is due. -/
def logRing (l : TrLog) : TrLog := { l with queue := [], blocked := [], rates := [] }

/-- A record is queued, suppressed or dropped: nothing of the ring changes (R550, R552). -/
theorem logRing_logPut (r : LogRec) (s : State) : logRing (logPut r s).log = logRing s.log := by
  unfold logPut
  dsimp only
  repeat' split
  all_goals rfl

theorem logRing_of_beyondHost {s t : State} (h : beyondHost t = beyondHost s) : logRing t.log = logRing s.log := by
  have k := congrArg (fun u : State => logRing u.log) h
  exact k

/-- The end of a command's job is no record. -/
theorem endJob_log (mb : Mb) (s : State) : (endJob mb s).log = s.log := by
  unfold endJob
  split <;> rfl

/-- The records of a command's end are queued, no more (R559). -/
theorem logRing_finishMb (mb : Mb) (r : Resp) (s : State) : logRing (finishMb mb r s).log = logRing s.log := by
  unfold finishMb
  dsimp only
  split
  · rw [endJob_log]
  · refine (logRing_of_beyondHost (sendVec_only _ _ _)).trans ?_
    have hrec (c op st ag : Nat) (u : State) : logRing (commandRec c mb op st ag u).log = logRing u.log := logRing_logPut _ u
    simp only [setMb_log]
    split <;> split <;> simp only [hrec, endJob_log]

/-- The state without what an execution's answer touches: the mailboxes, the host interface, the log, the approvals, the store's commits, and
the stands whose request queues a command's job leaves. -/
def beyondExecution (s : State) : State := { s with host := {}, mbox := [], log := {}, cust := {}, store := {}, units := { s.units with stands := [] } }

/-- From s to t only an execution's answer has been given, or waits (R107). -/
def ExecutedTo (s t : State) : Prop := beyondExecution t = beyondExecution s ∧ logRing t.log = logRing s.log ∧ t.store.c = s.store.c

section Fields
variable {s t : State} (h : ExecutedTo s t)
include h

theorem ExecutedTo.start : t.start = s.start := by
  have k := congrArg State.start h.1
  exact k
theorem ExecutedTo.lc : t.lc = s.lc := by
  have k := congrArg State.lc h.1
  exact k
theorem ExecutedTo.lko : t.lko = s.lko := by
  have k := congrArg State.lko h.1
  exact k
theorem ExecutedTo.pwr : t.pwr = s.pwr := by
  have k := congrArg State.pwr h.1
  exact k
theorem ExecutedTo.free : t.free = s.free := by
  have k := congrArg State.free h.1
  exact k
theorem ExecutedTo.banks : t.units.banks = s.units.banks := by
  have k := congrArg (fun u : State => u.units.banks) h.1
  exact k

end Fields

theorem executedTo_finishMb (mb : Mb) (r : Resp) (s : State) : ExecutedTo s (finishMb mb r s) :=
  ⟨congrArg (fun u : State => ({ u with cust := {}, store := {} } : State)) (finishMb_only mb r s), logRing_finishMb mb r s, by rw [finishMb_store]⟩

theorem executedTo_wantCommit (b : Bool) (n : Nat) (s : State) : ExecutedTo s (wantCommit b n s) := by
  unfold wantCommit tryCommit
  dsimp only
  repeat' split
  all_goals exact ⟨rfl, rfl, rfl⟩

theorem ExecutedTo.trans {s t u : State} (h : ExecutedTo s t) (k : ExecutedTo t u) : ExecutedTo s u :=
  ⟨k.1.trans h.1, k.2.1.trans h.2.1, k.2.2.trans h.2.2⟩

/-- Success under a quorum is answered, or held until the commit of what the journal holds (R79, R107; log entry 136). -/
theorem executedTo_quorumAns (mb : Mb) (q : Req) (r : Resp) (s : State) : ExecutedTo s (applyAns mb q (quorumAns r s)) := by
  unfold quorumAns
  split
  · exact executedTo_finishMb mb _ s
  · exact (executedTo_wantCommit false (lastSeq s) s).trans ⟨rfl, rfl, rfl⟩

/-- A held request whose command passes its checks again runs that command's effect (R107). -/
theorem runHeld_runs {mb : Mb} {q : Req} {s : State} {d : Designated} (hm : acceptCheckIn (getMb mb s).mode mb q s = none)
    (hd : designatedCmd false q.opcode = some d) (hc : d.check mb q s = none) : runHeld mb q s = d.run mb q s := by
  simp only [runHeld, hm, hd, direct_run hc]

section Approved
variable {mb : Mb} {op : Nat} {q : Req} {a : Approval} {s u : State} {d : Designated} (h : Approved mb op q a s) (hd : designatedCmd false op = some d)
  (hc : d.check mb a.req s = none)
include h hd hc

theorem runHeld_approved : runHeld mb a.req s = d.run mb a.req s := by
  obtain ⟨-, -, hop, -, hm⟩ := h
  exact runHeld_runs hm (hop ▸ hd) hc

/-- An approved effect that succeeds is all that an execution does beside its answer (R107). -/
theorem exec_quorumExecute_effect {r : Resp} (hr : d.run mb a.req s = (.reply r, u)) (hs : r.status = 0) :
    ∃ t, exec (.quorumExecute mb) s = .next t ∧ ExecutedTo u t := by
  have hrun := (runHeld_approved h hd hc).trans hr
  obtain ⟨hacc, hname, -, henough, -⟩ := h
  refine ⟨_, (runCmd_accepted quorumExecuteRun hacc : exec (.quorumExecute mb) s = _), ?_⟩
  have hq : quorumExecuteRun mb q s = quorumAns r (consume mb q.reqId (fld q.body 0 4) a.req.opcode u) := by
    simp [quorumExecuteRun, hname, henough, hrun, hs]
  rw [hq]
  exact ExecutedTo.trans ⟨rfl, rfl, rfl⟩ (executedTo_quorumAns mb q r _)

end Approved

/-- A designated command sent directly, its checks passed, is QUORUM_MISSING (R102). -/
theorem designated_missing {au : Auth} {check : Mb → Req → State → Option Nat} {run : Handler} {mb : Mb} {q : Req} {s : State}
    (h : check mb q s = none) : designated au check run mb q s = (.reply { status := 0x0301 }, s) := by
  simp only [designated, h]
  rfl

end Sys2Proof.Machine
end

section
/-! The log's writer (O55): what queueing, programming and opening a page do, and the statement they make up. -/

namespace Sys2Proof.Machine

open Sys2Proof.Safety

/-! ### Queueing -/

section Queueing
variable {r : LogRec} {s : State}

theorem logPut_critical (hf : bitOf r.flags 0 = true) (hq : s.log.queue.length < 512) :
    logPut r s = { s with log.queue := s.log.queue ++ [r] } := by
  simp [logPut, hf, hq]

theorem logPut_blocked (hf : bitOf r.flags 0 = true) (hq : 512 ≤ s.log.queue.length) :
    logPut r s = { s with log.blocked := s.log.blocked ++ [r] } := by
  simp [logPut, hf, Nat.not_lt.mpr hq]

/-- A record that is not critical is queued or suppressed by its code's rate and the queue's length, and counted either way (R550, R552). -/
theorem logPut_rated (hf : bitOf r.flags 0 = false) :
    ∃ x : RateCount, logPut r s = { s with log.rates := tset s.log.rates r.code x, log.queue :=
        if (tgetD s.log.rates r.code {}).accepted < 16 ∧ s.log.queue.length < 384 then s.log.queue ++ [r] else s.log.queue } ∧
      x.accepted + x.suppressed = (tgetD s.log.rates r.code {}).accepted + (tgetD s.log.rates r.code {}).suppressed + 1 := by
  unfold logPut
  dsimp only
  rw [if_neg (by simp [hf])]
  split
  · exact ⟨_, rfl, Nat.add_right_comm _ _ _⟩
  · exact ⟨_, rfl, rfl⟩

end Queueing

/-! ### Programming -/

theorem mem_addNew_of_mem {α : Type} [DecidableEq α] {l : List α} {y : α} (h : y ∈ l) (x : α) : y ∈ addNew l x := by
  unfold addNew
  split
  · exact h
  · exact List.mem_append_left _ h

/-- Every element added one after another is there, and nothing is lost. -/
theorem mem_foldl_addNew {α : Type} [DecidableEq α] {xs l : List α} {x : α} (h : x ∈ xs ∨ x ∈ l) : x ∈ xs.foldl addNew l := by
  induction xs generalizing l with
  | nil => exact h.resolve_left (List.not_mem_nil)
  | cons y ys ih =>
    refine ih ?_
    obtain h | h := h
    · obtain rfl | h := List.mem_cons.mp h
      · exact .inr (mem_addNew l x)
      · exact .inl h
    · exact .inr (mem_addNew_of_mem h y)

/-- The log once its oldest record is programmed and a producer that waits has taken the freed place (R547, R548, R550). -/
def programmed (r : LogRec) (rest : List LogRec) (l : TrLog) : TrLog :=
  { programRec r l with queue := rest ++ l.blocked.take 1, blocked := l.blocked.drop 1 }

/-- Vector 10 falls due on every PF with a critical record, or once LOW reads 1 (R569). -/
def vectorDue (r : LogRec) (s : State) (l : TrLog) : TrLog :=
  if bitOf r.flags 0 || (trlLow l && !trlLow s.log) then { l with vecDue := (pfs s).foldl addNew l.vecDue } else l

theorem vectorDue_only (r : LogRec) (s : State) (l : TrLog) :
    ∃ v, vectorDue r s l = { l with vecDue := v } ∧ (bitOf r.flags 0 = true → ∀ p ∈ pfs s, p ∈ v) := by
  unfold vectorDue
  split
  · exact ⟨_, rfl, fun _ p hp => mem_foldl_addNew (.inl hp)⟩
  · rename_i hn
    exact ⟨l.vecDue, rfl, fun hf => absurd (by rw [hf]; rfl) hn⟩

theorem exec_logRecordProgrammed {r : LogRec} {rest : List LogRec} {s : State} (hq : s.log.queue = r :: rest) (hr : trlRoom s.log = true) :
    exec .logRecordProgrammed s = .next { s with log := vectorDue r s (programmed r rest s.log) } := by
  change execLogRecordProgrammed s = _
  unfold execLogRecordProgrammed
  rw [hq]
  dsimp only
  rw [if_pos hr]
  refine congrArg (fun l : TrLog => (.next { s with log := vectorDue r s l } : Out)) ?_
  unfold programmed
  cases hb : s.log.blocked with
  | nil => simp [programRec, hb]
  | cons b bs => rfl

/-! ### Opening a page -/

/-- With an erased page at hand the next page opens on it, its FIRST_SEQ 64 above the page before (R550). -/
theorem openTrl_erased {l : TrLog} {p : TrlPage} {n : Nat} {rest : List Nat} (hp : l.pages.getLast? = some p) (he : l.erased = n :: rest) :
    openTrl l = { l with erased := rest, pages := l.pages ++ [{ num := n, firstSeq := p.firstSeq + 64 }] } := by
  simp [openTrl, he, hp]

/-! ### The statement -/

/-- Settles O55: a record by its flags and the queue's length, the writer by whether a page has room, a page by whether it holds a record. -/
theorem logWriterCompletes : Obligations.LogWriterCompletes := by
  unfold Obligations.LogWriterCompletes
  refine ⟨?queue, ?programmed, ?page, ?vector⟩
  case queue =>
    rintro code origin arg r s rfl
    refine ⟨fun hs => ?scrapped, fun hs => ?queued⟩
    case scrapped =>
      change execLogRecordQueue code origin arg s = _
      rw [execLogRecordQueue, if_pos hs]
    case queued =>
      have hput : exec (.logRecordQueue code origin arg) s = .next (logPut { code := code, flags := codeFlags code, origin := origin, arg := padTo 12 arg } s) := by
        change execLogRecordQueue code origin arg s = _
        rw [execLogRecordQueue, if_neg (by simp [hs])]
      refine ⟨fun hf hq => by rw [hput, logPut_critical hf hq], fun hf hq => by rw [hput, logPut_blocked hf hq], fun hf => ?_⟩
      obtain ⟨x, hx, hsum⟩ := logPut_rated (s := s) (r := { code := code, flags := codeFlags code, origin := origin, arg := padTo 12 arg }) hf
      exact ⟨x, by rw [hput, hx], hsum⟩
  case programmed =>
    refine fun r rest s hq => ⟨fun hr => ?room, fun hr => ?full⟩
    case room =>
      obtain ⟨v, hv, hdue⟩ := vectorDue_only r s (programmed r rest s.log)
      refine ⟨_, (exec_logRecordProgrammed hq hr).trans (by rw [hv]), ?_⟩
      simp only [programmed, programRec, true_and]
      exact hdue
    case full =>
      change execLogRecordProgrammed s = _
      simp only [execLogRecordProgrammed, hq, hr, Bool.false_eq_true, if_false]
  case page =>
    intro p n rest s hp
    refine ⟨fun h => ?empty, fun h he => ?opens⟩
    all_goals
      change execLogPageOpen s = _
      simp only [execLogPageOpen, hp]
    case empty => rw [if_pos (by simp [h])]
    case opens => rw [if_neg (by simp [h]), openTrl_erased hp he]
  case vector =>
    intro p s hp
    refine ⟨fun h => ?due, fun h => ?none⟩
    all_goals
      change execTrlVectorSend p s = _
      rw [execTrlVectorSend, if_pos hp]
    case due => rw [if_pos h]
    case none => rw [if_neg (by rw [h]; exact Bool.false_ne_true)]

end Sys2Proof.Machine
end

section
/-! Log and meter commands (O56): what a clearance leaves of the log's counters, what a close and a flush leave of the meter, and the statement they make up. -/

namespace Sys2Proof.Machine

open Sys2Proof.Safety

/-! ### Exports -/

/-- Bytes that the function may write go to the host, and the command answers (R89, R284). -/
theorem blobWrite_ok {mb : Mb} {a : Nat} {d : Bytes} {r : Resp} {s : State} (h : hostOk (mbFn mb) a d.length s = true) :
    blobWrite mb a d r s = (.reply r, hostWrite a d s) := if_pos h

section Command
variable {mb : Mb} {q : Req} {s : State}

theorem exec_logExport {rs : List StoredRec} {img : Bytes} (a : Accepted mb 0x0802 q s) (ho : 96 ≤ fld q.body 0x18 4)
    (hrs : rs = ((heldRecs s.log).filter (fun x => decide (fld q.body 0 8 ≤ x.seq ∧ x.seq ≤ (getMb mb s).logHead))).take
      (min (fld q.body 8 4) ((fld q.body 0x18 4 - 64) / 32)))
    (himg : img = exportHeader s (fld q.body 0 8) rs ++ (rs.map recBytes).flatten) (hok : hostOk (mbFn mb) (fld q.body 0x10 8) img.length s = true) :
    Ends (.logExport mb) s mb { body := layout 16 [(0, 4, rs.length), (8, 8, (rs.getLast?.map (·.seq)).getD (fld q.body 0 8 - 1))] }
      (hostWrite (fld q.body 0x10 8) img s) := by
  change execLogExport mb s = _
  refine runCmd_reply _ a ?_
  dsimp only
  rw [if_neg (Nat.not_lt.mpr ho), ← hrs, ← himg, blobWrite_ok hok]
  cases rs.getLast? <;> rfl

theorem exec_logAck (a : Accepted mb 0x0803 q s) (h : fld q.body 0 8 ≤ trlHead s.log) :
    Ends (.logAck mb) s mb { body := leBytes 8 (max s.log.acked (fld q.body 0 8)) } { s with log.acked := max s.log.acked (fld q.body 0 8) } :=
  (runCmd_reply _ a (if_neg (Nat.not_lt.mpr h)) : execLogAck mb s = _)

theorem exec_logAck_ahead (a : Accepted mb 0x0803 q s) (h : trlHead s.log < fld q.body 0 8) : Ends (.logAck mb) s mb { status := 0x0103 } s :=
  (runCmd_reply _ a (if_pos h) : execLogAck mb s = _)

theorem exec_meterRead {o : Nat} {img : Bytes} (a : Accepted mb 0x0812 q s) (hp : 2 ≤ s.meter.period) (ho : mbOwner mb s = some o)
    (himg : img = meterEntry s.meter o) (hlen : img.length ≤ fld q.body 0x10 4) (hok : hostOk (mbFn mb) (fld q.body 8 8) img.length s = true) :
    Ends (.meterRead mb) s mb { body := layout 8 [(0, 4, s.meter.period - 1), (4, 4, 1)] } (hostWrite (fld q.body 8 8) img s) := by
  change execMeterRead mb s = _
  refine runCmd_reply _ a ?_
  dsimp only
  rw [if_neg (Nat.not_lt.mpr hp), ho]
  simp only [List.map_cons, List.map_nil, List.flatten_cons, List.flatten_nil, List.append_nil, List.length_singleton, ← himg]
  rw [if_neg (Nat.not_lt.mpr hlen), blobWrite_ok hok]

theorem exec_meterRead_early (a : Accepted mb 0x0812 q s) (hp : s.meter.period < 2) : Ends (.meterRead mb) s mb { status := 0x0606 } s :=
  (runCmd_reply _ a (if_pos hp) : execMeterRead mb s = _)

theorem exec_meterConfig (a : Accepted mb 0x0814 q s) (hl : 10 ≤ fld q.body 0 2) (hu : fld q.body 0 2 ≤ 3600) :
    Ends (.meterConfig mb) s mb {} { s with meter.flushS := fld q.body 0 2 } :=
  (runCmd_reply _ a (if_neg (by omega)) : execMeterConfig mb s = _)

theorem exec_meterConfig_refused (a : Accepted mb 0x0814 q s) (h : fld q.body 0 2 < 10 ∨ 3600 < fld q.body 0 2) :
    Ends (.meterConfig mb) s mb { status := 0x0103 } s :=
  (runCmd_reply _ a (if_pos h) : execMeterConfig mb s = _)

/-- A record leaves the state, but for the log. -/
theorem logPut_eq (r : LogRec) (s : State) : ∃ l, logPut r s = { s with log := l } := by
  unfold logPut
  dsimp only
  repeat' split
  all_goals exact ⟨_, rfl⟩

/-- The UTC offset changes and a record tells it; the answer is the offset before (R566, R567). -/
theorem exec_meterSetUtc (a : Accepted mb 0x0813 q s) :
    ∃ l, Ends (.meterSetUtc mb) s mb { body := leBytes 8 (BitVec.ofInt 64 s.meter.utc).toNat }
      { s with log := l, meter.utc := (BitVec.ofNat 64 (fld q.body 0 8)).toInt } := by
  obtain ⟨l, hl⟩ := logPut_eq
    (if (BitVec.ofNat 64 (fld q.body 0 8)).toInt < s.meter.utc then
      { mkRec 0x0902 1 [(0, 8, fld q.body 0 8), (8, 4, s.meter.period)] with flags := (mkRec 0x0902 1 [(0, 8, fld q.body 0 8), (8, 4, s.meter.period)]).flags + 32 }
      else mkRec 0x0902 1 [(0, 8, fld q.body 0 8), (8, 4, s.meter.period)])
    { s with meter.utc := (BitVec.ofNat 64 (fld q.body 0 8)).toInt }
  exact ⟨l, (runCmd_reply _ a (congrArg (fun u => ((.reply { body := leBytes 8 (BitVec.ofInt 64 s.meter.utc).toNat } : Ans), u)) hl) : execMeterSetUtc mb s = _)⟩

end Command

/-! ### LOG_CLEAR -/

/-- Erasing a page is no record: no SEQ, no acknowledgement and no loss is counted (R553). -/
theorem eraseTrl_keeps (n : Nat) (l : TrLog) :
    (eraseTrl n l).nextSeq = l.nextSeq ∧ (eraseTrl n l).acked = l.acked ∧ (eraseTrl n l).lost = l.lost ∧ (eraseTrl n l).pages = l.pages := by
  unfold eraseTrl
  dsimp only
  repeat' split
  all_goals exact ⟨rfl, rfl, rfl, rfl⟩

theorem eraseAllTrl_keeps (ps : List TrlPage) (l : TrLog) :
    (ps.foldl (fun l p => eraseTrl p.num l) l).nextSeq = l.nextSeq ∧ (ps.foldl (fun l p => eraseTrl p.num l) l).acked = l.acked ∧
    (ps.foldl (fun l p => eraseTrl p.num l) l).lost = l.lost ∧ (ps.foldl (fun l p => eraseTrl p.num l) l).pages = l.pages := by
  have h := foldl_keeps (f := fun l : TrLog => (l.nextSeq, l.acked, l.lost, l.pages)) (g := fun l (p : TrlPage) => eraseTrl p.num l)
    (fun l p => by obtain ⟨hn, ha, hl, hp⟩ := eraseTrl_keeps p.num l; simp only [hn, ha, hl, hp]) ps l
  simpa only [Prod.mk.injEq] using h

/-- A record programmed on an emptied ring takes one SEQ; no page is left to reclaim, so nothing is lost or acknowledged (R554, R556). -/
theorem programNow_empty {l : TrLog} (h : l.pages = []) (r : LogRec) :
    (programNow l r).nextSeq = l.nextSeq + 1 ∧ (programNow l r).acked = l.acked ∧ (programNow l r).lost = l.lost := by
  have hopen : (openTrl l).nextSeq = l.nextSeq ∧ (openTrl l).acked = l.acked ∧ (openTrl l).lost = l.lost := by
    have hreclaim : reclaimTrl l = l := by simp only [reclaimTrl, h]
    unfold openTrl
    simp only [hreclaim, ite_self]
    split <;> exact ⟨rfl, rfl, rfl⟩
  have hroom : trlRoom l = false := by simp [trlRoom, h]
  obtain ⟨hn, ha, hl⟩ := hopen
  simp [programNow, programRec, hroom, hn, ha, hl]

/-- With no record to carry, a clearance takes the SEQ of LOG_CLEARED and counts every record held as lost (R556). -/
theorem logClearRun_counts {mb : Mb} {q : Req} {s : State} (h : ∀ x ∈ heldRecs s.log, bitOf x.record.flags 1 = false) :
    ∃ r u, logClearRun mb q s = (.reply r, u) ∧ r.status = 0 ∧ u.log.nextSeq = s.log.nextSeq + 1 ∧
      u.log.lost = s.log.lost + (heldRecs s.log).length ∧ u.log.acked = s.log.acked := by
  have hnone : (heldRecs s.log).filter (fun x => bitOf x.record.flags 1) = [] := List.filter_eq_nil_iff.mpr fun x hx => by simp [h x hx]
  obtain ⟨hn, ha, hl, hp⟩ := eraseAllTrl_keeps s.log.pages { s.log with pages := [] }
  obtain ⟨hn', ha', hl'⟩ := programNow_empty hp (mkRec 0x0003 0 [(0, 8, trlTail s.log), (8, 4, (heldRecs s.log).length)])
  refine ⟨_, _, rfl, rfl, ?_⟩
  simp only [hnone, List.foldl_nil, hn', ha', hl', hn, ha, hl, and_self]

theorem counters_of_logRing {l m : TrLog} (h : logRing l = logRing m) : l.nextSeq = m.nextSeq ∧ l.lost = m.lost ∧ l.acked = m.acked := by
  have hn := congrArg TrLog.nextSeq h
  have hl := congrArg TrLog.lost h
  have ha := congrArg TrLog.acked h
  exact ⟨hn, hl, ha⟩

theorem exec_quorumExecute_logClear {mb : Mb} {q : Req} {a : Approval} {s : State} (ha : Approved mb 0x0804 q a s)
    (h : ∀ x ∈ heldRecs s.log, bitOf x.record.flags 1 = false) :
    ∃ t, exec (.quorumExecute mb) s = .next t ∧ t.log.nextSeq = s.log.nextSeq + 1 ∧ t.log.lost = s.log.lost + (heldRecs s.log).length ∧
      t.log.acked = s.log.acked := by
  obtain ⟨r, u, hr, hs, hn, hl, hk⟩ := logClearRun_counts (mb := mb) (q := a.req) h
  obtain ⟨t, ht, -, hlog, -⟩ := exec_quorumExecute_effect ha rfl rfl hr hs
  obtain ⟨hn', hl', hk'⟩ := counters_of_logRing hlog
  exact ⟨t, ht, hn'.trans hn, hl'.trans hl, hk'.trans hk⟩

/-! ### METER_CLOSE and METER_FLUSH -/

/-- Page blocks take SEQs and change no content and no meter (R75). -/
theorem journalPages_keep (ps : List Nat) (s : State) :
    (ps.foldl (fun s p => journalPage p s) s).meter = s.meter ∧ (ps.foldl (fun s p => journalPage p s) s).store.c = s.store.c ∧
    s.store.nextSeq ≤ (ps.foldl (fun s p => journalPage p s) s).store.nextSeq := by
  induction ps generalizing s with
  | nil => exact ⟨rfl, rfl, Nat.le_refl _⟩
  | cons p ps ih =>
    obtain ⟨hm, hc, hn⟩ := ih (journalPage p s)
    exact ⟨hm, hc, Nat.le_of_succ_le hn⟩

/-- A close ends the period: the captures move on, the snapshot is journalled, and the answer waits for its commit (R564). -/
theorem exec_meterClose {mb : Mb} {q : Req} {s : State} (a : Accepted mb 0x0811 q s) (h : fld q.body 0 4 = s.meter.period) :
    ∃ t, exec (.meterClose mb) s = .next t ∧ t.meter.period = s.meter.period + 1 ∧ t.meter.capLast = s.meter.live ∧ t.meter.capPrev = s.meter.capLast ∧
      t.meter.opened = seconds s ∧ t.meter.areaB = !s.meter.areaB ∧ (∃ n r, (getMb mb t).wait = .commit n r) ∧ s.store.nextSeq ≤ t.store.nextSeq := by
  refine ⟨_, (runCmd_hold _ a (if_neg (not_not.mpr h)) : execMeterClose mb s = _), ?_⟩
  have hlog (r : LogRec) (u : State) : (logPut r u).meter = u.meter ∧ (logPut r u).store = u.store := by
    obtain ⟨l, hl⟩ := logPut_eq r u
    simp only [hl, and_self]
  have hwant (n : Nat) (u : State) : (wantCommit false n u).meter = u.meter := by
    have h := congrArg State.meter (beyondStore_wantCommit false n u)
    exact h
  rw [holdMb_meter, holdMb_store, hwant, wantCommit_nextSeq, logCode, (hlog _ _).1, (hlog _ _).2]
  obtain ⟨hm, -, hn⟩ := journalPages_keep ((s.meter.live.map (fun p => (if s.meter.areaB then 137984 else 136960) + p.1 / 1024)).eraseDups)
    { s with meter := { s.meter with
        capPrev := s.meter.capLast, capLast := s.meter.live
        live := tmap (s.meter.live.filter (fun p => !p.2.deleted)) (fun _ x => { x with reused := false })
        period := s.meter.period + 1, opened := seconds s, areaB := !s.meter.areaB } }
  rw [hm]
  exact ⟨rfl, rfl, rfl, rfl, rfl, ⟨_, _, (holdMb_wait _ _ _ _).1⟩, hn⟩

/-- Meters flushed one after another: each owner's becomes its live one, and no other changes (R562). -/
theorem flush_tget {live : Tab Meter} {os : List Nat} {t : Tab Meter} (o : Nat) :
    tget (os.foldl (fun t o => tset t o (tgetD live o {})) t) o = if o ∈ os then some (tgetD live o {}) else tget t o := by
  induction os generalizing t with
  | nil => simp
  | cons p ps ih =>
    rw [List.foldl_cons, ih]
    by_cases hp : o ∈ ps
    · simp [hp]
    · by_cases he : o = p
      · simp [he]
      · simp [hp, he, tget_tset_other]

theorem exec_meterFlush {s : State} (h : canChange s = true) :
    ∃ t, exec .meterFlush s = .next t ∧ t.meter = { s.meter with dirty := [] } ∧ t.store.c.keys = s.store.c.keys ∧
      (∀ o ∈ s.meter.dirty, tgetD t.store.c.meters o {} = tgetD s.meter.live o {}) ∧
      ∀ o, o ∉ s.meter.dirty → tget t.store.c.meters o = tget s.store.c.meters o := by
  obtain ⟨hm, hc, -⟩ := journalPages_keep ((s.meter.dirty.map (fun o => 135936 + o / 1024)).eraseDups)
    { s with store.c.meters := s.meter.dirty.foldl (fun t o => tset t o (tgetD s.meter.live o {})) s.store.c.meters, meter.dirty := [] }
  refine ⟨_, (congrArg Host.Outcome.next (if_pos h) : execMeterFlush s = _), hm, ?_⟩
  rw [hc]
  exact ⟨rfl, fun o ho => congrArg (·.getD {}) ((flush_tget o).trans (if_pos ho)), fun o ho => (flush_tget o).trans (if_neg ho)⟩

/-! ### The statement -/

/-- Settles O56: each command by its answer, the clearance under its quorum, the close and the flush. -/
theorem logAndMeterCommandsComplete : Obligations.LogAndMeterCommandsComplete := by
  unfold Obligations.LogAndMeterCommandsComplete
  refine ⟨fun mb q a s => ⟨fun h => (runCmd_reply _ h rfl : execLogStatus mb s = _), fun rs img h ho hrs himg hok => exec_logExport h ho hrs himg hok,
    fun h => ⟨exec_logAck_ahead h, exec_logAck h⟩, fun h => (runCmd_reply _ h (designated_missing rfl) : execLogClear mb s = _), fun h hx => exec_quorumExecute_logClear h hx,
    fun h => (runCmd_reply _ h rfl : execMeterStatus mb s = _), fun h hp => exec_meterClose h hp,
    fun h hp => (runCmd_reply _ h (if_pos hp) : execMeterClose mb s = _),
    fun o img h hp ho himg hlen hok => exec_meterRead h hp ho himg hlen hok, fun h hp => exec_meterRead_early h hp, fun h => exec_meterSetUtc h,
    fun h => ⟨exec_meterConfig h, exec_meterConfig_refused h⟩⟩, fun s => ⟨fun h => ?waits, fun h => exec_meterFlush h⟩⟩
  case waits => exact (congrArg Host.Outcome.next (if_neg (by rw [h]; exact Bool.false_ne_true)) : execMeterFlush s = _)

end Sys2Proof.Machine
end

section
/-! The management interface (O58): what a response leaves, how long the answers are, and the statement they make up. -/

namespace Sys2Proof.Machine

open Sys2Proof.Safety

/-! ### Responses -/

section Response
variable {s : State} (hb : s.pwr.state ≠ .backup) (hr : s.pwr.resetLow = false)
include hb hr

/-- The endpoint has power and is out of reset. -/
theorem not_silent : (s.pwr.state == .backup || s.pwr.resetLow) = false := by simp [hb, hr]

/-- With main power and out of reset the response is sent and SCL released. -/
theorem mctpReply_answers (f : State → Bytes) : mctpReply f s = { s with pwr.mctpOut := f s, pwr.sclHeld := false } := by
  unfold mctpReply
  rw [not_silent hb hr]
  rfl

/-- Out of FELLED a vendor-defined command answers its data. -/
theorem vendorReply_answers (hm : s.mode.mode ≠ 12) (cmd : Nat) (data : State → Bytes) :
    vendorReply cmd data s = .next { s with pwr.mctpOut := vendorBytes cmd 0 (data s), pwr.sclHeld := false } := by
  unfold vendorReply
  rw [mctpReply_answers hb hr, if_neg hm]

/-- In FELLED a vendor-defined command is refused (R596). -/
theorem vendorReply_felled (hm : s.mode.mode = 12) (cmd : Nat) (data : State → Bytes) :
    vendorReply cmd data s = .next { s with pwr.mctpOut := vendorBytes cmd 4 [], pwr.sclHeld := false } := by
  unfold vendorReply
  rw [mctpReply_answers hb hr, if_pos hm]

/-! ### Control messages -/

theorem exec_setEndpointId_assigns {eid : Nat} (h8 : 8 ≤ eid) (h254 : eid ≤ 254) : exec (.setEndpointId eid) s =
    .next { s with pwr.eid := eid, pwr.mctpOut := mctpControl 1 0 (leBytes 1 0 ++ leBytes 1 eid ++ leBytes 1 0), pwr.sclHeld := false } := by
  change execSetEndpointId eid s = _
  unfold execSetEndpointId
  rw [not_silent hb hr, mctpReply_answers (s := { s with pwr.eid := eid }) hb hr]
  simp [h8, h254]

theorem exec_setEndpointId_refuses {eid : Nat} (h : eid < 8 ∨ 254 < eid) :
    exec (.setEndpointId eid) s = .next { s with pwr.mctpOut := mctpControl 1 2 [], pwr.sclHeld := false } := by
  have hout : (decide (8 ≤ eid) && decide (eid ≤ 254)) = false := by simp only [Bool.and_eq_false_iff, decide_eq_false_iff_not]; omega
  change execSetEndpointId eid s = _
  unfold execSetEndpointId
  rw [not_silent hb hr, hout, mctpReply_answers hb hr]
  rfl

theorem exec_getMessageTypeSupport : ∃ d, exec .getMessageTypeSupport s = .next { s with pwr.mctpOut := mctpControl 5 0 d, pwr.sclHeld := false } ∧
    d.length = (if s.mode.mode = 12 then 2 else 4) := by
  refine ⟨_, congrArg Host.Outcome.next (mctpReply_answers hb hr _), ?_⟩
  by_cases hm : s.mode.mode = 12 <;> simp [hm, leBytes_length]

/-! ### Vendor-defined messages -/

theorem exec_getSensors (hm : s.mode.mode ≠ 12) :
    ∃ d, exec .getSensors s = .next { s with pwr.mctpOut := vendorBytes 2 0 d, pwr.sclHeld := false } ∧ d.length = 104 := by
  refine ⟨_, vendorReply_answers hb hr hm 2 _, ?_⟩
  simp [List.length_flatten, leBytes_length, Function.comp_def]

theorem exec_getStands (hm : s.mode.mode ≠ 12) :
    ∃ d, exec .getStands s = .next { s with pwr.mctpOut := vendorBytes 3 0 d, pwr.sclHeld := false } ∧ d.length = 32 := by
  refine ⟨_, vendorReply_answers hb hr hm 3 _, ?_⟩
  simp [List.length_flatten, Function.comp_def, stands]

theorem exec_getLogTail_answers (hm : s.mode.mode ≠ 12) {n : Nat} (h1 : 1 ≤ n) (h32 : n ≤ 32) :
    ∃ d rs, exec (.getLogTail n) s = .next { s with pwr.mctpOut := vendorBytes 4 0 d, pwr.sclHeld := false } ∧
      rs = (heldRecs s.log).drop ((heldRecs s.log).length - n) ∧ d = layout 8 [(0, 1, rs.length)] ++ (rs.map recBytes).flatten := by
  refine ⟨_, _, ?_, rfl, rfl⟩
  change execGetLogTail n s = _
  have hin : (decide (1 ≤ n) && decide (n ≤ 32)) = true := by simp [h1, h32]
  unfold execGetLogTail
  rw [hin, if_pos rfl]
  exact vendorReply_answers hb hr hm 4 _

theorem exec_getLogTail_refuses (hm : s.mode.mode ≠ 12) {n : Nat} (h : n = 0 ∨ 32 < n) :
    exec (.getLogTail n) s = .next { s with pwr.mctpOut := vendorBytes 4 2 [], pwr.sclHeld := false } := by
  have hout : (decide (1 ≤ n) && decide (n ≤ 32)) = false := by simp only [Bool.and_eq_false_iff, decide_eq_false_iff_not]; omega
  change execGetLogTail n s = _
  unfold execGetLogTail
  rw [hout, mctpReply_answers hb hr, if_neg hm]
  rfl

/-! ### SPDM -/

/-- A request is no message type in FELLED (R596). -/
theorem exec_spdmOverMctp_felled (hm : s.mode.mode = 12) (m : Bytes) : exec (.spdmOverMctp m) s = .next s := by
  change execSpdmOverMctp m s = _
  unfold execSpdmOverMctp
  rw [not_silent hb hr]
  simp [hm]

theorem exec_spdmOverMctp_busy (hm : s.mode.mode ≠ 12) (m : Bytes) (h : s.mode.mode = 8 ∨ s.pwr.state = .watch ∨ s.mode.chosen = false) :
    exec (.spdmOverMctp m) s = .next { s with pwr.sclHeld := false, pwr.mctpOut := spdmBusy m } := by
  change execSpdmOverMctp m s = _
  unfold execSpdmOverMctp
  rw [not_silent hb hr]
  rcases h with h | h | h <;> simp [hm, h]

section Served
variable (hm : s.mode.mode ≠ 12) (h8 : s.mode.mode ≠ 8) (hw : s.pwr.state ≠ .watch) (hc : s.mode.chosen = true) (m : Bytes)
include hm h8 hw hc

theorem exec_spdmOverMctp_waits (h : restarting s = true ∨ s.start.failingOver = true) :
    exec (.spdmOverMctp m) s = .next { s with pwr.sclHeld := false, pwr.spdmWait := s.pwr.spdmWait ++ [m] } := by
  have hbusy : (restarting { s with pwr.sclHeld := false } || s.start.failingOver) = true := by
    rw [Bool.or_eq_true]
    exact h
  change execSpdmOverMctp m s = _
  unfold execSpdmOverMctp
  rw [not_silent hb hr]
  simp [hm, h8, hw, hc, hbusy]

theorem exec_spdmOverMctp_served (hg : restarting s = false) (hf : s.start.failingOver = false) :
    exec (.spdmOverMctp m) s = .next (mctpSpdm m { s with pwr.sclHeld := false }) := by
  have hidle : restarting { s with pwr.sclHeld := false } = false := hg
  change execSpdmOverMctp m s = _
  unfold execSpdmOverMctp
  rw [not_silent hb hr]
  simp [hm, h8, hw, hc, hidle, hf]

end Served
end Response

/-- A request over MCTP is answered behind its message type if the Heartwood holds its fresh bits, and waits for them otherwise (R215, R596). -/
theorem mctpSpdm_answers (m : Bytes) (s : State) :
    (mctpSpdm m s).pwr.sclHeld = s.pwr.sclHeld ∧ (mctpSpdm m s).store = s.store ∧
      ((takeHeart 48 s).1.isSome = true → ∃ d, (mctpSpdm m s).pwr.mctpOut = m.take 1 ++ d) ∧
      ((takeHeart 48 s).1 = none → (mctpSpdm m s).pwr.spdmWait = s.pwr.spdmWait ++ [m] ∧ (mctpSpdm m s).pwr.mctpOut = s.pwr.mctpOut) := by
  have honly := takeHeart_only 48 s
  unfold mctpSpdm
  generalize takeHeart 48 s = p at honly ⊢
  obtain ⟨bits, t⟩ := p
  simp only at honly
  rw [honly]
  cases bits with
  | none => exact ⟨rfl, rfl, fun h => absurd h (by simp), fun _ => ⟨rfl, rfl⟩⟩
  | some b => exact ⟨rfl, rfl, fun _ => ⟨_, rfl⟩, fun h => absurd h (by simp)⟩

/-- The bits the Heartwood can give do not hang on SCL. -/
theorem takeHeart_sclHeld (n : Nat) (b : Bool) (s : State) : (takeHeart n { s with pwr.sclHeld := b }).1 = (takeHeart n s).1 := by
  unfold takeHeart
  dsimp only
  split <;> rfl

theorem exec_spdmOverMctp_answers {s : State} (hb : s.pwr.state ≠ .backup) (hr : s.pwr.resetLow = false) (hm : s.mode.mode ≠ 12)
    (h8 : s.mode.mode ≠ 8) (hw : s.pwr.state ≠ .watch) (hc : s.mode.chosen = true) (m : Bytes) (hg : restarting s = false)
    (hf : s.start.failingOver = false) : ∃ t, exec (.spdmOverMctp m) s = .next t ∧ t.pwr.sclHeld = false ∧ t.store = s.store ∧
      ((takeHeart 48 s).1.isSome = true → ∃ d, t.pwr.mctpOut = m.take 1 ++ d) ∧
      ((takeHeart 48 s).1 = none → t.pwr.spdmWait = s.pwr.spdmWait ++ [m] ∧ t.pwr.mctpOut = s.pwr.mctpOut) := by
  have h := mctpSpdm_answers m { s with pwr.sclHeld := false }
  rw [takeHeart_sclHeld] at h
  exact ⟨_, exec_spdmOverMctp_served hb hr hm h8 hw hc m hg hf, h⟩

/-- Settles O58. -/
theorem managementInterfaceCompletes : Obligations.ManagementInterfaceCompletes := by
  unfold Obligations.ManagementInterfaceCompletes
  intro s hb hr
  have hvalue : ∀ n k, (mctpValue n k).length = n := fun n k => leBytes_length n _
  refine ⟨fun eid => ⟨exec_setEndpointId_assigns hb hr, exec_setEndpointId_refuses hb hr⟩, congrArg Host.Outcome.next (mctpReply_answers hb hr _),
    ⟨_, congrArg Host.Outcome.next (mctpReply_answers hb hr _), hvalue 16 3⟩, ⟨_, congrArg Host.Outcome.next (mctpReply_answers hb hr _), ?_⟩,
    exec_getMessageTypeSupport hb hr, ⟨_, congrArg Host.Outcome.next (mctpReply_answers hb hr _), ?_⟩, congrArg Host.Outcome.next (mctpReply_answers hb hr _),
    fun hm => ⟨exec_getSensors hb hr hm, exec_getStands hb hr hm, fun n => exec_getLogTail_answers hb hr hm, fun n => exec_getLogTail_refuses hb hr hm,
      fun m => exec_spdmOverMctp_busy hb hr hm m, fun m h8 hw hc => ⟨exec_spdmOverMctp_waits hb hr hm h8 hw hc m,
        exec_spdmOverMctp_answers hb hr hm h8 hw hc m⟩⟩,
    fun hm => ⟨vendorReply_felled hb hr hm 2 _, vendorReply_felled hb hr hm 3 _, exec_spdmOverMctp_felled hb hr hm⟩⟩
  · simp [leBytes_length, hvalue]
  · simp [leBytes_length, hvalue]

end Sys2Proof.Machine
end

section
/-! Window functions (O59): the fields of a laid-out entry, what a try at the leases leaves alone, how a window's command starts and ends, and the statement they make up. -/

namespace Sys2Proof.Machine

open Sys2Proof.Safety

/-! ### Fields of a layout -/

/-- A string whose bytes spell a value little-endian spells it. -/
theorem leNat_of_bytes : ∀ (b : Bytes) (v : Nat), (∀ i (h : i < b.length), b[i] = BitVec.ofNat 8 (v / 256 ^ i)) → leNat b = v % 256 ^ b.length
  | [], v, _ => by simp [leNat, Nat.mod_one]
  | x :: r, v, h => by
    have hx : x = BitVec.ofNat 8 v := by simpa using h 0 (Nat.zero_lt_succ _)
    have hr := leNat_of_bytes r (v / 256) fun i hi => by
      have := h (i + 1) (Nat.succ_lt_succ hi)
      rw [List.getElem_cons_succ, Nat.pow_succ, Nat.mul_comm, ← Nat.div_div_eq_div_mul] at this
      exact this
    have e : 256 ^ (r.length + 1) = 256 * 256 ^ r.length := by rw [Nat.pow_succ, Nat.mul_comm]
    simp only [leNat, hx, hr, List.length_cons, e, Nat.mod_mul, BitVec.toNat_ofNat]

/-- The bytes of a layout are those its fields give. -/
theorem getElem_layout (n : Nat) (fs : List (Nat × Nat × Nat)) (i : Nat) (h : i < (layout n fs).length) : (layout n fs)[i] = layByte fs i := by
  simp [layout]

/-- A field of a layout that no field before it covers reads its value (R5). -/
theorem fld_layout {n o l v : Nat} {fs : List (Nat × Nat × Nat)} (h : o + l ≤ n)
    (hb : ∀ i < l, layByte fs (o + i) = BitVec.ofNat 8 (v / 256 ^ i)) : fld (layout n fs) o l = v % 256 ^ l := by
  have hlen : (slice (layout n fs) o l).length = l := by simp [slice]; omega
  have hv := leNat_of_bytes (slice (layout n fs) o l) v fun i hi => by
    rw [← hb i (hlen ▸ hi)]
    simp [slice, getElem_layout]
  rw [hlen] at hv
  exact hv

/-- The byte of the first field that covers an index. -/
theorem layByte_here {o l v i : Nat} {r : List (Nat × Nat × Nat)} (h : i < l) : layByte ((o, l, v) :: r) (o + i) = BitVec.ofNat 8 (v / 256 ^ i) := by
  simp [layByte, h]

/-- A field that does not cover an index leaves it to the rest. -/
theorem layByte_beyond {o l v i : Nat} {r : List (Nat × Nat × Nat)} (h : i < o ∨ o + l ≤ i) : layByte ((o, l, v) :: r) i = layByte r i := by
  rw [layByte, if_neg (by omega)]

/-! ### A try at the leases -/

/-- Context y does the job of x: its source, input, entry, destinations and deadline are x's. -/
abbrev JobKept (x y : Ctx) : Prop :=
  y.src = x.src ∧ y.input = x.input ∧ y.aux = x.aux ∧ y.entry = x.entry ∧ y.dstElems = x.dstElems ∧ y.deadlineAt = x.deadlineAt

/-- From s to t nothing has changed but the contexts, the store and the journal ring, and context c does x's job, LEASING or, with an outcome, DRAINING. -/
structure Tried (c : Nat) (x : Ctx) (s t : State) : Prop where
  beyond : beyondStore { t with ctxs := s.ctxs } = beyondStore s
  job : ∃ y, getCtx c t = some y ∧ JobKept x y ∧ (y.state = .leasing ∨ y.state = .draining)

section Lease
variable {c : Nat} {x y : Ctx} {s u : State} (hk : JobKept x y) (hl : y.state = .leasing) (hu : beyondStore { u with ctxs := s.ctxs } = beyondStore s)
include hk hl hu

theorem tried_setCtx : Tried c x s (setCtx c y u) := ⟨hu, _, getCtx_setCtx_same _ _ _, hk, .inl hl⟩

theorem tried_fail (st : Nat) : Tried c x s (settleFail c st (setCtx c y u)) := by
  unfold settleFail
  rw [settle_waiting (getCtx_setCtx_same _ _ _) (by simp [hl, unsettled]) (by simp [hl])]
  exact ⟨hu, _, getCtx_setCtx_same _ _ _, hk, .inr rfl⟩

end Lease

/-- A context whose output length is decided by a key (R257, R295). -/
abbrev sizedCtx (x : Ctx) (k : KeyRec) : Ctx :=
  { x with outLen := outNeed x k, early := ctxClass x == 1 || streamsDec x || ctxClass x == 5, unverified := streamsDec x }

/-- Whatever a try at the leases finds, it leaves the job as it was, and the rest of the state but store and journal. -/
theorem leaseTry_tried {x : Ctx} (hl : x.state = .leasing) (c : Nat) (s : State) : Tried c x s (leaseTry c x s) := by
  have same : JobKept x x := ⟨rfl, rfl, rfl, rfl, rfl, rfl⟩
  have waits (ws : List CtxWait) : Tried c x s (waitFor c x ws s) := tried_setCtx same hl rfl
  have anyCtxs {u : State} (h : beyondStore u = beyondStore s) : beyondStore { u with ctxs := s.ctxs } = beyondStore s :=
    congrArg (fun z : State => { z with ctxs := s.ctxs }) h
  unfold leaseTry
  split
  case h_1 => exact tried_fail same hl rfl _
  case h_2 ks _ =>
    have hextend : beyondStore (ks.foldl (fun s p => extendUses p.1 p.2 s) s) = beyondStore s :=
      foldl_keeps (f := beyondStore) (fun s (p : Nat × KeyRec) => beyondStore_extendUses p.1 p.2 s) ks s
    dsimp only
    generalize ((ks.head?.map (·.2)).getD _ : KeyRec) = k
    obtain ⟨ws, u, ht, hu⟩ := takeLeases_leases c (sizedCtx x k) ks s
    rw [ht]
    split
    · exact waits _
    split
    · exact waits _
    split
    · exact waits _
    split
    · exact waits _
    split
    · exact tried_setCtx same hl (anyCtxs hextend)
    split
    · exact tried_fail (y := leasedCtx (sizedCtx x k) ks ws) (u := u) same hl (anyCtxs hu) _
    split
    · exact tried_fail (y := leasedCtx (sizedCtx x k) ks ws) (u := u) same hl (anyCtxs hu) _
    · exact tried_setCtx (y := leasedCtx (sizedCtx x k) ks ws) (u := u) same hl (anyCtxs hu)

/-! ### The start of a window's command -/

/-- Window w runs its command in context c, which has this entry, input, auxiliary bytes and room for output, and no unit and no other window has changed (R625). -/
def WindowRuns (w c : Nat) (entry aux input : Bytes) (want : Nat) (s t : State) : Prop :=
  ∃ y, (getKcw w t).phase = .running ∧ (getKcw w t).ctx = some c ∧ getCtx c t = some y ∧ y.src = .kcw w ∧ y.input = some input ∧ y.aux = aux ∧
    y.entry = entry ∧ elemsLen y.dstElems = want ∧ y.deadlineAt = s.us + 1000000 ∧ (y.state = .leasing ∨ y.state = .draining) ∧
    (∀ i, i ≠ w → getKcw i t = getKcw i s) ∧ t.units = s.units

/-- The context a window's command starts (R625). -/
def windowCtx (w : Nat) (k : Kcw) (entry aux input : Bytes) (want : Nat) (s : State) : Ctx :=
  { src := .kcw w, owner := (kcwOwner k s).getD 0, entry := padTo 64 entry, deadlineAt := s.us + 1000000, checked := true, state := .leasing
    input := some input, aux := aux, dstElems := if want = 0 then [] else [{ addr := 0, len := want }] }

/-- A window's command starts its context (R625). -/
theorem kcwStart_runs {entry : Bytes} (he : entry.length = 64) (w c : Nat) (k : Kcw) (aux input : Bytes) (want : Nat) (s : State) :
    WindowRuns w c entry aux input want s (kcwStart w c k entry aux input want s) := by
  obtain ⟨hbeyond, y, hy, ⟨hsrc, hinput, haux, hentry, hdst, hdue⟩, hstate⟩ := leaseTry_tried (x := windowCtx w k entry aux input want s) rfl c
    (setCtx c (windowCtx w k entry aux input want s) (setKcw w { k with phase := .running, ctx := some c } s))
  have hkcw := congrArg State.kcw hbeyond
  have hunits := congrArg State.units hbeyond
  have hk : (kcwStart w c k entry aux input want s).kcw = (setKcw w { k with phase := .running, ctx := some c } s).kcw := hkcw
  have hw := getKcw_of_kcw hk
  refine ⟨y, ?_, ?_, hy, hsrc, hinput, haux, hentry.trans (padTo_eq he), ?_, hdue, hstate, fun i hi => (hw i).trans (getKcw_setKcw_other hi _ _), hunits⟩
  · rw [hw, getKcw_setKcw_same]
  · rw [hw, getKcw_setKcw_same]
  · rw [hdst]
    by_cases h0 : want = 0 <;> simp [windowCtx, elemsLen, h0]

@[simp] theorem kcwEntry_length (cls q key : Nat) (rest : List (Nat × Nat × Nat)) : (kcwEntry cls q key rest).length = 64 := layout_length _ _

/-- An entry's class reads back. -/
theorem kcwEntry_class (cls q key : Nat) (rest : List (Nat × Nat × Nat)) : fld (kcwEntry cls q key rest) 0 1 = cls % 256 :=
  fld_layout (by norm_num) fun _ hi => layByte_here hi

/-- An entry's key reads back. -/
theorem kcwEntry_key (cls q key : Nat) (rest : List (Nat × Nat × Nat)) : fld (kcwEntry cls q key rest) 8 8 = key % 2 ^ 64 :=
  fld_layout (by norm_num) fun i hi => by
    rw [List.cons_append, layByte_beyond (by omega), List.cons_append, layByte_beyond (by omega), List.cons_append, layByte_here hi]

/-- A field of the class's own reads back where those before it lie elsewhere. -/
theorem kcwEntry_byte {o v : Nat} {rest : List (Nat × Nat × Nat)} (h16 : 16 ≤ o) (ho : o < 64) (hr : layByte rest o = BitVec.ofNat 8 v) (cls q key : Nat) :
    fld (kcwEntry cls q key rest) o 1 = v % 256 :=
  fld_layout (by omega) fun i hi => by
    rw [List.cons_append, layByte_beyond (by omega), List.cons_append, layByte_beyond (by omega), List.cons_append, layByte_beyond (by omega),
      Nat.lt_one_iff.mp hi, List.nil_append, Nat.add_zero, hr]
    simp

/-! ### The end of a window's command -/

theorem windowDone_ended (w code kstat : Nat) (result : Bytes) (iv : Tab Word) (s : State) :
    WindowDone w kstat code result s (setKcw w (windowEnded (getKcw w s) code kstat result iv) s) := by
  unfold WindowDone
  rw [getKcw_setKcw_same]
  exact ⟨rfl, rfl, rfl, rfl, rfl, rfl, rfl, rfl, rfl, rfl, fun i hi => getKcw_setKcw_other hi _ _⟩

/-- From s to t window w's command has ended, and nothing but the windows has changed. -/
def WindowEnds (w kstat code : Nat) (result : Bytes) (s t : State) : Prop := WindowDone w kstat code result s t ∧ { t with kcw := s.kcw } = s

theorem WindowEnds.store {w kstat code : Nat} {result : Bytes} {s t : State} (h : WindowEnds w kstat code result s t) : t.store = s.store := by
  have hs := congrArg State.store h.2
  exact hs

section Ended
variable {w : Nat} {s : State} (ho : (getKcw w s).overrun = false)
include ho

theorem kcwFinish_ends (code kstat : Nat) (result : Bytes) (iv : Tab Word) : WindowEnds w kstat code result s (kcwFinish w code kstat result iv s) := by
  rw [kcwFinish_kept ho]
  exact ⟨windowDone_ended _ _ _ _ _ _, rfl⟩

theorem kcwFail_ends {code kstat : Nat} (h : kstatOf code s = (kstat, s)) : WindowEnds w kstat code [] s (kcwFail w code s) := by
  unfold kcwFail
  rw [h]
  exact kcwFinish_ends ho _ _ _ _

theorem kcwOk_ends (result : Bytes) : WindowEnds w 0 0 result s (kcwOk w result s) := kcwFinish_ends ho _ _ _ _

end Ended

/-! ### The functions -/

section Function
variable {w func c : Nat} {k : Kcw} {s : State} (h : WindowWaits w func c k s)
include h

/-- A complete input that the mode admits runs its function (R624, R625, R631). -/
theorem kcwRow_runs (f : Kcw → Nat → State → State) : kcwRow w func f s = .next (f k c s) := by
  obtain ⟨hw, hk, hp, hf, -, hm, hq, hc⟩ := h
  simp [kcwRow, onUnit, hw, hk, hp, hf, hm, hq, hc]

theorem kept_overrun : (getKcw w s).overrun = false := by
  obtain ⟨-, hk, -, -, ho, -⟩ := h
  rw [hk, ho]

end Function

section Cipher
variable {cls purpose w c : Nat} {k : Kcw} {s : State}

theorem kcwCipher_starts (h8 : 8 ≤ k.capLen) (h4 : k.capLen ≤ 4096) (hm : k.capLen % 8 = 0) : kcwCipher cls purpose w k c s =
    kcwStart w c k (kcwEntry cls (b2n (bitOf k.cmd.toNat 8)) (kcwHandle k k.capKey purpose s) []) (kcwIv k 16) (kcwBytes k.words k.capLen) 0 s := by
  unfold kcwCipher
  dsimp only
  rw [if_neg (by simp; omega)]

theorem kcwCipher_fails (h : k.capLen < 8 ∨ 4096 < k.capLen ∨ k.capLen % 8 ≠ 0) : kcwCipher cls purpose w k c s = kcwFail w St.lengthInvalid s := by
  unfold kcwCipher
  dsimp only
  rw [if_pos (by simp; omega)]

end Cipher

section Mac
variable {v : Bool} {w c : Nat} {k : Kcw} {s : State}

/-- The class fields of a MAC: padding, length and whether it is to be verified (R313, R626). -/
def macFields (v : Bool) (k : Kcw) : List (Nat × Nat × Nat) :=
  [(0x28, 1, 1 + bits k.cmd.toNat 9 9), (0x29, 1, bits k.cmd.toNat 13 10), (0x2A, 1, b2n v)]

theorem kcwMac_starts (h4 : 4 ≤ bits k.cmd.toNat 13 10) (h8 : bits k.cmd.toNat 13 10 ≤ 8) (h1 : 1 ≤ k.capLen) (hl : k.capLen ≤ 4096) :
    kcwMac v w k c s = kcwStart w c k (kcwEntry 0x14 0 (kcwHandle k k.capKey 5 s) (macFields v k)) (kcwIv k 8) (kcwBytes k.words k.capLen) 0 s := by
  unfold kcwMac
  dsimp only
  rw [if_neg (by simp; omega), if_neg (by simp; omega)]
  rfl

theorem kcwMac_fails (h : bits k.cmd.toNat 13 10 < 4 ∨ 8 < bits k.cmd.toNat 13 10) : kcwMac v w k c s = kcwFail w St.fieldInvalid s := by
  unfold kcwMac
  dsimp only
  rw [if_pos (by simp; omega)]

end Mac

section Pin
variable {w c fi fo : Nat} {k : Kcw} {s : State}

/-- The class fields of a PIN translation: the second key, both formats and the account number's length (R311, R626). -/
def pinFields (k : Kcw) (fi fo : Nat) (s : State) : List (Nat × Nat × Nat) :=
  [(0x28, 8, kcwHandle k k.capKey2 1 s), (0x30, 1, fi), (0x31, 1, fo), (0x32, 1, k.capLen - pinBlock fi)]

theorem kcwPin_starts (hi : bits k.cmd.toNat 19 16 = fi) (ho : bits k.cmd.toNat 23 20 = fo) (hfi : pinFmtOk fi = true) (hfo : pinFmtOk fo = true)
    (hlo : pinBlock fi + 12 ≤ k.capLen) (hhi : k.capLen ≤ pinBlock fi + 19) :
    kcwPin w k c s = kcwStart w c k (kcwEntry 0x13 0 (kcwHandle k k.capKey 2 s) (pinFields k fi fo s)) [] (kcwBytes k.words k.capLen) 0 s := by
  subst hi ho
  unfold kcwPin
  dsimp only
  rw [if_neg (by simp [hfi, hfo]), if_neg (by simp; omega)]
  rfl

/-- A PIN format is at most 4 (R311). -/
theorem pinFmtOk_le {f : Nat} (h : pinFmtOk f = true) : f ≤ 4 := by
  simp only [pinFmtOk, Bool.or_eq_true, beq_iff_eq] at h
  omega

end Pin

section Query
variable {w c : Nat} {k : Kcw} {s : State}

theorem exec_kcwRandom_starts (h : WindowWaits w 0x28 c k s) (h1 : 1 ≤ k.capLen) (hl : k.capLen ≤ 4096) :
    exec (.kcwRandom w) s = .next (kcwStart w c k (kcwEntry 0x11 0 0 []) [] [] k.capLen s) := by
  change execKcwRandom w s = _
  rw [execKcwRandom, kcwRow_runs h, if_neg (by simp; omega)]

theorem exec_kcwIdent_answers (h : WindowWaits w 0x01 c k s) (h0 : k.capLen = 0) :
    exec (.kcwIdent w) s = .next (kcwOk w ([0x4B320B12, 0x00010000, w, 0x1000].map (beBytes 4)).flatten s) := by
  change execKcwIdent w s = _
  rw [execKcwIdent, kcwRow_runs h, if_neg (not_not.mpr h0)]

theorem exec_kcwKeyCheck_answers (h : WindowWaits w 0x2C c k s) (h0 : k.capLen = 0) {e : KcwEntry} {p : Nat × KeyRec} (he : tget k.map k.capKey = some e)
    (hr : resolve e.first.toNat (kcwOwner k s) s = some p) : exec (.kcwKeyCheck w) s = .next (kcwOk w (padTo 4 e.kcv) s) := by
  change execKcwKeyCheck w s = _
  rw [execKcwKeyCheck, kcwRow_runs h, if_neg (not_not.mpr h0), he]
  simp [hr]

theorem exec_kcwKeyCheck_unmapped (h : WindowWaits w 0x2C c k s) (h0 : k.capLen = 0) (he : tget k.map k.capKey = none) :
    exec (.kcwKeyCheck w) s = .next (kcwFail w St.handleInvalid s) := by
  change execKcwKeyCheck w s = _
  rw [execKcwKeyCheck, kcwRow_runs h, if_neg (not_not.mpr h0), he]

theorem exec_kcwUseQuery_answers (h : WindowWaits w 0x2D c k s) (h0 : k.capLen = 0) {e : KcwEntry} {r : KeyRec} (hk : kcwFirst k s = some (e, r)) :
    exec (.kcwUseQuery w) s = .next (kcwOk w (beBytes 4 (if bitOf r.attr attrUseCount then min r.uses 0xFFFF else 0xFFFFFFFF)) s) := by
  change execKcwUseQuery w s = _
  rw [execKcwUseQuery, kcwRow_runs h, if_neg (not_not.mpr h0), hk]

end Query

theorem kcwUnsupported_ends {w func : Nat} {s : State} (hw : w < 16) (hp : (getKcw w s).phase = .wait) (hf : kcwFunc (getKcw w s) = func)
    (ho : (getKcw w s).overrun = false) : ∃ t, kcwUnsupported w func s = .next t ∧ WindowEnds w 2 0x0101 [] s t := by
  refine ⟨_, ?_, kcwFinish_ends ho 0x0101 2 [] (getKcw w s).iv⟩
  simp [kcwUnsupported, onUnit, hw, hp, hf, St.opcodeUnknown]

/-! ### Words and resets -/

section Word
variable {w : Nat} {v : Word} {s : State} (hl : kcwLive (getKcw w s) = true)

theorem exec_kcwData (hw : w < 16) : exec (.kcwData w v) s = .next (kcwData w v s) := by
  change onUnit (w < 16) (kcwData w v s) = _
  simp [onUnit, hw]

include hl

/-- A word is taken while DRQ reads 1 (R624). -/
theorem kcwData_takes (hd : (getKcw w s).drq = true) : ∃ k, kcwData w v s = setKcw w k s ∧ k.words = (getKcw w s).words ++ [v] ∧
    k.drq = decide (4 * ((getKcw w s).words.length + 1) < (getKcw w s).capLen) ∧
    k.phase = (if (getKcw w s).capLen ≤ 4 * ((getKcw w s).words.length + 1) then .wait else .input) := by
  unfold kcwData
  simp only [hl, hd, Bool.not_true, Bool.false_eq_true, if_false, if_true]
  refine ⟨_, rfl, rfl, ?_, ?_⟩
  · simp [← decide_not]
  · simp

/-- Another word is dropped and counted; a window that waits for no command stays as it is (R624). -/
theorem kcwData_drops (hd : (getKcw w s).drq = false) (hp : (getKcw w s).phase = .idle) :
    kcwData w v s = setKcw w { getKcw w s with overrun := true, errcnt := satInc 65535 (getKcw w s).errcnt } s := by
  unfold kcwData
  simp [hl, hd, hp]

/-- A word past a complete input ends the command with an overrun (R624). -/
theorem kcwData_overruns (hd : (getKcw w s).drq = false) (hp : (getKcw w s).phase = .wait) :
    (getKcw w (kcwData w v s)).phase = .idle ∧ (getKcw w (kcwData w v s)).kstat = 0x0A ∧ (getKcw w (kcwData w v s)).code = 0x0103 ∧
      (getKcw w (kcwData w v s)).rlen = 0 := by
  have hks (t : State) : kstatOf 0 t = (0, t) := rfl
  unfold kcwData
  simp [hl, hd, hp, kcwFail, hks, kcwFinish, St.fieldInvalid]

end Word

/-- A window while the reset it asked for itself runs, with nothing to destroy (R630). -/
def windowResetting (k : Kcw) : Kcw :=
  { k with phase := .resetting, drq := false, ctx := none, drain := [], resetSeq := 0, destroyed := 0, releasing := false }

/-- A reset that voids and destroys nothing ends at once: reset values, with the assignment and the map kept (R630). -/
theorem kcwReset_ends {w : Nat} {s : State} (hl : kcwLive (getKcw w s) = true) (hs : ∀ p ∈ s.kcw, p.2.phase ≠ .resetting)
    (hc : (getKcw w s).ctx = none) (he : kcwExpiring (getKcw w s) s = []) :
    ∃ tab, kcwReset w false s = { s with kcw := tset tab w { assign := (getKcw w s).assign, stand := (getKcw w s).stand, map := (getKcw w s).map } } ∧
      ∀ i, i ≠ w → tget tab i = tget s.kcw i := by
  refine ⟨tset s.kcw w (windowResetting (getKcw w s)), ?_, fun i hi => tget_tset_other _ _ _ _ hi⟩
  unfold kcwReset
  simp only [hl, phase_ne_resetting hs w, hc, he, Bool.not_true, Bool.false_eq_true, if_false, List.foldl_nil, List.length_nil]
  exact windowsSettle_setKcw hs rfl rfl (Nat.zero_le _)

theorem exec_kcwReset_runs {w : Nat} {s : State} (hw : w < 16) (hs : ∀ p ∈ s.kcw, p.2.phase ≠ .resetting) :
    exec (.kcwReset w) s = .next (kcwReset w false s) := by
  change execKcwReset w s = _
  simp [execKcwReset, onUnit, hw, phase_ne_resetting hs w]

theorem exec_kcwReset_ignored {w : Nat} {s : State} (hw : w < 16) (hl : kcwLive (getKcw w s) = true) (hp : (getKcw w s).phase = .resetting) :
    exec (.kcwReset w) s = .next (setKcw w { getKcw w s with swrIgn := true } s) := by
  change execKcwReset w s = _
  simp [execKcwReset, onUnit, hw, hl, hp]

/-! ### The statement -/

/-- Settles O59. -/
theorem windowFunctionsComplete : Obligations.WindowFunctionsComplete := by
  unfold Obligations.WindowFunctionsComplete
  refine ⟨?cipher, ?mac, ?pin, ?random, ?ident, ?keyCheck, ?useQuery, ?gone, ?data, ?reset⟩
  case cipher =>
    have cipher {cls purpose func w c : Nat} {k : Kcw} {s : State} (hcls : cls < 256) (h : WindowWaits w func c k s) :
        (8 ≤ k.capLen → k.capLen ≤ 4096 → k.capLen % 8 = 0 → ∃ t y, kcwRow w func (kcwCipher cls purpose w) s = .next t ∧ (getKcw w t).phase = .running ∧
          (getKcw w t).ctx = some c ∧ getCtx c t = some y ∧ y.src = .kcw w ∧ y.input = some (kcwBytes k.words k.capLen) ∧ y.aux = kcwIv k 16 ∧
          ctxClass y = cls ∧ fld y.entry 8 8 = kcwHandle k k.capKey purpose s % 2 ^ 64 ∧ y.deadlineAt = s.us + 1000000 ∧
          (y.state = .leasing ∨ y.state = .draining) ∧ (∀ i, i ≠ w → getKcw i t = getKcw i s) ∧ t.units = s.units) ∧
        ((k.capLen < 8 ∨ 4096 < k.capLen ∨ k.capLen % 8 ≠ 0) →
          ∃ t, kcwRow w func (kcwCipher cls purpose w) s = .next t ∧ WindowDone w 3 0x0104 [] s t ∧ t.store = s.store) := by
      rw [kcwRow_runs h]
      refine ⟨fun h8 h4 hm => ?_, fun hbad => ?_⟩
      · obtain ⟨y, hp, hc, hy, hsrc, hin, haux, hentry, -, hdue, hst, ho, hu⟩ := kcwStart_runs (kcwEntry_length _ _ _ _) w c k (kcwIv k 16) (kcwBytes k.words k.capLen) 0 s
        refine ⟨_, y, congrArg Host.Outcome.next (kcwCipher_starts h8 h4 hm), hp, hc, hy, hsrc, hin, haux, ?_, ?_, hdue, hst, ho, hu⟩
        · rw [ctxClass, hentry, kcwEntry_class, Nat.mod_eq_of_lt hcls]
        · rw [hentry, kcwEntry_key]
      · have hend := kcwFail_ends (kept_overrun h) (code := St.lengthInvalid) (kstat := 3) rfl
        exact ⟨_, congrArg Host.Outcome.next (kcwCipher_fails hbad), hend.1, hend.store⟩
    simp only [List.forall_mem_cons]
    exact ⟨fun w c k s h => cipher (by norm_num) h, fun w c k s h => cipher (by norm_num) h, fun _ h => nomatch h⟩
  case mac =>
    have mac {v : Bool} {func w c : Nat} {k : Kcw} {s : State} (h : WindowWaits w func c k s) :
        (4 ≤ bits k.cmd.toNat 13 10 → bits k.cmd.toNat 13 10 ≤ 8 → 1 ≤ k.capLen → k.capLen ≤ 4096 →
          ∃ t y, kcwRow w func (kcwMac v w) s = .next t ∧ (getKcw w t).phase = .running ∧ (getKcw w t).ctx = some c ∧ getCtx c t = some y ∧ y.src = .kcw w ∧
            y.input = some (kcwBytes k.words k.capLen) ∧ y.aux = kcwIv k 8 ∧ ctxClass y = 0x14 ∧ fld y.entry 0x29 1 = bits k.cmd.toNat 13 10 ∧
            fld y.entry 0x2A 1 = b2n v ∧ (∀ i, i ≠ w → getKcw i t = getKcw i s) ∧ t.units = s.units) ∧
        ((bits k.cmd.toNat 13 10 < 4 ∨ 8 < bits k.cmd.toNat 13 10) →
          ∃ t, kcwRow w func (kcwMac v w) s = .next t ∧ WindowDone w 1 0x0103 [] s t ∧ t.store = s.store) := by
      rw [kcwRow_runs h]
      refine ⟨fun h4 h8 h1 hl => ?_, fun hbad => ?_⟩
      · obtain ⟨y, hp, hc, hy, hsrc, hin, haux, hentry, -, -, -, ho, hu⟩ := kcwStart_runs (kcwEntry_length _ _ _ _) w c k (kcwIv k 8) (kcwBytes k.words k.capLen) 0 s
        refine ⟨_, y, congrArg Host.Outcome.next (kcwMac_starts h4 h8 h1 hl), hp, hc, hy, hsrc, hin, haux, ?_, ?_, ?_, ho, hu⟩
        · rw [ctxClass, hentry, kcwEntry_class]
        · rw [hentry, kcwEntry_byte (v := bits k.cmd.toNat 13 10) (by norm_num) (by norm_num) (by simp [macFields, layByte]), Nat.mod_eq_of_lt (by omega)]
        · rw [hentry, kcwEntry_byte (v := b2n v) (by norm_num) (by norm_num) (by simp [macFields, layByte])]
          cases v <;> rfl
      · have hend := kcwFail_ends (kept_overrun h) (code := St.fieldInvalid) (kstat := 1) rfl
        exact ⟨_, congrArg Host.Outcome.next (kcwMac_fails hbad), hend.1, hend.store⟩
    simp only [List.forall_mem_cons]
    exact ⟨fun w c k s h => mac (v := false) h, fun w c k s h => mac (v := true) h, fun _ h => nomatch h⟩
  case pin =>
    intro w c fi fo k s h hi ho hfi hfo hlo hhi
    obtain ⟨y, hp, hc, hy, hsrc, hin, -, hentry, -, -, -, hother, hu⟩ := kcwStart_runs (kcwEntry_length _ _ _ _) w c k [] (kcwBytes k.words k.capLen) 0 s
    have hrun : exec (.kcwPinXlate w) s = .next _ := (kcwRow_runs h (kcwPin w)).trans (congrArg Host.Outcome.next (kcwPin_starts hi ho hfi hfo hlo hhi))
    have byte {o v : Nat} (h16 : 16 ≤ o) (h64 : o < 64) (hv : v < 256) (hb : layByte (pinFields k fi fo s) o = BitVec.ofNat 8 v) : fld y.entry o 1 = v := by
      rw [hentry, kcwEntry_byte h16 h64 hb, Nat.mod_eq_of_lt hv]
    have hfi4 := pinFmtOk_le hfi
    have hfo4 := pinFmtOk_le hfo
    refine ⟨_, y, hrun, hp, hc, hy, hsrc, hin, ?_, byte (by norm_num) (by norm_num) (by omega) ?_, byte (by norm_num) (by norm_num) (by omega) ?_,
      byte (by norm_num) (by norm_num) (by omega) ?_, hother, hu⟩
    · rw [ctxClass, hentry, kcwEntry_class]
    all_goals simp [pinFields, layByte]
  case random =>
    intro w c k s h h1 hl
    obtain ⟨y, hp, hc, hy, hsrc, -, -, hentry, hwant, -, -, hother, hu⟩ := kcwStart_runs (kcwEntry_length 0x11 0 0 []) w c k [] [] k.capLen s
    refine ⟨_, y, exec_kcwRandom_starts h h1 hl, hp, hc, hy, hsrc, ?_, hwant, hother, hu⟩
    rw [ctxClass, hentry, kcwEntry_class]
  case ident =>
    intro w c k s h h0
    have hend := kcwOk_ends (kept_overrun h) ([0x4B320B12, 0x00010000, w, 0x1000].map (beBytes 4)).flatten
    exact ⟨_, exec_kcwIdent_answers h h0, hend.1, hend.store⟩
  case keyCheck =>
    refine fun w c k s h h0 => ⟨fun e slot r he hr => ?_, fun he => ?_⟩
    · have hend := kcwOk_ends (kept_overrun h) (padTo 4 e.kcv)
      exact ⟨_, exec_kcwKeyCheck_answers h h0 he hr, hend.1, hend.store⟩
    · have hend := kcwFail_ends (kept_overrun h) (code := St.handleInvalid) (kstat := 4) rfl
      exact ⟨_, exec_kcwKeyCheck_unmapped h h0 he, hend.1, hend.store⟩
  case useQuery =>
    intro w c k e r s h h0 hk
    have hend := kcwOk_ends (kept_overrun h) (beBytes 4 (if bitOf r.attr attrUseCount then min r.uses 0xFFFF else 0xFFFFFFFF))
    exact ⟨_, exec_kcwUseQuery_answers h h0 hk, hend.store, hend.1⟩
  case gone =>
    simp only [List.forall_mem_cons]
    exact ⟨fun w s => kcwUnsupported_ends, fun w s => kcwUnsupported_ends, fun w s => kcwUnsupported_ends, fun w s => kcwUnsupported_ends,
      fun w s => kcwUnsupported_ends, fun w s => kcwUnsupported_ends, fun _ h => nomatch h⟩
  case data =>
    intro w v s hw hl
    rw [exec_kcwData hw]
    refine ⟨fun hd => ?_, fun hd hp => congrArg Host.Outcome.next (kcwData_drops hl hd hp), fun hd hp => ⟨_, rfl, kcwData_overruns hl hd hp⟩⟩
    obtain ⟨k, hk, hwords, hdrq, hphase⟩ := kcwData_takes hl (v := v) hd
    rw [hk]
    refine ⟨_, rfl, ?_, ?_, ?_, fun i hi => getKcw_setKcw_other hi _ _, rfl⟩ <;> rw [getKcw_setKcw_same]
    · exact hwords
    · exact hdrq
    · exact hphase
  case reset =>
    intro w s hw hl
    refine ⟨exec_kcwReset_ignored hw hl, fun hs hc he => ?_⟩
    obtain ⟨tab, ht, hother⟩ := kcwReset_ends hl hs hc he
    refine ⟨_, (exec_kcwReset_runs hw hs).trans (congrArg Host.Outcome.next ht), ?_, fun i hi => ?_, rfl⟩
    · exact tgetD_tset_same _ _ _ _
    · unfold getKcw
      rw [tgetD_tset_other _ _ _ _ _ hi, tgetD, hother i hi]
      rfl

end Sys2Proof.Machine
end

section
/-! Cores (O45): what a trap writes, what the end of an instruction leaves, which interrupts a return leaves pending, and the statement they make up. -/

namespace Sys2Proof.Machine

open Sys2Proof.Safety

/-! ### Control and status registers of a core -/

theorem getCore_setCore_other {i core : Nat} (h : i ≠ core) (c : Core) (s : State) : getCore i (setCore core c s) = getCore i s :=
  tgetD_tset_other _ _ _ _ _ h

@[simp] theorem getCore_stepEnd (i core : Nat) (s : State) : getCore i (stepEnd core s) = getCore i s := by
  unfold stepEnd
  split <;> rfl

@[simp] theorem getCore_setCsr_same (core a : Nat) (v : DWord) (s : State) :
    getCore core (setCsr core a v s) = { getCore core s with csr := tset (getCore core s).csr a v } := getCore_setCore_same _ _ _

@[simp] theorem csrRaw_setCsr_same (core a : Nat) (v : DWord) (s : State) : csrRaw core a (setCsr core a v s) = v := by simp [csrRaw]

theorem csrRaw_setCsr_other {core a k : Nat} (h : k ≠ a) (v : DWord) (s : State) : csrRaw core k (setCsr core a v s) = csrRaw core k s := by
  simp [csrRaw, tgetD_tset_other _ _ _ _ _ h]

@[simp] theorem csrRaw_stepEnd (core a : Nat) (s : State) : csrRaw core a (stepEnd core s) = csrRaw core a s := by simp [csrRaw]

/-- A CSR's value stands in the core's table. -/
theorem csrRaw_setCore (core a : Nat) (c : Core) (s : State) : csrRaw core a (setCore core c s) = tgetD c.csr a 0 := by simp [csrRaw]

/-! ### The mode stack of mstatus (R351, R354) -/

theorem b2n_bitOf (v k : Nat) : b2n (bitOf v k) = v / 2 ^ k % 2 := by
  unfold b2n bitOf
  rcases Nat.mod_two_eq_zero_or_one (v / 2 ^ k) with h | h <;> simp [h]

theorem bitOf_eq {v w k : Nat} (h : v / 2 ^ k % 2 = w) : bitOf v k = (w == 1) := by rw [bitOf, h]

/-- mstatus with a new mode stack, its other bits kept. -/
def statusWord (m : Nat) (ie pie : Bool) (mpp : Nat) : DWord :=
  BitVec.ofNat 64 (m - 8 * b2n (bitOf m mie) - 128 * b2n (bitOf m mpie) - 2048 * bits m 12 11 + 8 * b2n ie + 128 * b2n pie + 2048 * mpp)

theorem putStatus_eq (core : Nat) (ie pie : Bool) (mpp : Nat) (s : State) :
    putStatus core ie pie mpp s = setCsr core 0x300 (statusWord (mstatus core s) ie pie mpp) s := rfl

/-- MIE of a new mode stack reads as written. -/
theorem statusWord_ie (m : Nat) (ie pie : Bool) (mpp : Nat) : bitOf (statusWord m ie pie mpp).toNat 3 = ie := by
  have hi := b2n_le_one ie
  have hp := b2n_le_one pie
  refine (bitOf_eq ?_).trans (b2n_beq_one ie)
  simp only [statusWord, b2n_bitOf, mie, mpie, bits, BitVec.toNat_ofNat]
  omega

/-- MPIE of a new mode stack reads as written. -/
theorem statusWord_pie (m : Nat) (ie pie : Bool) (mpp : Nat) : bitOf (statusWord m ie pie mpp).toNat 7 = pie := by
  have hi := b2n_le_one ie
  have hp := b2n_le_one pie
  refine (bitOf_eq ?_).trans (b2n_beq_one pie)
  simp only [statusWord, b2n_bitOf, mie, mpie, bits, BitVec.toNat_ofNat]
  omega

/-- Clearing MPRV leaves MIE. -/
theorem bitOf_clear_mprv (v : DWord) : bitOf (v &&& ~~~0x20000#64).toNat 3 = bitOf v.toNat 3 := by
  have h (v : DWord) : bitOf v.toNat 3 = v.getLsbD 3 := by
    rw [BitVec.getLsbD, Nat.testBit_eq_decide_div_mod_eq, bitOf, beq_eq_decide]
  rw [h, h]
  simp

/-! ### Traps -/

/-- From s to t the core has taken a trap: mepc, mcause and mtval, M-mode with MIE stacked, and the pc; registers and applets are as they were (R351). -/
structure Trapped (core : Nat) (cause : DWord) (tval epc pc : DWord) (s t : State) : Prop where
  mepc : csrRaw core 0x341 t = epc
  mcause : csrRaw core 0x342 t = cause
  mtval : csrRaw core 0x343 t = tval
  user : (getCore core t).user = false
  pc : (getCore core t).pc = pc
  x : (getCore core t).x = (getCore core s).x
  ie : bitOf (mstatus core t) 3 = false
  pie : bitOf (mstatus core t) 7 = bitOf (mstatus core s) 3
  cur : curApplet core t = curApplet core s

/-- Where a trap goes: the vector's base, or for an interrupt in vectored mode its entry (R351). -/
def trapTarget (core cause : Nat) (s : State) : Nat :=
  if (csrRaw core 0x305 s).toNat % 4 = 1 ∧ 2 ^ 63 ≤ cause then (csrRaw core 0x305 s).toNat / 4 * 4 + 4 * (cause - 2 ^ 63)
  else (csrRaw core 0x305 s).toNat / 4 * 4

/-- The core's registers of a trap: mepc, mcause, mtval and mstatus (R351). -/
def trapCsrs (core cause : Nat) (tval epc : DWord) (s : State) : Tab DWord :=
  tset (tset (tset (tset (getCore core s).csr 0x341 epc) 0x342 (BitVec.ofNat 64 cause)) 0x343 tval) 0x300
    (statusWord (mstatus core s) false (bitOf (mstatus core s) mie) (if (getCore core s).user then 0 else 3))

theorem getCore_takeTrap (core cause : Nat) (tval epc : DWord) (s : State) : getCore core (takeTrap core cause tval epc s) =
    { getCore core s with csr := trapCsrs core cause tval epc s, pc := BitVec.ofNat 64 (trapTarget core cause s), user := false, wfi := false } := by
  have hstatus : mstatus core (setCsr core 0x343 tval (setCsr core 0x342 (BitVec.ofNat 64 cause) (setCsr core 0x341 epc s))) = mstatus core s := by
    unfold mstatus
    rw [csrRaw_setCsr_other (by decide), csrRaw_setCsr_other (by decide), csrRaw_setCsr_other (by decide)]
  unfold takeTrap
  dsimp only
  rw [putStatus_eq, hstatus]
  simp only [getCore_stepEnd, getCore_setCore_same, getCore_setCsr_same]
  rfl

theorem stepEnd_cores (core : Nat) (s : State) : (stepEnd core s).cores = s.cores := by
  unfold stepEnd
  split <;> rfl

/-- A trap leaves the applets where they are. -/
theorem takeTrap_applets (core cause : Nat) (tval epc : DWord) (s : State) : (takeTrap core cause tval epc s).cores.applets = s.cores.applets := by
  rw [takeTrap, stepEnd_cores]
  rfl

theorem takeTrap_trapped (core cause : Nat) (tval epc : DWord) (s : State) :
    Trapped core (BitVec.ofNat 64 cause) tval epc (BitVec.ofNat 64 (trapTarget core cause s)) s (takeTrap core cause tval epc s) := by
  have hc := getCore_takeTrap core cause tval epc s
  have hstatus : csrRaw core 0x300 (takeTrap core cause tval epc s) =
      statusWord (mstatus core s) false (bitOf (mstatus core s) mie) (if (getCore core s).user then 0 else 3) := by
    rw [csrRaw, hc]
    exact tgetD_tset_same _ _ _ _
  have hcsr {a : Nat} (ha : a ≠ 0x300) : csrRaw core a (takeTrap core cause tval epc s) =
      tgetD (tset (tset (tset (getCore core s).csr 0x341 epc) 0x342 (BitVec.ofNat 64 cause)) 0x343 tval) a 0 := by
    rw [csrRaw, hc]
    exact tgetD_tset_other _ _ _ _ _ ha
  refine ⟨?_, ?_, ?_, by rw [hc], by rw [hc], by rw [hc], ?_, ?_, ?_⟩
  · rw [hcsr (by decide), tgetD_tset_other _ _ _ _ _ (by decide), tgetD_tset_other _ _ _ _ _ (by decide), tgetD_tset_same]
  · rw [hcsr (by decide), tgetD_tset_other _ _ _ _ _ (by decide), tgetD_tset_same]
  · rw [hcsr (by decide), tgetD_tset_same]
  · rw [mstatus, hstatus, statusWord_ie]
  · rw [mstatus, hstatus, statusWord_pie]
    rfl
  · simp only [curApplet, appletIn, hc, takeTrap_applets]

/-- A trap taken while no applet runs ends none (R366). -/
theorem endTrapped_idle {core : Nat} {s t : State} (h : curApplet core t = none) : endTrapped core s t = t := by
  unfold endTrapped
  rw [h]
  dsimp only
  split <;> rfl

/-- A row of a core in M-mode ends no applet (R366). -/
theorem ownRow_machine {core : Nat} {s : State} (h : (getCore core s).user = false) (f : State → State) : ownRow core f s = f s := by
  simp [ownRow, endTrapped, h]

/-- A core in M-mode with MIE clear takes no interrupt (R353). -/
theorem irqNow_masked {core : Nat} {s : State} (hu : (getCore core s).user = false) (hie : bitOf (mstatus core s) 3 = false) : irqNow core s = s := by
  have h : irqEnabled core s = false := by simp [irqEnabled, hu, mie, hie]
  simp [irqNow, h]

/-! ### The end of an instruction -/

/-- What loops and the step of the pc leave, the end of an instruction leaves (R359). -/
theorem complete_keeps {β : Type} {core : Nat} {f : State → β} (hcsr : ∀ l v s, f (setCsr core (0x802 + 3 * l) v s) = f s)
    (hstep : ∀ n s, f (stepTo core n s) = f s) (a : DWord) (len : Nat) (n : DWord) (s : State) : f (complete core a len n s) = f s := by
  have hloop {l : Nat} {m n : DWord} {b : Bool} {s t : State} (h : loopOne core l a n len s = some (m, b, t)) : f t = f s := by
    unfold loopOne at h
    dsimp only at h
    split at h
    · split at h <;> cases h <;> exact hcsr _ _ _
    · cases h
  have hlast (t : State) : f (testLoop1 core a len n t) = f t := by
    unfold testLoop1
    split
    · rename_i h
      exact (hstep _ _).trans (hloop h)
    · exact hstep _ _
  have hfirst (t : State) : f (testLoop0 core a len n t) = f t := by
    unfold testLoop0
    split
    · rename_i h
      exact hloop h
    · rfl
  unfold complete
  cases h : loopOne core 0 a n len s with
  | none => exact hlast s
  | some r =>
    obtain ⟨m, stops, t⟩ := r
    cases stops with
    | true => exact (hstep m t).trans (hloop h)
    | false => exact (hlast _).trans ((hfirst t).trans (hloop h))

/-- With no loop armed an instruction goes to its next pc (R359). -/
theorem complete_unarmed {core : Nat} {s : State} (h0 : csrRaw core 0x802 s = 0) (h1 : csrRaw core 0x805 s = 0) (a : DWord) (len : Nat) (n : DWord) :
    complete core a len n s = stepTo core n s := by
  have hl0 : loopOne core 0 a n len s = none := by simp [loopOne, h0]
  have hl1 : loopOne core 1 a n len s = none := by simp [loopOne, h1]
  simp only [complete, hl0, hl1]
  rfl

theorem getCore_stepTo (core : Nat) (n : DWord) (s : State) :
    getCore core (stepTo core n s) = { getCore core s with pc := n, minstret := countedInstr core s } := by simp [stepTo]

/-! ### Interrupts pending -/

/-- What decides the interrupts pending at a core: the positions of the cores, the map and its lines, the units, the clock, the gate's queues, and the core's own marks (R353). -/
structure IrqsKept (core : Nat) (s t : State) : Prop where
  pos : ∀ i, corePos i t = corePos i s
  world : t.world = s.world
  units : t.units = s.units
  us : t.us = s.us
  goodAt : t.pwr.goodAt = s.pwr.goodAt
  gate : t.cores.gate = s.cores.gate
  notes : (getCore core t).notes = (getCore core s).notes
  done : (getCore core t).done = (getCore core s).done
  msip : (getCore core t).msip = (getCore core s).msip
  mtimecmp : (getCore core t).mtimecmp = (getCore core s).mtimecmp
  mie : csrRaw core 0x304 t = csrRaw core 0x304 s

theorem IrqsKept.trans {core : Nat} {s t u : State} (h : IrqsKept core s t) (k : IrqsKept core t u) : IrqsKept core s u :=
  ⟨fun i => (k.pos i).trans (h.pos i), k.world.trans h.world, k.units.trans h.units, k.us.trans h.us, k.goodAt.trans h.goodAt, k.gate.trans h.gate,
    k.notes.trans h.notes, k.done.trans h.done, k.msip.trans h.msip, k.mtimecmp.trans h.mtimecmp, k.mie.trans h.mie⟩

section Kept
variable {core : Nat} {s t : State} (h : IrqsKept core s t)
include h

theorem IrqsKept.coreU (i : Nat) : coreU i t = coreU i s := by simp only [Machine.coreU, h.pos, h.world]

theorem IrqsKept.gateServes (st : Nat) : gateServes st t = gateServes st s := by
  have hservice : hasServiceCore (partnerOf st) t = hasServiceCore (partnerOf st) s := by
    simp only [hasServiceCore, activeCores, coreActive, h.pos, h.coreU]
  rw [Machine.gateServes, Machine.gateServes, hservice]

theorem IrqsKept.coreMei (i : Nat) : coreMei i t = coreMei i s := by
  simp only [Machine.coreMei, lineToCore, lineHolder, getDge, getBank, h.pos, h.world, h.units]

/-- The interrupts pending at a core are those of its kept marks (R353). -/
theorem IrqsKept.irqs : irqs core t = irqs core s := by
  have hmip : mip core t = mip core s := by
    unfold mip mtime
    dsimp only
    rw [h.coreU, h.gateServes, h.coreMei, h.gate, h.notes, h.done, h.msip, h.mtimecmp, h.us, h.goodAt]
  rw [Machine.irqs, Machine.irqs, hmip, h.mie]

end Kept

/-- A core's registers, mode, pc and counts decide no interrupt but by mie. -/
theorem irqsKept_setCore {core : Nat} {c : Core} {s : State} (hs : c.state = (getCore core s).state) (hp : c.pos = (getCore core s).pos)
    (hn : c.notes = (getCore core s).notes) (hd : c.done = (getCore core s).done) (hm : c.msip = (getCore core s).msip)
    (ht : c.mtimecmp = (getCore core s).mtimecmp) (he : tgetD c.csr 0x304 0 = csrRaw core 0x304 s) : IrqsKept core s (setCore core c s) := by
  refine ⟨fun i => ?_, rfl, rfl, rfl, rfl, rfl, ?_, ?_, ?_, ?_, ?_⟩
  · by_cases hi : i = core
    · subst hi
      simp only [corePos, getCore_setCore_same, hs, hp]
    · simp only [corePos, getCore_setCore_other hi]
  all_goals simpa [csrRaw_setCore]

theorem irqsKept_setCsr {core a : Nat} (h : a ≠ 0x304) (v : DWord) (s : State) : IrqsKept core s (setCsr core a v s) :=
  irqsKept_setCore rfl rfl rfl rfl rfl rfl (tgetD_tset_other _ _ _ _ _ h.symm)

theorem irqsKept_stepEnd (core : Nat) (s : State) : IrqsKept core s (stepEnd core s) := by
  unfold stepEnd
  split <;> exact ⟨fun _ => rfl, rfl, rfl, rfl, rfl, rfl, rfl, rfl, rfl, rfl, rfl⟩

/-! ### MRET -/

/-- What an MRET leaves once it has popped the mode: mstatus, the mode and the interrupts pending. -/
theorem complete_returns (core : Nat) (a : DWord) (len : Nat) (n : DWord) (s : State) :
    irqs core (complete core a len n s) = irqs core s ∧ csrRaw core 0x300 (complete core a len n s) = csrRaw core 0x300 s ∧
      (getCore core (complete core a len n s)).user = (getCore core s).user := by
  have hcsr (l : Nat) (v : DWord) (s : State) : (irqs core (setCsr core (0x802 + 3 * l) v s), csrRaw core 0x300 (setCsr core (0x802 + 3 * l) v s)) =
      (irqs core s, csrRaw core 0x300 s) := by
    rw [(irqsKept_setCsr (by omega) v s).irqs, csrRaw_setCsr_other (by omega)]
  have hstep (n : DWord) (s : State) : (irqs core (stepTo core n s), csrRaw core 0x300 (stepTo core n s)) = (irqs core s, csrRaw core 0x300 s) := by
    have hset : IrqsKept core s (setCore core { getCore core s with pc := n, minstret := countedInstr core s } s) := irqsKept_setCore rfl rfl rfl rfl rfl rfl rfl
    rw [(hset.trans (irqsKept_stepEnd core _) : IrqsKept core s (stepTo core n s)).irqs, csrRaw, getCore_stepTo]
    rfl
  have h := complete_keeps (f := fun s => (irqs core s, csrRaw core 0x300 s)) hcsr hstep a len n s
  have hu := congrArg (fun p => p.2.2.2) (afterStep_complete core len a n s)
  exact ⟨congrArg Prod.fst h, congrArg Prod.snd h, hu⟩

theorem fabWrite_cores (a : Nat) (d : Bytes) (s : State) : (fabWrite a d s).cores = s.cores :=
  foldl_keeps (f := State.cores) (fun s (p : Nat × WmaCmd) => show (wmaUndefined p.2 s).cores = s.cores from rfl) _ _

/-- An upcall leaves the core's mode and its CSRs (R370). -/
theorem tryUpcall_keeps (core : Nat) (s : State) :
    (getCore core (tryUpcall core s)).user = (getCore core s).user ∧ csrRaw core 0x300 (tryUpcall core s) = csrRaw core 0x300 s := by
  have hwrite (a : Nat) (d : Bytes) : getCore core (fabWrite a d s) = getCore core s := by
    unfold getCore
    rw [fabWrite_cores]
  have happlet (inst : Nat) (g : Applet → Applet) (u : State) : getCore core (modApplet inst g u) = getCore core u := rfl
  unfold tryUpcall
  split
  · exact ⟨rfl, rfl⟩
  · split
    · simp [csrRaw, setX, happlet, hwrite]
    · exact ⟨rfl, rfl⟩

section Return
variable {core : Nat} {s : State} (hr : coreRuns core s = true) (hw : (getCore core s).wfi = false) (hu : (getCore core s).user = false)

/-- The state in which MRET completes: the mode stack popped, MPRV cleared on the way to U-mode (R354). -/
def modePopped (core : Nat) (s : State) : State :=
  let t := setCsr core 0x300 (statusWord (mstatus core s) (bitOf (mstatus core s) mpie) true 0) s
  if bits (mstatus core s) 12 11 == 0 then setCsr core 0x300 (csrRaw core 0x300 t &&& ~~~0x20000#64) t else t

theorem irqsKept_modePopped : IrqsKept core s (modePopped core s) := by
  unfold modePopped
  dsimp only
  split
  · exact (irqsKept_setCsr (by decide) _ _).trans (irqsKept_setCsr (by decide) _ _)
  · exact irqsKept_setCsr (by decide) _ _

theorem modePopped_ie : bitOf (csrRaw core 0x300 (modePopped core s)).toNat 3 = bitOf (mstatus core s) 7 := by
  unfold modePopped
  dsimp only
  split
  · rw [csrRaw_setCsr_same, csrRaw_setCsr_same, bitOf_clear_mprv, statusWord_ie]
    rfl
  · rw [csrRaw_setCsr_same, statusWord_ie]
    rfl

/-- The state in which MRET has gone to mepc in the mode it popped. -/
def returned (core : Nat) (s : State) : State :=
  let t := setCore core { getCore core (modePopped core s) with user := bits (mstatus core s) 12 11 == 0 } (modePopped core s)
  complete core (getCore core s).pc 4 (csrRaw core 0x341 t) t

theorem returned_keeps (core : Nat) (s : State) : irqs core (returned core s) = irqs core s ∧
    csrRaw core 0x300 (returned core s) = csrRaw core 0x300 (modePopped core s) ∧
    (getCore core (returned core s)).user = (bits (mstatus core s) 12 11 == 0) := by
  unfold returned
  dsimp only
  obtain ⟨hirqs, hcsr, huser⟩ := complete_returns core (getCore core s).pc 4
    (csrRaw core 0x341 (setCore core { getCore core (modePopped core s) with user := bits (mstatus core s) 12 11 == 0 } (modePopped core s)))
    (setCore core { getCore core (modePopped core s) with user := bits (mstatus core s) 12 11 == 0 } (modePopped core s))
  have hpop : IrqsKept core s (setCore core { getCore core (modePopped core s) with user := bits (mstatus core s) 12 11 == 0 } (modePopped core s)) :=
    irqsKept_modePopped.trans (irqsKept_setCore rfl rfl rfl rfl rfl rfl rfl)
  exact ⟨hirqs.trans hpop.irqs, hcsr.trans (csrRaw_setCore _ _ _ _), huser.trans (by rw [getCore_setCore_same])⟩

include hr hw hu

/-- MRET with nothing pending goes to mepc in the mode popped, its upcall first if it is an applet's (R354, R370). -/
theorem mret_returns (hi : irqs core s = []) : (getCore core (mret core s)).user = (bits (mstatus core s) 12 11 == 0) ∧
    bitOf (mstatus core (mret core s)) 3 = bitOf (mstatus core s) 7 := by
  obtain ⟨hirqs, hcsr, huser⟩ := returned_keeps core s
  have hmret : mret core s = if bits (mstatus core s) 12 11 == 0 then tryUpcall core (returned core s) else returned core s := by
    have hnone : (irqEnabled core (returned core s) && !(irqs core (returned core s)).isEmpty) = false := by simp [hirqs, hi]
    unfold mret
    simp only [hr, hw, hu, Bool.not_true, Bool.or_self, Bool.false_eq_true, if_false]
    exact if_neg (Bool.eq_false_iff.mp hnone)
  have hie : bitOf (mstatus core (returned core s)) 3 = bitOf (mstatus core s) 7 := by rw [mstatus, hcsr, modePopped_ie]
  rw [hmret]
  split
  · obtain ⟨hup, hupcsr⟩ := tryUpcall_keeps core (returned core s)
    exact ⟨hup.trans huser, by rw [mstatus, hupcsr]; exact hie⟩
  · exact ⟨huser, hie⟩

end Return

/-! ### WFI -/

section Wait
variable {core : Nat} {s : State} (hr : coreRuns core s = true) (hu : (getCore core s).user = false)
include hr hu

theorem wfi_waits (hi : irqs core s = []) : wfi core s = setCore core { getCore core s with wfi := true } s := by
  simp [wfi, hr, hu, hi]

/-- With an interrupt pending and no loop armed WFI completes at once (R355, R359). -/
theorem wfi_completes (hi : irqs core s ≠ []) (h0 : csrRaw core 0x802 s = 0) (h1 : csrRaw core 0x805 s = 0) :
    (getCore core (wfi core s)).pc = (getCore core s).pc + 4 ∧ (getCore core (wfi core s)).wfi = false := by
  have hrun : wfi core s = complete4 core (setCore core { getCore core s with wfi := false } s) := by simp [wfi, hr, hu, hi]
  generalize hc : ({ getCore core s with wfi := false } : Core) = c at hrun
  have hcsr (a : Nat) : csrRaw core a (setCore core c s) = csrRaw core a s := by rw [csrRaw_setCore, ← hc, csrRaw]
  rw [hrun, complete4, complete_unarmed ((hcsr _).trans h0) ((hcsr _).trans h1), getCore_stepTo, getCore_setCore_same, ← hc]
  exact ⟨rfl, rfl⟩

end Wait

/-! ### Instructions -/

theorem takesStep_here {core : Nat} {s : State} (hr : coreRuns core s = true) (hw : (getCore core s).wfi = false) {i : CoreStep} (hpc : (getCore core s).pc = i.addr) (hlen : i.len = 2 ∨ i.len = 4) : takesStep core i s = true := by
  simp [takesStep, hr, hw, hpc, hlen]

/-- The register an instruction writes. -/
def registerWritten (core : Nat) (i : CoreStep) (s : State) : State :=
  match i.wrote with
  | some (r, v) => setX core (r % 32) v s
  | none => s

/-- The core but for its integer and vector registers, and the units. -/
def besideRegisters (core : Nat) (s : State) : Units × Core := (s.units, { getCore core s with x := [], v := [] })

theorem besideRegisters_setX (core r : Nat) (v : DWord) (s : State) : besideRegisters core (setX core r v s) = besideRegisters core s := by
  by_cases hr : r = 0
  · simp [setX, hr]
  · simp only [besideRegisters, setX, hr, if_false, getCore_setCore_same]
    rfl

theorem besideRegisters_registerWritten (core : Nat) (i : CoreStep) (s : State) : besideRegisters core (registerWritten core i s) = besideRegisters core s := by
  unfold registerWritten
  split
  · exact besideRegisters_setX _ _ _ _
  · rfl

/-- Vector results leave the integer registers and all that is beside the registers (R355). -/
theorem writeVector_keeps {core : Nat} {i : CoreStep} (hv : i.vset = []) (s : State) :
    (besideRegisters core (writeVector core i s), (getCore core (writeVector core i s)).x) = (besideRegisters core s, (getCore core s).x) := by
  unfold writeVector
  rw [hv, List.foldl_nil]
  refine foldl_keeps (f := fun s => (besideRegisters core s, (getCore core s).x)) (fun s p => ?_) i.vec s
  simp only [besideRegisters, getCore_setCore_same]
  rfl

/-- An instruction with no CSR, with no loop armed, completes with its results at its next pc (R355, R359). -/
theorem instruction_completes {core : Nat} {i : CoreStep} {s : State} (ht : takesStep core i s = true) (hc : i.csr = none) (hv : i.vset = []) (h0 : csrRaw core 0x802 s = 0) (h1 : csrRaw core 0x805 s = 0) :
    ∃ w, instruction core i s = stepTo core i.nextPc w ∧ besideRegisters core w = besideRegisters core s ∧
      (getCore core w).x = (getCore core (registerWritten core i s)).x := by
  have hkeeps := writeVector_keeps (core := core) hv (registerWritten core i s)
  obtain ⟨hbeside, hx⟩ := Prod.mk.inj hkeeps
  have hw := hbeside.trans (besideRegisters_registerWritten core i s)
  have hcsr : (getCore core (writeVector core i (registerWritten core i s))).csr = (getCore core s).csr := congrArg (fun p => p.2.csr) hw
  have hloop {a : Nat} (h : csrRaw core a s = 0) : csrRaw core a (writeVector core i (registerWritten core i s)) = 0 := by rw [csrRaw, hcsr]; exact h
  refine ⟨_, ?_, hw, hx⟩
  have hdenied : csrDenied core i s = false := by simp [csrDenied, hc]
  unfold instruction
  rw [ht, hdenied, hc]
  exact complete_unarmed (hloop h0) (hloop h1) _ _ _

theorem getX_of_x {core : Nat} {s t : State} (h : (getCore core t).x = (getCore core s).x) (k : Nat) : getX core k t = getX core k s := by
  unfold getX
  rw [h]

/-- An instruction writes its register and no other. -/
theorem getX_registerWritten (core : Nat) (i : CoreStep) (s : State) :
    (∀ r v, i.wrote = some (r, v) → r % 32 ≠ 0 → getX core (r % 32) (registerWritten core i s) = v) ∧
      (∀ k, (∀ r v, i.wrote = some (r, v) → k ≠ r % 32) → getX core k (registerWritten core i s) = getX core k s) := by
  unfold registerWritten
  cases h : i.wrote with
  | none => exact ⟨fun _ _ e => (nomatch e), fun k _ => rfl⟩
  | some p =>
    obtain ⟨r, v⟩ := p
    refine ⟨fun r' v' e hr => ?_, fun k hk => getX_setX_other (hk r v rfl) _ _⟩
    cases e
    exact getX_setX_same hr _ _

/-! ### The rows -/

section Row
variable {core : Nat} {s : State} (hlt : core < 72)
include hlt

theorem exec_instruction (i : CoreStep) : exec (.instruction core i) s = .next (ownRow core (instrThenIrq core i) s) := by
  change onUnit (core < 72) _ = _
  simp [onUnit, hlt]

theorem exec_trap_taken {cause tval : DWord} (h63 : cause.getLsbD 63 = false) (hcur : curApplet core s = none) :
    exec (.trap core cause tval) s = .next (ownRow core (trap core cause tval) s) := by
  have hcall : badCall core cause s = false := by simp [badCall, hcur]
  change execTrap core cause tval s = _
  unfold execTrap
  rw [h63, hcall]
  simp [onUnit, hlt]

theorem exec_interruptTaken (hr : coreRuns core s = true) : exec (.interruptTaken core) s = .next (irqNow core s) := by
  change execInterruptTaken core s = _
  simp [execInterruptTaken, onUnit, hlt, hr]

theorem exec_mret (hu : (getCore core s).user = false) : exec (.mret core) s = .next (mret core s) := by
  change execMret core s = _
  simp [execMret, onUnit, hlt, ownRow_machine hu]

theorem exec_wfi (hu : (getCore core s).user = false) : exec (.wfi core) s = .next (wfi core s) := by
  change execWfi core s = _
  simp [execWfi, onUnit, hlt, ownRow_machine hu]

end Row

/-- A row that traps while no applet runs leaves the trap taken (R351, R366). -/
theorem ownRow_traps {core cause : Nat} {tval epc : DWord} {f : State → State} {s : State} (hf : f s = takeTrap core cause tval epc s)
    (hcur : curApplet core s = none) : ownRow core f s = takeTrap core cause tval epc s := by
  rw [ownRow, hf]
  exact endTrapped_idle ((takeTrap_trapped core cause tval epc s).cur.trans hcur)

/-- An instruction whose CSR is denied traps as illegal, and no interrupt comes between (R348, R354). -/
theorem instrThenIrq_denied {core : Nat} {i : CoreStep} {s : State} (hr : coreRuns core s = true) (hw : (getCore core s).wfi = false) (hpc : (getCore core s).pc = i.addr) (hlen : i.len = 2 ∨ i.len = 4) (hd : csrDenied core i s = true) :
    instrThenIrq core i s = takeTrap core 2 (BitVec.ofNat 64 i.insn) i.addr s := by
  have hrun : instruction core i s = takeTrap core 2 (BitVec.ofNat 64 i.insn) i.addr s := by
    simp [instruction, takesStep_here hr hw hpc hlen, hd, illegal, hpc]
  have htrap := takeTrap_trapped core 2 (BitVec.ofNat 64 i.insn) i.addr s
  unfold instrThenIrq
  dsimp only
  rw [hrun]
  split
  · exact irqNow_masked htrap.user htrap.ie
  · rfl

/-- An interrupt other than a notification's is taken at the pc (R353). -/
theorem irqNow_takes {core n : Nat} {r : List Nat} {s : State} (hw : (getCore core s).wfi = false) (he : irqEnabled core s = true) (hi : irqs core s = n :: r) (hn : n ≠ 16) :
    irqNow core s = takeTrap core (2 ^ 63 + n) 0 (getCore core s).pc s := by
  simp [irqNow, takeIrq, he, hi, hn, hw]

/-- Settles O45. -/
theorem coresTrapAndReturn : Obligations.CoresTrapAndReturn := by
  unfold Obligations.CoresTrapAndReturn
  intro core s hlt hr hw
  refine ⟨fun i hpc hlen hcsr hv h0 h1 => ?instruction, fun i hpc hlen hd hcur => ?denied, fun cause tval h63 hcur => ?trap,
    fun n r he hi hn => ?interrupt, fun hu hi => ?mret, fun hu => ⟨fun hi => ?waits, fun hi h0 h1 => ?wakes⟩⟩
  case instruction =>
    obtain ⟨w, hrun, hbeside, hx⟩ := instruction_completes (takesStep_here hr hw hpc hlen) hcsr hv h0 h1
    have hrow : instrThenIrq core i s = stepTo core i.nextPc w := by
      simp [instrThenIrq, hcsr, hrun]
    have huser : (getCore core w).user = (getCore core s).user := congrArg (fun p => p.2.user) hbeside
    have hcsrs : (getCore core w).csr = (getCore core s).csr := congrArg (fun p => p.2.csr) hbeside
    have hcount : (getCore core w).minstret = (getCore core s).minstret := congrArg (fun p => p.2.minstret) hbeside
    have hunits : w.units = s.units := congrArg Prod.fst hbeside
    have hown : ownRow core (instrThenIrq core i) s = stepTo core i.nextPc w := by
      rw [ownRow, hrow, endTrapped, getCore_stepTo]
      simp [huser]
    have hget (k : Nat) : getX core k (stepTo core i.nextPc w) = getX core k (registerWritten core i s) :=
      getX_of_x (by rw [getCore_stepTo]; exact hx) k
    obtain ⟨hwrote, hother⟩ := getX_registerWritten core i s
    refine ⟨_, (exec_instruction hlt i).trans (congrArg Host.Outcome.next hown), ?_, ?_, fun r v e hr0 => (hget _).trans (hwrote r v e hr0),
      fun k hk => (hget k).trans (hother k hk), ?_, ?_⟩
    · rw [getCore_stepTo]
    · rw [getCore_stepTo]
      exact hcsrs
    · rw [getCore_stepTo]
      simp [countedInstr, csrRaw, hcsrs, hcount]
    · exact (congrArg Prod.fst (afterStep_stepTo core i.nextPc w)).trans hunits
  case denied =>
    have h := takeTrap_trapped core 2 (BitVec.ofNat 64 i.insn) i.addr s
    have hown := ownRow_traps (instrThenIrq_denied hr hw hpc hlen hd) hcur
    exact ⟨_, (exec_instruction hlt i).trans (congrArg Host.Outcome.next hown), h.mepc, h.mcause, h.mtval, h.user, h.x⟩
  case trap =>
    have hcause : cause.toNat < 2 ^ 63 := by
      have hlt := cause.isLt
      rw [BitVec.getLsbD, Nat.testBit_eq_decide_div_mod_eq, decide_eq_false_iff_not] at h63
      omega
    have htarget : trapTarget core cause.toNat s = (csrRaw core 0x305 s).toNat / 4 * 4 := if_neg fun h => absurd h.2 (Nat.not_le.mpr hcause)
    have htrap : trap core cause tval s = takeTrap core cause.toNat tval (getCore core s).pc s := by simp [trap, hr, hw]
    have h := takeTrap_trapped core cause.toNat tval (getCore core s).pc s
    rw [BitVec.ofNat_toNat, BitVec.setWidth_eq, htarget] at h
    exact ⟨_, (exec_trap_taken hlt h63 hcur).trans (congrArg Host.Outcome.next (ownRow_traps htrap hcur)), h.mepc, h.mcause, h.mtval, h.user, h.pc, h.ie,
      h.pie, h.x⟩
  case interrupt =>
    have h := takeTrap_trapped core (2 ^ 63 + n) 0 (getCore core s).pc s
    have htarget : trapTarget core (2 ^ 63 + n) s = if (csrRaw core 0x305 s).toNat % 4 = 1 then (csrRaw core 0x305 s).toNat / 4 * 4 + 4 * n
        else (csrRaw core 0x305 s).toNat / 4 * 4 := by
      simp [trapTarget]
    rw [htarget] at h
    exact ⟨_, (exec_interruptTaken hlt hr).trans (congrArg Host.Outcome.next (irqNow_takes hw he hi hn)), h.mepc, h.mcause, h.user, h.ie, h.x, h.pc⟩
  case mret =>
    exact ⟨_, exec_mret hlt hu, mret_returns hr hw hu hi⟩
  case waits => exact (exec_wfi hlt hu).trans (congrArg Host.Outcome.next (wfi_waits hr hu hi))
  case wakes => exact ⟨_, exec_wfi hlt hu, wfi_completes hr hu hi h0 h1⟩

end Sys2Proof.Machine
end

section
/-! The gate (O48): which stands are served, what a write behind the fabric leaves, what a call, a take and a return leave, the services, and the statement they make up. -/

namespace Sys2Proof.Machine

open Sys2Proof.Safety

/-! ### Where cores stand -/

/-- From s to t every core fills its position, under the same map. -/
structure Placed (s t : State) : Prop where
  pos : ∀ i, corePos i t = corePos i s
  map : t.world.map = s.world.map

theorem Placed.trans {s t u : State} (h : Placed s t) (k : Placed t u) : Placed s u := ⟨fun i => (k.pos i).trans (h.pos i), k.map.trans h.map⟩

theorem placed_of_cores {s t : State} (hc : t.cores.cores = s.cores.cores) (hm : t.world.map = s.world.map) : Placed s t :=
  ⟨fun i => by simp only [corePos, getCore, hc], hm⟩

theorem placed_setCore {core : Nat} {c : Core} {s : State} (hs : c.state = (getCore core s).state) (hp : c.pos = (getCore core s).pos) :
    Placed s (setCore core c s) := by
  refine ⟨fun i => ?_, rfl⟩
  by_cases hi : i = core
  · subst hi
    simp only [corePos, getCore_setCore_same, hs, hp]
  · simp only [corePos, getCore_setCore_other hi]

theorem placed_setX (core r : Nat) (v : DWord) (s : State) : Placed s (setX core r v s) := by
  unfold setX
  split
  · exact ⟨fun _ => rfl, rfl⟩
  · exact placed_setCore rfl rfl

/-- What cores that stand where they stood serve (R372, R535). -/
theorem Placed.pairUnserved {s t : State} (h : Placed s t) (st : Nat) : pairUnserved st t = pairUnserved st s := by
  simp only [Machine.pairUnserved, hasServiceCore, activeCores, coreActive, Machine.coreU, h.pos, h.map]

/-- The end of an instruction leaves the positions, the map, the gate's queues and its taken calls, and the free values. -/
theorem complete4_leaves (core : Nat) (s : State) : Placed s (complete4 core s) ∧ (complete4 core s).cores.gate = s.cores.gate ∧
    (complete4 core s).cores.taken = s.cores.taken ∧ (complete4 core s).free = s.free := by
  have h := complete_keeps (core := core) (f := fun s => ((fun i => corePos i s), s.world.map, s.cores.gate, s.cores.taken, s.free)) (fun l v s => ?_) (fun n s => ?_)
    (getCore core s).pc 4 ((getCore core s).pc + 4) s
  · simp only [Prod.mk.injEq] at h
    obtain ⟨hpos, hmap, hgate, htaken, hfree⟩ := h
    exact ⟨⟨congrFun hpos, hmap⟩, hgate, htaken, hfree⟩
  · have hset : Placed s (setCsr core (0x802 + 3 * l) v s) := placed_setCore rfl rfl
    simp only [funext hset.pos]
    rfl
  · have hset : Placed s (setCore core { getCore core s with pc := n, minstret := countedInstr core s } s) := placed_setCore rfl rfl
    have hstep : (fun i => corePos i (stepTo core n s)) = fun i => corePos i s := by
      funext i
      rw [← hset.pos i]
      simp only [corePos, stepTo, getCore_stepEnd]
    simp only [hstep]
    unfold stepTo stepEnd
    split <;> rfl

/-! ### Writes behind the fabric -/

theorem fabWrite_store (a : Nat) (d : Bytes) (s : State) : (fabWrite a d s).store = s.store :=
  foldl_keeps (f := State.store) (fun s (p : Nat × WmaCmd) => show (wmaUndefined p.2 s).store = s.store from rfl) _ _

theorem fabWrite_world (a : Nat) (d : Bytes) (s : State) : (fabWrite a d s).world = s.world :=
  foldl_keeps (f := State.world) (fun s (p : Nat × WmaCmd) => show (wmaUndefined p.2 s).world = s.world from rfl) _ _

/-- What a write leaves in the memory hangs on the units and the free values alone (R183). -/
theorem fabWrite_fab_congr {s t : State} (hu : t.units = s.units) (hf : t.free = s.free) (a : Nat) (d : Bytes) :
    (fabWrite a d t).units.fab = (fabWrite a d s).units.fab := by
  have hfold (l : List (Nat × WmaCmd)) : ∀ u v : State, u.units.fab = v.units.fab → u.free = v.free →
      (l.foldl (fun s p => wmaUndefined p.2 s) u).units.fab = (l.foldl (fun s p => wmaUndefined p.2 s) v).units.fab := by
    induction l with
    | nil => exact fun u v h _ => h
    | cons p r ih =>
      intro u v hfab hfree
      refine ih _ _ ?_ (congrArg (· + 1) hfree)
      simp only [wmaUndefined, drawBytes, draw, fabStore, hfab, hfree]
  unfold fabWrite
  dsimp only
  have hopen : t.units.wmaOpen = s.units.wmaOpen := by rw [hu]
  simp only [fabStore, hopen]
  exact hfold _ _ _ (by simp only [hu]) hf

/-! ### Calls -/

/-- The lowest index of which no call is out (R363). -/
theorem callIndex_free : ∀ n < 16, n ≠ 15 → ((List.range 4).find? (fun i => !bitOf n i)).getD 0 < 4 ∧
    bitOf n (((List.range 4).find? (fun i => !bitOf n i)).getD 0) = false := by decide

/-- The index a call gets. -/
def callIndex (core : Nat) (s : State) : Nat := ((List.range 4).find? (fun i => !bitOf (getCore core s).out i)).getD 0

/-- The call a core makes (R363, R372). -/
def callMade (core frame service : Nat) (s : State) : GateCall :=
  { ticket := ticketOf core (callIndex core s) (getCore core s).callSeq, core := core, index := callIndex core s, slot := bits (csrRaw core 0x7C0 s).toNat 6 4
    owner := (getCore core s).owner.getD 0, service := service, frame := fabAddr (core / 9) frame
    request := memReadN s.units.fab (fabAddr (core / 9) frame) 64 }

/-- The applet that makes a call has it out (R366). -/
def appletCalls (core i : Nat) (s : State) : State :=
  match curApplet core s with
  | some (inst, _) => modApplet inst (fun a => { a with calls := addNew a.calls i }) s
  | none => s

theorem appletCalls_keeps (core i : Nat) (s : State) : (appletCalls core i s).cores.cores = s.cores.cores ∧
    (appletCalls core i s).cores.gate = s.cores.gate ∧ (appletCalls core i s).store = s.store ∧ (appletCalls core i s).world = s.world := by
  unfold appletCalls
  split <;> exact ⟨rfl, rfl, rfl, rfl⟩

/-- The frame is PENDING and the call out (steps 2 and 4 of R363). -/
def callPending (core frame : Nat) (s : State) : State :=
  appletCalls core (callIndex core s) (setCore core
    { getCore core s with out := (getCore core s).out ||| 2 ^ callIndex core s, callSeq := ((getCore core s).callSeq + 1) % 2 ^ 20 }
    (fabWrite (fabAddr (core / 9) frame + 0x40) (layout 64 [(0, 1, 1)]) s))

/-- The call stands at the end of its stand's queue (step 3 of R363). -/
def callQueued (core frame service : Nat) (s : State) : State :=
  { callPending core frame s with
    cores.gate := tset (callPending core frame s).cores.gate (core / 9) (tgetD (callPending core frame s).cores.gate (core / 9) [] ++ [callMade core frame service s]) }

theorem callPending_keeps (core frame : Nat) (s : State) : Placed s (callPending core frame s) ∧ (callPending core frame s).cores.gate = s.cores.gate ∧
    (callPending core frame s).store = s.store ∧ (getCore core (callPending core frame s)).user = (getCore core s).user := by
  have hcores := fabWrite_cores (fabAddr (core / 9) frame + 0x40) (layout 64 [(0, 1, 1)]) s
  have hstore := fabWrite_store (fabAddr (core / 9) frame + 0x40) (layout 64 [(0, 1, 1)]) s
  have hworld := fabWrite_world (fabAddr (core / 9) frame + 0x40) (layout 64 [(0, 1, 1)]) s
  unfold callPending
  generalize fabWrite (fabAddr (core / 9) frame + 0x40) (layout 64 [(0, 1, 1)]) s = w at hcores hstore hworld ⊢
  have hcore : getCore core w = getCore core s := by simp only [getCore, hcores]
  have hgate : w.cores.gate = s.cores.gate := by rw [hcores]
  generalize hc : ({ getCore core s with out := (getCore core s).out ||| 2 ^ callIndex core s, callSeq := ((getCore core s).callSeq + 1) % 2 ^ 20 } : Core) = c
  obtain ⟨hkcores, hkgate, hkstore, hkworld⟩ := appletCalls_keeps core (callIndex core s) (setCore core c w)
  have hplaced : Placed s (setCore core c w) :=
    (placed_of_cores (congrArg Cores.cores hcores) (congrArg Worlds.map hworld)).trans (placed_setCore (by rw [hcore, ← hc]) (by rw [hcore, ← hc]))
  refine ⟨hplaced.trans (placed_of_cores hkcores (congrArg Worlds.map hkworld)), hkgate.trans hgate, hkstore.trans hstore, ?_⟩
  have huser : getCore core (appletCalls core (callIndex core s) (setCore core c w)) = getCore core (setCore core c w) := by simp only [getCore, hkcores]
  rw [huser, getCore_setCore_same, ← hc]

/-- An accepted call stands in its stand's queue, and its index in rd, where a service core may take it (R363, R535). -/
theorem gateAccept_queues {core : Nat} {s : State} (hserved : pairUnserved (core / 9) s = false) (rd frame service : Nat) :
    gateAccept core rd frame service s = complete4 core (setX core rd (BitVec.ofNat 64 (callIndex core s)) (callQueued core frame service s)) := by
  have hqueued : Placed s (callQueued core frame service s) := (callPending_keeps core frame s).1.trans (placed_of_cores rfl rfl)
  have h := (hqueued.trans (placed_setX core rd (BitVec.ofNat 64 (callIndex core s)) _)).trans (complete4_leaves core _).1
  refine if_neg (Bool.eq_false_iff.mp (?_ : pairUnserved (core / 9) (complete4 core (setX core rd (BitVec.ofNat 64 (callIndex core s))
    (callQueued core frame service s))) = false))
  rw [h.pairUnserved, hserved]

theorem callQueued_queue (core frame service : Nat) (s : State) :
    tgetD (callQueued core frame service s).cores.gate (core / 9) [] = tgetD s.cores.gate (core / 9) [] ++ [callMade core frame service s] := by
  rw [← (callPending_keeps core frame s).2.1]
  exact tgetD_tset_same _ _ _ _

section Call
variable {core rd rs1 rs2 : Nat} {s : State} (hr : coreRuns core s = true) (hw : (getCore core s).wfi = false) (hu : coreU core s = true)
  (hx : (getCore core s).user = false ∨ bitOf (csrRaw core 0x7C0 s).toNat 1 = true) (hp : pmpStoreOk core (getX core rs1 s).toNat 128 s = true)
include hr hw hu hx hp

/-- A core with every call out is refused (R363). -/
theorem gateCall_full (hout : (getCore core s).out = 15) :
    gateCall core rd rs1 rs2 s = complete4 core (setX core rd (BitVec.ofNat 64 (2 ^ 63 + 1)) s) := by
  have hallowed : ((getCore core s).user && !bitOf (csrRaw core 0x7C0 s).toNat 1) = false := by obtain h | h := hx <;> simp [h]
  simp [gateCall, hr, hw, hu, hallowed, hp, hout]

/-- A call that its frame, its service number and the access control pass is accepted (R363). -/
theorem gateCall_accepts (hout : (getCore core s).out ≠ 15) (ha : (getX core rs1 s).toNat % 128 = 0)
    (hb : inOwnBank core (getX core rs1 s).toNat 128 s = true) (hs : (getX core rs2 s).toNat < 4096)
    (hj : judge (coreTag core s) (core / 9) (getX core rs1 s).toNat 128 true false s = .ok) :
    gateCall core rd rs1 rs2 s = gateAccept core rd (getX core rs1 s).toNat (getX core rs2 s).toNat s := by
  have hallowed : ((getCore core s).user && !bitOf (csrRaw core 0x7C0 s).toNat 1) = false := by obtain h | h := hx <;> simp [h]
  simp [gateCall, hr, hw, hu, hallowed, hp, hout, ha, hb, hs, hj]

end Call

theorem exec_gateCall {core rd rs1 rs2 : Nat} {x : DWord} {s u : State} (hc : core < 72) (hd : rd < 32) (h1 : rs1 < 32) (h2 : rs2 < 32)
    (h : gateCall core rd rs1 rs2 s = complete4 core (setX core rd x u)) (huser : (getCore core u).user = (getCore core s).user) :
    exec (.gateCall core rd rs1 rs2) s = .next (complete4 core (setX core rd x u)) := by
  change execGateCall core rd rs1 rs2 s = _
  unfold execGateCall
  rw [ownRow_complete4 h ((setX_user _ _ _ _).trans huser)]
  simp [onUnit, hc, hd, h1, h2]

/-! ### Takes and returns -/

/-- A service core's take puts the oldest call into its buffer (R372). -/
theorem gateTake_takes {core addr st : Nat} {g : GateCall} {r : List GateCall} {s : State} (hr : coreRuns core s = true) (hu : coreU core s = false)
    (hf : (gateServes (core / 9) s).find? (fun st => !(tgetD s.cores.gate st []).isEmpty) = some st) (hg : tgetD s.cores.gate st [] = g :: r)
    (hb : inOwnBank core (addr / 128 * 128 % 2 ^ 48) 128 s = true) :
    (tgetD (gateTake core addr s).cores.gate st [] = r) ∧
      (gateTake core addr s).cores.taken = s.cores.taken ++ [{ g with server := some core, buffer := fabAddr (core / 9) (addr / 128 * 128 % 2 ^ 48) }] ∧
      (gateTake core addr s).units.fab = (fabWrite (fabAddr (core / 9) (addr / 128 * 128 % 2 ^ 48)) (takeEntry g) s).units.fab := by
  have hcores := fabWrite_cores (fabAddr (core / 9) (addr / 128 * 128 % 2 ^ 48)) (takeEntry g) s
  unfold gateTake
  simp only [hr, hu, hf, hg, hb, Bool.not_true, Bool.or_self, Bool.false_eq_true, if_false]
  exact ⟨tgetD_tset_same _ _ _ _, by rw [hcores], trivial⟩

/-- Waking the applets that wait for calls leaves the units and the taken calls. -/
theorem wakeCalls_keeps (core : Nat) (s : State) : (wakeCalls core s).units = s.units ∧ (wakeCalls core s).cores.taken = s.cores.taken := by
  have h := foldl_keeps (f := fun s : State => (s.units, s.cores.taken)) (g := fun s (p : Nat × Nat) =>
    match tget s.cores.applets p.2 with
    | some a =>
      let c := getCore core s
      match a.wait with
      | .calls m =>
        let d := c.done &&& m
        if d = 0 then s
        else modApplet p.2 (fun a => { a with wait := .none, saved := { a.saved with x := tset a.saved.x 10 (BitVec.ofNat 64 d) } })
          (setCore core { c with done := c.done - d } s)
      | _ => s
    | none => s) (fun s p => by
      dsimp only
      split
      · split
        · split <;> rfl
        · rfl
      · rfl) (getCore core s).slots s
  exact ⟨congrArg Prod.fst h, congrArg Prod.snd h⟩

/-- A response reaches its caller's frame, and its call is taken no more (R364). -/
theorem gateFinish_answers (g : GateCall) (resp : Bytes) (s : State) :
    (gateFinish g resp s).units.fab = (fabWrite (g.frame + 0x40) ([2] ++ (padTo 64 resp).drop 1) s).units.fab ∧
      ∀ x ∈ (gateFinish g resp s).cores.taken, x.ticket ≠ g.ticket := by
  unfold gateFinish
  dsimp only
  rw [(wakeCalls_keeps _ _).1, (wakeCalls_keeps _ _).2]
  refine ⟨rfl, fun x hx => ?_⟩
  simpa using (List.mem_filter.mp hx).2

section Ret
variable {core rs1 rs2 : Nat} {g : GateCall} {s : State} (hr : coreRuns core s = true) (hw : (getCore core s).wfi = false) (hu : coreU core s = false)
  (hm : (getCore core s).user = false) (ha : (getX core rs1 s).toNat % 64 = 0) (hb : inOwnBank core (getX core rs1 s).toNat 64 s = true)
  (hg : s.cores.taken.find? (fun g => g.ticket == (getX core rs2 s).toNat) = some g) (hc : g.cancelled = false)
include hr hw hu hm ha hb hg hc

/-- A return gives the call of its ticket the response read (R364). -/
theorem gateRet_finishes :
    gateRet core rs1 rs2 s = gateFinish g (memReadN s.units.fab (fabAddr (core / 9) (getX core rs1 s).toNat) 64) (complete4 core s) := by
  simp [gateRet, hr, hw, hu, hm, ha, hb, hg, hc]

end Ret

theorem exec_gateRet {core rs1 rs2 : Nat} {s : State} (hc : core < 72) (h1 : rs1 < 32) (h2 : rs2 < 32) (hm : (getCore core s).user = false) :
    exec (.gateRet core rs1 rs2) s = .next (gateRet core rs1 rs2 s) := by
  change execGateRet core rs1 rs2 s = _
  unfold execGateRet
  rw [ownRow_machine hm]
  simp [onUnit, hc, h1, h2]

/-! ### Services -/

/-- A call that waits for a service it is granted, of an ACTIVE owner, is served (R371). -/
theorem gateRow_serves {tk svc bit : Nat} {g : GateCall} {s : State} (h : GateServed tk svc bit g s) (f : GateCall → State → State) :
    gateRow tk svc f s = .next (f g s) := by
  obtain ⟨hfind, -, hsvc, hgrant, howner⟩ := h
  simp [gateRow, hfind, hsvc, hgrant, howner]

/-- A service that changes the store runs where nothing forbids it (R80, R258, R541). -/
theorem gateStore_runs {tk : Nat} {s : State} (hr : storeRefuse s = none) (hs : storeStopped s = false) (hc : canChange s = true) (f : State → State) :
    gateStore tk f s = f s := by simp [gateStore, hr, hs, hc]

theorem gateDurable_now (tk : Nat) (body : Bytes) (s : State) : gateDurable tk false body s = gateAnswer tk (gateResp 0 0 body) s := rfl

section Service
variable {tk : Nat} {g : GateCall} {s : State}

section Random
variable (h : GateServed tk 0x001 0 g s) (h1 : 1 ≤ fld g.request 8 4) (h4 : fld g.request 8 4 ≤ 4096)
  (hp : probeOk (gateTag g s) (targetOf (g.core / 9) (fld g.request 0 8)) (fld g.request 0 8) (fld g.request 8 4) true s = true)
include h h1 h4 hp

/-- Random bytes go where the caller asked for them once the port holds them all (R221, R371). -/
theorem exec_gateRandom_answers {d : Bytes} {u : State} (ht : takeWire (g.server.getD 0 / 9) 5 (fld g.request 8 4) s = (some d, u)) :
    exec (.gateRandom tk) s = .next (gateAnswer tk (gateResp 0 0 (leBytes 4 (fld g.request 8 4)))
      (fabWrite (fabAddr (targetOf (g.core / 9) (fld g.request 0 8)) (fld g.request 0 8)) d u)) := by
  change execGateRandom tk s = _
  rw [execGateRandom, gateRow_serves h]
  simp [Nat.not_lt.mpr h1, Nat.not_lt.mpr h4, hp, ht]

theorem exec_gateRandom_waits {u : State} (ht : takeWire (g.server.getD 0 / 9) 5 (fld g.request 8 4) s = (none, u)) :
    exec (.gateRandom tk) s = .next u := by
  change execGateRandom tk s = _
  rw [execGateRandom, gateRow_serves h]
  simp [Nat.not_lt.mpr h1, Nat.not_lt.mpr h4, hp, ht]

end Random

theorem exec_gateCounterCreate (h : GateServed tk 0x010 1 g s) (hr : storeRefuse s = none) (hs : storeStopped s = false) (hc : canChange s = true)
    (hd : bitOf (fld g.request 0 4) 0 = false) (hroom : counterRoom g.owner s = none) :
    exec (.gateCounterCreate tk) s = .next (gateAnswer tk (gateResp 0 0 (leBytes 4 (newCounter g.owner s).1)) (newCounter g.owner s).2) := by
  change execGateCounterCreate tk s = _
  rw [execGateCounterCreate, gateRow_serves h, gateStore_runs hr hs hc, hd, Bool.false_and, if_neg Bool.false_ne_true, hroom]
  rfl

theorem exec_gateCounterInc {k : Counter} (h : GateServed tk 0x011 1 g s) (hr : storeRefuse s = none) (hs : storeStopped s = false)
    (hc : canChange s = true) (hd : bitOf (fld g.request 8 4) 0 = false) (hk : getCounter (fld g.request 0 4) (some g.owner) s = some k)
    (h0 : fld g.request 4 2 ≠ 0) (hv : k.value + fld g.request 4 2 < 2 ^ 64)
    (hb : k.value + fld g.request 4 2 < (if k.ceilSeq ≤ s.store.committed then k.ceiling else k.ceilOld)) :
    exec (.gateCounterInc tk) s = .next (gateAnswer tk (gateResp 0 0 (leBytes 8 (k.value + fld g.request 4 2)))
      (counterInc (fld g.request 0 4) (fld g.request 4 2) false k s).2) := by
  obtain ⟨u, hu, -⟩ := counterInc_below (n := fld g.request 0 4) hb
  change execGateCounterInc tk s = _
  rw [execGateCounterInc, gateRow_serves h, if_neg h0, gateStore_runs hr hs hc, hk]
  simp only [hd, Bool.false_and, Bool.false_eq_true, if_false, Nat.not_le.mpr hv, hu, gateDurable_now]

theorem exec_gateCounterRead {k : Counter} (h : GateServed tk 0x012 1 g s) (hr : storeRefuse s = none)
    (hk : getCounter (fld g.request 0 4) (some g.owner) s = some k) :
    exec (.gateCounterRead tk) s = .next (gateAnswer tk (gateResp 0 0 (leBytes 8 k.value)) s) := by
  change execGateCounterRead tk s = _
  rw [execGateCounterRead, gateRow_serves h, hr, hk]

/-- KEY_OP's entry stands in a context of the pool, for the caller's owner (R371). -/
theorem exec_keyOp_starts {c : Nat} (h : GateServed tk 0x020 2 g s) (hk : gateClass (fld (padTo 64 g.request) 0 1) = true) (hc : freePool s = some c)
    (h8 : fld (padTo 64 g.request) 1 1 < 8) : ∃ t x, exec (.keyOp tk) s = .next t ∧ getCtx c t = some x ∧ x.src = .gate tk ∧ x.owner = g.owner ∧
      x.entry = padTo 64 g.request ∧ ∀ i, i ≠ c → getCtx i t = getCtx i s := by
  have hrun : exec (.keyOp tk) s = _ := (show execKeyOp tk s = _ from gateRow_serves h _)
  simp only [hk, hc, Bool.not_true, Bool.false_eq_true, if_false, Nat.not_le.mpr h8] at hrun
  exact ⟨_, _, hrun, getCtx_setCtx_same _ _ _, rfl, rfl, rfl, fun i hi => getCtx_setCtx_other hi _ _⟩

theorem exec_keyInfo {slot : Nat} {k : KeyRec} (h : GateServed tk 0x021 3 g s) (hr : storeRefuse s = none)
    (hk : resolve (fld g.request 0 8) (some g.owner) s = some (slot, k)) :
    exec (.keyInfo tk) s = .next (gateAnswer tk (gateResp 0 0 (layout 16 [(0, 1, keyStateCode k.state), (1, 1, k.type), (2, 1, k.purpose),
      (4, 2, k.length), (8, 4, k.attr), (0x0C, 4, k.uses)])) s) := by
  change execKeyInfo tk s = _
  rw [execKeyInfo, gateRow_serves h, hr, hk]

end Service

/-- Settles O48. -/
theorem gateCompletes : Obligations.GateCompletes := by
  unfold Obligations.GateCompletes
  refine ⟨?call, ?take, ?ret, ?cancel, ?services⟩
  case call =>
    intro core rd rs1 rs2 s hc hd h1 h2 hr hw hu hx hp
    refine ⟨fun hout => exec_gateCall hc hd h1 h2 (gateCall_full hr hw hu hx hp hout) rfl, fun hout ha hb hs hj hserved h16 => ?_⟩
    obtain ⟨hi, hfree⟩ := callIndex_free _ h16 hout
    obtain ⟨-, -, hstore, huser⟩ := callPending_keeps core (getX core rs1 s).toNat s
    refine ⟨_, callMade core (getX core rs1 s).toNat (getX core rs2 s).toNat s, callIndex core s,
      exec_gateCall hc hd h1 h2 ((gateCall_accepts hr hw hu hx hp hout ha hb hs hj).trans (gateAccept_queues hserved _ _ _)) huser, ?_, hi, hfree, rfl, rfl,
      rfl, rfl, fun hd0 => (complete4_getX _ _ _).trans (getX_setX_same hd0 _ _), ?_⟩
    · have hgate : (setX core rd (BitVec.ofNat 64 (callIndex core s)) (callQueued core (getX core rs1 s).toNat (getX core rs2 s).toNat s)).cores.gate =
          (callQueued core (getX core rs1 s).toNat (getX core rs2 s).toNat s).cores.gate := by
        unfold setX
        split <;> rfl
      rw [(complete4_leaves _ _).2.1, hgate, callQueued_queue]
    · have hkept : (setX core rd (BitVec.ofNat 64 (callIndex core s)) (callQueued core (getX core rs1 s).toNat (getX core rs2 s).toNat s)).store = s.store := by
        rw [← hstore]
        unfold setX
        split <;> rfl
      rw [complete4_store, hkept]
  case take =>
    intro core addr st g r s hc hr hu hf hg hb
    have hrun : exec (.gateTake core addr) s = .next (gateTake core addr s) := if_pos (decide_eq_true hc)
    exact ⟨_, hrun, gateTake_takes hr hu hf hg hb⟩
  case ret =>
    intro core rs1 rs2 g s hc h1 h2 hr hw hu hm ha hb hg hcan
    obtain ⟨hfab, htaken⟩ := gateFinish_answers g (memReadN s.units.fab (fabAddr (core / 9) (getX core rs1 s).toNat) 64) (complete4 core s)
    refine ⟨_, (exec_gateRet hc h1 h2 hm).trans (congrArg Host.Outcome.next (gateRet_finishes hr hw hu hm ha hb hg hcan)), hfab.trans ?_, htaken⟩
    exact fabWrite_fab_congr (complete4_units core s) (complete4_leaves core s).2.2.2 _ _
  case cancel =>
    intro core mask s hc hr hm
    change execMgateCancel core mask s = _
    simp [execMgateCancel, onUnit, hc, hr, hm]
  case services =>
    exact fun tk g s => ⟨fun h h1 h4 hp => ⟨fun d u => exec_gateRandom_answers h h1 h4 hp, fun u => exec_gateRandom_waits h h1 h4 hp⟩,
      exec_gateCounterCreate, fun k => exec_gateCounterInc, fun k => exec_gateCounterRead, fun c => exec_keyOp_starts, fun slot k => exec_keyInfo⟩

end Sys2Proof.Machine
end

section
/-! Updates (O12): what the image commands, an update and its end leave of the start, what a handover's steps and a core's switch leave, and the statement they make up. -/

namespace Sys2Proof.Machine

open Sys2Proof.Safety

/-! ### Images -/

/-- A field of a string's beginning is a field of the string. -/
theorem fld_take {o l n : Nat} (h : o + l ≤ n) (b : Bytes) : fld (b.take n) o l = fld b o l := by
  rw [fld, fld, slice, slice, List.drop_take, List.take_take, Nat.min_eq_left (by omega)]

theorem getSlot_setSlot_same (n : Nat) (x : ImageSlot) (s : State) : getSlot n (setSlot n x s) = x := by
  unfold getSlot setSlot
  by_cases hn : n = 0 <;> simp [hn]

/-- A slot's record changes no other part of the start, and no key. -/
theorem setSlot_keeps (n : Nat) (x : ImageSlot) (s : State) :
    (setSlot n x s).start.preferred = s.start.preferred ∧ (setSlot n x s).store = s.store := by
  unfold setSlot
  split <;> exact ⟨rfl, rfl⟩

/-- In a recovery no quorum is asked for (R466). -/
theorem imageDesig_recovering {mb : Mb} {q : Req} {s : State} (h : recovering s = true) : imageDesig mb q s = none := if_pos h

theorem imageDesig_estate {mb : Mb} {q : Req} {s : State} (h : recovering s = false) : imageDesig mb q s = some ((adminOf 0 s).getD 0) :=
  if_neg (by rw [h]; exact Bool.false_ne_true)

section Images
variable {mb : Mb} {q : Req} {s : State}

/-- The free slot once a bundle stands in it (step 6 of R459). -/
def slotStaged (n : Nat) (b : Bytes) (s : State) : State :=
  setSlot n { valid := true, intact := true, info := imageInfo (b.take 256) } (setSlot n { getSlot n s with valid := false } s)

theorem exec_imageStage_recovering {b : Bytes} {n : Nat} (a : Accepted mb 0x0A01 q s) (hc : imageStageCheck mb q s = none) (hr : recovering s = true)
    (hb : stagedBundle mb q s = some b) (hn : freeSlot s = some n) (hok : componentsOk b = true) :
    exec (.imageStage mb) s = .next (finishMb mb { body := layout 8 [(0, 1, n), (4, 4, fld b 0x0C 4)] ++ sha384 (b.take 256) } (measureConfig (slotStaged n b s))) := by
  have hrun : imageStageRun mb q s =
      (.reply { body := layout 8 [(0, 1, n), (4, 4, fld (b.take 256) 0x0C 4)] ++ sha384 (b.take 256) }, measureConfig (slotStaged n b s)) := by
    unfold imageStageRun
    rw [hb, hn]
    dsimp only
    rw [if_pos hok]
    rfl
  rw [fld_take (by norm_num)] at hrun
  exact (runCmd_reply _ a ((guarded_run hc (imageDesig_recovering hr)).trans hrun) : execImageStage mb s = _)

/-- A commit prefers its slot and raises the SVN, and changes no slot and no power state (R465). -/
theorem imageCommitRun_prefers {s : State} (hr : recovering s = false) : ∃ r u, imageCommitRun mb q s = (.reply r, u) ∧ r.status = 0 ∧
    u.start.preferred = fld q.body 0 1 ∧ u.start.deviceSvn = max s.start.deviceSvn (getSlot (fld q.body 0 1) s).info.svn ∧
    u.start.slotA = s.start.slotA ∧ u.start.slotB = s.start.slotB ∧ u.pwr = s.pwr := by
  unfold imageCommitRun
  dsimp only
  rw [hr]
  exact ⟨_, _, rfl, rfl, rfl, rfl, rfl, rfl, rfl⟩

/-- A recovery's commit also clears the latch and the counts and orders a cold start (R35, R466). -/
theorem imageCommitRun_recovers {s : State} (hr : recovering s = true) : ∃ r u, imageCommitRun mb q s = (.reply r, u) ∧
    u.start.preferred = fld q.body 0 1 ∧ u.pwr.orderedCold = some 6 ∧ u.start.seedling = none ∧
    u.start.deviceSvn = max s.start.deviceSvn (getSlot (fld q.body 0 1) s).info.svn ∧ u.start.startFails = 0 ∧ u.store = s.store := by
  unfold imageCommitRun
  dsimp only
  rw [hr]
  exact ⟨_, _, rfl, rfl, rfl, rfl, rfl, rfl, rfl⟩

theorem exec_imageCommit_recovering (a : Accepted mb 0x0A06 q s) (hc : imageCommitCheck mb q s = none) (hr : recovering s = true) :
    ∃ t, exec (.imageCommit mb) s = .next t ∧ t.start.preferred = fld q.body 0 1 ∧ t.pwr.orderedCold = some 6 ∧ t.start.seedling = none ∧
      t.start.deviceSvn = max s.start.deviceSvn (getSlot (fld q.body 0 1) s).info.svn ∧ t.start.startFails = 0 ∧ t.store = s.store := by
  obtain ⟨r, u, hrun, hpref, hcold, hseed, hsvn, hfails, hstore⟩ := imageCommitRun_recovers (mb := mb) (q := q) hr
  refine ⟨_, (runCmd_reply _ a ((guarded_run hc (imageDesig_recovering hr)).trans hrun) : execImageCommit mb s = _), ?_⟩
  rw [finishMb_start, finishMb_pwr, finishMb_store]
  exact ⟨hpref, hcold, hseed, hsvn, hfails, hstore⟩

theorem exec_quorumExecute_imageCommit {a : Approval} (h : Approved mb 0x0A06 q a s) (hc : imageCommitCheck mb a.req s = none) (hr : recovering s = false) :
    ∃ t, exec (.quorumExecute mb) s = .next t ∧ t.start.preferred = fld a.req.body 0 1 ∧
      t.start.deviceSvn = max s.start.deviceSvn (getSlot (fld a.req.body 0 1) s).info.svn ∧ t.start.slotA = s.start.slotA ∧
      t.start.slotB = s.start.slotB ∧ t.pwr = s.pwr := by
  obtain ⟨r, u, hrun, hs, hpref, hsvn, ha, hb, hpwr⟩ := imageCommitRun_prefers (mb := mb) (q := a.req) hr
  obtain ⟨t, ht, hex⟩ := exec_quorumExecute_effect h rfl hc hrun hs
  rw [← hex.start] at hpref hsvn ha hb
  exact ⟨t, ht, hpref, hsvn, ha, hb, hex.pwr.trans hpwr⟩

end Images

/-! ### The end of an update -/

/-- An update that ends DONE changes its own state and nothing else of the start (R464). -/
theorem finishUpdate_keeps (s : State) :
    (∃ x, (finishUpdate s).start = { s.start with upd := { s.start.upd with state := x } }) ∧ (finishUpdate s).store = s.store := by
  unfold finishUpdate
  split
  · exact ⟨⟨.done, refreshMode_start _⟩, refreshMode_store _⟩
  · exact ⟨⟨s.start.upd.state, rfl⟩, rfl⟩

/-- Where an abandoned update leaves the handover: before the swap it is over, in probation it swaps back, later the former image is loaded again (R461, R464). -/
theorem abandonUpdate_ends {cause : Nat} {s : State} (hr : s.start.upd.state = .running) :
    (abandonUpdate cause s).start.upd.state = .abandoned ∧ (abandonUpdate cause s).start.upd.cause = cause ∧
      (abandonUpdate cause s).start.preferred = s.start.preferred ∧ (abandonUpdate cause s).store = s.store ∧
      (s.start.handStep = 2 → (abandonUpdate cause s).start.handStep = 0) := by
  have hend : endUpdate cause s = { s with start.upd := { s.start.upd with state := .abandoned, cause := cause } } := if_pos hr
  unfold abandonUpdate
  dsimp only
  rw [refreshMode_start, refreshMode_store, hend]
  split
  · exact ⟨rfl, rfl, rfl, rfl, fun _ => rfl⟩
  · rename_i hno
    have h2 : s.start.handStep ≠ 2 := fun h => hno (by simp [h])
    split
    · exact ⟨rfl, rfl, rfl, rfl, fun h => absurd h h2⟩
    · split <;> exact ⟨rfl, rfl, rfl, rfl, fun h => absurd h h2⟩

section Commands
variable {mb : Mb} {q : Req} {s : State}

theorem exec_updateAbandon_running (a : Accepted mb 0x0A05 q s) (hr : s.start.upd.state = .running) :
    ∃ t, exec (.updateAbandon mb) s = .next t ∧ t.start.upd.state = .abandoned ∧ t.start.upd.cause = 1 ∧ t.start.preferred = s.start.preferred ∧
      t.store = s.store := by
  obtain ⟨hstate, hcause, hpref, hstore, -⟩ := abandonUpdate_ends (cause := 1) hr
  refine ⟨_, (runCmd_reply _ a (if_neg (not_not.mpr hr)) : execUpdateAbandon mb s = _), ?_⟩
  rw [finishMb_start, finishMb_store]
  exact ⟨hstate, hcause, hpref, hstore⟩

/-- An approved update begins for the components named, from the other slot into the one named (R460). -/
theorem exec_quorumExecute_updateApply {a : Approval} (h : Approved mb 0x0A03 q a s) (hc : updateApplyCheck mb a.req s = none) :
    ∃ t, exec (.quorumExecute mb) s = .next t ∧ t.start.upd.comps = fld a.req.body 1 1 % 8 ∧ t.start.upd.dst = fld a.req.body 0 1 ∧
      t.start.upd.src = 1 - fld a.req.body 0 1 ∧ t.start.preferred = s.start.preferred := by
  have hbegins : ∃ r u, updateApplyRun mb a.req s = (.reply r, u) ∧ r.status = 0 ∧ u.start.upd.comps = fld a.req.body 1 1 % 8 ∧
      u.start.upd.dst = fld a.req.body 0 1 ∧ u.start.upd.src = 1 - fld a.req.body 0 1 ∧ u.start.preferred = s.start.preferred := by
    refine ⟨_, _, rfl, rfl, ?_⟩
    obtain ⟨⟨x, hx⟩, -⟩ := finishUpdate_keeps (refreshMode (if
      compNeeded 0 { s with start.upd := { state := .running, comps := fld a.req.body 1 1 % 8, src := 1 - fld a.req.body 0 1, dst := fld a.req.body 0 1 } } &&
        s.start.runW != fld a.req.body 0 1 then
      { s with
        start.upd := { state := .running, comps := fld a.req.body 1 1 % 8, src := 1 - fld a.req.body 0 1, dst := fld a.req.body 0 1 }
        start.handStep := 1, start.standby := .updating }
      else { s with start.upd := { state := .running, comps := fld a.req.body 1 1 % 8, src := 1 - fld a.req.body 0 1, dst := fld a.req.body 0 1 } }))
    simp only [hx, refreshMode_start]
    split <;> exact ⟨rfl, rfl, rfl, rfl⟩
  obtain ⟨r, u, hrun, hs, hcomps, hdst, hsrc, hpref⟩ := hbegins
  obtain ⟨t, ht, hex⟩ := exec_quorumExecute_effect h rfl hc hrun hs
  rw [← hex.start] at hcomps hdst hsrc hpref
  exact ⟨t, ht, hcomps, hdst, hsrc, hpref⟩

theorem exec_wardenHandover (a : Accepted mb 0x0A08 q s) (hc : wardenHandoverCheck mb q s = none) :
    ∃ t, exec (.wardenHandover mb) s = .next t ∧ t.start.handPlain = true ∧ t.start.handStep = 3 ∧ (getMb mb t).wait = .handover ∧ t.store = s.store := by
  refine ⟨_, (runCmd_hold _ a (direct_run hc) : execWardenHandover mb s = _), ?_⟩
  rw [holdMb_start, holdMb_store, refreshMode_start, refreshMode_store]
  exact ⟨rfl, rfl, (holdMb_wait _ _ _ _).1, rfl⟩

end Commands

/-! ### Recalibration -/

/-- A record in force changes no generation of the set, and no bank and no free value but for a bank's own sensor (R467, R508). -/
theorem applyCal_keeps (s : State) (r : Bytes) : (applyCal s r).start.calGen = s.start.calGen ∧
    tget (applyCal s r).start.cal (256 * fld r 0 1 + fld r 1 1) = some r ∧
    (fld r 0 1 ≠ 4 → (applyCal s r).units.banks = s.units.banks ∧ (applyCal s r).free = s.free) := by
  unfold applyCal
  dsimp only
  split
  · exact ⟨rfl, tget_tset_same _ _ _, fun h => absurd ‹_› h⟩
  · exact ⟨rfl, tget_tset_same _ _ _, fun _ => ⟨rfl, rfl⟩⟩

theorem applyAllCal_keeps (rs : List Bytes) (s : State) : (rs.foldl applyCal s).start.calGen = s.start.calGen ∧
    ((∀ r ∈ rs, fld r 0 1 ≠ 4) → (rs.foldl applyCal s).units.banks = s.units.banks ∧ (rs.foldl applyCal s).free = s.free) := by
  induction rs generalizing s with
  | nil => exact ⟨rfl, fun _ => ⟨rfl, rfl⟩⟩
  | cons r rs ih =>
    obtain ⟨hgen, -, hbank⟩ := applyCal_keeps s r
    obtain ⟨hgens, hbanks⟩ := ih (applyCal s r)
    refine ⟨hgens.trans hgen, fun h => ?_⟩
    obtain ⟨hb, hf⟩ := hbank (h r List.mem_cons_self)
    obtain ⟨hbs, hfs⟩ := hbanks fun x hx => h x (List.mem_cons_of_mem _ hx)
    exact ⟨hbs.trans hb, hfs.trans hf⟩

/-- Indices 5 and 10 change no record, no generation, no unit and no free value (R447). -/
theorem measured_keeps (text ev : Bytes) (s : State) : (measureExtend 10 5 ev (measureSet 5 text s)).start.calGen = s.start.calGen ∧
    (measureExtend 10 5 ev (measureSet 5 text s)).start.cal = s.start.cal ∧ (measureExtend 10 5 ev (measureSet 5 text s)).units = s.units ∧
    (measureExtend 10 5 ev (measureSet 5 text s)).free = s.free := ⟨rfl, rfl, rfl, rfl⟩

/-- The records of a request in force, under the next generation (R467). -/
def calInForce (q : Req) (s : State) : State :=
  { (calRecords q).foldl applyCal s with start.calGen := ((calRecords q).foldl applyCal s).start.calGen + 1 }

theorem calibrateRun_measures (mb : Mb) (q : Req) (s : State) : ∃ r text ev, calibrateRun mb q s = (.reply r, measureExtend 10 5 ev (measureSet 5 text (calInForce q s))) ∧
    r.status = 0 := ⟨_, _, _, rfl, rfl⟩

/-- An approved recalibration puts its records in force under the next generation (R467). -/
theorem exec_quorumExecute_calibrate {mb : Mb} {q : Req} {a : Approval} {s : State} (h : Approved mb 0x0A20 q a s) (hc : calibrateCheck mb a.req s = none) :
    ∃ t, exec (.quorumExecute mb) s = .next t ∧ t.start.calGen = s.start.calGen + 1 ∧
      ((∀ r ∈ calRecords a.req, fld r 0 1 ≠ 4) → t.units.banks = s.units.banks ∧ t.free = s.free) ∧
      (∀ r, fld a.req.body 0 1 = 1 → calRecords a.req = [r] → tget t.start.cal (256 * fld r 0 1 + fld r 1 1) = some r) := by
  obtain ⟨hgen, hbanks⟩ := applyAllCal_keeps (calRecords a.req) s
  obtain ⟨r, text, ev, hrun, hs⟩ := calibrateRun_measures mb a.req s
  obtain ⟨hmgen, hmcal, hmunits, hmfree⟩ := measured_keeps text ev (calInForce a.req s)
  generalize measureExtend 10 5 ev (measureSet 5 text (calInForce a.req s)) = u at hrun hmgen hmcal hmunits hmfree
  obtain ⟨t, ht, hex⟩ := exec_quorumExecute_effect h rfl hc hrun hs
  refine ⟨t, ht, ?_, fun hr => ?_, fun x _ hx => ?_⟩
  · rw [hex.start, hmgen, ← hgen]
    rfl
  · obtain ⟨hb, hf⟩ := hbanks hr
    exact ⟨hex.banks.trans ((congrArg Units.banks hmunits).trans hb), hex.free.trans (hmfree.trans hf)⟩
  · have hone : (calInForce a.req s).start.cal = (applyCal s x).start.cal := by
      unfold calInForce
      rw [hx]
      rfl
    rw [hex.start, hmcal, hone]
    exact (applyCal_keeps s x).2.1

/-! ### The steps of a handover -/

/-- A failed self-test of the pair changes its count and its standing only (R452). -/
theorem pairTestFailed_start (s : State) : ∃ n x, (pairTestFailed s).start = { s.start with pairFails := n, standby := x } := by
  obtain ⟨hs, -⟩ := unitReport_start_store 0x0E (1 - s.start.active) false { s with start.pairFails := s.start.pairFails + 1 }
  unfold pairTestFailed
  dsimp only
  split
  · rw [serviceReport_start, hs]
    exact ⟨_, _, rfl⟩
  · rw [hs]
    exact ⟨_, _, rfl⟩

/-- What waits for a handover is answered: neither the start nor the store changes. -/
theorem deliverAll_keeps (ms : Tab Mbox) (op : Nat) (waits : MbWait → Bool) (r : State → Resp) (s : State) :
    (ms.foldl (fun s p => deliver (mbOfKey p.1) op waits (r s) s) s).start = s.start ∧
      (ms.foldl (fun s p => deliver (mbOfKey p.1) op waits (r s) s) s).store = s.store := by
  have h := foldl_keeps (f := beyondAnswer) (g := fun s (p : Nat × Mbox) => deliver (mbOfKey p.1) op waits (r s) s)
    (fun s p => beyondAnswer_deliver _ _ _ _ s) ms s
  have hstart := congrArg State.start h
  have hstore := congrArg State.store h
  exact ⟨hstart, hstore⟩

/-- The handover is over and the pair READY (step 6 of R461). -/
def pairReady (s : State) : State := { s with start.handStep := 0, start.handPlain := false, start.standby := .ready, start.pairFails := 0 }

/-- Indices 6 and 10 tell the image that runs, and a running update's Warden is done (R447, R461). -/
def pairMeasured (s : State) : State :=
  let t := measurePut 6 (slotInfo s.start.runW s).wdnDigest s
  let t := measureExtend 10 6 (measValue 6 t) t
  { t with start.upd := { t.start.upd with wdnDone := t.start.upd.state == .running } }

theorem handoverDone_true (s : State) : handoverDone true s = if s.start.handPlain then
    (refreshMode (pairReady s)).mbox.foldl (fun s p => deliver (mbOfKey p.1) 0x0A08 (· == .handover) { body := leBytes 8 s.start.epoch } s) (refreshMode (pairReady s))
    else finishUpdate (pairMeasured (pairReady s)) := rfl

/-- The last step of a handover leaves the pair READY and no handover under way (R461). -/
theorem handoverDone_ready (s : State) : (handoverDone true s).start.handStep = 0 ∧ (handoverDone true s).start.handPlain = false ∧
    (handoverDone true s).start.standby = .ready ∧ (handoverDone true s).store = s.store := by
  rw [handoverDone_true]
  split
  · obtain ⟨hstart, hstore⟩ := deliverAll_keeps (refreshMode (pairReady s)).mbox 0x0A08 (· == .handover) (fun s => { body := leBytes 8 s.start.epoch })
      (refreshMode (pairReady s))
    rw [hstart, hstore, refreshMode_start, refreshMode_store]
    exact ⟨rfl, rfl, rfl, rfl⟩
  · obtain ⟨⟨x, hx⟩, hstore⟩ := finishUpdate_keeps (pairMeasured (pairReady s))
    rw [hx, hstore]
    exact ⟨rfl, rfl, rfl, rfl⟩

section Handover
variable {s : State} (hw : wardenUp s = true)
include hw

/-- The row of a handover's step does what its step asks for (R461). -/
theorem exec_handoverStepDone (ok : Bool) : ∃ t, exec (.handoverStepDone ok) s = .next t ∧
    (s.start.handStep = 1 → t = { s with start.handStep := 2 }) ∧
    (s.start.handStep = 2 → ok = true → t = { s with start.handStep := 3 }) ∧
    (s.start.handStep = 2 → ok = false → s.start.upd.state = .running → t = pairTestFailed (abandonUpdate 2 s)) ∧
    (s.start.handStep = 3 → t = { s with start.handStep := 4 }) ∧ (s.start.handStep = 4 → ok = true → t = swapPairs s) ∧
    (s.start.handStep = 6 → t = handoverDone ok s) := by
  refine ⟨_, rfl, fun h => ?_, fun h ho => ?_, fun h ho hr => ?_, fun h => ?_, fun h ho => ?_, fun h => ?_⟩
  · simp only [hw, h, Bool.not_true, Bool.false_eq_true, if_false]
  · simp only [hw, h, ho, Bool.not_true, Bool.false_eq_true, if_false, if_true]
  · simp only [hw, h, ho, hr, Bool.not_true, Bool.false_eq_true, if_false, if_true]
  · simp only [hw, h, Bool.not_true, Bool.false_eq_true, if_false]
  · simp only [hw, h, ho, Bool.not_true, Bool.false_eq_true, if_false, if_true]
  · simp only [hw, h, Bool.not_true, Bool.false_eq_true, if_false]

theorem exec_probationEnd (h : s.start.handStep = 5) : exec .probationEnd s = .next { s with start.handStep := 6, start.standby := .updating } := by
  change execProbationEnd s = _
  simp [execProbationEnd, hw, h]

end Handover

/-- The swap makes the other pair active with the image it moves to, after a final epoch (step 4 of R461). -/
theorem swapPairs_swaps (s : State) : (swapPairs s).start.active = 1 - s.start.active ∧ (swapPairs s).start.runW = handTarget s ∧
    (swapPairs s).start.epoch = s.start.epoch + 1 ∧
    (swapPairs s).start.handStep = (if s.start.handPlain || s.start.upd.state == .abandoned then 6 else 5) ∧ (swapPairs s).store = s.store := by
  unfold swapPairs
  dsimp only
  split <;> exact ⟨rfl, rfl, rfl, rfl, rfl⟩

/-! ### The switch of a core -/

/-- A core in service fills the position it was given (R13). -/
theorem corePos_active {core : Nat} {s : State} (h : coreActive core s = true) : corePos core s = some ((getCore core s).pos.getD (core % 9)) := by
  unfold coreActive corePos at *
  split at h
  · contradiction
  · contradiction
  · contradiction
  · rfl

/-- A core that starts a scrub, or ends one, fills its position still, whatever else of the device has changed. -/
theorem placed_scrubbed {core : Nat} {c : Core} {s u : State} (hu : u.cores.cores = s.cores.cores) (hm : u.world.map = s.world.map)
    (h : coreActive core s = true) (hc : c.state = .scrubbing ∨ c.state = .idle) (hp : c.pos = (getCore core s).pos) : Placed s (setCore core c u) := by
  refine ⟨fun i => ?_, hm⟩
  by_cases hi : i = core
  · subst hi
    rw [corePos_active h, ← hp]
    rcases hc with hc | hc <;> simp only [corePos, getCore_setCore_same, hc]
  · have hcore : getCore i (setCore core c u) = getCore i s := (getCore_setCore_other hi c u).trans (by simp only [getCore, hu])
    simp only [corePos, hcore]

theorem Placed.coreActive {s t : State} (h : Placed s t) (i : Nat) : coreActive i t = coreActive i s := by rw [Machine.coreActive, Machine.coreActive, h.pos]

theorem Placed.serviceCores {s t : State} (h : Placed s t) : serviceCores t = serviceCores s := by
  simp only [Machine.serviceCores, coresInService, h.coreActive, coreU, h.pos, h.map]

theorem placed_cancelCalls (core : Nat) (s : State) : Placed s (cancelCalls core s) := by
  have hone (i : Nat) (s : State) : Placed s (cancelCall core i s) := by
    unfold cancelCall
    dsimp only
    split
    · have hset : Placed s (setCore core { getCore core s with out := (getCore core s).out - 2 ^ i } s) := placed_setCore rfl rfl
      exact hset.trans (placed_of_cores rfl rfl)
    · exact ⟨fun _ => rfl, rfl⟩
  have h := foldl_keeps (f := fun s : State => ((fun i => corePos i s), s.world.map)) (g := fun s i => cancelCall core i s)
    (fun s i => Prod.ext (funext (hone i s).pos) (hone i s).map) (List.range 4) s
  exact ⟨congrFun (congrArg Prod.fst h), congrArg Prod.snd h⟩

theorem placed_beginScrub {core : Nat} {s : State} (h : coreActive core s = true) : Placed s (beginScrub core s) := by
  have hport : Placed (cancelCalls core s) (cancelPort (core / 9) core (cancelCalls core s)) := by
    unfold cancelPort
    dsimp only
    split <;> exact placed_of_cores rfl rfl
  have hcalls := (placed_cancelCalls core s).trans hport
  exact hcalls.trans (placed_scrubbed rfl rfl (by rw [hcalls.coreActive, h]) (.inl rfl) rfl)

/-- What a scrub clears of a core's engine and interface leaves the cores. -/
theorem dropClaim_keeps (core : Nat) (s : State) : (restartIssue (· == core) (dropClaim core s)).cores = s.cores ∧
    (restartIssue (· == core) (dropClaim core s)).world.map = s.world.map := by
  unfold dropClaim
  dsimp only
  repeat' split
  all_goals exact ⟨rfl, rfl⟩

/-- A scrub ends with the core IDLE in its position (R375). -/
theorem endScrub_idle {core : Nat} {s : State} (h : coreActive core s = true) : Placed s (endScrub core s) ∧ (getCore core (endScrub core s)).state = .idle := by
  obtain ⟨hcores, hmap⟩ := dropClaim_keeps core s
  unfold endScrub
  generalize restartIssue (· == core) (dropClaim core s) = u at hcores hmap
  have hu : Placed s u := placed_of_cores (congrArg Cores.cores hcores) hmap
  have hactive : coreActive core u = true := by rw [hu.coreActive, h]
  dsimp only
  refine ⟨?_, by rw [getCore_setCore_same]⟩
  split <;> exact hu.trans (placed_scrubbed rfl rfl hactive (.inr rfl) rfl)

/-- A service core that has rejoined is counted, and with the last one the image that serves is the new one (R462). -/
def coreCounted (core dst : Nat) (s : State) : State :=
  let t := { s with start.upd := { s.start.upd with svcDone := core :: s.start.upd.svcDone } }
  if allIn t.start.upd.svcDone (serviceCores t) then finishUpdate (serviceSwitched dst t) else t

theorem coreCounted_more {core dst : Nat} {s : State} (h : allIn (core :: s.start.upd.svcDone) (serviceCores s) = false) :
    coreCounted core dst s = { s with start.upd := { s.start.upd with svcDone := core :: s.start.upd.svcDone } } := by
  have hcores : serviceCores { s with start.upd := { s.start.upd with svcDone := core :: s.start.upd.svcDone } } = serviceCores s :=
    (placed_of_cores rfl rfl).serviceCores
  refine if_neg ?_
  rw [hcores, h]
  exact Bool.false_ne_true

section Switch
variable {core : Nat} {s : State} (hc : core < 72) (hw : wardenUp s = true) (hr : s.start.upd.state = .running)
include hc hw hr

/-- A service core's switch scrubs it and counts it; one that is not the last ends there (R462). -/
theorem exec_serviceCoreSwitched (hs : (serviceCores s).contains core = true) (ht : serviceTurn s = true) (hd : s.start.upd.svcDone.contains core = false)
    (hjobs : (s.ctxs.any (fun p => p.2.state == .running && p.2.core == some core)) = false)
    (hcalls : (s.cores.taken.any (fun g => g.server == some core)) = false) (hmore : allIn (core :: s.start.upd.svcDone) (serviceCores s) = false) :
    ∃ t, exec (.serviceCoreSwitched core true) s = .next t ∧ t.start.upd.svcDone = core :: s.start.upd.svcDone ∧ t.start.runS = s.start.runS ∧
      (getCore core t).state = .idle ∧ t.store = s.store := by
  have hactive : coreActive core s = true := by
    have hmem := List.mem_filter.mp (List.mem_filter.mp (List.contains_iff_mem.mp hs)).1
    exact hmem.2
  have hbegin := placed_beginScrub hactive
  obtain ⟨hend, hidle⟩ := endScrub_idle (core := core) (s := beginScrub core s) (by rw [hbegin.coreActive, hactive])
  have hkept : kept (endScrub core (beginScrub core s)) = kept s := (kept_endScrub _ _).trans (kept_beginScrub _ _)
  have hstart := start_of_kept hkept
  have hstore := store_of_kept hkept
  have hcores := (hbegin.trans hend).serviceCores
  have hrun : exec (.serviceCoreSwitched core true) s = .next (coreCounted core s.start.upd.dst (endScrub core (beginScrub core s))) := by
    change execServiceCoreSwitched core true s = _
    unfold execServiceCoreSwitched
    simp only [onUnit, hc, hw, hs, hjobs, hcalls, hr, ht, hd, decide_true, Bool.not_true, Bool.not_false, Bool.or_self, Bool.and_self, Bool.false_eq_true,
      if_true, if_false]
    rfl
  generalize endScrub core (beginScrub core s) = v at hend hidle hstart hstore hcores hrun
  rw [coreCounted_more (by rw [hstart, hcores, hmore])] at hrun
  have hdone : core :: v.start.upd.svcDone = core :: s.start.upd.svcDone := by rw [hstart]
  have hruns : v.start.runS = s.start.runS := by rw [hstart]
  exact ⟨_, hrun, hdone, hruns, hidle, hstore⟩

theorem exec_gladeMonitorSwitched (hs : (gladeCores s).contains core = true) (h2 : compNeeded 2 s = true) (h1 : compDone 1 s = true)
    (hh : s.start.handStep = 0) (hm : s.start.runM ≠ s.start.upd.dst) (hd : s.start.upd.monDone.contains core = false) :
    (allIn (core :: s.start.upd.monDone) (gladeCores s) = false →
      exec (.gladeMonitorSwitched core true) s = .next { s with start.upd := { s.start.upd with monDone := core :: s.start.upd.monDone } }) ∧
    (allIn (core :: s.start.upd.monDone) (gladeCores s) = true →
      ∃ t, exec (.gladeMonitorSwitched core true) s = .next t ∧ t.start.runM = s.start.upd.dst ∧ t.store = s.store) := by
  have hrun : exec (.gladeMonitorSwitched core true) s = .next (if allIn (core :: s.start.upd.monDone) (gladeCores s) then
      finishUpdate (monitorSwitched s.start.upd.dst { s with start.upd := { s.start.upd with monDone := core :: s.start.upd.monDone } })
      else { s with start.upd := { s.start.upd with monDone := core :: s.start.upd.monDone } }) := by
    change execGladeMonitorSwitched core true s = _
    unfold execGladeMonitorSwitched
    simp only [onUnit, hc, hw, hs, hr, h1, h2, hh, hd, bne_iff_ne.mpr hm, decide_true, Bool.not_true, Bool.not_false, Bool.or_self, Bool.and_self,
      Bool.false_eq_true, beq_self_eq_true, Bool.true_or, if_true, if_false]
    rfl
  refine ⟨fun h => hrun.trans (by rw [h]; rfl), fun h => ?_⟩
  rw [h, if_pos rfl] at hrun
  obtain ⟨⟨x, hx⟩, hstore⟩ := finishUpdate_keeps (monitorSwitched s.start.upd.dst { s with start.upd := { s.start.upd with monDone := core :: s.start.upd.monDone } })
  refine ⟨_, hrun, ?_, hstore⟩
  rw [hx]
  rfl

end Switch

/-! ### The statement -/

/-- Settles O12: the commands by their answers and under their quorums, then the rows that go on by themselves. -/
theorem updateCommandsComplete : Obligations.UpdateCommandsComplete := by
  unfold Obligations.UpdateCommandsComplete
  refine ⟨fun mb q a b n s => ⟨fun h hc hr hb hn hok => ?stage,
    fun h hc hr hp => (runCmd_quorumMissing _ h hc (imageDesig_estate hr) (by rw [h.2.2.1]; exact hp) : execImageStage mb s = _),
    exec_imageCommit_recovering, fun h hc hr hp => (runCmd_quorumMissing _ h hc (imageDesig_estate hr) (by rw [h.2.2.1]; exact hp) : execImageCommit mb s = _),
    exec_quorumExecute_imageCommit, fun h hc hp => (runCmd_quorumMissing _ h hc rfl (by rw [h.2.2.1]; exact hp) : execUpdateApply mb s = _),
    exec_quorumExecute_updateApply, fun h hc hp => (runCmd_quorumMissing _ h hc rfl (by rw [h.2.2.1]; exact hp) : execCalibrate mb s = _),
    exec_quorumExecute_calibrate, fun h => (runCmd_reply _ h rfl : execImageQuery mb s = _), fun h => (runCmd_reply _ h rfl : execUpdateStatus mb s = _),
    fun h hk => (runCmd_reply _ h (if_pos hk) : execCalQuery mb s = _), exec_updateAbandon_running,
    fun h hr => (runCmd_reply _ h (if_pos hr) : execUpdateAbandon mb s = _), exec_wardenHandover⟩, fun s hw => ?rows⟩
  case stage =>
    obtain ⟨hpref, hstore⟩ := setSlot_keeps n { valid := true, intact := true, info := imageInfo (b.take 256) } (setSlot n { getSlot n s with valid := false } s)
    obtain ⟨hpref', hstore'⟩ := setSlot_keeps n { getSlot n s with valid := false } s
    exact ⟨_, exec_imageStage_recovering h hc hr hb hn hok, getSlot_setSlot_same _ _ _, hpref.trans hpref', hstore.trans hstore'⟩
  case rows =>
    obtain ⟨t, hrun, h1, h2, -, h3, h4, h6⟩ := exec_handoverStepDone hw true
    obtain ⟨u, hfail, -, -, hend, -⟩ := exec_handoverStepDone hw false
    refine ⟨fun h => by rw [hrun, h1 h], fun h => by rw [hrun, h2 h rfl], fun h hr => ⟨_, by rw [hfail, hend h rfl hr], ?fails⟩, fun h => by rw [hrun, h3 h],
      fun h => ⟨_, by rw [hrun, h4 h rfl], swapPairs_swaps s⟩, fun h => ⟨_, by rw [hrun, h6 h], handoverDone_ready s⟩, exec_probationEnd hw,
      fun core hc hr hs ht hd hjobs hcalls hmore => exec_serviceCoreSwitched hc hw hr hs ht hd hjobs hcalls hmore,
      fun core hc hr hs h2 h1 hh hm hd => exec_gladeMonitorSwitched hc hw hr hs h2 h1 hh hm hd⟩
    case fails =>
      obtain ⟨hstate, hcause, -, -, hstep⟩ := abandonUpdate_ends (cause := 2) hr
      obtain ⟨n, x, hx⟩ := pairTestFailed_start (abandonUpdate 2 s)
      rw [hx]
      exact ⟨hstate, hcause, hstep h⟩

end Sys2Proof.Machine
end

section
/-! Life cycle (O52): a further row of a programming that is under way, and the counterexample to the statement. -/

namespace Sys2Proof.Machine

open Sys2Proof.Safety

/-- A further row of LC_TRANSITION, not the last, completes one write of its programming, whatever the request asks for (R475). -/
theorem exec_lcTransition_continues {mb : Mb} {q : Req} {s : State} {r : LcRun} {x y : LcStep} {rest : List LcStep} (a : Accepted mb 0x0702 q s)
    (h : lcOurs mb q s = some r) (hx : r.todo = x :: y :: rest) :
    exec (.lcTransition mb) s = .next (lcStep r x { s with lc.run := some { r with todo := y :: rest } }) := by
  have hrun : s.lc.run = some r := (Option.filter_eq_some_iff.mp h).1
  have hlen : ¬ (x :: y :: rest).length ≤ 1 := by simp
  change execLcTransition mb s = _
  rw [execLcTransition, runCmd_accepted _ a, h]
  simp [lcContinue, lcAdvance, hrun, hx, applyAns]

theorem lcStep_todo (r : LcRun) (x : LcStep) (s : State) : (lcStep r x s).lc.run = s.lc.run := by cases x <;> rfl

/-! ### The counterexample -/

/-- LC_TRANSITION to PRODUCTION, under the REQ_ID of the request whose programming runs. -/
def toProductionReq : Req := { opcode := 0x0702, reqId := 7, body := [3] }

/-- The programming of PERSONALISE to PRODUCTION of the mailbox of PF 0, which its quorum has begun. -/
def toProduction : LcRun :=
  { src := .personalise, dst := .production, authBy := 4, auth := [], mb := .pf 0 0, reqId := 7, entryNo := true, todo := lcSteps .personalise .production }

/-- In PERSONALISE the mailbox sends LC_TRANSITION directly while that programming runs. -/
def sentWhileProgramming : State :=
  { mode := { chosen := true }, lc := { decoded := .personalise, run := some toProduction },
    mbox := [(mbKey (.pf 0 0), { cur := some toProductionReq })] }

theorem sentWhileProgramming_accepted : Accepted (.pf 0 0) 0x0702 toProductionReq sentWhileProgramming := ⟨rfl, rfl, rfl, rfl, rfl⟩

/-- Refutes O52: its clause on a direct LC_TRANSITION to PRODUCTION has it end QUORUM_MISSING, but where the programming that runs has the
mailbox and the REQ_ID of the request, whose checks then pass at once, the row completes a write of that programming (R475). -/
theorem not_lifeCycleCommandsComplete : ¬ Obligations.LifeCycleCommandsComplete := by
  unfold Obligations.LifeCycleCommandsComplete
  intro h
  obtain ⟨hcommands, -⟩ := h
  obtain ⟨-, -, -, -, hmissing, -⟩ := hcommands (.pf 0 0) toProductionReq ⟨0, 0, toProductionReq, none, 0, [], [], []⟩ sentWhileProgramming
  have hends := hmissing sentWhileProgramming_accepted rfl rfl rfl rfl
  have hwrites := exec_lcTransition_continues sentWhileProgramming_accepted (r := toProduction) rfl rfl
  have hrun := congrArg (fun s : State => s.lc.run.map (·.todo.length)) (Host.Outcome.next.inj (hwrites.symm.trans hends))
  simp only [lcStep_todo, finishMb_lc] at hrun
  exact absurd hrun (by decide)

end Sys2Proof.Machine
end

section
/-! The Lookout's own state, and the keys that a CLEAR takes, under the ends of work. -/

namespace Sys2Proof.Machine

/-- What an end of work leaves, whatever it ends: the Lookout, the SPDM sessions and the shares in the Sapwood. -/
def guarding (s : State) : Lookout × Tab Nat × Tab SapItem := (s.lko, s.host.spdm, s.store.sap)

theorem guarding_iff {s t : State} : guarding t = guarding s ↔ t.lko = s.lko ∧ t.host.spdm = s.host.spdm ∧ t.store.sap = s.store.sap := by
  simp [guarding]

/-! ### Messages, records and the mode -/

@[simp] theorem guarding_sendVec (f : Fn) (v : Nat) (s : State) : guarding (sendVec f v s) = guarding s := by
  unfold sendVec
  dsimp only
  repeat' split
  all_goals rfl

@[simp] theorem guarding_raiseEvent (f : Fn) (bit : Nat) (s : State) : guarding (raiseEvent f bit s) = guarding s := by
  unfold raiseEvent
  dsimp only
  split
  · rfl
  · exact guarding_sendVec _ _ _

@[simp] theorem guarding_vecAllPfs (v : Nat) (s : State) : guarding (vecAllPfs v s) = guarding s :=
  foldl_keeps (fun s p => guarding_sendVec (.pf p) v s) _ s

@[simp] theorem guarding_eventAllPfs (bit : Nat) (s : State) : guarding (eventAllPfs bit s) = guarding s :=
  foldl_keeps (fun s p => guarding_raiseEvent (.pf p) bit s) _ s

@[simp] theorem guarding_eventAllVfs (bit : Nat) (s : State) : guarding (eventAllVfs bit s) = guarding s :=
  foldl_keeps (fun s n => guarding_raiseEvent (.vf n) bit s) _ s

@[simp] theorem guarding_logPut (r : LogRec) (s : State) : guarding (logPut r s) = guarding s := by
  obtain ⟨l, hl⟩ := logPut_eq r s
  rw [hl]
  rfl

@[simp] theorem guarding_logCode (code origin : Nat) (arg : List (Nat × Nat × Nat)) (s : State) : guarding (logCode code origin arg s) = guarding s :=
  guarding_logPut _ s

@[simp] theorem guarding_refreshMode (s : State) : guarding (refreshMode s) = guarding s := by
  have hn (k : NoteKind) (a : Nat) (u : State) : guarding (notifyApplets k a u) = guarding u := rfl
  unfold refreshMode
  split
  · rfl
  · split
    · rfl
    · simp only [changeMode, hn, guarding_eventAllVfs, guarding_eventAllPfs, guarding_logCode]
      rfl

@[simp] theorem guarding_endJob (mb : Mb) (s : State) : guarding (endJob mb s) = guarding s := by
  unfold endJob hucDrop
  dsimp only
  repeat' split
  all_goals rfl

@[simp] theorem guarding_finishMb (mb : Mb) (r : Resp) (s : State) : guarding (finishMb mb r s) = guarding s := by
  have hrec (c op st ag : Nat) (u : State) : guarding (commandRec c mb op st ag u) = guarding u := guarding_logCode _ _ _ u
  have hset (b : Mbox) (u : State) : guarding (setMb mb b u) = guarding u := rfl
  unfold finishMb postResp
  dsimp only
  split
  · exact guarding_endJob mb s
  · rw [guarding_sendVec, hset, hset]
    split <;> split <;> simp only [hrec, guarding_endJob]

/-! ### Contexts -/

@[simp] theorem guarding_meterJob (x : Ctx) (w : Nat) (s : State) : guarding (meterJob x w s) = guarding s := by
  unfold meterJob
  dsimp only
  repeat' split
  all_goals rfl

@[simp] theorem guarding_countCut (x : Ctx) (s : State) : guarding (countCut x s) = guarding s := by
  unfold countCut countPorts countChecked
  dsimp only
  repeat' split
  all_goals rfl

@[simp] theorem guarding_cutShort (x : Ctx) (s : State) : guarding (cutShort x s).2 = guarding s := by
  unfold cutShort
  split <;> rfl

@[simp] theorem guarding_earlyOut (x : Ctx) (s : State) : guarding (earlyOut x s).2 = guarding s := by
  unfold earlyOut
  dsimp only
  repeat' split
  all_goals rfl

@[simp] theorem guarding_settle (c : Nat) (o : CtxOutcome) (s : State) : guarding (settle c o s) = guarding s := by
  unfold settle
  split
  · rfl
  · exact (guarding_meterJob _ _ _).trans (guarding_countCut _ s)

@[simp] theorem guarding_abort (c st : Nat) (s : State) : guarding (abort c st s) = guarding s := by
  unfold abort
  split
  · rfl
  · exact (guarding_settle _ _ _).trans ((guarding_earlyOut _ _).trans (guarding_cutShort _ s))

@[simp] theorem guarding_abortWhere (p : Ctx → Bool) (st : Nat) (s : State) : guarding (abortWhere p st s) = guarding s :=
  foldl_keeps (fun s (q : Nat × Ctx) => guarding_abort q.1 st s) _ s

@[simp] theorem guarding_voidCtx (c : Nat) (s : State) : guarding (voidCtx c s) = guarding s := by
  unfold voidCtx
  split
  · rfl
  · exact (guarding_meterJob _ _ _).trans ((guarding_countCut _ _).trans ((guarding_earlyOut _ _).trans (guarding_cutShort _ s)))

@[simp] theorem guarding_voidWhere (p : Ctx → Bool) (s : State) : guarding (voidWhere p s) = guarding s :=
  foldl_keeps (fun s (q : Nat × Ctx) => guarding_voidCtx q.1 s) _ s

/-! ### Cores, engines and multipliers -/

@[simp] theorem guarding_cancelCalls (core : Nat) (s : State) : guarding (cancelCalls core s) = guarding s := by
  refine foldl_keeps (fun s i => ?_) _ s
  unfold cancelCall
  dsimp only
  split <;> rfl

@[simp] theorem guarding_beginScrub (core : Nat) (s : State) : guarding (beginScrub core s) = guarding s := by
  refine Eq.trans ?_ (guarding_cancelCalls core s)
  unfold beginScrub cancelPort
  dsimp only
  split <;> rfl

@[simp] theorem guarding_endScrub (core : Nat) (s : State) : guarding (endScrub core s) = guarding s := by
  have h : guarding (dropClaim core s) = guarding s := by
    unfold dropClaim
    dsimp only
    repeat' split
    all_goals rfl
  unfold endScrub
  generalize dropClaim core s = u at h
  dsimp only
  split <;> exact h

@[simp] theorem guarding_orderedDone (st : Nat) (s : State) : guarding (orderedDone st s) = guarding s := by
  unfold orderedDone
  split
  · exact foldl_keeps (fun s c => guarding_endScrub c s) _ s
  · rfl

@[simp] theorem guarding_flushWma (v u : Nat) (s : State) : guarding (flushWma v u s) = guarding s := by
  unfold flushWma
  dsimp only
  split
  · rfl
  · exact foldl_keeps (f := guarding) (fun s (c : WmaCmd) => show guarding (wmaEnds c.core v s) = guarding s from rfl) _ s

@[simp] theorem guarding_orderedScrub (core : Nat) (s : State) : guarding (orderedScrub core s) = guarding s := by
  refine Eq.trans ?_ (guarding_beginScrub core s)
  unfold orderedScrub
  generalize beginScrub core s = u
  rfl

@[simp] theorem guarding_scrubAll (s : State) : guarding (scrubAll s) = guarding s :=
  (foldl_keeps (fun s st => guarding_orderedDone st s) _ _).trans
    ((foldl_keeps (fun s c => guarding_orderedScrub c s) _ _).trans
      (foldl_keeps (fun s u => guarding_flushWma 2 u s) _ s))

@[simp] theorem guarding_wipeEngines (s : State) : guarding (wipeEngines s) = guarding s :=
  foldl_keeps (f := guarding) (fun s g => show guarding (wipeDge g s) = guarding s from rfl) _ _

@[simp] theorem guarding_mapBanks (f : Bank → Bank) (s : State) : guarding (mapBanks f s) = guarding s := rfl
@[simp] theorem guarding_clearEnables (s : State) : guarding (clearEnables s) = guarding s := rfl

/-! ### Queues, rings and SAs -/

@[simp] theorem guarding_queueError (k : Nat) (c : QCause) (s : State) : guarding (queueError k c s) = guarding s := by
  unfold queueError
  repeat' split
  · rfl
  · rfl
  · exact guarding_raiseEvent _ _ _

@[simp] theorem guarding_ringError (k : Nat) (c : QCause) (s : State) : guarding (ringError k c s) = guarding s := by
  unfold ringError
  repeat' split
  · rfl
  · rfl
  · exact guarding_raiseEvent _ _ _

@[simp] theorem guarding_admitEntry (k no rem : Nat) (e : Bytes) (s : State) : guarding (admitEntry k no rem e s) = guarding s := by
  unfold admitEntry
  dsimp only
  split
  · split <;> rfl
  · split
    · split
      · exact guarding_settle _ _ _
      · rfl
    · rfl

@[simp] theorem guarding_admitAll (k n : Nat) (s : State) : guarding (admitAll k n s) = guarding s := by
  induction n generalizing s with
  | zero => rfl
  | succ n ih =>
    unfold admitAll
    repeat' split
    · rfl
    · rfl
    · rfl
    · exact (ih _).trans (guarding_admitEntry _ _ _ _ _)

@[simp] theorem guarding_queuesModeEnd (s : State) : guarding (queuesModeEnd s) = guarding s := by
  have hadmit (k : Nat) (u : State) : guarding (admitQ k u) = guarding u := by
    unfold admitQ
    split
    · rfl
    · exact guarding_admitAll _ _ u
  exact (foldl_keeps (fun s (p : Nat × Ring) => guarding_ringError p.1 _ s) _ _).trans
    (foldl_keeps (fun s (p : Nat × Queue) => (guarding_queueError p.1 _ _).trans (hadmit p.1 s)) _ s)

@[simp] theorem guarding_ringEvent (k p : Nat) (e : Bytes) (s : State) : guarding (ringEvent k p e s).1 = guarding s := by
  unfold ringEvent
  split
  · rfl
  · dsimp only
    split
    · rfl
    · split
      · exact guarding_ringError _ _ _
      · split
        · exact guarding_sendVec _ _ _
        · rfl

@[simp] theorem guarding_secyEvent (port kind sa pn : Nat) (s : State) : guarding (secyEvent port kind sa pn s) = guarding s := by
  have hr (k : Nat) (c : Prop) [Decidable c] (e : Bytes) : guarding (if c then ringEvent k 2 e s else (s, false)).1 = guarding s := by
    split
    · exact guarding_ringEvent _ _ _ _
    · rfl
  unfold secyEvent
  split
  · rfl
  · dsimp only
    split
    · rfl
    · split <;> rename_i h <;> exact (congrArg (fun x => guarding x.1) h).symm.trans (hr _ _ _)

@[simp] theorem guarding_removeSa (sa : Nat) (s : State) : guarding (removeSa sa s) = guarding s := by
  unfold removeSa dropSa unpin
  dsimp only
  repeat' split
  all_goals rfl

@[simp] theorem guarding_ethSettle (s : State) : guarding (ethSettle s) = guarding s := by
  refine foldl_keeps (fun s p => ?_) _ s
  dsimp only
  split
  · exact guarding_finishMb _ _ _
  · rfl

@[simp] theorem guarding_clearSas (s : State) : guarding (clearSas s) = guarding s :=
  (guarding_ethSettle _).trans ((foldl_keeps (f := guarding) (fun s (p : Nat × Sa) => (guarding_removeSa p.1 _).trans (guarding_secyEvent _ _ _ _ s)) _ _).trans
    (foldl_keeps (f := guarding) (fun s (f : Frame) => show guarding (portDrop (framePort f) 2 s) = guarding s from rfl) _ _))

/-! ### A CLEAR and a device stop -/

theorem guarding_clearLinkKeys (s : State) : guarding (clearLinkKeys s) = (s.lko, [], s.store.sap) := rfl

/-- A CLEAR leaves the Lookout, closes every SPDM session and empties the Sapwood (R500). -/
theorem guarding_orderClear (s : State) : guarding (orderClear s) = (s.lko, [], []) := by
  unfold orderClear
  dsimp only
  have ha := guarding_abortWhere (fun x => x.state == .running) St.keyRevoked (mapBanks zeroBank (clearEnables s))
  generalize abortWhere (fun x => x.state == .running) St.keyRevoked (mapBanks zeroBank (clearEnables s)) = u at ha
  have hw := guarding_wipeEngines { u with store.sap := [] }
  rw [guarding_mapBanks, guarding_clearEnables] at ha
  rw [guarding_scrubAll, guarding_clearSas, guarding_clearLinkKeys, (guarding_iff.mp hw).1, (guarding_iff.mp hw).2.2, (guarding_iff.mp ha).1]

/-! The Warden's firmware answers what waited: this changes no more than the SPDM sessions. -/

theorem doeServe_lko (p : Nat) (r : DoeRequest) (s : State) : (doeServe p r s).lko = s.lko := by
  unfold doeServe
  split
  · rfl
  · have h : (takeHeart 88 s).2.lko = s.lko := by rw [takeHeart_only]
    split <;> rename_i e <;> rw [e] at h
    · exact h
    · refine Eq.trans ?_ h
      unfold ideKm
      dsimp only
      repeat' split
      all_goals rfl

theorem mctpSpdm_lko (m : Bytes) (s : State) : (mctpSpdm m s).lko = s.lko := by
  have h : (takeHeart 48 s).2.lko = s.lko := by rw [takeHeart_only]
  unfold mctpSpdm
  dsimp only
  split <;> rename_i e <;> rw [e] at h <;> exact h

theorem doeResume_lko (s : State) : (doeResume s).lko = s.lko :=
  (foldl_keeps (f := State.lko) (fun s m => mctpSpdm_lko m s) _ _).trans
    (foldl_keeps (f := State.lko) (fun s (x : Nat × DoeRequest) => doeServe_lko x.1 x.2 s) _ { s with host.doeWait := [] })

theorem guarding_stopWork (s : State) : guarding (stopWork s) = guarding s := by
  have ha (t : State) (c : Nat) : guarding (endApplets c .exited (setCore c { getCore c t with state := .idle } t)) = guarding t := rfl
  unfold stopWork
  dsimp only
  rw [foldl_keeps (f := guarding) ha, foldl_keeps (f := guarding) (fun t c => guarding_cancelCalls c t), guarding_voidWhere, guarding_clearEnables]

theorem guarding_stopHost (s : State) : guarding (stopHost s) = guarding s := by
  refine Eq.trans ?_ (guarding_queuesModeEnd s)
  unfold stopHost
  dsimp only
  split <;> rfl

/-- A device stop leaves the Lookout's own state (R37). -/
theorem deviceStop_lko (s : State) : (deviceStop s).lko = s.lko := by
  have h (u : State) : (measureSet 6 romImage (seedlingRuns u)).lko = u.lko := rfl
  rw [deviceStop_eq, doeResume_lko, h, (guarding_iff.mp (guarding_stopHost _)).1]
  dsimp only
  rw [(guarding_iff.mp (guarding_stopWork _)).1, endUpdate_only]

/-- A wake source that is heard changes no more than what wakes. -/
theorem guarding_wakePend (code : Nat) (s : State) : guarding (wakePend code s) = guarding s := by
  unfold wakePend
  split <;> rfl

theorem guarding_lkoLine (n : Nat) (s : State) : guarding (lkoLine n s) = guarding s := by
  unfold lkoLine
  split <;> rfl

/-! ### Digest engines that go on -/

theorem lko_of_beyondStore {s t : State} (h : beyondStore t = beyondStore s) : t.lko = s.lko := by
  have k := congrArg State.lko h
  exact k

theorem putDge_lko (g : Nat) (d : Dge) (s : State) : (putDge g d s).lko = s.lko := by
  unfold putDge
  dsimp only
  split <;> rfl

theorem keyHandle_lko (g : Nat) (t : FabricTag) (h : Nat) (d : Dge) (s : State) : (keyHandle g t h d s).lko = s.lko := by
  unfold keyHandle
  split
  · rfl
  · split
    · exact putDge_lko _ _ _
    · split
      · exact putDge_lko _ _ _
      · exact (lko_of_beyondStore ((beyondStore_chargeUse _ _).trans (beyondStore_useSapwood _ _ _))).trans (putDge_lko _ _ _)

theorem dgeWord_lko (g : Nat) (w : DWord) (last : Bool) (d : Dge) (s : State) : (dgeWord g w last d s).lko = s.lko := by
  unfold dgeWord
  split
  · rfl
  · split <;> exact putDge_lko _ _ _

theorem dgeEffect_lko (g : Nat) (t : FabricTag) (o n v : Nat) (d : Dge) (s : State) : (dgeEffect g t o n v d s).lko = s.lko := by
  unfold dgeEffect
  repeat' split
  all_goals simp only [putDge_lko, keyHandle_lko, dgeWord_lko]

theorem dgeTurn_lko (g : Nat) (w : DgeWrite) (s : State) : (dgeTurn g w s).lko = s.lko := by
  unfold dgeTurn dgeClaimed
  dsimp only
  split
  · split
    · split
      · rfl
      · exact (lko_of_beyondStore (beyondStore_extendUses _ _ _)).trans rfl
    · rfl
  · split
    · split
      · exact dgeEffect_lko _ _ _ _ _ _ _
      · exact putDge_lko _ _ _
    · exact dgeEffect_lko _ _ _ _ _ _ _

theorem dgeResume_lko (g : Nat) (s : State) : (dgeResume g s).lko = s.lko := by
  unfold dgeResume
  dsimp only
  split
  · rfl
  · exact foldl_keeps (f := State.lko) (fun s w => dgeTurn_lko g w s) _ _

theorem drainDges_lko (s : State) : (drainDges s).lko = s.lko := by
  refine foldl_keeps (f := State.lko) (fun s g => ?_) _ s
  refine (dgeResume_lko g _).trans ?_
  split
  · rfl
  · exact putDge_lko _ _ _

end Sys2Proof.Machine
end

section
/-! Lookout (O53): a source's events, trips and responses, its rearming and its hold, the checks, the backup domain, SVOUT, the commands, and the statement they make up. -/

namespace Sys2Proof.Machine

open Sys2Proof.Safety

/-! ### A source's status -/

@[simp] theorem lkoSrc_setLkoSrc_same (n : Nat) (x : LkoSrc) (s : State) : lkoSrc (setLkoSrc n x s) n = x := tgetD_tset_same _ _ _ _

theorem lkoSrc_setLkoSrc_other {i n : Nat} (h : i ≠ n) (x : LkoSrc) (s : State) : lkoSrc (setLkoSrc n x s) i = lkoSrc s i := tgetD_tset_other _ _ _ _ _ h

theorem lkoSrc_of_lko {s t : State} (h : t.lko = s.lko) (n : Nat) : lkoSrc t n = lkoSrc s n := congrArg (fun l : Lookout => tgetD l.src n {}) h

/-- The state without the sources' statuses. -/
def beyondSrc (s : State) : State := { s with lko.src := [] }

/-- A change, made to the statuses of several sources, that a second time changes nothing. -/
def eachSrc (f : LkoSrc → LkoSrc) (ks : List Nat) (s : State) : State := ks.foldl (fun s k => setLkoSrc k (f (lkoSrc s k)) s) s

theorem lkoSrc_eachSrc {f : LkoSrc → LkoSrc} (hf : ∀ x, f (f x) = f x) (ks : List Nat) (s : State) (i : Nat) :
    lkoSrc (eachSrc f ks s) i = if i ∈ ks then f (lkoSrc s i) else lkoSrc s i := by
  induction ks generalizing s with
  | nil => simp [eachSrc]
  | cons k ks ih =>
    change lkoSrc (eachSrc f ks (setLkoSrc k (f (lkoSrc s k)) s)) i = _
    rw [ih]
    by_cases h : i = k
    · subst h
      simp [hf]
    · simp [lkoSrc_setLkoSrc_other h, h]

theorem beyondSrc_eachSrc (f : LkoSrc → LkoSrc) (ks : List Nat) (s : State) : beyondSrc (eachSrc f ks s) = beyondSrc s :=
  foldl_keeps (f := beyondSrc) (g := fun s k => setLkoSrc k (f (lkoSrc s k)) s) (fun _ _ => rfl) ks s

/-! ### Events and trips -/

/-- Beside its own doing a response is told and heard (R370, R500, R588). -/
def lkoTold (n resp : Nat) (s : State) : State := wakePend 3 (if 1 ≤ resp then notifyApplets .tamper (n + 2 ^ 24) (vecAllPfs 11 s) else s)

theorem guarding_lkoTold (n resp : Nat) (s : State) : guarding (lkoTold n resp s) = guarding s := by
  refine (guarding_wakePend _ _).trans ?_
  split
  · exact guarding_vecAllPfs 11 s
  · rfl

theorem lkoTold_store (n resp : Nat) (s : State) : (lkoTold n resp s).store = s.store := by
  have hv : (vecAllPfs 11 s).store = s.store := store_of_kept (foldl_keeps (fun s p => kept_of_beyondHost (sendVec_only (.pf p) 11 s)) _ s)
  have hpend (u : State) : (wakePend 3 u).store = u.store := by
    unfold wakePend
    split <;> rfl
  refine (hpend _).trans ?_
  split
  · exact hv
  · rfl

theorem lkoRespond_freeze (n hold : Nat) (s : State) :
    lkoRespond n 2 hold s = setLkoSrc n { lkoSrc (lkoTold n 2 s) n with holding := true, holdS := hold } (lkoTold n 2 s) := rfl

theorem lkoRespond_clear (n hold : Nat) (s : State) : lkoRespond n 3 hold s = orderClear (lkoTold n 3 s) := rfl

theorem lkoRespond_told {n resp hold : Nat} (h : resp ≤ 1) (s : State) : lkoRespond n resp hold s = lkoTold n resp s := by
  obtain rfl | rfl : resp = 0 ∨ resp = 1 := by omega
  · rfl
  · rfl

theorem orderClear_lko (s : State) : (orderClear s).lko = s.lko := by
  have h := guarding_orderClear s
  simp only [guarding, Prod.mk.injEq] at h
  exact h.1

/-- The Clearcut procedure leaves SVOUT as it is (R509). -/
theorem clearcutRun_svout (n : Nat) (s : State) : (clearcutRun n s).lko.svout = s.lko.svout := by
  unfold clearcutRun
  dsimp only
  rw [logCode_lko, deviceStop_lko]
  dsimp only
  rw [orderClear_lko]

/-- No response changes SVOUT (R500, R507). -/
theorem lkoRespond_svout (n resp hold : Nat) (s : State) : (lkoRespond n resp hold s).lko.svout = s.lko.svout := by
  have h (c : Prop) [Decidable c] (a : Nat) : (wakePend 3 (if c then notifyApplets .tamper a (vecAllPfs 11 s) else s)).lko = s.lko := by
    refine (guarding_iff.mp (guarding_wakePend _ _)).1.trans ?_
    split
    · exact (guarding_iff.mp (guarding_vecAllPfs 11 s)).1
    · rfl
  unfold lkoRespond
  dsimp only
  rw [← h (1 ≤ resp) (n + 2 ^ 24)]
  generalize wakePend 3 _ = u
  split
  · rfl
  · exact congrArg Lookout.svout (orderClear_lko u)
  · exact clearcutRun_svout n u
  · rfl
  · rfl

/-- A source that trips, before its record is queued and its response given (R498). -/
def lkoTripped (n : Nat) (s : State) : State :=
  let capped := (lcIs s .blank || lcIs s .test) && decide (1 < (lkoCfg s n).response)
  { setLkoSrc n
      { lkoSrc s n with
        disarmed := true, trips := satInc 65535 (lkoSrc s n).trips, tripTime := seconds s, response := (lkoApplied s (lkoCfg s n)).1, latched := false } s with
    lko.trips := satInc 65535 s.lko.trips, lko.capped := s.lko.capped || capped }

/-- A source that trips, before its response is given. -/
def lkoRecorded (n : Nat) (s : State) : State :=
  lkoLine n (logPut (lkoTripRec n (lkoApplied s (lkoCfg s n)).1 (lkoSrc s n).events.length (seconds s) false) (lkoTripped n s))

theorem lkoTrip_eq (n : Nat) (s : State) :
    lkoTrip n s = refreshMode (lkoRespond n (lkoApplied s (lkoCfg s n)).1 (lkoApplied s (lkoCfg s n)).2 (lkoRecorded n s)) := rfl

theorem guarding_lkoRecorded (n : Nat) (s : State) : guarding (lkoRecorded n s) = guarding (lkoTripped n s) :=
  (guarding_lkoLine n _).trans (guarding_logPut _ _)

theorem lkoRecorded_lko (n : Nat) (s : State) : (lkoRecorded n s).lko = (lkoTripped n s).lko := (guarding_iff.mp (guarding_lkoRecorded n s)).1

theorem lkoRecorded_store (n : Nat) (s : State) : (lkoRecorded n s).store = s.store := by
  obtain ⟨l, hl⟩ := logPut_eq (lkoTripRec n (lkoApplied s (lkoCfg s n)).1 (lkoSrc s n).events.length (seconds s) false) (lkoTripped n s)
  unfold lkoRecorded lkoLine
  rw [hl]
  split <;> rfl

theorem lkoTrip_svout (n : Nat) (s : State) : (lkoTrip n s).lko.svout = s.lko.svout := by
  rw [lkoTrip_eq, refreshMode_lko, lkoRespond_svout, lkoRecorded_lko]
  rfl

theorem lkoEvent_svout (n t : Nat) (s : State) : (lkoEvent n t s).lko.svout = s.lko.svout := by
  unfold lkoEvent
  dsimp only
  split
  · rfl
  · split
    · exact lkoTrip_svout _ _
    · rfl

/-- What a response below CLEAR leaves: its source tripped with its status, and holding where it is FREEZE; the others and the store as they were (R498, R500). -/
theorem lkoTrip_below_clear {n : Nat} {s : State} (h : (lkoApplied s (lkoCfg s n)).1 ≤ 2) :
    (lkoSrc (lkoTrip n s) n).disarmed = true ∧ (lkoSrc (lkoTrip n s) n).response = (lkoApplied s (lkoCfg s n)).1 ∧
      (lkoSrc (lkoTrip n s) n).trips = satInc 65535 (lkoSrc s n).trips ∧ (lkoSrc (lkoTrip n s) n).tripTime = seconds s ∧
      ((lkoApplied s (lkoCfg s n)).1 = 2 → (lkoSrc (lkoTrip n s) n).holding = true ∧ (lkoSrc (lkoTrip n s) n).holdS = (lkoApplied s (lkoCfg s n)).2) ∧
      (lkoTrip n s).store = s.store ∧ ∀ i, i ≠ n → lkoSrc (lkoTrip n s) i = lkoSrc s i := by
  have htold (r : Nat) : (lkoTold n r (lkoRecorded n s)).lko = (lkoTripped n s).lko :=
    (guarding_iff.mp (guarding_lkoTold n r _)).1.trans (lkoRecorded_lko n s)
  have hsame : lkoSrc (lkoTripped n s) n = { lkoSrc s n with
      disarmed := true, trips := satInc 65535 (lkoSrc s n).trips, tripTime := seconds s, response := (lkoApplied s (lkoCfg s n)).1, latched := false } :=
    tgetD_tset_same _ _ _ _
  have hother (i : Nat) (hi : i ≠ n) : lkoSrc (lkoTripped n s) i = lkoSrc s i := tgetD_tset_other _ _ _ _ _ hi
  have hsrc (i : Nat) : lkoSrc (lkoTrip n s) i = lkoSrc (lkoRespond n (lkoApplied s (lkoCfg s n)).1 (lkoApplied s (lkoCfg s n)).2 (lkoRecorded n s)) i :=
    lkoSrc_of_lko (refreshMode_lko _) i
  have hstore : (lkoTrip n s).store = (lkoRespond n (lkoApplied s (lkoCfg s n)).1 (lkoApplied s (lkoCfg s n)).2 (lkoRecorded n s)).store := refreshMode_store _
  simp only [hsrc, hstore]
  by_cases h2 : (lkoApplied s (lkoCfg s n)).1 = 2
  · rw [h2] at hsame ⊢
    rw [lkoRespond_freeze, lkoSrc_setLkoSrc_same, lkoSrc_of_lko (htold 2) n, hsame]
    refine ⟨rfl, rfl, rfl, rfl, fun _ => ⟨rfl, rfl⟩, (lkoTold_store _ _ _).trans (lkoRecorded_store n s), fun i hi => ?_⟩
    rw [lkoSrc_setLkoSrc_other hi, lkoSrc_of_lko (htold 2) i, hother i hi]
  · rw [lkoRespond_told (by omega), lkoSrc_of_lko (htold _) n, hsame]
    refine ⟨rfl, rfl, rfl, rfl, fun e => absurd e h2, (lkoTold_store _ _ _).trans (lkoRecorded_store n s), fun i hi => ?_⟩
    rw [lkoSrc_of_lko (htold _) i, hother i hi]

/-- A CLEAR response clears the debug enables, closes the SPDM sessions and empties the Sapwood (R488, R500). -/
theorem lkoTrip_clear {n : Nat} {s : State} (h : (lkoApplied s (lkoCfg s n)).1 = 3) :
    (lkoTrip n s).lc.enables = 0 ∧ (lkoTrip n s).store.sap = [] ∧ (lkoTrip n s).host.spdm = [] := by
  have hg : guarding (lkoTrip n s) = ((lkoTold n 3 (lkoRecorded n s)).lko, [], []) := by
    rw [lkoTrip_eq, h, lkoRespond_clear, guarding_refreshMode, guarding_orderClear]
  refine ⟨?_, congrArg (fun g => g.2.2) hg, congrArg (fun g => g.2.1) hg⟩
  rw [lkoTrip_eq, h, lkoRespond_clear, refreshMode_lc, orderClear_lc]
  rfl

section Events
variable {n t : Nat} {v : Int} {s : State}

/-- A source with a new event (R498). -/
def lkoHappened (n t : Nat) (s : State) : State :=
  setLkoSrc n { lkoSrc s n with events := (lkoWindow (lkoCfg s n) (lkoSrc s n) t).take 255, present := true, lastEvent := seconds s } s

/-- An event of an enabled source that is sampled (R498). -/
theorem lkoEvent_happens (hs : lkoSampled s n = true) (he : (lkoCfg s n).enable = true) : lkoEvent n t s =
    if !(lkoSrc s n).disarmed && decide ((lkoCfg s n).n ≤ ((lkoWindow (lkoCfg s n) (lkoSrc s n) t).take 255).length) then lkoTrip n (lkoHappened n t s)
    else lkoHappened n t s := by
  unfold lkoEvent
  simp only [hs, he, Bool.not_true, Bool.or_self, Bool.false_eq_true, if_false]
  rfl

/-- A source with no reading of its own only has its event. -/
theorem exec_lookoutEvent (ho : lkoSourceOk n = true) (h : n = 0x0E ∨ 0x13 ≤ n) : exec (.lookoutEvent n t v) s = .next (lkoEvent n t s) := by
  have h1 : ¬ n ≤ 0x0C := by omega
  have h2 : n ≠ 0x0D ∧ n ≠ 0x0F ∧ n ≠ 0x10 ∧ n ≠ 0x11 ∧ n ≠ 0x12 := by omega
  obtain ⟨hD, hF, h10, h11, h12⟩ := h2
  change execLookoutEvent n t v s = _
  simp [execLookoutEvent, ho, h1, hD, hF, h10, h11, h12]

end Events

/-! ### Rearming and holds -/

theorem freezeEnded_lko (n : Nat) (s : State) : (freezeEnded n s).lko = s.lko := by
  unfold freezeEnded
  split
  · rfl
  · rw [refreshMode_lko, notifyApplets_lko, drainDges_lko]
    rfl

theorem freezeEnded_commit (n : Nat) (s : State) : (freezeEnded n s).commit = s.commit :=
  congrArg (fun p => p.2.2) (freezeEnded_same : Same s (freezeEnded n s))

theorem exec_freezeHoldExpiry {n : Nat} {s : State} (ho : lkoSourceOk n = true) (hh : (lkoSrc s n).holding = true) (hp : 0 < (lkoSrc s n).holdS)
    (hl : (lkoSrc s n).lastEvent + (lkoSrc s n).holdS ≤ seconds s) :
    exec (.freezeHoldExpiry n) s = .next (freezeEnded n (setLkoSrc n { lkoSrc s n with holding := false } s)) := by
  change execFreezeHoldExpiry n s = _
  simp [execFreezeHoldExpiry, ho, hh, hp, hl]

/-! ### Mesh and loop checks -/

theorem exec_meshCheck_returns {m t : Nat} {p : Bytes} {s u : State} (hm : m < 3) (h : takeHeart 4 s = (some p, u)) : exec (.meshCheck m t false) s =
    .next (setLkoSrc (0x13 + m) { lkoSrc s (0x13 + m) with present := false }
      { u with lko.patterns := tset s.lko.patterns m p, pwr.meshOk := s.pwr.meshOk || m == 0 }) := by
  have hu := takeHeart_only 4 s
  simp only [h] at hu
  change execMeshCheck m t false s = _
  simp only [execMeshCheck, onUnit, decide_eq_true hm, if_true, h]
  rw [hu]
  simp [lkoSrc]

/-- The sources among n whose condition no longer holds. -/
def lkoQuiet (ns : List Nat) (s : State) : State := eachSrc (fun x => { x with present := false }) (ns.filter (fun n => (lkoSrc s n).present)) s

theorem lkoSrc_lkoQuiet (ns : List Nat) (s : State) (i : Nat) :
    lkoSrc (lkoQuiet ns s) i = if i ∈ ns ∧ (lkoSrc s i).present = true then { lkoSrc s i with present := false } else lkoSrc s i := by
  rw [lkoQuiet, lkoSrc_eachSrc (f := fun x => { x with present := false }) (fun _ => rfl)]
  simp only [List.mem_filter]

section Loops
variable {t : Nat} {s : State} (ha : (lkoCfg s 0x1A).polarity = false) (hb : (lkoCfg s 0x1B).polarity = false)
include ha hb

theorem lids_closed : (List.range 2).filter (fun k => [false, false].getD k false != (lkoCfg s (0x1A + k)).polarity) = [] := by
  simp [List.range_succ, ha, hb]

/-- A check in which every loop and lid is sound clears the six sources (R499). -/
theorem exec_loopCheck_sound :
    exec (.loopCheck t [false, false, false, false] [false, false]) s = .next (lkoQuiet [0x16, 0x17, 0x18, 0x19, 0x1A, 0x1B] s) := by
  change execLoopCheck t [false, false, false, false] [false, false] s = _
  unfold execLoopCheck
  simp only [lids_closed ha hb]
  rfl

/-- A check in which loop 0 alone has failed raises its event and clears the other five sources (R499). -/
theorem exec_loopCheck_loop0 :
    exec (.loopCheck t [true, false, false, false] [false, false]) s = .next (loopEvent t (lkoQuiet [0x17, 0x18, 0x19, 0x1A, 0x1B] s) 0x16) := by
  change execLoopCheck t [true, false, false, false] [false, false] s = _
  unfold execLoopCheck
  simp only [lids_closed ha hb]
  rfl

end Loops

/-- Without main power the backup domain trips a loop whose count is reached: the latch takes it, and nothing of the store changes (R505). -/
theorem loopEvent_latches {n t : Nat} {s : State} (hp : s.pwr.state = .backup) (he : (lkoCfg s n).enable = true) (hc : s.lko.copyValid = true)
    (hl : lcIs s .scrapped = false) (hd : (lkoSrc s n).disarmed = false)
    (hn : (lkoCfg s n).n ≤ ((lkoWindow (lkoCfg s n) (lkoSrc s n) t).take 255).length) :
    (tgetD (loopEvent t s n).lko.latches (n - 0x16) {}).valid = true ∧ (lkoSrc (loopEvent t s n) n).disarmed = true ∧ (loopEvent t s n).store = s.store := by
  have hev : loopEvent t s n = latchTrip n (setLkoSrc n { lkoSrc s n with events := (lkoWindow (lkoCfg s n) (lkoSrc s n) t).take 255, disarmed := true } s) := by
    unfold loopEvent
    dsimp only
    generalize (lkoWindow (lkoCfg s n) (lkoSrc s n) t).take 255 = ev at hn ⊢
    simp [hp, he, hc, hl, hd, hn]
  rw [hev]
  refine ⟨?_, ?_, rfl⟩
  · unfold latchTrip
    dsimp only
    rw [tgetD_tset_same]
    split
    · assumption
    · rfl
  · exact congrArg LkoSrc.disarmed (lkoSrc_setLkoSrc_same n _ s)

/-- The sources whose condition no longer holds count for nothing in loop 0's own event. -/
theorem loop0_latches {t : Nat} {s : State} (hp : s.pwr.state = .backup) (he : (lkoCfg s 0x16).enable = true) (hc : s.lko.copyValid = true)
    (hl : lcIs s .scrapped = false) (hd : (lkoSrc s 0x16).disarmed = false)
    (hn : (lkoCfg s 0x16).n ≤ ((lkoWindow (lkoCfg s 0x16) (lkoSrc s 0x16) t).take 255).length) :
    (tgetD (loopEvent t (lkoQuiet [0x17, 0x18, 0x19, 0x1A, 0x1B] s) 0x16).lko.latches 0 {}).valid = true ∧
      (lkoSrc (loopEvent t (lkoQuiet [0x17, 0x18, 0x19, 0x1A, 0x1B] s) 0x16) 0x16).disarmed = true ∧
      (loopEvent t (lkoQuiet [0x17, 0x18, 0x19, 0x1A, 0x1B] s) 0x16).store = s.store := by
  have hrest : beyondSrc (lkoQuiet [0x17, 0x18, 0x19, 0x1A, 0x1B] s) = beyondSrc s := beyondSrc_eachSrc _ _ s
  have hsrc : lkoSrc (lkoQuiet [0x17, 0x18, 0x19, 0x1A, 0x1B] s) 0x16 = lkoSrc s 0x16 := by
    rw [lkoSrc_lkoQuiet, if_neg]
    simp
  generalize lkoQuiet [0x17, 0x18, 0x19, 0x1A, 0x1B] s = v at hrest hsrc
  have hpwr : v.pwr = s.pwr := (congrArg State.pwr hrest :)
  have hlc : v.lc = s.lc := (congrArg State.lc hrest :)
  have hstore : v.store = s.store := (congrArg State.store hrest :)
  have hcopy : v.lko.copyValid = s.lko.copyValid := (congrArg (fun u : State => u.lko.copyValid) hrest :)
  have hcfg : lkoCfg v 0x16 = lkoCfg s 0x16 := (congrArg (fun u : State => tgetD u.lko.cfg 0x16 (lkoDefault 0x16)) hrest :)
  have hscrap : lcIs v .scrapped = lcIs s .scrapped := congrArg (fun l : LifeCycle => l.decoded == .scrapped) hlc
  rw [← hcfg] at he hn
  rw [← hsrc] at hd hn
  obtain ⟨hvalid, hdis, hleft⟩ := loopEvent_latches (n := 0x16) (t := t) ((congrArg Power.state hpwr).trans hp) he (hcopy.trans hc) (hscrap.trans hl) hd hn
  exact ⟨hvalid, hdis, hleft.trans hstore⟩

/-! ### Seconds, SVOUT and a RESET response -/

/-- A second that passes changes the counter and the log (R504, R552). -/
theorem exec_secondsTick {s : State} (hp : s.pwr.state ≠ .backup) : ∃ t, exec .secondsTick s = .next t ∧
    t.lko = { s.lko with seconds := s.lko.seconds + 1 } ∧ t.store = s.store ∧ (s.log.rates = [] → t = { s with lko.seconds := s.lko.seconds + 1 }) := by
  have hb : ¬ (s.pwr.state == .backup) = true := by simpa using hp
  change ∃ t, execSecondsTick s = .next t ∧ _
  unfold execSecondsTick
  dsimp only
  rw [if_neg hb]
  refine ⟨_, rfl, ?_, ?_, fun hr => ?_⟩
  · exact foldl_keeps (f := State.lko) (fun s p => logCode_lko _ _ _ s) _ _
  · exact foldl_keeps (f := State.store) (fun s p => store_of_kept (kept_logCode _ _ _ s)) _ _
  · simp only [hr, List.filter_nil, List.foldl_nil]
    rw [← hr]

theorem svoutFailed_waits {s : State} (h : s.lko.svRetries < 3) : (svoutFailed s).lko.svout = .wait ∧ (svoutFailed s).lko.svRetries = s.lko.svRetries := by
  rw [svoutFailed, if_pos h, logCode_lko]
  exact ⟨rfl, rfl⟩

theorem svoutFailed_latches {s : State} (h : 3 ≤ s.lko.svRetries) : (svoutFailed s).lko.svout = .latchedOff := by
  rw [svoutFailed, if_neg (Nat.not_lt.mpr h), lkoEvent_svout]

theorem exec_svoutRampEnd {ok : Bool} {s : State} (h : s.lko.svout = .softstart) :
    exec (.svoutRampEnd ok) s = .next (if ok then { s with lko.svout := .on, lko.svRetries := 0 } else svoutFailed s) :=
  congrArg Host.Outcome.next (if_pos (by rw [h]; rfl))

/-- A write of the LC partition that a reset stops leaves the log (R481). -/
theorem lcTear_log (s : State) : (lcTear s).log = s.log := by
  have he (v : Nat) (r : LcRun) (x : LcStep) (u : State) : (lcTearEntry v r x u).log = u.log := by
    unfold lcTearEntry
    split
    · rfl
    · rfl
    · cases x <;> rfl
  unfold lcTear
  split
  · rfl
  · split
    · rfl
    · split
      · rfl
      · exact he _ _ _ _
      · exact he _ _ _ _

/-- The cold start of a RESET response, its record in flash (R500, R551). -/
theorem exec_lookoutReset {n : Nat} {s : State} (h : s.lko.resetDue = some n) :
    (s.log.queue.any (fun r => r.code == 0x0701 && fld r.arg 0 1 == n) = true → exec .lookoutReset s = .next s) ∧
    (s.log.queue.any (fun r => r.code == 0x0701 && fld r.arg 0 1 == n) = false → s.pwr.resetLow = false → s.fbk.fatal = false →
      ∃ t, exec .lookoutReset s = .next t ∧ t.pwr.cause = 3 ∧ t.start.stage = 0 ∧ t.commit = s.commit ∧ t.log = s.log ∧ t.ctxs = []) := by
  have hrun : exec .lookoutReset s = if s.log.queue.any (fun r => r.code == 0x0701 && fld r.arg 0 1 == n) then .next s
      else .next (coldStart 3 { s with lko.resetDue := none }) := by
    change execLookoutReset s = _
    unfold execLookoutReset
    rw [h]
  refine ⟨fun hq => hrun.trans (if_pos hq), fun hq hr hf => ?_⟩
  obtain ⟨hcause, hstage, -, -, hcommit⟩ := coldReset_begins 3 { s with lko.resetDue := none }
  have hcold : coldStart 3 { s with lko.resetDue := none } = coldReset 3 { s with lko.resetDue := none } := coldStart_eq_coldReset hr (.inl hf)
  refine ⟨coldReset 3 { s with lko.resetDue := none }, ?_, hcause, hstage, hcommit, lcTear_log _, rfl⟩
  rw [hrun, hq, hcold]
  rfl

/-! ### The commands -/

section Commands
variable {mb : Mb} {q : Req} {a : Approval} {s : State}

/-- One record of LOOKOUT_CONFIG in force (R514). -/
def lkoConfigured (s : State) (p : Nat × LkoCfg) : State :=
  lkoLine p.1
    { s with lko.cfg := tset s.lko.cfg p.1 p.2,
             lko.src := tmod s.lko.src p.1 (fun x => { x with events := [], disarmed := false, present := false }) }

theorem lkoConfigured_lko (s : State) (p : Nat × LkoCfg) : (lkoConfigured s p).lko =
    { s.lko with cfg := tset s.lko.cfg p.1 p.2, src := tmod s.lko.src p.1 (fun x => { x with events := [], disarmed := false, present := false }) } :=
  (guarding_iff.mp (guarding_lkoLine p.1 _)).1

/-- The records in force leave the sources they do not name, and CFG_GEN. -/
theorem lkoConfigured_all (cs : List (Nat × LkoCfg)) (s : State) : (cs.foldl lkoConfigured s).lko.cfgGen = s.lko.cfgGen ∧
    ∀ n, n ∉ cs.map (·.1) → lkoCfg (cs.foldl lkoConfigured s) n = lkoCfg s n ∧ lkoSrc (cs.foldl lkoConfigured s) n = lkoSrc s n := by
  induction cs generalizing s with
  | nil => exact ⟨rfl, fun _ _ => ⟨rfl, rfl⟩⟩
  | cons p cs ih =>
    obtain ⟨hgen, hrest⟩ := ih (lkoConfigured s p)
    refine ⟨hgen.trans (by rw [lkoConfigured_lko]), fun n hn => ?_⟩
    obtain ⟨hp, hcs⟩ := not_or.mp (mt List.mem_cons.mpr hn)
    obtain ⟨hcfg, hsrc⟩ := hrest n hcs
    have hcfg1 : lkoCfg (lkoConfigured s p) n = lkoCfg s n := by
      rw [lkoCfg, lkoConfigured_lko]
      exact tgetD_tset_other _ _ _ _ _ hp
    have hsrc1 : lkoSrc (lkoConfigured s p) n = lkoSrc s n := by
      rw [lkoSrc, lkoConfigured_lko]
      simp only [lkoSrc, tgetD, tget_tmod, if_neg hp]
    exact ⟨hcfg.trans hcfg1, hsrc.trans hsrc1⟩

/-- Each record is in force where no two name one source. -/
theorem lkoConfigured_mem {n : Nat} {c : LkoCfg} {cs : List (Nat × LkoCfg)} (hnd : (cs.map (·.1)).Nodup) (h : (n, c) ∈ cs) (s : State) :
    lkoCfg (cs.foldl lkoConfigured s) n = c := by
  induction cs generalizing s with
  | nil => exact absurd h List.not_mem_nil
  | cons p cs ih =>
    obtain ⟨hp, hcs⟩ := List.nodup_cons.mp hnd
    obtain rfl | h := List.mem_cons.mp h
    · refine (((lkoConfigured_all cs _).2 n hp).1).trans ?_
      rw [lkoCfg, lkoConfigured_lko]
      exact tgetD_tset_same _ _ _ _
    · exact ih hcs h _

theorem lookoutConfigCheck_nodup (h : lookoutConfigCheck mb q s = none) : ((lkoReqCfgs q).map (·.1)).Nodup := by
  by_contra hn
  unfold lookoutConfigCheck at h
  simp [hn] at h

/-- LOOKOUT_CONFIG puts its records in force and then measures (R514). -/
theorem lookoutConfigRun_lko : ∃ r u, lookoutConfigRun mb q s = (.reply r, u) ∧ r.status = 0 ∧
    u.lko = { ((lkoReqCfgs q).foldl lkoConfigured s).lko with cfgGen := ((lkoReqCfgs q).foldl lkoConfigured s).lko.cfgGen + 1, copyValid := true } := by
  unfold lookoutConfigRun
  exact ⟨_, _, rfl, rfl, rfl⟩

theorem exec_quorumExecute_lookoutConfig (h : Approved mb 0x0901 q a s) (hc : lookoutConfigCheck mb a.req s = none) :
    ∃ t, exec (.quorumExecute mb) s = .next t ∧ t.lko.cfgGen = s.lko.cfgGen + 1 ∧ (∀ n c, (n, c) ∈ lkoReqCfgs a.req → lkoCfg t n = c) ∧
      (∀ n, n ∉ (lkoReqCfgs a.req).map (·.1) → lkoCfg t n = lkoCfg s n ∧ lkoSrc t n = lkoSrc s n) := by
  obtain ⟨r, u, hrun, hs, hlko⟩ := lookoutConfigRun_lko (mb := mb) (q := a.req) (s := s)
  obtain ⟨t, ht, hex⟩ := exec_quorumExecute_effect h rfl hc hrun hs
  obtain ⟨hgen, hrest⟩ := lkoConfigured_all (lkoReqCfgs a.req) s
  have hl := hex.lko.trans hlko
  have hcfg (n : Nat) : lkoCfg t n = lkoCfg ((lkoReqCfgs a.req).foldl lkoConfigured s) n := by rw [lkoCfg, hl, lkoCfg]
  have hsrc (n : Nat) : lkoSrc t n = lkoSrc ((lkoReqCfgs a.req).foldl lkoConfigured s) n := by rw [lkoSrc, hl, lkoSrc]
  refine ⟨t, ht, ?_, fun n c hm => (hcfg n).trans (lkoConfigured_mem (lookoutConfigCheck_nodup hc) hm s), fun n hn => ?_⟩
  · rw [hl, ← hgen]
  · rw [hcfg, hsrc]
    exact hrest n hn

/-- The holders that LOOKOUT_RELEASE of source n, or of every source, releases (R501). -/
def lkoReleasable (n : Nat) (s : State) : List Nat := (lkoHolders s).filter (fun k => (n == 0xFF || k == n) && (lkoSrc s k).holdS == 0)

/-- Where a hold was released, the last may have ended the FREEZE (R501). -/
def lkoReleased (rel : List Nat) (s : State) : State :=
  match rel with
  | [] => s
  | k :: _ => freezeEnded k s

theorem lkoReleased_lko (rel : List Nat) (s : State) : (lkoReleased rel s).lko = s.lko := by
  cases rel with
  | nil => rfl
  | cons k _ => exact freezeEnded_lko k s

theorem lookoutReleaseRun_releases : ∃ r, lookoutReleaseRun mb q s =
    (.reply r, lkoReleased (lkoReleasable (fld q.body 0 1) s) (eachSrc (fun x => { x with holding := false }) (lkoReleasable (fld q.body 0 1) s) s)) ∧ r.status = 0 :=
  ⟨_, rfl, rfl⟩

/-- A source is released by name where it holds without an end (R501). -/
theorem mem_lkoReleasable {n : Nat} (hne : n ≠ 0xFF) (h0 : (lkoSrc s n).holdS = 0) (hh : n ∈ lkoHolders s) (k : Nat) : k ∈ lkoReleasable n s ↔ k = n := by
  simp only [lkoReleasable, List.mem_filter, Bool.and_eq_true, Bool.or_eq_true, beq_iff_eq, hne, false_or]
  constructor
  · rintro ⟨-, hk, -⟩
    exact hk
  · rintro rfl
    exact ⟨hh, rfl, h0⟩

/-- LOOKOUT_RELEASE of a named source ends its hold and no other (R501). -/
theorem exec_quorumExecute_lookoutRelease {n : Nat} (h : Approved mb 0x0903 q a s) (hc : lookoutReleaseCheck mb a.req s = none) (hn : fld a.req.body 0 1 = n)
    (hne : n ≠ 0xFF) (h0 : (lkoSrc s n).holdS = 0) (hh : n ∈ lkoHolders s) :
    ∃ t, exec (.quorumExecute mb) s = .next t ∧ (lkoSrc t n).holding = false ∧ ∀ i, i ≠ n → lkoSrc t i = lkoSrc s i := by
  obtain ⟨r, hrun, hs⟩ := lookoutReleaseRun_releases (mb := mb) (q := a.req) (s := s)
  obtain ⟨t, ht, hex⟩ := exec_quorumExecute_effect h rfl hc hrun hs
  have hsrc (i : Nat) := (lkoSrc_of_lko (hex.lko.trans (lkoReleased_lko _ _)) i).trans
    (lkoSrc_eachSrc (f := fun x => { x with holding := false }) (fun _ => rfl) _ s i)
  simp only [hn, mem_lkoReleasable hne h0 hh] at hsrc
  refine ⟨t, ht, ?_, fun i hi => (hsrc i).trans (if_neg hi)⟩
  rw [hsrc n, if_pos rfl]

theorem exec_quorumExecute_svoutOff (h : Approved mb 0x0904 q a s) (h0 : fld a.req.body 0 1 = 0) :
    ∃ t, exec (.quorumExecute mb) s = .next t ∧ t.lko.svout = .off ∧ t.lko.svEnabled = false ∧ t.lko.src = s.lko.src := by
  have hc : svoutCtrlCheck mb a.req s = none := if_neg (by rw [h0]; exact Nat.not_lt_zero 1)
  have hrun : svoutCtrlRun mb a.req s = (.reply { body := leBytes 1 0 }, { s with lko.svout := .off, lko.svRetries := 0, lko.svEnabled := false }) := by
    unfold svoutCtrlRun
    rw [if_pos h0]
    rfl
  obtain ⟨t, ht, hex⟩ := exec_quorumExecute_effect h rfl hc hrun rfl
  refine ⟨t, ht, ?_⟩
  rw [hex.lko]
  exact ⟨rfl, rfl, rfl⟩

theorem exec_quorumExecute_svoutOn (h : Approved mb 0x0904 q a s) (h1 : fld a.req.body 0 1 = 1) (ho : s.lko.svout = .off) :
    ∃ t, exec (.quorumExecute mb) s = .next t ∧ t.lko.svout = .softstart ∧ t.lko.svRetries = 0 ∧ t.lko.svEnabled = true := by
  have hc : svoutCtrlCheck mb a.req s = none := if_neg (by rw [h1]; exact Nat.lt_irrefl 1)
  have hrun : svoutCtrlRun mb a.req s = (.reply { body := leBytes 1 1 }, { s with lko.svout := .softstart, lko.svRetries := 0, lko.svEnabled := true }) := by
    unfold svoutCtrlRun
    rw [if_neg (by rw [h1]; exact Nat.one_ne_zero), ho]
    rfl
  obtain ⟨t, ht, hex⟩ := exec_quorumExecute_effect h rfl hc hrun rfl
  refine ⟨t, ht, ?_⟩
  rw [hex.lko]
  exact ⟨rfl, rfl, rfl⟩

end Commands

/-! ### The statement -/

/-- Settles O53: the sources by their events and responses, then the checks, the backup domain and SVOUT, the RESET response and the commands. -/
theorem lookoutCompletes : Obligations.LookoutCompletes := by
  unfold Obligations.LookoutCompletes
  refine ⟨fun n t v s ho hn hs he => ⟨fun hno => ?counts, fun hd hN hr => ?trips, fun hd hN hr => ?clears⟩,
    fun n s ho => ⟨if_pos ho, fun hh hp hl => ⟨_, exec_freezeHoldExpiry ho hh hp hl, ?held, fun i hi => ?other, freezeEnded_commit _ _, fun hf => if_pos hf⟩⟩,
    fun m t s hm => ⟨fun p u h => exec_meshCheck_returns hm h, fun u fails h => ?noBits⟩,
    fun t s ha hb => ⟨⟨_, exec_loopCheck_sound ha hb, fun n => ?sound, fun hq => ?quiet⟩, fun hp he hc hl hd hN => ?latches⟩,
    fun s => ⟨fun hp => ?backup, fun hp => ⟨?floor, ?loss, exec_secondsTick hp⟩,
      fun h => ⟨exec_svoutRampEnd h, fun hr => ⟨_, exec_svoutRampEnd h, svoutFailed_waits hr⟩, fun hr => ⟨_, exec_svoutRampEnd h, svoutFailed_latches hr⟩⟩,
      fun h => congrArg Host.Outcome.next (if_pos (by rw [h]; rfl)),
      fun h hr => ⟨_, congrArg Host.Outcome.next (if_pos (by rw [h]; rfl)), (svoutFailed_waits hr).1⟩, fun n h => exec_lookoutReset h⟩,
    fun mb q a s => ⟨fun h ho => ?query,
      fun _ => ⟨fun h hc => (runCmd_reply _ h (designated_missing hc) : execLookoutConfig mb s = _),
        fun h hc => (runCmd_reply _ h (designated_missing hc) : execLookoutRelease mb s = _),
        fun h hc => (runCmd_reply _ h (designated_missing hc) : execSvoutCtrl mb s = _)⟩,
      fun h hc => exec_quorumExecute_lookoutConfig h hc, fun n h hc hn hne h0 hh => exec_quorumExecute_lookoutRelease h hc hn hne h0 hh,
      fun h h0 => exec_quorumExecute_svoutOff h h0, fun h h1 ho => exec_quorumExecute_svoutOn h h1 ho⟩⟩
  case counts =>
    rw [exec_lookoutEvent ho hn, lkoEvent_happens hs he, if_neg]
    · rfl
    · obtain hd | hlt := hno
      · simp [hd]
      · rw [decide_eq_false (Nat.not_le.mpr hlt), Bool.and_false]
        exact Bool.false_ne_true
  case trips =>
    obtain ⟨hdis, hresp, htrips, htime, hhold, hstore, hrest⟩ := lkoTrip_below_clear (n := n) (s := lkoHappened n t s) hr
    refine ⟨lkoTrip n (lkoHappened n t s), ?_, hdis, hresp, ?_, htime, hhold, hstore, fun i hi => (hrest i hi).trans (lkoSrc_setLkoSrc_other hi _ s)⟩
    · rw [exec_lookoutEvent ho hn, lkoEvent_happens hs he, if_pos]
      rw [hd, decide_eq_true hN]
      rfl
    · rw [htrips, lkoHappened, lkoSrc_setLkoSrc_same]
  case clears =>
    refine ⟨lkoTrip n (lkoHappened n t s), ?_, lkoTrip_clear hr⟩
    rw [exec_lookoutEvent ho hn, lkoEvent_happens hs he, if_pos]
    rw [hd, decide_eq_true hN]
    rfl
  case held => rw [lkoSrc_of_lko (freezeEnded_lko _ _), lkoSrc_setLkoSrc_same]
  case other => rw [lkoSrc_of_lko (freezeEnded_lko _ _), lkoSrc_setLkoSrc_other hi]
  case noBits =>
    change execMeshCheck m t fails s = _
    simp only [execMeshCheck, onUnit, decide_eq_true hm, if_true, h]
  case sound =>
    rw [lkoSrc_lkoQuiet]
    refine if_congr ?_ rfl rfl
    rw [← and_assoc]
    refine and_congr_left' ?_
    simp only [List.mem_cons, List.not_mem_nil, or_false]
    omega
  case quiet => simp [lkoQuiet, eachSrc, hq]
  case latches =>
    rw [exec_loopCheck_loop0 ha hb]
    exact ⟨_, rfl, loop0_latches hp he hc hl hd hN⟩
  case backup =>
    have hb : (s.pwr.state == .backup) = true := by rw [hp]; rfl
    refine ⟨?_, congrArg Host.Outcome.next (if_pos hb), congrArg Host.Outcome.next (if_pos hb)⟩
    change execSecondsTick s = _
    unfold execSecondsTick
    exact if_pos hb
  case floor => exact congrArg Host.Outcome.next (if_neg (by simpa using hp))
  case loss => exact congrArg Host.Outcome.next (if_neg (by simpa using hp))
  case query =>
    refine (runCmd_reply _ h (if_neg ?_) : execLookoutQuery mb s = _)
    rw [ho]
    exact Bool.false_ne_true

end Sys2Proof.Machine
end

section
/-! MACsec and port commands (O44): removals from tables kept in order, what a link's fall, an event and a sweep leave, each command, and the statement they make up. -/

namespace Sys2Proof.Machine

open Sys2Proof.Safety

/-! ### Tables in the order of their keys -/

/-- The keys of a table rise. -/
abbrev Rising {α : Type} (t : Tab α) : Prop := (t.map Prod.fst).Pairwise (· < ·)

theorem tget_of_no_key {α : Type} {t : Tab α} {k : Nat} (h : ∀ p ∈ t, p.1 ≠ k) : tget t k = none := by
  cases e : tget t k with
  | none => rfl
  | some x => exact absurd rfl (h _ (mem_of_tget e))

/-- In a table whose keys rise a change is made to the one entry of its key. -/
theorem tmod_of_rising {α : Type} {t : Tab α} (h : Rising t) (k : Nat) (f : α → α) :
    tmod t k f = t.map (fun p => if p.1 = k then (p.1, f p.2) else p) := by
  induction t with
  | nil => rfl
  | cons p r ih =>
    obtain ⟨j, x⟩ := p
    obtain ⟨hj, hr⟩ := List.pairwise_cons.mp h
    have hlt (p : Nat × α) (hp : p ∈ r) : j < p.1 := hj p.1 (List.mem_map_of_mem hp)
    by_cases e : j = k
    · subst e
      have hrest : r.map (fun p => if p.1 = j then (p.1, f p.2) else p) = r :=
        (List.map_congr_left fun p hp => if_neg (hlt p hp).ne').trans (List.map_id r)
      rw [List.map_cons, hrest]
      simp [tmod, tget, tset]
    · rw [List.map_cons, if_neg e, ← ih hr]
      unfold tmod
      simp only [tget, if_neg e]
      cases hk : tget r k with
      | none => rfl
      | some y =>
        have hjk : ¬ k < j := Nat.not_lt.mpr (hlt _ (mem_of_tget hk)).le
        simp only [tset, if_neg e, if_neg hjk]

theorem tget_of_mem_rising {α : Type} {t : Tab α} {k : Nat} {x : α} (h : Rising t) (hm : (k, x) ∈ t) : tget t k = some x := by
  induction t with
  | nil => exact absurd hm List.not_mem_nil
  | cons p r ih =>
    obtain ⟨hj, hr⟩ := List.pairwise_cons.mp h
    obtain rfl | hm := List.mem_cons.mp hm
    · exact if_pos rfl
    · have hlt : p.1 < k := hj k (List.mem_map_of_mem hm)
      exact (if_neg hlt.ne).trans (ih hr hm)

/-! ### Removals -/

/-- An SC of those named is marked to go (R332). -/
def scMarked (ids : List Nat) (p : Nat × Sc) : Nat × Sc := if p.1 ∈ ids then (p.1, { p.2 with removing := true }) else p

theorem scMarked_key (ids : List Nat) (p : Nat × Sc) : (scMarked ids p).1 = p.1 := by
  unfold scMarked
  split <;> rfl

theorem scMarked_port (ids : List Nat) (p : Nat × Sc) : (scMarked ids p).2.port = p.2.port := by
  unfold scMarked
  split <;> rfl

theorem rising_scMarked {t : Tab Sc} (h : Rising t) (ids : List Nat) : Rising (t.map (scMarked ids)) := by
  unfold Rising
  rw [List.map_map]
  exact (congrArg (List.Pairwise (· < ·)) (List.map_congr_left fun p _ => scMarked_key ids p)).mpr h

/-- The SCs of those numbers are marked. -/
def scsMarked (ids : List Nat) (s : State) : State := { s with eth.scs := s.eth.scs.map (scMarked ids) }

section Removals
variable {s : State}

/-- An SC with no SA is only marked (R332). -/
theorem removeSc_bare {id : Nat} (hs : Rising s.eth.scs) (hb : ∀ p ∈ s.eth.sas, p.1 / 4 ≠ id) :
    removeSc id s = scsMarked [id] s := by
  have hsas : s.eth.sas.filter (fun p => p.1 / 4 == id) = [] := List.filter_eq_nil_iff.mpr fun p hp => by simpa using hb p hp
  have hscs : tmod s.eth.scs id (fun c => { c with removing := true }) = s.eth.scs.map (scMarked [id]) :=
    (tmod_of_rising hs id _).trans (List.map_congr_left fun p _ => if_congr List.mem_singleton.symm rfl rfl)
  unfold removeSc
  dsimp only
  rw [hsas, hscs]
  rfl

/-- Several SCs with no SA are only marked. -/
theorem removeScs_bare {ps : List (Nat × Sc)} {s : State} (hs : Rising s.eth.scs) (hb : ∀ p ∈ s.eth.sas, ∀ c ∈ ps, p.1 / 4 ≠ c.1) :
    ps.foldl (fun s p => removeSc p.1 s) s = scsMarked (ps.map Prod.fst) s := by
  induction ps generalizing s with
  | nil =>
    have hid : s.eth.scs.map (scMarked []) = s.eth.scs := (List.map_congr_left fun p _ => if_neg List.not_mem_nil).trans (List.map_id _)
    change s = { s with eth.scs := s.eth.scs.map (scMarked []) }
    rw [hid]
  | cons c ps ih =>
    have htwice (p : Nat × Sc) : scMarked (ps.map Prod.fst) (scMarked [c.1] p) = scMarked ((c :: ps).map Prod.fst) p := by
      have hcons : p.1 ∈ (c :: ps).map Prod.fst ↔ p.1 = c.1 ∨ p.1 ∈ ps.map Prod.fst := List.mem_cons
      by_cases h1 : p.1 = c.1
      · have hfirst : scMarked [c.1] p = (p.1, { p.2 with removing := true }) := if_pos (List.mem_singleton.mpr h1)
        rw [hfirst, scMarked, scMarked, if_pos (hcons.mpr (.inl h1))]
        exact ite_self _
      · have hfirst : scMarked [c.1] p = p := if_neg (mt List.mem_singleton.mp h1)
        rw [hfirst]
        exact if_congr (hcons.trans (or_iff_right h1)).symm rfl rfl
    have hmap : (s.eth.scs.map (scMarked [c.1])).map (scMarked (ps.map Prod.fst)) = s.eth.scs.map (scMarked ((c :: ps).map Prod.fst)) := by
      rw [List.map_map]
      exact List.map_congr_left fun p _ => htwice p
    rw [List.foldl_cons, removeSc_bare hs fun p hp => hb p hp c List.mem_cons_self,
      ih (s := scsMarked [c.1] s) (rising_scMarked hs [c.1]) fun p hp d hd => hb p hp d (List.mem_cons_of_mem _ hd)]
    exact congrArg (fun l : Tab Sc => ({ s with eth.scs := l } : State)) hmap

/-- A sweep takes every SC of a port whose SCs are all marked and bare (R332). -/
theorem ethSweep_port_gone {n : Nat} (h : ∀ c ∈ s.eth.scs, c.2.port = n → c.2.removing = true ∧ ∀ p ∈ s.eth.sas, p.1 / 4 ≠ c.1) :
    ∀ c ∈ (ethSweep s).eth.scs, c.2.port ≠ n := by
  intro c hc hn
  have hbare (d : Nat × Sc) (hd : d ∈ s.eth.scs) (hp : d.2.port = n) : d.2.removing = true ∧ (s.eth.sas.any fun p => p.1 / 4 == d.1) = false := by
    obtain ⟨hrem, hsas⟩ := h d hd hp
    exact ⟨hrem, List.any_eq_false.mpr fun p hps => by simpa using hsas p hps⟩
  obtain ⟨hc1, hkeep⟩ := List.mem_filter.mp hc
  obtain ⟨hcs, hfirst⟩ := List.mem_filter.mp hc1
  obtain ⟨hrem, hsas⟩ := hbare c hcs hn
  have htx : c.2.tx = true := by simpa [hrem, hsas] using hfirst
  have hnone : ((s.eth.scs.filter fun p => !(p.2.removing && !p.2.tx && !s.eth.sas.any fun q => q.1 / 4 == p.1)).any
      fun q => q.2.port == c.2.port && !q.2.tx) = false := by
    refine List.any_eq_false.mpr fun d hd => ?_
    obtain ⟨hds, hdfirst⟩ := List.mem_filter.mp hd
    intro hboth
    obtain ⟨hport, hdtx⟩ := Bool.and_eq_true_iff.mp hboth
    obtain ⟨hdrem, hdsas⟩ := hbare d hds ((beq_iff_eq.mp hport).trans hn)
    simp [hdrem, hdsas, hdtx] at hdfirst
  have hkeep' : (!(c.2.removing && c.2.tx && !(s.eth.sas.any fun p => p.1 / 4 == c.1) &&
      !((s.eth.scs.filter fun p => !(p.2.removing && !p.2.tx && !s.eth.sas.any fun q => q.1 / 4 == p.1)).any
        fun q => q.2.port == c.2.port && !q.2.tx))) = true := hkeep
  rw [hrem, htx, hsas, hnone] at hkeep'
  exact absurd hkeep' (by decide)

/-- A sweep takes a marked SecY with no SC (R332). -/
theorem ethSweep_secy_gone {n : Nat} (h : ∀ c ∈ (ethSweep s).eth.scs, c.2.port ≠ n) (hy : ∀ y ∈ s.eth.secys, y.1 = n → y.2.removing = true) :
    getSecy n (ethSweep s) = none := by
  refine tget_of_no_key fun y hmem hk => ?_
  obtain ⟨hys, hkeep⟩ := List.mem_filter.mp hmem
  have hnone : ((ethSweep s).eth.scs.any fun q => q.2.port == y.1) = false := List.any_eq_false.mpr fun c hc => by simpa [hk] using h c hc
  have hkeep' : (!(y.2.removing && !(ethSweep s).eth.scs.any fun q => q.2.port == y.1)) = true := hkeep
  rw [hy y hys hk, hnone] at hkeep'
  exact absurd hkeep' (by decide)

/-- A sweep takes a marked, bare receive SC (R332). -/
theorem ethSweep_sc_gone {id : Nat} (h : ∀ c ∈ s.eth.scs, c.1 = id → c.2.removing = true ∧ c.2.tx = false) (hb : ∀ p ∈ s.eth.sas, p.1 / 4 ≠ id) :
    tget (ethSweep s).eth.scs id = none := by
  refine tget_of_no_key fun c hc hk => ?_
  obtain ⟨hc1, -⟩ := List.mem_filter.mp hc
  obtain ⟨hcs, hkeep⟩ := List.mem_filter.mp hc1
  obtain ⟨hrem, htx⟩ := h c hcs hk
  have hsas : (s.eth.sas.any fun p => p.1 / 4 == c.1) = false := List.any_eq_false.mpr fun p hp => by simpa [hk] using hb p hp
  simp [hrem, htx, hsas] at hkeep

end Removals

/-! ### Ports -/

@[simp] theorem getPort_setPort_same (n : Nat) (p : Port) (s : State) : getPort n (setPort n p s) = p := tgetD_tset_same _ _ _ _

theorem getPort_setPort_other {i n : Nat} (h : i ≠ n) (p : Port) (s : State) : getPort i (setPort n p s) = getPort i s := tgetD_tset_other _ _ _ _ _ h

/-- The state without what an event of a SecY touches: the host side, the frame rings and the SecYs' counters. -/
def beyondEvent (s : State) : State := { s with host := {}, eth := { s.eth with rings := [], secys := [] } }

theorem beyondEvent_of_beyondHost {s t : State} (h : beyondHost t = beyondHost s) : beyondEvent t = beyondEvent s := by
  have k := congrArg (fun u : State => ({ u with eth := { u.eth with rings := [], secys := [] } } : State)) h
  exact k

theorem beyondEvent_ringEvent (k p : Nat) (e : Bytes) (s : State) : beyondEvent (ringEvent k p e s).1 = beyondEvent s := by
  have hring (c : QCause) : beyondEvent (ringError k c s) = beyondEvent s := by
    unfold ringError
    repeat' split
    · rfl
    · rfl
    · exact (beyondEvent_of_beyondHost (raiseEvent_only _ _ _)).trans rfl
  unfold ringEvent
  split
  · rfl
  · dsimp only
    split
    · rfl
    · split
      · exact hring _
      · split
        · exact (beyondEvent_of_beyondHost (sendVec_only _ _ _)).trans rfl
        · rfl

theorem beyondEvent_secyEvent (port kind sa pn : Nat) (s : State) : beyondEvent (secyEvent port kind sa pn s) = beyondEvent s := by
  have hr (k : Nat) (c : Prop) [Decidable c] (e : Bytes) : beyondEvent (if c then ringEvent k 2 e s else (s, false)).1 = beyondEvent s := by
    split
    · exact beyondEvent_ringEvent _ _ _ _
    · rfl
  unfold secyEvent
  split
  · rfl
  · dsimp only
    split
    · rfl
    · split <;> rename_i h <;> exact (congrArg (fun x => beyondEvent x.1) h).symm.trans (hr _ _ _)

/-- A link that goes down changes its own port, and no key (R339). -/
theorem linkDown_leaves (n : Nat) (s : State) : (getPort n (linkDown n s)).up = false ∧ (∀ i, i ≠ n → getPort i (linkDown n s) = getPort i s) ∧
    (linkDown n s).store = s.store := by
  unfold linkDown
  dsimp only
  split
  · have h := beyondEvent_secyEvent n 5 0xFFFFFFFF 0 (setPort n { getPort n s with up := false, anDone := false } s)
    have hport (i : Nat) := congrArg (getPort i) h
    refine ⟨(congrArg Port.up (hport n) :).trans (congrArg Port.up (getPort_setPort_same n _ s)),
      fun i hi => (hport i :).trans (getPort_setPort_other hi _ s), (congrArg State.store h :)⟩
  · rename_i hdown
    exact ⟨by simpa using hdown, fun _ _ => rfl, rfl⟩

/-- A stand that wakes has no part of Ethernet or of the store (R581). -/
theorem keepAwake_leaves (n : Nat) (s : State) : (keepAwake n s).eth = s.eth ∧ (keepAwake n s).store = s.store := by
  have hup (st : Nat) (u : State) : (standUp st u).eth = u.eth ∧ (standUp st u).store = u.store := by
    unfold standUp
    split <;> exact ⟨rfl, rfl⟩
  unfold keepAwake
  split
  · exact ⟨(hup _ _).1.trans (hup _ s).1, (hup _ _).2.trans (hup _ s).2⟩
  · exact ⟨rfl, rfl⟩

section Commands
variable {mb : Mb} {q : Req} {s : State}

/-- A port of the position that PORT_CONFIG names starts anew (R343). -/
def portCleared (p n : Nat) (x : Port) : Port :=
  if n / 4 = p then { x with up := false, anDone := false, localFault := false, remoteFault := false, rx := 0, tx := 0, fecCorr := 0, fecUncorr := 0, drops := [], anResult := 0 }
  else x

theorem portConfigRun_eq : portConfigRun mb q s =
    (.reply {}, setPos (fld q.body 0 1)
      { getPos (fld q.body 0 1) s with
        mode := fld q.body 1 1, phy := fld q.body 2 1, an := bitOf (fld q.body 3 1) 0, loopback := bitOf (fld q.body 3 1) 1, ctxLoads := 0, waitedAt := none }
      { s with eth.ports := tmap s.eth.ports (portCleared (fld q.body 0 1)) }) := rfl

theorem getPort_tmap (f : Nat → Port → Port) (i : Nat) (s : State) :
    tgetD (tmap s.eth.ports f) i {} = if (tget s.eth.ports i).isSome then f i (getPort i s) else {} := by
  rw [getPort, tgetD, tgetD, tget_tmap]
  cases tget s.eth.ports i <;> rfl

theorem exec_portConfig (a : Accepted mb 0x0501 q s) (hc : portConfigCheck mb q s = none) :
    ∃ t, Ends (.portConfig mb) s mb {} t ∧ (getPos (fld q.body 0 1) t).mode = fld q.body 1 1 ∧ (getPos (fld q.body 0 1) t).phy = fld q.body 2 1 ∧
      (getPos (fld q.body 0 1) t).an = bitOf (fld q.body 3 1) 0 ∧
      (∀ i, i / 4 = fld q.body 0 1 → (getPort i t).up = false ∧ (getPort i t).rx = 0 ∧ (getPort i t).tx = 0) ∧
      (∀ i, i / 4 ≠ fld q.body 0 1 → getPort i t = getPort i s) ∧ (∀ i, i ≠ fld q.body 0 1 → getPos i t = getPos i s) ∧ t.store = s.store := by
  refine ⟨_, (runCmd_reply _ a ((direct_run hc).trans portConfigRun_eq) : execPortConfig mb s = _), ?_⟩
  generalize fld q.body 0 1 = n
  have hpos : ∀ x u, getPos n (setPos n x u) = x := fun _ _ => tgetD_tset_same _ _ _ _
  rw [hpos]
  refine ⟨rfl, rfl, rfl, fun i hi => ?_, fun i hi => ?_, fun i hi => tgetD_tset_other _ _ _ _ _ hi, rfl⟩
  · have hport := getPort_tmap (portCleared n) i s
    rw [portCleared, if_pos hi] at hport
    refine (fun h : tgetD (tmap s.eth.ports (portCleared n)) i {} = _ => ?_) hport
    change (tgetD (tmap s.eth.ports (portCleared n)) i {}).up = false ∧ (tgetD (tmap s.eth.ports (portCleared n)) i {}).rx = 0 ∧
      (tgetD (tmap s.eth.ports (portCleared n)) i {}).tx = 0
    rw [h]
    split <;> exact ⟨rfl, rfl, rfl⟩
  · refine (getPort_tmap (portCleared n) i s).trans ?_
    rw [portCleared, if_neg hi, getPort, tgetD]
    cases tget s.eth.ports i <;> rfl

theorem exec_portSet (a : Accepted mb 0x0502 q s) (hc : portSetCheck mb q s = none) :
    ∃ t, Ends (.portSet mb) s mb {} t ∧ (getPort (fld q.body 0 1) t).mtu = fld q.body 2 2 ∧ (getPort (fld q.body 0 1) t).clear = bitOf (fld q.body 1 1) 0 ∧
      (fld q.body 4 1 = 0 → (getPort (fld q.body 0 1) t).fwd = .drop) ∧ (fld q.body 4 1 = 1 → (getPort (fld q.body 0 1) t).fwd = .port (fld q.body 5 1)) ∧
      (fld q.body 4 1 = 2 → (getPort (fld q.body 0 1) t).fwd = .ring (fld q.body 6 2) (fld q.body 8 2)) ∧ (getPort (fld q.body 0 1) t).uncFn = fld q.body 0x0A 2 ∧
      (getPort (fld q.body 0 1) t).uncQid = fld q.body 0x0C 2 ∧ (getPort (fld q.body 0 1) t).up = (getPort (fld q.body 0 1) s).up ∧
      (∀ i, i ≠ fld q.body 0 1 → getPort i t = getPort i s) ∧ t.store = s.store := by
  refine ⟨_, (runCmd_reply _ a (direct_run hc) : execPortSet mb s = _), ?_⟩
  rw [getPort_setPort_same]
  exact ⟨rfl, rfl, fun h => by simp only [h], fun h => by simp only [h], fun h => by simp only [h], rfl, rfl, rfl, fun i hi => getPort_setPort_other hi _ s, rfl⟩

theorem exec_portRetrain (a : Accepted mb 0x0504 q s) (hc : portNamed mb (fld q.body 0 1) s = none) :
    ∃ t, Ends (.portRetrain mb) s mb { body := leBytes 4 (portWord (fld q.body 0 1) t) } t ∧ (getPort (fld q.body 0 1) t).up = false ∧
      (∀ i, i ≠ fld q.body 0 1 → getPort i t = getPort i s) ∧ t.store = s.store :=
  ⟨linkDown (fld q.body 0 1) s, (runCmd_reply _ a (direct_run hc) : execPortRetrain mb s = _), linkDown_leaves _ s⟩

/-! ### SecYs and SCs -/

/-- The SecY that SECY_CREATE makes, and its transmit SC (R323). -/
def newSecy (b : Bytes) (id : Nat) : Secy :=
  { owner := fld b 4 4, suite := fld b 1 1, offset := fld b 2 1, validate := fld b 3 1, protect := bitOf (fld b 8 4) 0, replay := bitOf (fld b 8 4) 1
    conf := bitOf (fld b 8 4) 2, es := bitOf (fld b 8 4) 3, window := fld b 0x0C 4, txSc := id, evtFn := fld b 0x1C 2, evtQid := fld b 0x1E 2
    pnThresh := beFld b 0x20 8 }

def newTxSc (b : Bytes) : Sc := { port := fld b 0 1, tx := true, sci := beFld b 0x10 8, ssci := beFld b 0x18 4 }

/-- The state with the SecY made, before its stands are woken. -/
def secyMade (b : Bytes) (s : State) : State :=
  { s with eth.secys := tset s.eth.secys (fld b 0 1) (newSecy b (freeSc s)), eth.scs := tset s.eth.scs (freeSc s) (newTxSc b) }

theorem secyCreateRun_eq : secyCreateRun mb q s = (.reply { body := leBytes 4 (freeSc s) }, keepAwake (fld q.body 0 1) (secyMade q.body s)) := rfl

theorem exec_secyCreate (a : Accepted mb 0x0508 q s) (hc : secyCreateCheck mb q s = none) :
    ∃ t y, Ends (.secyCreate mb) s mb { body := leBytes 4 (freeSc s) } t ∧ getSecy (fld q.body 0 1) t = some y ∧ y.owner = fld q.body 4 4 ∧ y.suite = fld q.body 1 1 ∧
      y.offset = fld q.body 2 1 ∧ y.validate = fld q.body 3 1 ∧ y.txSc = freeSc s ∧ y.encAn = none ∧
      tget t.eth.scs (freeSc s) = some { port := fld q.body 0 1, tx := true, sci := beFld q.body 0x10 8, ssci := beFld q.body 0x18 4 } ∧
      (∀ i, i ≠ fld q.body 0 1 → getSecy i t = getSecy i s) ∧ t.store = s.store := by
  obtain ⟨heth, hstore⟩ := keepAwake_leaves (fld q.body 0 1) (secyMade q.body s)
  have hsecy (i : Nat) : getSecy i (keepAwake (fld q.body 0 1) (secyMade q.body s)) = getSecy i (secyMade q.body s) := by rw [getSecy, heth, getSecy]
  refine ⟨keepAwake (fld q.body 0 1) (secyMade q.body s), newSecy q.body (freeSc s),
    (runCmd_reply _ a ((direct_run hc).trans secyCreateRun_eq) : execSecyCreate mb s = _), (hsecy _).trans (tget_tset_same _ _ _),
    rfl, rfl, rfl, rfl, rfl, rfl, ?_, fun i hi => (hsecy i).trans (tget_tset_other _ _ _ _ hi), hstore⟩
  rw [heth]
  exact tget_tset_same _ _ _

/-- SECY_DESTROY of a SecY with no SA in its SCs is answered at once (R332). -/
theorem exec_secyDestroy (a : Accepted mb 0x050A q s) (hc : secyNamed mb (fld q.body 0 1) s = none) (hy : Rising s.eth.secys) (hs : Rising s.eth.scs)
    (hb : ∀ p ∈ s.eth.sas, ∀ c ∈ s.eth.scs, c.1 = p.1 / 4 → c.2.port ≠ fld q.body 0 1) (hn : ∀ p ∈ s.eth.sas, saPort p.1 s ≠ fld q.body 0 1) :
    ∃ t, Ends (.secyDestroy mb) s mb { body := leBytes 4 0 } t ∧ getSecy (fld q.body 0 1) t = none ∧ (∀ c ∈ t.eth.scs, c.2.port ≠ fld q.body 0 1) ∧
      t.eth.sas = s.eth.sas ∧ t.store = s.store := by
  generalize hport : fld q.body 0 1 = n at *
  have hcount : s.eth.sas.filter (fun p => saPort p.1 s == n) = [] := List.filter_eq_nil_iff.mpr fun p hp => by simpa using hn p hp
  have hbare : ∀ p ∈ s.eth.sas, ∀ c ∈ s.eth.scs.filter (fun c => c.2.port == n), p.1 / 4 ≠ c.1 := by
    intro p hp c hcm heq
    obtain ⟨hcs, hcn⟩ := List.mem_filter.mp hcm
    exact hb p hp c hcs heq.symm (by simpa using hcn)
  have hmark : removeSecy n s = scsMarked ((s.eth.scs.filter (fun c => c.2.port == n)).map Prod.fst)
      { s with eth.secys := tmod s.eth.secys n (fun y => { y with removing := true }) } := by
    unfold removeSecy
    exact removeScs_bare hs hbare
  have hscs : ∀ c ∈ (ethSweep (removeSecy n s)).eth.scs, c.2.port ≠ n := by
    refine ethSweep_port_gone ?_
    rw [hmark]
    intro c hcm hcn
    obtain ⟨d, hd, rfl⟩ := List.mem_map.mp hcm
    have hdm : d ∈ s.eth.scs.filter (fun c => c.2.port == n) := List.mem_filter.mpr ⟨hd, by simpa [scMarked_port] using hcn⟩
    refine ⟨?_, fun p hp => by rw [scMarked_key]; exact hbare p hp d hdm⟩
    rw [scMarked, if_pos (List.mem_map_of_mem hdm)]
  have hsecy : getSecy n (ethSweep (removeSecy n s)) = none := by
    refine ethSweep_secy_gone hscs ?_
    rw [hmark]
    intro y hym hyn
    have hym' : y ∈ tmod s.eth.secys n (fun y => { y with removing := true }) := hym
    rw [tmod_of_rising hy] at hym'
    obtain ⟨z, -, rfl⟩ := List.mem_map.mp hym'
    by_cases hz : z.1 = n
    · rw [if_pos hz]
    · rw [if_neg hz] at hyn
      exact absurd hyn hz
  have hgone : ethGoneNow 2 n (ethSweep (removeSecy n s)) = true := Option.isNone_iff_eq_none.mpr hsecy
  refine ⟨ethSweep (removeSecy n s), ?_, hsecy, hscs, by rw [hmark]; rfl, by rw [hmark]; rfl⟩
  change execSecyDestroy mb s = _
  rw [execSecyDestroy]
  refine runCmd_reply _ a ?_
  rw [direct_run (by rw [hport]; exact hc), hport]
  dsimp only
  rw [hcount]
  exact if_pos hgone

/-- SC_REMOVE of a receive SC with no SA is answered at once (R332). -/
theorem exec_scRemove (a : Accepted mb 0x0511 q s) (hc : scRemoveCheck mb q s = none) (hs : Rising s.eth.scs) (hb : ∀ p ∈ s.eth.sas, p.1 / 4 ≠ fld q.body 0 4) :
    ∃ t, Ends (.scRemove mb) s mb {} t ∧ tget t.eth.scs (fld q.body 0 4) = none ∧ t.eth.sas = s.eth.sas ∧ t.store = s.store := by
  have hrx : ∀ c, tget s.eth.scs (fld q.body 0 4) = some c → c.tx = false := by
    intro c hget
    by_contra htx
    unfold scRemoveCheck at hc
    rw [hget] at hc
    cases hnamed : scNamed mb (fld q.body 0 4) s with
    | some st => simp [hnamed] at hc
    | none => simp [hnamed, htx] at hc
  have hgone : tget (ethSweep (removeSc (fld q.body 0 4) s)).eth.scs (fld q.body 0 4) = none := by
    rw [removeSc_bare hs hb]
    refine ethSweep_sc_gone (fun c hcm hk => ?_) hb
    obtain ⟨d, hd, rfl⟩ := List.mem_map.mp hcm
    rw [scMarked_key] at hk
    rw [scMarked, if_pos (List.mem_singleton.mpr hk)]
    exact ⟨rfl, hrx d.2 (tget_of_mem_rising hs (hk ▸ hd))⟩
  refine ⟨ethSweep (removeSc (fld q.body 0 4) s), ?_, hgone, by rw [removeSc_bare hs hb]; rfl, by rw [removeSc_bare hs hb]; rfl⟩
  change execScRemove mb s = _
  rw [execScRemove]
  refine runCmd_reply _ a ?_
  rw [direct_run hc]
  exact if_pos (Option.isNone_iff_eq_none.mpr hgone)

/-! ### SAs -/

/-- The contexts of a pinned SA's lanes are no part of Ethernet or of the store (R333). -/
theorem pinLanes_leaves (pair slot gen owner : Nat) (s : State) : (pinLanes pair slot gen owner s).eth = s.eth ∧ (pinLanes pair slot gen owner s).store = s.store := by
  have h : beyondWork (pinLanes pair slot gen owner s) = beyondWork s := foldl_keeps (fun s g => beyondWork_bindLane g slot gen owner true s) _ s
  exact ⟨(congrArg State.eth h :), store_of_beyondWork h⟩

/-- An SA as SA_ADD makes it (R326). -/
def newSa (b : Bytes) (tx : Bool) (slot gen seq : Nat) : Sa :=
  { slot := slot, gen := gen, next := beFld b 0x10 8, lowest := if tx then 0 else beFld b 0x10 8, enable := bitOf (fld b 5 1) 1
    pinned := bitOf (fld b 5 1) 0, salt := padTo 12 (slice b 0x18 12), ready := !tx, readySeq := if tx then seq else 0 }

/-- The SA stands in its table, its key leased, and pinned where it asks for that (R333). -/
def saStands (b : Bytes) (c : Sc) (slot : Nat) (k : KeyRec) (s : State) : State :=
  let u := useSapwood slot k s
  let v := { u with eth.sas := tset u.eth.sas (4 * fld b 0 4 + fld b 4 1) (newSa b c.tx slot k.gen u.store.nextSeq) }
  if bitOf (fld b 5 1) 0 then pinLanes (c.port / 8) slot k.gen k.owner v else v

theorem saStands_leaves (b : Bytes) (c : Sc) (slot : Nat) (k : KeyRec) (s : State) :
    (saStands b c slot k s).eth.sas = tset s.eth.sas (4 * fld b 0 4 + fld b 4 1) (newSa b c.tx slot k.gen s.store.nextSeq) ∧
      (saStands b c slot k s).store.c = s.store.c ∧ (saStands b c slot k s).store.nextSeq = s.store.nextSeq := by
  have hu : (useSapwood slot k s).eth = s.eth ∧ (useSapwood slot k s).store.c = s.store.c ∧ (useSapwood slot k s).store.nextSeq = s.store.nextSeq := by
    unfold useSapwood
    split <;> exact ⟨rfl, rfl, rfl⟩
  obtain ⟨heth, hkeys, hseq⟩ := hu
  unfold saStands
  dsimp only
  split
  · obtain ⟨he, hs⟩ := pinLanes_leaves (c.port / 8) slot k.gen k.owner
      { useSapwood slot k s with
        eth.sas := tset (useSapwood slot k s).eth.sas (4 * fld b 0 4 + fld b 4 1) (newSa b c.tx slot k.gen (useSapwood slot k s).store.nextSeq) }
    rw [he, hs]
    exact ⟨by rw [heth, hseq], hkeys, hseq⟩
  · exact ⟨by rw [heth, hseq], hkeys, hseq⟩

section SaAdd
variable {c : Sc} {slot : Nat} {k : KeyRec} (hsc : tget s.eth.scs (fld q.body 0 4) = some c) (hr : resolve (fld q.body 8 8) none s = some (slot, k))
  (hin : inSapwood slot k s = true) (hpin : pinFits [(slot, k)] s = true)
include hsc hr hin hpin

/-- A key in the Sapwood with room under the pinned limit is bound at once (R64, R65, R326). -/
theorem saAddRun_binds : saAddRun mb q s =
    if c.tx then
      durableAns { body := layout 16 [(0, 4, 4 * fld q.body 0 4 + fld q.body 4 1),
          (8, 8, lastSeq (storeChange [] (fun x => { x with keys := tmod x.keys slot (fun k => { k with state := .exhausted, saBound := k.saBound + 1 }) })
            (saStands q.body c slot k s)))] }
        (storeChange [] (fun x => { x with keys := tmod x.keys slot (fun k => { k with state := .exhausted, saBound := k.saBound + 1 }) }) (saStands q.body c slot k s))
    else (.reply { body := leBytes 4 (4 * fld q.body 0 4 + fld q.body 4 1) }, modKey slot (fun k => { k with saBound := k.saBound + 1 }) (saStands q.body c slot k s)) := by
  have hlease : leaseReady slot k s = (true, useSapwood slot k s) := by simp [leaseReady, hin, hpin]
  unfold saAddRun
  simp only [hsc, hr, hlease]
  rfl

theorem saAddRun_rx (htx : c.tx = false) : ∃ t a b, saAddRun mb q s = (.reply { body := leBytes 4 (4 * fld q.body 0 4 + fld q.body 4 1) }, t) ∧
    tget t.eth.sas (4 * fld q.body 0 4 + fld q.body 4 1) = some a ∧ a.slot = slot ∧ a.gen = k.gen ∧ a.next = beFld q.body 0x10 8 ∧ a.lowest = beFld q.body 0x10 8 ∧
    a.ready = true ∧ tget t.store.c.keys slot = some b ∧ b.saBound = k.saBound + 1 ∧ b.state = k.state := by
  obtain ⟨hsas, hkeys, -⟩ := saStands_leaves q.body c slot k s
  have hk := (slot_of_resolve hr).2
  have hrun := saAddRun_binds (mb := mb) hsc hr hin hpin
  rw [htx, if_neg Bool.false_ne_true] at hrun
  rw [htx] at hsas
  refine ⟨_, newSa q.body false slot k.gen s.store.nextSeq, { k with saBound := k.saBound + 1 }, hrun, ?_, rfl, rfl, rfl, rfl, rfl, ?_, rfl, rfl⟩
  · exact (congrArg (fun t => tget t _) hsas).trans (tget_tset_same _ _ _)
  · change tget (tmod (saStands q.body c slot k s).store.c.keys slot _) slot = _
    rw [hkeys, tget_tmod, if_pos rfl, hk]
    rfl

theorem saAddRun_tx (htx : c.tx = true) : ∃ t a b r, saAddRun mb q s = (.hold (.commit s.store.nextSeq r), t) ∧
    tget t.eth.sas (4 * fld q.body 0 4 + fld q.body 4 1) = some a ∧ a.slot = slot ∧ a.gen = k.gen ∧ a.next = beFld q.body 0x10 8 ∧ a.ready = false ∧
    tget t.store.c.keys slot = some b ∧ b.saBound = k.saBound + 1 ∧ b.state = .exhausted := by
  obtain ⟨hsas, hkeys, hseq⟩ := saStands_leaves q.body c slot k s
  have hk := (slot_of_resolve hr).2
  have hrun := saAddRun_binds (mb := mb) hsc hr hin hpin
  rw [htx, if_pos rfl] at hrun
  rw [htx] at hsas
  generalize saStands q.body c slot k s = v at hsas hkeys hseq hrun
  have hlast : lastSeq (storeChange [] (fun x => { x with keys := tmod x.keys slot (fun k => { k with state := .exhausted, saBound := k.saBound + 1 }) }) v) = s.store.nextSeq := by
    rw [lastSeq, storeChange_nextSeq, hseq]
    rfl
  rw [durableAns, hlast] at hrun
  refine ⟨_, newSa q.body true slot k.gen s.store.nextSeq, { k with saBound := k.saBound + 1, state := .exhausted }, _, hrun, ?_, rfl, rfl, rfl, rfl, ?_, rfl, rfl⟩
  · have heth := congrArg (fun u : State => u.eth.sas) (beyondStore_wantCommit false s.store.nextSeq
      (storeChange [] (fun x => { x with keys := tmod x.keys slot (fun k => { k with state := .exhausted, saBound := k.saBound + 1 }) }) v))
    exact (congrArg (fun t => tget t _) ((heth :).trans hsas)).trans (tget_tset_same _ _ _)
  · rw [wantCommit_c, storeChange_c, hkeys]
    dsimp only
    rw [tget_tmod, if_pos rfl, hk]
    rfl

end SaAdd

/-- The SAs without one that goes, its lanes' contexts given up (R332, R333). -/
def saUnpinned (id : Nat) (x : Sa) (s : State) : State :=
  let u := { s with eth.sas := tdel s.eth.sas id }
  if x.pinned then unpin (saPair id s) x.slot x.gen u else u

theorem saUnpinned_leaves (id : Nat) (x : Sa) (s : State) : (saUnpinned id x s).eth.sas = tdel s.eth.sas id ∧ (saUnpinned id x s).store = s.store := by
  unfold saUnpinned unpin
  dsimp only
  repeat' split
  all_goals exact ⟨rfl, rfl⟩

section SaGoes
variable {id : Nat} {x : Sa} (hx : tget s.eth.sas id = some x)
include hx

/-- An SA that goes unbinds its key (R326, R332). -/
theorem dropSa_unbinds : tget (dropSa id s).eth.sas id = none ∧
    ∀ k, tget s.store.c.keys x.slot = some k → k.gen = x.gen → tget (dropSa id s).store.c.keys x.slot = some { k with saBound := k.saBound - 1 } := by
  obtain ⟨hsas, hstore⟩ := saUnpinned_leaves id x s
  have hgone : tget (saUnpinned id x s).eth.sas id = none := by rw [hsas, tget_tdel_same]
  have hdrop : (∃ k, tget s.store.c.keys x.slot = some k ∧ k.gen = x.gen ∧
      dropSa id s = modKey x.slot (fun k => { k with saBound := k.saBound - 1 }) (saUnpinned id x s)) ∨
      (∀ k, tget s.store.c.keys x.slot = some k → k.gen ≠ x.gen) ∧ dropSa id s = saUnpinned id x s := by
    have hkeys : tget (saUnpinned id x s).store.c.keys x.slot = tget s.store.c.keys x.slot := by rw [hstore]
    have hrun : dropSa id s = match tget (saUnpinned id x s).store.c.keys x.slot with
        | none => saUnpinned id x s
        | some k => if k.gen = x.gen then modKey x.slot (fun k => { k with saBound := k.saBound - 1 }) (saUnpinned id x s) else saUnpinned id x s := by
      unfold dropSa
      rw [hx]
      rfl
    cases hk : tget s.store.c.keys x.slot with
    | none =>
      rw [hkeys, hk] at hrun
      exact .inr ⟨fun _ h => (nomatch h), hrun⟩
    | some k =>
      rw [hkeys, hk] at hrun
      by_cases hg : k.gen = x.gen
      · exact .inl ⟨k, rfl, hg, hrun.trans (if_pos hg)⟩
      · exact .inr ⟨fun _ h => Option.some.inj h ▸ hg, hrun.trans (if_neg hg)⟩
  obtain ⟨k, hk, -, hdrop⟩ | ⟨hno, hdrop⟩ := hdrop
  · refine ⟨by rw [hdrop]; exact hgone, fun j hj _ => ?_⟩
    obtain rfl : k = j := Option.some.inj (hk.symm.trans hj)
    rw [hdrop]
    change tget (tmod (saUnpinned id x s).store.c.keys x.slot _) x.slot = _
    rw [hstore, tget_tmod, if_pos rfl, hk]
    rfl
  · exact ⟨by rw [hdrop]; exact hgone, fun j hj hg => absurd hg (hno j hj)⟩

variable (hf : saFlight id s = 0)
include hf

/-- SA_REMOVE of an SA with nothing in flight is answered at once (R332). -/
theorem exec_saRemove (a : Accepted mb 0x0519 q s) (hid : fld q.body 0 4 = id) (hc : saRemoveCheck mb q s = none) :
    ∃ t, Ends (.saRemove mb) s mb { body := beBytes 8 x.next } t ∧ tget t.eth.sas id = none ∧
      ∀ k, tget s.store.c.keys x.slot = some k → k.gen = x.gen → tget t.store.c.keys x.slot = some { k with saBound := k.saBound - 1 } := by
  have hremove : removeSa id s = dropSa id s := by
    unfold removeSa
    rw [hx]
    exact if_pos hf
  obtain ⟨hgone, hkeys⟩ := dropSa_unbinds hx
  refine ⟨ethSweep (dropSa id s), ?_, hgone, hkeys⟩
  change execSaRemove mb s = _
  rw [execSaRemove]
  refine runCmd_reply _ a ?_
  rw [direct_run hc, hid]
  dsimp only
  rw [hx, hremove]
  exact if_pos (Option.isNone_iff_eq_none.mpr hgone)

/-- The last frame of an SA being removed has left (R332). -/
theorem exec_saDrained (hid : id < 131072) (hr : x.removing = true) :
    ∃ t, exec (.saDrained id) s = .next t ∧ tget t.eth.sas id = none ∧
      ∀ k, tget s.store.c.keys x.slot = some k → k.gen = x.gen → tget t.store.c.keys x.slot = some { k with saBound := k.saBound - 1 } := by
  have hsettle (u : State) : ((ethSettle u).eth, (ethSettle u).store) = (u.eth, u.store) := by
    refine foldl_keeps (f := fun u : State => (u.eth, u.store)) (fun u p => ?_) _ u
    dsimp only
    split
    · rw [finishMb_eth, finishMb_store]
    · rfl
  obtain ⟨heth, hstore⟩ := Prod.ext_iff.mp (hsettle (ethSweep (dropSa id s)))
  obtain ⟨hgone, hkeys⟩ := dropSa_unbinds hx
  refine ⟨ethSettle (ethSweep (dropSa id s)), ?_, (congrArg (fun e : Eth => tget e.sas id) heth).trans hgone, fun k hk hg => ?_⟩
  · change execSaDrained id s = _
    simp [execSaDrained, onUnit, hid, hx, hr, hf]
  · exact (congrArg (fun st : Store => tget st.c.keys x.slot) hstore).trans (hkeys k hk hg)

end SaGoes

theorem exec_saSwitch {y : Secy} (a : Accepted mb 0x051A q s) (hc : saSwitchCheck mb q s = none) (hy : getSecy (fld q.body 0 1) s = some y) :
    Ends (.saSwitch mb) s mb { body := leBytes 8 (y.encAn.getD 0) ++ beBytes 8 (match encSa y s with | some a => a.next | none => 0) }
      { s with eth.secys := tmod s.eth.secys (fld q.body 0 1) (fun y => { y with encAn := some (fld q.body 1 1) }) } := by
  change execSaSwitch mb s = _
  rw [execSaSwitch]
  refine runCmd_reply _ a ?_
  rw [direct_run hc]
  dsimp only
  rw [hy]
  rfl

theorem exec_saSet {x : Sa} (a : Accepted mb 0x051B q s) (hc : saSetCheck mb q s = none) (hx : tget s.eth.sas (fld q.body 0 4) = some x) :
    Ends (.saSet mb) s mb {}
      { s with eth.sas := tset s.eth.sas (fld q.body 0 4) { x with enable := bitOf (fld q.body 4 1) 1, lowest := max x.lowest (beFld q.body 8 8), next := max x.next (beFld q.body 8 8) } } := by
  change execSaSet mb s = _
  rw [execSaSet]
  refine runCmd_reply _ a ?_
  rw [direct_run hc]
  simp only [tmod, hx]

end Commands

/-! ### The statement -/

/-- Settles O44: the ports, the SecYs and SCs, and the SAs, command by command. -/
theorem macsecCommandsComplete : Obligations.MacsecCommandsComplete := by
  unfold Obligations.MacsecCommandsComplete
  rintro mb q n s rfl
  refine ⟨exec_portConfig, exec_portSet, fun h hc => (runCmd_reply _ h (direct_run hc) : execPortStatus mb s = _), exec_portRetrain, exec_secyCreate,
    fun h hc => (runCmd_reply _ h (direct_run hc) : execSecySet mb s = _), exec_secyDestroy,
    fun h hc => (runCmd_reply _ h (direct_run hc) : execScAdd mb s = _), fun id h hid hc hs hb => hid ▸ exec_scRemove h hc hs (hid ▸ hb),
    fun c slot k h hc hd hcan hsc hr hin hpin => ⟨fun htx => ?rx, fun htx => ?tx⟩,
    fun id x hx hf => ⟨exec_saRemove hx hf, exec_saDrained hx hf⟩, fun y h hc hy => exec_saSwitch h hc hy, fun x h hc hx => exec_saSet h hc hx,
    fun h hc => (runCmd_reply _ h (direct_run hc) : execMacsecStats mb s = _),
    fun h hc => ⟨_, rfl, (runCmd_reply _ h (direct_run hc) : execFrameRingCreate mb s = _)⟩⟩
  case rx =>
    obtain ⟨t, a, b, hrun, hrest⟩ := saAddRun_rx (mb := mb) hsc hr hin hpin htx
    exact ⟨t, a, b, (runCmd_reply _ h ((guarded_run hc hd).trans ((storeRun_run hcan).trans hrun)) : execSaAdd mb s = _), hrest⟩
  case tx =>
    obtain ⟨t, a, b, r, hrun, hrest⟩ := saAddRun_tx (mb := mb) hsc hr hin hpin htx
    exact ⟨_, a, b, r, (runCmd_hold _ h ((guarded_run hc hd).trans ((storeRun_run hcan).trans hrun)) : execSaAdd mb s = _), (holdMb_wait _ _ _ _).1, hrest⟩

end Sys2Proof.Machine
end
